-- ==== Sys2Proof/Word.lean ====
section
/-!
DEFINITION. The word types of the part and their plainest arithmetic. The numbering of trees, channels, lanes, ONUs
and dies is R11's; each is a bit vector whose width holds exactly the numbers the spec gives.
-/

namespace Sys2Proof

abbrev Byte := BitVec 8
/-- A register, a parameter word, a stitch: 32 bits. -/
abbrev Word := BitVec 32

abbrev Die := BitVec 4
abbrev Tree := BitVec 5
abbrev Chan := BitVec 7
abbrev Lane := BitVec 6
abbrev TLane := BitVec 3
abbrev Onu := BitVec 14

/-- The signed reading of an `n`-bit number. -/
def signedOf (n : Nat) (v : Nat) : Int :=
  if v % 2 ^ n < 2 ^ (n - 1) then (v % 2 ^ n : Nat) else (v % 2 ^ n : Nat) - (2 ^ n : Nat)

/-- The `n`-bit two's complement of an integer. -/
def unsignedOf (n : Nat) (v : Int) : Nat := (v % (2 ^ n : Nat)).toNat

def ceilDiv (a b : Nat) : Nat := (a + b - 1) / b

end Sys2Proof
end

