-- ==== Sys2Proof/Names.lean ====
section
/-! DEFINITION. The names the spec gives: blocks (R500), registers, counters and events, and what a register field is.
A register keeps no offset here (the directory of R501 and R502 is not in the spec), so registers are named by name. -/
namespace Sys2Proof

/-- The blocks of R500. -/
inductive Blk where
  | tb | pipe | prs | rul | frg | br
  | lpm | svc | lrn | cst | dst | qm
  | sch | plc | gt | edt | sp | sq
  | hbm | xb | kv | lsh | lnp | pch
  | brx | gnt | act | skn | cad | cph
  | pmb | lnu | umac | msc | tsi | tnd
  | sys | evt | pwr | tns | rmd | sec
  | ggc
deriving DecidableEq, Repr

/-- The registers the spec names. An indexed register (EVT_STATg, SP_BANK_OWNERb) is one name with an index;
QSEL selects the SCH_Q_* registers as NDSEL the SCH_ND_* ones. `tbActKind` is the staged kind bits [4:1] of TB_ACT_CTL (R75). -/
inductive Reg where
  | sysId | sysDevnum | sysAccErr | sysCaston | rtnsel | sysRtnCfg
  | sysRtnStat | blkId | chsel | onusel | alcsel | lnsel
  | sksel | trsel | coresel | tresel | qsel | plsel
  | gtsel | gesel | ndsel | apsel | epsel | rtsel
  | ridx | htsel | tpsel | rgsel | tbLatch | tbSnapSecHi
  | tbSnapSecLo | tbSnapNs | tbSnapFrac | tbIncr | tbIncrFrac | tbActSecHi
  | tbActSecLo | tbActNs | tbSetSecHi | tbSetSecLo | tbSetNs | tbStepSec
  | tbStepNs | tbPincInt | tbPincFrac | tbSlewOfsHi | tbSlewOfsLo | tbSlewCyc
  | tbActKind | tbActCtl | tbStat | tbWdog | tbPinCfg | tbPinStartSecHi
  | tbPinStartSecLo | tbPinStartNs | tbPinPeriod | tbPinWidth | tbCapStat | tbCapSecHi
  | tbCapSecLo | tbCapNs | tbCapFrac | tbCapPop | tbDivCfg | tbFleCfg
  | tbPpsCfg | gntPinCfg | tsiIngAdj | tsiEgrAdj | lnuCtl | lnuStat
  | lnuMode | tndCtl | tndStat | lnpCtl | pchCfg | pchStat
  | pchTree | brxDlnCfg | tndDlnCfg | cadDlnCfg | gntTreeCfg | gntChCfg
  | gntChStat | gntAlcFix | gntAlcAsr | gntAlcNas | gntAlcMax | gntAlcId
  | gntAlcCfg | gntAlcCommit | gntAlcStat | gntAlcDemand | brxPrfCfg | brxPrfPreHi
  | brxPrfPreLo | brxPrfDlmHi | brxPrfDlmLo | brxChCfg | brxChStat | brxRsmCfg
  | actTreeCfg | actTreeTmr | actTreeStat | actChCfg | actOnuId | actOnuStat
  | actOnuEqd | sknCfg | cadTribCfg | cadTribQ | cadTribWl | cadTribWh
  | cadTribCommit | cadTribStat | prsCfg | frgCfg | rulTblCfg | rulKey
  | rulEntVal | rulEntMsk | rulEntPri | rulEntAct | rulEntWr | rulCommit
  | rulVer | prsHdr | brAccData | brAccCtl | brAccStat | brSeed
  | lrnCfg | brAgeCfg | lrnStat | qmQCfg | qmPrfCells | qmPrfDt
  | qmQStat | qmQPages | cstPoolCfg | cstStat | dstCfg | dstFree0
  | dstFree1 | edtOp | edtCommit | schNdCfg | schNdPar | schNdCir
  | schNdPir | schNdCbs | schNdPbs | schNdStat | schQCfg | schQPar
  | schQCir | schQPir | schQCbs | schQPbs | schQStat | plcCfg
  | plcCir | plcEir | plcCbs | plcEbs | gtEntInt | gtEntGates
  | gtBaseSecHi | gtBaseSecLo | gtBaseNs | gtCycle | gtStartSecHi | gtStartSecLo
  | gtStartNs | gtGateCfg | gtListCtl | gtStat | secStat | secCfg
  | secAlarm | cphCoreStat | mscCoreStat | mscPortCfg | mscPnThr | tndPairCfg
  | tndPairStat | tndTreeCfg | tndTreeStat | lshRingBaseHi | lshRingBaseLo | lshRingCfg
  | lshRingPtr | lshStat | lshInbMacHi | lshInbMacLo | evtStat | evtMask
  | evtRoute | evtRingWr | evtRingRd | evtRingRec | evtRingStat | sqStat
  | sqTmo | sqDarnLevel | spBankOwner | hbmSegOwner | hbmCfg | hbmPcMap
  | secLifecycle | secOwnerHash | ggcUnit | ggcCfg | ggcOvf | ggcCntHi
  | ggcCntLo | ggcSnapStat | ggcPmCfg | pwrTemp | pwrPkgMw | pwrThermCfg
  | pwrDomStat | tnsCfg | tnsStat | rmdKind | rmdCfg
deriving DecidableEq, Repr

/-- The counters the spec names. -/
inductive Ctr where
  | actCfgReject | actDiscOvf | actEqdAdj | actFenceLate | actKeyFail | actLob
  | actLostDeact | actPdkLate | actReachBad | actRegBad | actRngFail | actRogueIdle
  | actSnDisabled | actSnDup | actSnFound | actSnGarble | actSnUnknown | brAged
  | brCfgReject | brFlood | brInsFail | brIsolate | brMemCorr | brMemErr
  | brRefreshDrop | brScanLate | brxBipErr | brxBurstMiss | brxDbruBad | brxDelimBiterr
  | brxDelimMiss | brxDlnAbandon | brxDlnLoss | brxDrift | brxFecBits | brxFecCorr
  | brxFecUncorr | brxHecBad | brxHecCorr | brxKeyBad | brxOnuMismatch | brxPloamMic
  | brxPortBad | brxPrfReject | brxRsmFlush | brxRsmNobuf | brxRsmSize | brxRsmTaint
  | brxRsmTimeout | brxXgemDrop | cadCfgReject | cadContLost | cadDlnAbandon | cadDlnLoss
  | cadJcBad | cadMemberLoss | cadPwLate | cadPwLost | cadSlip | cphMemCorr
  | cphOmciMic | cstIngNobuf | cstMemErr | dstDeepEnter | dstEccCorr | dstEccDrop
  | dstHold | dstNopage | dstPageLimit | dstPfLate | edtLenDrop | edtOpSkip
  | edtPad | evtRecDrop | frgDup | frgFull | frgOrphan | ggcSnapSkip
  | gntAllocCap | gntAssuredShort | gntCoopClip | gntCtiBad | gntCtiFull | gntCtiLate
  | gntFixedShort | gntMemCorr | gntMemErr | gntPackClip | gntRecReject | gntRptMiss
  | gntRssiExpire | gntRstSqueeze | gtCfgReject | gtHoldLate | gtMemCorr | gtMemErr
  | gtOverrun | gtOversize | gtStartAdv | hbmEccCorr | hbmEccErr | hbmPageRetire
  | hbmPcFail | kvUnwrapBad | lnpAcqLate | lnpPllFail | lnpPrbsErr | lnpRefLoss
  | lnpTxOffDrop | lnuFecCorr | lnuFecSym | lnuFecUncorr | lnuLinkDown | lnuModeReject
  | lnuPllFail | lnuPrbsErr | lnuRefLoss | lnuTrainFail | lnuTxDownDrop | lnuTxOffDrop
  | lpmMiss | lpmTtl | lrnFreeze | lrnLimit | lrnMerge | lrnMove
  | lrnMoveFrozen | lrnNew | lrnQDrop | lrnStaticViol | lshBadPkt | lshCfgReject
  | lshHdrBad | lshInbAuth | lshInbDrop | lshInbReplay | lshInjBad | lshMbxBusy
  | lshPtrBad | lshRefused | mscIcvBad | mscJobAuthFail | mscMemCorr | mscNoSa
  | mscPnExhaust | mscReplay | mscTxZero | mscUntagged | pchBwmapLate | pchKeyAbsent
  | pchPloamFull | pchStopDrop | pipeParErr | pipeRecircDrop | pipeRecircLoop | plcMemCorr
  | plcMemErr | plcRedDrop | pmbSecLost | pmbTcaDrop | prsDepth | prsLenConflict
  | prsLenConflictHost | prsTrailer | pwrThermMax | pwrThermWarn | qmBodyBad | qmCtStomp
  | qmDiscardQ | qmDropGreen | qmDropRed | qmDropYellow | qmFlush | qmHostDrop
  | qmReplDrop | rmdEmpty | rmdIn | rmdWear | rulCommitBusy | rulEntReject
  | rulMemCorr | rulMemErr | rulQBad | rulSpoof | schCfgReject | schMemCorr
  | schMemErr | schRelShort | schUnattached | secAlarm | secDarnReject | secIdBad
  | secLcReject | secNonapproved | secZeroize | sknFragSplit | sknGap | sknHoldFull
  | sknLate | sknMemberDown | sknRngFail | sknTagBad | spDmaErr | spEccCorr
  | spEccErr | spNonowner | spOwnerReject | sqClaimDrop | sqDarnHold | sqHandover
  | sqMcheck | sqWaitTmo | sramPatrolFail | svcMiss | sysAccErr | sysBadEnc
  | sysHlDown | sysHlPllFail | sysHlRetrain | sysRtnBorrowNs | sysRtnReject | sysRtnSpent
  | sysSramFail | sysUcieDown | sysUnclaimedWr | tbActBusy | tbActLate | tbCapOvf
  | tbDiv | tbFrameErr | tbIncrReject | tbPinBad | tbRefHold | tbServoWdog
  | tbShortPast | tndAuthFail | tndBringupFail | tndCfgReject | tndCrcBad | tndCutLate
  | tndDevnumDup | tndDiverge | tndDlnAbandon | tndDlnLoss | tndDrillFail | tndEqdNeg
  | tndHalterContend | tndHalterLost | tndHdrBad | tndLaneMismatch | tndLinkDown | tndLockLoss
  | tndPairBad | tndPllFail | tndPrbsErr | tndRefLoss | tndResendFail | tndSeniorBad
  | tndTakeover | tndUnreadyDeact | tnsDroopNs | tnsEpisode | tnsHard | tnsStretchNs
  | tsiEgrOvf | tsiLateDrop | umacRxFcs
deriving DecidableEq, Repr

/-- The events the spec names, each without its EV_ prefix, in ascending ASCII order (R514). -/
inductive Ev where
  | actCfgReject | actDeact | actDiscOvf | actFenceLate | actKeyFail | actLob
  | actPdkLate | actReach | actRegBad | actRngFail | actRogue | actSnDup
  | actSnFound | brxBurstMiss | brxDbruBad | brxDelim | brxDlnLoss | brxDrift
  | brxFec | brxHec | brxKey | brxOnuMismatch | brxPloamMic | brxPort
  | brxPrfReject | brxRsmNobuf | brxRsmSize | brxRsmTimeout | brCfgReject | brInsFail
  | brMemErr | brScanLate | cadCfgReject | cadContLost | cadDlnLoss | cadJcBad
  | cadMemberLoss | cadPw | cadSlip | cphOmciMic | cstIngNobuf | cstMemErr
  | cstPoolEmpty | dstEcc | dstNopage | edtLen | frgFull | frgOrphan
  | gateCfgReject | gateMemErr | gateOverrun | gateOversize | gateStartAdvanced | ggcSnapDone
  | ggcSnapSkip | ggcTca | gntAllocCap | gntAssuredShort | gntCoopClip | gntCtiBad
  | gntCtiFull | gntCtiLate | gntFixedShort | gntMemErr | gntPackClip | gntRecReject
  | gntRssiExpire | gntRstSqueeze | hbmEcc | hbmPcFail | kvUnwrapBad | lnpAcqLate
  | lnpPll | lnpRefLoss | lnuFecDegrade | lnuLinkDown | lnuLinkUp | lnuModeReject
  | lnuPll | lnuRefLoss | lnuTrainFail | lpmMiss | lrnFreeze | lrnLimit
  | lrnQDrop | lrnStaticViol | lshBadPkt | lshCfgReject | lshHdrBad | lshInbAuth
  | lshInbDrop | lshInbReplay | lshInjBad | lshMbxBusy | lshPtrBad | lshReply
  | lshTrap | mscNoSa | mscPnExhaust | mscPnThr | pchBwmapLate | pchKeyAbsent
  | pchLaunched | pchPloamFull | pchStopped | pipeRecircDrop | pipeRecircLoop | plcMemErr
  | pmbSecLost | pmbTca | prsLenConflict | pwrThermMax | pwrThermWarn | qmCtStomp
  | qmHostDrop | qmReplDrop | rmdEmpty | rmdIn | rmdWear | rulEntReject
  | rulMemErr | rulQBad | rulSpoof | schCfgReject | schMemErr | schUnattached
  | secAlarm | secDarnReject | secIdBad | secNonapproved | secZeroize | sknGap
  | sknHoldFull | sknLate | sknMemberDown | sknRngFail | sknTagBad | spDmaErr
  | spEcc | spNonowner | spOwnerReject | sqDarnHold | sqHandover | sqMcheck
  | sqWaitTmo | svcMiss | sysAccErr | sysBadEnc | sysCastonDone | sysHlDown
  | sysHlPll | sysRtnReject | sysRtnSpent | sysSramFail | sysUcieDown | sysUnclaimedWr
  | tbActLate | tbCapOvf | tbDiverge | tbFrameErr | tbIncrReject | tbPinBad
  | tbRefHold | tbServoWdog | tndAuthFail | tndBringupFail | tndCfgReject | tndCrc
  | tndDevnumDup | tndDiverge | tndDlnLoss | tndDrillFail | tndEqdNeg | tndHalterContend
  | tndHalterLost | tndHalterOwn | tndLinkDown | tndLockstep | tndLockLoss | tndPairBad
  | tndPll | tndRefLoss | tndSeniorBad | tndTakeover | tnsHard | tnsLong
  | tsiEgrOvf | tsiLate
deriving DecidableEq, Repr

/-- Register access codes (R6). -/
inductive Acc where
  | rw | ro | w1c | w1s | wo | rwc
deriving DecidableEq, Repr

/-- One field of a register: the register, its lowest bit and its width. -/
structure Fld where
  reg : Reg
  lo : Nat
  w : Nat
deriving DecidableEq, Repr

/-- How a register's instance is found from an access (R508, R509): by the package, its die, the path's own copy,
or one of the selects. -/
inductive Scope where
  | pkg | path | rtn | blk | sel | single | pin | ch | lane | octet | tlane | lnpch | tree | die | trib | alcst | alc | prf | slot | skein | tribst | rtable | htype | queue | aprof | node | pol | ge | gctl | core | port | pair | ptree | ring | gunit
deriving DecidableEq, Repr

end Sys2Proof
end

