-- ==== Sys2Proof/Syntax.lean ====
section
/-!
DEFINITION. The commands the block takes, one constructor per row of the opcode table, with their operands. A Laosh
command carries a header (`Hdr`) and its parameter words as R470 orders them; an event or a time-driven row carries
which object it concerns and what came in with it.
-/

namespace Sys2Proof

/-- The three Laosh paths (R468). -/
inductive Path where
  | pcie | i3c | inband
deriving DecidableEq, Repr

/-- What may access registers: the PCI Express path, the I3C path and each of the 22 sequencers (R509). -/
inductive APath where
  | pcie | i3c
  | seq (n : BitVec 5)
deriving DecidableEq, Repr

/-- The header fields of an accepted command packet that its effect depends on (R468). -/
structure Hdr where
  path : Path
  tag : BitVec 16
  gen : BitVec 8
  die : Die
deriving DecidableEq, Repr

/-- A register access (R503): the address with die [25:22], block [21:16] and offset [15:0], the register the
directory holds there (none: no entry), which of an indexed register, whether byte enables are partial, the data. -/
structure RegAccess where
  path : APath
  addr : BitVec 26
  reg : Option Reg
  idx : Nat
  partialBe : Bool
  data : Word
deriving DecidableEq, Repr

/-- A full-form time in parameter words (R470): seconds [47:32], seconds [31:0], nanoseconds. -/
structure T3 where
  hi : Word
  lo : Word
  ns : Word
deriving DecidableEq, Repr

/-- The 14 parameter words of TIME.ACTION (R638). -/
structure ActionWords where
  kinds : Word
  instant : T3
  setValue : T3
  stepSec : Word
  stepNs : Word
  incrInt : Word
  incrFrac : Word
  slewHi : Word
  slewLo : Word
  slewCyc : Word
deriving DecidableEq, Repr

/-- A lane by family (0 PON TX, 1 PON RX, 2 uplink, 3 tandem, 4 host link) and index (R106). -/
structure LaneRef where
  family : BitVec 3
  index : BitVec 7
deriving DecidableEq, Repr


/-- The parameters of R143 in GRANT.ALLOC_SET, after the ONU index and the Alloc-ID. -/
structure AllocWords where
  fixed : Word
  assured : Word
  nonAssured : Word
  weight : Word
  max : Word
  band : Word
  rpt : Word
  dbruIvl : Word
  profile : Word
deriving DecidableEq, Repr

/-- What reaches the grant engine of an Alloc-ID (R146): the occupancy of a DBRu, in bytes, with the count of the frame
whose map granted its burst; or the bytes sent in its last grant, idle excluded, and whether it was fully used. -/
inductive GrantReport where
  | dbru (bytes : Word) (frame : BitVec 51)
  | usage (bytes : Word) (full : Bool)
deriving DecidableEq, Repr

/-- The parameters of TREE.PROFILE_SET after the channel and the profile index (R193). -/
structure ProfileWords where
  rate : Word
  fec : Word
  pre : BitVec 64
  preLen : Word
  dlm : BitVec 64
  dlmLen : Word
  tol : Word
deriving DecidableEq, Repr

/-- An XGEM-style header as the receiver reads it at a 4-byte-aligned position of a unit (R129): the HEC's verdict
(0 syndrome zero, 1 at most 2 bit errors, 2 uncorrectable), PLI, key index, port ID and LF as read, a name for the
payload, the leading bytes as received of the SDU it completes (a skein tag of R241, a container's header of R248, a frame's head), and
the integrity code with which that SDU ends if it is an OMCI message (R412). -/
structure XgemHead where
  pos : BitVec 20
  hec : BitVec 2
  pli : BitVec 14
  key : BitVec 2
  port : BitVec 16
  last : Bool
  name : BitVec 32
  lead : List Byte
  mic : BitVec 32
deriving DecidableEq, Repr

/-- The parameters of SKEIN.TRIB_SET after the Alloc-IDs (R259): playout in nanoseconds (log entry 51). -/
structure TribWords where
  nd : Word
  q : Word
  ppm : Word
  wl : Word
  wh : Word
  kind : Word
  udp : Word
  payload : Word
  playout : Word
deriving DecidableEq, Repr

/-- The parameters of TABLE.BD_SET (R320). -/
structure BdWords where
  domain : Word
  valid : Word
  learn : Word
  isolate : Word
  route : Word
  vrf : Word
  rmac : Word
  flood : Word
  unknown : Word
deriving DecidableEq, Repr

/-- The parameters of TABLE.SVC_SET (R320): `target` is a domain or a destination as kind × 2^18 + number, `policer` all
ones for none, an upstream source the ONU index × 65536 + XGEM port (log entry 59). -/
structure SvcWords where
  dir : Word
  source : Word
  ovid : Word
  ivid : Word
  mode : Word
  target : Word
  policer : Word
  prog : Word
  learn : Word
  macLimit : Word
  ret : Word
  upBase : Word
deriving DecidableEq, Repr

/-- The parameters of TABLE.NH_SET after the index (R320). -/
structure NhWords where
  kind : Word
  dest : Word
  dmac : BitVec 48
  smac : Word
  prog : Word
  domain : Word
  strip : Word
deriving DecidableEq, Repr

/-- The parameters of QUEUE.NODE_SET (R377): rates in steps of 8 kb/s, bursts in 64-byte units. -/
structure NodeWords where
  dir : Word
  level : Word
  index : Word
  enable : Word
  band : Word
  weight : Word
  parent : Word
  cir : Word
  pir : Word
  cbs : Word
  pbs : Word
deriving DecidableEq, Repr

/-- The parameters of QUEUE.ATTACH after the queue (R377). -/
structure AttachWords where
  parent : Word
  band : Word
  weight : Word
  gate : Word
  cir : Word
  pir : Word
  cbs : Word
  pbs : Word
deriving DecidableEq, Repr

/-- The parameters of QUEUE.POLICER_SET after the policer (R377). -/
structure PolicerWords where
  valid : Word
  typ : Word
  aware : Word
  deiIn : Word
  cf : Word
  redAct : Word
  cir : Word
  eir : Word
  cbs : Word
  ebs : Word
deriving DecidableEq, Repr

/-- The parameters of KEY.MSC_SA_SET (R434): direction 0 transmit, 1 receive; salt in three words. -/
structure SaWords where
  port : Word
  dir : Word
  sciHi : Word
  sciLo : Word
  an : Word
  suite : Word
  handle : Word
  pnHi : Word
  pnLo : Word
  salt : BitVec 96
  ssci : Word
  offset : Word
  validate : Word
  window : Word
deriving DecidableEq, Repr

/-- The parameters of KEY.JOB (R421): ranges as byte offset and length in one bank of the half's core die; for decryption
and verification the IV and the tag. -/
structure JobWords where
  half : Word
  mode : Word
  dir : Word
  handle : Word
  bank : Word
  inOff : Word
  inLen : Word
  outOff : Word
  aadOff : Word
  aadLen : Word
  iv : List Word
  tag : List Word
deriving DecidableEq, Repr

/-- How much of a DMA transfer moved: bytes, and the words read from host memory (R555). -/
structure DmaMoved where
  bytes : BitVec 25
  data : List Word
deriving DecidableEq, Repr

/-- Why a DMA transfer stopped (R555, R552): not at all, on a host-memory error, on an uncorrectable HBM error in a page. -/
inductive DmaEnd where
  | whole
  | hostError
  | hbmError (page : BitVec 22)
deriving DecidableEq, Repr

/-- A SecTAG as read at a frame's head (R414): SCI, AN and packet number, the XPN upper half recovered. -/
structure SecTag where
  sci : BitVec 64
  an : BitVec 2
  pn : BitVec 64
deriving DecidableEq, Repr

/-- A frame at an uplink port (R64, R327, R413): a name for it, its length and leading bytes as on the wire but for its SecTAG, whether its FCS passes, as far as that is known, its SecTAG, and whether its last byte is still to come: then ICV_VERDICT
tells how it ends. -/
structure UplinkRx where
  name : BitVec 32
  len : BitVec 14
  head : List Byte
  fcsOk : Bool
  tag : Option SecTag
  coming : Bool
deriving DecidableEq, Repr

/-- How a frame at an uplink port ends (R99, R414): the ICV received, where it is secured, and whether its FCS passes. -/
structure FrameEnd where
  icv : BitVec 128
  fcsOk : Bool
deriving DecidableEq, Repr

/-- What a mirror record tells of a tree (R453, R454): configuration and state, as commands and events have left them. -/
inductive MirrorItem where
  /-- The configuration that R442 compares. -/
  | config (words : List Word)
  | protect (on : Bool)
  /-- The tree's whole state follows. -/
  | whole
  /-- The tree's offset and configuration registers. -/
  | regs (words : List Word)
  /-- The tree is launched, or to be, its first frame so numbered; or it stops. -/
  | grid (on : Bool) (count : BitVec 51)
  /-- An ONU's slot: its index, what it was provisioned with, its state, and the instants at which it entered its phase and was last asked
  for a key, as signed µs from the record's. -/
  | onu (onu : Onu) (slot : BitVec 12) (auto : Bool) (regId : Option (List Word)) (wl downWl : BitVec 2) (onuId : BitVec 10) (serial : BitVec 64) (phase : BitVec 4) (eqd : Word) (keySlot : BitVec 2)
      (since asked : Word)
  | onuGone (onu : Onu)
  | port (onu : Onu) (port : BitVec 16) (kind : BitVec 2) (dir : BitVec 2)
  | portGone (onu : Onu) (port : BitVec 16)
  | rest (kind : BitVec 2) (value : BitVec 16) (us : Word)
  | alloc (rec_ : BitVec 16) (onu : Onu) (allocId : BitVec 16) (p : AllocWords) (member : Option (BitVec 2))
  | allocGone (onu : Onu) (allocId : BitVec 16)
  /-- A fence of R219: the target channel (none: the partner), frame M, the time to the fence in µs, frame K. -/
  | fence (onu : Onu) (target : Option Chan) (frameM : BitVec 51) (us : Word) (frameK : BitVec 51)
  | hint (rec_ : BitVec 16) (first : BitVec 51) (frames : Word) (bytes : Word)
  /-- An RSSI arm: ONU, first frame (none: the first after the next cutoff), bursts to flag. -/
  | arm (onu : Onu) (start : Option (BitVec 51)) (left : BitVec 8)
  /-- A quiet window: its channel, the ONU of a ranging window, W, j, s and length (R207). -/
  | window (chan : Chan) (onu : Option Onu) (frame : BitVec 51) (j start len : BitVec 16)
  | windowGone (chan : Chan) (frame : BitVec 51)
  /-- A serial number disabled without being provisioned (R223). -/
  | silent (serial : BitVec 64)
  | silentGone (serial : BitVec 64)
  /-- An ONU joined to a skein, with its members and their EqDs. -/
  | skein (onu : Onu) (skein : BitVec 6) (anchor : BitVec 2) (members : List (BitVec 2 × Word))
  | skeinGone (onu : Onu)
  /-- A tributary: what it binds, its members' Alloc-IDs by wavelength, and its numbers: nd, q, ppm, wl, wh, kind, UDP port, payload,
  playout, and CAD_DLN_CFG. -/
  | trib (index : BitVec 10) (onu : Onu) (port : BitVec 16) (skein : Option (BitVec 6)) (members : List (BitVec 2 × BitVec 16))
      (words : List Word)
  | tribGone (index : BitVec 10)
  /-- A virtual time, and what the grant engine keeps of a record (R146-R152). -/
  | virtual (chan : Chan) (place : BitVec 4) (v : Word)
  | engine (rec_ : BitVec 16) (words : List Word)
deriving DecidableEq, Repr

/-- A tandem record as delineated (R444, R445): what each type carries. A pair record tells the peer's device number, strap,
whether certificate and signature verify and R562 holds, and its ephemeral key; a key record a key wrapped under the pair
key, of kind 0 MSK, 1 KEK, 2 OMCI IK, 3 PLOAM IK, 4 unicast, 5 broadcast, its owner, slot, and a switch count. -/
inductive TndRecord where
  | pair (devnum : BitVec 10) (senior : Bool) (authOk : Bool) (pub : List Word)
  | ack (stream : Byte) (seq : BitVec 28)
  | heartbeat (halter : BitVec 3) (ready : Word)
  | mirror (tree : Tree) (effective : BitVec 51) (item : MirrorItem)
  | report (rec_ : BitVec 16) (bytes : Word) (arrival : Word)
  | cut (tree : Tree) (frame : BitVec 51) (reports : Word) (mirrors : Word)
  | key (kind : BitVec 3) (owner : Onu) (slot : BitVec 2) (wrapped : List Word) (switch : Option (BitVec 51))
  | digest (chan : Chan) (frame : BitVec 51) (value : BitVec 64) (selfBad : Bool)
  | yield
  | drill (phase : BitVec 2) (figures : List Word)
deriving DecidableEq, Repr

/-- A record with its sequence number within its type's stream. -/
structure TndRx where
  seq : BitVec 28
  body : TndRecord
deriving DecidableEq, Repr

/-- An allocation of a burst as received (R183-R186): a PLOAMu's message and MIC and the ONU-ID it names, the verdict on a
DBRu's CRC and its occupancy in bytes, the headers of the payload. A part the map did not ask for is not read. -/
structure BurstAlloc where
  message : BitVec 320
  mic : BitVec 64
  named : BitVec 10
  crcOk : Bool
  occupancy : Word
  heads : List XgemHead
deriving DecidableEq, Repr

/-- A burst as received (R177-R182): whether the loop had locked in time; the bits received at the positions at which the
delimiter is tried, as offsets from its expected start in UI with the 64 bits from there on; the header's HEC verdict (0 correct, 1
corrected, 2 uncorrectable), ONU-ID and indication; with FEC on each codeword's corrected bits, none where uncorrectable; mismatched
BIP bits; its allocations in the map's order. -/
structure BurstRx where
  locked : Bool
  positions : List (BitVec 32 × BitVec 64)
  hec : BitVec 2
  onuId : BitVec 10
  indication : BitVec 9
  codewords : List (Option (BitVec 15))
  bip : BitVec 6
  allocs : List BurstAlloc
deriving DecidableEq, Repr

/-- A unit with a parity error (R617): a pipeline of a half, the TC of a line die's region, the PCS of an uplink die's. -/
inductive ParityUnit where
  | pipeline (half : BitVec 1) (n : BitVec 4)
  | tc (line n : BitVec 2)
  | pcs (uplink : BitVec 1) (n : BitVec 2)
deriving DecidableEq, Repr

/-- A lookup or learning table's entry (R319): by slot, number or place in the order of the table. -/
inductive TableMem where
  | bridge (slot : BitVec 23)
  | service (n : BitVec 20)
  | route (place : Word)
  | nextHop (n : BitVec 18)
  | binding (place : Word)
  | domain (n : BitVec 16)
  | routerMac (n : BitVec 4)
  | flood (n : BitVec 14)
deriving DecidableEq, Repr

/-- What a page of HBM holds for the patrol to lose (R552): deep-queue cells, a held SDU, a member's container, a bin, DMA data. -/
inductive HbmUse where
  | deep
  | sdu (onu : Onu) (seq : BitVec 24)
  | container (trib : BitVec 10) (mfi : Byte) (wl : BitVec 2)
  | bin (kind : BitVec 3) (index : BitVec 16) (day : Bool) (back : Byte)
  | dma
deriving DecidableEq, Repr

/-- A frame in a pool of the cell store before or beside the queues (R326, R346): on its way to its admission by its name, a reassembly context
by tree and XGEM port, an SDU held for a skein by ONU and seq, a frame for the trap ring by its place. -/
inductive PoolMem where
  | way (frame : BitVec 32)
  | context (tree : BitVec 5) (port : BitVec 16)
  | held (onu : Onu) (seq : BitVec 24)
  | trap (place : Word)
deriving DecidableEq, Repr

/-- The memory word the patrol scrub visits with an error in it (R547, R552, and the chapters' own failure tables). -/
inductive ScrubSite where
  | alloc (line : BitVec 2) (rec_ : BitVec 14)
  | rule (half : BitVec 1) (table : BitVec 4) (index : BitVec 16)
  | table (half : BitVec 1) (m : TableMem)
  | cells (half : BitVec 1) (queue : BitVec 26) (frame : BitVec 16)
  | pool (half : BitVec 1) (m : PoolMem)
  | node (half : BitVec 1) (n : BitVec 30)
  | policer (half : BitVec 1) (n : BitVec 17)
  | gate (half : BitVec 1) (g : BitVec 7)
  | keyRam (die : BitVec 3) (cluster : BitVec 1)
  | pad (die : BitVec 3) (bank : BitVec 6) (word : BitVec 17)
  | hbm (half stack : BitVec 1) (page : BitVec 22) (use : HbmUse)
  /-- The HBM patrol of a half begins a round. -/
  | round (half : BitVec 1)
  /-- An on-die memory fails the patrol for good: it needs a repair entry (R617). -/
  | sram (die : BitVec 3)
deriving DecidableEq, Repr

/-- How a cast-on stage ended (R577, R578): whether the fuses read; the references present; UCIe links beyond their spares and
those that took a spare lane; pseudo-channels that failed training, by half and stack × 16 + k; units whose memory failed its
test with no repair entry left; whether the ROM digests match; cores that failed their tests by die, whether a shared
algorithm or an entropy source did, and whether the identity key matches the certificate. -/
inductive StageEnd where
  | fuse (ok : Bool)
  | clock (upl0 upl1 : Bool) (pon : BitVec 4) (tnd pcie : Bool)
  | link (down spares : List (BitVec 3))
  | hbm (failed : List (BitVec 1 × BitVec 5))
  | clear (sram : List ParityUnit)
  | firmware (ok : Bool)
  | selftest (failed : List (BitVec 3 × BitVec 7)) (shared : Bool) (idOk : Bool)
deriving DecidableEq, Repr


/-- The commands: one constructor per row of the opcode table, in its order. -/
inductive Instr where
  /-- R7. A host or firmware write to a register that has no row of its own; its fields take the write under their access codes, with unclaimed-RWC, reserved-encoding and access-error handling. -/
  | registerWrite (a : RegAccess)
  /-- R506. A read of a _LO register latches the _HI half into the path's shadow for its next _HI read. -/
  | hiLoReadLatch (a : RegAccess)
  /-- R506. A write of a _LO register commits the path's staged _HI together with it in one cycle on the selected instance. -/
  | hiLoWriteCommit (a : RegAccess)
  /-- R507. An I3C private write of form 0x57 0x52 writes a register. -/
  | i3cRegisterWrite (bytes : List Byte) (reg : Option Reg) (idx : Nat)
  /-- R507. An I3C private write of form 0x52 0x44 arms a register read for the next private read. -/
  | i3cRegisterReadArm (bytes : List Byte) (reg : Option Reg) (idx : Nat)
  /-- R16. A UCIe module loses more lanes than it has spares; the link goes down and every port using it stops until cast-on. -/
  | ucieLinkDown (link : BitVec 3)
  /-- R27. At every TAI multiple of 125 µs a ration period starts and every ration meter resets to zero. -/
  | rationPeriodStart
  /-- R36. After a backward step, 125 µs of elapsed time without a TAI boundary forces a new ration period. -/
  | rationPeriodForced
  /-- R30. An activity's meter reaches its budget; the ration is spent, counted and optionally raised, and the activity waits or borrows. -/
  | rationSpent (die : BitVec 3) (index : BitVec 6)
  /-- R637. Sets a ration's budget, borrowing and event bits, refusing sums that break R33. -/
  | sysRationSet (h : Hdr) (index : Word) (cfg : Word)
  /-- R637. Returns SYS_RTN_CFG and SYS_RTN_STAT of one ration. -/
  | sysRationGet (h : Hdr) (index : Word)
  /-- R72. Returns the full time latched at execution and TB_STAT. -/
  | timeGet (h : Hdr)
  /-- R44. Installs a new timebase increment, refusing values outside 1.2–2.0 ns, and restarts the servo watchdog. -/
  | timeIncrSet (h : Hdr) (int : Word) (frac : Word)
  /-- R638. Arms a timed action carrying SET, STEP, INCR and SLEW kinds at a full-form instant. -/
  | timeAction (h : Hdr) (w : ActionWords)
  /-- R48. Cancels the pending action, or returns NOT_READY if it applies in the same cycle. -/
  | timeActionCancel (h : Hdr)
  /-- R77. Sets the servo watchdog timeout and restarts or stops the watchdog. -/
  | timeWdogSet (h : Hdr) (timeout : Word)
  /-- R59. Configures a TPIN's mode, polarity, start, period and width. -/
  | timePinSet (h : Hdr) (pin : Word) (mode : Word) (pol : Word) (start : T3) (period : Word) (width : Word)
  /-- R60. Returns and removes up to 16 capture records of a pin or PPS_IN. -/
  | timeCaptureRead (h : Hdr) (pin : Word) (count : Word)
  /-- R61. Sets the PPS_OUT pulse width. -/
  | timePpsSet (h : Hdr) (width : Word)
  /-- R70. Returns per channel the TAI instant at which a given superframe leaves the balls. -/
  | timeTodGet (h : Hdr) (tree : Word) (sHi : Word) (sLo : Word)
  /-- R72. Returns TB_STAT, timebase counters and divergence per die. -/
  | timeStatus (h : Hdr)
  /-- R65. Sets a port's one-step, two-step, transparent modes and timestamp adjustments. -/
  | timePtpPortSet (h : Hdr) (port : Word) (oneStep : Word) (twoStep : Word) (transparent : Word) (ingAdj : Word) (egrAdj : Word)
  /-- R69. Returns and removes two-step egress timestamps of a port. -/
  | timeEgressTsRead (h : Hdr) (port : Word) (count : Word)
  /-- R46. The pending action's instant is reached (or 1 µs after a late arm) and its SET, STEP, INCR and SLEW apply in one cycle on all replicas. -/
  | actionApply
  /-- R49. A slew's cycle count runs out and the remaining offset is applied exactly. -/
  | slewEnd
  /-- R45. No increment write arrives within the watchdog timeout; holdover is set, counted and raised once per silence. -/
  | servoWdogExpire
  /-- R54. Every 1 µs a replica takes the master's sync word and slews, steps or reports divergence. -/
  | replicaSync (die : BitVec 3) (drift : BitVec 32)
  /-- R59. A TPIN output edge is driven at its single-pulse or periodic instant. -/
  | tpinPulse (pin : BitVec 5)
  /-- R61. PPS_OUT drives its rising edge at each TAI second boundary. -/
  | ppsOutEdge
  /-- R60. A selected edge on a capture-mode TPIN is timestamped into the pin's FIFO, or dropped when full: the pin's level before and
  after. -/
  | tpinCapture (pin : BitVec 5) (before after : Bool) (fine : BitVec 3)
  /-- R61. A rising edge on PPS_IN is timestamped into its FIFO. -/
  | ppsInCapture (rising : Bool) (fine : BitVec 3)
  /-- R73. A write of TB_LATCH latches the current time into the path's snapshot registers. -/
  | tbLatch (p : APath) (data : Word)
  /-- R74. A write of TB_INCR installs its integer with the path's staged fraction in the next cycle. -/
  | tbIncrCommit (p : APath) (data : Word)
  /-- R75. A write of TB_ACT_CTL.arm 1 arms an action from the path's staging, or is ignored and counted when busy or kindless. -/
  | tbActArm (p : APath) (data : Word)
  /-- R75. A write of TB_ACT_CTL.arm 0 cancels the pending action. -/
  | tbActCancel (p : APath) (data : Word)
  /-- R60. A write of TB_CAP_POP removes the head capture record. -/
  | tbCapPop (p : APath) (data : Word)
  /-- R77. A write of TB_WDOG restarts the watchdog with a non-zero timeout or turns it off. -/
  | tbWdogWrite (p : APath) (data : Word)
  /-- R388. A frame held at the uplink PCS boundary reaches its departure instant and is handed over, with one-step insertion where due. -/
  | departureInstant (port : Lane) (late : Bool)
  /-- R102. A REFCLK_UPL present for 1 ms takes the master out of holdover without a phase step. -/
  | refHoldoverExit (which : BitVec 1)
  /-- R85. Turns a lane on into POWERING or off in the order of R89. -/
  | lanePower (h : Hdr) (family : Word) (index : Word) (on : Word)
  /-- R106. Returns a lane's state, stage, locks, rate and width. -/
  | laneStatus (h : Hdr) (family : Word) (index : Word)
  /-- R95. Sets an uplink octet's port modes, refusing while lanes are on or combinations are invalid. -/
  | laneModeSet (h : Hdr) (octet : Word) (oct800 : Word) (quad0 : Word) (quad1 : Word) (half50 : Word)
  /-- R106. Sets an uplink port's interface and auto-negotiation while its lanes are off. -/
  | laneIntfSet (h : Hdr) (port : Word) (intf : Word) (an : Word)
  /-- R106. Sets a lane's transmitter taps and receiver gain. -/
  | laneEqSet (h : Hdr) (family : Word) (index : Word) (pre : Word) (post : Word) (gain : Word)
  /-- R106. Restarts a lane's bring-up at stage 1. -/
  | laneRetrain (h : Hdr) (family : Word) (index : Word)
  /-- R103. Starts an asynchronous eye scan of a lane on the die's eye monitor. -/
  | laneEyeScan (h : Hdr) (family : Word) (index : Word) (dwell : BitVec 64)
  /-- R103. An eye scan finishes and its margins complete the command. -/
  | eyeScanDone (die : BitVec 3) (margins : List Word)
  /-- R104. Sets a lane's PRBS generator and checker. -/
  | lanePrbsSet (h : Hdr) (family : Word) (index : Word) (pattern : Word) (generator : Word) (checker : Word)
  /-- R106. Returns a lane's counters. -/
  | laneCounters (h : Hdr) (family : Word) (index : Word)
  /-- R85. A powering lane's PLL locks and the lane goes to BRINGUP or ACTIVE. -/
  | lanePllLock (l : LaneRef)
  /-- R88. A lane short of PLL lock at its power-up limit goes to FAULT, counted and raised. -/
  | lanePllTimeout (l : LaneRef)
  /-- R89. 1 µs after OPT_TXEN is deasserted for a lane turned off or a tree stopped, the transmitter stops. -/
  | transmitterStop (c : Chan)
  /-- R86. A lane completes a bring-up stage, checks capabilities at stage 4 and goes ACTIVE at stage 5. -/
  | laneStageDone (l : LaneRef) (peerIndex : BitVec 3) (peerDev : BitVec 10)
  /-- R87. A tandem bring-up stage passes its limit; the lane pauses 10 ms and returns to stage 1, counted and raised. -/
  | tndStageTimeout (l : TLane)
  /-- R87. The 10 ms pause after a failed tandem stage ends and bring-up restarts at stage 1. -/
  | laneRetryPauseEnd (l : TLane)
  /-- R87. Uplink link training passes its PMD maximum wait; auto-negotiation restarts, counted and raised. -/
  | lnuTrainFail (l : Lane)
  /-- R91. A 66-bit block header on a tandem lane advances the block-lock machine. -/
  | tndBlockRx (l : TLane) (header : BitVec 2)
  /-- R92. A tandem lane not regaining lock within 10 ms returns to stage 1. -/
  | tndRelockTimeout (l : TLane)
  /-- R98. An ACTIVE uplink port loses block, alignment or signal detect; it stops, counts, raises and restarts bring-up. -/
  | lnuLinkDown (l : Lane)
  /-- R99. A 1 ms window of uncorrectable RS-FEC codewords is judged against fec_thr for EV_LNU_FEC_DEGRADE; `whole`: the link stood
  throughout it. -/
  | lnuFecWindow (l : Lane) (corr uncorr symbols codewords : BitVec 32) (whole : Bool)
  /-- R100. The host link leaves L0; ring processing pauses, counted and raised. -/
  | hostLinkDown (toDetect : Bool)
  /-- R100. The host link returns to L0 and ring processing resumes. -/
  | hostLinkUp (width : BitVec 3) (rate : BitVec 3)
  /-- R101. A reference clock misses 64 cycles and its lanes, trees or timebase reference are handled per R101. -/
  | refclkLoss (ref : BitVec 3)
  /-- R101. A lost reference returns and its lanes that are on repeat full bring-up. -/
  | refclkReturn (ref : BitVec 3)
  /-- R108. A write of LNU_CTL.retrain 1 restarts bring-up at stage 1. -/
  | lnuRetrain (p : APath) (l : Lane)
  /-- R85. A write of a lane's power, tx_on or rx_on bit turns the lane on or off. -/
  | lanePowerBitWrite (p : APath) (family : BitVec 2) (index : BitVec 7) (on : Bool)
  /-- R110. A write of LNU_MODE sets an octet's port modes or is refused, counted and raised. -/
  | lnuModeWrite (p : APath) (octet : BitVec 3) (data : Word)
  /-- R131. Sets a tree's grid offset, refusing while launched or pending. -/
  | treeConfig (h : Hdr) (tree : Word) (offset : Word)
  /-- R131. Sets a channel's mode, enable, max_pli and ploam_max. -/
  | treeChannelSet (h : Hdr) (chan : Word) (mode : Word) (enable : Word) (maxPli : Word) (ploamMax : Word)
  /-- R121. Chooses a grid instant at least 10 µs ahead and schedules the tree's launch. -/
  | treeLaunch (h : Hdr) (tree : Word) (earliest : T3) (unaligned : Word)
  /-- R122. Cancels a pending launch or stops a launched tree at the end of the frame in force. -/
  | treeStop (h : Hdr) (tree : Word)
  /-- R131. Returns a tree's launch state, count and per-channel status. -/
  | treeStatus (h : Hdr) (tree : Word)
  /-- R130. Sets DELTA and ALPHA of a channel's delineation context. -/
  | treeDlnSet (h : Hdr) (chan : Word) (delta : Word) (alpha : Word)
  /-- R121. The launch instant is reached and frame k starts on every enabled channel of the tree; EV_PCH_LAUNCHED is raised. -/
  | treeLaunchStart (t : Tree)
  /-- R121. A channel enabled on a launched tree starts framing at its first grid instant. -/
  | channelStart (c : Chan)
  /-- R114. A channel's 125 µs frame starts and the TC builds PSBd, header, map, PLOAM partition and payload. -/
  | frameStart (c : Chan)
  /-- R122. At the end of the frame in force a stopped tree deasserts OPT_TXEN and discards its TC buffers. -/
  | treeStopEffect (t : Tree)
  /-- R116. An SDU handed to a channel's TC is fragmented into XGEM frames, discarded for an absent key, or backpressured. -/
  | tcSduRx (c : Chan)
  /-- R125. The agreed superframe count is reached and the channel switches to the new key slot. -/
  | keySwitch (t : Tree) (onu : Option Onu)
  /-- R163. Sets a channel's grant enable, guard, adm_pct and ploam_ivl. -/
  | grantChannelSet (h : Hdr) (chan : Word) (enable : Word) (guard : Word) (admPct : Word) (ploamIvl : Word)
  /-- R163. Sets a tree's cutoff and coop_en. -/
  | grantTreeSet (h : Hdr) (tree : Word) (cutoff : Word) (coopEn : Word)
  /-- R144. Creates or changes an Alloc record, checking admission, profile and identifier state. -/
  | grantAllocSet (h : Hdr) (onu : Word) (allocId : Word) (p : AllocWords)
  /-- R162. Invalidates an Alloc record at the next cutoff and sends its Alloc-ID to the paddock. -/
  | grantAllocClear (h : Hdr) (onu : Word) (allocId : Word)
  /-- R163. Returns an Alloc record's parameters, demand, last grant and tags. -/
  | grantAllocGet (h : Hdr) (onu : Word) (allocId : Word)
  /-- R155. Stores a cooperative grant hint. -/
  | grantHint (h : Hdr) (record : Word) (sHi : Word) (sLo : Word) (frames : Word) (bytes : Word) (pin : Word)
  /-- R163. Cancels a hint for frames whose cutoff has not passed. -/
  | grantHintCancel (h : Hdr) (handle : Word)
  /-- R156. Sets the CTI ports, UDP port, sources and pair-to-record map. -/
  | grantCtiSet (h : Hdr) (ports : List Word) (udp : Word) (sources : List (BitVec 128)) (pairs : List (Word × Word × Word))
  /-- R159. Arms RSSI measurement for an ONU's next bursts. -/
  | grantRssiArm (h : Hdr) (onu : Word) (sHi : Word) (sLo : Word) (count : Word)
  /-- R163. Returns the last map sent on a channel. -/
  | grantMapRead (h : Hdr) (chan : Word)
  /-- R163. Returns a channel's grant status, arms, hints and counters. -/
  | grantStatus (h : Hdr) (chan : Word)
  /-- R140. At the cutoff the tree calculator snapshots records, reports, hints and tags and starts computing the next maps. -/
  | grantCutoff (t : Tree)
  /-- R150. The calculator finishes burst set, stage grants, WFQ fills and placement for the tree's four maps. -/
  | mapComputed (t : Tree)
  /-- R138. At B − 2 µs the computed maps are handed to the TCs. -/
  | mapDeadline (t : Tree)
  /-- R146. A decoded DBRu or TM usage reaches the grant engine and updates the Alloc-ID's demand. -/
  | grantReportRx (die : BitVec 2) (index : BitVec 14) (rep : GrantReport)
  /-- R156. A CTI report datagram becomes a hint or is discarded as unpermitted, unmapped or malformed. -/
  | ctiReportRx (port : Lane) (udp : BitVec 16) (source : BitVec 128) (entity : Word) (flow : Word) (start : T3) (length : Word) (bytes : Word) (wellFormed : Bool)
  /-- R62. BRX_RST_N is driven low before an expected burst, squeezed after a previous burst if needed. -/
  | brxRstPulse (c : Chan) (burst : BitVec 10)
  /-- R62. RSSI_TRG is driven high after the first preamble bit of a flagged burst. -/
  | rssiTrigger (c : Chan) (burst : BitVec 10)
  /-- R159. An RSSI arm short of its count 8,000 frames after start is removed, counted and raised. -/
  | rssiArmExpire (c : Chan)
  /-- R169. A write of GNT_ALC_COMMIT applies the staged Alloc record fields or is refused, counted and raised. -/
  | gntAlcCommit (p : APath) (die : BitVec 2) (data : Word)
  /-- R173. Sets a burst profile after checking fields, delimiter distance and non-use. -/
  | treeProfileSet (h : Hdr) (chan : Word) (index : Word) (p : ProfileWords)
  /-- R193. Returns a burst profile's fields and overhead. -/
  | treeProfileGet (h : Hdr) (chan : Word) (index : Word)
  /-- R640. Sets a channel's window and drift tolerance, or a line die's reassembly timeout. -/
  | treeBrxSet (h : Hdr) (words : List Word)
  /-- R193. Returns a channel's burst receive status, counters and offsets. -/
  | treeBrxStatus (h : Hdr) (chan : Word)
  /-- R195. A write of BRX_PRFn_CFG.valid applies the profile checks or refuses, counts and raises. -/
  | brxPrfValidWrite (p : APath) (c : Chan) (n : BitVec 2) (data : Word)
  /-- R175. An expected burst's window arrives and the chain runs acquisition, delimiter, FEC, header, allocations, checks, decryption and reassembly. -/
  | burstRx (c : Chan) (index : BitVec 10) (b : BurstRx)
  /-- R189. At each upstream frame start open contexts past their deadline discard their partial SDUs. -/
  | rsmDeadlineCheck (c : Chan)
  /-- R641. Provisions an ONU, binding ONU-ID, serial and creating its default Alloc-ID and management port. -/
  | onuProvision (h : Hdr) (onu : Word) (tree : Word) (wl : Word) (onuId : Word) (serialHi : Word) (serialLo : Word) (regId : List Word) (auto : Word)
  /-- R204. Moves a PROVISIONED ONU whose serial was seen to ASSIGNED. -/
  | onuActivate (h : Hdr) (onu : Word)
  /-- R222. Sends Deactivate_ONU-ID, stops grants, flushes contexts, erases keys and returns the ONU to PROVISIONED. -/
  | onuDeactivate (h : Hdr) (onu : Word)
  /-- R216. Frees an ONU and sends its identifiers to the paddock. -/
  | onuRelease (h : Hdr) (onu : Word)
  /-- R223. Sends Disable_Serial_Number and leaves the ONU DISABLED. -/
  | onuDisable (h : Hdr) (onu : Word) (tree : Word) (serialHi : Word) (serialLo : Word)
  /-- R223. Sends the enabling message and returns the ONU to PROVISIONED. -/
  | onuEnable (h : Hdr) (onu : Word) (tree : Word) (serialHi : Word) (serialLo : Word)
  /-- R219. Starts moving an ONU to another channel or the partner, setting fence F and first frame K. -/
  | onuMigrate (h : Hdr) (onu : Word) (target : Word) (sHi : Word) (sLo : Word)
  /-- R641. Binds or changes an XGEM port of an ONU. -/
  | onuPortSet (h : Hdr) (onu : Word) (port : Word) (kind : Word) (dir : Word)
  /-- R641. Releases an ONU's XGEM port to the paddock. -/
  | onuPortClear (h : Hdr) (onu : Word) (port : Word)
  /-- R213. Starts a key exchange with an ONU in OPERATION. -/
  | onuRekey (h : Hdr) (onu : Word)
  /-- R227. Returns an ONU's state, slot, channel, EqD and key slot. -/
  | onuStatus (h : Hdr) (onu : Word)
  /-- R217. Returns whether an identifier is free, bound or resting. -/
  | onuIdQuery (h : Hdr) (tree : Word) (kind : Word) (value : Word)
  /-- R225. Starts disabling listed ONUs one at a time to find a rogue. -/
  | onuRogueScan (h : Hdr) (chan : Word) (onus : List Word)
  /-- R225. After 8 frames with one ONU disabled, its rogue count is recorded and it is enabled again. -/
  | rogueScanStep (c : Chan)
  /-- R202. Sets a tree's reach, rdr and activation timers and returns T_eq. -/
  | treeReachSet (h : Hdr) (tree : Word) (minReach : Word) (maxReach : Word) (rdr : Word) (lobThr : Word) (regTo : Word) (keyTo : Word) (lostMs : Word)
  /-- R228. Sets a channel's SN windows, SN profile and rogue threshold. -/
  | treeSnSet (h : Hdr) (chan : Word) (snEn : Word) (snIvl : Word) (profile : Word) (rogueThr : Word)
  /-- R208. Returns the tree's discovered serial number list. -/
  | treeDiscoveredRead (h : Hdr) (tree : Word)
  /-- R206. The SN interval comes round and the sequencer books a quiet window and SN grant. -/
  | snWindowBook (c : Chan)
  /-- R208. A response in an SN window is classified as found, unknown, disabled, duplicate or garbled. -/
  | snResponseRx (c : Chan) (serial : BitVec 64) (arrival : BitVec 32) (good : Bool)
  /-- R210. A ranging burst gives the round trip, EqD is set and Ranging_Time sent, or reach is violated. -/
  | rangingBurstRx (onu : Onu) (arrival : BitVec 32)
  /-- R204. A ranging window closes with no burst; a new attempt or deactivation follows. -/
  | rangingWindowEnd (onu : Onu)
  /-- R212. A registration reply is matched against the bound ID and the ONU keys or is deactivated. -/
  | registrationReply (onu : Onu) (regId : List Word)
  /-- R212. No registration reply arrives within reg_to frames and the ONU is deactivated. -/
  | registrationTimeout (onu : Onu)
  /-- R213. An ONU's key reply is unwrapped into the free slot and a switch is announced. -/
  | keyReply (onu : Onu) (wrapped : List Word) (fits : Bool)
  /-- R213. No key reply arrives within key_to frames; the attempt fails. -/
  | keyTimeout (onu : Onu)
  /-- R215. An ONU in LOST for lost_ms is deactivated, counted and raised. -/
  | lostTimeout (onu : Onu)
  /-- R216. A resting identifier's rest ends and it becomes free. -/
  | paddockRestEnd (t : Tree) (kind : BitVec 2) (value : BitVec 16)
  /-- R220. The fence F is reached and the ONU's records, ports, contexts and keys move to the new placement. -/
  | migrationFence (onu : Onu)
  /-- R220. At B_K the ONU's downstream node moves to the new channel and the fence ends. -/
  | migrationComplete (onu : Onu)
  /-- R224. A frame's signal detect outside bursts and windows is judged rogue and the 8-frame count checked. -/
  | rogueFrameEval (c : Chan) (lit : BitVec 16)
  /-- R237. Forms a skein of 2–4 channels of a tree. -/
  | skeinForm (h : Hdr) (tree : Word) (k : Word) (members : Word) (skewMax : Word) (holdKib : Word)
  /-- R240. Dissolves a skein with no joined ONU. -/
  | skeinDissolve (h : Hdr) (skein : Word)
  /-- R238. Starts ranging an ONU on every other member of a skein. -/
  | skeinOnuJoin (h : Hdr) (onu : Word) (skein : Word)
  /-- R238. Member ranging finishes and the join completes with EqD per member. -/
  | skeinJoinDone (onu : Onu) (arrivals : List (BitVec 2 × BitVec 32))
  /-- R240. Returns a joined ONU to its anchor and delivers its held SDUs. -/
  | skeinOnuLeave (h : Hdr) (onu : Word)
  /-- R239. Moves an Alloc-ID of a skein ONU to another member. -/
  | skeinAllocMember (h : Hdr) (onu : Word) (allocId : Word) (member : Word)
  /-- R259. Returns a skein's members, joined ONUs and counters. -/
  | skeinStatus (h : Hdr) (skein : Word)
  /-- R250. Configures a tributary after checking watermarks, quantum, fixed bandwidth and container limits. -/
  | skeinTribSet (h : Hdr) (trib : Word) (onu : Word) (port : Word) (carrier : Word) (allocIds : List Word) (w : TribWords)
  /-- R257. Removes a tributary. -/
  | skeinTribClear (h : Hdr) (trib : Word)
  /-- R259. Returns a tributary's status, fill and counters. -/
  | skeinTribStatus (h : Hdr) (trib : Word)
  /-- R259. Sets DELTA and ALPHA of a tributary's delineation context. -/
  | skeinDlnSet (h : Hdr) (trib : Word) (delta : Word) (alpha : Word)
  /-- R243. The lowest held SDU waits skew_max and the expected sequence skips the gap. -/
  | skeinGapExpiry (onu : Onu)
  /-- R256. A container still missing a member skew_max after its first arrives is lost and all-ones emitted. -/
  | containerLost (trib : BitVec 10) (mfi : BitVec 8)
  /-- R253. A downstream pseudowire packet is queued for playout or counted late or lost. -/
  | pseudowireRx (trib : BitVec 10) (seq : BitVec 16) (stamp : Word) (bytes : BitVec 14) (l : Bool)
  /-- R253. A pseudowire packet's playout instant is reached and its data enters the elastic store. -/
  | playout (trib : BitVec 10)
  /-- R260. A write of CAD_TRIB_COMMIT applies staged tributary fields or is refused, counted and raised. -/
  | cadTribCommit (p : APath) (trib : BitVec 10) (data : Word)
  /-- R272. Sets a rule table's direction, mode, blocks and key profile. -/
  | ruleTableSet (h : Hdr) (table : Word) (dir : Word) (mode : Word) (blocks : Word) (keys : List Word)
  /-- R276. Writes or stages a rule entry. -/
  | ruleWrite (h : Hdr) (table : Word) (index : Word) (pri : Word) (value : List Word) (mask : List Word) (act : Word)
  /-- R276. Deletes or stages the close of a rule entry. -/
  | ruleDelete (h : Hdr) (table : Word) (index : Word)
  /-- R279. Commits the half's staged EPOCH changes once staged writes land, or returns COMMIT_BUSY. -/
  | ruleCommit (h : Hdr)
  /-- R280. Discards staged entries and reopens staged closes. -/
  | ruleAbort (h : Hdr)
  /-- R285. Returns a rule entry with its version range and hit count. -/
  | ruleRead (h : Hdr) (table : Word) (index : Word)
  /-- R285. Returns cur, o, held versions and staged entries. -/
  | ruleStatus (h : Hdr)
  /-- R287. Sets the parser's VXLAN port, MPLS guess and PTP UDP options. -/
  | ruleParseSet (h : Hdr) (vxlan : Word) (guess : Word) (ptpUdp : Word)
  /-- R266. Defines a programmable header type, refusing while an enabled edge leads to it. -/
  | ruleHeaderSet (h : Hdr) (typ : Word) (w0 : Word) (w1 : Word) (w2 : Word)
  /-- R266. Writes a programmable header edge. -/
  | ruleEdgeSet (h : Hdr) (edge : Word) (src : Word) (value : Word) (mask : Word) (dst : Word) (enable : Word)
  /-- R288. Sets the fragment table's lifetime and orphan action. -/
  | ruleFragSet (h : Hdr) (life : Word) (orphan : Word)
  /-- R283. Sets an upstream port's anti-spoof mode. -/
  | ruleSpoofSet (h : Hdr) (port : Word) (mode : Word)
  /-- R279. A commit waiting for staged writes sees them land and bumps cur. -/
  | commitBump (half : BitVec 1)
  /-- R278. The oldest held version's in-flight count reaches zero and its entries are invalidated and settled. -/
  | versionTidy (half : BitVec 1)
  /-- R286. A write of RUL_ENT_WR applies or stages the staged rule entry, or is refused. -/
  | rulEntWr (p : APath) (half : BitVec 1) (data : Word)
  /-- R286. A write of RUL_COMMIT bit 0 commits the half's staging. -/
  | rulCommitWrite (p : APath) (half : BitVec 1) (data : Word)
  /-- R286. A write of RUL_COMMIT bit 1 aborts the half's staging. -/
  | rulAbortWrite (p : APath) (half : BitVec 1) (data : Word)
  /-- R264. A head enters a pipeline and runs 108 stages of parsing, rules, lookups, policing, queue choice and hand-over. -/
  | pipelinePass (half : BitVec 1) (up : Bool) (pipe : BitVec 4)
  /-- R281. A recirculated head leaves the recirculation queue for a further pass, or a fifth pass is discarded. -/
  | recircPass (half : BitVec 1) (pipe : BitVec 4)
  /-- R271. The background sweep frees expired fragment entries. -/
  | fragSweep (half : BitVec 1)
  /-- R320. Sets a bridge domain. -/
  | tableBdSet (h : Hdr) (w : BdWords)
  /-- R320. Sets a router MAC. -/
  | tableRmacSet (h : Hdr) (index : Word) (mac : BitVec 48)
  /-- R320. Sets a flood group's destinations. -/
  | tableFloodSet (h : Hdr) (group : Word) (dests : List Word)
  /-- R295. Writes a service entry. -/
  | tableSvcSet (h : Hdr) (w : SvcWords)
  /-- R320. Removes a service entry. -/
  | tableSvcClear (h : Hdr) (dir : Word) (source : Word) (ovid : Word) (ivid : Word)
  /-- R317. Writes a bridge entry over any entry with its key. -/
  | tableMacAdd (h : Hdr) (bd : Word) (mac : BitVec 48) (fixed : Word) (kind : Word) (dest : Word)
  /-- R320. Deletes a bridge entry. -/
  | tableMacDel (h : Hdr) (bd : Word) (mac : BitVec 48)
  /-- R320. Returns a bridge entry with its location. -/
  | tableMacRead (h : Hdr) (bd : Word) (mac : BitVec 48)
  /-- R317. Starts walking the bridge table to delete matching dynamic entries. -/
  | tableMacFlush (h : Hdr) (bd : Word) (dest : Word)
  /-- R317. The flush walk ends and the command completes with the number deleted. -/
  | macFlushDone (half : BitVec 1)
  /-- R320. Installs a route prefix. -/
  | tableRouteSet (h : Hdr) (vrf : Word) (pre : List Word) (len : Word) (nh : Word)
  /-- R320. Removes a route prefix. -/
  | tableRouteClear (h : Hdr) (vrf : Word) (pre : List Word) (len : Word)
  /-- R300. Writes a next hop. -/
  | tableNhSet (h : Hdr) (index : Word) (w : NhWords)
  /-- R301. Writes an anti-spoof binding. -/
  | tableBindSet (h : Hdr) (onu : Word) (port : Word) (kind : Word) (addr : List Word)
  /-- R301. Removes an anti-spoof binding. -/
  | tableBindClear (h : Hdr) (onu : Word) (port : Word) (kind : Word) (addr : List Word)
  /-- R320. Sets learning and ageing configuration. -/
  | tableLearnSet (h : Hdr) (lrn : Word) (age : Word)
  /-- R320. Returns table occupancy, learning queue fill and counters. -/
  | tableStatus (h : Hdr)
  /-- R348. Writes an editor program. -/
  | tableEditSet (h : Hdr) (prog : Word) (ops : List Word)
  /-- R344. Writes a remark table. -/
  | tableRemarkSet (h : Hdr) (table : Word) (entries : List Word)
  /-- R348. Returns an editor program or remark table. -/
  | tableEditRead (h : Hdr) (which : Word)
  /-- R310. The learning engine processes a queued event against the entry as it stands: insert, move, freeze or refuse. -/
  | learnEvent (half : BitVec 1)
  /-- R316. A queued refresh request rewrites an entry's stamp. -/
  | refreshRequest (half : BitVec 1)
  /-- R313. The ageing tick advances, clearing the seen filter and starting a scan round when the last has finished. -/
  | ageingTick (half : BitVec 1)
  /-- R314. The ageing scan visits a bucket or overflow slots and deletes aged dynamic entries. -/
  | ageingScanVisit (half : BitVec 1)
  /-- R315. A scan round unfinished one tick after it began is counted and raised per tick of overrun. -/
  | scanLate (half : BitVec 1)
  /-- R307. The re-seat sweep visits an overflow slot and moves its entry back into a free way. -/
  | reseatVisit (half : BitVec 1)
  /-- R321. A write of BR_ACC_CTL.go runs one keyed or indexed table access under TBL_HOST. -/
  | brAccGo (p : APath) (half : BitVec 1) (data : Word)
  /-- R347. Sets an admission profile. -/
  | queueProfileSet (h : Hdr) (prf : Word) (mn : Word) (mx : Word) (ag : Word) (ay : Word) (ar : Word) (dpy : Word) (dpr : Word)
  /-- R347. Sets a queue's profile and deep settings. -/
  | queueAdmitSet (h : Hdr) (queue : Word) (prf : Word) (deepEn : Word) (deepMax : Word)
  /-- R329. Resizes the ingress, reassembly and host pools. -/
  | queuePoolSet (h : Hdr) (ing : Word) (rsm : Word) (host : Word)
  /-- R337. Sets the spill and return thresholds. -/
  | queueDeepSet (h : Hdr) (spill : Word) (ret : Word)
  /-- R347. Starts freeing a queue's cells and pages. -/
  | queueFlush (h : Hdr) (queue : Word)
  /-- R347. A queue flush completes with cells and pages freed. -/
  | queueFlushDone (half : BitVec 1)
  /-- R347. Returns a queue's cells, pages and drops. -/
  | queueDepth (h : Hdr) (queue : Word)
  /-- R347. Returns pool and page occupancy and counters. -/
  | queueStoreStatus (h : Hdr)
  /-- R377. Configures a scheduler node. -/
  | queueNodeSet (h : Hdr) (w : NodeWords)
  /-- R377. Returns a node's parameters, balances and eligibility. -/
  | queueNodeGet (h : Hdr) (dir : Word) (level : Word) (index : Word)
  /-- R356. Attaches a queue to a parent with gate, band, weight and rates. -/
  | queueAttach (h : Hdr) (queue : Word) (w : AttachWords)
  /-- R359. Detaches an empty queue. -/
  | queueDetach (h : Hdr) (queue : Word)
  /-- R370. Sets a port's or channel's charged-length overhead. -/
  | queueOvhSet (h : Hdr) (egress : Word) (ovh : Word)
  /-- R375. Configures a policer. -/
  | queuePolicerSet (h : Hdr) (policer : Word) (w : PolicerWords)
  /-- R374. Returns a policer's balances and counters. -/
  | queuePolicerRead (h : Hdr) (policer : Word)
  /-- R377. Returns release shortfall and scheduler counters. -/
  | queueSchedStatus (h : Hdr)
  /-- R327. A frame arrives on an uplink port, passes MACsec at its head and enters the ingress pool or is diverted. -/
  | uplinkFrameRx (l : Lane) (r : UplinkRx)
  /-- R414. The ICV verdict follows the frame's last byte and advances the replay window or fails the frame. -/
  | icvVerdict (port : Lane) (e : FrameEnd)
  /-- R328. A head arriving over the bridge is admitted in the egress half and may issue learning. -/
  | bridgeHeadRx (half : BitVec 1)
  /-- R333. A waiting flood copy is admitted against its own queue. -/
  | replicationCopy (half : BitVec 1)
  /-- R335. A full tail page of a deep queue is written to a stack, or held. -/
  | deepPageWrite (half : BitVec 1) (queue : BitVec 26)
  /-- R336. A page read back from HBM lands in the head segment, or its frames are discarded on an uncorrectable error. -/
  | deepPageRead (half : BitVec 1) (queue : BitVec 26) (ecc : BitVec 2)
  /-- R361. The scheduler selects a child down the tree, charges shapers, and releases a frame to the editor. -/
  | schedulerRelease (half : BitVec 1) (ctl : BitVec 7) (idle : BitVec 32)
  /-- R349. A write of EDT_COMMIT applies the staged program words in one access. -/
  | edtCommit (p : APath) (half : BitVec 1) (data : Word)
  /-- R390. Sets a gate's gmax and guard. -/
  | gateGateSet (h : Hdr) (ctl : Word) (gate : Word) (gmax : Word) (guard : Word)
  /-- R387. Writes entries into a controller's staging buffer. -/
  | gateEntriesWrite (h : Hdr) (ctl : Word) (first : Word) (entries : List (Word × Word))
  /-- R394. Arms the staged list for start S. -/
  | gateListStart (h : Hdr) (ctl : Word) (base : T3) (cycle : Word) (count : Word)
  /-- R396. Disarms the staged list. -/
  | gateListCancel (h : Hdr) (ctl : Word)
  /-- R397. Arms an all-open list. -/
  | gateDisable (h : Hdr) (ctl : Word) (base : T3)
  /-- R401. Returns a controller's gate status. -/
  | gateStatus (h : Hdr) (ctl : Word)
  /-- R395. S is reached and the staged list comes into force, truncating the old list. -/
  | gateListStartAt (half : BitVec 1) (ctl : BitVec 7)
  /-- R386. A list entry takes effect at its instant in the cycle. -/
  | gateEntry (half : BitVec 1) (ctl : BitVec 7)
  /-- R405. A write of GT_LIST_CTL.arm 1 arms the staged list. -/
  | gtListArm (p : APath) (half : BitVec 1) (ctl : BitVec 7) (data : Word)
  /-- R405. A write of GT_LIST_CTL.arm 0 disarms the staged list. -/
  | gtListCancel (p : APath) (half : BitVec 1) (ctl : BitVec 7) (data : Word)
  /-- R431. Issues a nonce or checks its signature to grant Crypto Officer. -/
  | keyAuth (h : Hdr) (phase : Word) (sig : List Word)
  /-- R431. Ends the path's role and erases its KLK. -/
  | keyLogout (h : Hdr)
  /-- R417. Agrees a key-loading key by ECDH. -/
  | keyKlkAgree (h : Hdr) (pub : List Word)
  /-- R417. Unwraps and installs a key, replying once it is in every cluster. -/
  | keyLoad (h : Hdr) (kind : Word) (target : Word) (key : List Word) (clear : Word)
  /-- R420. Erases a key not in force. -/
  | keyErase (h : Hdr) (handle : Word)
  /-- R419. Generates a broadcast key and returns it encrypted per ONU. -/
  | keyBcastNew (h : Hdr) (tree : Word) (onus : List Word)
  /-- R419. Schedules the broadcast key switch. -/
  | keyBcastSwitch (h : Hdr) (tree : Word) (cHi : Word) (cLo : Word)
  /-- R413. Installs a MACsec SA. -/
  | keyMscSaSet (h : Hdr) (w : SaWords)
  /-- R415. Switches a port's transmit SA. -/
  | keyMscTxSwitch (h : Hdr) (port : Word) (an : Word)
  /-- R434. Returns a port's SAs and counters. -/
  | keyMscStatus (h : Hdr) (port : Word)
  /-- R421. Queues a look-aside cipher job. -/
  | keyJob (h : Hdr) (w : JobWords)
  /-- R422. A look-aside job completes with IV, tag and verdict. -/
  | jobDone (half : BitVec 1)
  /-- R425. Zeroizes a cluster, die or package by command. -/
  | keyZeroize (h : Hdr) (scope : Word) (object : Word)
  /-- R429. Starts a hitless self-test of a die's cipher hardware. -/
  | keySelftest (h : Hdr)
  /-- R429. A commanded self-test finishes and its results complete the command. -/
  | selftestDone (die : BitVec 3) (failed : List (BitVec 7)) (shared : Bool)
  /-- R434. Returns module status, alarms, vault occupancy and roles. -/
  | keyStatus (h : Hdr)
  /-- R418. A key delivery reaches every cluster that uses it. -/
  | keyDelivered (half : BitVec 1)
  /-- R566. TAMPER_N low for 1 µs raises a package alarm, zeroizes and advances the tamper count. -/
  | tamperInput
  /-- R424. The active shield breaks, raising a package-scope alarm. -/
  | shieldBreak
  /-- R424. A light sensor fires, raising a package-scope alarm. -/
  | lightDetect (die : BitVec 3)
  /-- R424. Tj leaves −40 °C to 120 °C, raising a package-scope alarm. -/
  | temperatureAlarm (die : BitVec 3)
  /-- R424. A CPS, MSC or SEQ supply leaves ±15 % for 2 ns, zeroizing the die. -/
  | voltageGlitch (die : BitVec 3)
  /-- R424. A CPS, MSC or SEQ clock period falls below 90 % of nominal, zeroizing the die. -/
  | clockGlitch (die : BitVec 3)
  /-- R424. A core's duplicated round computations differ, zeroizing its cluster. -/
  | duplicateRoundMismatch (die : BitVec 3) (core : BitVec 7)
  /-- R424. A core's DRBG repeats an output block, zeroizing its cluster. -/
  | drbgRepeat (die : BitVec 3) (core : BitVec 7)
  /-- R424. An entropy health test fails, zeroizing every cluster of the die. -/
  | entropyHealthFail (die : BitVec 3)
  /-- R440. Enables pairing with a named peer. -/
  | tandemPair (h : Hdr) (peer auto divThr lossThr : Word)
  /-- R441. Ends pairing and protection and erases the pair key. -/
  | tandemUnpair (h : Hdr)
  /-- R442. Sets or clears protection of a tree. -/
  | tandemTreeProtect (h : Hdr) (tree on dfeed : Word)
  /-- R450. Starts seeking halter ownership. -/
  | tandemTake (h : Hdr)
  /-- R452. Gives up halter ownership. -/
  | tandemRelease (h : Hdr)
  /-- R454. Resends a tree's whole state to the standby. -/
  | tandemResync (h : Hdr) (tree : Word)
  /-- R461. Starts a planned switchover drill. -/
  | tandemExercise (h : Hdr) (dwell : Word)
  /-- R463. Returns pair status, per-tree state and counters. -/
  | tandemStatus (h : Hdr)
  /-- R446. Sets DELTA and ALPHA of the tandem link's delineation contexts. -/
  | tandemDlnSet (h : Hdr) (lane delta alpha : Word)
  /-- R443. A tandem frame arrives, is CRC-checked and its records delineated and passed to their consumers. -/
  | tandemFrameRx (l : TLane) (fseq : Word) (crcOk : Bool) (heads : List XgemHead) (recs : List TndRx)
  /-- R445. An unacknowledged reliable record is resent 50 µs after its last sending, or the link goes down after 8. -/
  | recordResend (stream : Byte) (seq : BitVec 28)
  /-- R445. Every 25 µs a heartbeat record is sent. -/
  | heartbeatSend
  /-- R447. No heartbeat for 500 µs takes the tandem link down. -/
  | heartbeatTimeout
  /-- R456. A peer digest absent by B + 50 µs counts as a mismatch. -/
  | digestTimeout (c : Chan)
  /-- R449. HLT_PEER_N changes after its filter; a fall while owning closes the gate and loses the halter. -/
  | halterPeerChange (high : Bool)
  /-- R450. HLT_PEER_N high for 2 µs lets a seeking device drive HLT_OWN_N low. -/
  | halterSeekDrive
  /-- R450. The 1 µs contention window ends and the device owns the halter or loses contention. -/
  | halterOwn
  /-- R452. 100 ns after OPT_TXEN is deasserted the device releases HLT_OWN_N. -/
  | halterReleasePin
  /-- R459. An ONU's dual-offset acceptance window closes 8 frames after its new EqD. -/
  | acceptWindowEnd (onu : Onu)
  /-- R461. A drill's dwell ends and the trees are taken back. -/
  | drillDwellEnd
  /-- R494. Echoes its parameter words. -/
  | sysNop (h : Hdr) (words : List Word)
  /-- R494. Returns identification, cast-on stage, darn level and generations. -/
  | sysInfo (h : Hdr)
  /-- R477. Sets the path's generation and frees held tags. -/
  | sysSessionOpen (h : Hdr)
  /-- R488. Acknowledges in-band replies by tag. -/
  | sysAck (h : Hdr) (tags : List Word)
  /-- R486. Sets in-band ports, MAC and session key. -/
  | sysInbandSet (h : Hdr) (ports : List Word) (mac : BitVec 48) (handle : Word)
  /-- R582. Schedules a package reset or resets the calling path. -/
  | sysReset (h : Hdr) (kind : Word)
  /-- R524. Sets an event group's mask and routing. -/
  | sysEventRoute (h : Hdr) (group mask fw alert ibi msix vector : Word)
  /-- R519. Returns available event records and advances the path's read index. -/
  | sysEventRead (h : Hdr) (count : Word)
  /-- R479. The device reads a command slot below the tail and runs the acceptance checks. -/
  | commandRingRead (packet : List Byte)
  /-- R484. An I3C private write enters a command packet into the mailbox. -/
  | i3cMailboxWrite (bytes : List Byte)
  /-- R484. An I3C acknowledgement word frees the held reply of a matching tag. -/
  | i3cMailboxAck (tag : BitVec 16)
  /-- R485. An I3C private read returns NOT_READY or the held reply. -/
  | i3cMailboxRead (whole : Bool)
  /-- R486. An in-band command frame is taken before the pipelines and queued for dispatch. -/
  | inbandFrameRx (l : Lane) (packet : List Byte) (cmac : BitVec 128) (src : BitVec 48) (vlan : Option (BitVec 16))
  /-- R481. A frame of queue 0x3_FFFE is posted to the trap ring when a slot is free. -/
  | trapPost
  /-- R482. An inject slot is read and its frame sent to a pipeline or queue, or skipped. -/
  | injectRingRead (w0 w1 w2 w3 : Word) (name : BitVec 32) (head : List Byte) (pipe : BitVec 4)
  /-- R480. A write of LSH_RING_PTR.host advances a tail or acknowledges posted slots, or is refused. -/
  | lshRingPtrWrite (p : APath) (data : Word)
  /-- R496. A write of LSH_RING_CFG enables or disables a ring, or is dropped. -/
  | lshRingCfgWrite (p : APath) (data : Word)
  /-- R516. A W1C write of EVT_STATg clears bits and re-signals MSI-X for bits still set. -/
  | evtStatClear (g : BitVec 5) (data : Word)
  /-- R516. A write of EVT_MASKg that unmasks a set bit delivers it to its destinations. -/
  | evtMaskWrite (g : BitVec 5) (data : Word)
  /-- R519. A write of EVT_RING_RD sets the path's read index, clamped to WR. -/
  | evtRingRdWrite (p : APath) (data : Word)
  /-- R517. A queued event record enters the ring, or is dropped when its die queue is full. -/
  | eventRecordEnter (die : Die)
  /-- R510. Requests an expert claim of a block. -/
  | blockClaim (h : Hdr) (block : Word)
  /-- R511. Commands acting on the block drain and the claim takes effect. -/
  | claimEffect (die : Die) (block : BitVec 6)
  /-- R511. Draining takes more than 1 ms and the claim returns BUSY. -/
  | claimTimeout (die : Die) (block : BitVec 6)
  /-- R512. Ends a path's claim of a block. -/
  | blockRelease (h : Hdr) (block : Word)
  /-- R524. Returns claimed blocks and holders of a die. -/
  | blockStatus (h : Hdr)
  /-- R530. An idle sequencer takes the next hand-over order, event, woken parked pattern or work item. -/
  | seqDispatch (q : BitVec 5) (entry : Option (BitVec 17))
  /-- R528. Stitch: d := a. -/
  | stMov (q : BitVec 5) (d : BitVec 4) (a : BitVec 4)
  /-- R528. Stitch: d := a + b. -/
  | stAdd (q : BitVec 5) (d : BitVec 4) (a : BitVec 4) (b : BitVec 4)
  /-- R528. Stitch: d := a − b. -/
  | stSub (q : BitVec 5) (d : BitVec 4) (a : BitVec 4) (b : BitVec 4)
  /-- R528. Stitch: d := a and b. -/
  | stAnd (q : BitVec 5) (d : BitVec 4) (a : BitVec 4) (b : BitVec 4)
  /-- R528. Stitch: d := a or b. -/
  | stOr (q : BitVec 5) (d : BitVec 4) (a : BitVec 4) (b : BitVec 4)
  /-- R528. Stitch: d := a xor b. -/
  | stXor (q : BitVec 5) (d : BitVec 4) (a : BitVec 4) (b : BitVec 4)
  /-- R528. Stitch: shift left by b mod 32. -/
  | stShl (q : BitVec 5) (d : BitVec 4) (a : BitVec 4) (b : BitVec 4)
  /-- R528. Stitch: shift right by b mod 32. -/
  | stShr (q : BitVec 5) (d : BitVec 4) (a : BitVec 4) (b : BitVec 4)
  /-- R528. Stitch: compare and set flags only. -/
  | stCmp (q : BitVec 5) (a : BitVec 4) (b : BitVec 4)
  /-- R528. Stitch: test and set flags only. -/
  | stTst (q : BitVec 5) (a : BitVec 4) (b : BitVec 4)
  /-- R528. Stitch: load immediate, high half cleared. -/
  | stLdi (q : BitVec 5) (d : BitVec 4) (imm : BitVec 16)
  /-- R528. Stitch: load immediate into the high half. -/
  | stLdh (q : BitVec 5) (d : BitVec 4) (imm : BitVec 16)
  /-- R528. Stitch: add zero-extended immediate. -/
  | stAddi (q : BitVec 5) (d : BitVec 4) (imm : BitVec 16)
  /-- R528. Stitch: compare with immediate, flags only. -/
  | stCmpi (q : BitVec 5) (d : BitVec 4) (imm : BitVec 16)
  /-- R528. Stitch: read a register at a BAR0 address. -/
  | stRdreg (q : BitVec 5) (d : BitVec 4) (a : BitVec 4) (offset : BitVec 18) (reg : Option Reg) (idx : Nat)
  /-- R526. Stitch: write a register, dropped and counted if the block is claimed. -/
  | stWrreg (q : BitVec 5) (d : BitVec 4) (a : BitVec 4) (offset : BitVec 18) (reg : Option Reg) (idx : Nat)
  /-- R528. Stitch: read a FIRMWARE scratchpad word. -/
  | stRdsp (q : BitVec 5) (d : BitVec 4) (a : BitVec 4) (offset : BitVec 18)
  /-- R528. Stitch: write a FIRMWARE scratchpad word. -/
  | stWrsp (q : BitVec 5) (d : BitVec 4) (a : BitVec 4) (offset : BitVec 18)
  /-- R528. Stitch: read a command parameter word. -/
  | stRdpar (q : BitVec 5) (d : BitVec 4) (a : BitVec 4) (offset : BitVec 18)
  /-- R528. Stitch: write a reply parameter word. -/
  | stWrpar (q : BitVec 5) (d : BitVec 4) (a : BitVec 4) (offset : BitVec 18)
  /-- R528. Stitch: branch if the condition holds. -/
  | stBr (q : BitVec 5) (cond : BitVec 4) (target : BitVec 17)
  /-- R528. Stitch: push the return address and branch. -/
  | stCall (q : BitVec 5) (target : BitVec 17)
  /-- R528. Stitch: pop and branch. -/
  | stRet (q : BitVec 5)
  /-- R528. Stitch: decrement w15 and branch if not zero. -/
  | stLoop (q : BitVec 5) (target : BitVec 17)
  /-- R528. Stitch: the pattern ends and the sequencer returns to dispatch. -/
  | stEnd (q : BitVec 5)
  /-- R531. Stitch: wait on a condition with a timeout, holding the sequencer. -/
  | stWait (q : BitVec 5) (cond : BitVec 5) (arg : BitVec 4) (cls : BitVec 4)
  /-- R532. Stitch: store the context and release the sequencer until the condition or timeout. -/
  | stPark (q : BitVec 5) (cond : BitVec 5) (arg : BitVec 4) (cls : BitVec 4)
  /-- R528. Stitch: post the command's final reply on its path. -/
  | stReply (q : BitVec 5) (r : BitVec 4)
  /-- R528. Stitch: post ACCEPTED for an asynchronous command. -/
  | stAccept (q : BitVec 5)
  /-- R528. Stitch: raise an event by source number. -/
  | stRaise (q : BitVec 5) (src : BitVec 10)
  /-- R528. Stitch: offer a message to a channel's PLOAM queue. -/
  | stPloam (q : BitVec 5) (r : BitVec 4) (c : Chan) (kind : BitVec 5) (onuId : Option (BitVec 10)) (args : List Word)
  /-- R528. Stitch: send a register to another sequencer's mailbox. -/
  | stMail (q : BitVec 5) (r : BitVec 4) (target : BitVec 5)
  /-- R531. A waiting stitch's condition holds or its timeout passes, setting or clearing T. -/
  | waitEnd (q : BitVec 5) (parked : Option (BitVec 6)) (event : Bool)
  /-- R535. A parity, op, address or stack fault stops the sequencer and ends its commands with MACHINE_CHECK. -/
  | machineCheck (q : BitVec 5) (cause : BitVec 3) (addr : BitVec 17)
  /-- R536. A failed or named sequencer's work passes to its die's spare. -/
  | seqHandover (q : BitVec 5)
  /-- R534. All sequencers hold and swap staged and in-force darn slots in one cycle. -/
  | darnSwap
  /-- R534. 10 ms pass without all sequencers holding; they resume on old slots and the load completes BUSY. -/
  | darnHoldTimeout
  /-- R545. Starts handing a bank or HBM segment to a new owner. -/
  | scratchOwnerSet (h : Hdr) (bank : Word) (owner : Word) (clear : Word)
  /-- R554. Reads words from a HOST bank. -/
  | scratchRead (h : Hdr) (bank : Word) (offset : Word) (count : Word)
  /-- R554. Writes words to a HOST bank. -/
  | scratchWrite (h : Hdr) (bank : Word) (offset : Word) (words : List Word)
  /-- R555. Starts a DMA transfer between host memory and a DMA bank or segment. -/
  | scratchDma (h : Hdr) (dir : Word) (bank : Word) (offset : Word) (hostHi : Word) (hostLo : Word) (len : Word)
  /-- R555. A DMA transfer completes, or stops on an error with the byte count moved. -/
  | dmaDone (die : BitVec 3) (n : BitVec 2) (stop : DmaEnd) (moved : DmaMoved)
  /-- R545. A write of SP_BANK_OWNERb or HBM_SEG_OWNERs starts a hand-over or is refused. -/
  | spBankOwnerWrite (p : APath) (die : BitVec 3) (bank : Byte) (data : Word)
  /-- R546. Old-owner accesses drain, the bank or segment is cleared if due, and the new owner takes it. -/
  | bankHandoverDone (die : BitVec 3) (bank : Byte)
  /-- R547. The patrol scrub visits memory words, correcting or reporting errors. -/
  | scrubPatrol (site : ScrubSite) (uncorrectable : Bool)
  /-- R569. Returns a signed attestation report. -/
  | trustAttest (h : Hdr) (nonce : List Word)
  /-- R561. Returns the device and CA certificates. -/
  | trustCertRead (h : Hdr)
  /-- R568. Checks a darn image and stages it for the swap. -/
  | trustDarnLoad (h : Hdr) (bank : Word) (len : Word)
  /-- R571. Returns the darn level, digest and rollback count. -/
  | trustDarnStatus (h : Hdr)
  /-- R565. Advances the fused lifecycle with valid authority. -/
  | trustLifecycle (h : Hdr) (target : Word) (authority : List Word)
  /-- R574. HOST_RST_N falls; OPT_TXEN is deasserted within 1 µs. -/
  | resetFall (short : Option (BitVec 11))
  /-- R575. HOST_RST_N low for 2 µs is a reset; the halter is released and the device resets. -/
  | resetAsserted
  /-- R573. A rail falls below power-good and the device resets as a power-on. -/
  | railPowerFail
  /-- R577. HOST_RST_N rises; straps are sampled and the boot controller starts FUSE. -/
  | castOnStart (devnum : BitVec 10) (senior : Bool)
  /-- R577. A cast-on stage ends and the next starts, or a halting failure stops cast-on. -/
  | castOnStageDone (stage : StageEnd) (ms : BitVec 16)
  /-- R580. FIRMWARE and self-test have ended; sequencers take over dispatch. -/
  | castOnDone (ms : BitVec 16)
  /-- R582. 1 ms after SYS.RESET kind 0 the device releases the halter and enters cast-on. -/
  | packageReset (devnum : BitVec 10) (senior : Bool)
  /-- R581. A PCIe function-level reset resets the PCIe path. -/
  | functionLevelReset
  /-- R581. The I3C target reset pattern resets the I3C path. -/
  | i3cTargetReset
  /-- R585. Enables or disables PM for an entity. -/
  | pmEntitySet (h : Hdr) (kind index enable : Word)
  /-- R591. Returns a PM bin. -/
  | pmRead (h : Hdr) (kind : Word) (index : Word) (bin : Word) (ecc : Option (BitVec 23))
  /-- R594. Sets a threshold-crossing alert. -/
  | pmTcaSet (h : Hdr) (kind param length threshold : Word)
  /-- R603. Returns enabled entities and empties the TCA list. -/
  | pmStatus (h : Hdr)
  /-- R598. Schedules a counter snapshot. -/
  | gaugeSnap (h : Hdr) (instant : T3)
  /-- R598. Sets periodic snapshots. -/
  | gaugePeriodSet (h : Hdr) (period : Word) (first : T3)
  /-- R603. Returns a unit's counters, live or snapshot. -/
  | gaugeRead (h : Hdr) (block unit live : Word)
  /-- R600. Returns a pipeline's slot accounts. -/
  | gaugeSlots (h : Hdr) (pipeline : Word)
  /-- R601. Returns a port's latency histogram. -/
  | gaugeHistRead (h : Hdr) (port : Word)
  /-- R597. Zeroes a unit's counters in one cycle. -/
  | gaugeClear (h : Hdr) (block unit : Word)
  /-- R586. A TAI second ends, is classified, and the second nine earlier is committed to its bin. -/
  | pmSecond (die : BitVec 3)
  /-- R590. A 15-minute or 24-hour TAI boundary advances the bin ring. -/
  | pmBinBoundary (die : BitVec 3) (day : Bool)
  /-- R598. The snapshot instant is reached and every die latches its counters, or the launch is skipped. -/
  | snapshotLaunch
  /-- R599. Every die has written its snapshot; EV_GGC_SNAP_DONE is raised and GAUGE.SNAP completes. -/
  | snapshotDone
  /-- R611. Starts switching a power domain on or off. -/
  | powerDomainSet (h : Hdr) (domain : Word) (on : Word)
  /-- R612. A domain switch finishes, including clearing memories on wake. -/
  | domainSwitchDone (domain : BitVec 9)
  /-- R619. Returns domains, package power and hottest sensor. -/
  | powerStatus (h : Hdr)
  /-- R619. Sets a region's tension threshold, release and episode length. -/
  | powerTensionSet (h : Hdr) (region : Word) (thr : Word) (rel : Word) (longUs : Word)
  /-- R619. Returns a die's temperatures and tension state. -/
  | powerSensors (h : Hdr)
  /-- R619. Returns spares by kind. -/
  | remudaStatus (h : Hdr)
  /-- R618. Starts bringing in a spare for a unit. -/
  | remudaBringIn (h : Hdr) (kind : Word) (unit : Word)
  /-- R617. A spare is in service and the bring-in completes. -/
  | spareBringInDone (kind : BitVec 4) (die : BitVec 3) (unit : Word)
  /-- R618. Sets a spare kind's policy. -/
  | remudaPolicySet (h : Hdr) (kind : Word) (policy : Word)
  /-- R616. Returns a region's aging slowdown. -/
  | remudaWearRead (h : Hdr) (region : Word)
  /-- R617. A pipeline, TC or PCS unit parity error triggers an automatic spare where set. -/
  | unitParityError (u : ParityUnit)
  /-- R609. A temperature sensor crosses the warning or maximum level and is counted and raised. -/
  | thermalSample (region : BitVec 7) (temp : BitVec 12) (mw : Option (BitVec 20))
  /-- R614. A region's supply falls below threshold; a stretched region's clock stretches, an unstretched region counts droop. -/
  | droopDetect (region : BitVec 7) (hard : Bool)
  /-- R614. After recovery the stretch falls by one step every rel × 10 ns until the episode ends. -/
  | stretchReleaseStep (region : BitVec 7)
  /-- R616. Each second the aging monitor is measured and excess wear raised. -/
  | wearSample (region : BitVec 7) (ppm : Word)
  /-- R617. A UCIe lane whose error rate passes the UCIe 1.1 limits is remapped to a spare lane while the link retrains with a pause of at most 20 µs. -/
  | ucieLaneRepair (link : BitVec 3)
  /-- R617. The clock generator in use on a die loses lock and, where the policy is automatic, the duplicate generator locks and takes over at a cycle boundary. -/
  | clockGeneratorLockLoss (die : BitVec 3)
  /-- R614. For each further 20 ns that a stretched region's supply stays below its threshold, the stretch s rises by 4, up to 32. -/
  | stretchStepUp (region : BitVec 7)
  /-- R614. The supply returns to at least 1 % above the threshold and the stretch release timer starts. -/
  | droopRecovery (region : BitVec 7)
  /-- R614. A tension episode that lasts longer than TNS_CFGr.long_us raises EV_TNS_LONG once. -/
  | tensionEpisodeLong (region : BitVec 7)
  /-- R593. After a backward step, a PM second that has lasted 1 s of elapsed time without reaching a TAI second boundary is closed and classified. -/
  | pmSecondForced (die : BitVec 3)
  /-- R566. TAMPER_N returns high and the persisting tamper alarm ends, so keys created from then on are no longer erased and cast-on may derive the identity key after 1 ms high. -/
  | tamperNRelease
  /-- R483. The I3C controller assigns the device its dynamic address, and from that moment in-band interrupts are enabled. -/
  | i3cDynamicAddress (addr : BitVec 7)
  /-- R483. An ENEC or DISEC common command code from the I3C controller turns the device's in-band interrupts on or off. -/
  | i3cEnecDisec (on : Bool)
  /-- R555. A host link that stays out of L0 for more than 100 ms stops every SCRATCH.DMA in progress, which completes BAD_PARAM with the byte count moved. -/
  | hostLinkDmaTimeout (moved : List DmaMoved)
  /-- R617. A bring-in of a working sequencer whose sequencer has not reached holding within 10 ms completes BUSY. -/
  | bringInHoldTimeout (die : BitVec 3) (index : BitVec 2)
deriving DecidableEq, Repr

end Sys2Proof
end

