-- ==== Sys2Proof/Decode.lean ====
section
/-!
DEFINITION. The block takes commands, not instruction words: no row of the opcode table gives bits, so no word spells a
command.
-/

namespace Sys2Proof

/-- No row of the opcode table gives bits: no word spells a command. -/
def decodeTableWord (_nbits _w : Nat) : Option Instr := none

end Sys2Proof
end

