-- ==== Sys2Proof/Config.lean ====
section
/-!
DEFINITION. What the spec leaves open: constants with no body, so that nothing proved can rest on a value of theirs.
A meaning applies them to the state's free-value counter or to the operands they depend on (assumption log entry 1).
-/

namespace Sys2Proof

/-- A value the spec leaves open: the `n`-th free value drawn, as a number. Log entry 1. -/
opaque Config.freeValue : Nat → Nat

/-- Algorithms of the outside standards the spec names (AES, CMAC, GCM, key wrap, ECDSA, ECDH, SHA-384, DRBG):
kind of the algorithm and its inputs to its output, as numbers. Log entry 2. -/
opaque Config.standard : Nat → List Nat → Nat

/-- The place of a named counter in its unit's register directory (R502, R605), which is not in the spec: the
counter's number to 1-255. Log entry 3. -/
opaque Config.directoryOrder : Nat → Nat

/-- A byte of a frame that the model has not been told: the frame's name and the byte's place. Log entry 54. -/
opaque Config.frameByte : Nat → Nat → Nat

/-- What flag C of a sequencer reads after a subtraction that borrows or does not (R526, R528). Log entry 77. -/
opaque Config.borrowFlag : Bool → Bool

end Sys2Proof
end

