-- ==== Sys2Proof/Machine/Regs.lean ====
section
/-! DEFINITION. Every register's block, scope, fields and reset word, from the register tables of the spec's chapters. -/
namespace Sys2Proof

namespace Fld

@[reducible] def sysIdPart : Fld := ⟨.sysId, 16, 16⟩
@[reducible] def sysIdStepping : Fld := ⟨.sysId, 8, 8⟩
@[reducible] def sysDevnumDevnum : Fld := ⟨.sysDevnum, 0, 10⟩
@[reducible] def sysAccErrValid : Fld := ⟨.sysAccErr, 31, 1⟩
@[reducible] def sysAccErrCause : Fld := ⟨.sysAccErr, 28, 3⟩
@[reducible] def sysAccErrPath : Fld := ⟨.sysAccErr, 26, 2⟩
@[reducible] def sysAccErrAddr : Fld := ⟨.sysAccErr, 0, 26⟩
@[reducible] def sysCastonDone : Fld := ⟨.sysCaston, 31, 1⟩
@[reducible] def sysCastonHalted : Fld := ⟨.sysCaston, 30, 1⟩
@[reducible] def sysCastonCause : Fld := ⟨.sysCaston, 27, 3⟩
@[reducible] def sysCastonLast : Fld := ⟨.sysCaston, 24, 3⟩
@[reducible] def sysCastonStDone : Fld := ⟨.sysCaston, 20, 1⟩
@[reducible] def sysCastonMs : Fld := ⟨.sysCaston, 4, 16⟩
@[reducible] def sysCastonStage : Fld := ⟨.sysCaston, 0, 4⟩
@[reducible] def rtnselDie : Fld := ⟨.rtnsel, 8, 4⟩
@[reducible] def rtnselIndex : Fld := ⟨.rtnsel, 0, 6⟩
@[reducible] def sysRtnCfgEvtEn : Fld := ⟨.sysRtnCfg, 25, 1⟩
@[reducible] def sysRtnCfgBorrow : Fld := ⟨.sysRtnCfg, 24, 1⟩
@[reducible] def sysRtnCfgBudget : Fld := ⟨.sysRtnCfg, 0, 17⟩
@[reducible] def sysRtnStatSpent : Fld := ⟨.sysRtnStat, 17, 1⟩
@[reducible] def sysRtnStatUsed : Fld := ⟨.sysRtnStat, 0, 17⟩
@[reducible] def blkIdBlock : Fld := ⟨.blkId, 26, 6⟩
@[reducible] def blkIdKind : Fld := ⟨.blkId, 24, 2⟩
@[reducible] def blkIdVersion : Fld := ⟨.blkId, 16, 8⟩
@[reducible] def blkIdCount : Fld := ⟨.blkId, 0, 12⟩
@[reducible] def chselV : Fld := ⟨.chsel, 0, 5⟩
@[reducible] def onuselV : Fld := ⟨.onusel, 0, 12⟩
@[reducible] def alcselV : Fld := ⟨.alcsel, 0, 14⟩
@[reducible] def lnselV : Fld := ⟨.lnsel, 0, 5⟩
@[reducible] def skselV : Fld := ⟨.sksel, 0, 4⟩
@[reducible] def trselV : Fld := ⟨.trsel, 0, 8⟩
@[reducible] def coreselV : Fld := ⟨.coresel, 0, 7⟩
@[reducible] def treselV : Fld := ⟨.tresel, 0, 5⟩
@[reducible] def qselV : Fld := ⟨.qsel, 0, 26⟩
@[reducible] def plselV : Fld := ⟨.plsel, 0, 17⟩
@[reducible] def gtselV : Fld := ⟨.gtsel, 0, 7⟩
@[reducible] def geselV : Fld := ⟨.gesel, 0, 10⟩
@[reducible] def ndselDir : Fld := ⟨.ndsel, 28, 1⟩
@[reducible] def ndselLevel : Fld := ⟨.ndsel, 25, 3⟩
@[reducible] def ndselIndex : Fld := ⟨.ndsel, 0, 17⟩
@[reducible] def apselV : Fld := ⟨.apsel, 0, 6⟩
@[reducible] def epselV : Fld := ⟨.epsel, 0, 12⟩
@[reducible] def rtselV : Fld := ⟨.rtsel, 0, 4⟩
@[reducible] def ridxV : Fld := ⟨.ridx, 0, 16⟩
@[reducible] def htselV : Fld := ⟨.htsel, 0, 7⟩
@[reducible] def tpselV : Fld := ⟨.tpsel, 0, 6⟩
@[reducible] def rgselV : Fld := ⟨.rgsel, 0, 2⟩
@[reducible] def tbLatchLatch : Fld := ⟨.tbLatch, 0, 1⟩
@[reducible] def tbSnapSecHiV : Fld := ⟨.tbSnapSecHi, 0, 16⟩
@[reducible] def tbSnapSecLoV : Fld := ⟨.tbSnapSecLo, 0, 32⟩
@[reducible] def tbSnapNsV : Fld := ⟨.tbSnapNs, 0, 30⟩
@[reducible] def tbSnapFracV : Fld := ⟨.tbSnapFrac, 0, 32⟩
@[reducible] def tbIncrInt : Fld := ⟨.tbIncr, 0, 4⟩
@[reducible] def tbIncrFracV : Fld := ⟨.tbIncrFrac, 0, 32⟩
@[reducible] def tbActSecHiV : Fld := ⟨.tbActSecHi, 0, 16⟩
@[reducible] def tbActSecLoV : Fld := ⟨.tbActSecLo, 0, 32⟩
@[reducible] def tbActNsV : Fld := ⟨.tbActNs, 0, 30⟩
@[reducible] def tbSetSecHiV : Fld := ⟨.tbSetSecHi, 0, 16⟩
@[reducible] def tbSetSecLoV : Fld := ⟨.tbSetSecLo, 0, 32⟩
@[reducible] def tbSetNsV : Fld := ⟨.tbSetNs, 0, 30⟩
@[reducible] def tbStepSecV : Fld := ⟨.tbStepSec, 0, 32⟩
@[reducible] def tbStepNsV : Fld := ⟨.tbStepNs, 0, 32⟩
@[reducible] def tbPincIntV : Fld := ⟨.tbPincInt, 0, 4⟩
@[reducible] def tbPincFracV : Fld := ⟨.tbPincFrac, 0, 32⟩
@[reducible] def tbSlewOfsHiV : Fld := ⟨.tbSlewOfsHi, 0, 32⟩
@[reducible] def tbSlewOfsLoV : Fld := ⟨.tbSlewOfsLo, 0, 32⟩
@[reducible] def tbSlewCycV : Fld := ⟨.tbSlewCyc, 0, 32⟩
@[reducible] def tbActKindKinds : Fld := ⟨.tbActKind, 1, 4⟩
@[reducible] def tbActCtlLate : Fld := ⟨.tbActCtl, 8, 1⟩
@[reducible] def tbActCtlArm : Fld := ⟨.tbActCtl, 0, 1⟩
@[reducible] def tbStatRef : Fld := ⟨.tbStat, 6, 1⟩
@[reducible] def tbStatRefHold : Fld := ⟨.tbStat, 5, 1⟩
@[reducible] def tbStatDiv : Fld := ⟨.tbStat, 4, 1⟩
@[reducible] def tbStatSlewBusy : Fld := ⟨.tbStat, 3, 1⟩
@[reducible] def tbStatActPend : Fld := ⟨.tbStat, 2, 1⟩
@[reducible] def tbStatHoldover : Fld := ⟨.tbStat, 1, 1⟩
@[reducible] def tbStatAligned : Fld := ⟨.tbStat, 0, 1⟩
@[reducible] def tbWdogTimeout : Fld := ⟨.tbWdog, 0, 16⟩
@[reducible] def tbPinCfgFifo : Fld := ⟨.tbPinCfg, 8, 5⟩
@[reducible] def tbPinCfgPol : Fld := ⟨.tbPinCfg, 3, 1⟩
@[reducible] def tbPinCfgMode : Fld := ⟨.tbPinCfg, 0, 3⟩
@[reducible] def tbPinStartSecHiV : Fld := ⟨.tbPinStartSecHi, 0, 16⟩
@[reducible] def tbPinStartSecLoV : Fld := ⟨.tbPinStartSecLo, 0, 32⟩
@[reducible] def tbPinStartNsV : Fld := ⟨.tbPinStartNs, 0, 30⟩
@[reducible] def tbPinPeriodV : Fld := ⟨.tbPinPeriod, 0, 32⟩
@[reducible] def tbPinWidthV : Fld := ⟨.tbPinWidth, 0, 32⟩
@[reducible] def tbCapStatV : Fld := ⟨.tbCapStat, 0, 32⟩
@[reducible] def tbCapSecHiV : Fld := ⟨.tbCapSecHi, 0, 16⟩
@[reducible] def tbCapSecLoV : Fld := ⟨.tbCapSecLo, 0, 32⟩
@[reducible] def tbCapNsV : Fld := ⟨.tbCapNs, 0, 30⟩
@[reducible] def tbCapFracV : Fld := ⟨.tbCapFrac, 0, 32⟩
@[reducible] def tbCapPopPop : Fld := ⟨.tbCapPop, 0, 1⟩
@[reducible] def tbDivCfgLimit : Fld := ⟨.tbDivCfg, 0, 8⟩
@[reducible] def tbFleCfgLimit : Fld := ⟨.tbFleCfg, 0, 10⟩
@[reducible] def tbPpsCfgWidth : Fld := ⟨.tbPpsCfg, 0, 19⟩
@[reducible] def gntPinCfgRssiWidth : Fld := ⟨.gntPinCfg, 24, 8⟩
@[reducible] def gntPinCfgRssiOfs : Fld := ⟨.gntPinCfg, 12, 12⟩
@[reducible] def gntPinCfgRstWidth : Fld := ⟨.gntPinCfg, 6, 6⟩
@[reducible] def gntPinCfgRstLead : Fld := ⟨.gntPinCfg, 0, 6⟩
@[reducible] def tsiIngAdjV : Fld := ⟨.tsiIngAdj, 0, 32⟩
@[reducible] def tsiEgrAdjV : Fld := ⟨.tsiEgrAdj, 0, 32⟩
@[reducible] def lnuCtlFecThr : Fld := ⟨.lnuCtl, 24, 8⟩
@[reducible] def lnuCtlPrbs : Fld := ⟨.lnuCtl, 8, 3⟩
@[reducible] def lnuCtlTxSquelch : Fld := ⟨.lnuCtl, 7, 1⟩
@[reducible] def lnuCtlLoopback : Fld := ⟨.lnuCtl, 5, 2⟩
@[reducible] def lnuCtlAnEn : Fld := ⟨.lnuCtl, 4, 1⟩
@[reducible] def lnuCtlIntf : Fld := ⟨.lnuCtl, 2, 2⟩
@[reducible] def lnuCtlRetrain : Fld := ⟨.lnuCtl, 1, 1⟩
@[reducible] def lnuCtlPower : Fld := ⟨.lnuCtl, 0, 1⟩
@[reducible] def lnuStatRefOk : Fld := ⟨.lnuStat, 9, 1⟩
@[reducible] def lnuStatAnDone : Fld := ⟨.lnuStat, 8, 1⟩
@[reducible] def lnuStatBlkLock : Fld := ⟨.lnuStat, 7, 1⟩
@[reducible] def lnuStatCdrLock : Fld := ⟨.lnuStat, 6, 1⟩
@[reducible] def lnuStatStage : Fld := ⟨.lnuStat, 3, 3⟩
@[reducible] def lnuStatState : Fld := ⟨.lnuStat, 0, 3⟩
@[reducible] def lnuModeHalf50 : Fld := ⟨.lnuMode, 8, 8⟩
@[reducible] def lnuModeOct800 : Fld := ⟨.lnuMode, 4, 1⟩
@[reducible] def lnuModeQuad1 : Fld := ⟨.lnuMode, 2, 2⟩
@[reducible] def lnuModeQuad0 : Fld := ⟨.lnuMode, 0, 2⟩
@[reducible] def tndCtlFecThr : Fld := ⟨.tndCtl, 24, 8⟩
@[reducible] def tndCtlPrbs : Fld := ⟨.tndCtl, 8, 3⟩
@[reducible] def tndCtlTxSquelch : Fld := ⟨.tndCtl, 7, 1⟩
@[reducible] def tndCtlLoopback : Fld := ⟨.tndCtl, 5, 2⟩
@[reducible] def tndCtlRetrain : Fld := ⟨.tndCtl, 1, 1⟩
@[reducible] def tndCtlPower : Fld := ⟨.tndCtl, 0, 1⟩
@[reducible] def tndStatRefOk : Fld := ⟨.tndStat, 9, 1⟩
@[reducible] def tndStatBlkLock : Fld := ⟨.tndStat, 7, 1⟩
@[reducible] def tndStatCdrLock : Fld := ⟨.tndStat, 6, 1⟩
@[reducible] def tndStatStage : Fld := ⟨.tndStat, 3, 3⟩
@[reducible] def tndStatState : Fld := ⟨.tndStat, 0, 3⟩
@[reducible] def lnpCtlAcqThr : Fld := ⟨.lnpCtl, 24, 8⟩
@[reducible] def lnpCtlRxState : Fld := ⟨.lnpCtl, 9, 3⟩
@[reducible] def lnpCtlTxState : Fld := ⟨.lnpCtl, 6, 3⟩
@[reducible] def lnpCtlPrbs : Fld := ⟨.lnpCtl, 4, 2⟩
@[reducible] def lnpCtlXgs : Fld := ⟨.lnpCtl, 3, 1⟩
@[reducible] def lnpCtlLoopback : Fld := ⟨.lnpCtl, 2, 1⟩
@[reducible] def lnpCtlRxOn : Fld := ⟨.lnpCtl, 1, 1⟩
@[reducible] def lnpCtlTxOn : Fld := ⟨.lnpCtl, 0, 1⟩
@[reducible] def pchCfgMaxPli : Fld := ⟨.pchCfg, 16, 14⟩
@[reducible] def pchCfgPloamMax : Fld := ⟨.pchCfg, 12, 4⟩
@[reducible] def pchCfgMode : Fld := ⟨.pchCfg, 2, 1⟩
@[reducible] def pchCfgEnable : Fld := ⟨.pchCfg, 0, 1⟩
@[reducible] def pchStatCrf : Fld := ⟨.pchStat, 16, 16⟩
@[reducible] def pchStatPloamQ : Fld := ⟨.pchStat, 8, 8⟩
@[reducible] def pchStatKeyZero : Fld := ⟨.pchStat, 3, 1⟩
@[reducible] def pchStatFle : Fld := ⟨.pchStat, 2, 1⟩
@[reducible] def pchStatLaunched : Fld := ⟨.pchStat, 1, 1⟩
@[reducible] def pchStatTx : Fld := ⟨.pchStat, 0, 1⟩
@[reducible] def pchTreeUnaligned : Fld := ⟨.pchTree, 19, 1⟩
@[reducible] def pchTreePending : Fld := ⟨.pchTree, 18, 1⟩
@[reducible] def pchTreeLaunched : Fld := ⟨.pchTree, 17, 1⟩
@[reducible] def pchTreeOffset : Fld := ⟨.pchTree, 0, 17⟩
@[reducible] def brxDlnCfgAlpha : Fld := ⟨.brxDlnCfg, 4, 4⟩
@[reducible] def brxDlnCfgDelta : Fld := ⟨.brxDlnCfg, 0, 3⟩
@[reducible] def tndDlnCfgAlpha : Fld := ⟨.tndDlnCfg, 4, 4⟩
@[reducible] def tndDlnCfgDelta : Fld := ⟨.tndDlnCfg, 0, 3⟩
@[reducible] def cadDlnCfgAlpha : Fld := ⟨.cadDlnCfg, 4, 4⟩
@[reducible] def cadDlnCfgDelta : Fld := ⟨.cadDlnCfg, 0, 3⟩
@[reducible] def gntTreeCfgCoopEn : Fld := ⟨.gntTreeCfg, 8, 1⟩
@[reducible] def gntTreeCfgCutoff : Fld := ⟨.gntTreeCfg, 0, 7⟩
@[reducible] def gntChCfgPloamIvl : Fld := ⟨.gntChCfg, 24, 8⟩
@[reducible] def gntChCfgGuard : Fld := ⟨.gntChCfg, 16, 8⟩
@[reducible] def gntChCfgEnable : Fld := ⟨.gntChCfg, 15, 1⟩
@[reducible] def gntChCfgAdmPct : Fld := ⟨.gntChCfg, 0, 7⟩
@[reducible] def gntChStatAllocs : Fld := ⟨.gntChStat, 16, 10⟩
@[reducible] def gntChStatIdleQ : Fld := ⟨.gntChStat, 0, 16⟩
@[reducible] def gntAlcFixRate : Fld := ⟨.gntAlcFix, 0, 20⟩
@[reducible] def gntAlcAsrRate : Fld := ⟨.gntAlcAsr, 0, 20⟩
@[reducible] def gntAlcNasRate : Fld := ⟨.gntAlcNas, 0, 20⟩
@[reducible] def gntAlcMaxRate : Fld := ⟨.gntAlcMax, 0, 20⟩
@[reducible] def gntAlcIdOnu : Fld := ⟨.gntAlcId, 16, 14⟩
@[reducible] def gntAlcIdAllocId : Fld := ⟨.gntAlcId, 0, 14⟩
@[reducible] def gntAlcCfgValid : Fld := ⟨.gntAlcCfg, 31, 1⟩
@[reducible] def gntAlcCfgProfile : Fld := ⟨.gntAlcCfg, 29, 2⟩
@[reducible] def gntAlcCfgBand : Fld := ⟨.gntAlcCfg, 26, 3⟩
@[reducible] def gntAlcCfgRpt : Fld := ⟨.gntAlcCfg, 24, 2⟩
@[reducible] def gntAlcCfgDbruIvl : Fld := ⟨.gntAlcCfg, 20, 4⟩
@[reducible] def gntAlcCfgWeight : Fld := ⟨.gntAlcCfg, 0, 16⟩
@[reducible] def gntAlcCommitCommit : Fld := ⟨.gntAlcCommit, 0, 1⟩
@[reducible] def gntAlcStatLastQ : Fld := ⟨.gntAlcStat, 16, 16⟩
@[reducible] def gntAlcStatMemErr : Fld := ⟨.gntAlcStat, 2, 1⟩
@[reducible] def gntAlcStatLeftOut : Fld := ⟨.gntAlcStat, 1, 1⟩
@[reducible] def gntAlcStatTmFull : Fld := ⟨.gntAlcStat, 0, 1⟩
@[reducible] def gntAlcDemandV : Fld := ⟨.gntAlcDemand, 0, 32⟩
@[reducible] def brxPrfCfgValid : Fld := ⟨.brxPrfCfg, 31, 1⟩
@[reducible] def brxPrfCfgRate : Fld := ⟨.brxPrfCfg, 29, 2⟩
@[reducible] def brxPrfCfgFec : Fld := ⟨.brxPrfCfg, 28, 1⟩
@[reducible] def brxPrfCfgDlm8 : Fld := ⟨.brxPrfCfg, 27, 1⟩
@[reducible] def brxPrfCfgTol : Fld := ⟨.brxPrfCfg, 20, 4⟩
@[reducible] def brxPrfCfgOvhQ : Fld := ⟨.brxPrfCfg, 10, 9⟩
@[reducible] def brxPrfCfgPreLen : Fld := ⟨.brxPrfCfg, 0, 10⟩
@[reducible] def brxPrfPreHiV : Fld := ⟨.brxPrfPreHi, 0, 32⟩
@[reducible] def brxPrfPreLoV : Fld := ⟨.brxPrfPreLo, 0, 32⟩
@[reducible] def brxPrfDlmHiV : Fld := ⟨.brxPrfDlmHi, 0, 32⟩
@[reducible] def brxPrfDlmLoV : Fld := ⟨.brxPrfDlmLo, 0, 32⟩
@[reducible] def brxChCfgWin : Fld := ⟨.brxChCfg, 16, 10⟩
@[reducible] def brxChCfgDriftTol : Fld := ⟨.brxChCfg, 8, 8⟩
@[reducible] def brxChStatWinEff : Fld := ⟨.brxChStat, 12, 10⟩
@[reducible] def brxChStatLastOfs : Fld := ⟨.brxChStat, 0, 12⟩
@[reducible] def brxRsmCfgTimeout : Fld := ⟨.brxRsmCfg, 0, 8⟩
@[reducible] def actTreeCfgLobThr : Fld := ⟨.actTreeCfg, 28, 4⟩
@[reducible] def actTreeCfgRdr : Fld := ⟨.actTreeCfg, 20, 8⟩
@[reducible] def actTreeCfgMaxReach : Fld := ⟨.actTreeCfg, 9, 9⟩
@[reducible] def actTreeCfgMinReach : Fld := ⟨.actTreeCfg, 0, 9⟩
@[reducible] def actTreeTmrLostMs : Fld := ⟨.actTreeTmr, 16, 16⟩
@[reducible] def actTreeTmrKeyTo : Fld := ⟨.actTreeTmr, 8, 8⟩
@[reducible] def actTreeTmrRegTo : Fld := ⟨.actTreeTmr, 0, 8⟩
@[reducible] def actTreeStatTEq : Fld := ⟨.actTreeStat, 0, 19⟩
@[reducible] def actChCfgSnIvl : Fld := ⟨.actChCfg, 16, 16⟩
@[reducible] def actChCfgRogueThr : Fld := ⟨.actChCfg, 4, 4⟩
@[reducible] def actChCfgSnPrf : Fld := ⟨.actChCfg, 1, 2⟩
@[reducible] def actChCfgSnEn : Fld := ⟨.actChCfg, 0, 1⟩
@[reducible] def actOnuIdOnu : Fld := ⟨.actOnuId, 14, 14⟩
@[reducible] def actOnuIdTree : Fld := ⟨.actOnuId, 11, 3⟩
@[reducible] def actOnuIdOnuId : Fld := ⟨.actOnuId, 0, 10⟩
@[reducible] def actOnuStatMiss : Fld := ⟨.actOnuStat, 24, 8⟩
@[reducible] def actOnuStatFence : Fld := ⟨.actOnuStat, 17, 1⟩
@[reducible] def actOnuStatAuto : Fld := ⟨.actOnuStat, 16, 1⟩
@[reducible] def actOnuStatKeySlot : Fld := ⟨.actOnuStat, 14, 2⟩
@[reducible] def actOnuStatWl : Fld := ⟨.actOnuStat, 12, 2⟩
@[reducible] def actOnuStatState : Fld := ⟨.actOnuStat, 0, 4⟩
@[reducible] def actOnuEqdV : Fld := ⟨.actOnuEqd, 0, 32⟩
@[reducible] def sknCfgValid : Fld := ⟨.sknCfg, 31, 1⟩
@[reducible] def sknCfgMembers : Fld := ⟨.sknCfg, 24, 4⟩
@[reducible] def sknCfgSkewMax : Fld := ⟨.sknCfg, 16, 8⟩
@[reducible] def sknCfgHoldKib : Fld := ⟨.sknCfg, 0, 16⟩
@[reducible] def cadTribCfgValid : Fld := ⟨.cadTribCfg, 31, 1⟩
@[reducible] def cadTribCfgPw : Fld := ⟨.cadTribCfg, 30, 1⟩
@[reducible] def cadTribCfgPpm : Fld := ⟨.cadTribCfg, 21, 9⟩
@[reducible] def cadTribCfgNd : Fld := ⟨.cadTribCfg, 0, 21⟩
@[reducible] def cadTribQQ : Fld := ⟨.cadTribQ, 0, 11⟩
@[reducible] def cadTribWlV : Fld := ⟨.cadTribWl, 0, 32⟩
@[reducible] def cadTribWhV : Fld := ⟨.cadTribWh, 0, 32⟩
@[reducible] def cadTribCommitCommit : Fld := ⟨.cadTribCommit, 0, 1⟩
@[reducible] def cadTribStatMfi : Fld := ⟨.cadTribStat, 24, 8⟩
@[reducible] def cadTribStatJc : Fld := ⟨.cadTribStat, 22, 2⟩
@[reducible] def cadTribStatJcRx : Fld := ⟨.cadTribStat, 20, 2⟩
@[reducible] def cadTribStatDown : Fld := ⟨.cadTribStat, 19, 1⟩
@[reducible] def cadTribStatCsfRx : Fld := ⟨.cadTribStat, 18, 1⟩
@[reducible] def prsCfgVxlanPort : Fld := ⟨.prsCfg, 16, 16⟩
@[reducible] def prsCfgPtpUdp : Fld := ⟨.prsCfg, 1, 1⟩
@[reducible] def prsCfgMplsGuess : Fld := ⟨.prsCfg, 0, 1⟩
@[reducible] def frgCfgOrphan : Fld := ⟨.frgCfg, 10, 2⟩
@[reducible] def frgCfgLifeMs : Fld := ⟨.frgCfg, 0, 10⟩
@[reducible] def rulTblCfgDir : Fld := ⟨.rulTblCfg, 30, 2⟩
@[reducible] def rulTblCfgMode : Fld := ⟨.rulTblCfg, 29, 1⟩
@[reducible] def rulTblCfgBlocks : Fld := ⟨.rulTblCfg, 0, 7⟩
@[reducible] def rulKeyWin : Fld := ⟨.rulKey, 8, 1⟩
@[reducible] def rulKeySel : Fld := ⟨.rulKey, 0, 8⟩
@[reducible] def rulEntValV : Fld := ⟨.rulEntVal, 0, 32⟩
@[reducible] def rulEntMskV : Fld := ⟨.rulEntMsk, 0, 32⟩
@[reducible] def rulEntPriV : Fld := ⟨.rulEntPri, 0, 16⟩
@[reducible] def rulEntActValid : Fld := ⟨.rulEntAct, 31, 1⟩
@[reducible] def rulEntActQEn : Fld := ⟨.rulEntAct, 30, 1⟩
@[reducible] def rulEntActCEn : Fld := ⟨.rulEntAct, 29, 1⟩
@[reducible] def rulEntActKEn : Fld := ⟨.rulEntAct, 28, 1⟩
@[reducible] def rulEntActColour : Fld := ⟨.rulEntAct, 26, 2⟩
@[reducible] def rulEntActClass : Fld := ⟨.rulEntAct, 22, 4⟩
@[reducible] def rulEntActQueue : Fld := ⟨.rulEntAct, 0, 18⟩
@[reducible] def rulEntWrWr : Fld := ⟨.rulEntWr, 0, 1⟩
@[reducible] def rulCommitCommit : Fld := ⟨.rulCommit, 0, 1⟩
@[reducible] def rulCommitAbort : Fld := ⟨.rulCommit, 1, 1⟩
@[reducible] def rulVerBusy : Fld := ⟨.rulVer, 12, 1⟩
@[reducible] def rulVerHeld : Fld := ⟨.rulVer, 8, 4⟩
@[reducible] def rulVerOldest : Fld := ⟨.rulVer, 4, 4⟩
@[reducible] def rulVerCur : Fld := ⟨.rulVer, 0, 4⟩
@[reducible] def prsHdrV : Fld := ⟨.prsHdr, 0, 32⟩
@[reducible] def brAccDataV : Fld := ⟨.brAccData, 0, 32⟩
@[reducible] def brAccCtlGo : Fld := ⟨.brAccCtl, 31, 1⟩
@[reducible] def brAccCtlTable : Fld := ⟨.brAccCtl, 28, 3⟩
@[reducible] def brAccCtlOp : Fld := ⟨.brAccCtl, 25, 3⟩
@[reducible] def brAccCtlIndex : Fld := ⟨.brAccCtl, 0, 23⟩
@[reducible] def brAccStatBusy : Fld := ⟨.brAccStat, 31, 1⟩
@[reducible] def brAccStatFound : Fld := ⟨.brAccStat, 16, 1⟩
@[reducible] def brAccStatStatus : Fld := ⟨.brAccStat, 0, 16⟩
@[reducible] def brSeedV : Fld := ⟨.brSeed, 0, 32⟩
@[reducible] def lrnCfgMoveThr : Fld := ⟨.lrnCfg, 28, 4⟩
@[reducible] def lrnCfgHold : Fld := ⟨.lrnCfg, 22, 6⟩
@[reducible] def lrnCfgMoveWin : Fld := ⟨.lrnCfg, 12, 10⟩
@[reducible] def lrnCfgXlearn : Fld := ⟨.lrnCfg, 1, 1⟩
@[reducible] def lrnCfgEn : Fld := ⟨.lrnCfg, 0, 1⟩
@[reducible] def brAgeCfgTick : Fld := ⟨.brAgeCfg, 18, 7⟩
@[reducible] def brAgeCfgAge : Fld := ⟨.brAgeCfg, 9, 9⟩
@[reducible] def lrnStatTickNow : Fld := ⟨.lrnStat, 17, 10⟩
@[reducible] def lrnStatQFill : Fld := ⟨.lrnStat, 0, 17⟩
@[reducible] def qmQCfgPrf : Fld := ⟨.qmQCfg, 26, 6⟩
@[reducible] def qmQCfgDeepEn : Fld := ⟨.qmQCfg, 25, 1⟩
@[reducible] def qmQCfgDeepMax : Fld := ⟨.qmQCfg, 0, 22⟩
@[reducible] def qmPrfCellsMax : Fld := ⟨.qmPrfCells, 16, 16⟩
@[reducible] def qmPrfCellsMin : Fld := ⟨.qmPrfCells, 0, 16⟩
@[reducible] def qmPrfDtAGreen : Fld := ⟨.qmPrfDt, 24, 8⟩
@[reducible] def qmPrfDtAYellow : Fld := ⟨.qmPrfDt, 16, 8⟩
@[reducible] def qmPrfDtARed : Fld := ⟨.qmPrfDt, 8, 8⟩
@[reducible] def qmPrfDtDpy : Fld := ⟨.qmPrfDt, 4, 4⟩
@[reducible] def qmPrfDtDpr : Fld := ⟨.qmPrfDt, 0, 4⟩
@[reducible] def qmQStatDeep : Fld := ⟨.qmQStat, 31, 1⟩
@[reducible] def qmQStatEmpty : Fld := ⟨.qmQStat, 30, 1⟩
@[reducible] def qmQStatCells : Fld := ⟨.qmQStat, 0, 17⟩
@[reducible] def qmQPagesV : Fld := ⟨.qmQPages, 0, 22⟩
@[reducible] def cstPoolCfgRsm : Fld := ⟨.cstPoolCfg, 22, 10⟩
@[reducible] def cstPoolCfgIng : Fld := ⟨.cstPoolCfg, 12, 10⟩
@[reducible] def cstPoolCfgHost : Fld := ⟨.cstPoolCfg, 2, 10⟩
@[reducible] def cstStatV : Fld := ⟨.cstStat, 0, 20⟩
@[reducible] def dstCfgSpill : Fld := ⟨.dstCfg, 16, 16⟩
@[reducible] def dstCfgRet : Fld := ⟨.dstCfg, 0, 16⟩
@[reducible] def dstFree0V : Fld := ⟨.dstFree0, 0, 23⟩
@[reducible] def dstFree1V : Fld := ⟨.dstFree1, 0, 23⟩
@[reducible] def edtOpV : Fld := ⟨.edtOp, 0, 32⟩
@[reducible] def edtCommitCommit : Fld := ⟨.edtCommit, 0, 1⟩
@[reducible] def schNdCfgEnable : Fld := ⟨.schNdCfg, 31, 1⟩
@[reducible] def schNdCfgBand : Fld := ⟨.schNdCfg, 28, 3⟩
@[reducible] def schNdCfgGate : Fld := ⟨.schNdCfg, 25, 3⟩
@[reducible] def schNdCfgOvh : Fld := ⟨.schNdCfg, 16, 9⟩
@[reducible] def schNdCfgWeight : Fld := ⟨.schNdCfg, 0, 16⟩
@[reducible] def schNdParParent : Fld := ⟨.schNdPar, 0, 17⟩
@[reducible] def schNdCirRate : Fld := ⟨.schNdCir, 0, 26⟩
@[reducible] def schNdPirRate : Fld := ⟨.schNdPir, 0, 26⟩
@[reducible] def schNdCbsBurst : Fld := ⟨.schNdCbs, 0, 19⟩
@[reducible] def schNdPbsBurst : Fld := ⟨.schNdPbs, 0, 19⟩
@[reducible] def schNdStatWork : Fld := ⟨.schNdStat, 31, 1⟩
@[reducible] def schNdStatCOk : Fld := ⟨.schNdStat, 30, 1⟩
@[reducible] def schNdStatPOk : Fld := ⟨.schNdStat, 29, 1⟩
@[reducible] def schNdStatMemErr : Fld := ⟨.schNdStat, 28, 1⟩
@[reducible] def schQCfgEnable : Fld := ⟨.schQCfg, 31, 1⟩
@[reducible] def schQCfgBand : Fld := ⟨.schQCfg, 28, 3⟩
@[reducible] def schQCfgGate : Fld := ⟨.schQCfg, 25, 3⟩
@[reducible] def schQCfgWeight : Fld := ⟨.schQCfg, 0, 16⟩
@[reducible] def schQParParent : Fld := ⟨.schQPar, 0, 17⟩
@[reducible] def schQCirRate : Fld := ⟨.schQCir, 0, 26⟩
@[reducible] def schQPirRate : Fld := ⟨.schQPir, 0, 26⟩
@[reducible] def schQCbsBurst : Fld := ⟨.schQCbs, 0, 19⟩
@[reducible] def schQPbsBurst : Fld := ⟨.schQPbs, 0, 19⟩
@[reducible] def schQStatWork : Fld := ⟨.schQStat, 31, 1⟩
@[reducible] def schQStatCOk : Fld := ⟨.schQStat, 30, 1⟩
@[reducible] def schQStatPOk : Fld := ⟨.schQStat, 29, 1⟩
@[reducible] def schQStatMemErr : Fld := ⟨.schQStat, 28, 1⟩
@[reducible] def plcCfgValid : Fld := ⟨.plcCfg, 31, 1⟩
@[reducible] def plcCfgType : Fld := ⟨.plcCfg, 29, 2⟩
@[reducible] def plcCfgAware : Fld := ⟨.plcCfg, 28, 1⟩
@[reducible] def plcCfgCf : Fld := ⟨.plcCfg, 27, 1⟩
@[reducible] def plcCfgRedAct : Fld := ⟨.plcCfg, 26, 1⟩
@[reducible] def plcCfgDeiIn : Fld := ⟨.plcCfg, 25, 1⟩
@[reducible] def plcCirRate : Fld := ⟨.plcCir, 0, 26⟩
@[reducible] def plcEirRate : Fld := ⟨.plcEir, 0, 26⟩
@[reducible] def plcCbsBurst : Fld := ⟨.plcCbs, 0, 19⟩
@[reducible] def plcEbsBurst : Fld := ⟨.plcEbs, 0, 19⟩
@[reducible] def gtEntIntInterval : Fld := ⟨.gtEntInt, 0, 30⟩
@[reducible] def gtEntGatesV : Fld := ⟨.gtEntGates, 0, 8⟩
@[reducible] def gtBaseSecHiV : Fld := ⟨.gtBaseSecHi, 0, 16⟩
@[reducible] def gtBaseSecLoV : Fld := ⟨.gtBaseSecLo, 0, 32⟩
@[reducible] def gtBaseNsV : Fld := ⟨.gtBaseNs, 0, 30⟩
@[reducible] def gtCycleV : Fld := ⟨.gtCycle, 0, 30⟩
@[reducible] def gtStartSecHiV : Fld := ⟨.gtStartSecHi, 0, 16⟩
@[reducible] def gtStartSecLoV : Fld := ⟨.gtStartSecLo, 0, 32⟩
@[reducible] def gtStartNsV : Fld := ⟨.gtStartNs, 0, 30⟩
@[reducible] def gtGateCfgGuard : Fld := ⟨.gtGateCfg, 14, 18⟩
@[reducible] def gtGateCfgGmax : Fld := ⟨.gtGateCfg, 0, 14⟩
@[reducible] def gtListCtlArm : Fld := ⟨.gtListCtl, 31, 1⟩
@[reducible] def gtListCtlAdv : Fld := ⟨.gtListCtl, 16, 1⟩
@[reducible] def gtListCtlCount : Fld := ⟨.gtListCtl, 0, 11⟩
@[reducible] def gtStatOpen : Fld := ⟨.gtStat, 11, 8⟩
@[reducible] def gtStatEntry : Fld := ⟨.gtStat, 1, 10⟩
@[reducible] def gtStatRunning : Fld := ⟨.gtStat, 0, 1⟩
@[reducible] def secStatZdie : Fld := ⟨.secStat, 4, 8⟩
@[reducible] def secStatZpkg : Fld := ⟨.secStat, 3, 1⟩
@[reducible] def secStatCo : Fld := ⟨.secStat, 2, 1⟩
@[reducible] def secStatError : Fld := ⟨.secStat, 1, 1⟩
@[reducible] def secStatApproved : Fld := ⟨.secStat, 0, 1⟩
@[reducible] def secCfgAlarmMask : Fld := ⟨.secCfg, 1, 9⟩
@[reducible] def secCfgStrict : Fld := ⟨.secCfg, 0, 1⟩
@[reducible] def secAlarmTamper : Fld := ⟨.secAlarm, 8, 1⟩
@[reducible] def secAlarmLight : Fld := ⟨.secAlarm, 7, 1⟩
@[reducible] def secAlarmShield : Fld := ⟨.secAlarm, 6, 1⟩
@[reducible] def secAlarmTemp : Fld := ⟨.secAlarm, 5, 1⟩
@[reducible] def secAlarmClk : Fld := ⟨.secAlarm, 4, 1⟩
@[reducible] def secAlarmVolt : Fld := ⟨.secAlarm, 3, 1⟩
@[reducible] def secAlarmEnt : Fld := ⟨.secAlarm, 2, 1⟩
@[reducible] def secAlarmDrbg : Fld := ⟨.secAlarm, 1, 1⟩
@[reducible] def secAlarmDup : Fld := ⟨.secAlarm, 0, 1⟩
@[reducible] def cphCoreStatSeq : Fld := ⟨.cphCoreStat, 2, 16⟩
@[reducible] def cphCoreStatState : Fld := ⟨.cphCoreStat, 0, 2⟩
@[reducible] def mscCoreStatSeq : Fld := ⟨.mscCoreStat, 2, 16⟩
@[reducible] def mscCoreStatState : Fld := ⟨.mscCoreStat, 0, 2⟩
@[reducible] def mscPortCfgOffset : Fld := ⟨.mscPortCfg, 6, 2⟩
@[reducible] def mscPortCfgTxAn : Fld := ⟨.mscPortCfg, 4, 2⟩
@[reducible] def mscPortCfgReplay : Fld := ⟨.mscPortCfg, 3, 1⟩
@[reducible] def mscPortCfgStrict : Fld := ⟨.mscPortCfg, 2, 1⟩
@[reducible] def mscPortCfgProtect : Fld := ⟨.mscPortCfg, 1, 1⟩
@[reducible] def mscPortCfgEn : Fld := ⟨.mscPortCfg, 0, 1⟩
@[reducible] def mscPnThrV : Fld := ⟨.mscPnThr, 0, 32⟩
@[reducible] def tndPairCfgPeer : Fld := ⟨.tndPairCfg, 20, 10⟩
@[reducible] def tndPairCfgDivThr : Fld := ⟨.tndPairCfg, 16, 4⟩
@[reducible] def tndPairCfgLossThr : Fld := ⟨.tndPairCfg, 8, 8⟩
@[reducible] def tndPairCfgAuto : Fld := ⟨.tndPairCfg, 1, 1⟩
@[reducible] def tndPairCfgEn : Fld := ⟨.tndPairCfg, 0, 1⟩
@[reducible] def tndPairStatLanes : Fld := ⟨.tndPairStat, 8, 8⟩
@[reducible] def tndPairStatLink : Fld := ⟨.tndPairStat, 7, 1⟩
@[reducible] def tndPairStatPaired : Fld := ⟨.tndPairStat, 6, 1⟩
@[reducible] def tndPairStatSenior : Fld := ⟨.tndPairStat, 5, 1⟩
@[reducible] def tndPairStatPeerLow : Fld := ⟨.tndPairStat, 4, 1⟩
@[reducible] def tndPairStatHalter : Fld := ⟨.tndPairStat, 0, 3⟩
@[reducible] def tndTreeCfgProtect : Fld := ⟨.tndTreeCfg, 31, 1⟩
@[reducible] def tndTreeCfgDfeed : Fld := ⟨.tndTreeCfg, 0, 19⟩
@[reducible] def tndTreeStatMis : Fld := ⟨.tndTreeStat, 28, 4⟩
@[reducible] def tndTreeStatReady : Fld := ⟨.tndTreeStat, 27, 1⟩
@[reducible] def tndTreeStatSelfchk : Fld := ⟨.tndTreeStat, 26, 1⟩
@[reducible] def lshRingBaseHiV : Fld := ⟨.lshRingBaseHi, 0, 32⟩
@[reducible] def lshRingBaseLoV : Fld := ⟨.lshRingBaseLo, 12, 20⟩
@[reducible] def lshRingCfgEn : Fld := ⟨.lshRingCfg, 31, 1⟩
@[reducible] def lshRingCfgSize : Fld := ⟨.lshRingCfg, 16, 4⟩
@[reducible] def lshRingPtrPhase : Fld := ⟨.lshRingPtr, 31, 1⟩
@[reducible] def lshRingPtrDev : Fld := ⟨.lshRingPtr, 16, 12⟩
@[reducible] def lshRingPtrHost : Fld := ⟨.lshRingPtr, 0, 12⟩
@[reducible] def lshStatCastOn : Fld := ⟨.lshStat, 24, 1⟩
@[reducible] def lshStatGen : Fld := ⟨.lshStat, 16, 8⟩
@[reducible] def lshStatInflight : Fld := ⟨.lshStat, 0, 13⟩
@[reducible] def lshInbMacHiV : Fld := ⟨.lshInbMacHi, 0, 16⟩
@[reducible] def lshInbMacLoV : Fld := ⟨.lshInbMacLo, 0, 32⟩
@[reducible] def evtStatV : Fld := ⟨.evtStat, 0, 32⟩
@[reducible] def evtMaskV : Fld := ⟨.evtMask, 0, 32⟩
@[reducible] def evtRouteFw : Fld := ⟨.evtRoute, 31, 1⟩
@[reducible] def evtRouteAlert : Fld := ⟨.evtRoute, 30, 1⟩
@[reducible] def evtRouteIbi : Fld := ⟨.evtRoute, 29, 1⟩
@[reducible] def evtRouteMsix : Fld := ⟨.evtRoute, 28, 1⟩
@[reducible] def evtRouteVector : Fld := ⟨.evtRoute, 0, 6⟩
@[reducible] def evtRingWrV : Fld := ⟨.evtRingWr, 0, 32⟩
@[reducible] def evtRingRdV : Fld := ⟨.evtRingRd, 0, 32⟩
@[reducible] def evtRingRecV : Fld := ⟨.evtRingRec, 0, 32⟩
@[reducible] def evtRingStatLost : Fld := ⟨.evtRingStat, 16, 16⟩
@[reducible] def evtRingStatAvail : Fld := ⟨.evtRingStat, 0, 13⟩
@[reducible] def sqStatState : Fld := ⟨.sqStat, 29, 3⟩
@[reducible] def sqStatCause : Fld := ⟨.sqStat, 26, 3⟩
@[reducible] def sqStatServes : Fld := ⟨.sqStat, 24, 2⟩
@[reducible] def sqStatParked : Fld := ⟨.sqStat, 17, 7⟩
@[reducible] def sqStatAddr : Fld := ⟨.sqStat, 0, 17⟩
@[reducible] def sqTmoTmo : Fld := ⟨.sqTmo, 0, 24⟩
@[reducible] def sqDarnLevelApplied : Fld := ⟨.sqDarnLevel, 31, 1⟩
@[reducible] def sqDarnLevelLevel : Fld := ⟨.sqDarnLevel, 0, 16⟩
@[reducible] def spBankOwnerPending : Fld := ⟨.spBankOwner, 31, 1⟩
@[reducible] def spBankOwnerClear : Fld := ⟨.spBankOwner, 30, 1⟩
@[reducible] def spBankOwnerLocked : Fld := ⟨.spBankOwner, 29, 1⟩
@[reducible] def spBankOwnerOwner : Fld := ⟨.spBankOwner, 0, 3⟩
@[reducible] def hbmSegOwnerPending : Fld := ⟨.hbmSegOwner, 31, 1⟩
@[reducible] def hbmSegOwnerClear : Fld := ⟨.hbmSegOwner, 30, 1⟩
@[reducible] def hbmSegOwnerLocked : Fld := ⟨.hbmSegOwner, 29, 1⟩
@[reducible] def hbmSegOwnerOwner : Fld := ⟨.hbmSegOwner, 0, 3⟩
@[reducible] def hbmCfgPcThr : Fld := ⟨.hbmCfg, 16, 16⟩
@[reducible] def hbmCfgCorrThr : Fld := ⟨.hbmCfg, 0, 8⟩
@[reducible] def hbmPcMapLost : Fld := ⟨.hbmPcMap, 31, 1⟩
@[reducible] def hbmPcMapRetired : Fld := ⟨.hbmPcMap, 5, 16⟩
@[reducible] def hbmPcMapPhys : Fld := ⟨.hbmPcMap, 0, 5⟩
@[reducible] def secLifecycleTamper : Fld := ⟨.secLifecycle, 20, 6⟩
@[reducible] def secLifecycleRb : Fld := ⟨.secLifecycle, 13, 7⟩
@[reducible] def secLifecycleIdOk : Fld := ⟨.secLifecycle, 3, 1⟩
@[reducible] def secLifecycleCosign : Fld := ⟨.secLifecycle, 2, 1⟩
@[reducible] def secLifecycleState : Fld := ⟨.secLifecycle, 0, 2⟩
@[reducible] def secOwnerHashV : Fld := ⟨.secOwnerHash, 0, 32⟩
@[reducible] def ggcUnitDie : Fld := ⟨.ggcUnit, 22, 4⟩
@[reducible] def ggcUnitBlock : Fld := ⟨.ggcUnit, 16, 6⟩
@[reducible] def ggcUnitUnit : Fld := ⟨.ggcUnit, 0, 16⟩
@[reducible] def ggcCfgChain : Fld := ⟨.ggcCfg, 16, 1⟩
@[reducible] def ggcCfgSel : Fld := ⟨.ggcCfg, 0, 16⟩
@[reducible] def ggcOvfV : Fld := ⟨.ggcOvf, 0, 8⟩
@[reducible] def ggcCntHiV : Fld := ⟨.ggcCntHi, 0, 32⟩
@[reducible] def ggcCntLoV : Fld := ⟨.ggcCntLo, 0, 32⟩
@[reducible] def ggcSnapStatBusy : Fld := ⟨.ggcSnapStat, 31, 1⟩
@[reducible] def ggcSnapStatBuf : Fld := ⟨.ggcSnapStat, 30, 1⟩
@[reducible] def ggcSnapStatSeq : Fld := ⟨.ggcSnapStat, 0, 24⟩
@[reducible] def ggcPmCfgSesUpl : Fld := ⟨.ggcPmCfg, 16, 8⟩
@[reducible] def ggcPmCfgSesTrib : Fld := ⟨.ggcPmCfg, 8, 8⟩
@[reducible] def ggcPmCfgSesPon : Fld := ⟨.ggcPmCfg, 0, 8⟩
@[reducible] def pwrTempV : Fld := ⟨.pwrTemp, 0, 12⟩
@[reducible] def pwrPkgMwV : Fld := ⟨.pwrPkgMw, 0, 20⟩
@[reducible] def pwrThermCfgWarn : Fld := ⟨.pwrThermCfg, 0, 8⟩
@[reducible] def pwrDomStatV : Fld := ⟨.pwrDomStat, 0, 32⟩
@[reducible] def tnsCfgLongUs : Fld := ⟨.tnsCfg, 16, 8⟩
@[reducible] def tnsCfgRel : Fld := ⟨.tnsCfg, 8, 8⟩
@[reducible] def tnsCfgThr : Fld := ⟨.tnsCfg, 0, 5⟩
@[reducible] def tnsStatBelow : Fld := ⟨.tnsStat, 6, 1⟩
@[reducible] def tnsStatS : Fld := ⟨.tnsStat, 0, 6⟩
@[reducible] def rmdKindInuse : Fld := ⟨.rmdKind, 24, 8⟩
@[reducible] def rmdKindLeft : Fld := ⟨.rmdKind, 16, 8⟩
@[reducible] def rmdKindPolicy : Fld := ⟨.rmdKind, 0, 2⟩
@[reducible] def rmdCfgWearPpm : Fld := ⟨.rmdCfg, 0, 32⟩

end Fld

/-- One row of a register table: the field, its access code and the values that are not reserved. -/
structure FieldRow where
  lo : Nat
  w : Nat
  acc : Acc
  legal : List (Nat × Nat) := []
deriving DecidableEq, Repr

/-- The block that holds a register. -/
def Reg.block : Reg → Blk
  | .sysId => .sys
  | .sysDevnum => .sys
  | .sysAccErr => .sys
  | .sysCaston => .sys
  | .rtnsel => .sys
  | .sysRtnCfg => .sys
  | .sysRtnStat => .sys
  | .blkId => .sys
  | .chsel => .pch
  | .onusel => .act
  | .alcsel => .gnt
  | .lnsel => .lnp
  | .sksel => .skn
  | .trsel => .cad
  | .coresel => .cph
  | .tresel => .tnd
  | .qsel => .qm
  | .plsel => .plc
  | .gtsel => .gt
  | .gesel => .gt
  | .ndsel => .sch
  | .apsel => .qm
  | .epsel => .edt
  | .rtsel => .rul
  | .ridx => .rul
  | .htsel => .prs
  | .tpsel => .tb
  | .rgsel => .lsh
  | .tbLatch => .tb
  | .tbSnapSecHi => .tb
  | .tbSnapSecLo => .tb
  | .tbSnapNs => .tb
  | .tbSnapFrac => .tb
  | .tbIncr => .tb
  | .tbIncrFrac => .tb
  | .tbActSecHi => .tb
  | .tbActSecLo => .tb
  | .tbActNs => .tb
  | .tbSetSecHi => .tb
  | .tbSetSecLo => .tb
  | .tbSetNs => .tb
  | .tbStepSec => .tb
  | .tbStepNs => .tb
  | .tbPincInt => .tb
  | .tbPincFrac => .tb
  | .tbSlewOfsHi => .tb
  | .tbSlewOfsLo => .tb
  | .tbSlewCyc => .tb
  | .tbActKind => .tb
  | .tbActCtl => .tb
  | .tbStat => .tb
  | .tbWdog => .tb
  | .tbPinCfg => .tb
  | .tbPinStartSecHi => .tb
  | .tbPinStartSecLo => .tb
  | .tbPinStartNs => .tb
  | .tbPinPeriod => .tb
  | .tbPinWidth => .tb
  | .tbCapStat => .tb
  | .tbCapSecHi => .tb
  | .tbCapSecLo => .tb
  | .tbCapNs => .tb
  | .tbCapFrac => .tb
  | .tbCapPop => .tb
  | .tbDivCfg => .tb
  | .tbFleCfg => .tb
  | .tbPpsCfg => .tb
  | .gntPinCfg => .gnt
  | .tsiIngAdj => .tsi
  | .tsiEgrAdj => .tsi
  | .lnuCtl => .lnu
  | .lnuStat => .lnu
  | .lnuMode => .lnu
  | .tndCtl => .tnd
  | .tndStat => .tnd
  | .lnpCtl => .lnp
  | .pchCfg => .pch
  | .pchStat => .pch
  | .pchTree => .pch
  | .brxDlnCfg => .brx
  | .tndDlnCfg => .tnd
  | .cadDlnCfg => .cad
  | .gntTreeCfg => .gnt
  | .gntChCfg => .gnt
  | .gntChStat => .gnt
  | .gntAlcFix => .gnt
  | .gntAlcAsr => .gnt
  | .gntAlcNas => .gnt
  | .gntAlcMax => .gnt
  | .gntAlcId => .gnt
  | .gntAlcCfg => .gnt
  | .gntAlcCommit => .gnt
  | .gntAlcStat => .gnt
  | .gntAlcDemand => .gnt
  | .brxPrfCfg => .brx
  | .brxPrfPreHi => .brx
  | .brxPrfPreLo => .brx
  | .brxPrfDlmHi => .brx
  | .brxPrfDlmLo => .brx
  | .brxChCfg => .brx
  | .brxChStat => .brx
  | .brxRsmCfg => .brx
  | .actTreeCfg => .act
  | .actTreeTmr => .act
  | .actTreeStat => .act
  | .actChCfg => .act
  | .actOnuId => .act
  | .actOnuStat => .act
  | .actOnuEqd => .act
  | .sknCfg => .skn
  | .cadTribCfg => .cad
  | .cadTribQ => .cad
  | .cadTribWl => .cad
  | .cadTribWh => .cad
  | .cadTribCommit => .cad
  | .cadTribStat => .cad
  | .prsCfg => .prs
  | .frgCfg => .frg
  | .rulTblCfg => .rul
  | .rulKey => .rul
  | .rulEntVal => .rul
  | .rulEntMsk => .rul
  | .rulEntPri => .rul
  | .rulEntAct => .rul
  | .rulEntWr => .rul
  | .rulCommit => .rul
  | .rulVer => .rul
  | .prsHdr => .prs
  | .brAccData => .br
  | .brAccCtl => .br
  | .brAccStat => .br
  | .brSeed => .br
  | .lrnCfg => .lrn
  | .brAgeCfg => .br
  | .lrnStat => .lrn
  | .qmQCfg => .qm
  | .qmPrfCells => .qm
  | .qmPrfDt => .qm
  | .qmQStat => .qm
  | .qmQPages => .qm
  | .cstPoolCfg => .cst
  | .cstStat => .cst
  | .dstCfg => .dst
  | .dstFree0 => .dst
  | .dstFree1 => .dst
  | .edtOp => .edt
  | .edtCommit => .edt
  | .schNdCfg => .sch
  | .schNdPar => .sch
  | .schNdCir => .sch
  | .schNdPir => .sch
  | .schNdCbs => .sch
  | .schNdPbs => .sch
  | .schNdStat => .sch
  | .schQCfg => .sch
  | .schQPar => .sch
  | .schQCir => .sch
  | .schQPir => .sch
  | .schQCbs => .sch
  | .schQPbs => .sch
  | .schQStat => .sch
  | .plcCfg => .plc
  | .plcCir => .plc
  | .plcEir => .plc
  | .plcCbs => .plc
  | .plcEbs => .plc
  | .gtEntInt => .gt
  | .gtEntGates => .gt
  | .gtBaseSecHi => .gt
  | .gtBaseSecLo => .gt
  | .gtBaseNs => .gt
  | .gtCycle => .gt
  | .gtStartSecHi => .gt
  | .gtStartSecLo => .gt
  | .gtStartNs => .gt
  | .gtGateCfg => .gt
  | .gtListCtl => .gt
  | .gtStat => .gt
  | .secStat => .sec
  | .secCfg => .sec
  | .secAlarm => .sec
  | .cphCoreStat => .cph
  | .mscCoreStat => .msc
  | .mscPortCfg => .msc
  | .mscPnThr => .msc
  | .tndPairCfg => .tnd
  | .tndPairStat => .tnd
  | .tndTreeCfg => .tnd
  | .tndTreeStat => .tnd
  | .lshRingBaseHi => .lsh
  | .lshRingBaseLo => .lsh
  | .lshRingCfg => .lsh
  | .lshRingPtr => .lsh
  | .lshStat => .lsh
  | .lshInbMacHi => .lsh
  | .lshInbMacLo => .lsh
  | .evtStat => .evt
  | .evtMask => .evt
  | .evtRoute => .evt
  | .evtRingWr => .evt
  | .evtRingRd => .evt
  | .evtRingRec => .evt
  | .evtRingStat => .evt
  | .sqStat => .sq
  | .sqTmo => .sq
  | .sqDarnLevel => .sq
  | .spBankOwner => .sp
  | .hbmSegOwner => .hbm
  | .hbmCfg => .hbm
  | .hbmPcMap => .hbm
  | .secLifecycle => .sec
  | .secOwnerHash => .sec
  | .ggcUnit => .ggc
  | .ggcCfg => .ggc
  | .ggcOvf => .ggc
  | .ggcCntHi => .ggc
  | .ggcCntLo => .ggc
  | .ggcSnapStat => .ggc
  | .ggcPmCfg => .ggc
  | .pwrTemp => .pwr
  | .pwrPkgMw => .pwr
  | .pwrThermCfg => .pwr
  | .pwrDomStat => .pwr
  | .tnsCfg => .tns
  | .tnsStat => .tns
  | .rmdKind => .rmd
  | .rmdCfg => .rmd

/-- What selects a register's instance. -/
def Reg.scope : Reg → Scope
  | .sysId => .pkg
  | .sysDevnum => .pkg
  | .sysAccErr => .pkg
  | .sysCaston => .pkg
  | .rtnsel => .path
  | .sysRtnCfg => .rtn
  | .sysRtnStat => .rtn
  | .blkId => .blk
  | .chsel => .sel
  | .onusel => .sel
  | .alcsel => .sel
  | .lnsel => .sel
  | .sksel => .sel
  | .trsel => .sel
  | .coresel => .sel
  | .tresel => .sel
  | .qsel => .sel
  | .plsel => .sel
  | .gtsel => .sel
  | .gesel => .sel
  | .ndsel => .sel
  | .apsel => .sel
  | .epsel => .sel
  | .rtsel => .sel
  | .ridx => .sel
  | .htsel => .sel
  | .tpsel => .sel
  | .rgsel => .sel
  | .tbLatch => .path
  | .tbSnapSecHi => .path
  | .tbSnapSecLo => .path
  | .tbSnapNs => .path
  | .tbSnapFrac => .path
  | .tbIncr => .single
  | .tbIncrFrac => .path
  | .tbActSecHi => .path
  | .tbActSecLo => .path
  | .tbActNs => .path
  | .tbSetSecHi => .path
  | .tbSetSecLo => .path
  | .tbSetNs => .path
  | .tbStepSec => .path
  | .tbStepNs => .path
  | .tbPincInt => .path
  | .tbPincFrac => .path
  | .tbSlewOfsHi => .path
  | .tbSlewOfsLo => .path
  | .tbSlewCyc => .path
  | .tbActKind => .path
  | .tbActCtl => .single
  | .tbStat => .single
  | .tbWdog => .single
  | .tbPinCfg => .pin
  | .tbPinStartSecHi => .pin
  | .tbPinStartSecLo => .pin
  | .tbPinStartNs => .pin
  | .tbPinPeriod => .pin
  | .tbPinWidth => .pin
  | .tbCapStat => .pin
  | .tbCapSecHi => .pin
  | .tbCapSecLo => .pin
  | .tbCapNs => .pin
  | .tbCapFrac => .pin
  | .tbCapPop => .pin
  | .tbDivCfg => .single
  | .tbFleCfg => .single
  | .tbPpsCfg => .single
  | .gntPinCfg => .ch
  | .tsiIngAdj => .lane
  | .tsiEgrAdj => .lane
  | .lnuCtl => .lane
  | .lnuStat => .lane
  | .lnuMode => .octet
  | .tndCtl => .tlane
  | .tndStat => .tlane
  | .lnpCtl => .lnpch
  | .pchCfg => .ch
  | .pchStat => .ch
  | .pchTree => .tree
  | .brxDlnCfg => .ch
  | .tndDlnCfg => .die
  | .cadDlnCfg => .trib
  | .gntTreeCfg => .tree
  | .gntChCfg => .ch
  | .gntChStat => .ch
  | .gntAlcFix => .alcst
  | .gntAlcAsr => .alcst
  | .gntAlcNas => .alcst
  | .gntAlcMax => .alcst
  | .gntAlcId => .alcst
  | .gntAlcCfg => .alcst
  | .gntAlcCommit => .alc
  | .gntAlcStat => .alc
  | .gntAlcDemand => .alc
  | .brxPrfCfg => .prf
  | .brxPrfPreHi => .prf
  | .brxPrfPreLo => .prf
  | .brxPrfDlmHi => .prf
  | .brxPrfDlmLo => .prf
  | .brxChCfg => .ch
  | .brxChStat => .ch
  | .brxRsmCfg => .die
  | .actTreeCfg => .tree
  | .actTreeTmr => .tree
  | .actTreeStat => .tree
  | .actChCfg => .ch
  | .actOnuId => .slot
  | .actOnuStat => .slot
  | .actOnuEqd => .slot
  | .sknCfg => .skein
  | .cadTribCfg => .tribst
  | .cadTribQ => .tribst
  | .cadTribWl => .tribst
  | .cadTribWh => .tribst
  | .cadTribCommit => .trib
  | .cadTribStat => .trib
  | .prsCfg => .die
  | .frgCfg => .die
  | .rulTblCfg => .rtable
  | .rulKey => .rtable
  | .rulEntVal => .path
  | .rulEntMsk => .path
  | .rulEntPri => .path
  | .rulEntAct => .path
  | .rulEntWr => .path
  | .rulCommit => .die
  | .rulVer => .die
  | .prsHdr => .htype
  | .brAccData => .path
  | .brAccCtl => .path
  | .brAccStat => .path
  | .brSeed => .die
  | .lrnCfg => .die
  | .brAgeCfg => .die
  | .lrnStat => .die
  | .qmQCfg => .queue
  | .qmPrfCells => .aprof
  | .qmPrfDt => .aprof
  | .qmQStat => .queue
  | .qmQPages => .queue
  | .cstPoolCfg => .die
  | .cstStat => .die
  | .dstCfg => .die
  | .dstFree0 => .die
  | .dstFree1 => .die
  | .edtOp => .path
  | .edtCommit => .path
  | .schNdCfg => .node
  | .schNdPar => .node
  | .schNdCir => .node
  | .schNdPir => .node
  | .schNdCbs => .node
  | .schNdPbs => .node
  | .schNdStat => .node
  | .schQCfg => .queue
  | .schQPar => .queue
  | .schQCir => .queue
  | .schQPir => .queue
  | .schQCbs => .queue
  | .schQPbs => .queue
  | .schQStat => .queue
  | .plcCfg => .pol
  | .plcCir => .pol
  | .plcEir => .pol
  | .plcCbs => .pol
  | .plcEbs => .pol
  | .gtEntInt => .ge
  | .gtEntGates => .ge
  | .gtBaseSecHi => .gctl
  | .gtBaseSecLo => .gctl
  | .gtBaseNs => .gctl
  | .gtCycle => .gctl
  | .gtStartSecHi => .gctl
  | .gtStartSecLo => .gctl
  | .gtStartNs => .gctl
  | .gtGateCfg => .gctl
  | .gtListCtl => .gctl
  | .gtStat => .gctl
  | .secStat => .pkg
  | .secCfg => .pkg
  | .secAlarm => .pkg
  | .cphCoreStat => .core
  | .mscCoreStat => .core
  | .mscPortCfg => .port
  | .mscPnThr => .port
  | .tndPairCfg => .pair
  | .tndPairStat => .pair
  | .tndTreeCfg => .ptree
  | .tndTreeStat => .ptree
  | .lshRingBaseHi => .ring
  | .lshRingBaseLo => .ring
  | .lshRingCfg => .ring
  | .lshRingPtr => .ring
  | .lshStat => .path
  | .lshInbMacHi => .single
  | .lshInbMacLo => .single
  | .evtStat => .pkg
  | .evtMask => .pkg
  | .evtRoute => .pkg
  | .evtRingWr => .pkg
  | .evtRingRd => .path
  | .evtRingRec => .path
  | .evtRingStat => .path
  | .sqStat => .die
  | .sqTmo => .die
  | .sqDarnLevel => .die
  | .spBankOwner => .die
  | .hbmSegOwner => .die
  | .hbmCfg => .die
  | .hbmPcMap => .die
  | .secLifecycle => .pkg
  | .secOwnerHash => .pkg
  | .ggcUnit => .path
  | .ggcCfg => .gunit
  | .ggcOvf => .gunit
  | .ggcCntHi => .gunit
  | .ggcCntLo => .gunit
  | .ggcSnapStat => .pkg
  | .ggcPmCfg => .pkg
  | .pwrTemp => .pkg
  | .pwrPkgMw => .pkg
  | .pwrThermCfg => .pkg
  | .pwrDomStat => .pkg
  | .tnsCfg => .pkg
  | .tnsStat => .pkg
  | .rmdKind => .pkg
  | .rmdCfg => .pkg

/-- The fields of a register, from its table. A field with a list of ranges has its other values reserved (R10). -/
def Reg.rows : Reg → List FieldRow
  | .sysId => [⟨16, 16, .ro, []⟩, ⟨8, 8, .ro, []⟩]
  | .sysDevnum => [⟨0, 10, .ro, []⟩]
  | .sysAccErr => [⟨31, 1, .w1c, []⟩, ⟨28, 3, .ro, []⟩, ⟨26, 2, .ro, []⟩, ⟨0, 26, .ro, []⟩]
  | .sysCaston => [⟨31, 1, .ro, []⟩, ⟨30, 1, .ro, []⟩, ⟨27, 3, .ro, []⟩, ⟨24, 3, .ro, []⟩, ⟨20, 1, .ro, []⟩, ⟨4, 16, .ro, []⟩, ⟨0, 4, .ro, []⟩]
  | .rtnsel => [⟨8, 4, .rw, [(0, 7)]⟩, ⟨0, 6, .rw, []⟩]
  | .sysRtnCfg => [⟨25, 1, .rwc, []⟩, ⟨24, 1, .rwc, []⟩, ⟨0, 17, .rwc, []⟩]
  | .sysRtnStat => [⟨17, 1, .ro, []⟩, ⟨0, 17, .ro, []⟩]
  | .blkId => [⟨26, 6, .ro, []⟩, ⟨24, 2, .ro, []⟩, ⟨16, 8, .ro, []⟩, ⟨0, 12, .ro, []⟩]
  | .chsel => [⟨0, 5, .rw, []⟩]
  | .onusel => [⟨0, 12, .rw, []⟩]
  | .alcsel => [⟨0, 14, .rw, []⟩]
  | .lnsel => [⟨0, 5, .rw, []⟩]
  | .sksel => [⟨0, 4, .rw, []⟩]
  | .trsel => [⟨0, 8, .rw, []⟩]
  | .coresel => [⟨0, 7, .rw, []⟩]
  | .tresel => [⟨0, 5, .rw, []⟩]
  | .qsel => [⟨0, 26, .rw, []⟩]
  | .plsel => [⟨0, 17, .rw, []⟩]
  | .gtsel => [⟨0, 7, .rw, [(0, 95)]⟩]
  | .gesel => [⟨0, 10, .rw, []⟩]
  | .ndsel => [⟨28, 1, .rw, []⟩, ⟨25, 3, .rw, [(1, 4)]⟩, ⟨0, 17, .rw, []⟩]
  | .apsel => [⟨0, 6, .rw, []⟩]
  | .epsel => [⟨0, 12, .rw, []⟩]
  | .rtsel => [⟨0, 4, .rw, []⟩]
  | .ridx => [⟨0, 16, .rw, []⟩]
  | .htsel => [⟨0, 7, .rw, [(64, 127)]⟩]
  | .tpsel => [⟨0, 6, .rw, [(0, 32)]⟩]
  | .rgsel => [⟨0, 2, .rw, []⟩]
  | .tbLatch => [⟨0, 1, .wo, []⟩]
  | .tbSnapSecHi => [⟨0, 16, .ro, []⟩]
  | .tbSnapSecLo => [⟨0, 32, .ro, []⟩]
  | .tbSnapNs => [⟨0, 30, .ro, []⟩]
  | .tbSnapFrac => [⟨0, 32, .ro, []⟩]
  | .tbIncr => [⟨0, 4, .rwc, []⟩]
  | .tbIncrFrac => [⟨0, 32, .rwc, []⟩]
  | .tbActSecHi => [⟨0, 16, .rwc, []⟩]
  | .tbActSecLo => [⟨0, 32, .rwc, []⟩]
  | .tbActNs => [⟨0, 30, .rwc, []⟩]
  | .tbSetSecHi => [⟨0, 16, .rwc, []⟩]
  | .tbSetSecLo => [⟨0, 32, .rwc, []⟩]
  | .tbSetNs => [⟨0, 30, .rwc, []⟩]
  | .tbStepSec => [⟨0, 32, .rwc, []⟩]
  | .tbStepNs => [⟨0, 32, .rwc, [(0, 999999999), (3294967297, 4294967295)]⟩]
  | .tbPincInt => [⟨0, 4, .rwc, []⟩]
  | .tbPincFrac => [⟨0, 32, .rwc, []⟩]
  | .tbSlewOfsHi => [⟨0, 32, .rwc, []⟩]
  | .tbSlewOfsLo => [⟨0, 32, .rwc, []⟩]
  | .tbSlewCyc => [⟨0, 32, .rwc, [(1, 4294967295)]⟩]
  | .tbActKind => [⟨1, 4, .rwc, []⟩]
  | .tbActCtl => [⟨8, 1, .w1c, []⟩, ⟨0, 1, .rwc, []⟩]
  | .tbStat => [⟨6, 1, .ro, []⟩, ⟨5, 1, .ro, []⟩, ⟨4, 1, .w1c, []⟩, ⟨3, 1, .ro, []⟩, ⟨2, 1, .ro, []⟩, ⟨1, 1, .ro, []⟩, ⟨0, 1, .ro, []⟩]
  | .tbWdog => [⟨0, 16, .rwc, []⟩]
  | .tbPinCfg => [⟨8, 5, .ro, []⟩, ⟨3, 1, .rwc, []⟩, ⟨0, 3, .rwc, [(0, 5)]⟩]
  | .tbPinStartSecHi => [⟨0, 16, .rwc, []⟩]
  | .tbPinStartSecLo => [⟨0, 32, .rwc, []⟩]
  | .tbPinStartNs => [⟨0, 30, .rwc, []⟩]
  | .tbPinPeriod => [⟨0, 32, .rwc, []⟩]
  | .tbPinWidth => [⟨0, 32, .rwc, []⟩]
  | .tbCapStat => [⟨0, 32, .ro, []⟩]
  | .tbCapSecHi => [⟨0, 16, .ro, []⟩]
  | .tbCapSecLo => [⟨0, 32, .ro, []⟩]
  | .tbCapNs => [⟨0, 30, .ro, []⟩]
  | .tbCapFrac => [⟨0, 32, .ro, []⟩]
  | .tbCapPop => [⟨0, 1, .wo, []⟩]
  | .tbDivCfg => [⟨0, 8, .rwc, [(4, 255)]⟩]
  | .tbFleCfg => [⟨0, 10, .rwc, [(1, 1000)]⟩]
  | .tbPpsCfg => [⟨0, 19, .rwc, [(1, 500000)]⟩]
  | .gntPinCfg => [⟨24, 8, .rwc, []⟩, ⟨12, 12, .rwc, []⟩, ⟨6, 6, .rwc, [(8, 63)]⟩, ⟨0, 6, .rwc, [(8, 63)]⟩]
  | .tsiIngAdj => [⟨0, 32, .rwc, []⟩]
  | .tsiEgrAdj => [⟨0, 32, .rwc, []⟩]
  | .lnuCtl => [⟨24, 8, .rwc, []⟩, ⟨8, 3, .rwc, [(0, 4)]⟩, ⟨7, 1, .rwc, []⟩, ⟨5, 2, .rwc, [(0, 2)]⟩, ⟨4, 1, .rwc, []⟩, ⟨2, 2, .rwc, [(0, 2)]⟩, ⟨1, 1, .wo, []⟩, ⟨0, 1, .rwc, []⟩]
  | .lnuStat => [⟨9, 1, .ro, []⟩, ⟨8, 1, .ro, []⟩, ⟨7, 1, .ro, []⟩, ⟨6, 1, .ro, []⟩, ⟨3, 3, .ro, []⟩, ⟨0, 3, .ro, []⟩]
  | .lnuMode => [⟨8, 8, .rwc, []⟩, ⟨4, 1, .rwc, []⟩, ⟨2, 2, .rwc, [(0, 2)]⟩, ⟨0, 2, .rwc, [(0, 2)]⟩]
  | .tndCtl => [⟨24, 8, .rwc, []⟩, ⟨8, 3, .rwc, [(0, 4)]⟩, ⟨7, 1, .rwc, []⟩, ⟨5, 2, .rwc, [(0, 2)]⟩, ⟨1, 1, .wo, []⟩, ⟨0, 1, .rwc, []⟩]
  | .tndStat => [⟨9, 1, .ro, []⟩, ⟨7, 1, .ro, []⟩, ⟨6, 1, .ro, []⟩, ⟨3, 3, .ro, []⟩, ⟨0, 3, .ro, []⟩]
  | .lnpCtl => [⟨24, 8, .rwc, []⟩, ⟨9, 3, .ro, []⟩, ⟨6, 3, .ro, []⟩, ⟨4, 2, .rwc, [(0, 2)]⟩, ⟨3, 1, .ro, []⟩, ⟨2, 1, .rwc, []⟩, ⟨1, 1, .rwc, []⟩, ⟨0, 1, .rwc, []⟩]
  | .pchCfg => [⟨16, 14, .rwc, [(1536, 16380)]⟩, ⟨12, 4, .rwc, [(1, 8)]⟩, ⟨2, 1, .rwc, []⟩, ⟨0, 1, .rwc, []⟩]
  | .pchStat => [⟨16, 16, .ro, []⟩, ⟨8, 8, .ro, []⟩, ⟨3, 1, .ro, []⟩, ⟨2, 1, .ro, []⟩, ⟨1, 1, .ro, []⟩, ⟨0, 1, .ro, []⟩]
  | .pchTree => [⟨19, 1, .ro, []⟩, ⟨18, 1, .ro, []⟩, ⟨17, 1, .ro, []⟩, ⟨0, 17, .rwc, [(0, 124999)]⟩]
  | .brxDlnCfg => [⟨4, 4, .rwc, [(1, 15)]⟩, ⟨0, 3, .rwc, [(1, 7)]⟩]
  | .tndDlnCfg => [⟨4, 4, .rwc, [(1, 15)]⟩, ⟨0, 3, .rwc, [(1, 7)]⟩]
  | .cadDlnCfg => [⟨4, 4, .rwc, [(1, 15)]⟩, ⟨0, 3, .rwc, [(1, 7)]⟩]
  | .gntTreeCfg => [⟨8, 1, .rwc, []⟩, ⟨0, 7, .rwc, [(16, 120)]⟩]
  | .gntChCfg => [⟨24, 8, .rwc, []⟩, ⟨16, 8, .rwc, [(4, 255)]⟩, ⟨15, 1, .rwc, []⟩, ⟨0, 7, .rwc, [(10, 100)]⟩]
  | .gntChStat => [⟨16, 10, .ro, []⟩, ⟨0, 16, .ro, []⟩]
  | .gntAlcFix => [⟨0, 20, .rwc, [(0, 777600)]⟩]
  | .gntAlcAsr => [⟨0, 20, .rwc, [(0, 777600)]⟩]
  | .gntAlcNas => [⟨0, 20, .rwc, [(0, 777600)]⟩]
  | .gntAlcMax => [⟨0, 20, .rwc, [(0, 777600)]⟩]
  | .gntAlcId => [⟨16, 14, .rwc, []⟩, ⟨0, 14, .rwc, []⟩]
  | .gntAlcCfg => [⟨31, 1, .rwc, []⟩, ⟨29, 2, .rwc, []⟩, ⟨26, 3, .rwc, []⟩, ⟨24, 2, .rwc, []⟩, ⟨20, 4, .rwc, []⟩, ⟨0, 16, .rwc, []⟩]
  | .gntAlcCommit => [⟨0, 1, .wo, []⟩]
  | .gntAlcStat => [⟨16, 16, .ro, []⟩, ⟨2, 1, .ro, []⟩, ⟨1, 1, .ro, []⟩, ⟨0, 1, .ro, []⟩]
  | .gntAlcDemand => [⟨0, 32, .ro, []⟩]
  | .brxPrfCfg => [⟨31, 1, .rwc, []⟩, ⟨29, 2, .rwc, []⟩, ⟨28, 1, .rwc, []⟩, ⟨27, 1, .rwc, []⟩, ⟨20, 4, .rwc, [(0, 8)]⟩, ⟨10, 9, .ro, []⟩, ⟨0, 10, .rwc, [(192, 1023)]⟩]
  | .brxPrfPreHi => [⟨0, 32, .rwc, []⟩]
  | .brxPrfPreLo => [⟨0, 32, .rwc, []⟩]
  | .brxPrfDlmHi => [⟨0, 32, .rwc, []⟩]
  | .brxPrfDlmLo => [⟨0, 32, .rwc, []⟩]
  | .brxChCfg => [⟨16, 10, .rwc, [(16, 1023)]⟩, ⟨8, 8, .rwc, [(1, 255)]⟩]
  | .brxChStat => [⟨12, 10, .ro, []⟩, ⟨0, 12, .ro, []⟩]
  | .brxRsmCfg => [⟨0, 8, .rwc, [(1, 255)]⟩]
  | .actTreeCfg => [⟨28, 4, .rwc, [(1, 15)]⟩, ⟨20, 8, .rwc, []⟩, ⟨9, 9, .rwc, [(0, 400)]⟩, ⟨0, 9, .rwc, []⟩]
  | .actTreeTmr => [⟨16, 16, .rwc, [(1, 65535)]⟩, ⟨8, 8, .rwc, [(1, 255)]⟩, ⟨0, 8, .rwc, [(1, 255)]⟩]
  | .actTreeStat => [⟨0, 19, .ro, []⟩]
  | .actChCfg => [⟨16, 16, .rwc, [(1, 65535)]⟩, ⟨4, 4, .rwc, [(0, 8)]⟩, ⟨1, 2, .rwc, []⟩, ⟨0, 1, .rwc, []⟩]
  | .actOnuId => [⟨14, 14, .rwc, []⟩, ⟨11, 3, .rwc, []⟩, ⟨0, 10, .rwc, [(0, 1022)]⟩]
  | .actOnuStat => [⟨24, 8, .ro, []⟩, ⟨17, 1, .ro, []⟩, ⟨16, 1, .ro, []⟩, ⟨14, 2, .ro, []⟩, ⟨12, 2, .ro, []⟩, ⟨0, 4, .ro, []⟩]
  | .actOnuEqd => [⟨0, 32, .ro, []⟩]
  | .sknCfg => [⟨31, 1, .rwc, []⟩, ⟨24, 4, .rwc, []⟩, ⟨16, 8, .rwc, [(1, 250)]⟩, ⟨0, 16, .rwc, [(1, 65535)]⟩]
  | .cadTribCfg => [⟨31, 1, .rwc, []⟩, ⟨30, 1, .rwc, []⟩, ⟨21, 9, .rwc, [(1, 200)]⟩, ⟨0, 21, .rwc, []⟩]
  | .cadTribQ => [⟨0, 11, .rwc, [(1, 1024)]⟩]
  | .cadTribWl => [⟨0, 32, .rwc, []⟩]
  | .cadTribWh => [⟨0, 32, .rwc, []⟩]
  | .cadTribCommit => [⟨0, 1, .wo, []⟩]
  | .cadTribStat => [⟨24, 8, .ro, []⟩, ⟨22, 2, .ro, []⟩, ⟨20, 2, .ro, []⟩, ⟨19, 1, .ro, []⟩, ⟨18, 1, .ro, []⟩]
  | .prsCfg => [⟨16, 16, .rwc, []⟩, ⟨1, 1, .rwc, []⟩, ⟨0, 1, .rwc, []⟩]
  | .frgCfg => [⟨10, 2, .rwc, [(0, 2)]⟩, ⟨0, 10, .rwc, [(1, 1000)]⟩]
  | .rulTblCfg => [⟨30, 2, .rwc, [(0, 2)]⟩, ⟨29, 1, .rwc, []⟩, ⟨0, 7, .rwc, [(0, 64)]⟩]
  | .rulKey => [⟨8, 1, .rwc, []⟩, ⟨0, 8, .rwc, []⟩]
  | .rulEntVal => [⟨0, 32, .rwc, []⟩]
  | .rulEntMsk => [⟨0, 32, .rwc, []⟩]
  | .rulEntPri => [⟨0, 16, .rwc, []⟩]
  | .rulEntAct => [⟨31, 1, .rwc, []⟩, ⟨30, 1, .rwc, []⟩, ⟨29, 1, .rwc, []⟩, ⟨28, 1, .rwc, []⟩, ⟨26, 2, .rwc, [(0, 2)]⟩, ⟨22, 4, .rwc, []⟩, ⟨0, 18, .rwc, []⟩]
  | .rulEntWr => [⟨0, 1, .wo, []⟩]
  | .rulCommit => [⟨0, 1, .wo, []⟩, ⟨1, 1, .wo, []⟩]
  | .rulVer => [⟨12, 1, .w1c, []⟩, ⟨8, 4, .ro, []⟩, ⟨4, 4, .ro, []⟩, ⟨0, 4, .ro, []⟩]
  | .prsHdr => [⟨0, 32, .rwc, []⟩]
  | .brAccData => [⟨0, 32, .rwc, []⟩]
  | .brAccCtl => [⟨31, 1, .wo, []⟩, ⟨28, 3, .rwc, []⟩, ⟨25, 3, .rwc, [(0, 4)]⟩, ⟨0, 23, .rwc, []⟩]
  | .brAccStat => [⟨31, 1, .ro, []⟩, ⟨16, 1, .ro, []⟩, ⟨0, 16, .ro, []⟩]
  | .brSeed => [⟨0, 32, .rwc, []⟩]
  | .lrnCfg => [⟨28, 4, .rwc, [(1, 15)]⟩, ⟨22, 6, .rwc, [(1, 31)]⟩, ⟨12, 10, .rwc, [(10, 1000)]⟩, ⟨1, 1, .rwc, []⟩, ⟨0, 1, .rwc, []⟩]
  | .brAgeCfg => [⟨18, 7, .rwc, [(1, 100)]⟩, ⟨9, 9, .rwc, [(0, 500)]⟩]
  | .lrnStat => [⟨17, 10, .ro, []⟩, ⟨0, 17, .ro, []⟩]
  | .qmQCfg => [⟨26, 6, .rwc, []⟩, ⟨25, 1, .rwc, []⟩, ⟨0, 22, .rwc, []⟩]
  | .qmPrfCells => [⟨16, 16, .rwc, [(48, 65535)]⟩, ⟨0, 16, .rwc, []⟩]
  | .qmPrfDt => [⟨24, 8, .rwc, []⟩, ⟨16, 8, .rwc, []⟩, ⟨8, 8, .rwc, []⟩, ⟨4, 4, .rwc, []⟩, ⟨0, 4, .rwc, []⟩]
  | .qmQStat => [⟨31, 1, .ro, []⟩, ⟨30, 1, .ro, []⟩, ⟨0, 17, .ro, []⟩]
  | .qmQPages => [⟨0, 22, .ro, []⟩]
  | .cstPoolCfg => [⟨22, 10, .rwc, [(1, 1023)]⟩, ⟨12, 10, .rwc, [(1, 1023)]⟩, ⟨2, 10, .rwc, [(1, 1023)]⟩]
  | .cstStat => [⟨0, 20, .ro, []⟩]
  | .dstCfg => [⟨16, 16, .rwc, [(64, 65535)]⟩, ⟨0, 16, .rwc, [(1, 65535)]⟩]
  | .dstFree0 => [⟨0, 23, .ro, []⟩]
  | .dstFree1 => [⟨0, 23, .ro, []⟩]
  | .edtOp => [⟨28, 4, .rwc, [(0, 10)]⟩, ⟨0, 28, .rwc, []⟩]
  | .edtCommit => [⟨0, 1, .wo, []⟩]
  | .schNdCfg => [⟨31, 1, .rwc, []⟩, ⟨28, 3, .rwc, []⟩, ⟨25, 3, .rwc, []⟩, ⟨16, 9, .rwc, [(0, 255), (448, 511)]⟩, ⟨0, 16, .rwc, [(1, 65535)]⟩]
  | .schNdPar => [⟨0, 17, .rwc, []⟩]
  | .schNdCir => [⟨0, 26, .rwc, [(0, 50000000)]⟩]
  | .schNdPir => [⟨0, 26, .rwc, [(0, 50000000)]⟩]
  | .schNdCbs => [⟨0, 19, .rwc, [(256, 262144)]⟩]
  | .schNdPbs => [⟨0, 19, .rwc, [(256, 262144)]⟩]
  | .schNdStat => [⟨31, 1, .ro, []⟩, ⟨30, 1, .ro, []⟩, ⟨29, 1, .ro, []⟩, ⟨28, 1, .ro, []⟩]
  | .schQCfg => [⟨31, 1, .rwc, []⟩, ⟨28, 3, .rwc, []⟩, ⟨25, 3, .rwc, []⟩, ⟨0, 16, .rwc, [(1, 65535)]⟩]
  | .schQPar => [⟨0, 17, .rwc, []⟩]
  | .schQCir => [⟨0, 26, .rwc, [(0, 50000000)]⟩]
  | .schQPir => [⟨0, 26, .rwc, [(0, 50000000)]⟩]
  | .schQCbs => [⟨0, 19, .rwc, [(256, 262144)]⟩]
  | .schQPbs => [⟨0, 19, .rwc, [(256, 262144)]⟩]
  | .schQStat => [⟨31, 1, .ro, []⟩, ⟨30, 1, .ro, []⟩, ⟨29, 1, .ro, []⟩, ⟨28, 1, .ro, []⟩]
  | .plcCfg => [⟨31, 1, .rwc, []⟩, ⟨29, 2, .rwc, [(0, 2)]⟩, ⟨28, 1, .rwc, []⟩, ⟨27, 1, .rwc, []⟩, ⟨26, 1, .rwc, []⟩, ⟨25, 1, .rwc, []⟩]
  | .plcCir => [⟨0, 26, .rwc, [(0, 50000000)]⟩]
  | .plcEir => [⟨0, 26, .rwc, [(0, 50000000)]⟩]
  | .plcCbs => [⟨0, 19, .rwc, [(256, 262144)]⟩]
  | .plcEbs => [⟨0, 19, .rwc, [(0, 0), (256, 262144)]⟩]
  | .gtEntInt => [⟨0, 30, .rwc, [(8, 1000000000)]⟩]
  | .gtEntGates => [⟨0, 8, .rwc, []⟩]
  | .gtBaseSecHi => [⟨0, 16, .rwc, []⟩]
  | .gtBaseSecLo => [⟨0, 32, .rwc, []⟩]
  | .gtBaseNs => [⟨0, 30, .rwc, [(0, 999999999)]⟩]
  | .gtCycle => [⟨0, 30, .rwc, [(1000, 1000000000)]⟩]
  | .gtStartSecHi => [⟨0, 16, .ro, []⟩]
  | .gtStartSecLo => [⟨0, 32, .ro, []⟩]
  | .gtStartNs => [⟨0, 30, .ro, []⟩]
  | .gtGateCfg => [⟨14, 18, .rwc, []⟩, ⟨0, 14, .rwc, [(60, 12288)]⟩]
  | .gtListCtl => [⟨31, 1, .rwc, []⟩, ⟨16, 1, .w1c, []⟩, ⟨0, 11, .rwc, [(1, 1024)]⟩]
  | .gtStat => [⟨11, 8, .ro, []⟩, ⟨1, 10, .ro, []⟩, ⟨0, 1, .ro, []⟩]
  | .secStat => [⟨4, 8, .w1c, []⟩, ⟨3, 1, .w1c, []⟩, ⟨2, 1, .ro, []⟩, ⟨1, 1, .ro, []⟩, ⟨0, 1, .ro, []⟩]
  | .secCfg => [⟨1, 9, .rwc, []⟩, ⟨0, 1, .w1s, []⟩]
  | .secAlarm => [⟨8, 1, .w1c, []⟩, ⟨7, 1, .w1c, []⟩, ⟨6, 1, .w1c, []⟩, ⟨5, 1, .w1c, []⟩, ⟨4, 1, .w1c, []⟩, ⟨3, 1, .w1c, []⟩, ⟨2, 1, .w1c, []⟩, ⟨1, 1, .w1c, []⟩, ⟨0, 1, .w1c, []⟩]
  | .cphCoreStat => [⟨2, 16, .ro, []⟩, ⟨0, 2, .ro, []⟩]
  | .mscCoreStat => [⟨2, 16, .ro, []⟩, ⟨0, 2, .ro, []⟩]
  | .mscPortCfg => [⟨6, 2, .rwc, [(0, 2)]⟩, ⟨4, 2, .ro, []⟩, ⟨3, 1, .rwc, []⟩, ⟨2, 1, .rwc, []⟩, ⟨1, 1, .rwc, []⟩, ⟨0, 1, .rwc, []⟩]
  | .mscPnThr => [⟨0, 32, .rwc, []⟩]
  | .tndPairCfg => [⟨20, 10, .rwc, []⟩, ⟨16, 4, .rwc, [(1, 15)]⟩, ⟨8, 8, .rwc, [(1, 255)]⟩, ⟨1, 1, .rwc, []⟩, ⟨0, 1, .rwc, []⟩]
  | .tndPairStat => [⟨8, 8, .ro, []⟩, ⟨7, 1, .ro, []⟩, ⟨6, 1, .ro, []⟩, ⟨5, 1, .ro, []⟩, ⟨4, 1, .ro, []⟩, ⟨0, 3, .ro, []⟩]
  | .tndTreeCfg => [⟨31, 1, .ro, []⟩, ⟨0, 19, .rwc, [(0, 200000), (324288, 524287)]⟩]
  | .tndTreeStat => [⟨28, 4, .ro, []⟩, ⟨27, 1, .ro, []⟩, ⟨26, 1, .ro, []⟩]
  | .lshRingBaseHi => [⟨0, 32, .rw, []⟩]
  | .lshRingBaseLo => [⟨12, 20, .rw, []⟩]
  | .lshRingCfg => [⟨31, 1, .rw, []⟩, ⟨16, 4, .rw, [(4, 12)]⟩]
  | .lshRingPtr => [⟨31, 1, .ro, []⟩, ⟨16, 12, .ro, []⟩, ⟨0, 12, .rw, []⟩]
  | .lshStat => [⟨24, 1, .ro, []⟩, ⟨16, 8, .ro, []⟩, ⟨0, 13, .ro, []⟩]
  | .lshInbMacHi => [⟨0, 16, .rwc, []⟩]
  | .lshInbMacLo => [⟨0, 32, .rwc, []⟩]
  | .evtStat => [⟨0, 32, .w1c, []⟩]
  | .evtMask => [⟨0, 32, .rw, []⟩]
  | .evtRoute => [⟨31, 1, .rw, []⟩, ⟨30, 1, .rw, []⟩, ⟨29, 1, .rw, []⟩, ⟨28, 1, .rw, []⟩, ⟨0, 6, .rw, []⟩]
  | .evtRingWr => [⟨0, 32, .ro, []⟩]
  | .evtRingRd => [⟨0, 32, .rw, []⟩]
  | .evtRingRec => [⟨0, 32, .ro, []⟩]
  | .evtRingStat => [⟨16, 16, .ro, []⟩, ⟨0, 13, .ro, []⟩]
  | .sqStat => [⟨29, 3, .ro, []⟩, ⟨26, 3, .ro, []⟩, ⟨24, 2, .ro, []⟩, ⟨17, 7, .ro, []⟩, ⟨0, 17, .ro, []⟩]
  | .sqTmo => [⟨0, 24, .rwc, [(1, 16777215)]⟩]
  | .sqDarnLevel => [⟨31, 1, .ro, []⟩, ⟨0, 16, .ro, []⟩]
  | .spBankOwner => [⟨31, 1, .ro, []⟩, ⟨30, 1, .rwc, []⟩, ⟨29, 1, .ro, []⟩, ⟨0, 3, .rwc, [(0, 5)]⟩]
  | .hbmSegOwner => [⟨31, 1, .ro, []⟩, ⟨30, 1, .rwc, []⟩, ⟨29, 1, .ro, []⟩, ⟨0, 3, .rwc, [(0, 3)]⟩]
  | .hbmCfg => [⟨16, 16, .rwc, [(1, 65535)]⟩, ⟨0, 8, .rwc, [(1, 255)]⟩]
  | .hbmPcMap => [⟨31, 1, .ro, []⟩, ⟨5, 16, .ro, []⟩, ⟨0, 5, .ro, []⟩]
  | .secLifecycle => [⟨20, 6, .ro, []⟩, ⟨13, 7, .ro, []⟩, ⟨3, 1, .ro, []⟩, ⟨2, 1, .ro, []⟩, ⟨0, 2, .ro, []⟩]
  | .secOwnerHash => [⟨0, 32, .ro, []⟩]
  | .ggcUnit => [⟨22, 4, .rw, [(0, 7)]⟩, ⟨16, 6, .rw, []⟩, ⟨0, 16, .rw, []⟩]
  | .ggcCfg => [⟨16, 1, .rwc, []⟩, ⟨0, 16, .rwc, [(0, 258)]⟩]
  | .ggcOvf => [⟨0, 8, .w1c, []⟩]
  | .ggcCntHi => [⟨0, 32, .ro, []⟩]
  | .ggcCntLo => [⟨0, 32, .ro, []⟩]
  | .ggcSnapStat => [⟨31, 1, .ro, []⟩, ⟨30, 1, .ro, []⟩, ⟨0, 24, .ro, []⟩]
  | .ggcPmCfg => [⟨16, 8, .rwc, [(1, 100)]⟩, ⟨8, 8, .rwc, [(1, 100)]⟩, ⟨0, 8, .rwc, [(1, 100)]⟩]
  | .pwrTemp => [⟨0, 12, .ro, []⟩]
  | .pwrPkgMw => [⟨0, 20, .ro, []⟩]
  | .pwrThermCfg => [⟨0, 8, .rwc, [(60, 104)]⟩]
  | .pwrDomStat => [⟨0, 32, .ro, []⟩]
  | .tnsCfg => [⟨16, 8, .rwc, []⟩, ⟨8, 8, .rwc, [(1, 255)]⟩, ⟨0, 5, .rwc, [(4, 20)]⟩]
  | .tnsStat => [⟨6, 1, .ro, []⟩, ⟨0, 6, .ro, []⟩]
  | .rmdKind => [⟨24, 8, .ro, []⟩, ⟨16, 8, .ro, []⟩, ⟨0, 2, .ro, []⟩]
  | .rmdCfg => [⟨0, 32, .rwc, []⟩]

/-- The reset word of a register, for the fields whose reset value does not depend on the instance. -/
def Reg.resetBase : Reg → Nat
  | .sysId => 0xA100
  | .blkId => 0x10000
  | .ndsel => 0x2000000
  | .tbIncr => 0x1
  | .tbIncrFrac => 0x9999999A
  | .tbPincInt => 0x1
  | .tbPincFrac => 0x9999999A
  | .tbSlewCyc => 0x1
  | .tbDivCfg => 0xA
  | .tbFleCfg => 0x10
  | .tbPpsCfg => 0x186A0
  | .gntPinCfg => 0x803E8FFF
  | .lnuCtl => 0x10000010
  | .tndCtl => 0x10000000
  | .lnpCtl => 0x8000000
  | .pchCfg => 0x30004000
  | .pchStat => 0xD82D0000
  | .brxDlnCfg => 0x32
  | .tndDlnCfg => 0x32
  | .cadDlnCfg => 0x32
  | .gntTreeCfg => 0x18
  | .gntChCfg => 0x8100050
  | .gntAlcCfg => 0x1C000000
  | .brxPrfCfg => 0x84040F4
  | .brxChCfg => 0x801000
  | .brxChStat => 0x80000
  | .brxRsmCfg => 0x10
  | .actTreeCfg => 0x43019000
  | .actTreeTmr => 0x3E84010
  | .actTreeStat => 0x39042
  | .actChCfg => 0x3E80040
  | .sknCfg => 0xFA0400
  | .cadTribCfg => 0xC800000
  | .cadTribQ => 0x8
  | .prsCfg => 0x12B50003
  | .frgCfg => 0x1E
  | .rulVer => 0x100
  | .lrnCfg => 0x82BE8003
  | .brAgeCfg => 0x2A5800
  | .qmQCfg => 0x2001000
  | .qmPrfCells => 0x40000000
  | .qmPrfDt => 0x201004B7
  | .qmQStat => 0x40000000
  | .cstPoolCfg => 0x80100100
  | .dstCfg => 0x10000400
  | .schNdCfg => 0x1
  | .schNdCbs => 0x100
  | .schNdPbs => 0x100
  | .schNdStat => 0x20000000
  | .schQCfg => 0x1
  | .schQCbs => 0x100
  | .schQPbs => 0x100
  | .schQStat => 0x20000000
  | .plcCbs => 0x100
  | .plcEbs => 0x100
  | .gtEntInt => 0x3B9ACA00
  | .gtEntGates => 0xFF
  | .gtCycle => 0x3B9ACA00
  | .gtGateCfg => 0x3000
  | .gtListCtl => 0x1
  | .gtStat => 0x7F800
  | .mscPortCfg => 0xC
  | .mscPnThr => 0xC0000000
  | .tndPairCfg => 0x30800
  | .lshRingCfg => 0x40000
  | .lshRingPtr => 0x80000000
  | .lshStat => 0x1000000
  | .evtMask => 0xFFFFFFFF
  | .evtRoute => 0x10000000
  | .sqStat => 0x20000000
  | .hbmCfg => 0x4000010
  | .ggcPmCfg => 0x1E1E1E
  | .pwrThermCfg => 0x64
  | .tnsCfg => 0x640A08
  | .rmdCfg => 0x9C40
  | _ => 0

end Sys2Proof
end

