-- ==== Sys2Proof/Machine/Numbering.lean ====
section
/-! DEFINITION. Block numbers (R500) and event numbering (R514). -/
namespace Sys2Proof

/-- What a die is (R500, R501): 0 core, 1 line, 2 uplink, 3 package; none for the reserved numbers 8-14. -/
def dieKind (d : Nat) : Option Nat :=
  if d < 2 then some 0 else if d < 6 then some 1 else if d < 8 then some 2 else if d = 15 then some 3 else none

/-- The number of a block on a kind of die (R500). -/
def Blk.number : Nat → Blk → Option Nat
  | 0, .tb => some 0
  | 0, .pipe => some 1
  | 0, .prs => some 2
  | 0, .rul => some 3
  | 0, .frg => some 4
  | 0, .br => some 5
  | 0, .lpm => some 6
  | 0, .svc => some 7
  | 0, .lrn => some 8
  | 0, .cst => some 9
  | 0, .dst => some 10
  | 0, .qm => some 11
  | 0, .sch => some 12
  | 0, .plc => some 13
  | 0, .gt => some 14
  | 0, .edt => some 15
  | 0, .sp => some 16
  | 0, .sq => some 17
  | 0, .hbm => some 18
  | 0, .xb => some 19
  | 0, .kv => some 20
  | 0, .lsh => some 21
  | 1, .lnp => some 0
  | 1, .pch => some 1
  | 1, .brx => some 2
  | 1, .gnt => some 3
  | 1, .act => some 4
  | 1, .skn => some 5
  | 1, .cad => some 6
  | 1, .cph => some 7
  | 1, .pmb => some 8
  | 1, .sp => some 16
  | 1, .sq => some 17
  | 2, .lnu => some 0
  | 2, .umac => some 1
  | 2, .msc => some 2
  | 2, .tsi => some 3
  | 2, .tnd => some 4
  | 2, .sq => some 17
  | 3, .sys => some 0
  | 3, .evt => some 1
  | 3, .pwr => some 2
  | 3, .tns => some 3
  | 3, .rmd => some 4
  | 3, .sec => some 5
  | 3, .ggc => some 6
  | _, _ => none

/-- The block that raises an event: the one its name designates, EV_GATE_* designating GT (R514). -/
def Ev.block : Ev → Blk
  | .actCfgReject => .act
  | .actDeact => .act
  | .actDiscOvf => .act
  | .actFenceLate => .act
  | .actKeyFail => .act
  | .actLob => .act
  | .actPdkLate => .act
  | .actReach => .act
  | .actRegBad => .act
  | .actRngFail => .act
  | .actRogue => .act
  | .actSnDup => .act
  | .actSnFound => .act
  | .brxBurstMiss => .brx
  | .brxDbruBad => .brx
  | .brxDelim => .brx
  | .brxDlnLoss => .brx
  | .brxDrift => .brx
  | .brxFec => .brx
  | .brxHec => .brx
  | .brxKey => .brx
  | .brxOnuMismatch => .brx
  | .brxPloamMic => .brx
  | .brxPort => .brx
  | .brxPrfReject => .brx
  | .brxRsmNobuf => .brx
  | .brxRsmSize => .brx
  | .brxRsmTimeout => .brx
  | .brCfgReject => .br
  | .brInsFail => .br
  | .brMemErr => .br
  | .brScanLate => .br
  | .cadCfgReject => .cad
  | .cadContLost => .cad
  | .cadDlnLoss => .cad
  | .cadJcBad => .cad
  | .cadMemberLoss => .cad
  | .cadPw => .cad
  | .cadSlip => .cad
  | .cphOmciMic => .cph
  | .cstIngNobuf => .cst
  | .cstMemErr => .cst
  | .cstPoolEmpty => .cst
  | .dstEcc => .dst
  | .dstNopage => .dst
  | .edtLen => .edt
  | .frgFull => .frg
  | .frgOrphan => .frg
  | .gateCfgReject => .gt
  | .gateMemErr => .gt
  | .gateOverrun => .gt
  | .gateOversize => .gt
  | .gateStartAdvanced => .gt
  | .ggcSnapDone => .ggc
  | .ggcSnapSkip => .ggc
  | .ggcTca => .ggc
  | .gntAllocCap => .gnt
  | .gntAssuredShort => .gnt
  | .gntCoopClip => .gnt
  | .gntCtiBad => .gnt
  | .gntCtiFull => .gnt
  | .gntCtiLate => .gnt
  | .gntFixedShort => .gnt
  | .gntMemErr => .gnt
  | .gntPackClip => .gnt
  | .gntRecReject => .gnt
  | .gntRssiExpire => .gnt
  | .gntRstSqueeze => .gnt
  | .hbmEcc => .hbm
  | .hbmPcFail => .hbm
  | .kvUnwrapBad => .kv
  | .lnpAcqLate => .lnp
  | .lnpPll => .lnp
  | .lnpRefLoss => .lnp
  | .lnuFecDegrade => .lnu
  | .lnuLinkDown => .lnu
  | .lnuLinkUp => .lnu
  | .lnuModeReject => .lnu
  | .lnuPll => .lnu
  | .lnuRefLoss => .lnu
  | .lnuTrainFail => .lnu
  | .lpmMiss => .lpm
  | .lrnFreeze => .lrn
  | .lrnLimit => .lrn
  | .lrnQDrop => .lrn
  | .lrnStaticViol => .lrn
  | .lshBadPkt => .lsh
  | .lshCfgReject => .lsh
  | .lshHdrBad => .lsh
  | .lshInbAuth => .lsh
  | .lshInbDrop => .lsh
  | .lshInbReplay => .lsh
  | .lshInjBad => .lsh
  | .lshMbxBusy => .lsh
  | .lshPtrBad => .lsh
  | .lshReply => .lsh
  | .lshTrap => .lsh
  | .mscNoSa => .msc
  | .mscPnExhaust => .msc
  | .mscPnThr => .msc
  | .pchBwmapLate => .pch
  | .pchKeyAbsent => .pch
  | .pchLaunched => .pch
  | .pchPloamFull => .pch
  | .pchStopped => .pch
  | .pipeRecircDrop => .pipe
  | .pipeRecircLoop => .pipe
  | .plcMemErr => .plc
  | .pmbSecLost => .pmb
  | .pmbTca => .pmb
  | .prsLenConflict => .prs
  | .pwrThermMax => .pwr
  | .pwrThermWarn => .pwr
  | .qmCtStomp => .qm
  | .qmHostDrop => .qm
  | .qmReplDrop => .qm
  | .rmdEmpty => .rmd
  | .rmdIn => .rmd
  | .rmdWear => .rmd
  | .rulEntReject => .rul
  | .rulMemErr => .rul
  | .rulQBad => .rul
  | .rulSpoof => .rul
  | .schCfgReject => .sch
  | .schMemErr => .sch
  | .schUnattached => .sch
  | .secAlarm => .sec
  | .secDarnReject => .sec
  | .secIdBad => .sec
  | .secNonapproved => .sec
  | .secZeroize => .sec
  | .sknGap => .skn
  | .sknHoldFull => .skn
  | .sknLate => .skn
  | .sknMemberDown => .skn
  | .sknRngFail => .skn
  | .sknTagBad => .skn
  | .spDmaErr => .sp
  | .spEcc => .sp
  | .spNonowner => .sp
  | .spOwnerReject => .sp
  | .sqDarnHold => .sq
  | .sqHandover => .sq
  | .sqMcheck => .sq
  | .sqWaitTmo => .sq
  | .svcMiss => .svc
  | .sysAccErr => .sys
  | .sysBadEnc => .sys
  | .sysCastonDone => .sys
  | .sysHlDown => .sys
  | .sysHlPll => .sys
  | .sysRtnReject => .sys
  | .sysRtnSpent => .sys
  | .sysSramFail => .sys
  | .sysUcieDown => .sys
  | .sysUnclaimedWr => .sys
  | .tbActLate => .tb
  | .tbCapOvf => .tb
  | .tbDiverge => .tb
  | .tbFrameErr => .tb
  | .tbIncrReject => .tb
  | .tbPinBad => .tb
  | .tbRefHold => .tb
  | .tbServoWdog => .tb
  | .tndAuthFail => .tnd
  | .tndBringupFail => .tnd
  | .tndCfgReject => .tnd
  | .tndCrc => .tnd
  | .tndDevnumDup => .tnd
  | .tndDiverge => .tnd
  | .tndDlnLoss => .tnd
  | .tndDrillFail => .tnd
  | .tndEqdNeg => .tnd
  | .tndHalterContend => .tnd
  | .tndHalterLost => .tnd
  | .tndHalterOwn => .tnd
  | .tndLinkDown => .tnd
  | .tndLockstep => .tnd
  | .tndLockLoss => .tnd
  | .tndPairBad => .tnd
  | .tndPll => .tnd
  | .tndRefLoss => .tnd
  | .tndSeniorBad => .tnd
  | .tndTakeover => .tnd
  | .tnsHard => .tns
  | .tnsLong => .tns
  | .tsiEgrOvf => .tsi
  | .tsiLate => .tsi

/-- The block that keeps a counter: the one its name designates, SYS for sram_patrol_fail. -/
def Ctr.block : Ctr → Blk
  | .actCfgReject => .act
  | .actDiscOvf => .act
  | .actEqdAdj => .act
  | .actFenceLate => .act
  | .actKeyFail => .act
  | .actLob => .act
  | .actLostDeact => .act
  | .actPdkLate => .act
  | .actReachBad => .act
  | .actRegBad => .act
  | .actRngFail => .act
  | .actRogueIdle => .act
  | .actSnDisabled => .act
  | .actSnDup => .act
  | .actSnFound => .act
  | .actSnGarble => .act
  | .actSnUnknown => .act
  | .brAged => .br
  | .brCfgReject => .br
  | .brFlood => .br
  | .brInsFail => .br
  | .brIsolate => .br
  | .brMemCorr => .br
  | .brMemErr => .br
  | .brRefreshDrop => .br
  | .brScanLate => .br
  | .brxBipErr => .brx
  | .brxBurstMiss => .brx
  | .brxDbruBad => .brx
  | .brxDelimBiterr => .brx
  | .brxDelimMiss => .brx
  | .brxDlnAbandon => .brx
  | .brxDlnLoss => .brx
  | .brxDrift => .brx
  | .brxFecBits => .brx
  | .brxFecCorr => .brx
  | .brxFecUncorr => .brx
  | .brxHecBad => .brx
  | .brxHecCorr => .brx
  | .brxKeyBad => .brx
  | .brxOnuMismatch => .brx
  | .brxPloamMic => .brx
  | .brxPortBad => .brx
  | .brxPrfReject => .brx
  | .brxRsmFlush => .brx
  | .brxRsmNobuf => .brx
  | .brxRsmSize => .brx
  | .brxRsmTaint => .brx
  | .brxRsmTimeout => .brx
  | .brxXgemDrop => .brx
  | .cadCfgReject => .cad
  | .cadContLost => .cad
  | .cadDlnAbandon => .cad
  | .cadDlnLoss => .cad
  | .cadJcBad => .cad
  | .cadMemberLoss => .cad
  | .cadPwLate => .cad
  | .cadPwLost => .cad
  | .cadSlip => .cad
  | .cphMemCorr => .cph
  | .cphOmciMic => .cph
  | .cstIngNobuf => .cst
  | .cstMemErr => .cst
  | .dstDeepEnter => .dst
  | .dstEccCorr => .dst
  | .dstEccDrop => .dst
  | .dstHold => .dst
  | .dstNopage => .dst
  | .dstPageLimit => .dst
  | .dstPfLate => .dst
  | .edtLenDrop => .edt
  | .edtOpSkip => .edt
  | .edtPad => .edt
  | .evtRecDrop => .evt
  | .frgDup => .frg
  | .frgFull => .frg
  | .frgOrphan => .frg
  | .ggcSnapSkip => .ggc
  | .gntAllocCap => .gnt
  | .gntAssuredShort => .gnt
  | .gntCoopClip => .gnt
  | .gntCtiBad => .gnt
  | .gntCtiFull => .gnt
  | .gntCtiLate => .gnt
  | .gntFixedShort => .gnt
  | .gntMemCorr => .gnt
  | .gntMemErr => .gnt
  | .gntPackClip => .gnt
  | .gntRecReject => .gnt
  | .gntRptMiss => .gnt
  | .gntRssiExpire => .gnt
  | .gntRstSqueeze => .gnt
  | .gtCfgReject => .gt
  | .gtHoldLate => .gt
  | .gtMemCorr => .gt
  | .gtMemErr => .gt
  | .gtOverrun => .gt
  | .gtOversize => .gt
  | .gtStartAdv => .gt
  | .hbmEccCorr => .hbm
  | .hbmEccErr => .hbm
  | .hbmPageRetire => .hbm
  | .hbmPcFail => .hbm
  | .kvUnwrapBad => .kv
  | .lnpAcqLate => .lnp
  | .lnpPllFail => .lnp
  | .lnpPrbsErr => .lnp
  | .lnpRefLoss => .lnp
  | .lnpTxOffDrop => .lnp
  | .lnuFecCorr => .lnu
  | .lnuFecSym => .lnu
  | .lnuFecUncorr => .lnu
  | .lnuLinkDown => .lnu
  | .lnuModeReject => .lnu
  | .lnuPllFail => .lnu
  | .lnuPrbsErr => .lnu
  | .lnuRefLoss => .lnu
  | .lnuTrainFail => .lnu
  | .lnuTxDownDrop => .lnu
  | .lnuTxOffDrop => .lnu
  | .lpmMiss => .lpm
  | .lpmTtl => .lpm
  | .lrnFreeze => .lrn
  | .lrnLimit => .lrn
  | .lrnMerge => .lrn
  | .lrnMove => .lrn
  | .lrnMoveFrozen => .lrn
  | .lrnNew => .lrn
  | .lrnQDrop => .lrn
  | .lrnStaticViol => .lrn
  | .lshBadPkt => .lsh
  | .lshCfgReject => .lsh
  | .lshHdrBad => .lsh
  | .lshInbAuth => .lsh
  | .lshInbDrop => .lsh
  | .lshInbReplay => .lsh
  | .lshInjBad => .lsh
  | .lshMbxBusy => .lsh
  | .lshPtrBad => .lsh
  | .lshRefused => .lsh
  | .mscIcvBad => .msc
  | .mscJobAuthFail => .msc
  | .mscMemCorr => .msc
  | .mscNoSa => .msc
  | .mscPnExhaust => .msc
  | .mscReplay => .msc
  | .mscTxZero => .msc
  | .mscUntagged => .msc
  | .pchBwmapLate => .pch
  | .pchKeyAbsent => .pch
  | .pchPloamFull => .pch
  | .pchStopDrop => .pch
  | .pipeParErr => .pipe
  | .pipeRecircDrop => .pipe
  | .pipeRecircLoop => .pipe
  | .plcMemCorr => .plc
  | .plcMemErr => .plc
  | .plcRedDrop => .plc
  | .pmbSecLost => .pmb
  | .pmbTcaDrop => .pmb
  | .prsDepth => .prs
  | .prsLenConflict => .prs
  | .prsLenConflictHost => .prs
  | .prsTrailer => .prs
  | .pwrThermMax => .pwr
  | .pwrThermWarn => .pwr
  | .qmBodyBad => .qm
  | .qmCtStomp => .qm
  | .qmDiscardQ => .qm
  | .qmDropGreen => .qm
  | .qmDropRed => .qm
  | .qmDropYellow => .qm
  | .qmFlush => .qm
  | .qmHostDrop => .qm
  | .qmReplDrop => .qm
  | .rmdEmpty => .rmd
  | .rmdIn => .rmd
  | .rmdWear => .rmd
  | .rulCommitBusy => .rul
  | .rulEntReject => .rul
  | .rulMemCorr => .rul
  | .rulMemErr => .rul
  | .rulQBad => .rul
  | .rulSpoof => .rul
  | .schCfgReject => .sch
  | .schMemCorr => .sch
  | .schMemErr => .sch
  | .schRelShort => .sch
  | .schUnattached => .sch
  | .secAlarm => .sec
  | .secDarnReject => .sec
  | .secIdBad => .sec
  | .secLcReject => .sec
  | .secNonapproved => .sec
  | .secZeroize => .sec
  | .sknFragSplit => .skn
  | .sknGap => .skn
  | .sknHoldFull => .skn
  | .sknLate => .skn
  | .sknMemberDown => .skn
  | .sknRngFail => .skn
  | .sknTagBad => .skn
  | .spDmaErr => .sp
  | .spEccCorr => .sp
  | .spEccErr => .sp
  | .spNonowner => .sp
  | .spOwnerReject => .sp
  | .sqClaimDrop => .sq
  | .sqDarnHold => .sq
  | .sqHandover => .sq
  | .sqMcheck => .sq
  | .sqWaitTmo => .sq
  | .sramPatrolFail => .sys
  | .svcMiss => .svc
  | .sysAccErr => .sys
  | .sysBadEnc => .sys
  | .sysHlDown => .sys
  | .sysHlPllFail => .sys
  | .sysHlRetrain => .sys
  | .sysRtnBorrowNs => .sys
  | .sysRtnReject => .sys
  | .sysRtnSpent => .sys
  | .sysSramFail => .sys
  | .sysUcieDown => .sys
  | .sysUnclaimedWr => .sys
  | .tbActBusy => .tb
  | .tbActLate => .tb
  | .tbCapOvf => .tb
  | .tbDiv => .tb
  | .tbFrameErr => .tb
  | .tbIncrReject => .tb
  | .tbPinBad => .tb
  | .tbRefHold => .tb
  | .tbServoWdog => .tb
  | .tbShortPast => .tb
  | .tndAuthFail => .tnd
  | .tndBringupFail => .tnd
  | .tndCfgReject => .tnd
  | .tndCrcBad => .tnd
  | .tndCutLate => .tnd
  | .tndDevnumDup => .tnd
  | .tndDiverge => .tnd
  | .tndDlnAbandon => .tnd
  | .tndDlnLoss => .tnd
  | .tndDrillFail => .tnd
  | .tndEqdNeg => .tnd
  | .tndHalterContend => .tnd
  | .tndHalterLost => .tnd
  | .tndHdrBad => .tnd
  | .tndLaneMismatch => .tnd
  | .tndLinkDown => .tnd
  | .tndLockLoss => .tnd
  | .tndPairBad => .tnd
  | .tndPllFail => .tnd
  | .tndPrbsErr => .tnd
  | .tndRefLoss => .tnd
  | .tndResendFail => .tnd
  | .tndSeniorBad => .tnd
  | .tndTakeover => .tnd
  | .tndUnreadyDeact => .tnd
  | .tnsDroopNs => .tns
  | .tnsEpisode => .tns
  | .tnsHard => .tns
  | .tnsStretchNs => .tns
  | .tsiEgrOvf => .tsi
  | .tsiLateDrop => .tsi
  | .umacRxFcs => .umac

/-- Every counter of a block. -/
def Blk.ctrs : Blk → List Ctr
  | .act => [.actCfgReject, .actDiscOvf, .actEqdAdj, .actFenceLate, .actKeyFail, .actLob, .actLostDeact, .actPdkLate, .actReachBad, .actRegBad, .actRngFail, .actRogueIdle, .actSnDisabled, .actSnDup, .actSnFound, .actSnGarble, .actSnUnknown]
  | .br => [.brAged, .brCfgReject, .brFlood, .brInsFail, .brIsolate, .brMemCorr, .brMemErr, .brRefreshDrop, .brScanLate]
  | .brx => [.brxBipErr, .brxBurstMiss, .brxDbruBad, .brxDelimBiterr, .brxDelimMiss, .brxDlnAbandon, .brxDlnLoss, .brxDrift, .brxFecBits, .brxFecCorr, .brxFecUncorr, .brxHecBad, .brxHecCorr, .brxKeyBad, .brxOnuMismatch, .brxPloamMic, .brxPortBad, .brxPrfReject, .brxRsmFlush, .brxRsmNobuf, .brxRsmSize, .brxRsmTaint, .brxRsmTimeout, .brxXgemDrop]
  | .cad => [.cadCfgReject, .cadContLost, .cadDlnAbandon, .cadDlnLoss, .cadJcBad, .cadMemberLoss, .cadPwLate, .cadPwLost, .cadSlip]
  | .cph => [.cphMemCorr, .cphOmciMic]
  | .cst => [.cstIngNobuf, .cstMemErr]
  | .dst => [.dstDeepEnter, .dstEccCorr, .dstEccDrop, .dstHold, .dstNopage, .dstPageLimit, .dstPfLate]
  | .edt => [.edtLenDrop, .edtOpSkip, .edtPad]
  | .evt => [.evtRecDrop]
  | .frg => [.frgDup, .frgFull, .frgOrphan]
  | .ggc => [.ggcSnapSkip]
  | .gnt => [.gntAllocCap, .gntAssuredShort, .gntCoopClip, .gntCtiBad, .gntCtiFull, .gntCtiLate, .gntFixedShort, .gntMemCorr, .gntMemErr, .gntPackClip, .gntRecReject, .gntRptMiss, .gntRssiExpire, .gntRstSqueeze]
  | .gt => [.gtCfgReject, .gtHoldLate, .gtMemCorr, .gtMemErr, .gtOverrun, .gtOversize, .gtStartAdv]
  | .hbm => [.hbmEccCorr, .hbmEccErr, .hbmPageRetire, .hbmPcFail]
  | .kv => [.kvUnwrapBad]
  | .lnp => [.lnpAcqLate, .lnpPllFail, .lnpPrbsErr, .lnpRefLoss, .lnpTxOffDrop]
  | .lnu => [.lnuFecCorr, .lnuFecSym, .lnuFecUncorr, .lnuLinkDown, .lnuModeReject, .lnuPllFail, .lnuPrbsErr, .lnuRefLoss, .lnuTrainFail, .lnuTxDownDrop, .lnuTxOffDrop]
  | .lpm => [.lpmMiss, .lpmTtl]
  | .lrn => [.lrnFreeze, .lrnLimit, .lrnMerge, .lrnMove, .lrnMoveFrozen, .lrnNew, .lrnQDrop, .lrnStaticViol]
  | .lsh => [.lshBadPkt, .lshCfgReject, .lshHdrBad, .lshInbAuth, .lshInbDrop, .lshInbReplay, .lshInjBad, .lshMbxBusy, .lshPtrBad, .lshRefused]
  | .msc => [.mscIcvBad, .mscJobAuthFail, .mscMemCorr, .mscNoSa, .mscPnExhaust, .mscReplay, .mscTxZero, .mscUntagged]
  | .pch => [.pchBwmapLate, .pchKeyAbsent, .pchPloamFull, .pchStopDrop]
  | .pipe => [.pipeParErr, .pipeRecircDrop, .pipeRecircLoop]
  | .plc => [.plcMemCorr, .plcMemErr, .plcRedDrop]
  | .pmb => [.pmbSecLost, .pmbTcaDrop]
  | .prs => [.prsDepth, .prsLenConflict, .prsLenConflictHost, .prsTrailer]
  | .pwr => [.pwrThermMax, .pwrThermWarn]
  | .qm => [.qmBodyBad, .qmCtStomp, .qmDiscardQ, .qmDropGreen, .qmDropRed, .qmDropYellow, .qmFlush, .qmHostDrop, .qmReplDrop]
  | .rmd => [.rmdEmpty, .rmdIn, .rmdWear]
  | .rul => [.rulCommitBusy, .rulEntReject, .rulMemCorr, .rulMemErr, .rulQBad, .rulSpoof]
  | .sch => [.schCfgReject, .schMemCorr, .schMemErr, .schRelShort, .schUnattached]
  | .sec => [.secAlarm, .secDarnReject, .secIdBad, .secLcReject, .secNonapproved, .secZeroize]
  | .skn => [.sknFragSplit, .sknGap, .sknHoldFull, .sknLate, .sknMemberDown, .sknRngFail, .sknTagBad]
  | .sp => [.spDmaErr, .spEccCorr, .spEccErr, .spNonowner, .spOwnerReject]
  | .sq => [.sqClaimDrop, .sqDarnHold, .sqHandover, .sqMcheck, .sqWaitTmo]
  | .sys => [.sramPatrolFail, .sysAccErr, .sysBadEnc, .sysHlDown, .sysHlPllFail, .sysHlRetrain, .sysRtnBorrowNs, .sysRtnReject, .sysRtnSpent, .sysSramFail, .sysUcieDown, .sysUnclaimedWr]
  | .svc => [.svcMiss]
  | .tb => [.tbActBusy, .tbActLate, .tbCapOvf, .tbDiv, .tbFrameErr, .tbIncrReject, .tbPinBad, .tbRefHold, .tbServoWdog, .tbShortPast]
  | .tnd => [.tndAuthFail, .tndBringupFail, .tndCfgReject, .tndCrcBad, .tndCutLate, .tndDevnumDup, .tndDiverge, .tndDlnAbandon, .tndDlnLoss, .tndDrillFail, .tndEqdNeg, .tndHalterContend, .tndHalterLost, .tndHdrBad, .tndLaneMismatch, .tndLinkDown, .tndLockLoss, .tndPairBad, .tndPllFail, .tndPrbsErr, .tndRefLoss, .tndResendFail, .tndSeniorBad, .tndTakeover, .tndUnreadyDeact]
  | .tns => [.tnsDroopNs, .tnsEpisode, .tnsHard, .tnsStretchNs]
  | .tsi => [.tsiEgrOvf, .tsiLateDrop]
  | .umac => [.umacRxFcs]
  | _ => []

/-- The place of an event among its block's events, in ascending ASCII order (R514). -/
def Ev.rank : Ev → Nat
  | .actCfgReject => 0
  | .actDeact => 1
  | .actDiscOvf => 2
  | .actFenceLate => 3
  | .actKeyFail => 4
  | .actLob => 5
  | .actPdkLate => 6
  | .actReach => 7
  | .actRegBad => 8
  | .actRngFail => 9
  | .actRogue => 10
  | .actSnDup => 11
  | .actSnFound => 12
  | .brxBurstMiss => 0
  | .brxDbruBad => 1
  | .brxDelim => 2
  | .brxDlnLoss => 3
  | .brxDrift => 4
  | .brxFec => 5
  | .brxHec => 6
  | .brxKey => 7
  | .brxOnuMismatch => 8
  | .brxPloamMic => 9
  | .brxPort => 10
  | .brxPrfReject => 11
  | .brxRsmNobuf => 12
  | .brxRsmSize => 13
  | .brxRsmTimeout => 14
  | .brCfgReject => 0
  | .brInsFail => 1
  | .brMemErr => 2
  | .brScanLate => 3
  | .cadCfgReject => 0
  | .cadContLost => 1
  | .cadDlnLoss => 2
  | .cadJcBad => 3
  | .cadMemberLoss => 4
  | .cadPw => 5
  | .cadSlip => 6
  | .cphOmciMic => 0
  | .cstIngNobuf => 0
  | .cstMemErr => 1
  | .cstPoolEmpty => 2
  | .dstEcc => 0
  | .dstNopage => 1
  | .edtLen => 0
  | .frgFull => 0
  | .frgOrphan => 1
  | .gateCfgReject => 0
  | .gateMemErr => 1
  | .gateOverrun => 2
  | .gateOversize => 3
  | .gateStartAdvanced => 4
  | .ggcSnapDone => 0
  | .ggcSnapSkip => 1
  | .ggcTca => 2
  | .gntAllocCap => 0
  | .gntAssuredShort => 1
  | .gntCoopClip => 2
  | .gntCtiBad => 3
  | .gntCtiFull => 4
  | .gntCtiLate => 5
  | .gntFixedShort => 6
  | .gntMemErr => 7
  | .gntPackClip => 8
  | .gntRecReject => 9
  | .gntRssiExpire => 10
  | .gntRstSqueeze => 11
  | .hbmEcc => 0
  | .hbmPcFail => 1
  | .kvUnwrapBad => 0
  | .lnpAcqLate => 0
  | .lnpPll => 1
  | .lnpRefLoss => 2
  | .lnuFecDegrade => 0
  | .lnuLinkDown => 1
  | .lnuLinkUp => 2
  | .lnuModeReject => 3
  | .lnuPll => 4
  | .lnuRefLoss => 5
  | .lnuTrainFail => 6
  | .lpmMiss => 0
  | .lrnFreeze => 0
  | .lrnLimit => 1
  | .lrnQDrop => 2
  | .lrnStaticViol => 3
  | .lshBadPkt => 0
  | .lshCfgReject => 1
  | .lshHdrBad => 2
  | .lshInbAuth => 3
  | .lshInbDrop => 4
  | .lshInbReplay => 5
  | .lshInjBad => 6
  | .lshMbxBusy => 7
  | .lshPtrBad => 8
  | .lshReply => 9
  | .lshTrap => 10
  | .mscNoSa => 0
  | .mscPnExhaust => 1
  | .mscPnThr => 2
  | .pchBwmapLate => 0
  | .pchKeyAbsent => 1
  | .pchLaunched => 2
  | .pchPloamFull => 3
  | .pchStopped => 4
  | .pipeRecircDrop => 0
  | .pipeRecircLoop => 1
  | .plcMemErr => 0
  | .pmbSecLost => 0
  | .pmbTca => 1
  | .prsLenConflict => 0
  | .pwrThermMax => 0
  | .pwrThermWarn => 1
  | .qmCtStomp => 0
  | .qmHostDrop => 1
  | .qmReplDrop => 2
  | .rmdEmpty => 0
  | .rmdIn => 1
  | .rmdWear => 2
  | .rulEntReject => 0
  | .rulMemErr => 1
  | .rulQBad => 2
  | .rulSpoof => 3
  | .schCfgReject => 0
  | .schMemErr => 1
  | .schUnattached => 2
  | .secAlarm => 0
  | .secDarnReject => 1
  | .secIdBad => 2
  | .secNonapproved => 3
  | .secZeroize => 4
  | .sknGap => 0
  | .sknHoldFull => 1
  | .sknLate => 2
  | .sknMemberDown => 3
  | .sknRngFail => 4
  | .sknTagBad => 5
  | .spDmaErr => 0
  | .spEcc => 1
  | .spNonowner => 2
  | .spOwnerReject => 3
  | .sqDarnHold => 0
  | .sqHandover => 1
  | .sqMcheck => 2
  | .sqWaitTmo => 3
  | .svcMiss => 0
  | .sysAccErr => 0
  | .sysBadEnc => 1
  | .sysCastonDone => 2
  | .sysHlDown => 3
  | .sysHlPll => 4
  | .sysRtnReject => 5
  | .sysRtnSpent => 6
  | .sysSramFail => 7
  | .sysUcieDown => 8
  | .sysUnclaimedWr => 9
  | .tbActLate => 0
  | .tbCapOvf => 1
  | .tbDiverge => 2
  | .tbFrameErr => 3
  | .tbIncrReject => 4
  | .tbPinBad => 5
  | .tbRefHold => 6
  | .tbServoWdog => 7
  | .tndAuthFail => 0
  | .tndBringupFail => 1
  | .tndCfgReject => 2
  | .tndCrc => 3
  | .tndDevnumDup => 4
  | .tndDiverge => 5
  | .tndDlnLoss => 6
  | .tndDrillFail => 7
  | .tndEqdNeg => 8
  | .tndHalterContend => 9
  | .tndHalterLost => 10
  | .tndHalterOwn => 11
  | .tndLinkDown => 12
  | .tndLockstep => 13
  | .tndLockLoss => 14
  | .tndPairBad => 15
  | .tndPll => 16
  | .tndRefLoss => 17
  | .tndSeniorBad => 18
  | .tndTakeover => 19
  | .tnsHard => 0
  | .tnsLong => 1
  | .tsiEgrOvf => 0
  | .tsiLate => 1

/-- The first bit of a block's events on a kind of die: the events of the die's lower-numbered blocks (R514). -/
def Blk.firstBit : Nat → Blk → Nat
  | 0, .pipe => 8
  | 0, .prs => 10
  | 0, .rul => 11
  | 0, .frg => 15
  | 0, .br => 17
  | 0, .lpm => 21
  | 0, .svc => 22
  | 0, .lrn => 23
  | 0, .cst => 27
  | 0, .dst => 30
  | 0, .qm => 32
  | 0, .sch => 35
  | 0, .plc => 38
  | 0, .gt => 39
  | 0, .edt => 44
  | 0, .sp => 45
  | 0, .sq => 49
  | 0, .hbm => 53
  | 0, .kv => 55
  | 0, .lsh => 56
  | 1, .pch => 3
  | 1, .brx => 8
  | 1, .gnt => 23
  | 1, .act => 35
  | 1, .skn => 48
  | 1, .cad => 54
  | 1, .cph => 61
  | 1, .pmb => 62
  | 1, .sp => 64
  | 1, .sq => 68
  | 2, .msc => 7
  | 2, .tsi => 10
  | 2, .tnd => 12
  | 2, .sq => 32
  | 3, .pwr => 10
  | 3, .tns => 12
  | 3, .rmd => 14
  | 3, .sec => 17
  | 3, .ggc => 22
  | _, _ => 0

def Ev.all0 : List Ev :=
  [.actCfgReject, .actDeact, .actDiscOvf, .actFenceLate, .actKeyFail, .actLob, .actPdkLate, .actReach,
   .actRegBad, .actRngFail, .actRogue, .actSnDup, .actSnFound, .brxBurstMiss, .brxDbruBad, .brxDelim,
   .brxDlnLoss, .brxDrift, .brxFec, .brxHec, .brxKey, .brxOnuMismatch, .brxPloamMic, .brxPort,
   .brxPrfReject, .brxRsmNobuf, .brxRsmSize, .brxRsmTimeout, .brCfgReject, .brInsFail, .brMemErr, .brScanLate,
   .cadCfgReject, .cadContLost, .cadDlnLoss, .cadJcBad, .cadMemberLoss, .cadPw, .cadSlip, .cphOmciMic,
   .cstIngNobuf, .cstMemErr, .cstPoolEmpty, .dstEcc, .dstNopage, .edtLen, .frgFull, .frgOrphan,
   .gateCfgReject, .gateMemErr]
def Ev.all1 : List Ev :=
  [.gateOverrun, .gateOversize, .gateStartAdvanced, .ggcSnapDone, .ggcSnapSkip, .ggcTca, .gntAllocCap, .gntAssuredShort,
   .gntCoopClip, .gntCtiBad, .gntCtiFull, .gntCtiLate, .gntFixedShort, .gntMemErr, .gntPackClip, .gntRecReject,
   .gntRssiExpire, .gntRstSqueeze, .hbmEcc, .hbmPcFail, .kvUnwrapBad, .lnpAcqLate, .lnpPll, .lnpRefLoss,
   .lnuFecDegrade, .lnuLinkDown, .lnuLinkUp, .lnuModeReject, .lnuPll, .lnuRefLoss, .lnuTrainFail, .lpmMiss,
   .lrnFreeze, .lrnLimit, .lrnQDrop, .lrnStaticViol, .lshBadPkt, .lshCfgReject, .lshHdrBad, .lshInbAuth,
   .lshInbDrop, .lshInbReplay, .lshInjBad, .lshMbxBusy, .lshPtrBad, .lshReply, .lshTrap, .mscNoSa,
   .mscPnExhaust, .mscPnThr]
def Ev.all2 : List Ev :=
  [.pchBwmapLate, .pchKeyAbsent, .pchLaunched, .pchPloamFull, .pchStopped, .pipeRecircDrop, .pipeRecircLoop, .plcMemErr,
   .pmbSecLost, .pmbTca, .prsLenConflict, .pwrThermMax, .pwrThermWarn, .qmCtStomp, .qmHostDrop, .qmReplDrop,
   .rmdEmpty, .rmdIn, .rmdWear, .rulEntReject, .rulMemErr, .rulQBad, .rulSpoof, .schCfgReject,
   .schMemErr, .schUnattached, .secAlarm, .secDarnReject, .secIdBad, .secNonapproved, .secZeroize, .sknGap,
   .sknHoldFull, .sknLate, .sknMemberDown, .sknRngFail, .sknTagBad, .spDmaErr, .spEcc, .spNonowner,
   .spOwnerReject, .sqDarnHold, .sqHandover, .sqMcheck, .sqWaitTmo, .svcMiss, .sysAccErr, .sysBadEnc,
   .sysCastonDone, .sysHlDown]
def Ev.all3 : List Ev :=
  [.sysHlPll, .sysRtnReject, .sysRtnSpent, .sysSramFail, .sysUcieDown, .sysUnclaimedWr, .tbActLate, .tbCapOvf,
   .tbDiverge, .tbFrameErr, .tbIncrReject, .tbPinBad, .tbRefHold, .tbServoWdog, .tndAuthFail, .tndBringupFail,
   .tndCfgReject, .tndCrc, .tndDevnumDup, .tndDiverge, .tndDlnLoss, .tndDrillFail, .tndEqdNeg, .tndHalterContend,
   .tndHalterLost, .tndHalterOwn, .tndLinkDown, .tndLockstep, .tndLockLoss, .tndPairBad, .tndPll, .tndRefLoss,
   .tndSeniorBad, .tndTakeover, .tnsHard, .tnsLong, .tsiEgrOvf, .tsiLate]

/-- Every event. -/
def Ev.all : List Ev := Ev.all0 ++ Ev.all1 ++ Ev.all2 ++ Ev.all3

end Sys2Proof
end

