-- ==== Sys2Proof/Machine/Tbl.lean ====
section
/-!
DEFINITION. Sparse tables: a list of (key, value) pairs with strictly rising keys. What an unlisted key reads as is
said where the table is read. Every register file, counter bank, forwarding table and memory of the model is one.
-/

namespace Sys2Proof

/-- A sparse table by number, in one canonical form (`Tbl.wf`). -/
abbrev Tbl (α : Type) := List (Nat × α)

/-- The entry listed under a key. -/
def Tbl.find {α : Type} : Tbl α → Nat → Option α
  | [], _ => none
  | (k, v) :: t, n => if k = n then some v else Tbl.find t n

/-- The entry under a key, or what an unlisted key reads as. -/
def Tbl.getD {α : Type} (t : Tbl α) (n : Nat) (d : α) : α := (t.find n).getD d

/-- The table with an entry listed, replacing any under that key. -/
def Tbl.put {α : Type} : Tbl α → Nat → α → Tbl α
  | [], n, w => [(n, w)]
  | (k, v) :: t, n, w =>
    if n < k then (n, w) :: (k, v) :: t
    else if n = k then (n, w) :: t
    else (k, v) :: Tbl.put t n w

/-- The table with nothing listed under a key. -/
def Tbl.del {α : Type} (t : Tbl α) (n : Nat) : Tbl α := t.filter (fun p => p.1 != n)

/-- Writes a value, listing nothing where it is what an unlisted key reads as. -/
def Tbl.setD {α : Type} [DecidableEq α] (t : Tbl α) (n : Nat) (d v : α) : Tbl α :=
  if v = d then t.del n else t.put n v

/-- Lists the entry, or nothing. -/
def Tbl.setOpt {α : Type} (t : Tbl α) (n : Nat) : Option α → Tbl α
  | some v => t.put n v
  | none => t.del n

/-- Changes the entry listed under a key, if there is one. -/
def Tbl.modify {α : Type} (t : Tbl α) (n : Nat) (f : α → α) : Tbl α :=
  match t.find n with
  | some v => t.put n (f v)
  | none => t

/-- The canonical form: keys strictly rising. -/
abbrev Tbl.wf {α : Type} (t : Tbl α) : Prop := (t.map Prod.fst).Pairwise (· < ·)

/-- Whether a key is listed. -/
def Tbl.has {α : Type} (t : Tbl α) (n : Nat) : Bool := (t.find n).isSome

end Sys2Proof
end

