-- ==== Sys2Proof/Machine/State.lean ====
section
/-!
DEFINITION. The state of the block as plain data. Registers live in one register file, each under its own name and
instance (`State.regs`), the named counters in `State.ctrs`; what no register holds (queues, tables, records, pending
operations, pins, what the block has sent) stands in typed fields, grouped by the chapter that gives it.
-/

namespace Sys2Proof.Machine

/-- The statuses of a reply (R492). -/
inductive Status where
  | ok | accepted | advanced | notReady | busy | busyCastOn | badOpcode | badParam | badLength | badCrc | badVersion
  | badTarget | tagInUse | staleGeneration | noRoom | idResting | idInUse | blockClaimed | notOwner | unauthorized
  | notApprovedMode | replayed | machineCheck | zeroized | timedOut | commitBusy | fencePending
deriving DecidableEq, Repr

/-- A reply packet's fields (R468), before its CRC and CMAC. -/
structure Reply where
  path : Path
  tag : BitVec 16
  gen : BitVec 8
  die : Die
  opcode : BitVec 16
  status : Status
  words : List Word
  more : Bool := false
  rep : Bool := false
  /-- The reply is its command's final one: acknowledging it frees the tag (R474). No field of the packet. -/
  final : Bool := false
deriving DecidableEq, Repr

/-- Whom a command's completion answers (R475). -/
structure Caller where
  path : Path
  tag : BitVec 16
  gen : BitVec 8
  die : Die
  opcode : BitVec 16
deriving DecidableEq, Repr

/-- A tag in flight (R474): its command, whether its execution has begun, whether ACCEPTED was posted, and the held
final reply, and whether a newer generation has been opened since (R477). -/
structure Flight where
  caller : Caller
  started : Bool
  accepted : Bool
  final : Option Reply
  stale : Bool
deriving DecidableEq, Repr

/-- An event record (R518), with its time on the raising die's replica. -/
structure EvRec where
  source : Nat
  die : Nat
  inst : Nat
  time : Nat
  unaligned : Bool
deriving DecidableEq, Repr

/-- A pin of the package or a group of them; a group's pins are numbered. -/
inductive Pin where
  | optTxen | brxRstN | rssiTrg | tpin | ppsOut | ppsIn | hltOwnN | hltPeerN | alertN | hostRstN | tamperN
  | devnum | hltSenior | refclkPon | refclkUpl | refclkTnd | pcieRefclk | rails
  | testEn | tck | tms | tdi | tdo | trstN | i3cScl | i3cSda
deriving DecidableEq, Repr

/-- A frame: a name for its bytes, its length in bytes from destination MAC to FCS, and its leading bytes as far as the
model is told them. -/
structure Frame where
  name : Nat
  len : Nat
  head : List Byte := []
deriving DecidableEq, Repr

/-- What a trapped frame's descriptor says (R481). -/
structure Trap where
  reason : Nat
  frame : Frame
  up : Bool
  ingress : Nat
  onu : Nat
  port : Nat
  time : Nat
  cls : Nat
  colour : Nat
  half : Nat
deriving DecidableEq, Repr

/-- The Laosh interface beyond its registers (R473-R489). -/
structure Laosh where
  /-- Reply-ring slots posted and not yet acknowledged, oldest first: slot, phase, reply. -/
  replySlots : List (Nat × Nat × Reply)
  /-- Trap-ring slots posted and not yet acknowledged, oldest first. -/
  trapSlots : List (Nat × Nat × Trap)
  /-- Replies waiting for a free slot of the reply ring. -/
  replyWait : List Reply
  /-- Frames of queue 0x3_FFFE waiting for the trap ring in the host pool. -/
  trapWait : List Trap
  /-- Replies of the I3C path not yet acknowledged, the readable one first. -/
  mailbox : List Reply
  /-- Whether the readable mailbox reply has been read. -/
  mailboxSeen : Bool
  /-- The value an armed register read returns at the next private read (R507). -/
  armedRead : Option Word
  i3cAddress : Option (BitVec 7)
  ibiEnable : Bool
  inbandPorts : List Nat
  inbandKey : Option Nat
  /-- The in-band path's mark: the highest tag accepted since the session opened (R487). -/
  mark : BitVec 16
  /-- Sessions opened under the session key (R487). -/
  sessions : Nat
  /-- In-band packets accepted and awaiting dispatch: port and caller (R486). -/
  inbandWait : List (Nat × Caller)
  /-- Where an in-band reply goes, by its command's tag: port, source MAC, VLAN tag (R488). -/
  inbandFrom : Tbl (Nat × Nat × Option Nat)
  /-- Accepted commands whose first reply has not been posted, oldest first (R490). -/
  order : List Caller
  linkUp : Bool
  /-- Elapsed time at which the host link last left L0 (R555). -/
  downAt : Nat
  /-- MSI-X messages held while the host link is outside L0 (R100). -/
  msixHeld : List Nat
deriving DecidableEq, Repr

/-- A claim asked for while commands act on its block (R511). -/
structure ClaimWait where
  die : Nat
  blk : Blk
  caller : Caller
  /-- The elapsed time at which it was asked for. -/
  since : Nat
deriving DecidableEq, Repr

/-- Register windows beyond the registers themselves (R506, R510). -/
structure Windows where
  /-- The latched _HI of a path's last read of a _LO, by path copy and _HI register. -/
  shadow : Tbl Word
  /-- The staged _HI of a path's write, by path copy and _HI register. -/
  stagedHi : Tbl Word
  /-- Claims: die × 64 + block's number to the path that holds it. -/
  claims : Tbl Path
  claimWait : List ClaimWait
  /-- What a register read before a path's write, with the path and the elapsed time (R505): what another path still reads in
  that cycle. -/
  before : Tbl (Nat × Nat × Word)
  /-- Staging registers that a path has written since its last commit (R164, R260, R509), by register key. -/
  staged : Tbl Unit
deriving DecidableEq, Repr

/-- The rations beyond their registers (R27-R40): the budget and borrowing in force this period, by die × 64 + index. -/
structure Rations where
  inForce : Tbl Word
  /-- Time of the period in force's start. -/
  start : Nat
  /-- Time of the TAI multiple of 125 µs that opens the next period (R27). -/
  next : Nat
  /-- Elapsed time of the period in force's start, and whether a backward step has come in it (R36). -/
  opened : Nat
  stepped : Bool
  /-- Resource time charged in this period by die × 64 + index, and borrowed since cast-on, in 2^-32 ns (R28, R31). -/
  meter : Tbl Nat
  borrowed : Nat
deriving DecidableEq, Repr

/-- A timebase action (R46, R638): its kinds (bit 0 INCR, 1 STEP, 2 SLEW, 3 SET), its instant, whether it was armed too
late (R47), and the values it carries: a time, a step in ns, an increment in 2^-32 ns, a slew in 2^-16 ns over cycles. -/
structure Action where
  kinds : Nat
  instant : Nat
  late : Bool
  setValue : Nat
  stepNs : Int
  incr : Nat
  slewOfs : Int
  slewCyc : Nat
  /-- The cycle of its arming (R47). -/
  armed : Nat
deriving DecidableEq, Repr

/-- A slew in progress (R49): what is still to be added, in 2^-32 ns, and over how many cycles. -/
structure Slew where
  rest : Int
  cycles : Nat
deriving DecidableEq, Repr

/-- A capture record (R60): its time with the 0.2 ns position, and the step bit. -/
structure Capture where
  time : Nat
  step : Bool
deriving DecidableEq, Repr

/-- An egress stamp of a two-step port (R69). -/
structure Stamp where
  seqId : Nat
  port : Nat
  time : Nat
deriving DecidableEq, Repr

/-- PTP settings of an uplink port (R65, R69, R72). -/
structure PtpPort where
  oneStep : Bool
  twoStep : Bool
  transparent : Bool
deriving DecidableEq, Repr

/-- The timebase beyond its registers. -/
structure Timebase where
  /-- The fraction of the increment in force (R43); the integer part is TB_INCR. -/
  frac : Word
  pendingAction : Option Action
  slew : Option Slew
  /-- The servo watchdog has expired in this silence, and the elapsed time from which the silence counts (R45, R77). -/
  wdogFired : Bool
  wdogFrom : Nat
  /-- Cycles of the 625 MHz clock since cast-on (R43, R47), and the cycle of the last SET or STEP (R60). -/
  cycle : Nat
  jumpedAt : Option Nat
  /-- A replica's difference from the master in 0.1 ns, and whether its next sync word steps it (R54), by die. -/
  replicas : Tbl (Int × Bool)
  /-- Elapsed time of a replica's last sync word, by die (R54). -/
  syncAt : Tbl Nat
  /-- Capture FIFOs, oldest first (R60), and the last edge seen, by pin; 32 is PPS_IN. -/
  captures : Tbl (List Capture)
  lastEdge : Tbl Nat
  /-- The next edge of a pulsing pin: its start once configured, then the start plus whole periods (R59). A single pulse that has
  fired lists none. -/
  nextEdge : Tbl Nat
  /-- The next TAI second boundary of PPS_OUT (R61). -/
  ppsNext : Nat
  ptpPorts : Tbl PtpPort
  /-- Egress stamp rings, oldest first (R69), by port. -/
  stamps : Tbl (List Stamp)
deriving DecidableEq, Repr

/-- A tandem lane's block-lock machine (R91): HUNT; TEST with its count; LOCK with the validity of the last 64 headers,
newest first. -/
inductive BlockLock where
  | hunt
  | test (n : Nat)
  | lock (last : List Bool)
deriving DecidableEq, Repr

/-- An eye scan in progress on a die's monitor (R103). -/
structure EyeScan where
  caller : Caller
  family : Nat
  index : Nat
  dwell : Nat
deriving DecidableEq, Repr

/-- A frame held at the uplink PCS boundary until its departure (R66, R388): the offset of a PTP header the device acts
on, whether it writes originTimestamp, the ingress stamp of a transparent correction, whether the port stamps it (R69);
its departure, its gate, and its transmission time in ns. -/
structure HeldFrame where
  frame : Frame
  ptp : Option Nat
  origin : Bool
  correct : Option Nat
  stampIt : Bool
  departure : Nat
  gate : Nat
  tx : Nat
deriving DecidableEq, Repr

/-- A frame as a port in near-end loopback sent it (R108): its SCI × 4 + AN, packet number and ICV under MACsec, and whether its FCS is right. -/
structure Looped where
  frame : Frame
  tag : Option (Nat × Nat × Nat)
  fcsOk : Bool
deriving DecidableEq, Repr

/-- The serial lanes beyond their registers (R79-R111). A lane's key is family × 128 + index. -/
structure Lanes where
  /-- Transmitter pre- and post-cursor taps and receiver gain (R106). -/
  eq : Tbl (Word × Word × Word)
  /-- PRBS generator and checker on (R104). -/
  prbs : Tbl (Bool × Bool)
  blockLock : Tbl BlockLock
  /-- How far the candidate block position has slipped, in bits (R91). -/
  slip : Tbl Nat
  /-- Lanes in the 10 ms pause of R87. -/
  paused : Tbl Unit
  /-- Ports whose last 1 ms window was over the FEC threshold (R99). -/
  fecOver : Tbl Unit
  /-- Eye scans in progress, by die. -/
  eyes : Tbl EyeScan
  /-- Frames held at the PCS boundary, oldest first, by port. -/
  held : Tbl (List HeldFrame)
  /-- PON transmitters that run (R88, R89), by channel, and the elapsed time at which OPT_TXEN was last deasserted. -/
  transmitting : Tbl Unit
  darkAt : Tbl Nat
  /-- Frames that a port in near-end loopback has sent and not yet received, oldest first, by port (R108). -/
  looped : Tbl (List Looped)
  /-- PON transmitters that the host has turned off and that have yet to stop (R89), by channel. -/
  goingOff : Tbl Unit
  /-- Elapsed time at which a lane entered its state or stage (R87, R88, R92), by lane key; lane 7 × 128 + n: REFCLK_UPL[n] was
  present again (R102). -/
  since : Tbl Nat
  /-- A port's PCS, FEC and deskew delays of ingress and egress in 2^-32 ns, as its last bring-up measured them (R97). -/
  delays : Tbl (Nat × Nat)
  /-- Late acquisitions in this frame, by channel (R84). -/
  acqLate : Tbl Nat
  /-- The host link: state, stage, width and rate code as LANE.STATUS gives them (R90, R100, R106). -/
  hostState : Nat
  hostStage : Nat
  hostWidth : Nat
  hostRate : Nat
deriving DecidableEq, Repr

/-- The downstream PLOAM messages of R113. -/
inductive PloamKind where
  | burstProfile | assignOnuId | rangingTime | deactivateOnuId | disableSerialNumber | requestRegistration
  | assignAllocId | keyControl | sleepAllow | calibrationRequest | adjustTxWavelength | tuningControl
  | systemProfile | channelProfile | protectionControl | changePowerLevel | powerConsumptionInquire
deriving DecidableEq, Repr

/-- A PLOAM message: its kind, the ONU-ID it names (none: broadcast), what it carries. -/
structure Ploam where
  kind : PloamKind
  onuId : Option Nat
  args : List Nat
deriving DecidableEq, Repr

/-- An SDU in a channel's TC input buffer (R116, R118), with its port's kind (R345): bytes already sent, and the key index, key and max_pli its first
fragment fixed (R119, R125). -/
structure TcSdu where
  onu : Nat
  port : Nat
  kind : Nat
  frame : Frame
  sent : Nat
  key : Option (Nat × Nat)
  pli : Nat
  /-- The host sends it (R412). -/
  host : Bool
deriving DecidableEq, Repr

/-- An XGEM frame as sent (R117). -/
structure Xgem where
  pli : Nat
  key : Nat
  port : Nat
  last : Bool
deriving DecidableEq, Repr

/-- An allocation structure of a bandwidth map (R153, R158): Alloc-ID, StartTime and GrantSize in quanta, flags. -/
structure AllocStruct where
  allocId : Nat
  onu : Nat
  start : Nat
  size : Nat
  dbru : Bool
  ploamu : Bool
  profile : Nat
  /-- First structure of a burst flagged for power measurement (R159). -/
  rssi : Bool := false
  /-- Payload quanta: GrantSize less PLOAMu, DBRu and parity. -/
  payload : Nat := 0
  /-- The grant of a quiet window (R206, R209). -/
  quiet : Bool := false
deriving DecidableEq, Repr

/-- A channel's TC (R114-R122). -/
structure ChanSt where
  /-- Superframe count of the frame in force, and of the next. -/
  count : Nat
  next : Nat
  /-- When a channel enabled on a launched tree starts, in elapsed time, and with which count. -/
  startAt : Option (Nat × Nat)
  /-- The channel stops at the end of the frame in force. -/
  stopping : Bool
  /-- The PLOAM queue, at most 64 messages, and the offers that wait for room, each with the elapsed time of its timeout (R115). -/
  ploams : List Ploam
  offers : List (Ploam × Nat)
  /-- Messages still to be sent in so many more consecutive frames (R222). -/
  again : List (Ploam × Nat)
  tc : List TcSdu
  /-- The map delivered for a frame: its superframe count and structures. -/
  map : Option (Nat × List AllocStruct)
  /-- The last map sent. -/
  sentMap : Nat × List AllocStruct
  /-- The next map is the empty first one (R161). -/
  firstMap : Bool
  /-- Bytes of the FS payload of the frame in force that no XGEM frame has taken yet (R114, R116). -/
  room : Nat
  /-- max_pli of the SDUs that start in the frame in force (R119). -/
  maxPli : Nat
deriving DecidableEq, Repr

/-- A tree's grid (R120-R122, R57). -/
structure TreeSt where
  launchAt : Nat
  launchCount : Nat
  /-- S_m and T_m of R70, and the elapsed time at T_m. -/
  count : Nat
  startTime : Nat
  startElapsed : Nat
  stopping : Bool
  /-- The frame-launch difference in ns (R57). -/
  fle : Int
  fleOver : Bool
  /-- The pending launch is closer than the cutoff: its first frame has none (R161). -/
  noCutoff : Bool
deriving DecidableEq, Repr

/-- An SDU held for reordering on a skein (R243, R244). -/
structure SkeinHeld where
  seq : Nat
  frame : Frame
  port : Nat
  arrival : Nat
  inPool : Bool
  /-- Its OMCI integrity check would pass (R412). -/
  mic : Bool
  /-- It is beyond hold_kib, and waits in the pool for SKEW to write it to the HBM region (R244, R258). -/
  spill : Bool
deriving DecidableEq, Repr

/-- An ONU joined to a skein (R238-R243): its members with their EqDs, the next downstream seq, the expected upstream
seq, what is held; while the join runs, whom its completion answers. -/
structure SkeinOnu where
  skein : Nat
  anchor : Nat
  members : List (Nat × Nat)
  downSeq : Nat
  upSeq : Option Nat
  held : List SkeinHeld
  joining : Option Caller
  /-- Counts until which drift reports of a member other than the anchor are ignored, by wavelength (R214). -/
  drift : Tbl Nat
deriving DecidableEq, Repr

/-- The states of a provisioned ONU (R204); FREE is an ONU index that is not listed. -/
inductive OnuPhase where
  | provisioned | assigned | ranging | registering | keying | operation | lost | disabled
deriving DecidableEq, Repr

/-- A migration under way (R219, R220): the target channel (none: the tandem partner), frame M, the fence F in elapsed
time, frame K, and whether F is reached. -/
structure Migration where
  target : Option Nat
  frameM : Nat
  fence : Nat
  frameK : Nat
  fenced : Bool
deriving DecidableEq, Repr

/-- A provisioned ONU's slot (R204, R234-R236). -/
structure OnuSlot where
  slot : Nat
  tree : Nat
  wl : Nat
  /-- Wavelength of the channel that carries the ONU's downstream (R220). -/
  downWl : Nat
  /-- The ONU has moved to the tandem partner, which grants it (R220, R453). -/
  away : Bool
  onuId : Nat
  serial : Nat
  regId : Option (List Word)
  auto : Bool
  phase : OnuPhase
  /-- X of R209 in 1/16 ns, with the count W, once the serial number was seen in an SN window. -/
  seen : Option (Nat × Nat)
  eqd : Nat
  miss : Nat
  /-- Ranging attempts made (R204) and failed attempts of the key exchange under way (R213). -/
  tries : Nat
  keyFails : Nat
  /-- Unicast key slot in force, 0 none; a switch announced: its count and slot. The keys stand in the vault. -/
  keySlot : Nat
  keySwitch : Option (Nat × Nat)
  /-- A rekey under way, and whom its completion answers. -/
  rekey : Option Caller
  /-- Drift reports are ignored until this count (R214). -/
  driftUntil : Option Nat
  /-- Loss count (R190) and offset of the last burst (R193). -/
  loss : Nat
  lastOfs : Int
  migration : Option Migration
  /-- Frames since the last PLOAMu, and whether an upstream PLOAM opportunity is pending (R148). -/
  ploamAge : Nat
  ploamReq : Bool
  /-- ONU.DISABLE has cancelled a migration (R221). -/
  fenceCut : Bool
  /-- Elapsed time at which it entered its phase (R212, R215), and at which a key was last asked for (R213). -/
  since : Nat
  asked : Nat
  /-- The 9 indication bits of its last burst header (R181). -/
  indication : Nat
deriving DecidableEq, Repr

/-- The state of an identifier that is not free (R216, R217): bound; bound and leaving the maps at the next cutoff;
resting until an instant of elapsed timebase time. -/
inductive Ident where
  | bound (onu : Nat)
  | leaving (onu : Nat)
  | resting (until_ : Nat)
deriving DecidableEq, Repr

/-- An XGEM port (R124): kind 0 clear, 1 unicast, 2 broadcast; direction 0 down, 1 up, 2 both; a change that waits for
the next frame start of the tree (R641). -/
structure PonPort where
  kind : Nat
  dir : Nat
  next : Option (Nat × Nat)
deriving DecidableEq, Repr

/-- An Alloc record (R143) with what the engine keeps of it (R146, R147, R152, R170). -/
structure AllocRec where
  tree : Nat
  onu : Nat
  allocId : Nat
  fixed : Nat
  assured : Nat
  nonAssured : Nat
  weight : Nat
  max : Nat
  band : Nat
  rpt : Nat
  dbruIvl : Nat
  profile : Nat
  /-- The skein member that carries it (R239); none: the ONU's channel. -/
  member : Option Nat
  /-- A move to another member, in force from the next cutoff (R239). -/
  moveTo : Option Nat
  /-- Cleared: invalid from the next cutoff (R162). -/
  leaving : Bool
  /-- Occupancy of the latest DBRu (r of R146), whether one came since the last snapshot, bytes granted since (G). -/
  report : Nat
  fresh : Bool
  since : Nat
  /-- Bytes granted in the latest maps, newest first, with their counts. -/
  recent : List (Nat × Nat)
  lastGrant : Nat
  sent : Nat
  tmFull : Bool
  lastQ : Nat
  leftOut : Bool
  memErr : Bool
  demand : Nat
  /-- tm_full and mem_err as of the last snapshot (R170). -/
  statFull : Bool
  statErr : Bool
  /-- Frames with no grant (R147). -/
  idle : Nat
  /-- Finish tags of the non-assured and best-effort stages, 32 bits with 8 fraction bits (R152). -/
  tagNa : Nat
  tagBe : Nat
deriving DecidableEq, Repr

/-- A cooperative hint (R155): record, first superframe count, frames, bytes a frame, bytes more in the first frame
(R156), pinned quantum. -/
structure Hint where
  rec_ : Nat
  first : Nat
  frames : Nat
  bytes : Nat
  extra : Nat
  pin : Option Nat
deriving DecidableEq, Repr

/-- An RSSI arm (R159): ONU, first superframe count (none: the first frame after the next cutoff, which the tree has yet to have), bursts
still to flag. -/
structure RssiArm where
  onu : Nat
  start : Option Nat
  left : Nat
deriving DecidableEq, Repr

/-- A quiet window (R206-R209): the ONU of a ranging window (none: an SN window), the frame W of its grant, frames j
before W at which it opens, the grant's StartTime s, its length in quanta. -/
structure Window where
  ranging : Option Nat
  frame : Nat
  j : Nat
  start : Nat
  len : Nat
deriving DecidableEq, Repr

/-- The CTI settings (R156). -/
structure Cti where
  ports : List Nat
  udp : Nat
  sources : List Nat
  /-- Reporting entity × 2^32 + flow to an Alloc record's key. -/
  pairs : Tbl Nat
deriving DecidableEq, Repr

/-- An Alloc-ID as a calculator sees it in its snapshot (R140): amounts in quanta, rounded up (R142). -/
structure GAlloc where
  key : Nat
  onu : Nat
  allocId : Nat
  profile : Nat
  bpq : Nat
  band : Nat
  weight : Nat
  fixed : Nat
  assured : Nat
  nonAssured : Nat
  max : Nat
  /-- The report mode is not none; the grant carries the DBRu flag. -/
  asks : Bool
  dbru : Bool
  poll : Bool
  demand : Nat
  tagNa : Nat
  tagBe : Nat
deriving DecidableEq, Repr

/-- A granted ONU in a snapshot: PLOAMu due. -/
structure GOnu where
  onu : Nat
  onuId : Nat
  ploamu : Bool
deriving DecidableEq, Repr

/-- A channel's part of a snapshot: quanta a frame, guard, overheads and FEC (data, parity bytes; none: off) by profile,
quiet intervals, window grants, ONUs, Alloc-IDs, hints (record key, quanta, pin), virtual times by stage × 8 + band. -/
structure GChan where
  chan : Nat
  quanta : Nat
  guard : Nat
  ovh : List Nat
  fec : List (Option (Nat × Nat))
  quiet : List (Nat × Nat)
  preset : List AllocStruct
  onus : List GOnu
  allocs : List GAlloc
  hints : List (Nat × Nat × Option Nat)
  vt : Tbl Nat
deriving DecidableEq, Repr

/-- A tree calculator between its cutoff and its deadline (R138-R140): the frame, the snapshot of the channels whose
engine is enabled, and the maps once computed. -/
structure Calc where
  frame : Nat
  snap : List GChan
  maps : Option (List (Nat × List AllocStruct))
deriving DecidableEq, Repr

/-- A burst the receiver expects (R171): the map's frame, the ONU (none: an SN window's responses), its ONU-ID, the
profile, the quantum of the first preamble bit, the allocations, and whether it is flagged for power measurement; the answers in a
quiet window are commands of their own. -/
structure Expect where
  frame : Nat
  onu : Option Nat
  onuId : Nat
  profile : Nat
  first : Int
  allocs : List AllocStruct
  rssi : Bool
  window : Bool
  /-- Its reset and its measurement pulse have been driven (R62). -/
  rstSent : Bool := false
  rssiSent : Bool := false
  /-- The latest expected end, as a time, of the bursts before it that have already been received (R62). -/
  after : Int := 0
deriving DecidableEq, Repr

/-- A reassembly context that is not idle (R189): open with the bytes appended, its deadline (a full-form time), its
taint mark, the channel it began on and the leading bytes known; or discarding up to the next last fragment. -/
inductive RsmCtx where
  | open_ (len deadline taint chan : Nat) (lead : List Byte)
  | discard
deriving DecidableEq, Repr

/-- A rogue scan (R225): the ONU disabled now and the ones to come, the rogue frames counted, the counts so far, and the elapsed time
at which the ONU was disabled. -/
structure RogueScan where
  caller : Caller
  todo : List Nat
  count : Nat
  done : List (Nat × Nat)
  since : Nat
deriving DecidableEq, Repr

/-- ONUs, identifiers, windows and grants beyond their registers (R137-R236). -/
structure Pon where
  onus : Tbl OnuSlot
  /-- Identifiers by (tree × 4 + kind) × 65536 + value; kinds 0 ONU-ID, 1 Alloc-ID, 2 XGEM port. -/
  idents : Tbl Ident
  /-- XGEM ports by tree × 65536 + port ID. -/
  ports : Tbl PonPort
  /-- Alloc records by (line die - 2) × 16384 + record index. -/
  allocs : Tbl AllocRec
  /-- Virtual times by channel × 16 + stage × 8 + band; stages 0 non-assured, 1 best effort. -/
  vts : Tbl Nat
  /-- Hints by (line die - 2) × 4096 + place; the handle is the key. -/
  hints : Tbl Hint
  cti : Cti
  /-- RSSI arms by channel, oldest first. -/
  arms : Tbl (List RssiArm)
  calcs : Tbl Calc
  /-- Quiet windows booked, by channel, in order. -/
  windows : Tbl (List Window)
  expects : Tbl (List Expect)
  /-- The latest expected end of the bursts a channel has received, as a time (R62). -/
  burstEnds : Tbl Int
  /-- Reassembly contexts by tree × 65536 + port ID. -/
  rsm : Tbl RsmCtx
  /-- Discovered serial numbers by tree, oldest first: serial, channel, X in 1/16 ns (R208). -/
  found : Tbl (List (Nat × Nat × Nat))
  /-- Serial numbers disabled without being provisioned, by tree (R223). -/
  disabled : Tbl (List Nat)
  /-- The last 8 frames of a channel, newest first, and whether EV_ACT_ROGUE stands (R224). -/
  rogue : Tbl (List Bool × Bool)
  scans : Tbl RogueScan
  /-- Elapsed time of a channel's last SN interval (R206). -/
  snAt : Tbl Nat
  /-- Loss counts of ONUs that have been released, for what their sent maps still bring (R190), by ONU index. -/
  gone : Tbl Nat
deriving DecidableEq, Repr

/-- The kinds of key a vault holds (R416); a PON key's slot. -/
inductive KeyKind where
  | msk | kek | omciIk | ploamIk
  | unicast (slot : Nat)
  | broadcast (slot : Nat)
  | sak
  | job
deriving DecidableEq, Repr

/-- A key (R416, R422): its kind, its owner (an ONU index, a tree, a port, a half), the die whose clusters hold it, its
value and width, its invocation count, and whether the vault still holds its copy (R425). -/
structure VKey where
  kind : KeyKind
  owner : Nat
  die : Nat
  value : Nat
  bits : Nat
  count : Nat
  inVault : Bool := true
deriving DecidableEq, Repr

/-- What waits for its playout instant (R253): client bits, and whether they are all-ones in place of missing data. -/
structure Play where
  at_ : Nat
  bits : Nat
  filler : Bool
deriving DecidableEq, Repr

/-- A run of client bits in a store: how many, whether they are all-ones in place of missing data, and the short-form arrival of the
first (R254). -/
structure BitRun where
  bits : Nat
  ones : Bool
  at_ : Nat
deriving DecidableEq, Repr

/-- Member containers with one mfi that wait to be joined (R256): mfi, the first arrival in elapsed time, the members present by index,
each with the short-form arrival of its first bit less its EqD (R254), those whose write to the alignment store waits for SKEW (R258), the
code decided, csf. -/
structure Aligning where
  mfi : Nat
  first : Nat
  members : List (Nat × Nat)
  waiting : List (Nat × Nat)
  jc : Nat
  csf : Bool
deriving DecidableEq, Repr

/-- The data of a tributary's container for a frame (R250, R255): superframe count, code, csf, the client bits that all members carry. -/
structure TribFrame where
  count : Nat
  jc : Nat
  csf : Bool
  data : List BitRun
deriving DecidableEq, Repr

/-- A valid tributary (R247-R257): what it binds, and its dynamic state. -/
structure Trib where
  onu : Nat
  port : Nat
  /-- The skein that carries it; none: the ONU's channel alone. -/
  skein : Option Nat
  /-- One Alloc-ID per member, by ascending wavelength, with the member wavelengths. -/
  members : List (Nat × Nat)
  nd : Nat
  q : Nat
  ppm : Nat
  wl : Nat
  wh : Nat
  /-- The cadence pseudowire; else SAToP. -/
  cadence : Bool
  udp : Nat
  payload : Nat
  playout : Nat
  /-- The elastic store, oldest bits first, and whether it has slipped since the last container (R258). -/
  elastic : List BitRun
  slipped : Bool
  down : Bool
  lostRun : Nat
  goodRun : Nat
  csf : Bool
  csfRx : Bool
  jc : Nat
  jcRx : Nat
  mfi : Nat
  aligning : List Aligning
  /-- The next pseudowire sequence number expected and sent. -/
  seqRx : Option Nat
  seqTx : Nat
  plays : List Play
  /-- Client bits received and not yet sent in a packet, oldest first. -/
  upBits : List BitRun
  /-- When EV_CAD_PW was last raised, in elapsed time. -/
  pwEvent : Option Nat
  /-- Pseudowire packets that the scheduler has served and PSEUDOWIRE_RX has yet to take, oldest first (R253). -/
  inbox : List Frame
  /-- The last packet received was late or came after a gap: R is sent (R252). -/
  lossRx : Bool
  /-- The container of the frame in force, once a member has sent its part. -/
  built : Option TribFrame
deriving DecidableEq, Repr

/-- How far a frame's body has come (R339, R340): whole; its last byte and its ICV verdict still to come; found bad. -/
inductive Body where
  | whole | coming | bad
deriving DecidableEq, Repr

/-- A frame head on its way to a pipeline of a half (R264): direction, ingress (uplink port or channel), for an upstream
one its ONU and XGEM port, the short-form ingress stamp of a PTP frame (R64), and its arrival in elapsed time (R601). -/
structure Head where
  half : Nat
  up : Bool
  ingress : Nat
  onu : Nat
  port : Nat
  frame : Frame
  stamp : Option Nat
  body : Body
  arrived : Nat := 0
  /-- The host injected it (R482). -/
  injected : Bool := false
deriving DecidableEq, Repr

/-- A head between two passes (R281): passes taken, where its window starts and with which header type, its EPOCH tag,
the service entry of its first pass, the domain of a kind 4 next hop, the spoof flag of its first pass,
and the fragment entry it completes. -/
structure Pkt where
  head : Head
  passes : Nat
  offset : Nat
  typ : Nat
  tag : Nat
  svc : Option Nat
  bd : Option Nat
  spoof : Bool
  first : Option (List Nat)
  /-- Its depth has been counted as exceeded (R267). -/
  deep : Bool
  /-- Its bytes past the declared end that prs_trailer has counted (R268). -/
  trailed : Nat
deriving DecidableEq, Repr

/-- A rule entry (R274, R277): actions as RUL_ENT_ACT lays them out; the version range of an EPOCH entry. -/
structure RuleEnt where
  pri : Nat
  value : List Word
  mask : List Word
  act : Word
  first : Nat
  last : Nat
  open_ : Bool
  settled : Bool
  hits : Nat
  /-- The entry matches nothing until rewritten (R284). -/
  memErr : Bool := false
deriving DecidableEq, Repr

/-- A programmable edge of the header graph (R266). -/
structure Edge where
  from_ : Nat
  value : Nat
  mask : Nat
  to_ : Nat
  en : Bool
deriving DecidableEq, Repr

/-- Where a packet goes (R297): a queue of a half by its QSEL number, or a flood to destinations. -/
structure Decision where
  /-- The queues: half, and the number as QSEL holds it. -/
  queues : List (Nat × Nat)
  /-- The queue is 0x3_FFFE, with the trap's reason (R481), or 0x3_FFFF. -/
  host : Option Nat
  drop : Bool
  flood : Bool
  cls : Nat
  colour : Nat
  /-- A rule set the colour that the policer starts from (R275, R373). -/
  preset : Bool
  policer : Option Nat
  prog : Nat
  nh : Option (Nat × Nat)
deriving DecidableEq, Repr

/-- A fragment table entry (R270, R271): its key, its short-form stamp, the decision once completed. -/
structure FragEnt where
  key : List Nat
  stamp : Nat
  decision : Option Decision
deriving DecidableEq, Repr

/-- A service entry (R295): key; a bridge domain, or a cross-connect destination (kind and number). -/
structure SvcEnt where
  up : Bool
  source : Nat
  ovid : Nat
  ivid : Nat
  cross : Bool
  bd : Nat
  kind : Nat
  dest : Nat
  policer : Option Nat
  prog : Nat
  learn : Bool
  macLimit : Nat
  ret : Nat
  upBase : Nat
deriving DecidableEq, Repr

/-- A bridge domain (R320); the unknown-unicast action is 0 flood, 1 discard, 2 host. -/
structure BdEnt where
  valid : Bool
  learn : Bool
  isolate : Bool
  route : Bool
  vrf : Nat
  rmac : Nat
  flood : Nat
  unknown : Nat
deriving DecidableEq, Repr

/-- A next hop (R300). -/
structure NhEnt where
  kind : Nat
  dest : Nat
  dmac : Nat
  smac : Nat
  prog : Nat
  bd : Nat
  strip : Nat
deriving DecidableEq, Repr

/-- A route (R299). -/
structure Route where
  v6 : Bool
  vrf : Nat
  prefix_ : Nat
  len : Nat
  nh : Nat
deriving DecidableEq, Repr

/-- A binding (R301): kind 0 MAC, 1 IPv4, 2 IPv6. -/
structure Binding where
  onu : Nat
  port : Nat
  kind : Nat
  addr : Nat
deriving DecidableEq, Repr

/-- A bridge entry in use (R303). -/
structure BrEnt where
  static_ : Bool
  frozen : Bool
  dkind : Nat
  stamp : Nat
  moveCnt : Nat
  dmp : Nat
  dest : Nat
  svc : Option Nat
  bd : Nat
  mac : Nat
deriving DecidableEq, Repr

/-- A learning event (R308). -/
structure LrnEv where
  bd : Nat
  mac : Nat
  dkind : Nat
  dest : Nat
  svc : Option Nat
deriving DecidableEq, Repr

/-- A flush's walk over a half's bridge table (R317, R320): whom it answers, whether it walks both halves, the domain and the destination
(kind × 2^18 + number) it deletes, none for any; its next access, what it has deleted, and what the other half's walk deleted once that
has ended. -/
structure FlushWalk where
  caller : Caller
  both : Bool
  bd : Option Nat
  dest : Option Nat
  pos : Nat
  deleted : Nat
  partner : Option Nat
deriving DecidableEq, Repr

/-- A half's forwarding tables and its pipelines' queues (R264-R325). -/
structure Fwd where
  /-- Rule entries by table × 65536 + index. -/
  rules : Tbl RuleEnt
  /-- In-flight packets by version. -/
  inflight : Tbl Nat
  /-- The path that owns the staging. -/
  staging : Option Nat
  edges : Tbl Edge
  frags : List FragEnt
  /-- Anti-spoof modes by tree × 65536 + port: 1 MAC, 2 IP, 3 both. -/
  spoof : Tbl Nat
  bds : Tbl BdEnt
  rmacs : Tbl Nat
  /-- Flood groups: destinations as kind × 2^18 + number. -/
  floods : Tbl (List Nat)
  svcs : Tbl SvcEnt
  routes : List Route
  nhs : Tbl NhEnt
  binds : List Binding
  /-- Bridge entries by bucket × 4 + way, and from 4,194,304 by overflow slot. -/
  bridge : Tbl BrEnt
  lrnQ : List LrnEv
  /-- Refresh requests as bridge domain and MAC. -/
  refreshQ : List (Nat × Nat)
  /-- The seen filter by bucket (R318). -/
  seen : Tbl (Nat × Nat)
  /-- The ageing scan's next access, while a round runs, and ticks of overrun not yet counted. -/
  scan : Option Nat
  late : Nat
  /-- Elapsed time of the last ageing tick (R313). -/
  tickAt : Nat
  /-- The re-seat sweep's next slot. -/
  reseat : Nat
  /-- Flush walks, oldest first (R317). -/
  flush : List FlushWalk
  /-- Heads waiting for the pipelines, oldest first, downstream and upstream. -/
  downHeads : List Head
  upHeads : List Head
  /-- Recirculated heads by pipeline, oldest first. -/
  recirc : Tbl (List Pkt)
  /-- Heads that the host injected, by pipeline, oldest first (R29, R482). -/
  injected : Tbl (List Head)
  /-- Slots of a pipeline that waiting line heads still have before a rationed head may again go ahead of them (R29). -/
  turns : Tbl Nat
deriving DecidableEq, Repr

def Fwd.empty : Fwd :=
  ⟨[], [], none, [], [], [], [], [], [], [], [], [], [], [], [], [], [], none, 0, 0, 0, [], [], [], [], [], []⟩

/-- A host's change of the tables that waits for its time on the maintenance ports of halves (R35, R279): the command to be answered
(none: a register access), the halves, what was asked, and for a write of RUL_ENT_WR the table, the index and the entry as they stood
staged then (R276). -/
structure TableWait where
  caller : Option Caller
  halves : List Nat
  cmd : Instr
  entry : Option (Nat × Nat × RuleEnt) := none
deriving DecidableEq, Repr

/-- A frame on its way to a queue with what its pass decided (R275, R341, R345): class, colour, editor program, next
hop and the half it was decided in; a copy's group (R333); its learning key over the bridge (R318). -/
structure Meta where
  head : Head
  cls : Nat
  colour : Nat
  prog : Nat
  nh : Option (Nat × Nat)
  group : Option Nat
  learn : Option LrnEv
deriving DecidableEq, Repr

/-- A frame held in a queue: its cells, and whether it is cut through (R339). -/
structure QFrame where
  item : Meta
  cells : Nat
  cut : Bool
deriving DecidableEq, Repr

/-- A queue (R330-R338, R355): frames oldest first; the cells of its head segment, its pages in HBM (stack × 2^22 +
page, live cells) oldest first, its tail buffer, and whether a full tail page is held back (R335); drops per colour; the
stack of its next page; whether a read held back has been counted (R336); the full pages held back that have been counted, and whether for
want of a free page (R335). -/
structure QueueSt where
  attached : Bool
  frames : List QFrame
  headCells : Nat
  pages : List (Nat × Nat)
  tail : Nat
  deep : Bool
  drops : Nat × Nat × Nat
  stack : Nat
  holding : Bool
  stalled : Bool
  heldPages : Nat
  noPage : Bool
deriving DecidableEq, Repr

def QueueSt.empty : QueueSt := ⟨false, [], 0, [], 0, false, (0, 0, 0), 0, false, false, 0, false⟩

/-- A bucket's balance in 2^-16 bytes, what of its refill is below that, and the elapsed time of its last refill
(R365, R373). -/
structure Bucket where
  bal : Int
  rem : Nat
  last : Nat
deriving DecidableEq, Repr

/-- A node's or queue's scheduling state (R361-R365): virtual times by band; whether it has work in its parent's eyes, and the parent that
its tag was set under; its finish tag, that of its last release, the band in force; its buckets once it has been enabled. Tags and virtual times
are kept without their wrap, so that the last sentence of R362 can be judged; they are compared modulo 2^32. -/
structure NodeSt where
  vt : Tbl Nat
  active : Bool
  parent : Nat
  tag : Nat
  last : Nat
  band : Nat
  buckets : Option (Bucket × Bucket)
  memErr : Bool
deriving DecidableEq, Repr

def NodeSt.empty : NodeSt := ⟨[], false, 0, 0, 0, 0, none, false⟩

/-- A policer (R373, R374): its two balances, and packets and bytes by colour. -/
structure PolSt where
  c : Bucket
  e : Bucket
  counts : Tbl Nat
  /-- The policer acts as invalid until rewritten (R376). -/
  memErr : Bool := false
deriving DecidableEq, Repr

/-- A gate list in force or armed (R385, R394): its start S, cycle, and entries (interval, mask). -/
structure GateList where
  start : Nat
  cycle : Nat
  entries : List (Nat × Nat)
deriving DecidableEq, Repr

/-- A frame handed over to a channel's TC (R389): its instant, ONU, XGEM port and the port's kind (R345); whether the host sends it
(R412); its queue's gate and its transmission time in ns (R393). -/
structure ToTc where
  at_ : Nat
  onu : Nat
  port : Nat
  kind : Nat
  frame : Frame
  host : Bool
  gate : Nat
  tx : Nat
deriving DecidableEq, Repr

/-- A half's cell store, deep store, schedulers and gates (R326-R406). -/
structure Store where
  /-- Queues by their QSEL number. -/
  queues : Tbl QueueSt
  /-- Heads on their way over the bridge to this half, oldest first: their queues' numbers and the frame. -/
  bridge : List (List Nat × Meta)
  /-- Flood copies waiting (R333). -/
  repl : List (Nat × Meta)
  nextGroup : Nat
  flushes : List (Nat × Caller)
  /-- Nodes by their NDSEL number, queues at 2^29 + their QSEL number. -/
  nodes : Tbl NodeSt
  policers : Tbl PolSt
  /-- Remark tables: table × 64 + class × 4 + colour to DSCP, PCP with DEI, TC (R344). -/
  remark : Tbl (Nat × Nat × Nat)
  /-- Editor programs (R341). -/
  progs : Tbl (List Word)
  /-- Gate lists in force and armed, by controller (R387). -/
  gates : Tbl GateList
  /-- The buffer that is not the staging one, by controller: entry and field to the word where it is not the reset word. -/
  spare : Tbl (List (Nat × Word))
  armed : Tbl GateList
  /-- End of the frames released earlier on a port (R66). -/
  portFree : Tbl Nat
  /-- Deep pages retired from the free list (R552), as stack × 2^22 + page. -/
  retired : List Nat
  /-- Frames released while their bodies still arrive, with the egress as a controller (R339, R340). -/
  cutOut : List (Nat × Nat)
  /-- Frames of the half's own pipelines that wait for an admission, in the order of their pipelines: pipeline, queue, frame (R331). -/
  own : List (Nat × Nat × Meta)
  /-- The elapsed time of the last admission and how many fell in it, and that of the last cells freed and how many those were (R331). -/
  decided : Nat × Nat
  freed : Nat × Nat
deriving DecidableEq, Repr

def Store.empty : Store := ⟨[], [], [], 0, [], [], [], [], [], [], [], [], [], [], [], [], (0, 0), (0, 0)⟩

/-- A MACsec SA (R413-R415): suite (0 GCM-AES-128, 1 GCM-AES-256, 2 and 3 their XPN forms), the SAK's handle, the next
packet number to send or one past the highest accepted, salt and SSCI, the replay window of a receive SA, whether
EV_MSC_PN_THR has been raised, and its SCI. -/
structure MscSa where
  suite : Nat
  handle : Nat
  pn : Nat
  salt : Nat
  ssci : Nat
  window : Nat
  told : Bool
  sci : Nat
deriving DecidableEq, Repr

/-- A frame whose end is to come, as deciphered (R99, R414): its receive SA and packet number where it is secured, whether its last byte is
to come, its ICV where it came round a loopback (R108), and whether it was refused at its head. -/
structure Verdict where
  frame : Frame
  sa : Option (Nat × Nat)
  coming : Bool
  icv : Option Nat
  refused : Bool
deriving DecidableEq, Repr

/-- A port's SecY beyond its registers (R413): transmit SAs by AN, receive SAs by SCI × 4 + AN; its transmit SAs have
been zeroized (R426); frames whose end or ICV verdict is to come, oldest first. -/
structure SecY where
  tx : Tbl MscSa
  rx : Tbl MscSa
  txZero : Bool
  verdicts : List Verdict
deriving DecidableEq, Repr

/-- A key delivery under way (R418): whom it answers with which words, what it installs by handle, and the half. -/
structure Delivery where
  caller : Caller
  half : Nat
  keys : Tbl VKey
  words : List Word
deriving DecidableEq, Repr

/-- The direction of a look-aside job: encryption or generation, decryption or verification. -/
structure Job where
  caller : Caller
  half : Nat
  mode : Nat
  back : Bool
  handle : Nat
  bank : Nat
  inOff : Nat
  inLen : Nat
  outOff : Nat
  aadOff : Nat
  aadLen : Nat
  iv : List Word
  tag : List Word
deriving DecidableEq, Repr

/-- Roles, key-loading keys, deliveries, jobs and self-tests (R416-R432). -/
structure Cipher where
  /-- A nonce issued by KEY.AUTH and not yet answered, by path. -/
  nonces : Tbl Nat
  /-- Paths that hold the Crypto Officer role. -/
  roles : Tbl Unit
  klks : Tbl Nat
  /-- Paths whose KLK has been zeroized, and ONUs whose key-encryption key has. -/
  klkErased : Tbl Unit
  kekErased : Tbl Unit
  /-- Deliveries under way, oldest first. -/
  deliveries : List Delivery
  /-- Jobs pending, oldest first. -/
  jobs : List Job
  /-- Self-tests under way: die and caller. -/
  tests : List (Nat × Caller)
  /-- Handles whose keys have been zeroized. -/
  erased : Tbl Unit
  /-- Broadcast slot in force of a tree (0 none), and a switch announced: its count and slot. -/
  bcast : Tbl (Nat × Option (Nat × Nat))
  /-- Clusters held out of service (R428), as die × 2 + cluster. -/
  outOfService : List Nat
  /-- The working copy of the identity private key, once derived (R560). -/
  identity : Option Nat
  /-- Next segment sequence number (R408), by (die × 2 + cluster) × 256 + egress port or channel; 255 look-aside jobs. -/
  segSeq : Tbl Nat
  /-- The core that took a cluster's last segment, by die × 2 + cluster. -/
  lastCore : Tbl Nat
deriving DecidableEq, Repr

/-- What a record of a reliable tandem stream carries (R445, R453). -/
inductive TndBody where
  /-- Device number, stepping, strap, identity certificate, ephemeral public key and the identity key's signature over it (R441). -/
  | pair (devnum stepping : Nat) (senior : Bool) (cert pub sig : List Word)
  /-- An item of a tree's configuration or state, in force from a superframe count. -/
  | mirror (tree effective : Nat) (item : MirrorItem)
  /-- A decoded report of an Alloc record: key, bytes, short-form arrival. -/
  | report (rec_ bytes at_ : Nat)
  /-- A snapshot's reports and mirror records. -/
  | cut (tree frame reports mirrors : Nat)
  /-- A key of a kind (as `TndRecord` numbers them) and owner in its slot, wrapped by KW under the pair key, with the count of an announced
  switch to it (R430, R453). -/
  | key (kind owner slot wrapped : Nat) (switch : Option Nat)
  | yield_
  /-- 0 the sender gives up for a drill, 1 it takes the trees back, 2 it cannot keep them, 3 its figures. -/
  | drill (phase : Nat) (figures : List Nat)
deriving DecidableEq, Repr

/-- A reliable record not yet acknowledged (R445): stream, seq, body, times sent, elapsed time of the last sending. -/
structure TndSent where
  stream : Nat
  seq : Nat
  body : TndBody
  sendings : Nat
  sentAt : Nat
deriving DecidableEq, Repr

/-- A protected tree, or one that is to be protected (R442, R453-R455, R461). -/
structure TndTree where
  /-- Named by TANDEM.TREE_PROTECT here, and on the peer. -/
  want : Bool
  peerWant : Bool
  /-- The peer's configuration of R442, as its mirror records told it. -/
  peerCfg : Option (List Word)
  /-- The owner has begun to send the whole state, and the next cut record marks the start of lockstep (R454). -/
  resyncing : Bool
  /-- The frame of the cut record from which this device computes in lockstep. -/
  startAt : Option Nat
  /-- Whom TANDEM.RESYNC answers. -/
  resync : Option Caller
  /-- Report records (Alloc record, bytes, short-form arrival) and mirror records (effective count) not yet in a snapshot,
  oldest first. -/
  reports : List (Nat × Nat × Nat)
  mirrors : List (Nat × MirrorItem)
  /-- The cut record that waits for what it counts, with what earlier ones counted: frame, reports, mirror records. -/
  cut : Option (Nat × Nat × Nat)
  /-- The last frame whose snapshot a cut record gave. -/
  doneCut : Option Nat
  /-- Report and mirror records sent since the last cut record. -/
  sentReports : Nat
  sentMirrors : Nat
  /-- What the peer has been told of the tree's state, instants as absolute times (R453). -/
  told : List MirrorItem
  /-- Since the last takeover (R461): ONUs lost, bursts missed, largest |r| in ns. -/
  lostOnus : Nat
  missed : Nat
  maxR : Nat
deriving DecidableEq, Repr

def TndTree.empty : TndTree := ⟨false, false, none, false, none, none, [], [], none, none, 0, 0, [], 0, 0, 0⟩

/-- A channel's comparison (R456-R458): the digests by frame of this device and of the peer, with self-check failures;
mismatching frames in the run, and whether each self-check failed in it; the run has been judged; reports decoded in the
frame, and expected bursts lost in it; whether a cause of R457 arose in it. -/
structure TndChan where
  mine : Option (Nat × Nat × Bool)
  peer : Option (Nat × Nat × Bool)
  mis : Nat
  selfBad : Bool
  peerBad : Bool
  judged : Bool
  reports : List (Nat × Nat)
  lost : Nat
  cause : Bool
deriving DecidableEq, Repr

def TndChan.empty : TndChan := ⟨none, none, 0, false, false, false, [], 0, false⟩

/-- A drill (R461): whom it answers, its dwell in frames, the phase (0 yielding, 1 dwelling, 2 taking back). -/
structure Drill where
  caller : Caller
  dwell : Nat
  phase : Nat
  /-- Elapsed time at which the peer took the halter and the dwell began. -/
  since : Nat
  /-- The peer's figures, once its drill record tells them. -/
  peer : List Nat
deriving DecidableEq, Repr

/-- The tandem pair beyond its registers (R440-R467). -/
structure Tandem where
  pairKey : Option Nat
  /-- The ephemeral private key of this device's pair record (R441). -/
  ephemeral : Option Nat
  /-- Next sequence number to send, and next expected, by stream. -/
  txSeq : Tbl Nat
  rxSeq : Tbl Nat
  unacked : List TndSent
  /-- Records received ahead of a gap, by stream × 2^28 + seq. -/
  ahead : Tbl TndRecord
  /-- Frame sequence numbers last sent and seen, by lane. -/
  frames : Tbl Nat
  /-- Elapsed time of the last heartbeat received. -/
  lastBeat : Nat
  trees : Tbl TndTree
  chans : Tbl TndChan
  /-- Elapsed times at which HLT_PEER_N last went high, at which HLT_OWN_N was last driven low or ownership given up (R450, R452), and at
  which the last heartbeat was sent. -/
  peerAt : Nat
  haltAt : Nat
  beatAt : Nat
  /-- Whom TANDEM.TAKE answers. -/
  take : Option Caller
  drill : Option Drill
  /-- u of R455 by ONU, in ns. -/
  u : Tbl Int
  /-- Round trips of ranging bursts as the standby measured them, in 1/16 ns, by ONU, until its EqD is mirrored (R455). -/
  ranged : Tbl Int
  /-- ONUs accepted at either offset (R459): the superframe count that ends it, once the message has gone out, and the old offset in
  ns. -/
  accept : Tbl (Option Nat × Int)
  /-- Protected trees not yet lit since a takeover: elapsed time from which a frame start lights them. -/
  lightAt : Tbl Nat
  /-- End of the first 8 frames after a takeover in elapsed time (R461), and the trees not ready at it (R460). -/
  figUntil : Nat
  unready : Tbl Unit
deriving DecidableEq, Repr

/-- What a sequencer works on (R530): a command with its parameter words, an event, or a PLOAM, burst or lane item. -/
inductive SeqItem where
  | command (c : Caller) (params : List Word)
  | event (src : Nat)
  | other (n : Nat)
deriving DecidableEq, Repr

/-- An item of an activation or link sequencer's work (R525, R530) that waits for it: a burst of an SN or a ranging window, a registration
or key message of an ONU, a lane's stage, a tandem record. -/
inductive SeqReport where
  | snResponse (chan serial roundTrip frame : Nat)
  | rangingBurst (onu : Nat) (rt : Int)
  | registration (onu : Nat) (regId : List Word)
  | keyReply (onu : Nat) (wrapped : List Word) (fits : Bool)
  | laneStage (family lane peer dev : Nat)
  | record (r : TndRx)
deriving DecidableEq, Repr

/-- A wait (R531): condition, argument, the elapsed time of its timeout; the superframe count in force when it was entered, where a
launched tree's next frame is awaited; and whether the cutoff or PLOAM it awaits has come since. -/
structure SeqWait where
  cond : Nat
  arg : Word
  until_ : Nat
  mark : Nat
  seen : Bool
deriving DecidableEq, Repr

/-- A pattern's context (R526, R532): work registers w1-w15, flags, return stack, stitch address, its item, reply words. -/
structure SeqCtx where
  w : Tbl Word
  z : Bool
  c : Bool
  n : Bool
  t : Bool
  stack : List Nat
  addr : Nat
  item : Option SeqItem
  reply : Tbl Word
  accepted : Bool
deriving DecidableEq, Repr

def SeqCtx.empty : SeqCtx := ⟨[], false, false, false, false, [], 0, none, [], false⟩

/-- A parked context: its wait, and how it ended (true: by timeout). -/
structure Parked where
  ctx : SeqCtx
  wait : SeqWait
  woken : Option Bool
deriving DecidableEq, Repr

/-- A sequencer (R526, R530-R536): the context in execution, a wait that holds it, parked contexts oldest first, its
mailbox, work waiting, a hand-over order, reports waiting. -/
structure SeqSt where
  ctx : SeqCtx
  wait : Option SeqWait
  parked : List Parked
  mailbox : List Word
  work : List SeqItem
  order : Bool
  reports : List SeqReport
deriving DecidableEq, Repr

def SeqSt.empty : SeqSt := ⟨SeqCtx.empty, none, [], [], [], false, []⟩

/-- A hand-over under way (R546): die, bank (64 + s an HBM segment), new owner, whether it clears, whom it answers. -/
structure Handover where
  die : Nat
  bank : Nat
  owner : Nat
  clear : Bool
  caller : Option Caller
deriving DecidableEq, Repr

/-- A DMA transfer under way (R555): toward host memory or from it, bank, device offset, host address, length in bytes. -/
structure DmaXfer where
  caller : Caller
  die : Nat
  toHost : Bool
  bank : Nat
  offset : Nat
  host : Nat
  len : Nat
  /-- Resource time it has had (R30). -/
  served : Nat
deriving DecidableEq, Repr

/-- Scratchpads and HBM beyond their owner registers (R541-R558). -/
structure Pads where
  /-- The words of the banks: (die × 256 + bank) × 2^26 + word, HBM segment s being bank 64 + s; unlisted: zero. -/
  words : Tbl Word
  /-- 32-byte words with an uncorrectable error (R547), by word key ÷ 8. -/
  broken : Tbl Unit
  handovers : List Handover
  /-- Transfers, oldest first. -/
  dmas : List DmaXfer
deriving DecidableEq, Repr

/-- A darn in force or staged (R533, R534, R567): its level, rollback index, digest, and its slots by sequencer kind × 64 +
slot: enable, address, stitch. -/
structure Darn where
  level : Nat
  rb : Nat
  digest : Nat
  slots : Tbl (Bool × Nat × Word)
  counts : Nat × Nat × Nat
deriving DecidableEq, Repr

/-- Darns and fusing beyond their registers (R533, R534, R565-R568). -/
structure Trust where
  darn : Option Darn
  /-- The staged slots (R533, R534). -/
  staged : Option Darn
  /-- A checked image that waits for the swap, whom it answers, when it was accepted in elapsed time, and the bank of C0 that holds it. -/
  pending : Option (Darn × Caller × Nat × Nat)
  /-- TAMPER_N has been high since this elapsed time (R566). -/
  tamperHigh : Nat
  /-- A package zeroization has happened since cast-on (R569). -/
  packageZero : Bool
deriving DecidableEq, Repr

/-- A PM bin (R588, R592): its start in TAI seconds, parameters, suspect reasons, parameters already alerted. -/
structure PmBin where
  start : Nat
  params : Tbl Nat
  suspect : Nat
  told : Tbl Unit
deriving DecidableEq, Repr

/-- A second classified and not yet committed (R586, R587): its start, severely errored, errored, blocks. -/
structure PmSec where
  start : Nat
  ses : Bool
  es : Bool
  blocks : Nat
  bad : Nat
deriving DecidableEq, Repr

/-- A PM entity (R585-R590): the die that keeps it (a line die; a core die for an uplink port), bins newest first (at most 97 and 2), seconds not yet committed oldest first, the
availability state, and the second in force: blocks, errored blocks, whether a defect has held in it. -/
structure PmEnt where
  die : Nat
  enabled : Bool
  quarters : List PmBin
  days : List PmBin
  secs : List PmSec
  unavailable : Bool
  blocks : Nat
  bad : Nat
  defect : Bool
deriving DecidableEq, Repr

/-- An entry of a TCA list (R594): kind × 65536 + index, parameter, whether the bin is a 24-hour one, bin start, instant. -/
structure PmTca where
  ent : Nat
  param : Nat
  day : Bool
  bin : Nat
  at_ : Nat
deriving DecidableEq, Repr

/-- A die's second in force (R586, R593): the elapsed time and TAI second at which it began, the TAI second whose boundary ends it,
and whether a backward step has come in it. -/
structure PmNow where
  since : Nat
  start : Nat
  next : Nat
  stepped : Bool
deriving DecidableEq, Repr

/-- Performance monitoring (R585-R595). -/
structure Pm where
  /-- Entities by kind × 65536 + index. -/
  ents : Tbl PmEnt
  /-- Thresholds by (kind × 32 + parameter) × 2 + bin length. -/
  thresholds : Tbl Nat
  /-- TCA lists by half, oldest first. -/
  tcas : Tbl (List PmTca)
  /-- Dies that have raised a TCA event in this second. -/
  tcaTold : Tbl Unit
  /-- The dies' seconds in force. -/
  began : Tbl PmNow
deriving DecidableEq, Repr

/-- A snapshot (R598, R599): its sequence number and instant, the counters, gauge counters and slot accounts as latched,
and the latency histograms. -/
structure Snapshot where
  seq : Nat
  at_ : Nat
  ctrs : Tbl Nat
  gauges : Tbl Nat
  slots : Tbl Nat
  hists : Tbl Nat
deriving DecidableEq, Repr

/-- The gauge collector beyond its registers (R596-R602). -/
structure Gauge where
  /-- What a gauge counter had counted when its input was chosen, and where that input then stood, by GGC_UNIT word × 8 + k:
  its count is the first plus what the input has moved since. Unbounded; wraps and chained pairs are read from it. -/
  counts : Tbl Nat
  bases : Tbl Nat
  /-- Frames and bytes that a unit has carried, by GGC_UNIT word. -/
  carried : Tbl (Nat × Nat)
  /-- Pipeline slots by (half × 16 + pipeline) × 8 + account (1 stretched, 2 carried, 3 repeated, 4 and 5 held). -/
  slots : Tbl Nat
  /-- Latency histograms by (egress as half × 128 + controller) × 16 + bin, modulo 2^32. -/
  hists : Tbl Nat
  /-- A single snapshot scheduled: whom it answers and its instant; the periodic one: period in ms and next instant. -/
  single : Option (Caller × Nat)
  periodic : Option (Nat × Nat)
  /-- The snapshot latched and being written: whom it answers, and the buffer of each die. -/
  latched : Option (Snapshot × Option Caller × Tbl Nat)
  last : Option Snapshot
  /-- The buffer that holds the last completed snapshot, by die. -/
  bufs : Tbl Nat
  /-- Banks that a snapshot was written to: die × 256 + bank. -/
  images : Tbl Snapshot
  /-- What the selected gauge counters held at the end of the last clock cycle, and the elapsed time since which the present one runs (R8). -/
  marks : Tbl Nat
  markAt : Nat
  /-- Resource time that the snapshot being written has had, by ration: die × 64 + index (R30, R599). -/
  written : Tbl Nat
deriving DecidableEq, Repr

/-- Why a spare is brought in (R617, R618): by command, whom it answers; by itself. The unit is named by kind, die and
number. -/
structure BringIn where
  kind : Nat
  die : Nat
  unit : Nat
  caller : Option Caller
  /-- When it began in elapsed time, and the HBM command time that its copy has had (R30). -/
  since : Nat
  served : Nat
deriving DecidableEq, Repr

/-- Power, tension and the remuda beyond their registers (R608-R622), and cast-on (R573-R584). -/
structure Power where
  /-- Domain switches under way: domain, on or off, whom they answer. -/
  switches : List (Nat × Bool × Caller)
  bringIns : List BringIn
  /-- The policy of PCS units until a command sets kind 8's (R618). -/
  pcsPolicy : Nat
  /-- Units out of service, as kind × 2^24 + die × 2^16 + unit. -/
  failed : Tbl Unit
  /-- Units whose work a spare has taken. -/
  replaced : Tbl Unit
  /-- Tension episodes under way by region: elapsed time of the first stretch, whether EV_TNS_LONG was raised. -/
  episodes : Tbl (Nat × Bool)
  /-- Time a region's clock has lost up to the last change of its stretch, in 2^-32 ns, and the elapsed time of that change. -/
  lost : Tbl Nat
  stretchAt : Tbl Nat
  /-- Elapsed time at which a region's droop began. -/
  droop : Tbl Nat
  /-- Elapsed time from which a region's next release step counts. -/
  calm : Tbl Nat
  /-- The last slowdown measured by region, in ppm, and the elapsed day of the last EV_RMD_WEAR. -/
  wear : Tbl Nat
  wearTold : Tbl Nat
  /-- Temperature levels a sensor stands above, by region (1 warning, 2 maximum). -/
  heat : Tbl Nat
  /-- SRAM repair entries fused. -/
  repairs : Nat
  /-- Cast-on has ended FIRMWARE (R577). -/
  firmwareUp : Bool
  /-- A SYS.RESET kind 0 waits for its 1 ms: the elapsed time of its end. -/
  resetDue : Option Nat
  /-- OPT_TXEN was deasserted by a short pulse: elapsed time from which a frame start may light again (R575). -/
  lightFrom : Nat
  /-- Correctable HBM errors by row in this patrol round, rows and pseudo-channels marked (R552). -/
  hbmRows : Tbl Nat
  hbmMarked : Tbl Unit
deriving DecidableEq, Repr

/-- The states of the test port's controller (IEEE 1149.1, R629). -/
inductive TapCtrl where
  | testLogicReset | runTestIdle
  | selectDr | captureDr | shiftDr | exit1Dr | pauseDr | exit2Dr | updateDr
  | selectIr | captureIr | shiftIr | exit1Ir | pauseIr | exit2Ir | updateIr
deriving DecidableEq, Repr

/-- The test port's instructions. -/
inductive TapInstr where
  | bypass | idcode | sample | extest
deriving DecidableEq, Repr

/-- The board test port (R629): controller, instruction in force, the shift stages of the instruction and data registers, and the levels
latched by the boundary register's cells. -/
structure Tap where
  ctrl : TapCtrl
  instr : TapInstr
  ir : List Bool
  dr : List Bool
  latch : List Bool
deriving DecidableEq, Repr

def Tap.reset : Tap := ⟨.testLogicReset, .idcode, [], [], []⟩

/-- What the block has sent or driven outward, as it happened. Log entry 5. -/
inductive Out where
  | msix (vector : Nat)
  | ibi (data : Nat) (group : Nat)
  | mailboxRead (r : Option Reply)
  | i3cRead (w : Word)
  /-- The provisional ID sent as the controller assigns the dynamic address (R483). -/
  | i3cId (id : Nat)
  /-- The value a register read returned (R503, R506). -/
  | regRead (path : APath) (w : Word)
  /-- A pulse of a pin: its active level, when its leading edge leaves the ball, and its width in ns (0.2 ns steps for
  BRX_RST_N and RSSI_TRG). -/
  | pulse (p : Pin) (inst : Nat) (level : Nat) (time : Nat) (width : Nat)
  /-- A frame begun by a channel's TC: superframe count, map, PLOAM partition with each message's MIC, and whether it lights. -/
  | frame (chan count : Nat) (map : List AllocStruct) (ploams : List (Ploam × Nat)) (lit : Bool)
  /-- An XGEM frame in the payload of a channel's frame: its fields, its header word (R117), its payload as enciphered (none:
  clear or idle), and the MIC that the encrypt cluster filled in at the end of a management SDU (R412). -/
  | xgem (chan count : Nat) (x : Xgem) (header : Nat) (sealed mic : Option Nat)
  /-- A member container sent downstream (R248, R250, R255): tributary, channel, superframe count, its 4 header bytes as a number, the
  bytes of its data area, the client bits in it, and how many of those are all-ones in place of missing data. -/
  | container (trib chan count header area data ones : Nat)
  /-- A pseudowire packet (R252-R254): tributary, sequence number, L, R, short-form stamp, data length in bytes, how many of its bits are
  such all-ones. -/
  | pseudowire (trib seq : Nat) (l r : Bool) (stamp len ones : Nat)
  /-- A frame that left on an uplink port; under MACsec as enciphered, with its packet number and ICV (R410, R413). -/
  | uplink (port : Nat) (frame : Frame) (pn : Option (Nat × Nat))
  /-- A cut-through frame whose body turned out bad ended with its FCS inverted (R340): the half, the egress as a controller, the frame. -/
  | fcsInverted (half egress name : Nat)
  /-- A tandem record sent: stream, sequence number, body. -/
  | tandem (stream seq : Nat) (body : TndBody)
  | tandemAck (stream seq : Nat)
  | heartbeat (halter : Nat) (ready : List Nat)
  | digest (chan frame value : Nat) (selfBad : Bool)
  /-- Words a DMA transfer wrote to host memory, from a host address on. -/
  | dma (host : Nat) (words : List Word)
deriving DecidableEq, Repr

/-- Why the machine stops with a fault. No meaning of this model raises one: the spec has the block go on in every
case it describes. -/
inductive Fault where
  /-- Raised by nobody: there is no addressed memory a command can miss. Safe. -/
  | none_
deriving DecidableEq, Repr

/-- Why a command has no effect in this model. -/
inductive Refusal where
  /-- Raised by the dispatch alone, for a command not modelled: safe (the machine stops where the part goes on). -/
  | notModelled (mnemonic : String)
deriving DecidableEq, Repr

/-- The state of the block. -/
structure State where
  /-- The commands that wait, first in, first out. -/
  pending : List Instr
  /-- The register file: instance × 1024 + the register's number to its word; unlisted: the reset word. -/
  regs : Tbl Word
  /-- Bits the device has set in a register, with the elapsed time of that: they stand against a clear in the same cycle (R8). -/
  latches : Tbl (Nat × Word)
  /-- The named counters, kept without their wrap (R596): instance × 1024 + the counter's number; unlisted: 0. -/
  ctrs : Tbl Nat
  /-- The pins' levels: instance × 64 + the pin's number; unlisted: the level R631 gives at reset. -/
  pins : Tbl Nat
  /-- The time in force: units of 2^-32 ns since the TAI epoch, modulo 2^48 s (R42). -/
  now : Nat
  /-- How many free values have been drawn. The model's own field (log entry 1). -/
  freeCtr : Nat
  /-- What the block has sent, newest first. The model's own field (log entry 5). -/
  out : List Out
  /-- Records a die has queued for the event ring (R517), by die. -/
  evQueue : Tbl (List EvRec)
  /-- The event ring, oldest first, at most 4,096 records (R517). -/
  evRing : List EvRec
  /-- The frame in which a cause was last raised, of the events raised at most once a frame: a channel's superframe count where
  the event is a channel's, else the elapsed time at which the ration period opened (log entry 9). -/
  once : Tbl Nat
  /-- Tags in flight (R474): path × 65536 + tag. -/
  flights : Tbl Flight
  laosh : Laosh
  win : Windows
  rtn : Rations
  /-- UCIe links that are down (R16). -/
  ucieDown : List Nat
  tb : Timebase
  lanes : Lanes
  /-- The channels' TCs, by channel. -/
  chans : Tbl ChanSt
  /-- The trees' grids, by tree. -/
  trees : Tbl TreeSt
  /-- ONUs joined to a skein, by ONU index. -/
  skeinOnus : Tbl SkeinOnu
  /-- SDUs delivered in a skein's order that wait for SKEW to read them back, or behind one that does, oldest first: ONU, skein, SDU
  (R35, R258). -/
  skewOut : List (Nat × Nat × SkeinHeld)
  /-- Skein members that are down (R246), by skein × 4 + wavelength. -/
  memberDown : Tbl Unit
  /-- Timebase time elapsed since cast-on, which no step or set moves (R57, R216), in 2^-32 ns. -/
  elapsed : Nat
  pon : Pon
  /-- The key vaults by handle; bit 31 of a handle is the half (R416). -/
  vault : Tbl VKey
  tribs : Tbl Trib
  /-- The half's tables and pipelines, by half. -/
  fwd : Tbl Fwd
  /-- Table writes that wait for the maintenance ports, oldest first (R35). -/
  tableWaits : List TableWait
  /-- The half's stores and schedulers, by half. -/
  store : Tbl Store
  /-- Frames between release and the TC input buffer, by channel, oldest first. -/
  toTc : Tbl (List ToTc)
  /-- Egresses that were down or stopped since the scheduler last looked, as controllers name them (R362, R401). -/
  idled : Tbl Unit
  /-- The uplink ports' SecYs, by port. -/
  secys : Tbl SecY
  cipher : Cipher
  tandem : Tandem
  /-- Sequencers by die × 3 + index. -/
  seqs : Tbl SeqSt
  /-- Firmware-routed events that wait for the command sequencers of C0 (R516). -/
  fwEvents : List Nat
  /-- Commands each core die's sequencers have taken (R525). -/
  seqTurn : Tbl Nat
  pads : Pads
  trust : Trust
  pm : Pm
  gauge : Gauge
  power : Power
  tap : Tap
deriving DecidableEq, Repr

/-- The machine right after reset: every register at its reset word, every queue and table empty. -/
def State.reset : State where
  pending := []
  regs := []
  latches := []
  ctrs := []
  pins := []
  now := 0
  freeCtr := 0
  out := []
  evQueue := []
  evRing := []
  once := []
  flights := []
  laosh := ⟨[], [], [], [], [], false, none, none, true, [], none, 0, 0, [], [], [], false, 0, []⟩
  win := ⟨[], [], [], [], [], []⟩
  rtn := { inForce := [], start := 0, next := 125000 * 2 ^ 32, opened := 0, stepped := false, meter := [], borrowed := 0 }
  ucieDown := []
  tb := { frac := 0x9999999A, pendingAction := none, slew := none, wdogFired := false, wdogFrom := 0, cycle := 0, jumpedAt := none, replicas := [], syncAt := [],
          captures := [], lastEdge := [], nextEdge := [], ppsNext := 1000000000 * 2 ^ 32, ptpPorts := [], stamps := [] }
  lanes := ⟨[], [], [], [], [], [], [], [], [], [], [], [], [], [], [], 1, 1, 0, 0⟩
  chans := []
  trees := []
  skeinOnus := []
  skewOut := []
  memberDown := []
  elapsed := 0
  pon := ⟨[], [], [], [], [], [], ⟨[], 0, [], []⟩, [], [], [], [], [], [], [], [], [], [], [], []⟩
  vault := []
  tribs := []
  fwd := []
  tableWaits := []
  store := []
  toTc := []
  idled := []
  secys := []
  cipher := ⟨[], [], [], [], [], [], [], [], [], [], [], none, [], []⟩
  tandem := ⟨none, none, [], [], [], [], [], 0, [], [], 0, 0, 0, none, none, [], [], [], [], 0, []⟩
  seqs := []
  fwEvents := []
  seqTurn := []
  pads := ⟨[], [], [], []⟩
  trust := ⟨none, none, none, 0, false⟩
  pm := ⟨[], [], [], [], []⟩
  gauge := ⟨[], [], [], [], [], none, none, none, none, [], [], [], 0, []⟩
  power := ⟨[], [], 0, [], [], [], [], [], [], [], [], [], [], 0, false, none, 0, [], []⟩
  tap := Tap.reset

end Sys2Proof.Machine
end

