-- ==== Sys2Proof/Machine/Access.lean ====
section
/-!
DEFINITION. The operations that every other rests on: numbering, time, the register file, counters, free values, pins, what is sent,
events (R514-R519), PM anomalies and what the gauge measures.
-/

namespace Sys2Proof.Machine

/-! ### Numbering (R11) -/

def halfOfTree (t : Nat) : Nat := t / 16
def treeOfChan (c : Nat) : Nat := c / 4
def dieOfChan (c : Nat) : Nat := 2 + c / 32
def dieOfTree (t : Nat) : Nat := 2 + t / 8
def halfOfChan (c : Nat) : Nat := c / 64
def halfOfLane (l : Nat) : Nat := l / 32
def dieOfLane (l : Nat) : Nat := 6 + l / 32
def dieOfTLane (l : Nat) : Nat := 6 + l / 4
/-- The channels of a tree, by wavelength. -/
def chansOfTree (t : Nat) : List Nat := [4 * t, 4 * t + 1, 4 * t + 2, 4 * t + 3]

def pathCode : Path → Nat
  | .pcie => 0
  | .i3c => 1
  | .inband => 2

/-- The number of a path's own copy of the selects and staging registers (R509); 2 is the in-band path's, which has
no register access. -/
def apathCode : APath → Nat
  | .pcie => 0
  | .i3c => 1
  | .seq n => 3 + n.toNat

/-! ### Time (R42): seconds, nanoseconds and fraction of the time in force -/

def nsUnit : Nat := 2 ^ 32
def secUnit : Nat := 1000000000 * 2 ^ 32
def timeMod : Nat := 2 ^ 48 * (1000000000 * 2 ^ 32)
def secOf (t : Nat) : Nat := t / secUnit
def nsOf (t : Nat) : Nat := t / nsUnit % 1000000000
def fracOf (t : Nat) : Nat := t % nsUnit
/-- The time of whole seconds and nanoseconds. -/
def mkTime (sec ns : Nat) : Nat := sec * secUnit + ns * nsUnit
/-- The short form of a time: nanoseconds modulo 2^32 (R52). -/
def shortOf (t : Nat) : Nat := t / nsUnit % 2 ^ 32
/-- A span in nanoseconds and in microseconds. -/
def nsSpan (n : Nat) : Nat := n * nsUnit
def usSpan (n : Nat) : Nat := n * 1000 * nsUnit
def msSpan (n : Nat) : Nat := n * 1000000 * nsUnit
/-- The PON frame and the ration period: 125 µs. -/
def frameSpan : Nat := usSpan 125

/-- R51: now − target in nanoseconds, the seconds taken modulo 2^48 as a signed value and saturated at ±2^31 s; the
fraction takes no part. -/
def timeDiff (now target : Nat) : Int :=
  let ds := signedOf 48 ((secOf now + 2 ^ 48 - secOf target % 2 ^ 48) % 2 ^ 48)
  let ds := max (-(2 ^ 31)) (min (2 ^ 31) ds)
  ds * 1000000000 + ((nsOf now : Int) - (nsOf target : Int))

/-- R51: a full-form target is reached. -/
def reached (now target : Nat) : Bool := 0 ≤ timeDiff now target

/-- R52: a short-form target reads as past. -/
def shortReached (now target : Nat) : Bool := 0 ≤ signedOf 32 ((shortOf now + 2 ^ 32 - target % 2 ^ 32) % 2 ^ 32)

/-- A replica's difference from the master in 0.1 ns, and whether its next sync word steps it (R54). -/
def State.replica (s : State) (d : Nat) : Int × Bool := Tbl.getD s.tb.replicas d (0, false)

/-- The time on a die: the master's on C0, a replica's elsewhere (R54, R55). -/
def State.nowOn (s : State) (die : Nat) : Nat :=
  let d := (s.replica die).1
  if die = 0 ∨ d = 0 then s.now else (((s.now : Int) + d * nsUnit / 10) % (timeMod : Int)).toNat

/-! ### The register file -/

/-- Reset budgets and borrowing of the rations, as SYS_RTN_CFG words (R32); none for an index not listed. -/
def rationReset (die index : Nat) : Option Nat :=
  let on := 2 ^ 24
  if die < 2 then
    if index < 9 then some 18000
    else if index < 18 then some (1000 + on)
    else if index = 18 then some (10000 + on)
    else if index = 19 then some 25000
    else if index = 20 then some (20000 + on)
    else if index = 21 then some (2000 + on)
    else if index = 22 then some (4000 + on)
    else if index = 23 then some (10000 + on)
    else if index = 24 ∨ index = 29 then some 112000
    else if index = 25 ∨ index = 30 then some 6000
    else if index = 26 ∨ index = 27 ∨ index = 31 ∨ index = 32 then some (2000 + on)
    else if index = 28 ∨ index = 33 then some (3000 + on)
    else none
  else if die < 6 then
    if index = 0 then some (2000 + on)
    else if index = 1 then some (4000 + on)
    else if index = 2 then some (10000 + on)
    else none
  else if die < 8 then
    if index = 0 ∨ index = 1 then some (2000 + on) else none
  else none

/-- The cast-on word of SP_BANK_OWNERb (R542): owner in [2:0], locked in [29]. -/
def bankReset (die b : Nat) : Nat :=
  if die < 2 then
    if b < 8 then 1 + 2 ^ 29
    else if b < 16 then 1
    else if b < 20 then 2
    else if b < 24 then 3
    else if b < 28 then 4
    else 0
  else if b < 4 then 1
  else if b < 6 then 2
  else if b < 8 then 3
  else if b < 12 then 0
  else 1 + 2 ^ 29

/-- The cast-on owner of an HBM segment (R550). -/
def segmentReset (g : Nat) : Nat :=
  if g < 62 then 0 else if g = 62 then 3 else if g = 63 then 2
  else if g < 126 then 0 else if g = 126 then 3 else 1

/-- Spares of each kind (R617) and its policy at reset (R618), as an RMD_KINDk word. The number of standard UCIe
spares and of HBM row spares is that of their standards: log entry 6. -/
def spareReset (k : Nat) : Nat :=
  let left : Nat := if k = 0 then 2 else if k = 1 then 24 else if k = 2 then 8 else if k = 3 then 255
    else if k = 4 then 8 else if k = 5 then 255 else if k = 6 then 255 else if k = 7 then 8 else if k = 8 then 24 else 0
  let policy : Nat := if k = 1 ∨ k = 3 ∨ k = 4 ∨ k = 5 ∨ k = 7 ∨ k = 8 then 1 else 0
  left * 65536 + policy

/-- The reset word of a register's instance. SYS_ID.part is fused to 0x0128 or 0x0064 (R3) and the spec does not say which: the model's
reset is an ULT-OT128 (DESIGN CHOICE, log entry 7). Registers with no reset value in the spec are zero (DESIGN CHOICE, log entry 87). -/
def regReset (r : Reg) (i : Nat) : Word :=
  match r with
  | .sysId => 0x0128A100
  | .sysRtnCfg => BitVec.ofNat 32 ((rationReset (i / 64) (i % 64)).getD 0)
  | .evtRoute => BitVec.ofNat 32 (2 ^ 28 + i)
  | .sqTmo => BitVec.ofNat 32 (2 ^ (i % 128 + 4))
  | .sqStat =>
    let n := i % 128
    let spare : Nat := if i / 128 < 6 then 2 else 1
    BitVec.ofNat 32 ((if n = spare then 0 else 2 ^ 29) + n * 2 ^ 24)
  | .spBankOwner => BitVec.ofNat 32 (bankReset (i / 128) (i % 128))
  | .hbmSegOwner => BitVec.ofNat 32 (segmentReset (i % 128))
  | .hbmPcMap => BitVec.ofNat 32 (i % 16)
  | .rmdKind => BitVec.ofNat 32 (spareReset i)
  | .secLifecycle => 1
  | .cphCoreStat => if i % 64 < 10 then 1 else 0
  | .mscCoreStat => if i % 64 < 18 then 1 else 0
  | .schNdCfg =>
    let level := i / 2 ^ 25 % 8
    let up := i / 2 ^ 28 % 2
    BitVec.ofNat 32 (if level = 1 then (if up = 1 then 20 else 8) * 65536 + 1 else 1)
  | .tbPinCfg => if i = 32 then 3 else 0
  | .pwrDomStat => if i = 10 then 0x300 else 0
  | _ => BitVec.ofNat 32 (Reg.resetBase r)

def regKey (r : Reg) (i : Nat) : Nat := i * 1024 + r.ctorIdx

/-- A register's word: the one home of every register value. -/
def State.reg (s : State) (r : Reg) (i : Nat) : Word := Tbl.getD s.regs (regKey r i) (regReset r i)

def State.setReg (s : State) (r : Reg) (i : Nat) (v : Word) : State :=
  { s with regs := Tbl.setD s.regs (regKey r i) (regReset r i) v }

/-- The value of a field in a word. -/
def fieldOf (lo w : Nat) (v : Word) : Nat := v.toNat / 2 ^ lo % 2 ^ w

/-- The word with a field replaced by the low bits of a number. -/
def withField (lo w : Nat) (v : Word) (x : Nat) : Word :=
  BitVec.ofNat 32 (v.toNat / 2 ^ (lo + w) * 2 ^ (lo + w) + x % 2 ^ w * 2 ^ lo + v.toNat % 2 ^ lo)

/-- A register field of an instance. -/
def State.fld (s : State) (f : Fld) (i : Nat) : Nat := fieldOf f.lo f.w (s.reg f.reg i)

def State.flag (s : State) (f : Fld) (i : Nat) : Bool := s.fld f i != 0

def State.setFld (s : State) (f : Fld) (i : Nat) (x : Nat) : State :=
  s.setReg f.reg i (withField f.lo f.w (s.reg f.reg i) x)

def State.setFlag (s : State) (f : Fld) (i : Nat) (b : Bool) : State := s.setFld f i b.toNat

/-- Two elapsed times lie in one cycle of the clock of the region that holds a register (R8, R505). A cycle of the clocks of 625 MHz and
faster sees one instant of the 625 MHz clock; the schedulers' clock, which holds a gate controller's GT_LIST_CTL, can be stretched beyond
that (R19, R614). -/
def State.sameCycle (s : State) (r : Reg) (i a b : Nat) : Bool :=
  if r = .gtListCtl then
    let cycle := 2 * nsUnit * (16 + s.fld .tnsStatS (18 * (i / 128) + if i % 128 < 32 then 10 else 9)) / 48
    a = b || a / cycle = b / cycle
  else a = b

/-- The bits of a register that the device has set in this cycle: a clear in the same cycle leaves them set (R8). -/
def State.freshBits (s : State) (r : Reg) (i : Nat) : Word :=
  match s.latches.find (regKey r i) with
  | some (at_, w) => if s.sameCycle r i at_ s.elapsed then w else 0
  | none => 0

/-- The device sets bits of a register that the host clears by writing ones, and they are marked as set in this cycle (R8). -/
def State.latchBits (s : State) (r : Reg) (i : Nat) (bits : Word) : State :=
  { s.setReg r i (s.reg r i ||| bits) with latches := s.latches.put (regKey r i) (s.elapsed, s.freshBits r i ||| bits) }

/-- The device sets a W1C flag (R8). -/
def State.latchFlag (s : State) (f : Fld) (i : Nat) : State := s.latchBits f.reg i (BitVec.ofNat 32 (2 ^ f.lo))

/-- A field's value in a written word. -/
def fldOf (f : Fld) (v : Word) : Nat := fieldOf f.lo f.w v

/-- Whether a value is one the register table lists for a field (R10). -/
def legalValue (l : List (Nat × Nat)) (v : Nat) : Bool := l.isEmpty || l.any (fun r => r.1 ≤ v && v ≤ r.2)

/-! ### Counters (R596), free values, pins, what is sent -/

def ctrKey (c : Ctr) (i : Nat) : Nat := i * 1024 + c.ctorIdx

def State.ctr (s : State) (c : Ctr) (i : Nat) : Nat := Tbl.getD s.ctrs (ctrKey c i) 0

/-- A counter moves by n, outside any PM entity. It is kept without its wrap; `ctrWords` reads it modulo 2^48 (R596). -/
def State.moveCtr (s : State) (c : Ctr) (i n : Nat) : State :=
  { s with ctrs := Tbl.setD s.ctrs (ctrKey c i) 0 (s.ctr c i + n) }

/-- The free value the state draws next; the drawing advances the counter (log entry 1). -/
def State.free (s : State) : Nat := Config.freeValue s.freeCtr

def State.drawn (s : State) : State := { s with freeCtr := s.freeCtr + 1 }

/-- Levels of the pins at reset (R631): low, HOST_RST_N among them, and high for the released and the other active-low ones (log
entry 85). -/
def pinReset : Pin → Nat
  | .hltOwnN | .hltPeerN | .alertN | .tamperN | .refclkPon | .refclkUpl | .refclkTnd | .pcieRefclk | .rails | .tck | .tms | .tdi => 1
  | _ => 0

def pinKey (p : Pin) (i : Nat) : Nat := i * 64 + p.ctorIdx

def State.pin (s : State) (p : Pin) (i : Nat) : Nat := Tbl.getD s.pins (pinKey p i) (pinReset p)

def State.drive (s : State) (p : Pin) (i v : Nat) : State :=
  { s with pins := Tbl.setD s.pins (pinKey p i) (pinReset p) v }

def State.send (s : State) (o : Out) : State := { s with out := o :: s.out }

/-! ### Events (R514-R519) -/

/-- The first group of a die's events (R514). -/
def firstGroup (die : Nat) : Nat := if die = 15 then 0 else 3 + 3 * die

/-- Tandem events that concern the pair rather than one lane: raised on die 6 (R514). -/
def evOfPair : Ev → Bool
  | .tndAuthFail | .tndCfgReject | .tndDevnumDup | .tndDiverge | .tndDrillFail | .tndEqdNeg | .tndHalterContend
  | .tndHalterLost | .tndHalterOwn | .tndLinkDown | .tndLockstep | .tndPairBad | .tndSeniorBad | .tndTakeover => true
  | _ => false

/-- The die whose group holds an event raised for a cause on a die (R514). -/
def raisingDie (e : Ev) (die : Nat) : Nat :=
  if evOfPair e then 6
  else match dieKind die with
    | some k =>
      match Blk.number k e.block with
      | some _ => if Ev.block e = .lsh then 0 else die
      | none => if (Blk.number 3 e.block).isSome then 15 else 0
    | none => 15

/-- The source number of an event: group × 32 + bit (R514). -/
def sourceOf (e : Ev) (die : Nat) : Nat :=
  let d := raisingDie e die
  firstGroup d * 32 + Blk.firstBit ((dieKind d).getD 3) e.block + e.rank

/-- An MSI-X message; held while the host link is outside L0 (R100). -/
def State.sendMsix (s : State) (v : Nat) : State :=
  if s.laosh.linkUp then s.send (.msix v)
  else { s with laosh := { s.laosh with msixHeld := s.laosh.msixHeld ++ [v] } }

/-- Bits of a group that become set unmasked, or set and unmasked, are delivered to each destination the group's route
enables (R516). ALERT_N is `State.alertLow`; firmware's dispatch table decides what becomes of a source (R530). -/
def State.deliver (s : State) (g : Nat) (srcs : List Nat) : State :=
  let s := if s.flag .evtRouteMsix g then s.sendMsix (s.fld .evtRouteVector g) else s
  let s := if s.flag .evtRouteIbi g && s.laosh.ibiEnable && s.laosh.i3cAddress.isSome then s.send (.ibi 2 g) else s
  if s.flag .evtRouteFw g then { s with fwEvents := s.fwEvents ++ srcs } else s

/-- A record joins its die's queue: in raise order, those of one cycle by ascending source number (R517). -/
def queueRecord (q : List EvRec) (r : EvRec) : List EvRec :=
  let behind := fun (x : EvRec) => decide (x.time = r.time) && decide (r.source < x.source)
  q.filter (fun x => !behind x) ++ [r] ++ q.filter behind

/-- The device raises an event for a cause on a die (R515): the status bit is set, a record is queued for the ring
(R517), and the event is delivered if its bit becomes set unmasked. -/
def State.raise (s : State) (e : Ev) (die inst : Nat) : State :=
  let src := sourceOf e die
  let g := src / 32
  let bit := src % 32
  let stat := s.reg .evtStat g
  let was := stat.getLsbD bit
  let rd := raisingDie e die
  let q := Tbl.getD s.evQueue rd []
  let s := if q.length < 64 then
      { s with evQueue := s.evQueue.put rd (queueRecord q ⟨src, die, inst, s.nowOn rd, !s.flag .tbStatAligned 0⟩) }
    else s.moveCtr .evtRecDrop rd 1
  let s := s.latchBits .evtStat g (BitVec.ofNat 32 (2 ^ bit))
  if !was && !(s.reg .evtMask g).getLsbD bit then s.deliver g [src] else s

/-- An event raised at most once in a frame for a cause: `State.once` holds the frame in which the cause was last raised. -/
def State.raiseOnceIn (s : State) (frame : Nat) (e : Ev) (die inst cause : Nat) : State :=
  let k := (die * 2 ^ 20 + cause) * 1024 + e.ctorIdx
  if s.once.find k = some frame then s else { s with once := s.once.put k frame }.raise e die inst

/-- Of an event that is no channel's, a frame is the ration period in force, the 125 µs of the package (log entry 9). -/
def State.raiseOnceBy (s : State) (e : Ev) (die inst cause : Nat) : State := s.raiseOnceIn s.rtn.opened e die inst cause

/-- An event raised at most once a frame for each instance. -/
def State.raiseOnce (s : State) (e : Ev) (die inst : Nat) : State := s.raiseOnceBy e die inst inst

/-- The lanes' port mode of an octet (R110) and the lowest lane of the port that holds a lane (R11, R95). -/
def State.portOf (s : State) (lane : Nat) : Nat :=
  let o := lane / 8
  if s.flag .lnuModeOct800 o then o * 8
  else
    let q := if lane / 4 % 2 = 0 then s.fld .lnuModeQuad0 o else s.fld .lnuModeQuad1 o
    if q = 2 then lane / 4 * 4 else if q = 1 then lane / 2 * 2 else lane

/-! ### PM anomalies as they occur (R587, R588, R594) -/

def pmKey (kind idx : Nat) : Nat := kind * 65536 + idx

/-- A bin's parameter crosses its threshold: an entry in the half's list of 1,024, and an event at most once per die per
second. -/
def State.tca (s : State) (die : Nat) (x : PmTca) : State :=
  let half := if die < 2 then die else (die - 2) / 2
  let l := Tbl.getD s.pm.tcas half []
  let s := if l.length < 1024 then { s with pm := { s.pm with tcas := s.pm.tcas.put half (l ++ [x]) } } else s.moveCtr .pmbTcaDrop die 1
  if s.pm.tcaTold.has die then s
  else
    let s := { s with pm := { s.pm with tcaTold := s.pm.tcaTold.put die () } }
    if die < 2 then s.raise .ggcTca 15 x.ent else s.raise .pmbTca die x.ent

/-- An amount enters a parameter of the entity's bin that a selection names. -/
def State.pmInto (s : State) (key p n : Nat) (day : Bool) (sel : PmBin → Bool) : State :=
  match s.pm.ents.find key with
  | none => s
  | some e =>
    let l := if day then e.days else e.quarters
    match l.find? sel with
    | none => s
    | some b =>
      let old := Tbl.getD b.params p 0
      let thr := Tbl.getD s.pm.thresholds ((key / 65536 * 32 + p) * 2 + day.toNat) 0
      let hit := thr != 0 && decide (old < thr) && decide (thr ≤ old + n) && !b.told.has p
      let b' := { b with params := b.params.setD p 0 ((old + n) % 2 ^ 64), told := if hit then b.told.put p () else b.told }
      let l' := l.map (fun x => if x = b then b' else x)
      let e' := if day then { e with days := l' } else { e with quarters := l' }
      let s := { s with pm := { s.pm with ents := s.pm.ents.put key e' } }
      if hit then s.tca e.die ⟨key, p, day, b.start, s.now⟩ else s

/-- An anomaly counts in the current bins of an enabled entity. -/
def State.pmAdd (s : State) (kind idx p n : Nat) : State :=
  match s.pm.ents.find (pmKey kind idx) with
  | some e =>
    if e.enabled ∧ n ≠ 0 then
      let s := s.pmInto (pmKey kind idx) p n false (fun b => some b.start = e.quarters.head?.map (·.start))
      s.pmInto (pmKey kind idx) p n true (fun b => some b.start = e.days.head?.map (·.start))
    else s
  | none => s

def State.modPmEnt (s : State) (key : Nat) (f : PmEnt → PmEnt) : State :=
  { s with pm := { s.pm with ents := s.pm.ents.modify key f } }

/-- Blocks of the second in force, and how many of them were errored (R585). -/
def State.pmBlocks (s : State) (kind idx n bad : Nat) : State :=
  s.modPmEnt (pmKey kind idx) (fun e => if e.enabled then { e with blocks := e.blocks + n, bad := e.bad + bad } else e)

/-- A defect holds in the second in force. -/
def State.pmDefect (s : State) (kind idx : Nat) : State :=
  s.modPmEnt (pmKey kind idx) (fun e => if e.enabled then { e with defect := true } else e)

/-- The entity and parameter that a counter's instance feeds (R588): kind, index, parameter. Lanes feed their port. -/
def State.pmFed (s : State) (c : Ctr) (i : Nat) : Option (Nat × Nat × Nat) :=
  match c with
  | .brxFecBits => some (0, i, 5)
  | .brxFecCorr => some (0, i, 6)
  | .brxFecUncorr => some (0, i, 7)
  | .brxHecCorr => some (0, i, 8)
  | .brxHecBad => some (0, i, 9)
  | .brxKeyBad => some (0, i, 11)
  | .brxBipErr => some (0, i, 12)
  | .brxXgemDrop => some (0, i, 13)
  | .brxDrift => some (0, i, 15)
  | .sknLate => some (2, i, 5)
  | .sknGap => some (2, i, 6)
  | .sknHoldFull => some (2, i, 7)
  | .sknMemberDown => some (2, i, 8)
  | .sknFragSplit => some (2, i, 9)
  | .cadContLost => some (3, i, 5)
  | .cadJcBad => some (3, i, 6)
  | .cadSlip => some (3, i, 7)
  | .cadPwLate => some (3, i, 8)
  | .cadPwLost => some (3, i, 9)
  | .lnuFecCorr => some (4, s.portOf i, 5)
  | .lnuFecUncorr => some (4, s.portOf i, 6)
  | .lnuFecSym => some (4, s.portOf i, 7)
  | .umacRxFcs => some (4, s.portOf i, 8)
  | .lnuLinkDown => some (4, s.portOf i, 9)
  | _ => none

/-- A counter moves by n; the binner counts the increment as it happens (R588). -/
def State.countBy (s : State) (c : Ctr) (i n : Nat) : State :=
  match s.pmFed c i with
  | none => s.moveCtr c i n
  | some (kind, idx, p) => (s.moveCtr c i n).pmAdd kind idx p n

def State.count (s : State) (c : Ctr) (i : Nat) : State := s.countBy c i 1

/-- Counts and raises, as the refusal rows of the spec's tables do: "counted and raised". -/
def State.report (s : State) (c : Ctr) (ci : Nat) (e : Ev) (die inst : Nat) : State := (s.count c ci).raise e die inst

/-- Whether ALERT_N is low: a group routed to it has an unmasked bit set (R516), or cast-on has halted (R578). -/
def State.alertLow (s : State) : Bool :=
  s.flag .sysCastonHalted 0 ||
  (List.range 27).any (fun g =>
    s.flag .evtRouteAlert g && (s.reg .evtStat g &&& ~~~ (s.reg .evtMask g)) != 0)

/-! ### What the gauge measures (R596, R600, R601) -/

/-- The word by which GGC_UNIT names a unit (R604). -/
def unitWord (die : Nat) (b : Blk) (u : Nat) : Nat :=
  die * 2 ^ 22 + ((dieKind die).bind (fun k => Blk.number k b)).getD 63 * 2 ^ 16 + u

/-- A unit carries a frame. -/
def State.carry (s : State) (die : Nat) (b : Blk) (u len : Nat) : State :=
  let k := unitWord die b u
  let (f, n) := Tbl.getD s.gauge.carried k (0, 0)
  { s with gauge := { s.gauge with carried := s.gauge.carried.put k (f + 1, n + len) } }

/-- A slot of a pipeline falls into an account: 2 carried, 3 repeated. -/
def State.slotUsed (s : State) (half pipe account : Nat) : State :=
  let k := (half * 16 + pipe) * 8 + account
  { s with gauge := { s.gauge with slots := s.gauge.slots.put k (Tbl.getD s.gauge.slots k 0 + 1) } }

/-- The bin of a latency in ns (R601). -/
def latencyBin (ns : Nat) : Nat := if ns < 32 then 0 else min 15 (Nat.log2 ns - 4)

/-- A frame's latency joins the histogram of its egress, named as a half's controllers are. -/
def State.latency (s : State) (half g ns : Nat) : State :=
  let k := (half * 128 + g) * 16 + latencyBin ns
  { s with gauge := { s.gauge with hists := s.gauge.hists.setD k 0 ((Tbl.getD s.gauge.hists k 0 + 1) % 2 ^ 32) } }

/-! ### HBM segments (R550, R551) -/

/-- A half holds a segment of an owner: 0 DEEP, 1 SKEW, 2 PM, 3 DMA. -/
def State.hasSegment (s : State) (half owner : Nat) : Bool :=
  (List.range 128).any (fun g => fieldOf 0 3 (s.reg .hbmSegOwner (half * 128 + g)) = owner)

end Sys2Proof.Machine
end

