-- ==== Sys2Proof/Machine/Wire.lean ====
section
/-!
DEFINITION. How a frame leaves an uplink port: the lanes of a port and whether they carry it, the segments of the cipher clusters
(R408; a segment's processing is no step of its own, log entry 13), MACsec on egress, and the bytes on the wire.
-/

namespace Sys2Proof.Machine

/-! ### CRC-32C (R469) -/

/-- One bit of CRC-32C, reflected (R469), and one byte. -/
def crcBit (c : Nat) : Nat := if c % 2 = 1 then (c / 2) ^^^ 0x82F63B78 else c / 2

def crcByte (c b : Nat) : Nat := crcBit (crcBit (crcBit (crcBit (crcBit (crcBit (crcBit (crcBit (c ^^^ b))))))))

/-- CRC-32C, reflected, initial value and final XOR all ones. -/
def crc32c (b : List Byte) : Nat := (b.foldl (fun c x => crcByte c x.toNat) 0xFFFFFFFF) ^^^ 0xFFFFFFFF

/-! ### Bytes, most significant first -/

/-- `n` bytes of a number, the first most significant. -/
def bytesBE (n v : Nat) : List Byte := (List.range n).map (fun i => BitVec.ofNat 8 (v / 2 ^ (8 * (n - 1 - i))))

/-- A byte of a frame: as the model was told it, else open (log entry 54). -/
def Frame.byte (f : Frame) (i : Nat) : Nat :=
  match f.head[i]? with
  | some b => b.toNat
  | none => Config.frameByte f.name i % 256

/-- `n` bytes from an offset, the first most significant. -/
def Frame.be (f : Frame) (off : Nat) : Nat → Nat
  | 0 => 0
  | n + 1 => Frame.be f off n * 256 + f.byte (off + n)

/-! ### Units out of service (R16, R617, R618) -/

/-- The UCIe link between a die's lanes and the core die of its half is down: its ports stop carrying traffic (R16). -/
def State.linkCut (s : State) (die : Nat) : Bool := 2 ≤ die && die < 8 && s.ucieDown.contains (die - 2)

/-- R617, R618: a TC or PCS unit of a die is out of service: it failed and no spare has its work; a TC's moves without a hit, so one whose
spare is being brought in still serves. -/
def State.unitOut (s : State) (die n : Nat) : Bool :=
  let k := 8 * 2 ^ 24 + die * 2 ^ 16 + n
  s.power.failed.has k && !s.power.replaced.has k && !(die < 6 && s.power.bringIns.any (fun b => b.kind = 8 && b.die = die && b.unit = n))

def State.pcsOut (s : State) (lane : Nat) : Bool := s.unitOut (dieOfLane lane) (lane % 32 / 8)

/-! ### The lanes of an uplink port (R79, R94, R98, R104, R108) -/

def laneKey (family i : Nat) : Nat := family * 128 + i

/-- Lane states as LNU_STAT.state codes them (R109): 0 OFF, 1 POWERING, 2 BRINGUP, 3 ACTIVE, 4 FAULT. -/
def State.laneState (s : State) (family i : Nat) : Nat :=
  if family = 0 then s.fld .lnpCtlTxState i
  else if family = 1 then s.fld .lnpCtlRxState i
  else if family = 2 then s.fld .lnuStatState i
  else if family = 3 then s.fld .tndStatState i
  else s.lanes.hostState

def State.prbsOf (s : State) (family i : Nat) : Bool × Bool := Tbl.getD s.lanes.prbs (laneKey family i) (false, false)

/-- How many lanes a port has by its octet's mode (R94). -/
def State.portWidth (s : State) (port : Nat) : Nat :=
  let o := port / 8
  if s.flag .lnuModeOct800 o then 8
  else
    let q := if port / 4 % 2 = 0 then s.fld .lnuModeQuad0 o else s.fld .lnuModeQuad1 o
    if q = 2 then 4 else if q = 1 then 2 else 1

/-- The lanes that act together with a lane: those of its port, on an uplink (R95). -/
def State.laneGroup (s : State) (family i : Nat) : List Nat :=
  if family = 2 then (List.range (s.portWidth (s.portOf i))).map (· + s.portOf i) else [i]

/-- An uplink or tandem lane carries traffic: ACTIVE, its PRBS generator off (R104). -/
def State.inService (s : State) (family i : Nat) : Bool := s.laneState family i = 3 && !(s.prbsOf family i).1

/-- An uplink port in service: its lanes ACTIVE (R98) and none taken by a PRBS generator (R104), the UCIe link of its die up (R16),
its PCS unit in service (R618). -/
def State.portUp (s : State) (port : Nat) : Bool :=
  s.portOf port = port && (s.laneGroup 2 port).all (s.inService 2) && !s.linkCut (dieOfLane port) && !s.pcsOut port

/-- R108: all lanes of a port are looped back near end, at the PCS. -/
def State.loopedBack (s : State) (port : Nat) : Bool := (s.laneGroup 2 port).all (fun i => s.fld .lnuCtlLoopback i = 1)

/-- What a lane sends reaches its balls: no electrical idle, and no far-end loopback in its place (R108). -/
def State.laneSends (s : State) (family i : Nat) : Bool :=
  if family = 2 then !s.flag .lnuCtlTxSquelch i && s.fld .lnuCtlLoopback i != 2
  else if family = 3 then !s.flag .tndCtlTxSquelch i && s.fld .tndCtlLoopback i != 2
  else true

/-! ### The cipher clusters (R407-R410) -/

def coreReg (die : Nat) : Reg := if die < 6 then .cphCoreStat else .mscCoreStat

def State.coreState (s : State) (die core : Nat) : Nat := fieldOf 0 2 (s.reg (coreReg die) (die * 128 + core))

/-- Cores of a cluster, and how many it must have active (R407). -/
def clusterSize (die : Nat) : Nat := if die < 6 then 12 else 20

/-- The cluster's cores in a state, as CORESEL names them. -/
def State.coresIn (s : State) (die k st : Nat) : List Nat :=
  ((List.range (clusterSize die)).map (k * 64 + ·)).filter (fun c => s.coreState die c = st)

/-- The clusters of a die: 0 encrypts (egress), 1 decrypts (ingress) (R438). -/
def clusterKey (die cluster : Nat) : Nat := die * 2 + cluster

/-- The segments of an item: at most 256 bytes each, but a chained mode takes one core for the whole (R408). -/
def segmentsOf (len : Nat) (chained : Bool) : Nat := if chained then 1 else max 1 (ceilDiv len 256)

/-- The next free core of a cluster: the active one after that which took the last segment. -/
def State.nextCore (s : State) (die cluster : Nat) : Option Nat :=
  let l := s.coresIn die cluster 1
  match s.cipher.lastCore.find (clusterKey die cluster) with
  | some c => match l.find? (fun x => decide (c < x)) with
    | some x => some x
    | none => l.head?
  | none => l.head?

/-- One segment: the next sequence number of its egress, the next free core, which holds that number as the last it retired. -/
def State.segment (s : State) (die cluster egress : Nat) : State :=
  match s.nextCore die cluster with
  | none => s
  | some core =>
    let k := clusterKey die cluster
    let seq := Tbl.getD s.cipher.segSeq (k * 256 + egress) 0
    let r := coreReg die
    let s := s.setReg r (die * 128 + core) (withField 2 16 (s.reg r (die * 128 + core)) seq)
    { s with cipher := { s.cipher with
      segSeq := s.cipher.segSeq.put (k * 256 + egress) ((seq + 1) % 2 ^ 16)
      lastCore := s.cipher.lastCore.put k core } }

def State.segments (s : State) (die cluster egress : Nat) : Nat → State
  | 0 => s
  | n + 1 => State.segments (s.segment die cluster egress) die cluster egress n

/-- A cluster takes an item of so many bytes for an egress port or channel. -/
def State.cipherItem (s : State) (die cluster egress len : Nat) (chained : Bool := false) : State :=
  s.segments die cluster egress (segmentsOf len chained)

/-! ### MACsec (R410, R413): GCM over the frame as IEEE 802.1AE has it -/

/-- The 96-bit initialization vector: SCI and packet number, or for an XPN suite the salt over SSCI and packet number. -/
def MscSa.iv (x : MscSa) (pn : Nat) : Nat :=
  if x.suite < 2 then x.sci % 2 ^ 64 * 2 ^ 32 + pn % 2 ^ 32 else (x.salt % 2 ^ 96) ^^^ (x.ssci % 2 ^ 32 * 2 ^ 64 + pn % 2 ^ 64)

/-- An SA's secret key, as the clusters hold it. -/
def State.sakOf (s : State) (x : MscSa) : Nat := ((s.vault.find x.handle).map (fun k => k.value)).getD 0

/-- The first byte of a frame that is confidential: 12 bytes of addresses, then the port's offset of 0, 30 or 50 bytes. -/
def State.mscClear (s : State) (port : Nat) : Nat :=
  let o := s.fld .mscPortCfgOffset port
  12 + (if o = 0 then 0 else if o = 1 then 30 else 50)

/-- A block of GCM keystream of a frame. -/
def mscKeystream (key suite iv block : Nat) : Nat := Config.standard 77 [key, suite % 2, iv, block] % 2 ^ 128

/-- The known bytes of a frame, enciphered or deciphered from its first confidential one on. -/
def mscBytes (key suite iv clear : Nat) (bs : List Byte) : List Byte :=
  bs.mapIdx (fun i b => if i < clear then b
    else b ^^^ BitVec.ofNat 8 (mscKeystream key suite iv ((i - clear) / 16) / 2 ^ (8 * (15 - (i - clear) % 16))))

/-- A frame enciphered or deciphered under an SA with a packet number. -/
def State.mscFrame (s : State) (port : Nat) (x : MscSa) (pn : Nat) (f : Frame) : Frame :=
  { f with head := mscBytes (s.sakOf x) x.suite (x.iv pn) (s.mscClear port) f.head }

/-- The ICV of a frame, given as deciphered, under an SA: its SecTAG and every byte count. -/
def State.mscIcv (s : State) (port : Nat) (x : MscSa) (an pn : Nat) (f : Frame) : Nat :=
  Config.standard 78 ([s.sakOf x, x.suite, x.iv pn, s.mscClear port, an, f.name, f.len] ++ f.head.map BitVec.toNat) % 2 ^ 128

/-! ### MACsec on egress (R413, R415, R426) -/

def secyEmpty : SecY := ⟨[], [], false, []⟩

def State.secy (s : State) (port : Nat) : SecY := Tbl.getD s.secys port secyEmpty

def State.setSecy (s : State) (port : Nat) (x : SecY) : State := { s with secys := s.secys.setD port secyEmpty x }

def MscSa.xpn (x : MscSa) : Bool := 2 ≤ x.suite

def MscSa.last (x : MscSa) : Nat := if x.xpn then 2 ^ 64 - 1 else 2 ^ 32 - 1

/-- The threshold of R415 for an SA: MSC_PN_THR, or its bits [63:32] for an XPN suite (R439). -/
def State.pnThreshold (s : State) (port : Nat) (x : MscSa) : Nat :=
  let v := (s.reg .mscPnThr port).toNat
  if x.xpn then v * 2 ^ 32 else v

/-- A frame leaves a port, under MACsec with its SCI × 4 + AN, packet number and ICV; where the port's lanes are squelched or looped back
far end it does not reach the balls, and where they are looped back near end it comes back to the port (R108). -/
def State.putOut (s : State) (port : Nat) (f : Frame) (tag : Option (Nat × Nat × Nat)) : State :=
  let s := if (s.laneGroup 2 port).all (s.laneSends 2) then s.send (.uplink port f (tag.map Prod.snd)) else s
  let s := if s.loopedBack port then
      { s with lanes := { s.lanes with looped := s.lanes.looped.put port (Tbl.getD s.lanes.looped port [] ++ [⟨f, tag, true⟩]) } }
    else s
  (s.pmAdd 4 port 11 1).carry (dieOfLane port) .umac port f.len

/-- A frame handed to the egress cluster (R408) and the PCS: protected under the transmit SA in force, or discarded where there is
none left to protect it. EAPOL frames pass the uncontrolled port (R413). -/
def State.sendUplink (s : State) (port : Nat) (f : Frame) : State :=
  let die := dieOfLane port
  let eapol := f.be 12 2 = 0x888E
  if !s.flag .mscPortCfgEn port ∨ !s.flag .mscPortCfgProtect port ∨ eapol then s.putOut port f none
  else
    let y := s.secy port
    let an := s.fld .mscPortCfgTxAn port
    match y.tx.find an with
    | none => s.count .mscTxZero port
    | some x =>
      if x.last < x.pn then (s.count .mscPnExhaust port).raiseOnce .mscPnExhaust die port
      else
        let next := x.pn + 1
        let hit := decide (s.pnThreshold port x ≤ next) && !x.told
        let s := s.setSecy port { y with tx := y.tx.put an { x with pn := next, told := x.told || hit } }
        let s := (s.cipherItem die 0 port f.len).putOut port (s.mscFrame port x x.pn f)
          (some (x.sci * 4 + an, x.pn, s.mscIcv port x an x.pn f))
        if hit then s.raise .mscPnThr die port else s

/-- The in-band MAC (R495). -/
def State.inbandMac (s : State) : Nat := s.fld .lshInbMacHiV 0 * 2 ^ 32 + (s.reg .lshInbMacLo 0).toNat

end Sys2Proof.Machine
end

