-- ==== Sys2Proof/Machine/Ops.lean ====
section
/-!
DEFINITION. The shared operations of commands: the replies of the Laosh interface (R468-R489), the frame of a Laosh command, roles,
what the tandem link carries, claims and parameter words.
-/

namespace Sys2Proof.Machine

/-! ### Statuses and replies -/

/-- The status codes of R492. -/
def Status.code : Status → Nat
  | .ok => 0x0000 | .accepted => 0x0001 | .advanced => 0x0002 | .notReady => 0x0010 | .busy => 0x0011
  | .busyCastOn => 0x0012 | .badOpcode => 0x0020 | .badParam => 0x0021 | .badLength => 0x0022 | .badCrc => 0x0023
  | .badVersion => 0x0024 | .badTarget => 0x0025 | .tagInUse => 0x0030 | .staleGeneration => 0x0031
  | .noRoom => 0x0040 | .idResting => 0x0041 | .idInUse => 0x0042 | .blockClaimed => 0x0050 | .notOwner => 0x0051
  | .unauthorized => 0x0060 | .notApprovedMode => 0x0061 | .replayed => 0x0062 | .machineCheck => 0x0070
  | .zeroized => 0x0071 | .timedOut => 0x0072 | .commitBusy => 0x0080 | .fencePending => 0x0081

def tagKey (p : Path) (tag : BitVec 16) : Nat := pathCode p * 65536 + tag.toNat

/-- The generation in force on a path (LSH_STAT.gen, R498). -/
def State.gen (s : State) (p : Path) : BitVec 8 := BitVec.ofNat 8 (s.fld .lshStatGen (pathCode p))

/-- Slots of a ring (R478): 0 command, 1 reply, 2 trap, 3 inject. -/
def State.ringSize (s : State) (r : Nat) : Nat := 2 ^ s.fld .lshRingCfgSize r

/-- The device's index of a ring steps on, its phase flipping each time it wraps (R479). -/
def State.ringStep (s : State) (r : Nat) : State :=
  let d := s.fld .lshRingPtrDev r
  if d + 1 < s.ringSize r then s.setFld .lshRingPtrDev r (d + 1)
  else
    let s := s.setFld .lshRingPtrDev r 0
    if r = 1 ∨ r = 2 then s.setFld .lshRingPtrPhase r (1 - s.fld .lshRingPtrPhase r) else s

/-- Posts a reply into the next free slot of the reply ring, or holds it until there is one (R480, R100). -/
def State.postPcie (s : State) (r : Reply) : State :=
  if s.flag .lshRingCfgEn 1 && s.laosh.linkUp && s.laosh.replySlots.length < s.ringSize 1 && s.laosh.replyWait.isEmpty then
    let slot := s.fld .lshRingPtrDev 1
    let ph := s.fld .lshRingPtrPhase 1
    let s := { s with laosh := { s.laosh with replySlots := s.laosh.replySlots ++ [(slot, ph, r)] } }
    (s.ringStep 1).raise .lshReply 0 0
  else { s with laosh := { s.laosh with replyWait := s.laosh.replyWait ++ [r] } }

/-- A reply of the I3C path joins the mailbox; when it becomes readable the in-band interrupt is raised (R485). -/
def State.postI3c (s : State) (r : Reply) : State :=
  let first := s.laosh.mailbox.isEmpty
  let s := { s with laosh := { s.laosh with mailbox := s.laosh.mailbox ++ [r] } }
  if first then
    let s := { s with laosh := { s.laosh with mailboxSeen := false } }
    if s.laosh.ibiEnable && s.laosh.i3cAddress.isSome then s.send (.ibi 1 0) else s
  else s

/-- Posts waiting replies while the ring has room. -/
def State.flushReplies : Nat → State → State
  | 0, s => s
  | n + 1, s =>
    match s.laosh.replyWait with
    | [] => s
    | r :: rest =>
      if s.flag .lshRingCfgEn 1 && s.laosh.linkUp && s.laosh.replySlots.length < s.ringSize 1 then
        State.flushReplies n ({ s with laosh := { s.laosh with replyWait := [] } }.postPcie r |> fun s =>
          { s with laosh := { s.laosh with replyWait := rest } })
      else s

/-- A reply packet as R468 lays it out, its CRC behind its parameters (R469). -/
def Reply.bytes (devnum : Nat) (r : Reply) : List Byte :=
  let flags := r.more.toNat * 8 + (decide (r.path = .inband)).toNat * 4 + r.rep.toNat * 2 + 1
  let b := bytesBE 2 0x4C53 ++ bytesBE 1 1 ++ bytesBE 1 flags ++ bytesBE 2 r.opcode.toNat ++ bytesBE 2 r.tag.toNat
    ++ bytesBE 2 (devnum * 64 + r.die.toNat * 4) ++ bytesBE 2 r.words.length ++ bytesBE 2 r.status.code ++ bytesBE 1 r.gen.toNat
    ++ bytesBE 1 0 ++ r.words.flatMap (fun w => bytesBE 4 w.toNat)
  b ++ bytesBE 4 (crc32c b)

/-- The CMAC of an in-band packet: AES-CMAC under the session key over every byte before it (R486). -/
def State.sessionCmac (s : State) (b : List Byte) : Nat :=
  let key := ((s.laosh.inbandKey.bind s.vault.find).map (fun k => k.value)).getD 0
  Config.standard 80 (key :: b.map BitVec.toNat) % 2 ^ 128

/-- The frame that carries an in-band reply (R488): to the source MAC from the in-band MAC, with the command's VLAN tag and a CMAC,
padded to 60 bytes; with zeros, the tag under TPID 0x8100 (DESIGN CHOICE, log entry 96). All its bytes are known. -/
def State.replyFrame (s : State) (mac : Nat) (vlan : Option Nat) (r : Reply) : Frame :=
  let p := r.bytes (s.fld .sysDevnumDevnum 0)
  let tag := match vlan with
    | some v => bytesBE 4 (0x8100 * 65536 + v)
    | none => []
  let b := bytesBE 6 mac ++ bytesBE 6 s.inbandMac ++ tag ++ bytesBE 2 0x88B5 ++ p ++ bytesBE 16 (s.sessionCmac p)
  let b := b ++ List.replicate (60 - b.length) 0
  ⟨0, b.length + 4, b⟩

/-- R488: the reply leaves its command's port ahead of all scheduled traffic, under MACsec where the port's SecY is on; a port that is down
sends none (log entry 96). -/
def State.postInband (s : State) (r : Reply) : State :=
  match s.laosh.inbandFrom.find r.tag.toNat with
  | some (port, mac, vlan) => if s.portUp port then s.sendUplink port (s.replyFrame mac vlan r) else s
  | none => s

/-- Sends one reply packet by its path. -/
def State.postPacket (s : State) (r : Reply) : State :=
  match r.path with
  | .pcie => s.postPcie r
  | .i3c => s.postI3c r
  | .inband => s.postInband r

/-- A reply's words in packets of at most 1,023, each with more 1 except the last (R475). -/
def replyPackets (r : Reply) : Nat → List Word → List Reply
  | 0, ws => [{ r with words := ws.take 1023 }]
  | fuel + 1, ws =>
    if ws.length ≤ 1023 then [{ r with words := ws }]
    else { r with words := ws.take 1023, more := true } :: replyPackets r fuel (ws.drop 1023)

/-- Posts every packet of a reply. -/
def State.post (s : State) (r : Reply) : State :=
  (replyPackets r (r.words.length / 1023) r.words).foldl State.postPacket s

/-- The reply a caller gets. -/
def Caller.reply (c : Caller) (st : Status) (ws : List Word) : Reply :=
  { path := c.path, tag := c.tag, gen := c.gen, die := c.die, opcode := c.opcode, status := st, words := ws }

/-- What a reply leaves of its command's flight: ACCEPTED leaves the completion to come; any other status is final and is held
until it is acknowledged, except that a tag of an older generation is freed (R474, R475, R477). -/
def Flight.answered (f : Flight) (r : Reply) : Option Flight :=
  if r.status = .accepted then some { f with accepted := true }
  else if f.stale then none
  else some { f with final := some r }

/-- A command's reply is posted; that of a command whose path has been reset is discarded (R582). -/
def State.answer (s : State) (c : Caller) (st : Status) (ws : List Word) : State :=
  let k := tagKey c.path c.tag
  match s.flights.find k with
  | none => s
  | some f =>
    if f.caller ≠ c ∨ f.final.isSome then s
    else
      let r := { c.reply st ws with final := decide (st ≠ .accepted) }
      let s := { s with
        flights := s.flights.setOpt k (f.answered r)
        laosh := { s.laosh with order := s.laosh.order.filter (fun x => decide (x ≠ c)) } }
      s.post r

/-- A reply that refuses a packet at steps 3 to 14: it neither takes nor frees the tag (R473). -/
def State.refuse (s : State) (c : Caller) (st : Status) : State := s.post (c.reply st [])

/-- Asynchronous commands between their ACCEPTED and their completion (R475). -/
def State.asyncCount (s : State) : Nat := (s.flights.filter (fun p => p.2.accepted && p.2.final.isNone)).length

/-- A device holds at most 256 asynchronous commands between ACCEPTED and completion; a further one is BUSY (R475). -/
def State.asyncFull (s : State) : Bool := 256 ≤ s.asyncCount

/-- Tags in flight on a path (R474, LSH_STAT.inflight). -/
def State.inflight (s : State) (p : Path) : Nat := (s.flights.filter (fun f => f.2.caller.path = p)).length

/-! ### The frame of a Laosh command -/

/-- What a command leaves and answers. -/
structure Res where
  st : State
  status : Status
  words : List Word
  /-- The reply waits for a later event (R279). -/
  held : Bool := false

def Res.ok (s : State) (ws : List Word := []) : Res := { st := s, status := .ok, words := ws }
def Res.fail (s : State) (st : Status) : Res := { st := s, status := st, words := [] }
def Res.accepted (s : State) : Res := { st := s, status := .accepted, words := [] }

/-- Which die selectors a command takes (R471, R637): the package's only, the owner of the object it names or 15, or a
die of a list. -/
inductive DieRule where
  | package
  | owner (d : Nat)
  | oneOf (ds : List Nat)
deriving DecidableEq, Repr

/-- The part has no dies 4 and 5 (ULT-OT064, R1). -/
def State.is064 (s : State) : Bool := s.fld .sysIdPart 0 = 0x0064

/-- The dies that a part lacks (R1); their register accesses do nothing (R2, R504). -/
def State.dieFused (s : State) (die : Nat) : Bool := s.is064 && (die = 4 || die = 5)

/-- R51, R55: a full-form target is reached on every replica of the part: what the package launches together has then been launched by
each. -/
def State.allReached (s : State) (target : Nat) : Bool := (List.range 8).all (fun d => s.dieFused d || reached (s.nowOn d) target)

/-- The die selector fits the command's rule, and the part has the die and the object's die (R471, R2). -/
def State.dieFits (s : State) (d : Die) : DieRule → Bool
  | .package => d.toNat = 15
  | .owner o => (d.toNat = 15 || d.toNat = o) && !s.dieFused o
  | .oneOf ds => ds.contains d.toNat && !s.dieFused d.toNat

def callerOf (h : Hdr) (op : Nat) : Caller := ⟨h.path, h.tag, h.gen, h.die, BitVec.ofNat 16 op⟩

/-- The command may start under its tag: the tag is not in flight, or in flight for this command, not yet started. -/
def State.tagFree (s : State) (c : Caller) : Bool :=
  match s.flights.find (tagKey c.path c.tag) with
  | none => true
  | some f => f.caller = c && !f.started && f.final.isNone

/-- The item is a command's. -/
def SeqItem.isOf (c : Caller) : SeqItem → Bool
  | .command d _ => decide (d = c)
  | _ => false

/-- A dispatched command leaves the queue of its port (R486) and of its sequencer. -/
def State.dequeue (s : State) (c : Caller) : State :=
  { s with
    laosh := { s.laosh with inbandWait := s.laosh.inbandWait.filter (fun w => decide (w.2 ≠ c)) }
    seqs := s.seqs.map (fun (p : Nat × SeqSt) => (p.1, { p.2 with work := p.2.work.filter (fun i => !i.isOf c) })) }

/-- The command takes its tag and starts (R472, R474). -/
def State.start (s : State) (c : Caller) : State :=
  { s.dequeue c with flights := s.flights.put (tagKey c.path c.tag) ⟨c, true, false, none, false⟩ }

/-- A command refused as it is dispatched gives its tag and its place in the path's order up. -/
def State.withdraw (s : State) (c : Caller) : State :=
  let s := s.dequeue c
  { s with
    flights := s.flights.del (tagKey c.path c.tag)
    laosh := { s.laosh with order := s.laosh.order.filter (fun x => decide (x ≠ c)) } }

/-- The commands that cast-on answers (R472 step 12, R580). -/
def castOnAnswers (op : Nat) : Bool := op = 0 || op = 1

/-- A Laosh command: refused TAG_IN_USE while its tag is another's (step 9 of R472), BUSY_CAST_ON before cast-on is complete
(step 12), BAD_PARAM where the die selector does not fit (step 14; counted in lsh_refused, the tag not taken), else it starts,
has its effect and is answered. -/
def command (h : Hdr) (op : Nat) (rule : DieRule) (body : Caller → State → Res) (s : State) : State :=
  let c := callerOf h op
  if !s.tagFree c then (s.count .lshRefused 0).refuse c .tagInUse
  else if !castOnAnswers op && !s.flag .sysCastonDone 0 then
    (s.withdraw c).refuse c .busyCastOn
  else if !s.dieFits h.die rule then
    ((s.withdraw c).count .lshRefused 0).refuse c .badParam
  else
    let r := body c (s.start c)
    if r.held then r.st else r.st.answer c r.status r.words

/-- A command is ready to start: hypotheses on the state and the header alone. -/
def State.ready (s : State) (h : Hdr) (op : Nat) (rule : DieRule) : Bool :=
  s.tagFree (callerOf h op) && (castOnAnswers op || s.flag .sysCastonDone 0) && s.dieFits h.die rule

/-! ### Waits of the sequencers (R531) -/

def SeqWait.wake (cond arg : Nat) (w : SeqWait) : SeqWait := if w.cond = cond ∧ w.arg.toNat = arg then { w with seen := true } else w

/-- What a condition awaits has come: the waits and parked contexts entered for it see it. -/
def State.wake (s : State) (cond arg : Nat) : State :=
  { s with seqs := s.seqs.map (fun (p : Nat × SeqSt) => (p.1, { p.2 with
      wait := p.2.wait.map (SeqWait.wake cond arg)
      parked := p.2.parked.map (fun k => { k with wait := k.wait.wake cond arg }) })) }

/-! ### Roles (R417, R431) -/

def State.modCipher (s : State) (f : Cipher → Cipher) : State := { s with cipher := f s.cipher }

/-- A path holds the Crypto Officer role (R431). -/
def State.isOfficer (s : State) (p : Path) : Bool := s.cipher.roles.has (pathCode p)

/-- Loss of a path ends its role and erases its KLK (R417, R431). -/
def State.losePath (s : State) (p : Nat) : State :=
  s.modCipher (fun c => { c with roles := c.roles.del p, klks := c.klks.del p, klkErased := c.klkErased.del p, nonces := c.nonces.del p })

/-! ### Protected trees and the sending side of the tandem link (R442-R445, R449, R451, R453) -/

def State.protected (s : State) (t : Nat) : Bool := s.flag .tndTreeCfgProtect t
/-- The device owns the halter (R449, R465). -/
def State.ownsHalter (s : State) : Bool := s.fld .tndPairStatHalter 0 = 3
/-- The hardware gate of OPT_TXEN (R451): a protected tree lights only while this device drives HLT_OWN_N low, senses
HLT_PEER_N high and would otherwise drive it. -/
def State.gateOpen (s : State) (t : Nat) : Bool :=
  !s.protected t || (s.pin .hltOwnN 0 = 0 && s.pin .hltPeerN 0 = 1)
/-- The device stands by on a protected tree; commands that name the tree are not its (R442). -/
def State.treeBarred (s : State) (t : Nat) : Bool := s.protected t && !s.ownsHalter

/-- An expert write (R442): one from a host path. Firmware's writes mirror what the owner commands. -/
def State.expertBarred (s : State) (p : APath) (t : Nat) : Bool :=
  match p with
  | .seq _ => false
  | .pcie | .i3c => s.treeBarred t

def State.modTandem (s : State) (f : Tandem → Tandem) : State := { s with tandem := f s.tandem }
/-- The pair key is derived or erased (R441). -/
def State.setPaired (s : State) (k : Option Nat) : State :=
  (s.modTandem (fun w => { w with pairKey := k, ephemeral := none })).setFlag .tndPairStatPaired 0 k.isSome
/-- R455: the signed feeder difference by which a standby expects a tree's bursts later than the owner; none on the owner. -/
def State.feeder (s : State) (t : Nat) : Int := if s.treeBarred t then signedOf 19 (s.fld .tndTreeCfgDfeed t) * nsUnit else 0
def State.tndTree (s : State) (t : Nat) : TndTree := Tbl.getD s.tandem.trees t TndTree.empty
def State.setTndTree (s : State) (t : Nat) (x : TndTree) : State :=
  s.modTandem (fun w => { w with trees := w.trees.setD t TndTree.empty x })
def State.modTndTree (s : State) (t : Nat) (f : TndTree → TndTree) : State := s.setTndTree t (f (s.tndTree t))
def State.tndChan (s : State) (c : Nat) : TndChan := Tbl.getD s.tandem.chans c TndChan.empty
def State.modTndChan (s : State) (c : Nat) (f : TndChan → TndChan) : State :=
  s.modTandem (fun w => { w with chans := w.chans.setD c TndChan.empty (f (Tbl.getD w.chans c TndChan.empty)) })

/-- A tandem lane carries traffic: ACTIVE, its PRBS generator off (R104). -/
def State.tandemLaneUp (s : State) (i : Nat) : Bool :=
  s.fld .tndStatState i = 3 && !(Tbl.getD s.lanes.prbs (laneKey 3 i) (false, false)).1

/-- R108: what a tandem lane that carries traffic sends reaches its balls: it is neither squelched nor looped back far end; what it
receives is the peer's: it is not looped back near end. -/
def State.tandemLaneSends (s : State) (i : Nat) : Bool :=
  s.tandemLaneUp i && !s.flag .tndCtlTxSquelch i && s.fld .tndCtlLoopback i != 2
def State.tandemLaneHears (s : State) (i : Nat) : Bool := s.tandemLaneUp i && s.fld .tndCtlLoopback i != 1

/-- What the device sends on the tandem link, by whichever lanes carry it (R104, R108). -/
def State.sendTandem (s : State) (o : Out) : State := if (List.range 8).any s.tandemLaneSends then s.send o else s

/-- A record joins a reliable stream: its number, and what is kept until it is acknowledged (R445). -/
def State.sendRecord (s : State) (stream : Nat) (body : TndBody) : State :=
  let n := Tbl.getD s.tandem.txSeq stream 0
  (s.modTandem (fun w => { w with
    txSeq := w.txSeq.put stream ((n + 1) % 2 ^ 28)
    unacked := w.unacked ++ [⟨stream, n, body, 1, s.elapsed⟩] })).sendTandem (.tandem stream n body)

/-- The owner of a protected tree tells the peer, while the link is up (R447, R453). -/
def State.mirrors (s : State) (t : Nat) : Bool := s.protected t && s.ownsHalter && s.flag .tndPairStatLink 0

/-- A cause of R457 arose on a protected channel. -/
def State.chanCause (s : State) (c : Nat) : State :=
  if s.protected (treeOfChan c) then s.modTndChan c (fun x => { x with cause := true }) else s

/-- R447: the tandem link goes down; a standby's trees read not ready. -/
def State.tandemDown (s : State) : State :=
  if !s.flag .tndPairStatLink 0 then s
  else
    let s := s.setFlag .tndPairStatLink 0 false
    let s := ((List.range 32).filter s.treeBarred).foldl (fun s t =>
      (s.setFlag .tndTreeStatReady t false).modTndTree t (fun x => { x with startAt := none })) s
    s.report .tndLinkDown 0 .tndLinkDown 6 0

/-! ### Claims (R41, R510-R513) -/

def claimKey (die : Nat) (b : Blk) : Nat :=
  die * 64 + (((dieKind die).bind (fun k => Blk.number k b)).getD 63)

/-- A block is claimed at expert level. -/
def State.claimed (s : State) (die : Nat) (b : Blk) : Bool := s.win.claims.has (claimKey die b)

/-- A register access path's own claim on a block; the sequencers have none (R510). -/
def State.holdsClaim (s : State) (p : APath) (die : Nat) (b : Blk) : Bool :=
  match p, s.win.claims.find (claimKey die b) with
  | .pcie, some .pcie => true
  | .i3c, some .i3c => true
  | _, _ => false

/-- The body's effect, unless one of the blocks it acts on is claimed: then BLOCK_CLAIMED and nothing (R41). -/
def State.unlessClaimed (s : State) (bs : List (Nat × Blk)) (r : Res) : Res :=
  if bs.any (fun b => s.claimed b.1 b.2) then .fail s .blockClaimed else r

/-- The blocks that the commands of an opcode act on (R41, R511): those of its family. -/
def opcodeBlocks (op : Nat) : List Blk :=
  match op / 256 with
  | 0x00 => if op = 0x0010 then [.sys] else if op = 0x0004 then [.lsh] else []
  | 0x01 => [.tb, .tsi]
  | 0x02 => [.lnp, .lnu, .tnd]
  | 0x03 => [.pch, .brx, .act]
  | 0x04 => [.act, .brx, .gnt, .pch]
  | 0x05 => [.gnt]
  | 0x06 => [.skn, .cad, .gnt]
  | 0x07 => [.prs, .rul, .frg]
  | 0x08 => [.br, .lpm, .svc, .lrn, .edt]
  | 0x09 => [.cst, .dst, .qm, .sch, .plc]
  | 0x0A => [.gt]
  | 0x0B => [.kv, .cph, .msc, .pch, .sp]
  | 0x0C => [.pmb, .ggc]
  | 0x0D => [.ggc]
  | 0x0E => [.tnd]
  | 0x0F => [.pwr, .tns]
  | 0x10 => [.rmd]
  | 0x11 => [.sec, .sq]
  | 0x13 => [.sp, .hbm]
  | _ => []

/-- R511: a command that has started, acts on the block and has not posted its final reply. -/
def State.actedOn (s : State) (die : Nat) (b : Blk) : Bool :=
  s.flights.any (fun p =>
    let f := p.2
    f.started && f.final.isNone && (opcodeBlocks f.caller.opcode.toNat).contains b
      && (f.caller.die.toNat = 15 || f.caller.die.toNat = die))

/-! ### Parameter words (R470) -/

/-- A value's words, most significant first. -/
def natWords (n v : Nat) : List Word := (List.range n).map (fun i => BitVec.ofNat 32 (v / 2 ^ (32 * (n - 1 - i))))

def wordsOf (bits : Nat) (v : Nat) : List Word :=
  let n := ceilDiv bits 32
  (List.range n).map (fun i => BitVec.ofNat 32 (v / 2 ^ (32 * (n - 1 - i))))

/-- A full-form time in three words (R470): seconds [47:32], seconds [31:0], nanoseconds. -/
def timeWords (t : Nat) : List Word :=
  [BitVec.ofNat 32 (secOf t / 2 ^ 32), BitVec.ofNat 32 (secOf t), BitVec.ofNat 32 (nsOf t)]

/-- The halves a die selector names: one core die, or both in turn for 15. -/
def halvesOf (h : Hdr) : List Nat := if h.die.toNat < 2 then [h.die.toNat] else [0, 1]

/-- A status from 0x0010 upward: the command has changed nothing (R473). -/
def Status.refuses (x : Status) : Bool := 0x0010 ≤ x.code

/-- A command on one core die, or on both in turn, the reply then led by a status for each half (R320). Refused by one
half it changes neither (R473). -/
def onHalves (h : Hdr) (f : Nat → State → Res) (s : State) : Res :=
  if h.die.toNat < 2 then f h.die.toNat s
  else
    let a := f 0 s
    let b := f 1 a.st
    let codes := [BitVec.ofNat 32 a.status.code, BitVec.ofNat 32 b.status.code]
    if a.status.refuses then { st := if b.status.refuses then b.st else a.st, status := a.status, words := codes }
    else if b.status.refuses then { st := (f 1 s).st, status := b.status, words := codes }
    else { st := b.st, status := if a.status = .ok then b.status else a.status, words := codes ++ a.words ++ b.words, held := a.held || b.held }

/-- A list in a reply: its item count, then the items. -/
def listWords (ws : List Word) : List Word := BitVec.ofNat 32 ws.length :: ws

end Sys2Proof.Machine
end

