-- ==== Sys2Proof/Machine/Operands.lean ====
section
/-!
DEFINITION. The operand forms of the register windows: which instance of which register an access names (R499-R509),
which accesses are errors (R504), and how a written word meets a register's fields (R6, R7, R10). Path copies stand at
instance die × 32 + path; an indexed register's element n of base instance b at b × 128 + n.
-/

namespace Sys2Proof.Machine

def accDie (a : RegAccess) : Nat := a.addr.toNat / 2 ^ 22 % 16
def accBlock (a : RegAccess) : Nat := a.addr.toNat / 2 ^ 16 % 64

/-- The place of a path's own copy of a register on a die. -/
def copyInst (die : Nat) (p : Nat) : Nat := die * 32 + p

/-- The dies a select applies to (R508). -/
def selectDies : Reg → List Nat
  | .chsel | .onusel | .alcsel | .sksel | .trsel => [2, 3, 4, 5]
  | .lnsel | .coresel => [2, 3, 4, 5, 6, 7]
  | .tresel => [6, 7]
  | .tpsel | .rgsel => [0]
  | .rtnsel => [15]
  | _ => [0, 1]

/-- A path's select on a die, whole. -/
def State.sel (s : State) (r : Reg) (die : Nat) (p : Nat) : Nat := (s.reg r (copyInst die p)).toNat

/-- The selects, of which each path has its own copy (R509), and its index of the event ring (R519). -/
def pathRegs : List Reg :=
  [.chsel, .onusel, .alcsel, .lnsel, .sksel, .trsel, .coresel, .tresel, .qsel, .plsel, .gtsel, .gesel, .ndsel, .apsel, .epsel, .rtsel,
    .ridx, .htsel, .tpsel, .rgsel, .rtnsel, .ggcUnit, .evtRingRd]

/-- A path's own copies, on every die, are zero again (R536, R583). -/
def State.clearCopies (s : State) (n : Nat) : State :=
  let own : List Nat := pathRegs.map Reg.ctorIdx
  { s with regs := s.regs.filter (fun k => !(own.contains (k.1 % 1024) && k.1 / 1024 % 32 = n)) }

/-- The gate controllers of a half that an ULT-OT064 lacks: those of the channels 64-127, on C1 (R1, R402). -/
def State.gateless (s : State) (die g : Nat) : Bool := s.is064 && die = 1 && 32 ≤ g

/-- The instance an access to a register of a scope names, by the selects of its path (R508, R509); none where the
select names no instance. The TB block of die 1 mirrors die 0's (R54). -/
def State.instOf (s : State) (p die idx : Nat) (r : Reg) : Option Nat :=
  let die := if r.block = .tb ∧ die = 1 then 0 else die
  let ch := (die - 2) * 32 + s.sel .chsel die p
  let ln := (die - 6) * 32 + s.sel .lnsel die p
  match r.scope with
  | .pkg => some idx
  | .single => some 0
  | .die => some (if idx = 0 ∧ (r = .tndDlnCfg ∨ r = .brxRsmCfg ∨ r = .prsCfg ∨ r = .frgCfg ∨ r = .rulCommit
      ∨ r = .rulVer ∨ r = .brSeed ∨ r = .lrnCfg ∨ r = .brAgeCfg ∨ r = .lrnStat ∨ r = .cstPoolCfg ∨ r = .cstStat
      ∨ r = .dstCfg ∨ r = .dstFree0 ∨ r = .dstFree1 ∨ r = .sqDarnLevel ∨ r = .hbmCfg) then die else die * 128 + idx)
  | .path => some (match r with
      | .rulEntVal | .rulEntMsk | .brAccData | .edtOp | .evtRingRec => copyInst die p * 128 + idx
      | _ => copyInst die p)
  | .sel => some (copyInst die p)
  | .rtn =>
    let d := s.fld .rtnselDie (copyInst 15 p)
    let i := s.fld .rtnselIndex (copyInst 15 p)
    if (rationReset d i).isSome ∧ ¬(s.is064 ∧ (d = 4 ∨ d = 5)) then some (d * 64 + i) else none
  | .blk => some (die * 64 + idx)
  | .pin => some (s.sel .tpsel die p)
  | .ch => some ch
  | .tree => some (ch / 4)
  | .lnpch => some ((die - 2) * 32 + s.sel .lnsel die p)
  | .lane => some ln
  | .octet => some (ln / 8)
  | .port => some (s.portOf ln)
  | .tlane => some ((die - 6) * 4 + s.sel .lnsel die p % 4)
  | .trib => some ((die - 2) * 256 + s.sel .trsel die p)
  | .alc => some ((die - 2) * 16384 + s.sel .alcsel die p)
  | .alcst | .tribst => some (copyInst die p)
  | .prf => some (ch * 4 + idx)
  | .slot => some ((die - 2) * 4096 + s.sel .onusel die p)
  | .skein => some ((die - 2) * 16 + s.sel .sksel die p)
  | .rtable =>
    let b := die * 16 + s.sel .rtsel die p
    some (if r = .rulKey then b * 128 + idx else b)
  | .htype =>
    let t := s.sel .htsel die p
    if t < 64 then none else some ((die * 128 + t) * 128 + idx)
  | .queue =>
    let q := s.sel .qsel die p
    some (die * 2 ^ 26 + if q / 2 ^ 18 % 2 = 0 then q % 2 ^ 18 else q / 2 ^ 20 % 64 * 2 ^ 20 + 2 ^ 18 + q % 2 ^ 16)
  | .aprof => some (die * 64 + s.sel .apsel die p)
  | .node => some (die * 2 ^ 29 + s.sel .ndsel die p)
  | .pol => some (die * 2 ^ 17 + s.sel .plsel die p)
  | .ge =>
    let g := s.sel .gtsel die p
    if g < 96 ∧ !s.gateless die g then some ((die * 128 + g) * 1024 + s.sel .gesel die p) else none
  | .gctl =>
    let g := s.sel .gtsel die p
    if g < 96 ∧ !s.gateless die g then some (if r = .gtGateCfg then (die * 128 + g) * 128 + idx else die * 128 + g) else none
  | .core => some (die * 128 + s.sel .coresel die p)
  | .pair => some 0
  | .ptree => if s.is064 ∧ 16 ≤ s.sel .tresel die p then none else some (s.sel .tresel die p)
  | .ring => some (s.sel .rgsel die p)
  | .gunit =>
    let u := s.sel .ggcUnit die p
    some (if r = .ggcOvf then u else u * 128 + idx)

/-- The power domains of the package stand in PWR_DOM_STATd (R611, R620): domain d at word d ÷ 32, bit d mod 32. -/
def State.domainOn (s : State) (d : Nat) : Bool := (s.reg .pwrDomStat (d / 32)).getLsbD (d % 32)

/-- The part has a UCIe link: ULT-OT064 lacks those of dies 4 and 5 (R1). -/
def State.hasLink (s : State) (l : Nat) : Bool := l < 7 && !(s.is064 && (l = 2 || l = 3))

/-- A die beyond a UCIe link that is down cannot be reached from the host link on C0 (R16, R504 cause 5). Links:
0-3 C0-L0, C0-L1, C1-L2, C1-L3; 4, 5 C0-U0, C1-U1; 6 the bridge. -/
def State.dieCut (s : State) (die : Nat) : Bool :=
  let down := fun l => s.ucieDown.contains l
  match die with
  | 1 => down 6
  | 2 => down 0
  | 3 => down 1
  | 4 => down 6 || down 2
  | 5 => down 6 || down 3
  | 6 => down 4
  | 7 => down 6 || down 5
  | _ => false

/-- The unit of a channel, and of an uplink lane, is out of service. -/
def State.tcOut (s : State) (c : Nat) : Bool := s.unitOut (dieOfChan c) (c % 32 / 8)

/-- The bridge between the halves is down (R16). -/
def State.bridgeCut (s : State) : Bool := s.ucieDown.contains 6

/-- How many registers of an indexed name a die holds; one of any other name. An access names BLK_ID by its block's number. -/
def idxCount (r : Reg) (die : Nat) : Nat :=
  match r with
  | .blkId => 64
  | .evtStat | .evtMask | .evtRoute => 27
  | .rulKey | .rulEntVal | .rulEntMsk => 10
  | .brAccData | .edtOp | .ggcCfg | .ggcCntHi | .ggcCntLo | .gtGateCfg => 8
  | .evtRingRec | .brxPrfCfg | .brxPrfPreHi | .brxPrfPreLo | .brxPrfDlmHi | .brxPrfDlmLo => 4
  | .prsHdr => 3
  | .sqTmo => 16
  | .sqStat => if die < 6 then 3 else 2
  | .spBankOwner => if die < 2 then 64 else 16
  | .hbmSegOwner => 128
  | .hbmPcMap => 32
  | .secOwnerHash => 12
  | .pwrTemp | .tnsCfg | .tnsStat => 72
  | .pwrDomStat => 13
  | .rmdKind => 9
  | _ => 1

/-- The register directory (R501, R502) and the reserved offsets of the select page (R508): no access there is an error. -/
def accOffset (a : RegAccess) : Nat := a.addr.toNat % 2 ^ 16
def inDirectory (a : RegAccess) : Bool := 4 ≤ accOffset a && accOffset a < 0x4000
def quietOffset (a : RegAccess) : Bool := inDirectory a || (0xFC00 ≤ accOffset a && accOffset a < 0xFD00)

/-- A block that R500 gives the die. -/
def blockKnown (die n : Nat) : Bool :=
  match dieKind die with
  | none => false
  | some k => n < (if k = 0 then 0x16 else if k = 1 then 0x09 else if k = 2 then 0x05 else 0x07)
      || (k = 1 && (n = 0x10 || n = 0x11)) || (k = 2 && n = 0x11)

/-- Why an access is an error (R504); none where it is not. Before cast-on completes only SYS, EVT and LSH answer
(R579). `off` says that the domain of the die or block is off. -/
def State.accessError (s : State) (a : RegAccess) (off : Bool) (write : Bool) : Option Nat :=
  let die := accDie a
  match dieKind die with
  | none => some 2
  | some k =>
    let early := !s.flag .sysCastonDone 0 &&
      !((die = 15 && (accBlock a = 0 || accBlock a = 1)) || (die = 0 && accBlock a = 0x15))
    if (die = 1 && accBlock a = 0x15) || !blockKnown die (accBlock a) then some 2
    else match a.reg with
      | none =>
        if off || early then some 3
        else if s.dieCut die then some 5
        else if quietOffset a then none
        else some 0
      | some r =>
        let known := if r = .blkId then a.idx == accBlock a
          else r.scope = .sel || Blk.number k r.block = some (accBlock a) || r = .rtnsel
        if off || early then some 3
        else if s.dieCut die then some 5
        else if !known || idxCount r die ≤ a.idx then some 0
        else if write && a.partialBe then some 1
        else if (r.scope ≠ .sel) && (s.instOf (apathCode a.path) die a.idx r).isNone then some 4
        else none

/-- The access-error path of R504: counted, latched in SYS_ACC_ERR if it is not valid, raised once a path a frame. -/
def State.accError (s : State) (a : RegAccess) (cause : Nat) : State :=
  let p : Nat := match a.path with | .pcie => 0 | .i3c => 1 | .seq _ => 2
  let s := s.count .sysAccErr 0
  let s := if s.flag .sysAccErrValid 0 then s
    else (s.setReg .sysAccErr 0 (BitVec.ofNat 32 (2 ^ 31 + cause * 2 ^ 28 + p * 2 ^ 26 + a.addr.toNat))).latchFlag .sysAccErrValid 0
  s.raiseOnceBy .sysAccErr 15 0 p

/-- What a written word does to one field of a register (R6, R7, R10): the word so far, whether a reserved encoding
was kept out, whether an RWC field of an unclaimed block would have changed. The spec does not say what becomes of a reserved encoding
written to an RWC field of an unclaimed block: it counts as the latter alone (DESIGN CHOICE, log entry 14). -/
def writeField (old data : Word) (mayRwc : Bool) (acc : Word × Bool × Bool) (f : FieldRow) : Word × Bool × Bool :=
  let x := fieldOf f.lo f.w data
  let o := fieldOf f.lo f.w old
  let (w, bad, unc) := acc
  match f.acc with
  | .rw => if legalValue f.legal x then (withField f.lo f.w w x, bad, unc) else (w, true, unc)
  | .rwc =>
    if !mayRwc then (w, bad, unc || x != o)
    else if legalValue f.legal x then (withField f.lo f.w w x, bad, unc) else (w, true, unc)
  | .w1c => (withField f.lo f.w w (o - (o &&& x)), bad, unc)
  | .w1s => (withField f.lo f.w w (o ||| x), bad, unc)
  | .ro | .wo => (w, bad, unc)

def writeWord (r : Reg) (old data : Word) (mayRwc : Bool) : Word × Bool × Bool :=
  r.rows.foldl (writeField old data mayRwc) (old, false, false)

/-- Whether an access may write the RWC fields of a block: a host path while it claims it (R6, R510); firmware while
nobody does (R41). -/
def State.mayRwc (s : State) (p : APath) (die : Nat) (b : Blk) : Bool :=
  match p with
  | .seq _ => !s.claimed die b
  | _ => s.holdsClaim p die b

/-- How a register that reads as a word stands after a written word meets its access codes, with the counts and events of R7 and
R10. A bit that the device has set in this cycle stands against the clear (R8). -/
def State.meetAs (s : State) (p : APath) (die : Nat) (r : Reg) (i : Nat) (old data : Word) : State × Word :=
  let may := r.scope = .sel || s.mayRwc p die r.block
  let (w, bad, unc) := writeWord r old data may
  let w := w ||| (s.freshBits r i &&& old)
  let s := if bad then s.report .sysBadEnc 0 .sysBadEnc die 0 else s
  (if unc then s.report .sysUnclaimedWr 0 .sysUnclaimedWr die 0 else s, w)

def State.meet (s : State) (p : APath) (die : Nat) (r : Reg) (i : Nat) (data : Word) : State × Word :=
  s.meetAs p die r i (s.reg r i) data

/-- A written word takes effect on an instance of a register. -/
def State.writeReg (s : State) (p : APath) (die : Nat) (r : Reg) (i : Nat) (data : Word) : State :=
  let m := s.meet p die r i data
  m.1.setReg r i m.2

/-- The fields a read returns: reserved and write-only bits read zero (R6, R9). -/
def readableMask (r : Reg) : Word :=
  r.rows.foldl (fun m f => if f.acc = .wo then m else m ||| BitVec.ofNat 32 ((2 ^ f.w - 1) * 2 ^ f.lo)) 0

/-- The _HI of a _LO register that R506 splits a value over. -/
def hiOf : Reg → Option Reg
  | .tbSlewOfsLo => some .tbSlewOfsHi
  | .tbActSecLo => some .tbActSecHi
  | .tbSetSecLo => some .tbSetSecHi
  | .tbPinStartSecLo => some .tbPinStartSecHi
  | .tbCapSecLo => some .tbCapSecHi
  | .brxPrfPreLo => some .brxPrfPreHi
  | .brxPrfDlmLo => some .brxPrfDlmHi
  | .gtBaseSecLo => some .gtBaseSecHi
  | .gtStartSecLo => some .gtStartSecHi
  | .lshRingBaseLo => some .lshRingBaseHi
  | .lshInbMacLo => some .lshInbMacHi
  | .ggcCntLo => some .ggcCntHi
  | _ => none

/-- A _HI register of a split value. -/
def isHi : Reg → Bool
  | .tbSlewOfsHi | .tbActSecHi | .tbSetSecHi | .tbPinStartSecHi | .tbCapSecHi | .brxPrfPreHi | .brxPrfDlmHi
  | .gtBaseSecHi | .gtStartSecHi | .lshRingBaseHi | .lshInbMacHi | .ggcCntHi => true
  | _ => false

end Sys2Proof.Machine
end

