-- ==== Sys2Proof/Machine/Rations.lean ====
section
/-!
DEFINITION. UCIe links and rations (R16, R27-R40, R637). Readings: log entry 10.
-/

namespace Sys2Proof.Machine

/-- R16: a module beyond its spares takes its link down; counted and raised. The ports behind it stop until cast-on:
`State.dieCut`. -/
def execUcieLinkDown (link : BitVec 3) (s : State) : Host.Outcome State Fault Refusal :=
  let l := link.toNat
  if !s.hasLink l ∨ s.ucieDown.contains l then .next s
  else .next ({ s with ucieDown := s.ucieDown ++ [l] }.report .sysUcieDown l .sysUcieDown 15 l)

/-- Budget in [16:0] and borrowing in [24] in force in this period (R40). -/
def State.rationInForce (s : State) (i : Nat) : Word := Tbl.getD s.rtn.inForce i (regReset .sysRtnCfg i)

def State.rationBudget (s : State) (i : Nat) : Nat := fieldOf 0 17 (s.rationInForce i)

/-- The next TAI multiple of 125 µs after a time (R27). -/
def nextBoundary (t : Nat) : Nat := (t / frameSpan + 1) * frameSpan

/-- Opens a ration period: every meter of the package to zero together, and the configured budgets and borrowing
settings in force (R27, R40). -/
def State.openPeriod (s : State) : State :=
  let cfg := s.regs.filterMap (fun p => if p.1 % 1024 = Reg.sysRtnCfg.ctorIdx then some (p.1 / 1024, p.2) else none)
  { s with
    regs := s.regs.filter (fun p => p.1 % 1024 != Reg.sysRtnStat.ctorIdx)
    rtn := { s.rtn with inForce := cfg, start := s.now, next := nextBoundary s.now, opened := s.elapsed, stepped := false, meter := [] } }

/-- What a jump of the time does to the periods (R36): forward past a boundary opens one; after a backward step the period in
force waits for the next boundary of the stepped time, within the limit. -/
def State.periodJump (s : State) (old : Nat) : State :=
  if 0 ≤ timeDiff s.now old then (if reached s.now s.rtn.next then s.openPeriod else s)
  else { s with rtn := { s.rtn with next := nextBoundary s.now, stepped := true } }

/-! ### Meters (R28-R35) -/

/-- R30, R34: a ration is spent: counted once a period, raised if evt_en is set. A budget from 125,000 is never spent. -/
def State.spend (s : State) (die index : Nat) : State :=
  let i := die * 64 + index
  if (rationReset die index).isNone ∨ 125000 ≤ s.rationBudget i ∨ s.flag .sysRtnStatSpent i then s
  else
    let s := (s.setFlag .sysRtnStatSpent i true).count .sysRtnSpent i
    if s.flag .sysRtnCfgEvtEn i then s.raise .sysRtnSpent die index else s

/-- The meter of a ration at an amount of time, and SYS_RTN_STAT.used in ns, saturating at 131,071 (R28, R40). -/
def State.setMeter (s : State) (i span : Nat) : State :=
  { s with rtn := { s.rtn with meter := s.rtn.meter.put i span } }.setFld .sysRtnStatUsed i (min 131071 (span / nsUnit))

/-- R31: borrowed time is added to sys_rtn_borrow_ns, and counts against no ration. -/
def State.borrow (s : State) (i span : Nat) : State :=
  let total := s.rtn.borrowed + span
  { s with rtn := { s.rtn with borrowed := total } }.countBy .sysRtnBorrowNs i (total / nsUnit - s.rtn.borrowed / nsUnit)

/-- A resource serves an activity for a span of time (R28, R30, R31): its meter advances to the budget; what goes past it is borrowed
where the activity borrows, else the end of the access in progress. -/
def State.chargeWith (s : State) (die index span : Nat) (borrows : Bool) : State :=
  let i := die * 64 + index
  let budget := s.rationBudget i * nsUnit
  let total := Tbl.getD s.rtn.meter i 0 + span
  if s.flag .sysRtnStatSpent i then s.borrow i span
  else if total < budget ∨ 125000 ≤ s.rationBudget i then s.setMeter i total
  else
    let past := if borrows then total - budget else 0
    ((s.setMeter i (total - past)).spend die index).borrow i past

/-- R34: an activity wants resource time; a budget of 0 is spent at that instant. -/
def State.wantTime (s : State) (die index : Nat) : State :=
  if s.rationBudget (die * 64 + index) = 0 then s.spend die index else s

/-- The activities that share a ration's resource (R32, R33): those of a pipeline, of the maintenance port, of a stack, of the
scratchpad banks. -/
def rationPeers (die index : Nat) : List Nat :=
  if die < 2 then
    if index < 9 then [index + 9]
    else if index < 18 then [index - 9]
    else if index < 21 then [18, 19, 20].filter (· != index)
    else if index = 22 then [23] else if index = 23 then [22]
    else if 24 ≤ index ∧ index < 29 then [24, 25, 26, 27, 28].filter (· != index)
    else if 29 ≤ index ∧ index < 34 then [29, 30, 31, 32, 33].filter (· != index)
    else []
  else if die < 6 then (if index = 1 then [2] else if index = 2 then [1] else [])
  else []

/-- The ration of SKEW on a half (R32, R550): that of the stack that holds its lowest segment (log entry 51). -/
def State.skewRation (s : State) (half : Nat) : Nat :=
  if (List.range 64).any (fun g => fieldOf 0 3 (s.reg .hbmSegOwner (half * 128 + g)) = 1) then 25 else 30

/-- HBM accesses for the skeins and tributaries of a half wait (R258). -/
def State.skewWaits (s : State) (half : Nat) : Bool :=
  s.skeinOnus.any (fun p => p.2.skein / 32 = half && p.2.held.any (·.spill))
    || s.tribs.any (fun p => p.1 / 512 = half && p.2.aligning.any (fun a => !a.waiting.isEmpty))
    || s.skewOut.any (fun x => x.2.1 / 32 = half && !x.2.2.inPool)

/-- Work of an activity stands waiting in the state (R35). -/
def State.activityWaits (s : State) (die index : Nat) : Bool :=
  let f := Tbl.getD s.fwd die Fwd.empty
  let xfer := fun (part : Nat) => s.pads.dmas.any (fun d => d.die = die && d.bank / 64 = part)
  if die < 2 then
    if index < 9 then !(Tbl.getD f.recirc index []).isEmpty
    else if index < 18 then !(Tbl.getD f.injected (index - 9) []).isEmpty
    else if index = 18 then s.tableWaits.any (fun w => w.halves.contains die) || !f.flush.isEmpty
    else if index = 19 then !f.lrnQ.isEmpty
    else if index = 20 then !f.refreshQ.isEmpty || f.scan.isSome || f.bridge.any (fun p => decide (4194304 ≤ p.1))
    else if index = 22 then s.gauge.latched.isSome
    else if index = 23 then xfer 0
    else if index = 24 ∨ index = 29 then
      (Tbl.getD s.store die Store.empty).queues.any (fun q => (q.2.holding && q.2.stack % 2 = (index - 24) / 5)
        || (decide (q.2.headCells < 32) && (q.2.pages.head?.map (fun g => decide (g.1 / 2 ^ 22 = (index - 24) / 5))).getD false))
    else if index = 25 ∨ index = 30 then s.skewRation die = index && s.skewWaits die
    else if index = 26 ∨ index = 31 then
      s.pm.ents.any (fun e => (if e.2.die < 2 then e.2.die else (e.2.die - 2) / 2) = die && e.2.enabled && decide (10 ≤ e.2.secs.length))
    else if index = 27 ∨ index = 32 then s.pads.handovers.any (fun x => x.die = die && x.bank / 64 = 1 + (index - 27) / 5)
    else if index = 28 ∨ index = 33 then xfer (1 + (index - 28) / 5)
    else false
  else if index = 1 then s.gauge.latched.isSome
  else if index = 2 then xfer 0
  else false

/-- Line traffic, or an activity with unspent ration, waits for a ration's resource (R31). -/
def State.resourceWanted (s : State) (die index : Nat) : Bool :=
  let f := Tbl.getD s.fwd die Fwd.empty
  (decide (die < 2 ∧ index < 18) && (!f.downHeads.isEmpty || !f.upHeads.isEmpty))
  || (rationPeers die index).any (fun j => s.activityWaits die j && !s.flag .sysRtnStatSpent (die * 64 + j))

/-- An activity may go on past its budget: it borrows in this period and nothing else wants the resource (R31). -/
def State.mayBorrow (s : State) (die index : Nat) : Bool :=
  (s.rationInForce (die * 64 + index)).getLsbD 24 && !s.resourceWanted die index

/-- R30, R31, R35: a ration's work waits: it is spent, and may not borrow in this period or finds the resource wanted. -/
def State.rationWaits (s : State) (die index : Nat) : Bool :=
  s.flag .sysRtnStatSpent (die * 64 + index) && !s.mayBorrow die index

def State.charge (s : State) (die index span : Nat) : State := s.chargeWith die index span (s.mayBorrow die index)

/-- The part of a span of work that a ration lets the resource serve now: none while it waits, else what is left of the budget, or all
of it where the ration is unmetered or may borrow (R30, R31, R34). -/
def State.rationSpan (s : State) (die index span : Nat) : Nat :=
  let i := die * 64 + index
  if s.rationWaits die index then 0
  else if s.flag .sysRtnStatSpent i ∨ 125000 ≤ s.rationBudget i ∨ s.mayBorrow die index then span
  else min span (s.rationBudget i * nsUnit - Tbl.getD s.rtn.meter i 0)

/-- A rationed activity wants time, and is served with it unless it waits: whether it was. -/
def State.serve (s : State) (die index span : Nat) : State × Bool :=
  let s := s.wantTime die index
  if s.rationWaits die index then (s, false) else (s.charge die index span, true)

/-- A rationed activity wants time for a piece of work and, unless it waits, has it done and charged (R28-R35). -/
def State.rationed (s : State) (die index span : Nat) (work : State → State) : State :=
  let s := s.wantTime die index
  if s.rationWaits die index then s else (work s).charge die index span

/-- R30: the meter of an activity that a resource goes on serving reaches its budget. -/
def execRationSpent (die : BitVec 3) (index : BitVec 6) (s : State) : Host.Outcome State Fault Refusal :=
  let i := die.toNat * 64 + index.toNat
  .next (if (rationReset die.toNat index.toNat).isNone ∨ 125000 ≤ s.rationBudget i ∨ s.flag .sysRtnStatSpent i then s
    else (s.setMeter i (max (Tbl.getD s.rtn.meter i 0) (s.rationBudget i * nsUnit))).spend die.toNat index.toNat)

/-- The region of a pipeline (R613), and one slot of it: a cycle of 1.5 GHz, stretched by s sixteenths (R23, R614). -/
def State.slotSpan (s : State) (half pipe : Nat) : Nat :=
  nsUnit * 2 * (16 + s.fld .tnsStatS (18 * half + pipe)) / 48
/-- An access of the maintenance port: 4 ns (R305). -/
def accessSpan : Nat := nsSpan 4
/-- HBM command time of an amount of bytes at a stack's 461 GB/s (R32). -/
def hbmSpan (bytes : Nat) : Nat := bytes * nsUnit / 461

/-- A budget as it counts in the sums of R33 (R34). -/
def countedBudget (index b : Nat) : Nat := if b < 125000 then b else if index < 18 then 31250 else 125000

/-- The indices whose budgets are summed with an index's on a core die, and the sum's limit (R33). -/
def rationSum (index : Nat) : List Nat × Nat :=
  if index < 9 then ([index, index + 9], 31250)
  else if index < 18 then ([index - 9, index], 31250)
  else if index < 21 then ([18, 19, 20], 125000)
  else if 24 ≤ index ∧ index < 29 then ([24, 25, 26, 27, 28], 125000)
  else if 29 ≤ index ∧ index < 34 then ([29, 30, 31, 32, 33], 125000)
  else ([], 0)

/-- Whether the sums of R33 hold with a new budget for one ration. -/
def State.rationSumsHold (s : State) (die index budget : Nat) : Bool :=
  if die < 2 then
    let (l, lim) := rationSum index
    let total := (l.map (fun j => countedBudget j (if j = index then budget else s.fld .sysRtnCfgBudget (die * 64 + j)))).sum
    total ≤ lim
  else true

/-- R637: SYS.RATION_SET. -/
def execSysRationSet (h : Hdr) (index cfg : Word) (s : State) : Host.Outcome State Fault Refusal :=
  .next (command h 0x0010 (.oneOf [0, 1, 2, 3, 4, 5, 6, 7]) (fun _ s =>
    let d := h.die.toNat
    let i := index.toNat
    if (rationReset d i).isNone ∨ 63 < i ∨ cfg &&& 0xFCFE0000 ≠ 0 then .fail s .badParam
    else if !s.rationSumsHold d i (fldOf .sysRtnCfgBudget cfg) then .fail s .badParam
    else s.unlessClaimed [(15, .sys)] (.ok (s.setReg .sysRtnCfg (d * 64 + i) cfg))) s)

/-- R637: SYS.RATION_GET. -/
def execSysRationGet (h : Hdr) (index : Word) (s : State) : Host.Outcome State Fault Refusal :=
  .next (command h 0x0011 (.oneOf [0, 1, 2, 3, 4, 5, 6, 7]) (fun _ s =>
    let d := h.die.toNat
    let i := index.toNat
    if (rationReset d i).isNone ∨ 63 < i then .fail s .badParam
    else .ok s [s.reg .sysRtnCfg (d * 64 + i), s.reg .sysRtnStat (d * 64 + i)]) s)

end Sys2Proof.Machine
end

