-- ==== Sys2Proof/Machine/PmBins.lean ====
section
/-!
DEFINITION. PM seconds and bins (R585-R593, R595): classification, commitment ten seconds later, availability, bins on TAI
boundaries and time steps. A binner works on the entities of its die; the uplink ports' are a core die's.
-/

namespace Sys2Proof.Machine

/-- Lengths of the bins in seconds (R590). -/
def binLen (day : Bool) : Nat := if day then 86400 else 900
def binsKept (day : Bool) : Nat := if day then 2 else 97
def binStart (day : Bool) (sec : Nat) : Nat := sec / binLen day * binLen day

/-- Suspect reasons (R592). -/
def suspectStep : Nat := 0
def suspectUnaligned : Nat := 1
def suspectIncomplete : Nat := 2
def suspectClear : Nat := 3
def suspectLost : Nat := 4
def suspectHbm : Nat := 5

def PmBin.mark (b : PmBin) (reason : Nat) : PmBin := { b with suspect := b.suspect ||| 2 ^ reason }

def PmEnt.bins (e : PmEnt) (day : Bool) : List PmBin := if day then e.days else e.quarters
def PmEnt.setBins (e : PmEnt) (day : Bool) (l : List PmBin) : PmEnt := if day then { e with days := l } else { e with quarters := l }

def markHead (reason : Nat) : List PmBin → List PmBin
  | [] => []
  | b :: r => b.mark reason :: r

/-- The current bins of an entity become suspect. -/
def PmEnt.markNow (e : PmEnt) (reason : Nat) : PmEnt :=
  if e.enabled then { e with quarters := markHead reason e.quarters, days := markHead reason e.days } else e

/-- The ring advances into a bin that begins at a second. -/
def PmEnt.advance (e : PmEnt) (day : Bool) (start suspect : Nat) : PmEnt :=
  if e.enabled then e.setBins day ((⟨start, [], suspect, []⟩ :: e.bins day).take (binsKept day)) else e

/-- Entities a die keeps. -/
def State.pmOn (s : State) (die : Nat) : List (Nat × PmEnt) := s.pm.ents.filter (fun p => p.2.die = die && p.2.enabled)

/-- The trees, and what is kept on them, that a kind and index name. -/
def State.pmTreeOf (s : State) (key : Nat) : Option Nat :=
  let i := key % 65536
  match key / 65536 with
  | 0 => some (i / 4)
  | 1 => (s.pon.onus.find i).map (fun x => x.tree)
  | 2 => some (i / 2)
  | 3 => ((s.tribs.find i).bind (fun x => s.pon.onus.find x.onu)).map (fun x => x.tree)
  | _ => none

/-- R592: a tree has launched or stopped. -/
def State.pmTree (s : State) (t : Nat) : State :=
  { s with pm := { s.pm with ents := s.pm.ents.map (fun (p : Nat × PmEnt) =>
    if s.pmTreeOf p.1 = some t then (p.1, p.2.markNow suspectIncomplete) else p) } }

/-- R585: the entity's defect holds now. -/
def State.pmDefectNow (s : State) (key : Nat) : Bool :=
  let i := key % 65536
  match key / 65536 with
  | 0 => s.fld .lnpCtlRxState i != 3 || s.pin .refclkPon (i / 32) = 0
  | 1 => ((s.pon.onus.find i).map (fun x => decide (x.phase = .lost))).getD false
  | 2 => (List.range 4).any (fun wl => s.memberDown.has (4 * i + wl))
  | 3 => ((s.tribs.find i).map (fun x => x.down)).getD false
  | _ => s.fld .lnuStatState i != 3

/-- The severely-errored ratio of a kind in per cent (R586, R607). -/
def State.sesRatio (s : State) (kind : Nat) : Nat :=
  if kind < 2 then s.fld .ggcPmCfgSesPon 0 else if kind < 4 then s.fld .ggcPmCfgSesTrib 0 else s.fld .ggcPmCfgSesUpl 0

/-- R586: the second in force of an entity is classified and joins those not yet committed. -/
def State.pmClassify (s : State) (key start : Nat) (e : PmEnt) : PmEnt :=
  let defect := e.defect || s.pmDefectNow key
  let ses := defect || (e.blocks != 0 && decide (s.sesRatio (key / 65536) * e.blocks ≤ 100 * e.bad))
  { e with secs := e.secs ++ [⟨start, ses, ses || e.bad != 0, e.blocks, e.bad⟩], blocks := 0, bad := 0, defect := s.pmDefectNow key }

/-- R587: the oldest second, with the nine after it, decides the availability and is committed to the bins that hold its
start. -/
def State.commitSec (s : State) (key : Nat) (e : PmEnt) : State :=
  match e.secs with
  | [] => s
  | h :: rest =>
    let ten := e.secs.take 10
    let un := if e.unavailable then !ten.all (fun x => !x.ses) else ten.all (fun x => x.ses)
    let s := s.modPmEnt key (fun e => { e with secs := rest, unavailable := un })
    let put := fun (s : State) (p n : Nat) =>
      if n = 0 then s
      else
        let here := fun (day : Bool) (b : PmBin) => decide (b.start ≤ h.start ∧ h.start < b.start + binLen day)
        (s.pmInto key p n false (here false)).pmInto key p n true (here true)
    if un then put s 2 1
    else put (put (put (put s 0 h.es.toNat) 1 h.ses.toNat) 3 h.blocks) 4 h.bad

/-- Seconds that are final are committed, oldest first. -/
def State.commitSecs (s : State) (key : Nat) : Nat → State
  | 0 => s
  | n + 1 =>
    match s.pm.ents.find key with
    | some e => if 10 ≤ e.secs.length then State.commitSecs (s.commitSec key e) key n else s
    | none => s

/-- The half that keeps the history of a die's entities (R589). -/
def pmHalf (die : Nat) : Nat := if die < 2 then die else (die - 2) / 2

/-- The stacks of a half that hold PM history (R550). -/
def State.pmStacks (s : State) (half : Nat) : List Nat :=
  [0, 1].filter (fun k => (List.range 64).any (fun g => fieldOf 0 3 (s.reg .hbmSegOwner (half * 128 + k * 64 + g)) = 2))

/-- The rations under which a die's seconds are committed, with their time for one entity (R32, R589; log entry 10): GAUGE_PM for the 64
bytes of its working state, two accesses of its bank (R541), and PMH of a stack that holds the history for its two bins of 256 bytes. -/
def State.pmRations (s : State) (die : Nat) : List ((Nat × Nat) × Nat) :=
  ((die, if die < 2 then 22 else 1), 2 * nsUnit * 2 / 3) :: (s.pmStacks (pmHalf die)).map (fun k => ((pmHalf die, 26 + 5 * k), hbmSpan 512))

/-- R595: more than 16 seconds pend hand-over: the oldest is lost, and its bins are suspect. -/
def PmEnt.loseOldest (e : PmEnt) : PmEnt :=
  match e.secs with
  | [] => e
  | h :: rest =>
    let hit := fun (day : Bool) (b : PmBin) => if b.start ≤ h.start ∧ h.start < b.start + binLen day then b.mark suspectLost else b
    if 25 < e.secs.length then { e with secs := rest, quarters := e.quarters.map (hit false), days := e.days.map (hit true) } else e

def State.losePending (s : State) (die : Nat) : State :=
  if (s.pmOn die).any (fun p => 25 < p.2.secs.length) then
    let s := { s with pm := { s.pm with ents := s.pm.ents.map (fun (p : Nat × PmEnt) => if p.2.die = die then (p.1, p.2.loseOldest) else p) } }
    (s.count .pmbSecLost die).raiseOnce .pmbSecLost die 0
  else s

/-- What is final on a die is committed, entity by entity while the rations that carry it allow that; else it pends (R35, R595). -/
def State.pmCommit (s : State) (die : Nat) : State :=
  let due := (s.pmOn die).filter (fun p => 10 ≤ p.2.secs.length)
  if due.isEmpty then s
  else
    let rations := s.pmRations die
    (due.foldl (fun s p =>
      let s := rations.foldl (fun s r => s.wantTime r.1.1 r.1.2) s
      if rations.any (fun r => s.rationWaits r.1.1 r.1.2) then s
      else (rations.foldl (fun s r => s.charge r.1.1 r.1.2 r.2) s).commitSecs p.1 26) s).losePending die

/-- The second that begins on a die now. -/
def State.pmBegins (s : State) (die : Nat) : PmNow :=
  ⟨s.elapsed, secOf (s.nowOn die), secOf (s.nowOn die) + 1, false⟩

/-- R586, R587: the second in force on a die ends: it is classified, and what is final is committed. -/
def State.pmSecond (s : State) (die : Nat) : State :=
  match s.pm.began.find die with
  | none => s
  | some b =>
    { s with pm := { s.pm with
      ents := s.pm.ents.map (fun (p : Nat × PmEnt) => if p.2.die = die ∧ p.2.enabled then (p.1, s.pmClassify p.1 b.start p.2) else p)
      began := s.pm.began.put die (s.pmBegins die), tcaTold := s.pm.tcaTold.del die } }.pmCommit die

/-- R586: the TAI second boundary that ends the second in force has been reached on the die's replica. -/
def execPmSecond (die : BitVec 3) (s : State) : Host.Outcome State Fault Refusal :=
  match s.pm.began.find die.toNat with
  | some b => if reached (s.nowOn die.toNat) (mkTime b.next 0) then .next (s.pmSecond die.toNat) else .next s
  | none => .next s

/-- R593: after a backward step the second in force lasts for at most 1 s of elapsed time. -/
def execPmSecondForced (die : BitVec 3) (s : State) : Host.Outcome State Fault Refusal :=
  match s.pm.began.find die.toNat with
  | some b => if b.stepped ∧ b.since + secUnit ≤ s.elapsed then .next (s.pmSecond die.toNat) else .next s
  | none => .next s

/-- R51: a second is reached, seconds being compared modulo 2^48. -/
def secReached (sec target : Nat) : Bool := 0 ≤ signedOf 48 ((sec + 2 ^ 48 - target % 2 ^ 48) % 2 ^ 48)

/-- The end boundary of an entity's bin in force has been reached in a second (R590). -/
def PmEnt.ends (e : PmEnt) (day : Bool) (sec : Nat) : Bool :=
  match (e.bins day).head? with
  | some b => secReached sec (b.start + binLen day)
  | none => true

/-- R590, R592: a bin boundary, launched by the die's replica: the ring advances into an empty bin. -/
def State.binBoundary (s : State) (die : Nat) (day : Bool) : State :=
  let reason := if s.flag .tbStatAligned 0 then 0 else 2 ^ suspectUnaligned
  let sec := secOf (s.nowOn die)
  { s with pm := { s.pm with ents := s.pm.ents.map (fun (p : Nat × PmEnt) =>
    if p.2.die = die ∧ p.2.ends day sec then (p.1, p.2.advance day (binStart day sec) reason) else p) } }

def execPmBinBoundary (die : BitVec 3) (day : Bool) (s : State) : Host.Outcome State Fault Refusal :=
  .next (s.binBoundary die.toNat day)

/-- The bins a forward step passes over close empty and suspect, in ascending order (R593). -/
def PmEnt.passOver (e : PmEnt) (day : Bool) (old now_ : Nat) : PmEnt :=
  let now_ := if now_ < old then now_ + 2 ^ 48 else now_
  let first := binStart day old + binLen day
  let n := (binStart day now_ + binLen day - first) / binLen day
  let skip := n - binsKept day
  (List.range (n - skip)).foldl (fun e i => e.advance day (first + (skip + i) * binLen day) (2 ^ suspectStep)) e

/-- R592, R593: the time has been stepped or set: forward, the second in force closes; backward, it lasts until the next boundary. -/
def State.pmJump (s : State) (old : Nat) : State :=
  let mark := fun (s : State) => { s with pm := { s.pm with ents := s.pm.ents.map (fun (p : Nat × PmEnt) => (p.1, p.2.markNow suspectStep)) } }
  let s := mark s
  if 0 < timeDiff s.now old then
    let dies := ((s.pm.ents.filter (fun p => p.2.enabled)).map (fun p => p.2.die)).eraseDups
    let s := dies.foldl State.pmSecond s
    { s with pm := { s.pm with ents := s.pm.ents.map (fun (p : Nat × PmEnt) =>
      (p.1, (p.2.passOver false (secOf old) (secOf s.now)).passOver true (secOf old) (secOf s.now))) } }
  else { s with pm := { s.pm with began := s.pm.began.map (fun (p : Nat × PmNow) =>
    (p.1, { p.2 with next := secOf (s.nowOn p.1) + 1, stepped := true })) } }

end Sys2Proof.Machine
end

