-- ==== Sys2Proof/Machine/Time.lean ====
section
/-!
DEFINITION. The timebase: increment, servo watchdog, actions, slews, replicas, time pins, PTP ports (R42-R78, R638).
-/

namespace Sys2Proof.Machine

/-- The increment in force, in 2^-32 ns (R43). -/
def State.incr (s : State) : Nat := s.fld .tbIncrInt 0 * 2 ^ 32 + s.tb.frac.toNat

/-- R44: increments from 1.2 ns to 2.0 ns inclusive. -/
def incrOk (v : Nat) : Bool := 6 * 2 ^ 32 ≤ 5 * v && v ≤ 2 * 2 ^ 32

/-- R49: a slew's magnitude is at most 0.16 ns a cycle. -/
def slewOk (ofs : Int) (cyc : Nat) : Bool := ofs.natAbs * 100 ≤ 16 * cyc * 2 ^ 16

/-- The time moves by a signed amount of 2^-32 ns, modulo 2^48 s. -/
def State.moveTime (s : State) (d : Int) : State := { s with now := ((s.now + d) % timeMod).toNat }

/-- Time runs on by an amount: the time in force and the elapsed time. -/
def State.runTime (s : State) (d : Int) : State := { s.moveTime d with elapsed := (s.elapsed + d).toNat }

/-- One cycle of 625 MHz (R43, R49): the increment, and a share of the slew with its remainder carried. The timebase
runs from the end of the CLOCK stage (R577). -/
def State.tick (s : State) : State :=
  if s.fld .sysCastonStage 0 < 2 then s
  else
    let s := { s with tb := { s.tb with cycle := s.tb.cycle + 1 } }
    match s.tb.slew with
    | none => s.runTime s.incr
    | some w =>
      let q := w.rest / (w.cycles : Int)
      let w' := if w.cycles ≤ 1 then none else some ⟨w.rest - q, w.cycles - 1⟩
      { s with tb := { s.tb with slew := w' } }.runTime (s.incr + q)

/-- The TB_STAT word: the register's own bits, with slew_busy and act_pend as the timebase stands (R76). -/
def State.tbStat (s : State) : Word :=
  withField 3 1 (withField 2 1 (s.reg .tbStat 0) s.tb.pendingAction.isSome.toNat) s.tb.slew.isSome.toNat

/-- An accepted increment write restarts the servo watchdog and ends holdover (R45). -/
def State.installIncr (s : State) (v : Nat) : State :=
  let s := (s.setFld .tbIncrInt 0 (v / 2 ^ 32)).setFlag .tbStatHoldover 0 false
  { s with tb := { s.tb with frac := BitVec.ofNat 32 v, wdogFired := false, wdogFrom := s.elapsed } }

/-- R44: a refused increment or slew: counted and raised. -/
def State.incrReject (s : State) : State := s.report .tbIncrReject 0 .tbIncrReject 0 0

/-- R44: an increment write by command, register or action. -/
def State.writeIncr (s : State) (v : Nat) : State := if incrOk v then s.installIncr v else s.incrReject

/-- A full-form parameter as a time. The spec refuses neither nanoseconds of 10^9 or more nor a seconds word above 16 bits where no
rule names them: the nanoseconds carry into the seconds, which are taken modulo 2^48 (DESIGN CHOICE, log entry 11). -/
def T3.time (t : T3) : Nat := mkTime (t.hi.toNat % 65536 * 2 ^ 32 + t.lo.toNat) t.ns.toNat

/-- R47: an instant that has passed or lies less than 1 µs ahead. -/
def tooLate (now instant : Nat) : Bool := -1000 < timeDiff now instant

/-- R72: TIME.GET. -/
def execTimeGet (h : Hdr) (s : State) : Host.Outcome State Fault Refusal :=
  .next (command h 0x0100 (.owner 0) (fun _ s => .ok s (timeWords s.now ++ [s.tbStat])) s)

/-- R44, R72: TIME.INCR_SET. -/
def execTimeIncrSet (h : Hdr) (int frac : Word) (s : State) : Host.Outcome State Fault Refusal :=
  .next (command h 0x0101 (.owner 0) (fun _ s =>
    let v := int.toNat * 2 ^ 32 + frac.toNat
    if !incrOk v then .fail s.incrReject .badParam
    else s.unlessClaimed [(0, .tb)] (.ok (s.installIncr v))) s)

/-- The action TIME.ACTION carries (R638). -/
def actionOf (w : ActionWords) (now cycle : Nat) : Action where
  kinds := w.kinds.toNat / 2
  instant := T3.time w.instant
  late := tooLate now (T3.time w.instant)
  setValue := T3.time w.setValue
  stepNs := signedOf 32 w.stepSec.toNat * 1000000000 + signedOf 32 w.stepNs.toNat
  incr := w.incrInt.toNat * 2 ^ 32 + w.incrFrac.toNat
  slewOfs := signedOf 64 (w.slewHi.toNat * 2 ^ 32 + w.slewLo.toNat)
  slewCyc := w.slewCyc.toNat
  armed := cycle

def Action.has (a : Action) (bit : Nat) : Bool := a.kinds.testBit bit

/-- R638: the parameters are in range; fields of kinds that are not named are ignored. -/
def actionWordsOk (w : ActionWords) : Bool :=
  let k := w.kinds.toNat
  k != 0 && k &&& 0xFFFFFFE1 = 0
  && (!k.testBit 2 || (signedOf 32 w.stepNs.toNat).natAbs < 1000000000)
  && (!k.testBit 4 || w.setValue.ns.toNat < 1000000000)
  && (!k.testBit 3 || w.slewCyc != 0)
  && (!k.testBit 1 || w.incrInt.toNat < 16)

/-- The increment and the slew an action carries are within R44 and R49. -/
def actionRatesOk (a : Action) : Bool :=
  (!Action.has a 0 || incrOk a.incr) && (!Action.has a 2 || slewOk a.slewOfs a.slewCyc)

/-- R46-R48, R638: TIME.ACTION. -/
def execTimeAction (h : Hdr) (w : ActionWords) (s : State) : Host.Outcome State Fault Refusal :=
  .next (command h 0x0102 (.owner 0) (fun _ s =>
    let a := actionOf w s.now s.tb.cycle
    if !actionWordsOk w then .fail s .badParam
    else if !actionRatesOk a then .fail s.incrReject .badParam
    else s.unlessClaimed [(0, .tb)] (
      if s.tb.pendingAction.isSome then .fail s .busy
      else ⟨{ s with tb := { s.tb with pendingAction := some a } }, if a.late then .advanced else .ok, [], false⟩)) s)

/-- The pending action applies in this cycle (R46, R47): its instant is reached, or 625 cycles have passed since a late arming. -/
def State.actionDue (s : State) (a : Action) : Bool :=
  if a.late then a.armed + 625 ≤ s.tb.cycle else reached s.now a.instant

/-- The pending action, unless it applies in this cycle: what a cancel can still take away (R48). -/
def State.cancellable (s : State) : Bool :=
  match s.tb.pendingAction with
  | some a => !s.actionDue a
  | none => false

/-- R48: TIME.ACTION_CANCEL; one that arrives in the cycle in which the action applies, or with none pending, is too late. -/
def execTimeActionCancel (h : Hdr) (s : State) : Host.Outcome State Fault Refusal :=
  .next (command h 0x0103 (.owner 0) (fun _ s =>
    s.unlessClaimed [(0, .tb)] (
      if s.cancellable then .ok { s with tb := { s.tb with pendingAction := none } }
      else .fail s .notReady)) s)

/-- R45, R77: setting the watchdog; a non-zero timeout restarts it. -/
def State.setWdog (s : State) (ms : Nat) : State :=
  let s := s.setFld .tbWdogTimeout 0 ms
  if ms = 0 then s else { s with tb := { s.tb with wdogFired := false, wdogFrom := s.elapsed } }

/-- R72, R77: TIME.WDOG_SET. -/
def execTimeWdogSet (h : Hdr) (timeout : Word) (s : State) : Host.Outcome State Fault Refusal :=
  .next (command h 0x0104 (.owner 0) (fun _ s =>
    if 65535 < timeout.toNat then .fail s .badParam
    else s.unlessClaimed [(0, .tb)] (.ok (s.setWdog timeout.toNat))) s)

/-- R59: the limits of a pin's configuration: width at least 4 ns; in periodic mode a period of at least 16 ns and a
width of at most the period − 4 ns. Whether the period binds a single pulse too the spec does not say: here it does not (DESIGN CHOICE, log
entry 93). -/
def pinLimitsOk (mode period width : Nat) : Bool :=
  if mode = 1 then 4 ≤ width
  else if mode = 2 then 16 ≤ period && 4 ≤ width && width + 4 ≤ period
  else true

def State.pinOk (s : State) (p : Nat) : Bool :=
  pinLimitsOk (s.fld .tbPinCfgMode p) (s.fld .tbPinPeriodV p) (s.fld .tbPinWidthV p)

/-- TB_PIN_START of a pin. -/
def State.pinStart (s : State) (p : Nat) : Nat :=
  mkTime ((s.fld .tbPinStartSecHiV p) * 2 ^ 32 + s.fld .tbPinStartSecLoV p) (s.fld .tbPinStartNsV p)

/-- A pin's configuration has been written: its first edge is its start; outside the limits of R59 the pin stays idle, counted and
raised. Any write arms the pin afresh, also one whose single pulse has fired: the spec does not say (DESIGN CHOICE, log entry 93). -/
def State.pinWritten (s : State) (p : Nat) : State :=
  let pulsing := s.fld .tbPinCfgMode p = 1 ∨ s.fld .tbPinCfgMode p = 2
  let s := { s with tb := { s.tb with nextEdge := s.tb.nextEdge.setOpt p (if pulsing then some (s.pinStart p) else none) } }
  if s.pinOk p then s else s.report .tbPinBad p .tbPinBad 0 p

/-- R59, R72: TIME.PIN_SET. PPS_IN's mode is fixed at 3 (R78). -/
def execTimePinSet (h : Hdr) (pin mode pol : Word) (start : T3) (period width : Word) (s : State) :
    Host.Outcome State Fault Refusal :=
  .next (command h 0x0105 (.owner 0) (fun _ s =>
    let p := pin.toNat
    if 32 < p ∨ 5 < mode.toNat ∨ 1 < pol.toNat ∨ (p = 32 ∧ mode.toNat ≠ 3) ∨ 999999999 < start.ns.toNat
        ∨ 65535 < start.hi.toNat then .fail s .badParam
    else s.unlessClaimed [(0, .tb)] (
      let s := (s.setFld .tbPinCfgMode p mode.toNat).setFld .tbPinCfgPol p pol.toNat
      let s := ((s.setReg .tbPinStartSecHi p start.hi).setReg .tbPinStartSecLo p start.lo).setReg .tbPinStartNs p start.ns
      .ok (((s.setReg .tbPinPeriod p period).setReg .tbPinWidth p width).pinWritten p))) s)

def Capture.words (c : Capture) : List Word := timeWords c.time ++ [BitVec.ofNat 32 (fracOf c.time), BitVec.ofNat 32 c.step.toNat]

/-- R60, R72: TIME.CAPTURE_READ returns and removes up to 16 records. The order of a record's words is log entry 8. -/
def execTimeCaptureRead (h : Hdr) (pin count : Word) (s : State) : Host.Outcome State Fault Refusal :=
  .next (command h 0x0106 (.owner 0) (fun _ s =>
    let p := pin.toNat
    if 32 < p ∨ 16 < count.toNat ∨ count = 0 then .fail s .badParam
    else s.unlessClaimed [(0, .tb)] (
      let q := Tbl.getD s.tb.captures p []
      let n := count.toNat
      .ok { s with tb := { s.tb with captures := Tbl.setD s.tb.captures p [] (q.drop n) } }
        (BitVec.ofNat 32 (q.take n).length :: (q.take n).flatMap Capture.words))) s)

/-- R61, R72: TIME.PPS_SET, in steps of 1 µs. -/
def execTimePpsSet (h : Hdr) (width : Word) (s : State) : Host.Outcome State Fault Refusal :=
  .next (command h 0x0107 (.owner 0) (fun _ s =>
    if width.toNat < 1 ∨ 500000 < width.toNat then .fail s .badParam
    else s.unlessClaimed [(0, .tb)] (.ok (s.setFld .tbPpsCfgWidth 0 width.toNat))) s)

/-- A 48-bit counter in two words. -/
def ctrWords (v : Nat) : List Word := [BitVec.ofNat 32 (v / 2 ^ 32 % 2 ^ 16), BitVec.ofNat 32 v]

/-- The timebase's counters, in ascending order of their names (log entry 8). -/
def tbCounters : List Ctr :=
  [.tbActBusy, .tbActLate, .tbCapOvf, .tbDiv, .tbFrameErr, .tbIncrReject, .tbPinBad, .tbRefHold, .tbServoWdog, .tbShortPast]

/-- A counter's total over its instances. -/
def State.ctrAll (s : State) (c : Ctr) : Nat := ((s.ctrs.filter (fun p => p.1 % 1024 = c.ctorIdx)).map Prod.snd).sum

/-- R72: TIME.STATUS: TB_STAT, the timebase's counters, each replica's difference in 0.1 ns (log entry 8). -/
def execTimeStatus (h : Hdr) (s : State) : Host.Outcome State Fault Refusal :=
  .next (command h 0x0109 (.owner 0) (fun _ s =>
    .ok s (s.tbStat :: (tbCounters.flatMap (fun c => ctrWords (s.ctrAll c)))
      ++ ([1, 2, 3, 4, 5, 6, 7].map (fun d => BitVec.ofInt 32 (s.replica d).1)))) s)

/-- A flag parameter: [0] of its word, other bits 0 (R642). -/
def flagOk (w : Word) : Bool := w.toNat < 2

/-- R65, R69, R72: TIME.PTP_PORT_SET; a port is named by its lowest lane (R11). -/
def execTimePtpPortSet (h : Hdr) (port oneStep twoStep transparent ingAdj egrAdj : Word) (s : State) :
    Host.Outcome State Fault Refusal :=
  .next (command h 0x010A (.owner (dieOfLane (port.toNat % 64))) (fun _ s =>
    let p := port.toNat
    if 63 < p ∨ s.portOf p ≠ p ∨ !flagOk oneStep ∨ !flagOk twoStep ∨ !flagOk transparent then .fail s .badParam
    else s.unlessClaimed [(dieOfLane p, .tsi)] (
      let cfg : PtpPort := ⟨oneStep = 1, twoStep = 1, transparent = 1⟩
      let s := { s with tb := { s.tb with ptpPorts := Tbl.setD s.tb.ptpPorts p ⟨false, false, false⟩ cfg } }
      .ok ((s.setReg .tsiIngAdj p ingAdj).setReg .tsiEgrAdj p egrAdj))) s)

def State.ptpPort (s : State) (p : Nat) : PtpPort := Tbl.getD s.tb.ptpPorts p ⟨false, false, false⟩

def Stamp.words (x : Stamp) : List Word := [BitVec.ofNat 32 x.seqId, BitVec.ofNat 32 x.port] ++ timeWords x.time

/-- R69, R72: TIME.EGRESS_TS_READ returns and removes up to 16 stamps. -/
def execTimeEgressTsRead (h : Hdr) (port count : Word) (s : State) : Host.Outcome State Fault Refusal :=
  .next (command h 0x010B (.owner (dieOfLane (port.toNat % 64))) (fun _ s =>
    let p := port.toNat
    if 63 < p ∨ s.portOf p ≠ p ∨ 16 < count.toNat ∨ count = 0 then .fail s .badParam
    else s.unlessClaimed [(dieOfLane p, .tsi)] (
      let q := Tbl.getD s.tb.stamps p []
      let n := count.toNat
      .ok { s with tb := { s.tb with stamps := Tbl.setD s.tb.stamps p [] (q.drop n) } }
        (BitVec.ofNat 32 (q.take n).length :: (q.take n).flatMap Stamp.words))) s)

/-- A departing event frame of a two-step port is stamped with its departure into the port's ring of 16, or the stamp is discarded
(R69). -/
def State.stampEgress (s : State) (port seqId at_ : Nat) : State :=
  let q := Tbl.getD s.tb.stamps port []
  if q.length < 16 then { s with tb := { s.tb with stamps := s.tb.stamps.put port (q ++ [⟨seqId, port, at_⟩]) } }
  else s.report .tsiEgrOvf port .tsiEgrOvf (dieOfLane port) port

/-! ### Time pins -/

/-- A pin's polarity as the level it takes while active (R78). -/
def State.pinLevel (s : State) (p : Nat) : Nat := if s.flag .tbPinCfgPol p then 0 else 1

/-- A time pin drives the pulse of its next edge, which leaves at an instant (R53, R59): a single pulse once, a periodic one again a
period later. -/
def State.pulsePin (s : State) (p leaves : Nat) : State :=
  let mode := s.fld .tbPinCfgMode p
  match s.tb.nextEdge.find p with
  | none => s
  | some at_ =>
    if !s.pinOk p then s
    else
      let again := if mode = 2 then some ((at_ + nsSpan (s.fld .tbPinPeriodV p)) % timeMod) else none
      { s with tb := { s.tb with nextEdge := s.tb.nextEdge.setOpt p again } }.send
        (.pulse .tpin p (s.pinLevel p) leaves (s.fld .tbPinWidthV p))

/-- The next edge of a periodic pin after the time has jumped: the first multiple of the period, counted from the start, after the
new time (R56). -/
def edgeAfter (start period now : Nat) : Nat :=
  if now < start ∨ period = 0 then start else start + ((now - start) / nsSpan period + 1) * nsSpan period

/-- Periodic pins and PPS_OUT take their next edge after the new time (R56). -/
def State.pinsJump (s : State) : State :=
  let next := s.tb.nextEdge.map (fun (p : Nat × Nat) =>
    if s.fld .tbPinCfgMode p.1 = 2 then (p.1, edgeAfter (s.pinStart p.1) (s.fld .tbPinPeriodV p.1) s.now) else p)
  { s with tb := { s.tb with nextEdge := next, ppsNext := (secOf s.now + 1) * secUnit } }

/-- R53, R59: a pin's edge is due once the time has reached its target (R51), and is fine-placed on it. -/
def execTpinPulse (pin : BitVec 5) (s : State) : Host.Outcome State Fault Refusal :=
  .next (match s.tb.nextEdge.find pin.toNat with
    | some at_ => if reached s.now at_ then s.pulsePin pin.toNat at_ else s
    | none => s)

/-- R61: a rising edge at a TAI second boundary that the time has reached, for TB_PPS_CFG.width µs. -/
def execPpsOutEdge (s : State) : Host.Outcome State Fault Refusal :=
  .next (if reached s.now s.tb.ppsNext then
      { s with tb := { s.tb with ppsNext := (s.tb.ppsNext + secUnit) % timeMod } }.send
        (.pulse .ppsOut 0 1 s.tb.ppsNext (s.fld .tbPpsCfgWidth 0 * 1000))
    else s)

/-! ### Slews and the watchdog -/

/-- R49: the slew's cycle count runs out: the last cycle applies what remains, so that the total is exact. -/
def execSlewEnd (s : State) : Host.Outcome State Fault Refusal :=
  match s.tb.slew with
  | some w => .next (if w.cycles ≤ 1 then { s with tb := { s.tb with slew := none } }.runTime w.rest else s)
  | none => .next s

/-- R45: no increment write for TB_WDOG.timeout ms; once a silence. -/
def execServoWdogExpire (s : State) : Host.Outcome State Fault Refusal :=
  if s.fld .tbWdogTimeout 0 = 0 ∨ s.tb.wdogFired ∨ s.elapsed < s.tb.wdogFrom + msSpan (s.fld .tbWdogTimeout 0) then .next s
  else
    let s := s.setFlag .tbStatHoldover 0 true
    .next ({ s with tb := { s.tb with wdogFired := true } }.report .tbServoWdog 0 .tbServoWdog 0 0)

/-! ### Captures -/

/-- R60: an edge is stamped with the time and the 0.2 ns position into the pin's FIFO of 16, with the step bit in the cycle of a
step or set; edges less than 3.2 ns apart yield one record. -/
def State.capture (s : State) (p fine : Nat) : State :=
  let t := s.now + fine * nsUnit / 5
  let inStep := s.tb.jumpedAt = some s.tb.cycle
  let near := match s.tb.lastEdge.find p with
    | some e => e ≤ t && t - e < nsUnit * 16 / 5
    | none => false
  let q := Tbl.getD s.tb.captures p []
  let s := { s with tb := { s.tb with lastEdge := s.tb.lastEdge.put p t } }
  if near then s
  else if q.length < 16 then { s with tb := { s.tb with captures := s.tb.captures.put p (q ++ [⟨t, inStep⟩]) } }
  else s.report .tbCapOvf p .tbCapOvf 0 p

/-- Whether a capture mode selects the edge between two levels (R59, R78): 3 rising, 4 falling, 5 both. -/
def edgeSelected (mode : Nat) (before after : Bool) : Bool :=
  before != after && (mode == 5 || mode == (if after then 3 else 4))

/-- R59, R60: the level of a TPIN that it does not drive changes; in a capture mode that selects the edge it is stamped. -/
def execTpinCapture (pin : BitVec 5) (before after : Bool) (fine : BitVec 3) (s : State) :
    Host.Outcome State Fault Refusal :=
  let m := s.fld .tbPinCfgMode pin.toNat
  let s := if m = 1 ∨ m = 2 then s else s.drive .tpin pin.toNat after.toNat
  .next (if edgeSelected m before after then s.capture pin.toNat fine.toNat else s)

/-- R61: PPS_IN captures its rising edges as a TPIN does. -/
def execPpsInCapture (rising : Bool) (fine : BitVec 3) (s : State) : Host.Outcome State Fault Refusal :=
  let s := s.drive .ppsIn 0 rising.toNat
  .next (if rising then s.capture 32 fine.toNat else s)

/-! ### Registers with an effect of their own -/

/-- R73: a write of 1 latches the time into the path's snapshot. -/
def State.latchTime (s : State) (p : APath) (data : Word) : State :=
  if data.getLsbD 0 then
    let i := apathCode p
    let s := (s.setReg .tbSnapSecHi i (BitVec.ofNat 32 (secOf s.now / 2 ^ 32))).setReg .tbSnapSecLo i (BitVec.ofNat 32 (secOf s.now))
    (s.setReg .tbSnapNs i (BitVec.ofNat 32 (nsOf s.now))).setReg .tbSnapFrac i (BitVec.ofNat 32 (fracOf s.now))
  else s

def execTbLatch (p : APath) (data : Word) (s : State) : Host.Outcome State Fault Refusal := .next (s.latchTime p data)

/-- A write that would change an RWC field of an unclaimed block (R7): counted and raised. -/
def State.unclaimedWrite (s : State) (die : Nat) : State := s.report .sysUnclaimedWr 0 .sysUnclaimedWr die 0

/-- R74: a write of TB_INCR installs its integer part with the path's staged fraction. -/
def State.writeTbIncr (s : State) (p : APath) (data : Word) : State :=
  let int := fldOf .tbIncrInt data
  if s.mayRwc p 0 .tb then s.writeIncr (int * 2 ^ 32 + (s.reg .tbIncrFrac (apathCode p)).toNat)
  else if int = s.fld .tbIncrInt 0 then s else s.unclaimedWrite 0

def execTbIncrCommit (p : APath) (data : Word) (s : State) : Host.Outcome State Fault Refusal := .next (s.writeTbIncr p data)

/-- The action a path has staged (R73, R75). -/
def State.stagedAction (s : State) (p : APath) : Action :=
  let i := apathCode p
  let n := fun r => (s.reg r i).toNat
  let inst := mkTime (n .tbActSecHi * 2 ^ 32 + n .tbActSecLo) (n .tbActNs)
  { kinds := s.fld .tbActKindKinds i
    instant := inst
    late := tooLate s.now inst
    setValue := mkTime (n .tbSetSecHi * 2 ^ 32 + n .tbSetSecLo) (n .tbSetNs)
    stepNs := signedOf 32 (n .tbStepSec) * 1000000000 + signedOf 32 (n .tbStepNs)
    incr := n .tbPincInt * 2 ^ 32 + n .tbPincFrac
    slewOfs := signedOf 64 (n .tbSlewOfsHi * 2 ^ 32 + n .tbSlewOfsLo)
    slewCyc := n .tbSlewCyc
    armed := s.tb.cycle }

/-- R75: a write of TB_ACT_CTL: late is W1C and shared; the kind bits go to the path's staging; arm 1 arms the path's
staged action unless one is pending or no kind bit is set; arm 0 cancels one that does not apply in this cycle (R48). -/
def State.writeTbActCtl (s : State) (p : APath) (data : Word) : State :=
  let i := apathCode p
  let s := if data.getLsbD 8 ∧ !(s.freshBits .tbActCtl 0).getLsbD 8 then s.setFlag .tbActCtlLate 0 false else s
  let kinds := fldOf .tbActKindKinds data
  let arm := data.getLsbD 0
  if s.mayRwc p 0 .tb then
    let s := s.setFld .tbActKindKinds i kinds
    if arm then
      if s.tb.pendingAction.isSome ∨ kinds = 0 then s.count .tbActBusy 0
      else { s with tb := { s.tb with pendingAction := some (s.stagedAction p) } }
    else if s.cancellable then { s with tb := { s.tb with pendingAction := none } }
    else s
  else if kinds ≠ s.fld .tbActKindKinds i ∨ arm ≠ s.tb.pendingAction.isSome then s.unclaimedWrite 0
  else s

def execTbActArm (p : APath) (data : Word) (s : State) : Host.Outcome State Fault Refusal :=
  .next (s.writeTbActCtl p (data ||| 1))

def execTbActCancel (p : APath) (data : Word) (s : State) : Host.Outcome State Fault Refusal :=
  .next (s.writeTbActCtl p (data &&& 0xFFFFFFFE))

/-- R60: a write to TB_CAP_POP, whatever its data, removes the head record of the pin the path selects. -/
def State.popCapture (s : State) (p : APath) : State :=
  let pin := s.sel .tpsel 0 (apathCode p)
  { s with tb := { s.tb with captures := Tbl.setD s.tb.captures pin [] ((Tbl.getD s.tb.captures pin []).drop 1) } }

def execTbCapPop (p : APath) (_data : Word) (s : State) : Host.Outcome State Fault Refusal := .next (s.popCapture p)

/-- R77: a write of TB_WDOG. -/
def State.writeTbWdog (s : State) (p : APath) (data : Word) : State :=
  let ms := fldOf .tbWdogTimeout data
  if s.mayRwc p 0 .tb then s.setWdog ms
  else if ms = s.fld .tbWdogTimeout 0 then s else s.unclaimedWrite 0

def execTbWdogWrite (p : APath) (data : Word) (s : State) : Host.Outcome State Fault Refusal := .next (s.writeTbWdog p data)

end Sys2Proof.Machine
end

