-- ==== Sys2Proof/Machine/Idents.lean ====
section
/-!
DEFINITION. Identifiers and their paddock (R199-R201, R216-R218), ONU slots, and what the end of a tree does to them.
-/

namespace Sys2Proof.Machine

/-! ### Channels and trees -/

def chanDefault : ChanSt := ⟨0, 0, none, false, [], [], [], [], none, (0, []), true, 0, 12288⟩
def treeDefault : TreeSt := ⟨0, 0, 0, 0, 0, false, 0, false, false⟩

def State.chan (s : State) (c : Nat) : ChanSt := Tbl.getD s.chans c chanDefault
def State.setChan (s : State) (c : Nat) (x : ChanSt) : State := { s with chans := Tbl.setD s.chans c chanDefault x }
def State.tree (s : State) (t : Nat) : TreeSt := Tbl.getD s.trees t treeDefault
def State.setTree (s : State) (t : Nat) (x : TreeSt) : State := { s with trees := Tbl.setD s.trees t treeDefault x }

def State.launched (s : State) (t : Nat) : Bool := s.flag .pchTreeLaunched t
def State.launchPending (s : State) (t : Nat) : Bool := s.flag .pchTreePending t
def State.xgs (s : State) (c : Nat) : Bool := s.flag .pchCfgMode c
def State.framing (s : State) (c : Nat) : Bool := s.flag .pchStatTx c

/-- The superframe count of a tree's frame in force (R120). The grid of a launched tree runs on while none of its channels frames:
the frames since the last measured start then follow the elapsed time. -/
def State.treeCount (s : State) (t : Nat) : Nat :=
  let x := s.tree t
  if s.launched t && !(chansOfTree t).any s.framing then (x.count + (s.elapsed - x.startElapsed) / frameSpan) % 2 ^ 51
  else x.count

/-! ### ONUs (R204) -/

def State.onu (s : State) (i : Nat) : Option OnuSlot := s.pon.onus.find i

/-- The channel an ONU is placed on. -/
def OnuSlot.chan (x : OnuSlot) : Nat := 4 * x.tree + x.wl

/-- The provisioned ONUs of a tree, by ascending ONU index. -/
def State.onusOf (s : State) (t : Nat) : List (Nat × OnuSlot) := s.pon.onus.filter (fun p => p.2.tree = t)

/-- The die selectors a command on an ONU takes: its line die or 15; for an ONU index not provisioned any line die. -/
def State.onuRule (s : State) (i : Nat) : DieRule :=
  match s.onu i with
  | some x => .owner (dieOfTree x.tree)
  | none => .oneOf [2, 3, 4, 5, 15]

/-! ### Reach (R202, R203) -/

/-- T_eq in nanoseconds. -/
def State.tEq (s : State) (t : Nat) : Nat := 538 + 980 * s.fld .actTreeCfgMaxReach t + 35000 + 2000

/-- rtd of a distance in 0.1 km on a channel, in nanoseconds. -/
def State.rtd (s : State) (c reach : Nat) : Nat := (if s.xgs c then 538 else 412) + 980 * reach

/-! ### The frame grid as the calculators see it -/

/-- The frame whose cutoff comes next: the first frame of a pending launch, or the one after the frame in force unless
its snapshot is taken. -/
def State.nextFrame (s : State) (t : Nat) : Nat :=
  let n := if s.launchPending t then (s.tree t).launchCount else (s.treeCount t + 1) % 2 ^ 51
  match s.pon.calcs.find t with
  | some c => if c.frame = n then (n + 1) % 2 ^ 51 else n
  | none => n

/-! ### What a tandem owner mirrors of a tree (R442, R453) -/

/-- A profile's instance of the BRX_PRFn registers. -/
def prfInst (c n : Nat) : Nat := c * 4 + n

/-- What R442 compares of a tree: offset, channel modes and enables, burst profiles, reach, rdr, ACT_TREE_TMR,
GNT_TREE_CFG and GNT_CH_CFG. -/
def State.pairConfig (s : State) (t : Nat) : List Word :=
  let prf := fun (i : Nat) => [Reg.brxPrfCfg, .brxPrfPreHi, .brxPrfPreLo, .brxPrfDlmHi, .brxPrfDlmLo].map (fun r => s.reg r i)
  BitVec.ofNat 32 (s.fld .pchTreeOffset t)
    :: (chansOfTree t).map (fun c => BitVec.ofNat 32 (s.fld .pchCfgMode c * 2 + s.fld .pchCfgEnable c))
    ++ (chansOfTree t).flatMap (fun c => (List.range 4).flatMap (fun n => prf (prfInst c n)))
    ++ [s.reg .actTreeCfg t, s.reg .actTreeTmr t, s.reg .gntTreeCfg t] ++ (chansOfTree t).map (s.reg .gntChCfg)

def phaseCode : OnuPhase → Nat
  | .provisioned => 0 | .assigned => 1 | .ranging => 2 | .registering => 3 | .keying => 4 | .operation => 5 | .lost => 6 | .disabled => 7

def AllocRec.params (r : AllocRec) : AllocWords :=
  let w := BitVec.ofNat 32
  ⟨w r.fixed, w r.assured, w r.nonAssured, w r.weight, w r.max, w r.band, w r.rpt, w r.dbruIvl, w r.profile⟩

/-- The configuration registers that TREE, GRANT and SKEIN commands write (R453), beside the offset. -/
def mirrorRegs (t : Nat) : List (Reg × Nat) :=
  [(.actTreeCfg, t), (.actTreeTmr, t), (.gntTreeCfg, t), (.sknCfg, 2 * t), (.sknCfg, 2 * t + 1)]
    ++ (chansOfTree t).flatMap (fun c =>
      [Reg.pchCfg, .gntChCfg, .actChCfg, .brxChCfg, .brxDlnCfg].map (fun r => (r, c))
        ++ (List.range 4).flatMap (fun n =>
          [Reg.brxPrfPreHi, .brxPrfPreLo, .brxPrfDlmHi, .brxPrfDlmLo, .brxPrfCfg].map (fun r => (r, prfInst c n))))

def Window.item (c : Nat) (w : Window) : MirrorItem :=
  .window (BitVec.ofNat _ c) (w.ranging.map (BitVec.ofNat _)) (BitVec.ofNat _ w.frame) (BitVec.ofNat _ w.j) (BitVec.ofNat _ w.start)
    (BitVec.ofNat _ w.len)

def State.tribItem (s : State) (i : Nat) (x : Trib) : MirrorItem :=
  .trib (BitVec.ofNat _ i) (BitVec.ofNat _ x.onu) (BitVec.ofNat _ x.port) (x.skein.map (BitVec.ofNat _))
    (x.members.map (fun m => (BitVec.ofNat _ m.1, BitVec.ofNat _ m.2)))
    ([x.nd, x.q, x.ppm, x.wl, x.wh, x.cadence.toNat, x.udp, x.payload, x.playout].map (BitVec.ofNat 32) ++ [s.reg .cadDlnCfg i])

/-- What the grant engine keeps of a record, in words. -/
def AllocRec.engine (r : AllocRec) : List Word :=
  ([r.report, r.fresh.toNat, r.since, r.lastGrant, r.sent, r.tmFull.toNat, r.lastQ, r.leftOut.toNat, r.demand, r.idle, r.tagNa, r.tagBe]
    ++ r.recent.flatMap (fun p => [p.1 / 2 ^ 32, p.1, p.2])).map (BitVec.ofNat 32)

/-- A tree's state as mirror records tell it; an instant of elapsed time as the µs from a base. -/
def State.mirrorItems (s : State) (t base : Nat) : List MirrorItem :=
  let us := fun (at_ : Nat) => BitVec.ofNat 32 ((at_ - base) / usSpan 1)
  let ago := fun (at_ : Nat) => BitVec.ofInt 32 (((at_ : Int) - base) / usSpan 1)
  let onus := s.onusOf t
  let mine := fun (k : Nat) => ((s.pon.allocs.find k).map (fun r => decide (r.tree = t))).getD false
  let up := s.launchPending t || (s.launched t && !(s.tree t).stopping)
  .config (s.pairConfig t)
    :: .regs (BitVec.ofNat 32 (s.fld .pchTreeOffset t) :: (mirrorRegs t).map (fun p => s.reg p.1 p.2))
    :: .grid up (BitVec.ofNat _ (if up then (s.tree t).launchCount else 0))
    :: onus.map (fun p => .onu (BitVec.ofNat _ p.1) (BitVec.ofNat _ p.2.slot) p.2.auto p.2.regId (BitVec.ofNat _ p.2.wl) (BitVec.ofNat _ p.2.downWl) (BitVec.ofNat _ p.2.onuId)
        (BitVec.ofNat _ p.2.serial) (BitVec.ofNat _ (phaseCode p.2.phase)) (BitVec.ofNat _ p.2.eqd) (BitVec.ofNat _ p.2.keySlot)
        (ago p.2.since) (ago p.2.asked))
    ++ (s.pon.ports.filter (fun p => p.1 / 65536 = t)).map (fun p =>
        .port (BitVec.ofNat _ (((s.pon.idents.find ((t * 4 + 2) * 65536 + p.1 % 65536)).bind (fun i => match i with
          | .bound o | .leaving o => some o
          | .resting _ => none)).getD 0)) (BitVec.ofNat _ p.1) (BitVec.ofNat _ p.2.kind) (BitVec.ofNat _ p.2.dir))
    ++ (s.pon.idents.filter (fun p => p.1 / 2 ^ 18 = t)).filterMap (fun p => match p.2 with
        | .resting u => some (.rest (BitVec.ofNat _ (p.1 / 65536)) (BitVec.ofNat _ p.1) (us u))
        | _ => none)
    ++ (s.pon.allocs.filter (fun p => p.2.tree = t)).map (fun p =>
        .alloc (BitVec.ofNat _ p.1) (BitVec.ofNat _ p.2.onu) (BitVec.ofNat _ p.2.allocId) p.2.params (p.2.member.map (BitVec.ofNat _)))
    ++ onus.filterMap (fun p => p.2.migration.map (fun m =>
        .fence (BitVec.ofNat _ p.1) (m.target.map (BitVec.ofNat _)) (BitVec.ofNat _ m.frameM) (us m.fence) (BitVec.ofNat _ m.frameK)))
    ++ (s.pon.hints.filter (fun p => mine p.2.rec_)).map (fun p =>
        .hint (BitVec.ofNat _ p.2.rec_) (BitVec.ofNat _ p.2.first) (BitVec.ofNat _ p.2.frames) (BitVec.ofNat _ p.2.bytes))
    ++ (chansOfTree t).flatMap (fun c => (Tbl.getD s.pon.windows c []).map (Window.item c))
    ++ (Tbl.getD s.pon.disabled t []).map (fun n => .silent (BitVec.ofNat _ n))
    ++ (s.skeinOnus.filter (fun p => decide (p.2.skein / 2 = t) && p.2.joining.isNone)).map (fun p =>
        .skein (BitVec.ofNat _ p.1) (BitVec.ofNat _ p.2.skein) (BitVec.ofNat _ p.2.anchor)
          (p.2.members.map (fun m => (BitVec.ofNat _ m.1, BitVec.ofNat _ m.2))))
    ++ (s.tribs.filter (fun p => ((s.onu p.2.onu).map (fun x => decide (x.tree = t))).getD false)).map (fun p => s.tribItem p.1 p.2)

/-- What tells that an item's object is gone; a rest, a fence and a hint end by themselves. -/
def MirrorItem.gone : MirrorItem → Option MirrorItem
  | .onu o .. => some (.onuGone o)
  | .port o p .. => some (.portGone o p)
  | .alloc _ o a .. => some (.allocGone o a)
  | .window c _ n .. => some (.windowGone c n)
  | .silent n => some (.silentGone n)
  | .skein o .. => some (.skeinGone o)
  | .trib i .. => some (.tribGone i)
  | _ => none

/-- One mirror record, in force from the next cutoff. -/
def State.tellItem (s : State) (t : Nat) (m : MirrorItem) : State :=
  (s.sendRecord 0x10 (.mirror t (s.nextFrame t) m)).modTndTree t (fun x => { x with sentMirrors := x.sentMirrors + 1 })

/-- The owner mirrors what the peer has not been told of a tree's state, each item in force from the next cutoff (R453). -/
def State.mirror (s : State) (t : Nat) : State :=
  if s.mirrors t then
    let told := (s.tndTree t).told
    let now := s.mirrorItems t 0
    let ends := (told.filterMap MirrorItem.gone).filter (fun g => !(now.filterMap MirrorItem.gone).contains g)
    let news := ((now.zip (s.mirrorItems t s.elapsed)).filter (fun p => !told.contains p.1)).map Prod.snd
    let s := (ends ++ news).foldl (fun s m => s.tellItem t m) s
    s.modTndTree t (fun x => { x with told := now })
  else s

def RssiArm.item (a : RssiArm) : MirrorItem := .arm (BitVec.ofNat _ a.onu) (a.start.map (BitVec.ofNat _)) (BitVec.ofNat _ a.left)

/-- What lockstep starts from beside the mirrored items: the tree's virtual times, what the engine keeps of its records, and its channels'
RSSI arms. -/
def State.engineItems (s : State) (t : Nat) : List MirrorItem :=
  (s.pon.vts.filter (fun p => p.1 / 64 = t)).map (fun p =>
      .virtual (BitVec.ofNat _ (p.1 / 16)) (BitVec.ofNat _ p.1) (BitVec.ofNat _ p.2))
    ++ (s.pon.allocs.filter (fun p => p.2.tree = t)).map (fun p => .engine (BitVec.ofNat _ p.1) p.2.engine)
    ++ (chansOfTree t).flatMap (fun c => (Tbl.getD s.pon.arms c []).map RssiArm.item)

/-- What R453 mirrors of an ONU's slot. -/
def OnuSlot.mirrored (x : OnuSlot) : OnuSlot := { x with ploamAge := 0, ploamReq := false, since := 0, asked := 0, miss := 0, loss := 0, lastOfs := 0, tries := 0, indication := 0 }

def State.setOnu (s : State) (i : Nat) (x : OnuSlot) : State := { s with pon := { s.pon with onus := s.pon.onus.put i x } }

/-- An ONU's slot changes; on a protected tree the change is mirrored. -/
def State.modOnu (s : State) (i : Nat) (f : OnuSlot → OnuSlot) : State :=
  match s.onu i with
  | none => s
  | some x =>
    let s := s.setOnu i (f x)
    if (f x).mirrored = x.mirrored then s else s.mirror x.tree

/-- Frames from one count to another, by the shorter way round modulo 2^51. -/
def framesBetween (m n : Nat) : Int := signedOf 51 ((n + 2 ^ 51 - m % 2 ^ 51) % 2 ^ 51)

/-- Frames from the frame in force to a frame. -/
def State.framesTo (s : State) (t n : Nat) : Int := framesBetween (s.treeCount t) n

/-- The start of a frame of a launched tree, in elapsed time. -/
def State.frameElapsed (s : State) (t n : Nat) : Nat := ((s.tree t).startElapsed + framesBetween (s.tree t).count n * frameSpan).toNat

/-- The start of a frame of a launched tree, in TAI. -/
def State.frameTime (s : State) (t n : Nat) : Nat := ((s.tree t).startTime + framesBetween (s.tree t).count n * frameSpan).toNat

/-! ### Identifiers: kinds 0 ONU-ID, 1 Alloc-ID, 2 XGEM port -/

def identKey (t kind v : Nat) : Nat := (t * 4 + kind) * 65536 + v

def State.ident (s : State) (t kind v : Nat) : Option Ident := s.pon.idents.find (identKey t kind v)

def State.setIdent (s : State) (t kind v : Nat) (x : Option Ident) : State :=
  { s with pon := { s.pon with idents := s.pon.idents.setOpt (identKey t kind v) x } }

def Ident.isResting : Ident → Bool
  | .resting _ => true
  | _ => false

/-- The ONU that holds an identifier; one that rests is nobody's (R218). -/
def Ident.holder : Ident → Option Nat
  | .bound o | .leaving o => some o
  | .resting _ => none

def State.holder (s : State) (t kind v : Nat) : Option Nat := (s.ident t kind v).bind Ident.holder

def State.resting (s : State) (t kind v : Nat) : Bool := ((s.ident t kind v).map Ident.isResting).getD false

/-- R216: frames of a rest. -/
def State.restFrames (s : State) (t : Nat) : Nat := ceilDiv (s.tEq t + 500000) 125000

/-- R217: frames and microseconds remaining, to the start of the rest's last frame, rounded up. -/
def State.restLeft (s : State) (until_ : Nat) : Nat × Nat :=
  let left := until_ - frameSpan - s.elapsed
  (ceilDiv left frameSpan, ceilDiv left (usSpan 1))

def State.restWords (s : State) (t kind v : Nat) : List Word :=
  match s.ident t kind v with
  | some (.resting u) => [BitVec.ofNat 32 (s.restLeft u).1, BitVec.ofNat 32 (s.restLeft u).2]
  | _ => []

/-- The kind of an XGEM port of a tree; one not configured is clear (R124). -/
def State.portKind (s : State) (t port : Nat) : Nat := ((s.pon.ports.find (t * 65536 + port)).map (fun (p : PonPort) => p.kind)).getD 0

/-- An SDU of a port is discarded in reassembly, as PM counts it for channel and ONU (R588). -/
def State.pmSdu (s : State) (t port : Nat) : State :=
  match s.holder t 2 port with
  | none => s
  | some o => match s.onu o with
    | some x => (s.pmAdd 0 x.chan 14 1).pmAdd 1 o 14 1
    | none => s

/-- R189: a port removed or an ONU deactivated flushes the open context, counted. -/
def State.flushPort (s : State) (t port : Nat) : State :=
  let k := t * 65536 + port
  match s.pon.rsm.find k with
  | none => s
  | some _ => ({ s with pon := { s.pon with rsm := s.pon.rsm.del k } }.count .brxRsmFlush (dieOfTree t)).pmSdu t port

/-- An identifier leaves the maps and rests until an instant; its Alloc record or port goes with it, with a record the hints that
name it (log entry 17), with a port what its context holds (R189). -/
def State.rest (s : State) (t kind v until_ : Nat) : State :=
  let s := if kind = 2 then s.flushPort t v else s
  let s := s.setIdent t kind v (some (.resting until_))
  if kind = 1 then
    let gone := fun (r : AllocRec) => r.tree = t && r.allocId = v
    { s with pon := { s.pon with
      allocs := s.pon.allocs.filter (fun p => !gone p.2)
      hints := s.pon.hints.filter (fun h => !((s.pon.allocs.find h.2.rec_).map gone).getD false) } }
  else if kind = 2 then { s with pon := { s.pon with ports := s.pon.ports.del (t * 65536 + v) } }
  else s

/-- R216: a release: on a launched tree it waits for the next cutoff; else it takes place now. -/
def State.release (s : State) (t kind v : Nat) : State :=
  match s.ident t kind v with
  | some (.bound o) =>
    if s.launched t then
      let s := s.setIdent t kind v (some (.leaving o))
      { s with pon := { s.pon with allocs := s.pon.allocs.map (fun p =>
          if kind = 1 ∧ p.2.tree = t ∧ p.2.allocId = v then (p.1, { p.2 with leaving := true }) else p) } }
    else s.rest t kind v (s.elapsed + s.restFrames t * frameSpan)
  | _ => s

/-- The identifiers of a tree that wait for a cutoff, as kind and value. -/
def State.leavingOf (s : State) (t : Nat) : List (Nat × Nat) :=
  (s.pon.idents.filter (fun p => p.1 / 2 ^ 18 = t && (match p.2 with | .leaving _ => true | _ => false))).map
    (fun p => (p.1 / 65536 % 4, p.1 % 65536))

/-- They are released, with the instant from which their rest counts (R216). -/
def State.releaseAll (s : State) (t from_ : Nat) : State :=
  (s.leavingOf t).foldl (fun s kv => s.rest t kv.1 kv.2 (from_ + s.restFrames t * frameSpan)) s

/-- What the end of a tree leaves of its ONUs' grants: identifiers that waited rest from now (R216), its hints and arms
are removed (R161), its calculator and windows end. -/
def State.treeEnded (s : State) (t : Nat) : State :=
  let s := s.releaseAll t s.elapsed
  let ofTree := fun (key : Nat) => ((s.pon.allocs.find key).map (fun r => decide (r.tree = t))).getD false
  let cs := chansOfTree t
  { s with pon := { s.pon with
    hints := s.pon.hints.filter (fun h => !ofTree h.2.rec_)
    arms := s.pon.arms.filter (fun a => !cs.contains a.1)
    windows := s.pon.windows.filter (fun w => !cs.contains w.1)
    calcs := s.pon.calcs.del t } }

end Sys2Proof.Machine
end

