-- ==== Sys2Proof/Machine/Spares.lean ====
section
/-!
DEFINITION. Spares of the remuda (R22, R105, R617, R618, R622): policies, units out of service, the spares left to a unit,
and a spare that brings itself in. A unit is named by kind, die and number: a pipeline, core (as CORESEL names it) or
sequencer by its index, a UCIe link and an SRAM by number, a pseudo-channel as stack × 16 + k, a row as stack × 2^24 + row,
a TC or PCS by its region (log entry 84).
-/

namespace Sys2Proof.Machine

def unitKey (kind die unit : Nat) : Nat := kind * 2 ^ 24 + die * 2 ^ 16 + unit

def State.unitFailed (s : State) (kind die unit : Nat) : Bool := s.power.failed.has (unitKey kind die unit)
def State.unitReplaced (s : State) (kind die unit : Nat) : Bool := s.power.replaced.has (unitKey kind die unit)
def State.modPower (s : State) (f : Power → Power) : State := { s with power := f s.power }
def State.failUnit (s : State) (kind die unit : Nat) : State :=
  s.modPower (fun p => { p with failed := p.failed.put (unitKey kind die unit) () })
def State.replaceUnit (s : State) (kind die unit : Nat) : State :=
  (s.failUnit kind die unit).modPower (fun p => { p with replaced := p.replaced.put (unitKey kind die unit) () })

/-- Policy of a spare kind: 0 manual, 1 on failure, 2 on failure and wear (R622). -/
def State.policy (s : State) (kind : Nat) : Nat := s.fld .rmdKindPolicy kind

/-- A unit's policy: PCS units keep their own until a command sets the kind's (R618). -/
def State.unitPolicy (s : State) (kind die : Nat) : Nat := if kind = 8 ∧ 6 ≤ die then s.power.pcsPolicy else s.policy kind

/-! ### Pipelines (R22) -/

/-- The pipeline of a half that pipeline 8 serves for. -/
def State.spareServes (s : State) (half : Nat) : Option Nat := (List.range 8).find? (fun n => s.unitReplaced 0 half n)

/-- A pipeline is in service: 0-7 until out of it, 8 while it serves for another. -/
def State.pipeServes (s : State) (half n : Nat) : Bool :=
  if n < 8 then !s.unitFailed 0 half n else n = 8 && (s.spareServes half).isSome && !s.unitFailed 0 half 8

/-- A pipeline is an upstream one. The spec does not say which of pipelines 0-7 serve which direction (log entry 10); pipeline 8 has
that of the one it serves for, one direction at a time (R22). -/
def State.pipeUp (s : State) (half n : Nat) : Bool :=
  Config.standard 70 [if n = 8 then (s.spareServes half).getD 8 else n] % 2 = 1

/-! ### Cipher cores (R407, R438) -/

def State.setCore (s : State) (die core st : Nat) : State :=
  s.setReg (coreReg die) (die * 128 + core) (withField 0 2 (s.reg (coreReg die) (die * 128 + core)) st)

def clusterNeeds (die : Nat) : Nat := if die < 6 then 10 else 18

/-! ### Pseudo-channels (R553, R558) -/

def pcInst (half pc : Nat) : Nat := half * 128 + pc
/-- The spare physical pseudo-channels of a stack that serve none and have not failed. -/
def State.pcSpares (s : State) (half stack : Nat) : List Nat :=
  [16, 17].filter (fun x => !((List.range 16).any (fun k => s.fld .hbmPcMapPhys (pcInst half (stack * 16 + k)) = x))
    && !s.unitFailed 4 half (stack * 32 + x))

/-! ### Sequencers, named as MAIL names them, die × 3 + index (R525, R528, R530, R535) -/

def seqDie (q : Nat) : Nat := q / 3
def seqIdx (q : Nat) : Nat := q % 3
/-- The 22 sequencers (R525). -/
def seqExists (q : Nat) : Bool := q < 18 || q = 18 || q = 19 || q = 21 || q = 22
/-- SQ_STATn's instance. -/
def seqInst (q : Nat) : Nat := seqDie q * 128 + seqIdx q

def State.seq (s : State) (q : Nat) : SeqSt := Tbl.getD s.seqs q SeqSt.empty
def State.seqState (s : State) (q : Nat) : Nat := s.fld .sqStatState (seqInst q)

/-- The sequencer of a die that does an index's work: that of the index, or the spare that serves for it; where neither works, the stopped
one of the index, for which the work waits. -/
def State.serving (s : State) (die idx : Nat) : Nat :=
  (([die * 3, die * 3 + 1, die * 3 + 2].filter seqExists).find? (fun q =>
    s.seqState q ≠ 0 && s.seqState q ≠ 5 && s.fld .sqStatServes (seqInst q) = idx)).getD (die * 3 + idx)

/-- An item of an activation or link sequencer's work: served at once by an idle sequencer with nothing before it, and else waiting for its
dispatch (R530, R532, R534, R535; log entry 77). -/
def State.toSequencer (s : State) (die idx : Nat) (r : SeqReport) (f : State → State) : State :=
  let q := s.serving die idx
  let x := s.seq q
  if s.seqState q = 1 ∧ x.reports = [] then f s
  else { s with seqs := s.seqs.setD q SeqSt.empty { x with reports := x.reports ++ [r] } }

/-- The item of a tree's activation sequencer: trees 0-3 of a die and 4-7 (R525). -/
def State.toActivation (s : State) (t : Nat) (r : SeqReport) (f : State → State) : State := s.toSequencer (dieOfTree t) (t % 8 / 4) r f

/-! ### What is left (R617, R622) -/

/-- The spare sequencer of a die, as SQ_STATn numbers it. -/
def spareIdx (die : Nat) : Nat := if die < 6 then 2 else 1
/-- The spare of the die can serve: it is idle as a spare, and was not handed over from. -/
def State.spareFree (s : State) (die : Nat) : Bool :=
  s.fld .sqStatState (die * 128 + spareIdx die) = 0 && !s.unitFailed 2 die (spareIdx die)

/-- The spares that could serve a unit. -/
def State.spareCount (s : State) (kind die unit : Nat) : Nat :=
  match kind with
  | 0 => ((s.spareServes die).isNone && !s.unitFailed 0 die 8).toNat
  | 1 => (s.coresIn die (unit / 64) 0).length
  | 2 => (s.spareFree die).toNat
  | 4 => (s.pcSpares die (unit / 16)).length
  | 6 => 256 - s.power.repairs
  | 7 => (!s.unitReplaced 7 die unit).toNat
  | 8 => (!s.unitReplaced 8 die unit).toNat
  | k => s.fld .rmdKindLeft k

/-- Bring-ins under way draw on one supply: that of the kind, the die and the part of the die that shares spares. -/
def sameSupply (kind die unit : Nat) (b : BringIn) : Bool :=
  b.kind = kind && (kind = 3 || kind = 5 || kind = 6 || b.die = die) &&
    (match kind with
    | 1 => b.unit / 64 = unit / 64
    | 4 => b.unit / 16 = unit / 16
    | 8 => b.unit = unit
    | _ => true)

/-- A spare is left for a unit. -/
def State.spareLeft (s : State) (kind die unit : Nat) : Bool :=
  decide ((s.power.bringIns.filter (sameSupply kind die unit)).length < s.spareCount kind die unit)

def BringIn.is (b : BringIn) (kind die unit : Nat) : Bool := b.kind = kind && b.die = die && b.unit = unit
/-- A bring-in for the unit runs. -/
def State.bringing (s : State) (kind die unit : Nat) : Bool := s.power.bringIns.any (fun b => b.is kind die unit)

/-! ### Bringing in (R617, R618) -/

/-- A spare of a kind is brought in: inuse and left move, counted and raised (R618, R622). -/
def State.spareUsed (s : State) (kind die unit : Nat) : State :=
  let s := s.setFld .rmdKindInuse kind (min 255 (s.fld .rmdKindInuse kind + 1))
  let left := if kind = 6 then min 255 (256 - s.power.repairs) else s.fld .rmdKindLeft kind - 1
  (s.setFld .rmdKindLeft kind left).report .rmdIn kind .rmdIn die unit

/-- No spare of the kind is left (R618). -/
def State.noSpare (s : State) (kind die unit : Nat) : State := s.report .rmdEmpty kind .rmdEmpty die unit

/-- A bring-in starts. -/
def State.beginBringIn (s : State) (kind die unit : Nat) (caller : Option Caller) : State :=
  s.modPower (fun p => { p with bringIns := p.bringIns ++ [⟨kind, die, unit, caller, s.elapsed, 0⟩] })

/-- A bring-in of a unit under way ends: its command, if one asked, completes. -/
def State.endBringIn (s : State) (kind die unit : Nat) (st : Status) : State :=
  match s.power.bringIns.find? (fun b => b.is kind die unit) with
  | none => s
  | some b =>
    let s := s.modPower (fun p => { p with bringIns := p.bringIns.filter (fun y => decide (y ≠ b)) })
    match b.caller with
    | some c => s.answer c st []
    | none => s

/-- A unit's trigger: under an automatic policy a spare is brought in; with none left the unit stays out of service. -/
def State.autoSpare (s : State) (kind die unit : Nat) : State :=
  if s.unitPolicy kind die = 0 ∨ s.bringing kind die unit then s
  else if s.spareLeft kind die unit then s.beginBringIn kind die unit none
  else s.noSpare kind die unit

end Sys2Proof.Machine
end

