-- ==== Sys2Proof/Machine/Trees.lean ====
section
/-!
DEFINITION. Trees and channels: configuration, launch and stop of the frame grid (R119-R123, R131), protection by the
halter (R442, R451), skein members going down (R246), power domains of the lanes (R610).
-/

namespace Sys2Proof.Machine

/-- PCH_STAT as it reads (R134): crf follows the mode, ploam_q the queue, launched and fle the tree. -/
def State.pchStat (s : State) (c : Nat) : Word :=
  let t := treeOfChan c
  let crf := if s.xgs c then 57080 else 55341
  BitVec.ofNat 32 (crf * 65536 + (s.chan c).ploams.length * 256 + s.fld .pchStatKeyZero c * 8
    + (s.tree t).fleOver.toNat * 4 + (s.launched t).toNat * 2 + s.fld .pchStatTx c)

/-! ### Protection (R442, R451) -/

/-- The refusals common to commands on a tree: NOT_OWNER, then BLOCK_CLAIMED (log entry 9). A command accepted on a
protected tree is mirrored (R453). -/
def State.onTree (s : State) (t : Nat) (bs : List (Nat × Blk)) (r : Res) : Res :=
  if s.treeBarred t then .fail s .notOwner
  else
    let r := s.unlessClaimed bs r
    if r.status.refuses then r else { r with st := r.st.mirror t }

/-! ### Power domains (R610) -/

def State.setDomain (s : State) (d : Nat) (on : Bool) : State :=
  let w := s.reg .pwrDomStat (d / 32)
  let bit := BitVec.ofNat 32 (2 ^ (d % 32))
  s.setReg .pwrDomStat (d / 32) (if on then w ||| bit else w &&& ~~~ bit)

/-! ### Skein members (R246) -/

/-- The skein a channel is a member of, if any: skein number t × 2 + k, members one bit a wavelength (R237, R261). -/
def State.skeinOf (s : State) (c : Nat) : Option Nat :=
  let t := treeOfChan c
  [2 * t, 2 * t + 1].find? (fun k => s.flag .sknCfgValid k && (s.fld .sknCfgMembers k).testBit (c % 4))

/-- R257: a tributary goes down, counted and raised. -/
def State.tribDown (s : State) (i : Nat) : State :=
  match s.tribs.find i with
  | none => s
  | some x =>
    if x.down then s
    else ({ s with tribs := s.tribs.put i { x with down := true, goodRun := 0 } }.pmDefect 3 i).report .cadMemberLoss i .cadMemberLoss (2 + i / 256) i

/-- R246: a skein member goes down: it leaves every member set, counted and raised; the skein's tributaries go down
(R257). -/
def State.memberGone (s : State) (c : Nat) : State :=
  match s.skeinOf c with
  | none => s
  | some k =>
    if s.memberDown.has (4 * k + c % 4) then s
    else
      let s := ({ s with memberDown := s.memberDown.put (4 * k + c % 4) () }.pmDefect 2 k).report .sknMemberDown k .sknMemberDown (dieOfChan c) k
      (s.tribs.filter (fun p => p.2.skein = some k && p.2.members.any (fun m => m.1 = c % 4))).foldl (fun s p => s.tribDown p.1) s

/-! ### XGEM frames and idle (R116, R117) -/

/-- The 51 bits of an XGEM header above its HEC: PLI, key index, port, options 0, LF. -/
def Xgem.fields (x : Xgem) : Nat :=
  (x.pli % 2 ^ 14) * 2 ^ 37 + (x.key % 4) * 2 ^ 35 + (x.port % 2 ^ 16) * 2 ^ 19 + x.last.toNat

/-- The 8-byte XGEM header, its HEC that of the governing recommendation (log entry 2). -/
def Xgem.header (x : Xgem) : Nat := x.fields * 2 ^ 13 + Config.standard 52 [x.fields] % 2 ^ 13

/-- The port ID of idle XGEM frames (R117). -/
def idlePort : Nat := 65535

/-- Idle XGEM frames over so many bytes of payload: each as long as PLI can say; fewer than 8 bytes are closed as the recommendation
prescribes, shown as a frame of no payload. -/
def idleFrames : Nat → Nat → List Xgem
  | 0, _ => []
  | fuel + 1, room =>
    if room = 0 then []
    else
      let pli := min 16380 (room - 8)
      ⟨pli, 0, idlePort, true⟩ :: idleFrames fuel (room - 8 - pli)

/-- The rest of the FS payload of a channel's frame in force carries idle. -/
def State.closeFrame (s : State) (c : Nat) : State :=
  let x := s.chan c
  let l := idleFrames (x.room / 16388 + 1) x.room
  l.foldl (fun s f => s.send (.xgem c x.count f f.header none none)) (s.setChan c { x with room := 0 })

/-! ### Stopping channels and trees (R122, R639) -/

/-- OPT_TXEN of a channel goes low; its transmitter stops 1 µs later (TRANSMITTER_STOP). -/
def State.darken (s : State) (c : Nat) : State :=
  let s := if s.pin .optTxen c = 0 then s else { s with lanes := { s.lanes with darkAt := s.lanes.darkAt.put c s.elapsed } }
  s.drive .optTxen c 0

/-- A channel stops framing: OPT_TXEN low, the SDUs of its TC input buffer, and those on their way to it, discarded and
counted in pch_stop_drop. The scheduler's nodes under it go idle (R360, R362). A channel enabled again meanwhile keeps its start. -/
def State.stopChan (s : State) (c : Nat) : State :=
  let x := s.chan c
  let s := (s.darken c).setFlag .pchStatTx c false
  let s := s.setChan c { x with tc := [], stopping := false, map := none }
  let n := x.tc.length + (Tbl.getD s.toTc c []).length
  { s with toTc := s.toTc.del c, idled := s.idled.put (128 + c) () }.countBy .pchStopDrop c n

/-- A tree stops, launched or pending: every channel, the launch state, and EV_PCH_STOPPED (R122, R639). -/
def State.stopTree (s : State) (t : Nat) : State :=
  let was := s.launched t || s.launchPending t
  let s := (chansOfTree t).foldl (fun s c => let s := s.stopChan c; s.setChan c { s.chan c with startAt := none }) s
  let s := (s.setFlag .pchTreeLaunched t false).setFlag .pchTreePending t false
  let s := (s.setTree t { s.tree t with stopping := false }).treeEnded t
  if was then (s.pmTree t).raise .pchStopped (dieOfTree t) t else s

/-! ### The grid (R120, R121) -/

/-- k × 125 µs + offset. -/
def gridInstant (offset k : Nat) : Nat := k * frameSpan + nsSpan offset

/-- The first frame number whose start lies at or after an instant. -/
def gridFirst (offset m : Nat) : Nat := if m ≤ nsSpan offset then 0 else ceilDiv (m - nsSpan offset) frameSpan

def T3.isNone (t : T3) : Bool := t.hi = 0xFFFFFFFF && t.lo = 0xFFFFFFFF && t.ns = 0xFFFFFFFF

/-- R131: TREE.CONFIG. -/
def execTreeConfig (h : Hdr) (tree offset : Word) (s : State) : Host.Outcome State Fault Refusal :=
  .next (command h 0x0300 (.owner (dieOfTree (tree.toNat % 32))) (fun _ s =>
    let t := tree.toNat
    if 31 < t ∨ 124999 < offset.toNat then .fail s .badParam
    else s.onTree t [(dieOfTree t, .pch)] (
      if s.launched t ∨ s.launchPending t then .fail s .busy
      else .ok (s.setFld .pchTreeOffset t offset.toNat))) s)

/-- max_pli runs from 1,536 to 16,380 in steps of 4 (R119). -/
def pliOk (v : Nat) : Bool := 1536 ≤ v && v ≤ 16380 && v % 4 = 0

/-- The first frame start of a launched tree's grid at least 10 µs on, in elapsed time, and its count (R121). A running grid is not
moved (R57), so its frames are counted from the last measured start. -/
def State.nextStart (s : State) (t : Nat) : Nat × Nat :=
  let x := s.tree t
  let k := ceilDiv (s.elapsed + usSpan 10 - x.startElapsed) frameSpan
  (x.startElapsed + k * frameSpan, (x.count + k) % 2 ^ 51)

/-- A channel's enable is written: enabled on a launched tree it starts at the first grid instant at least 10 µs on;
disabled on a launched tree it stops at the end of its frame, though it be enabled again meanwhile (R121, R122). -/
def State.setEnable (s : State) (c : Nat) (on : Bool) : State :=
  let t := treeOfChan c
  let was := s.flag .pchCfgEnable c
  let s := s.setFlag .pchCfgEnable c on
  if on && !was && s.launched t then s.setChan c { s.chan c with startAt := some (s.nextStart t) }
  else if !on && was then
    let s := s.memberGone c
    s.setChan c { s.chan c with startAt := none, stopping := s.framing c }
  else s

/-- R131: TREE.CHANNEL_SET. The mode changes only while the channel is disabled. -/
def execTreeChannelSet (h : Hdr) (chan mode enable maxPli ploamMax : Word) (s : State) : Host.Outcome State Fault Refusal :=
  .next (command h 0x0301 (.owner (dieOfChan (chan.toNat % 128))) (fun _ s =>
    let c := chan.toNat
    if 127 < c ∨ 1 < mode.toNat ∨ !flagOk enable ∨ !pliOk maxPli.toNat ∨ ploamMax.toNat < 1 ∨ 8 < ploamMax.toNat then
      .fail s .badParam
    else s.onTree (treeOfChan c) [(dieOfChan c, .pch)] (
      if s.flag .pchCfgEnable c ∧ mode.toNat ≠ s.fld .pchCfgMode c then .fail s .busy
      else
        let s := (s.setFld .pchCfgMode c mode.toNat).setFld .pchCfgMaxPli c maxPli.toNat
        .ok ((s.setFld .pchCfgPloamMax c ploamMax.toNat).setEnable c (enable = 1)))) s)

/-- R121: TREE.LAUNCH: the first grid instant at or after the earliest instant and at least 10 µs on. -/
def execTreeLaunch (h : Hdr) (tree : Word) (earliest : T3) (unaligned : Word) (s : State) : Host.Outcome State Fault Refusal :=
  .next (command h 0x0302 (.owner (dieOfTree (tree.toNat % 32))) (fun _ s =>
    let t := tree.toNat
    if 31 < t ∨ !flagOk unaligned then .fail s .badParam
    else s.onTree t [(dieOfTree t, .pch)] (
      if s.launched t ∨ s.launchPending t then .fail s .busy
      else if !s.flag .tbStatAligned 0 ∧ unaligned ≠ 1 then .fail s .notReady
      else
        let m := s.nowOn (dieOfTree t) + usSpan 10
        let m := if T3.isNone earliest then m else max m (T3.time earliest)
        let k := gridFirst (s.fld .pchTreeOffset t) m
        let at_ := gridInstant (s.fld .pchTreeOffset t) k
        let s := (s.setFlag .pchTreePending t true).setFlag .pchTreeUnaligned t (!s.flag .tbStatAligned 0)
        let s := s.setTree t { s.tree t with
          launchAt := at_, launchCount := k % 2 ^ 51, stopping := false
          noCutoff := decide (timeDiff at_ (s.nowOn (dieOfTree t)) < (usSpan (s.fld .gntTreeCfgCutoff t) : Int)) }
        .ok s (timeWords at_ ++ wordsOf 64 (k % 2 ^ 51)))) s)

/-- R122: TREE.STOP: a pending launch is cancelled, and the tree's hints and arms go with it (R161); a launched tree stops at the end of its
frame. -/
def execTreeStop (h : Hdr) (tree : Word) (s : State) : Host.Outcome State Fault Refusal :=
  .next (command h 0x0303 (.owner (dieOfTree (tree.toNat % 32))) (fun _ s =>
    let t := tree.toNat
    if 31 < t then .fail s .badParam
    else s.onTree t [(dieOfTree t, .pch)] (
      if s.launchPending t then .ok ((s.setFlag .pchTreePending t false).treeEnded t)
      else if s.launched t then .ok (s.setTree t { s.tree t with stopping := true })
      else .ok s)) s)

/-- R131: TREE.STATUS: launch state, launch instant, count, each channel's PCH_STAT, frame-launch difference. The spec gives no
codes for the first and the last: the launch state is the PCH_TREE word, the difference a signed 32-bit number of nanoseconds (DESIGN
CHOICE, log entry 8). -/
def execTreeStatus (h : Hdr) (tree : Word) (s : State) : Host.Outcome State Fault Refusal :=
  .next (command h 0x0304 (.owner (dieOfTree (tree.toNat % 32))) (fun _ s =>
    let t := tree.toNat
    if 31 < t then .fail s .badParam
    else s.onTree t [] (
      .ok s (s.reg .pchTree t :: timeWords (s.tree t).launchAt ++ wordsOf 64 (s.treeCount t)
        ++ (chansOfTree t).map s.pchStat ++ [BitVec.ofInt 32 (s.tree t).fle]))) s)

/-- R130: TREE.DLN_SET. -/
def execTreeDlnSet (h : Hdr) (chan delta alpha : Word) (s : State) : Host.Outcome State Fault Refusal :=
  .next (command h 0x0305 (.owner (dieOfChan (chan.toNat % 128))) (fun _ s =>
    let c := chan.toNat
    if 127 < c ∨ delta.toNat < 1 ∨ 7 < delta.toNat ∨ alpha.toNat < 1 ∨ 15 < alpha.toNat then .fail s .badParam
    else s.onTree (treeOfChan c) [(dieOfChan c, .brx)] (
      .ok ((s.setFld .brxDlnCfgDelta c delta.toNat).setFld .brxDlnCfgAlpha c alpha.toNat))) s)

/-- A channel starts framing with a count; its first map is the empty one of R161, unless the calculator has delivered one for that
frame. -/
def State.startChan (s : State) (c count : Nat) : State :=
  (s.setFlag .pchStatTx c true).setChan c { s.chan c with next := count, startAt := none, stopping := false, firstMap := true }

/-- R121: a tree's frames start at an instant: every enabled channel with the launch's count; EV_PCH_LAUNCHED. -/
def State.launchTree (s : State) (t starts : Nat) : State :=
  let s := (s.setFlag .pchTreePending t false).setFlag .pchTreeLaunched t true
  let x := s.tree t
  let s := s.setTree t { x with count := x.launchCount, startTime := starts, startElapsed := s.elapsed }
  let s := ((chansOfTree t).filter (fun c => s.flag .pchCfgEnable c)).foldl (fun s c => s.startChan c x.launchCount) s
  (s.pmTree t).raise .pchLaunched (dieOfTree t) t

/-- R51, R55, R121: a pending launch whose instant the die's time has reached. -/
def execTreeLaunchStart (t : Tree) (s : State) : Host.Outcome State Fault Refusal :=
  let t := t.toNat
  .next (if s.launchPending t && reached (s.nowOn (dieOfTree t)) (s.tree t).launchAt then s.launchTree t (s.tree t).launchAt else s)

/-- R121: a channel enabled on a launched tree starts at its first grid instant. -/
def execChannelStart (c : Chan) (s : State) : Host.Outcome State Fault Refusal :=
  let c := c.toNat
  match (s.chan c).startAt with
  | some (at_, n) =>
    .next (if s.launched (treeOfChan c) ∧ at_ ≤ s.elapsed ∧ !s.framing c then s.startChan c n else s)
  | none => .next s

/-- R122: the end of the frame in force of a stopped tree, or of a tree some of whose channels were disabled. -/
def execTreeStopEffect (t : Tree) (s : State) : Host.Outcome State Fault Refusal :=
  let t := t.toNat
  if (s.tree t).stopping then .next (((chansOfTree t).foldl State.closeFrame s).stopTree t)
  else
    let cs := (chansOfTree t).filter (fun c => (s.chan c).stopping)
    .next (cs.foldl (fun s c => ((s.closeFrame c).stopChan c).raise .pchStopped (dieOfTree t) t) s)

/-- R70, R71: TIME.TOD_GET: for each channel the instant T_m + (S − S_m) × 125 µs + pd and its framing bit; then the
suspect bit. -/
def execTimeTodGet (h : Hdr) (tree sHi sLo : Word) (s : State) : Host.Outcome State Fault Refusal :=
  .next (command h 0x0108 (.owner (dieOfTree (tree.toNat % 32))) (fun _ s =>
    let t := tree.toNat
    let x := s.tree t
    let d := framesBetween x.count (sHi.toNat * 2 ^ 32 + sLo.toNat)
    if 31 < t then .fail s .badParam
    else if !s.launched t then .fail s .notReady
    else if 80000 < (s.framesTo t (sHi.toNat * 2 ^ 32 + sLo.toNat)).natAbs ∨ 2 ^ 19 ≤ sHi.toNat then .fail s .badParam
    else
      let at_ := fun c => ((x.startTime : Int) + d * frameSpan + nsSpan (if s.xgs c then 538 else 412)).toNat
      .ok s ((chansOfTree t).flatMap (fun c => timeWords (at_ c) ++ [BitVec.ofNat 32 (s.framing c).toNat])
        ++ [BitVec.ofNat 32 (x.fleOver || s.flag .pchTreeUnaligned t).toNat])) s)

end Sys2Proof.Machine
end

