-- ==== Sys2Proof/Machine/GrantCalc.lean ====
section
/-!
DEFINITION. The computation of a bandwidth map from a snapshot (R149-R154, R157): burst set, stage grants, weighted fair
filling, assembly and placement. A function of the snapshot alone (R140).
-/

namespace Sys2Proof.Machine

/-- Insertion into a list kept in ascending order of a number; equal ones keep their order. -/
def insertOn {α : Type} (f : α → Nat) (x : α) : List α → List α
  | [] => [x]
  | y :: ys => if f x < f y then x :: y :: ys else y :: insertOn f x ys

def sortOn {α : Type} (f : α → Nat) (l : List α) : List α := l.foldl (fun acc x => insertOn f x acc) []

def sumOn {α : Type} (l : List α) (f : α → Nat) : Nat := (l.map f).sum

/-- R148: a PLOAMu of 48 bytes, and R183: a DBRu of 4 bytes padded to one quantum. -/
def ploamuQ (bpq : Nat) : Nat := ceilDiv 48 bpq

/-- The grants of one Alloc-ID by stage (R150), in payload quanta; `pinQ` of the cooperative ones come from hints pinned
at `pin`. -/
structure GWork where
  a : GAlloc
  coop : Nat := 0
  pinQ : Nat := 0
  pinHints : Nat := 0
  pin : Option Nat := none
  fix : Nat := 0
  asr : Nat := 0
  na : Nat := 0
  be : Nat := 0
  want : Nat := 0

def GWork.payload (w : GWork) : Nat := w.coop + w.pinQ + w.fix + w.asr + w.na + w.be

def GChan.hintQ (g : GChan) (key : Nat) : Nat := sumOn (g.hints.filter (fun h => h.1 = key)) (fun h => h.2.1)

def GChan.hinted (g : GChan) (key : Nat) : Bool := g.hints.any (fun h => h.1 = key)

/-- Cooperative and fixed grants together (R149 item 4). -/
def GChan.base (g : GChan) (a : GAlloc) : Nat := g.hintQ a.key + a.fixed

/-- The want of R150 before any grant but the base. -/
def GAlloc.wantFrom (a : GAlloc) (got : Nat) : Nat := if a.asks then min a.demand a.max - got else 0

def GChan.asking (g : GChan) (a : GAlloc) : Bool := a.asks && g.base a < a.demand

/-- The Alloc-IDs of an ONU that take part in the frame; an ONU with only a PLOAMu due polls its lowest-index one. -/
def GChan.active (g : GChan) (o : GOnu) : List GAlloc :=
  let mine := g.allocs.filter (fun a => a.onu = o.onu)
  let act := mine.filter (fun a => g.hinted a.key || 0 < a.fixed || a.poll || g.asking a)
  if act.isEmpty && o.ploamu then mine.take 1 else act

/-- The profiles of an ONU's bursts, in ascending record index of their first Alloc-ID (R153). -/
def profilesOf (l : List GAlloc) : List Nat := (l.map (·.profile)).foldl (fun ps p => if ps.contains p then ps else ps ++ [p]) []

/-- The place of an ONU in the order of R149: item, band, ONU index. -/
def GChan.rank (g : GChan) (o : GOnu) : Nat :=
  let act := g.active o
  let item := if act.any (fun a => g.hinted a.key) then 1 else if act.any (fun a => 0 < a.fixed) then 2
    else if o.ploamu || act.any (·.poll) then 3 else 4
  let band := if item = 4 then ((act.filter g.asking).map (·.band)).foldl min 7 else 0
  (item * 8 + band) * 2 ^ 16 + o.onu

/-- What the set reserves for an ONU (R149): guard and overhead of each burst, DBRu and PLOAMu quanta. -/
def GChan.reservation (g : GChan) (o : GOnu) : Nat :=
  let act := g.active o
  sumOn (profilesOf act) (fun p => g.guard + g.ovh.getD p 0) + (act.filter (·.dbru)).length
    + (if o.ploamu then ploamuQ ((act.head?.map (·.bpq)).getD 1) else 0)

/-- The claim of an ONU in the set (R149). -/
def GChan.claim (g : GChan) (o : GOnu) : Nat :=
  sumOn (g.active o) (fun a => g.base a + min a.assured (a.wantFrom (g.base a)))

/-- Quanta covered by the quiet windows and by window grants that lie outside them (R150). -/
def GChan.blocked (g : GChan) : List (Nat × Nat) :=
  g.quiet ++ (g.preset.map (fun p => (p.start, p.start + p.size))).filter (fun i => !g.quiet.any (fun q => q.1 ≤ i.1 && i.2 ≤ q.2))

/-- How many quanta of a frame a list of intervals covers. -/
def covered (quanta : Nat) (l : List (Nat × Nat)) : Nat :=
  let r := (sortOn (·.1) l).foldl (fun (acc : Nat × Nat) i =>
    let lo := max acc.2 i.1
    let hi := min quanta i.2
    if lo < hi then (acc.1 + (hi - lo), hi) else acc) (0, 0)
  r.1

/-- The burst set under way: quanta used, structures, whether it has stopped, ONUs in it and ONUs left out, in order. -/
structure BurstSet where
  used : Nat
  structs : Nat
  stopped : Bool := false
  chosen : List GOnu := []
  out : List GOnu := []

/-- R149: the next ONU joins the set, or the set stops. -/
def GChan.join (g : GChan) (b : BurstSet) (o : GOnu) : BurstSet :=
  let n := (g.active o).length
  let r := g.reservation o
  if b.stopped || 512 < b.structs + n || g.quanta < b.used + r then { b with stopped := true, out := b.out ++ [o] }
  else { b with used := b.used + r + g.claim o, structs := b.structs + n, chosen := b.chosen ++ [o] }

def GChan.burstSet (g : GChan) : BurstSet :=
  let cand := sortOn g.rank (g.onus.filter (fun o => !(g.active o).isEmpty))
  cand.foldl g.join { used := covered g.quanta g.blocked, structs := g.preset.length }

/-- The Alloc-IDs of a left-out ONU that the frame would have granted (R149). -/
def GChan.cappedOf (g : GChan) (o : GOnu) : List GAlloc :=
  let first := (g.active o).take 1
  (g.allocs.filter (fun a => a.onu = o.onu)).filter (fun a =>
    g.hinted a.key || 0 < a.fixed || a.poll || (a.asks && 0 < a.demand) || (o.ploamu && first.any (fun f => f.key = a.key)))

/-- The computation under way: quanta free, the works in ascending record index, hints and fixed grants cut, Alloc-IDs
short of their assured want, virtual times, whether a hint has been dropped. -/
structure Stage where
  free : Nat
  works : List GWork
  coopClip : Nat := 0
  fixedShort : Nat := 0
  assuredShort : Nat := 0
  clipping : Bool := false
  vt : Tbl Nat

def Stage.update (st : Stage) (key : Nat) (f : GWork → GWork) : List GWork :=
  st.works.map (fun w => if w.a.key = key then f w else w)

/-- Stage 1, cooperative (R150, R157): hints in ascending record index until no more fit. -/
def hintStep (st : Stage) (h : Nat × Nat × Option Nat) : Stage :=
  if !st.works.any (fun w => w.a.key = h.1) then st
  else if st.clipping || st.free < h.2.1 then { st with clipping := true, coopClip := st.coopClip + 1 }
  else
    { st with
      free := st.free - h.2.1
      works := st.update h.1 (fun w => match h.2.2 with
        | some p => { w with pinQ := w.pinQ + h.2.1, pinHints := w.pinHints + 1, pin := some (w.pin.getD p) }
        | none => { w with coop := w.coop + h.2.1 }) }

/-- Stage 1, fixed (R157): whole while it fits, the first that does not reduced, later ones nothing. -/
def fixedStep (st : Stage) (w : GWork) : Stage :=
  let x := min w.a.fixed st.free
  { st with
    free := st.free - x
    fixedShort := st.fixedShort + (if x < w.a.fixed then 1 else 0)
    works := st.update w.a.key (fun v => { v with fix := x }) }

/-- Stage 2 (R150). -/
def assuredStep (st : Stage) (w : GWork) : Stage :=
  let need := min w.a.assured w.want
  let x := min need st.free
  { st with
    free := st.free - x
    assuredShort := st.assuredShort + (if x < need then 1 else 0)
    works := st.update w.a.key (fun v => { v with asr := x, want := v.want - x }) }

/-! ### Weighted fair filling (R151, R152) -/

/-- a − b of two tags, signed modulo 2^32 (R152, R51). -/
def tagDiff (a b : Nat) : Int := signedOf 32 ((a + 2 ^ 32 - b % 2 ^ 32) % 2 ^ 32)

/-- The later of a virtual time and a finish tag (R152). -/
def tagMax (v f : Nat) : Nat := if 0 ≤ tagDiff f v then f else v

/-- One that takes part in a fill: record key, start tag above V in 1/256, weight, cap. -/
structure Part where
  key : Nat
  s : Nat
  w : Nat
  cap : Nat

/-- The points at which a part starts and reaches its cap, as fractions. -/
def Part.points (p : Part) : List (Nat × Nat) := [(p.s, 1), (p.s * p.w + 256 * p.cap, p.w)]

def fracLe (a b : Nat × Nat) : Bool := a.1 * b.2 ≤ b.1 * a.2

/-- The level L above a point, as a fraction in 1/256, if no other point lies between: the parts under way share what
the capped ones leave (R151 step 2). -/
def levelAbove (parts : List Part) (free : Nat) (p : Nat × Nat) : Option (Nat × Nat) :=
  let capPoint := fun (q : Part) => (q.s * q.w + 256 * q.cap, q.w)
  let capped := parts.filter (fun q => fracLe (capPoint q) p)
  let act := parts.filter (fun q => fracLe (q.s, 1) p && !fracLe (capPoint q) p)
  let taken := sumOn capped (·.cap)
  let weight := sumOn act (·.w)
  let level := (256 * (free - taken) + sumOn act (fun q => q.w * q.s), weight)
  if weight = 0 || free < taken || !fracLe p level then none
  else if (parts.flatMap Part.points).all (fun b => fracLe b p || fracLe level b) then some level
  else none

def fillLevel (parts : List Part) (free : Nat) : Nat × Nat :=
  ((parts.flatMap Part.points).findSome? (levelAbove parts free)).getD (0, 1)

/-- The quanta left by rounding go one at a time to uncapped ones (R151 step 3). -/
def spread : List (Part × Nat) → Nat → List (Part × Nat)
  | [], _ => []
  | (p, g) :: rest, 0 => (p, g) :: spread rest 0
  | (p, g) :: rest, n + 1 => if g < p.cap then (p, g + 1) :: spread rest n else (p, g) :: spread rest (n + 1)

/-- The grants of a fill and how far V advances, in 1/256 (R151). Where quanta are wanted and none is free, the level is not unique and
R151 gives no V: V stays where it is (DESIGN CHOICE, log entry 15). -/
def fill (parts : List Part) (free : Nat) : List (Part × Nat) × Nat :=
  if sumOn parts (·.cap) ≤ free then
    (parts.map (fun p => (p, p.cap)), (parts.map (fun p => p.s + p.cap * 256 / p.w)).foldl max 0)
  else if free = 0 then (parts.map (fun p => (p, 0)), 0)
  else
    let l := fillLevel parts free
    let given := parts.map (fun p => (p, min p.cap (p.w * (l.1 - p.s * l.2) / (256 * l.2))))
    let left := free - sumOn given (·.2)
    (spread (sortOn (fun x => x.1.s * 2 ^ 18 + x.1.key % 2 ^ 18) given) left, l.1 / l.2)

/-- A fill of one stage (false non-assured, true best effort) and band. -/
def fillStep (be : Bool) (st : Stage) (band : Nat) : Stage :=
  let idx := be.toNat * 8 + band
  let v := Tbl.getD st.vt idx 0
  let cap := fun (w : GWork) => if be then w.want else min w.a.nonAssured w.want
  let tag := fun (w : GWork) => if be then w.a.tagBe else w.a.tagNa
  let ws := st.works.filter (fun w => w.a.band = band && w.a.asks && 0 < w.a.weight && 0 < cap w)
  let parts := ws.map (fun w => (⟨w.a.key, (tagDiff (tagMax v (tag w)) v).toNat, w.a.weight, cap w⟩ : Part))
  if parts.isEmpty then
    { st with works := st.works.map (fun w => if w.a.band = band then
        { w with a := if be then { w.a with tagBe := tagMax v w.a.tagBe } else { w.a with tagNa := tagMax v w.a.tagNa } } else w) }
  else
    let r := fill parts st.free
    let v' := (v + r.2) % 2 ^ 32
    { st with
      free := st.free - sumOn r.1 (·.2)
      vt := Tbl.setD st.vt idx 0 v'
      works := st.works.map (fun w =>
        if w.a.band ≠ band then w
        else match r.1.find? (fun x => x.1.key = w.a.key) with
          | some (p, g) =>
            let f := (v + p.s + g * 256 / p.w) % 2 ^ 32
            if be then { w with be := g, want := w.want - g, a := { w.a with tagBe := f } }
            else { w with na := g, want := w.want - g, a := { w.a with tagNa := f } }
          | none =>
            { w with a := if be then { w.a with tagBe := tagMax v' w.a.tagBe } else { w.a with tagNa := tagMax v' w.a.tagNa } }) }

/-- All stages of R150 over the works of the ONUs in the set. -/
def GChan.stages (g : GChan) (works : List GWork) (free : Nat) : Stage :=
  let st : Stage := { free := free, works := works, vt := g.vt }
  let st := (sortOn (·.1) g.hints).foldl hintStep st
  let st := (st.works.filter (fun w => 0 < w.a.fixed)).foldl fixedStep st
  let st := { st with works := st.works.map (fun w => { w with want := w.a.wantFrom w.payload }) }
  let bands := List.range 8
  let st := bands.foldl (fun st b => (st.works.filter (fun w => w.a.band = b && w.a.asks)).foldl assuredStep st) st
  let st := bands.foldl (fillStep false) st
  bands.foldl (fillStep true) st

/-! ### Assembly and placement (R153) -/

/-- A burst being placed: its ONU, profile, whether it carries the PLOAMu, its works in ascending record index. -/
structure GBurst where
  onu : GOnu
  profile : Nat
  ploamu : Bool
  works : List GWork

/-- GrantSize of each allocation (R153): PLOAMu, DBRu, payload, and the parity of the codewords that end in it. -/
def sizesFrom (fec : Option (Nat × Nat)) (ploamu : Bool) : Nat → List GWork → List Nat
  | _, [] => []
  | d, w :: rest =>
    let data := (if ploamu then ploamuQ w.a.bpq else 0) + w.a.dbru.toNat + w.payload
    match fec with
    | none => data :: sizesFrom fec false d rest
    | some (k, p) =>
      let d' := d + data * w.a.bpq
      let words := d' / k - d / k + (if rest.isEmpty ∧ d' % k ≠ 0 then 1 else 0)
      (data + ceilDiv (words * p) w.a.bpq) :: sizesFrom fec false d' rest

/-- The codewords run from the burst header on: 4 bytes before the first allocation (R179). -/
def GChan.sizes (g : GChan) (b : GBurst) : List Nat := sizesFrom (g.fec.getD b.profile none) b.ploamu 4 b.works

def GChan.lead (g : GChan) (b : GBurst) : Nat := g.guard + g.ovh.getD b.profile 0

def GChan.length (g : GChan) (b : GBurst) : Nat := g.lead b + (g.sizes b).sum

/-- Gaps of the frame between occupied intervals, in order. -/
def gapsOf (quanta : Nat) (occ : List (Nat × Nat)) : List (Nat × Nat) :=
  let r := (sortOn (·.1) occ).foldl (fun (acc : List (Nat × Nat) × Nat) i =>
    (if acc.2 < i.1 then acc.1 ++ [(acc.2, i.1)] else acc.1, max acc.2 i.2)) ([], 0)
  if r.2 < quanta then r.1 ++ [(r.2, quanta)] else r.1

/-- The most of a stage's grant of one work that lets the burst fit a room, searched by halving. -/
def cutTo (fits : Nat → Bool) : Nat → Nat → Nat → Nat
  | 0, lo, _ => lo
  | n + 1, lo, hi =>
    let mid := (lo + hi + 1) / 2
    if hi ≤ lo then lo else if fits mid then cutTo fits n mid hi else cutTo fits n lo (mid - 1)

def setStage (stage : Nat) (w : GWork) (x : Nat) : GWork :=
  if stage = 0 then { w with be := x } else if stage = 1 then { w with na := x } else { w with asr := x }

def getStage (stage : Nat) (w : GWork) : Nat := if stage = 0 then w.be else if stage = 1 then w.na else w.asr

/-- R153: one work of one stage is cut, down to zero, as far as the room asks. An Alloc-ID cut to zero stays in its burst as a structure of
GrantSize 0 and counts as listed, as does one whose only grant was a pinned hint that is dropped: the spec does not say (DESIGN CHOICE, log
entry 92). -/
def GChan.cutWork (g : GChan) (room : Nat) (b : GBurst) (x : Nat × Nat) : GBurst :=
  let stage := x.1
  if g.length b ≤ room then b
  else
    let put := fun v => { b with works := b.works.map (fun w => if w.a.key = x.2 then setStage stage w v else w) }
    match b.works.find? (fun w => w.a.key = x.2) with
    | some w => put (cutTo (fun v => decide (g.length (put v) ≤ room)) 20 0 (getStage stage w))
    | none => b

/-- R153: shortened to a room: best effort first, then non-assured, then assured; the highest record index first. -/
def GChan.shorten (g : GChan) (room : Nat) (b : GBurst) : GBurst :=
  let keys := (b.works.map (fun w => w.a.key)).reverse
  ([0, 1, 2].flatMap (fun st => keys.map (fun k => (st, k)))).foldl (g.cutWork room) b

/-- Placement under way: intervals taken, bursts placed at their first quantum, bursts left out, bursts shortened,
hints dropped. -/
structure Placed where
  occ : List (Nat × Nat)
  bursts : List (Nat × GBurst) := []
  out : List GBurst := []
  packClip : Nat := 0
  coopClip : Nat := 0

/-- The pin that places a burst: where hints of one ONU and profile name several quanta, that of the lowest record places the whole burst.
R153 does not say (DESIGN CHOICE, log entry 92). -/
def GBurst.pin (b : GBurst) : Option (Nat × Nat) := b.works.findSome? (fun w => w.pin.map (fun p => (w.a.key, p)))

/-- R153: a pinned burst goes whole to its place, or not there at all: then its pinned hints' bytes are dropped. -/
def GChan.placePinned (g : GChan) (pl : Placed × List GBurst) (b : GBurst) : Placed × List GBurst :=
  match b.pin with
  | none => pl
  | some (_, q) =>
    let lo := q - g.lead b
    let hi := lo + g.length b
    if g.lead b ≤ q && hi ≤ g.quanta && pl.1.occ.all (fun i => decide (i.2 ≤ lo ∨ hi ≤ i.1)) then
      ({ pl.1 with occ := pl.1.occ ++ [(lo, hi)], bursts := pl.1.bursts ++ [(lo, b)] }, pl.2)
    else
      let n := sumOn b.works (·.pinHints)
      ({ pl.1 with coopClip := pl.1.coopClip + n },
        pl.2.map (fun c => if c.onu.onu = b.onu.onu ∧ c.profile = b.profile then
          { c with works := c.works.map (fun w => { w with pinQ := 0, pinHints := 0, pin := none }) } else c))

/-- R153: an unpinned burst goes to the earliest gap that holds it whole, or is shortened to the largest gap, or is left out. Left out, it
counts in gnt_coop_clip one for each Alloc-ID with unpinned hints and one for each pinned hint: R160 does not say what one count is (DESIGN
CHOICE, log entry 92). -/
def GChan.placeFree (g : GChan) (pl : Placed) (b : GBurst) : Placed :=
  let gaps := gapsOf g.quanta pl.occ
  match gaps.find? (fun i => g.length b ≤ i.2 - i.1) with
  | some i => { pl with occ := pl.occ ++ [(i.1, i.1 + g.length b)], bursts := pl.bursts ++ [(i.1, b)] }
  | none =>
    let big := gaps.foldl (fun acc i => if acc.2 - acc.1 < i.2 - i.1 then i else acc) (0, 0)
    let b' := g.shorten (big.2 - big.1) b
    if g.length b' ≤ big.2 - big.1 ∧ big.1 < big.2 then
      { pl with occ := pl.occ ++ [(big.1, big.1 + g.length b')], bursts := pl.bursts ++ [(big.1, b')], packClip := pl.packClip + 1 }
    else
      { pl with out := pl.out ++ [b], coopClip := pl.coopClip + sumOn b.works (fun w => (if 0 < w.coop then 1 else 0) + w.pinHints) }

/-- What a computation leaves of one Alloc-ID: key, payload quanta, left out, tags. -/
structure GResult where
  key : Nat
  granted : Nat
  listed : Bool
  out : Bool
  tagNa : Nat
  tagBe : Nat

/-- A channel's map and what the computation counts (R160). -/
structure GOut where
  map : List AllocStruct
  results : List GResult
  vt : Tbl Nat
  idle : Nat
  allocCap : Nat
  assuredShort : Nat
  packClip : Nat
  coopClip : Nat
  fixedShort : Nat
  ploamus : List Nat

/-- The structures of a placed burst; StartTime is the quantum at which the allocation's first part begins (R153). -/
def GChan.structs (g : GChan) (x : Nat × GBurst) : List AllocStruct :=
  let b := x.2
  let start := x.1 + g.lead b
  let r := (b.works.zip (g.sizes b)).foldl (fun (acc : List AllocStruct × Nat) ws =>
    (acc.1 ++ [⟨ws.1.a.allocId, ws.1.a.onu, acc.2, ws.2, ws.1.a.dbru, b.ploamu && acc.1.isEmpty, b.profile, false, ws.1.payload, false⟩], acc.2 + ws.2)) ([], start)
  r.1

/-- The bursts of an ONU, one a profile; the first carries the PLOAMu (R148, R153). An Alloc-ID given nothing at all is
not listed, but a burst keeps at least one. -/
def burstsOf (works : List GWork) (o : GOnu) : List GBurst :=
  let mine := works.filter (fun w => w.a.onu = o.onu)
  let ps := profilesOf (mine.map (·.a))
  ps.map (fun p =>
    let ws := mine.filter (fun w => w.a.profile = p)
    let kept := ws.filter (fun w => w.a.dbru || 0 < w.payload)
    ⟨o, p, o.ploamu && ps.head? = some p, if kept.isEmpty then ws.take 1 else kept⟩)

/-- The whole computation for a channel. -/
def GChan.compute (g : GChan) : GOut :=
  let set := g.burstSet
  let works := (sortOn (fun a : GAlloc => a.key) (set.chosen.flatMap g.active)).map (fun a => ({ a := a } : GWork))
  let quietQ := covered g.quanta g.blocked
  let st := g.stages works (g.quanta - quietQ - sumOn set.chosen g.reservation)
  let bursts := set.chosen.flatMap (burstsOf st.works)
  let pinned := sortOn (fun b : GBurst => (b.pin.map Prod.fst).getD 0) (bursts.filter (fun b => b.pin.isSome))
  let r := pinned.foldl g.placePinned ({ occ := g.blocked }, bursts)
  let done := fun (b : GBurst) => r.1.bursts.any (fun x => x.2.onu.onu = b.onu.onu ∧ x.2.profile = b.profile)
  let pl := (r.2.filter (fun b => !done b)).foldl g.placeFree r.1
  let outKeys := pl.out.flatMap (fun b => b.works.map (fun w => w.a.key))
  let capped := set.out.flatMap g.cappedOf
  let setOut := set.out.map (·.onu)
  let final := pl.bursts.flatMap (fun x => x.2.works)
  let results := g.allocs.map (fun a =>
    match final.find? (fun w => w.a.key = a.key) with
    | some w => ⟨a.key, w.payload, true, false, w.a.tagNa, w.a.tagBe⟩
    | none =>
      if outKeys.contains a.key ∨ setOut.contains a.onu then
        ⟨a.key, 0, false, outKeys.contains a.key || capped.any (fun c => c.key = a.key), a.tagNa, a.tagBe⟩
      else
        match st.works.find? (fun w => w.a.key = a.key) with
        | some w => ⟨a.key, 0, false, false, w.a.tagNa, w.a.tagBe⟩
        | none =>
          ⟨a.key, 0, false, false, tagMax (Tbl.getD st.vt a.band 0) a.tagNa, tagMax (Tbl.getD st.vt (8 + a.band) 0) a.tagBe⟩)
  { map := sortOn (fun x : AllocStruct => x.start) (g.preset ++ pl.bursts.flatMap g.structs)
    results := results
    vt := st.vt
    idle := g.quanta - quietQ - sumOn pl.bursts (fun x => g.length x.2)
    allocCap := capped.length + outKeys.length
    assuredShort := st.assuredShort
    packClip := pl.packClip
    coopClip := st.coopClip + pl.coopClip
    fixedShort := st.fixedShort
    ploamus := (pl.bursts.filter (fun x => x.2.ploamu)).map (fun x => x.2.onu.onu) }

end Sys2Proof.Machine
end

