-- ==== Sys2Proof/Machine/Lanes.lean ====
section
/-!
DEFINITION. Serial lanes: states and bring-up, tandem block lock, uplink port modes, the host link, reference clocks,
monitors (R79-R111, R639).
-/

namespace Sys2Proof.Machine

/-- Lanes of a family (R79). -/
def laneCount (family : Nat) : Nat :=
  if family < 2 then 128 else if family = 2 then 64 else if family = 3 then 8 else if family = 4 then 4 else 0

def laneDie (family i : Nat) : Nat :=
  if family < 2 then dieOfChan i else if family = 2 then dieOfLane i else if family = 3 then dieOfTLane i else 0

def laneBlk (family : Nat) : Blk := if family < 2 then .lnp else if family = 2 then .lnu else if family = 3 then .tnd else .sys

/-- A span of time has passed since the lane entered its state or stage. -/
def State.laneWaited (s : State) (family i span : Nat) : Bool := Tbl.getD s.lanes.since (laneKey family i) 0 + span ≤ s.elapsed

def State.laneStage (s : State) (family i : Nat) : Nat :=
  if family = 2 then s.fld .lnuStatStage i
  else if family = 3 then s.fld .tndStatStage i
  else if family = 4 then s.lanes.hostStage
  else 0

/-- A lane takes a state and a stage; the stage is 0 outside BRINGUP (R109). The times of R87, R88 and R92 count from then. -/
def State.setLane (s : State) (family i st stage : Nat) : State :=
  let s := { s with lanes := { s.lanes with since := s.lanes.since.put (laneKey family i) s.elapsed } }
  if family = 0 then s.setFld .lnpCtlTxState i st
  else if family = 1 then
    let s := s.setFld .lnpCtlRxState i st
    if st = 3 then s else s.pmDefect 0 i
  else if family = 2 then
    let s := if st = 3 then s else { s with idled := s.idled.put i () }.pmDefect 4 (s.portOf i)
    (s.setFld .lnuStatState i st).setFld .lnuStatStage i stage
  else if family = 3 then
    let s := (s.setFld .tndStatState i st).setFld .tndStatStage i stage
    if (List.range 8).any s.tandemLaneUp then s else s.tandemDown
  else { s with lanes := { s.lanes with hostState := st, hostStage := stage } }

/-- The host has left the lane on. -/
def State.lanePower (s : State) (family i : Nat) : Bool :=
  if family = 0 then s.flag .lnpCtlTxOn i
  else if family = 1 then s.flag .lnpCtlRxOn i
  else if family = 2 then s.flag .lnuCtlPower i
  else if family = 3 then s.flag .tndCtlPower i
  else true

def State.setPower (s : State) (family i : Nat) (on : Bool) : State :=
  if family = 0 then s.setFlag .lnpCtlTxOn i on
  else if family = 1 then s.setFlag .lnpCtlRxOn i on
  else if family = 2 then s.setFlag .lnuCtlPower i on
  else s.setFlag .tndCtlPower i on

def laneDomain (family i : Nat) : Nat :=
  if family = 0 then i else if family = 1 then 128 + i else if family = 2 then 256 + i else 320 + i

/-- Turning a lane on: OFF to POWERING, its power domain switched on (R85). -/
def State.laneOn (s : State) (family i : Nat) : State :=
  let s := s.setPower family i true
  if s.laneState family i = 0 then (s.setLane family i 1 0).setDomain (laneDomain family i) true else s

/-- Discards the frames held at a port's PCS, counted. -/
def State.dropHeld (s : State) (port : Nat) (c : Ctr) : State :=
  let n := (Tbl.getD s.lanes.held port []).length
  { s with lanes := { s.lanes with held := s.lanes.held.del port } }.countBy c port n

/-- A lane's loops and alignment are no longer locked, nor its negotiation complete where that starts afresh (R109); a tandem lane's
pause is then over (R87, R101, R106). -/
def State.clearLocks (s : State) (family i : Nat) (afresh : Bool) : State :=
  if family = 2 then
    let s := if afresh then s.setFlag .lnuStatAnDone i false else s
    (s.setFlag .lnuStatBlkLock i false).setFlag .lnuStatCdrLock i false
  else if family = 3 then
    let paused := if afresh then s.lanes.paused.del i else s.lanes.paused
    { (s.setFlag .tndStatBlkLock i false).setFlag .tndStatCdrLock i false with
      lanes := { s.lanes with blockLock := s.lanes.blockLock.del i, paused := paused } }
  else s

/-- Steps 2 and 3 of R89: frames not yet sent are discarded and counted, then the domain goes off. -/
def State.laneDark (s : State) (family i : Nat) : State :=
  let s :=
    if family = 0 then
      let x := s.chan i
      (s.setChan i { x with tc := [] }).countBy .lnpTxOffDrop i x.tc.length
    else if family = 2 then s.dropHeld (s.portOf i) .lnuTxOffDrop
    else s
  ((s.setLane family i 0 0).clearLocks family i true).setDomain (laneDomain family i) false

/-- Turning a lane off (R89): a PON transmitter that runs has OPT_TXEN deasserted now and stops 1 µs later, the rest following then
(TRANSMITTER_STOP); any other lane is squelched and goes off at once. -/
def State.laneOff (s : State) (family i : Nat) : State :=
  let s := s.setPower family i false
  if s.laneState family i = 0 then s
  else
    let s := if family < 2 then s.memberGone i else s
    if family = 0 ∧ s.lanes.transmitting.has i then
      { s.darken i with lanes := { (s.darken i).lanes with goingOff := s.lanes.goingOff.put i () } }
    else s.laneDark family i

def State.laneTurn (s : State) (family i : Nat) (on : Bool) : State :=
  (s.laneGroup family i).foldl (fun s j => if on then s.laneOn family j else s.laneOff family j) s

def laneRefOk (family index : Word) : Bool := family.toNat < 5 && index.toNat < laneCount family.toNat

/-- The domain of the TC or PCS region that a lane belongs to (R610, R105). -/
def regionDomain (family i : Nat) : Option Nat :=
  if family < 2 then some (376 + 6 * (i / 32) + i % 32 / 8)
  else if family = 2 then some (400 + 6 * (i / 32) + i % 32 / 8)
  else if family = 3 then some (403 + 6 * (i / 4))
  else none

/-- A lane's region is powered (R612). -/
def State.regionOn (s : State) (family i : Nat) : Bool := ((regionDomain family i).map s.domainOn).getD true

/-- R85, R89, R90, R612: LANE.POWER. -/
def execLanePower (h : Hdr) (family index on : Word) (s : State) : Host.Outcome State Fault Refusal :=
  .next (command h 0x0200 (.owner (laneDie family.toNat index.toNat)) (fun _ s =>
    let f := family.toNat
    let i := index.toNat
    if !laneRefOk family index ∨ f = 4 ∨ !flagOk on then .fail s .badParam
    else s.unlessClaimed [(laneDie f i, laneBlk f)] (
      if !s.regionOn f i then .fail s .busy else .ok (s.laneTurn f i (on = 1)))) s)

/-- A lane's rate in Mb/s (R79). -/
def State.laneRate (s : State) (family i : Nat) : Nat :=
  if family < 2 then (if s.xgs i then 9953 else 49766)
  else if family = 2 then (if (s.fld .lnuModeHalf50 (i / 8)).testBit (i % 8) then 53125 else 106250)
  else if family = 3 then 53125
  else s.lanes.hostRate

/-- R106: LANE.STATUS: state, stage, locks, rate, width (log entry 8). -/
def execLaneStatus (h : Hdr) (family index : Word) (s : State) : Host.Outcome State Fault Refusal :=
  .next (command h 0x0201 (.owner (laneDie family.toNat index.toNat)) (fun _ s =>
    let f := family.toNat
    let i := index.toNat
    if !laneRefOk family index then .fail s .badParam
    else
      let locks := if f = 2 then s.fld .lnuStatCdrLock i + 2 * s.fld .lnuStatBlkLock i + 4 * s.pin .refclkUpl (i / 32)
        else if f = 3 then s.fld .tndStatCdrLock i + 2 * s.fld .tndStatBlkLock i + 4 * s.pin .refclkTnd 0
        else if f < 2 then 4 * s.pin .refclkPon (i / 32) else 4 * s.pin .pcieRefclk 0
      .ok s ([s.laneState f i, s.laneStage f i, locks, s.laneRate f i, if f = 4 then s.lanes.hostWidth else 1].map (BitVec.ofNat 32))) s)

/-! ### Uplink port modes (R94, R95, R110) -/

/-- A half50 bit is valid only in a quad set to 4 × 100GbE and without oct800 (R110). -/
def modeValid (oct800 quad0 quad1 half50 : Nat) : Bool :=
  (oct800 = 0 || half50 = 0) && (quad0 = 0 || half50 % 16 = 0) && (quad1 = 0 || half50 / 16 = 0)

/-- A change of mode touches a lane that is on (R95): the octet's for 800GbE, else the affected quad's. -/
def State.modeBusy (s : State) (o oct800 quad0 quad1 half50 : Nat) : Bool :=
  let on := fun j => s.laneState 2 (8 * o + j) != 0
  let oct := oct800 ≠ s.fld .lnuModeOct800 o
  let h := s.fld .lnuModeHalf50 o
  let lo := oct || quad0 ≠ s.fld .lnuModeQuad0 o || half50 % 16 ≠ h % 16
  let hi := oct || quad1 ≠ s.fld .lnuModeQuad1 o || half50 / 16 ≠ h / 16
  (lo && [0, 1, 2, 3].any on) || (hi && [4, 5, 6, 7].any on)

def State.setMode (s : State) (o oct800 quad0 quad1 half50 : Nat) : State :=
  ((s.setFld .lnuModeOct800 o oct800).setFld .lnuModeQuad0 o quad0 |>.setFld .lnuModeQuad1 o quad1).setFld .lnuModeHalf50 o half50

/-- R95, R110: LANE.MODE_SET. -/
def execLaneModeSet (h : Hdr) (octet oct800 quad0 quad1 half50 : Word) (s : State) : Host.Outcome State Fault Refusal :=
  .next (command h 0x0202 (.owner (dieOfLane (octet.toNat * 8 % 64))) (fun _ s =>
    let o := octet.toNat
    if 7 < o ∨ 1 < oct800.toNat ∨ 2 < quad0.toNat ∨ 2 < quad1.toNat ∨ 255 < half50.toNat
        ∨ !modeValid oct800.toNat quad0.toNat quad1.toNat half50.toNat then .fail s .badParam
    else s.unlessClaimed [(dieOfLane (8 * o), .lnu)] (
      if s.modeBusy o oct800.toNat quad0.toNat quad1.toNat half50.toNat then .fail s .busy
      else .ok (s.setMode o oct800.toNat quad0.toNat quad1.toNat half50.toNat))) s)

/-- R95, R110: a write of LNU_MODE. A reserved quad encoding keeps the field's value (R10). -/
def State.writeLnuMode (s : State) (p : APath) (o : Nat) (data : Word) : State :=
  let die := dieOfLane (8 * o)
  let old := s.reg .lnuMode o
  let (w, bad, unc) := writeWord .lnuMode old data (s.mayRwc p die .lnu)
  let s := if bad then s.report .sysBadEnc 0 .sysBadEnc die 0 else s
  let s := if unc then s.unclaimedWrite die else s
  if w = old then s
  else
    let f := fun x : Fld => fldOf x w
    if !modeValid (f .lnuModeOct800) (f .lnuModeQuad0) (f .lnuModeQuad1) (f .lnuModeHalf50)
        ∨ s.modeBusy o (f .lnuModeOct800) (f .lnuModeQuad0) (f .lnuModeQuad1) (f .lnuModeHalf50) then
      s.report .lnuModeReject o .lnuModeReject die (8 * o)
    else s.setReg .lnuMode o w

def execLnuModeWrite (p : APath) (octet : BitVec 3) (data : Word) (s : State) : Host.Outcome State Fault Refusal :=
  .next (s.writeLnuMode p octet.toNat data)

/-- R106: LANE.INTF_SET. -/
def execLaneIntfSet (h : Hdr) (port intf an : Word) (s : State) : Host.Outcome State Fault Refusal :=
  .next (command h 0x0203 (.owner (dieOfLane (port.toNat % 64))) (fun _ s =>
    let p := port.toNat
    if 63 < p ∨ s.portOf p ≠ p ∨ 2 < intf.toNat ∨ !flagOk an then .fail s .badParam
    else s.unlessClaimed [(dieOfLane p, .lnu)] (
      if (s.laneGroup 2 p).any (fun j => s.laneState 2 j != 0) then .fail s .busy
      else .ok ((s.laneGroup 2 p).foldl (fun s j => (s.setFld .lnuCtlIntf j intf.toNat).setFld .lnuCtlAnEn j an.toNat) s))) s)

/-- R106: LANE.EQ_SET. -/
def execLaneEqSet (h : Hdr) (family index pre post gain : Word) (s : State) : Host.Outcome State Fault Refusal :=
  .next (command h 0x0204 (.owner (laneDie family.toNat index.toNat)) (fun _ s =>
    let f := family.toNat
    let i := index.toNat
    if !laneRefOk family index then .fail s .badParam
    else s.unlessClaimed [(laneDie f i, laneBlk f)] (
      .ok ((s.laneGroup f i).foldl (fun s j => { s with lanes := { s.lanes with eq := s.lanes.eq.put (laneKey f j) (pre, post, gain) } }) s))) s)

/-! ### The host link (R100) -/

/-- The host link leaves L0: ring processing pauses and the PCI Express path is lost (R417, R431); counted and raised, the event
routed as if its vector were masked. A link that returns to Detect, from L0 or from a later stage of its bring-up, also counts in
sys_hl_retrain (R87). -/
def State.hostDown (s : State) (toDetect : Bool) : State :=
  if s.laosh.linkUp then
    let s := { s with laosh := { s.laosh with linkUp := false, downAt := s.elapsed } }.setLane 4 0 2 (if toDetect then 1 else 2)
    let s := (s.losePath 0).report .sysHlDown 0 .sysHlDown 0 0
    if toDetect then s.count .sysHlRetrain 0 else s
  else if toDetect ∧ s.lanes.hostState = 2 ∧ s.lanes.hostStage ≠ 1 then (s.setLane 4 0 2 1).count .sysHlRetrain 0
  else s

/-- The host link returns to L0: held messages are sent and ring processing resumes where it stopped. -/
def State.hostUp (s : State) : State :=
  let held := s.laosh.msixHeld
  let s := { s with laosh := { s.laosh with linkUp := true, msixHeld := [] } }.setLane 4 0 3 0
  let s := held.foldl (fun s v => s.send (.msix v)) s
  s.flushReplies s.laosh.replyWait.length

def execHostLinkDown (toDetect : Bool) (s : State) : Host.Outcome State Fault Refusal := .next (s.hostDown toDetect)

def execHostLinkUp (width rate : BitVec 3) (s : State) : Host.Outcome State Fault Refusal :=
  .next { s.hostUp with lanes := { s.hostUp.lanes with hostWidth := width.toNat, hostRate := rate.toNat } }

/-! ### Bring-up (R85-R88) -/

/-- Restarts bring-up of a lane that is on at a stage. -/
def State.bringUp (s : State) (family i stage : Nat) : State :=
  if s.laneState family i = 2 ∨ s.laneState family i = 3 then
    (s.setLane family i 2 stage).clearLocks family i (stage < 3)
  else s

/-- R106: LANE.RETRAIN. PON lanes have no bring-up (R86). -/
def execLaneRetrain (h : Hdr) (family index : Word) (s : State) : Host.Outcome State Fault Refusal :=
  .next (command h 0x0205 (.owner (laneDie family.toNat index.toNat)) (fun _ s =>
    let f := family.toNat
    let i := index.toNat
    if !laneRefOk family index ∨ f < 2 then .fail s .badParam
    else s.unlessClaimed [(laneDie f i, laneBlk f)] (
      if f = 4 then .ok (s.hostDown true)
      else .ok ((s.laneGroup f i).foldl (fun s j => s.bringUp f j 1) s))) s)

/-- R108: a write of 1 to LNU_CTL.retrain, a WO field that acts whether or not the block is claimed (R7). -/
def execLnuRetrain (_ : APath) (l : Lane) (s : State) : Host.Outcome State Fault Refusal :=
  .next ((s.laneGroup 2 l.toNat).foldl (fun s j => s.bringUp 2 j 1) s)

/-- A bad write on a protected tree's registers by a device that does not own the halter: dropped, counted, raised
(R442). -/
def State.protectedWrite (s : State) (t : Nat) : State := s.report .tndCfgReject 0 .tndCfgReject 6 t

/-- R85: a write of a lane's power, tx_on or rx_on bit, which is RWC. -/
def State.writeLanePower (s : State) (p : APath) (f i : Nat) (on : Bool) : State :=
  let die := laneDie f i
  if s.dieFused die then s
  else if f < 2 ∧ s.expertBarred p (treeOfChan i) then s.protectedWrite (treeOfChan i)
  else if s.mayRwc p die (laneBlk f) then s.laneTurn f i on
  else if on = s.lanePower f i then s else s.unclaimedWrite die

def execLanePowerBitWrite (p : APath) (family : BitVec 2) (index : BitVec 7) (on : Bool) (s : State) :
    Host.Outcome State Fault Refusal :=
  if index.toNat < laneCount family.toNat then .next (s.writeLanePower p family.toNat index.toNat on) else .next s

def State.familyPll (f : Nat) : Ctr × Ev :=
  if f < 2 then (.lnpPllFail, .lnpPll) else if f = 2 then (.lnuPllFail, .lnuPll)
  else if f = 3 then (.tndPllFail, .tndPll) else (.sysHlPllFail, .sysHlPll)

/-- The reference clock of a lane is present. -/
def State.laneRef (s : State) (family i : Nat) : Bool :=
  (if family < 2 then s.pin .refclkPon (i / 32) else if family = 2 then s.pin .refclkUpl (i / 32)
    else if family = 3 then s.pin .refclkTnd 0 else s.pin .pcieRefclk 0) != 0

/-- R85: the PLL of a lane in POWERING locks to its reference: BRINGUP at stage 1, or ACTIVE on a PON lane. -/
def execLanePllLock (l : LaneRef) (s : State) : Host.Outcome State Fault Refusal :=
  let f := l.family.toNat
  let i := l.index.toNat
  if i < laneCount f ∧ s.laneState f i = 1 ∧ s.laneRef f i then
    .next (if f < 2 then s.setLane f i 3 0 else s.setLane f i 2 1)
  else .next s

/-- POWERING to PLL lock at most (R88); the table gives no limit for the host link. -/
def pllLimit (family : Nat) : Nat := if family < 2 then usSpan 150 else if family < 4 then usSpan 200 else 0

/-- R85, R88: a lane short of PLL lock at its limit goes to FAULT, counted and raised; a PON member goes down. -/
def execLanePllTimeout (l : LaneRef) (s : State) : Host.Outcome State Fault Refusal :=
  let f := l.family.toNat
  let i := l.index.toNat
  if i < laneCount f ∧ s.laneState f i = 1 ∧ s.laneWaited f i (pllLimit f) then
    let (c, e) := State.familyPll f
    let s := (s.setLane f i 4 0).report c i e (laneDie f i) i
    .next (if f < 2 then s.memberGone i else s)
  else .next s

/-- R88, R89: 1 µs after OPT_TXEN is deasserted the transmitter stops; a lane that the host has turned off then goes off, and one it
has turned on again since repeats the full bring-up. -/
def execTransmitterStop (c : Chan) (s : State) : Host.Outcome State Fault Refusal :=
  let c := c.toNat
  if s.pin .optTxen c = 0 ∧ s.lanes.transmitting.has c ∧ Tbl.getD s.lanes.darkAt c 0 + usSpan 1 ≤ s.elapsed then
    let s := { s with lanes := { s.lanes with transmitting := s.lanes.transmitting.del c } }
    if s.lanes.goingOff.has c then
      let s := { s with lanes := { s.lanes with goingOff := s.lanes.goingOff.del c } }.laneDark 0 c
      .next (if s.lanePower 0 c then s.laneOn 0 c else s)
    else .next s
  else .next s

/-- R87: a tandem stage fails: counted and raised, stage 1 after a pause of 10 ms. -/
def State.tandemFail (s : State) (i : Nat) : State :=
  let s := (s.setLane 3 i 2 1).clearLocks 3 i true
  { s with lanes := { s.lanes with paused := s.lanes.paused.put i () } }.report .tndBringupFail i .tndBringupFail (dieOfTLane i) i

/-- The stage after one that is done, by family and interface (R86): an uplink with a C2M interface uses stages 1, 3
and 5; one with CR or KR resolves stage 4 at stage 1. -/
def State.nextStage (s : State) (f i stage : Nat) : Nat :=
  if f = 2 then
    if s.fld .lnuCtlIntf i = 0 then (if stage < 3 then 3 else 5) else (if stage < 3 then stage + 1 else 5)
  else stage + 1

/-- A certificate of the part, preceded by its byte count; at most 2,048 bytes (R561). -/
def certWords (k : Nat) : List Word :=
  let n := Config.standard 12 [k] % 2049
  BitVec.ofNat 32 n :: natWords (ceilDiv n 4) (Config.standard 13 [k])

/-- R441: with pairing enabled and a tandem lane ACTIVE, the device sends its pair record, with a new ephemeral key. -/
def State.sendPair (s : State) : State :=
  if s.flag .tndPairCfgEn 0 ∧ s.tandem.pairKey.isNone ∧ s.tandem.ephemeral.isNone ∧ s.cipher.identity.isSome
      ∧ (List.range 8).any (fun l => s.laneState 3 l = 3) then
    let d := s.free
    let own := Config.standard 9 [d]
    (s.drawn.modTandem (fun w => { w with ephemeral := some d })).sendRecord 0x01
      (.pair (s.fld .sysDevnumDevnum 0) (fieldOf 8 8 (s.reg .sysId 0)) (s.pin .hltSenior 0 = 1) (certWords 0) (natWords 25 own)
        (natWords 24 (Config.standard 6 [s.cipher.identity.getD 0, own])))
  else s

/-- At most what R96 allows a port on ingress and on egress, in ns. -/
def State.pcsLimits (s : State) (port : Nat) : Nat × Nat :=
  match s.portWidth port with
  | 8 => (115, 60)
  | 4 => (120, 60)
  | 2 => (130, 65)
  | _ => if (s.fld .lnuModeHalf50 (port / 8)).testBit (port % 8) then (230, 90) else (150, 70)

/-- R97: at stage 5 a port's PCS, FEC and deskew delays are measured: free values within the limits of R96 (log entry 1). -/
def State.measureDelays (s : State) (port : Nat) : State :=
  let (i, e) := s.pcsLimits port
  let d := s.free % (nsSpan i + 1)
  let s := s.drawn
  let x := s.free % (nsSpan e + 1)
  { s.drawn with lanes := { s.lanes with delays := s.lanes.delays.put port (d, x) } }

/-- R86: a lane completes its stage; at stage 4 a tandem lane checks the peer's lane index; at stage 5 it is ACTIVE. -/
def State.stageDone (s : State) (f i peer dev : Nat) : State :=
  let st := s.laneStage f i
  if f = 3 ∧ st = 4 ∧ peer ≠ i then (s.count .tndLaneMismatch i).tandemFail i
  else if f = 3 ∧ st = 4 ∧ dev = s.fld .sysDevnumDevnum 0 then (s.report .tndDevnumDup 0 .tndDevnumDup 6 i).tandemFail i
  else
    let s := if f = 2 ∧ st = 1 ∧ s.fld .lnuCtlIntf i ≠ 0 then s.setFld .lnuStatAnDone i (s.fld .lnuCtlAnEn i)
      else if f = 2 ∧ st = 3 then (s.setFlag .lnuStatBlkLock i true).setFlag .lnuStatCdrLock i true
      else if f = 3 ∧ st = 3 then (s.setFlag .tndStatBlkLock i true).setFlag .tndStatCdrLock i true else s
    let nx := s.nextStage f i st
    if nx < 5 then s.setLane f i 2 nx
    else if f = 4 then s.hostUp
    else
      let s := s.setLane f i 3 0
      if f = 2 ∧ s.portOf i = i then (s.measureDelays i).raise .lnuLinkUp (dieOfLane i) i else if f = 3 then s.sendPair else s

/-- A lane that can complete a stage: its port's lanes do together (R95), none before every one of them is at it. -/
def State.stageFits (s : State) (f i : Nat) : Bool :=
  !(f < 2) && i < laneCount f && (s.laneGroup f i).all (fun j => s.laneState f j = 2 && s.laneStage f j = s.laneStage f i)
    && s.laneState f i = 2 && !(f = 3 && s.lanes.paused.has i)

/-- The lanes of a port complete a stage. -/
def State.stageServed (s : State) (f i peer dev : Nat) : State :=
  if s.stageFits f i then (s.laneGroup f i).foldl (fun s j => s.stageDone f j peer dev) s else s

/-- A stage completes; the bring-up of uplink and tandem lanes is a link sequencer's work (R525). -/
def execLaneStageDone (l : LaneRef) (peerIndex : BitVec 3) (peerDev : BitVec 10) (s : State) : Host.Outcome State Fault Refusal :=
  let f := l.family.toNat
  let i := l.index.toNat
  let die := if f = 2 then dieOfLane i else dieOfTLane i
  let serve := fun (s : State) => s.stageServed f i peerIndex.toNat peerDev.toNat
  if !s.stageFits f i then .next s
  else .next (if f = 4 then serve s else s.toSequencer die 0 (.laneStage f i peerIndex.toNat peerDev.toNat) serve)

/-- The time limits of a tandem lane's stages (R87). -/
def stageLimit (stage : Nat) : Nat :=
  match stage with
  | 1 => msSpan 12
  | 2 => msSpan 100
  | 3 => msSpan 10
  | _ => msSpan 1

/-- R87: a tandem stage passes its limit. -/
def execTndStageTimeout (l : TLane) (s : State) : Host.Outcome State Fault Refusal :=
  let i := l.toNat
  if s.laneState 3 i = 2 ∧ ¬ s.lanes.paused.has i ∧ s.laneWaited 3 i (stageLimit (s.laneStage 3 i)) then .next (s.tandemFail i)
  else .next s

/-- R87: the pause of 10 ms ends and bring-up restarts at stage 1. -/
def execLaneRetryPauseEnd (l : TLane) (s : State) : Host.Outcome State Fault Refusal :=
  let i := l.toNat
  if s.lanes.paused.has i ∧ s.laneWaited 3 i (msSpan 10) then
    .next ({ s with lanes := { s.lanes with paused := s.lanes.paused.del i } }.bringUp 3 i 1)
  else .next s

/-- R87: uplink link training does not complete: auto-negotiation restarts, counted and raised. -/
def execLnuTrainFail (l : Lane) (s : State) : Host.Outcome State Fault Refusal :=
  let i := s.portOf l.toNat
  if s.laneState 2 i = 2 ∧ s.fld .lnuCtlIntf i ≠ 0 then
    let s := (s.laneGroup 2 i).foldl (fun s j => s.bringUp 2 j 1) s
    .next (s.report .lnuTrainFail i .lnuTrainFail (dieOfLane i) i)
  else .next s

/-! ### Tandem block lock (R91, R92) -/

/-- One 66-bit block header: the next state of the machine, whether the candidate slips, whether lock is gained, lost,
and whether an invalid header in LOCK counts. -/
def blockStep (b : BlockLock) (valid : Bool) : BlockLock × Bool × Bool × Bool × Bool :=
  match b with
  | .hunt => if valid then (.test 1, false, false, false, false) else (.hunt, true, false, false, false)
  | .test n =>
    if !valid then (.hunt, true, false, false, false)
    else if 64 ≤ n + 1 then (.lock [], false, true, false, false)
    else (.test (n + 1), false, false, false, false)
  | .lock last =>
    let w := (valid :: last).take 64
    if 16 ≤ w.count false then (.hunt, false, false, true, false)
    else (.lock w, false, false, false, !valid)

/-- A tandem lane out of lock returns to stage 3 (R92). -/
def State.tandemUnlock (s : State) (i : Nat) : State := s.bringUp 3 i 3

def execTndBlockRx (l : TLane) (header : BitVec 2) (s : State) : Host.Outcome State Fault Refusal :=
  let i := l.toNat
  if s.laneState 3 i = 3 ∨ (s.laneState 3 i = 2 ∧ 3 ≤ s.laneStage 3 i) then
    let valid := header = 1 || header = 2
    let (b, slip, gain, lose, bad) := blockStep (Tbl.getD s.lanes.blockLock i .hunt) valid
    let n := Tbl.getD s.lanes.slip i 0
    let s := { s with lanes := { s.lanes with
      blockLock := Tbl.setD s.lanes.blockLock i .hunt b
      slip := Tbl.setD s.lanes.slip i 0 (if slip then (n + 1) % 66 else n) } }
    let s := if bad then s.count .tndHdrBad i else s
    let s := if gain && s.laneState 3 i = 2 && s.laneStage 3 i = 3 then s.stageDone 3 i i 1024 else s
    .next (if lose then (s.report .tndLockLoss i .tndLockLoss (dieOfTLane i) i).tandemUnlock i else s)
  else .next s

/-- R92: no lock within 10 ms: stage 1 as in R87. -/
def execTndRelockTimeout (l : TLane) (s : State) : Host.Outcome State Fault Refusal :=
  let i := l.toNat
  if s.laneState 3 i = 2 ∧ s.laneStage 3 i = 3 ∧ s.laneWaited 3 i (msSpan 10) then .next (s.tandemFail i) else .next s

/-! ### Uplinks: loss of link and FEC (R98, R99) -/

/-- R98: an ACTIVE uplink port loses lock or signal: its PCS frames are discarded and counted, the event counted and
raised, bring-up restarted at stage 1 (CR, KR) or 3 (C2M). -/
def State.uplinkDown (s : State) (port : Nat) : State :=
  if s.laneState 2 port ≠ 3 then s
  else
    let s := (s.dropHeld port .lnuTxDownDrop).report .lnuLinkDown port .lnuLinkDown (dieOfLane port) port
    (s.laneGroup 2 port).foldl (fun s j => s.bringUp 2 j (if s.fld .lnuCtlIntf j = 0 then 3 else 1)) s

def execLnuLinkDown (l : Lane) (s : State) : Host.Outcome State Fault Refusal := .next (s.uplinkDown (s.portOf l.toNat))

/-- R99: a 1 ms window of a lane: its corrected symbols; on a port's lowest lane also the port's codewords, the uncorrectable ones
judged against that lane's fec_thr. The event comes again only after a whole window at or below the threshold. -/
def execLnuFecWindow (l : Lane) (corr uncorr symbols codewords : BitVec 32) (whole : Bool) (s : State) :
    Host.Outcome State Fault Refusal :=
  let i := l.toNat
  let s := s.countBy .lnuFecSym i symbols.toNat
  if s.portOf i ≠ i then .next s
  else
    let s := ((s.countBy .lnuFecCorr i corr.toNat).countBy .lnuFecUncorr i uncorr.toNat).pmBlocks 4 i codewords.toNat uncorr.toNat
    let thr := s.fld .lnuCtlFecThr i
    if thr ≠ 0 ∧ thr < uncorr.toNat then
      if s.lanes.fecOver.has i then .next s
      else .next ({ s with lanes := { s.lanes with fecOver := s.lanes.fecOver.put i () } }.raise .lnuFecDegrade (dieOfLane i) i)
    else if whole then .next { s with lanes := { s.lanes with fecOver := s.lanes.fecOver.del i } }
    else .next s

/-! ### Reference clocks (R101, R102, R639) -/

/-- The timebase master loses the reference it runs on: it changes to the other, or enters holdover, which
only a reference present for 1 ms ends (R101, R102). -/
def State.masterLoses (s : State) (n : Nat) : State :=
  if s.fld .tbStatRef 0 ≠ n then s
  else if s.flag .tbStatRefHold 0 then s
  else if s.pin .refclkUpl (1 - n) = 1 then s.setFld .tbStatRef 0 (1 - n)
  else (s.setFlag .tbStatRefHold 0 true).report .tbRefHold 0 .tbRefHold 0 0

/-- References: 0-3 REFCLK_PON[n], 4 and 5 REFCLK_UPL[n], 6 REFCLK_TND, 7 PCIE_REFCLK. The balls of L2 and L3 are unconnected on an
ULT-OT064 (R628). -/
def State.refLost (s : State) (r : Nat) : State :=
  if s.is064 ∧ (r = 2 ∨ r = 3) then s
  else if r < 4 then
    let s := (s.drive .refclkPon r 0).report .lnpRefLoss (2 + r) .lnpRefLoss (2 + r) 0
    let cs := (List.range 32).map (· + 32 * r)
    let s := cs.foldl (fun s c => ((s.darken c).memberGone c).pmDefect 0 c) s
    ((List.range 8).map (· + 8 * r)).foldl (fun s t => if s.launched t || s.launchPending t then s.stopTree t else s) s
  else if r < 6 then
    let n := r - 4
    let s := (s.drive .refclkUpl n 0).report .lnuRefLoss (6 + n) .lnuRefLoss (6 + n) 0
    let s := ((List.range 32).map (· + 32 * n)).foldl (fun s l => if s.portOf l = l then s.uplinkDown l else s) s
    s.masterLoses n
  else if r = 6 then
    let s := (s.drive .refclkTnd 0 0).report .tndRefLoss 0 .tndRefLoss 6 0
    (List.range 8).foldl (fun s l => if s.laneState 3 l = 3 ∨ 3 < s.laneStage 3 l then s.tandemUnlock l else s) s
  else (s.drive .pcieRefclk 0 0).hostDown false

def execRefclkLoss (ref : BitVec 3) (s : State) : Host.Outcome State Fault Refusal := .next (s.refLost ref.toNat)

/-- A lane the host left on repeats the full bring-up (R101); one in FAULT waits to be turned off and on (R85): R101 does not say which
holds of it (DESIGN CHOICE, log entry 90). -/
def State.laneAgain (s : State) (family i : Nat) : State :=
  if s.lanePower family i ∧ s.laneState family i ≠ 0 ∧ s.laneState family i ≠ 4 then (s.setLane family i 1 0).clearLocks family i true
  else s

def execRefclkReturn (ref : BitVec 3) (s : State) : Host.Outcome State Fault Refusal :=
  let r := ref.toNat
  if s.is064 ∧ (r = 2 ∨ r = 3) then .next s
  else if r < 4 then
    .next (((List.range 32).map (· + 32 * r)).foldl (fun s c => (s.laneAgain 0 c).laneAgain 1 c) (s.drive .refclkPon r 1))
  else if r < 6 then
    let s := { s with lanes := { s.lanes with since := s.lanes.since.put (laneKey 7 (r - 4)) s.elapsed } }.drive .refclkUpl (r - 4) 1
    .next (((List.range 32).map (· + 32 * (r - 4))).foldl (fun s l => s.laneAgain 2 l) s)
  else if r = 6 then .next ((List.range 8).foldl (fun s l => s.laneAgain 3 l) (s.drive .refclkTnd 0 1))
  else .next ((s.drive .pcieRefclk 0 1).laneAgain 4 0)

/-- R102: the first REFCLK_UPL present again for 1 ms takes the master out of holdover without a phase step. -/
def execRefHoldoverExit (which : BitVec 1) (s : State) : Host.Outcome State Fault Refusal :=
  if s.flag .tbStatRefHold 0 ∧ s.pin .refclkUpl which.toNat = 1 ∧ s.laneWaited 7 which.toNat (msSpan 1) then
    .next ((s.setFlag .tbStatRefHold 0 false).setFld .tbStatRef 0 which.toNat)
  else .next s

/-! ### Monitors (R103, R104) -/

/-- R103: LANE.EYE_SCAN: a PON RX lane only while it checks a PRBS pattern; a PON TX lane has no receiver. -/
def execLaneEyeScan (h : Hdr) (family index : Word) (dwell : BitVec 64) (s : State) : Host.Outcome State Fault Refusal :=
  .next (command h 0x0206 (.owner (laneDie family.toNat index.toNat)) (fun c s =>
    let f := family.toNat
    let i := index.toNat
    let d := laneDie f i
    if !laneRefOk family index ∨ f = 0 ∨ dwell.toNat < 10 ^ 6 ∨ 10 ^ 12 < dwell.toNat
        ∨ (f = 1 ∧ !(Tbl.getD s.lanes.prbs (laneKey f i) (false, false)).2) then .fail s .badParam
    else s.unlessClaimed [(d, laneBlk f)] (
      if s.lanes.eyes.has d ∨ s.asyncFull then .fail s .busy
      else ⟨{ s with lanes := { s.lanes with eyes := s.lanes.eyes.put d ⟨c, f, i, dwell.toNat⟩ } }, .accepted, [], false⟩)) s)

/-- The eyes of a lane: three of a PAM4 lane (R103). -/
def laneEyes (family : Nat) : Nat := if family = 2 ∨ family = 3 then 3 else 1

/-- R103: a scan ends; the left, right, upper and lower margins of each eye complete the command. -/
def execEyeScanDone (die : BitVec 3) (margins : List Word) (s : State) : Host.Outcome State Fault Refusal :=
  match s.lanes.eyes.find die.toNat with
  | some e =>
    .next (if margins.length = 4 * laneEyes e.family then
        { s with lanes := { s.lanes with eyes := s.lanes.eyes.del die.toNat } }.answer e.caller .ok margins
      else s)
  | none => .next s

/-- The PRBS error counter of a family (R104). -/
def prbsCounter (family : Nat) : Ctr := if family < 2 then .lnpPrbsErr else if family = 2 then .lnuPrbsErr else .tndPrbsErr

/-- The bit errors that a checker has counted since they were last looked at: a free number (log entry 1). -/
def State.prbsErrors (s : State) (family i : Nat) : State :=
  if (s.prbsOf family i).2 then (s.drawn).countBy (prbsCounter family) i s.free else s

/-- Every checker is looked at: what a gauge read or a snapshot latches includes its errors so far (R104). -/
def State.prbsLook (s : State) : State := s.lanes.prbs.foldl (fun s p => s.prbsErrors (p.1 / 128) (p.1 % 128)) s

/-- A lane's pattern, generator and checker are set. A generator takes an ACTIVE uplink or tandem lane out of service without
counting a link-down (R104); the pattern field reads 0 while both are off. LNP_CTL has one field for a channel's two lanes: it holds
the pattern last set (DESIGN CHOICE, log entry 12). -/
def State.setPrbs (s : State) (family i pattern : Nat) (gen chk : Bool) : State :=
  let s := s.prbsErrors family i
  let on := pattern != 0
  let p := if on && (gen || chk) then pattern else 0
  let s := if family < 2 then s.setFld .lnpCtlPrbs i p else if family = 2 then s.setFld .lnuCtlPrbs i p else s.setFld .tndCtlPrbs i p
  let s := { s with lanes := { s.lanes with prbs := Tbl.setD s.lanes.prbs (laneKey family i) (false, false) (on && gen, on && chk) } }
  if family = 2 then { s with idled := s.idled.put i () }
  else if family = 3 ∧ !(List.range 8).any s.tandemLaneUp then s.tandemDown
  else s

/-- R95, R104: LANE.PRBS_SET, on every lane of an uplink port. -/
def execLanePrbsSet (h : Hdr) (family index pattern generator checker : Word) (s : State) : Host.Outcome State Fault Refusal :=
  .next (command h 0x0207 (.owner (laneDie family.toNat index.toNat)) (fun _ s =>
    let f := family.toNat
    let i := index.toNat
    if !laneRefOk family index ∨ f = 4 ∨ (if f < 2 then 2 else 4) < pattern.toNat ∨ !flagOk generator ∨ !flagOk checker then
      .fail s .badParam
    else s.unlessClaimed [(laneDie f i, laneBlk f)] (
      if f = 0 ∧ generator = 1 ∧ s.launched (treeOfChan i) then .fail s .busy
      else .ok ((s.laneGroup f i).foldl (fun s j => s.setPrbs f j pattern.toNat (generator = 1) (checker = 1)) s))) s)

/-- An expert write of a lane's prbs field: a pattern turns its generator and checker on, 0 turns them off; LNP_CTL holds one field
for a channel's two lanes (log entry 12). A PON TX generator is accepted only while the tree is not launched (R104). -/
def State.writePrbs (s : State) (family i pattern : Nat) : State :=
  if family < 2 then
    let s := if s.launched (treeOfChan i) ∧ pattern ≠ 0 then s else s.setPrbs 0 i pattern true false
    s.setPrbs 1 i pattern false true
  else s.setPrbs family i pattern true true

/-- R108: a port whose lanes are looped back near end receives its own, none of the line's. -/
def State.lineRx (s : State) (port : Nat) : Bool := s.portUp port && (s.laneGroup 2 port).all (fun i => s.fld .lnuCtlLoopback i != 1)

/-- A channel's receive lane is ACTIVE on its reference and not looped back: only then does it see a burst (R86, R88, R101, R111). -/
def State.receives (s : State) (c : Nat) : Bool :=
  s.laneState 1 c = 3 && s.pin .refclkPon (c / 32) = 1 && !s.tcOut c && !s.flag .lnpCtlLoopback c

/-- The counters LANE.COUNTERS returns for a family, in ascending order of their names; the spec says only 'Lane counters' (DESIGN
CHOICE, log entry 8). -/
def laneCounters (f : Nat) : List Ctr :=
  if f < 2 then [.lnpAcqLate, .lnpPllFail, .lnpPrbsErr, .lnpTxOffDrop]
  else if f = 2 then [.lnuFecCorr, .lnuFecUncorr, .lnuFecSym, .lnuLinkDown, .lnuPllFail, .lnuPrbsErr, .lnuTrainFail,
    .lnuTxDownDrop, .lnuTxOffDrop]
  else if f = 3 then [.tndBringupFail, .tndHdrBad, .tndLaneMismatch, .tndLockLoss, .tndPllFail, .tndPrbsErr]
  else [.sysHlDown, .sysHlPllFail, .sysHlRetrain]

/-- R106: LANE.COUNTERS. -/
def execLaneCounters (h : Hdr) (family index : Word) (s : State) : Host.Outcome State Fault Refusal :=
  .next (command h 0x0208 (.owner (laneDie family.toNat index.toNat)) (fun _ s =>
    let f := family.toNat
    if !laneRefOk family index then .fail s .badParam
    else
      let s := if f < 4 then s.prbsErrors f index.toNat else s
      .ok s ((laneCounters f).flatMap (fun c => ctrWords (s.ctr c (if f = 4 then 0 else index.toNat))))) s)

end Sys2Proof.Machine
end

