-- ==== Sys2Proof/Machine/Profiles.lean ====
section
/-!
DEFINITION. Burst profiles (R172-R174), quanta (R142), PLOAM messages (R113, R115) and quiet windows (R206-R209): what
grants, burst reception and activation share.
-/

namespace Sys2Proof.Machine

/-! ### Quanta and profiles -/

/-- Quanta per frame (R142). -/
def State.quanta (s : State) (c : Nat) : Nat := if s.xgs c then 38880 else 48600


/-- Bytes per quantum of a rate code (R142, R195). -/
def bytesPerQ (rate : Nat) : Nat := if rate = 0 then 16 else if rate = 1 then 8 else 4

def State.prfBytes (s : State) (c n : Nat) : Nat := bytesPerQ (s.fld .brxPrfCfgRate (prfInst c n))

/-- Unit intervals in a nanosecond of a profile's rate, in units of 10^-5 (R172, R195). -/
def State.uiRate (s : State) (c n : Nat) : Nat :=
  [4976640, 2488320, 1244160, 995328].getD (s.fld .brxPrfCfgRate (prfInst c n)) 0

def State.prfValid (s : State) (c n : Nat) : Bool := s.flag .brxPrfCfgValid (prfInst c n)

/-- Profile overhead in quanta (R172) of preamble length, delimiter length and rate. -/
def overheadQ (preLen dlmLen rate : Nat) : Nat := ceilDiv (preLen + dlmLen + 4) (bytesPerQ rate)

def State.dlmLen (s : State) (c n : Nat) : Nat := if s.flag .brxPrfCfgDlm8 (prfInst c n) then 8 else 4

def State.ovhQ (s : State) (c n : Nat) : Nat :=
  overheadQ (s.fld .brxPrfCfgPreLen (prfInst c n)) (s.dlmLen c n) (s.fld .brxPrfCfgRate (prfInst c n))

/-- Data and parity bytes of a full codeword of a profile with FEC on (R179). -/
def State.prfFec (s : State) (c n : Nat) : Option (Nat × Nat) :=
  if !s.flag .brxPrfCfgFec (prfInst c n) then none
  else if s.xgs c then some (232, 16) else some (1824, 336)

/-! ### Alloc records (R143) -/

/-- The channel whose maps carry an Alloc record (R143, R239). -/
def State.recChan (s : State) (r : AllocRec) : Nat :=
  match r.member with
  | some w => 4 * r.tree + w
  | none => match s.onu r.onu with
    | some x => x.chan
    | none => 4 * r.tree

def State.setRec (s : State) (k : Nat) (r : AllocRec) : State := { s with pon := { s.pon with allocs := s.pon.allocs.put k r } }

/-- The channel whose maps carry it from the next cutoff on (R239). -/
def State.nextChan (s : State) (r : AllocRec) : Nat := s.recChan { r with member := r.moveTo.or r.member }

def State.modRec (s : State) (k : Nat) (f : AllocRec → AllocRec) : State :=
  { s with pon := { s.pon with allocs := s.pon.allocs.modify k f } }

/-- The valid record of an Alloc-ID on a tree. -/
def State.recOf (s : State) (t a : Nat) : Option (Nat × AllocRec) :=
  s.pon.allocs.find? (fun p => p.2.tree = t ∧ p.2.allocId = a)

/-- Record keys: line die (2-5) and index. -/
def recKey (die index : Nat) : Nat := (die - 2) * 16384 + index

/-- The lowest free record of a line die (log entry 34). -/
def State.freeRec (s : State) (die : Nat) : Option Nat :=
  ((List.range 16384).find? (fun i => !s.pon.allocs.has (recKey die i))).map (recKey die)

/-- A record as it is created: no demand, tags at zero (R161); `State.freshTags` puts them at the channel's V. -/
def newRec (tree onu allocId profile : Nat) : AllocRec where
  tree := tree
  onu := onu
  allocId := allocId
  fixed := 0
  assured := 0
  nonAssured := 0
  weight := 0
  max := 0
  band := 7
  rpt := 0
  dbruIvl := 0
  profile := profile
  member := none
  moveTo := none
  leaving := false
  report := 0
  fresh := false
  since := 0
  recent := []
  lastGrant := 0
  sent := 0
  tmFull := false
  lastQ := 0
  leftOut := false
  memErr := false
  demand := 0
  statFull := false
  statErr := false
  idle := 0
  tagNa := 0
  tagBe := 0

/-- A channel's V of a stage (0 non-assured, 1 best effort) and band (R151). -/
def State.vtime (s : State) (c stage band : Nat) : Nat := Tbl.getD s.pon.vts (c * 16 + stage * 8 + band) 0

/-- A record that is new, or new in its band, starts at the current virtual time, as R152 has it for one that wakes (log entry 15). -/
def State.freshTags (s : State) (r : AllocRec) : AllocRec :=
  { r with tagNa := s.vtime (s.recChan r) 0 r.band, tagBe := s.vtime (s.recChan r) 1 r.band }

/-- No valid Alloc record of the channel names the profile (R174). -/
def State.profileFree (s : State) (c n : Nat) : Bool :=
  !s.pon.allocs.any (fun p => s.recChan p.2 = c && p.2.profile = n)

/-! ### PLOAM messages (R113, R115) -/

/-- The downstream messages in R113's order. -/
def ploamKinds : List PloamKind :=
  [.burstProfile, .assignOnuId, .rangingTime, .deactivateOnuId, .disableSerialNumber, .requestRegistration, .assignAllocId,
    .keyControl, .sleepAllow, .calibrationRequest, .adjustTxWavelength, .tuningControl, .systemProfile, .channelProfile,
    .protectionControl, .changePowerLevel, .powerConsumptionInquire]

/-- The wait timeout of the pattern that offers a message: one of the classes of R531, which firmware chooses and the spec does not
tell (a free value, log entry 1). -/
def State.offerSpan (s : State) : Nat := usSpan (2 ^ (s.free % 16 + 4))

/-- A message is offered to a channel's queue of 64; one that a full queue refuses is counted, raised once a frame, and waits within
its pattern's timeout (R115). -/
def State.offer (s : State) (c : Nat) (m : Ploam) : State :=
  let x := s.chan c
  if x.ploams.length < 64 ∧ x.offers.isEmpty then s.setChan c { x with ploams := x.ploams ++ [m] }
  else
    let s := s.setChan c { x with offers := x.offers ++ [(m, s.elapsed + s.offerSpan)] }
    (s.drawn.count .pchPloamFull c).raiseOnceIn x.count .pchPloamFull (dieOfChan c) c c

/-- Waiting offers whose timeout has come are given up; the others enter the queue as there is room, in order. -/
def State.admitOffers (s : State) (c : Nat) : State :=
  let x := s.chan c
  let l := x.offers.filter (fun o => decide (s.elapsed < o.2))
  let n := 64 - x.ploams.length
  s.setChan c { x with ploams := x.ploams ++ (l.take n).map Prod.fst, offers := l.drop n }

/-- A message in 3 consecutive frames (R222, R223). -/
def State.offer3 (s : State) (c : Nat) (m : Ploam) : State :=
  let s := s.offer c m
  s.setChan c { s.chan c with again := (s.chan c).again ++ [(m, 2)] }

/-! ### Quiet windows (R206-R209); times in 1/16 ns -/

/-- Frame and quantum arithmetic: 125 µs is 2,000,000 sixteenths of a nanosecond. -/
def frame16 : Nat := 2000000

/-- The quanta of an SN or ranging burst's guard, overhead and PLOAMu under the SN profile (snb of R207). -/
def State.snQuanta (s : State) (c : Nat) : Nat :=
  let p := s.fld .actChCfgSnPrf c
  s.fld .gntChCfgGuard c + s.ovhQ c p + ploamuQ (s.prfBytes c p)

/-- R207, R209: j, s and the length in quanta, from e, and `end` less s × q and snb, both in 1/16 ns. An e below zero is
taken as zero (log entry 35). -/
def windowOf (quanta snb : Nat) (e c : Int) : Nat × Nat × Nat :=
  let e := e.toNat
  let j := e / frame16
  let st := ceilDiv ((e - j * frame16) * quanta) frame16
  let tail := -((-(c * quanta)) / (frame16 : Int))
  (j, st, (j * quanta + st + snb + tail).toNat)

/-- The frames a window covers: its first, and how many. -/
def Window.span (w : Window) (quanta : Nat) : Nat × Nat := ((w.frame + 2 ^ 51 - w.j) % 2 ^ 51, ceilDiv w.len quanta)

/-- The quanta of a frame that a window covers: a run from quantum 0. -/
def Window.cover (w : Window) (quanta frame : Nat) : Nat :=
  let d := (frame + 2 ^ 51 - (w.span quanta).1) % 2 ^ 51
  if d < (w.span quanta).2 then min quanta (w.len - d * quanta) else 0

def State.windows (s : State) (c : Nat) : List Window := Tbl.getD s.pon.windows c []

def State.setWindows (s : State) (c : Nat) (l : List Window) : State :=
  { s with pon := { s.pon with windows := Tbl.setD s.pon.windows c [] l } }

/-- Books a window at the first frame at least so many frames on that no booked window covers; one after another (R206,
log entry 36). -/
def State.book (s : State) (c earliest : Nat) (ranging : Option Nat) (jsl : Nat × Nat × Nat) : State :=
  let t := treeOfChan c
  if s.treeBarred t then s else
  let now := if s.launchPending t then ((s.tree t).launchCount + 2 ^ 51 - 1) % 2 ^ 51 else s.treeCount t
  let after := (s.windows c).foldl (fun m w =>
    let sp := w.span (s.quanta c)
    max m (signedOf 51 ((sp.1 + sp.2 + 2 ^ 51 - now) % 2 ^ 51)).toNat) earliest
  s.setWindows c (s.windows c ++ [⟨ranging, (now + after + jsl.1) % 2 ^ 51, jsl.1, jsl.2.1, jsl.2.2⟩])

/-- The frame, counted from the one in force, in which the last queued message of a channel leaves. -/
def State.ploamFrames (s : State) (c : Nat) : Nat :=
  1 + ((s.chan c).ploams.length + (s.chan c).offers.length - 1) / max 1 (s.fld .pchCfgPloamMax c)

/-- The start of a window at the receiver in elapsed time: quantum 0 of upstream frame W - j (R207). -/
def State.windowOpens (s : State) (c : Nat) (w : Window) : Nat :=
  s.frameElapsed (treeOfChan c) ((w.frame + 2 ^ 51 - w.j) % 2 ^ 51) + nsSpan (s.tEq (treeOfChan c))

/-- The SN window that a channel's receiver is in: the last one listed that has opened. -/
def State.snWindow (s : State) (c : Nat) : Option Window :=
  let l := (s.windows c).filter (fun w => w.ranging.isNone)
  (l.filter (fun w => decide (s.windowOpens c w ≤ s.elapsed))).getLast?

/-! ### Burst-receiver pulses (R62, R63, R207) -/

/-- A step of 0.2 ns. -/
def step02 (n : Nat) : Nat := n * nsUnit / 5

/-- BRX_RST_N of a channel goes low at a time, for rst_width. -/
def State.resetPulse (s : State) (c at_ : Nat) : State := s.send (.pulse .brxRstN c 0 at_ (step02 (s.fld .gntPinCfgRstWidth c)))

/-- R207: in a window the receiver is reset after each burst it finishes. The arrival of the burst's first bit is in 1/16 ns after the
start of frame W; the burst is the profile's overhead and a PLOAMu long. -/
def State.resetAfter (s : State) (c : Nat) (w : Window) (arrival : Nat) : State :=
  let p := s.fld .actChCfgSnPrf c
  let len := (s.ovhQ c p + ploamuQ (s.prfBytes c p)) * frameSpan / s.quanta c
  s.resetPulse c (s.frameTime (treeOfChan c) w.frame + arrival * (nsUnit / 16) + len)

end Sys2Proof.Machine
end

