-- ==== Sys2Proof/Machine/Activation.lean ====
section
/-!
DEFINITION. Activation, ranging, identifiers and migration (R199-R236, R641), with XGEM ports (R124).
-/

namespace Sys2Proof.Machine

/-! ### Shared steps -/

/-- The unicast key of an ONU in a slot, by its vault handle. -/
def State.unicastKey (s : State) (o slot : Nat) : Option (Nat × VKey) :=
  s.vault.find? (fun p => p.2.kind = .unicast slot ∧ p.2.owner = o)

def State.eraseKeys (s : State) (p : VKey → Bool) : State := { s with vault := s.vault.filter (fun k => !p k.2) }

def isUnicastOf (o : Nat) (k : VKey) : Bool :=
  match k.kind with
  | .unicast _ => k.owner = o
  | _ => false

/-- The ports an ONU holds on its tree. -/
def State.portsOf (s : State) (t o : Nat) : List Nat :=
  (s.pon.idents.filter (fun p => p.1 / 2 ^ 18 = t && p.1 / 65536 % 4 = 2 && p.2.holder = some o)).map (fun p => p.1 % 65536)

def State.flushOnu (s : State) (o : Nat) : State :=
  match s.onu o with
  | some x => (s.portsOf x.tree o).foldl (fun s p => s.flushPort x.tree p) s
  | none => s

/-- Ends a rekey that an activation step overtakes; its completion is TIMED_OUT (log entry 37). -/
def State.endRekey (s : State) (o : Nat) : State :=
  match (s.onu o).bind (·.rekey) with
  | some c => (s.modOnu o (fun x => { x with rekey := none })).answer c .timedOut []
  | none => s

/-- The windows booked for ranging an ONU are given up. -/
def State.unbook (s : State) (o : Nat) : State :=
  match s.onu o with
  | some x => s.setWindows x.chan ((s.windows x.chan).filter (fun w => w.ranging ≠ some o))
  | none => s

/-- The channels an ONU is placed on: its own, and while it migrates the old one and the target (R221). -/
def OnuSlot.placements (x : OnuSlot) : List Nat :=
  let at_ := [x.chan, 4 * x.tree + x.downWl] ++ ((x.migration.bind (·.target)).map (fun c => [c])).getD []
  if x.migration.isSome then at_.dedup else [x.chan]

/-- A message in 3 consecutive frames on every placement of an ONU. -/
def State.tell3 (s : State) (x : OnuSlot) (m : Ploam) : State := x.placements.foldl (fun s c => s.offer3 c m) s

/-- An ONU enters a phase; the timers of R212 and R215 run from then. -/
def OnuSlot.enter (x : OnuSlot) (ph : OnuPhase) (now : Nat) : OnuSlot := { x with phase := ph, since := now }

/-- R222: Deactivate_ONU-ID in 3 consecutive frames, grants stopped, contexts flushed, unicast keys erased; the ONU
takes a phase (PROVISIONED, or DISABLED under R223). -/
def State.deactivate (s : State) (o : Nat) (ph : OnuPhase) : State :=
  match s.onu o with
  | none => s
  | some x =>
    let s := s.tell3 x ⟨.deactivateOnuId, some x.onuId, []⟩
    let s := ((s.unbook o).flushOnu o).endRekey o
    let s := s.eraseKeys (isUnicastOf o)
    s.modOnu o (fun x => { x.enter ph s.elapsed with
      seen := none, tries := 0, keyFails := 0, keySlot := 0, keySwitch := none, miss := 0, migration := none
      downWl := x.wl, away := false, driftUntil := none, ploamReq := false })

/-- A deactivation for a failure of R226. One on a tree that was not ready at a takeover counts (R460). -/
def State.failOnu (s : State) (o : Nat) (c : Ctr) (e : Ev) : State :=
  match s.onu o with
  | none => s
  | some x =>
    let s := if s.tandem.unready.has x.tree then s.count .tndUnreadyDeact 0 else s
    (s.report c x.tree e (dieOfTree x.tree) o).deactivate o .provisioned

/-- R209: books the ranging window from X: at least 2 frames after the Assign_ONU-ID leaves. The ONU is RANGING. -/
def State.bookRanging (s : State) (o : Nat) : State :=
  match s.onu o with
  | none => s
  | some x =>
    match x.seen with
    | none => s
    | some (xr, _) =>
      let c := x.chan
      let teq := (s.tEq x.tree : Int) * 16
      let rdr := (s.fld .actTreeCfgRdr x.tree : Int) * 16000
      let e := teq - xr + rdr + 16000 - 560000
      let tail := (xr : Int) + 16000 + 560000 - teq
      let s := s.book c (s.ploamFrames c + 2) (some o) (windowOf (s.quanta c) (s.snQuanta c) e tail)
      s.modOnu o (fun x => { x with phase := .ranging })

/-- PROVISIONED to ASSIGNED (R204): Assign_ONU-ID and Burst_Profile queued, and the ranging window booked on a launched
tree. -/
def State.assign (s : State) (o : Nat) : State :=
  match s.onu o with
  | none => s
  | some x =>
    let s := s.offer x.chan ⟨.assignOnuId, some x.onuId, [x.serial]⟩
    let s := s.offer x.chan ⟨.burstProfile, some x.onuId, [s.fld .actChCfgSnPrf x.chan]⟩
    let s := s.modOnu o (fun x => { x with phase := .assigned, tries := 0 })
    if s.launched x.tree then s.bookRanging o else s

/-- Key_Control asking for a key (R213); an upstream PLOAM opportunity for the reply is pending from then on (R148). -/
def State.askKey (s : State) (o : Nat) : State :=
  match s.onu o with
  | some x =>
    (s.offer x.chan ⟨.keyControl, some x.onuId, [0]⟩).modOnu o (fun x => { x with ploamReq := true, asked := s.elapsed })
  | none => s

/-- A failed attempt of the key exchange (R213). -/
def State.keyFailed (s : State) (o : Nat) : State :=
  match s.onu o with
  | none => s
  | some x =>
    let s := s.report .actKeyFail x.tree .actKeyFail (dieOfTree x.tree) o
    if 2 ≤ x.keyFails then
      if x.phase = .keying then s.deactivate o .provisioned
      else (s.modOnu o (fun x => { x with keyFails := 0 })).endRekey o
    else (s.modOnu o (fun x => { x with keyFails := x.keyFails + 1 })).askKey o

/-- A key exchange is under way and no switch is announced. -/
def OnuSlot.keyAsked (x : OnuSlot) : Bool := (x.phase = .keying || x.rekey.isSome) && x.keySwitch.isNone

def serialOf (hi lo : Word) : Nat := hi.toNat * 2 ^ 32 + lo.toNat

/-- The refusals of an assignment: bound by another, or resting (R217). -/
def State.idFree (s : State) (t : Nat) (ids : List (Nat × Nat)) (r : Res) : Res :=
  match ids.find? (fun k => (s.holder t k.1 k.2).isSome) with
  | some _ => .fail s .idInUse
  | none =>
    match ids.find? (fun k => s.resting t k.1 k.2) with
    | some k => ⟨s, .idResting, s.restWords t k.1 k.2, false⟩
    | none => r

/-- Identifiers of a kind that are not free, by a test of the tree. -/
def State.identsOf (s : State) (kind : Nat) (p : Nat → Bool) : Nat :=
  (s.pon.idents.filter (fun i => i.1 / 65536 % 4 = kind && p (i.1 / 2 ^ 18))).length

/-- Room for one more of each (R200): ONUs, Alloc-IDs, XGEM ports (resting ports included). -/
def State.onuRoom (s : State) (t : Nat) : Bool :=
  let n := fun (p : Nat → Bool) => (s.pon.onus.filter (fun x => p x.2.tree)).length
  n (· = t) < 512 && n (fun u => u / 8 = t / 8) < 4096 && n (fun _ => true) < 16384

def State.allocRoom (s : State) (t : Nat) : Bool :=
  let n := fun (p : Nat → Bool) => (s.pon.allocs.filter (fun x => p x.2.tree)).length
  n (· = t) < 2048 && n (fun u => u / 8 = t / 8) < 16384 && n (fun _ => true) < 65536

def State.portRoom (s : State) (t : Nat) : Bool :=
  s.identsOf 2 (fun u => u / 8 = t / 8) < 65536 && s.identsOf 2 (fun _ => true) < (if s.is064 then 131072 else 262144)

/-- The lowest free ONU slot of a line die (log entry 34). -/
def State.freeSlot (s : State) (die : Nat) : Nat :=
  ((List.range 4096).find? (fun i => !s.pon.onus.any (fun p => dieOfTree p.2.tree = die ∧ p.2.slot = i))).getD 0

def newOnu (slot tree wl onuId serial : Nat) (regId : Option (List Word)) (auto : Bool) : OnuSlot where
  slot := slot
  tree := tree
  wl := wl
  downWl := wl
  away := false
  onuId := onuId
  serial := serial
  regId := regId
  auto := auto
  phase := .provisioned
  seen := none
  eqd := 0
  miss := 0
  tries := 0
  keyFails := 0
  keySlot := 0
  keySwitch := none
  rekey := none
  driftUntil := none
  loss := 0
  lastOfs := 0
  migration := none
  ploamAge := 0
  ploamReq := false
  fenceCut := false
  since := 0
  asked := 0
  indication := 0

/-- R204, R201: the ONU-ID is bound, the default Alloc-ID and the management port are created. -/
def State.provision (s : State) (o : Nat) (x : OnuSlot) : State :=
  let t := x.tree
  let s := s.setOnu o x
  let s := ((s.setIdent t 0 x.onuId (some (.bound o))).setIdent t 1 x.onuId (some (.bound o))).setIdent t 2 x.onuId (some (.bound o))
  let s := { s with pon := { s.pon with ports := s.pon.ports.put (t * 65536 + x.onuId) ⟨0, 2, none⟩ } }
  match s.freeRec (dieOfTree t) with
  | some k => s.setRec k (s.freshTags (newRec t o x.onuId (s.fld .actChCfgSnPrf x.chan)))
  | none => s

/-! ### The ONU family (R227, R641) -/

/-- The blocks that a command on an ONU acts on (R41), the key vault on the core die of the half. -/
def onuBlocks (t : Nat) (bs : List Blk) : List (Nat × Blk) := bs.map (fun b => (if b = .kv then halfOfTree t else dieOfTree t, b))

def execOnuProvision (h : Hdr) (onu tree wl onuId serialHi serialLo : Word) (regId : List Word) (auto : Word) (s : State) :
    Host.Outcome State Fault Refusal :=
  .next (command h 0x0400 (.owner (dieOfTree (tree.toNat % 32))) (fun _ s =>
    let t := tree.toNat
    let o := onu.toNat
    let c := 4 * t + wl.toNat
    let id := onuId.toNat
    let serial := serialOf serialHi serialLo
    if 16383 < o ∨ 31 < t ∨ 3 < wl.toNat ∨ 1022 < id ∨ ¬(regId.length = 0 ∨ regId.length = 9) ∨ !flagOk auto
        ∨ !s.prfValid c (s.fld .actChCfgSnPrf c) then .fail s .badParam
    else s.onTree t (onuBlocks t [.act, .gnt, .pch]) (
      if (s.onu o).isSome ∨ (s.onusOf t).any (fun p => p.2.serial = serial) then .fail s .idInUse
      else s.idFree t [(0, id), (1, id), (2, id)] (
        if !s.onuRoom t ∨ !s.allocRoom t ∨ !s.portRoom t then .fail s .noRoom
        else
          let slot := s.freeSlot (dieOfTree t)
          let reg := if regId.isEmpty then none else some regId
          .ok (s.provision o (newOnu slot t wl.toNat id serial reg (auto = 1))) [BitVec.ofNat 32 slot]))) s)

/-- A command that names an ONU index: BAD_PARAM where it is not provisioned (log entry 38). It acts on the ONU's slot and on the
blocks given. -/
def State.onOnu (s : State) (o : Nat) (body : OnuSlot → Res) (bs : List Blk := [.act]) : Res :=
  match s.onu o with
  | none => .fail s .badParam
  | some x => s.onTree x.tree (onuBlocks x.tree bs) (body x)

/-- R221: refused while a fence is pending. Time remaining to F in nanoseconds (log entry 8). -/
def State.unlessFence (s : State) (x : OnuSlot) (r : Res) : Res :=
  match x.migration with
  | some m => ⟨s, .fencePending, [BitVec.ofNat 32 ((m.fence - s.elapsed) / nsUnit)], false⟩
  | none => r

def execOnuActivate (h : Hdr) (onu : Word) (s : State) : Host.Outcome State Fault Refusal :=
  .next (command h 0x0401 (s.onuRule onu.toNat) (fun _ s =>
    s.onOnu onu.toNat (fun x =>
      if x.phase ≠ .provisioned ∨ x.seen.isNone then .fail s .busy else .ok (s.assign onu.toNat))) s)

/-- R222. Outside ASSIGNED to LOST it has no effect (log entry 38). -/
def execOnuDeactivate (h : Hdr) (onu : Word) (s : State) : Host.Outcome State Fault Refusal :=
  .next (command h 0x0402 (s.onuRule onu.toNat) (fun _ s =>
    s.onOnu onu.toNat (fun x => s.unlessFence x (
      if x.phase = .provisioned ∨ x.phase = .disabled then .ok s
      else .ok (s.deactivate onu.toNat .provisioned))) [.act, .kv]) s)

/-- R216: every identifier of the ONU is released, its contexts flushed, its unicast keys erased, its slot FREE. -/
def State.releaseOnu (s : State) (o : Nat) : State :=
  match s.onu o with
  | none => s
  | some x =>
    let mine := (s.pon.idents.filter (fun p => p.1 / 2 ^ 18 = x.tree && p.2 = .bound o)).map (fun p => (p.1 / 65536 % 4, p.1 % 65536))
    let s := ((s.unbook o).endRekey o).eraseKeys (isUnicastOf o)
    let s := { s with pon := { s.pon with gone := s.pon.gone.put o x.loss } }
    let s := mine.foldl (fun s kv => s.release x.tree kv.1 kv.2) s
    let s := match (s.skeinOnus.find o).bind (·.joining) with
      | some c => s.answer c .timedOut []
      | none => s
    { s with
      pon := { s.pon with onus := s.pon.onus.del o }
      skeinOnus := s.skeinOnus.del o
      skewOut := s.skewOut.filter (fun x => x.1 != o) }

def execOnuRelease (h : Hdr) (onu : Word) (s : State) : Host.Outcome State Fault Refusal :=
  .next (command h 0x0403 (s.onuRule onu.toNat) (fun _ s =>
    s.onOnu onu.toNat (fun x => s.unlessFence x (.ok (s.releaseOnu onu.toNat))) [.act, .gnt, .pch, .kv]) s)

/-- The provisioned ONU of a serial number on a tree. -/
def State.bySerial (s : State) (t serial : Nat) : Option Nat := ((s.onusOf t).find? (fun p => p.2.serial = serial)).map Prod.fst

def State.disabledList (s : State) (t : Nat) : List Nat := Tbl.getD s.pon.disabled t []

def State.setDisabled (s : State) (t : Nat) (l : List Nat) : State :=
  { s with pon := { s.pon with disabled := Tbl.setD s.pon.disabled t [] l } }

/-- R223: a provisioned ONU is disabled: the message names its serial number; then as R222. A migration is cancelled, and
bursts of the ONU from now on count as after a fence (R221). -/
def State.disableOnu (s : State) (o : Nat) : State :=
  match s.onu o with
  | none => s
  | some x =>
    let s := s.modOnu o (fun y => { y with fenceCut := x.fenceCut || x.migration.isSome })
    (s.tell3 x ⟨.disableSerialNumber, none, [1, x.serial]⟩).deactivate o .disabled

/-- R223: the enabling form of the message; a DISABLED ONU is PROVISIONED. -/
def State.enableOnu (s : State) (o : Nat) : State :=
  match s.onu o with
  | none => s
  | some x =>
    if x.phase = .disabled then
      (s.offer x.chan ⟨.disableSerialNumber, none, [0, x.serial]⟩).modOnu o (fun x => { x.enter .provisioned s.elapsed with fenceCut := false })
    else s

/-- ONU.DISABLE and ONU.ENABLE name an ONU index, or none and a serial number on a tree. -/
def State.disableRule (s : State) (onu tree : Word) : DieRule :=
  if onu = 0xFFFFFFFF then .owner (dieOfTree (tree.toNat % 32)) else s.onuRule onu.toNat

def execOnuDisable (h : Hdr) (onu tree serialHi serialLo : Word) (s : State) : Host.Outcome State Fault Refusal :=
  .next (command h 0x0404 (s.disableRule onu tree) (fun _ s =>
    if onu ≠ 0xFFFFFFFF then s.onOnu onu.toNat (fun _ => .ok (s.disableOnu onu.toNat)) [.act, .kv]
    else
      let t := tree.toNat
      let serial := serialOf serialHi serialLo
      if 31 < t then .fail s .badParam
      else s.onTree t (onuBlocks t [.act, .kv]) (
        match s.bySerial t serial with
        | some o => .ok (s.disableOnu o)
        | none =>
          let l := s.disabledList t
          if l.contains serial then .ok s
          else if 64 ≤ l.length then .fail s .noRoom
          else
            let s := (chansOfTree t).foldl (fun s c => s.offer3 c ⟨.disableSerialNumber, none, [1, serial]⟩) s
            .ok (s.setDisabled t (l ++ [serial])))) s)

/-- R223: a serial number held in the tree's list is enabled: the message on every channel, the entry removed. -/
def State.enableSerial (s : State) (t serial : Nat) : State :=
  if (s.disabledList t).contains serial then
    ((chansOfTree t).foldl (fun s c => s.offer c ⟨.disableSerialNumber, none, [0, serial]⟩) s).setDisabled t
      ((s.disabledList t).filter (· ≠ serial))
  else s

def execOnuEnable (h : Hdr) (onu tree serialHi serialLo : Word) (s : State) : Host.Outcome State Fault Refusal :=
  .next (command h 0x0405 (s.disableRule onu tree) (fun _ s =>
    if onu ≠ 0xFFFFFFFF then s.onOnu onu.toNat (fun _ => .ok (s.enableOnu onu.toNat))
    else
      let t := tree.toNat
      let serial := serialOf serialHi serialLo
      if 31 < t then .fail s .badParam
      else s.onTree t [(dieOfTree t, .act)] (
        let s := s.enableSerial t serial
        match s.bySerial t serial with
        | some o => .ok (s.enableOnu o)
        | none => .ok s)) s)

/-- R219: M is the frame of the next cutoff, F := B_M + T_eq + tol, K the first frame whose cutoff is at or after F and
not before the earliest count. -/
def State.migrate (s : State) (o : Nat) (x : OnuSlot) (target : Option Nat) (earliest : Nat) : Res :=
  let t := x.tree
  let m := s.nextFrame t
  let span := s.tEq t + 1000
  let k := ceilDiv (span + 1000 * s.fld .gntTreeCfgCutoff t) 125000
  let k0 := (s.framesTo t m).toNat + k
  let e := (s.framesTo t earliest).toNat
  let kf := (s.treeCount t + (if earliest = 0 then k0 else max k0 e)) % 2 ^ 51
  let fence := s.frameElapsed t m + nsSpan span
  let msg : Ploam := match target with
    | some c => ⟨.tuningControl, some x.onuId, [c, kf]⟩
    | none => ⟨.protectionControl, some x.onuId, [kf]⟩
  let s := s.offer x.chan msg
  let s := s.modOnu o (fun x => { x with migration := some ⟨target, m, fence, kf, false⟩ })
  .ok s (timeWords (s.frameTime t m + nsSpan span) ++ wordsOf 64 kf)

/-- R219: ONU.MIGRATE; a target of all ones names the tandem partner (log entry 39). -/
def execOnuMigrate (h : Hdr) (onu target sHi sLo : Word) (s : State) : Host.Outcome State Fault Refusal :=
  .next (command h 0x0406 (s.onuRule onu.toNat) (fun _ s =>
    s.onOnu onu.toNat (fun x =>
      let partner := target = 0xFFFFFFFF
      let c := target.toNat
      if (partner ∧ !s.protected x.tree) ∨ (¬partner ∧ (127 < c ∨ c = x.chan ∨ treeOfChan c ≠ x.tree)) then .fail s .badParam
      else s.unlessFence x (
        if x.phase ≠ .operation ∨ !s.launched x.tree ∨ s.launchPending x.tree ∨ s.skeinOnus.has onu.toNat then .fail s .busy
        else s.migrate onu.toNat x (if partner then none else some c) ((sHi.toNat * 2 ^ 32 + sLo.toNat) % 2 ^ 51)))) s)

/-- R124, R641: ONU.PORT_SET. On a launched tree a change of a held port waits for the next frame start, which also flushes the port's
open context (`State.portChanges`). -/
def execOnuPortSet (h : Hdr) (onu port kind dir : Word) (s : State) : Host.Outcome State Fault Refusal :=
  .next (command h 0x0407 (s.onuRule onu.toNat) (fun _ s =>
    s.onOnu onu.toNat (fun x =>
      let t := x.tree
      let p := port.toNat
      let k := t * 65536 + p
      if 65534 < p ∨ 2 < kind.toNat ∨ 2 < dir.toNat ∨ (kind = 2 ∧ dir ≠ 0) then .fail s .badParam
      else match s.ident t 2 p with
        | none =>
          if !s.portRoom t then .fail s .noRoom
          else
            let s := s.setIdent t 2 p (some (.bound onu.toNat))
            .ok { s with pon := { s.pon with ports := s.pon.ports.put k ⟨kind.toNat, dir.toNat, none⟩ } }
        | some (.resting _) => ⟨s, .idResting, s.restWords t 2 p, false⟩
        | some (.leaving _) => .fail s .idInUse
        | some (.bound o) =>
          if o ≠ onu.toNat ∨ p = x.onuId then .fail s .idInUse
          else if s.launched t then
            .ok { s with pon := { s.pon with ports := s.pon.ports.modify k (fun q => { q with next := some (kind.toNat, dir.toNat) }) } }
          else
            let s := s.flushPort t p
            .ok { s with pon := { s.pon with ports := s.pon.ports.put k ⟨kind.toNat, dir.toNat, none⟩ } }) [.act, .pch]) s)

/-- R201, R641: ONU.PORT_CLEAR. The release of a port that rests already is OK (R217). -/
def execOnuPortClear (h : Hdr) (onu port : Word) (s : State) : Host.Outcome State Fault Refusal :=
  .next (command h 0x0408 (s.onuRule onu.toNat) (fun _ s =>
    s.onOnu onu.toNat (fun x =>
      let p := port.toNat
      if 65534 < p ∨ p = x.onuId then .fail s .badParam
      else if s.resting x.tree 2 p then .ok s
      else if s.holder x.tree 2 p ≠ some onu.toNat then .fail s .badParam
      else .ok (s.release x.tree 2 p)) [.act, .pch]) s)

/-- R213, R425: ONU.REKEY; an exchange needs the ONU's key-encryption key. -/
def execOnuRekey (h : Hdr) (onu : Word) (s : State) : Host.Outcome State Fault Refusal :=
  .next (command h 0x0409 (s.onuRule onu.toNat) (fun caller s =>
    s.onOnu onu.toNat (fun x =>
      if x.phase ≠ .operation ∨ x.rekey.isSome ∨ x.keySwitch.isSome ∨ s.asyncFull then .fail s .busy
      else if s.cipher.kekErased.has onu.toNat then .fail s .zeroized
      else ⟨(s.modOnu onu.toNat (fun x => { x with rekey := some caller, keyFails := 0 })).askKey onu.toNat, .accepted, [], false⟩)) s)

/-- ACT_ONU_STAT.state codes (R235). -/
def OnuPhase.code : OnuPhase → Nat
  | .provisioned => 1 | .assigned => 2 | .ranging => 3 | .registering => 4 | .keying => 5 | .operation => 6
  | .lost => 7 | .disabled => 8

/-- R227: state, slot, channel, EqD, missed count, key slot, fence; zeros for a FREE index (log entry 8). -/
def execOnuStatus (h : Hdr) (onu : Word) (s : State) : Host.Outcome State Fault Refusal :=
  .next (command h 0x040A (s.onuRule onu.toNat) (fun _ s =>
    if 16383 < onu.toNat then .fail s .badParam
    else match s.onu onu.toNat with
      | none => .ok s (List.replicate 7 0)
      | some x => .ok s ([x.phase.code, x.slot, x.chan, x.eqd, x.miss, x.keySlot, x.migration.isSome.toNat].map (BitVec.ofNat 32))) s)

/-- R217: state (0 free, 1 bound, 2 resting), the ONU index, frames and microseconds remaining (log entry 8). -/
def execOnuIdQuery (h : Hdr) (tree kind value : Word) (s : State) : Host.Outcome State Fault Refusal :=
  .next (command h 0x040B (.owner (dieOfTree (tree.toNat % 32))) (fun _ s =>
    let t := tree.toNat
    let limit := if kind = 0 then 1022 else if kind = 1 then 16383 else 65534
    if 31 < t ∨ 2 < kind.toNat ∨ limit < value.toNat then .fail s .badParam
    else match s.ident t kind.toNat value.toNat with
      | none => .ok s [0, 0, 0, 0]
      | some (.resting u) => .ok s [2, 0, BitVec.ofNat 32 (s.restLeft u).1, BitVec.ofNat 32 (s.restLeft u).2]
      | some (.bound o) | some (.leaving o) => .ok s [1, BitVec.ofNat 32 o, 0, 0]) s)

/-! ### Rogue ONUs (R224, R225) -/

/-- The scan's next ONU is disabled; with none left the completion lists the counts. -/
def State.scanNext (s : State) (c : Nat) (x : RogueScan) : State :=
  match x.todo with
  | o :: _ =>
    let s := { s with pon := { s.pon with scans := s.pon.scans.put c { x with count := 0, since := s.elapsed } } }
    s.disableOnu o
  | [] =>
    let s := { s with pon := { s.pon with scans := s.pon.scans.del c } }
    s.answer x.caller .ok (x.done.flatMap (fun d => [BitVec.ofNat 32 d.1, BitVec.ofNat 32 d.2]))

def execOnuRogueScan (h : Hdr) (chan : Word) (onus : List Word) (s : State) : Host.Outcome State Fault Refusal :=
  .next (command h 0x040C (.owner (dieOfChan (chan.toNat % 128))) (fun caller s =>
    let c := chan.toNat
    if 127 < c ∨ 64 < onus.length ∨ onus.any (fun o => (s.onu o.toNat).isNone) then .fail s .badParam
    else s.onTree (treeOfChan c) (onuBlocks (treeOfChan c) [.act, .kv]) (
      if s.pon.scans.has c ∨ s.asyncFull then .fail s .busy
      else ⟨s.scanNext c ⟨caller, onus.map (·.toNat), 0, [], 0⟩, .accepted, [], false⟩)) s)

/-- R225: 8 frames with one ONU disabled are over: its count is recorded and it is enabled again. -/
def execRogueScanStep (c : Chan) (s : State) : Host.Outcome State Fault Refusal :=
  match s.pon.scans.find c.toNat with
  | some ⟨caller, o :: rest, n, done, from_⟩ =>
    .next (if from_ + 8 * frameSpan ≤ s.elapsed then (s.enableOnu o).scanNext c.toNat ⟨caller, rest, 0, done ++ [(o, n)], 0⟩ else s)
  | _ => .next s

/-- R224: signal in at least 64 quanta outside bursts and windows makes a rogue frame; the event at rogue_thr of the last
8 frames, again only after 8 frames with none. -/
def execRogueFrameEval (c : Chan) (lit : BitVec 16) (s : State) : Host.Outcome State Fault Refusal :=
  let c := c.toNat
  let bad := decide (64 ≤ lit.toNat)
  let (hist, stands) := Tbl.getD s.pon.rogue c ([], false)
  let hist := (bad :: hist).take 8
  let thr := s.fld .actChCfgRogueThr c
  let isOver := thr != 0 && thr ≤ hist.count true
  let s := if bad then s.count .actRogueIdle c else s
  let s := match s.pon.scans.find c with
    | some x => if bad then { s with pon := { s.pon with scans := s.pon.scans.put c { x with count := x.count + 1 } } } else s
    | none => s
  let s := if isOver && !stands then s.raise .actRogue (dieOfChan c) c else s
  .next { s with pon := { s.pon with rogue := s.pon.rogue.put c (hist, isOver || (stands && hist.count true != 0)) } }

/-! ### Reach and windows (R202, R206-R208, R228) -/

/-- R202, R228: TREE.REACH_SET; the reply is T_eq. -/
def execTreeReachSet (h : Hdr) (tree minReach maxReach rdr lobThr regTo keyTo lostMs : Word) (s : State) :
    Host.Outcome State Fault Refusal :=
  .next (command h 0x030A (.owner (dieOfTree (tree.toNat % 32))) (fun _ s =>
    let t := tree.toNat
    let in_ := fun (w : Word) (lo hi : Nat) => decide (lo ≤ w.toNat ∧ w.toNat ≤ hi)
    if 31 < t ∨ 400 < maxReach.toNat ∨ maxReach.toNat < minReach.toNat ∨ 255 < rdr.toNat ∨ !in_ lobThr 1 15
        ∨ !in_ regTo 1 255 ∨ !in_ keyTo 1 255 ∨ !in_ lostMs 1 65535 then .fail s .badParam
    else s.onTree t [(dieOfTree t, .act)] (
      if s.launched t ∨ s.launchPending t then .fail s .busy
      else
        let s := ((s.setFld .actTreeCfgMinReach t minReach.toNat).setFld .actTreeCfgMaxReach t maxReach.toNat).setFld .actTreeCfgRdr t rdr.toNat
        let s := ((s.setFld .actTreeCfgLobThr t lobThr.toNat).setFld .actTreeTmrRegTo t regTo.toNat).setFld .actTreeTmrKeyTo t keyTo.toNat
        let s := s.setFld .actTreeTmrLostMs t lostMs.toNat
        .ok s [BitVec.ofNat 32 (s.tEq t)])) s)

/-- R228: TREE.SN_SET. -/
def execTreeSnSet (h : Hdr) (chan snEn snIvl profile rogueThr : Word) (s : State) : Host.Outcome State Fault Refusal :=
  .next (command h 0x030B (.owner (dieOfChan (chan.toNat % 128))) (fun _ s =>
    let c := chan.toNat
    if 127 < c ∨ !flagOk snEn ∨ snIvl.toNat < 1 ∨ 65535 < snIvl.toNat ∨ 3 < profile.toNat ∨ 8 < rogueThr.toNat
        ∨ !s.prfValid c profile.toNat then .fail s .badParam
    else s.onTree (treeOfChan c) [(dieOfChan c, .act)] (
      .ok (((s.setFld .actChCfgSnEn c snEn.toNat).setFld .actChCfgSnIvl c snIvl.toNat).setFld .actChCfgSnPrf c profile.toNat
        |>.setFld .actChCfgRogueThr c rogueThr.toNat))) s)

def State.foundList (s : State) (t : Nat) : List (Nat × Nat × Nat) := Tbl.getD s.pon.found t []

/-- R208: serial number, channel and X (in 1/16 ns, log entry 8) of each entry; reading removes nothing. -/
def execTreeDiscoveredRead (h : Hdr) (tree : Word) (s : State) : Host.Outcome State Fault Refusal :=
  .next (command h 0x030C (.owner (dieOfTree (tree.toNat % 32))) (fun _ s =>
    let t := tree.toNat
    if 31 < t then .fail s .badParam
    else s.onTree t [] (
      let l := s.foundList t
      .ok s (BitVec.ofNat 32 l.length :: l.flatMap (fun e => wordsOf 64 e.1 ++ [BitVec.ofNat 32 e.2.1, BitVec.ofNat 32 e.2.2])))) s)

/-- R206: a channel's SN interval has come round; the first window comes as soon as sn_en is 1 on a launched tree. -/
def State.snDue (s : State) (c : Nat) : Bool :=
  match s.pon.snAt.find c with
  | some a => a + msSpan (s.fld .actChCfgSnIvl c) ≤ s.elapsed
  | none => true

/-- R206, R207: the SN interval comes round while sn_en is 1 on a launched tree: a window is booked, in the first frames that no booked
window takes. -/
def execSnWindowBook (c : Chan) (s : State) : Host.Outcome State Fault Refusal :=
  let c := c.toNat
  let t := treeOfChan c
  if !s.flag .actChCfgSnEn c ∨ !s.launched t ∨ !s.snDue c then .next s
  else
    let s := { s with pon := { s.pon with snAt := s.pon.snAt.put c s.elapsed } }
    let teq := (s.tEq t : Int) * 16
    let e := teq - (s.rtd c (s.fld .actTreeCfgMinReach t) : Int) * 16 - 560000 + 16000
    let tail := (s.rtd c (s.fld .actTreeCfgMaxReach t) : Int) * 16 + 560000 + (s.fld .actTreeCfgRdr t : Int) * 16000 + 16000 - teq
    .next (s.book c 2 none (windowOf (s.quanta c) (s.snQuanta c) e tail))

/-- Adds a serial number to the discovered list (R208): once each, the oldest replaced past 64. -/
def State.discover (s : State) (t serial c x : Nat) : State :=
  let l := (s.foundList t).filter (fun e => e.1 ≠ serial)
  let full := decide (64 ≤ l.length)
  let l := (if full then l.drop 1 else l) ++ [(serial, c, x)]
  let s := { s with pon := { s.pon with found := s.pon.found.put t l } }
  if full then s.report .actDiscOvf t .actDiscOvf (dieOfTree t) t else s

/-- The time from a grant's StartTime to a burst, less resp, in 1/16 ns, rounded to nearest (log entry 40):
arrival − B − resp − s × q. -/
def roundTrip (quanta start arrival : Nat) : Int :=
  ((2 * ((arrival : Int) - 560000) * quanta - 2 * start * frame16 + quanta) / (2 * quanta))

/-- R208: what a serial number heard in an SN window does. -/
def State.snServed (s : State) (c serial x frame : Nat) : State :=
  let t := treeOfChan c
  let die := dieOfTree t
  if (s.disabledList t).contains serial then s.count .actSnDisabled c
  else match s.bySerial t serial with
    | none => ((s.count .actSnUnknown c).raise .actSnFound die c).discover t serial c x
    | some o =>
      match s.onu o with
      | none => s
      | some y =>
        if y.phase = .disabled then s.count .actSnDisabled c
        else if y.phase = .provisioned then
          let s := (s.report .actSnFound c .actSnFound die o).modOnu o (fun y => { y with seen := some (x, frame) })
          if y.auto then s.assign o else s
        else s.report .actSnDup c .actSnDup die o

/-- R208: a response in an SN window. Its arrival is in 1/16 ns after B_W. -/
def execSnResponseRx (c : Chan) (serial : BitVec 64) (arrival : BitVec 32) (good : Bool) (s : State) :
    Host.Outcome State Fault Refusal :=
  let c := c.toNat
  let t := treeOfChan c
  match s.snWindow c with
  | none => .next s
  | some w =>
    if !s.receives c then .next s else
    let s := s.resetAfter c w arrival.toNat
    let x := (roundTrip (s.quanta c) w.start arrival.toNat).toNat
    if !good then .next (s.count .actSnGarble c)
    else if s.treeBarred t then .next s
    else .next (s.toActivation t (.snResponse c serial.toNat x w.frame) (fun s => s.snServed c serial.toNat x w.frame))

/-- The ranging window booked for an ONU. -/
def State.rangingWindow (s : State) (o : Nat) : Option Window :=
  (s.onu o).bind (fun x => (s.windows x.chan).find? (fun w => w.ranging = some o))

/-- An EqD in 1/16 ns in the unit that the governing recommendation prescribes for Ranging_Time, rounded to nearest (R210). The unit,
in 2^-32 ns, is the recommendation's (log entry 2). -/
def State.rangingUnits (s : State) (c eqd : Nat) : Nat :=
  let unit := max 1 (Config.standard 67 [(s.xgs c).toNat])
  (2 * eqd * (nsUnit / 16) + unit) / (2 * unit)

/-- Ranging_Time carrying an EqD (R210, R214). -/
def State.sendEqd (s : State) (c onuId eqd : Nat) : State := s.offer c ⟨.rangingTime, some onuId, [s.rangingUnits c eqd]⟩

/-- R455: a standby keeps the round trip that it measures of a ranging burst. -/
def State.passiveRange (s : State) (o : Nat) (rt : Int) : State := s.modTandem (fun w => { w with ranged := w.ranged.put o rt })

/-- R210, R211: a measured round trip, in 1/16 ns: EqD set, Ranging_Time and Request_Registration; or outside reach. -/
def State.rangingServed (s : State) (o : Nat) (rt : Int) : State :=
  match s.onu o with
  | none => s
  | some x =>
    if x.phase ≠ .ranging then s
    else
      let c := x.chan
      let lo := (s.rtd c (s.fld .actTreeCfgMinReach x.tree) : Int) * 16 - 16000
      let hi := (s.rtd c (s.fld .actTreeCfgMaxReach x.tree) : Int) * 16 + 16000
      let s := s.unbook o
      if rt < lo ∨ hi < rt then s.failOnu o .actReachBad .actReach
      else
        let eqd := unsignedOf 32 ((s.tEq x.tree : Int) * 16 - 560000 - rt)
        let s := s.sendEqd c x.onuId eqd
        let s := s.offer c ⟨.requestRegistration, some x.onuId, []⟩
        s.modOnu o (fun x => { x.enter .registering s.elapsed with eqd := eqd, miss := 0 })

/-- R210: a ranging burst measures the round trip. A standby measures it alone (R455). -/
def execRangingBurstRx (onu : Onu) (arrival : BitVec 32) (s : State) : Host.Outcome State Fault Refusal :=
  let o := onu.toNat
  match s.onu o, s.rangingWindow o with
  | some x, some w =>
    let rt := roundTrip (s.quanta x.chan) w.start arrival.toNat
    if x.phase ≠ .ranging ∨ !s.receives x.chan then .next s
    else if s.treeBarred x.tree then .next (s.passiveRange o rt)
    else .next ((s.resetAfter x.chan w arrival.toNat).toActivation x.tree (.rangingBurst o rt) (fun s => s.rangingServed o rt))
  | _, _ => .next s

/-- R204: a ranging window closes with no burst: attempts 1 and 2 book a new one, the third ends the activation. -/
def execRangingWindowEnd (onu : Onu) (s : State) : Host.Outcome State Fault Refusal :=
  let o := onu.toNat
  match s.onu o, s.rangingWindow o with
  | some x, some _ =>
    if x.phase ≠ .ranging ∨ s.treeBarred x.tree then .next s
    else
      let s := s.unbook o
      if 2 ≤ x.tries then .next (s.failOnu o .actRngFail .actRngFail)
      else .next ((s.modOnu o (fun x => { x with tries := x.tries + 1 })).bookRanging o)
  | _, _ => .next s

/-! ### Registration and keys (R212, R213) -/

/-- R212: a registration message of an ONU. -/
def State.registrationServed (s : State) (o : Nat) (regId : List Word) : State :=
  match s.onu o with
  | none => s
  | some x =>
    if x.phase ≠ .registering ∨ s.treeBarred x.tree then s
    else if x.regId = none ∨ x.regId = some regId then (s.modOnu o (fun x => { x.enter .keying s.elapsed with keyFails := 0 })).askKey o
    else s.failOnu o .actRegBad .actRegBad

def execRegistrationReply (onu : Onu) (regId : List Word) (s : State) : Host.Outcome State Fault Refusal :=
  match s.onu onu.toNat with
  | none => .next s
  | some x => .next (s.toActivation x.tree (.registration onu.toNat regId) (fun s => s.registrationServed onu.toNat regId))

/-- R212: no reply within reg_to frames. -/
def execRegistrationTimeout (onu : Onu) (s : State) : Host.Outcome State Fault Refusal :=
  match s.onu onu.toNat with
  | some x => if x.phase = .registering ∧ !s.treeBarred x.tree ∧ x.since + s.fld .actTreeTmrRegTo x.tree * frameSpan ≤ s.elapsed then .next (s.failOnu onu.toNat .actRegBad .actRegBad) else .next s
  | none => .next s

/-- R213: no reply within key_to frames of the asking. -/
def execKeyTimeout (onu : Onu) (s : State) : Host.Outcome State Fault Refusal :=
  match s.onu onu.toNat with
  | some x => if x.keyAsked ∧ !s.treeBarred x.tree ∧ x.asked + s.fld .actTreeTmrKeyTo x.tree * frameSpan ≤ s.elapsed then .next (s.keyFailed onu.toNat) else .next s
  | none => .next s

/-- R215: an ONU has stayed LOST for lost_ms. -/
def execLostTimeout (onu : Onu) (s : State) : Host.Outcome State Fault Refusal :=
  match s.onu onu.toNat with
  | some x => if x.phase = .lost ∧ !s.treeBarred x.tree ∧ x.since + msSpan (s.fld .actTreeTmrLostMs x.tree) ≤ s.elapsed then .next (s.failOnu onu.toNat .actLostDeact .actDeact) else .next s
  | none => .next s

/-- An identifier's rest is over. -/
def State.rested (s : State) (t kind v : Nat) : Bool :=
  match s.ident t kind v with
  | some (.resting u) => u ≤ s.elapsed
  | _ => false

/-- R216: a rest ends: the identifier is free; a port's context goes with it. -/
def execPaddockRestEnd (t : Tree) (kind : BitVec 2) (value : BitVec 16) (s : State) : Host.Outcome State Fault Refusal :=
  if s.rested t.toNat kind.toNat value.toNat then
    let s := s.setIdent t.toNat kind.toNat value.toNat none
    .next (if kind = 2 then { s with pon := { s.pon with rsm := s.pon.rsm.del (t.toNat * 65536 + value.toNat) } } else s)
  else .next s

/-! ### Migration (R220) -/

/-- R220: the fence F: records, ports, contexts and keys are on the new placement. -/
def execMigrationFence (onu : Onu) (s : State) : Host.Outcome State Fault Refusal :=
  .next (s.modOnu onu.toNat (fun x =>
    match x.migration with
    | some m =>
      if m.fenced ∨ s.elapsed < m.fence then x
      else match m.target with
        | some c => { x with wl := c % 4, migration := some { m with fenced := true } }
        | none => { x with away := true, migration := some { m with fenced := true } }
    | none => x))

/-- R220: B_K: the downstream node is on the new channel, and the fence is no longer pending. -/
def execMigrationComplete (onu : Onu) (s : State) : Host.Outcome State Fault Refusal :=
  .next (s.modOnu onu.toNat (fun x =>
    match x.migration with
    | some m => if m.fenced ∧ s.frameElapsed x.tree m.frameK ≤ s.elapsed then { x with downWl := x.wl, migration := none } else x
    | none => x))

end Sys2Proof.Machine
end

