-- ==== Sys2Proof/Machine/Grants.lean ====
section
/-!
DEFINITION. The grant engine (R137-R170): Alloc records, demand, snapshots, maps, cooperative grants, pins.
-/

namespace Sys2Proof.Machine

/-! ### Configuration commands (R163) -/

def execGrantChannelSet (h : Hdr) (chan enable guard admPct ploamIvl : Word) (s : State) : Host.Outcome State Fault Refusal :=
  .next (command h 0x0500 (.owner (dieOfChan (chan.toNat % 128))) (fun _ s =>
    let c := chan.toNat
    if 127 < c ∨ !flagOk enable ∨ guard.toNat < 4 ∨ 255 < guard.toNat ∨ admPct.toNat < 10 ∨ 100 < admPct.toNat
        ∨ 255 < ploamIvl.toNat then .fail s .badParam
    else s.onTree (treeOfChan c) [(dieOfChan c, .gnt)] (
      .ok (((s.setFld .gntChCfgEnable c enable.toNat).setFld .gntChCfgGuard c guard.toNat).setFld .gntChCfgAdmPct c admPct.toNat
        |>.setFld .gntChCfgPloamIvl c ploamIvl.toNat))) s)

def execGrantTreeSet (h : Hdr) (tree cutoff coopEn : Word) (s : State) : Host.Outcome State Fault Refusal :=
  .next (command h 0x0501 (.owner (dieOfTree (tree.toNat % 32))) (fun _ s =>
    let t := tree.toNat
    if 31 < t ∨ cutoff.toNat < 16 ∨ 120 < cutoff.toNat ∨ !flagOk coopEn then .fail s .badParam
    else s.onTree t [(dieOfTree t, .gnt)] (
      .ok ((s.setFld .gntTreeCfgCutoff t cutoff.toNat).setFld .gntTreeCfgCoopEn t coopEn.toNat))) s)

/-! ### Alloc records (R143-R145, R162) -/

/-- R144: the channel's fixed and assured quanta, with 32 for each ONU that holds any of its Alloc-IDs, within adm_pct,
and at most 512 Alloc-IDs with fixed bandwidth, once record `k` reads `r`. The assured rate of a record with report mode none, which
grants ignore, counts here as the sum's words have it (DEDUCED, log entry 16). -/
def State.admits (s : State) (k : Nat) (r : AllocRec) : Bool :=
  let c := s.nextChan r
  let recs := r :: ((s.pon.allocs.filter (fun p => p.1 ≠ k && s.nextChan p.2 = c)).map Prod.snd)
  let onus := (recs.map (·.onu)).dedup
  let q := sumOn recs (fun r => ceilDiv r.fixed (s.prfBytes c r.profile) + ceilDiv r.assured (s.prfBytes c r.profile))
  100 * (q + 32 * onus.length) ≤ s.fld .gntChCfgAdmPct c * s.quanta c && (recs.filter (fun r => 0 < r.fixed)).length ≤ 512

def allocWordsOk (p : AllocWords) : Bool :=
  p.fixed.toNat ≤ 777600 && p.assured.toNat ≤ 777600 && p.nonAssured.toNat ≤ 777600 && p.max.toNat ≤ 777600
    && p.weight.toNat < 65536 && p.band.toNat < 8 && p.rpt.toNat < 4 && p.dbruIvl.toNat < 16 && p.profile.toNat < 4

/-- A record with the parameters of R143 written; what the engine keeps of it stands. It is valid from the next cutoff, though it was to
leave the maps (R145). -/
def AllocRec.withWords (r : AllocRec) (p : AllocWords) : AllocRec :=
  { r with
    fixed := p.fixed.toNat, assured := p.assured.toNat, nonAssured := p.nonAssured.toNat, weight := p.weight.toNat
    max := p.max.toNat, band := p.band.toNat, rpt := p.rpt.toNat, dbruIvl := p.dbruIvl.toNat, profile := p.profile.toNat
    memErr := false, leaving := false }

/-- R144, R162, R200: GRANT.ALLOC_SET creates the record of an Alloc-ID for an ONU; the reply is its index. One that names an Alloc-ID
already valid on the tree is ID_IN_USE, whoever holds it: a record in use is changed by a commit (R145). -/
def execGrantAllocSet (h : Hdr) (onu allocId : Word) (p : AllocWords) (s : State) : Host.Outcome State Fault Refusal :=
  .next (command h 0x0502 (s.onuRule onu.toNat) (fun _ s =>
    s.onOnu onu.toNat (fun x =>
      let t := x.tree
      let a := allocId.toNat
      if 16383 < a ∨ !allocWordsOk p ∨ !s.prfValid x.chan p.profile.toNat then .fail s .badParam
      else
        match s.ident t 1 a with
        | some (.resting _) => ⟨s, .idResting, s.restWords t 1 a, false⟩
        | some (.leaving _) | some (.bound _) => .fail s .idInUse
        | none =>
          match s.freeRec (dieOfTree t) with
          | none => .fail s .noRoom
          | some k =>
            let r := s.freshTags ((newRec t onu.toNat a p.profile.toNat).withWords p)
            if !s.allocRoom t ∨ !s.admits k r then .fail s .noRoom
            else .ok ((s.setIdent t 1 a (some (.bound onu.toNat))).setRec k r) [BitVec.ofNat 32 (k % 16384)]) [.gnt]) s)

/-- R162, R201, R217: GRANT.ALLOC_CLEAR. -/
def execGrantAllocClear (h : Hdr) (onu allocId : Word) (s : State) : Host.Outcome State Fault Refusal :=
  .next (command h 0x0503 (s.onuRule onu.toNat) (fun _ s =>
    s.onOnu onu.toNat (fun x =>
      let a := allocId.toNat
      if 16383 < a ∨ a = x.onuId then .fail s .badParam
      else if s.resting x.tree 1 a then .ok s
      else if s.holder x.tree 1 a ≠ some onu.toNat then .fail s .badParam
      else .ok (s.release x.tree 1 a)) [.gnt]) s)

/-- The reply of GRANT.ALLOC_GET: the parameters of R143, demand, last grant, tags (log entry 8). -/
def AllocRec.words (r : AllocRec) : List Word :=
  [r.onu, r.allocId, r.fixed, r.assured, r.nonAssured, r.weight, r.max, r.band, r.rpt, r.dbruIvl, r.profile, r.demand,
    r.lastGrant, r.tagNa, r.tagBe].map (BitVec.ofNat 32)

def execGrantAllocGet (h : Hdr) (onu allocId : Word) (s : State) : Host.Outcome State Fault Refusal :=
  .next (command h 0x0504 (s.onuRule onu.toNat) (fun _ s =>
    match s.onu onu.toNat with
    | none => .fail s .badParam
    | some x => match s.recOf x.tree allocId.toNat with
      | some (_, r) => if r.onu = onu.toNat then .ok s r.words else .fail s .badParam
      | none => .fail s .badParam) s)

/-! ### Hints (R155-R157) -/

/-- The hint's parts for frames whose cutoff has passed are dropped and counted (R157); the rest stands under a handle. Each part counts in
gnt_cti_late, and one EV_GNT_CTI_LATE is raised for the hint: R160 does not say how often (DESIGN CHOICE, log entry 92). -/
def State.addHint (s : State) (t place : Nat) (x : Hint) : State :=
  let die := dieOfTree t
  let ahead := if s.launched t ∨ s.launchPending t then
      signedOf 51 ((s.nextFrame t + 2 ^ 51 - x.first % 2 ^ 51) % 2 ^ 51) else 0
  let late := min ahead.toNat x.frames
  let s := if late = 0 then s else (s.countBy .gntCtiLate die late).raise .gntCtiLate die t
  if late = x.frames then s
  else
    let x := if late = 0 then x else { x with first := (x.first + late) % 2 ^ 51, frames := x.frames - late, extra := 0 }
    { s with pon := { s.pon with hints := s.pon.hints.put place x } }

/-- The lowest free place of a line die's 4,096 hints (log entry 34). -/
def State.hintPlace (s : State) (die : Nat) : Option Nat :=
  ((List.range 4096).map (· + (die - 2) * 4096)).find? (fun k => !s.pon.hints.has k)

/-- R155: GRANT.HINT; the die selector names the record's line die (log entry 33). -/
def execGrantHint (h : Hdr) (record sHi sLo frames bytes pin : Word) (s : State) : Host.Outcome State Fault Refusal :=
  .next (command h 0x0505 (.oneOf [2, 3, 4, 5]) (fun _ s =>
    let die := h.die.toNat
    match s.pon.allocs.find (recKey die record.toNat) with
    | none => .fail s .badParam
    | some r =>
      if 16383 < record.toNat ∨ frames.toNat < 1 ∨ 65535 < frames.toNat ∨ 2 ^ 19 ≤ sHi.toNat
          ∨ (pin ≠ 0xFFFF ∧ s.quanta (s.recChan r) ≤ pin.toNat) then .fail s .badParam
      else s.onTree r.tree [(die, .gnt)] (
        match s.hintPlace die with
        | none => .fail (s.report .gntCtiFull die .gntCtiFull die r.tree) .noRoom
        | some k =>
          let x : Hint := ⟨recKey die record.toNat, sHi.toNat * 2 ^ 32 + sLo.toNat, frames.toNat, bytes.toNat, 0,
            if pin = 0xFFFF then none else some pin.toNat⟩
          .ok (s.addHint r.tree k x) [BitVec.ofNat 32 k])) s)

/-- R163: a hint's frames whose cutoff has not passed are cancelled. -/
def execGrantHintCancel (h : Hdr) (handle : Word) (s : State) : Host.Outcome State Fault Refusal :=
  .next (command h 0x0506 (.owner (2 + handle.toNat / 4096)) (fun _ s =>
    match s.pon.hints.find handle.toNat with
    | none => .fail s .badParam
    | some x =>
      let t := ((s.pon.allocs.find x.rec_).map (·.tree)).getD 0
      s.onTree t [(dieOfTree t, .gnt)] (.ok { s with pon := { s.pon with hints := s.pon.hints.del handle.toNat } })) s)

/-- R156: GRANT.CTI_SET (log entry 33). -/
def execGrantCtiSet (h : Hdr) (ports : List Word) (udp : Word) (sources : List (BitVec 128)) (pairs : List (Word × Word × Word))
    (s : State) : Host.Outcome State Fault Refusal :=
  .next (command h 0x0507 (.oneOf [2, 3, 4, 5]) (fun _ s =>
    let die := h.die.toNat
    let others := s.pon.cti.pairs.filter (fun p => p.2 / 16384 + 2 ≠ die)
    let key := fun (p : Word × Word × Word) => p.1.toNat * 2 ^ 32 + p.2.1.toNat
    let all := pairs.foldl (fun t p => Tbl.put t (key p) (recKey die p.2.2.toNat)) others
    if ports.any (fun p => 63 < p.toNat || s.portOf p.toNat ≠ p.toNat) ∨ 65535 < udp.toNat ∨ 16 < sources.length
        ∨ pairs.any (fun p => 16383 < p.2.2.toNat) then .fail s .badParam
    else s.unlessClaimed [(die, .gnt)] (
      if 4096 < all.length then .fail s .noRoom
      else .ok { s with pon := { s.pon with cti := ⟨ports.map (·.toNat), udp.toNat, sources.map (·.toNat), all⟩ } })) s)

/-- R156: a report's window as a hint: first frame, frames, bytes a frame and the remainder. -/
def State.ctiHint (s : State) (t rec_ start len bytes : Nat) : Hint :=
  let x := s.tree t
  let d := -(((x.startTime : Int) + nsSpan (s.tEq t) - start) / (frameSpan : Int))
  let frames := max 1 (ceilDiv len 125000)
  ⟨rec_, (((x.count : Int) + d) % (2 ^ 51 : Nat)).toNat, frames, bytes / frames, bytes % frames, none⟩

/-- R156: a CTI report on a named port becomes a hint, or is discarded. A datagram that matches no named port is not the
engine's; a report for a tree without coop_en is not taken (log entry 33). A report for a pair that is not mapped counts on L0 or L2, by the
half of its port: R160 names no line die for it (DESIGN CHOICE, log entry 92). -/
def execCtiReportRx (port : Lane) (udp : BitVec 16) (source : BitVec 128) (entity flow : Word) (start : T3)
    (length bytes : Word) (wellFormed : Bool) (s : State) : Host.Outcome State Fault Refusal :=
  let cti := s.pon.cti
  if !s.lineRx (s.portOf port.toNat) then .next s
  else if !cti.ports.contains (s.portOf port.toNat) ∨ cti.udp ≠ udp.toNat then .next s
  else
    let die := match cti.pairs.find (entity.toNat * 2 ^ 32 + flow.toNat) with
      | some k => k / 16384 + 2
      | none => 2 + 2 * (port.toNat / 32)
    let bad := s.report .gntCtiBad die .gntCtiBad die port.toNat
    match cti.pairs.find (entity.toNat * 2 ^ 32 + flow.toNat) with
    | none => .next bad
    | some k =>
      match s.pon.allocs.find k with
      | none => .next bad
      | some r =>
        if !cti.sources.contains source.toNat ∨ !wellFormed ∨ length = 0 then .next bad
        else if !s.flag .gntTreeCfgCoopEn r.tree ∨ s.treeBarred r.tree then .next s
        else match s.hintPlace die with
          | none => .next (s.report .gntCtiFull die .gntCtiFull die r.tree)
          | some p => .next (State.mirror (t := r.tree) (s.addHint r.tree p (s.ctiHint r.tree k (T3.time start) length.toNat bytes.toNat)))

/-! ### Power measurement (R159) -/

def State.arms (s : State) (c : Nat) : List RssiArm := Tbl.getD s.pon.arms c []

def State.setArms (s : State) (c : Nat) (l : List RssiArm) : State :=
  { s with pon := { s.pon with arms := Tbl.setD s.pon.arms c [] l } }

/-- An arm joins those of an ONU's channel; of a protected tree the peer is told (R453). -/
def State.addArm (s : State) (x : OnuSlot) (a : RssiArm) : State :=
  let s := s.setArms x.chan (s.arms x.chan ++ [a])
  if s.mirrors x.tree then s.tellItem x.tree a.item else s

/-- R159: GRANT.RSSI_ARM; start 0 is the first frame after the next cutoff, which fixes it. -/
def execGrantRssiArm (h : Hdr) (onu sHi sLo count : Word) (s : State) : Host.Outcome State Fault Refusal :=
  .next (command h 0x0508 (s.onuRule onu.toNat) (fun _ s =>
    match s.onu onu.toNat with
    | none => .fail s .badParam
    | some x =>
      let start := (sHi.toNat * 2 ^ 32 + sLo.toNat) % 2 ^ 51
      if count.toNat < 1 ∨ 255 < count.toNat ∨ 2 ^ 19 ≤ sHi.toNat then .fail s .badParam
      else s.onTree x.tree [(dieOfTree x.tree, .gnt)] (
        if 8 ≤ (s.arms x.chan).length then .fail s .busy
        else .ok (s.addArm x ⟨onu.toNat, if start = 0 then none else some start, count.toNat⟩))) s)

/-- R159, R160: arms still short 8,000 frames after their start expire. -/
def execRssiArmExpire (c : Chan) (s : State) : Host.Outcome State Fault Refusal :=
  let c := c.toNat
  let t := treeOfChan c
  let old := fun (a : RssiArm) => (a.start.map (fun n => decide (s.framesTo t ((n + 8000) % 2 ^ 51) ≤ 0))).getD false
  let gone := (s.arms c).filter old
  .next (gone.foldl (fun s a => s.report .gntRssiExpire c .gntRssiExpire (dieOfChan c) a.onu)
    (s.setArms c ((s.arms c).filter (fun a => !old a))))

/-- The oldest arm due whose ONU has a burst in the map flags that burst (R159). -/
def State.armMap (s : State) (c n : Nat) (map : List AllocStruct) : State × List AllocStruct :=
  let due := fun (a : RssiArm) =>
    (a.start.map (fun k => decide (0 ≤ signedOf 51 ((n + 2 ^ 51 - k % 2 ^ 51) % 2 ^ 51)))).getD false && map.any (fun m => m.onu = a.onu)
  match (s.arms c).findIdx? due with
  | none => (s, map)
  | some i =>
    match (s.arms c)[i]? with
    | none => (s, map)
    | some a =>
      let l := if a.left ≤ 1 then (s.arms c).eraseIdx i else (s.arms c).set i { a with left := a.left - 1 }
      let j := map.findIdx (fun m => m.onu = a.onu)
      (s.setArms c l, match map[j]? with
        | some m => map.set j { m with rssi := true }
        | none => map)

/-! ### Reading maps and status (R163) -/

def AllocStruct.words (m : AllocStruct) : List Word :=
  [m.allocId, m.start, m.size, m.dbru.toNat + 2 * m.ploamu.toNat + 4 * m.profile].map (BitVec.ofNat 32)

/-- The last map sent: its count, then its structures (log entry 8). -/
def execGrantMapRead (h : Hdr) (chan : Word) (s : State) : Host.Outcome State Fault Refusal :=
  .next (command h 0x0509 (.owner (dieOfChan (chan.toNat % 128))) (fun _ s =>
    if 127 < chan.toNat then .fail s .badParam
    else
      let m := (s.chan chan.toNat).sentMap
      .ok s (wordsOf 64 m.1 ++ BitVec.ofNat 32 m.2.length :: m.2.flatMap AllocStruct.words)) s)

/-- The grant engine's failure counters, and whether one counts a line die's cases rather than a channel's (R146, R160, R169; the order
is log entry 8). -/
def grantCounters : List (Ctr × Bool) :=
  [(.gntAllocCap, false), (.gntAssuredShort, false), (.gntPackClip, false), (.gntCoopClip, false), (.gntFixedShort, false),
    (.gntRssiExpire, false), (.gntRstSqueeze, false), (.gntRptMiss, false), (.pchBwmapLate, false), (.gntCtiLate, true),
    (.gntCtiFull, true), (.gntCtiBad, true), (.gntMemCorr, true), (.gntMemErr, true), (.gntRecReject, true)]

def execGrantStatus (h : Hdr) (chan : Word) (s : State) : Host.Outcome State Fault Refusal :=
  .next (command h 0x050A (.owner (dieOfChan (chan.toNat % 128))) (fun _ s =>
    let c := chan.toNat
    if 127 < c then .fail s .badParam
    else
      let hints := (s.pon.hints.filter (fun p => ((s.pon.allocs.find p.2.rec_).map (fun r => decide (s.recChan r = c))).getD false)).length
      .ok s ([s.reg .gntChStat c, BitVec.ofNat 32 (s.arms c).length, BitVec.ofNat 32 hints]
        ++ (grantCounters.flatMap (fun k => ctrWords (s.ctr k.1 (if k.2 then dieOfChan c else c)))))) s)

/-! ### Demand (R146) -/

/-- R146: a report reaches the engine; G counts the bytes of maps computed after the one that granted the burst. -/
def State.reportRx (s : State) (k : Nat) (rep : GrantReport) : State :=
  s.modRec k (fun r =>
    match rep with
    | .dbru bytes frame =>
      let later := fun (m : Nat) => decide (0 < signedOf 51 ((m + 2 ^ 51 - frame.toNat) % 2 ^ 51))
      { r with report := bytes.toNat, fresh := true, since := sumOn (r.recent.filter (fun m => later m.1)) (·.2) }
    | .usage bytes full => { r with sent := bytes.toNat, tmFull := full })

/-- The bytes a report tells of, as report records carry them (R446). -/
def reportBytes : GrantReport → Nat
  | .dbru b _ => b.toNat
  | .usage b _ => b.toNat

/-- A report decoded by the receiver. On a protected tree it enters the channel's digest (R456), the owner sends it to the
peer (R445), and the standby uses it for comparison alone (R455). -/
def State.decoded (s : State) (k : Nat) (rep : GrantReport) : State :=
  match s.pon.allocs.find k with
  | none => s
  | some r =>
    let s := if s.protected r.tree then
        s.modTndChan (s.recChan r) (fun x => { x with reports := Tbl.put x.reports k (reportBytes rep) }) else s
    let s := if s.mirrors r.tree then
        (s.sendRecord 0x11 (.report k (reportBytes rep) (shortOf (s.nowOn (dieOfTree r.tree))))).modTndTree r.tree (fun x => { x with sentReports := x.sentReports + 1 })
      else s
    if s.treeBarred r.tree then s else s.reportRx k rep

def execGrantReportRx (die : BitVec 2) (index : BitVec 14) (rep : GrantReport) (s : State) : Host.Outcome State Fault Refusal :=
  .next (s.decoded (recKey (2 + die.toNat) index.toNat) rep)

/-- The demand of a record at a snapshot (R146), with the bytes of one quantum. R146 does not say what an Alloc-ID in TM mode demands
before its first grant: here one quantum, as after a grant of nothing fully used. The last grant is the newest non-zero one computed,
and its use that of the newest burst received (DESIGN CHOICE, log entry 16). -/
def AllocRec.demandNow (r : AllocRec) (bpq : Nat) : Nat :=
  let sr := r.report - r.since
  let tm := if r.tmFull ∨ r.lastGrant = 0 then r.lastGrant + Nat.max bpq (r.lastGrant / 8) else r.sent
  match r.rpt with
  | 0 => 0
  | 1 => sr
  | 2 => tm
  | _ => if r.fresh then sr else tm

/-! ### The snapshot (R140, R205) -/

/-- Whether the map of a frame grants an ONU at all (R205, R219): by its phase, not while a fence is pending between M
and K, not when the tandem partner grants it. -/
def State.grantable (s : State) (x : OnuSlot) (n : Nat) : Bool :=
  let t := x.tree
  let at_ := fun m => s.framesTo t n - s.framesTo t m
  let clear := match x.migration with
    | some m => decide (at_ m.frameM < 0 ∨ 0 ≤ at_ m.frameK)
    | none => true
  !x.away && clear &&
    (x.phase = .operation || x.phase = .registering || x.phase = .keying || x.phase = .lost)

/-- Only the default Alloc-ID, with PLOAMu in every frame (R205). -/
def OnuSlot.onlyDefault (x : OnuSlot) : Bool := x.phase ≠ .operation

/-- The Alloc-IDs of a channel that the map of frame n may grant, in ascending record index; those of a skein member that is
down are not (R246). -/
def State.grantRecs (s : State) (c n : Nat) : List (Nat × AllocRec) :=
  s.pon.allocs.filter (fun p =>
    let r := p.2
    r.tree = treeOfChan c && s.recChan r = c && !r.leaving && !r.memErr &&
    !(s.skeinOnus.has r.onu && ((s.skeinOf c).map (fun k => s.memberDown.has (4 * k + c % 4))).getD false) &&
    match s.onu r.onu with
    | some x => s.grantable x n && (!x.onlyDefault || r.allocId = x.onuId)
    | none => false)

def State.gAlloc (s : State) (c k : Nat) (r : AllocRec) : GAlloc :=
  let b := s.prfBytes c r.profile
  let asks := r.rpt != 0
  let dbru := r.rpt = 1 || r.rpt = 3
  { key := k, onu := r.onu, allocId := r.allocId, profile := r.profile, bpq := b, band := r.band, weight := r.weight
    fixed := ceilDiv r.fixed b, assured := ceilDiv r.assured b, nonAssured := ceilDiv r.nonAssured b, max := ceilDiv r.max b
    asks := asks, dbru := dbru, poll := dbru && r.dbruIvl != 0 && r.dbruIvl ≤ r.idle
    demand := ceilDiv (r.demandNow b) b, tagNa := r.tagNa, tagBe := r.tagBe }

/-- PLOAMu due (R148, R205): requested, the interval over, or every frame short of OPERATION; on the ONU's own channel. -/
def State.ploamDue (s : State) (c : Nat) (x : OnuSlot) : Bool :=
  let ivl := s.fld .gntChCfgPloamIvl c
  x.chan = c && (x.ploamReq || x.onlyDefault || (ivl != 0 && ivl ≤ x.ploamAge))

/-- The hints that apply to a frame, in ascending record index, as quanta and pin (R155). -/
def State.hintsFor (s : State) (c n : Nat) (recs : List (Nat × AllocRec)) : List (Nat × Nat × Option Nat) :=
  s.pon.hints.filterMap (fun p =>
    let x := p.2
    let d := signedOf 51 ((n + 2 ^ 51 - x.first % 2 ^ 51) % 2 ^ 51)
    match recs.find? (fun r => r.1 = x.rec_) with
    | some r =>
      if 0 ≤ d ∧ d < x.frames then
        some (x.rec_, ceilDiv (x.bytes + if d = 0 then x.extra else 0) (s.prfBytes c r.2.profile), x.pin)
      else none
    | none => none)

/-- The Alloc-ID of the serial-number grant is the recommendation's (R207, log entry 46). -/
def snAllocId : Nat := Config.standard 100 []

/-- The ONU of a window's structure that names none. -/
def noOnu : Nat := 16384

/-- The grant of a window whose frame this is (R207, R209): its PLOAMu under the SN profile. -/
def State.windowGrants (s : State) (c n : Nat) : List AllocStruct :=
  ((s.windows c).filter (fun w => w.frame = n)).map (fun w =>
    let p := s.fld .actChCfgSnPrf c
    let o := w.ranging.getD noOnu
    let id := match w.ranging.bind s.onu with
      | some x => x.onuId
      | none => snAllocId
    ⟨id, o, w.start, ploamuQ (s.prfBytes c p), false, true, p, false, 0, true⟩)

/-- A channel's part of the snapshot for the map of frame n. -/
def State.snapChan (s : State) (c n : Nat) : GChan :=
  let recs := s.grantRecs c n
  let onus := ((recs.map (fun p => p.2.onu)).dedup).filterMap (fun o => (s.onu o).map (fun x => (⟨o, x.onuId, s.ploamDue c x⟩ : GOnu)))
  { chan := c, quanta := s.quanta c, guard := s.fld .gntChCfgGuard c
    ovh := (List.range 4).map (s.ovhQ c), fec := (List.range 4).map (s.prfFec c)
    quiet := ((s.windows c).map (fun w => (0, w.cover (s.quanta c) n))).filter (fun i => i.2 != 0)
    preset := s.windowGrants c n, onus := sortOn (fun o : GOnu => o.onu) onus
    allocs := recs.map (fun p => s.gAlloc c p.1 p.2), hints := s.hintsFor c n recs
    vt := (List.range 16).map (fun i => (i, Tbl.getD s.pon.vts (c * 16 + i) 0)) }

/-- What a cutoff settles before the snapshot: identifiers that leave the maps rest from this frame (R216), moves of
Alloc-IDs take effect (R239), SN windows that are over are forgotten, ONUs in ASSIGNED get their ranging window, and those in RANGING
whose window went with a stop of the tree another (log entry 35). The tags of a record that moves to another channel stand against that
channel's V as they are: R152 and R239 do not say (DESIGN CHOICE, log entry 15). -/
def State.cutoffMoves (s : State) (t n : Nat) : State :=
  let s := s.releaseAll t (s.frameElapsed t n)
  let s := { s with pon := { s.pon with allocs := s.pon.allocs.map (fun (p : Nat × AllocRec) =>
    if p.2.tree = t ∧ p.2.moveTo.isSome then (p.1, { p.2 with member := p.2.moveTo, moveTo := none }) else p) } }
  let late := (ceilDiv (s.tEq t) 125000 : Int) + 1
  let s := (chansOfTree t).foldl (fun s c => s.setWindows c ((s.windows c).filter (fun w =>
    let sp := w.span (s.quanta c)
    w.ranging.isSome || decide (-late < s.framesTo t ((sp.1 + sp.2) % 2 ^ 51))))) s
  ((s.onusOf t).filter (fun (p : Nat × OnuSlot) =>
    p.2.phase = .assigned || (p.2.phase = .ranging && (s.rangingWindow p.1).isNone))).foldl (fun s p => s.bookRanging p.1) s

/-- R140: the snapshot for frame n is taken: what R170 reports is as of it, and later reports are for the next. A record of an ONU
that is not granted keeps its demand (R205). -/
def State.cutoff (s : State) (t n : Nat) : State :=
  let s := s.cutoffMoves t n
  let granted := fun (r : AllocRec) => match s.onu r.onu with
    | some x => s.grantable x n && (!x.onlyDefault || r.allocId = x.onuId)
    | none => false
  let told := fun (r : AllocRec) => { r with statFull := r.tmFull, statErr := r.memErr }
  let snap := ((chansOfTree t).filter (fun c => s.flag .gntChCfgEnable c)).map (fun c => s.snapChan c n)
  { s with pon := { s.pon with
    calcs := s.pon.calcs.put t ⟨n, snap, none⟩
    arms := s.pon.arms.map (fun p =>
      if p.1 / 4 = t then (p.1, p.2.map (fun a => { a with start := some (a.start.getD n) })) else p)
    allocs := s.pon.allocs.map (fun p =>
      if p.2.tree ≠ t then p
      else if granted p.2 then
        (p.1, { told p.2 with demand := p.2.demandNow (s.prfBytes (s.recChan p.2) p.2.profile), fresh := false })
      else (p.1, told p.2))
    hints := s.pon.hints.filter (fun p =>
      !(((s.pon.allocs.find p.2.rec_).map (fun r => decide (r.tree = t))).getD false
        && decide ((p.2.frames : Int) ≤ 1 + signedOf 51 ((n + 2 ^ 51 - p.2.first % 2 ^ 51) % 2 ^ 51)))) } }

/-- After a snapshot the owner tells the standby what it holds (R445); where the whole state has been sent, with what the engine keeps,
so that lockstep starts from this cutoff (R454). -/
def State.sendCut (s : State) (t n : Nat) : State :=
  if s.mirrors t then
    let s := s.mirror t
    let s := if (s.tndTree t).resyncing then (s.engineItems t).foldl (fun s m => s.tellItem t m) s else s
    let x := s.tndTree t
    (s.sendRecord 0x12 (.cut t n x.sentReports x.sentMirrors)).modTndTree t (fun x =>
      { x with sentReports := 0, sentMirrors := 0, resyncing := false })
  else s

/-- The standby computes in lockstep: its snapshots come with the owner's cut records (R455). -/
def State.lockstep (s : State) (t : Nat) : Bool := s.treeBarred t && (s.tndTree t).startAt.isSome

/-! ### The computed maps (R150, R160) -/

/-- A record after a computation for frame n; the last grant of R146 is the newest that is not zero (log entry 16). -/
def AllocRec.granted (r : AllocRec) (n bpq : Nat) (g : GResult) : AllocRec :=
  let bytes := g.granted * bpq
  { r with
    lastQ := g.granted, leftOut := g.out, tagNa := g.tagNa, tagBe := g.tagBe, since := r.since + bytes
    recent := ((n, bytes) :: r.recent).take 16
    lastGrant := if bytes = 0 then r.lastGrant else bytes
    idle := if g.listed then 0 else r.idle + 1 }

/-- Counts n cases of R160 and raises the event once for them all. -/
def State.cases (s : State) (n : Nat) (k : Ctr) (e : Ev) (c : Nat) : State :=
  if n = 0 then s else (s.countBy k c n).raise e (dieOfChan c) c

/-- One channel's map enters the state: records, tags, counters, events, PLOAMu ages, arms (R149-R160). A record that the snapshot left
out takes no part: its tags follow V (R152), and the map grants it nothing (R170). GNT_CH_STAT keeps these figures until the next map is
computed, though a frame meanwhile carries an empty map: the spec does not say what it reports then (DESIGN CHOICE, log entry 92). -/
def State.mapDone (s : State) (n : Nat) (g : GChan) : State × List AllocStruct :=
  let c := g.chan
  let o := g.compute
  let bpq := fun k => ((g.allocs.find? (fun a => a.key = k)).map (·.bpq)).getD 1
  let s := o.results.foldl (fun s r => s.modRec r.key (fun a => a.granted n (bpq r.key) r)) s
  let s := { s with pon := { s.pon with
    vts := o.vt.foldl (fun t (v : Nat × Nat) => Tbl.setD t (c * 16 + v.1) 0 v.2) s.pon.vts } }
  let s := { s with pon := { s.pon with allocs := s.pon.allocs.map (fun (p : Nat × AllocRec) =>
    if s.recChan p.2 = c ∧ !(g.allocs.any (fun a => a.key = p.1)) then
      (p.1, { p.2 with
        tagNa := tagMax (s.vtime c 0 p.2.band) p.2.tagNa, tagBe := tagMax (s.vtime c 1 p.2.band) p.2.tagBe, lastQ := 0, leftOut := false })
    else p) } }
  let s := g.onus.foldl (fun s u => s.modOnu u.onu (fun x =>
    if x.chan ≠ c then x
    else if o.ploamus.contains u.onu then { x with ploamAge := 0, ploamReq := false } else { x with ploamAge := x.ploamAge + 1 })) s
  let s := s.cases o.allocCap .gntAllocCap .gntAllocCap c
  let s := if o.assuredShort = 0 then s
    else if g.quiet.isEmpty then s.cases o.assuredShort .gntAssuredShort .gntAssuredShort c
    else s.countBy .gntAssuredShort c o.assuredShort
  let s := (List.range o.packClip).foldl (fun s _ => s.cases 1 .gntPackClip .gntPackClip c) s
  let s := s.cases o.coopClip .gntCoopClip .gntCoopClip c
  let s := s.cases o.fixedShort .gntFixedShort .gntFixedShort c
  let s := (s.setFld .gntChStatAllocs c o.map.length).setFld .gntChStatIdleQ c o.idle
  s.armMap c n o.map

def execMapComputed (t : Tree) (s : State) : Host.Outcome State Fault Refusal :=
  let t := t.toNat
  match s.pon.calcs.find t with
  | some ⟨n, snap, none⟩ =>
    let r := snap.foldl (fun (acc : State × List (Nat × List AllocStruct)) g =>
      let m := acc.1.mapDone n g
      (m.1, acc.2 ++ [(g.chan, m.2)])) (s, [])
    .next { r.1 with pon := { r.1.pon with calcs := r.1.pon.calcs.put t ⟨n, snap, some r.2⟩ } }
  | _ => .next s

/-- R138: the computed maps are handed to the TCs. -/
def State.deliverMaps (s : State) (t : Nat) : State :=
  match s.pon.calcs.find t with
  | some ⟨n, _, some maps⟩ => maps.foldl (fun s m => s.setChan m.1 { s.chan m.1 with map := some (n, m.2) }) s
  | _ => s

/-! ### Burst-receiver reset and measurement pins (R62, R158) -/

/-- The instant of a quantum of an upstream frame at the receiver (R158); a standby's is the owner's plus the feeder's difference (R455). -/
def State.quantumTime (s : State) (c n : Nat) (q : Int) : Int :=
  (s.frameTime (treeOfChan c) n : Int) + nsSpan (s.tEq (treeOfChan c)) + q * frameSpan / (s.quanta c : Int) + s.feeder (treeOfChan c)

def State.expects (s : State) (c : Nat) : List Expect := Tbl.getD s.pon.expects c []

def State.setExpects (s : State) (c : Nat) (l : List Expect) : State :=
  { s with pon := { s.pon with expects := Tbl.setD s.pon.expects c [] l } }

/-- The quantum after a burst's last allocation. -/
def Expect.last (e : Expect) : Nat := (e.allocs.map (fun a => a.start + a.size)).foldl max 0

/-- The expected end of a burst (R62). -/
def State.burstEnd (s : State) (c : Nat) (e : Expect) : Int := s.quantumTime c e.frame e.last

/-- A burst is no longer awaited: the bursts behind it keep its expected end (R62). -/
def State.dropExpect (s : State) (c i : Nat) : State :=
  match (s.expects c)[i]? with
  | none => s
  | some e =>
    let end_ := max (s.burstEnd c e) e.after
    let l := s.expects c
    let s := s.setExpects c (l.take i ++ (l.drop (i + 1)).map (fun x => { x with after := max x.after end_ }))
    { s with pon := { s.pon with burstEnds := s.pon.burstEnds.put c (max end_ (Tbl.getD s.pon.burstEnds c 0)) } }

/-- The quiet window that an expected burst answers in, if any. -/
def State.windowOfBurst (s : State) (c : Nat) (e : Expect) : Option Window :=
  (s.windows c).find? (fun w => e.window && w.frame = e.frame && (match w.ranging with
    | some o => e.onu = some o && e.allocs.any (fun a => a.start = w.start)
    | none => e.onu.isNone))

/-- When BRX_RST_N is to fall for an expected burst, and whether it is squeezed (R62): rst_lead before the first preamble bit, but not
before the expected end of the previous burst; for a window, at its start (R207). -/
def State.resetFall (s : State) (c i : Nat) (e : Expect) : Nat × Bool :=
  match s.windowOfBurst c e with
  | some w => ((s.quantumTime c ((w.frame + 2 ^ 51 - w.j) % 2 ^ 51) 0).toNat, false)
  | none =>
    let fall := s.quantumTime c e.frame e.first - step02 (s.fld .gntPinCfgRstLead c)
    let prev := (((s.expects c).take i).map (s.burstEnd c)).foldl max e.after
    if fall < prev then (prev.toNat, true) else (fall.toNat, false)

def State.modExpect (s : State) (c i : Nat) (f : Expect → Expect) : State := s.setExpects c ((s.expects c).modify i f)

/-- The reset pulse of an expected burst, which leaves at an instant (R62, R158). -/
def State.driveReset (s : State) (c i : Nat) (e : Expect) (leaves : Nat) : State :=
  let f := s.resetFall c i e
  let s := (s.modExpect c i (fun e => { e with rstSent := true })).resetPulse c leaves
  if f.2 then s.report .gntRstSqueeze c .gntRstSqueeze (dieOfChan c) c else s

/-- R62: the reset of a burst that the receiver expects, once the die's time has reached its instant (R51, R55). -/
def execBrxRstPulse (c : Chan) (burst : BitVec 10) (s : State) : Host.Outcome State Fault Refusal :=
  let c := c.toNat
  let i := burst.toNat
  .next (match (s.expects c)[i]? with
    | some e =>
      if e.rstSent ∨ !shortReached (s.nowOn (dieOfChan c)) (shortOf (s.resetFall c i e).1) then s
      else s.driveReset c i e (s.resetFall c i e).1
    | none => s)

/-- When RSSI_TRG is to rise for an expected burst: rssi_ofs after its first preamble bit (R62). -/
def State.rssiRise (s : State) (c : Nat) (e : Expect) : Nat :=
  (s.quantumTime c e.frame e.first + step02 (s.fld .gntPinCfgRssiOfs c)).toNat

def State.driveRssi (s : State) (c i leaves : Nat) : State :=
  (s.modExpect c i (fun e => { e with rssiSent := true })).send
    (.pulse .rssiTrg c 1 leaves (step02 (s.fld .gntPinCfgRssiWidth c)))

/-- R62, R159: the measurement pulse of a flagged burst; a width of 0 never drives the pin (R63). -/
def execRssiTrigger (c : Chan) (burst : BitVec 10) (s : State) : Host.Outcome State Fault Refusal :=
  let c := c.toNat
  let i := burst.toNat
  .next (match (s.expects c)[i]? with
    | some e =>
      if !e.rssi ∨ e.rssiSent ∨ s.fld .gntPinCfgRssiWidth c = 0
          ∨ !shortReached (s.nowOn (dieOfChan c)) (shortOf (s.rssiRise c e)) then s
      else s.driveRssi c i (s.rssiRise c e)
    | none => s)

/-! ### Expert commit (R169) -/

/-- R169: an Alloc record write is refused: counted and raised. -/
def State.recReject (s : State) (die : Nat) : State := s.report .gntRecReject die .gntRecReject die 0

/-- What a record reads as through a GNT_ALC_* register (R168, R169). -/
def AllocRec.regWord (r : AllocRec) : Reg → Word
  | .gntAlcId => BitVec.ofNat 32 (r.onu * 2 ^ 16 + r.allocId)
  | .gntAlcCfg => BitVec.ofNat 32 (2 ^ 31 + r.profile * 2 ^ 29 + r.band * 2 ^ 26 + r.rpt * 2 ^ 24 + r.dbruIvl * 2 ^ 20 + r.weight)
  | .gntAlcFix => BitVec.ofNat 32 r.fixed
  | .gntAlcAsr => BitVec.ofNat 32 r.assured
  | .gntAlcNas => BitVec.ofNat 32 r.nonAssured
  | .gntAlcMax => BitVec.ofNat 32 r.max
  | _ => 0

/-- A staging register as a path meets it: what it has staged, else what the selected object holds, else the reset word (R509). -/
def State.stagedWord (s : State) (p : APath) (die : Nat) (r : Reg) (held : Option Word) : Word :=
  let i := copyInst die (apathCode p)
  if s.win.staged.has (regKey r i) then s.reg r i else held.getD (regReset r i)

/-- A GNT_ALC_* register as a path meets it: what it has staged, else the field of the record that its ALCSEL names (R164, R169, R509;
log entry 18). -/
def State.alcWord (s : State) (p : APath) (die : Nat) (r : Reg) : Word :=
  s.stagedWord p die r ((s.pon.allocs.find (recKey die (s.sel .alcsel die (apathCode p) % 16384))).map (fun a => a.regWord r))

/-- A written staging register: its word, as staged by the path. -/
def State.stageReg (s : State) (p : APath) (die : Nat) (r : Reg) (old data : Word) : State :=
  let i := copyInst die (apathCode p)
  let (s', w) := s.meetAs p die r i old data
  if s.mayRwc p die r.block then
    { s'.setReg r i w with win := { s'.win with staged := s'.win.staged.put (regKey r i) () } }
  else s'

/-- A path's staging of some registers has been applied. -/
def State.unstage (s : State) (p : APath) (die : Nat) (rs : List Reg) : State :=
  { s with win := { s.win with staged := rs.foldl (fun t r => t.del (regKey r (copyInst die (apathCode p)))) s.win.staged } }

def alcRegs : List Reg := [.gntAlcId, .gntAlcCfg, .gntAlcFix, .gntAlcAsr, .gntAlcNas, .gntAlcMax]

/-- The fields a commit applies, as parameters. -/
def State.stagedAlloc (s : State) (p : APath) (die : Nat) : AllocWords :=
  let w := fun (f : Fld) => BitVec.ofNat 32 (fieldOf f.lo f.w (s.alcWord p die f.reg))
  ⟨w .gntAlcFixRate, w .gntAlcAsrRate, w .gntAlcNasRate, w .gntAlcCfgWeight, w .gntAlcMaxRate, w .gntAlcCfgBand, w .gntAlcCfgRpt,
    w .gntAlcCfgDbruIvl, w .gntAlcCfgProfile⟩

/-- R145, R169: a write of 1 to GNT_ALC_COMMIT applies the staged fields to the record that ALCSEL names. -/
def State.commitAlloc (s : State) (p : APath) (die : Nat) (data : Word) : State :=
  if !data.getLsbD 0 then s
  else
    let k := recKey die (s.sel .alcsel die (apathCode p) % 16384)
    let fld := fun (f : Fld) => fieldOf f.lo f.w (s.alcWord p die f.reg)
    let o := fld .gntAlcIdOnu
    let a := fld .gntAlcIdAllocId
    let old := s.pon.allocs.find k
    let isDefault := fun (r : AllocRec) => ((s.onu r.onu).map (fun x => decide (x.onuId = r.allocId))).getD false
    let barred := fun (r : AllocRec) => s.expertBarred p r.tree
    if fld .gntAlcCfgValid = 0 then
      match old with
      | none => s.unstage p die alcRegs
      | some r =>
        if barred r then s.protectedWrite r.tree
        else if isDefault r then s.recReject die
        else ((s.unstage p die alcRegs).release r.tree 1 r.allocId).mirror r.tree
    else
      match s.onu o with
      | none => s.recReject die
      | some x =>
        let t := x.tree
        let same := old.any (fun r => r.tree = t && r.allocId = a)
        let kept := (old.filter (fun r => same && r.onu = o)).map (fun r => (r.withWords (s.stagedAlloc p die), r.band))
        let r := match kept with
          | some (r, band) => if r.band = band then r else s.freshTags r
          | none => s.freshTags ((newRec t o a 0).withWords (s.stagedAlloc p die))
        if s.expertBarred p t then s.protectedWrite t
        else if dieOfTree t ≠ die ∨ (!same ∧ (s.ident t 1 a).isSome) ∨ !s.prfValid (s.recChan r) r.profile ∨ !s.admits k r
            ∨ (old.isNone ∧ !s.allocRoom t) ∨ (old.any (fun q => isDefault q && !(same && q.onu == o))) then s.recReject die
        else
          let s := s.unstage p die alcRegs
          let s := match old with
            | some q => if same then s else
              let s := { s with pon := { s.pon with allocs := s.pon.allocs.del k } }
              s.release q.tree 1 q.allocId
            | none => s
          ((s.setIdent t 1 a (some (.bound o))).setRec k r).mirror t

def execGntAlcCommit (p : APath) (die : BitVec 2) (data : Word) (s : State) : Host.Outcome State Fault Refusal :=
  .next (s.commitAlloc p (2 + die.toNat) data)

end Sys2Proof.Machine
end

