-- ==== Sys2Proof/Machine/Bursts.lean ====
section
/-!
DEFINITION. Burst profiles and the burst receiver's settings (R172-R178, R189, R193-R198, R640).
-/

namespace Sys2Proof.Machine

/-! ### Profiles (R172-R174) -/

def popCount (w v : Nat) : Nat := (List.range w).countP (fun i => v.testBit i)

/-- The preamble as sent, most significant bit first: the 64-bit pattern repeated over so many bytes. -/
def preambleBits (pattern bytes : Nat) : Nat :=
  let copies := ceilDiv bytes 8
  ((List.range copies).foldl (fun acc _ => acc * 2 ^ 64 + pattern) 0) / 2 ^ (copies * 64 - bytes * 8)

/-- R173: the delimiter differs in at least 2 × tol + 1 bits from every window of its length in preamble and delimiter
but its own. -/
def delimiterOk (pattern preLen dlm dlmLen tol : Nat) : Bool :=
  let w := dlmLen * 8
  let seq := preambleBits pattern preLen * 2 ^ w + dlm % 2 ^ w
  (List.range (preLen * 8)).all (fun i => 2 * tol + 1 ≤ popCount w ((seq / 2 ^ (i + 1) % 2 ^ w) ^^^ (dlm % 2 ^ w)))

/-- R172, R173: a profile's fields lie within their ranges for the channel's mode, and its delimiter stands apart. -/
def profileOk (xgs : Bool) (rate pattern preLen dlm dlmLen tol : Nat) : Bool :=
  (if xgs then rate = 3 else rate < 3) && 192 ≤ preLen && preLen ≤ 1023 && (dlmLen = 4 || dlmLen = 8)
    && tol ≤ (if dlmLen = 4 then 3 else 8) && delimiterOk pattern preLen dlm dlmLen tol

/-- R173, R174, R193: TREE.PROFILE_SET; the reply is the overhead in quanta. -/
def execTreeProfileSet (h : Hdr) (chan index : Word) (p : ProfileWords) (s : State) : Host.Outcome State Fault Refusal :=
  .next (command h 0x0306 (.owner (dieOfChan (chan.toNat % 128))) (fun _ s =>
    let c := chan.toNat
    let i := prfInst c index.toNat
    if 127 < c ∨ 3 < index.toNat ∨ !flagOk p.fec
        ∨ !profileOk (s.xgs c) p.rate.toNat p.pre.toNat p.preLen.toNat p.dlm.toNat p.dlmLen.toNat p.tol.toNat then .fail s .badParam
    else s.onTree (treeOfChan c) [(dieOfChan c, .brx)] (
      if !s.profileFree c index.toNat then .fail s .busy
      else
        let s := ((s.setFld .brxPrfCfgRate i p.rate.toNat).setFld .brxPrfCfgFec i p.fec.toNat).setFlag .brxPrfCfgDlm8 i (p.dlmLen = 8)
        let s := ((s.setFld .brxPrfCfgTol i p.tol.toNat).setFld .brxPrfCfgPreLen i p.preLen.toNat).setFlag .brxPrfCfgValid i true
        let s := (s.setReg .brxPrfPreHi i (p.pre.extractLsb' 32 32)).setReg .brxPrfPreLo i (p.pre.extractLsb' 0 32)
        let s := (s.setReg .brxPrfDlmHi i (p.dlm.extractLsb' 32 32)).setReg .brxPrfDlmLo i (p.dlm.extractLsb' 0 32)
        .ok s [BitVec.ofNat 32 (s.ovhQ c index.toNat)])) s)

/-- BRX_PRFn_CFG as it reads: ovh_q follows the fields (R172, R195). -/
def State.prfWord (s : State) (c n : Nat) : Word := withField 10 9 (s.reg .brxPrfCfg (prfInst c n)) (s.ovhQ c n)

/-- R193: the profile's registers, then its overhead (log entry 8). -/
def execTreeProfileGet (h : Hdr) (chan index : Word) (s : State) : Host.Outcome State Fault Refusal :=
  .next (command h 0x0307 (.owner (dieOfChan (chan.toNat % 128))) (fun _ s =>
    let c := chan.toNat
    let i := prfInst c index.toNat
    if 127 < c ∨ 3 < index.toNat then .fail s .badParam
    else .ok s [s.prfWord c index.toNat, s.reg .brxPrfPreHi i, s.reg .brxPrfPreLo i, s.reg .brxPrfDlmHi i, s.reg .brxPrfDlmLo i,
      BitVec.ofNat 32 (s.ovhQ c index.toNat)]) s)

/-- A tolerance above 3 is reserved with a 4-byte delimiter (R172, R195): the field then keeps its value. -/
def legalTol (old w : Word) : Word × Bool :=
  if fldOf .brxPrfCfgDlm8 w = 0 ∧ 3 < fldOf .brxPrfCfgTol w then
    (withField 20 4 w (fldOf .brxPrfCfgTol old), true)
  else (w, false)

/-- R173, R174, R194, R195: a write of BRX_PRFn_CFG. Writing valid 1 applies the checks to the fields and patterns as they would stand,
though none changes; the profile of a valid Alloc record keeps every field. A refused write is counted and raised. -/
def State.writeProfile (s : State) (p : APath) (c n : Nat) (data : Word) : State :=
  let i := prfInst c n
  let die := dieOfChan c
  let old := s.reg .brxPrfCfg i
  if s.dieFused die then s
  else if s.expertBarred p (treeOfChan c) then s.protectedWrite (treeOfChan c)
  else
    let (s, w) := s.meet p die .brxPrfCfg i data
    let (w, bad) := legalTol old w
    let s := if bad then s.report .sysBadEnc 0 .sysBadEnc die 0 else s
    let f := fun x : Fld => fldOf x w
    let pair := fun hi lo => (s.reg hi i).toNat * 2 ^ 32 + (s.reg lo i).toNat
    let ok := f .brxPrfCfgValid = 0 || !s.mayRwc p die .brx || profileOk (s.xgs c) (f .brxPrfCfgRate) (pair .brxPrfPreHi .brxPrfPreLo)
      (f .brxPrfCfgPreLen) (pair .brxPrfDlmHi .brxPrfDlmLo) (if f .brxPrfCfgDlm8 = 1 then 8 else 4) (f .brxPrfCfgTol)
    if !ok ∨ (w ≠ old ∧ !s.profileFree c n) then s.report .brxPrfReject c .brxPrfReject die c
    else s.setReg .brxPrfCfg i w

def execBrxPrfValidWrite (p : APath) (c : Chan) (n : BitVec 2) (data : Word) (s : State) : Host.Outcome State Fault Refusal :=
  .next (s.writeProfile p c.toNat n.toNat data)

/-! ### Windows and status (R176, R193, R640) -/

/-- UI in a byte count's worth of quanta: 8 bits a byte (R142). -/
def State.guardUi (s : State) (c n : Nat) : Nat := s.fld .gntChCfgGuard c * s.prfBytes c n * 8

/-- R176: the half-window in force under a profile. -/
def State.winEff (s : State) (c n : Nat) : Nat := min (s.fld .brxChCfgWin c) (s.guardUi c n / 2)

/-- BRX_CH_STAT as it reads (R197): win_eff is that of profile 0, since the rule names no profile (DESIGN CHOICE, log entry 19). -/
def State.brxStat (s : State) (c : Nat) : Word := withField 12 10 (s.reg .brxChStat c) (s.winEff c 0)

/-- Which dies the forms of TREE.BRX_SET take (R640). -/
def brxSetRule (words : List Word) : DieRule :=
  match words with
  | 0 :: c :: _ => .owner (dieOfChan (c.toNat % 128))
  | 1 :: _ => .oneOf [2, 3, 4, 5]
  | _ => .oneOf (List.range 16)

def execTreeBrxSet (h : Hdr) (words : List Word) (s : State) : Host.Outcome State Fault Refusal :=
  .next (command h 0x0308 (brxSetRule words) (fun _ s =>
    match words with
    | [0, chan, win, tol] =>
      let c := chan.toNat
      if 127 < c ∨ win.toNat < 16 ∨ 1023 < win.toNat ∨ tol.toNat < 1 ∨ 255 < tol.toNat then .fail s .badParam
      else s.onTree (treeOfChan c) [(dieOfChan c, .brx)] (
        .ok ((s.setFld .brxChCfgWin c win.toNat).setFld .brxChCfgDriftTol c tol.toNat))
    | [1, timeout] =>
      let d := h.die.toNat
      if timeout.toNat < 1 ∨ 255 < timeout.toNat then .fail s .badParam
      else s.unlessClaimed [(d, .brx)] (.ok (s.setFld .brxRsmCfgTimeout d timeout.toNat))
    | _ => .fail s .badParam) s)

/-- The counters of R191, and whether one counts a line die's cases rather than a channel's (the order is log entry 8). -/
def brxCounters : List (Ctr × Bool) :=
  ([.brxBurstMiss, .brxDelimMiss, .brxDelimBiterr, .brxDrift, .lnpAcqLate, .brxHecBad, .brxHecCorr, .brxOnuMismatch, .brxFecUncorr,
    .brxFecCorr, .brxFecBits, .brxDbruBad, .brxPloamMic, .brxDlnLoss, .brxDlnAbandon, .brxXgemDrop, .brxPortBad, .brxKeyBad, .brxBipErr,
    .gntRptMiss].map (fun k => (k, false)))
  ++ [.brxRsmTimeout, .brxRsmSize, .brxRsmNobuf, .brxRsmTaint, .brxRsmFlush].map (fun k => (k, true))

/-- R193: BRX_CH_STAT, the counters, and index and last offset of each ONU placed on it (log entry 8). -/
def execTreeBrxStatus (h : Hdr) (chan : Word) (s : State) : Host.Outcome State Fault Refusal :=
  .next (command h 0x0309 (.owner (dieOfChan (chan.toNat % 128))) (fun _ s =>
    let c := chan.toNat
    if 127 < c then .fail s .badParam
    else
      let onus := s.pon.onus.filter (fun p => p.2.chan = c)
      .ok s (s.brxStat c :: brxCounters.flatMap (fun k => ctrWords (s.ctr k.1 (if k.2 then dieOfChan c else c)))
        ++ BitVec.ofNat 32 onus.length :: onus.flatMap (fun p => [BitVec.ofNat 32 p.1, BitVec.ofInt 32 p.2.lastOfs]))) s)

/-! ### Reassembly deadlines (R189) -/

/-- The channel whose upstream frames carry a port's ONU. -/
def State.portChan (s : State) (key : Nat) : Option Nat :=
  ((s.holder (key / 65536) 2 (key % 65536)).bind s.onu).map OnuSlot.chan

/-- R189: at an upstream frame start of a channel its open contexts past their deadline discard their partial SDUs. -/
def execRsmDeadlineCheck (c : Chan) (s : State) : Host.Outcome State Fault Refusal :=
  let c := c.toNat
  let late := s.pon.rsm.filter (fun p => s.portChan p.1 = some c && match p.2 with
    | .open_ _ d _ _ _ => reached (s.nowOn (dieOfChan c)) d
    | .discard => false)
  let die := dieOfChan c
  .next (late.foldl (fun s p =>
    (({ s with pon := { s.pon with rsm := s.pon.rsm.del p.1 } }.pmSdu (p.1 / 65536) (p.1 % 65536)).count .brxRsmTimeout die).raiseOnce .brxRsmTimeout die 0) s)

end Sys2Proof.Machine
end

