-- ==== Sys2Proof/Machine/Flags.lean ====
section
/-!
DEFINITION. The flags of the stitch sequencers (R526, R528). Z is set by a zero result and N by bit 31 of it. C is the carry
out of an addition; whether C after a subtraction or a compare stands for a borrow or for its absence is left open by the
spec, and so is C after the other operations: both are free (log entry 77). T is set and cleared by waits alone (R531).
-/

namespace Sys2Proof.Machine

/-- The carry out of an addition. -/
def carryOf (a b : Word) : Bool := 2 ^ 32 ≤ a.toNat + b.toNat

/-- C after a subtraction, by the convention the part has. -/
def borrowOf (a b : Word) : Bool := Config.borrowFlag (decide (a.toNat < b.toNat))

/-- A context with the flags of a result. -/
def SeqCtx.flags (x : SeqCtx) (r : Word) (c : Bool) : SeqCtx := { x with z := r = 0, n := r.getLsbD 31, c := c }

/-- The codes of cond (R528); none for a reserved one. -/
def SeqCtx.cond (x : SeqCtx) (k : Nat) : Option Bool :=
  match k with
  | 0 => some true
  | 1 => some x.z
  | 2 => some !x.z
  | 3 => some x.c
  | 4 => some !x.c
  | 5 => some x.n
  | 6 => some !x.n
  | 7 => some x.t
  | 8 => some !x.t
  | _ => none

end Sys2Proof.Machine
end

