-- ==== Sys2Proof/Machine/Segments.lean ====
section
/-!
DEFINITION. What the cipher clusters do with a PON item (R411, R412): the counter block, payload under it, and the integrity codes of
PLOAM and OMCI messages.
-/

namespace Sys2Proof.Machine

/-- The egress number of the look-aside jobs, which no port or channel has. -/
def jobEgress : Nat := 255

/-! ### PON payload (R411) -/

/-- The counter block of G.9804.2 for a block of 16 bytes at a place in the frame with a superframe count. -/
def ponCounter (count block : Nat) : Nat := Config.standard 61 [count, block] % 2 ^ 128

/-- A block of keystream: AES-128 of the counter block. -/
def ponKeystream (key count block : Nat) : Nat := Config.standard 62 [key, ponCounter count block] % 2 ^ 128

/-- Byte i of a payload that starts at a byte of the frame, under the keystream of its block; the first byte of a block is the most
significant one. -/
def ponByte (key count start i : Nat) (b : Byte) : Byte :=
  let at_ := start + i
  b ^^^ BitVec.ofNat 8 (ponKeystream key count (at_ / 16) / 2 ^ (8 * (15 - at_ % 16)))

/-- Bytes known of a payload, enciphered or deciphered. -/
def ponBytes (key count start : Nat) (bs : List Byte) : List Byte := bs.mapIdx (ponByte key count start)

/-- The payload of an XGEM frame as enciphered, as one number: the keystream over its bytes from the frame's place on, which depends
on the key, the count, the place, the frame it is cut from and how much of it. -/
def ponSealed (key count start : Nat) (frame sent len : Nat) : Nat :=
  Config.standard 63 (frame :: sent :: len :: (List.range (ceilDiv (start % 16 + len) 16)).map (fun i => ponKeystream key count (start / 16 + i)))

/-! ### Integrity of PLOAM messages (R113, R412) -/

/-- The 64-bit MIC of a message: AES-CMAC under a PLOAM integrity key. -/
def ploamMic (key : Nat) (words : List Nat) : Nat := Config.standard 64 (key :: words) % 2 ^ 64

/-- The 32-bit MIC of an OMCI message: AES-CMAC under an OMCI integrity key. -/
def omciMic (key frame len : Nat) : Nat := Config.standard 65 [key, frame, len] % 2 ^ 32

/-- A default of the recommendation's integrity keys (R419): 2 OMCI, 3 PLOAM. -/
def State.defaultKey (s : State) (onu which : Nat) : Nat :=
  Config.standard 66 [which, ((s.pon.onus.find onu).map (fun x => x.serial)).getD 0] % 2 ^ 128

/-- The PLOAM (3) or OMCI (2) integrity key in force for an ONU: that derived from its MSK, else the default (R419, R426). -/
def State.integrityKey (s : State) (onu which : Nat) : Nat :=
  let kind := if which = 3 then KeyKind.ploamIk else KeyKind.omciIk
  match s.vault.find? (fun k => decide (k.2.kind = kind) && k.2.owner == onu) with
  | some (_, k) => k.value
  | none => s.defaultKey onu which

end Sys2Proof.Machine
end

