-- ==== Sys2Proof/Machine/HostQueue.lean ====
section
/-!
DEFINITION. Queue 0x3_FFFE and the host pool (R326, R330, R346), the trap ring (R481), and where a complete upstream SDU
goes (R190).
-/

namespace Sys2Proof.Machine

def State.fwdOf (s : State) (half : Nat) : Fwd := Tbl.getD s.fwd half Fwd.empty
def State.setFwd (s : State) (half : Nat) (x : Fwd) : State := { s with fwd := Tbl.setD s.fwd half Fwd.empty x }
def State.storeOf (s : State) (half : Nat) : Store := Tbl.getD s.store half Store.empty
def State.setStore (s : State) (half : Nat) (x : Store) : State := { s with store := Tbl.setD s.store half Store.empty x }

/-- A head joins the heads that wait for the pipelines of its half. -/
def State.pushHead (s : State) (x : Head) : State :=
  let f := s.fwdOf x.half
  let x := { x with arrived := s.elapsed }
  s.setFwd x.half (if x.up then { f with upHeads := f.upHeads ++ [x] } else { f with downHeads := f.downHeads ++ [x] })

def cellsOf (len : Nat) : Nat := ceilDiv len 256

/-- Sizes of a half's pools in cells; CST_POOL_CFG counts 64 cells (R326). -/
def State.hostPool (s : State) (half : Nat) : Nat := s.fld .cstPoolCfgHost half * 64
def State.rsmPool (s : State) (half : Nat) : Nat := s.fld .cstPoolCfgRsm half * 64
def State.ingPool (s : State) (half : Nat) : Nat := s.fld .cstPoolCfgIng half * 64

/-- One of each flooded frame's copies that wait for a half's admission, where none has been admitted there yet (R327, R333). -/
def Store.waiting (x : Store) : List Head :=
  let inQueues := x.queues.flatMap (fun q => q.2.frames.filterMap (fun f => f.item.group))
  ((x.repl.filter (fun c => !((c.2.group.map inQueues.contains).getD false))).foldl
    (fun (acc : List (Option Nat) × List Head) c =>
      if acc.1.contains c.2.group then acc else (c.2.group :: acc.1, acc.2 ++ [c.2.head])) ([], [])).2

/-- Heads of a half between their first pass and their admission, in it or in the other half (R328): recirculating, on their way over the
bridge, waiting for an admission, or waiting as flood copies. -/
def State.passing (s : State) (half : Nat) : List Head :=
  (s.fwdOf half).recirc.flatMap (fun p => p.2.map (·.head))
  ++ ([s.storeOf half, s.storeOf (1 - half)].flatMap (fun st =>
        st.bridge.map (fun x => x.2.head) ++ st.own.map (fun x => x.2.2.head) ++ st.waiting)).filter (fun x => x.half = half)

/-- Cells of the heads of a pool on their way to admission: those the host injected, or those of a direction (R326). -/
def State.onTheWay (s : State) (half : Nat) (sel : Head → Bool) : Nat :=
  let f := s.fwdOf half
  sumOn ((f.upHeads ++ f.downHeads ++ f.injected.flatMap Prod.snd ++ s.passing half).filter sel) (fun x => cellsOf x.frame.len)

/-- Cells of a half's host pool in use: frames waiting for the trap ring, and injected frames. -/
def State.hostUsed (s : State) (half : Nat) : Nat :=
  sumOn (s.laosh.trapWait.filter (fun x => x.half = half)) (fun x => cellsOf x.frame.len) + s.onTheWay half (·.injected)

/-- A trap goes into the trap ring's next slot (R481). -/
def State.postTrap (s : State) (x : Trap) : State :=
  let slot := s.fld .lshRingPtrDev 2
  let ph := s.fld .lshRingPtrPhase 2
  let s := { s with laosh := { s.laosh with trapSlots := s.laosh.trapSlots ++ [(slot, ph, x)] } }
  (s.ringStep 2).raise .lshTrap 0 0

def State.trapRoom (s : State) : Bool :=
  s.flag .lshRingCfgEn 2 && s.laosh.linkUp && s.laosh.trapSlots.length < s.ringSize 2

/-- Frames in the host pool are posted while the trap ring has room. -/
def State.flushTraps : Nat → State → State
  | 0, s => s
  | n + 1, s =>
    match s.laosh.trapWait with
    | [] => s
    | x :: rest =>
      if s.trapRoom then State.flushTraps n ({ s with laosh := { s.laosh with trapWait := rest } }.postTrap x) else s

/-- A frame for queue 0x3_FFFE (R330): accepted from the host pool, else dropped, counted, raised once per half per
frame (R346). -/
def State.toHost (s : State) (x : Trap) : State :=
  if s.hostPool x.half < s.hostUsed x.half + cellsOf x.frame.len then (s.count .qmHostDrop x.half).raiseOnce .qmHostDrop x.half 0
  else
    let s := { s with laosh := { s.laosh with trapWait := s.laosh.trapWait ++ [x] } }
    s.flushTraps s.laosh.trapWait.length

/-- Cells of a half's ingress pool in use (R326). -/
def State.ingUsed (s : State) (half : Nat) : Nat := s.onTheWay half (fun x => !x.up && !x.injected)

/-- Cells of a half's reassembly pool in use (R326): open contexts, complete SDUs on their way, SDUs held for reordering. -/
def State.rsmUsed (s : State) (half : Nat) : Nat :=
  sumOn (s.pon.rsm.filter (fun p => halfOfTree (p.1 / 65536) = half)) (fun p => match p.2 with
    | .open_ len _ _ _ _ => cellsOf len
    | .discard => 0)
  + s.onTheWay half (fun x => x.up && !x.injected)
  + sumOn (s.skeinOnus.filter (fun p => p.2.skein / 32 = half)) (fun p =>
      sumOn (p.2.held.filter (·.inPool)) (fun h => cellsOf h.frame.len))
  + sumOn (s.skewOut.filter (fun x => x.2.1 / 32 = half && x.2.2.inPool)) (fun x => cellsOf x.2.2.frame.len)

/-- A port is the management port of an ONU on a channel's tree, which has the ONU-ID's number (R201). -/
def State.managementPort (s : State) (c o port : Nat) : Bool := s.holder (treeOfChan c) 0 port = some o

/-- R190: a complete SDU from a channel, checked for size, goes from the management port to the host, its integrity checked (R412),
and from any other port to an upstream pipeline of the half, also one of an ONU released since. Beyond a UCIe link that is down nothing is
delivered (R16). -/
def State.deliverSdu (s : State) (c o port : Nat) (f : Frame) (mic : Bool) : State :=
  let die := dieOfChan c
  let half := halfOfChan c
  let chan := ((s.onu o).map OnuSlot.chan).getD c
  let s := s.carry die .brx chan f.len
  if s.linkCut die then s
  else if s.managementPort c o port then
    if mic then s.toHost ⟨7, f, true, chan, o, port, shortOf s.now, 0, 0, half⟩
    else s.report .cphOmciMic die .cphOmciMic die o
  else s.pushHead ⟨half, true, chan, o, port, f, none, .whole, 0, false⟩

end Sys2Proof.Machine
end

