-- ==== Sys2Proof/Machine/Skeins.lean ====
section
/-!
DEFINITION. Skeins and constant-rate tributaries (R237-R263).
-/

namespace Sys2Proof.Machine

/-! ### Forming and joining (R237-R240) -/

def skeinDie (k : Nat) : Nat := dieOfTree (k / 2 % 32)

/-- The member channels of a skein, by wavelength. -/
def State.skeinChans (s : State) (k : Nat) : List Nat :=
  ((List.range 4).filter (fun w => (s.fld .sknCfgMembers k).testBit w)).map (· + 4 * (k / 2))

/-- An ONU whose join to a skein has completed (R238, R241). -/
def State.skeinJoin (s : State) (o : Nat) : Option SkeinOnu := (s.skeinOnus.find o).filter (fun j => j.joining.isNone)

def State.skeinJoined (s : State) (k : Nat) : Bool := s.skeinOnus.any (fun p => p.2.skein = k)

def State.onSkein (s : State) (k : Nat) (body : Res) : Res :=
  if 63 < k ∨ !s.flag .sknCfgValid k then .fail s .badParam else s.onTree (k / 2) [(skeinDie k, .skn)] body

/-- R237: SKEIN.FORM; the reply is the skein number. -/
def execSkeinForm (h : Hdr) (tree k members skewMax holdKib : Word) (s : State) : Host.Outcome State Fault Refusal :=
  .next (command h 0x0600 (.owner (dieOfTree (tree.toNat % 32))) (fun _ s =>
    let t := tree.toNat
    let n := 2 * t + k.toNat
    let ws := (List.range 4).filter (fun w => members.toNat.testBit w)
    let cs := ws.map (· + 4 * t)
    if 31 < t ∨ 1 < k.toNat ∨ 15 < members.toNat ∨ ws.length < 2 ∨ skewMax.toNat < 1 ∨ 250 < skewMax.toNat
        ∨ holdKib.toNat < 1 ∨ 65535 < holdKib.toNat ∨ cs.any (fun c => s.xgs c ≠ s.xgs (cs.headD 0))
        ∨ cs.any (fun c => (s.skeinOf c).isSome) then .fail s .badParam
    else s.onTree t [(dieOfTree t, .skn)] (
      if !s.hasSegment (halfOfTree t) 1 then .fail s .noRoom
      else if s.flag .sknCfgValid n ∨ (s.onusOf t).any (fun p => cs.contains p.2.chan) then .fail s .busy
      else
        let s := ((s.setFld .sknCfgMembers n members.toNat).setFld .sknCfgSkewMax n skewMax.toNat).setFld .sknCfgHoldKib n holdKib.toNat
        .ok (s.setFlag .sknCfgValid n true) [BitVec.ofNat 32 n])) s)

/-- R240: SKEIN.DISSOLVE. -/
def execSkeinDissolve (h : Hdr) (skein : Word) (s : State) : Host.Outcome State Fault Refusal :=
  .next (command h 0x0601 (.owner (skeinDie skein.toNat)) (fun _ s =>
    let k := skein.toNat
    s.onSkein k (
      if s.skeinJoined k then .fail s .busy
      else
        let s := { s with memberDown := s.memberDown.filter (fun p => decide (p.1 / 4 ≠ k)) }
        .ok ((s.setFlag .sknCfgValid k false).setFld .sknCfgMembers k 0))) s)

/-- A member channel is up (R246): enabled, its PON lanes neither off nor in FAULT, its reference present. -/
def State.memberUp (s : State) (c : Nat) : Bool :=
  let laneOk := fun f => s.laneState f c != 0 && s.laneState f c != 4
  s.flag .pchCfgEnable c && laneOk 0 && laneOk 1 && s.pin .refclkPon (c / 32) = 1

/-- R238: the ranging window of a member, with X the anchor's round trip and rdr 0. -/
def State.bookMember (s : State) (o c : Nat) (rt : Int) : State :=
  let teq := (s.tEq (treeOfChan c) : Int) * 16
  s.book c 2 (some o) (windowOf (s.quanta c) (s.snQuanta c) (teq - rt + 16000 - 560000) (rt + 16000 + 560000 - teq))

/-- R238: SKEIN.ONU_JOIN of an ONU in OPERATION on a member channel, which is its anchor. -/
def execSkeinOnuJoin (h : Hdr) (onu skein : Word) (s : State) : Host.Outcome State Fault Refusal :=
  .next (command h 0x0602 (s.onuRule onu.toNat) (fun caller s =>
    let k := skein.toNat
    let o := onu.toNat
    s.onOnu o (fun x =>
      if 63 < k ∨ !s.flag .sknCfgValid k ∨ ¬ (s.skeinChans k).contains x.chan then .fail s .badParam
      else if x.phase ≠ .operation ∨ x.migration.isSome ∨ s.skeinOnus.has o ∨ !s.launched x.tree ∨ s.asyncFull then .fail s .busy
      else
        let rt := (s.tEq x.tree : Int) * 16 - 560000 - x.eqd
        let others := (s.skeinChans k).filter (fun c => c ≠ x.chan && s.memberUp c)
        let s := others.foldl (fun s c => s.bookMember o c rt) s
        ⟨{ s with skeinOnus := s.skeinOnus.put o ⟨k, x.wl, [(x.wl, x.eqd)], 0, none, [], some caller, []⟩ }, .accepted, [], false⟩) [.act, .skn]) s)

/-- A window's last quantum at the receiver is over. -/
def State.windowOver (s : State) (c : Nat) (w : Window) : Bool :=
  decide (s.windowOpens c w + w.len * frameSpan / s.quanta c ≤ s.elapsed)

/-- R210, R211: a round trip is one that a tree's reach on a channel allows. -/
def State.withinReach (s : State) (c : Nat) (rt : Int) : Bool :=
  let t := treeOfChan c
  decide ((s.rtd c (s.fld .actTreeCfgMinReach t) : Int) * 16 - 16000 ≤ rt) && decide (rt ≤ (s.rtd c (s.fld .actTreeCfgMaxReach t) : Int) * 16 + 16000)

/-- R238: member ranging ends, every member having answered or its window being over: each member that answered within reach (R211) has its
EqD, which a Ranging_Time carries to the ONU on it (R210); one that failed is left out, counted and raised. The arrivals are in 1/16 ns
after the frame start of each member's grant. -/
def execSkeinJoinDone (onu : Onu) (arrivals : List (BitVec 2 × BitVec 32)) (s : State) : Host.Outcome State Fault Refusal :=
  let o := onu.toNat
  match s.onu o, s.skeinOnus.find o with
  | some x, some j =>
    match j.joining with
    | none => .next s
    | some caller =>
      let others := (s.skeinChans j.skein).filter (fun c => c ≠ 4 * x.tree + j.anchor)
      let open_ := fun c => (s.windows c).any (fun w => w.ranging = some o && !s.windowOver c w) && !arrivals.any (fun a => a.1.toNat = c % 4)
      if others.any open_ then .next s else
      let r := others.foldl (fun (acc : State × List (Nat × Nat)) c =>
        let s := acc.1
        let w := (s.windows c).find? (fun w => w.ranging = some o)
        let a := arrivals.find? (fun a => a.1.toNat = c % 4)
        let s' := s.setWindows c ((s.windows c).filter (fun w => w.ranging ≠ some o))
        match w, a with
        | some w, some a =>
          let rt := roundTrip (s.quanta c) w.start a.2.toNat
          let eqd := unsignedOf 32 ((s.tEq x.tree : Int) * 16 - 560000 - rt)
          if s.withinReach c rt then (s'.sendEqd c x.onuId eqd, acc.2 ++ [(c % 4, eqd)])
          else (s'.report .sknRngFail j.skein .sknRngFail (dieOfTree x.tree) o, acc.2)
        | _, _ => (s'.report .sknRngFail j.skein .sknRngFail (dieOfTree x.tree) o, acc.2)) (s, j.members)
      let s := { r.1 with skeinOnus := r.1.skeinOnus.put o { j with members := sortOn (·.1) r.2, joining := none } }
      .next (s.answer caller .ok ((sortOn (·.1) r.2).flatMap (fun m => [BitVec.ofNat 32 m.1, BitVec.ofNat 32 m.2])))
  | _, _ => .next s

/-! ### Upstream order (R243, R244) -/

/-- n − e of two sequence numbers, signed modulo 2^24. -/
def seqDiff (n e : Nat) : Int := signedOf 24 ((n + 2 ^ 24 - e % 2 ^ 24) % 2 ^ 24)

/-- An SDU held leaves for its pipeline; one in the HBM region is read back under SKEW (R244). While SKEW makes the read wait the SDU
waits, and those delivered after it for its ONU behind it (R35, R258). -/
def State.letGo (s : State) (o : Nat) (k : Nat) (x : SkeinHeld) : State :=
  let half := k / 32
  if s.skewOut.any (fun y => y.1 = o) then { s with skewOut := s.skewOut ++ [(o, k, x)] }
  else if x.inPool then s.deliverSdu (2 * k) o x.port x.frame x.mic
  else
    let (s, ok) := s.serve half (s.skewRation half) (hbmSpan x.frame.len)
    if ok then s.deliverSdu (2 * k) o x.port x.frame x.mic else { s with skewOut := s.skewOut ++ [(o, k, x)] }

/-- release(): SDUs held at the expected number are delivered in turn. -/
def State.releaseHeld (s : State) (o : Nat) : Nat → State
  | 0 => s
  | n + 1 =>
    match s.skeinOnus.find o with
    | none => s
    | some j =>
      match j.held.find? (fun x => some x.seq = j.upSeq) with
      | none => s
      | some x =>
        let j := { j with held := j.held.filter (fun y => decide (y.seq ≠ x.seq)), upSeq := j.upSeq.map (fun e => (e + 1) % 2 ^ 24) }
        State.releaseHeld (({ s with skeinOnus := s.skeinOnus.put o j }.letGo o j.skein x).pmBlocks 2 j.skein 1 0) o n

/-- The lowest held SDU by its distance from the expected number. -/
def SkeinOnu.lowest (j : SkeinOnu) : Option SkeinHeld :=
  (sortOn (fun x : SkeinHeld => (seqDiff x.seq (j.upSeq.getD 0)).toNat) j.held).head?

/-- Bytes that a skein holds in the pool, or in its HBM region; those that wait to be written to the region count there. -/
def State.skeinHeldBytes (s : State) (k : Nat) (pool : Bool) : Nat :=
  let mine := fun (h : SkeinHeld) => (h.inPool && !h.spill) = pool
  sumOn (s.skeinOnus.filter (fun p => p.2.skein = k)) (fun p => sumOn (p.2.held.filter mine) (fun h => h.frame.len))
    + sumOn (s.skewOut.filter (fun x => x.2.1 = k && mine x.2.2)) (fun x => x.2.2.frame.len)

/-- R244: the HBM region holds skew_max times the sum of the member rates: 6,220.8 or 1,244.16 bytes a µs each. -/
def State.skeinRegion (s : State) (k : Nat) : Nat :=
  s.fld .sknCfgSkewMax k * sumOn (s.skeinChans k) (fun c => if s.xgs c then 124416 else 622080) / 100

/-- The frame of a skein's and of a tributary's events: that of its tree. -/
def State.skeinFrame (s : State) (k : Nat) : Nat := s.treeCount (k / 2)
def State.tribFrame (s : State) (i : Nat) : Nat :=
  s.treeCount (((((s.tribs.find i).map (·.onu)).bind s.onu).map (·.tree)).getD 0)

/-- R244, R258: SDUs that wait in the pool are written to the HBM region, oldest first, while SKEW lets them. -/
def State.spillHeld (s : State) (half : Nat) : State :=
  s.skeinOnus.foldl (fun s p =>
    if p.2.skein / 32 ≠ half then s
    else (p.2.held.filter (·.spill)).foldl (fun s x =>
      let (s, ok) := s.serve half (s.skewRation half) (hbmSpan x.frame.len)
      if ok then { s with skeinOnus := s.skeinOnus.modify p.1 (fun j => { j with held := j.held.map (fun y =>
        if y.seq = x.seq then { y with inPool := false, spill := false } else y) }) } else s) s) s

/-- R258: SDUs that wait to be read back, or behind one that does, leave in order while SKEW lets them. -/
def State.readHeld (s : State) (half : Nat) : State :=
  s.skewOut.foldl (fun s x =>
    if x.2.1 / 32 = half then s.letGo x.1 x.2.1 x.2.2 else { s with skewOut := s.skewOut ++ [x] }) { s with skewOut := [] }

/-- R244: an SDU is held in the pool, or in the skein's HBM region while it has room; while SKEW is spent it waits in the pool. -/
def State.hold (s : State) (k port n : Nat) (f : Frame) (mic : Bool) (keep : State → SkeinHeld → State) : State :=
  let half := k / 32
  let x := fun pool spill => (⟨n, f, port, s.elapsed, pool, mic, spill⟩ : SkeinHeld)
  if s.skeinHeldBytes k true + f.len ≤ s.fld .sknCfgHoldKib k * 1024 then keep s (x true false)
  else if s.skeinRegion k < s.skeinHeldBytes k false + f.len then s.report .sknHoldFull k .sknHoldFull (skeinDie k) k
  else
    let s := s.spillHeld half
    let (s, ok) := s.serve half (s.skewRation half) (hbmSpan f.len)
    if ok then keep s (x false false)
    else if s.rsmPool half < s.rsmUsed half + cellsOf f.len then s.report .brxRsmNobuf (skeinDie k) .brxRsmNobuf (skeinDie k) k
    else keep s (x true true)

/-- R243: an SDU of a joined ONU with its tag: delivered, held, or discarded as late. R258: a tag whose type is not 0xA. -/
def State.skeinRx (s : State) (o port : Nat) (f : Frame) (tag : Nat) (mic : Bool) (j : SkeinOnu) : State :=
  let k := j.skein
  let die := skeinDie k
  let n := tag % 2 ^ 24
  if tag / 2 ^ 28 ≠ 0xA then (s.count .sknTagBad k).raiseOnceIn (s.skeinFrame k) .sknTagBad die k k
  else
    let e := j.upSeq.getD n
    let d := seqDiff n e
    if d < 0 then ((s.count .sknLate k).pmBlocks 2 k 1 1).raiseOnceIn (s.skeinFrame k) .sknLate die k k
    else if d = 0 then
      let s := { s with skeinOnus := s.skeinOnus.put o { j with upSeq := some ((e + 1) % 2 ^ 24) } }
      ((s.letGo o k ⟨n, f, port, s.elapsed, true, mic, false⟩).pmBlocks 2 k 1 0).releaseHeld o (j.held.length + 1)
    else
      s.hold k port n f mic (fun s x =>
        { s with skeinOnus := s.skeinOnus.put o { j with upSeq := some e, held := j.held ++ [x] } })

/-- R243: the lowest held SDU has waited skew_max: the gap is skipped, counted, raised once per skein per frame. -/
def execSkeinGapExpiry (onu : Onu) (s : State) : Host.Outcome State Fault Refusal :=
  let o := onu.toNat
  match s.skeinOnus.find o with
  | none => .next s
  | some j =>
    match j.lowest with
    | none => .next s
    | some x =>
      if s.elapsed < x.arrival + usSpan (s.fld .sknCfgSkewMax j.skein) then .next s
      else
        let gap := (seqDiff x.seq (j.upSeq.getD x.seq)).toNat
        let s := { s with skeinOnus := s.skeinOnus.put o { j with upSeq := some x.seq } }.pmBlocks 2 j.skein gap gap
        .next (((s.count .sknGap j.skein).raiseOnceIn (s.skeinFrame j.skein) .sknGap (skeinDie j.skein) j.skein j.skein).releaseHeld o (j.held.length + 1))

/-- R240: an ONU returns to its anchor: held SDUs are delivered in sequence order at once, its Alloc-IDs move back at
the next cutoff. -/
def State.skeinLeave (s : State) (o : Nat) (j : SkeinOnu) : State :=
  let held := sortOn (fun x : SkeinHeld => (seqDiff x.seq (j.upSeq.getD 0)).toNat) j.held
  let s := { s with
    skeinOnus := s.skeinOnus.del o
    pon := { s.pon with allocs := s.pon.allocs.map (fun p =>
      if p.2.onu = o then (p.1, { p.2 with moveTo := p.2.member.map (fun _ => j.anchor) }) else p) } }
  held.foldl (fun s x => s.letGo o j.skein x) s

def execSkeinOnuLeave (h : Hdr) (onu : Word) (s : State) : Host.Outcome State Fault Refusal :=
  .next (command h 0x0603 (s.onuRule onu.toNat) (fun _ s =>
    s.onOnu onu.toNat (fun _ =>
      match s.skeinOnus.find onu.toNat with
      | none => .fail s .badParam
      | some j => if j.joining.isSome then .fail s .busy else .ok (s.skeinLeave onu.toNat j)) [.act, .skn, .gnt]) s)

/-- R239: SKEIN.ALLOC_MEMBER, in force from the next cutoff. -/
def execSkeinAllocMember (h : Hdr) (onu allocId member : Word) (s : State) : Host.Outcome State Fault Refusal :=
  .next (command h 0x0604 (s.onuRule onu.toNat) (fun _ s =>
    s.onOnu onu.toNat (fun x =>
      match s.skeinOnus.find onu.toNat, s.recOf x.tree allocId.toNat with
      | some j, some (k, r) =>
        let w := member.toNat
        if r.onu ≠ onu.toNat ∨ !(j.members.any (fun m => m.1 = w)) ∨ !s.prfValid (4 * x.tree + w) r.profile then .fail s .badParam
        else if !s.admits k { r with moveTo := some w } then .fail s .noRoom
        else .ok (s.modRec k (fun r => { r with moveTo := some w }))
      | _, _ => .fail s .badParam) [.act, .skn, .gnt]) s)

/-- R259: members and which are down, joined ONUs, held bytes, counters (log entry 8). -/
def execSkeinStatus (h : Hdr) (skein : Word) (s : State) : Host.Outcome State Fault Refusal :=
  .next (command h 0x0605 (.owner (skeinDie skein.toNat)) (fun _ s =>
    let k := skein.toNat
    if 63 < k then .fail s .badParam
    else
      let down := sumOn (List.range 4) (fun w => if s.memberDown.has (4 * k + w) then 2 ^ w else 0)
      let onus := (s.skeinOnus.filter (fun p => p.2.skein = k)).map (fun p => BitVec.ofNat 32 p.1)
      .ok s ([s.reg .sknCfg k, BitVec.ofNat 32 down] ++ listWords onus
        ++ [BitVec.ofNat 32 (s.skeinHeldBytes k true + s.skeinHeldBytes k false)]
        ++ [Ctr.sknRngFail, .sknLate, .sknGap, .sknHoldFull, .sknFragSplit, .sknMemberDown, .sknTagBad].flatMap (fun c => ctrWords (s.ctr c k)))) s)

/-- R246: at a cutoff a member that is down leaves the member sets, and one that is up again returns. -/
def State.skeinCutoff (s : State) (t : Nat) : State :=
  ([2 * t, 2 * t + 1].filter (fun k => s.flag .sknCfgValid k)).foldl (fun s k =>
    (s.skeinChans k).foldl (fun s c =>
      if s.memberUp c then { s with memberDown := s.memberDown.del (4 * k + c % 4) } else s.memberGone c) s) s

/-- R242: the member that takes a joined ONU's next SDU: of those up, the one whose TC input buffer holds the fewest bytes
by its line rate, the lowest wavelength first. -/
def State.skeinMember (s : State) (j : SkeinOnu) : Option Nat :=
  let up := j.members.filter (fun m => !s.memberDown.has (4 * j.skein + m.1) && s.memberUp (4 * (j.skein / 2) + m.1))
  let cs := up.map (fun m => 4 * (j.skein / 2) + m.1)
  let load := fun c => sumOn (s.chan c).tc (fun x => x.frame.len - x.sent) * (if s.xgs c then 5 else 1)
  (sortOn load cs).head?

/-! ### Tributaries (R247-R257) -/

def State.setTrib (s : State) (i : Nat) (x : Trib) : State := { s with tribs := s.tribs.put i x }

/-- The peer is told of a tributary of a protected tree (R453). -/
def State.mirrorTrib (s : State) (i : Nat) : State :=
  match (s.tribs.find i).bind (fun x => s.onu x.onu) with
  | some o => s.mirror o.tree
  | none => s

/-- Bits in a store. -/
def bitsOf (l : List BitRun) : Nat := sumOn l (·.bits)

/-- So many bits leave a store, oldest first: what is left, and how many of them were all-ones in place of missing data. -/
def takeBits : List BitRun → Nat → List BitRun × Nat
  | [], _ => ([], 0)
  | r :: l, n =>
    if n = 0 then (r :: l, 0)
    else if r.bits ≤ n then
      let t := takeBits l (n - r.bits)
      (t.1, t.2 + if r.ones then r.bits else 0)
    else ({ r with bits := r.bits - n } :: l, if r.ones then n else 0)

/-- Fill of the elastic store in bits. -/
def Trib.fill (x : Trib) : Nat := bitsOf x.elastic

/-- The first so many bits of a store. -/
def firstBits : List BitRun → Nat → List BitRun
  | [], _ => []
  | r :: l, n => if n = 0 then [] else if r.bits ≤ n then r :: firstBits l (n - r.bits) else [{ r with bits := n }]

/-- How many bits of a store are all-ones in place of missing data. -/
def onesOf (l : List BitRun) : Nat := sumOn l (fun r => if r.ones then r.bits else 0)

/-- The elastic store midway between its watermarks, with nothing of the client's in it (log entry 51). -/
def centred (wl wh : Nat) : List BitRun := [⟨(wl + wh) / 2, true, 0⟩]

/-- Members of a tributary. -/
def Trib.count (x : Trib) : Nat := max 1 x.members.length

/-- Bytes of the data area (R248), of the cuts between its segments, and of one member's container with its header (R255). -/
def areaBytes (nd q : Nat) : Nat := ceilDiv (nd + q) 8
def segStep (nd q count : Nat) : Nat := ceilDiv (areaBytes nd q) count
/-- R255: the bytes of segment m: ceil(area ÷ count), the last one shorter. -/
def segBytes (nd q count m : Nat) : Nat := if m + 1 < count then segStep nd q count else areaBytes nd q - (count - 1) * segStep nd q count
def memberBytes (nd q count m : Nat) : Nat := 4 + segBytes nd q count m

/-- XGEM bytes of an SDU: headers and padding included (R116, R254). -/
def xgemBytes (n pli : Nat) : Nat := n / pli * (8 + pad4_ pli) + (if n % pli = 0 then 0 else 8 + pad4_ (n % pli))
where pad4_ (k : Nat) : Nat := ceilDiv k 4 * 4

/-- The store allotted to a tributary in the line die's 2 MiB (R250). -/
def allotted (wh nd q : Nat) : Nat := ceilDiv (ceilDiv (wh + nd + q) 8) 64 * 64

/-- The checks of R247, R250 and R251 on a tributary's numbers. -/
def tribNumbersOk (nd q ppm wl wh : Nat) : Bool :=
  193 ≤ nd && nd ≤ 1289063 && 1 ≤ q && q ≤ 1024 && q ≤ nd && 1 ≤ ppm && ppm ≤ 200 && nd + q ≤ wl && 2 * q ≤ wh - wl
    && ceilDiv (2 * nd * ppm) 1000000 ≤ q

/-- The index of a wavelength among a tributary's members (R255). -/
def Trib.index (x : Trib) (wl : Nat) : Nat := (x.members.takeWhile (fun m => m.1 != wl)).length

/-- R254, R255: each member's container fits 5/8 of its frame both ways, and its Alloc-ID's fixed bandwidth carries it. -/
def State.tribCarried (s : State) (t : Nat) (members : List (Nat × Nat)) (nd q : Nat) : Bool :=
  members.zipIdx.all (fun (m, n) =>
    let c := 4 * t + m.1
    let bytes := xgemBytes (memberBytes nd q members.length n) (s.fld .pchCfgMaxPli c)
    match s.recOf t m.2 with
    | some (_, r) =>
      8 * bytes ≤ 5 * (if s.xgs c then 155520 else 777600) && 8 * bytes ≤ 5 * (s.quanta c * s.prfBytes c r.profile) && bytes ≤ r.fixed
    | none => false)

def State.tribRoom (s : State) (i wh nd q : Nat) : Bool :=
  sumOn (s.tribs.filter (fun p => p.1 / 256 = i / 256 && p.1 != i)) (fun p => allotted p.2.wh p.2.nd p.2.q) + allotted wh nd q ≤ 2 ^ 21

/-- The member wavelengths of a carrier word (log entry 51): bit 31 a skein, else a channel. -/
def State.carrierMembers (s : State) (o : Nat) (carrier : Word) : Option (Option Nat × List Nat) :=
  match s.onu o with
  | none => none
  | some x =>
    let n := carrier.toNat % 2 ^ 31
    if carrier.getLsbD 31 then
      match s.skeinOnus.find o with
      | some j => if j.skein = n ∧ j.joining.isNone then some (some n, j.members.map Prod.fst) else none
      | none => none
    else if n = x.chan then some (none, [x.wl]) else none

/-- R252: the payload sizes of a cadence pseudowire and of SAToP. -/
def pwPayloadOk (cadence : Bool) (payload : Nat) : Bool :=
  if cadence then 1 ≤ payload && payload ≤ 8192 else 32 ≤ payload && payload ≤ 1440

/-- R250-R255: SKEIN.TRIB_SET. -/
def execSkeinTribSet (h : Hdr) (trib onu port carrier : Word) (allocIds : List Word) (w : TribWords) (s : State) :
    Host.Outcome State Fault Refusal :=
  .next (command h 0x0606 (.owner (2 + trib.toNat / 256)) (fun _ s =>
    let i := trib.toNat
    let o := onu.toNat
    match s.onu o, s.carrierMembers o carrier with
    | some x, some (k, ws) =>
      let t := x.tree
      let kind : Option Nat := (s.pon.ports.find (t * 65536 + port.toNat)).map (fun (p : PonPort) => p.kind)
      let members := ws.zip (allocIds.map (·.toNat))
      let nd := w.nd.toNat
      let membersOk : Bool := members.all (fun m => ((s.recOf t m.2).map (fun (r : Nat × AllocRec) => decide (r.2.onu = o ∧ s.recChan r.2 = 4 * t + m.1))).getD false)
      let cadence : Bool := w.kind = 1
      if 1023 < i ∨ dieOfTree t ≠ 2 + i / 256 ∨ s.holder t 2 port.toNat ≠ some o ∨ (kind ≠ some 0 ∧ kind ≠ some 1)
          ∨ ws.length ≠ allocIds.length ∨ !membersOk
          ∨ !tribNumbersOk nd w.q.toNat w.ppm.toNat w.wl.toNat w.wh.toNat ∨ 1 < w.kind.toNat ∨ 65535 < w.udp.toNat
          ∨ cadence = decide (nd ≤ 5625) ∨ !pwPayloadOk cadence w.payload.toNat
          ∨ w.playout.toNat < 125000 ∨ 1000000000 < w.playout.toNat ∨ !s.tribCarried t members nd w.q.toNat then .fail s .badParam
      else s.onTree t [(dieOfTree t, .cad)] (
        if s.tribs.has i then .fail s .busy
        else if !s.hasSegment (halfOfTree t) 1 ∨ !s.tribRoom i w.wh.toNat nd w.q.toNat then .fail s .noRoom
        else .ok (s.setTrib i
          { onu := o, port := port.toNat, skein := k, members := members, nd := nd, q := w.q.toNat, ppm := w.ppm.toNat
            wl := w.wl.toNat, wh := w.wh.toNat, cadence := cadence, udp := w.udp.toNat, payload := w.payload.toNat
            playout := w.playout.toNat, elastic := centred w.wl.toNat w.wh.toNat, slipped := false, down := false, lostRun := 0, goodRun := 0
            csf := false, csfRx := false, jc := 0, jcRx := 0, mfi := 0, aligning := [], seqRx := none, seqTx := 0, plays := []
            upBits := [], pwEvent := none, inbox := [], lossRx := false, built := none }))
    | _, _ => .fail s .badParam) s)

/-- R257: SKEIN.TRIB_CLEAR. Clearing a tributary that is not valid has no effect. -/
def execSkeinTribClear (h : Hdr) (trib : Word) (s : State) : Host.Outcome State Fault Refusal :=
  .next (command h 0x0607 (.owner (2 + trib.toNat / 256)) (fun _ s =>
    let i := trib.toNat
    if 1023 < i then .fail s .badParam
    else
      let gone := Res.ok { s with tribs := s.tribs.del i }
      match ((s.tribs.find i).bind (fun x => s.onu x.onu)).map (·.tree) with
      | some t => s.onTree t [(2 + i / 256, .cad)] gone
      | none => s.unlessClaimed [(2 + i / 256, .cad)] gone) s)

/-- CAD_TRIB_STAT as it reads (R263). -/
def State.tribStat (s : State) (i : Nat) : Word :=
  match s.tribs.find i with
  | some x => BitVec.ofNat 32 (x.mfi * 2 ^ 24 + x.jc * 2 ^ 22 + x.jcRx * 2 ^ 20 + x.down.toNat * 2 ^ 19 + x.csfRx.toNat * 2 ^ 18)
  | none => 0

def execSkeinTribStatus (h : Hdr) (trib : Word) (s : State) : Host.Outcome State Fault Refusal :=
  .next (command h 0x0608 (.owner (2 + trib.toNat / 256)) (fun _ s =>
    let i := trib.toNat
    if 1023 < i then .fail s .badParam
    else .ok s ([s.tribStat i, BitVec.ofNat 32 (((s.tribs.find i).map (·.fill)).getD 0)]
      ++ [Ctr.cadJcBad, .cadSlip, .cadPwLate, .cadPwLost, .cadContLost, .cadMemberLoss, .cadDlnLoss, .cadDlnAbandon].flatMap
        (fun c => ctrWords (s.ctr c i)))) s)

def execSkeinDlnSet (h : Hdr) (trib delta alpha : Word) (s : State) : Host.Outcome State Fault Refusal :=
  .next (command h 0x0609 (.owner (2 + trib.toNat / 256)) (fun _ s =>
    let i := trib.toNat
    if 1023 < i ∨ delta.toNat < 1 ∨ 7 < delta.toNat ∨ alpha.toNat < 1 ∨ 15 < alpha.toNat then .fail s .badParam
    else s.unlessClaimed [(2 + i / 256, .cad)] (
      .ok (((s.setFld .cadDlnCfgDelta i delta.toNat).setFld .cadDlnCfgAlpha i alpha.toNat).mirrorTrib i))) s)

/-! #### Downstream (R250, R253) -/

/-- R258: the elastic store is recentred between its watermarks, counted and raised; the frame carries all-ones. -/
def State.slip (s : State) (i : Nat) (x : Trib) : State :=
  (s.setTrib i { x with elastic := centred x.wl x.wh, slipped := true }).report .cadSlip i .cadSlip (2 + i / 256) i

/-- Bits enter the elastic store; past its allotment it slips. -/
def State.intoStore (s : State) (i : Nat) (x : Trib) (run : BitRun) : State :=
  if 8 * allotted x.wh x.nd x.q < x.fill + run.bits then s.slip i x else s.setTrib i { x with elastic := x.elastic ++ [run] }

/-- R250: the code by the fill. -/
def Trib.code (x : Trib) : Nat := if x.wh < x.fill then 1 else if x.fill < x.wl then 2 else 0

def Trib.codeBits (x : Trib) (jc : Nat) : Nat := if jc = 1 then x.nd + x.q else if jc = 2 then x.nd - x.q else x.nd

/-- R250: a tributary's container is built for a frame, for the first member that sends its part: the code by the fill, csf while the
client has failed or the tributary is down; a store that cannot fill it slips and the frame carries all-ones. -/
def State.buildContainer (s : State) (i count : Nat) : State :=
  match s.tribs.find i with
  | none => s
  | some x =>
    if (x.built.map (fun b => b.count)) = some count then s
    else
      let jc := x.code
      let bits := x.codeBits jc
      let x := { x with jc := jc, mfi := count % 256 }
      let s := if x.fill < bits then s.slip i x
        else s.setTrib i { x with elastic := (takeBits x.elastic bits).1 }
      match s.tribs.find i with
      | none => s
      | some y =>
        let data := if y.slipped ∨ x.down then [⟨bits, true, 0⟩] else firstBits x.elastic bits
        s.setTrib i { y with slipped := false, built := some ⟨count, jc, x.csf || x.down, data⟩ }

/-- The 4 header bytes of member m's container (R248, R255). -/
def Trib.header (x : Trib) (b : TribFrame) (m : Nat) : Nat :=
  b.jc * (2 ^ 30 + 2 ^ 28 + 2 ^ 26) + b.csf.toNat * 2 ^ 25 + b.count % 256 * 2 ^ 16 + m * 2 ^ 14 + (x.count - 1) * 2 ^ 12

/-- What member m of the frame's container carries: the bytes of its segment, and the client bits in it, which lead the data area (R248). -/
def Trib.segment (x : Trib) (b : TribFrame) (m : Nat) : Nat × List BitRun :=
  let first := 8 * m * segStep x.nd x.q x.count
  let area := segBytes x.nd x.q x.count m
  (area, firstBits (takeBits b.data first).1 (8 * area))

/-- EV_CAD_PW at most once per tributary in 8,000 frames (R253). -/
def State.pwEvent (s : State) (i : Nat) : State :=
  match s.tribs.find i with
  | none => s
  | some x =>
    let due := match x.pwEvent with
      | some e => decide (e + 8000 * frameSpan ≤ s.elapsed)
      | none => true
    if due then (s.setTrib i { x with pwEvent := some s.elapsed }).raise .cadPw (2 + i / 256) i else s

/-- R253: the oldest pseudowire packet that the scheduler has served, with what its header says: late ones are discarded and counted, gaps
counted; all-ones stand for missing data. Either has the device send R until a packet is in sequence and in time (R252; log entry 51). -/
def execPseudowireRx (trib : BitVec 10) (seq : BitVec 16) (stamp : Word) (bytes : BitVec 14) (l : Bool) (s : State) :
    Host.Outcome State Fault Refusal :=
  let i := trib.toNat
  match s.tribs.find i with
  | none => .next s
  | some x =>
    if x.inbox.isEmpty then .next s else
    let bits := 8 * bytes.toNat
    let ahead := (signedOf 32 ((stamp.toNat + 2 ^ 32 - shortOf (s.nowOn (2 + i / 256))) % 2 ^ 32) + x.playout : Int)
    let missing := match x.seqRx with
      | some e => let d := signedOf 16 ((seq.toNat + 2 ^ 16 - e) % 2 ^ 16); if 0 < d then d.toNat else 0
      | none => 0
    let at_ := (s.elapsed + ahead * nsUnit).toNat
    let late := decide (ahead < 0)
    let plays := x.plays ++ (if missing = 0 then [] else [⟨at_, missing * bits, true⟩]) ++ [⟨if late then s.elapsed else at_, bits, late⟩]
    let s := s.setTrib i { x with
      seqRx := some ((seq.toNat + 1) % 2 ^ 16), csf := l, plays := plays, inbox := x.inbox.tail, lossRx := late || missing != 0 }
    let s := if missing = 0 then s else (s.count .cadPwLost i).pwEvent i
    .next (if late then (s.count .cadPwLate i).pwEvent i else s)

/-- R253: the playout instant of the oldest data waiting: it enters the elastic store. -/
def execPlayout (trib : BitVec 10) (s : State) : Host.Outcome State Fault Refusal :=
  let i := trib.toNat
  .next (match s.tribs.find i with
    | some x => match x.plays with
      | p :: rest => if p.at_ ≤ s.elapsed then s.intoStore i { x with plays := rest } ⟨p.bits, p.filler, 0⟩ else s
      | [] => s
    | none => s)

/-! #### Upstream (R249, R254, R256) -/

/-- R249: the code that two copies carry; none where no two agree or the majority is invalid. -/
def majority (a b c : Nat) : Option Nat :=
  let m := if a = b ∨ a = c then some a else if b = c then some b else none
  match m with
  | some 3 => none
  | m => m

/-- R254: received client bits leave in pseudowire packets of the payload size, each stamped as its first bit is, with L while the source
failed or the tributary is down and R after a loss (R252). The head crosses to the core die (R16). -/
def State.sendPackets (s : State) (i : Nat) : Nat → State
  | 0 => s
  | n + 1 =>
    match s.tribs.find i with
    | none => s
    | some x =>
      if bitsOf x.upBits < 8 * x.payload then s
      else
        let chan := ((s.onu x.onu).map OnuSlot.chan).getD 0
        let stamp := ((x.upBits.head?).map (·.at_)).getD 0
        let (rest, ones) := takeBits x.upBits (8 * x.payload)
        let s := s.setTrib i { x with upBits := rest, seqTx := (x.seqTx + 1) % 2 ^ 16 }
        let s := s.send (.pseudowire i x.seqTx (x.csfRx || x.down) x.lossRx stamp x.payload ones)
        let head : Head := ⟨halfOfChan chan, true, chan, x.onu, x.port, { name := 2 ^ 32 + i, len := x.payload }, none, .whole, 0, false⟩
        State.sendPackets (if s.linkCut (2 + i / 256) then s else s.pushHead head) i n

/-- Client bits of a frame's container go out, all-ones while the tributary is down. -/
def State.emitBits (s : State) (i : Nat) (runs : List BitRun) : State :=
  match s.tribs.find i with
  | none => s
  | some x =>
    (s.setTrib i { x with upBits := x.upBits ++ runs.map (fun r => { r with ones := r.ones || x.down }) }).sendPackets i (bitsOf runs / 8 + 1)

/-- The client bits of a joined container: each member's share of them, stamped as its container is (R248, R255). -/
def Trib.joinedBits (x : Trib) (a : Aligning) : List BitRun :=
  let bits := x.codeBits a.jc
  (sortOn (·.1) a.members).map (fun m =>
    let first := 8 * m.1 * segStep x.nd x.q x.count
    ⟨min (8 * segBytes x.nd x.q x.count m.1) (bits - first), false, m.2⟩)

/-- R256, R257: a joined container is complete: its bits go out; 8 in a row bring a tributary that is down up again. -/
def State.joined (s : State) (i : Nat) (a : Aligning) : State :=
  match s.tribs.find i with
  | none => s
  | some x =>
    let good := x.goodRun + 1
    let x := { x with
      jcRx := a.jc, csfRx := a.csf, lostRun := 0, goodRun := good, down := x.down && good < 8
      aligning := x.aligning.filter (fun b => decide (b.mfi ≠ a.mfi)) }
    ((s.setTrib i x).pmBlocks 3 i 1 0).emitBits i (x.joinedBits a)

/-- The EqD that a tributary's ONU has on a member, in ns (R238, R254). -/
def State.tribEqd (s : State) (x : Trib) (wl : Nat) : Nat :=
  match (s.skeinOnus.find x.onu).bind (fun j => j.members.find? (fun m => m.1 = wl)) with
  | some m => m.2 / 16
  | none => ((s.onu x.onu).map (fun o => o.eqd / 16)).getD 0

/-- R256, R258: a member container that waits is written to the alignment store, to be read back when it is joined, once SKEW lets it; with
every member present the container is joined. One of a single member needs no store. -/
def State.alignStep (s : State) (i : Nat) (mfi : Nat) : State :=
  match s.tribs.find i with
  | none => s
  | some x =>
    match x.aligning.find? (fun a => a.mfi = mfi) with
    | none => s
    | some a =>
      let half := i / 512
      let (s, a) := a.waiting.foldl (fun (acc : State × Aligning) m =>
        let (s, ok) := if x.count = 1 then (acc.1, true)
          else acc.1.serve half (acc.1.skewRation half) (hbmSpan (2 * memberBytes x.nd x.q x.count m.1))
        (s, if ok then { acc.2 with members := acc.2.members ++ [m], waiting := acc.2.waiting.filter (fun y => y.1 != m.1) } else acc.2)) (s, a)
      let s := s.setTrib i { x with aligning := x.aligning.map (fun b => if b.mfi = mfi then a else b) }
      if x.count ≤ a.members.length then s.joined i a else s

/-- The containers that the alignment store holds per member (R256). -/
def State.alignRoom (s : State) (x : Trib) : Nat := ceilDiv ((x.skein.map (s.fld .sknCfgSkewMax)).getD 0) 125 + 1

/-- R249, R256: a member container with its header, from a channel: the code is decided by value; it joins those with equal mfi. Where the
alignment store holds its fill of the member's containers it is missing (DEDUCED, log entry 51). -/
def State.containerRx (s : State) (i c header : Nat) : State :=
  match s.tribs.find i with
  | none => s
  | some x =>
    let f := fun lo w => header / 2 ^ lo % 2 ^ w
    let (s, jc) := match majority (f 30 2) (f 28 2) (f 26 2) with
      | some j => (s, j)
      | none => (((s.count .cadJcBad i).pmBlocks 3 i 0 1).raiseOnceIn (s.tribFrame i) .cadJcBad (2 + i / 256) i i, 0)
    let mfi := f 16 8
    let n := f 14 2
    let m := (n, (shortOf (s.nowOn (2 + i / 256)) + 2 ^ 32 - s.tribEqd x (c % 4) % 2 ^ 32) % 2 ^ 32)
    let has := fun (a : Aligning) => a.members.any (fun y => y.1 = n) || a.waiting.any (fun y => y.1 = n)
    if s.alignRoom x ≤ (x.aligning.filter (fun a => a.mfi != mfi && has a)).length then s
    else
      let a : Aligning := match x.aligning.find? (fun a => a.mfi = mfi) with
        | some a => { a with
            members := a.members.filter (fun y => y.1 != n), waiting := a.waiting.filter (fun y => y.1 != n) ++ [m], csf := a.csf || f 25 1 = 1 }
        | none => ⟨mfi, s.elapsed, [], [m], jc, f 25 1 = 1⟩
      (s.setTrib i { x with aligning := x.aligning.filter (fun b => decide (b.mfi ≠ mfi)) ++ [a] }).alignStep i mfi

/-- R258: what waits for SKEW on a half goes on: SDUs to be read back, SDUs to be written, member containers. -/
def State.skewServe (s : State) (half : Nat) : State :=
  let s := (s.readHeld half).spillHeld half
  s.tribs.foldl (fun s p =>
    if p.1 / 512 = half then (p.2.aligning.filter (fun a => !a.waiting.isEmpty)).foldl (fun s a => s.alignStep p.1 a.mfi) s else s) s

/-- A tributary's container with an mfi is lost once skew_max has passed since its first member arrived; one of which no member has
arrived is lost when the command says so (R256). -/
def State.overdue (s : State) (x : Trib) (mfi : Nat) : Bool :=
  match x.aligning.find? (fun a => a.mfi = mfi) with
  | some a => decide (a.first + usSpan ((x.skein.map (s.fld .sknCfgSkewMax)).getD 0) ≤ s.elapsed)
  | none => true

/-- R256: a container is lost: all-ones for nd bits, counted, raised once per tributary per frame; 8 in a row take the tributary down
(R257). -/
def execContainerLost (trib : BitVec 10) (mfi : BitVec 8) (s : State) : Host.Outcome State Fault Refusal :=
  let i := trib.toNat
  match s.tribs.find i with
  | none => .next s
  | some x =>
    if !s.overdue x mfi.toNat then .next s
    else
      let s := s.setTrib i { x with
        aligning := x.aligning.filter (fun a => decide (a.mfi ≠ mfi.toNat)), lostRun := x.lostRun + 1, goodRun := 0 }
      let s := (((s.count .cadContLost i).pmBlocks 3 i 1 1).raiseOnceIn (s.tribFrame i) .cadContLost (2 + i / 256) i i).emitBits i
        [⟨x.nd, true, shortOf (s.nowOn (2 + i / 256))⟩]
      .next (if 7 ≤ x.lostRun then s.tribDown i else s)

/-! #### Expert commit (R260) -/

/-- What a tributary reads as through a CAD_TRIB_* register (R262). -/
def Trib.regWord (x : Trib) : Reg → Word
  | .cadTribCfg => BitVec.ofNat 32 (2 ^ 31 + x.cadence.toNat * 2 ^ 30 + x.ppm * 2 ^ 21 + x.nd)
  | .cadTribQ => BitVec.ofNat 32 x.q
  | .cadTribWl => BitVec.ofNat 32 x.wl
  | .cadTribWh => BitVec.ofNat 32 x.wh
  | _ => 0

/-- A CAD_TRIB_* register as a path meets it: what it has staged, else the field of the tributary that its TRSEL names (R260, R509;
log entry 18). -/
def State.tribWord (s : State) (p : APath) (die : Nat) (r : Reg) : Word :=
  s.stagedWord p die r ((s.tribs.find ((die - 2) * 256 + s.sel .trsel die (apathCode p) % 256)).map (fun x => x.regWord r))

def tribRegs : List Reg := [.cadTribCfg, .cadTribQ, .cadTribWl, .cadTribWh]

/-- R260: the staged CAD_TRIB_* fields apply with the checks of R250 to R255, or the commit is refused. A tributary that
no command has bound has no Alloc-IDs to carry it. -/
def State.commitTrib (s : State) (p : APath) (i : Nat) (data : Word) : State :=
  let die := 2 + i / 256
  let refuse := s.report .cadCfgReject die .cadCfgReject die i
  let fld := fun (f : Fld) => fieldOf f.lo f.w (s.tribWord p die f.reg)
  let valid := fld .cadTribCfgValid = 1
  if !data.getLsbD 0 then s
  else match s.tribs.find i with
    | none => if valid then refuse else s.unstage p die tribRegs
    | some x =>
      let t := ((s.onu x.onu).map (·.tree)).getD 0
      if s.expertBarred p t then s.protectedWrite t
      else if !valid then ({ s with tribs := s.tribs.del i }.unstage p die tribRegs).mirror t
      else
        let nd := fld .cadTribCfgNd
        let q := fld .cadTribQQ
        let ppm := fld .cadTribCfgPpm
        let wl := (s.tribWord p die .cadTribWl).toNat
        let wh := (s.tribWord p die .cadTribWh).toNat
        let cadence := fld .cadTribCfgPw = 1
        if !tribNumbersOk nd q ppm wl wh ∨ (cadence = decide (nd ≤ 5625)) ∨ !s.tribRoom i wh nd q
            ∨ !s.tribCarried t x.members nd q ∨ !pwPayloadOk cadence x.payload then refuse
        else ((s.setTrib i { x with nd := nd, q := q, ppm := ppm, wl := wl, wh := wh, cadence := cadence }).unstage p die tribRegs).mirror t

def execCadTribCommit (p : APath) (trib : BitVec 10) (data : Word) (s : State) : Host.Outcome State Fault Refusal :=
  .next (s.commitTrib p trib.toNat data)

end Sys2Proof.Machine
end

