-- ==== Sys2Proof/Machine/Parser.lean ====
section
/-!
DEFINITION. The header graph, the length checks and the parsed fields (R265-R268, R273). A half's parser reads its die's
PRS_CFG, its programmable types (PRS_HDR) and its programmable edges.
-/

namespace Sys2Proof.Machine

/-! ### Bytes of a frame -/

/-- A field of `w` bits that starts `bit` bits after the top of a byte (log entry 55). -/
def Frame.bits (f : Frame) (off bit w : Nat) : Nat := f.be off 4 / 2 ^ (32 - bit - w) % 2 ^ w

/-! ### Header types: the fixed ones in the order of R265 (log entry 55) -/

def tEth : Nat := 0
def tVlan : Nat := 1
def tPppoe : Nat := 2
def tMpls : Nat := 3
def tIp4 : Nat := 4
def tIp6 : Nat := 5
def tUdp : Nat := 6
def tGre : Nat := 7
def tVxlan : Nat := 8
def tTcp : Nat := 9
def tPtp : Nat := 10
def tLaosh : Nat := 11
def tExt : Nat := 12

/-- What the parser leaves of a head: the fields of the outermost header of each kind (log entry 56), the flags of R273,
bytes past the end IP declares, the fragment's key and place, and each header reached with its offset. -/
structure Parsed where
  dmac : Option Nat := none
  smac : Option Nat := none
  vlans : List Nat := []
  ethertype : Nat := 0
  mpls : List Nat := []
  v4 : Option (Nat × Nat) := none
  v6 : Option (Nat × Nat) := none
  proto : Nat := 0
  dscp : Nat := 0
  ecn : Nat := 0
  ttl : Nat := 0
  ports : Nat := 0
  tcpFlags : Nat := 0
  vni : Nat := 0
  ptp : Option (Nat × Nat) := none
  wins : Tbl (Nat × Nat) := []
  depth : Bool := false
  conflict : Bool := false
  options : Bool := false
  trailer : Nat := 0
  frag : Option (List Nat × Nat × Bool) := none
  laosh : Bool := false
  starts : List (Nat × Nat) := []

/-- The walk's place: the end of what may be read (R268), what R265 limits by count, the IP headers passed, bytes of the IP payload from
here on, and the TPID that led here. -/
structure Walk where
  off : Nat
  typ : Nat
  stop : Nat
  ips : Nat := 0
  vlans : Nat := 0
  labels : Nat := 0
  exts : Nat := 0
  ipLeft : Option Nat := none
  proto : Nat := 0
  tpid : Nat := 0

/-- A programmable type as PRS_HDR words hold it (R266, log entry 55). -/
structure HdrDef where
  fixed : Nat
  varying : Bool
  const : Nat
  mult : Nat
  byte : Nat
  bit : Nat
  width : Nat
  hasNext : Bool
  nByte : Nat
  nBit : Nat
  nWidth : Nat
  win0 : Nat
  win1 : Nat

def State.hdrDef (s : State) (die typ : Nat) : Option HdrDef :=
  let w := fun n => s.reg .prsHdr ((die * 128 + typ) * 128 + n)
  if (w 0).getLsbD 31 then
    some ⟨fieldOf 0 7 (w 0), (w 0).getLsbD 30, fieldOf 24 6 (w 0), fieldOf 22 2 (w 0), fieldOf 16 6 (w 0),
      fieldOf 13 3 (w 0), fieldOf 9 4 (w 0), (w 1).getLsbD 31, fieldOf 24 6 (w 1), fieldOf 16 3 (w 1), fieldOf 0 5 (w 1),
      fieldOf 0 7 (w 2), fieldOf 16 7 (w 2)⟩
  else none

def multOf (m : Nat) : Nat := if m = 0 then 1 else if m = 1 then 4 else 8

def HdrDef.length (d : HdrDef) (f : Frame) (off : Nat) : Nat :=
  if d.varying then f.bits (off + d.byte) d.bit d.width * multOf d.mult + d.const else d.fixed

/-- The edge a header's next-type value takes: enabled programmable edges by ascending index first (R266). -/
def State.edgeFrom (s : State) (die typ v : Nat) (fixed : Option Nat) : Option Nat :=
  match (s.fwdOf die).edges.find? (fun e => e.2.en && e.2.from_ = typ && (v &&& e.2.mask) = (e.2.value &&& e.2.mask)) with
  | some e => some e.2.to_
  | none => fixed

def etherNext (v : Nat) : Option Nat :=
  if v = 0x8100 ∨ v = 0x88A8 ∨ v = 0x9100 then some tVlan
  else if v = 0x8864 then some tPppoe
  else if v = 0x8847 ∨ v = 0x8848 then some tMpls
  else if v = 0x0800 then some tIp4
  else if v = 0x86DD then some tIp6
  else if v = 0x88F7 then some tPtp
  else if v = 0x88B5 then some tLaosh
  else none

def protoNext (v : Nat) : Option Nat :=
  if v = 6 then some tTcp else if v = 17 then some tUdp else if v = 47 then some tGre else none

def nextHdrNext (v : Nat) : Option Nat := if v = 0 ∨ v = 43 ∨ v = 44 ∨ v = 60 then some tExt else protoNext v

def nibbleNext (v : Nat) : Option Nat := if v = 4 then some tIp4 else if v = 6 then some tIp6 else none

/-- Bytes of a header before its options. -/
def minLength (typ : Nat) : Nat :=
  if typ = tEth then 14 else if typ = tVlan ∨ typ = tMpls ∨ typ = tGre then 4
  else if typ = tPppoe ∨ typ = tUdp ∨ typ = tVxlan ∨ typ = tExt then 8
  else if typ = tIp4 ∨ typ = tTcp then 20 else if typ = tIp6 then 40 else if typ = tPtp then 34 else 0

/-- A header's whole length as its own fields give it. -/
def State.hdrLength (s : State) (die : Nat) (f : Frame) (w : Walk) : Nat :=
  let typ := w.typ
  let off := w.off
  if 64 ≤ typ then ((s.hdrDef die typ).map (fun d => d.length f off)).getD 0
  else if typ = tIp4 then max 20 (4 * (f.byte off % 16))
  else if typ = tTcp then max 20 (4 * (f.byte (off + 12) / 16))
  else if typ = tExt then (if w.proto = 44 then 8 else 8 + 8 * f.byte (off + 1))
  else if typ = tGre then
    let fl := f.byte off
    4 + 4 * (fl / 128 % 2) + 4 * (fl / 32 % 2) + 4 * (fl / 16 % 2)
  else minLength typ

/-- The counts of R265 are used up for this type. -/
def Walk.tooMany (w : Walk) : Bool :=
  (w.typ = tVlan && 3 ≤ w.vlans) || (w.typ = tMpls && 6 ≤ w.labels) || (w.typ = tExt && 4 ≤ w.exts)

/-- Header length fields against the `left` bytes that follow (R268): IPv4, IPv6 and PPPoE against the frame up to the end an IP header
declares, UDP and TCP against the IP payload. A length field that the frame ends before is not read. -/
def lengthConflict (f : Frame) (typ off left : Nat) (ipLeft : Option Nat) : Bool :=
  let past := fun (n : Nat) => ipLeft.any (fun l => decide (l < n))
  if typ = tIp4 then
    let ihl := f.byte off % 16
    let total := f.be (off + 2) 2
    ihl < 5 || total < 4 * ihl || left < total
  else if typ = tIp6 then 6 ≤ left && left - 40 < f.be (off + 4) 2
  else if typ = tUdp then past 8 || (6 ≤ left && (f.be (off + 4) 2 < 8 || past (f.be (off + 4) 2)))
  else if typ = tTcp then 13 ≤ left && past (4 * (f.byte (off + 12) / 16))
  else if typ = tPppoe then 6 ≤ left && left - 6 < f.be (off + 4) 2
  else false

/-- The fields a header adds: the outermost of its kind stands; the extension headers of the outermost IPv6 header alone give the final
next header and a fragment's key. An IPv6 packet of offset 0 with no more fragments is no fragment (R270). -/
def Parsed.take (p : Parsed) (f : Frame) (w : Walk) (left : Nat) (d : Option HdrDef) : Parsed :=
  let off := w.off
  let firstIp := p.v4.isNone && p.v6.isNone
  if w.typ = tEth then
    { p with dmac := some (p.dmac.getD (f.be off 6)), smac := some (p.smac.getD (f.be (off + 6) 6)), ethertype := f.be (off + 12) 2 }
  else if w.typ = tVlan then { p with vlans := p.vlans ++ [w.tpid * 65536 + f.be off 2], ethertype := f.be (off + 2) 2 }
  else if w.typ = tMpls then { p with mpls := p.mpls ++ [f.be off 4] }
  else if w.typ = tIp4 then
    if firstIp then
      let total := f.be (off + 2) 2
      let fo := f.be (off + 6) 2
      { p with
        v4 := some (f.be (off + 12) 4, f.be (off + 16) 4), proto := f.byte (off + 9), dscp := f.byte (off + 1) / 4
        ecn := f.byte (off + 1) % 4, ttl := f.byte (off + 8), options := decide (5 < f.byte off % 16), trailer := left - total
        frag := if fo % 2 ^ 14 = 0 then none
          else some ([4, f.be (off + 12) 4, f.be (off + 16) 4, f.byte (off + 9), f.be (off + 4) 2], fo % 2 ^ 13, fo / 2 ^ 13 % 2 = 1) }
    else p
  else if w.typ = tIp6 then
    if firstIp then
      let tc := f.be off 2 / 16 % 256
      { p with
        v6 := some (f.be (off + 8) 16, f.be (off + 24) 16), proto := f.byte (off + 6), dscp := tc / 4, ecn := tc % 4
        ttl := f.byte (off + 7), trailer := left - 40 - f.be (off + 4) 2 }
    else p
  else if w.typ = tExt then
    match p.v6 with
    | some (a, b) =>
      if w.ips = 1 then
        let p := { p with proto := f.byte off }
        let fo := f.be (off + 2) 2
        if w.proto = 44 ∧ p.frag.isNone ∧ (fo / 8 ≠ 0 ∨ fo % 2 = 1) then
          { p with frag := some ([6, a, b, f.byte off, f.be (off + 4) 4], fo / 8, fo % 2 = 1) }
        else p
      else p
    | none => p
  else if w.typ = tUdp then if p.ports = 0 then { p with ports := f.be off 4 } else p
  else if w.typ = tTcp then
    if p.ports = 0 then { p with ports := f.be off 4, tcpFlags := f.be (off + 12) 2 % 512 } else p
  else if w.typ = tVxlan then { p with vni := f.be (off + 4) 3 }
  else if w.typ = tPtp then { p with ptp := some (p.ptp.getD (f.byte off % 16, f.byte (off + 4))) }
  else if w.typ = tLaosh then { p with laosh := true }
  else
    match d with
    | some d => { p with wins := p.wins.put w.typ (f.be (off + d.win0) 4, f.be (off + d.win1) 4) }
    | none => p

/-- Whether the IP header here carries a later fragment: its L4 header is in the first one (R265). -/
def laterFragment (f : Frame) (w : Walk) : Bool :=
  (w.typ = tIp4 && f.be (w.off + 6) 2 % 2 ^ 13 != 0) || (w.typ = tExt && w.proto = 44 && f.be (w.off + 2) 2 / 8 != 0)

/-- The header that follows, with its offset (R265, R266); none ends the walk. -/
def State.nextHeader (s : State) (die : Nat) (f : Frame) (w : Walk) (len : Nat) : Option Walk :=
  let off := w.off
  let cfg := fun (x : Fld) => s.fld x die
  let go := fun (v : Nat) (fixed : Option Nat) (w' : Walk) => (s.edgeFrom die w.typ v fixed).map (fun t => { w' with typ := t, off := off + len })
  if w.typ = tEth then
    let v := f.be (off + 12) 2
    go v (etherNext v) { w with tpid := v }
  else if w.typ = tVlan then
    let v := f.be (off + 2) 2
    go v (etherNext v) { w with tpid := v, vlans := w.vlans + 1 }
  else if w.typ = tPppoe then
    let v := f.be (off + 6) 2
    go v (if v = 0x0021 then some tIp4 else if v = 0x0057 then some tIp6 else none) w
  else if w.typ = tMpls then
    let bos := f.be off 4 / 256 % 2
    let nib := f.byte (off + 4) / 16
    if bos = 0 then go 0 (some tMpls) { w with labels := w.labels + 1 }
    else go (16 + nib) (if cfg .prsCfgMplsGuess = 1 then nibbleNext nib else none) { w with labels := w.labels + 1 }
  else if w.typ = tIp4 then
    let v := f.byte (off + 9)
    if f.byte off % 16 < 5 ∨ laterFragment f w then none
    else go v (protoNext v) { w with
      ipLeft := some (f.be (off + 2) 2 - len), proto := v, ips := w.ips + 1, stop := min w.stop (off + f.be (off + 2) 2) }
  else if w.typ = tIp6 then
    let v := f.byte (off + 6)
    go v (nextHdrNext v) { w with
      ipLeft := some (f.be (off + 4) 2), proto := v, ips := w.ips + 1, stop := min w.stop (off + 40 + f.be (off + 4) 2) }
  else if w.typ = tExt then
    let v := f.byte off
    if laterFragment f w then none
    else (s.edgeFrom die w.typ v (nextHdrNext v)).map (fun t =>
      { w with typ := t, off := off + len, exts := w.exts + 1, proto := v, ipLeft := w.ipLeft.map (· - len) })
  else if w.typ = tUdp then
    let v := f.be (off + 2) 2
    go v (if v = cfg .prsCfgVxlanPort then some tVxlan
      else if cfg .prsCfgPtpUdp = 1 ∧ (v = 319 ∨ v = 320) then some tPtp else none) w
  else if w.typ = tGre then
    let v := f.be (off + 2) 2
    go v (if v = 0x6558 then some tEth else if v = 0x0800 ∨ v = 0x86DD ∨ v = 0x8847 then etherNext v else none) w
  else if w.typ = tVxlan then go 0 (some tEth) w
  else if w.typ = tTcp ∨ w.typ = tPtp ∨ w.typ = tLaosh then none
  else
    match s.hdrDef die w.typ with
    | some d => if d.hasNext then go (f.bits (off + d.nByte) d.nBit d.nWidth) none w else none
    | none => none

/-- R265-R268: the walk, at most 16 headers within the 256-byte window that starts at `base`. A header that runs past the end of the
frame, or past the end that IP declares, ends the walk; its lengths are judged all the same. -/
def State.walk (s : State) (die : Nat) (f : Frame) (base : Nat) : Nat → Walk → Parsed → Parsed
  | 0, w, p => { p with depth := true, starts := p.starts ++ [(w.typ, w.off)] }
  | n + 1, w, p =>
    let p := { p with starts := p.starts ++ [(w.typ, w.off)] }
    let len := s.hdrLength die f w
    if w.tooMany ∨ base + 256 < w.off + max len (minLength w.typ) then { p with depth := true }
    else
      let p := { p with conflict := p.conflict || lengthConflict f w.typ w.off (w.stop - w.off) w.ipLeft }
      if w.stop < w.off + minLength w.typ then p else
      let p := p.take f w (w.stop - w.off) (s.hdrDef die w.typ)
      match s.nextHeader die f w len with
      | some w' => State.walk s die f base n w' p
      | none => p

/-- A head parsed from an offset and header type (R265, R281). -/
def State.parse (s : State) (die : Nat) (f : Frame) (off typ : Nat) : Parsed :=
  s.walk die f off 16 { off := off, typ := typ, stop := f.len - 4 } {}

/-- R64: a PTP frame of the ingress stamps: Ethertype 0x88F7, or UDP to ports 319 and 320, behind up to 3 VLAN tags. -/
def Parsed.isPtp (p : Parsed) : Bool :=
  p.ethertype = 0x88F7 || (p.proto = 17 && (p.ports % 65536 = 319 || p.ports % 65536 = 320) && p.mpls.isEmpty)

end Sys2Proof.Machine
end

