-- ==== Sys2Proof/Machine/Rules.lean ====
section
/-!
DEFINITION. The rule tables of a half: entries, ENTRY and EPOCH updates and their versions, the search (R272-R280), and
the RULE commands (R285-R292).
-/

namespace Sys2Proof.Machine

def State.modFwd (s : State) (half : Nat) (f : Fwd → Fwd) : State := s.setFwd half (f (s.fwdOf half))

/-! ### Tables and versions (R272, R276-R278) -/

def tblHost : Nat := 18
def tblLearn : Nat := 19
def tblMaint : Nat := 20

def State.ruleBlocks (s : State) (half t : Nat) : Nat := s.fld .rulTblCfgBlocks (half * 16 + t)
def State.ruleEpoch (s : State) (half t : Nat) : Bool := s.flag .rulTblCfgMode (half * 16 + t)
def State.ruleSlots (s : State) (half t : Nat) : Nat := s.ruleBlocks half t * 1024
def State.ruleUsed (s : State) (half t : Nat) : Bool := (s.fwdOf half).rules.any (fun p => p.1 / 65536 = t)
def State.rule (s : State) (half t i : Nat) : Option RuleEnt := (s.fwdOf half).rules.find (t * 65536 + i)
def State.setRule (s : State) (half t i : Nat) (e : Option RuleEnt) : State :=
  s.modFwd half (fun f => { f with rules := f.rules.setOpt (t * 65536 + i) e })

def State.cur (s : State) (half : Nat) : Nat := s.fld .rulVerCur half
def State.oldest (s : State) (half : Nat) : Nat := s.fld .rulVerOldest half
def nextVer (v : Nat) : Nat := (v + 1) % 16
/-- rel of R277. -/
def relVer (o x : Nat) : Nat := (x + 16 - o) % 16

/-- R277: which packets see an entry. -/
def RuleEnt.visible (e : RuleEnt) (o t : Nat) : Bool :=
  (e.settled || relVer o e.first ≤ relVer o t) && (e.open_ || relVer o t ≤ relVer o e.last)

def Fwd.inflightOf (f : Fwd) (v : Nat) : Nat := Tbl.getD f.inflight v 0

/-- R277: a version other than cur is held while packets carry it, an entry closed at it awaits reclaim, or an entry
created at the version after it awaits settling. -/
def Fwd.holds (f : Fwd) (v : Nat) : Bool :=
  f.inflightOf v != 0 || f.rules.any (fun p => (!p.2.open_ && p.2.last = v) || (!p.2.settled && p.2.first = nextVer v))

def State.setVersions (s : State) (half cur o : Nat) : State :=
  ((s.setFld .rulVerCur half cur).setFld .rulVerOldest half o).setFld .rulVerHeld half (relVer o cur + 1)

/-- o is the oldest version held. -/
def State.advanceOldest (s : State) (half : Nat) : Nat → State
  | 0 => s
  | n + 1 =>
    let o := s.oldest half
    if o = s.cur half ∨ (s.fwdOf half).holds o then s
    else (s.setVersions half (s.cur half) (nextVer o)).advanceOldest half n

/-- A packet takes the version in force (R264), and gives it back (R281). -/
def State.takeVersion (s : State) (half : Nat) : State :=
  s.modFwd half (fun f => { f with inflight := f.inflight.setD (s.cur half) 0 (f.inflightOf (s.cur half) + 1) })
def State.dropVersion (s : State) (half v : Nat) : State :=
  (s.modFwd half (fun f => { f with inflight := f.inflight.setD v 0 (f.inflightOf v - 1) })).advanceOldest half 16

/-- R278: tidying of the oldest held version, once no packet carries it and unless TBL_MAINT makes it wait. -/
def execVersionTidy (half : BitVec 1) (s : State) : Host.Outcome State Fault Refusal :=
  let h := half.toNat
  let o := s.oldest h
  let f := s.fwdOf h
  if o = s.cur h ∨ f.inflightOf o ≠ 0 then .next s
  else
    let closed := f.rules.filter (fun p => !p.2.open_ && p.2.last = o)
    let fresh := f.rules.filter (fun p => !p.2.settled && p.2.first = nextVer o)
    let rules := (f.rules.filter (fun p => p.2.open_ || p.2.last != o)).map (fun (p : Nat × RuleEnt) =>
      (p.1, if p.2.first = nextVer o then { p.2 with settled := true } else p.2))
    .next (s.rationed h tblMaint ((closed.length + fresh.length) * accessSpan) (fun s =>
      (s.setFwd h { s.fwdOf h with rules := rules }).advanceOldest h 16))

/-! ### Staging (R276-R280) -/

/-- Another path owns the half's staging (R280). -/
def State.stagedByOther (s : State) (half path : Nat) : Bool := ((s.fwdOf half).staging.map (· != path)).getD false

/-- The lowest free slot of a table. -/
def State.freeRule (s : State) (half t : Nat) : Nat → Nat → Option Nat
  | 0, _ => none
  | n + 1, i => if (s.rule half t i).isNone then some i else s.freeRule half t n (i + 1)

/-- The staging is the path's (R280). -/
def State.staged (s : State) (half path : Nat) : State := s.modFwd half (fun f => { f with staging := some path })

/-- An entry is written: in force at once in ENTRY mode, staged in EPOCH mode (R276, R277). -/
def State.putRule (s : State) (half path t i : Nat) (e : RuleEnt) : State :=
  if s.ruleEpoch half t then
    (s.setRule half t i (some { e with first := nextVer (s.cur half), open_ := true, settled := false })).staged half path
  else s.setRule half t i (some { e with open_ := true, settled := true })

/-- An entry is removed: at once in ENTRY mode, closed in EPOCH mode. -/
def State.closeRule (s : State) (half path t i : Nat) : State :=
  if s.ruleEpoch half t then
    match s.rule half t i with
    | some e => (s.setRule half t i (some (if e.open_ then { e with open_ := false, last := s.cur half } else e))).staged half path
    | none => s
  else s.setRule half t i none

/-- R279: the bump of cur. -/
def State.bump (s : State) (half : Nat) : State :=
  let s := s.modFwd half (fun f => { f with staging := none })
  (s.setVersions half (nextVer (s.cur half)) (s.oldest half)).advanceOldest half 16

/-- A commit meets 15 versions held. -/
def State.commitBusy (s : State) (half : Nat) : Bool := relVer (s.oldest half) (s.cur half) = 14

/-- R280: abort discards staged entries and reopens staged closes. -/
def State.abort (s : State) (half : Nat) : State :=
  let c := s.cur half
  s.modFwd half (fun f => { f with
    staging := none
    rules := (f.rules.filter (fun p => p.2.settled || p.2.first != nextVer c)).map (fun (p : Nat × RuleEnt) =>
      (p.1, if !p.2.open_ && p.2.last = c then { p.2 with open_ := true } else p.2)) })

/-! ### The search (R273-R275) -/

/-- What a packet offers to the key fields. -/
structure KeyView where
  p : Parsed
  head : Head
  orphan : Bool
  spoof : Bool
  later : Bool

def KeyView.flags (k : KeyView) : Nat :=
  let first := match k.p.frag with
    | some (_, 0, true) => true
    | _ => false
  let isLater := match k.p.frag with
    | some (_, o, _) => decide (0 < o)
    | none => false
  k.p.depth.toNat + 2 * k.p.conflict.toNat + 4 * first.toNat + 8 * isLater.toNat + 16 * k.orphan.toNat + 32 * k.spoof.toNat
    + 64 * k.later.toNat + 128 * k.p.options.toNat

/-- R273: the 32-bit field a selector chooses; a field the packet lacks reads zero. -/
def KeyView.field (k : KeyView) (sel win : Nat) : Nat :=
  let p := k.p
  let word := fun (x : Option (Nat × Nat)) (dst : Bool) (i : Nat) =>
    ((x.map (fun y => if dst then y.2 else y.1)).getD 0) / 2 ^ (32 * i) % 2 ^ 32
  let mac := fun (x : Option Nat) (hi : Bool) => if hi then x.getD 0 / 2 ^ 32 else x.getD 0 % 2 ^ 32
  if sel = 0x01 then k.head.ingress + 65536 * k.head.up.toNat
  else if sel = 0x02 then if k.head.up then k.head.onu else 0
  else if sel = 0x03 then if k.head.up then k.head.port else 0
  else if sel = 0x04 then k.flags
  else if sel = 0x05 then mac p.dmac true
  else if sel = 0x06 then mac p.dmac false
  else if sel = 0x07 then mac p.smac true
  else if sel = 0x08 then mac p.smac false
  else if sel < 0x0C then p.vlans.getD (sel - 9) 0
  else if sel = 0x0C then p.ethertype
  else if sel < 0x13 then p.mpls.getD (sel - 0x0D) 0
  else if sel = 0x13 then word p.v4 false 0
  else if sel = 0x14 then word p.v4 true 0
  else if sel < 0x19 then word p.v6 false (0x18 - sel)
  else if sel < 0x1D then word p.v6 true (0x1C - sel)
  else if sel = 0x1D then p.proto + p.dscp * 2 ^ 8 + p.ecn * 2 ^ 14 + p.ttl * 2 ^ 16
  else if sel = 0x1E then p.ports
  else if sel = 0x1F then p.tcpFlags + p.vni * 2 ^ 8
  else if sel = 0x20 then match p.ptp with
    | some (m, d) => m + d * 2 ^ 8
    | none => 0
  else match p.wins.find (64 + (sel - 0x40)) with
    | some w => if win = 1 then w.2 else w.1
    | none => 0

/-- The selectors R273 lists. -/
def selectorOk (w : Word) : Bool :=
  let sel := w.toNat % 256
  (sel ≤ 0x20 || (0x40 ≤ sel && sel ≤ 0x7F)) && w.toNat < 512

/-- An entry's value and mask over the ten key fields. -/
def RuleEnt.matches (e : RuleEnt) (key : List (Nat × Nat)) : Bool :=
  (List.range 10).all (fun n =>
    let k := key.getD n (0, 0)
    let m := (e.mask.getD n 0).toNat
    k.1 = 0 || (k.2 &&& m) = ((e.value.getD n 0).toNat &&& m))

def ruleBefore (a b : Nat × RuleEnt) : Bool := a.2.pri < b.2.pri || (a.2.pri = b.2.pri && a.1 ≤ b.1)

/-- R274: the table's one entry for a packet: visible, matching, lowest priority number, then lowest index. -/
def State.searchTable (s : State) (half t tag : Nat) (k : KeyView) : Option (Nat × RuleEnt) :=
  let b := half * 16 + t
  let dir := s.fld .rulTblCfgDir b
  if s.ruleBlocks half t = 0 ∨ (dir = 0 ∧ k.head.up) ∨ (dir = 1 ∧ !k.head.up) then none
  else
    let key := (List.range 10).map (fun n =>
      let sel := s.fld .rulKeySel (b * 128 + n)
      (sel, k.field sel (s.fld .rulKeyWin (b * 128 + n))))
    let o := s.oldest half
    (s.fwdOf half).rules.foldl (fun best p =>
      if p.1 / 65536 = t ∧ !p.2.memErr ∧ (!s.ruleEpoch half t || p.2.visible o tag) ∧ p.2.matches key then
        match best with
        | some q => if ruleBefore q p then best else some p
        | none => some p
      else best) none

/-- R275: what the rules set, merged in ascending table order. -/
structure RuleSet where
  cls : Option Nat := none
  colour : Option Nat := none
  queue : Option Nat := none

def mergeRule (r : RuleSet) (act : Word) : RuleSet :=
  let q := fldOf .rulEntActQueue act
  { cls := if act.getLsbD 28 then some (fldOf .rulEntActClass act) else r.cls
    colour := if act.getLsbD 29 then some (fldOf .rulEntActColour act) else r.colour
    queue := if act.getLsbD 30 then
        if r.queue = some 0x3FFFF then r.queue
        else if r.queue = some 0x3FFFE then (if q = 0x3FFFF then some q else r.queue)
        else some q
      else r.queue }

/-- R274, R275: the sixteen tables searched in order; each entry taken counts a hit. -/
def State.searchRules (s : State) (half tag : Nat) (k : KeyView) : RuleSet × State :=
  (List.range 16).foldl (fun (acc : RuleSet × State) t =>
    match acc.2.searchTable half t tag k with
    | some (i, e) => (mergeRule acc.1 e.act, acc.2.setRule half t (i % 65536) (some { e with hits := e.hits + 1 }))
    | none => acc) ({}, s)

/-! ### Commands (R285) -/

def ruleDies : DieRule := .oneOf [0, 1, 15]

/-- A RULE command on the halves its die selector names: BAD_PARAM, then BLOCK_CLAIMED, then its own refusals. -/
def ruleCommand (h : Hdr) (op : Nat) (blk : Blk) (bad : State → Bool) (body : Caller → Nat → State → Res) (s : State) : State :=
  command h op ruleDies (fun c s =>
    if bad s then .fail s .badParam
    else s.unlessClaimed ((halvesOf h).map (fun d => (d, blk))) (onHalves h (body c) s)) s

/-! ### The maintenance port (R29, R35, R276, R305) -/

/-- The port serves a host write now: TBL_HOST lets it, and no learning event that may be served goes first (R305). -/
def State.hostPortFree (s : State) (half : Nat) : Bool :=
  !s.rationWaits half tblHost && ((s.fwdOf half).lrnQ.isEmpty || s.rationWaits half tblLearn)

/-- A host's change on some halves waits: behind one that waits already, or for the port where it takes time on it. -/
def State.tableBlocked (s : State) (halves : List Nat) (span : Nat) : Bool :=
  s.tableWaits.any (fun w => w.halves.any halves.contains) || (span != 0 && !halves.all s.hostPortFree)

/-- The change wants port time, if it takes any. -/
def State.wantPort (s : State) (halves : List Nat) (span : Nat) : State :=
  if span = 0 then s else halves.foldl (fun s d => s.wantTime d tblHost) s

/-- The port time of a change is charged to TBL_HOST. -/
def State.chargePort (s : State) (halves : List Nat) (span : Nat) : State :=
  if span = 0 then s else halves.foldl (fun s d => s.charge d tblHost span) s

/-- A change runs: one that is refused takes no port time. -/
def Res.onPort (r : Res) (halves : List Nat) (span : Nat) : Res :=
  if r.status.refuses then r else { r with st := r.st.chargePort halves span }

/-- R35: a table write command has its effect now, or waits and is answered later. -/
def State.tableWork (s : State) (i : Instr) (c : Caller) (halves : List Nat) (span : Nat) (run : State → Res) : Res :=
  let s := s.wantPort halves span
  if s.tableBlocked halves span then
    { st := { s with tableWaits := s.tableWaits ++ [⟨some c, halves, i, none⟩] }, status := .ok, words := [], held := true }
  else (run s).onPort halves span

/-- A command that changes the tables, on the halves its die selector names: BAD_PARAM, then BLOCK_CLAIMED, then its work on the
maintenance port. -/
def tableCommand (i : Instr) (h : Hdr) (op : Nat) (blk : Blk) (span : Nat) (bad : State → Bool) (body : Caller → Nat → State → Res)
    (s : State) : State :=
  command h op ruleDies (fun c s =>
    if bad s then .fail s .badParam
    else s.unlessClaimed ((halvesOf h).map (fun d => (d, blk)))
      (s.tableWork i c (halvesOf h) span (fun s => onHalves h (body c) s))) s

/-- R272: sets a table, or refuses it. -/
def State.setTable (s : State) (half t dir mode blocks : Nat) : Res :=
  let b := half * 16 + t
  let others := (List.range 16).foldl (fun n j => if j = t then n else n + s.ruleBlocks half j) 0
  if 64 < others + blocks then .fail s .noRoom
  else if s.ruleUsed half t ∧ (mode ≠ s.fld .rulTblCfgMode b ∨ blocks ≠ s.ruleBlocks half t) then .fail s .busy
  else .ok (((s.setFld .rulTblCfgDir b dir).setFld .rulTblCfgMode b mode).setFld .rulTblCfgBlocks b blocks)

def execRuleTableSet (h : Hdr) (table dir mode blocks : Word) (keys : List Word) (s : State) : Host.Outcome State Fault Refusal :=
  .next (ruleCommand h 0x0700 .rul
    (fun _ => 15 < table.toNat || 2 < dir.toNat || 1 < mode.toNat || 64 < blocks.toNat || keys.length != 10 || !keys.all selectorOk)
    (fun _ half s =>
      let r := s.setTable half table.toNat dir.toNat mode.toNat blocks.toNat
      if r.status = .ok then
        { r with st := (List.range 10).foldl (fun s n => s.setReg .rulKey ((half * 16 + table.toNat) * 128 + n) (keys.getD n 0)) r.st }
      else r) s)

/-- RULE.WRITE on a half. An index word of all ones asks for any free slot (log entry 57). -/
def bodyRuleWrite (table index pri : Word) (value mask : List Word) (act : Word) (c : Caller) (half : Nat) (s : State) : Res :=
  let t := table.toNat
  let path := pathCode c.path
  let slot := if index = 0xFFFFFFFF then s.freeRule half t (s.ruleSlots half t) 0 else some index.toNat
  if s.ruleEpoch half t ∧ s.stagedByOther half path then .fail s .busy
  else match slot with
    | none => .fail s .noRoom
    | some i =>
      if s.ruleEpoch half t ∧ (s.rule half t i).isSome then .fail s .noRoom
      else .ok (s.putRule half path t i ⟨pri.toNat, value, mask, act ||| 0x80000000, 0, 0, true, true, 0, false⟩) [BitVec.ofNat 32 i]

def execRuleWrite (h : Hdr) (table index pri : Word) (value mask : List Word) (act : Word) (s : State) : Host.Outcome State Fault Refusal :=
  let t := table.toNat
  .next (tableCommand (.ruleWrite h table index pri value mask act) h 0x0701 .rul accessSpan
    (fun s => 15 < t || 65535 < pri.toNat || value.length != 10 || mask.length != 10 || fldOf .rulEntActColour act = 3
      || (act &&& 0x803C0000) != 0 || (index != 0xFFFFFFFF && (halvesOf h).any (fun d => s.ruleSlots d t ≤ index.toNat)))
    (bodyRuleWrite table index pri value mask act) s)

/-- RULE.DELETE on a half. -/
def bodyRuleDelete (table index : Word) (c : Caller) (half : Nat) (s : State) : Res :=
  let t := table.toNat
  if s.ruleEpoch half t ∧ s.stagedByOther half (pathCode c.path) then .fail s .busy
  else .ok (s.closeRule half (pathCode c.path) t index.toNat)

def execRuleDelete (h : Hdr) (table index : Word) (s : State) : Host.Outcome State Fault Refusal :=
  let t := table.toNat
  .next (tableCommand (.ruleDelete h table index) h 0x0702 .rul accessSpan
    (fun s => 15 < t || (halvesOf h).any (fun d => s.ruleSlots d t ≤ index.toNat)) (bodyRuleDelete table index) s)

/-- A commit refused with 15 versions held: counted, and RUL_VER.busy set (R279, R286). -/
def State.refuseCommit (s : State) (half : Nat) : State := (s.count .rulCommitBusy half).latchFlag .rulVerBusy half

/-- R279: the commit of one half, once every write before it has landed. -/
def bodyRuleCommit (c : Caller) (half : Nat) (s : State) : Res :=
  if s.stagedByOther half (pathCode c.path) then .fail s .busy
  else if s.commitBusy half then .fail (s.refuseCommit half) .commitBusy
  else
    let s := s.bump half
    .ok s [BitVec.ofNat 32 (s.cur half)]

/-- R279, R280: the commit takes no port time itself; it waits behind the writes that do. -/
def execRuleCommit (h : Hdr) (s : State) : Host.Outcome State Fault Refusal :=
  .next (tableCommand (.ruleCommit h) h 0x0703 .rul 0 (fun _ => false) bodyRuleCommit s)

/-- RULE.ABORT on a half. -/
def bodyRuleAbort (c : Caller) (half : Nat) (s : State) : Res :=
  if s.stagedByOther half (pathCode c.path) then .fail s .busy else .ok (s.abort half)

def execRuleAbort (h : Hdr) (s : State) : Host.Outcome State Fault Refusal :=
  .next (tableCommand (.ruleAbort h) h 0x0704 .rul 0 (fun _ => false) bodyRuleAbort s)

def ruleWords (e : RuleEnt) : List Word :=
  [e.act, BitVec.ofNat 32 e.pri] ++ e.value ++ e.mask
    ++ [BitVec.ofNat 32 (e.first * 16 + e.last), BitVec.ofNat 32 (e.settled.toNat * 2 + e.open_.toNat), BitVec.ofNat 32 e.hits]

def execRuleRead (h : Hdr) (table index : Word) (s : State) : Host.Outcome State Fault Refusal :=
  let t := table.toNat
  .next (command h 0x0705 ruleDies (fun _ s =>
    if 15 < t ∨ (halvesOf h).any (fun d => s.ruleSlots d t ≤ index.toNat) then .fail s .badParam
    else onHalves h (fun half s => .ok s (match s.rule half t index.toNat with
      | some e => ruleWords e
      | none => [0])) s) s)

def execRuleStatus (h : Hdr) (s : State) : Host.Outcome State Fault Refusal :=
  .next (command h 0x0706 ruleDies (fun _ s => onHalves h (fun half s =>
    let f := s.fwdOf half
    let c := s.cur half
    let o := s.oldest half
    let held := (List.range (relVer o c + 1)).map (fun i => (o + i) % 16)
    let staged := f.rules.filter (fun p => (!p.2.settled && p.2.first = nextVer c) || (!p.2.open_ && p.2.last = c))
    let untidied := f.rules.filter (fun p => !p.2.settled || !p.2.open_)
    .ok s ([BitVec.ofNat 32 c, BitVec.ofNat 32 o] ++ listWords (held.flatMap (fun v => [BitVec.ofNat 32 v, BitVec.ofNat 32 (f.inflightOf v)]))
      ++ [BitVec.ofNat 32 staged.length, BitVec.ofNat 32 (untidied.length - staged.length)])) s) s)

def execRuleParseSet (h : Hdr) (vxlan guess ptpUdp : Word) (s : State) : Host.Outcome State Fault Refusal :=
  .next (ruleCommand h 0x0707 .prs (fun _ => 65535 < vxlan.toNat || 1 < guess.toNat || 1 < ptpUdp.toNat)
    (fun _ half s => .ok (((s.setFld .prsCfgVxlanPort half vxlan.toNat).setFld .prsCfgMplsGuess half guess.toNat).setFld
      .prsCfgPtpUdp half ptpUdp.toNat)) s)

/-- The limits of R266 on a type's definition words (log entry 55). -/
def hdrWordsOk (w0 w1 w2 : Word) : Bool :=
  (w0.getLsbD 30 || (2 ≤ fieldOf 0 7 w0 && fieldOf 0 7 w0 ≤ 64)) && fieldOf 22 2 w0 ≤ 2 && fieldOf 9 4 w0 ≤ 8 && fieldOf 0 5 w1 ≤ 16
    && (w2 &&& 0xFF80FF80) = 0

def execRuleHeaderSet (h : Hdr) (typ w0 w1 w2 : Word) (s : State) : Host.Outcome State Fault Refusal :=
  let t := typ.toNat
  .next (ruleCommand h 0x0708 .prs (fun _ => t < 64 || 127 < t || !hdrWordsOk w0 w1 w2)
    (fun _ half s =>
      if (s.fwdOf half).edges.any (fun e => e.2.en && e.2.to_ = t) then .fail s .busy
      else
        let i := (half * 128 + t) * 128
        .ok (((s.setReg .prsHdr i (w0 ||| 0x80000000)).setReg .prsHdr (i + 1) w1).setReg .prsHdr (i + 2) w2)) s)

/-- A header type an edge may name: a fixed one, or a programmable one that is defined. -/
def State.typeKnown (s : State) (half t : Nat) : Bool := t ≤ tExt || (64 ≤ t && t < 128 && (s.hdrDef half t).isSome)

def execRuleEdgeSet (h : Hdr) (edge src value mask dst enable : Word) (s : State) : Host.Outcome State Fault Refusal :=
  .next (ruleCommand h 0x0709 .prs
    (fun s => 255 < edge.toNat || 1 < enable.toNat || 65535 < value.toNat || 65535 < mask.toNat
      || (halvesOf h).any (fun d => !s.typeKnown d src.toNat || !s.typeKnown d dst.toNat))
    (fun _ half s => .ok (s.modFwd half (fun f =>
      { f with edges := f.edges.put edge.toNat ⟨src.toNat, value.toNat, mask.toNat, dst.toNat, enable = 1⟩ }))) s)

def execRuleFragSet (h : Hdr) (life orphan : Word) (s : State) : Host.Outcome State Fault Refusal :=
  .next (ruleCommand h 0x070A .frg (fun _ => life.toNat < 1 || 1000 < life.toNat || 2 < orphan.toNat)
    (fun _ half s => .ok ((s.setFld .frgCfgLifeMs half life.toNat).setFld .frgCfgOrphan half orphan.toNat)) s)

/-- R283: a port is named with its tree in bits [20:16] (log entry 57). -/
def execRuleSpoofSet (h : Hdr) (port mode : Word) (s : State) : Host.Outcome State Fault Refusal :=
  let half := halfOfTree (port.toNat / 65536)
  .next (command h 0x070B ruleDies (fun _ s =>
    if 2 ^ 21 ≤ port.toNat ∨ 3 < mode.toNat ∨ (h.die.toNat < 2 ∧ h.die.toNat ≠ half) ∨ (s.is064 ∧ half = 1) then .fail s .badParam
    else s.unlessClaimed [(half, .prs)] (.ok (s.modFwd half (fun f => { f with spoof := f.spoof.setD port.toNat 0 mode.toNat })))) s)

/-! ### Expert writes (R286) -/

/-- R284: a refused expert entry write. -/
def State.entReject (s : State) (half : Nat) : State := s.report .rulEntReject half .rulEntReject half 0

/-- The table and index that a path has selected, and the entry as its registers stage it. -/
def State.stagedEnt (s : State) (p : APath) (half : Nat) : Nat × Nat × RuleEnt :=
  let i := copyInst half (apathCode p)
  let words := fun (r : Reg) => (List.range 10).map (fun n => s.reg r (i * 128 + n))
  ((s.reg .rtsel i).toNat, (s.reg .ridx i).toNat
  , ⟨(s.reg .rulEntPri i).toNat, words .rulEntVal, words .rulEntMsk, s.reg .rulEntAct i, 0, 0, true, true, 0, false⟩)

/-- An expert entry write lands: the entry is written, or removed where its valid bit is clear, in one access; or it is refused. -/
def State.rulEntNow (s : State) (p : APath) (half : Nat) (x : Nat × Nat × RuleEnt) : State :=
  let (t, n, e) := x
  if s.ruleSlots half t ≤ n ∨ (s.ruleEpoch half t ∧ s.stagedByOther half (apathCode p)) then s.entReject half
  else if e.act.getLsbD 31 then
    if s.ruleEpoch half t ∧ (s.rule half t n).isSome then s.entReject half
    else (s.putRule half (apathCode p) t n e).chargePort [half] accessSpan
  else (s.closeRule half (apathCode p) t n).chargePort [half] accessSpan

/-- R276, R286: an expert entry write has its effect now, or waits for the maintenance port with what is staged (R35). -/
def State.writeRulEnt (s : State) (p : APath) (half : Nat) (data : Word) : State :=
  if !data.getLsbD 0 then s
  else
    let s := s.wantPort [half] accessSpan
    let x := s.stagedEnt p half
    if s.tableBlocked [half] accessSpan then
      { s with tableWaits := s.tableWaits ++ [⟨none, [half], .rulEntWr p (BitVec.ofNat 1 half) data, some x⟩] }
    else s.rulEntNow p half x

def execRulEntWr (p : APath) (half : BitVec 1) (data : Word) (s : State) : Host.Outcome State Fault Refusal :=
  .next (s.writeRulEnt p half.toNat data)

/-- A commit or abort by register, as RULE.COMMIT and RULE.ABORT. -/
def State.rulCommitNow (s : State) (p : APath) (half : Nat) (data : Word) : State :=
  if s.stagedByOther half (apathCode p) then s
  else
    let s := if data.getLsbD 0 then (if s.commitBusy half then s.refuseCommit half else s.bump half) else s
    if data.getLsbD 1 then s.abort half else s

/-- A write of RUL_COMMIT: it waits behind table writes that wait (R279). -/
def State.writeRulCommit (s : State) (p : APath) (half : Nat) (data : Word) : State :=
  if s.tableBlocked [half] 0 then { s with tableWaits := s.tableWaits ++ [⟨none, [half], .rulCommitWrite p (BitVec.ofNat 1 half) data, none⟩] }
  else s.rulCommitNow p half data

def execRulCommitWrite (p : APath) (half : BitVec 1) (data : Word) (s : State) : Host.Outcome State Fault Refusal :=
  .next (s.writeRulCommit p half.toNat data)

def execRulAbortWrite (p : APath) (half : BitVec 1) (data : Word) (s : State) : Host.Outcome State Fault Refusal :=
  .next (s.writeRulCommit p half.toNat data)

end Sys2Proof.Machine
end

