-- ==== Sys2Proof/Machine/Tables.lean ====
section
/-!
DEFINITION. The forwarding tables of a half and the TABLE commands over them (R293, R301-R307, R317, R320-R325).
-/

namespace Sys2Proof.Machine

/-! ### The bridge table (R302-R306) -/

/-- The bucket of a key (R302): CRC-32C over the domain's and the MAC's 8 bytes from BR_SEED, bits [19:0]; reflected
as in R469 (log entry 89). -/
def State.bucket (s : State) (half bd mac : Nat) : Nat :=
  let v := bd * 2 ^ 48 + mac
  ((List.range 8).foldl (fun c i => crcByte c (v / 2 ^ (8 * (7 - i)) % 256)) (s.reg .brSeed half).toNat) % 2 ^ 20

def overflowBase : Nat := 4194304

def State.br (s : State) (half i : Nat) : Option BrEnt := (s.fwdOf half).bridge.find i
def State.setBr (s : State) (half i : Nat) (e : Option BrEnt) : State :=
  s.modFwd half (fun f => { f with bridge := f.bridge.setOpt i e })

/-- R304, R305: an entry is found by key, a way before an overflow slot. -/
def State.brFind (s : State) (half bd mac : Nat) : Option (Nat × BrEnt) :=
  let b := s.bucket half bd mac
  (s.fwdOf half).bridge.find? (fun p =>
    p.2.bd = bd && p.2.mac = mac && ((4 * b ≤ p.1 && p.1 < 4 * b + 4) || overflowBase ≤ p.1))

/-- The lowest free place of a run of places. -/
def State.brFree (s : State) (half : Nat) : Nat → Nat → Option Nat
  | 0, _ => none
  | n + 1, i => if (s.br half i).isNone then some i else s.brFree half n (i + 1)

/-- The lowest free overflow slot: the first number the listed slots pass over. -/
def State.freeOverflow (s : State) (half : Nat) : Option Nat :=
  let used := ((s.fwdOf half).bridge.filter (fun p => overflowBase ≤ p.1)).map Prod.fst
  let i := used.foldl (fun n k => if k = n then n + 1 else n) overflowBase
  if i < overflowBase + 4096 then some i else none

/-- R306: insertion of a new key; none where it fails. -/
def State.brInsert (s : State) (half : Nat) (e : BrEnt) : Option State :=
  let b := s.bucket half e.bd e.mac
  match s.brFree half 4 (4 * b) with
  | some i => some (s.setBr half i (some e))
  | none => (s.freeOverflow half).map (fun i => s.setBr half i (some e))

def State.tickNow (s : State) (half : Nat) : Nat := s.fld .lrnStatTickNow half

/-- R303: an entry as 128 bits, its reserved places zero. -/
def BrEnt.bits (e : BrEnt) : Nat :=
  2 ^ 127 + e.static_.toNat * 2 ^ 126 + e.frozen.toNat * 2 ^ 125 + e.dkind * 2 ^ 123 + e.stamp * 2 ^ 113 + e.moveCnt * 2 ^ 109
    + e.dmp * 2 ^ 103 + e.dest * 2 ^ 85 + e.svc.getD 0 * 2 ^ 65 + e.svc.isNone.toNat * 2 ^ 64 + e.bd * 2 ^ 48 + e.mac

def brOfBits (v : Nat) : Option BrEnt :=
  let g := fun lo w => v / 2 ^ lo % 2 ^ w
  if g 127 1 = 0 then none
  else some ⟨g 126 1 = 1, g 125 1 = 1, g 123 2, g 113 10, g 109 4, g 103 6, g 85 18, if g 64 1 = 1 then none else some (g 65 20), g 48 16, g 0 48⟩

/-! ### The other tables -/

/-- The number the listed keys pass over first. -/
def firstFree {α : Type} (t : Tbl α) : Nat := t.foldl (fun n p => if p.1 = n then n + 1 else n) 0

def SvcEnt.sameKey (a b : SvcEnt) : Bool := a.up = b.up && a.source = b.source && a.ovid = b.ovid && a.ivid = b.ivid

def State.svcFind (s : State) (half : Nat) (up : Bool) (source ovid ivid : Nat) : Option (Nat × SvcEnt) :=
  (s.fwdOf half).svcs.find? (fun p => p.2.up = up && p.2.source = source && p.2.ovid = ovid && p.2.ivid = ivid)

def Res.ofOpt (s : State) (r : Option State) (ws : List Word := []) : Res :=
  match r with
  | some s' => .ok s' ws
  | none => .fail s .noRoom

/-- A service entry over any with its key, else at the lowest free index (R293). -/
def State.svcPut (s : State) (half : Nat) (e : SvcEnt) : Option State :=
  let f := s.fwdOf half
  let i := match f.svcs.find? (fun p => p.2.sameKey e) with
    | some p => p.1
    | none => firstFree f.svcs
  if i < 1048576 then some (s.setFwd half { f with svcs := f.svcs.put i e }) else none

def State.svcDel (s : State) (half : Nat) (up : Bool) (source ovid ivid : Nat) : State :=
  match s.svcFind half up source ovid ivid with
  | some p => s.modFwd half (fun f => { f with svcs := f.svcs.del p.1 })
  | none => s

/-- R293: at most 1,024 destinations a group and 262,144 members a half. -/
def State.floodPut (s : State) (half g : Nat) (ds : List Nat) : Option State :=
  let f := s.fwdOf half
  let others := sumOn (f.floods.filter (fun p => p.1 != g)) (fun p => p.2.length)
  if ds.length ≤ 1024 ∧ others + ds.length ≤ 262144 then some (s.setFwd half { f with floods := f.floods.setD g [] ds }) else none

def Route.same (a b : Route) : Bool := a.v6 = b.v6 && a.vrf = b.vrf && a.len = b.len && a.prefix_ = b.prefix_
def Route.units (r : Route) : Nat := if r.v6 then 2 else 1

def State.routePut (s : State) (half : Nat) (r : Route) : Option State :=
  let f := s.fwdOf half
  let rest := f.routes.filter (fun q => !q.same r)
  if sumOn rest Route.units + r.units ≤ 1048576 then some (s.setFwd half { f with routes := rest ++ [r] }) else none

def Binding.units (b : Binding) : Nat := if b.kind = 2 then 2 else 1

def State.bindPut (s : State) (half : Nat) (b : Binding) : Option State :=
  let f := s.fwdOf half
  let rest := f.binds.filter (fun q => decide (q ≠ b))
  if sumOn rest Binding.units + b.units ≤ 262144 then some (s.setFwd half { f with binds := rest ++ [b] }) else none

/-- R317: a host write replaces any entry with its key, where it lies. -/
def State.macPut (s : State) (half : Nat) (e : BrEnt) : Option State :=
  match s.brFind half e.bd e.mac with
  | some p => some (s.setBr half p.1 (some e))
  | none => s.brInsert half e

/-- The bits a prefix of a length leaves (R299). -/
def prefixBits (v6 : Bool) (len a : Nat) : Nat :=
  let w := (if v6 then 128 else 32) - len
  a / 2 ^ w * 2 ^ w

/-! ### Commands (R320) -/

/-- A route prefix changes in at most 16 accesses (R317). -/
def routeSpan : Nat := 16 * accessSpan

/-- A destination of R297: an uplink port, a downstream queue, a next-hop index, a flood group. -/
def destOk (kind dest : Nat) : Bool :=
  if kind = 0 then dest < 64 else if kind = 1 then dest ≤ 0x3FFFD else if kind = 2 then dest < 262144
  else if kind = 3 then dest < 16384 else false

def bodyTableBdSet (w : BdWords) (_ : Caller) (half : Nat) (s : State) : Res :=
  let b : BdEnt :=
    ⟨w.valid = 1, w.learn = 1, w.isolate = 1, w.route = 1, w.vrf.toNat, w.rmac.toNat, w.flood.toNat, w.unknown.toNat⟩
  .ok (s.modFwd half (fun f => { f with bds := f.bds.put w.domain.toNat b }))

def execTableBdSet (h : Hdr) (w : BdWords) (s : State) : Host.Outcome State Fault Refusal :=
  .next (tableCommand (.tableBdSet h w) h 0x0800 .br accessSpan (fun _ =>
      65535 < w.domain.toNat || 1 < w.valid.toNat || 1 < w.learn.toNat || 1 < w.isolate.toNat || 1 < w.route.toNat
        || 4095 < w.vrf.toNat || 15 < w.rmac.toNat || 16383 < w.flood.toNat || 2 < w.unknown.toNat)
    (bodyTableBdSet w) s)

def bodyTableRmacSet (index : Word) (mac : BitVec 48) (_ : Caller) (half : Nat) (s : State) : Res :=
  .ok (s.modFwd half (fun f => { f with rmacs := f.rmacs.setD index.toNat 0 mac.toNat }))

def execTableRmacSet (h : Hdr) (index : Word) (mac : BitVec 48) (s : State) : Host.Outcome State Fault Refusal :=
  .next (tableCommand (.tableRmacSet h index mac) h 0x0801 .br accessSpan (fun _ => 15 < index.toNat)
    (bodyTableRmacSet index mac) s)

def bodyTableFloodSet (group : Word) (dests : List Word) (_ : Caller) (half : Nat) (s : State) : Res :=
  .ofOpt s (s.floodPut half group.toNat (dests.map (·.toNat)))

def execTableFloodSet (h : Hdr) (group : Word) (dests : List Word) (s : State) : Host.Outcome State Fault Refusal :=
  .next (tableCommand (.tableFloodSet h group dests) h 0x0802 .br accessSpan
    (fun _ => 16383 < group.toNat || 1024 < dests.length
      || dests.any (fun d => !(d.toNat / 2 ^ 18 ≤ 1 && destOk (d.toNat / 2 ^ 18) (d.toNat % 2 ^ 18))))
    (bodyTableFloodSet group dests) s)

def svcKeyOk (dir source ovid ivid : Word) : Bool :=
  dir.toNat ≤ 1 && ovid.toNat < 4096 && ivid.toNat < 4096 && (if dir = 1 then source.toNat < 2 ^ 30 else source.toNat < 64)

def bodyTableSvcSet (w : SvcWords) (_ : Caller) (half : Nat) (s : State) : Res :=
  let none_ : Bool := w.policer = 0xFFFFFFFF
  .ofOpt s (s.svcPut half
    ⟨w.dir = 1, w.source.toNat, w.ovid.toNat, w.ivid.toNat, w.mode = 0, if w.mode = 0 then 0 else w.target.toNat
    , if w.mode = 0 then w.target.toNat / 2 ^ 18 else 0, if w.mode = 0 then w.target.toNat % 2 ^ 18 else 0
    , if none_ then none else some w.policer.toNat, w.prog.toNat, w.learn = 1, w.macLimit.toNat, w.ret.toNat, w.upBase.toNat⟩)

/-- R642: direction 0 downstream, 1 upstream; mode 0 cross-connect, 1 bridge. -/
def execTableSvcSet (h : Hdr) (w : SvcWords) (s : State) : Host.Outcome State Fault Refusal :=
  let none_ : Bool := w.policer = 0xFFFFFFFF
  .next (tableCommand (.tableSvcSet h w) h 0x0803 .svc accessSpan (fun _ =>
      !svcKeyOk w.dir w.source w.ovid w.ivid || 1 < w.mode.toNat || (!none_ && 131071 < w.policer.toNat) || 4095 < w.prog.toNat
        || 1 < w.learn.toNat || 1048575 < w.macLimit.toNat || 0x3FFFD < w.ret.toNat || 65535 < w.upBase.toNat
        || (if w.mode = 0 then !destOk (w.target.toNat / 2 ^ 18) (w.target.toNat % 2 ^ 18) else 65535 < w.target.toNat))
    (bodyTableSvcSet w) s)

def bodyTableSvcClear (dir source ovid ivid : Word) (_ : Caller) (half : Nat) (s : State) : Res :=
  .ok (s.svcDel half (dir = 1) source.toNat ovid.toNat ivid.toNat)

def execTableSvcClear (h : Hdr) (dir source ovid ivid : Word) (s : State) : Host.Outcome State Fault Refusal :=
  .next (tableCommand (.tableSvcClear h dir source ovid ivid) h 0x0804 .svc accessSpan (fun _ => !svcKeyOk dir source ovid ivid)
    (bodyTableSvcClear dir source ovid ivid) s)

def bodyTableMacAdd (bd : Word) (mac : BitVec 48) (fixed kind dest : Word) (_ : Caller) (half : Nat) (s : State) : Res :=
  .ofOpt s (s.macPut half
    ⟨fixed = 1, false, kind.toNat, s.tickNow half, 0, 0, dest.toNat, none, bd.toNat, mac.toNat⟩)

def execTableMacAdd (h : Hdr) (bd : Word) (mac : BitVec 48) (fixed kind dest : Word) (s : State) : Host.Outcome State Fault Refusal :=
  .next (tableCommand (.tableMacAdd h bd mac fixed kind dest) h 0x0805 .br accessSpan (fun _ => 65535 < bd.toNat || 1 < fixed.toNat || !destOk kind.toNat dest.toNat)
    (bodyTableMacAdd bd mac fixed kind dest) s)

def bodyTableMacDel (bd : Word) (mac : BitVec 48) (_ : Caller) (half : Nat) (s : State) : Res :=
  match s.brFind half bd.toNat mac.toNat with
    | some p => .ok (s.setBr half p.1 none) [1]
    | none => .ok s [0]

def execTableMacDel (h : Hdr) (bd : Word) (mac : BitVec 48) (s : State) : Host.Outcome State Fault Refusal :=
  .next (tableCommand (.tableMacDel h bd mac) h 0x0806 .br accessSpan (fun _ => 65535 < bd.toNat)
    (bodyTableMacDel bd mac) s)

def execTableMacRead (h : Hdr) (bd : Word) (mac : BitVec 48) (s : State) : Host.Outcome State Fault Refusal :=
  .next (command h 0x0807 ruleDies (fun _ s =>
    if 65535 < bd.toNat then .fail s .badParam
    else onHalves h (fun half s => match s.brFind half bd.toNat mac.toNat with
      | some p => .ok s ([1, BitVec.ofNat 32 p.1] ++ wordsOf 128 p.2.bits)
      | none => .ok s [0]) s) s)

/-- R317: a flush deletes the dynamic entries that match its domain and destination; all ones stand for any. A walk starts on each half. -/
def execTableMacFlush (h : Hdr) (bd dest : Word) (s : State) : Host.Outcome State Fault Refusal :=
  .next (command h 0x0808 ruleDies (fun c s =>
    let all : Word := 0xFFFFFFFF
    let asked := fun (w : Word) => if w = all then none else some w.toNat
    if (bd ≠ all ∧ 65535 < bd.toNat) ∨ (dest ≠ all ∧ !destOk (dest.toNat / 2 ^ 18) (dest.toNat % 2 ^ 18)) then .fail s .badParam
    else s.unlessClaimed ((halvesOf h).map (fun d => (d, .br))) (
      if s.asyncFull then .fail s .busy
      else .accepted ((halvesOf h).foldl (fun s half =>
        s.modFwd half (fun f => { f with flush := f.flush ++ [⟨c, 2 ≤ h.die.toNat, asked bd, asked dest, 0, 0, none⟩] })) s))) s)

/-- The accesses of a walk over the bridge table: 1,048,576 buckets, then 256 accesses of 16 overflow slots (R314). -/
def scanEnd : Nat := 1048576 + 256

/-- The access at which a walk passes a place. -/
def accessOf (place : Nat) : Nat := if place < overflowBase then place / 4 else 1048576 + (place - overflowBase) / 16

/-- A walk deletes an entry (R317). -/
def FlushWalk.takes (w : FlushWalk) (e : BrEnt) : Bool :=
  !e.static_ && w.bd.all (fun b => b == e.bd) && w.dest.all (fun x => x == e.dkind * 2 ^ 18 + e.dest)

/-- A walk of a half makes so many more accesses, each a check and deletion. -/
def State.walkOn (s : State) (half : Nat) (w : FlushWalk) (n : Nat) : State × FlushWalk :=
  let f := s.fwdOf half
  let keep := f.bridge.filter (fun p => !(w.pos ≤ accessOf p.1 && accessOf p.1 < w.pos + n && w.takes p.2))
  (s.setFwd half { f with bridge := keep }, { w with pos := w.pos + n, deleted := w.deleted + (f.bridge.length - keep.length) })

/-- The oldest walk of a half has ended: the command is answered once no half walks for it, for both halves with a status and a count
each (R320). -/
def State.endWalk (s : State) (half : Nat) (w : FlushWalk) : State :=
  let s := s.modFwd half (fun f => { f with flush := f.flush.tail })
  let n := fun (x : Nat) => BitVec.ofNat 32 x
  if !w.both then s.answer w.caller .ok [n w.deleted]
  else match w.partner with
    | some other =>
      let (a, b) := if half = 0 then (w.deleted, other) else (other, w.deleted)
      s.answer w.caller .ok [n Status.ok.code, n Status.ok.code, n a, n b]
    | none => s.modFwd (1 - half) (fun f => { f with flush := f.flush.map (fun (x : FlushWalk) =>
        if x.caller = w.caller then { x with partner := some w.deleted } else x) })

/-- R317: the oldest walk of a half goes on for as many accesses as TBL_HOST lets it now, a learning event that may be served going first
(R305); at the last it ends, and its command is answered once no half walks for it. -/
def execMacFlushDone (half : BitVec 1) (s : State) : Host.Outcome State Fault Refusal :=
  let h := half.toNat
  match (s.fwdOf h).flush with
  | [] => .next s
  | w :: rest =>
    let s := s.wantPort [h] accessSpan
    if !s.hostPortFree h then .next s
    else
      let left := scanEnd - w.pos
      let n := ceilDiv (s.rationSpan h tblHost (left * accessSpan)) accessSpan
      let (s, w) := s.walkOn h w n
      let s := s.chargePort [h] (n * accessSpan)
      .next (if scanEnd ≤ w.pos then s.endWalk h w else s.modFwd h (fun f => { f with flush := w :: rest }))

def wordsNat (ws : List Word) : Nat := ws.foldl (fun n w => n * 2 ^ 32 + w.toNat) 0

/-- A prefix is one word for IPv4 and four for IPv6. -/
def prefixOk (vrf : Word) (pre : List Word) (len : Word) : Bool :=
  vrf.toNat < 4096 && ((pre.length = 1 && len.toNat ≤ 32) || (pre.length = 4 && len.toNat ≤ 128))

def bodyTableRouteSet (vrf : Word) (pre : List Word) (len nh : Word) (_ : Caller) (half : Nat) (s : State) : Res :=
  let v6 : Bool := pre.length = 4
  .ofOpt s (s.routePut half
    ⟨v6, vrf.toNat, prefixBits v6 len.toNat (wordsNat pre), len.toNat, nh.toNat⟩)

def execTableRouteSet (h : Hdr) (vrf : Word) (pre : List Word) (len nh : Word) (s : State) : Host.Outcome State Fault Refusal :=
  .next (tableCommand (.tableRouteSet h vrf pre len nh) h 0x0809 .lpm routeSpan (fun _ => !prefixOk vrf pre len || 262143 < nh.toNat)
    (bodyTableRouteSet vrf pre len nh) s)

def bodyTableRouteClear (vrf : Word) (pre : List Word) (len : Word) (_ : Caller) (half : Nat) (s : State) : Res :=
  let v6 : Bool := pre.length = 4
  .ok (s.modFwd half (fun f => { f with routes := f.routes.filter (fun q =>
    !q.same ⟨v6, vrf.toNat, prefixBits v6 len.toNat (wordsNat pre), len.toNat, 0⟩) }))

def execTableRouteClear (h : Hdr) (vrf : Word) (pre : List Word) (len : Word) (s : State) : Host.Outcome State Fault Refusal :=
  .next (tableCommand (.tableRouteClear h vrf pre len) h 0x080A .lpm routeSpan (fun _ => !prefixOk vrf pre len)
    (bodyTableRouteClear vrf pre len) s)

def nhOk (kind dest : Nat) : Bool := kind ≤ 4 && (kind = 0 || kind = 1 || dest = 0 || 1 < kind) && (1 < kind || destOk kind dest)

def bodyTableNhSet (index : Word) (w : NhWords) (_ : Caller) (half : Nat) (s : State) : Res :=
  let n : NhEnt := ⟨w.kind.toNat, w.dest.toNat, w.dmac.toNat, w.smac.toNat, w.prog.toNat, w.domain.toNat, w.strip.toNat⟩
  .ok (s.modFwd half (fun f => { f with nhs := f.nhs.put index.toNat n }))

def execTableNhSet (h : Hdr) (index : Word) (w : NhWords) (s : State) : Host.Outcome State Fault Refusal :=
  .next (tableCommand (.tableNhSet h index w) h 0x080B .br accessSpan (fun _ =>
      262143 < index.toNat || !nhOk w.kind.toNat w.dest.toNat || 15 < w.smac.toNat || 4095 < w.prog.toNat || 65535 < w.domain.toNat
        || 255 < w.strip.toNat)
    (bodyTableNhSet index w) s)

/-- A binding's address: two words for a MAC, one for IPv4, four for IPv6. -/
def bindOk (onu port kind : Word) (addr : List Word) : Bool :=
  onu.toNat < 16384 && port.toNat < 65536
    && ((kind = 0 && addr.length = 2 && wordsNat addr < 2 ^ 48) || (kind = 1 && addr.length = 1) || (kind = 2 && addr.length = 4))

def bodyTableBindSet (onu port kind : Word) (addr : List Word) (_ : Caller) (half : Nat) (s : State) : Res :=
  .ofOpt s (s.bindPut half ⟨onu.toNat, port.toNat, kind.toNat, wordsNat addr⟩)

def execTableBindSet (h : Hdr) (onu port kind : Word) (addr : List Word) (s : State) : Host.Outcome State Fault Refusal :=
  .next (tableCommand (.tableBindSet h onu port kind addr) h 0x080C .prs accessSpan (fun _ => !bindOk onu port kind addr)
    (bodyTableBindSet onu port kind addr) s)

def bodyTableBindClear (onu port kind : Word) (addr : List Word) (_ : Caller) (half : Nat) (s : State) : Res :=
  .ok (s.modFwd half (fun f => { f with binds := f.binds.filter (fun q =>
    decide (q ≠ ⟨onu.toNat, port.toNat, kind.toNat, wordsNat addr⟩)) }))

def execTableBindClear (h : Hdr) (onu port kind : Word) (addr : List Word) (s : State) : Host.Outcome State Fault Refusal :=
  .next (tableCommand (.tableBindClear h onu port kind addr) h 0x080D .prs accessSpan (fun _ => !bindOk onu port kind addr)
    (bodyTableBindClear onu port kind addr) s)

/-- Every field of a word is one the register table allows, and no reserved bit is set. -/
def wordLegal (r : Reg) (w : Word) : Bool :=
  r.rows.all (fun f => legalValue f.legal (fieldOf f.lo f.w w)) && (w &&& ~~~ readableMask r) = 0

def execTableLearnSet (h : Hdr) (lrn age : Word) (s : State) : Host.Outcome State Fault Refusal :=
  .next (ruleCommand h 0x080E .lrn (fun _ => !wordLegal .lrnCfg lrn || !wordLegal .brAgeCfg age)
    (fun _ half s => .ok ((s.setReg .lrnCfg half lrn).setReg .brAgeCfg half age)) s)

def execTableStatus (h : Hdr) (s : State) : Host.Outcome State Fault Refusal :=
  .next (command h 0x080F ruleDies (fun _ s => onHalves h (fun half s =>
    let f := s.fwdOf half
    let n := fun (x : Nat) => BitVec.ofNat 32 x
    .ok s ([n (f.bridge.filter (fun p => p.1 < overflowBase)).length, n (f.bds.filter (fun p => p.2.valid)).length, n f.rmacs.length,
        n (sumOn f.floods (fun p => p.2.length)), n f.svcs.length, n (sumOn f.routes Route.units), n f.nhs.length
      , n (sumOn f.binds Binding.units), n (f.bridge.filter (fun p => overflowBase ≤ p.1)).length, n f.lrnQ.length, n (f.scan.getD 0)]
      ++ [Ctr.svcMiss, .lpmMiss, .lpmTtl, .brIsolate, .brFlood, .brInsFail, .lrnNew, .lrnMove, .lrnMoveFrozen, .lrnStaticViol, .lrnFreeze
        , .lrnLimit, .lrnMerge, .lrnQDrop, .brRefreshDrop, .brAged, .brScanLate, .brMemCorr, .brMemErr, .brCfgReject].flatMap
        (fun c => ctrWords (s.ctr c half)))) s) s)

/-! ### The access window (R321, R322): fields packed from bit 0 in the order R320 lists them (log entry 59) -/

def packBits : List (Nat × Nat) → Nat
  | [] => 0
  | (w, v) :: rest => v % 2 ^ w + packBits rest * 2 ^ w

def unpackBits : List Nat → Nat → List Nat
  | [], _ => []
  | w :: ws, v => v % 2 ^ w :: unpackBits ws (v / 2 ^ w)

def svcWidths : List Nat := [1, 30, 12, 12, 1, 20, 18, 12, 1, 20, 18, 16]
def routeWidths : List Nat := [1, 12, 128, 8, 18]
def nhWidths : List Nat := [18, 3, 18, 48, 4, 12, 16, 8]
def bindWidths : List Nat := [14, 16, 2, 128]
def bdWidths : List Nat := [16, 1, 1, 1, 1, 12, 4, 14, 2]

/-- The fields of TABLE.SVC_SET; its mode is 0 for cross-connect, 1 for bridge (R642). -/
def svcFields (e : SvcEnt) : List Nat :=
  [e.up.toNat, e.source, e.ovid, e.ivid, (!e.cross).toNat, if e.cross then e.kind * 2 ^ 18 + e.dest else e.bd
  , match e.policer with
    | some p => 2 ^ 17 + p
    | none => 0
  , e.prog, e.learn.toNat, e.macLimit, e.ret, e.upBase]

def svcOfFields (l : List Nat) : SvcEnt :=
  let g := fun i => l.getD i 0
  let x := g 4 = 0
  ⟨g 0 = 1, g 1, g 2, g 3, x, if x then 0 else g 5, if x then g 5 / 2 ^ 18 else 0, if x then g 5 % 2 ^ 18 else 0
  , if 2 ^ 17 ≤ g 6 then some (g 6 % 2 ^ 17) else none, g 7, g 8 = 1, g 9, g 10, g 11⟩

def State.accData (s : State) (i : Nat) : Nat :=
  (List.range 8).foldl (fun n k => n + (s.reg .brAccData (i * 128 + k)).toNat * 2 ^ (32 * k)) 0

def State.setAccData (s : State) (i v : Nat) : State :=
  (List.range 8).foldl (fun s k => s.setReg .brAccData (i * 128 + k) (BitVec.ofNat 32 (v / 2 ^ (32 * k)))) s

/-- What a table holds under a key or an index, as the window's bits; none where nothing is there. -/
def State.accRead (s : State) (half tbl : Nat) (byKey : Bool) (v index : Nat) : Option Nat :=
  let f := s.fwdOf half
  let u := fun ws => unpackBits ws v
  let g := fun (l : List Nat) i => l.getD i 0
  if tbl = 0 then
    if byKey then (s.brFind half (v / 2 ^ 48 % 2 ^ 16) (v % 2 ^ 48)).map (fun p => p.2.bits) else (s.br half index).map BrEnt.bits
  else if tbl = 1 then
    let l := u svcWidths
    (if byKey then (s.svcFind half (g l 0 = 1) (g l 1) (g l 2) (g l 3)).map Prod.snd else f.svcs.find index).map
      (fun e => packBits (svcWidths.zip (svcFields e)))
  else if tbl = 2 then
    let l := u routeWidths
    (if byKey then f.routes.find? (fun q => q.same ⟨g l 0 = 1, g l 1, g l 2, g l 3, 0⟩) else f.routes[index]?).map
      (fun r => packBits (routeWidths.zip [r.v6.toNat, r.vrf, r.prefix_, r.len, r.nh]))
  else if tbl = 3 then
    let i := if byKey then v % 2 ^ 18 else index
    (f.nhs.find i).map (fun n => packBits (nhWidths.zip [i, n.kind, n.dest, n.dmac, n.smac, n.prog, n.bd, n.strip]))
  else if tbl = 4 then
    let l := u bindWidths
    (if byKey then f.binds.find? (fun q => decide (q = ⟨g l 0, g l 1, g l 2, g l 3⟩)) else f.binds[index]?).map
      (fun b => packBits (bindWidths.zip [b.onu, b.port, b.kind, b.addr]))
  else if tbl = 5 then
    let i := if byKey then v % 2 ^ 16 else index
    (f.bds.find i).map (fun b => packBits (bdWidths.zip
      [i, b.valid.toNat, b.learn.toNat, b.isolate.toNat, b.route.toNat, b.vrf, b.rmac, b.flood, b.unknown]))
  else if tbl = 6 then
    let i := if byKey then v % 2 ^ 14 else index
    (f.floods.find i).map (fun ds => packBits ((14, i) :: (11, ds.length) :: (ds.take 11).map (fun d => (20, d))))
  else
    let i := if byKey then v % 16 else index
    (f.rmacs.find i).map (fun m => packBits [(4, i), (48, m)])

/-- A list whose entry at a place, or behind the last, becomes x; any other entry of x's key goes. -/
def putAt {α : Type} (l : List α) (i : Nat) (same : α → Bool) (x : α) : List α :=
  (l.take i).filter (fun y => !same y) ++ x :: (l.drop (i + 1)).filter (fun y => !same y)

/-- A flood group's destinations written through the window (log entry 59): its 256 bits hold the first eleven; those past them stay as the
group has them, and a count of more than it then has is refused. -/
def windowFlood (old : List Nat) (v : Nat) : Option (List Nat) :=
  let n := v / 2 ^ 14 % 2 ^ 11
  let ds := unpackBits (List.replicate (min n 11) 20) (v / 2 ^ 25) ++ (old.drop 11).take (n - 11)
  if ds.length = n then some ds else none

/-- A write or delete through the window, by key or by index; the index of a route or binding is its place among those held (log entry 59).
The device stamps a bridge entry with the current tick, and it carries nosvc 1 (R303, R312, R313). -/
def State.accWrite (s : State) (half tbl : Nat) (v : Nat) (index : Option Nat) (del : Bool) : Res :=
  let f := s.fwdOf half
  let g := fun (ws : List Nat) i => (unpackBits ws v).getD i 0
  let key := fun (w : Nat) => index.getD (v % 2 ^ w)
  let entry := (brOfBits v).map (fun e => { e with svc := none, stamp := s.tickNow half })
  if tbl = 0 then
    match index with
    | some i => if overflowBase + 4096 ≤ i then .fail s .badParam else .ok (s.setBr half i (if del then none else entry))
    | none =>
      if del then .ok (match s.brFind half (v / 2 ^ 48 % 2 ^ 16) (v % 2 ^ 48) with
        | some p => s.setBr half p.1 none
        | none => s)
      else match entry with
        | some e => .ofOpt s (s.macPut half e)
        | none => .fail s .badParam
  else if tbl = 1 then
    let e := svcOfFields (unpackBits svcWidths v)
    match index, del with
    | some i, _ => if 1048575 < i then .fail s .badParam else .ok (s.setFwd half { f with svcs := f.svcs.put i e })
    | none, true => .ok (s.svcDel half e.up e.source e.ovid e.ivid)
    | none, false => .ofOpt s (s.svcPut half e)
  else if tbl = 2 then
    let r : Route := ⟨g routeWidths 0 = 1, g routeWidths 1, g routeWidths 2, g routeWidths 3, g routeWidths 4⟩
    let r := { r with prefix_ := prefixBits r.v6 r.len r.prefix_ }
    if (if r.v6 then 128 else 32) < r.len then .fail s .badParam
    else match index with
      | some i =>
        let rs := putAt f.routes i (·.same r) r
        if f.routes.length < i then .fail s .badParam
        else if 1048576 < sumOn rs Route.units then .fail s .noRoom
        else .ok (s.setFwd half { f with routes := rs })
      | none =>
        if del then .ok (s.setFwd half { f with routes := f.routes.filter (fun q => !q.same r) })
        else .ofOpt s (s.routePut half r)
  else if tbl = 3 then
    let n := g nhWidths
    if 262143 < key 18 ∨ (!del ∧ !nhOk (n 1) (n 2)) then .fail s .badParam
    else .ok (s.setFwd half { f with nhs := f.nhs.setOpt (key 18) (if del then none else some ⟨n 1, n 2, n 3, n 4, n 5, n 6, n 7⟩) })
  else if tbl = 4 then
    let b : Binding := ⟨g bindWidths 0, g bindWidths 1, g bindWidths 2, g bindWidths 3⟩
    if b.kind = 3 then .fail s .badParam
    else match index with
      | some i =>
        let bs := putAt f.binds i (· == b) b
        if f.binds.length < i then .fail s .badParam
        else if 262144 < sumOn bs Binding.units then .fail s .noRoom
        else .ok (s.setFwd half { f with binds := bs })
      | none =>
        if del then .ok (s.setFwd half { f with binds := f.binds.filter (fun q => decide (q ≠ b)) })
        else .ofOpt s (s.bindPut half b)
  else if tbl = 5 then
    let b := g bdWidths
    if 65535 < key 16 ∨ b 8 = 3 then .fail s .badParam
    else .ok (s.setFwd half { f with bds := f.bds.setOpt (key 16) (if del then none
      else some ⟨b 1 = 1, b 2 = 1, b 3 = 1, b 4 = 1, b 5, b 6, b 7, b 8⟩) })
  else if tbl = 6 then
    if 16383 < key 14 then .fail s .badParam
    else match if del then some [] else windowFlood (Tbl.getD f.floods (key 14) []) v with
      | some ds => .ofOpt s (s.floodPut half (key 14) ds)
      | none => .fail s .badParam
  else if 15 < key 4 then .fail s .badParam
  else .ok (s.setFwd half { f with rmacs := f.rmacs.setD (key 4) 0 (if del then 0 else v / 16 % 2 ^ 48) })

/-- R319: a refused expert access or seed write. -/
def State.brReject (s : State) (half : Nat) : State := s.report .brCfgReject half .brCfgReject half 0

/-- R321: one access of the window runs; its outcome stands in BR_ACC_STAT, and a refused one counts (R319). -/
def State.accRun (s : State) (p : APath) (half : Nat) (data : Word) : State :=
  let i := copyInst half (apathCode p)
  let tbl := fldOf .brAccCtlTable data
  let op := fldOf .brAccCtlOp data
  let index := fldOf .brAccCtlIndex data
  let done := fun (s : State) (found : Bool) (st : Status) =>
    ((s.setFlag .brAccStatFound i found).setFld .brAccStatStatus i st.code).setFlag .brAccStatBusy i false
  let s := s.chargePort [half] (if tbl = 2 then routeSpan else accessSpan)
  if op < 2 then
    match s.accRead half tbl (op = 0) (s.accData i) index with
    | some v => done (s.setAccData i v) true .ok
    | none => done s false .ok
  else
    let found := op ≠ 4 ∧ (s.accRead half tbl true (s.accData i) index).isSome
    let r := s.accWrite half tbl (s.accData i) (if op = 4 then some index else none) (op = 3)
    done (if r.status = .ok then r.st else r.st.brReject half) found r.status

/-- R321: an access with the fields in force waits for TBL_HOST with busy set, or runs. -/
def State.accGo (s : State) (p : APath) (half : Nat) (w : Word) : State :=
  let s := s.wantPort [half] accessSpan
  if s.tableBlocked [half] accessSpan then
    { s.setFlag .brAccStatBusy (copyInst half (apathCode p)) true with
      tableWaits := s.tableWaits ++ [⟨none, [half], .brAccGo p (BitVec.ofNat 1 half) w, none⟩] }
  else s.accRun p half w

/-- R321, R322: a write of BR_ACC_CTL; go runs the access with the fields as they then stand, and is refused while the path's access
waits. -/
def State.writeAccess (s : State) (p : APath) (half : Nat) (data : Word) : State :=
  let i := copyInst half (apathCode p)
  if data.getLsbD 31 && s.flag .brAccStatBusy i then s.brReject half
  else
    let (s', w) := s.meet p half .brAccCtl i data
    let s' := s'.setReg .brAccCtl i w
    if data.getLsbD 31 then s'.accGo p half w else s'

def execBrAccGo (p : APath) (half : BitVec 1) (data : Word) (s : State) : Host.Outcome State Fault Refusal :=
  .next (s.writeAccess p half.toNat data)

/-- R302: BR_SEED is writable only while the half's bridge table is empty. -/
def State.writeSeed (s : State) (half : Nat) (data : Word) : State :=
  if (s.fwdOf half).bridge.isEmpty then s.setReg .brSeed half data else s.brReject half

end Sys2Proof.Machine
end

