-- ==== Sys2Proof/Machine/Port.lean ====
section
/-!
DEFINITION. Table writes that waited for the maintenance port, as they land (R35, R279, R305), and the ration periods, at whose opening
they do (R27, R36).
-/

namespace Sys2Proof.Machine

/-- What a waiting command does in one half, and its time on the port. -/
def tableBody (i : Instr) : Option (Hdr × Nat × (Caller → Nat → State → Res)) :=
  match i with
  | .ruleWrite h t x p v m a => some (h, accessSpan, bodyRuleWrite t x p v m a)
  | .ruleDelete h t x => some (h, accessSpan, bodyRuleDelete t x)
  | .ruleCommit h => some (h, 0, bodyRuleCommit)
  | .ruleAbort h => some (h, 0, bodyRuleAbort)
  | .tableBdSet h w => some (h, accessSpan, bodyTableBdSet w)
  | .tableRmacSet h x m => some (h, accessSpan, bodyTableRmacSet x m)
  | .tableFloodSet h g ds => some (h, accessSpan, bodyTableFloodSet g ds)
  | .tableSvcSet h w => some (h, accessSpan, bodyTableSvcSet w)
  | .tableSvcClear h d a o i => some (h, accessSpan, bodyTableSvcClear d a o i)
  | .tableMacAdd h b m f k d => some (h, accessSpan, bodyTableMacAdd b m f k d)
  | .tableMacDel h b m => some (h, accessSpan, bodyTableMacDel b m)
  | .tableRouteSet h v p l n => some (h, routeSpan, bodyTableRouteSet v p l n)
  | .tableRouteClear h v p l => some (h, routeSpan, bodyTableRouteClear v p l)
  | .tableNhSet h x w => some (h, accessSpan, bodyTableNhSet x w)
  | .tableBindSet h o p k a => some (h, accessSpan, bodyTableBindSet o p k a)
  | .tableBindClear h o p k a => some (h, accessSpan, bodyTableBindClear o p k a)
  | _ => none

def TableWait.span (w : TableWait) : Nat :=
  match w.cmd, tableBody w.cmd with
  | .rulCommitWrite _ _ _, _ => 0
  | _, some (_, span, _) => span
  | _, none => accessSpan

/-- A waiting change has its effect, and a command is answered with its normal status. -/
def State.landOne (s : State) (w : TableWait) : State :=
  match w.caller, tableBody w.cmd with
  | some c, some (h, span, body) =>
    let r := (onHalves h (body c) s).onPort w.halves span
    r.st.answer c r.status r.words
  | _, _ =>
    match w.cmd, w.entry with
    | .brAccGo p half data, _ => s.accRun p half.toNat data
    | .rulCommitWrite p half data, _ => s.rulCommitNow p half.toNat data
    | .rulEntWr p half _, some x => s.rulEntNow p half.toNat x
    | _, _ => s

/-- The changes that wait, oldest first: each that finds its ports free lands, the others wait on. -/
def State.landWrites (s : State) : State :=
  s.tableWaits.foldl (fun s w =>
    let s := s.wantPort w.halves w.span
    if s.tableBlocked w.halves w.span then { s with tableWaits := s.tableWaits ++ [w] } else s.landOne w) { s with tableWaits := [] }

/-- R279: the staged writes that waited land, and the commit behind them bumps cur or finds 15 versions held. -/
def execCommitBump (_half : BitVec 1) (s : State) : Host.Outcome State Fault Refusal := .next s.landWrites

/-- A period opens, and what waited for a ration of the maintenance port, for SKEW, or for those of PM goes on. -/
def State.newPeriod (s : State) : State :=
  let s := ((s.openPeriod.landWrites).skewServe 0).skewServe 1
  (List.range 6).foldl State.pmCommit s

/-- R27, R55: a TAI multiple of 125 µs is reached, on the replica of every die; all meters of the package are reset together. -/
def execRationPeriodStart (s : State) : Host.Outcome State Fault Refusal :=
  .next (if s.allReached s.rtn.next then s.newPeriod else s)

/-- R36: after a backward step the device opens a period at the limit of 125 µs of elapsed time (counted from the opening of the
period in force: log entry 10). -/
def execRationPeriodForced (s : State) : Host.Outcome State Fault Refusal :=
  .next (if s.rtn.stepped ∧ s.rtn.opened + frameSpan ≤ s.elapsed then s.newPeriod else s)

end Sys2Proof.Machine
end

