-- ==== Sys2Proof/Machine/Learning.lean ====
section
/-!
DEFINITION. Learning, refreshes, ageing and the re-seat sweep (R307-R316, R318).
-/

namespace Sys2Proof.Machine

/-! ### Events and refresh requests (R308, R309, R316, R318) -/

/-- R309: an event joins the queue, merged with one of its key and destination; past 65,536 it is dropped. -/
def State.queueLearn (s : State) (half : Nat) (e : LrnEv) : State :=
  let f := s.fwdOf half
  if f.lrnQ.any (fun x => x.bd = e.bd && x.mac = e.mac && x.dkind = e.dkind && x.dest = e.dest) then s.count .lrnMerge half
  else if 65536 ≤ f.lrnQ.length then s.report .lrnQDrop half .lrnQDrop half 0
  else s.setFwd half { f with lrnQ := f.lrnQ ++ [e] }

/-- R316: a refresh request, merged with one for its key; past 1,024 it is dropped. -/
def State.queueRefresh (s : State) (half bd mac : Nat) : State :=
  let f := s.fwdOf half
  if f.refreshQ.contains (bd, mac) then s
  else if 1024 ≤ f.refreshQ.length then s.count .brRefreshDrop half
  else s.setFwd half { f with refreshQ := f.refreshQ ++ [(bd, mac)] }

/-- R308: the domain of a source key learns, and so does the service entry it is learned for, if any (log entry 59). -/
def State.learns (s : State) (half : Nat) (e : LrnEv) : Bool :=
  ((s.fwdOf half).bds.find e.bd).any (fun b => b.valid && b.learn)
    && e.svc.all (fun i => ((s.fwdOf half).svcs.find i).any (fun v => v.learn))

/-- R308: what a source lookup issues. -/
def State.learnFrom (s : State) (half : Nat) (e : LrnEv) : State :=
  match s.brFind half e.bd e.mac with
  | some (_, x) =>
    if x.dkind = e.dkind ∧ x.dest = e.dest then
      if x.stamp = s.tickNow half then s else s.queueRefresh half e.bd e.mac
    else if s.flag .lrnCfgEn half then s.queueLearn half e else s
  | none => if s.flag .lrnCfgEn half then s.queueLearn half e else s

/-- R318: a head that arrives over the bridge: the seen filter, then as R308. The bridge carries a source key and a return
destination, no service entry (R15): what this half learns is bound to none of its own. -/
def State.learnArrival (s : State) (half : Nat) (e : LrnEv) : State :=
  if !s.flag .lrnCfgXlearn half then s
  else
    let b := s.bucket half e.bd e.mac % 65536
    if (s.fwdOf half).seen.find b = some (e.bd, e.mac) then s
    else (if s.learns half e then s.learnFrom half e else s).modFwd half (fun f => { f with seen := f.seen.put b (e.bd, e.mac) })

/-! ### The engine (R310-R312) -/

/-- The damping window of R311: whole windows of elapsed time, modulo 64. -/
def State.moveWindow (s : State) (half : Nat) : Nat := s.elapsed / msSpan (s.fld .lrnCfgMoveWin half) % 64

/-- R311: the freeze of an entry has ended. -/
def State.thawed (s : State) (half : Nat) (x : BrEnt) : Bool :=
  (s.fld .lrnCfgHold half : Int) ≤ signedOf 6 ((s.moveWindow half + 64 - x.dmp) % 64)

/-- R312: a service entry already holds its limit of learned entries, the one at `except` aside. -/
def State.atMacLimit (s : State) (half : Nat) (svc : Option Nat) (except : Option Nat) : Bool :=
  match svc with
  | none => false
  | some i =>
    match (s.fwdOf half).svcs.find i with
    | none => false
    | some e => 0 < e.macLimit && e.macLimit ≤ ((s.fwdOf half).bridge.filter (fun p => p.2.svc = some i && some p.1 != except)).length

def State.macLimited (s : State) (half : Nat) : State := (s.count .lrnLimit half).raiseOnce .lrnLimit half 0

/-- R311: a move of a dynamic entry. -/
def State.moveEntry (s : State) (half i : Nat) (x : BrEnt) (e : LrnEv) : State :=
  let x := if x.frozen && s.thawed half x then { x with frozen := false, moveCnt := 0 } else x
  if x.frozen then s.count .lrnMoveFrozen half
  else if s.atMacLimit half e.svc (some i) then (s.setBr half i (some x)).macLimited half
  else
    let w := s.moveWindow half
    let x := if x.dmp = w then x else { x with moveCnt := 0, dmp := w }
    if x.moveCnt = s.fld .lrnCfgMoveThr half then
      (s.setBr half i (some { x with frozen := true, dmp := w })).report .lrnFreeze half .lrnFreeze half 0
    else
      (s.setBr half i (some { x with moveCnt := x.moveCnt + 1, dkind := e.dkind, dest := e.dest, svc := e.svc, stamp := s.tickNow half })).count
        .lrnMove half

/-- R310: an event is decided against the entry as it stands. -/
def State.learn (s : State) (half : Nat) (e : LrnEv) : State :=
  match s.brFind half e.bd e.mac with
  | none =>
    if s.atMacLimit half e.svc none then s.macLimited half
    else match s.brInsert half ⟨false, false, e.dkind, s.tickNow half, 0, 0, e.dest, e.svc, e.bd, e.mac⟩ with
      | some s' => s'.count .lrnNew half
      | none => (s.count .brInsFail half).raiseOnce .brInsFail half 0
  | some (i, x) =>
    let same := x.dkind = e.dkind ∧ x.dest = e.dest
    if x.static_ then (if same then s else (s.count .lrnStaticViol half).raiseOnce .lrnStaticViol half 0)
    else if same then s.setBr half i (some { x with stamp := s.tickNow half })
    else s.moveEntry half i x e

/-- The engine takes the oldest event, unless TBL_LEARN makes it wait; host writes behind it may then have the port (R305). -/
def execLearnEvent (half : BitVec 1) (s : State) : Host.Outcome State Fault Refusal :=
  let h := half.toNat
  let f := s.fwdOf h
  match f.lrnQ with
  | [] => .next s
  | e :: rest =>
    let s := s.rationed h tblLearn accessSpan (fun s => (s.setFwd h { s.fwdOf h with lrnQ := rest }).learn h e)
    .next s.landWrites

/-- R305: maintenance of a half waits for the port behind learning events that may be served; host writes that may be served have
landed. -/
def State.maintWaits (s : State) (half : Nat) : Bool := !(s.fwdOf half).lrnQ.isEmpty && !s.rationWaits half tblLearn

/-- R316: a refresh finds its entry by key, and does nothing where there is none (R305). -/
def execRefreshRequest (half : BitVec 1) (s : State) : Host.Outcome State Fault Refusal :=
  let h := half.toNat
  let s := s.landWrites
  let f := s.fwdOf h
  match f.refreshQ with
  | [] => .next s
  | (bd, mac) :: rest =>
    if s.maintWaits h then .next s
    else .next (s.rationed h tblMaint accessSpan (fun s =>
      let s := s.setFwd h { s.fwdOf h with refreshQ := rest }
      match s.brFind h bd mac with
        | some (i, x) => s.setBr h i (some { x with stamp := s.tickNow h })
        | none => s))

/-! ### Ageing (R313-R315) -/

/-- R313, R315, R318: after BR_AGE_CFG.tick × 100 ms of elapsed time the tick advances; the seen filter is cleared; a round starts, or
the one in progress is late. -/
def execAgeingTick (half : BitVec 1) (s : State) : Host.Outcome State Fault Refusal :=
  let h := half.toNat
  let due := (s.fwdOf h).tickAt + msSpan (100 * s.fld .brAgeCfgTick h)
  if s.elapsed < due then .next s else
  let s := s.modFwd h (fun f => { f with tickAt := due })
  let s := s.setFld .lrnStatTickNow h ((s.tickNow h + 1) % 1024)
  .next (s.modFwd h (fun f => match f.scan with
    | none => { f with seen := [], scan := some 0 }
    | some _ => { f with seen := [], late := f.late + 1 }))

/-- R314: an entry is aged. -/
def State.aged (s : State) (half : Nat) (x : BrEnt) : Bool :=
  let d := signedOf 10 ((s.tickNow half + 1024 - x.stamp) % 1024)
  let age := s.fld .brAgeCfgAge half
  !x.static_ && age != 0 && (decide ((age : Int) ≤ d) || decide (d < 0))

/-- R311, R314: a visit to one place. -/
def State.visit (s : State) (half i : Nat) : State :=
  match s.br half i with
  | none => s
  | some x =>
    if s.aged half x then (s.setBr half i none).count .brAged half
    else if x.frozen && s.thawed half x then s.setBr half i (some { x with frozen := false, moveCnt := 0 })
    else s

/-- R314: the scan's next access, behind any waiting refresh (R305): a bucket's ways, or 16 overflow slots. -/
def execAgeingScanVisit (half : BitVec 1) (s : State) : Host.Outcome State Fault Refusal :=
  let h := half.toNat
  let s := s.landWrites
  match (s.fwdOf h).scan with
  | none => .next s
  | some n =>
    if s.maintWaits h ∨ !(s.fwdOf h).refreshQ.isEmpty then .next s
    else .next (s.rationed h tblMaint accessSpan (fun s =>
      let places := if n < 1048576 then (List.range 4).map (4 * n + ·) else (List.range 16).map (overflowBase + 16 * (n - 1048576) + ·)
      let s := places.foldl (fun s i => s.visit h i) s
      s.modFwd h (fun f => { f with scan := if n + 1 < scanEnd then some (n + 1) else none })))

/-- R315: a tick of overrun is counted and raised. -/
def execScanLate (half : BitVec 1) (s : State) : Host.Outcome State Fault Refusal :=
  let h := half.toNat
  let f := s.fwdOf h
  .next (if f.late = 0 then s else (s.setFwd h { f with late := f.late - 1 }).report .brScanLate h .brScanLate h 0)

/-! ### The re-seat sweep (R307) -/

/-- The sweep's next valid slot, from its place on and then from the first. -/
def State.nextSlot (s : State) (half : Nat) : Option Nat :=
  let f := s.fwdOf half
  let slots := (f.bridge.filter (fun p => overflowBase ≤ p.1)).map (fun p => p.1 - overflowBase)
  match slots.find? (fun i => f.reseat ≤ i) with
  | some i => some i
  | none => slots.head?

/-- R307: a visit: the slot's entry moves to the lowest free way of its bucket, if there is one; the copy and the
invalidation are one step, so that no lookup finds neither. -/
def execReseatVisit (half : BitVec 1) (s : State) : Host.Outcome State Fault Refusal :=
  let h := half.toNat
  let s := s.landWrites
  match s.nextSlot h with
  | none => .next s
  | some slot =>
    if s.maintWaits h ∨ !(s.fwdOf h).refreshQ.isEmpty ∨ (s.fwdOf h).scan.isSome then .next s
    else
      let i := overflowBase + slot
      let room := (s.br h i).bind (fun x => (s.brFree h 4 (4 * s.bucket h x.bd x.mac)).map (fun w => (x, w)))
      .next (s.rationed h tblMaint (if room.isSome then 3 * accessSpan else accessSpan) (fun s =>
        let s := s.modFwd h (fun f => { f with reseat := (slot + 1) % 4096 })
        match room with
        | some (x, w) => (s.setBr h w (some x)).setBr h i none
        | none => s))

end Sys2Proof.Machine
end

