-- ==== Sys2Proof/Machine/Editors.lean ====
section
/-!
DEFINITION. The editors (R341-R345): programs over a frame's leading bytes, and the TABLE commands that write them.
-/

namespace Sys2Proof.Machine

/-! ### Bytes -/

/-- The leading bytes written out up to a length. -/
def Frame.told (f : Frame) (n : Nat) : List Byte := (List.range n).map (fun i => BitVec.ofNat 8 (f.byte i))

/-- Replaces the bytes at an offset. -/
def Frame.poke (f : Frame) (off : Nat) (bs : List Byte) : Frame :=
  let h := f.told (max f.head.length (off + bs.length))
  { f with head := h.take off ++ bs ++ h.drop (off + bs.length) }

/-- Puts bytes in front of an offset. -/
def Frame.insert (f : Frame) (off : Nat) (bs : List Byte) : Frame :=
  let h := f.told (max f.head.length 256)
  { f with len := f.len + bs.length, head := h.take off ++ bs ++ h.drop off }

/-- Takes bytes out at an offset. -/
def Frame.remove (f : Frame) (off n : Nat) : Frame :=
  let h := f.told (max f.head.length 256)
  { f with len := f.len - n, head := h.take off ++ h.drop (off + n) }

/-- A one's-complement sum with one 16-bit word changed (R342, R68). -/
def sumUpdate (c old new : Nat) : Nat :=
  let fold := fun (n : Nat) => n % 65536 + n / 65536
  65535 - fold (fold ((65535 - c) + (65535 - old) + new))

/-! ### Where headers lie -/

/-- The offset of the outermost header of a type. -/
def Parsed.at (p : Parsed) (f : Frame) (typ : Nat) : Option Nat :=
  (p.starts.find? (fun x => x.1 = typ && x.2 + minLength typ ≤ f.len - 4)).map Prod.snd

/-- The end of the Ethernet header and its VLAN tags. -/
def Parsed.l2End (p : Parsed) (f : Frame) : Nat :=
  14 + 4 * ((p.starts.drop 1).takeWhile (fun x => x.1 = tVlan && x.2 + 4 ≤ f.len - 4)).length

/-! ### Operations (R342) -/

/-- A remark entry: DSCP, PCP with DEI, TC (R344). -/
def State.remark (s : State) (half t cls colour : Nat) : Nat × Nat × Nat :=
  Tbl.getD (s.storeOf half).remark (t * 64 + cls * 4 + colour) (0, 0, 0)

/-- What an operation does: the frame, or nothing where its header is absent. -/
def State.editOp (s : State) (half : Nat) (m : Meta) (f : Frame) (w : Word) : Option Frame :=
  let op := fieldOf 28 4 w
  let arg := w.toNat % 2 ^ 28
  let p := s.parse half f 0 tEth
  let bit := fun i => w.getLsbD i
  /- The outermost IP header: whether it is IPv4, and its offset. -/
  let ip := match p.at f tIp4, p.at f tIp6 with
    | some o, some o' => some (if o < o' then (true, o) else (false, o'))
    | some o, none => some (true, o)
    | none, some o => some (false, o)
    | none, none => none
  let set16 := fun (f : Frame) off v => f.poke off (bytesBE 2 v)
  /- The IPv4 header's checksum follows a change of one of its words. -/
  let ip4Word := fun (f : Frame) (ip at_ new : Nat) =>
    let old := f.be at_ 2
    set16 (set16 f at_ new) (ip + 10) (sumUpdate (f.be (ip + 10) 2) old new)
  if op = 1 then
    let tpid := if fieldOf 26 2 w = 0 then 0x8100 else if fieldOf 26 2 w = 1 then 0x88A8 else 0x9100
    let pd := if bit 25 then (s.remark half 0 m.cls m.colour).2.1 else fieldOf 21 4 w
    some (f.insert 12 (bytesBE 2 tpid ++ bytesBE 2 (pd * 4096 + arg % 4096)))
  else if op = 2 then (p.at f tVlan).map (fun o => f.remove (o - 2) 4)
  else if op = 3 then (p.at f tVlan).map (fun o => set16 f o (f.be o 2 / 4096 * 4096 + arg % 4096))
  else if op = 4 then
    let o := p.l2End f
    let bottom := if (p.at f tMpls).isSome then 0 else 1
    let ttl := if bit 23 ∧ (p.v4.isSome ∨ p.v6.isSome) then p.ttl else 255
    some ((set16 f (o - 2) 0x8847).insert o (bytesBE 4 (arg % 2 ^ 20 * 4096 + fieldOf 20 3 w * 512 + bottom * 256 + ttl)))
  else if op = 5 then
    (p.at f tMpls).bind (fun o =>
      let bottom := f.be o 4 / 256 % 2 = 1
      let nib := f.byte (o + 4) / 16
      if !bottom then some (f.remove o 4)
      else if arg % 65536 != 0 then some (set16 (f.remove o 4) (o - 2) (arg % 65536))
      else if nib = 4 then some (set16 (f.remove o 4) (o - 2) 0x0800)
      else if nib = 6 then some (set16 (f.remove o 4) (o - 2) 0x86DD)
      else none)
  else if op = 6 then
    match m.nh with
    | some (dmac, smac) => some (f.poke 0 (bytesBE 6 dmac ++ bytesBE 6 smac))
    | none => some f
  else if op = 7 then
    ip.map (fun x => if x.1 then ip4Word f x.2 (x.2 + 8) ((f.byte (x.2 + 8) - 1) * 256 + f.byte (x.2 + 9))
      else f.poke (x.2 + 7) (bytesBE 1 (f.byte (x.2 + 7) - 1)))
  else if op = 8 then
    let r := s.remark half (arg % 16) m.cls m.colour
    let tag := p.at f tVlan
    let lab := p.at f tMpls
    if (bit 4 ∧ ip.isNone) ∨ (bit 5 ∧ tag.isNone) ∨ (bit 6 ∧ lab.isNone) then none
    else
      let f := match bit 4, ip with
        | true, some (true, o) => ip4Word f o o (f.byte o * 256 + r.1 * 4 + f.byte (o + 1) % 4)
        | true, some (false, o) => set16 f o (f.be o 2 / 4096 * 4096 + (r.1 * 4 + f.be o 2 / 16 % 4) * 16 + f.be o 2 % 16)
        | _, _ => f
      let f := match bit 5, tag with
        | true, some o => set16 f o (r.2.1 * 4096 + f.be o 2 % 4096)
        | _, _ => f
      some (match bit 6, lab with
        | true, some o =>
          let v := f.be o 4
          f.poke o (bytesBE 4 (v / 4096 * 4096 + r.2.2 * 512 + v % 512))
        | _, _ => f)
  else if op = 9 then
    let o := p.l2End f
    let proto := if f.be (o - 2) 2 = 0x0800 then some 0x0021 else if f.be (o - 2) 2 = 0x86DD then some 0x0057 else none
    proto.map (fun q =>
      (set16 f (o - 2) 0x8864).insert o (bytesBE 2 0x1100 ++ bytesBE 2 (arg % 65536) ++ bytesBE 2 (f.len - 4 - o + 2) ++ bytesBE 2 q))
  else if op = 10 then
    (p.at f tPppoe).bind (fun o =>
      let q := f.be (o + 6) 2
      if q = 0x0021 then some (set16 (f.remove o 8) (o - 2) 0x0800)
      else if q = 0x0057 then some (set16 (f.remove o 8) (o - 2) 0x86DD)
      else none)
  else some f

/-- R341: the words in order up to the first end; with the operations skipped (R343). -/
def State.runEdit (s : State) (half : Nat) (m : Meta) : List Word → Frame → Nat → Frame × Nat
  | [], f, n => (f, n)
  | w :: ws, f, n =>
    if fieldOf 28 4 w = 0 then (f, n)
    else match s.editOp half m f w with
      | some f' => State.runEdit s half m ws f' n
      | none => State.runEdit s half m ws f (n + 1)

/-- R343: the edited frame, padded to 60 bytes without its FCS (log entry 63); operations skipped; whether it was padded. -/
def State.edited (s : State) (half : Nat) (m : Meta) : Frame × Nat × Bool :=
  let prog := if m.prog = 0 then [] else Tbl.getD (s.storeOf half).progs m.prog []
  let (f, n) := s.runEdit half m prog m.head.frame 0
  if f.len < 64 then ({ f with len := 64, head := if f.len - 4 ≤ f.head.length then f.head.take (f.len - 4) ++ List.replicate (64 - f.len) 0 else f.head }, n, true)
  else (f, n, false)

/-! ### Commands (R348, R349) -/

/-- A reserved op (11-15). -/
def editWordOk (w : Word) : Bool := fieldOf 28 4 w ≤ 10

def State.setProg (s : State) (half n : Nat) (ops : List Word) : State :=
  let st := s.storeOf half
  s.setStore half { st with progs := st.progs.setD n [] ops }

def execTableEditSet (h : Hdr) (prog : Word) (ops : List Word) (s : State) : Host.Outcome State Fault Refusal :=
  .next (ruleCommand h 0x0810 .edt (fun _ => prog.toNat < 1 || 4095 < prog.toNat || 8 < ops.length || !ops.all editWordOk)
    (fun _ half s => .ok (s.setProg half prog.toNat ops)) s)

/-- An entry: DSCP in [5:0], PCP with DEI in [9:6], TC in [12:10], by class and then colour (log entry 63). -/
def execTableRemarkSet (h : Hdr) (table : Word) (entries : List Word) (s : State) : Host.Outcome State Fault Refusal :=
  .next (ruleCommand h 0x0811 .edt (fun _ => 15 < table.toNat || entries.length != 48 || entries.any (fun e => 8191 < e.toNat))
    (fun _ half s =>
      let st := s.storeOf half
      .ok (s.setStore half { st with remark := (List.range 48).foldl (fun r i =>
        let e := entries.getD i 0
        r.setD (table.toNat * 64 + i / 3 * 4 + i % 3) (0, 0, 0) (fieldOf 0 6 e, fieldOf 6 4 e, fieldOf 10 3 e)) st.remark })) s)

/-- Bit 31 asks for a remark table, else for a program. -/
def execTableEditRead (h : Hdr) (which : Word) (s : State) : Host.Outcome State Fault Refusal :=
  .next (command h 0x0812 ruleDies (fun _ s =>
    let n := which.toNat % 2 ^ 31
    if (which.getLsbD 31 ∧ 15 < n) ∨ (¬which.getLsbD 31 ∧ 4095 < n) then .fail s .badParam
    else onHalves h (fun half s =>
      .ok s (if which.getLsbD 31 then (List.range 48).map (fun i =>
          let r := s.remark half n (i / 3) (i % 3)
          BitVec.ofNat 32 (r.1 + r.2.1 * 64 + r.2.2 * 1024))
        else listWords (Tbl.getD (s.storeOf half).progs n []))) s) s)

/-- R349: the staged words become the selected program in one access; program 0 is fixed. A reserved op does not reach the staging
(R10: the fields of EDT_OP). -/
def State.commitEdit (s : State) (p : APath) (half : Nat) (data : Word) : State :=
  let i := copyInst half (apathCode p)
  let n := (s.reg .epsel i).toNat
  let ops := (List.range 8).map (fun k => s.reg .edtOp (i * 128 + k))
  if !data.getLsbD 0 ∨ n = 0 then s
  else s.setProg half n ops

def execEdtCommit (p : APath) (half : BitVec 1) (data : Word) (s : State) : Host.Outcome State Fault Refusal :=
  .next (s.commitEdit p half.toNat data)

end Sys2Proof.Machine
end

