-- ==== Sys2Proof/Machine/GateLists.lean ====
section
/-!
DEFINITION. Gate lists (R385-R399): what a list says at an instant, the staging buffer, and how a list is armed. A
controller of a half is 0-31 for an uplink port and 32 + (channel mod 64) for a channel (R402).
-/

namespace Sys2Proof.Machine

/-! ### A list in time (R386, R394, R399) -/

/-- An entry's place in the cycle: entry number, offset and mask, up to the cycle's end. -/
def entryOffsets (cycle : Nat) : List (Nat × Nat) → Nat → Nat → List (Nat × Nat × Nat)
  | [], _, _ => []
  | (int, mask) :: rest, i, off => if cycle ≤ off then [] else (i, off, mask) :: entryOffsets cycle rest (i + 1) (off + int)

def GateList.offsets (l : GateList) : List (Nat × Nat × Nat) := entryOffsets l.cycle l.entries 0 0

/-- The position in the cycle in 2^-32 ns, in the range 0 to cycle - 1 ns. -/
def GateList.position (l : GateList) (t : Nat) : Nat := (((t : Int) - l.start) % (nsSpan l.cycle : Nat)).toNat

/-- The entry in force at an instant with its mask: the last whose offset the position has reached. -/
def GateList.entryAt (l : GateList) (t : Nat) : Nat × Nat :=
  l.offsets.foldl (fun best e => if nsSpan e.2.1 ≤ l.position t then (e.1, e.2.2) else best) (0, 0xFF)

/-- The entries' instants in the cycle that holds `t` and the next one, with their masks. -/
def GateList.instants (l : GateList) (t : Nat) : List (Int × Nat) :=
  let c0 : Int := (t : Int) - l.position t
  l.offsets.map (fun e => (c0 + nsSpan e.2.1, e.2.2)) ++ l.offsets.map (fun e => (c0 + nsSpan l.cycle + nsSpan e.2.1, e.2.2))

/-- The list that governs an instant: the one armed, from its start on, else the one in force (R395). -/
def Store.listAt (x : Store) (g t : Nat) : Option GateList :=
  match x.armed.find g with
  | some l => if reached t l.start then some l else x.gates.find g
  | none => x.gates.find g

def Store.maskAt (x : Store) (g t : Nat) : Nat := ((x.listAt g t).map (fun l => (l.entryAt t).2)).getD 0xFF

/-- R391: gate n is open at an instant. -/
def Store.gateOpen (x : Store) (g n t : Nat) : Bool := (x.maskAt g t).testBit n

/-- R391: the next instant after `e` at which an open gate closes, within one cycle; a list armed to start within it
counts. -/
def Store.nextClose (x : Store) (g n e : Nat) : Option Int :=
  let cyc := match x.listAt g e, x.armed.find g with
    | some l, _ => nsSpan l.cycle
    | none, some l => nsSpan l.cycle
    | none, none => 0
  let here := ((x.listAt g e).map (fun l => l.instants e)).getD []
  let pending := match x.armed.find g with
    | some l => if e < l.start then some l else none
    | none => none
  let here := match pending with
    | some l => here.filter (fun i => i.1 < l.start)
    | none => here
  let new := (pending.map (fun l => l.instants l.start)).getD []
  ((here ++ new).filter (fun i => decide ((e : Int) < i.1) && decide (i.1 ≤ ((e + cyc : Nat) : Int)) && !i.2.testBit n)).foldl
    (fun (best : Option Int) i => match best with
      | none => some i.1
      | some b => some (min b i.1)) none

/-! ### The staging buffer (R387, R402, R403) -/

def entryInst (half g i : Nat) : Nat := (half * 128 + g) * 1024 + i

def State.stagedEntries (s : State) (half g count : Nat) : List (Nat × Nat) :=
  (List.range count).map (fun i => (s.fld .gtEntIntInterval (entryInst half g i), (s.reg .gtEntGates (entryInst half g i)).toNat))

def isEntryKey (half g k : Nat) : Bool :=
  k / 1024 / 1024 = half * 128 + g && (k % 1024 = Reg.gtEntInt.ctorIdx || k % 1024 = Reg.gtEntGates.ctorIdx)

/-- The two buffers of a controller exchange roles. -/
def State.swapBuffers (s : State) (half g : Nat) : State :=
  let st := s.storeOf half
  let mine := s.regs.filter (fun p => isEntryKey half g p.1)
  let s := { s with regs := (Tbl.getD st.spare g []).foldl (fun (r : Tbl Word) (p : Nat × Word) => r.put p.1 p.2) (s.regs.filter (fun p => !isEntryKey half g p.1)) }
  s.setStore half { st with spare := st.spare.setD g [] mine }

/-! ### Arming (R394-R397) -/

/-- Nanoseconds from a base to a later instant, as R51 counts them: the seconds modulo 2^48 and signed, no fraction. -/
def nsFrom (base lim : Nat) : Nat :=
  (signedOf 48 ((secOf lim + 2 ^ 48 - secOf base % 2 ^ 48) % 2 ^ 48) * 1000000000 + ((nsOf lim : Int) - (nsOf base : Int))).toNat

/-- S of R394, modulo 2^48 s, and whether it is later than the base. -/
def startOf (x base cycle : Nat) : Nat × Bool :=
  let lim := x + usSpan 10
  if reached base lim then (base, false)
  else ((base + ceilDiv (nsFrom base lim) cycle * nsSpan cycle) % (2 ^ 48 * secUnit), true)

/-- A half's store changed. -/
def State.modStore (s : State) (half : Nat) (f : Store → Store) : State := s.setStore half (f (s.storeOf half))

/-- S as GT_START_* hold it. -/
def State.setStart (s : State) (half g t : Nat) : State :=
  let i := half * 128 + g
  ((s.setReg .gtStartSecHi i (BitVec.ofNat 32 (secOf t / 2 ^ 32))).setReg .gtStartSecLo i (BitVec.ofNat 32 (secOf t))).setReg
    .gtStartNs i (BitVec.ofNat 32 (nsOf t))

/-- The staging buffer is armed to start at an instant: GT_START_* and GT_LIST_CTL say so. -/
def State.armAt (s : State) (half g start cycle count : Nat) : State :=
  ((((s.modStore half (fun st => { st with armed := st.armed.put g ⟨start, cycle, s.stagedEntries half g count⟩ })).setStart half g
    start).setFlag .gtListCtlArm (half * 128 + g) true).setFld .gtListCtlCount (half * 128 + g) count)

/-- R394: a start later than the base is marked, counted and raised. -/
def State.noteAdvance (s : State) (half g : Nat) (adv : Bool) : State :=
  if adv then (s.latchFlag .gtListCtlAdv (half * 128 + g)).report .gtStartAdv (half * 128 + g) .gateStartAdvanced half g else s

/-- R394: the staging buffer is armed, its start advanced past 10 µs where the base is too early. -/
def State.armList (s : State) (half g base cycle count : Nat) : State :=
  (s.armAt half g (startOf (s.nowOn half) base cycle).1 cycle count).noteAdvance half g (startOf (s.nowOn half) base cycle).2

/-- What arming a list answers: OK or ADVANCED. -/
def armStatus (adv : Bool) : Status := if adv then .advanced else .ok

/-- The staging registers that hold a list's base and cycle. -/
def State.stageList (s : State) (half g base cycle : Nat) : State :=
  let i := half * 128 + g
  (((s.setReg .gtBaseSecHi i (BitVec.ofNat 32 (secOf base / 2 ^ 32))).setReg .gtBaseSecLo i (BitVec.ofNat 32 (secOf base))).setReg
    .gtBaseNs i (BitVec.ofNat 32 (nsOf base))).setReg .gtCycle i (BitVec.ofNat 32 cycle)

def State.stagedBase (s : State) (half g : Nat) : Nat :=
  let i := half * 128 + g
  mkTime ((s.reg .gtBaseSecHi i).toNat * 2 ^ 32 + (s.reg .gtBaseSecLo i).toNat) (s.reg .gtBaseNs i).toNat

/-- R395: at S the staged list comes into force and the buffers exchange roles. -/
def State.startList (s : State) (half g : Nat) : State :=
  let st := s.storeOf half
  match st.armed.find g with
  | none => s
  | some l =>
    let s := s.setStore half { st with gates := st.gates.put g l, armed := st.armed.del g }
    (s.swapBuffers half g).setFlag .gtListCtlArm (half * 128 + g) false

/-- A list is armed whose start is yet to come. -/
def State.cancels (s : State) (half g : Nat) : Bool :=
  match (s.storeOf half).armed.find g with
  | none => false
  | some l => !reached (s.nowOn half) l.start

/-- R396: the staged list is disarmed, unless S is reached: then it starts. -/
def State.disarm (s : State) (half g : Nat) : State :=
  if s.cancels half g then
    (s.modStore half (fun st => { st with armed := st.armed.del g })).setFlag .gtListCtlArm (half * 128 + g) false
  else s.startList half g

/-- GT_STAT as it reads (R406). -/
def State.gtStat (s : State) (half g : Nat) : Word :=
  let st := s.storeOf half
  match st.gates.find g with
  | some l =>
    let e := l.entryAt (s.nowOn half)
    BitVec.ofNat 32 (e.2 % 256 * 2 ^ 11 + e.1 * 2 + 1)
  | none => BitVec.ofNat 32 (0xFF * 2 ^ 11)

/-! ### Commands (R401): a controller is an uplink port's lowest lane, or 128 + channel (log entry 64) -/

/-- The half and controller a word names. -/
def State.controller (s : State) (w : Word) : Option (Nat × Nat) :=
  let n := w.toNat
  if n < 64 then (if s.portOf n = n then some (n / 32, n % 32) else none)
  else if 128 ≤ n ∧ n < 256 ∧ ¬(s.is064 ∧ 64 ≤ n - 128) then some ((n - 128) / 64, 32 + (n - 128) % 64)
  else none

/-- A GATE command on a controller: BAD_PARAM where there is none, BLOCK_CLAIMED, then its own. -/
def gateCommand (h : Hdr) (op : Nat) (ctl : Word) (bad : Bool) (body : Nat → Nat → State → Res) (s : State) : State :=
  command h op (match s.controller ctl with
    | some (half, _) => .owner half
    | none => .oneOf [0, 1, 15]) (fun _ s =>
    match s.controller ctl with
    | none => .fail s .badParam
    | some (half, g) => if bad then .fail s .badParam else s.unlessClaimed [(half, .gt)] (body half g s)) s

/-- R390: gmax 60-12,288; guard 1-262,143, 0 the default. -/
def execGateGateSet (h : Hdr) (ctl gate gmax guard : Word) (s : State) : Host.Outcome State Fault Refusal :=
  .next (gateCommand h 0x0A00 ctl (7 < gate.toNat || gmax.toNat < 60 || 12288 < gmax.toNat || 262143 < guard.toNat)
    (fun half g s => .ok (s.setReg .gtGateCfg ((half * 128 + g) * 128 + gate.toNat) (BitVec.ofNat 32 (guard.toNat * 2 ^ 14 + gmax.toNat)))) s)

def entryOk (e : Word × Word) : Bool := 8 ≤ e.1.toNat && e.1.toNat ≤ 1000000000 && e.2.toNat < 256

/-- R387: entries from a first index on, as interval and mask. -/
def execGateEntriesWrite (h : Hdr) (ctl first : Word) (entries : List (Word × Word)) (s : State) : Host.Outcome State Fault Refusal :=
  .next (gateCommand h 0x0A01 ctl (508 < entries.length || 1024 < first.toNat + entries.length || !entries.all entryOk)
    (fun half g s =>
      if (s.storeOf half).armed.has g then .fail s .busy
      else .ok ((List.range entries.length).foldl (fun s k =>
        let e := entries.getD k (0, 0)
        let i := entryInst half g (first.toNat + k)
        (s.setReg .gtEntInt i e.1).setReg .gtEntGates i e.2) s)) s)

def t3Ok (t : T3) : Bool := t.hi.toNat < 65536 && t.ns.toNat < 1000000000

def execGateListStart (h : Hdr) (ctl : Word) (base : T3) (cycle count : Word) (s : State) : Host.Outcome State Fault Refusal :=
  .next (gateCommand h 0x0A02 ctl
    (!t3Ok base || cycle.toNat < 1000 || 1000000000 < cycle.toNat || count.toNat < 1 || 1024 < count.toNat)
    (fun half g s =>
      if (s.storeOf half).armed.has g then .fail s .busy
      else
        let a := startOf (s.nowOn half) (T3.time base) cycle.toNat
        { st := (s.stageList half g (T3.time base) cycle.toNat).armList half g (T3.time base) cycle.toNat count.toNat
          status := armStatus a.2, words := timeWords a.1 }) s)

def execGateListCancel (h : Hdr) (ctl : Word) (s : State) : Host.Outcome State Fault Refusal :=
  .next (gateCommand h 0x0A03 ctl false
    (fun half g s =>
      if s.cancels half g then .ok (s.disarm half g) else .fail (s.disarm half g) .notReady) s)

/-- R397: one entry, all gates open, a cycle of 1 s. -/
def execGateDisable (h : Hdr) (ctl : Word) (base : T3) (s : State) : Host.Outcome State Fault Refusal :=
  .next (gateCommand h 0x0A04 ctl (!t3Ok base)
    (fun half g s =>
      if (s.storeOf half).armed.has g then .fail s .busy
      else
        let i := entryInst half g 0
        let a := startOf (s.nowOn half) (T3.time base) 1000000000
        let s := ((s.setReg .gtEntInt i 1000000000).setReg .gtEntGates i 0xFF).stageList half g (T3.time base) 1000000000
        { st := s.armList half g (T3.time base) 1000000000 1, status := armStatus a.2, words := timeWords a.1 }) s)

def execGateStatus (h : Hdr) (ctl : Word) (s : State) : Host.Outcome State Fault Refusal :=
  .next (command h 0x0A05 (match s.controller ctl with
    | some (half, _) => .owner half
    | none => .oneOf [0, 1, 15]) (fun _ s =>
    match s.controller ctl with
    | none => .fail s .badParam
    | some (half, g) =>
      let i := half * 128 + g
      let st := s.storeOf half
      let cyc := ((st.gates.find g).map (·.cycle)).getD 0
      .ok s ([s.gtStat half g, s.reg .gtStartSecHi i, s.reg .gtStartSecLo i, s.reg .gtStartNs i, BitVec.ofNat 32 cyc
        , BitVec.ofNat 32 (st.armed.has g).toNat]
        ++ [Ctr.gtOversize, .gtStartAdv, .gtOverrun, .gtHoldLate, .gtCfgReject, .gtMemCorr, .gtMemErr].flatMap (fun c => ctrWords (s.ctr c i)))) s)

/-! ### Expert writes (R402, R405) -/

def State.gtReject (s : State) (half g : Nat) : State := s.report .gtCfgReject (half * 128 + g) .gateCfgReject half g

/-- A write of GT_LIST_CTL: adv clears on 1 unless set in this cycle (R8); count and arm need the claim; a reserved count leaves that
field as it was and counts as a refused write too (R10, R385, R400); arm 1 arms per R394, arm 0 cancels. -/
def State.writeListCtl (s : State) (p : APath) (half g : Nat) (data : Word) : State :=
  let i := half * 128 + g
  let s := if data.getLsbD 16 ∧ !(s.freshBits .gtListCtl i).getLsbD 16 then s.setFlag .gtListCtlAdv i false else s
  let arm := data.getLsbD 31
  let count := fldOf .gtListCtlCount data
  if !s.mayRwc p half .gt then
    if arm = s.flag .gtListCtlArm i ∧ count = s.fld .gtListCtlCount i then s else s.report .sysUnclaimedWr 0 .sysUnclaimedWr half 0
  else
    let reserved := count < 1 ∨ 1024 < count
    let s := if reserved then (s.report .sysBadEnc 0 .sysBadEnc half 0).gtReject half g else s
    let count := if reserved then s.fld .gtListCtlCount i else count
    if arm then
      if (s.storeOf half).armed.has g then s.gtReject half g
      else s.armList half g (s.stagedBase half g) (s.reg .gtCycle i).toNat count
    else (s.disarm half g).setFld .gtListCtlCount i count

def execGtListArm (p : APath) (half : BitVec 1) (ctl : BitVec 7) (data : Word) (s : State) : Host.Outcome State Fault Refusal :=
  .next (if ctl.toNat < 96 ∧ !s.gateless half.toNat ctl.toNat then s.writeListCtl p half.toNat ctl.toNat data else s)

def execGtListCancel (p : APath) (half : BitVec 1) (ctl : BitVec 7) (data : Word) (s : State) : Host.Outcome State Fault Refusal :=
  .next (if ctl.toNat < 96 ∧ !s.gateless half.toNat ctl.toNat then s.writeListCtl p half.toNat ctl.toNat data else s)

end Sys2Proof.Machine
end

