-- ==== Sys2Proof/Machine/Store.lean ====
section
/-!
DEFINITION. The cell store and the deep store (R326-R340): queues, admission, pages in HBM, and the QUEUE commands over
them (R347-R354).
-/

namespace Sys2Proof.Machine

/-! ### Queues by their QSEL number (R11, R349) -/

def qIsUp (q : Nat) : Bool := q / 2 ^ 18 % 2 = 1
def qPort (q : Nat) : Nat := q / 2 ^ 20 % 64
def qNumber (q : Nat) : Nat := q % 2 ^ 18
/-- The QSEL number of an upstream queue. -/
def upQueue (port n : Nat) : Nat := 2 ^ 18 + port * 2 ^ 20 + n
/-- The instance of a queue's registers. -/
def queueInst (half q : Nat) : Nat := half * 2 ^ 26 + q

def Store.queue (x : Store) (q : Nat) : QueueSt := Tbl.getD x.queues q QueueSt.empty
def State.queue (s : State) (half q : Nat) : QueueSt := (s.storeOf half).queue q
/-- A queue changes. The cells of frames that leave it are freed in this cycle (R331). -/
def State.setQueue (s : State) (half q : Nat) (x : QueueSt) : State :=
  s.modStore half (fun st =>
    let old := st.queue q
    let cells := if x.frames.length < old.frames.length then old.headCells + old.tail - (x.headCells + x.tail) else 0
    { st with
      queues := st.queues.setD q QueueSt.empty x
      freed := if cells = 0 then st.freed else (s.elapsed, (if st.freed.1 = s.elapsed then st.freed.2 else 0) + cells) })

/-- The half that owns a queue: an upstream queue's by its port, a downstream queue's where it is attached. -/
def State.queueHalf (s : State) (q : Nat) : Option Nat :=
  if qIsUp q then some (qPort q / 32)
  else if (s.queue 0 q).attached then some 0 else if (s.queue 1 q).attached then some 1 else none

/-- Cells of a queue in the cell store, its pages, and its depth in cells. -/
def QueueSt.held (x : QueueSt) : Nat := x.headCells + x.tail
def QueueSt.paged (x : QueueSt) : Nat := sumOn x.pages Prod.snd
def QueueSt.depth (x : QueueSt) : Nat := x.held + x.paged

/-! ### Pools (R326, R330) -/

def State.prfOf (s : State) (half q : Nat) : Nat := half * 64 + s.fld .qmQCfgPrf (queueInst half q)
def State.minOf (s : State) (half q : Nat) : Nat := s.fld .qmPrfCellsMin (s.prfOf half q)
def State.maxOf (s : State) (half q : Nat) : Nat := s.fld .qmPrfCellsMax (s.prfOf half q)

/-- The sum of the attached queues' minimums. -/
def State.minSum (s : State) (half : Nat) : Nat :=
  sumOn ((s.storeOf half).queues.filter (fun p => p.2.attached)) (fun p => s.minOf half p.1)

/-- What two runs of cells share. -/
def overlap (a b c d : Nat) : Nat := min b d - max a c

/-- The cells of each flooded copy in a queue that lie in the cell store beyond the queue's first `lo` there: group and cells (R333). -/
def QueueSt.copies (x : QueueSt) (lo : Nat) : List (Nat × Nat) :=
  (x.frames.foldl (fun (acc : Nat × List (Nat × Nat)) f =>
    let b := acc.1 + f.cells
    let stored := fun (c : Nat) => min c x.headCells + (c - (x.headCells + x.paged))
    (b, match f.item.group with
      | some g => acc.2 ++ [(g, overlap (stored acc.1) (stored b) lo x.held)]
      | none => acc.2)) (0, [])).2

/-- Cells counted more than once because copies of one flooded frame share them (R333): of each group all but its largest count. -/
def State.sharedTwice (s : State) (half : Nat) : Nat :=
  let copies := (s.storeOf half).queues.flatMap (fun p => p.2.copies (s.minOf half p.1))
  let most := copies.foldl (fun (t : Tbl Nat) c => t.put c.1 (max (Tbl.getD t c.1 0) c.2)) []
  sumOn copies Prod.snd - sumOn most Prod.snd

/-- F of R330: the free shared cells. What has been freed in this cycle is free from the next (R331). -/
def State.freeShared (s : State) (half : Nat) : Nat :=
  let st := s.storeOf half
  let pool := 524288 - s.ingPool half - s.rsmPool half - s.hostPool half - s.minSum half
  let used := sumOn st.queues (fun p => p.2.held - s.minOf half p.1)
  pool - (used - s.sharedTwice half) - (if st.freed.1 = s.elapsed then st.freed.2 else 0)

/-! ### Where a queue's frames go (R355-R357) -/

/-- A node's NDSEL number; a queue's number in the same numbering. -/
def ndNum (up level index : Nat) : Nat := up * 2 ^ 28 + level * 2 ^ 25 + index
def queueNode (q : Nat) : Nat := 2 ^ 29 + q
def nodeInst (half n : Nat) : Nat := half * 2 ^ 29 + n

/-- The channel that carries an ONU's downstream, and its node at level 2 with the channel it competes under (R356, R357). -/
def State.onuTop (s : State) (o : Nat) : Option (Nat × Nat) :=
  match s.onu o with
  | none => none
  | some x =>
    if x.away then none
    else
      let c := 4 * x.tree + x.downWl
      match s.skeinOnus.find o with
      | some j =>
        if j.joining.isSome then some (c, ndNum 0 2 (c % 64))
        else (s.skeinMember j).map (fun m => (m, ndNum 0 2 (64 + j.skein % 32)))
      | none => some (c, ndNum 0 2 (c % 64))

/-- A queue's path in its tree from the channel or port down to itself, as node numbers; none while it leads nowhere. -/
def State.pathOf (s : State) (half q : Nat) : Option (List Nat) :=
  let par := s.fld .schQParParent (queueInst half q)
  if qIsUp q then
    let agg := ndNum 1 3 par
    let cls := s.fld .schNdParParent (nodeInst half agg)
    some [ndNum 1 1 (cls / 16), ndNum 1 2 cls, agg, queueNode q]
  else
    let grp := ndNum 0 4 par
    let o := s.fld .schNdParParent (nodeInst half grp)
    match s.onuTop o with
    | some (c, top) => if halfOfChan c = half then some [ndNum 0 1 (c % 64), top, ndNum 0 3 o, grp, queueNode q] else none
    | none => none

/-- The ONU a downstream queue belongs to, and its XGEM port: the queue's number modulo 65,536 (log entry 62). -/
def State.queueOnu (s : State) (half q : Nat) : Nat :=
  s.fld .schNdParParent (nodeInst half (ndNum 0 4 (s.fld .schQParParent (queueInst half q))))
def queueGem (q : Nat) : Nat := q % 65536

/-- The tributary whose pseudowire a downstream queue carries (R253, R358; log entry 65). -/
def State.queueTrib (s : State) (half q : Nat) : Option Nat :=
  if qIsUp q then none
  else (s.tribs.find? (fun p => p.2.onu = s.queueOnu half q && p.2.port = queueGem q)).map Prod.fst

/-! ### Rates of egresses -/

/-- An uplink port's rate in Mb/s (R94). -/
def State.portRate (s : State) (port : Nat) : Nat :=
  s.portWidth port * (if (s.fld .lnuModeHalf50 (port / 8)).testBit (port % 8) then 50000 else 100000)

/-- A channel's line rate in kb/s and code-rate factor (R112). -/
def State.lineRate (s : State) (c : Nat) : Nat := if s.xgs c then 9953280 else 49766400
def State.crf (s : State) (c : Nat) : Nat := if s.xgs c then 57080 else 55341

/-- Bytes the frame still owes in a channel's TC input buffer. -/
def State.tcBytes (s : State) (c : Nat) : Nat := sumOn (s.chan c).tc (fun x => x.frame.len - x.sent)

/-- R118: the TC accepts no more: the next frame handed over does not fit in 64 KiB. -/
def State.tcFull (s : State) (c : Nat) : Bool :=
  match Tbl.getD s.toTc c [] with
  | x :: _ => 65536 < s.tcBytes c + x.frame.len
  | [] => false

/-! ### Admission (R330-R334) -/

def dropCtr (colour : Nat) : Ctr := if colour = 0 then .qmDropGreen else if colour = 1 then .qmDropYellow else .qmDropRed

/-- A frame refused by its queue: counted by colour and in the queue. -/
def QueueSt.dropped (x : QueueSt) (colour : Nat) : QueueSt :=
  let (g, y, r) := x.drops
  { x with drops := if colour = 0 then (g + 1, y, r) else if colour = 1 then (g, y + 1, r) else (g, y, r + 1) }

/-- R339: a frame whose body is still coming may be cut through. -/
def State.mayCut (s : State) (half q : Nat) (m : Meta) : Bool :=
  let x := s.queue half q
  let others := (s.storeOf half).queues.any (fun p => !p.2.frames.isEmpty
    && (s.pathOf half p.1).bind List.head? = (s.pathOf half q).bind List.head?)
  let inRate := if m.head.up then s.lineRate m.head.ingress else s.portRate m.head.ingress * 1000
  let egress := match (s.pathOf half q).bind List.head? with
    | some n => if qIsUp q then (s.portRate (qPort q) * 1000, false) else (s.lineRate (half * 64 + n % 64), s.tcFull (half * 64 + n % 64))
    | none => (0, true)
  decide (m.head.body = .coming) && !x.deep && x.depth = 0 && !others && !egress.2 && m.group.isNone && decide (egress.1 ≤ inRate)

/-- The frame joins its queue: its cells in the head segment, or in the tail of a deep queue. -/
def State.enqueue (s : State) (half q : Nat) (m : Meta) : State :=
  let x := s.queue half q
  let n := cellsOf m.head.frame.len
  let cut := s.mayCut half q m
  let x : QueueSt := { x with frames := x.frames ++ [⟨m, n, cut⟩] }
  if x.deep then s.setQueue half q { x with tail := x.tail + n }
  else
    let x := { x with headCells := x.headCells + n }
    if s.flag .qmQCfgDeepEn (queueInst half q) ∧ s.fld .dstCfgSpill half < x.held then
      (s.setQueue half q { x with deep := true }).count .dstDeepEnter half
    else s.setQueue half q x

/-- The admissions that a half's queue manager has left in this cycle, of 8 (R331; log entry 91). -/
def State.decisionsLeft (s : State) (half : Nat) : Nat :=
  let d := (s.storeOf half).decided
  8 - (if d.1 = s.elapsed then d.2 else 0)

/-- R330: EV_CST_POOL_EMPTY is raised at any decision where F is 0, of 0x3_FFFF and 0x3_FFFE too. -/
def State.notePool (s : State) (half : Nat) : State :=
  if s.freeShared half = 0 then s.raiseOnce .cstPoolEmpty half 0 else s

/-- A decision on an admission is made: counted in the cycle (R331), and the pool noted. -/
def State.noteDecision (s : State) (half : Nat) : State :=
  (s.modStore half (fun st => { st with decided := (s.elapsed, (if st.decided.1 = s.elapsed then st.decided.2 else 0) + 1) })).notePool half

/-- R330, R334, R359: the decision on one frame for one queue. -/
def State.offerTo (s : State) (half q : Nat) (m : Meta) : State :=
  let s := s.noteDecision half
  let x := s.queue half q
  if !x.attached then (s.count .schUnattached half).raiseOnce .schUnattached half 0
  else
    let n := cellsOf m.head.frame.len
    if x.deep ∧ !x.holding then
      let dm := s.fld .qmQCfgDeepMax (queueInst half q)
      let k := if m.colour = 0 then 16 else if m.colour = 1 then s.fld .qmPrfDtDpy (s.prfOf half q) + 1 else s.fld .qmPrfDtDpr (s.prfOf half q) + 1
      if dm * k / 16 < x.pages.length + ceilDiv (x.tail + n) 16 then (s.setQueue half q (x.dropped m.colour)).count .dstPageLimit half
      else s.enqueue half q m
    else
      let f := s.freeShared half
      let want := x.held + n
      let lo := s.minOf half q
      let a := if m.colour = 0 then s.fld .qmPrfDtAGreen (s.prfOf half q) else if m.colour = 1 then s.fld .qmPrfDtAYellow (s.prfOf half q)
        else s.fld .qmPrfDtARed (s.prfOf half q)
      if want ≤ lo then s.enqueue half q m
      else if s.maxOf half q < want ∨ a * f < 16 * (want - lo) then (s.setQueue half q (x.dropped m.colour)).count (dropCtr m.colour) half
      else s.enqueue half q m

/-- Copies beyond the eight admissions of a cycle wait (R331, R333). -/
def State.copyWait (s : State) (half q : Nat) (m : Meta) : State :=
  let st := s.storeOf half
  if 4096 ≤ st.repl.length then (s.count .qmReplDrop half).raiseOnce .qmReplDrop half 0
  else s.setStore half { st with repl := st.repl ++ [(q, m)] }

/-- A frame for its queues in one half: one admission, or one for each copy of a flooded frame. -/
def State.admitAll (s : State) (half : Nat) (qs : List Nat) (flood : Bool) (m : Meta) : State :=
  if !flood then qs.foldl (fun s q => s.offerTo half q m) s
  else
    let st := s.storeOf half
    let m := { m with group := some st.nextGroup }
    let s := s.setStore half { st with nextGroup := st.nextGroup + 1 }
    let n := if st.repl.isEmpty then s.decisionsLeft half else 0
    let s := (qs.take n).foldl (fun s q => s.offerTo half q m) s
    (qs.drop n).foldl (fun s q => s.copyWait half q m) s

/-- R331: the heads of a half's own pipelines: a frame that finds no admission left in the cycle waits, in the order of the pipelines. -/
def State.admitOwn (s : State) (half pipe : Nat) (qs : List Nat) (flood : Bool) (m : Meta) : State :=
  if flood then s.admitAll half qs true m
  else qs.foldl (fun s q =>
    if s.decisionsLeft half = 0 then s.modStore half (fun st => { st with own := sortOn (·.1) (st.own ++ [(pipe, q, m)]) })
    else s.offerTo half q m) s

/-- R331: at the next cycle the heads of a half's own pipelines that waited go first. -/
def State.admitWaiting (s : State) (half : Nat) : State :=
  let st := s.storeOf half
  let n := s.decisionsLeft half
  (st.own.take n).foldl (fun s x => s.offerTo half x.2.1 x.2.2) (s.setStore half { st with own := st.own.drop n })

/-- R328, R333: a head arrives over the bridge, unless that is down (R16): it is admitted in this half, in a cycle that has an admission left
(R331), and may be learned from (R318). -/
def execBridgeHeadRx (half : BitVec 1) (s : State) : Host.Outcome State Fault Refusal :=
  let h := half.toNat
  let st := s.storeOf h
  match st.bridge with
  | [] => .next s
  | (qs, m) :: rest =>
    if !s.bridgeCut ∧ s.decisionsLeft h = 0 then .next s else
    let s := s.setStore h { st with bridge := rest }
    if s.bridgeCut then .next s else
    let s := s.admitAll h qs m.group.isSome { m with learn := none }
    .next (match m.learn with
      | some e => s.learnArrival h e
      | none => s)

/-- R333: the oldest waiting copy is admitted, where the cycle has an admission left (R331). -/
def execReplicationCopy (half : BitVec 1) (s : State) : Host.Outcome State Fault Refusal :=
  let h := half.toNat
  let st := s.storeOf h
  match st.repl with
  | [] => .next s
  | (q, m) :: rest => .next (if s.decisionsLeft h = 0 then s else (s.setStore h { st with repl := rest }).offerTo h q m)

/-! ### Deep queues (R335-R338, R550) -/

def deepRation (stack : Nat) : Nat := 24 + 5 * stack

/-- The segments of a stack that DEEP owns. -/
def State.deepSegments (s : State) (half stack : Nat) : List Nat :=
  (List.range 64).filter (fun g =>
    let i := half * 128 + stack * 64 + g
    s.fld .hbmSegOwnerOwner i = 0 && !s.flag .hbmSegOwnerPending i)

/-- Pages of a stack in use by queues or retired, as page numbers. -/
def State.pagesUsed (s : State) (half stack : Nat) : List Nat :=
  let st := s.storeOf half
  ((st.queues.flatMap (fun p => p.2.pages.map Prod.fst) ++ st.retired).filter (fun p => p / 2 ^ 22 = stack)).map (fun p => p % 2 ^ 22)

/-- Pseudo-channels of a stack that no physical one serves: their pages are retired (R553). -/
def State.lostPcs (s : State) (half stack : Nat) : List Nat :=
  (List.range 16).filter (fun k => s.flag .hbmPcMapLost (pcInst half (stack * 16 + k)))

/-- DST_FREE of a stack: its free pages (R349). -/
def State.pagesFree (s : State) (half stack : Nat) : Nat :=
  let segs := s.deepSegments half stack
  let lost := (s.lostPcs half stack).length
  segs.length * (65536 - 4096 * lost) - ((s.pagesUsed half stack).filter (fun p => segs.contains (p / 65536) && !(s.lostPcs half stack).contains (p % 16))).length

/-- R552: a row is marked for repair, or a pseudo-channel for replacement; a spare follows as the kind's policy has it (R617). -/
def State.markHbm (s : State) (kind half unit : Nat) : State :=
  let k := kind * 2 ^ 32 + half * 2 ^ 28 + unit
  if s.power.hbmMarked.has k then s
  else (s.modPower (fun p => { p with hbmMarked := p.hbmMarked.put k () })).autoSpare kind half unit

/-- The mark of a row or pseudo-channel is gone with its repair. -/
def State.unmarkHbm (s : State) (kind half unit : Nat) : State :=
  s.modPower (fun p => { p with hbmMarked := p.hbmMarked.del (kind * 2 ^ 32 + half * 2 ^ 28 + unit) })

/-- R552: a page is retired: counted, never allocated again, and reported by its pseudo-channel's map. Above pc_thr the
pseudo-channel is marked for replacement. -/
def State.retirePage (s : State) (half stack page : Nat) : State :=
  let s := s.count .hbmPageRetire half
  let i := half * 128 + stack * 16 + page % 16
  let n := min 65535 (s.fld .hbmPcMapRetired i + 1)
  let s := s.setFld .hbmPcMapRetired i n
  let s := s.modStore half (fun st => { st with retired := if st.retired.contains (stack * 2 ^ 22 + page) then st.retired
    else st.retired ++ [stack * 2 ^ 22 + page] })
  let s := s.markHbm 5 half (stack * 2 ^ 24 + page / 2)
  if s.fld .hbmCfgPcThr half < n then s.markHbm 4 half (stack * 16 + page % 16) else s

/-- The lowest free page of a stack. -/
def State.freePage (s : State) (half stack : Nat) : Option Nat :=
  let used := s.pagesUsed half stack
  let lost := s.lostPcs half stack
  (s.deepSegments half stack).findSome? (fun g =>
    ((List.range (min 65536 (16 * (used.length + 1)))).map (g * 65536 + ·)).find? (fun p => !used.contains p && !lost.contains (p % 16)))

/-- HBM time of a page of 4 KiB (R32, R334). -/
def pageSpan : Nat := hbmSpan 4096

/-- R335: a full page goes to the queue's next stack, or to the other, under that stack's DEEP ration; else it is held: each page held is
counted once for its cause. -/
def execDeepPageWrite (half : BitVec 1) (queue : BitVec 26) (s : State) : Host.Outcome State Fault Refusal :=
  let h := half.toNat
  let q := queue.toNat
  let x := s.queue h q
  if !x.deep ∨ x.tail < 16 then .next s
  else
    let s := (s.wantTime h (deepRation 0)).wantTime h (deepRation 1)
    let spent := fun k => s.rationWaits h (deepRation k)
    let choice := [x.stack, 1 - x.stack].findSome? (fun k => if spent k then none else (s.freePage h k).map (fun p => (k, p)))
    match choice with
    | some (k, p) =>
      let tail := x.tail - 16
      .next ((s.setQueue h q { x with
        pages := x.pages ++ [(k * 2 ^ 22 + p, 16)], tail := tail, stack := 1 - k, holding := x.holding && decide (16 ≤ tail)
        heldPages := min x.heldPages (tail / 16) }).charge h (deepRation k) pageSpan)
    | none =>
      let none_ := (s.freePage h 0).isNone && (s.freePage h 1).isNone
      let counted := if x.holding ∧ x.noPage = none_ then x.heldPages else 0
      let n := x.tail / 16 - counted
      let s := if n = 0 then s
        else if none_ then (s.countBy .dstNopage h n).raiseOnce .dstNopage h 0
        else s.countBy .dstHold h n
      .next (s.setQueue h q { x with holding := true, heldPages := x.tail / 16, noPage := none_ })

/-- R337: a deep queue with no page left and less than `ret` cells returns to shallow. -/
def State.settle (s : State) (half q : Nat) : State :=
  let x := s.queue half q
  if x.deep ∧ x.pages.isEmpty ∧ x.depth < s.fld .dstCfgRet half then
    s.setQueue half q { x with deep := false, headCells := x.headCells + x.tail, tail := 0, holding := false, stalled := false, heldPages := 0 }
  else s

/-- The queues of a half that a new `ret` returns to shallow. -/
def State.settleAll (s : State) (half : Nat) : State :=
  ((s.storeOf half).queues.filter (fun p => p.2.deep)).foldl (fun s p => s.settle half p.1) s

/-- R336: a queue whose head segment is empty while the read of its next page is held back stalls, which is counted once. -/
def State.noteStall (s : State) (half q : Nat) : State :=
  let x := s.queue half q
  match x.pages with
  | (p, _) :: _ =>
    if x.headCells = 0 ∧ !x.stalled ∧ s.rationWaits half (deepRation (p / 2 ^ 22)) then
      (s.setQueue half q { x with stalled := true }).count .dstPfLate half
    else s
  | [] => s

/-- The cells [a, b) of a queue, counted from its oldest, are freed wherever they lie. -/
def QueueSt.free (x : QueueSt) (a b : Nat) : QueueSt :=
  let (_, pages) := x.pages.foldl (fun (acc : Nat × List (Nat × Nat)) p =>
    (acc.1 + p.2, acc.2 ++ [(p.1, p.2 - overlap a b acc.1 (acc.1 + p.2))])) (x.headCells, [])
  { x with
    headCells := x.headCells - overlap a b 0 x.headCells
    pages := pages.filter (fun p => p.2 != 0)
    tail := x.tail - overlap a b (x.headCells + x.paged) x.depth }

/-- The frames for which a test holds leave the queue, with their cells; how many there were. -/
def QueueSt.without (x : QueueSt) (bad : Nat → Nat → QFrame → Bool) : QueueSt × Nat :=
  let r := x.frames.foldl (fun (acc : QueueSt × Nat × Nat × List QFrame) f =>
    let (y, at_, was, keep) := acc
    if bad was (was + f.cells) f then (y.free at_ (at_ + f.cells), at_, was + f.cells, keep)
    else (y, at_ + f.cells, was + f.cells, keep ++ [f])) (x, 0, 0, [])
  ({ r.1 with frames := r.2.2.2 }, x.frames.length - r.2.2.2.length)

/-- R336-R338: the next page lands in the head segment; with an uncorrectable error every frame with a cell in it goes.
`ecc` is 1 for a corrected error, 2 for one that is not. -/
def execDeepPageRead (half : BitVec 1) (queue : BitVec 26) (ecc : BitVec 2) (s : State) : Host.Outcome State Fault Refusal :=
  let h := half.toNat
  let q := queue.toNat
  let x := s.queue h q
  match x.pages with
  | [] => .next s
  | (p, live) :: rest =>
    let s := s.wantTime h (deepRation (p / 2 ^ 22))
    if 32 ≤ x.headCells then .next s
    else if s.rationWaits h (deepRation (p / 2 ^ 22)) then
      .next (s.noteStall h q)
    else
    let s := s.charge h (deepRation (p / 2 ^ 22)) pageSpan
    if 2 ≤ ecc.toNat then
      let lo := x.headCells
      let (y, n) := x.without (fun a b _ => decide (0 < overlap a b lo (lo + live)))
      .next (((s.setQueue h q { y with stalled := false }).countBy .dstEccDrop h n).raise .dstEcc h (p / 2 ^ 22) |> fun s =>
        (s.retirePage h (p / 2 ^ 22) (p % 2 ^ 22)).settle h q)
    else
      let s := if ecc = 1 then s.count .dstEccCorr h else s
      .next ((s.setQueue h q { x with pages := rest, headCells := x.headCells + live, stalled := false }).settle h q)

/-! ### Commands (R347) -/

/-- A queue word (R349); none where it names none. -/
def queueOf (s : State) (w : Word) : Option Nat :=
  let q := w.toNat
  if q < 0x3FFFE then some q
  else if q < 2 ^ 26 ∧ q / 2 ^ 16 % 16 = 4 ∧ s.portOf (qPort q) = qPort q then some q
  else none

/-- The half a command on a queue acts in: its own; for a downstream queue attached nowhere the die selector's. -/
def State.commandHalf (s : State) (h : Hdr) (q : Nat) : Option Nat :=
  match s.queueHalf q with
  | some half => some half
  | none => if h.die.toNat < 2 then some h.die.toNat else none

/-- A QUEUE command on a queue: BAD_PARAM where there is none, BLOCK_CLAIMED, then its own. -/
def queueCommand (h : Hdr) (op : Nat) (queue : Word) (blk : Option Blk) (bad : Bool) (body : Caller → Nat → Nat → State → Res) (s : State) : State :=
  command h op (match (queueOf s queue).bind s.queueHalf with
    | some half => .owner half
    | none => .oneOf [0, 1]) (fun c s =>
    match queueOf s queue with
    | none => .fail s .badParam
    | some q =>
      match s.commandHalf h q with
      | none => .fail s .badParam
      | some half =>
        if bad then .fail s .badParam
        else s.unlessClaimed ((blk.map (fun b => (half, b))).toList) (body c half q s)) s

/-- A QUEUE command on a half, named by the die selector (R471). -/
def halfCommand (h : Hdr) (op : Nat) (blk : Option Blk) (bad : State → Nat → Bool) (body : Nat → State → Res) (s : State) : State :=
  command h op (.oneOf [0, 1]) (fun _ s =>
    let half := h.die.toNat
    if bad s half then .fail s .badParam
    else s.unlessClaimed (blk.map (fun b => (half, b))).toList (body half s)) s

/-- R351: a profile's numbers; words min, max, a_green, a_yellow, a_red, dpy, dpr. -/
def profileNumbersOk (prf mn mx ag ay ar dpy dpr : Nat) : Bool :=
  prf < 64 && 48 ≤ mx && mx < 65536 && mn ≤ mx && ag < 256 && ay < 256 && ar < 256 && dpy < 16 && dpr < 16

/-- The pools and the minimums of a half fit its 524,288 cells (R329). -/
def State.poolsFit (s : State) (half : Nat) : Bool := s.ingPool half + s.rsmPool half + s.hostPool half + s.minSum half ≤ 524288

def execQueueProfileSet (h : Hdr) (prf mn mx : Word) (ag ay ar dpy dpr : Word) (s : State) : Host.Outcome State Fault Refusal :=
  .next (halfCommand h 0x0900 (some .qm)
    (fun _ _ => !profileNumbersOk prf.toNat mn.toNat mx.toNat ag.toNat ay.toNat ar.toNat dpy.toNat dpr.toNat)
    (fun half s =>
      let i := half * 64 + prf.toNat
      .ok ((s.setReg .qmPrfCells i (BitVec.ofNat 32 (mx.toNat * 65536 + mn.toNat))).setReg .qmPrfDt i
        (BitVec.ofNat 32 (ag.toNat * 2 ^ 24 + ay.toNat * 2 ^ 16 + ar.toNat * 2 ^ 8 + dpy.toNat * 16 + dpr.toNat)))) s)

def execQueueAdmitSet (h : Hdr) (queue prf deepEn deepMax : Word) (s : State) : Host.Outcome State Fault Refusal :=
  .next (queueCommand h 0x0901 queue (some .qm) (63 < prf.toNat || 1 < deepEn.toNat || 4194303 < deepMax.toNat)
    (fun _ half q s => .ok (s.setReg .qmQCfg (queueInst half q)
      (BitVec.ofNat 32 (prf.toNat * 2 ^ 26 + deepEn.toNat * 2 ^ 25 + deepMax.toNat)))) s)

/-- R329, R353: pool sizes in units of 64 cells, 1-1,023. -/
def execQueuePoolSet (h : Hdr) (ing rsm host : Word) (s : State) : Host.Outcome State Fault Refusal :=
  .next (halfCommand h 0x0902 (some .cst)
    (fun s half => [ing, rsm, host].any (fun w => w.toNat < 1 || 1023 < w.toNat)
      || 524288 < 64 * (ing.toNat + rsm.toNat + host.toNat) + s.minSum half)
    (fun half s => .ok (s.setReg .cstPoolCfg half (BitVec.ofNat 32 (rsm.toNat * 2 ^ 22 + ing.toNat * 2 ^ 12 + host.toNat * 4)))) s)

/-- R337, R354: ret is below spill. -/
def execQueueDeepSet (h : Hdr) (spill ret : Word) (s : State) : Host.Outcome State Fault Refusal :=
  .next (halfCommand h 0x0903 (some .dst)
    (fun _ _ => spill.toNat < 64 || 65535 < spill.toNat || ret.toNat < 1 || spill.toNat ≤ ret.toNat)
    (fun half s => .ok ((s.setReg .dstCfg half (BitVec.ofNat 32 (spill.toNat * 65536 + ret.toNat))).settleAll half)) s)

/-- R347: the queue's depth: cells, pages, deep bit, drops per colour. -/
def execQueueDepth (h : Hdr) (queue : Word) (s : State) : Host.Outcome State Fault Refusal :=
  .next (queueCommand h 0x0905 queue none false (fun _ half q s =>
    let x := s.queue half q
    let n := fun (v : Nat) => BitVec.ofNat 32 v
    .ok s [n x.held, n x.pages.length, n x.deep.toNat, n x.drops.1, n x.drops.2.1, n x.drops.2.2]) s)

def storeCounters : List Ctr :=
  [.cstIngNobuf, .cstMemErr, .qmDiscardQ, .qmDropGreen, .qmDropYellow, .qmDropRed, .qmHostDrop, .qmReplDrop, .qmBodyBad, .qmCtStomp,
    .qmFlush, .dstPageLimit, .dstHold, .dstNopage, .dstPfLate, .dstDeepEnter, .dstEccCorr, .dstEccDrop, .edtOpSkip, .edtPad, .edtLenDrop]

/-- R347: free cells of the ingress, reassembly, host and shared pools, free pages of each stack, counters. -/
def execQueueStoreStatus (h : Hdr) (s : State) : Host.Outcome State Fault Refusal :=
  .next (halfCommand h 0x0906 none (fun _ _ => false) (fun half s =>
    let n := fun (v : Nat) => BitVec.ofNat 32 v
    .ok s ([n (s.ingPool half - s.ingUsed half), n (s.rsmPool half - s.rsmUsed half), n (s.hostPool half - s.hostUsed half)
      , n (s.freeShared half), n (s.pagesFree half 0), n (s.pagesFree half 1)]
      ++ storeCounters.flatMap (fun c => ctrWords (s.ctr c half)))) s)

end Sys2Proof.Machine
end

