-- ==== Sys2Proof/Machine/Scheduler.lean ====
section
/-!
DEFINITION. The schedulers and shapers (R355-R371, R378-R383), the eligibility of a head frame under its gate (R388-R392),
its release and its departure (R66-R69, R341-R345, R388, R393), MACsec on egress (R413, R415), and the QUEUE commands for
scheduling (R377). An egress of a half is named as its gate controller is (R402).
-/

namespace Sys2Proof.Machine

/-! ### Nodes, rates and buckets (R355, R365-R371) -/

def State.node (s : State) (half n : Nat) : NodeSt := Tbl.getD (s.storeOf half).nodes n NodeSt.empty
def State.setNode (s : State) (half n : Nat) (x : NodeSt) : State :=
  s.modStore half (fun st => { st with nodes := st.nodes.setD n NodeSt.empty x })

/-- A node or queue written anew is served again after an uncorrectable error of its state (R376). -/
def State.rewrittenNode (s : State) (half n : Nat) : State :=
  if (s.node half n).memErr then s.setNode half n { s.node half n with memErr := false } else s

def isQueueNode (n : Nat) : Bool := 2 ^ 29 ≤ n
def nodeUp (n : Nat) : Bool := n / 2 ^ 28 % 2 = 1
def nodeLevel (n : Nat) : Nat := n / 2 ^ 25 % 8
def nodeIndex (n : Nat) : Nat := n % 2 ^ 17

/-- A field of a node's registers, or of a queue's. -/
def State.ndFld (s : State) (half n : Nat) (nd q : Fld) : Nat :=
  if isQueueNode n then s.fld q (queueInst half (n - 2 ^ 29)) else s.fld nd (nodeInst half n)

def State.ndEnabled (s : State) (half n : Nat) : Bool := s.ndFld half n .schNdCfgEnable .schQCfgEnable = 1
def State.ndBand (s : State) (half n : Nat) : Nat := s.ndFld half n .schNdCfgBand .schQCfgBand
def State.ndWeight (s : State) (half n : Nat) : Nat := s.ndFld half n .schNdCfgWeight .schQCfgWeight
def State.ndOvh (s : State) (half n : Nat) : Int := signedOf 9 (s.fld .schNdCfgOvh (nodeInst half n))

/-- R358: container bytes a frame of a channel carries for its tributaries. -/
def State.containerBytes (s : State) (c : Nat) : Nat :=
  sumOn (s.tribs.filter (fun p => ((s.onu p.2.onu).map (fun x => decide (x.tree = c / 4))).getD false && p.2.members.any (fun m => m.1 = c % 4)))
    (fun p => memberBytes p.2.nd p.2.q p.2.count (p.2.index (c % 4)))

/-- A level 1 node's fixed peak rate in steps of 8 kb/s: a channel's line rate less its containers' (R371, R358); a
port's line rate. -/
def State.rootRate (s : State) (half n : Nat) : Nat :=
  if nodeUp n then s.portRate (nodeIndex n) * 125
  else
    let c := half * 64 + nodeIndex n
    s.lineRate c / 8 - 8 * s.containerBytes c

/-- Committed and peak rates in steps of 8 kb/s, committed and peak bursts in 2^-16 bytes. -/
def State.ndRates (s : State) (half n : Nat) : Nat × Nat × Nat × Nat :=
  let root := !isQueueNode n && nodeLevel n = 1
  (if root then 0 else s.ndFld half n .schNdCirRate .schQCirRate, if root then s.rootRate half n else s.ndFld half n .schNdPirRate .schQPirRate
  , s.ndFld half n .schNdCbsBurst .schQCbsBurst * 2 ^ 22, s.ndFld half n .schNdPbsBurst .schQPbsBurst * 2 ^ 22)

/-- R365: refill with rate × elapsed time, up to the burst; what is below 2^-16 bytes is carried. -/
def Bucket.refill (b : Bucket) (rate burst now : Nat) : Bucket :=
  let v := rate * (now - b.last) + b.rem
  let bal := b.bal + (v / (2 ^ 16 * 1000000) : Nat)
  if (burst : Int) ≤ bal then ⟨burst, 0, now⟩ else ⟨bal, v % (2 ^ 16 * 1000000), now⟩

/-- A node's committed and peak buckets as they stand now; full until first enabled (R369). -/
def State.ndBuckets (s : State) (half n : Nat) : Bucket × Bucket :=
  let (cir, pir, cbs, pbs) := s.ndRates half n
  match (s.node half n).buckets with
  | some (c, p) => (c.refill cir cbs s.elapsed, p.refill pir pbs s.elapsed)
  | none => (⟨cbs, 0, s.elapsed⟩, ⟨pbs, 0, s.elapsed⟩)

def State.commOk (s : State) (half n : Nat) : Bool :=
  let r := s.ndRates half n
  r.1 != 0 && decide (0 < (s.ndBuckets half n).1.bal)

def State.peakOk (s : State) (half n : Nat) : Bool :=
  let r := s.ndRates half n
  r.2.1 = 0 || decide (0 < (s.ndBuckets half n).2.bal)

/-- R366: a charge in bytes to the buckets of a round: both in the committed one, the peak bucket in the excess one. -/
def State.chargeNode (s : State) (half n len : Nat) (committed : Bool) : State :=
  let (c, p) := s.ndBuckets half n
  let d : Int := (len * 65536 : Nat)
  let c : Bucket := if committed then { c with bal := c.bal - d } else c
  s.setNode half n { s.node half n with buckets := some (c, { p with bal := p.bal - d }) }

/-- R369: a node's buckets are brought up to now before its rates or bursts change. -/
def State.refillNode (s : State) (half n : Nat) : State :=
  if (s.node half n).buckets.isSome then s.setNode half n { s.node half n with buckets := some (s.ndBuckets half n) } else s

/-! ### An egress -/

def egressRoot (half g : Nat) : Nat := if g < 32 then ndNum 1 1 (half * 32 + g) else ndNum 0 1 (g - 32)
def egressPort (half g : Nat) : Nat := half * 32 + g
def egressChan (half g : Nat) : Nat := half * 64 + (g - 32)

/-- R360: the egress may be served: its port is up; or its channel frames and the line die is reached (R16). -/
def State.egressUp (s : State) (half g : Nat) : Bool :=
  if g < 32 then s.portUp (egressPort half g) else s.framing (egressChan half g) && !s.linkCut (dieOfChan (egressChan half g))

/-- R370: the charged length of a frame of `len` bytes. -/
def State.chargedLen (s : State) (half g len : Nat) : Nat :=
  let len := if g < 32 then len else ceilDiv len 4 * 4
  (max 1 ((len : Int) + s.ndOvh half (egressRoot half g))).toNat

/-- R371: what the channel node charges for it. -/
def State.coded (s : State) (half g len : Nat) : Nat := if g < 32 then len else ceilDiv (len * 65536) (s.crf (egressChan half g))

/-- R390: the transmission time of a charged length in ns, rounded up. -/
def State.txNs (s : State) (half g len : Nat) : Nat :=
  if g < 32 then ceilDiv (len * 8000) (max 1 (s.portRate (egressPort half g)))
  else ceilDiv (s.coded half g len * 8 * 1000000) (s.lineRate (egressChan half g))

/-- The instant the first byte would be handed over, for a release now, on the half's time (R55, R66, R388, R389). -/
def State.handover (s : State) (half g : Nat) : Nat :=
  let e := s.nowOn half + nsSpan 104
  if g < 32 then max e (Tbl.getD (s.storeOf half).portFree (egressPort half g) 0) else e

def gateInst (half g n : Nat) : Nat := (half * 128 + g) * 128 + n
def State.gmax (s : State) (half g n : Nat) : Nat := s.fld .gtGateCfgGmax (gateInst half g n)
/-- R390: a gate's guard band in ns. -/
def State.guardNs (s : State) (half g n : Nat) : Nat :=
  let v := s.fld .gtGateCfgGuard (gateInst half g n)
  if v = 0 then s.txNs half g (s.chargedLen half g (s.gmax half g n)) else v

/-- R391: the gate lets a frame of this charged length start now. -/
def State.gateLets (s : State) (half g n len : Nat) : Bool :=
  let st := s.storeOf half
  let e := s.handover half g
  st.gateOpen g n e && (match st.nextClose g n e with
    | some c => !(decide (c - nsSpan (s.guardNs half g n) ≤ (e : Int)) && decide (c < (e : Int) + nsSpan (s.txNs half g len)))
    | none => true)

/-! ### Head frames (R339-R341, R360, R361, R391, R392) -/

/-- The frame a queue could release: its whole body in the cell store, its cells in the head segment or in the tail right
after it. -/
def QueueSt.ready (x : QueueSt) : Option QFrame :=
  match x.frames with
  | f :: _ =>
    if f.cells ≤ x.headCells + (if x.pages.isEmpty then x.tail else 0) ∧ (f.item.head.body ≠ .coming ∨ f.cut) then some f else none
  | [] => none

/-- The head frame leaves the queue. -/
def State.popHead (s : State) (half q : Nat) : State :=
  let x := s.queue half q
  match x.frames with
  | f :: rest => ((s.setQueue half q { x.free 0 f.cells with frames := rest }).settle half q).noteStall half q
  | [] => s

/-- Head frames that are never released: bad bodies of stored frames (R340), frames above their gate's gmax, where they are gated (R389,
R392). -/
def State.purge (half g q : Nat) : Nat → State → State
  | 0, s => s
  | k + 1, s =>
    match (s.queue half q).ready with
    | none => s
    | some f =>
      if f.item.head.body = .bad then State.purge half g q k ((s.popHead half q).count .qmBodyBad half)
      else if (s.queueTrib half q).isNone ∧ s.gmax half g (s.fld .schQCfgGate (queueInst half q)) < (s.edited half f.item).1.len then
        let i := half * 128 + g
        State.purge half g q k (((s.popHead half q).count .gtOversize i).raiseOnce .gateOversize half g)
      else s

/-- A head frame the egress could release now: its queue and path, the frame as the editor leaves it, its charged length,
and the tributary it is for. -/
structure QHead where
  q : Nat
  path : List Nat
  frame : Frame
  len : Nat
  trib : Option Nat
deriving DecidableEq, Repr

/-- The attached queues of an egress with their paths. -/
def State.egressQueues (s : State) (half g : Nat) : List (Nat × List Nat) :=
  ((s.storeOf half).queues.filter (fun p => p.2.attached)).filterMap (fun p =>
    match s.queueTrib half p.1 with
    | some i =>
      let c := egressChan half g
      let on := 32 ≤ g && ((s.tribs.find i).bind (fun x => x.members.head?)).map (fun m => m.1) = some (c % 4)
        && ((s.onu (s.queueOnu half p.1)).map (fun x => x.tree)) = some (c / 4)
      if on then some (p.1, [egressRoot half g, queueNode p.1]) else none
    | none => (s.pathOf half p.1).bind (fun l => if l.head? = some (egressRoot half g) then some (p.1, l) else none))

/-- The head frame of one queue, where it is served and its gate lets it (R360, R391). A tributary's queue is never gated
(R389). -/
def State.queueHead (s : State) (half g : Nat) (p : Nat × List Nat) : Option QHead :=
  let q := p.1
  let trib := s.queueTrib half q
  match (s.queue half q).ready with
  | none => none
  | some f =>
    let frame := (s.edited half f.item).1
    let len := s.chargedLen half g frame.len
    if p.2.all (fun n => s.ndEnabled half n && !(s.node half n).memErr)
        ∧ (trib.isSome ∨ s.gateLets half g (s.fld .schQCfgGate (queueInst half q)) len) then some ⟨q, p.2, frame, len, trib⟩
    else none

/-- The head frames of an egress by their own queues. -/
def State.queueHeads (s : State) (half g : Nat) : List QHead :=
  if s.egressUp half g then (s.egressQueues half g).filterMap (s.queueHead half g) else []

/-! ### Choosing (R357, R361-R363) -/

/-- The part of a path below a node, the node itself first. -/
def fromNode (path : List Nat) (n : Nat) : List Nat := path.dropWhile (· != n)

/-- R361: a child has work and its peak bucket allows it: some head frame below it may be released as far as the nodes
from the child down are concerned. -/
def State.works (s : State) (half : Nat) (heads : List QHead) (n : Nat) : Bool :=
  heads.any (fun h => !(fromNode h.path n).isEmpty && (fromNode h.path n).all (s.peakOk half))

/-- Least tag, ties to the lowest child index. -/
def State.least (s : State) (half : Nat) : List Nat → Option Nat
  | [] => none
  | c :: cs =>
    match State.least s half cs with
    | none => some c
    | some d =>
      let k := tagDiff (s.node half c).tag (s.node half d).tag
      if k < 0 ∨ (k = 0 ∧ c < d) then some c else some d

/-- select() of R361 from a node down: the head frame, and each child chosen with whether in the committed round. -/
def State.pick (s : State) (half : Nat) (heads : List QHead) : Nat → Nat → Option (QHead × List (Nat × Bool))
  | 0, _ => none
  | k + 1, n =>
    match heads.find? (fun h => queueNode h.q = n) with
    | some h => some (h, [])
    | none =>
      let cs := ((heads.filterMap (fun h => ((fromNode h.path n).drop 1).head?)).eraseDups).filter (s.works half heads)
      let round := fun (committed : Bool) (band : Nat) =>
        cs.filter (fun c => (s.node half c).band = band && (!committed || s.commOk half c))
      let order := (List.range 8).map (fun b => (true, b)) ++ (List.range 8).map (fun b => (false, b))
      match order.findSome? (fun r => (s.least half (round r.1 r.2)).map (fun c => (c, r.1))) with
      | some (c, committed) => (State.pick s half heads k c).map (fun r => (r.1, (c, committed) :: r.2))
      | none => none

/-- R357: the channel of the SDU that a skein node would release next, by its own choice among the ONUs below it: the member under which it
competes. -/
def State.skeinChan (s : State) (half n : Nat) : Option Nat :=
  let heads := (List.range 64).flatMap (fun c => (s.queueHeads half (32 + c)).filter (fun h => h.path.contains n))
  (s.pick half heads 8 n).bind (fun r => r.1.path.head?)

def isSkeinNode (n : Nat) : Bool := !isQueueNode n && !nodeUp n && nodeLevel n = 2 && 64 ≤ nodeIndex n

/-- The head frames of an egress: below a skein node, only while the node competes under this channel (R357). -/
def State.egressHeads (s : State) (half g : Nat) : List QHead :=
  (s.queueHeads half g).filter (fun h => h.path.all (fun n => !isSkeinNode n || s.skeinChan half n == h.path.head?))

def headLen (r : Option (QHead × List (Nat × Bool))) : Nat := (r.map (fun x => x.1.len)).getD 0

/-- R356, R362: a child that gains work, or that works under a new parent, takes s := max(v, f_last) of that parent; one that loses it goes
idle. -/
def State.syncNode (half : Nat) (heads : List QHead) (s : State) (pn : Nat × Nat) : State :=
  let (parent, n) := pn
  let x := s.node half n
  let held := x.active && x.parent == parent
  let on := s.works half heads n
  if on = held then s
  else if !on then s.setNode half n { x with active := false }
  else
    let band := s.ndBand half n
    let v := Tbl.getD (s.node half parent).vt band 0
    let start := if x.last + 2 ^ 30 ≤ v ∨ 0 ≤ tagDiff v x.last then v else x.last
    let len := headLen (s.pick half heads 8 n)
    s.setNode half n { x with active := true, parent := parent, band := band, tag := start + len * 256 / max 1 (s.ndWeight half n) }

/-- The (parent, child) pairs of paths at a depth. -/
def pairsAt (paths : List (List Nat)) (d : Nat) : List (Nat × Nat) :=
  (paths.filterMap (fun p => match p[d]?, p[d + 1]? with
    | some a, some b => some (a, b)
    | _, _ => none)).eraseDups

/-- An egress as it stands before a decision: frames that are never released go, and children gain or lose work, the
lowest level first. -/
def State.syncEgress (s : State) (half g : Nat) : State :=
  let qs := s.egressQueues half g
  let s := if s.egressUp half g then qs.foldl (fun s p => State.purge half g p.1 (s.queue half p.1).frames.length s) s else s
  let heads := (s.egressHeads half g).filter (fun h => h.trib.isNone)
  let paths := (qs.filter (fun p => (s.queueTrib half p.1).isNone)).map Prod.snd
  let idle := s.idled.has (if g < 32 then egressPort half g else 128 + egressChan half g)
  let s := if idle then
      let s := paths.foldl (fun s p => (p.drop 1).foldl (fun s n => s.setNode half n { s.node half n with active := false }) s) s
      { s with idled := s.idled.del (if g < 32 then egressPort half g else 128 + egressChan half g) }
    else s
  [4, 3, 2, 1, 0].foldl (fun s d => (pairsAt paths d).foldl (State.syncNode half heads) s) s

/-- Every egress of a half. -/
def State.syncHalf (s : State) (half : Nat) : State := (List.range 96).foldl (fun s g => s.syncEgress half g) s

/-! ### Release (R362, R366) -/

/-- The path's tags move on: v of each parent to the chosen child's tag, f_last of the child. -/
def State.advanceTags (s : State) (half : Nat) (pairs : List (Nat × Nat)) : State :=
  pairs.foldl (fun s pc =>
    let c := s.node half pc.2
    let p := s.node half pc.1
    let s := s.setNode half pc.1 { p with vt := p.vt.setD c.band 0 c.tag }
    s.setNode half pc.2 { s.node half pc.2 with last := c.tag }) s

/-- A child that still has work takes s := f_last for its next frame, in the band now configured; else it goes idle. -/
def State.retag (s : State) (half g : Nat) (path : List Nat) : State :=
  let heads := (s.egressHeads half g).filter (fun h => h.trib.isNone)
  path.reverse.foldl (fun s n =>
    let x := s.node half n
    if s.works half heads n then
      let len := headLen (s.pick half heads 8 n)
      s.setNode half n { x with band := s.ndBand half n, tag := x.last + len * 256 / max 1 (s.ndWeight half n) }
    else s.setNode half n { x with active := false }) s

/-! ### PTP on an uplink (R65-R69) -/

/-- A frame's PTP header, with the offset of the UDP header before it: Ethertype 0x88F7, or UDP to ports 319 and 320. -/
def State.ptpAt (s : State) (half : Nat) (f : Frame) : Option (Nat × Option Nat) :=
  let p := s.parse half f 0 tEth
  if p.ethertype = 0x88F7 then some (p.l2End f, none)
  else if p.isPtp then (p.at f tUdp).map (fun o => (o + 8, some o))
  else none

/-- R68: bytes of a PTP message change, and a UDP checksum over them follows; an IPv4 checksum of zero stays. -/
def pokePtp (f : Frame) (udp : Option Nat) (v4 : Bool) (off n v : Nat) : Frame :=
  let g := f.poke off (bytesBE n v)
  match udp with
  | none => g
  | some u =>
    let c := f.be (u + 6) 2
    if v4 ∧ c = 0 then g
    else
      let c' := (List.range (n / 2)).foldl (fun c i => sumUpdate c (f.be (off + 2 * i) 2) (g.be (off + 2 * i) 2)) c
      g.poke (u + 6) (bytesBE 2 (if c' = 0 then 0xFFFF else c'))

/-- R65, R97: the departure time goes into originTimestamp, or the residence into correctionField: the committed instant plus the port's
measured egress delay and its TSI_EGR_ADJ. The spec gives neither unit nor sign of the TSI registers: they are signed
nanoseconds (DESIGN CHOICE, log entry 20). -/
def State.insertTime (s : State) (half port : Nat) (x : HeldFrame) (at_ : Nat) : Frame :=
  let dep := (((at_ + (Tbl.getD s.lanes.delays port (0, 0)).2 : Nat) : Int) + signedOf 32 (s.reg .tsiEgrAdj port).toNat * (nsUnit : Nat)).toNat
  match x.ptp with
  | none => x.frame
  | some o =>
    let f := x.frame
    let udp := (s.ptpAt half f).bind Prod.snd
    let v4 := (s.parse half f 0 tEth).v4.isSome
    let f := if x.origin then pokePtp f udp v4 (o + 34) 10 (secOf dep * 2 ^ 32 + nsOf dep) else f
    match x.correct with
    | some stamp =>
      let d := signedOf 32 ((shortOf dep + 2 ^ 32 - stamp) % 2 ^ 32)
      pokePtp f udp v4 (o + 8) 8 (unsignedOf 64 ((f.be (o + 8) 8 : Nat) + d * 65536))
    | none => f

/-! ### Hand-over (R66, R67, R388, R393) -/

/-- R393: the frame runs past a close of its gate. -/
def State.overruns (s : State) (half g : Nat) (gate at_ tx : Nat) : Bool :=
  let st := s.storeOf half
  !st.gateOpen g gate at_ || (match st.nextClose g gate at_ with
    | some c => decide (c < (at_ : Int) + nsSpan tx)
    | none => false)

def State.noteOverrun (s : State) (half g gate at_ tx : Nat) : State :=
  if s.overruns half g gate at_ tx then (s.count .gtOverrun (half * 128 + g)).raiseOnce .gateOverrun half g else s

/-- A frame is handed over to the egress PCS of a port at an instant. -/
def State.depart (s : State) (port : Nat) (x : HeldFrame) (at_ : Nat) : State :=
  let half := port / 32
  let s := s.noteOverrun half (port % 32) x.gate at_ x.tx
  let s := match x.ptp with
    | some o => if x.stampIt then s.stampEgress port (x.frame.be (o + 30) 2) at_ else s
    | none => s
  s.sendUplink port (s.insertTime half port x at_)

/-- The oldest frame held at a port leaves the boundary. -/
def State.unhold (s : State) (port : Nat) : State :=
  { s with lanes := { s.lanes with held := s.lanes.held.setD port [] ((Tbl.getD s.lanes.held port []).drop 1) } }

/-- R66, R67, R388: the oldest held frame's departure, once the port's time has reached it; `late` where it reached the PCS boundary
after that instant: a one-step frame is then discarded, another is handed over on arrival. -/
def execDepartureInstant (port : Lane) (late : Bool) (s : State) : Host.Outcome State Fault Refusal :=
  let p := port.toNat
  match Tbl.getD s.lanes.held p [] with
  | [] => .next s
  | x :: _ =>
    let now := s.nowOn (dieOfLane p)
    if !reached now x.departure then .next s else
    let s := s.unhold p
    if late ∧ (x.origin ∨ x.correct.isSome) then .next (s.report .tsiLateDrop p .tsiLate (dieOfLane p) p)
    else if late then
      let g := p / 32 * 128 + p % 32
      .next ((if (s.storeOf (p / 32)).gates.has (p % 32) then s.count .gtHoldLate g else s).depart p x (max now x.departure))
    else .next (s.depart p x x.departure)

/-- A released frame on its way to an uplink: held where the port runs a gate list, the frame is one-step, or frames wait
before it; its transmission extends port_free. -/
def State.toUplink (s : State) (half g : Nat) (m : Meta) (f : Frame) (len gate : Nat) : State :=
  let port := egressPort half g
  let e := s.handover half g
  let exact := ceilDiv (len * 8000 * nsUnit) (max 1 (s.portRate port))
  let s := s.modStore half (fun st => { st with portFree := st.portFree.put port (e + exact) })
  let cfg := Tbl.getD s.tb.ptpPorts port ⟨false, false, false⟩
  let ptp := s.ptpAt half f
  let kind := (ptp.map (fun p => f.byte p.1 % 16)).getD 15
  let twoStep := (ptp.map (fun p => f.byte (p.1 + 6) / 2 % 2)).getD 0
  let origin := cfg.oneStep && !m.head.up && kind = 0 && twoStep = 0
  let correct := if cfg.transparent ∧ kind < 4 ∧ !m.head.up then m.head.stamp else none
  let x : HeldFrame :=
    ⟨f, ptp.map Prod.fst, origin, correct, cfg.twoStep && decide (kind < 4), e, gate, s.txNs half g len⟩
  let waits := origin || correct.isSome || (s.storeOf half).gates.has g || !(Tbl.getD s.lanes.held port []).isEmpty
  if waits then { s with lanes := { s.lanes with held := s.lanes.held.put port (Tbl.getD s.lanes.held port [] ++ [x]) } }
  else s.depart port x e

/-- A released frame on its way to a channel's TC (R345, R389); one of a joined ONU carries its skein tag (R241, R242). -/
def State.toChannel (s : State) (half g q : Nat) (f : Frame) (len gate : Nat) (host : Bool) : State :=
  let c := egressChan half g
  let o := s.queueOnu half q
  let e := s.handover half g
  let (s, f) := match s.skeinJoin o with
    | some j =>
        ({ s with skeinOnus := s.skeinOnus.put o { j with downSeq := (j.downSeq + 1) % 2 ^ 24 } }
        , { f with len := f.len + 4, head := bytesBE 4 (0xA * 2 ^ 28 + j.downSeq) ++ f.head })
    | none => (s, f)
  { s with toTc := s.toTc.put c (Tbl.getD s.toTc c [] ++ [⟨e, o, queueGem q, s.portKind (treeOfChan c) (queueGem q), f, host, gate, s.txNs half g len⟩]) }

/-- R341-R345: the editor's counts, and the frame's way on. -/
def State.emit (s : State) (half g q : Nat) (m : Meta) (len : Nat) : State :=
  let (f, skipped, padded) := s.edited half m
  let s := s.countBy .edtOpSkip half skipped
  let s := if padded then s.count .edtPad half else s
  let gate := s.fld .schQCfgGate (queueInst half q)
  if 12288 < f.len - 4 then (s.count .edtLenDrop half).raiseOnce .edtLen half 0
  else
    let s := s.latency half g ((s.handover half g - s.nowOn half + (s.elapsed - m.head.arrived)) / nsUnit)
    if g < 32 then s.toUplink half g m f len gate
    else s.toChannel half g q f len gate m.head.injected

/-- R358: a tributary's packet goes to the tributary logic, unshaped and uncharged (PSEUDOWIRE_RX; log entry 65). -/
def State.releaseTrib (s : State) (half : Nat) (h : QHead) : State :=
  let f := ((s.queue half h.q).frames.head?).map (fun x => x.item.head.frame)
  let s := s.popHead half h.q
  match f, h.trib with
  | some f, some i => { s with tribs := s.tribs.modify i (fun x => { x with inbox := x.inbox ++ [f] }) }
  | _, _ => s

/-- R361-R366: a decision of an egress and the release it makes; a channel whose TC input buffer is full makes none but of a tributary
(R118, R358). -/
def State.release1 (s : State) (half g : Nat) : State :=
  let s := s.syncEgress half g
  let heads := s.egressHeads half g
  match heads.find? (fun h => h.trib.isSome) with
  | some h => s.releaseTrib half h
  | none =>
    let root := egressRoot half g
    if !s.peakOk half root ∨ (32 ≤ g ∧ s.tcFull (egressChan half g)) then s
    else match s.pick half heads 8 root with
      | none => s
      | some (h, chosen) =>
        match (s.queue half h.q).frames with
        | [] => s
        | f :: _ =>
          let path := chosen.map Prod.fst
          let pairs := (root :: path).zip path
          let cut := decide (f.item.head.body = .coming)
          let s := s.popHead half h.q
          let s := if cut then s.modStore half (fun x => { x with cutOut := (g, f.item.head.frame.name) :: x.cutOut }) else s
          let s := s.chargeNode half root (s.coded half g h.len) false
          let s := chosen.foldl (fun s c => s.chargeNode half c.1 h.len c.2) s
          let s := (s.advanceTags half pairs).emit half g h.q f.item h.len
          s.retag half g path

/-- R361, R364: a release; `idle` is how many nanoseconds the egress stood idle because its region is stretched. -/
def execSchedulerRelease (half : BitVec 1) (ctl : BitVec 7) (idle : BitVec 32) (s : State) : Host.Outcome State Fault Refusal :=
  let g := ctl.toNat
  if 96 ≤ g then .next s
  else .next ((s.countBy .schRelShort (half.toNat * 128 + g) idle.toNat).release1 half.toNat g)

/-! ### Gate lists in time (R386, R395) -/

/-- S of an armed list is reached; a queue whose gate closes goes idle (R391, R362). -/
def execGateListStartAt (half : BitVec 1) (ctl : BitVec 7) (s : State) : Host.Outcome State Fault Refusal :=
  let h := half.toNat
  let g := ctl.toNat
  match (s.storeOf h).armed.find g with
  | some l => if reached (s.nowOn h) l.start then .next ((s.startList h g).syncEgress h g) else .next s
  | none => .next s

/-- An entry of the list in force takes effect. -/
def execGateEntry (half : BitVec 1) (ctl : BitVec 7) (s : State) : Host.Outcome State Fault Refusal :=
  .next (if ctl.toNat < 96 then s.syncEgress half.toNat ctl.toNat else s)

/-! ### QUEUE.FLUSH (R347) -/

def execQueueFlush (h : Hdr) (queue : Word) (s : State) : Host.Outcome State Fault Refusal :=
  .next (queueCommand h 0x0904 queue (some .qm) false (fun c half q s =>
    if s.asyncFull then .fail s .busy
    else .accepted (s.modStore half (fun st => { st with flushes := st.flushes ++ [(q, c)] }))) s)

/-- The oldest flush of a half: its queue's cells and pages are freed, and the command is answered. -/
def execQueueFlushDone (half : BitVec 1) (s : State) : Host.Outcome State Fault Refusal :=
  let h := half.toNat
  match (s.storeOf h).flushes with
  | [] => .next s
  | (q, c) :: rest =>
    let s := s.modStore h (fun st => { st with flushes := rest })
    let x := s.queue h q
    let s := s.setQueue h q
      { x with frames := [], headCells := 0, pages := [], tail := 0, deep := false, holding := false, stalled := false }
    .next (((s.count .qmFlush h).syncHalf h).answer c .ok [])

/-! ### Commands on nodes and queues (R377) -/

def rateOk (w : Word) : Bool := w.toNat ≤ 50000000
def burstOk (w : Word) : Bool := 256 ≤ w.toNat && w.toNat ≤ 262144
/-- R367: a peak rate is at least the committed rate, or 0. -/
def ratesOk (cir pir cbs pbs : Word) : Bool :=
  rateOk cir && rateOk pir && burstOk cbs && burstOk pbs && (pir = 0 || cir.toNat ≤ pir.toNat)

/-- A node's place in its tree (R355): levels 1-4 downstream, 1-3 upstream. An ULT-OT064 has no channel and no skein in half 1
(R2). -/
def State.nodeOk (s : State) (half dir level index : Nat) : Bool :=
  let port := fun p => p / 32 = half && s.portOf p = p
  if dir = 0 then
    !(s.is064 && half = 1 && level < 3) && ((level = 1 && index < 64) || (level = 2 && index < 96) || (level = 3 && index < 16384) || (level = 4 && index < 32768))
  else dir = 1 && ((level = 1 && index < 64 && port index) || (level = 2 && index < 1024 && port (index / 16)) || (level = 3 && index < 16384))

/-- Whether the host sets the parent of a level, and the parent it names is one (R356). -/
def hostParent (dir level : Nat) : Bool := (dir = 0 && level = 4) || (dir = 1 && level = 3)
def parentOk (dir level parent : Nat) : Bool := if dir = 0 then parent < 16384 else level = 3 && parent < 1024

/-- The parent that a node has: as the host set it, or as the device does (R356): a skein node that of the member it competes under now
(DESIGN CHOICE, log entry 94). -/
def State.ndParent (s : State) (half n : Nat) : Nat :=
  let i := nodeIndex n
  if hostParent (nodeUp n).toNat (nodeLevel n) then s.fld .schNdParParent (nodeInst half n)
  else if nodeUp n then (if nodeLevel n = 2 then i / 16 else 0)
  else if nodeLevel n = 2 then (if i < 64 then i else ((s.skeinChan half n).map nodeIndex).getD 0)
  else if nodeLevel n = 3 then ((s.onuTop i).map (fun x => nodeIndex x.2)).getD 0
  else 0

/-- R356: an aggregate with queues attached keeps to a class node of their port. -/
def State.parentFits (s : State) (half n parent : Nat) : Bool :=
  parentOk (nodeUp n).toNat (nodeLevel n) parent
    && !(nodeUp n && (s.storeOf half).queues.any (fun p => p.2.attached && qIsUp p.1 && nodeIndex n = s.fld .schQParParent (queueInst half p.1)
      && parent / 16 != qPort p.1))

/-- The enabled nodes and attached queues under a node. -/
def State.hasChildren (s : State) (half n : Nat) : Bool :=
  (s.storeOf half).queues.any (fun p => p.2.attached && (match s.pathOf half p.1 with
    | some l => l.contains n
    | none => nodeLevel n = (if qIsUp p.1 then 3 else 4) && nodeUp n = qIsUp p.1
        && nodeIndex n = s.fld .schQParParent (queueInst half p.1)))
  || s.regs.any (fun p => p.1 % 1024 = Reg.schNdCfg.ctorIdx && p.2.getLsbD 31 && p.1 / 1024 / 2 ^ 29 = half
      && (let m := p.1 / 1024 % 2 ^ 29
        nodeUp m = nodeUp n && nodeLevel m = nodeLevel n + 1 && hostParent (nodeUp m).toNat (nodeLevel m)
          && nodeIndex n = s.fld .schNdParParent (nodeInst half m)))

/-- R377: QUEUE.NODE_SET. A level 1 node's rates are fixed (R371): its rate words must be 0. -/
def execQueueNodeSet (h : Hdr) (w : NodeWords) (s : State) : Host.Outcome State Fault Refusal :=
  .next (halfCommand h 0x0907 (some .sch)
    (fun s half =>
      let dir := w.dir.toNat
      let level := w.level.toNat
      !s.nodeOk half dir level w.index.toNat || 1 < w.enable.toNat || 7 < w.band.toNat || w.weight.toNat < 1 || 65535 < w.weight.toNat
        || !ratesOk w.cir w.pir w.cbs w.pbs || (hostParent dir level && !s.parentFits half (ndNum dir level w.index.toNat) w.parent.toNat)
        || (level = 1 && (w.cir != 0 || w.pir != 0)))
    (fun half s =>
      let n := ndNum w.dir.toNat w.level.toNat w.index.toNat
      let i := nodeInst half n
      if w.enable = 0 ∧ s.hasChildren half n then .fail s .busy
      else
        let s := s.refillNode half n
        let s := ((s.setFld .schNdCfgEnable i w.enable.toNat).setFld .schNdCfgBand i w.band.toNat).setFld .schNdCfgWeight i w.weight.toNat
        let s := if hostParent w.dir.toNat w.level.toNat then s.setFld .schNdParParent i w.parent.toNat else s
        let s := (s.setFld .schNdCbsBurst i w.cbs.toNat).setFld .schNdPbsBurst i w.pbs.toNat
        let s := if w.level = 1 then s else (s.setFld .schNdCirRate i w.cir.toNat).setFld .schNdPirRate i w.pir.toNat
        let s := if w.enable = 1 ∧ (s.node half n).buckets.isNone then s.setNode half n { s.node half n with buckets := some (s.ndBuckets half n) } else s
        .ok ((s.rewrittenNode half n).syncHalf half)) s)

/-- SCH_ND_STAT or SCH_Q_STAT as it reads (R383): a node has work where a frame below it could be released as far as its subtree is
concerned (R361). -/
def State.ndStat (s : State) (half n : Nat) : Word :=
  let work := (List.range 96).any (fun g => (s.egressHeads half g).any (fun h =>
    h.path.contains n && ((fromNode h.path n).drop 1).all (s.peakOk half)))
  BitVec.ofNat 32 (work.toNat * 2 ^ 31 + (s.commOk half n).toNat * 2 ^ 30 + (s.peakOk half n).toNat * 2 ^ 29 + (s.node half n).memErr.toNat * 2 ^ 28)

/-- R377: QUEUE.NODE_GET: the SCH_ND registers, the committed and the peak balance as 64-bit signed numbers of 2^-16 bytes,
and the work and eligibility bits. -/
def execQueueNodeGet (h : Hdr) (dir level index : Word) (s : State) : Host.Outcome State Fault Refusal :=
  .next (halfCommand h 0x0908 none (fun s half => !s.nodeOk half dir.toNat level.toNat index.toNat)
    (fun half s =>
      let n := ndNum dir.toNat level.toNat index.toNat
      let i := nodeInst half n
      let b := s.ndBuckets half n
      .ok s ([s.reg .schNdCfg i, BitVec.ofNat 32 (s.ndParent half n), BitVec.ofNat 32 (s.ndRates half n).1, BitVec.ofNat 32 (s.ndRates half n).2.1
        , s.reg .schNdCbs i, s.reg .schNdPbs i]
        ++ wordsOf 64 (unsignedOf 64 b.1.bal) ++ wordsOf 64 (unsignedOf 64 b.2.bal) ++ [s.ndStat half n])) s)

/-- The queues attached in a half, of a direction. -/
def State.attachedCount (s : State) (half : Nat) (up : Bool) : Nat :=
  ((s.storeOf half).queues.filter (fun p => p.2.attached && qIsUp p.1 = up)).length

/-- R356: an upstream queue's aggregate hangs from a class node of the queue's port. -/
def State.attachOk (s : State) (half q parent : Nat) : Bool :=
  if qIsUp q then parent < 16384 && s.fld .schNdParParent (nodeInst half (ndNum 1 3 parent)) / 16 = qPort q
  else parent < 32768

/-- R355, R377: QUEUE.ATTACH; the queue is served from then on. -/
def execQueueAttach (h : Hdr) (queue : Word) (w : AttachWords) (s : State) : Host.Outcome State Fault Refusal :=
  .next (queueCommand h 0x0909 queue (some .sch)
    (7 < w.band.toNat || w.weight.toNat < 1 || 65535 < w.weight.toNat || 7 < w.gate.toNat || !ratesOk w.cir w.pir w.cbs w.pbs)
    (fun _ half q s =>
      if !s.attachOk half q w.parent.toNat then .fail s .badParam
      else if !(s.queue half q).attached ∧ (if qIsUp q then 65536 else 131072) ≤ s.attachedCount half (qIsUp q) then .fail s .noRoom
      else
        let i := queueInst half q
        let n := queueNode q
        let s := s.refillNode half n
        let s := s.setReg .schQCfg i (BitVec.ofNat 32 (2 ^ 31 + w.band.toNat * 2 ^ 28 + w.gate.toNat * 2 ^ 25 + w.weight.toNat))
        let s := (s.setFld .schQParParent i w.parent.toNat).setFld .schQCirRate i w.cir.toNat
        let s := ((s.setFld .schQPirRate i w.pir.toNat).setFld .schQCbsBurst i w.cbs.toNat).setFld .schQPbsBurst i w.pbs.toNat
        let s := s.setQueue half q { s.queue half q with attached := true }
        let s := if (s.node half n).buckets.isNone then s.setNode half n { s.node half n with buckets := some (s.ndBuckets half n) } else s
        .ok ((s.rewrittenNode half n).syncHalf half)) s)

/-- R359, R377: QUEUE.DETACH, refused while the queue holds cells. -/
def execQueueDetach (h : Hdr) (queue : Word) (s : State) : Host.Outcome State Fault Refusal :=
  .next (queueCommand h 0x090A queue (some .sch) false (fun _ half q s =>
    let x := s.queue half q
    if x.depth ≠ 0 ∨ !x.frames.isEmpty then .fail s .busy
    else
      let s := (s.setQueue half q { x with attached := false }).setFlag .schQCfgEnable (queueInst half q) false
      .ok (s.setNode half (queueNode q) { s.node half (queueNode q) with active := false })) s)

/-- R370, R377: QUEUE.OVH_SET; the egress is named as a gate controller is (log entry 64). -/
def execQueueOvhSet (h : Hdr) (egress ovh : Word) (s : State) : Host.Outcome State Fault Refusal :=
  let v := signedOf 32 ovh.toNat
  .next (command h 0x090B (match s.controller egress with
    | some (half, _) => .owner half
    | none => .oneOf [0, 1, 15]) (fun _ s =>
    match s.controller egress with
    | none => .fail s .badParam
    | some (half, g) =>
      if v < -64 ∨ 255 < v then .fail s .badParam
      else s.unlessClaimed [(half, .sch)] (.ok (s.setFld .schNdCfgOvh (nodeInst half (egressRoot half g)) (unsignedOf 9 v)))) s)

def schedCounters : List Ctr :=
  [.schUnattached, .schMemCorr, .schMemErr, .schCfgReject, .plcRedDrop, .plcMemCorr, .plcMemErr]

/-- R377: QUEUE.SCHED_STATUS: sch_rel_short of each lane's port, then the failure counters. -/
def execQueueSchedStatus (h : Hdr) (s : State) : Host.Outcome State Fault Refusal :=
  .next (halfCommand h 0x090E none (fun _ _ => false) (fun half s =>
    .ok s ((List.range 32).flatMap (fun p => ctrWords (s.ctr .schRelShort (half * 128 + p)))
      ++ schedCounters.flatMap (fun c => ctrWords (s.ctr c half)))) s)

end Sys2Proof.Machine
end

