-- ==== Sys2Proof/Machine/Policers.lean ====
section
/-!
DEFINITION. Policers (R372-R375, R384) and the QUEUE commands over them (R377).
-/

namespace Sys2Proof.Machine

def plcInst (half n : Nat) : Nat := half * 2 ^ 17 + n

/-- Rates in steps of 8 kb/s (PLC_CIR, PLC_EIR) and bursts in 2^-16 bytes (PLC_CBS, PLC_EBS). -/
def State.plcRates (s : State) (half n : Nat) : Nat × Nat × Nat × Nat :=
  let i := plcInst half n
  (s.fld .plcCirRate i, s.fld .plcEirRate i, s.fld .plcCbsBurst i * 2 ^ 22, s.fld .plcEbsBurst i * 2 ^ 22)

/-- What a rate has added since a bucket's last refill: whole 2^-16 bytes, and the remainder below one. -/
def Bucket.gained (b : Bucket) (rate now : Nat) : Int × Nat :=
  let v := rate * (now - b.last) + b.rem
  ((v / (2 ^ 16 * 1000000) : Nat), v % (2 ^ 16 * 1000000))

/-- A policer as it stands; full until first used (R375). -/
def State.policer (s : State) (half n : Nat) : PolSt :=
  let (_, _, cbs, ebs) := s.plcRates half n
  ((s.storeOf half).policers.find n).getD ⟨⟨cbs, 0, s.elapsed⟩, ⟨ebs, 0, s.elapsed⟩, [], false⟩

def State.setPolicer (s : State) (half n : Nat) (x : PolSt) : State :=
  s.modStore half (fun st => { st with policers := st.policers.put n x })

/-- A policer written anew: an uncorrectable error of its state is over (R376). -/
def State.rewrittenPolicer (s : State) (half n : Nat) : State := s.setPolicer half n { s.policer half n with memErr := false }

/-- refill(p) of R373, balances above a new burst cut to it (R375). -/
def State.refillPolicer (s : State) (half n : Nat) (x : PolSt) : PolSt :=
  let (cir, eir, cbs, ebs) := s.plcRates half n
  let typ := s.fld .plcCfgType (plcInst half n)
  let now := s.elapsed
  let (dc, rc) := x.c.gained cir now
  let (de, re) := x.e.gained eir now
  let c0 : Int := min x.c.bal cbs
  let e0 : Int := min x.e.bal ebs
  let spare := max 0 (c0 + dc - cbs)
  let c : Bucket := ⟨min cbs (c0 + dc), rc, now⟩
  if typ = 0 then { x with c := c, e := ⟨min ebs (e0 + spare), 0, now⟩ }
  else if typ = 1 then { x with c := c, e := ⟨min ebs (e0 + de), re, now⟩ }
  else { x with c := c, e := ⟨min ebs (e0 + de + (if s.flag .plcCfgCf (plcInst half n) then spare else 0)), re, now⟩ }

/-- colour(p, b, pre) of R373: 0 green, 1 yellow, 2 red. -/
def PolSt.colour (x : PolSt) (typ : Nat) (b : Int) (pre : Nat) : PolSt × Nat :=
  let c : Bucket := { x.c with bal := x.c.bal - b }
  let e : Bucket := { x.e with bal := x.e.bal - b }
  if typ = 1 then
    if pre = 2 ∨ x.e.bal < b then (x, 2)
    else if pre = 1 ∨ x.c.bal < b then ({ x with e := e }, 1)
    else ({ x with c := c, e := e }, 0)
  else if pre = 0 ∧ b ≤ x.c.bal then ({ x with c := c }, 0)
  else if pre ≠ 2 ∧ b ≤ x.e.bal then ({ x with e := e }, 1)
  else (x, 2)

/-- Packets and bytes by colour: counters 2 × colour and 2 × colour + 1, of 48 bits. -/
def PolSt.counted (x : PolSt) (colour len : Nat) : PolSt :=
  let up := fun (t : Tbl Nat) k n => t.setD k 0 ((Tbl.getD t k 0 + n) % 2 ^ 48)
  { x with counts := up (up x.counts (2 * colour) 1) (2 * colour + 1) len }

/-- R372-R374: a policer colours a packet of a charged length; `ruled` is the colour a rule set, `dei` the outer tag's DEI.
Answers the colour and whether the packet is discarded. -/
def State.police (s : State) (half n len : Nat) (ruled : Option Nat) (colour : Nat) (dei : Bool) : State × Nat × Bool :=
  let i := plcInst half n
  if !s.flag .plcCfgValid i || (s.policer half n).memErr then (s, colour, false)
  else
    let pre := if !s.flag .plcCfgAware i then 0
      else match ruled with
        | some k => k
        | none => if s.flag .plcCfgDeiIn i && dei then 1 else 0
    let (x, k) := (s.refillPolicer half n (s.policer half n)).colour (s.fld .plcCfgType i) ((len * 65536 : Nat) : Int) pre
    let s := s.setPolicer half n (x.counted k len)
    if k = 2 ∧ !s.flag .plcCfgRedAct i then (s.count .plcRedDrop half, k, true) else (s, k, false)

/-- R372: a packet's charged length at ingress. -/
def State.ingressLen (s : State) (x : Head) : Nat :=
  let root := if x.up then ndNum 0 1 (x.ingress % 64) else ndNum 1 1 x.ingress
  (max 1 ((x.frame.len : Int) + s.ndOvh x.half root)).toNat

/-- R375, R377: QUEUE.POLICER_SET. -/
def execQueuePolicerSet (h : Hdr) (policer : Word) (w : PolicerWords) (s : State) : Host.Outcome State Fault Refusal :=
  .next (halfCommand h 0x090C (some .plc)
    (fun _ _ => 131071 < policer.toNat || 1 < w.valid.toNat || 2 < w.typ.toNat || 1 < w.aware.toNat || 1 < w.deiIn.toNat
      || 1 < w.cf.toNat || 1 < w.redAct.toNat || !rateOk w.cir || !rateOk w.eir || !burstOk w.cbs || !(burstOk w.ebs || w.ebs = 0))
    (fun half s =>
      let i := plcInst half policer.toNat
      let s := s.setReg .plcCfg i (BitVec.ofNat 32 (w.valid.toNat * 2 ^ 31 + w.typ.toNat * 2 ^ 29 + w.aware.toNat * 2 ^ 28
        + w.cf.toNat * 2 ^ 27 + w.redAct.toNat * 2 ^ 26 + w.deiIn.toNat * 2 ^ 25))
      let s := ((s.setFld .plcCirRate i w.cir.toNat).setFld .plcEirRate i w.eir.toNat).setFld .plcCbsBurst i w.cbs.toNat
      let s := s.setFld .plcEbsBurst i w.ebs.toNat
      .ok (if w.valid = 1 ∨ (s.policer half policer.toNat).memErr then s.rewrittenPolicer half policer.toNat else s)) s)

/-- R374, R377: QUEUE.POLICER_READ: two balances in 2^-16 bytes, six counters. -/
def execQueuePolicerRead (h : Hdr) (policer : Word) (s : State) : Host.Outcome State Fault Refusal :=
  .next (halfCommand h 0x090D none (fun _ _ => 131071 < policer.toNat) (fun half s =>
    let x := s.policer half policer.toNat
    .ok s (wordsOf 64 (unsignedOf 64 x.c.bal) ++ wordsOf 64 (unsignedOf 64 x.e.bal)
      ++ (List.range 6).flatMap (fun k => ctrWords (Tbl.getD x.counts k 0)))) s)

end Sys2Proof.Machine
end

