-- ==== Sys2Proof/Machine/Pipeline.lean ====
section
/-!
DEFINITION. A pass through a pipeline (R264): fragments, the binding check, rules, lookups, the merge, the policer, the
queue's choice and the hand-over (R269-R275, R281-R284, R294-R301, R308, R372).
-/

namespace Sys2Proof.Machine

/-! ### Fragments (R270, R271) -/

/-- R271: an entry has expired. -/
def State.fragExpired (s : State) (half : Nat) (e : FragEnt) : Bool :=
  shortReached (s.nowOn half) ((e.stamp + s.fld .frgCfgLifeMs half * 1000000) % 2 ^ 32)

def State.frag (s : State) (half : Nat) (key : List Nat) : Option FragEnt :=
  ((s.fwdOf half).frags.find? (fun e => e.key = key)).bind (fun e => if s.fragExpired half e then none else some e)

def State.setFrag (s : State) (half : Nat) (e : FragEnt) : State :=
  s.modFwd half (fun f =>
    if f.frags.any (fun x => x.key = e.key) then { f with frags := f.frags.map (fun x => if x.key = e.key then e else x) }
    else { f with frags := f.frags ++ [e] })

/-- A first fragment: a new pending entry; one with its key restarts its life; a full table takes none. -/
def State.firstFrag (s : State) (half : Nat) (key : List Nat) : State :=
  match s.frag half key with
  | some e => (s.setFrag half { e with stamp := shortOf (s.nowOn half) }).count .frgDup half
  | none =>
    let f := s.fwdOf half
    if !f.frags.any (fun e => e.key = key) ∧ 8192 ≤ f.frags.length then s.report .frgFull half .frgFull half 0
    else s.setFrag half ⟨key, shortOf (s.nowOn half), none⟩

/-- Its entry takes the whole decision of its final pass. -/
def State.completeFrag (s : State) (half : Nat) (key : List Nat) (d : Decision) : State :=
  match s.frag half key with
  | some e => s.setFrag half { e with decision := some d }
  | none => s

/-- R271: the sweep frees expired entries. -/
def execFragSweep (half : BitVec 1) (s : State) : Host.Outcome State Fault Refusal :=
  let h := half.toNat
  .next (s.modFwd h (fun f => { f with frags := f.frags.filter (fun e => !s.fragExpired h e) }))

/-! ### The binding check (R283, R301) -/

/-- A source of the port's anti-spoof mode (1 MAC, 2 IP, 3 both) has no binding for the port. -/
def State.spoofed (s : State) (x : Head) (p : Parsed) : Bool :=
  let f := s.fwdOf x.half
  let tree := x.ingress / 4
  let mode := Tbl.getD f.spoof (tree * 65536 + x.port) 0
  let bound := fun kind addr => f.binds.contains ⟨x.onu, x.port, kind, addr⟩
  x.up && ((mode % 2 = 1 && (match p.smac with
      | some a => !bound 0 a
      | none => false))
    || (2 ≤ mode && (match p.v4 with
      | some (a, _) => a != 0 && !bound 1 a
      | none => false))
    || (2 ≤ mode && (match p.v6 with
      | some (a, _) => a != 0 && !bound 2 a
      | none => false)))

/-! ### Lookups (R294-R300) -/

/-- Where a lookup leads. -/
inductive Fate where
  | discard
  | host (reason : Nat)
  | down (q : Nat)
  | up (port : Nat)
  | flood (group : Nat)
  | again (bd strip : Nat)
deriving DecidableEq, Repr

/-- A pass's lookups: where they lead, the editor program and the MACs of a rewrite, the service entry's index, the domain,
and its source key with what would be learned for it. -/
structure Look where
  fate : Fate
  prog : Nat
  nh : Option (Nat × Nat)
  svc : Option Nat
  bd : Option Nat
  learn : Option LrnEv

def vid (p : Parsed) (i : Nat) : Nat := (p.vlans[i]?.map (fun v => v % 4096)).getD 0xFFF

/-- R295: three probes, the first hit taken. -/
def State.service (s : State) (x : Head) (p : Parsed) : Option (Nat × SvcEnt) :=
  let src := if x.up then x.onu * 65536 + x.port else x.ingress
  let probe := fun o i => s.svcFind x.half x.up src o i
  match probe (vid p 0) (vid p 1) with
  | some e => some e
  | none => match probe (vid p 0) 0xFFF with
    | some e => some e
    | none => probe 0xFFF 0xFFF

/-- R300: a next hop; an index never set discards (log entry 68). -/
def State.nextHop (s : State) (half i : Nat) (l : Look) : Look :=
  match (s.fwdOf half).nhs.find i with
  | none => { l with fate := .discard }
  | some n =>
    let l := { l with prog := n.prog, nh := some (n.dmac, Tbl.getD (s.fwdOf half).rmacs n.smac 0) }
    if n.kind = 0 then { l with fate := .up n.dest }
    else if n.kind = 1 then { l with fate := .down n.dest }
    else if n.kind = 2 then { l with fate := .host 6 }
    else if n.kind = 3 then { l with fate := .discard }
    else { l with fate := .again n.bd n.strip }

/-- R297: a destination of one of the four kinds. -/
def State.destination (s : State) (half kind dest : Nat) (l : Look) : Look :=
  if kind = 0 then { l with fate := .up dest }
  else if kind = 1 then { l with fate := .down dest }
  else if kind = 2 then s.nextHop half dest l
  else { l with fate := .flood dest }

/-- R297: in a domain with isolate set an upstream packet that leads to a downstream queue, by its entry or by a next hop, is discarded. -/
def State.isolated (s : State) (x : Head) (b : BdEnt) (l : Look) : State × Look :=
  match l.fate with
  | .down _ => if x.up && b.isolate then (s.count .brIsolate x.half, { l with fate := .discard }) else (s, l)
  | _ => (s, l)

/-- R299: the longest prefix that matches. -/
def State.longest (s : State) (half vrf : Nat) (v6 : Bool) (addr : Nat) : Option Route :=
  (s.fwdOf half).routes.foldl (fun best r =>
    if r.v6 = v6 ∧ r.vrf = vrf ∧ prefixBits v6 r.len addr = r.prefix_ then
      match best with
      | some b => if b.len < r.len then some r else best
      | none => some r
    else best) none

/-- R299: a routed packet: the TTL is judged first (log entry 68). -/
def State.routed (s : State) (x : Head) (p : Parsed) (vrf : Nat) (l : Look) : State × Look :=
  if p.ttl ≤ 1 then (s.count .lpmTtl x.half, { l with fate := .host 4 })
  else
    let r := match p.v4, p.v6 with
      | some (_, d), _ => s.longest x.half vrf false d
      | none, some (_, d) => s.longest x.half vrf true d
      | none, none => none
    match r with
    | some r => (s, s.nextHop x.half r.nh l)
    | none => ((s.count .lpmMiss x.half).raiseOnce .lpmMiss x.half 0, { l with fate := .discard })

/-- R296-R298: a packet bridged or routed in a domain; an invalid domain discards (log entry 68). -/
def State.inDomain (s : State) (x : Head) (p : Parsed) (bd : Nat) (l : Look) : State × Look :=
  let f := s.fwdOf x.half
  match f.bds.find bd with
  | none => (s, { l with fate := .discard })
  | some b =>
    if !b.valid then (s, { l with fate := .discard })
    else
      let dm := p.dmac.getD 0
      if b.route ∧ (p.v4.isSome ∨ p.v6.isSome) ∧ dm = Tbl.getD f.rmacs b.rmac 0 then
        let (s, l) := s.routed x p b.vrf l
        s.isolated x b l
      else match s.brFind x.half bd dm with
        | some (_, e) => s.isolated x b (s.destination x.half e.dkind e.dest l)
        | none =>
          if dm / 2 ^ 40 % 2 = 1 ∨ b.unknown = 0 then (s, { l with fate := .flood b.flood })
          else if b.unknown = 1 then (s, { l with fate := .discard })
          else (s, { l with fate := .host 5 })

/-- R308: a packet's source key and what would be learned for it: none for spoof, length conflict, a group or zero source, or a service
entry in cross-connect mode. -/
def sourceKey (x : Head) (p : Parsed) (spoof : Bool) (bd : Nat) (svc : Option (Nat × SvcEnt)) : Option LrnEv :=
  match p.smac, svc with
  | some a, some (i, e) =>
    if spoof || p.conflict || a = 0 || a / 2 ^ 40 % 2 = 1 || e.cross then none
    else some (if x.up then ⟨bd, a, 1, e.ret, some i⟩ else ⟨bd, a, 0, x.ingress, some i⟩)
  | _, _ => none

/-- R294: the lookups of a pass: of the first, by service; of one after a kind 4 next hop, in that next hop's domain. -/
def State.lookups (s : State) (k : Pkt) (p : Parsed) (spoof : Bool) : State × Look :=
  let x := k.head
  let start : Look := ⟨.discard, 0, none, none, none, none⟩
  match k.bd with
  | some bd =>
    let svc := k.svc.bind (fun i => ((s.fwdOf x.half).svcs.find i).map (fun e => (i, e)))
    let l := { start with svc := k.svc, bd := some bd, prog := (svc.map (fun e => e.2.prog)).getD 0, learn := sourceKey x p spoof bd svc }
    s.inDomain x p bd l
  | none =>
    match s.service x p with
    | none => ((s.count .svcMiss x.half).raiseOnce .svcMiss x.half 0, start)
    | some (i, e) =>
      let l := { start with svc := some i, prog := e.prog }
      if e.cross then (s, s.destination x.half e.kind e.dest l)
      else s.inDomain x p e.bd { l with bd := some e.bd, learn := sourceKey x p spoof e.bd (some (i, e)) }

/-! ### The merge and the end of a pass -/

/-- A port's queue by service base and class (R297). -/
def portQueue (port base cls : Nat) : Nat := upQueue port ((base + cls) % 65536)

/-- A flood's destinations: the group's, without the packet's own source and, in an isolated domain, upstream, without
downstream queues (R298); queues by half. -/
def State.floodQueues (s : State) (x : Head) (l : Look) (g cls : Nat) : List (Nat × Nat) :=
  let f := s.fwdOf x.half
  let e := l.svc.bind (fun i => f.svcs.find i)
  let own : Nat := if x.up then 2 ^ 18 + (e.map (fun e => e.ret)).getD 0 else x.ingress
  let iso := ((l.bd.bind (fun b => f.bds.find b)).map (fun b => b.isolate)).getD false
  ((Tbl.getD f.floods g []).filter (fun d => d != own && !(x.up && iso && 2 ^ 18 ≤ d))).map (fun d =>
    if d < 2 ^ 18 then (d / 32, portQueue d ((e.map (fun e => e.upBase)).getD 0) cls)
    else ((s.queueHalf (d % 2 ^ 18)).getD x.half, d % 2 ^ 18))

/-- What a merged packet's queue is: 0x3_FFFF, 0x3_FFFE with the trap's reason, queues of the halves, or another pass. -/
inductive Ends where
  | drop
  | host (reason : Nat)
  | queues (qs : List (Nat × Nat)) (flood : Bool)
  | again (bd strip : Nat)

/-- R269, R283: a packet in length conflict or with spoof set is counted and raised for each, and its queue is forced to 0x3_FFFF unless a
rule set 0x3_FFFE; none for any other packet. -/
def State.forced (s : State) (half : Nat) (conflict spoof ruledHost : Bool) : State × Option Ends :=
  let s := if !conflict then s else if ruledHost then s.count .prsLenConflictHost half
    else (s.count .prsLenConflict half).raiseOnce .prsLenConflict half 0
  let s := if spoof then (s.count .rulSpoof half).raiseOnce .rulSpoof half 0 else s
  (s, if !conflict && !spoof then none else if !ruledHost then some .drop else some (.host (if conflict then 1 else 2)))

/-- R269, R275, R283: the merge. -/
def State.merge (s : State) (x : Head) (p : Parsed) (spoof : Bool) (r : RuleSet) (l : Look) : State × Ends :=
  let h := x.half
  match s.forced h p.conflict spoof (r.queue = some 0x3FFFE) with
  | (s, some e) => (s, e)
  | (s, none) => match r.queue with
    | some 0x3FFFF => (s, .drop)
    | some 0x3FFFE => (s, .host 0)
    | some q =>
      if !x.up then (s, .queues [((s.queueHalf q).getD h, q)] false)
      else if 0x10000 ≤ q then (s.report .rulQBad h .rulQBad h 0, .drop)
      else match l.fate with
        | .up port => (s, .queues [(port / 32, upQueue port q)] false)
        | _ => ((s.count .schUnattached h).raiseOnce .schUnattached h 0, .drop)
    | none =>
      let base := ((l.svc.bind (fun i => (s.fwdOf h).svcs.find i)).map (fun e => e.upBase)).getD 0
      let cls := r.cls.getD 0
      match l.fate with
      | .discard => (s, .drop)
      | .host n => (s, .host n)
      | .down q => (s, .queues [((s.queueHalf q).getD h, q)] false)
      | .up port => (s, .queues [(port / 32, portQueue port base cls)] false)
      | .flood g => (s.count .brFlood h, .queues (s.floodQueues x l g cls) true)
      | .again bd strip => (s, .again bd strip)

/-- R330: a frame that a pipeline decided goes to 0x3_FFFF, to the host, to its own half's admission, or over the bridge (R328, R333). The
bridge carries the source key and return destination, no service entry (R15, R318); beyond a bridge that is down nothing arrives (R16). -/
def State.handOver (s : State) (pipe : Nat) (x : Head) (d : Decision) (learn : Option LrnEv) : State :=
  let h := x.half
  if d.drop then (s.notePool h).count .qmDiscardQ h
  else match d.host with
    | some reason =>
      (s.notePool h).toHost ⟨reason, x.frame, x.up, x.ingress, x.onu, x.port, x.stamp.getD (shortOf (s.nowOn h)), d.cls, d.colour, h⟩
    | none =>
      let m : Meta := ⟨x, d.cls, d.colour, d.prog, d.nh, none, none⟩
      let of := fun half => (d.queues.filter (fun q => q.1 = half)).map Prod.snd
      let s := if (of (1 - h)).isEmpty || s.bridgeCut then s
        else s.modStore (1 - h) (fun st => { st with bridge := st.bridge ++ [(of (1 - h),
          { m with group := if d.flood then some 0 else none, learn := learn.map (fun e => { e with svc := none }) })] })
      s.admitOwn h pipe (of h) d.flood m

/-- R372-R374: the policer of a decision; a packet whose queue is 0x3_FFFF takes no tokens. -/
def State.policed (s : State) (x : Head) (p : Parsed) (ruled : Option Nat) (d : Decision) : State × Decision :=
  match d.policer with
  | none => (s, d)
  | some n =>
    if d.drop then (s, d)
    else
      let dei := ((p.vlans.head?).map (fun v => decide (v / 4096 % 2 = 1))).getD false
      let (s, k, red) := s.police x.half n (s.ingressLen x) ruled d.colour dei
      (s, { d with colour := k, drop := red, host := if red then none else d.host })

def State.loopDrop (s : State) (k : Pkt) : State :=
  ((s.count .pipeRecircLoop k.head.half).raise .pipeRecircLoop k.head.half 0).dropVersion k.head.half k.tag

/-- R35, R281, R282: a head goes round again, unless it has taken 4 passes or 256 heads wait for its pipeline. -/
def State.recirculate (s : State) (pipe : Nat) (k : Pkt) : State :=
  let h := k.head.half
  let f := s.fwdOf h
  let q := Tbl.getD f.recirc pipe []
  if 4 ≤ k.passes then s.loopDrop k
  else if 256 ≤ q.length then (s.report .pipeRecircDrop h .pipeRecircDrop h pipe).dropVersion h k.tag
  else s.setFwd h { f with recirc := f.recirc.put pipe (q ++ [{ k with passes := k.passes + 1 }]) }

/-- The header type that follows the first `n` headers a pass read, and its offset (R300). -/
def Parsed.after (p : Parsed) (k : Pkt) (n : Nat) : Nat × Nat :=
  if n = 0 then (k.offset, k.typ)
  else match p.starts[n]? with
    | some (typ, off) => (off, typ)
    | none => (k.head.frame.len - 4, tTcp)

/-- A pass from its rule search on: rules, lookups, learning, merge, policer, hand-over or recirculation. `orphan` says
that the packet is an orphan fragment that is classified on its L3 fields. -/
def State.classify (s : State) (pipe : Nat) (k : Pkt) (p : Parsed) (orphan : Bool) : State :=
  let x := k.head
  let h := x.half
  let p := if orphan then { p with ports := 0, tcpFlags := 0, vni := 0 } else p
  let (r, s) := s.searchRules h k.tag ⟨p, x, orphan, k.spoof, decide (1 < k.passes)⟩
  let (s, l) := s.lookups k p k.spoof
  let s := match l.learn with
    | some e => if s.learns h e then s.learnFrom h e else s
    | none => s
  let (s, e) := s.merge x p k.spoof r l
  match e with
  | .again bd strip =>
    let (off, typ) := p.after k strip
    s.recirculate pipe { k with offset := off, typ := typ, svc := l.svc, bd := some bd }
  | e =>
    let pol := l.svc.bind (fun i => ((s.fwdOf h).svcs.find i).bind (fun e => e.policer))
    let d : Decision := ⟨[], none, false, false, r.cls.getD 0, r.colour.getD 0, r.colour.isSome, pol, l.prog, l.nh⟩
    let d := match e with
      | .drop => { d with drop := true }
      | .host n => { d with host := some n }
      | .queues qs flood => { d with queues := qs, flood := flood }
      | .again _ _ => d
    let (s, d') := s.policed x p r.colour d
    let s := match k.first with
      | some key => s.completeFrag h key d
      | none => s
    (s.handOver pipe x d' l.learn).dropVersion h k.tag

/-- R269, R283: the decision of a later fragment as its own flags force it; a rule set its queue to 0x3_FFFE where its decision traps for a
rule's reasons (0, 1 or 2). -/
def State.forcedLater (s : State) (k : Pkt) (p : Parsed) (d : Decision) : State × Decision :=
  match s.forced k.head.half p.conflict k.spoof (d.host.any (· < 3)) with
  | (s, some (.host n)) => (s, { d with host := some n })
  | (s, some _) => (s, { d with drop := true, host := none })
  | (s, none) => (s, d)

/-- R270: a later fragment by its entry: the first one's decision; another pass while that is pending; or an orphan. -/
def State.laterFrag (s : State) (pipe : Nat) (k : Pkt) (p : Parsed) (key : List Nat) : State :=
  let x := k.head
  let h := x.half
  match s.frag h key with
  | some e =>
    match e.decision with
    | some d =>
      let s := s.setFrag h { e with stamp := shortOf (s.nowOn h) }
      let (s, d) := s.forcedLater k p d
      let (s, d) := s.policed x p (if d.preset then some d.colour else none) d
      (s.handOver pipe x d none).dropVersion h k.tag
    | none => s.recirculate pipe k
  | none =>
    let s := (s.count .frgOrphan h).raiseOnce .frgOrphan h 0
    let act := s.fld .frgCfgOrphan h
    let d : Decision := ⟨[], if act = 2 then some 3 else none, act = 1, false, 0, 0, false, none, 0, none⟩
    if act = 0 then s.classify pipe k p true
    else
      let (s, d) := s.forcedLater k p d
      (s.handOver pipe x d none).dropVersion h k.tag

/-- One pass of a packet (R264): it is counted once in prs_depth, and each of its bytes once in prs_trailer, whatever passes it takes. -/
def State.pass (s : State) (pipe : Nat) (k : Pkt) : State :=
  let x := k.head
  let h := x.half
  let p := s.parse h x.frame k.offset k.typ
  let s := if p.depth && !k.deep then s.count .prsDepth h else s
  let s := s.countBy .prsTrailer h (p.trailer - k.trailed)
  let k := { k with deep := k.deep || p.depth, trailed := max k.trailed p.trailer, spoof := if k.passes = 1 then s.spoofed x p else k.spoof }
  match p.frag with
  | some (key, 0, _) =>
    if k.passes = 1 then (s.firstFrag h key).classify pipe { k with first := some key } p false else s.classify pipe k p false
  | some (key, _, _) => s.laterFrag pipe k p key
  | none => s.classify pipe k p false

/-- Line heads that wait for a pipeline: those of its direction (R22). -/
def State.lineHeads (s : State) (half pipe : Nat) : List Head :=
  if s.pipeUp half pipe then (s.fwdOf half).upHeads else (s.fwdOf half).downHeads

/-- R29: a rationed head of a pipeline may take its next slot: no line head wants it, or its ration is unspent and it goes ahead of them in
no more than one slot of four. -/
def State.slotOpen (s : State) (half pipe index : Nat) : Bool :=
  s.pipeServes half pipe && ((s.lineHeads half pipe).isEmpty
    || (Tbl.getD (s.fwdOf half).turns pipe 0 = 0 && !s.flag .sysRtnStatSpent (half * 64 + index)))

/-- Slots that line heads have before a rationed head may again go ahead of them. -/
def State.setTurns (s : State) (half pipe n : Nat) : State := s.modFwd half (fun f => { f with turns := f.turns.setD pipe 0 n })

/-- A head enters a pipeline for its first pass: it takes the version in force (R264, R277). -/
def State.firstPass (s : State) (half pipe : Nat) (x : Head) : State :=
  (((s.takeVersion half).slotUsed half pipe 2).carry half .pipe pipe x.frame.len).pass pipe ⟨x, 1, 0, tEth, s.cur half, none, none, false, none, false, 0⟩

/-- R29, R35: the oldest head that the host injected for a pipeline takes a slot under the INJECT ration, if it may. -/
def State.injectPass (s : State) (half pipe : Nat) : State :=
  match Tbl.getD (s.fwdOf half).injected pipe [] with
  | [] => s
  | x :: rest =>
    s.rationed half (9 + pipe) (s.slotSpan half pipe) (fun s =>
      ((s.modFwd half (fun f => { f with injected := f.injected.setD pipe [] rest })).setTurns half pipe 3).firstPass half pipe x)

/-- R22, R29, R264: a pipeline in service takes a head of its direction: one the host injected where that may go ahead, else the oldest
line head. -/
def execPipelinePass (half : BitVec 1) (up : Bool) (pipe : BitVec 4) (s : State) : Host.Outcome State Fault Refusal :=
  let h := half.toNat
  let n := pipe.toNat
  let f := s.fwdOf h
  if s.pipeUp h n ≠ up ∨ !s.pipeServes h n then .next s
  else if !(Tbl.getD f.injected n []).isEmpty ∧ s.slotOpen h n (9 + n) ∧ !s.rationWaits h (9 + n) then .next (s.injectPass h n)
  else match s.lineHeads h n with
    | [] => .next s
    | x :: rest =>
      let s := s.setFwd h (if up then { f with upHeads := rest } else { f with downHeads := rest })
      .next ((s.setTurns h n (Tbl.getD f.turns n 0 - 1)).firstPass h n x)

/-- R29, R281: the oldest recirculated head of a pipeline in service takes its next pass, unless line heads or RECIRC make it wait. -/
def execRecircPass (half : BitVec 1) (pipe : BitVec 4) (s : State) : Host.Outcome State Fault Refusal :=
  let h := half.toNat
  let n := pipe.toNat
  match Tbl.getD (s.fwdOf h).recirc n [] with
  | [] => .next s
  | k :: rest =>
    .next (if s.slotOpen h n n then
        s.rationed h n (s.slotSpan h n) (fun s =>
          (((s.modFwd h (fun f => { f with recirc := f.recirc.setD n [] rest })).setTurns h n 3).slotUsed h n 3).pass n k)
      else s)

end Sys2Proof.Machine
end

