-- ==== Sys2Proof/Machine/Units.lean ====
section
/-!
DEFINITION. The units of a block (R17), their counters in directory order (R596, R605), and what a snapshot's buffer holds (R599).
-/

namespace Sys2Proof.Machine

/-- Every block. -/
def allBlocks : List Blk :=
  [.tb, .pipe, .prs, .rul, .frg, .br, .lpm, .svc, .lrn, .cst, .dst, .qm, .sch, .plc, .gt, .edt, .sp, .sq, .hbm, .xb, .kv, .lsh,
   .lnp, .pch, .brx, .gnt, .act, .skn, .cad, .cph, .pmb, .lnu, .umac, .msc, .tsi, .tnd, .sys, .evt, .pwr, .tns, .rmd, .sec, .ggc]

/-- The block of a number on a die; none where R500 reserves it. LSH is on die 0 alone. -/
def blockOf (die n : Nat) : Option Blk :=
  if die = 1 ∧ n = 0x15 then none
  else (dieKind die).bind (fun k => allBlocks.find? (fun b => Blk.number k b = some n))

/-- The units of a block on a die, as the lowest of each run and how many: things that R11 numbers by those numbers, cipher cores (R17)
as CORESEL names them (R438); an uplink die's, whose SecYs bear the lanes' numbers, from 128 on (log entry 80). -/
def unitRanges (die : Nat) (b : Blk) : List (Nat × Nat) :=
  match b with
  | .act => [(8 * (die - 2), 8)]
  | .pch | .brx | .gnt | .lnp => [(32 * (die - 2), 32)]
  | .skn => [(16 * (die - 2), 16)]
  | .cad => [(256 * (die - 2), 256)]
  | .lnu | .umac | .tsi => [(32 * (die - 6), 32)]
  | .msc => [(32 * (die - 6), 32), (128, 20), (192, 20)]
  | .cph => [(0, 12), (64, 12)]
  | .tnd => [(4 * (die - 6), 4)]
  | .gt => [(0, 96)]
  | .pipe => [(0, 9)]
  | .sq => [(0, if die < 6 then 3 else 2)]
  | .tns => [(0, 72)]
  | .rmd => [(0, 9)]
  | _ => [(0, 1)]

/-- The lowest unit of a block on a die, and how many it has there. -/
def lowUnit (die : Nat) (b : Blk) : Nat := ((unitRanges die b).headD (0, 1)).1
def unitCount (die : Nat) (b : Blk) : Nat := sumOn (unitRanges die b) Prod.snd

/-- Where a counter's instance counts: its die and its unit; a die-wide counter's unit is the block's lowest (log entry 80). -/
def ctrHome (c : Ctr) (i : Nat) : Nat × Nat :=
  let low := fun die => (die, lowUnit die c.block)
  match c with
  | .actRogueIdle | .actSnDisabled | .actSnDup | .actSnFound | .actSnGarble | .actSnUnknown => (dieOfChan i, i / 4)
  | .brxRsmFlush | .brxRsmNobuf | .brxRsmSize | .brxRsmTaint | .brxRsmTimeout => low i
  | .gntCtiBad | .gntCtiFull | .gntCtiLate | .gntRecReject | .gntMemCorr | .gntMemErr => low i
  | .cadCfgReject | .lnpRefLoss | .lnuRefLoss | .mscJobAuthFail | .mscMemCorr | .pipeParErr | .pipeRecircDrop | .pipeRecircLoop => low i
  | .lnuModeReject => (6 + i / 4, i * 8)
  | .schRelShort => (i / 128, 0)
  | .tndAuthFail | .tndCfgReject | .tndCutLate | .tndDevnumDup | .tndDiverge | .tndDrillFail | .tndEqdNeg | .tndHalterContend
  | .tndHalterLost | .tndLinkDown | .tndPairBad | .tndRefLoss | .tndResendFail | .tndSeniorBad | .tndTakeover
  | .tndUnreadyDeact => (6, 0)
  | .sqClaimDrop | .sqDarnHold => (i, 0)
  | .gtMemCorr | .gtMemErr => (i, 0)
  | _ =>
    match c.block with
    | .act => (dieOfTree i, i)
    | .pch | .brx | .gnt | .lnp => (dieOfChan i, i)
    | .skn => (2 + i / 16, i)
    | .cad => (2 + i / 256, i)
    | .lnu | .umac | .msc | .tsi => (dieOfLane i, i)
    | .tnd => (dieOfTLane i, i)
    | .gt | .sq => (i / 128, i % 128)
    | .tns | .rmd => (15, i)
    | .sys | .pwr | .sec | .ggc | .evt => (15, 0)
    | .tb | .lsh => (0, 0)
    | _ => low i

def ctrOf (k : Nat) (b : Blk) : Option Ctr := b.ctrs.find? (fun c => c.ctorIdx = k % 1024)

/-- Whether a counter's entry belongs to a unit. -/
def entryOf (die : Nat) (b : Blk) (u k : Nat) : Bool :=
  match ctrOf k b with
  | some c => decide (ctrHome c (k / 1024) = (die, u))
  | none => false

/-- A named counter of a unit, over a bank of counters. -/
def unitCtr (ctrs : Tbl Nat) (die : Nat) (b : Blk) (u : Nat) (c : Ctr) : Nat :=
  sumOn (ctrs.filter (fun p => p.1 % 1024 = c.ctorIdx && entryOf die b u p.1)) Prod.snd

/-- Named counters of a block in directory order (R605; log entry 3). -/
def insertByOrder (c : Ctr) : List Ctr → List Ctr
  | [] => [c]
  | d :: r => if Config.directoryOrder c.ctorIdx < Config.directoryOrder d.ctorIdx then c :: d :: r else d :: insertByOrder c r
def inOrder (b : Blk) : List Ctr := b.ctrs.foldr insertByOrder []

/-- The parts of a unit's word, its block where the die has it. -/
def unitDie (w : Nat) : Nat := w / 2 ^ 22 % 16
def unitBlk (w : Nat) : Option Blk := blockOf (unitDie w) (w / 2 ^ 16 % 64)
def unitNo (w : Nat) : Nat := w % 2 ^ 16

def unitExists (w : Nat) : Bool :=
  match unitBlk w with
  | some b => (unitRanges (unitDie w) b).any (fun r => r.1 ≤ unitNo w && unitNo w < r.1 + r.2)
  | none => false

def gaugeKey (w k : Nat) : Nat := w * 8 + k

/-- A unit's counters: named ones in directory order, then gauge counters. -/
def unitWords (ctrs : Tbl Nat) (gauges : Nat → Nat) (w : Nat) (b : Blk) : List Word :=
  (inOrder b).flatMap (fun c => ctrWords (unitCtr ctrs (unitDie w) b (unitNo w) c)) ++ (List.range 8).flatMap (fun k => ctrWords (gauges k))

/-! ### A snapshot in its buffer (R599) -/

/-- The banks of a die's two snapshot buffers. -/
def bufferBanks (die buf : Nat) : List Nat := if die < 2 then [16 + 2 * buf, 17 + 2 * buf] else [4 + buf]

/-- The units of a die in ascending block and unit order, as GGC_UNIT words. -/
def dieUnits (die : Nat) : List (Nat × Blk) :=
  (List.range 64).flatMap (fun n => match blockOf die n with
    | some b => (unitRanges die b).flatMap (fun r => (List.range r.2).map (fun i => (die * 2 ^ 22 + n * 2 ^ 16 + r.1 + i, b)))
    | none => [])

/-- What a die writes of a snapshot: its sequence number and instant, then each unit's word and counters; a core die's is followed by its
half's uplink die's. The header's widths are in log entry 80. -/
def Snapshot.words (x : Snapshot) (die : Nat) : List Word :=
  BitVec.ofNat 32 x.seq :: timeWords x.at_
    ++ ((if die < 2 then [die, 6 + die] else [die]).flatMap dieUnits).flatMap (fun u =>
      BitVec.ofNat 32 u.1 :: unitWords x.ctrs (fun k => Tbl.getD x.gauges (gaugeKey u.1 k) 0) u.1 u.2)

end Sys2Proof.Machine
end

