-- ==== Sys2Proof/Machine/Scratch.lean ====
section
/-!
DEFINITION. Scratchpads and HBM segments: owners, access rules, hand-over, DMA (R541-R558). A bank of a die is named as
SCRATCH.OWNER_SET names it, 64 + s being HBM segment s of a core die.
-/

namespace Sys2Proof.Machine

/-! ### Banks and words -/

/-- The banks a die has (R541, R550). -/
def bankExists (die bank : Nat) : Bool := if die < 2 then bank < 192 else die < 6 && bank < 16

/-- Words of a bank (R541, R550). -/
def bankWords (die bank : Nat) : Nat := if 64 ≤ bank then 2 ^ 26 else if die < 2 then 131072 else 65536

def bankReg (bank : Nat) : Reg := if 64 ≤ bank then .hbmSegOwner else .spBankOwner
def bankInst (die bank : Nat) : Nat := die * 128 + (if 64 ≤ bank then bank - 64 else bank)
def bankBlk (bank : Nat) : Blk := if 64 ≤ bank then .hbm else .sp

def State.bankOwner (s : State) (die bank : Nat) : Nat := fldOf .spBankOwnerOwner (s.reg (bankReg bank) (bankInst die bank))
def State.bankPending (s : State) (die bank : Nat) : Bool := fldOf .spBankOwnerPending (s.reg (bankReg bank) (bankInst die bank)) = 1
def State.bankLocked (s : State) (die bank : Nat) : Bool := fldOf .spBankOwnerLocked (s.reg (bankReg bank) (bankInst die bank)) = 1

/-- The bank's word takes an owner, its clear bit and its pending bit. -/
def State.setBank (s : State) (die bank owner : Nat) (clear pending : Bool) : State :=
  let w := s.reg (bankReg bank) (bankInst die bank)
  let w := withField 0 3 (withField 30 1 (withField 31 1 w pending.toNat) clear.toNat) owner
  s.setReg (bankReg bank) (bankInst die bank) w

def padKey (die bank w : Nat) : Nat := (die * 256 + bank) * 2 ^ 26 + w

/-- The word a bank holds. A bank that a snapshot was written to holds the snapshot, but for words written since (R599). A 32-byte word with an uncorrectable error reads zero (R547). -/
def State.pad (s : State) (die bank w : Nat) : Word :=
  if s.pads.broken.has (padKey die bank w / 8) then 0
  else match s.gauge.images.find (die * 256 + bank), s.pads.words.find (padKey die bank w) with
  | some x, none => (x.words die).getD ((if die < 2 then bank % 2 * 131072 else 0) + w) 0
  | _, some v => v
  | none, none => 0

/-- A read of a word; one with an uncorrectable error is counted and raised (R547). -/
def State.readPad (s : State) (die bank w : Nat) : State × Word :=
  (if s.pads.broken.has (padKey die bank w / 8) then s.report .spEccErr die .spEcc die bank else s, s.pad die bank w)

/-- An engine has read a range of a bank's words: its 32-byte words with an uncorrectable error are counted and raised (R547). -/
def State.noteBroken (s : State) (die bank first n : Nat) : State :=
  if n = 0 then s
  else (s.pads.broken.filter (fun p => padKey die bank first / 8 ≤ p.1 && p.1 ≤ padKey die bank (first + n - 1) / 8)).foldl
    (fun s _ => s.report .spEccErr die .spEcc die bank) s
/-- The words that hold a range of bytes. -/
def State.noteBytes (s : State) (die bank a n : Nat) : State :=
  if n = 0 then s else s.noteBroken die bank (a / 4) ((a + n - 1) / 4 - a / 4 + 1)

def State.readPads (s : State) (die bank first : Nat) : Nat → State × List Word
  | 0 => (s, [])
  | n + 1 =>
    let (s, v) := s.readPad die bank first
    let (s, vs) := State.readPads s die bank (first + 1) n
    (s, v :: vs)

/-- A write, which clears an error of its 32-byte word (R547). -/
def State.writePad (s : State) (die bank w : Nat) (v : Word) : State :=
  let words := if (s.gauge.images.has (die * 256 + bank)) then s.pads.words.put (padKey die bank w) v
    else s.pads.words.setD (padKey die bank w) 0 v
  { s with pads := { s.pads with words := words, broken := s.pads.broken.del (padKey die bank w / 8) } }

def State.writePads (s : State) (die bank : Nat) : Nat → List Word → State
  | _, [] => s
  | w, v :: vs => State.writePads (s.writePad die bank w v) die bank (w + 1) vs

/-- The byte at a byte address of a bank: the most significant byte of a word at its lowest address (log entry 70). -/
def State.padByte (s : State) (die bank a : Nat) : Nat := (s.pad die bank (a / 4)).toNat / 2 ^ (8 * (3 - a % 4)) % 256

def State.padBytes (s : State) (die bank a n : Nat) : List Nat := (List.range n).map (fun i => s.padByte die bank (a + i))

def State.writeByte (s : State) (die bank a v : Nat) : State :=
  let w := s.pad die bank (a / 4)
  s.writePad die bank (a / 4) (withField (8 * (3 - a % 4)) 8 w v)

def State.writeBytes (s : State) (die bank : Nat) : Nat → List Nat → State
  | _, [] => s
  | a, v :: vs => State.writeBytes (s.writeByte die bank a v) die bank (a + 1) vs

/-- The whole bank reads zero. -/
def State.clearBank (s : State) (die bank : Nat) : State :=
  let b := die * 256 + bank
  { s with
    pads := { s.pads with words := s.pads.words.filter (fun p => p.1 / 2 ^ 26 != b), broken := s.pads.broken.filter (fun p => p.1 / 2 ^ 23 != b) }
    gauge := { s.gauge with images := s.gauge.images.del b } }

/-! ### Access rules (R544) -/

/-- An access by a requester other than the owner's: counted, raised once per die per frame. -/
def State.nonOwner (s : State) (die : Nat) : State := (s.count .spNonowner die).raiseOnce .spNonowner die 0

/-! ### Hand-over (R545, R546, R551) -/

/-- The new owner takes the bank; the command that asked for it is answered. -/
def State.finishHandover (s : State) (x : Handover) : State :=
  let s := if x.clear then s.clearBank x.die x.bank else s
  let s := { s with pads := { s.pads with handovers := s.pads.handovers.filter (fun y => decide (¬(y.die = x.die ∧ y.bank = x.bank))) } }
  let s := s.setBank x.die x.bank x.owner false false
  match x.caller with
  | some c => s.answer c .ok []
  | none => s

/-- The new owner's accesses during a hand-over stall until it ends (R546). -/
def State.settleBank (s : State) (die bank : Nat) : State :=
  match s.pads.handovers.find? (fun y => decide (y.die = die ∧ y.bank = bank)) with
  | some x => s.finishHandover x
  | none => s

/-- R545: the current owner still has work on the bank. A snapshot in progress holds the GAUGE banks, PM writes the PM
ones while seconds wait for hand-over. -/
def State.bankBusy (s : State) (die bank : Nat) : Bool :=
  let o := s.bankOwner die bank
  s.pads.dmas.any (fun x => x.die = die && x.bank = bank)
    || (die < 2 && bank < 64 && s.cipher.jobs.any (fun j => j.half = die && j.bank = bank))
    || (match s.trust.pending with | some (_, _, _, b) => die = 0 && b = bank | none => false)
    || (bank < 64 && o = 2 && (s.gauge.latched.map (fun l => decide (Tbl.find l.2.2 die = some (if die < 2 then (bank - 16) / 2 else bank - 4)))).getD false)
    || (bank < 64 && o = 3 && (s.pmOn die).any (fun p => 9 < p.2.secs.length))

/-- R551: an HBM segment's owner may give it up. -/
def State.segmentFree (s : State) (die seg : Nat) : Bool :=
  let o := s.bankOwner die (64 + seg)
  if o = 0 then
    let stack := seg / 64
    !((s.storeOf die).queues.any (fun q => q.2.pages.any (fun p => p.1 / 2 ^ 22 = stack && p.1 % 2 ^ 22 / 65536 = seg % 64 && p.2 != 0)))
  else if o = 1 then
    !((List.range 64).any (fun k => k / 32 = die && s.flag .sknCfgValid k)) && !(s.tribs.any (fun p => p.1 / 512 = die))
  else if o = 2 then !(s.pm.ents.any (fun p => pmHalf p.2.die = die && p.2.enabled))
  else true

/-- The domain that holds a bank (R610): a scratchpad group, or the HBM PHYs; a line die's banks stand in none. -/
def bankDomain (die bank : Nat) : Option Nat :=
  if 2 ≤ die then none else some (330 + 23 * die + (if 64 ≤ bank then 22 else 18 + bank / 16))
/-- A bank serves: its domain is on and cleared (R548). -/
def State.bankOn (s : State) (die bank : Nat) : Bool := ((bankDomain die bank).map s.domainOn).getD true

def ownerCodeOk (die bank owner : Nat) : Bool :=
  if 64 ≤ bank then owner < 4 else owner < 6 && !(2 ≤ die && owner = 4)

/-- Why a hand-over is refused (R545, R551). -/
def State.handoverRefused (s : State) (die bank owner : Nat) : Option Status :=
  if s.bankLocked die bank ∨ !ownerCodeOk die bank owner then some .badParam
  else if !s.bankOn die bank ∨ s.bankPending die bank ∨ s.bankBusy die bank ∨ (64 ≤ bank ∧ !s.segmentFree die (bank - 64)) then some .busy
  else none

/-- R546: the hand-over starts. It clears if told to, when it leaves FIRMWARE or CIPHER_JOB, and always in the HBM. -/
def State.startHandover (s : State) (die bank owner : Nat) (clear : Bool) (caller : Option Caller) : State :=
  let old := s.bankOwner die bank
  let wipe := clear || 64 ≤ bank || old = 1 || old = 4
  let s := s.setBank die bank owner clear true
  { s with pads := { s.pads with handovers := s.pads.handovers ++ [⟨die, bank, owner, wipe, caller⟩] } }

/-- R545, R546, R554. -/
def execScratchOwnerSet (h : Hdr) (bank owner clear : Word) (s : State) : Host.Outcome State Fault Refusal :=
  .next (command h 0x1300 (.oneOf [0, 1, 2, 3, 4, 5]) (fun caller s =>
    let d := h.die.toNat
    let b := bank.toNat
    if !bankExists d b ∨ !flagOk clear ∨ 7 < owner.toNat then .fail s .badParam
    else match s.handoverRefused d b owner.toNat with
      | some .badParam => .fail s .badParam
      | r => s.unlessClaimed [(d, bankBlk b)] (
        match r with
        | some x => .fail s x
        | none => ⟨s.startHandover d b owner.toNat (clear = 1) (some caller), .ok, [], true⟩)) s)

/-- The HSCRUB ration of the stack that holds an HBM bank (R32). -/
def scrubRation (bank : Nat) : Nat := 27 + 5 * ((bank - 64) / 64)

/-- R546: the hand-over's steps 2 to 4 end. The clear of an HBM segment, 582.5 µs of its stack's command time, goes to HSCRUB and
borrows slack whatever its borrow bit: it waits only while others want the stack and HSCRUB is spent (R551). -/
def execBankHandoverDone (die : BitVec 3) (bank : Byte) (s : State) : Host.Outcome State Fault Refusal :=
  let d := die.toNat
  let b := bank.toNat
  let r := scrubRation b
  .next (if b < 64 ∨ !(s.pads.handovers.any (fun y => decide (y.die = d ∧ y.bank = b))) then s.settleBank d b
    else if s.flag .sysRtnStatSpent (d * 64 + r) ∧ s.resourceWanted d r then s
    else (s.settleBank d b).chargeWith d r (nsSpan 582500) true)

/-- R545, R556: a write of an owner register. A refused one is counted and raised; a claim is needed as for any RWC field;
one that changes neither owner nor clear does nothing. -/
def State.writeOwner (s : State) (p : APath) (die bank : Nat) (data : Word) : State :=
  let w := s.reg (bankReg bank) (bankInst die bank)
  let owner := fieldOf 0 3 data
  let clear := fieldOf 30 1 data
  if !bankExists die bank ∨ s.dieFused die then s
  else if owner = fieldOf 0 3 w ∧ clear = fieldOf 30 1 w then s
  else if !s.mayRwc p die (bankBlk bank) then s.report .sysUnclaimedWr 0 .sysUnclaimedWr die 0
  else if owner = fieldOf 0 3 w ∧ (s.handoverRefused die bank owner).isNone then
    s.setReg (bankReg bank) (bankInst die bank) (withField 30 1 w clear)
  else match s.handoverRefused die bank owner with
    | some _ => s.report .spOwnerReject die .spOwnerReject die bank
    | none => s.startHandover die bank owner (clear = 1) none

def execSpBankOwnerWrite (p : APath) (die : BitVec 3) (bank : Byte) (data : Word) (s : State) : Host.Outcome State Fault Refusal :=
  .next (s.writeOwner p die.toNat bank.toNat data)

/-! ### SCRATCH.READ and SCRATCH.WRITE (R544, R554) -/

/-- A range of whole words lies in a scratchpad bank. -/
def rangeOk (die bank offset count limit : Nat) : Bool :=
  bank < 64 && bankExists die bank && 1 ≤ count && count ≤ limit && offset % 4 = 0 && offset / 4 + count ≤ bankWords die bank

/-- A command of a path on a HOST bank: BUSY while its domain is off or clears (R548); NOT_OWNER, counted and raised, of any other
bank, and on the in-band path, which is no requester of a HOST bank (R542, R544). -/
def State.onHostBank (s : State) (p : Path) (d b : Nat) (f : State → Res) : Res :=
  if !s.bankOn d b then .fail s .busy
  else if s.bankOwner d b ≠ 0 ∨ p = .inband then ⟨s.nonOwner d, .notOwner, [], false⟩ else f (s.settleBank d b)

def execScratchRead (h : Hdr) (bank offset count : Word) (s : State) : Host.Outcome State Fault Refusal :=
  .next (command h 0x1301 (.oneOf [0, 1, 2, 3, 4, 5]) (fun _ s =>
    let d := h.die.toNat
    let b := bank.toNat
    if !rangeOk d b offset.toNat count.toNat 1023 then .fail s .badParam
    else s.onHostBank h.path d b (fun s =>
      let r := s.readPads d b (offset.toNat / 4) count.toNat
      .ok r.1 r.2)) s)

def execScratchWrite (h : Hdr) (bank offset : Word) (words : List Word) (s : State) : Host.Outcome State Fault Refusal :=
  .next (command h 0x1302 (.oneOf [0, 1, 2, 3, 4, 5]) (fun _ s =>
    let d := h.die.toNat
    let b := bank.toNat
    if !rangeOk d b offset.toNat words.length 1020 then .fail s .badParam
    else s.unlessClaimed [(d, .sp)] (s.onHostBank h.path d b (fun s => .ok (s.writePads d b (offset.toNat / 4) words)))) s)

/-! ### DMA (R555) -/

def hostAddress (hi lo : Word) : Nat := hi.toNat * 2 ^ 32 + lo.toNat

def execScratchDma (h : Hdr) (dir bank offset hostHi hostLo len : Word) (s : State) : Host.Outcome State Fault Refusal :=
  .next (command h 0x1303 (.oneOf [0, 1, 2, 3, 4, 5]) (fun caller s =>
    let d := h.die.toNat
    let b := bank.toNat
    let host := hostAddress hostHi hostLo
    if h.path ≠ .pcie ∨ 1 < dir.toNat ∨ !bankExists d b ∨ host % 64 ≠ 0 ∨ offset.toNat % 64 ≠ 0 ∨ len.toNat % 64 ≠ 0
        ∨ len.toNat < 64 ∨ 2 ^ 24 < len.toNat ∨ bankWords d b * 4 < offset.toNat + len.toNat then .fail s .badParam
    else s.unlessClaimed [(d, bankBlk b)] (
      if !s.bankOn d b then .fail s .busy
      else if s.bankOwner d b ≠ (if 64 ≤ b then 3 else 5) then ⟨s.nonOwner d, .notOwner, [], false⟩
      else if 4 ≤ (s.pads.dmas.filter (fun x => x.die = d)).length ∨ s.asyncFull then .fail s .busy
      else
        let s := if b < 64 then s.settleBank d b else s
        .accepted { s with pads := { s.pads with dmas := s.pads.dmas ++ [⟨caller, d, dir = 1, b, offset.toNat, host, len.toNat, 0⟩] } })) s)

/-- The bytes of a transfer that moved, in whole 64-byte bursts. -/
def DmaXfer.moved (x : DmaXfer) (m : DmaMoved) (whole : Bool) : Nat := if whole then x.len else min (m.bytes.toNat / 64 * 64) x.len

/-- The transfer's data as far as it moved: words read from host memory into the bank, or the bank's into host memory. -/
def State.moveDma (s : State) (x : DmaXfer) (n : Nat) (data : List Word) : State :=
  if x.toHost then (s.noteBroken x.die x.bank (x.offset / 4) (n / 4)).send
    (.dma x.host ((List.range (n / 4)).map (fun i => s.pad x.die x.bank (x.offset / 4 + i))))
  else s.writePads x.die x.bank (x.offset / 4) ((List.range (n / 4)).map (fun i => data.getD i 0))

/-- A transfer ends and its command completes with the byte count moved. -/
def State.endDma (s : State) (x : DmaXfer) (m : DmaMoved) (st : Status) : State :=
  let n := x.moved m (st = .ok)
  let s := s.moveDma x n m.data
  { s with pads := { s.pads with dmas := s.pads.dmas.filter (fun y => decide (y.caller ≠ x.caller)) } }.answer x.caller st [BitVec.ofNat 32 n]

/-- The ration that a transfer's bank or HBM time goes to, and the time of so many bytes (R32, R541, R555). -/
def DmaXfer.ration (x : DmaXfer) : Nat := if 64 ≤ x.bank then 28 + 5 * ((x.bank - 64) / 64) else if x.die < 2 then 23 else 2
def DmaXfer.span (x : DmaXfer) (bytes : Nat) : Nat := if 64 ≤ x.bank then hbmSpan bytes else bytes / 32 * nsUnit * 2 / 3

/-- A transfer that moves so many bytes is served for as much of their time as its ration allows now (R30, R35): whether that was all. -/
def State.serveDma (s : State) (x : DmaXfer) (bytes : Nat) : State × Bool :=
  let w := s.wantTime x.die x.ration
  let left := x.span bytes - x.served
  let part := w.rationSpan x.die x.ration left
  let s := w.charge x.die x.ration part
  ({ s with pads := { s.pads with dmas := s.pads.dmas.map (fun y => if y.caller = x.caller then { y with served := y.served + part } else y) } }
  , decide (part = left) && !w.rationWaits x.die x.ration)

/-- R552, R555: the n-th oldest transfer of a die completes, or stops. It stalls while its segment is being handed over (R546) or its ration makes it wait, and where the period's
ration serves a part of it the rest waits for the next (R30, R35). -/
def execDmaDone (die : BitVec 3) (n : BitVec 2) (stop : DmaEnd) (moved : DmaMoved) (s : State) : Host.Outcome State Fault Refusal :=
  let d := die.toNat
  match (s.pads.dmas.filter (fun x => x.die = d))[n.toNat]? with
  | none => .next s
  | some x =>
    if s.bankPending x.die x.bank then .next s else
    let (s, whole) := s.serveDma x (x.moved moved (stop = .whole))
    .next (if !whole then s else match stop with
    | .whole => s.endDma x moved .ok
    | .hostError => (s.endDma x moved .badParam).report .spDmaErr d .spDmaErr d x.bank
    | .hbmError page =>
      if 64 ≤ x.bank then
        ((s.endDma x moved .badParam).retirePage d ((x.bank - 64) / 64) page.toNat).report .hbmEccErr d .hbmEcc d x.bank
      else s.endDma x moved .badParam)

/-- R555: a host link out of L0 for more than 100 ms stops every transfer; each operand is one transfer's, oldest first. -/
def execHostLinkDmaTimeout (moved : List DmaMoved) (s : State) : Host.Outcome State Fault Refusal :=
  if s.laosh.linkUp ∨ s.elapsed ≤ s.laosh.downAt + msSpan 100 then .next s
  else .next (((List.range s.pads.dmas.length).zip s.pads.dmas).foldl (fun s p =>
    (s.endDma p.2 (moved.getD p.1 ⟨0, []⟩) .badParam).report .spDmaErr p.2.die .spDmaErr p.2.die p.2.bank) s)

end Sys2Proof.Machine
end

