-- ==== Sys2Proof/Machine/Vault.lean ====
section
/-!
DEFINITION. The key vault, roles, key loading and MACsec SAs (R413-R422, R431, R432, R434), alarms and zeroization
(R424-R427, R566), self-tests (R428, R429). The algorithms are those of the standards the spec names: `Config.standard`
(log entry 2).
-/

namespace Sys2Proof.Machine

/-- The lowest number from one on that a rising list does not hold. -/
def lowestFree : List Nat → Nat → Nat
  | [], n => n
  | k :: ks, n => if k = n then lowestFree ks (n + 1) else lowestFree ks n

/-! ### Module state (R428, R435, R564) -/

def State.errorState (s : State) : Bool := s.flag .secStatError 0
/-- 0 BLANK, 1 SHIPPED, 2 OWNED, 3 RETIRED (R572). -/
def State.lifecycle (s : State) : Nat := s.fld .secLifecycleState 0
/-- While TAMPER_N is low every key created is erased at once (R566). -/
def State.tampered (s : State) : Bool := s.pin .tamperN 0 = 0

/-- What refuses a KEY command before anything else: the error state (R428), and the lifecycle (R564). -/
def State.keyGate (s : State) (op : Nat) (r : Res) : Res :=
  if s.errorState then .fail s .zeroized
  else if s.lifecycle = 0 then .fail s .unauthorized
  else if s.lifecycle = 3 ∧ op ≠ 0x0B0D then .fail s .zeroized
  else r

/-- Services of the Crypto Officer (R431). -/
def State.officerOnly (s : State) (h : Hdr) (r : Res) : Res := if s.isOfficer h.path then r else .fail s .unauthorized

/-- Commands that create keys, while TAMPER_N stays low (R566). -/
def State.creates (s : State) (r : Res) : Res := if s.tampered then .fail s .zeroized else r

/-- R432: a non-approved service takes the device out of approved mode, counted and raised. -/
def State.notApproved (s : State) : State :=
  (s.setFlag .secStatApproved 0 false).report .secNonapproved 0 .secNonapproved 15 0

/-! ### Keys (R416, R418, R419) -/

def halfOfHandle (h : Nat) : Nat := h / 2 ^ 31

/-- Keys of a half's vault and those on their way into it. -/
def State.vaultKeys (s : State) (half : Nat) : Tbl VKey :=
  let own := s.vault.filter (fun p => p.1 / 2 ^ 31 = half)
  s.cipher.deliveries.foldl (fun t d => if d.half = half then d.keys.foldl (fun t k => t.put k.1 k.2) t else t) own

/-- The lowest free handles of a half (log entry 34). -/
def State.freeHandles (s : State) (half : Nat) : Nat → List Nat
  | 0 => []
  | n + 1 =>
    let prev := State.freeHandles s half n
    let keys := prev.foldl (fun t h => Tbl.put t h ()) ((s.vaultKeys half).map (fun p => (p.1, ())))
    prev ++ [lowestFree (keys.map Prod.fst) (half * 2 ^ 31)]

/-- Room for more keys, and for a look-aside key (R416). -/
def State.vaultRoom (s : State) (half n : Nat) (job : Bool) : Bool :=
  let ks := s.vaultKeys half
  ks.length + n ≤ 65536 && (!job || (ks.filter (fun p => p.2.kind = .job)).length < 4096)

def State.keyOf (s : State) (kind : KeyKind) (owner : Nat) : Option (Nat × VKey) :=
  s.vault.find? (fun p => decide (p.2.kind = kind ∧ p.2.owner = owner))

/-- An ONU's key-encryption key: the one derived from its MSK, else the default of G.9804.2 (R419). -/
def State.kekOf (s : State) (o : Nat) : Nat :=
  match s.keyOf .kek o with
  | some k => k.2.value
  | none => Config.standard 7 [((s.onu o).map (fun x => x.serial)).getD 0]

/-- A die with a cluster held out of service (R428). -/
def State.clusterOut (s : State) (die : Nat) : Bool :=
  s.cipher.outOfService.contains (clusterKey die 0) || s.cipher.outOfService.contains (clusterKey die 1)

/-- The tree a PON key serves. -/
def State.treeOfKey (s : State) (k : VKey) : Nat :=
  match k.kind with
  | .broadcast _ => k.owner
  | _ => ((s.onu k.owner).map (fun x => x.tree)).getD 0

/-- The channels that carry frames under a PON key: those of its tree for a broadcast key, those of its ONU's placement, members of its skein
among them, for a unicast key. -/
def State.chansOfKey (s : State) (k : VKey) : List Nat :=
  match k.kind with
  | .broadcast _ => chansOfTree k.owner
  | _ => ((s.onu k.owner).map (fun x => x.chan)).toList
    ++ ((s.skeinOnus.find k.owner).map (fun j => j.members.map (fun m => 4 * (j.skein / 2) + m.1))).getD []

/-- R125: fragments still to be sent hold a key. -/
def State.fragmentsHold (s : State) (slot : Nat) (k : VKey) : Bool := s.chans.any (fun c => c.2.tc.any (fun u => decide (u.key = some (slot, k.value))))

/-- R125: a slot's old key stays in it while fragments still to be sent hold it. -/
def State.slotHeld (s : State) (kind : KeyKind) (owner slot : Nat) : Bool :=
  ((s.keyOf kind owner).map (fun k => s.fragmentsHold slot k.2)).getD false

/-- R127: a PON key is installed for its channels. -/
def State.keysBack (s : State) (k : VKey) : State := (s.chansOfKey k).foldl (fun s c => s.setFlag .pchStatKeyZero c false) s

/-- A kind of key as key records number it, with its slot; SAKs and look-aside keys are not mirrored (R453). -/
def KeyKind.mirrored : KeyKind → Option (Nat × Nat)
  | .msk => some (0, 0)
  | .kek => some (1, 0)
  | .omciIk => some (2, 0)
  | .ploamIk => some (3, 0)
  | .unicast n => some (4, n)
  | .broadcast n => some (5, n)
  | .sak | .job => none

/-- R410, R430, R453: the owner sends the peer a key of a protected tree, wrapped by KW under the pair key. -/
def State.tellKey (s : State) (k : VKey) (switch : Option Nat) : State :=
  match k.kind.mirrored, s.tandem.pairKey with
  | some (kind, slot), some pair =>
    if s.mirrors (s.treeOfKey k) then s.sendRecord 0x13 (.key kind k.owner slot (Config.standard 17 [pair, k.bits, k.value]) switch) else s
  | _, _ => s

/-- Every key of a tree, with the switches announced; the broadcast slot in force with the count of the frame in force. -/
def State.tellKeys (s : State) (t : Nat) : State :=
  let b := Tbl.getD s.cipher.bcast t (0, none)
  s.vault.foldl (fun s p =>
    let switch := match p.2.kind with
      | .unicast n => ((s.onu p.2.owner).bind (fun x => x.keySwitch)).bind (fun w => if w.2 = n then some w.1 else none)
      | .broadcast n => if b.1 = n then some (s.treeCount t) else b.2.bind (fun w => if w.2 = n then some w.1 else none)
      | _ => none
    if p.2.kind.mirrored.isSome ∧ s.treeOfKey p.2 = t then s.tellKey p.2 switch else s) s

/-- Keys take their place in vault and clusters, replacing those of the same kind and owner but look-aside keys and SAKs. -/
def State.installKeys (s : State) (ks : Tbl VKey) : State :=
  let clash := fun (k : VKey) => k.kind ≠ .job && k.kind ≠ .sak && ks.any (fun n => decide (n.2.kind = k.kind ∧ n.2.owner = k.owner))
  let s := { s with vault := ks.foldl (fun (t : Tbl VKey) (k : Nat × VKey) => t.put k.1 k.2) (s.vault.filter (fun p => !clash p.2)) }
  let s := s.modCipher (fun c => { c with
    erased := ks.foldl (fun (t : Tbl Unit) (k : Nat × VKey) => t.del k.1) c.erased
    kekErased := ks.foldl (fun (t : Tbl Unit) (k : Nat × VKey) => if k.2.kind = .kek then t.del k.2.owner else t) c.kekErased })
  ks.foldl (fun s k =>
    let s := s.tellKey k.2 none
    match k.2.kind with
    | .unicast _ | .broadcast _ => s.keysBack k.2
    | _ => s) s

/-- R418: the oldest delivery of a half has reached every cluster: the keys are installed and the command replies. -/
def execKeyDelivered (half : BitVec 1) (s : State) : Host.Outcome State Fault Refusal :=
  match s.cipher.deliveries.find? (fun d => d.half = half.toNat) with
  | none => .next s
  | some d =>
    let s := s.modCipher (fun c => { c with deliveries := c.deliveries.filter (fun e => decide (e ≠ d)) })
    .next ((s.installKeys d.keys).answer d.caller .ok d.words)

/-! ### Roles (R431, R565) -/

/-- A signature by a public key over a number verifies (R559). -/
def verifies (pub : List Word) (msg : Nat) (sig : List Word) : Bool := Config.standard 4 [wordsNat pub, msg, wordsNat sig] = 1

/-- SHA-384 of a public key, as the fused owner hash holds it (R565, R572). -/
def State.ownerHash (s : State) : Nat := wordsNat ((List.range 12).map (fun i => s.reg .secOwnerHash i))
def hashOf (pub : List Word) : Nat := Config.standard 10 [wordsNat pub] % 2 ^ 384

/-- R431: KEY.AUTH: phase 0 asks for a nonce; phase 1 carries the owner's public key and its signature over the nonce. -/
def execKeyAuth (h : Hdr) (phase : Word) (sig : List Word) (s : State) : Host.Outcome State Fault Refusal :=
  .next (command h 0x0B00 .package (fun _ s =>
    s.keyGate 0x0B00 (
      if 1 < phase.toNat ∨ (phase = 0 ∧ sig ≠ []) ∨ (phase = 1 ∧ sig.length ≠ 49) then .fail s .badParam
      else if s.lifecycle ≠ 2 then .fail s .unauthorized
      else if phase = 0 then
        let n := s.free % 2 ^ 384
        .ok (s.drawn.modCipher (fun c => { c with nonces := c.nonces.put (pathCode h.path) n })) (natWords 12 n)
      else match s.cipher.nonces.find (pathCode h.path) with
        | none => .fail s .unauthorized
        | some n =>
          let pub := sig.take 25
          if hashOf pub = s.ownerHash ∧ verifies pub n (sig.drop 25) then
            .ok (s.modCipher (fun c => { c with nonces := c.nonces.del (pathCode h.path), roles := c.roles.put (pathCode h.path) () }))
          else .fail s .unauthorized)) s)

/-- R417, R431: KEY.LOGOUT; the KLK it erases is the vaults' (R41). -/
def execKeyLogout (h : Hdr) (s : State) : Host.Outcome State Fault Refusal :=
  .next (command h 0x0B01 .package (fun _ s => s.keyGate 0x0B01 (
    s.unlessClaimed (if s.cipher.klks.has (pathCode h.path) then [(0, .kv), (1, .kv)] else []) (.ok (s.losePath (pathCode h.path))))) s)

/-- R417: KEY.KLK_AGREE: the device's ephemeral key is drawn, the ECDH secret gives the path's KLK, and the reply is the
device's public key signed by the identity key. -/
def execKeyKlkAgree (h : Hdr) (pub : List Word) (s : State) : Host.Outcome State Fault Refusal :=
  .next (command h 0x0B02 .package (fun _ s =>
    s.keyGate 0x0B02 (
      if pub.length ≠ 25 then .fail s .badParam
      else s.unlessClaimed [(0, .kv), (1, .kv)] (s.creates (
        match s.cipher.identity with
        | none => .fail s .zeroized
        | some id =>
          let d := s.free
          let own := Config.standard 9 [d]
          let klk := Config.standard 2 [Config.standard 5 [d, wordsNat pub]] % 2 ^ 256
          let s := s.drawn.modCipher (fun c => { c with klks := c.klks.put (pathCode h.path) klk, klkErased := c.klkErased.del (pathCode h.path) })
          .ok s (natWords 25 own ++ natWords 24 (Config.standard 6 [id, own])))))) s)

/-! ### KEY.LOAD and KEY.ERASE (R416-R420) -/

/-- The block of the clusters of a line or uplink die. -/
def clusterBlk (die : Nat) : Nat × Blk := (die, if die < 6 then .cph else .msc)

/-- What KEY.LOAD names: kinds 0 MSK of an ONU, 1 SAK of an uplink port, 2 a look-aside key of a half. Half, die of the
clusters that use it, and the key's kind; none for a target out of range. -/
def State.loadTarget (s : State) (kind target : Nat) : Option (Nat × Nat × KeyKind) :=
  match kind with
  | 0 => (s.onu target).map (fun x => (halfOfTree x.tree, dieOfTree x.tree, .msk))
  | 1 => if target < 64 ∧ s.portOf target = target then some (halfOfLane target, dieOfLane target, .sak) else none
  | 2 => if target < 2 then some (target, 6 + target, .job) else none
  | _ => none

/-- The unwrapped key of RFC 3394, or none where its integrity check fails; the clear form as it stands. -/
def unwrap (klk : Option Nat) (clear : Bool) (ws : List Word) : Option Nat :=
  if clear then some (wordsNat ws)
  else match klk with
    | none => none
    | some k =>
      let v := Config.standard 3 [k, ws.length, wordsNat ws]
      if v = 0 then none else some ((v - 1) % 2 ^ (32 * (ws.length - 2)))

/-- R419: the keys an MSK gives: itself, KEK, OMCI and PLOAM integrity keys by the KDF of G.9804.2. -/
def mskKeys (o die v bits : Nat) : List VKey :=
  [⟨.msk, o, die, v, bits, 0, true⟩, ⟨.kek, o, die, Config.standard 2 [v, 1] % 2 ^ 128, 128, 0, true⟩,
    ⟨.omciIk, o, die, Config.standard 2 [v, 2] % 2 ^ 128, 128, 0, true⟩, ⟨.ploamIk, o, die, Config.standard 2 [v, 3] % 2 ^ 128, 128, 0, true⟩]

/-- A delivery starts, and the reply waits for it (R418). -/
def State.deliverKeys (s : State) (caller : Caller) (half : Nat) (ks : Tbl VKey) (ws : List Word) : Res :=
  ⟨s.modCipher (fun c => { c with deliveries := c.deliveries ++ [⟨caller, half, ks, ws⟩] }), .ok, [], true⟩

/-- R416-R419, R432: KEY.LOAD. -/
def execKeyLoad (h : Hdr) (kind target : Word) (key : List Word) (clear : Word) (s : State) : Host.Outcome State Fault Refusal :=
  let rule : DieRule := match s.loadTarget kind.toNat target.toNat with
    | some (half, die, _) => if kind = 2 then .owner half else .owner die
    | none => .oneOf (List.range 16)
  .next (command h 0x0B03 rule (fun caller s =>
    let n := if clear = 1 then key.length else key.length - 2
    s.keyGate 0x0B03 (
      match s.loadTarget kind.toNat target.toNat with
      | none => .fail s .badParam
      | some (half, die, k) =>
        if !flagOk clear ∨ ¬(n = 4 ∨ n = 8) ∨ (clear ≠ 1 ∧ key.length < 2) then .fail s .badParam
        else s.unlessClaimed [(half, .kv), clusterBlk die] (s.officerOnly h (s.creates (
          if clear = 1 ∧ s.flag .secCfgStrict 0 then .fail s .notApprovedMode
          else if clear ≠ 1 ∧ s.cipher.klkErased.has (pathCode h.path) then .fail s .zeroized
          else if s.clusterOut die then .fail s .zeroized
          else match unwrap (s.cipher.klks.find (pathCode h.path)) (clear = 1) key with
            | none => .fail (s.report .kvUnwrapBad half .kvUnwrapBad half 0) .badParam
            | some v =>
              let ks := if k = .msk then mskKeys target.toNat die v (32 * n) else [⟨k, target.toNat, die, v, 32 * n, 0, true⟩]
              if !s.vaultRoom half ks.length (decide (k = .job)) then .fail s .noRoom
              else
                let s := if clear = 1 then s.notApproved else s
                let hs := s.freeHandles half ks.length
                s.deliverKeys caller half (hs.zip ks) ((hs.take 1).map (BitVec.ofNat 32))))))) s)

/-- A transmit SA in force protects under a handle: its AN is the port's (R415, R420). -/
def State.sakInForce (s : State) (handle : Nat) : Bool :=
  s.secys.any (fun p => match p.2.tx.find (s.fld .mscPortCfgTxAn p.1) with
    | some x => x.handle = handle
    | none => false)


/-- R125, R420: a key is in force: a PON key in the slot its holder uses, or an announced one, or one that fragments still to be sent
hold; derived keys; a SAK under the AN in force; a look-aside key with a job pending. -/
def State.inForce (s : State) (handle : Nat) (k : VKey) : Bool :=
  match k.kind with
  | .unicast n => ((s.onu k.owner).map (fun x => decide (x.keySlot = n) || decide (x.keySwitch.map Prod.snd = some n))).getD false
    || s.fragmentsHold n k
  | .broadcast n =>
    let b := Tbl.getD s.cipher.bcast k.owner (0, none)
    decide (b.1 = n) || decide (b.2.map Prod.snd = some n) || s.fragmentsHold n k
  | .kek | .omciIk | .ploamIk => (s.onu k.owner).isSome
  | .sak => s.sakInForce handle
  | .job => s.cipher.jobs.any (fun j => j.handle = handle) || s.laosh.inbandKey = some handle
  | .msk => false

/-- A SAK leaves the clusters: the SAs under it go. -/
def SecY.without (y : SecY) (gone : Nat → Bool) : SecY :=
  { y with tx := y.tx.filter (fun p => !gone p.2.handle), rx := y.rx.filter (fun p => !gone p.2.handle) }

/-- R420: KEY.ERASE of a key not in force. -/
def execKeyErase (h : Hdr) (handle : Word) (s : State) : Host.Outcome State Fault Refusal :=
  let n := handle.toNat
  .next (command h 0x0B04 (.owner (halfOfHandle n)) (fun _ s =>
    s.keyGate 0x0B04 (
      match s.vault.find n with
      | none => if s.cipher.erased.has n then s.officerOnly h (.fail s .zeroized) else .fail s .badParam
      | some k => s.unlessClaimed [(halfOfHandle n, .kv), clusterBlk k.die] (s.officerOnly h (
          if !k.inVault then .fail s .zeroized
          else if s.inForce n k then .fail s .busy
          else
            let s := { s with vault := s.vault.del n }
            .ok { s with secys := s.secys.map (fun p => (p.1, p.2.without (fun x => x = n))) })))) s)

/-! ### Broadcast keys (R419) -/

def State.bcastOf (s : State) (t : Nat) : Nat × Option (Nat × Nat) := Tbl.getD s.cipher.bcast t (0, none)

/-- The broadcast slot that is free: neither in force nor announced. -/
def State.bcastFree (s : State) (t : Nat) : Option Nat :=
  let b := s.bcastOf t
  if b.2.isSome then none else some (if b.1 = 1 then 2 else 1)

/-- R125, R419: KEY.BCAST_NEW: a key from the DRBG into the tree's free slot, which is not free while fragments hold its old key; the reply is its handle and the key encrypted for
each ONU named. -/
def execKeyBcastNew (h : Hdr) (tree : Word) (onus : List Word) (s : State) : Host.Outcome State Fault Refusal :=
  .next (command h 0x0B05 (.owner (dieOfTree (tree.toNat % 32))) (fun caller s =>
    let t := tree.toNat
    let half := halfOfTree (t % 32)
    s.keyGate 0x0B05 (
      if 31 < t ∨ 64 < onus.length ∨ onus.any (fun o => ((s.onu o.toNat).map (fun x => x.tree)) ≠ some t) then .fail s .badParam
      else s.unlessClaimed [(half, .kv), clusterBlk (dieOfTree t)] (s.officerOnly h (s.creates (
        if onus.any (fun o => s.cipher.kekErased.has o.toNat) ∨ s.clusterOut (dieOfTree t) then .fail s .zeroized
        else match s.bcastFree t with
          | none => .fail s .busy
          | some slot =>
            if s.slotHeld (.broadcast slot) t slot then .fail s .busy
            else if !s.vaultRoom half 1 false then .fail s .noRoom
            else
              let v := s.free % 2 ^ 128
              let hs := s.freeHandles half 1
              let ws := hs.map (BitVec.ofNat 32) ++ onus.flatMap (fun o => natWords 4 (Config.standard 8 [s.kekOf o.toNat, v] % 2 ^ 128))
              s.drawn.deliverKeys caller half (hs.zip [⟨.broadcast slot, t, dieOfTree t, v, 128, 0, true⟩]) ws))))) s)

/-- R419: KEY.BCAST_SWITCH: the count at which the new slot comes into force, at least 64 frames ahead. -/
def execKeyBcastSwitch (h : Hdr) (tree cHi cLo : Word) (s : State) : Host.Outcome State Fault Refusal :=
  .next (command h 0x0B06 (.owner (dieOfTree (tree.toNat % 32))) (fun _ s =>
    let t := tree.toNat
    let half := halfOfTree (t % 32)
    let n := cHi.toNat * 2 ^ 32 + cLo.toNat
    s.keyGate 0x0B06 (
      if 31 < t ∨ 2 ^ 51 ≤ n ∨ (s.launched t ∧ s.framesTo t n < 64) then .fail s .badParam
      else s.unlessClaimed [(half, .kv)] (s.officerOnly h (
        if !s.launched t then .fail s .notReady
        else match s.bcastFree t with
          | none => .fail s .busy
          | some slot =>
            match s.keyOf (.broadcast slot) t with
            | none => .fail s (if s.flag .pchStatKeyZero (4 * t) then .zeroized else .badParam)
            | some k => .ok ((s.modCipher (fun c => { c with bcast := c.bcast.put t ((s.bcastOf t).1, some (n, slot)) })).tellKey k.2 (some n)))))) s)

/-! ### MACsec SAs (R413-R415, R420) -/

/-- The receive SAs of an uplink die, and the secure channels of a port. -/
def State.rxSas (s : State) (die : Nat) : Nat :=
  (s.secys.map (fun p => if dieOfLane p.1 = die then p.2.rx.length else 0)).sum

def SecY.channels (y : SecY) : List Nat := (y.rx.map (fun p => p.1 / 4)).eraseDups

/-- R413, R420: KEY.MSC_SA_SET. An SA turns the SecY on, and a transmit SA under the AN in force protects from then on (log
entry 72). -/
def execKeyMscSaSet (h : Hdr) (w : SaWords) (s : State) : Host.Outcome State Fault Refusal :=
  .next (command h 0x0B07 (.owner (dieOfLane (w.port.toNat % 64))) (fun _ s =>
    let p := w.port.toNat
    let die := dieOfLane (p % 64)
    let an := w.an.toNat
    let sci := w.sciHi.toNat * 2 ^ 32 + w.sciLo.toNat
    let pn := w.pnHi.toNat * 2 ^ 32 + w.pnLo.toNat
    s.keyGate 0x0B07 (
      if 63 < p ∨ s.portOf p ≠ p ∨ 1 < w.dir.toNat ∨ 3 < an ∨ 3 < w.suite.toNat ∨ 2 < w.offset.toNat ∨ !flagOk w.validate ∨ pn = 0
          ∨ (w.suite.toNat < 2 ∧ 2 ^ 32 ≤ pn) then .fail s .badParam
      else match s.vault.find w.handle.toNat with
        | none => if s.cipher.erased.has w.handle.toNat then s.officerOnly h (.fail s .zeroized) else .fail s .badParam
        | some k =>
          if k.kind ≠ .sak ∨ k.owner ≠ p ∨ k.bits ≠ (if w.suite.toNat % 2 = 0 then 128 else 256) then .fail s .badParam
          else s.unlessClaimed [(die, .msc)] (s.officerOnly h (
            let y := s.secy p
            let x : MscSa := ⟨w.suite.toNat, w.handle.toNat, pn, w.salt.toNat, w.ssci.toNat, w.window.toNat, false, sci⟩
            let cfg := fun (s : State) =>
              ((s.setFld .mscPortCfgOffset p w.offset.toNat).setFld .mscPortCfgStrict p w.validate.toNat).setFlag .mscPortCfgEn p true
            let inUse := s.fld .mscPortCfgTxAn p
            if !k.inVault then .fail s .zeroized
            else if w.dir = 0 then
              if an = inUse ∧ y.tx.has an then .fail s .busy
              else
                let s := cfg (s.setSecy p { y with tx := y.tx.put an x, txZero := y.txZero && decide (an ≠ inUse) })
                .ok (if an = inUse then s.setFlag .mscPortCfgProtect p true else s)
            else
              let key := sci * 4 + an
              if !y.rx.has key ∧ 2048 ≤ s.rxSas die ∨ (!y.channels.contains sci ∧ 64 ≤ y.channels.length) then .fail s .noRoom
              else .ok (cfg (s.setSecy p { y with rx := y.rx.put key x })))))) s)

/-- R415: KEY.MSC_TX_SWITCH. -/
def execKeyMscTxSwitch (h : Hdr) (port an : Word) (s : State) : Host.Outcome State Fault Refusal :=
  .next (command h 0x0B08 (.owner (dieOfLane (port.toNat % 64))) (fun _ s =>
    let p := port.toNat
    s.keyGate 0x0B08 (
      if 63 < p ∨ s.portOf p ≠ p ∨ 3 < an.toNat ∨ !(s.secy p).tx.has an.toNat then .fail s .badParam
      else s.unlessClaimed [(dieOfLane p, .msc)] (s.officerOnly h (
        let s := s.setSecy p { s.secy p with txZero := false }
        .ok ((s.setFld .mscPortCfgTxAn p an.toNat).setFlag .mscPortCfgProtect p true))))) s)

/-- R434: a port's SAs, next packet numbers and counters (log entry 8). -/
def execKeyMscStatus (h : Hdr) (port : Word) (s : State) : Host.Outcome State Fault Refusal :=
  .next (command h 0x0B09 (.owner (dieOfLane (port.toNat % 64))) (fun _ s =>
    let p := port.toNat
    s.keyGate 0x0B09 (
      if 63 < p ∨ s.portOf p ≠ p then .fail s .badParam
      else
        let y := s.secy p
        .ok s (s.reg .mscPortCfg p
          :: listWords (y.tx.flatMap (fun x => [BitVec.ofNat 32 x.1, BitVec.ofNat 32 x.2.handle] ++ wordsOf 64 x.2.pn))
          ++ listWords (y.rx.flatMap (fun x => wordsOf 64 (x.1 / 4) ++ [BitVec.ofNat 32 (x.1 % 4), BitVec.ofNat 32 x.2.handle] ++ wordsOf 64 x.2.pn))
          ++ [Ctr.mscNoSa, .mscUntagged, .mscReplay, .mscIcvBad, .mscPnExhaust, .mscTxZero].flatMap (fun c => ctrWords (s.ctr c p))))) s)

/-! ### Look-aside jobs (R421, R422) -/

def modeCtr : Nat := 0
def modeCbc : Nat := 1
def modeCmac : Nat := 4
def modeGcm : Nat := 5
def modeKw : Nat := 6

/-- Words of a mode's IV: 96 bits for GCM, none for CMAC and KW, 128 bits for the others. -/
def ivWords (mode : Nat) : Nat := if mode = modeGcm then 3 else if mode = modeCmac ∨ mode = modeKw then 0 else 4

/-- Bytes of a job's output. -/
def Job.outLen (j : Job) : Nat :=
  if j.mode = modeCmac then 0 else if j.mode = modeKw then (if j.back then j.inLen - 8 else j.inLen + 8) else j.inLen

def jobOf (w : JobWords) (caller : Caller) : Job :=
  ⟨caller, w.half.toNat, w.mode.toNat, w.dir = 1, w.handle.toNat, w.bank.toNat, w.inOff.toNat, w.inLen.toNat, w.outOff.toNat, w.aadOff.toNat,
    w.aadLen.toNat, w.iv, w.tag⟩

/-- R421: the limits on a job's ranges, IV and tag. -/
def Job.ok (j : Job) : Bool :=
  let bytes := bankWords j.half j.bank * 4
  j.half < 2 && j.mode < 7 && j.bank < 64 && j.inLen ≤ 65536 && j.aadLen ≤ 4096 && j.inOff + j.inLen ≤ bytes && j.outOff + j.outLen ≤ bytes
    && j.aadOff + j.aadLen ≤ bytes && (j.mode ≠ modeCbc || j.inLen % 16 = 0)
    && (j.mode ≠ modeKw || (j.inLen % 8 = 0 && 16 ≤ j.inLen && (!j.back || 24 ≤ j.inLen)))
    && (if j.back then j.iv.length = ivWords j.mode && j.tag.length = (if j.mode = modeGcm ∨ j.mode = modeCmac then 4 else 0)
        else j.iv.isEmpty && j.tag.isEmpty)

/-- R421: KEY.JOB. A mode that counts invocations takes the key's count now; a count that would wrap refuses. -/
def execKeyJob (h : Hdr) (w : JobWords) (s : State) : Host.Outcome State Fault Refusal :=
  .next (command h 0x0B0A (.owner (w.half.toNat % 2)) (fun caller s =>
    let j := jobOf w caller
    s.keyGate 0x0B0A (
      if 1 < w.dir.toNat ∨ !j.ok then .fail s .badParam
      else match s.vault.find j.handle with
        | none => .fail s (if s.cipher.erased.has j.handle then .zeroized else .badParam)
        | some k =>
          if k.kind ≠ .job ∨ k.owner ≠ j.half then .fail s .badParam
          else s.unlessClaimed [(j.half, .kv)] (
            if j.mode = modeKw ∧ !s.isOfficer h.path then .fail s .unauthorized
            else if !s.bankOn j.half j.bank then .fail s .busy
            else if s.bankOwner j.half j.bank ≠ 4 then ⟨s.nonOwner j.half, .notOwner, [], false⟩
            else if 16 ≤ (s.cipher.jobs.filter (fun x => x.half = j.half)).length ∨ s.asyncFull then .fail s .busy
            else if s.clusterOut (6 + j.half) ∨ !k.inVault then .fail s .zeroized
            else if !j.back ∧ (j.mode = modeGcm ∨ j.mode = modeCtr)
                ∧ 2 ^ 64 ≤ k.count + (s.cipher.jobs.filter (fun x => x.handle = j.handle)).length + 1 then .fail s .noRoom
            else .accepted ((s.settleBank j.half j.bank).modCipher (fun c => { c with jobs := c.jobs ++ [j] }))))) s)

/-- R422: the IV of an encryption, and the state with the count or the DRBG moved on. -/
def State.jobIv (s : State) (j : Job) (k : VKey) : Nat × State :=
  if j.back then (wordsNat j.iv, s)
  else if j.mode = modeGcm then
    (s.fld .sysDevnumDevnum 0 * 2 ^ 86 + j.half * 2 ^ 85 + k.count, { s with vault := s.vault.put j.handle { k with count := k.count + 1 } })
  else if j.mode = modeCtr then (k.count * 2 ^ 64, { s with vault := s.vault.put j.handle { k with count := k.count + 1 } })
  else if ivWords j.mode = 4 then (s.free % 2 ^ 128, s.drawn)
  else (0, s)

/-- A job leaves the queue. -/
def State.dropJob (s : State) (j : Job) : State := s.modCipher (fun c => { c with jobs := c.jobs.filter (fun x => decide (x ≠ j)) })

/-- R408: the modes whose items are not split. -/
def Job.chained (j : Job) : Bool := j.mode = modeCbc || j.mode = modeCmac

/-- R421, R422: the oldest job of a half completes: the output in its range, and in the reply IV, tag and verdict
(R434) with the output behind them (R546). A failed verification leaves the range zeroed, the verdict 0, counted. -/
def execJobDone (half : BitVec 1) (s : State) : Host.Outcome State Fault Refusal :=
  match s.cipher.jobs.find? (fun j => j.half = half.toNat) with
  | none => .next s
  | some j =>
    match s.vault.find j.handle with
    | none => .next s
    | some k =>
      let s := s.dropJob j
      let (iv, s) := s.jobIv j k
      let s := s.cipherItem (6 + j.half) 0 jobEgress (j.inLen + j.aadLen) j.chained
      let s := (s.noteBytes j.half j.bank j.inOff j.inLen).noteBytes j.half j.bank j.aadOff j.aadLen
      let data := s.padBytes j.half j.bank j.inOff j.inLen
      let aad := s.padBytes j.half j.bank j.aadOff j.aadLen
      let inputs := [j.mode, j.back.toNat, k.bits, k.value, iv, j.inLen, j.aadLen] ++ data ++ aad
      let tag := if j.mode = modeGcm ∨ j.mode = modeCmac then Config.standard 21 inputs % 2 ^ 128 else 0
      let pass := if !j.back then true
        else if j.mode = modeGcm ∨ j.mode = modeCmac then decide (tag = wordsNat j.tag)
        else if j.mode = modeKw then Config.standard 22 inputs = 1 else true
      let out := (List.range j.outLen).map (fun i => if pass then Config.standard 20 (i :: inputs) % 256 else 0)
      let s := s.writeBytes j.half j.bank j.outOff out
      let s := if pass then s else s.count .mscJobAuthFail (6 + j.half)
      let tagOut := if j.back ∨ ¬(j.mode = modeGcm ∨ j.mode = modeCmac) then [] else natWords 4 tag
      let packed := (List.range (ceilDiv j.outLen 4)).map (fun i => BitVec.ofNat 32 ((List.range 4).foldl (fun a b => a * 256 + out.getD (4 * i + b) 0) 0))
      .next (s.answer j.caller .ok (natWords (ivWords j.mode) iv ++ tagOut ++ [BitVec.ofNat 32 pass.toNat] ++ packed))

/-! ### Zeroization (R424-R427) -/

/-- What is erased: a cluster of a die, a die, the package. -/
inductive ZScope where
  | cluster (die k : Nat)
  | die (d : Nat)
  | package
deriving DecidableEq, Repr

/-- Keys of the PON clusters: data and integrity keys, and the key-encryption key under which the decrypt cluster unwraps an ONU's key
(R213). -/
def KeyKind.isPon : KeyKind → Bool
  | .unicast _ | .broadcast _ | .omciIk | .ploamIk | .kek => true
  | .msk | .sak | .job => false

/-- The clusters of a scope hold a key: PON keys in either cluster of their line die, SAKs in either of their uplink die,
look-aside keys in the egress cluster. -/
def ZScope.holds (z : ZScope) (k : VKey) : Bool :=
  match z with
  | .package => true
  | .die d => k.die = d && (k.kind.isPon || decide (k.kind = .sak ∨ k.kind = .job))
  | .cluster d c => k.die = d && (k.kind.isPon || decide (k.kind = .sak) || (decide (k.kind = .job) && c = 0))

/-- The vaults of a scope (R425): a core die's own, or both. -/
def ZScope.vaultOf (z : ZScope) (half : Nat) : Bool :=
  match z with
  | .package => true
  | .die d => d = half
  | .cluster _ _ => false

/-- What becomes of a key: gone, or left only in the clusters where the vault alone is erased. -/
def ZScope.after (z : ZScope) (h : Nat) (k : VKey) : Option VKey :=
  if z.holds k then none
  else if z.vaultOf (halfOfHandle h) then
    (if k.kind.isPon ∨ k.kind = .sak ∨ k.kind = .job then some { k with inVault := false } else none)
  else some k

def ZScope.coversDie (z : ZScope) (d : Nat) : Bool :=
  match z with
  | .package => true
  | .die e | .cluster e _ => e = d

/-- The SecYs lose the SAs whose keys are gone; a port that loses its transmit SAs is marked (R426). -/
def State.zeroSecys (s : State) (gone : Nat → Bool) : State :=
  { s with secys := s.secys.map (fun (p : Nat × SecY) =>
      let y := p.2.without gone
      (p.1, { y with txZero := p.2.txZero || p.2.tx.any (fun x => gone x.2.handle) })) }

/-- An announced switch to a key that is gone, and a key exchange whose delivery has not finished, yield (R127, R427). -/
def State.zeroOnus (s : State) (z : ZScope) : State :=
  (s.pon.onus.filter (fun p => z.coversDie (dieOfTree p.2.tree) && (p.2.keySwitch.isSome || p.2.rekey.isSome))).foldl (fun (s : State) (p : Nat × OnuSlot) =>
    let s := match p.2.rekey with
      | some c => s.answer c .zeroized []
      | none => s
    s.modOnu p.1 (fun x => { x with keySwitch := none, rekey := none })) s

/-- Pending jobs whose key is gone complete ZEROIZED with their output ranges zeroed (R426). -/
def State.zeroJobs (s : State) (gone : Nat → Bool) : State :=
  (s.cipher.jobs.filter (fun j => gone j.handle)).foldl (fun s j =>
    ((s.dropJob j).writeBytes j.half j.bank j.outOff (List.replicate j.outLen 0)).answer j.caller .zeroized []) s

/-- Deliveries of a scope install nothing and reply ZEROIZED (R427). -/
def State.zeroDeliveries (s : State) (z : ZScope) : State :=
  let hit := fun (d : Delivery) => z.vaultOf d.half || d.keys.any (fun k => z.holds k.2 || z.coversDie k.2.die)
  (s.cipher.deliveries.filter hit).foldl (fun s d => s.answer d.caller .zeroized [])
    (s.modCipher (fun c => { c with deliveries := c.deliveries.filter (fun d => !hit d) }))

/-- Broadcast switches to keys that are gone are forgotten. -/
def State.zeroBcast (s : State) (z : ZScope) : State :=
  s.modCipher (fun c => { c with bcast := c.bcast.map (fun (p : Nat × Nat × Option (Nat × Nat)) => if z.coversDie (dieOfTree p.1) then (p.1, (p.2.1, none)) else p) })

/-- R126: an SDU for an encrypted port whose key slot is empty. -/
def State.keyAbsent (s : State) (c : Nat) : State := (s.count .pchKeyAbsent c).raiseOnceIn (s.chan c).count .pchKeyAbsent (dieOfChan c) c c

/-- The rest of an SDU whose key is erased is discarded too. -/
def State.dropKeyed (s : State) (c : Nat) : State :=
  let x := s.chan c
  let keyed := fun (u : TcSdu) => (u.key.map (fun k => k.1 != 0)).getD false
  (x.tc.filter keyed).foldl (fun s _ => s.keyAbsent c) (s.setChan c { x with tc := x.tc.filter (fun u => !keyed u) })

/-- R127: the channels of a line die have lost their keys. -/
def State.keysLost (s : State) (z : ZScope) : State :=
  (List.range 128).foldl (fun s c => if z.coversDie (dieOfChan c) then (s.setFlag .pchStatKeyZero c true).dropKeyed c else s) s

/-- Erases every key of a scope, with what follows for those who used them. -/
def State.eraseScope (s : State) (z : ZScope) : State :=
  let gone := fun h => match s.vault.find h with
    | some k => (z.after h k).isNone
    | none => false
  let lost := s.vault.filter (fun p => gone p.1)
  let keks := lost.filter (fun p => decide (p.2.kind = .kek))
  let whole := z = .package
  let core := match z with | .package => true | .die d => decide (d < 2) | .cluster _ _ => false
  let s := { s with vault := s.vault.filterMap (fun (p : Nat × VKey) => (z.after p.1 p.2).map (fun k => (p.1, k))) }
  let s := s.modCipher (fun c => { c with
    erased := lost.foldl (fun (t : Tbl Unit) (p : Nat × VKey) => t.put p.1 ()) c.erased
    kekErased := keks.foldl (fun (t : Tbl Unit) (p : Nat × VKey) => t.put p.2.owner ()) c.kekErased
    klkErased := if core then c.klks.foldl (fun (t : Tbl Unit) (p : Nat × Nat) => t.put p.1 ()) c.klkErased else c.klkErased
    klks := if core then [] else c.klks
    identity := if whole then none else c.identity })
  let s := if whole then s.setPaired none else s
  ((((((s.zeroSecys gone).zeroJobs gone).zeroDeliveries z).zeroOnus z).zeroBcast z).keysLost z)

/-- R452: ownership is given up: OPT_TXEN of the protected trees goes low, and HLT_OWN_N is released 100 ns later
(HALTER_RELEASE_PIN). The device no longer seeks. -/
def State.giveUpHalter (s : State) : State :=
  let s := (List.range 128).foldl (fun s c => if s.protected (treeOfChan c) ∧ s.pin .optTxen c = 1 then s.darken c else s) s
  let s := { s with tandem := { s.tandem with haltAt := s.elapsed, lightAt := [] } }
  s.setFld .tndPairStatHalter 0 0

/-- A cause of R457 arose on the protected channels of a scope. -/
def State.selfCause (s : State) (z : ZScope) : State :=
  let hit := (List.range 128).filter (fun c => z.coversDie (dieOfChan c) && s.protected (treeOfChan c))
  { s with tandem := { s.tandem with chans := hit.foldl (fun t c =>
      Tbl.put t c { Tbl.getD t c TndChan.empty with cause := true }) s.tandem.chans } }

/-- R425: a zeroization: keys, SEC_STAT, its count and event. -/
def State.zeroize (s : State) (z : ZScope) : State :=
  let s := s.eraseScope z
  let s := s.selfCause z
  let s := match z with
    | .package =>
      let s := s.giveUpHalter.latchFlag .secStatZpkg 0
      { s with trust := { s.trust with packageZero := true } }
    | .die d | .cluster d _ => s.latchBits .secStat 0 (BitVec.ofNat 32 (2 ^ (4 + d)))
  let die := match z with | .package => 15 | .die d | .cluster d _ => d
  s.report .secZeroize 0 .secZeroize die 0

/-- The rows of R424, by their bit in SEC_ALARM. -/
def alarmBit : Nat → Nat := fun k => 2 ^ k

/-- R424: an alarm of a die of the part (R1), unless its source is masked: its cause, its count and event, and the zeroization of its scope. -/
def State.alarm (s : State) (row die : Nat) (z : ZScope) : State :=
  if (s.fld .secCfgAlarmMask 0).testBit row ∨ s.dieFused die then s
  else
    let s := s.latchBits .secAlarm 0 (BitVec.ofNat 32 (alarmBit row))
    (s.report .secAlarm 0 .secAlarm die 0).zeroize z

/-- R566: the fused tamper count advances, to 32 at most. -/
def State.tamperCount (s : State) : State := s.setFld .secLifecycleTamper 0 (min 32 (s.fld .secLifecycleTamper 0 + 1))

/-- The tamper-class sources: package scope, and the tamper count (R566). -/
def State.tamperAlarm (s : State) (row die : Nat) : State :=
  if (s.fld .secCfgAlarmMask 0).testBit row ∨ s.dieFused die then s else (s.alarm row die .package).tamperCount

/-- R566: TAMPER_N low for 1 µs. -/
def execTamperInput (s : State) : Host.Outcome State Fault Refusal := .next ((s.drive .tamperN 0 0).tamperAlarm 8 15)

/-- R566: TAMPER_N returns high: the alarm no longer persists. -/
def execTamperNRelease (s : State) : Host.Outcome State Fault Refusal :=
  .next { s.drive .tamperN 0 1 with trust := { s.trust with tamperHigh := max 1 s.elapsed } }

def execShieldBreak (s : State) : Host.Outcome State Fault Refusal := .next (s.tamperAlarm 6 15)

def execLightDetect (die : BitVec 3) (s : State) : Host.Outcome State Fault Refusal := .next (s.tamperAlarm 7 die.toNat)

def execTemperatureAlarm (die : BitVec 3) (s : State) : Host.Outcome State Fault Refusal := .next (s.alarm 5 die.toNat .package)

def execVoltageGlitch (die : BitVec 3) (s : State) : Host.Outcome State Fault Refusal := .next (s.alarm 3 die.toNat (.die die.toNat))

def execClockGlitch (die : BitVec 3) (s : State) : Host.Outcome State Fault Refusal := .next (s.alarm 4 die.toNat (.die die.toNat))

/-- A core's cluster: CORESEL bit 6 (R438). Core dies have no clusters. -/
def coreScope (die core : Nat) : ZScope := .cluster die (core / 64)

def execDuplicateRoundMismatch (die : BitVec 3) (core : BitVec 7) (s : State) : Host.Outcome State Fault Refusal :=
  .next (if die.toNat < 2 then s else s.alarm 0 die.toNat (coreScope die.toNat core.toNat))

def execDrbgRepeat (die : BitVec 3) (core : BitVec 7) (s : State) : Host.Outcome State Fault Refusal :=
  .next (if die.toNat < 2 then s else s.alarm 1 die.toNat (coreScope die.toNat core.toNat))

/-- R424: every cluster of the die, and on a core die its vault. -/
def execEntropyHealthFail (die : BitVec 3) (s : State) : Host.Outcome State Fault Refusal := .next (s.alarm 2 die.toNat (.die die.toNat))

/-- KEY.ZEROIZE's scope codes: 0 a cluster, as CORESEL's cluster bit with the die above it; 1 a die; 2 the package (log entry
71). -/
def zScopeOf (scope object : Nat) : Option ZScope :=
  match scope with
  | 0 => if 2 ≤ object / 2 ∧ object / 2 < 8 then some (.cluster (object / 2) (object % 2)) else none
  | 1 => if object < 8 then some (.die object) else none
  | 2 => if object = 0 then some .package else none
  | _ => none

/-- The blocks whose keys a scope's erasure takes: the clusters' and, with them, the vault's copies (R41, R425). -/
def ZScope.blocks : ZScope → List (Nat × Blk)
  | .package => [(0, .kv), (1, .kv), (2, .cph), (3, .cph), (4, .cph), (5, .cph), (6, .msc), (7, .msc)]
  | .die d | .cluster d _ => if d < 2 then [(d, .kv)] else if d < 6 then [(d, .cph), ((d - 2) / 2, .kv)] else [(d, .msc), (d - 6, .kv)]

/-- R425, R434: KEY.ZEROIZE, open to every path. -/
def execKeyZeroize (h : Hdr) (scope object : Word) (s : State) : Host.Outcome State Fault Refusal :=
  let rule : DieRule := match zScopeOf scope.toNat object.toNat with
    | some (.cluster d _) | some (.die d) => .owner d
    | some .package => .package
    | none => .oneOf (List.range 16)
  .next (command h 0x0B0B rule (fun _ s =>
    s.keyGate 0x0B0B (match zScopeOf scope.toNat object.toNat with
      | none => .fail s .badParam
      | some z => s.unlessClaimed z.blocks (.ok (s.zeroize z)))) s)

/-! ### Self-tests and status (R428, R429, R434) -/

/-- R429: KEY.SELFTEST of the die the selector names. -/
def execKeySelftest (h : Hdr) (s : State) : Host.Outcome State Fault Refusal :=
  .next (command h 0x0B0C (.oneOf (List.range 8)) (fun caller s =>
    let d := h.die.toNat
    s.keyGate 0x0B0C (
      s.unlessClaimed (if d < 2 then [] else [clusterBlk d]) (
      if s.cipher.tests.any (fun t => t.1 = d) ∨ s.asyncFull then .fail s .busy
      else .accepted (s.modCipher (fun c => { c with tests := c.tests ++ [(d, caller)] }))))) s)

/-- The cores of a cluster that can serve. -/
def State.coresLeft (s : State) (die k : Nat) : Nat := ((List.range (clusterSize die)).filter (fun i => s.coreState die (k * 64 + i) < 2)).length

/-- R428: a cluster left with fewer cores than its active count is held out of service, its keys as after a zeroization
(R426). -/
def State.checkCluster (s : State) (die k : Nat) : State :=
  if clusterNeeds die ≤ s.coresLeft die k ∨ s.cipher.outOfService.contains (clusterKey die k) then s
  else
    let s := s.eraseScope (.cluster die k)
    let s := s.selfCause (.cluster die k)
    s.modCipher (fun c => { c with outOfService := c.outOfService ++ [clusterKey die k] })

/-- R428: what the tests of a die find: cores that fail are retired, an active one with a spare in its place (R617); a shared algorithm or the entropy source that fails puts
the device in the error state. -/
def State.testDie (s : State) (die : Nat) (failed : List Nat) (shared : Bool) : State :=
  let s := if die < 2 then s else
    let failed := failed.filter (fun c => c % 64 < clusterSize die)
    let wanted := failed.filter (fun c => s.coreState die c = 1)
    let s := wanted.foldl (fun s c => s.autoSpare 1 die c) (failed.foldl (fun s c => s.setCore die c 3) s)
    (s.checkCluster die 0).checkCluster die 1
  if shared then s.setFlag .secStatError 0 true else s

/-- R429: a commanded self-test finishes; the reply is whether the shared tests passed, then the cores that failed. -/
def execSelftestDone (die : BitVec 3) (failed : List (BitVec 7)) (shared : Bool) (s : State) : Host.Outcome State Fault Refusal :=
  let d := die.toNat
  match s.cipher.tests.find? (fun t => t.1 = d) with
  | none => .next s
  | some t =>
    let s := s.modCipher (fun c => { c with tests := c.tests.filter (fun x => x.1 != d) })
    let bad := failed.map BitVec.toNat
    .next ((s.testDie d bad shared).answer t.2 .ok (BitVec.ofNat 32 (!shared).toNat :: listWords (bad.map (BitVec.ofNat 32))))

/-- SEC_STAT as a path reads it: co follows its role (R435). -/
def State.secStatWord (s : State) (p : Nat) : Word := withField 2 1 (s.reg .secStat 0) (s.cipher.roles.has p).toNat

/-- R434: KEY.STATUS: SEC_STAT, SEC_ALARM, keys in each vault, the role of each path. -/
def execKeyStatus (h : Hdr) (s : State) : Host.Outcome State Fault Refusal :=
  .next (command h 0x0B0D .package (fun _ s =>
    let keys := fun half => BitVec.ofNat 32 (s.vault.filter (fun p => p.1 / 2 ^ 31 = half && p.2.inVault)).length
    s.keyGate 0x0B0D (.ok s ([s.secStatWord (pathCode h.path), s.reg .secAlarm 0, keys 0, keys 1]
      ++ [0, 1, 2].map (fun p => BitVec.ofNat 32 (s.cipher.roles.has p).toNat)))) s)

end Sys2Proof.Machine
end

