-- ==== Sys2Proof/Machine/Trust.lean ====
section
/-!
DEFINITION. Identity, attestation, lifecycle and darn images (R559-R572). SHA-384 and ECDSA are `Config.standard`'s (log
entry 2); the ROM digest, the certificates and the die ID are constants of the part (log entry 78).
-/

namespace Sys2Proof.Machine

def romDigest : Nat := Config.standard 11 [] % 2 ^ 384
def sha384 (l : List Nat) : Nat := Config.standard 10 l % 2 ^ 384
/-- The subject serial number of the certificate (R561). -/
def subjectSerial : Nat := Config.standard 14 []
/-- Salelaca's darn key in ROM (R568). -/
def darnKey : List Word := natWords 25 (Config.standard 15 [])

/-- BLOCK.STATUS of a die (R524): one word per claimed block, block in [21:16] and path in [1:0], by ascending block. -/
def State.blockStatus (s : State) (die : Nat) : List Word :=
  (s.win.claims.filter (fun p => p.1 / 64 = die)).map (fun p => BitVec.ofNat 32 (p.1 % 64 * 65536 + pathCode p.2))

/-- The error state refuses every TRUST command (R428). -/
def State.trustGate (s : State) (r : Res) : Res := if s.errorState then .fail s .zeroized else r

/-! ### Attestation (R569) -/

/-- The cfg field: SHA-384 over SEC_CFG, SEC_STAT, SEC_ALARM and each die's BLOCK.STATUS. -/
def State.cfgHash (s : State) (p : Nat) : Nat :=
  let blocks := [0, 1, 2, 3, 4, 5, 6, 7, 15].flatMap (fun d => listWords (s.blockStatus d))
  sha384 (([s.reg .secCfg 0, s.secStatWord p, s.reg .secAlarm 0] ++ blocks).map BitVec.toNat)

/-- The 288-byte body as 72 words. -/
def State.attestBody (s : State) (p : Nat) (nonce : List Word) : List Word :=
  let flags := s.fld .secStatApproved 0 + 2 * s.fld .secStatError 0 + 4 * s.trust.packageZero.toNat + 8 * s.fld .tbStatAligned 0
    + 16 * s.fld .secLifecycleCosign 0
  let n := fun (v : Nat) => BitVec.ofNat 32 v
  let sec := secOf s.now
  let ns := nsOf s.now
  let inuse := (List.range 16).map (fun k => if k < 9 then s.fld .rmdKindInuse k else 0)
  [n 0x41545354, n (1 * 65536 + 288), s.reg .sysId 0, n (s.fld .sysDevnumDevnum 0 * 65536 + s.lifecycle * 256 + flags)]
    ++ nonce ++ [n (sec / 65536), n (sec % 65536 * 65536 + ns / 65536), n (ns % 65536 * 65536)] ++ natWords 12 romDigest
    ++ [n (s.fld .sqDarnLevelLevel 0 * 65536 + s.fld .secLifecycleRb 0 * 256 + s.fld .secLifecycleTamper 0)]
    ++ natWords 12 ((s.trust.darn.map (fun d => d.digest)).getD 0)
    ++ (List.range 12).map (fun i => s.reg .secOwnerHash i)
    ++ natWords 12 (s.cfgHash p)
    ++ (List.range 4).map (fun w => n ((List.range 4).foldl (fun a b => a * 256 + inuse.getD (4 * w + b) 0) 0))

/-- R569: TRUST.ATTEST. -/
def execTrustAttest (h : Hdr) (nonce : List Word) (s : State) : Host.Outcome State Fault Refusal :=
  .next (command h 0x1100 .package (fun _ s =>
    s.trustGate (
      if nonce.length ≠ 12 then .fail s .badParam
      else if s.lifecycle = 0 then .fail s .unauthorized
      else match s.cipher.identity with
        | none => .fail s .zeroized
        | some id =>
          let body := s.attestBody (pathCode h.path) nonce
          .ok s (body ++ natWords 24 (Config.standard 6 [id, sha384 (body.map BitVec.toNat)])))) s)

/-- R561: the device certificate, then the CA certificate. -/
def execTrustCertRead (h : Hdr) (s : State) : Host.Outcome State Fault Refusal :=
  .next (command h 0x1101 .package (fun _ s => s.trustGate (.ok s (certWords 0 ++ certWords 1))) s)

/-! ### Darn images (R567, R568) -/

/-- Bytes of an image as one number. -/
def imageField (b : List Nat) (off n : Nat) : Nat := ((b.drop off).take n).foldl (fun a x => a * 256 + x) 0

/-- Whether a half-word of a stitch and its parity bit hold an odd number of ones (R527). -/
def oddParity (half parity : Nat) : Bool := (popCount 16 half + parity) % 2 = 1

/-- A slot: enable, address, stitch; and whether its parity is right (R567). -/
def imageSlot (b : List Nat) (i : Nat) : (Bool × Nat × Word) × Bool :=
  let w0 := imageField b (64 + 8 * i) 4
  let w1 := imageField b (68 + 8 * i) 4
  ((w0.testBit 31, w0 % 2 ^ 17, BitVec.ofNat 32 w1),
    oddParity (w1 / 65536) (w0 / 2 ^ 18 % 2) && oddParity (w1 % 65536) (w0 / 2 ^ 17 % 2))

/-- The slot counts of the three kinds. -/
def imageCounts (b : List Nat) : Nat × Nat × Nat := (imageField b 56 2, imageField b 58 2, imageField b 60 2)

/-- The darn an image holds, its slots by kind × 64 + slot. -/
def imageDarn (b : List Nat) : Darn :=
  let (c0, c1, c2) := imageCounts b
  let place := fun i => if i < c0 then i else if i < c0 + c1 then 64 + (i - c0) else 128 + (i - c0 - c1)
  let slots := (List.range (c0 + c1 + c2)).foldl (fun (t : Tbl (Bool × Nat × Word)) i => t.put (place i) (imageSlot b i).1) []
  ⟨imageField b 4 2, imageField b 6 1, sha384 b, slots, (c0, c1, c2)⟩

def bytesWords (b : List Nat) (off n : Nat) : List Word := (List.range n).map (fun i => BitVec.ofNat 32 (imageField b (off + 4 * i) 4))

/-- Checks 2 to 7 of R568, in their order; all of them fail alike. -/
def State.imageOk (s : State) (b : List Nat) : Bool :=
  let (c0, c1, c2) := imageCounts b
  let n := c0 + c1 + c2
  let signed := 64 + 8 * n
  let owner := imageField b 7 1 % 2 = 1
  imageField b 0 4 = 0x4441524E && c0 ≤ 64 && c1 ≤ 64 && c2 ≤ 64 && b.length = signed + 96 + (if owner then 196 else 0)
    && imageField b 8 48 = romDigest
    && verifies darnKey (sha384 (b.take signed)) (bytesWords b signed 24)
    && (!s.flag .secLifecycleCosign 0 || (owner && hashOf (bytesWords b (signed + 96) 25) = s.ownerHash
      && verifies (bytesWords b (signed + 96) 25) (sha384 (b.take (signed + 96))) (bytesWords b (signed + 196) 24)))
    && s.fld .secLifecycleRb 0 ≤ imageField b 6 1
    && (List.range n).all (fun i => (imageSlot b i).2)

/-- R568: TRUST.DARN_LOAD of a bank of C0. It is accepted; an image that passes is staged and waits for the swap. -/
def execTrustDarnLoad (h : Hdr) (bank len : Word) (s : State) : Host.Outcome State Fault Refusal :=
  .next (command h 0x1102 .package (fun caller s =>
    s.trustGate (
      if 63 < bank.toNat ∨ bankWords 0 bank.toNat * 4 < len.toNat then .fail s .badParam
      else s.unlessClaimed [(0, .sq)] (
        if s.lifecycle = 0 ∨ s.lifecycle = 3 then .fail s .unauthorized
        else if s.trust.pending.isSome ∨ s.asyncFull ∨ !s.bankOn 0 bank.toNat then .fail s .busy
        else
          let a := s.answer caller .accepted []
          let done := fun (s : State) (st : Status) => (⟨s.answer caller st [], .ok, [], true⟩ : Res)
          if s.bankOwner 0 bank.toNat ≠ 0 ∨ h.path = .inband then done (a.nonOwner 0) .notOwner
          else
            let a := a.settleBank 0 bank.toNat
            let a := a.noteBytes 0 bank.toNat 0 len.toNat
            let b := if 1892 < len.toNat then [] else a.padBytes 0 bank.toNat 0 len.toNat
            if !a.imageOk b then done (a.report .secDarnReject 0 .secDarnReject 15 0) .badParam
            else ⟨{ a with trust := { a.trust with staged := some (imageDarn b), pending := some (imageDarn b, caller, a.elapsed, bank.toNat) } }, .ok, [], true⟩))) s)

/-- R571: SQ_DARN_LEVEL, the image digest, the slot counts, the rollback count. -/
def execTrustDarnStatus (h : Hdr) (s : State) : Host.Outcome State Fault Refusal :=
  .next (command h 0x1103 .package (fun _ s =>
    let d := s.trust.darn
    let (c0, c1, c2) := (d.map (fun x => x.counts)).getD (0, 0, 0)
    s.trustGate (.ok s (s.reg .sqDarnLevel 0 :: natWords 12 ((d.map (fun x => x.digest)).getD 0)
      ++ [c0, c1, c2, s.fld .secLifecycleRb 0].map (BitVec.ofNat 32)))) s)

/-! ### Lifecycle (R563, R565) -/

/-- Authority to OWNED: key, cosign word, signature. -/
def ownAuthority (a : List Word) : Bool :=
  a.length = 50 && (a.getD 25 0).toNat < 2
    && verifies (a.take 25) (sha384 [subjectSerial, 2, wordsNat (a.take 25), (a.getD 25 0).toNat]) (a.drop 26)

/-- Authority to RETIRED: key and signature. -/
def State.retireAuthority (s : State) (a : List Word) : Bool :=
  a.length = 49 && hashOf (a.take 25) = s.ownerHash && verifies (a.take 25) (sha384 [subjectSerial, 3]) (a.drop 25)

/-- R563, R565: TRUST.LIFECYCLE to the next state, with valid authority; any other target is refused alike. RETIRED has no Crypto
Officer (R564). -/
def execTrustLifecycle (h : Hdr) (target : Word) (authority : List Word) (s : State) : Host.Outcome State Fault Refusal :=
  .next (command h 0x1104 .package (fun _ s =>
    let reject := fun (s : State) => (⟨s.count .secLcReject 0, .unauthorized, [], false⟩ : Res)
    s.trustGate (
      if s.trust.pending.isSome then .fail s .busy
      else if target = 2 ∧ s.lifecycle = 1 then
        if !ownAuthority authority then reject s
        else
          let hash := natWords 12 (hashOf (authority.take 25))
          let s := ((List.range 12).zip hash).foldl (fun s p => s.setReg .secOwnerHash p.1 p.2) s
          .ok ((s.setFld .secLifecycleCosign 0 (authority.getD 25 0).toNat).setFld .secLifecycleState 0 2)
      else if target = 3 ∧ s.lifecycle = 2 then
        if !s.retireAuthority authority then reject s
        else .ok (((s.zeroize .package).modCipher (fun c => { c with roles := [] })).setFld .secLifecycleState 0 3)
      else reject s)) s)

end Sys2Proof.Machine
end

