-- ==== Sys2Proof/Machine/Seq.lean ====
section
/-!
DEFINITION. The stitch sequencers (R525-R540): stitches, dispatch, waits, machine checks, hand-over and darn swaps. What a
stitch fetch delivers is ROM the spec does not give: each stitch row carries the fields of the stitch fetched, and where an enabled darn
slot names the address it is the slot's stitch. A stitch row acts on a sequencer that is running a pattern, and changes nothing
otherwise (log entry 77). A sequencer is named as MAIL
names it, die × 3 + index.
-/

namespace Sys2Proof.Machine

/-! ### Sequencers -/

/-- The spare of a die, as MAIL numbers it. -/
def spareSeq (die : Nat) : Nat := die * 3 + (if die < 6 then 2 else 1)

/-- A sequencer takes a state; SQ_STATn shows its address and its parked contexts. -/
def State.setSeq (s : State) (q : Nat) (x : SeqSt) : State :=
  let s := { s with seqs := s.seqs.setD q SeqSt.empty x }
  (s.setFld .sqStatAddr (seqInst q) x.ctx.addr).setFld .sqStatParked (seqInst q) x.parked.length

def State.setSeqState (s : State) (q n : Nat) : State := s.setFld .sqStatState (seqInst q) n

/-- Running a pattern: a stitch of it is in execution. -/
def State.seqRuns (s : State) (q : Nat) : Bool := seqExists q && s.seqState q = 2 && (s.seq q).ctx.item.isSome

def SeqCtx.get (x : SeqCtx) (r : Nat) : Word := if r = 0 then 0 else Tbl.getD x.w r 0
/-- w0 reads zero, and writes to it are ignored (R526). -/
def SeqCtx.set (x : SeqCtx) (r : Nat) (v : Word) : SeqCtx := if r = 0 then x else { x with w := x.w.setD r 0 v }
def SeqCtx.step (x : SeqCtx) : SeqCtx := { x with addr := (x.addr + 1) % 2 ^ 17 }
def SeqCtx.go (x : SeqCtx) (target : Nat) : SeqCtx := { x with addr := target }

def State.setCtx (s : State) (q : Nat) (x : SeqCtx) : State := s.setSeq q { s.seq q with ctx := x }

/-- A stitch that works on the context alone, and goes on to the next address. -/
def State.stitch (s : State) (q : Nat) (f : SeqCtx → SeqCtx) : State :=
  if s.seqRuns q then s.setCtx q (f (s.seq q).ctx).step else s

/-! ### Ending commands and machine checks (R535) -/

/-- The final reply of a command that has none yet. -/
def State.endCommand (s : State) (c : Caller) (st : Status) (ws : List Word) : State :=
  match s.flights.find (tagKey c.path c.tag) with
  | some f => if f.caller = c ∧ f.final.isNone then s.answer c st ws else s
  | none => s

def itemCaller : Option SeqItem → Option Caller
  | some (.command c _) => some c
  | _ => none

/-- A command sequencer that is in service, as the one named or as the spare that serves it. -/
def State.seqWorks (s : State) (q : Nat) : Bool := s.seqState q ≠ 5 && s.seqState q ≠ 0

/-- R535, R536: the work of a stopped command sequencer passes to the other active one of its die; it waits while only the spare is left,
and with none left its commands end with MACHINE_CHECK. -/
def State.passWork (s : State) (q : Nat) : State :=
  let d := seqDie q
  let x := s.seq q
  match [d * 3, d * 3 + 1, d * 3 + 2].filter (fun r => r != q && s.seqWorks r) with
  | r :: _ => (s.setSeq q { x with work := [] }).setSeq r { s.seq r with work := (s.seq r).work ++ x.work }
  | [] =>
    if s.spareFree d then s
    else (x.work.filterMap (fun i => itemCaller (some i))).foldl (fun s c => s.endCommand c .machineCheck [])
      (s.setSeq q { x with work := [] })

/-- R535: the sequencer stops before the faulting stitch takes effect; its commands end with MACHINE_CHECK. Under the
automatic policy a hand-over follows at once (R536). -/
def State.mcheck (s : State) (q cause addr : Nat) : State :=
  let x := s.seq q
  let callers := (itemCaller x.ctx.item).toList ++ x.parked.filterMap (fun p => itemCaller p.ctx.item)
  let s := callers.foldl (fun s c => s.endCommand c .machineCheck []) s
  let s := s.setSeq q { x with ctx := { SeqCtx.empty with addr := addr }, wait := none, parked := [], order := 1 ≤ s.policy 2 }
  let s := (s.setSeqState q 5).setFld .sqStatCause (seqInst q) cause
  let s := if 2 ≤ seqDie q ∧ seqDie q < 6 then s.selfCause (.die (seqDie q)) else s
  let s := if seqDie q < 2 then s.passWork q else s
  s.report .sqMcheck (seqInst q) .sqMcheck (seqDie q) q

/-! ### Fetching (R525, R527, R529, R533) -/

/-- The kinds that a darn's slot sets serve: 0 command, 1 activation, 2 link. -/
def seqKind (q : Nat) : Nat := if seqDie q < 2 then 0 else if seqDie q < 6 then 1 else 2

/-- Stitches of a kind's control store; a fetch beyond it is unbacked. -/
def storeSize (kind : Nat) : Nat := if kind = 0 then 65536 else if kind = 1 then 32768 else 16384

/-- The stitch of the lowest enabled slot in force that names an address. -/
def State.darnSlot (s : State) (q addr : Nat) : Option Word :=
  (s.trust.darn.bind (fun d => d.slots.find? (fun p => p.1 / 64 = seqKind q && p.2.1 && p.2.2.1 = addr))).map (fun p => p.2.2.2)

/-- A stitch row on a running sequencer: where a slot names the address, the row's bits must be the slot's stitch; an address that neither
the store nor a slot backs is a machine check. `mask` tells the bits that the row gives. -/
def State.fetch (s : State) (q mask bits : Nat) (f : State → State) : State :=
  let addr := (s.seq q).ctx.addr
  if !s.seqRuns q then s
  else match s.darnSlot q addr with
    | some w => if w.toNat &&& mask = bits then f s else s
    | none => if addr < storeSize (seqKind q) then f s else s.mcheck q 4 addr

/-- The fields below bit 26 of R527's formats, with the op. -/
def opBits (op : Nat) : Nat := op * 2 ^ 26
def fieldBits (lo w v : Nat) : Nat × Nat := ((2 ^ w - 1) * 2 ^ lo, v % 2 ^ w * 2 ^ lo)

/-- A stitch of an op with the fields that the op uses: lowest bit, width, value. -/
def State.stitchRow (s : State) (q op : Nat) (fs : List (Nat × Nat × Nat)) (f : State → State) : State :=
  let bs := fs.map (fun x => fieldBits x.1 x.2.1 x.2.2)
  s.fetch q (opBits 63 + (bs.map Prod.fst).sum) (opBits op + (bs.map Prod.snd).sum) f

/-! The fields of R527's formats, as a row uses them. -/

def fmtD (d : BitVec 4) : Nat × Nat × Nat := (22, 4, d.toNat)
def fmtA (a : BitVec 4) : Nat × Nat × Nat := (18, 4, a.toNat)
def fmtB (b : BitVec 4) : Nat × Nat × Nat := (14, 4, b.toNat)
def fmtImm (i : BitVec 16) : Nat × Nat × Nat := (0, 16, i.toNat)
def fmtOffset (o : BitVec 18) : Nat × Nat × Nat := (0, 18, o.toNat)
def fmtTarget (t : BitVec 17) : Nat × Nat × Nat := (0, 17, t.toNat)
def fmtWait (cond : BitVec 5) (arg cls : BitVec 4) : List (Nat × Nat × Nat) := [(21, 5, cond.toNat), (17, 4, arg.toNat), (13, 4, cls.toNat)]

/-- A stitch with a reserved op, cond or wait condition (R528, R531). -/
def reservedStitch (w : Word) : Bool :=
  let op := fieldOf 26 6 w
  !(op ≤ 0x09 || (0x10 ≤ op && op ≤ 0x13) || (0x18 ≤ op && op ≤ 0x1D) || (0x20 ≤ op && op ≤ 0x24) || op = 0x28 || op = 0x29
    || (0x30 ≤ op && op ≤ 0x34))
  || (op = 0x20 && 9 ≤ fieldOf 22 4 w) || ((op = 0x28 || op = 0x29) && 12 ≤ fieldOf 21 5 w)

/-- R535: a fault found at a fetch: 1 ROM parity and 2 slot parity, 3 a reserved op or cond, 4 an unbacked address, 5 the return stack. -/
def State.faultFits (s : State) (q cause : Nat) : Bool :=
  let addr := (s.seq q).ctx.addr
  let slot := (s.darnSlot q addr).isSome
  let backed := decide (addr < storeSize (seqKind q))
  match cause with
  | 1 => !slot && backed
  | 2 => slot
  | 3 => (s.darnSlot q addr).elim backed reservedStitch
  | 5 => (slot || backed) && ((s.seq q).ctx.stack.isEmpty || 8 ≤ (s.seq q).ctx.stack.length)
  | 4 => !slot && !backed
  | _ => false

def execMachineCheck (q : BitVec 5) (cause : BitVec 3) (addr : BitVec 17) (s : State) : Host.Outcome State Fault Refusal :=
  .next (if s.seqRuns q.toNat ∧ (s.seq q.toNat).ctx.addr = addr.toNat ∧ s.faultFits q.toNat cause.toNat then
      s.mcheck q.toNat cause.toNat addr.toNat
    else s)

/-! ### Arithmetic stitches (R528) -/

/-- d := r with flags Z and N of r, C being free (log entry 77). -/
def State.logical (s : State) (q d : Nat) (f : SeqCtx → Word) : State :=
  if s.seqRuns q then
    let c := s.free % 2 = 1
    s.drawn.stitch q (fun x => (x.flags (f x) c).set d (f x))
  else s

def execStMov (q : BitVec 5) (d a : BitVec 4) (s : State) : Host.Outcome State Fault Refusal :=
  .next (s.stitchRow q.toNat 0x00 [fmtD d, fmtA a] (fun s =>
    s.logical q.toNat d.toNat (fun x => x.get a.toNat)))

def execStAdd (q : BitVec 5) (d a b : BitVec 4) (s : State) : Host.Outcome State Fault Refusal :=
  .next (s.stitchRow q.toNat 0x01 [fmtD d, fmtA a, fmtB b] (fun s =>
    s.stitch q.toNat (fun x =>
      let u := x.get a.toNat
      let v := x.get b.toNat
      (x.flags (u + v) (carryOf u v)).set d.toNat (u + v))))

def execStSub (q : BitVec 5) (d a b : BitVec 4) (s : State) : Host.Outcome State Fault Refusal :=
  .next (s.stitchRow q.toNat 0x02 [fmtD d, fmtA a, fmtB b] (fun s =>
    s.stitch q.toNat (fun x =>
      let u := x.get a.toNat
      let v := x.get b.toNat
      (x.flags (u - v) (borrowOf u v)).set d.toNat (u - v))))

def execStAnd (q : BitVec 5) (d a b : BitVec 4) (s : State) : Host.Outcome State Fault Refusal :=
  .next (s.stitchRow q.toNat 0x03 [fmtD d, fmtA a, fmtB b] (fun s =>
    s.logical q.toNat d.toNat (fun x => x.get a.toNat &&& x.get b.toNat)))

def execStOr (q : BitVec 5) (d a b : BitVec 4) (s : State) : Host.Outcome State Fault Refusal :=
  .next (s.stitchRow q.toNat 0x04 [fmtD d, fmtA a, fmtB b] (fun s =>
    s.logical q.toNat d.toNat (fun x => x.get a.toNat ||| x.get b.toNat)))

def execStXor (q : BitVec 5) (d a b : BitVec 4) (s : State) : Host.Outcome State Fault Refusal :=
  .next (s.stitchRow q.toNat 0x05 [fmtD d, fmtA a, fmtB b] (fun s =>
    s.logical q.toNat d.toNat (fun x => x.get a.toNat ^^^ x.get b.toNat)))

/-- Shifts go by b mod 32. -/
def execStShl (q : BitVec 5) (d a b : BitVec 4) (s : State) : Host.Outcome State Fault Refusal :=
  .next (s.stitchRow q.toNat 0x06 [fmtD d, fmtA a, fmtB b] (fun s =>
    s.logical q.toNat d.toNat (fun x => x.get a.toNat <<< ((x.get b.toNat).toNat % 32))))

def execStShr (q : BitVec 5) (d a b : BitVec 4) (s : State) : Host.Outcome State Fault Refusal :=
  .next (s.stitchRow q.toNat 0x07 [fmtD d, fmtA a, fmtB b] (fun s =>
    s.logical q.toNat d.toNat (fun x => x.get a.toNat >>> ((x.get b.toNat).toNat % 32))))

def execStCmp (q : BitVec 5) (a b : BitVec 4) (s : State) : Host.Outcome State Fault Refusal :=
  .next (s.stitchRow q.toNat 0x08 [fmtA a, fmtB b] (fun s =>
    s.stitch q.toNat (fun x =>
      let u := x.get a.toNat
      let v := x.get b.toNat
      x.flags (u - v) (borrowOf u v))))

def execStTst (q : BitVec 5) (a b : BitVec 4) (s : State) : Host.Outcome State Fault Refusal :=
  .next (s.stitchRow q.toNat 0x09 [fmtA a, fmtB b] (fun s =>
    s.logical q.toNat 0 (fun x => x.get a.toNat &&& x.get b.toNat)))

def execStLdi (q : BitVec 5) (d : BitVec 4) (imm : BitVec 16) (s : State) : Host.Outcome State Fault Refusal :=
  .next (s.stitchRow q.toNat 0x10 [fmtD d, fmtImm imm] (fun s =>
    s.stitch q.toNat (fun x => x.set d.toNat (imm.setWidth 32))))

def execStLdh (q : BitVec 5) (d : BitVec 4) (imm : BitVec 16) (s : State) : Host.Outcome State Fault Refusal :=
  .next (s.stitchRow q.toNat 0x11 [fmtD d, fmtImm imm] (fun s =>
    s.stitch q.toNat (fun x => x.set d.toNat (withField 16 16 (x.get d.toNat) imm.toNat))))

def execStAddi (q : BitVec 5) (d : BitVec 4) (imm : BitVec 16) (s : State) : Host.Outcome State Fault Refusal :=
  .next (s.stitchRow q.toNat 0x12 [fmtD d, fmtImm imm] (fun s =>
    s.stitch q.toNat (fun x =>
      let u := x.get d.toNat
      let v := imm.setWidth 32
      (x.flags (u + v) (carryOf u v)).set d.toNat (u + v))))

def execStCmpi (q : BitVec 5) (d : BitVec 4) (imm : BitVec 16) (s : State) : Host.Outcome State Fault Refusal :=
  .next (s.stitchRow q.toNat 0x13 [fmtD d, fmtImm imm] (fun s =>
    s.stitch q.toNat (fun x =>
      let u := x.get d.toNat
      let v := imm.setWidth 32
      x.flags (u - v) (borrowOf u v))))

/-! ### Access stitches (R528, R544) -/

/-- A byte address a + offset. -/
def SeqCtx.address (x : SeqCtx) (a : BitVec 4) (offset : BitVec 18) : Nat := (x.get a.toNat + offset.setWidth 32).toNat

/-- The bank and word of a byte address in a die's scratchpads, where it lies in a bank that FIRMWARE owns. -/
def State.firmwareWord (s : State) (die addr : Nat) : Option (Nat × Nat) :=
  let bank := addr / 4 / bankWords die 0
  if bank < 64 ∧ bankExists die bank ∧ s.bankOwner die bank = 1 then some (bank, addr / 4 % bankWords die 0) else none

/-- R548: the bank that an address lies in serves; else the access is an error of cause 3. -/
def State.padsOn (s : State) (die addr : Nat) : Bool :=
  let b := addr / 4 / bankWords die 0
  64 ≤ b || s.bankOn die b
def State.padsError (s : State) (q : BitVec 5) (addr : Nat) : State := s.accError ⟨.seq q, BitVec.ofNat 26 addr, none, 0, false, 0⟩ 3

def execStRdsp (q : BitVec 5) (d a : BitVec 4) (offset : BitVec 18) (s : State) : Host.Outcome State Fault Refusal :=
  .next (s.stitchRow q.toNat 0x1A [fmtD d, fmtA a, fmtOffset offset] (fun s =>
    let die := seqDie q.toNat
    if !s.padsOn die ((s.seq q.toNat).ctx.address a offset) then (s.padsError q ((s.seq q.toNat).ctx.address a offset)).stitch q.toNat (fun x => x.set d.toNat 0)
    else match s.firmwareWord die ((s.seq q.toNat).ctx.address a offset) with
    | some (b, w) =>
      let r := (s.settleBank die b).readPad die b w
      r.1.stitch q.toNat (fun x => x.set d.toNat r.2)
    | none => (s.nonOwner die).stitch q.toNat (fun x => x.set d.toNat 0)))

def execStWrsp (q : BitVec 5) (d a : BitVec 4) (offset : BitVec 18) (s : State) : Host.Outcome State Fault Refusal :=
  .next (s.stitchRow q.toNat 0x1B [fmtD d, fmtA a, fmtOffset offset] (fun s =>
    let die := seqDie q.toNat
    let x := (s.seq q.toNat).ctx
    if !s.padsOn die (x.address a offset) then (s.padsError q (x.address a offset)).stitch q.toNat id
    else match s.firmwareWord die (x.address a offset) with
    | some (b, w) => ((s.settleBank die b).writePad die b w (x.get d.toNat)).stitch q.toNat id
    | none => (s.nonOwner die).stitch q.toNat id))

/-- A parameter word of the command; beyond the last one the value is free. -/
def execStRdpar (q : BitVec 5) (d a : BitVec 4) (offset : BitVec 18) (s : State) : Host.Outcome State Fault Refusal :=
  .next (s.stitchRow q.toNat 0x1C [fmtD d, fmtA a, fmtOffset offset] (fun s =>
    let x := (s.seq q.toNat).ctx
    let k := x.address a offset
    match x.item with
    | some (.command _ ps) =>
      match ps[k]? with
      | some v => s.stitch q.toNat (fun x => x.set d.toNat v)
      | none => s.drawn.stitch q.toNat (fun x => x.set d.toNat (BitVec.ofNat 32 s.free))
    | _ => s.drawn.stitch q.toNat (fun x => x.set d.toNat (BitVec.ofNat 32 s.free))))

/-- A parameter word of the reply. -/
def execStWrpar (q : BitVec 5) (d a : BitVec 4) (offset : BitVec 18) (s : State) : Host.Outcome State Fault Refusal :=
  .next (s.stitchRow q.toNat 0x1D [fmtD d, fmtA a, fmtOffset offset] (fun s =>
    s.stitch q.toNat (fun x => { x with reply := x.reply.put (x.address a offset) (x.get d.toNat) })))

/-! ### Branches (R528, R529) -/

def execStBr (q : BitVec 5) (cond : BitVec 4) (target : BitVec 17) (s : State) : Host.Outcome State Fault Refusal :=
  .next (s.stitchRow q.toNat 0x20 [(22, 4, cond.toNat), fmtTarget target] (fun s =>
    let x := (s.seq q.toNat).ctx
    match x.cond cond.toNat with
    | none => s.mcheck q.toNat 3 x.addr
    | some true => s.setCtx q.toNat (x.go target.toNat)
    | some false => s.setCtx q.toNat x.step))

def execStCall (q : BitVec 5) (target : BitVec 17) (s : State) : Host.Outcome State Fault Refusal :=
  .next (s.stitchRow q.toNat 0x21 [fmtTarget target] (fun s =>
    let x := (s.seq q.toNat).ctx
    if 8 ≤ x.stack.length then s.mcheck q.toNat 5 x.addr
    else s.setCtx q.toNat ({ x with stack := x.step.addr :: x.stack }.go target.toNat)))

def execStRet (q : BitVec 5) (s : State) : Host.Outcome State Fault Refusal :=
  .next (s.stitchRow q.toNat 0x22 [] (fun s =>
    let x := (s.seq q.toNat).ctx
    match x.stack with
    | [] => s.mcheck q.toNat 5 x.addr
    | r :: rest => s.setCtx q.toNat ({ x with stack := rest }.go r)))

def execStLoop (q : BitVec 5) (target : BitVec 17) (s : State) : Host.Outcome State Fault Refusal :=
  .next (s.stitchRow q.toNat 0x23 [fmtTarget target] (fun s =>
    let x := (s.seq q.toNat).ctx
    let x := x.set 15 (x.get 15 - 1)
    s.setCtx q.toNat (if x.get 15 = 0 then x.step else x.go target.toNat)))

/-- A sequencer at rest stops taking items while a darn waits for the swap or a hand-over is ordered, once it keeps no parked context
(R534, R617). -/
def State.stopsTaking (s : State) (q : Nat) : Bool := (s.trust.pending.isSome || (s.seq q).order) && (s.seq q).parked.isEmpty

/-- The state a sequencer rests in: holding or idle. -/
def State.restState (s : State) (q : Nat) : Nat := if s.stopsTaking q then 4 else 1

/-- The sequencer returns to dispatch. -/
def State.seqRest (s : State) (q : Nat) : State :=
  let s := s.setSeq q { s.seq q with ctx := SeqCtx.empty, wait := none }
  s.setSeqState q (s.restState q)

def execStEnd (q : BitVec 5) (s : State) : Host.Outcome State Fault Refusal :=
  .next (s.stitchRow q.toNat 0x24 [] (fun s =>
    s.seqRest q.toNat))

/-! ### Waits (R531, R532) -/

/-- The commands of a sequencer's pattern in execution and of its parked ones. -/
def State.seqCallers (s : State) (q : Nat) : List Caller :=
  let x := s.seq q
  (itemCaller x.ctx.item).toList ++ x.parked.filterMap (fun p => itemCaller p.ctx.item)

/-- A part of a wait's argument that names two things; how the register packs them is not in the spec (log entry 77). -/
def SeqWait.part (w : SeqWait) (k : Nat) : Nat := Config.standard 81 [w.cond, w.arg.toNat, k]

/-- What the state says of a wait's condition; none of LANE_STAGE, where an event decides: which family's lane its argument names is
open (log entry 77). -/
def State.waitHolds (s : State) (q : Nat) (w : SeqWait) : Option Bool :=
  match w.cond with
  | 0 => some (shortReached (s.nowOn (seqDie q)) w.arg.toNat)
  | 1 => some (s.launched w.arg.toNat && s.treeCount w.arg.toNat != w.mark)
  | 2 | 9 => some w.seen
  | 3 => some (!s.pads.handovers.any (fun h => h.die = w.part 0 && h.bank = w.part 1))
  | 4 => some (!(s.cipher.deliveries.any (fun d => d.keys.has w.arg.toNat) || s.cipher.jobs.any (fun j => j.handle = w.arg.toNat)))
  | 5 => some !(s.seq q).mailbox.isEmpty
  | 6 => some (!s.tandem.unacked.any (fun r => r.stream = w.part 0 && r.seq = w.part 1))
  | 7 => some (!s.tableWaits.any (fun t => t.caller.all (s.seqCallers q).contains))
  | 8 => some ((s.chan w.arg.toNat).ploams.length < 64 && (s.chan w.arg.toNat).offers.isEmpty)
  | 11 => some (!(blockOf (w.part 0) (w.part 1)).any (s.actedOn (w.part 0)))
  | _ => none

/-- A timeout class in force on the sequencer's die, as an elapsed instant (R539). -/
def State.waitUntil (s : State) (q cls : Nat) : Nat := s.elapsed + usSpan (s.fld .sqTmoTmo (seqDie q * 128 + cls))

/-- R52: a short-form target that reads as past when it is armed counts. -/
def State.notePast (s : State) (q : Nat) (w : SeqWait) : State :=
  if w.cond = 0 ∧ shortReached (s.nowOn (seqDie q)) w.arg.toNat then s.count .tbShortPast 0 else s

/-- The wait that a sequencer enters: on its argument's value, from now on (R531). -/
def State.newWait (s : State) (q cond : Nat) (v : Word) (cls : Nat) : SeqWait :=
  ⟨cond, v, s.waitUntil q cls, if s.launched v.toNat then s.treeCount v.toNat else 2 ^ 51, false⟩

/-- A wait is entered: it ends at once where its condition holds; a reserved condition is a machine check. -/
def State.enterWait (s : State) (q cond arg cls : Nat) (park : Bool) : State :=
  let x := s.seq q
  let w := s.newWait q cond (x.ctx.get arg) cls
  if 12 ≤ cond then s.mcheck q 3 x.ctx.addr
  else if s.waitHolds q w = some true then (s.notePast q w).setCtx q { x.ctx.step with t := false }
  else
    let limit : Nat := if seqDie q < 2 then 64 else 16
    if park ∧ x.ctx.accepted ∧ x.parked.length < limit then
      (s.setSeq q { x with parked := x.parked ++ [⟨x.ctx, w, none⟩] }).seqRest q
    else (s.setSeq q { x with wait := some w }).setSeqState q 3

def execStWait (q : BitVec 5) (cond : BitVec 5) (arg cls : BitVec 4) (s : State) : Host.Outcome State Fault Refusal :=
  .next (s.stitchRow q.toNat 0x28 (fmtWait cond arg cls) (fun s =>
    s.enterWait q.toNat cond.toNat arg.toNat cls.toNat false))

/-- R532: only a pattern that has posted ACCEPT parks, within the limit; else PARK acts as WAIT. -/
def execStPark (q : BitVec 5) (cond : BitVec 5) (arg cls : BitVec 4) (s : State) : Host.Outcome State Fault Refusal :=
  .next (s.stitchRow q.toNat 0x29 (fmtWait cond arg cls) (fun s =>
    s.enterWait q.toNat cond.toNat arg.toNat cls.toNat true))

/-- How a wait stands: ended by its condition (false), by its timeout (true), or not yet. -/
def State.waitEnded (s : State) (q : Nat) (w : SeqWait) (event : Bool) : Option Bool :=
  if (s.waitHolds q w).getD event then some false else if w.until_ ≤ s.elapsed then some true else none

def State.noteTimeout (s : State) (q : Nat) (late : Bool) : State :=
  if late then (s.count .sqWaitTmo (seqInst q)).raiseOnce .sqWaitTmo (seqDie q) q else s

/-- R531: the wait that holds a sequencer, or a parked context's, ends; the condition wins over the timeout. `event` says
whether an event condition holds. -/
def execWaitEnd (q : BitVec 5) (parked : Option (BitVec 6)) (event : Bool) (s : State) : Host.Outcome State Fault Refusal :=
  let n := q.toNat
  let x := s.seq n
  .next (match parked with
    | none =>
      match x.wait with
      | none => s
      | some w =>
        match s.waitEnded n w event with
        | none => s
        | some late =>
          let s := (s.setSeq n { x with wait := none, ctx := { x.ctx.step with t := late } }).setSeqState n 2
          s.noteTimeout n late
    | some k =>
      match x.parked[k.toNat]? with
      | none => s
      | some p =>
        match p.woken, s.waitEnded n p.wait event with
        | none, some late =>
          (s.setSeq n { x with parked := x.parked.set k.toNat { p with woken := some late } }).noteTimeout n late
        | _, _ => s)

/-! ### External stitches (R528) -/

/-- The statuses of R492 by their codes. -/
def Status.ofCode (n : Nat) : Option Status :=
  [Status.ok, .accepted, .advanced, .notReady, .busy, .busyCastOn, .badOpcode, .badParam, .badLength, .badCrc, .badVersion,
    .badTarget, .tagInUse, .staleGeneration, .noRoom, .idResting, .idInUse, .blockClaimed, .notOwner, .unauthorized, .notApprovedMode,
    .replayed, .machineCheck, .zeroized, .timedOut, .commitBusy, .fencePending].find? (fun x => x.code = n)

/-- The reply words written so far, zero where none was. -/
def SeqCtx.replyWords (x : SeqCtx) : List Word :=
  match x.reply.getLast? with
  | some (k, _) => (List.range (k + 1)).map (fun i => Tbl.getD x.reply i 0)
  | none => []

/-- The final reply with the register's status; codes that R492 does not list are never returned. -/
def execStReply (q : BitVec 5) (r : BitVec 4) (s : State) : Host.Outcome State Fault Refusal :=
  .next (s.stitchRow q.toNat 0x30 [fmtD r] (fun s =>
    let x := (s.seq q.toNat).ctx
    let s := s.stitch q.toNat id
    match itemCaller x.item, Status.ofCode ((x.get r.toNat).toNat % 65536) with
    | some c, some st => s.endCommand c st x.replyWords
    | _, _ => s))

def execStAccept (q : BitVec 5) (s : State) : Host.Outcome State Fault Refusal :=
  .next (s.stitchRow q.toNat 0x31 [] (fun s =>
    let x := (s.seq q.toNat).ctx
    let s := s.stitch q.toNat (fun x => { x with accepted := true })
    match itemCaller x.item with
    | some c => if x.accepted then s else s.endCommand c .accepted []
    | none => s))

/-- The die whose groups hold a source number (R514). -/
def dieOfSource (src : Nat) : Nat :=
  let g := src / 32
  if g < 3 then 15 else (g - 3) / 3

/-- The event of a source number, on the die of its group. -/
def evOfSource (src : Nat) : Option Ev := Ev.all.find? (fun e => raisingDie e (dieOfSource src) = dieOfSource src && sourceOf e (dieOfSource src) = src)

def execStRaise (q : BitVec 5) (src : BitVec 10) (s : State) : Host.Outcome State Fault Refusal :=
  .next (s.stitchRow q.toNat 0x32 [(0, 10, src.toNat)] (fun s =>
    let s := s.stitch q.toNat id
    match evOfSource src.toNat with
    | some e => s.raise e (dieOfSource src.toNat) 0
    | none => s))

/-- The message that stands at the register's scratchpad address is the row's operand, its kind in R113's order. A full
queue refuses it, counted, raised once a frame; the pattern waits (R115). -/
def execStPloam (q : BitVec 5) (r : BitVec 4) (c : Chan) (kind : BitVec 5) (onuId : Option (BitVec 10)) (args : List Word) (s : State) :
    Host.Outcome State Fault Refusal :=
  .next (s.stitchRow q.toNat 0x33 [fmtD r, (0, 7, c.toNat)] (fun s =>
    let s := s.stitch q.toNat id
    match ploamKinds[kind.toNat]? with
    | none => s
    | some k => s.offer c.toNat ⟨k, onuId.map BitVec.toNat, args.map BitVec.toNat⟩))

def execStMail (q : BitVec 5) (r : BitVec 4) (target : BitVec 5) (s : State) : Host.Outcome State Fault Refusal :=
  .next (s.stitchRow q.toNat 0x34 [fmtD r, (0, 5, target.toNat)] (fun s =>
    let v := (s.seq q.toNat).ctx.get r.toNat
    let s := s.stitch q.toNat id
    let t := target.toNat
    if seqExists t then s.setSeq t { s.seq t with mailbox := (s.seq t).mailbox ++ [v] } else s))

/-! ### Dispatch (R530, R490, R491) -/

/-- The command sequencer that takes the next command of a core die: those at work alternately by arrival (R525, R535); with none at work
but a spare left the command waits for the hand-over. -/
def State.nextCommandSeq (s : State) (half : Nat) : Option Nat :=
  let on := [half * 3, half * 3 + 1, half * 3 + 2].filter s.seqWorks
  if on.isEmpty then (if s.spareFree half then some (half * 3) else none) else on[Tbl.getD s.seqTurn half 0 % max 1 on.length]?

/-- R491: the core die whose sequencers run a command. -/
def commandHalfOf (die : Nat) : Nat := if die = 0 ∨ die = 2 ∨ die = 3 ∨ die = 6 ∨ die = 15 then 0 else 1

/-- An accepted command joins a sequencer's work, among the commands not yet started of its path; with no sequencer left it ends with MACHINE_CHECK (R536). -/
def State.queueCommand (s : State) (c : Caller) (params : List Word) : State :=
  let half := commandHalfOf c.die.toNat
  match s.nextCommandSeq half with
  | some q =>
    let s := { s with
      seqTurn := s.seqTurn.put half (Tbl.getD s.seqTurn half 0 + 1)
      laosh := { s.laosh with order := s.laosh.order ++ [c] } }
    s.setSeq q { s.seq q with work := (s.seq q).work ++ [.command c params] }
  | none => s.answer c .machineCheck []

/-- R490: a command starts once every earlier command of its path that names its die, or where either names die 15, has
posted its first reply. -/
def State.mayStart (s : State) (c : Caller) : Bool :=
  !((s.laosh.order.takeWhile (fun d => decide (d ≠ c))).any (fun d => d.path = c.path && (d.die = c.die || d.die = 15 || c.die = 15)))

/-- A working sequencer holds no stitch in execution and no parked context (R534, R617). -/
def State.seqHolds (s : State) (q : Nat) : Bool :=
  let x := s.seq q
  s.seqState q = 5 || s.seqState q = 0 || (x.ctx.item.isNone && x.wait.isNone && x.parked.isEmpty)

end Sys2Proof.Machine
end

