-- ==== Sys2Proof/Machine/Delineation.lean ====
section
/-!
DEFINITION. HEC delineation (R129, R130, R180): the machine run over one unit. A unit starts at a known position in
every stream, so a context enters SYNC afresh there (log entry 48), and nothing of it outlives the unit.
-/

namespace Sys2Proof.Machine

/-- A unit: its length in bytes, DELTA and ALPHA, the headers read, and the byte ranges lost to uncorrectable
codewords. A position with no header listed reads as uncorrectable with PLI 0. -/
structure Unit_ where
  len : Nat
  delta : Nat
  alpha : Nat
  heads : List XgemHead
  lost : List (Nat × Nat)

/-- What the machine gives, as it happens: a frame delivered, a frame discarded, a PRESYNC abandoned, a loss of SYNC, a hunt
begun at a lost codeword. -/
inductive DlnEv where
  | frame (x : XgemHead)
  | dropped
  | abandoned
  | loss
  | hole
deriving DecidableEq, Repr

abbrev DlnOut := List DlnEv

def pad4 (n : Nat) : Nat := ceilDiv n 4 * 4

def nextPos (x : XgemHead) : Nat := x.pos.toNat + 8 + pad4 x.pli.toNat

def Unit_.head (u : Unit_) (p : Nat) : XgemHead :=
  (u.heads.find? (fun x => x.pos.toNat = p)).getD ⟨BitVec.ofNat 20 p, 2, 0, 0, 0, false, 0, [], 0⟩

/-- The lost range that holds a position. -/
def Unit_.lostAt (u : Unit_) (p : Nat) : Option (Nat × Nat) := u.lost.find? (fun r => r.1 ≤ p && p < r.2)

def Unit_.touched (u : Unit_) (lo hi : Nat) : Bool := u.lost.any (fun r => r.1 < hi && lo < r.2)

/-- The header at a position of HUNT or PRESYNC fits: no correction is applied (R129). -/
def Unit_.fits (u : Unit_) (x : XgemHead) : Bool :=
  x.hec = 0 && (nextPos x) ≤ u.len && !u.touched x.pos.toNat (x.pos.toNat + 8)

/-- The least position from p on at which a candidate fits; HUNT advances to it 4 bytes at a time. -/
def Unit_.candidate (u : Unit_) (p : Nat) : Option XgemHead :=
  (u.heads.filter (fun x => p ≤ x.pos.toNat && x.pos.toNat % 4 = 0 && u.fits x)).foldl
    (fun acc x => match acc with
      | some y => if x.pos.toNat < y.pos.toNat then some x else some y
      | none => some x) none

/-- A frame is delivered, unless a byte of it lies in a lost range (R180). -/
def Unit_.give (u : Unit_) (o : DlnOut) (x : XgemHead) : DlnOut :=
  o ++ [if u.touched x.pos.toNat (nextPos x) then .dropped else .frame x]

/-- Where the machine stands. -/
inductive Dln where
  | hunt (p : Nat)
  | presync (p count first : Nat) (held : List XgemHead)
  | sync (p failures first : Nat)
  | done

/-- One step of R129. -/
def Unit_.step (u : Unit_) (d : Dln) (o : DlnOut) : Dln × DlnOut :=
  match d with
  | .done => (.done, o)
  | .hunt p =>
    match u.candidate p with
    | some x => (.presync (nextPos x) 0 x.pos.toNat [x], o)
    | none => (.done, o)
  | .presync p count first held =>
    if p = u.len then (.done, held.foldl u.give o)
    else
      let x := u.head p
      if u.fits x then
        if u.delta ≤ count + 1 then (.sync (nextPos x) 0 0, (held ++ [x]).foldl u.give o)
        else (.presync (nextPos x) (count + 1) first (held ++ [x]), o)
      else (.hunt (first + 4), o ++ .abandoned :: held.map (fun _ => .dropped))
  | .sync p failures first =>
    if u.len < p + 8 then (.done, o)
    else match u.lostAt p with
      | some r => (.hunt (pad4 r.2), o ++ [.hole])
      | none =>
        let x := u.head p
        if u.len < (nextPos x) then (.hunt (p + 8), o ++ [.loss, .dropped])
        else if x.hec ≠ 2 then (.sync (nextPos x) 0 0, u.give o x)
        else
          let o := o ++ [.dropped]
          let first := if failures = 0 then p else first
          if u.alpha ≤ failures + 1 then (.hunt (first + 8), o ++ [.loss])
          else (.sync (nextPos x) (failures + 1) first, o)

def Unit_.run (u : Unit_) : Nat → Dln → DlnOut → DlnOut
  | 0, _, o => o
  | n + 1, d, o =>
    match u.step d o with
    | (.done, o) => o
    | (d, o) => u.run n d o

/-- The machine over the whole unit, from SYNC at its start. Each step moves the position on, but for an abandoned
PRESYNC, which comes back once to each candidate. -/
def Unit_.delineate (u : Unit_) : DlnOut :=
  u.run ((u.heads.length + 2) * (u.heads.length + u.alpha + 4) + u.len / 8) (.sync 0 0 0) []

end Sys2Proof.Machine
end

