-- ==== Sys2Proof/Machine/Tandem.lean ====
section
/-!
DEFINITION. Tandem pairs (R440-R467): pairing, the tandem link and its records, the halter, lockstep, digests and verdicts,
switchover and drills. What the peer does arrives as frames and as the level of HLT_PEER_N. Readings of the spec: log entry 79.
-/

namespace Sys2Proof.Machine

def protectedTrees (s : State) : List Nat := (List.range 32).filter s.protected

/-! ### Configuration compared, mirrored and applied (R442, R453, R454) -/

/-- Protection ends on a tree. -/
def State.unprotect (s : State) (t : Nat) : State :=
  let s := (s.setFlag .tndTreeCfgProtect t false).setReg .tndTreeStat t 0
  let x := s.tndTree t
  let s := s.setTndTree t { TndTree.empty with want := x.want, peerWant := x.peerWant, peerCfg := x.peerCfg }
  let s := { s with tandem := { s.tandem with chans := s.tandem.chans.filter (fun p => decide (treeOfChan p.1 ≠ t)) } }
  match x.resync with
  | some c => s.answer c .timedOut []
  | none => s

/-- R454: the owner sends the whole state of a protected tree and its keys; the cut record of the next cutoff starts lockstep. -/
def State.sendTree (s : State) (t : Nat) : State :=
  if s.mirrors t then
    let s := s.modTndTree t (fun x => { x with told := [], resyncing := true })
    ((s.tellItem t .whole).mirror t).tellKeys t
  else s

/-- A tree named on both devices is protected (R442). -/
def State.protectIfBoth (s : State) (t : Nat) : State :=
  let x := s.tndTree t
  if x.want ∧ x.peerWant ∧ s.flag .tndPairStatPaired 0 ∧ !s.protected t then
    (s.setFlag .tndTreeCfgProtect t true).sendTree t
  else if s.protected t ∧ !(x.want && x.peerWant) then s.unprotect t
  else s

/-- The peer is told the configuration of a tree outside protection, for R442's comparison, when it has changed since (log entry 79). -/
def State.tellConfig (s : State) (t : Nat) : State :=
  let m := MirrorItem.config (s.pairConfig t)
  if s.flag .tndPairStatPaired 0 && !s.protected t && (s.tndTree t).told != [m] then
    (s.sendRecord 0x10 (.mirror t (s.nextFrame t) m)).modTndTree t (fun x => { x with told := [m] })
  else s

/-- The peer is told that this device names a tree, or no longer does. -/
def State.tellNamed (s : State) (t : Nat) : State :=
  s.sendRecord 0x10 (.mirror t (s.nextFrame t) (.protect (s.tndTree t).want))

/-- The standby's own of a tree gives way to the owner's whole state. -/
def State.clearTree (s : State) (t : Nat) : State :=
  let cs := chansOfTree t
  let mine := fun (o : Nat) => ((s.onu o).map (fun x => decide (x.tree = t))).getD false
  let recs := s.pon.allocs.filter (fun p => p.2.tree = t)
  { s with
    skeinOnus := s.skeinOnus.filter (fun p => decide (p.2.skein / 2 ≠ t))
    skewOut := s.skewOut.filter (fun x => decide (x.2.1 / 2 ≠ t))
    tribs := s.tribs.filter (fun p => !mine p.2.onu)
    pon := { s.pon with
      onus := s.pon.onus.filter (fun p => decide (p.2.tree ≠ t))
      idents := s.pon.idents.filter (fun p => decide (p.1 / 2 ^ 18 ≠ t))
      ports := s.pon.ports.filter (fun p => decide (p.1 / 65536 ≠ t))
      allocs := s.pon.allocs.filter (fun p => decide (p.2.tree ≠ t))
      hints := s.pon.hints.filter (fun h => !Tbl.has recs h.2.rec_)
      windows := s.pon.windows.filter (fun w => !cs.contains w.1)
      arms := s.pon.arms.filter (fun a => !cs.contains a.1)
      disabled := s.pon.disabled.del t } }

/-- A mirrored configuration register; a channel's enable acts as its command does (R121, R122). -/
def State.mirrorReg (s : State) (r : Reg) (i : Nat) (v : Word) : State :=
  match r with
  | .pchCfg => (s.setEnable i (fieldOf Fld.pchCfgEnable.lo 1 v = 1)).setReg r i v
  | _ => s.setReg r i v

/-- A mirrored launch: the frame told, or the first of the grid at least 10 µs on where that is past. -/
def State.mirrorGrid (s : State) (t : Nat) (on : Bool) (n : Nat) : State :=
  if on then
    if s.launched t || s.launchPending t then s
    else
      let offset := s.fld .pchTreeOffset t
      let k := gridFirst offset (s.nowOn (dieOfTree t) + usSpan 10)
      let k := k + (framesBetween k n).toNat
      (s.setFlag .pchTreePending t true).setTree t
        { s.tree t with launchAt := gridInstant offset k, launchCount := k % 2 ^ 51, stopping := false }
  else if s.launchPending t then s.setFlag .pchTreePending t false
  else if s.launched t then s.setTree t { s.tree t with stopping := true }
  else s

/-- R455: what a standby measured of an ONU's ranging burst, against the EqD that the owner gave it, is u. -/
def State.passiveOffset (s : State) (o t eqd : Nat) : State :=
  match s.tandem.ranged.find o with
  | none => s
  | some rt => s.modTandem (fun w => { w with
      ranged := w.ranged.del o, u := w.u.put o ((rt - ((s.tEq t : Int) * 16 - 560000 - signedOf 32 eqd)) / 16) })

/-- A record with what its engine kept on the owner. -/
def AllocRec.withEngine (r : AllocRec) (ws : List Word) : AllocRec :=
  let f := fun (i : Nat) => (ws.getD i 0).toNat
  let recent := (List.range ((ws.length - 12) / 3)).map (fun i => (f (12 + 3 * i) * 2 ^ 32 + f (13 + 3 * i), f (14 + 3 * i)))
  { r with
    report := f 0, fresh := decide (f 1 = 1), since := f 2, lastGrant := f 3, sent := f 4, tmFull := decide (f 5 = 1), lastQ := f 6
    leftOut := decide (f 7 = 1), demand := f 8, idle := f 9, tagNa := f 10, tagBe := f 11, recent := recent }

/-- A tributary as mirrored; its stores start as a new one's. -/
def mirroredTrib (onu port : Nat) (skein : Option Nat) (members : List (Nat × Nat)) (ws : List Word) : Trib :=
  let f := fun (i : Nat) => (ws.getD i 0).toNat
  { onu := onu, port := port, skein := skein, members := members, nd := f 0, q := f 1, ppm := f 2, wl := f 3, wh := f 4
    cadence := decide (f 5 = 1), udp := f 6, payload := f 7, playout := f 8, elastic := centred (f 3) (f 4), slipped := false, down := false
    lostRun := 0, goodRun := 0, csf := false, csfRx := false, jc := 0, jcRx := 0, mfi := 0, aligning := [], seqRx := none, seqTx := 0
    plays := [], upBits := [], pwEvent := none, inbox := [], lossRx := false, built := none }

def phaseOf (n : Nat) : OnuPhase :=
  [OnuPhase.provisioned, .assigned, .ranging, .registering, .keying, .operation, .lost, .disabled].getD n .provisioned

/-- A mirrored item takes effect on the standby (R453). -/
def State.applyMirror (s : State) (t : Nat) (m : MirrorItem) : State :=
  match m with
  | .config ws => s.modTndTree t (fun x => { x with peerCfg := some ws })
  | .protect on => (s.modTndTree t (fun x => { x with peerWant := on })).protectIfBoth t
  | .whole => (s.clearTree t).modTndTree t (fun x => { x with resyncing := true })
  | .regs [] => s
  | .regs (v :: vs) => ((mirrorRegs t).zip vs).foldl (fun s p => s.mirrorReg p.1.1 p.1.2 p.2) (s.setFld .pchTreeOffset t v.toNat)
  | .grid on n => s.mirrorGrid t on n.toNat
  | .onu o place auto reg wl down id serial ph eqd slot since asked =>
    let s := s.passiveOffset o.toNat t eqd.toNat
    let at_ := fun (v : Word) => ((s.elapsed : Int) + v.toInt * usSpan 1).toNat
    let base := match s.onu o.toNat with
      | some x => x
      | none => newOnu place.toNat t wl.toNat id.toNat serial.toNat reg auto
    let x := { base with slot := place.toNat, auto := auto, regId := reg, tree := t, wl := wl.toNat, downWl := down.toNat, onuId := id.toNat, serial := serial.toNat, phase := phaseOf ph.toNat
                         eqd := eqd.toNat, keySlot := slot.toNat, since := at_ since, asked := at_ asked }
    (s.setOnu o.toNat x).setIdent t 0 id.toNat (some (.bound o.toNat))
  | .onuGone o => { s with pon := { s.pon with onus := s.pon.onus.del o.toNat } }
  | .port o p kind dir =>
    let s := s.setIdent t 2 p.toNat (some (.bound o.toNat))
    { s with pon := { s.pon with ports := s.pon.ports.put (t * 65536 + p.toNat) ⟨kind.toNat, dir.toNat, none⟩ } }
  | .portGone _ p =>
    let s := s.setIdent t 2 p.toNat none
    { s with pon := { s.pon with ports := s.pon.ports.del (t * 65536 + p.toNat), rsm := s.pon.rsm.del (t * 65536 + p.toNat) } }
  | .rest kind v us => s.setIdent t (kind.toNat % 3) v.toNat (some (.resting (s.elapsed + usSpan us.toNat)))
  | .alloc k o a p member =>
    let old := s.pon.allocs.find k.toNat
    if old.all (fun r => r.tree = t) then
      let base := match old with
        | some r => if r.allocId = a.toNat then r else newRec t o.toNat a.toNat 0
        | none => newRec t o.toNat a.toNat 0
      ((s.setIdent t 1 a.toNat (some (.bound o.toNat))).setRec k.toNat { base.withWords p with member := member.map BitVec.toNat })
    else s
  | .allocGone _ a =>
    let s := s.setIdent t 1 a.toNat none
    { s with pon := { s.pon with allocs := s.pon.allocs.filter (fun p => !(p.2.tree = t && p.2.allocId = a.toNat)) } }
  | .fence o target m us k =>
    s.modOnu o.toNat (fun x => { x with migration := some ⟨target.map BitVec.toNat, m.toNat, s.elapsed + usSpan us.toNat, k.toNat, false⟩ })
  | .hint k first frames bytes =>
    match s.hintPlace (dieOfTree t) with
    | some p => { s with pon := { s.pon with hints := s.pon.hints.put p ⟨k.toNat, first.toNat, frames.toNat, bytes.toNat, 0, none⟩ } }
    | none => s
  | .arm o start left =>
    match s.onu o.toNat with
    | some x => s.setArms x.chan (s.arms x.chan ++ [⟨o.toNat, start.map BitVec.toNat, left.toNat⟩])
    | none => s
  | .window c onu n j start len =>
    let old := (s.windows c.toNat).filter (fun w => w.frame != n.toNat)
    s.setWindows c.toNat (old ++ [⟨onu.map BitVec.toNat, n.toNat, j.toNat, start.toNat, len.toNat⟩])
  | .windowGone c n => s.setWindows c.toNat ((s.windows c.toNat).filter (fun w => w.frame != n.toNat))
  | .silent n =>
    let l := (Tbl.getD s.pon.disabled t []).filter (fun k => k != n.toNat) ++ [n.toNat]
    { s with pon := { s.pon with disabled := s.pon.disabled.setD t [] l } }
  | .silentGone n =>
    { s with pon := { s.pon with disabled := s.pon.disabled.setD t [] ((Tbl.getD s.pon.disabled t []).filter (fun k => k != n.toNat)) } }
  | .skein o k anchor ms =>
    let ms := ms.map (fun m => (m.1.toNat, m.2.toNat))
    let j : SkeinOnu := match s.skeinOnus.find o.toNat with
      | some j => { j with skein := k.toNat, anchor := anchor.toNat, members := ms }
      | none => ⟨k.toNat, anchor.toNat, ms, 0, none, [], none, []⟩
    { s with skeinOnus := s.skeinOnus.put o.toNat j }
  | .skeinGone o => { s with skeinOnus := s.skeinOnus.del o.toNat }
  | .trib i o p k ms ws =>
    let s := match ws[9]? with
      | some w => s.setReg .cadDlnCfg i.toNat w
      | none => s
    s.setTrib i.toNat (mirroredTrib o.toNat p.toNat (k.map BitVec.toNat) (ms.map (fun m => (m.1.toNat, m.2.toNat))) ws)
  | .tribGone i => { s with tribs := s.tribs.del i.toNat }
  | .virtual c place v =>
    { s with pon := { s.pon with vts := s.pon.vts.setD (c.toNat * 16 + place.toNat) 0 v.toNat } }
  | .engine k ws =>
    match s.pon.allocs.find k.toNat with
    | some r => if r.tree = t then s.setRec k.toNat (r.withEngine ws) else s
    | none => s

/-! ### Pairing (R440, R441, R463) -/

/-- A seek starts: it waits for 2 µs of HLT_PEER_N high (R450). -/
def State.seek (s : State) : State := if s.fld .tndPairStatHalter 0 = 0 then s.setFld .tndPairStatHalter 0 1 else s

/-- R450: with auto the device seeks when the peer's halter is sensed released: as it rises, and where auto is set while it is high (log
entry 79). -/
def State.autoSeek (s : State) : State :=
  if s.flag .tndPairCfgAuto 0 ∧ s.pin .hltPeerN 0 = 1 then s.seek else s

/-- R463: TANDEM.PAIR. -/
def execTandemPair (h : Hdr) (peer auto divThr lossThr : Word) (s : State) : Host.Outcome State Fault Refusal :=
  .next (command h 0x0E00 (.owner 6) (fun _ s =>
    if 1023 < peer.toNat ∨ peer.toNat = s.fld .sysDevnumDevnum 0 ∨ !flagOk auto ∨ divThr.toNat < 1 ∨ 15 < divThr.toNat
        ∨ lossThr.toNat < 1 ∨ 255 < lossThr.toNat then .fail s .badParam
    else s.unlessClaimed [(6, .tnd)] (
      let s := ((s.setFld .tndPairCfgPeer 0 peer.toNat).setFld .tndPairCfgAuto 0 auto.toNat).setFld .tndPairCfgDivThr 0 divThr.toNat
      let s := (s.setFld .tndPairCfgLossThr 0 lossThr.toNat).setFlag .tndPairCfgEn 0 true
      let s := s.autoSeek
      .ok (s.modTandem (fun w => { w with ephemeral := none })).sendPair)) s)

/-- R441, R463: TANDEM.UNPAIR: the pair key is erased and protection ends on every tree. -/
def execTandemUnpair (h : Hdr) (s : State) : Host.Outcome State Fault Refusal :=
  .next (command h 0x0E01 (.owner 6) (fun _ s => s.unlessClaimed [(6, .tnd)] (
    let s := (protectedTrees s).foldl State.unprotect s
    let s := s.modTandem (fun w => { w with trees := [] })
    .ok ((s.setPaired none).setFlag .tndPairCfgEn 0 false))) s)

/-- R441: the peer's pair record; a failed check leaves the devices unpaired, as does an identity key that has been
zeroized (R560). -/
def State.pairRx (s : State) (dev : Nat) (senior authOk : Bool) (pub : List Word) : State :=
  if !s.flag .tndPairCfgEn 0 then s
  else if dev ≠ s.fld .tndPairCfgPeer 0 then s.report .tndPairBad 0 .tndPairBad 6 0
  else if senior = (s.pin .hltSenior 0 = 1) then s.report .tndSeniorBad 0 .tndSeniorBad 6 0
  else if !authOk ∨ s.cipher.identity.isNone then s.report .tndAuthFail 0 .tndAuthFail 6 0
  else
    let s := s.sendPair
    match s.tandem.ephemeral with
    | none => s
    | some d =>
      let k := Config.standard 2 [Config.standard 5 [d, wordsNat pub]] % 2 ^ 256
      let s := s.setPaired (some k)
      (List.range 32).foldl (fun s t => (s.modTndTree t (fun x => { x with told := [] })).tellConfig t) s

/-! ### The tandem commands on trees (R442, R454, R463) -/

def dfeedOk (w : Word) : Bool := (signedOf 32 w.toNat).natAbs ≤ 200000

/-- R442, R463: TANDEM.TREE_PROTECT. -/
def execTandemTreeProtect (h : Hdr) (tree on dfeed : Word) (s : State) : Host.Outcome State Fault Refusal :=
  .next (command h 0x0E02 (.owner (dieOfTree (tree.toNat % 32))) (fun _ s =>
    let t := tree.toNat
    let x := s.tndTree t
    if 31 < t ∨ !flagOk on ∨ !dfeedOk dfeed then .fail s .badParam
    else if on = 1 ∧ (!s.flag .tndPairStatPaired 0 ∨ s.fld .gntTreeCfgCutoff t < 20 ∨ x.peerCfg ≠ some (s.pairConfig t)) then
      .fail s .badParam
    else s.unlessClaimed [(6, .tnd)] (
      let s := s.setFld .tndTreeCfgDfeed t (unsignedOf 19 (signedOf 32 dfeed.toNat))
      let s := ((s.tellConfig t).modTndTree t (fun x => { x with want := decide (on = 1) })).tellNamed t
      .ok (s.protectIfBoth t))) s)

/-- R454, R463: TANDEM.RESYNC. -/
def execTandemResync (h : Hdr) (tree : Word) (s : State) : Host.Outcome State Fault Refusal :=
  .next (command h 0x0E05 (.owner (dieOfTree (tree.toNat % 32))) (fun caller s =>
    let t := tree.toNat
    if 31 < t ∨ !s.protected t then .fail s .badParam
    else s.unlessClaimed [(6, .tnd)] (
      if (s.tndTree t).resync.isSome ∨ s.asyncFull then .fail s .busy
      else
        let s := s.setFlag .tndTreeStatReady t false
        let s := s.modTndTree t (fun x => { x with resync := some caller, startAt := none })
        .accepted (s.sendTree t))) s)

/-- R463: TANDEM.STATUS: TND_PAIR_STAT, the trees' status words, the counters (log entry 8). -/
def State.tndPairStat (s : State) : Word :=
  let lanes := ((List.range 8).map (fun l => if s.laneState 3 l = 3 then 2 ^ l else 0)).sum
  withField 8 8 (withField 5 1 (withField 4 1 (s.reg .tndPairStat 0) (1 - s.pin .hltPeerN 0)) (s.pin .hltSenior 0)) lanes

def tandemCounters : List Ctr :=
  [.tndAuthFail, .tndCfgReject, .tndCutLate, .tndDevnumDup, .tndDiverge, .tndDrillFail, .tndEqdNeg, .tndHalterContend,
    .tndHalterLost, .tndLinkDown, .tndPairBad, .tndResendFail, .tndSeniorBad, .tndTakeover, .tndUnreadyDeact]

/-- The link's counters that each lane has of its own (R129, R443). -/
def tandemLaneCounters : List Ctr := [.tndCrcBad, .tndDlnAbandon, .tndDlnLoss]

def execTandemStatus (h : Hdr) (s : State) : Host.Outcome State Fault Refusal :=
  .next (command h 0x0E07 (.owner 6) (fun _ s =>
    .ok s (s.tndPairStat :: (List.range 32).map (s.reg .tndTreeStat) ++ tandemCounters.flatMap (fun c => ctrWords (s.ctr c 0))
      ++ tandemLaneCounters.flatMap (fun c => (List.range 8).flatMap (fun l => ctrWords (s.ctr c l))))) s)

/-- R446, R463: TANDEM.DLN_SET; the setting is the lane's die's (R136). -/
def execTandemDlnSet (h : Hdr) (lane delta alpha : Word) (s : State) : Host.Outcome State Fault Refusal :=
  .next (command h 0x0E08 (.owner (dieOfTLane (lane.toNat % 8))) (fun _ s =>
    let d := dieOfTLane lane.toNat
    if 7 < lane.toNat ∨ delta.toNat < 1 ∨ 7 < delta.toNat ∨ alpha.toNat < 1 ∨ 15 < alpha.toNat then .fail s .badParam
    else s.unlessClaimed [(d, .tnd)] (.ok ((s.setFld .tndDlnCfgDelta d delta.toNat).setFld .tndDlnCfgAlpha d alpha.toNat))) s)

/-! ### The halter (R449-R452) -/

/-- R463: TANDEM.TAKE; with the peer's halter sensed low the peer keeps it (log entry 79). -/
def execTandemTake (h : Hdr) (s : State) : Host.Outcome State Fault Refusal :=
  .next (command h 0x0E03 (.owner 6) (fun caller s => s.unlessClaimed [(6, .tnd)] (
    if s.tandem.take.isSome ∨ s.asyncFull then .fail s .busy
    else
      let done := fun (st : Status) => (⟨(s.answer caller .accepted []).answer caller st [], st, [], true⟩ : Res)
      if s.ownsHalter then done .ok
      else if s.pin .hltPeerN 0 = 0 then done .busy
      else .accepted (s.seek.modTandem (fun w => { w with take := some caller })))) s)

/-- The command that waits for ownership ends. -/
def State.takeDone (s : State) (st : Status) : State :=
  match s.tandem.take with
  | some c => (s.modTandem (fun w => { w with take := none })).answer c st []
  | none => s

/-- R452, R463: TANDEM.RELEASE. -/
def execTandemRelease (h : Hdr) (s : State) : Host.Outcome State Fault Refusal :=
  .next (command h 0x0E04 (.owner 6) (fun _ s => s.unlessClaimed [(6, .tnd)] (.ok (s.takeDone .busy).giveUpHalter)) s)

/-- R450: contention: the senior holds; the junior releases and has lost. -/
def State.contend (s : State) : State :=
  if s.pin .hltSenior 0 = 1 then s.setFld .tndPairStatHalter 0 4
  else
    let s := (s.drive .hltOwnN 0 1).setFld .tndPairStatHalter 0 0
    (s.report .tndHalterContend 0 .tndHalterContend 6 0).takeDone .busy

/-- R459: ONUs get their new equalization delays: those whose 2 × u exceeds the channel's drift_tol; one whose new value
would be negative is activated again. -/
def State.newEqd (s : State) (o : Nat) : State :=
  match s.onu o, s.tandem.u.find o with
  | some x, some u =>
    let s := s.modTandem (fun w => { w with u := w.u.del o })
    if (2 * u).natAbs * s.uiRate x.chan (s.fld .actChCfgSnPrf x.chan) ≤ s.fld .brxChCfgDriftTol x.chan * 100000 then s
    else
      let e := signedOf 32 x.eqd - 32 * u
      if e < 0 then ((s.report .tndEqdNeg 0 .tndEqdNeg 6 o).deactivate o .provisioned).assign o
      else
        let s := s.sendEqd x.chan x.onuId e.toNat
        let s := s.modOnu o (fun x => { x with eqd := e.toNat })
        s.modTandem (fun w => { w with accept := w.accept.put o (none, 2 * u) })
  | _, _ => s

/-- R459: the steps on gaining ownership. -/
def State.takeover (s : State) : State :=
  let s := s.report .tndTakeover 0 .tndTakeover 6 0
  let ts := protectedTrees s
  let unready := (ts.filter (fun t => !s.flag .tndTreeStatReady t)).map (fun t => (t, ()))
  let s := s.modTandem (fun w => { w with
    lightAt := ts.map (fun t => (t, s.elapsed + usSpan 10)), figUntil := s.elapsed + 8 * frameSpan, unready := unready })
  let s := ts.foldl (fun s t => s.modTndTree t (fun x => { x with startAt := none, lostOnus := 0, missed := 0, maxR := 0 })) s
  let os := ts.flatMap (fun t => ((s.onusOf t).filter (fun p => decide (3 ≤ phaseCode p.2.phase ∧ phaseCode p.2.phase ≤ 6))).map Prod.fst)
  let s := os.foldl State.newEqd s
  ts.foldl State.sendTree s

/-- R450: the device owns the halter. -/
def State.gainHalter (s : State) : State :=
  (((s.setFld .tndPairStatHalter 0 3).raise .tndHalterOwn 6 0).takeDone .ok).takeover

/-- The contention window is over: 1 µs since HLT_OWN_N was driven low (R450). -/
def State.windowShut (s : State) : Bool := s.tandem.haltAt + usSpan 1 ≤ s.elapsed

/-- R450: the end of the contention window. -/
def execHalterOwn (s : State) : Host.Outcome State Fault Refusal :=
  if s.fld .tndPairStatHalter 0 = 2 ∧ s.windowShut then
    .next (if s.pin .hltPeerN 0 = 1 then s.gainHalter else s.contend)
  else .next s

/-- R450: HLT_PEER_N has been high for 2 µs, counted from when it rose (log entry 79). -/
def execHalterSeekDrive (s : State) : Host.Outcome State Fault Refusal :=
  if s.fld .tndPairStatHalter 0 = 1 ∧ s.pin .hltPeerN 0 = 1 ∧ s.tandem.peerAt + usSpan 2 ≤ s.elapsed then
    .next (((s.drive .hltOwnN 0 0).setFld .tndPairStatHalter 0 2).modTandem (fun w => { w with haltAt := s.elapsed }))
  else .next s

/-- R452: 100 ns after OPT_TXEN is deasserted HLT_OWN_N is released. -/
def execHalterReleasePin (s : State) : Host.Outcome State Fault Refusal :=
  if s.fld .tndPairStatHalter 0 < 2 ∧ s.tandem.haltAt + nsSpan 100 ≤ s.elapsed then .next (s.drive .hltOwnN 0 1) else .next s

/-- Protected channels go dark while the gate is closed (R451). -/
def State.closeGate (s : State) : State :=
  (List.range 128).foldl (fun s c => if !s.gateOpen (treeOfChan c) ∧ s.pin .optTxen c = 1 then s.darken c else s) s

/-- The device takes the trees back in a drill (R461). -/
def State.takeBack (s : State) (d : Drill) : State :=
  let s := s.modTandem (fun w => { w with drill := some { d with phase := 2 } })
  (s.sendRecord 0x30 (.drill 1 [])).seek

/-- R461: the peer cannot keep the trees. -/
def State.drillFailed (s : State) : State :=
  match s.tandem.drill with
  | some d => if d.phase < 2 then (s.report .tndDrillFail 0 .tndDrillFail 6 0).takeBack d else s
  | none => s

/-- R449, R450, R462: HLT_PEER_N after its filter. A device that drives HLT_OWN_N low, having lost the halter or held it in contention,
owns as soon as the peer's is high again. -/
def execHalterPeerChange (high : Bool) (s : State) : Host.Outcome State Fault Refusal :=
  if (s.pin .hltPeerN 0 = 1) = high then .next s
  else
    let drill := s.tandem.drill
    let s := s.drive .hltPeerN 0 high.toNat
    let st := s.fld .tndPairStatHalter 0
    if high then
      let s := s.modTandem (fun w => { w with peerAt := s.elapsed })
      let s := if st = 2 ∨ st = 4 then (if s.windowShut then s.gainHalter else s.setFld .tndPairStatHalter 0 2) else s.autoSeek
      match drill with
      | some d => .next (if d.phase = 1 then s.drillFailed else s)
      | none => .next s
    else
      let s := s.closeGate
      if st = 3 then
        let s := s.report .tndHalterLost 0 .tndHalterLost 6 0
        .next (s.setFld .tndPairStatHalter 0 (if s.pin .hltSenior 0 = 1 then 4 else 2))
      else if st = 2 then .next s.contend
      else match drill with
        | some d => .next (if d.phase = 0 then s.modTandem (fun w => { w with drill := some { d with phase := 1, since := s.elapsed } }) else s)
        | none => .next s

/-- A drill's figures of this device, by protected tree: ONUs lost, bursts missed in the first 8 frames, largest |r|. -/
def State.drillFigures (s : State) : List Nat :=
  (protectedTrees s).flatMap (fun t => let x := s.tndTree t; [t, x.lostOnus, x.missed, x.maxR])

/-- R461: TANDEM.EXERCISE. -/
def execTandemExercise (h : Hdr) (dwell : Word) (s : State) : Host.Outcome State Fault Refusal :=
  .next (command h 0x0E06 (.owner 6) (fun caller s =>
    if dwell.toNat < 8 ∨ 65535 < dwell.toNat then .fail s .badParam
    else s.unlessClaimed [(6, .tnd)] (
      let ts := protectedTrees s
      if !s.ownsHalter ∨ ts.any (fun t => !s.flag .tndTreeStatReady t) ∨ s.tandem.drill.isSome ∨ s.asyncFull then .fail s .busy
      else
        let s := s.modTandem (fun w => { w with drill := some ⟨caller, dwell.toNat, 0, 0, []⟩ })
        .accepted (s.sendRecord 0x30 (.drill 0 [])).giveUpHalter)) s)

/-- R461: the dwell ends and the trees are taken back. -/
def execDrillDwellEnd (s : State) : Host.Outcome State Fault Refusal :=
  match s.tandem.drill with
  | some d => if d.phase = 1 ∧ d.since + d.dwell * frameSpan ≤ s.elapsed then .next (s.takeBack d) else .next s
  | none => .next s

/-- Eight frames after a takeover: the device that took over for a drill tells its figures, the drill's owner reports both. -/
def State.drillReport (s : State) : State :=
  if s.tandem.figUntil = 0 ∨ s.elapsed < s.tandem.figUntil then s
  else
    let s := s.modTandem (fun w => { w with figUntil := 0 })
    match s.tandem.drill with
    | some d =>
      if d.phase = 2 ∧ s.ownsHalter then
        (s.modTandem (fun w => { w with drill := none })).answer d.caller .ok ((s.drillFigures ++ d.peer).map (BitVec.ofNat 32))
      else s
    | none => s.sendRecord 0x30 (.drill 3 s.drillFigures)

/-- R459: the dual-offset acceptance of an ONU ends 8 frames after the one that carried its message. -/
def execAcceptWindowEnd (onu : Onu) (s : State) : Host.Outcome State Fault Refusal :=
  let o := onu.toNat
  match s.onu o, s.tandem.accept.find o with
  | some x, some (some n, _) => .next (if s.framesTo x.tree n ≤ 0 then s.modTandem (fun w => { w with accept := w.accept.del o }) else s)
  | _, _ => .next s

/-! ### Digests and verdicts (R456-R458) -/

/-- R457: a channel's self-check fails in this frame. -/
def State.selfFails (s : State) (c : Nat) : Bool :=
  let x := s.tndChan c
  let die := dieOfChan c
  x.cause || s.laneState 0 c != 3 || s.laneState 1 c != 3 || s.pin .refclkPon (die - 2) = 0 || s.clusterOut die
    || (s.fld .secStatZdie 0).testBit die || s.flag .secStatZpkg 0 || decide (s.fld .tndPairCfgLossThr 0 < x.lost)

/-- The digest of R456 over a map and the decoded reports; CRC-32C over encodings the spec does not give (log entry 2). -/
def digestOf (map : List AllocStruct) (reports : List (Nat × Nat)) : Nat :=
  let m := Config.standard 30 (map.flatMap (fun a => [a.allocId, a.start, a.size, a.dbru.toNat, a.ploamu.toNat, a.profile]))
  let r := Config.standard 30 ((sortOn Prod.fst reports).flatMap (fun p => [p.1, p.2]))
  m % 2 ^ 32 * 2 ^ 32 + r % 2 ^ 32

/-- R467: mis and selfchk of a tree follow its channels. -/
def State.treeVerdicts (s : State) (t : Nat) : State :=
  let xs := (chansOfTree t).map s.tndChan
  (s.setFld .tndTreeStatMis t (min 15 ((xs.map (fun x => x.mis)).foldl max 0))).setFlag .tndTreeStatSelfchk t (xs.any (fun x => x.selfBad))

/-- R452, R458: the owner yields. -/
def State.yieldHalter (s : State) : State := (s.sendRecord 0x21 .yield_).giveUpHalter

/-- R458: the verdict on a divergence. -/
def State.verdict (s : State) (c : Nat) : State :=
  let x := s.tndChan c
  let s := s.report .tndDiverge 0 .tndDiverge 6 c
  if s.ownsHalter then
    if x.selfBad ∧ !x.peerBad ∧ (protectedTrees s).all (s.flag .tndTreeStatReady) then s.yieldHalter else s
  else if x.selfBad ∧ !x.peerBad then
    let t := treeOfChan c
    (s.setFlag .tndTreeStatReady t false).modTndTree t (fun x => { x with startAt := none })
  else s

/-- R454: the cutoff that started lockstep has passed with matching digests. -/
def State.becomesReady (s : State) (t f : Nat) : State :=
  let x := s.tndTree t
  match x.startAt with
  | none => s
  | some f0 =>
    if s.treeBarred t ∧ 0 ≤ signedOf 51 ((f + 1 + 2 ^ 51 - f0) % 2 ^ 51)
        ∧ (chansOfTree t).all (fun c => (s.tndChan c).mis = 0) ∧ !s.flag .tndTreeStatReady t then
      let s := s.setFlag .tndTreeStatReady t true
      match x.resync with
      | some c => (s.modTndTree t (fun x => { x with resync := none })).answer c .ok []
      | none => s
    else s

/-- A frame's comparison of a channel, matching or not. -/
def State.judge (s : State) (c f : Nat) (equal selfBad peerBad : Bool) : State :=
  let t := treeOfChan c
  if equal then
    let s := s.modTndChan c (fun x => { x with mine := none, peer := none, mis := 0, selfBad := false, peerBad := false, judged := false })
    (s.treeVerdicts t).becomesReady t f
  else
    let s := s.modTndChan c (fun x => { x with mine := none, peer := none, mis := x.mis + 1
                                               selfBad := x.selfBad || selfBad, peerBad := x.peerBad || peerBad })
    let s := s.treeVerdicts t
    let x := s.tndChan c
    if s.fld .tndPairCfgDivThr 0 ≤ x.mis ∧ !x.judged then (s.modTndChan c (fun x => { x with judged := true })).verdict c else s

/-- Both digests of a frame are there. -/
def State.compareDigests (s : State) (c : Nat) : State :=
  let x := s.tndChan c
  match x.mine, x.peer with
  | some (f, v, a), some (g, u, b) => if f = g then s.judge c f (v = u) a b else s
  | _, _ => s

/-- The map deadline of a protected tree: each framing channel's digest is formed, sent and compared; while the link is
down nothing is (R447, R456). -/
def State.formDigests (s : State) (t : Nat) : State :=
  let n := s.treeCount t
  let maps : List (Nat × List AllocStruct) := match s.pon.calcs.find t with
    | some k => k.maps.getD []
    | none => []
  if !s.protected t then s
  else (chansOfTree t).foldl (fun s c =>
    let x := s.tndChan c
    let bad := s.selfFails c
    let v := digestOf (Tbl.getD maps c []) x.reports
    let s := s.modTndChan c (fun x => { x with cause := false, lost := 0, reports := [] })
    if s.flag .tndPairStatLink 0 ∧ s.framing c then
      ((s.modTndChan c (fun x => { x with mine := some (n, v, bad) })).send (.digest c n v bad)).compareDigests c
    else s) s

/-- R456: a digest absent by B + 50 µs, B the start of the frame whose map it covers, counts as a mismatch while the link is up. -/
def execDigestTimeout (c : Chan) (s : State) : Host.Outcome State Fault Refusal :=
  let c := c.toNat
  match (s.tndChan c).mine with
  | some (f, _, a) => if s.flag .tndPairStatLink 0 ∧ s.frameElapsed (treeOfChan c) ((f + 1) % 2 ^ 51) + usSpan 50 ≤ s.elapsed then .next (s.judge c f false a false) else .next s
  | none => .next s

/-! ### Lockstep (R454, R455) -/

/-- A report record as the owner's engine took it: occupancy or usage by the record's mode, dated by its arrival. -/
def State.placeReport (s : State) (k bytes arrival : Nat) : State :=
  match s.pon.allocs.find k with
  | none => s
  | some r =>
    if r.rpt = 2 then s.reportRx k (.usage (BitVec.ofNat 32 bytes) (decide (r.lastGrant ≤ bytes)))
    else
      let t := r.tree
      let d := signedOf 32 ((arrival + 2 ^ 32 - shortOf ((s.tree t).startTime + nsSpan (s.tEq t))) % 2 ^ 32)
      let n := ((s.treeCount t : Int) + d / 125000) % (2 ^ 51 : Nat)
      s.reportRx k (.dbru (BitVec.ofNat 32 bytes) (BitVec.ofNat 51 n.toNat))

/-- R455: once all that the cut record counts is there, the standby takes its snapshot with exactly those records. The first that follows
the whole state, and is in time, starts lockstep (R454). -/
def State.tryCut (s : State) (t : Nat) : State :=
  let x := s.tndTree t
  match x.cut with
  | none => s
  | some (n, reports, mirrors) =>
    if x.reports.length < reports ∨ x.mirrors.length < mirrors then s
    else
      let s := (x.mirrors.take mirrors).foldl (fun s (m : Nat × MirrorItem) => s.applyMirror t m.2) s
      let s := (x.reports.take reports).foldl (fun s (r : Nat × Nat × Nat) => s.placeReport r.1 r.2.1 r.2.2) s
      let x := s.tndTree t
      let inTime := s.launchPending t || decide (s.framesTo t n = 1)
      let start := if x.startAt.isNone ∧ x.resyncing ∧ inTime then some n else x.startAt
      let s := s.setTndTree t { x with cut := none, doneCut := some n, startAt := start, resyncing := x.resyncing && start.isNone
                                       reports := x.reports.drop reports, mirrors := x.mirrors.drop mirrors }
      if start.isSome ∧ (s.launched t ∨ s.launchPending t) then (s.cutoff t n).wake 2 t else s

/-- R455: the map deadline with the cut record, or something it counts, missing: the tree reads not ready. -/
def State.cutDeadline (s : State) (t : Nat) : State :=
  let n := (s.treeCount t + 1) % 2 ^ 51
  if s.lockstep t ∧ (s.tndTree t).doneCut ≠ some n then
    let s := (s.setFlag .tndTreeStatReady t false).modTndTree t (fun x => { x with startAt := none })
    s.report .tndCutLate 0 .tndLockstep 6 t
  else s

/-! ### The tandem link (R443-R448) -/

/-- The stream of a record; unreliable records have none. -/
def recordStream : TndRecord → Option Nat
  | .pair .. => some 0x01
  | .mirror .. => some 0x10
  | .report .. => some 0x11
  | .cut .. => some 0x12
  | .key .. => some 0x13
  | .yield => some 0x21
  | .drill .. => some 0x30
  | .ack .. | .heartbeat .. | .digest .. => none

/-- A key record (R453): unwrapped under the pair key and installed, with the switch it announces. -/
def State.keyRx (s : State) (kind owner slot : Nat) (wrapped : List Word) (switch : Option Nat) : State :=
  let t := if kind = 5 then owner % 32 else ((s.onu owner).map (fun x => x.tree)).getD 0
  let half := halfOfTree t
  let die := dieOfTree t
  let k : KeyKind := match kind with
    | 0 => .msk | 1 => .kek | 2 => .omciIk | 3 => .ploamIk | 4 => .unicast slot | _ => .broadcast slot
  let s := match unwrap s.tandem.pairKey false wrapped, s.tandem.pairKey with
    | some v, some _ =>
      if s.tampered ∨ wrapped.length < 3 then s
      else s.installKeys ((s.freeHandles half 1).zip [⟨k, owner, die, v, 32 * (wrapped.length - 2), 0, true⟩])
    | _, _ => s
  match switch with
  | none => s
  | some n =>
    if kind = 4 then s.modOnu owner (fun x => { x with keySwitch := some (n, slot) })
    else if kind = 5 then s.modCipher (fun c => { c with bcast := c.bcast.put t ((s.bcastOf t).1, some (n, slot)) })
    else s

/-- A drill record of the peer (R461). -/
def State.drillRx (s : State) (phase : Nat) (figures : List Word) : State :=
  if phase = 0 then s.seek
  else if phase = 1 then s.giveUpHalter
  else if phase = 2 then s.drillFailed
  else s.modTandem (fun w => { w with drill := w.drill.map (fun d => { d with peer := figures.map BitVec.toNat }) })

/-- A heartbeat: the link is up; the owner learns which trees the standby has ready, and resynchronises after an outage. -/
def State.heartbeatRx (s : State) (ready : Nat) : State :=
  let s := s.modTandem (fun w => { w with lastBeat := s.elapsed })
  let s := if s.flag .tndPairStatLink 0 then s
    else let s := s.setFlag .tndPairStatLink 0 true; (protectedTrees s).foldl State.sendTree s
  if s.ownsHalter then
    (protectedTrees s).foldl (fun s t =>
      let s := s.setFlag .tndTreeStatReady t (ready.testBit t)
      match ready.testBit t, (s.tndTree t).resync with
      | true, some c => (s.modTndTree t (fun x => { x with resync := none })).answer c .ok []
      | _, _ => s) s
  else s

/-- A record reaches its consumer. -/
def State.consume (s : State) (r : TndRecord) : State :=
  match r with
  | .pair dev senior ok pub => s.pairRx dev.toNat senior ok pub
  | .ack stream seq => s.modTandem (fun w => { w with unacked := w.unacked.filter (fun u => !(u.stream = stream.toNat && u.seq = seq.toNat)) })
  | .heartbeat _ ready => s.heartbeatRx ready.toNat
  | .mirror t eff item =>
    let t := t.toNat
    match item with
    | .protect _ => s.applyMirror t item
    | _ => if s.treeBarred t then (s.modTndTree t (fun x => { x with mirrors := x.mirrors ++ [(eff.toNat, item)] })).tryCut t
      else match item with
        | .config _ => s.applyMirror t item
        | _ => s
  | .report k bytes arrival =>
    match s.pon.allocs.find k.toNat with
    | some a => if s.treeBarred a.tree then
        (s.modTndTree a.tree (fun x => { x with reports := x.reports ++ [(k.toNat, bytes.toNat, arrival.toNat)] })).tryCut a.tree else s
    | none => s
  | .cut t n reports mirrors =>
    if s.treeBarred t.toNat then
      (s.modTndTree t.toNat (fun x =>
        let old := (x.cut.map Prod.snd).getD (0, 0)
        { x with cut := some (n.toNat, old.1 + reports.toNat, old.2 + mirrors.toNat) })).tryCut t.toNat
    else s
  | .key kind owner slot wrapped switch => s.keyRx kind.toNat owner.toNat slot.toNat wrapped (switch.map BitVec.toNat)
  | .digest c f v bad =>
    if s.protected (treeOfChan c.toNat) ∧ s.flag .tndPairStatLink 0 then
      (s.modTndChan c.toNat (fun x => { x with peer := some (f.toNat, v.toNat, bad) })).compareDigests c.toNat
    else s
  | .yield => s.seek
  | .drill phase figures => s.drillRx phase.toNat figures

/-- Records held behind a gap follow in order (R447). -/
def State.drainStream (stream : Nat) : Nat → State → State
  | 0, s => s
  | n + 1, s =>
    let e := Tbl.getD s.tandem.rxSeq stream 0
    match s.tandem.ahead.find (stream * 2 ^ 28 + e) with
    | none => s
    | some r =>
      let s := s.modTandem (fun w => { w with ahead := w.ahead.del (stream * 2 ^ 28 + e), rxSeq := w.rxSeq.put stream ((e + 1) % 2 ^ 28) })
      State.drainStream stream n (s.consume r)

/-- R445, R446: a record as delineated; reliable streams are acknowledged and taken in order of seq. -/
def State.recordRx (s : State) (x : TndRx) : State :=
  match recordStream x.body with
  | none => s.consume x.body
  | some st =>
    let s := s.sendTandem (.tandemAck st x.seq.toNat)
    let e := Tbl.getD s.tandem.rxSeq st 0
    let d := signedOf 28 ((x.seq.toNat + 2 ^ 28 - e) % 2 ^ 28)
    if d < 0 then s
    else
      let s := s.modTandem (fun w => { w with ahead := w.ahead.put (st * 2 ^ 28 + x.seq.toNat) x.body })
      State.drainStream st (s.tandem.ahead.length) s

/-- R443, R444: a tandem frame on a lane that carries the peer's traffic (R104, R108). -/
def execTandemFrameRx (l : TLane) (fseq : Word) (crcOk : Bool) (heads : List XgemHead) (recs : List TndRx) (s : State) :
    Host.Outcome State Fault Refusal :=
  let i := l.toNat
  let d := dieOfTLane i
  if !s.tandemLaneHears i then .next s
  else if !crcOk then .next ((s.count .tndCrcBad i).raiseOnce .tndCrc d i)
  else
    let s := s.modTandem (fun w => { w with frames := w.frames.put i fseq.toNat })
    let o := Unit_.delineate ⟨2048, s.fld .tndDlnCfgDelta d, s.fld .tndDlnCfgAlpha d, heads, []⟩
    .next (o.foldl (fun s x => match x with
      | .frame h => match recs[h.name.toNat]? with
        | some r => s.toSequencer d 0 (.record r) (fun s => s.recordRx r)
        | none => s
      | .abandoned => s.count .tndDlnAbandon i
      | .loss => s.report .tndDlnLoss i .tndDlnLoss d i
      | .dropped | .hole => s) s)

/-- R445, R448: 50 µs after its last sending an unacknowledged record is sent again; after 8 sendings the link goes down. -/
def execRecordResend (stream : Byte) (seq : BitVec 28) (s : State) : Host.Outcome State Fault Refusal :=
  match s.tandem.unacked.find? (fun u => u.stream = stream.toNat && u.seq = seq.toNat) with
  | none => .next s
  | some u =>
    let mark := fun (n : Nat) (s : State) => s.modTandem (fun w => { w with
      unacked := w.unacked.map (fun v => if v = u then { u with sendings := n, sentAt := s.elapsed } else v) })
    if s.elapsed < u.sentAt + usSpan 50 then .next s
    else if 8 ≤ u.sendings then .next ((mark 0 (s.count .tndResendFail 0)).tandemDown)
    else .next ((mark (u.sendings + 1) s).sendTandem (.tandem u.stream u.seq u.body))

/-- R445: every 25 µs, on a lane that sends; with it goes what has changed of configurations that R442 compares. -/
def execHeartbeatSend (s : State) : Host.Outcome State Fault Refusal :=
  if (List.range 8).any s.tandemLaneSends ∧ s.tandem.beatAt + usSpan 25 ≤ s.elapsed then
    let s := (List.range 32).foldl State.tellConfig (s.modTandem (fun w => { w with beatAt := s.elapsed }))
    .next (s.send (.heartbeat (s.fld .tndPairStatHalter 0) ((protectedTrees s).filter (s.flag .tndTreeStatReady))))
  else .next s

/-- R447: no heartbeat for 500 µs. -/
def execHeartbeatTimeout (s : State) : Host.Outcome State Fault Refusal :=
  if s.tandem.lastBeat + usSpan 500 ≤ s.elapsed then .next s.tandemDown else .next s

end Sys2Proof.Machine
end

