-- ==== Sys2Proof/Machine/Frames.lean ====
section
/-!
DEFINITION. Downstream frames (R112-R128): the parts of a frame, the TC input buffer, key switches (R125, R213), the map
deadline (R138), and what the receiver is to expect (R171). Log entry 82.
-/

namespace Sys2Proof.Machine

/-! ### Keys by frame (R124-R127, R213) -/

/-- The key slot in force in a frame: the announced one from its count on. -/
def slotAt (n cur : Nat) (next : Option (Nat × Nat)) : Nat :=
  match next with
  | some (m, k) => if 0 ≤ signedOf 51 ((n + 2 ^ 51 - m % 2 ^ 51) % 2 ^ 51) then k else cur
  | none => cur

/-- R124, R126: the key index and key of an SDU for a port of a kind in frame n; none where the port is encrypted and the slot is empty. -/
def State.downKey (s : State) (c n o kind : Nat) : Option (Nat × Nat) :=
  let t := treeOfChan c
  let held := fun (slot : Nat) (k : Option (Nat × VKey)) =>
    if slot = 0 || s.flag .pchStatKeyZero c then none else k.map (fun p => (slot, p.2.value))
  if kind = 0 then some (0, 0)
  else if kind = 1 then
    let slot := ((s.onu o).map (fun x => slotAt n x.keySlot x.keySwitch)).getD 0
    held slot (s.unicastKey o slot)
  else
    let slot := slotAt n (s.bcastOf t).1 (s.bcastOf t).2
    held slot (s.keyOf (.broadcast slot) t)

/-- R213: the ONU's key arrives: it is unwrapped into the free slot, and the switch announced for a count at least 64 frames
on; a reply that fails to unwrap is a failed attempt, and so is one that finds the slot's old key held by fragments to be sent (R125; DESIGN
CHOICE, log entry 94). -/
def State.keyServed (s : State) (o : Nat) (wrapped : List Word) (fits : Bool) : State :=
  match s.onu o with
  | none => s
  | some x =>
    let half := halfOfTree x.tree
    let die := dieOfTree x.tree
    let slot := if x.keySlot = 1 then 2 else 1
    if !x.keyAsked ∨ s.treeBarred x.tree then s
    else if !fits ∨ s.slotHeld (.unicast slot) o slot ∨ s.cipher.kekErased.has o ∨ s.tampered ∨ s.clusterOut die ∨ !s.vaultRoom half 1 false then
      s.keyFailed o
    else
      let v := Config.standard 1 (s.kekOf o :: wrapped.map (·.toNat)) % 2 ^ 128
      let key : VKey := ⟨.unicast slot, o, die, v, 128, 0, true⟩
      let n := (s.treeCount x.tree + 65) % 2 ^ 51
      let s := (s.installKeys ((s.freeHandles half 1).zip [key])).tellKey key (some n)
      let s := s.offer x.chan ⟨.keyControl, some x.onuId, [1, n, slot]⟩
      s.modOnu o (fun x => { x with keySwitch := some (n, slot) })

def execKeyReply (onu : Onu) (wrapped : List Word) (fits : Bool) (s : State) : Host.Outcome State Fault Refusal :=
  match s.onu onu.toNat with
  | none => .next s
  | some x => .next (s.toActivation x.tree (.keyReply onu.toNat wrapped fits) (fun s => s.keyServed onu.toNat wrapped fits))

/-- R125, R213: an announced count is reached: the new slot is in force. -/
def execKeySwitch (t : Tree) (onu : Option Onu) (s : State) : Host.Outcome State Fault Refusal :=
  let t := t.toNat
  match onu with
  | none =>
    match (s.bcastOf t).2 with
    | some (n, k) => if s.framesTo t n ≤ 0 then .next (s.modCipher (fun c => { c with bcast := c.bcast.put t (k, none) })) else .next s
    | none => .next s
  | some o =>
    let o := o.toNat
    match s.onu o with
    | none => .next s
    | some x =>
      match x.keySwitch with
      | none => .next s
      | some (n, k) =>
        if x.tree ≠ t ∨ 0 < s.framesTo t n then .next s
        else
          let s := s.modOnu o (fun x => { x with
            keySlot := k, keySwitch := none, keyFails := 0, rekey := none
            phase := if x.phase = .keying then .operation else x.phase })
          match x.rekey with
          | some c => .next (s.answer c .ok [])
          | none => .next s

/-! ### The FS payload (R114-R119) -/

/-- Bytes of a frame that FEC leaves for PSBd, header, map, PLOAM partition and payload (R112). -/
def codedBytes (xgs : Bool) : Nat := if xgs then 155520 * 216 / 248 else 777600 * 14592 / 17280

/-- Bytes of the FS payload after a map of so many structures and so many messages: the recommendation's (log entry 82). -/
def fsBytes (xgs : Bool) (structs ploams : Nat) : Nat := min (codedBytes xgs) (Config.standard 50 [xgs.toNat, structs, ploams])

/-- The next fragment of an SDU in the room left: bytes sent; none where fewer than 4 would fit (R116). -/
def nextFragment (room pli rest : Nat) : Option Nat :=
  if room < 12 then none else some (min (min pli rest) ((room - 8) / 4 * 4))

/-- The byte of the frame at which the payload of the next XGEM frame starts: the FS payload ends the frame. -/
def State.payloadAt (s : State) (c : Nat) : Nat := codedBytes (s.xgs c) - (s.chan c).room + 8

/-- The MIC of an SDU that the host sends to an ONU's management port (R412), which its last fragment carries. -/
def State.sduMic (s : State) (c : Nat) (u : TcSdu) : Option Nat :=
  if u.host ∧ s.holder (treeOfChan c) 0 u.port = some u.onu then some (omciMic (s.integrityKey u.onu 2) u.frame.name u.frame.len) else none

/-- R116, R125: XGEM frames leave the input buffer in order, while the frame in force has room. An SDU's key and max_pli are those of
its first fragment; the encrypt cluster takes what is keyed and the MIC (R408, R411, R412). -/
def State.fillPayload (s : State) (c : Nat) : Nat → State
  | 0 => s
  | fuel + 1 =>
    let x := s.chan c
    match x.tc with
    | [] => s
    | u :: rest =>
      match (if u.sent = 0 then s.downKey c x.count u.onu u.kind else u.key) with
      | none => State.fillPayload ((s.setChan c { x with tc := rest }).keyAbsent c) c fuel
      | some k =>
        let pli := if u.sent = 0 then x.maxPli else u.pli
        match nextFragment x.room pli (u.frame.len - u.sent) with
        | none => s
        | some n =>
          let last := decide (u.frame.len ≤ u.sent + n)
          let tc := if last then rest else { u with sent := u.sent + n, key := some k, pli := pli } :: rest
          let g : Xgem := ⟨n, k.1, u.port, last⟩
          let sealed := if k.1 = 0 then none else some (ponSealed k.2 x.count (s.payloadAt c) u.frame.name u.sent n)
          let mic := if last then s.sduMic c u else none
          let s := s.setChan c { x with tc := tc, room := x.room - 8 - ceilDiv n 4 * 4 }
          let s := if mic.isSome then s.cipherItem (dieOfChan c) 0 c u.frame.len true else s
          let s := if k.1 = 0 then s else s.cipherItem (dieOfChan c) 0 c n
          State.fillPayload (s.send (.xgem c x.count g g.header sealed mic)) c fuel

/-- As many steps as the frame and the buffer can take. -/
def State.fill (s : State) (c : Nat) : State := s.fillPayload c ((s.chan c).room / 12 + (s.chan c).tc.length + 1)

/-- R116, R118, R126, R393: the SDU handed over to a channel's TC enters its input buffer at its instant, where its gate's close is checked; a full buffer takes none, and none
crosses a link that is down (R16). -/
def execTcSduRx (c : Chan) (s : State) : Host.Outcome State Fault Refusal :=
  let c := c.toNat
  match Tbl.getD s.toTc c [] with
  | [] => .next s
  | u :: rest =>
    if !s.framing c ∨ 65536 < s.tcBytes c + u.frame.len ∨ !reached (s.nowOn (halfOfChan c)) u.at_ ∨ s.linkCut (dieOfChan c) then .next s
    else
      let s := { s with toTc := s.toTc.setD c [] rest }
      let s := s.noteOverrun (halfOfChan c) (32 + c % 64) u.gate (s.nowOn (halfOfChan c)) u.tx
      if (s.downKey c (s.chan c).count u.onu u.kind).isNone then .next (s.keyAbsent c)
      else
        let x := s.chan c
        let s := s.carry (dieOfChan c) .pch c u.frame.len
        .next ((s.setChan c { x with tc := x.tc ++ [⟨u.onu, u.port, u.kind, u.frame, 0, none, 0, u.host⟩] }).fill c)

/-! ### What the receiver expects (R171) -/

/-- A burst's structures: those that follow one another, of one ONU and profile. -/
def sentBursts : List AllocStruct → List (List AllocStruct)
  | [] => []
  | a :: rest =>
    match sentBursts rest with
    | (b :: bs) :: more =>
      if a.onu = b.onu ∧ a.profile = b.profile ∧ a.start + a.size = b.start ∧ a.onu ≠ noOnu then (a :: b :: bs) :: more
      else [a] :: (b :: bs) :: more
    | more => [a] :: more

def State.expectOf (s : State) (c n : Nat) (as : List AllocStruct) : Option Expect :=
  match as with
  | [] => none
  | a :: _ => some
    { frame := n, onu := if a.onu = noOnu then none else some a.onu
      onuId := ((s.onu a.onu).map (·.onuId)).getD 0, profile := a.profile
      first := (a.start : Int) - s.ovhQ c a.profile, allocs := as, rssi := a.rssi, window := a.quiet }

/-- R52, R55: the short-form targets of an expected burst as they are armed (its grant instant, the fall of its reset, the rise of its
measurement pulse where it is flagged), and how many of them read as past. -/
def State.pastTargets (s : State) (c i : Nat) (e : Expect) : Nat :=
  let grant := (s.quantumTime c e.frame e.first).toNat
  let ts := [grant, (s.resetFall c i e).1] ++ (if e.rssi then [s.rssiRise c e] else [])
  (ts.filter (fun t => shortReached (s.nowOn (dieOfChan c)) (shortOf t))).length

/-- A map is sent: its bursts join those expected, and their targets are armed. -/
def State.expectMap (s : State) (c n : Nat) (map : List AllocStruct) : State :=
  let k := (s.expects c).length
  let es := ((sentBursts map).filterMap (s.expectOf c n)).map (fun e => { e with after := Tbl.getD s.pon.burstEnds c 0 })
  let s := s.setExpects c (s.expects c ++ es)
  s.countBy .tbShortPast 0 ((List.range es.length).map (fun j => ((s.expects c)[k + j]?.map (s.pastTargets c (k + j))).getD 0)).sum

/-! ### A frame's start (R114, R115, R57, R88) -/

/-- R114, R161: the map that goes out, and whether it is late. -/
def State.mapFor (s : State) (c n : Nat) : List AllocStruct × Bool :=
  let x := s.chan c
  match x.map with
  | some (m, l) => if m = n then (l, false) else ([], s.flag .gntChCfgEnable c && !x.firstMap)
  | none => ([], s.flag .gntChCfgEnable c && !x.firstMap)

/-- R113, R412: a message as the encrypt cluster sends it, with its MIC; a broadcast message's is under the default key. -/
def State.sealPloam (s : State) (c : Nat) (m : Ploam) : Ploam × Nat :=
  let onu := (m.onuId.bind (s.holder (treeOfChan c) 0)).getD noOnu
  (m, ploamMic (s.integrityKey onu 3) (ploamKinds.idxOf m.kind :: m.onuId.getD 1023 :: m.args))

/-- R459: a Ranging_Time of a takeover has gone out: both offsets are accepted for 8 frames after this one. -/
def State.acceptFrom (s : State) (c n : Nat) (m : Ploam) : State :=
  if m.kind ≠ .rangingTime then s
  else match m.onuId.bind (s.holder (treeOfChan c) 0) with
    | some o => match s.tandem.accept.find o with
      | some (none, d) => s.modTandem (fun w => { w with accept := w.accept.put o (some ((n + 9) % 2 ^ 51), d) })
      | _ => s
    | none => s

/-- R115, R222: the PLOAM partition: at most ploam_max messages in order; one that goes out in further consecutive frames is
first in the next. Offers that wait enter the room it leaves. The standby sends none (R455). -/
def State.takePloams (s : State) (c : Nat) : State × List Ploam :=
  if s.treeBarred (treeOfChan c) then (s, [])
  else
    let s := s.admitOffers c
    let x := s.chan c
    let out := x.ploams.take (s.fld .pchCfgPloamMax c)
    let back := out.filter (fun m => x.again.any (fun a => a.1 = m))
    let again := x.again.filterMap (fun a => if out.contains a.1 then (if a.2 ≤ 1 then none else some (a.1, a.2 - 1)) else some a)
    let s := s.setChan c { x with ploams := back ++ x.ploams.drop (s.fld .pchCfgPloamMax c), again := again }
    let s := out.foldl (fun s m => (s.acceptFrom c x.next m).cipherItem (dieOfChan c) 0 c 48 true) s
    (s.admitOffers c, out)

/-- R57: the frame-launch difference: the frame's start less the grid instant at which it is due, in ns. -/
def State.launchDiff (s : State) (t n : Nat) : Int :=
  let m := 2 ^ 51 * frameSpan
  let due := gridInstant (s.fld .pchTreeOffset t) n
  let d := (s.nowOn (dieOfTree t) + m - due % m) % m
  (if 2 * d < m then (d : Int) else (d : Int) - m) / (nsUnit : Int)

def State.noteLaunchDiff (s : State) (t n : Nat) : State :=
  let d := s.launchDiff t n
  let past := decide (s.fld .tbFleCfgLimit 0 < d.natAbs)
  let was := (s.tree t).fleOver
  let s := s.setTree t { s.tree t with fle := d, fleOver := past }
  if past && !was then s.report .tbFrameErr (dieOfTree t) .tbFrameErr (dieOfTree t) t else s

/-- R88, R451, R459, R575: the channel may light from this frame on. -/
def State.mayLight (s : State) (c : Nat) : Bool :=
  let t := treeOfChan c
  decide (s.fld .lnpCtlTxState c = 3) && s.flag .lnpCtlTxOn c && s.gateOpen t && s.pin .refclkPon (c / 32) = 1 && s.pin .hostRstN 0 = 1 && !s.tcOut c
    && decide (s.power.lightFrom ≤ s.elapsed) && decide (Tbl.getD s.tandem.lightAt t 0 ≤ s.elapsed)

/-- OPT_TXEN at a frame's start. -/
def State.light (s : State) (c : Nat) : State :=
  if s.pin .optTxen c = 0 ∧ s.mayLight c then
    let s := s.drive .optTxen c 1
    { s with lanes := { s.lanes with transmitting := s.lanes.transmitting.put c () } }
  else s

/-- R641: port changes that waited for a frame start of the tree; their contexts are flushed. -/
def State.portChanges (s : State) (t : Nat) : State :=
  (s.pon.ports.filter (fun p => p.1 / 65536 = t && p.2.next.isSome)).foldl (fun (s : State) (p : Nat × PonPort) =>
    match p.2.next with
    | some (k, d) =>
      let s := s.flushPort t (p.1 % 65536)
      { s with pon := { s.pon with ports := s.pon.ports.put p.1 ⟨k, d, none⟩ } }
    | none => s) s

/-- R116, R126, R248: the XGEM frames of a member container, from its byte `sent` on; `name` names its bytes. -/
def State.containerFrames (s : State) (c port name len : Nat) (k : Nat × Nat) (sent : Nat) : Nat → State
  | 0 => s
  | fuel + 1 =>
    let x := s.chan c
    let n := min x.maxPli (len - sent)
    if n = 0 then s
    else
      let g : Xgem := ⟨n, k.1, port, decide (len ≤ sent + n)⟩
      let sealed := if k.1 = 0 then none else some (ponSealed k.2 x.count (s.payloadAt c) name sent n)
      let s := s.setChan c { x with room := x.room - 8 - ceilDiv n 4 * 4 }
      let s := if k.1 = 0 then s else s.cipherItem (dieOfChan c) 0 c n
      State.containerFrames (s.send (.xgem c x.count g g.header sealed none)) c port name len k (sent + n) fuel

/-- R250, R253, R255: the containers of tributaries that the channel carries a member of, at the head of the FS payload. -/
def State.containers (s : State) (c n : Nat) : State :=
  let mine := s.tribs.filter (fun (p : Nat × Trib) =>
    ((s.onu p.2.onu).map (fun x => decide (x.tree = treeOfChan c))).getD false && p.2.members.any (fun m => m.1 = c % 4))
  mine.foldl (fun (s : State) (p : Nat × Trib) =>
    let i := p.1
    let s := s.buildContainer i n
    match s.tribs.find i with
    | none => s
    | some x =>
      match x.built, s.downKey c n x.onu (s.portKind (treeOfChan c) x.port) with
      | some b, some k =>
        let m := x.index (c % 4)
        let (area, data) := x.segment b m
        let s := s.send (.container i c n (x.header b m) area (bitsOf data) (onesOf data))
        s.containerFrames c x.port (2 ^ 33 + 4 * i + m) (4 + area) k 0 (4 + area)
      | _, _ => s.keyAbsent c) s

/-- The tree's frame in force: its count, its start in TAI and in elapsed time (R70). -/
def State.frameInForce (s : State) (t n : Nat) : State :=
  s.setTree t { s.tree t with count := n, startTime := s.nowOn (dieOfTree t), startElapsed := s.elapsed }

/-- R114: a frame of a channel starts, the rest of the last one's payload having carried idle (R116). max_pli holds for the SDUs that start
in it (R119). A channel that is to stop starts no further one (TREE_STOP_EFFECT). -/
def State.startFrame (s : State) (c : Nat) : State :=
  let t := treeOfChan c
  let n := (s.chan c).next
  let s := s.closeFrame c
  let s := ((s.frameInForce t n).noteLaunchDiff t n).portChanges t
  let s := { s with lanes := { s.lanes with acqLate := s.lanes.acqLate.del c } }
  let s := s.light c
  let (map, late) := s.mapFor c n
  let s := if late then (s.report .pchBwmapLate c .pchBwmapLate (dieOfChan c) c).chanCause c else s
  let (s, ploams) := s.takePloams c
  let s := s.setChan c { s.chan c with
    count := n, next := (n + 1) % 2 ^ 51, map := none, sentMap := (n, map), firstMap := false, maxPli := s.fld .pchCfgMaxPli c
    room := fsBytes (s.xgs c) map.length ploams.length }
  let s := s.send (.frame c n map (ploams.map (s.sealPloam c)) (s.pin .optTxen c = 1))
  ((s.expectMap c n map).containers c n).fill c

def execFrameStart (c : Chan) (s : State) : Host.Outcome State Fault Refusal :=
  let c := c.toNat
  if !s.framing c ∨ !s.launched (treeOfChan c) ∨ (s.chan c).stopping ∨ (s.tree (treeOfChan c)).stopping then .next s
  else .next (s.startFrame c)

/-! ### The cutoff and the map deadline (R138, R455, R456, R461) -/

/-- The next frame of a tree launched, or about to be, starts within so long; the first frame of a launch commanded closer than that has no
cutoff (R161). -/
def State.nearFrame (s : State) (t lead : Nat) : Bool :=
  if s.launchPending t then !(s.tree t).noCutoff && reached (s.nowOn (dieOfTree t)) ((s.tree t).launchAt - lead)
  else decide (s.frameElapsed t ((s.treeCount t + 1) % 2 ^ 51) ≤ s.elapsed + lead)

/-- R138, R161, R246: the cutoff before each frame of a tree launched or about to be. -/
def execGrantCutoff (t : Tree) (s : State) : Host.Outcome State Fault Refusal :=
  let t := t.toNat
  let n := if s.launchPending t then (s.tree t).launchCount else (s.treeCount t + 1) % 2 ^ 51
  if (!s.launched t ∧ !s.launchPending t) ∨ ((s.pon.calcs.find t).map (·.frame)) = some n ∨ s.lockstep t
      ∨ !s.nearFrame t (usSpan (s.fld .gntTreeCfgCutoff t)) then .next s
  else .next ((((s.skeinCutoff t).cutoff t n).sendCut t n).wake 2 t)

/-- R138: the map deadline, 2 µs before the frame's start. -/
def execMapDeadline (t : Tree) (s : State) : Host.Outcome State Fault Refusal :=
  let t := t.toNat
  if !s.nearFrame t (usSpan 2) then .next s
  else .next ((((s.cutDeadline t).deliverMaps t).formDigests t).drillReport)

end Sys2Proof.Machine
end

