-- ==== Sys2Proof/Machine/Uplink.lean ====
section
/-!
DEFINITION. Frames at the uplink ports: FCS (R99), MACsec on ingress (R413, R414), PTP ingress stamps (R64), the in-band
diversion (R486), the ingress pool (R327), and what becomes of a frame whose body turns out bad (R340).
-/

namespace Sys2Proof.Machine

/-- The offset of the Ethertype behind at most so many VLAN tags. -/
def typeOffset (f : Frame) : Nat → Nat → Nat
  | 0, off => off
  | n + 1, off => if f.be off 2 = 0x8100 ∨ f.be off 2 = 0x88A8 ∨ f.be off 2 = 0x9100 then typeOffset f n (off + 4) else off

/-- R486: a frame is taken before the pipelines: on a named port, Ethertype 0x88B5 behind at most one VLAN tag, to the in-band
MAC, verified by MACsec. -/
def State.inbandFrame (s : State) (port : Nat) (f : Frame) (verified : Bool) : Bool :=
  s.laosh.inbandPorts.contains port && verified && f.be (typeOffset f 1 12) 2 = 0x88B5 && f.be 0 6 = s.inbandMac

/-- R64: the frame is one that ingress stamps: Ethertype 0x88F7 or UDP to ports 319 and 320, behind at most 3 VLAN tags. -/
def State.ptpStamped (s : State) (half : Nat) (f : Frame) : Bool :=
  let off := typeOffset f 3 12
  let v := f.be off 2
  let ip4 := v = 0x0800 && f.byte (off + 11) = 17 && (let p := f.be (off + 4 + f.byte (off + 2) % 16 * 4) 2; p = 319 || p = 320)
  v = 0x88F7 || ip4 || (off ≤ 24 && (s.ptpAt half f).isSome)

/-- R64, R97: the ingress stamp: the short form of the instant at the balls, the port's measured ingress delay back, corrected by its
TSI_ING_ADJ (signed nanoseconds, DESIGN CHOICE, log entry 20). -/
def State.ingressStamp (s : State) (port : Nat) : Nat :=
  unsignedOf 32 ((shortOf (s.nowOn (dieOfLane port) - (Tbl.getD s.lanes.delays port (0, 0)).1) : Int) + signedOf 32 (s.reg .tsiIngAdj port).toNat)

/-- The least packet number that a receive SA accepts (R413, R414). -/
def MscSa.lowest (x : MscSa) : Nat := x.pn - x.window

/-- An EAPOL frame passes the uncontrolled port (R413): Ethertype 0x888E and no SecTAG. -/
def eapol (f : Frame) (tag : Option SecTag) : Bool := tag.isNone && f.be 12 2 == 0x888E

/-- R414: the check at a frame's head: none where it goes on, else its counter and event. -/
def State.secHead (s : State) (port : Nat) (f : Frame) (tag : Option SecTag) : Option (Ctr × Option Ev) :=
  if !s.flag .mscPortCfgEn port ∨ eapol f tag then none
  else match tag with
    | none => if s.flag .mscPortCfgStrict port then some (.mscUntagged, none) else none
    | some g =>
      match (s.secy port).rx.find (g.sci.toNat * 4 + g.an.toNat) with
      | none => some (.mscNoSa, some .mscNoSa)
      | some x => if s.flag .mscPortCfgReplay port ∧ g.pn.toNat < x.lowest then some (.mscReplay, none) else none

/-- A frame whose end is to come joins those its port waits for. -/
def State.awaitEnd (s : State) (port : Nat) (v : Verdict) : State :=
  let y := s.secy port
  s.setSecy port { y with verdicts := y.verdicts ++ [v] }

/-- R410: a frame as the decrypt cluster hands it on, with its receive SA where it is secured. -/
def State.deciphered (s : State) (port : Nat) (f : Frame) (tag : Option SecTag) : Frame × Option (Nat × Nat) :=
  match tag with
  | none => (f, none)
  | some g =>
    let k := g.sci.toNat * 4 + g.an.toNat
    match (s.secy port).rx.find k with
    | some x => if s.flag .mscPortCfgEn port then (s.mscFrame port x g.pn.toNat f, some (k, g.pn.toNat)) else (f, none)
    | none => (f, none)

/-- R99, R327, R340, R408, R413: a frame at a port that is up, as it stands on the wire but for its SecTAG. The MAC discards a whole one
whose FCS fails; of one still coming the end tells, wherever it has gone. The decrypt cluster takes a secured one; its ICV is known of one
that came round a loopback (R108). -/
def State.uplinkRx (s : State) (port : Nat) (f : Frame) (fcsOk coming : Bool) (tag : Option SecTag) (icv : Option Nat) : State :=
  let half := port / 32
  let die := dieOfLane port
  let s := s.pmAdd 4 port 10 1 |>.carry die .umac port f.len
  if !coming && !fcsOk then s.count .umacRxFcs port else
  match s.secHead port f tag with
  | some (c, e) =>
    let s := s.count c port
    let s := if coming then s.awaitEnd port ⟨f, none, true, none, true⟩ else s
    match e with
    | some e => s.raiseOnce e die port
    | none => s
  | none =>
    let (f, sa) := s.deciphered port f tag
    let secured := sa.isSome
    let s := if secured then s.cipherItem die 1 port f.len else s
    let s := if secured || coming then s.awaitEnd port ⟨f, sa, coming, icv, false⟩ else s
    if s.inbandFrame port f secured then s
    else if s.ingPool half < s.ingUsed half + cellsOf f.len then (s.count .cstIngNobuf half).raiseOnce .cstIngNobuf half 0
    else
      let stamp := if s.ptpStamped half f then some (s.ingressStamp port) else none
      s.pushHead ⟨half, false, port, 0, 0, f, stamp, if secured || coming then .coming else .whole, 0, false⟩

/-- R108: a port in near-end loopback receives the oldest frame it has sent in place of the line's. -/
def State.loopRx (s : State) (port : Nat) : State :=
  match Tbl.getD s.lanes.looped port [] with
  | [] => s
  | x :: rest =>
    let s := { s with lanes := { s.lanes with looped := s.lanes.looped.setD port [] rest } }
    s.uplinkRx port x.frame x.fcsOk false
      (x.tag.map (fun g => ⟨BitVec.ofNat 64 (g.1 / 4), BitVec.ofNat 2 g.1, BitVec.ofNat 64 g.2.1⟩)) (x.tag.map (fun g => g.2.2))

def execUplinkFrameRx (l : Lane) (r : UplinkRx) (s : State) : Host.Outcome State Fault Refusal :=
  let port := s.portOf l.toNat
  .next (if s.lineRx port then s.uplinkRx port ⟨r.name.toNat, r.len.toNat, r.head⟩ r.fcsOk r.coming r.tag none
    else if s.portUp port && s.loopedBack port then s.loopRx port
    else s)

/-! ### The end of a frame's body (R340, R414) -/

/-- A frame's body takes its end. -/
def Head.ends (name : Nat) (b : Body) (x : Head) : Head :=
  if x.frame.name = name ∧ !x.up ∧ x.body = .coming then { x with body := b } else x

def Meta.ends (name : Nat) (b : Body) (m : Meta) : Meta := { m with head := m.head.ends name b }

/-- Wherever the frame stands: at the pipelines, between passes, on the bridge, as a flood copy, in a queue. -/
def State.bodyEnds (s : State) (name : Nat) (b : Body) : State :=
  { s with
    fwd := s.fwd.map (fun (p : Nat × Fwd) => (p.1, { p.2 with
      downHeads := p.2.downHeads.map (Head.ends name b)
      injected := p.2.injected.map (fun (q : Nat × List Head) => (q.1, q.2.map (Head.ends name b)))
      recirc := p.2.recirc.map (fun (q : Nat × List Pkt) => (q.1, q.2.map (fun k => { k with head := k.head.ends name b }))) }))
    store := s.store.map (fun (p : Nat × Store) => (p.1, { p.2 with
      bridge := p.2.bridge.map (fun (x : List Nat × Meta) => (x.1, x.2.ends name b))
      repl := p.2.repl.map (fun (x : Nat × Meta) => (x.1, x.2.ends name b))
      own := p.2.own.map (fun (x : Nat × Nat × Meta) => (x.1, x.2.1, x.2.2.ends name b))
      queues := p.2.queues.map (fun (q : Nat × QueueSt) =>
        (q.1, { q.2 with frames := q.2.frames.map (fun f => { f with item := f.item.ends name b }) })) })) }

/-- R340: a frame that was cut through ends on the wire; a bad one with its FCS inverted, counted and raised. -/
def State.cutEnds (s : State) (half name : Nat) (ok : Bool) : State :=
  let x := s.storeOf half
  match x.cutOut.find? (fun c => c.2 = name) with
  | none => s
  | some (g, _) =>
    let s := s.setStore half { x with cutOut := x.cutOut.filter (fun c => c.2 != name) }
    let bad := fun (l : Looped) => if l.frame.name = name then { l with fcsOk := false } else l
    if ok then s else
      let s := { s with lanes := { s.lanes with looped := s.lanes.looped.map (fun (p : Nat × List Looped) => (p.1, p.2.map bad)) } }
      ((s.send (.fcsInverted half g name)).count .qmCtStomp half).raiseOnce .qmCtStomp half 0

def State.frameEnds (s : State) (name : Nat) (ok : Bool) : State :=
  ((s.bodyEnds name (if ok then .whole else .bad)).cutEnds 0 name ok).cutEnds 1 name ok

/-- R414: the verdict on a receive SA's frame: passed where the ICV received is the one computed, it advances the replay window, unless the
frame has fallen below it. -/
def State.icvEnds (s : State) (port : Nat) (f : Frame) (sa pn icv : Nat) : State :=
  let y := s.secy port
  match y.rx.find sa with
  | none => s.frameEnds f.name false
  | some x =>
    if icv ≠ s.mscIcv port x (sa % 4) pn f then (s.count .mscIcvBad port).frameEnds f.name false
    else if s.flag .mscPortCfgReplay port ∧ pn < x.lowest then (s.count .mscReplay port).frameEnds f.name false
    else (s.setSecy port { y with rx := y.rx.put sa { x with pn := max x.pn (pn + 1) } }).frameEnds f.name true

/-- The end of the oldest frame of a port that waits for it: its FCS where its last byte was to come (R99), then the ICV verdict where it is
secured. One refused at its head is counted for its FCS alone. -/
def execIcvVerdict (port : Lane) (e : FrameEnd) (s : State) : Host.Outcome State Fault Refusal :=
  let p := s.portOf port.toNat
  let y := s.secy p
  match y.verdicts with
  | [] => .next s
  | v :: rest =>
    let s := s.setSecy p { y with verdicts := rest }
    if v.coming && !e.fcsOk then
      let s := s.count .umacRxFcs p
      .next (if v.refused then s else s.frameEnds v.frame.name false)
    else if v.refused then .next s
    else match v.sa with
      | some (k, pn) => .next (s.icvEnds p v.frame k pn (v.icv.getD e.icv.toNat))
      | none => .next (s.frameEnds v.frame.name true)

end Sys2Proof.Machine
end

