-- ==== Sys2Proof/Machine/Packets.lean ====
section
/-!
DEFINITION. Laosh packets: layout and CRC (R468, R469), acceptance (R471-R473), repeats (R476), the rings in host memory
(R478-R482), the I3C mailbox (R483-R485) and in-band commands (R486-R488).
-/

namespace Sys2Proof.Machine

/-! ### CRC-32C (R469) -/

/-! ### Reading a packet (R468) -/

/-- Bytes of a packet as one number, most significant first; a byte that is not there reads 0. -/
def beAt (b : List Byte) (off n : Nat) : Nat := (List.range n).foldl (fun a i => a * 256 + (b.getD (off + i) 0).toNat) 0

/-- The packet's length field, and the bytes it then takes before any CMAC. -/
def packetParams (b : List Byte) : Nat := beAt b 10 2 % 1024
def packetBytes (b : List Byte) : Nat := 16 + 4 * packetParams b + 4

/-- The command a packet carries, tag and generation as received (R473). -/
def packetCaller (p : Path) (b : List Byte) : Caller where
  path := p
  tag := BitVec.ofNat 16 (beAt b 6 2)
  gen := BitVec.ofNat 8 (beAt b 14 1)
  die := BitVec.ofNat 4 (beAt b 8 2 / 4)
  opcode := BitVec.ofNat 16 (beAt b 4 2)

def packetWords (b : List Byte) : List Word := (List.range (packetParams b)).map (fun i => BitVec.ofNat 32 (beAt b (16 + 4 * i) 4))

def packetFlag (b : List Byte) (bit : Nat) : Bool := (beAt b 3 1).testBit bit

/-- Step 2 of R472. -/
def packetMagic (b : List Byte) : Bool := beAt b 0 2 = 0x4C53 && !packetFlag b 0

/-- Step 3 of R472: the CRC over bytes 0 to the last parameter byte. -/
def packetCrc (b : List Byte) : Bool :=
  let n := packetBytes b - 4
  packetBytes b ≤ b.length && crc32c (b.take n) = beAt b n 4

/-- Step 4 of R472: version 1, every reserved header bit 0, the authenticated flag 0 off the in-band path. -/
def packetVersion (p : Path) (b : List Byte) : Bool :=
  beAt b 2 1 = 1 && beAt b 3 1 < 16 && beAt b 8 2 % 4 = 0 && beAt b 10 2 < 1024 && beAt b 15 1 = 0
  && (p = .inband || !packetFlag b 2)

/-- Steps 3 to 7 of R472. An I3C write that ends before the packet length fails step 5 (R484). -/
def State.headerFault (s : State) (p : Path) (b : List Byte) : Option Status :=
  if p = .i3c ∧ b.length < packetBytes b then some .badLength
  else if !packetCrc b then some .badCrc
  else if !packetVersion p b then some .badVersion
  else if b.length ≠ packetBytes b ∨ packetFlag b 3 then some .badLength
  else if beAt b 8 2 / 64 ≠ s.fld .sysDevnumDevnum 0 then some .badTarget
  else if beAt b 4 2 ≠ 0x0002 ∧ beAt b 14 1 ≠ s.fld .lshStatGen (pathCode p) then some .staleGeneration
  else none

/-- R493: the opcode is defined. -/
def opcodeDefined (op : Nat) : Bool :=
  let lo := op % 256
  match op / 256 with
  | 0x00 => lo ≤ 0x07 || lo = 0x10 || lo = 0x11
  | 0x01 => lo ≤ 0x0B
  | 0x02 => lo ≤ 0x08
  | 0x03 | 0x04 => lo ≤ 0x0C
  | 0x05 => lo ≤ 0x0A
  | 0x06 => lo ≤ 0x09
  | 0x07 => lo ≤ 0x0B
  | 0x08 => lo ≤ 0x12
  | 0x09 => lo ≤ 0x0E
  | 0x0A => lo ≤ 0x05
  | 0x0B => lo ≤ 0x0D
  | 0x0C => lo ≤ 0x03
  | 0x0D => lo ≤ 0x05
  | 0x0E => lo ≤ 0x08
  | 0x0F | 0x10 => lo ≤ 0x03
  | 0x11 => lo ≤ 0x04
  | 0x12 => lo ≤ 0x02
  | 0x13 => lo ≤ 0x03
  | _ => false

/-- Opcodes whose command tables give an ACCEPTED reply with a completion to follow (R475). -/
def opcodeAsync (op : Nat) : Bool :=
  [0x0206, 0x0409, 0x040C, 0x0602, 0x0808, 0x0904, 0x0B0A, 0x0B0C, 0x0D00, 0x0E03, 0x0E05, 0x0E06, 0x0F00, 0x1001, 0x1102, 0x1303].contains op

/-- Opcodes that act on the package and need die selector 15 (R471). -/
def opcodePackage (op : Nat) : Bool := op ≤ 0x0007 || (0x1100 ≤ op && op ≤ 0x1104) || op = 0x0D00 || op = 0x0D01

/-- What step 14 of R472 can tell from the header (R471, R637, R2); a command's own object is judged as it starts. -/
def State.selectorFits (s : State) (die op : Nat) : Bool :=
  (die < 8 || die = 15) && !(s.is064 && (die = 4 || die = 5)) && (!opcodePackage op || die = 15)
  && (!(op = 0x0010 || op = 0x0011) || die < 8)

/-- SYS.ACK on the path that carries it (R488). -/
def isAck (c : Caller) : Bool := c.opcode = 3 && c.path = .inband

/-- The tag is ahead of the in-band path's mark (R487). -/
def State.aheadOfMark (s : State) (tag : BitVec 16) : Bool :=
  let d := (tag - s.laosh.mark).toNat
  1 ≤ d && d ≤ 32767

/-- Tags a path may hold in flight (R474). -/
def State.tagLimit (s : State) : Path → Nat
  | .pcie => s.ringSize 1
  | .i3c => 1
  | .inband => 64

/-- Steps 9 to 14 of R472. -/
def State.refusal (s : State) (c : Caller) : Option Status :=
  let op := c.opcode.toNat
  if !isAck c ∧ s.flights.has (tagKey c.path c.tag) then some .tagInUse
  else if !isAck c ∧ c.path = .inband ∧ !s.aheadOfMark c.tag then some .replayed
  else if !isAck c ∧ (s.tagLimit c.path ≤ s.inflight c.path ∨ (opcodeAsync op ∧ s.asyncFull)) then some .busy
  else if !castOnAnswers op ∧ !s.flag .sysCastonDone 0 then some .busyCastOn
  else if !opcodeDefined op then some .badOpcode
  else if !s.selectorFits c.die.toNat op ∨ (op = 3 ∧ c.path ≠ .inband) then some .badParam
  else none

/-- What a refusal at steps 9 to 14 counts (R472). -/
def State.noteRefusal (s : State) : Status → State
  | .replayed => s.report .lshInbReplay 0 .lshInbReplay 0 0
  | .busyCastOn => s
  | _ => s.count .lshRefused 0

/-- A reply that holds no tag, to where its packet came from (R473, R476). -/
def State.refuseTo (s : State) (from_ : Nat × Nat × Option Nat) (r : Reply) : State :=
  let old := s.laosh.inbandFrom
  let s := { s with laosh := { s.laosh with inbandFrom := old.put r.tag.toNat from_ } }.post r
  { s with laosh := { s.laosh with inbandFrom := old } }

/-- R476: the reply to a repeat. -/
def State.repeatReply (s : State) (c : Caller) : Reply :=
  match s.flights.find (tagKey c.path c.tag) with
  | none => { c.reply .badParam [] with rep := true }
  | some f =>
    match f.final with
    | some r => { r with rep := true, final := false }
    | none => { c.reply .notReady [] with rep := true }

/-- An accepted packet takes its tag and waits for a sequencer; SYS.ACK takes none (R472, R474, R488). Before the sequencers
start the boot controller answers (R580). -/
def State.takePacket (s : State) (c : Caller) (ws : List Word) (from_ : Nat × Nat × Option Nat) : State :=
  if isAck c then s
  else
    let s := { s with flights := s.flights.put (tagKey c.path c.tag) ⟨c, false, false, none, false⟩ }
    let s := if c.path = .inband then
        { s with laosh := { s.laosh with
          mark := c.tag
          inbandWait := s.laosh.inbandWait ++ [(from_.1, c)]
          inbandFrom := s.laosh.inbandFrom.put c.tag.toNat from_ } }
      else s
    if s.flag .sysCastonDone 0 then s.queueCommand c ws else s

/-- R472: an arriving packet, its CMAC's verdict for an in-band one, and where that came from: port, source MAC, VLAN tag. -/
def State.accept (s : State) (p : Path) (b : List Byte) (cmacOk : Bool) (from_ : Nat × Nat × Option Nat) : State :=
  let c := packetCaller p b
  if p = .inband ∧ (b.length < packetBytes b ∨ !packetFlag b 2 ∨ !cmacOk ∨ s.laosh.inbandKey.isNone) then
    s.report .lshInbAuth 0 .lshInbAuth 0 0
  else if !packetMagic b then s.report .lshBadPkt 0 .lshBadPkt 0 0
  else match s.headerFault p b with
    | some st => ((s.count .lshHdrBad 0).raiseOnceBy .lshHdrBad 0 0 (pathCode p)).refuseTo from_ (c.reply st [])
    | none =>
      if packetFlag b 1 then s.refuseTo from_ (s.repeatReply c)
      else match s.refusal c with
        | some st => (s.noteRefusal st).refuseTo from_ (c.reply st [])
        | none => s.takePacket c (packetWords b) from_

/-! ### Acknowledging (R474) -/

/-- The reply is acknowledged: a final one, not a repeat and the last of its packets, frees its command's tag. -/
def State.acknowledged (s : State) (r : Reply) : State :=
  if r.final ∧ !r.rep ∧ !r.more then
    let k := tagKey r.path r.tag
    match s.flights.find k with
    | some f => if f.final.any (fun x => x.gen = r.gen && x.opcode = r.opcode) then { s with flights := s.flights.del k } else s
    | none => s
  else s

/-! ### The rings (R478-R482, R495-R497) -/

/-- Commands in execution on a path (R480). -/
def State.executing (s : State) (p : Path) : Nat := (s.flights.filter (fun f => f.2.caller.path = p && f.2.final.isNone)).length

/-- Slots of a ring the device has still to read (R479). -/
def State.unread (s : State) (r : Nat) : Bool :=
  s.flag .lshRingCfgEn r && s.laosh.linkUp && s.fld .lshRingPtrDev r != s.fld .lshRingPtrHost r

/-- R480: the reply ring's free slots exceed the commands in execution on the path. -/
def State.replyRoom (s : State) : Bool :=
  s.flag .lshRingCfgEn 1 && decide (s.executing .pcie < s.ringSize 1 - (s.laosh.replySlots.length + s.laosh.replyWait.length))

/-- R479, R480: the next command slot is read, and its packet checked. -/
def execCommandRingRead (packet : List Byte) (s : State) : Host.Outcome State Fault Refusal :=
  if s.unread 0 && s.replyRoom then .next ((s.ringStep 0).accept .pcie packet false (0, 0, none)) else .next s

/-- R481: a waiting frame of queue 0x3_FFFE goes into a free slot of the trap ring. -/
def execTrapPost (s : State) : Host.Outcome State Fault Refusal := .next (s.flushTraps 1)

/-- A refused pointer (R479, R480) or configuration (R480). -/
def State.ptrBad (s : State) : State := s.report .lshPtrBad 0 .lshPtrBad 0 0
def State.ringReject (s : State) : State := s.report .lshCfgReject 0 .lshCfgReject 0 0

/-- R479, R480, R497: a write of a ring's LSH_RING_PTR.host. -/
def State.writeRingPtr (s : State) (r host : Nat) : State :=
  let size := s.ringSize r
  let posted := if r = 1 then s.laosh.replySlots.length else s.laosh.trapSlots.length
  let n := (host + size - s.fld .lshRingPtrHost r) % size
  if size ≤ host then s.ptrBad
  else if r = 0 ∨ r = 3 then s.setFld .lshRingPtrHost r host
  else if posted < n then s.ptrBad
  else if r = 1 then
    let done := s.laosh.replySlots.take n
    let s := { s with laosh := { s.laosh with replySlots := s.laosh.replySlots.drop n } }.setFld .lshRingPtrHost 1 host
    let s := done.foldl (fun s x => s.acknowledged x.2.2) s
    s.flushReplies s.laosh.replyWait.length
  else
    let s := { s with laosh := { s.laosh with trapSlots := s.laosh.trapSlots.drop n } }.setFld .lshRingPtrHost 2 host
    s.flushTraps s.laosh.trapWait.length

def execLshRingPtrWrite (p : APath) (data : Word) (s : State) : Host.Outcome State Fault Refusal :=
  .next (s.writeRingPtr (s.sel .rgsel 0 (apathCode p) % 4) (fldOf .lshRingPtrHost data))

/-- A ring is enabled: indices 0, phase 1 (R478, R496); nothing stands in it. -/
def State.enableRing (s : State) (r : Nat) : State :=
  let s := ((s.setFld .lshRingPtrDev r 0).setFld .lshRingPtrHost r 0).setFld .lshRingPtrPhase r (if r = 1 ∨ r = 2 then 1 else 0)
  if r = 1 then
    let s := { s with laosh := { s.laosh with replySlots := [] } }
    s.flushReplies s.laosh.replyWait.length
  else if r = 2 then
    let s := { s with laosh := { s.laosh with trapSlots := [] } }
    s.flushTraps s.laosh.trapWait.length
  else s

/-- R480, R496: a write of LSH_RING_CFG. -/
def State.writeRingCfg (s : State) (r : Nat) (data : Word) : State :=
  let old := s.reg .lshRingCfg r
  let on := fldOf .lshRingCfgEn old = 1
  if on ∧ fldOf .lshRingCfgSize data ≠ fldOf .lshRingCfgSize old then s.ringReject
  else
    let (w, bad, _) := writeWord .lshRingCfg old data true
    let s := s.setReg .lshRingCfg r w
    let s := if bad then s.report .sysBadEnc 0 .sysBadEnc 0 0 else s
    if !on ∧ fldOf .lshRingCfgEn w = 1 then s.enableRing r else s

def execLshRingCfgWrite (p : APath) (data : Word) (s : State) : Host.Outcome State Fault Refusal :=
  .next (s.writeRingCfg (s.sel .rgsel 0 (apathCode p) % 4) data)

/-! ### The inject ring (R482, R35) -/

/-- An injected frame of target 0: as if received on the ingress named. The descriptor names no ONU and XGEM port for an
upstream one: both are free (log entry 83). -/
def State.injectHead (s : State) (pipe : Nat) (up : Bool) (ingress : Nat) (f : Frame) : State :=
  let put := fun (s : State) (x : Head) => s.modFwd x.half (fun f => { f with injected := f.injected.setD pipe [] (Tbl.getD f.injected pipe [] ++ [x]) })
  if up then
    let onu := s.free % 16384
    let s := s.drawn
    let port := s.free % 65536
    put s.drawn ⟨halfOfChan ingress, true, ingress, onu, port, f, none, .whole, s.elapsed, true⟩
  else put s ⟨halfOfLane ingress, false, ingress, 0, 0, f, none, .whole, s.elapsed, true⟩

/-- The ingresses that a descriptor can name: the device's channels, or its uplink lanes (R1, R482; log entry 83). -/
def State.ingresses (s : State) (up : Bool) : Nat := if up && !s.is064 then 128 else 64

/-- An injected frame of target 1 goes to its queue's admission; one for queue 0x3_FFFE to the trap ring, its reason free. -/
def State.injectQueue (s : State) (q : Nat) (f : Frame) : State :=
  let half := (s.queueHalf q).getD 0
  if qNumber q = 0x3FFFE ∧ !qIsUp q then s.drawn.toHost ⟨s.free % 32, f, false, 0, 0, 0, shortOf s.now, 0, 0, half⟩
  else s.offerTo half q ⟨⟨half, qIsUp q, 0, 0, 0, f, none, .whole, s.elapsed, true⟩, 0, 0, 0, none, none, none⟩

/-- R482: the next inject slot: its descriptor, its frame, and the pipeline in service for its direction (R22) whose slot a target 0 frame
takes. The device does not read on while that pipeline's INJECT ration makes it wait (R34, R35), the host pool has no room (R326), or a target
1 frame finds no admission left in the cycle (R331). -/
def execInjectRingRead (w0 w1 w2 _w3 : Word) (name : BitVec 32) (head : List Byte) (pipe : BitVec 4) (s : State) :
    Host.Outcome State Fault Refusal :=
  let target := fieldOf 30 2 w0
  let len := fieldOf 0 14 w0
  let up := w1.getLsbD 31
  let ingress := fieldOf 0 16 w1
  let half := if target = 1 then (s.queueHalf (fieldOf 0 19 w2)).getD 0 else if up then halfOfChan ingress else halfOfLane ingress
  let f : Frame := ⟨name.toNat, len, head⟩
  let s := if s.unread 3 ∧ target = 0 ∧ ingress < s.ingresses up then s.wantTime half (9 + pipe.toNat) else s
  .next (
    if !s.unread 3 then s
    else if 2 ≤ target ∨ len < 60 ∨ 12288 < len ∨ (target = 0 ∧ s.ingresses up ≤ ingress) then
      (s.ringStep 3).report .lshInjBad 0 .lshInjBad 0 0
    else if (target = 0 ∧ (s.pipeUp half pipe.toNat ≠ up ∨ !s.pipeServes half pipe.toNat ∨ s.rationWaits half (9 + pipe.toNat)))
        ∨ (target = 1 ∧ s.decisionsLeft half = 0) ∨ s.hostPool half < s.hostUsed half + cellsOf len then s
    else if target = 0 then (s.ringStep 3).injectHead pipe.toNat up ingress f
    else (s.ringStep 3).injectQueue (fieldOf 0 19 w2) f)

/-! ### The I3C mailbox (R483-R485) -/

/-- The I3C target answers from the end of CLOCK (R579), once it has its address. -/
def State.i3cUp (s : State) : Bool := 2 ≤ s.fld .sysCastonStage 0

/-- R484: a private write of a command packet. -/
def execI3cMailboxWrite (bytes : List Byte) (s : State) : Host.Outcome State Fault Refusal :=
  .next (
    if !s.i3cUp then s
    else if !s.laosh.mailbox.isEmpty ∨ 0 < s.inflight .i3c then s.report .lshMbxBusy 0 .lshMbxBusy 0 0
    else s.accept .i3c bytes false (0, 0, none))

/-- R484: an acknowledgement word; the next reply becomes readable. -/
def execI3cMailboxAck (tag : BitVec 16) (s : State) : Host.Outcome State Fault Refusal :=
  .next (
    if !s.i3cUp then s
    else match s.laosh.mailbox with
      | r :: rest =>
        if r.tag = tag then
          let s := { s with laosh := { s.laosh with mailbox := rest, mailboxSeen := false } }.acknowledged r
          if !rest.isEmpty && s.laosh.ibiEnable && s.laosh.i3cAddress.isSome then s.send (.ibi 1 0) else s
        else s
      | [] => s)

/-- R485, R507: a private read: the value of an armed register read; else NOT_READY or the readable reply, with the repeat
flag from the second read on. `whole`: the controller did not stop early. -/
def execI3cMailboxRead (whole : Bool) (s : State) : Host.Outcome State Fault Refusal :=
  .next (
    if !s.i3cUp then s
    else match s.laosh.armedRead with
      | some v => { s with laosh := { s.laosh with armedRead := none } }.send (.i3cRead v)
      | none =>
        match s.laosh.mailbox with
        | r :: _ =>
          let s' := s.send (.mailboxRead (some { r with rep := r.rep || s.laosh.mailboxSeen }))
          if whole then { s' with laosh := { s'.laosh with mailboxSeen := true } } else s'
        | [] => s.send (.mailboxRead none))

/-- The 48-bit provisional ID (R483): the manufacturer's code, the part code, DEVNUM. -/
def State.provisionalId (s : State) : Nat := 0x02C5 * 2 ^ 33 + s.fld .sysIdPart 0 * 2 ^ 16 + s.fld .sysDevnumDevnum 0

/-- R483: the target sends its provisional ID and the controller assigns the dynamic address; in-band interrupts are enabled from then on. -/
def execI3cDynamicAddress (addr : BitVec 7) (s : State) : Host.Outcome State Fault Refusal :=
  if s.i3cUp then .next ({ s with laosh := { s.laosh with i3cAddress := some addr, ibiEnable := true } }.send (.i3cId s.provisionalId))
  else .next s

/-- R483: ENEC or DISEC for in-band interrupts. -/
def execI3cEnecDisec (on : Bool) (s : State) : Host.Outcome State Fault Refusal :=
  if s.i3cUp then .next { s with laosh := { s.laosh with ibiEnable := on } } else .next s

/-! ### In-band commands (R486, R487) -/

/-- R486: an in-band frame that was taken on a named port: its packet before the CMAC, the CMAC, its source. -/
def execInbandFrameRx (l : Lane) (packet : List Byte) (cmac : BitVec 128) (src : BitVec 48) (vlan : Option (BitVec 16)) (s : State) :
    Host.Outcome State Fault Refusal :=
  let port := s.portOf l.toNat
  .next (
    if !s.laosh.inbandPorts.contains port ∨ !s.portUp port then s
    else if 16 ≤ (s.laosh.inbandWait.filter (fun w => w.1 = port)).length then s.report .lshInbDrop 0 .lshInbDrop 0 port
    else s.accept .inband packet (decide (cmac.toNat = s.sessionCmac packet)) (port, src.toNat, vlan.map BitVec.toNat))

end Sys2Proof.Machine
end

