-- ==== Sys2Proof/Machine/Laosh.lean ====
section
/-!
DEFINITION. The SYS and BLOCK commands (R477, R486-R488, R494, R524), block claims (R510-R513), and the event registers and
ring (R515-R519, R522, R523).
-/

namespace Sys2Proof.Machine

/-! ### SYS commands -/

/-- R494: SYS.NOP answers the same words. -/
def execSysNop (h : Hdr) (words : List Word) (s : State) : Host.Outcome State Fault Refusal :=
  .next (command h 0x0000 .package (fun _ s => .ok s words) s)

/-- R494, R580: SYS.INFO: SYS_ID, DEVNUM, SYS_CASTON, the darn level, the generation of each path. -/
def execSysInfo (h : Hdr) (s : State) : Host.Outcome State Fault Refusal :=
  .next (command h 0x0001 .package (fun _ s =>
    .ok s ([s.reg .sysId 0, BitVec.ofNat 32 (s.fld .sysDevnumDevnum 0), s.reg .sysCaston 0, BitVec.ofNat 32 (s.fld .sqDarnLevelLevel 0)]
      ++ [s.gen .pcie, s.gen .i3c, s.gen .inband].map (BitVec.setWidth 32))) s)

/-- Ends the claims of a path (R512). -/
def State.dropClaims (s : State) (p : Path) : State :=
  { s with win := { s.win with claims := s.win.claims.filter (fun c => decide (c.2 ≠ p)) } }

/-- What becomes of a path's other tags at a new session (R477): one whose final reply is held is freed, one whose command
still executes is freed as its final reply is posted. -/
def renewFlights (c : Caller) (l : Tbl Flight) : Tbl Flight :=
  (l.filter (fun f => f.2.caller.path ≠ c.path || f.2.caller = c || f.2.final.isNone)).map (fun (f : Nat × Flight) =>
    if f.2.caller.path = c.path ∧ f.2.caller ≠ c then (f.1, { f.2 with stale := true }) else f)

/-- R477, R487: SYS.SESSION_OPEN sets the generation to the header's. -/
def execSysSessionOpen (h : Hdr) (s : State) : Host.Outcome State Fault Refusal :=
  .next (command h 0x0002 .package (fun caller s =>
    let cur := s.gen h.path
    if (h.path ≠ .inband ∧ h.gen = cur) ∨ (h.path = .inband ∧ h.gen ≠ cur + 1) then .fail s .badParam
    else if h.path = .inband ∧ 255 ≤ s.laosh.sessions then .fail s .unauthorized
    else
      let s := (s.setFld .lshStatGen (pathCode h.path) h.gen.toNat).dropClaims h.path
      let s := { s with flights := renewFlights caller s.flights }
      .ok (if h.path = .inband then
          { s with laosh := { s.laosh with mark := h.tag, sessions := s.laosh.sessions + 1 } }
        else s)) s)

/-- A tag of the in-band path is acknowledged: its final reply, where one is held, frees it. -/
def State.ackTag (s : State) (tag : Word) : State :=
  let k := tagKey .inband (tag.setWidth 16)
  match s.flights.find k with
  | some f => if f.final.isSome then { s with flights := s.flights.del k } else s
  | none => s

/-- R488: SYS.ACK has no reply and takes no tag. On the other paths it is refused, after its tag has been checked, and
acknowledges nothing. -/
def execSysAck (h : Hdr) (tags : List Word) (s : State) : Host.Outcome State Fault Refusal :=
  let c := callerOf h 0x0003
  .next (
    if h.path = .inband then
      if !s.flag .sysCastonDone 0 then s.refuse c .busyCastOn
      else if h.die.toNat ≠ 15 then (s.count .lshRefused 0).refuse c .badParam
      else tags.foldl State.ackTag s
    else match s.refusal c with
      | some st => (s.noteRefusal st).refuse c st
      | none => s)

/-- R486: SYS.INBAND_SET, by the Crypto Officer: at most 4 uplink ports by their lowest lanes, the in-band MAC, and the handle
of a look-aside key. A new key opens a new count of sessions (R487). -/
def execSysInbandSet (h : Hdr) (ports : List Word) (mac : BitVec 48) (handle : Word) (s : State) : Host.Outcome State Fault Refusal :=
  .next (command h 0x0004 .package (fun _ s =>
    let ps := ports.map BitVec.toNat
    if 4 < ps.length ∨ ps.any (fun p => 63 < p || s.portOf p ≠ p) then .fail s .badParam
    else s.unlessClaimed [(0, .lsh)] (s.officerOnly h (
      match s.vault.find handle.toNat with
      | some k =>
        if k.kind = .job then
          let s := (s.setReg .lshInbMacHi 0 (BitVec.ofNat 32 (mac.toNat / 2 ^ 32))).setReg .lshInbMacLo 0 (mac.setWidth 32)
          .ok { s with laosh := { s.laosh with inbandPorts := ps, inbandKey := some handle.toNat, sessions := 0 } }
        else .fail s .badParam
      | none => .fail s (if s.cipher.erased.has handle.toNat then .zeroized else .badParam)))) s)

/-! ### Events (R515-R519, R522, R523) -/

/-- Set bits of a word, as source numbers of a group. -/
def bitSources (g : Nat) (w : Word) : List Nat := ((List.range 32).filter (fun i => w.getLsbD i)).map (fun i => g * 32 + i)

/-- R516: a write of EVT_MASKg delivers the set bits it unmasks as a raise would, with no record. -/
def State.writeMask (s : State) (g : Nat) (data : Word) : State :=
  let freed := s.reg .evtStat g &&& s.reg .evtMask g &&& ~~~data
  let s := s.setReg .evtMask g data
  if freed = 0 then s else s.deliver g (bitSources g freed)

def execEvtMaskWrite (g : BitVec 5) (data : Word) (s : State) : Host.Outcome State Fault Refusal :=
  .next (if g.toNat < 27 then s.writeMask g.toNat data else s)

/-- R516: a group routed to an MSI-X vector has an unmasked bit set. -/
def State.vectorWaits (s : State) (v : Nat) : Bool :=
  (List.range 27).any (fun g => s.flag .evtRouteMsix g && s.fld .evtRouteVector g = v && (s.reg .evtStat g &&& ~~~(s.reg .evtMask g)) != 0)

/-- R516, R522: a write of EVT_STATg clears bits, but for those raised in its own cycle (R8), and sends the group's message again if unmasked bits remain on its vector. -/
def State.clearStat (s : State) (g : Nat) (data : Word) : State :=
  let old := s.reg .evtStat g
  let s := s.setReg .evtStat g ((old &&& ~~~data) ||| (s.freshBits .evtStat g &&& old))
  let v := s.fld .evtRouteVector g
  if s.flag .evtRouteMsix g && s.vectorWaits v then s.sendMsix v else s

def execEvtStatClear (g : BitVec 5) (data : Word) (s : State) : Host.Outcome State Fault Refusal :=
  .next (if g.toNat < 27 then s.clearStat g.toNat data else s)

/-- R516, R524: SYS.EVENT_ROUTE. -/
def execSysEventRoute (h : Hdr) (group mask fw alert ibi msix vector : Word) (s : State) : Host.Outcome State Fault Refusal :=
  .next (command h 0x0006 .package (fun _ s =>
    let g := group.toNat
    if 26 < g ∨ !flagOk fw ∨ !flagOk alert ∨ !flagOk ibi ∨ !flagOk msix ∨ 63 < vector.toNat then .fail s .badParam
    else
      let w := BitVec.ofNat 32 (fw.toNat * 2 ^ 31 + alert.toNat * 2 ^ 30 + ibi.toNat * 2 ^ 29 + msix.toNat * 2 ^ 28 + vector.toNat)
      .ok ((s.setReg .evtRoute g w).writeMask g mask)) s)

/-- A path's copy of a register of the EVT block. -/
def evtCopy (p : Nat) : Nat := copyInst 15 p

/-- R519, R523: records not read by a path, those still in the ring, and those lost. -/
def State.behind (s : State) (p : Nat) : Nat := ((s.reg .evtRingWr 0) - s.reg .evtRingRd (evtCopy p)).toNat
def State.available (s : State) (p : Nat) : Nat := min (s.behind p) s.evRing.length
def State.lostRecords (s : State) (p : Nat) : Nat := s.behind p - 4096

/-- The records available to a path, oldest first. -/
def State.records (s : State) (p : Nat) : List EvRec := s.evRing.drop (s.evRing.length - s.available p)

/-- A record in the ring (R518). -/
def EvRec.words (r : EvRec) : List Word :=
  [BitVec.ofNat 32 (r.source * 2 ^ 22 + r.die * 2 ^ 18 + r.inst % 2 ^ 18), BitVec.ofNat 32 (secOf r.time / 2 ^ 32),
    BitVec.ofNat 32 (secOf r.time), BitVec.ofNat 32 (r.unaligned.toNat * 2 ^ 31 + nsOf r.time)]

/-- R519, R524: SYS.EVENT_READ returns records and moves the path's index past them. -/
def execSysEventRead (h : Hdr) (count : Word) (s : State) : Host.Outcome State Fault Refusal :=
  .next (command h 0x0007 .package (fun _ s =>
    let p := pathCode h.path
    if count = 0 ∨ 64 < count.toNat then .fail s .badParam
    else
      let l := (s.records p).take count.toNat
      let rd := s.reg .evtRingWr 0 - BitVec.ofNat 32 (s.available p) + BitVec.ofNat 32 l.length
      .ok (s.setReg .evtRingRd (evtCopy p) rd)
        (BitVec.ofNat 32 l.length :: l.flatMap EvRec.words ++ [BitVec.ofNat 32 (s.lostRecords p)])) s)

/-- R519: a write of EVT_RING_RD; an index ahead of WR, by signed difference, is taken as WR. -/
def State.writeRingRd (s : State) (p : Nat) (data : Word) : State :=
  let wr := s.reg .evtRingWr 0
  s.setReg .evtRingRd (evtCopy p) (if 0 < (data - wr).toInt then wr else data)

def execEvtRingRdWrite (p : APath) (data : Word) (s : State) : Host.Outcome State Fault Refusal :=
  .next (s.writeRingRd (apathCode p) data)

/-- R517: the oldest record of a die's queue enters the ring, over the oldest there once it holds 4,096. -/
def execEventRecordEnter (die : Die) (s : State) : Host.Outcome State Fault Refusal :=
  match Tbl.getD s.evQueue die.toNat [] with
  | [] => .next s
  | r :: rest =>
    let s := { s with
      evQueue := Tbl.setD s.evQueue die.toNat [] rest
      evRing := (if 4096 ≤ s.evRing.length then s.evRing.drop 1 else s.evRing) ++ [r] }
    .next (s.setReg .evtRingWr 0 (s.reg .evtRingWr 0 + 1))

/-! ### Block claims (R510-R513) -/

/-- The claim takes effect. One of KV, CPH or MSC takes the device out of approved mode (R432, R513). -/
def State.takeClaim (s : State) (die : Nat) (b : Blk) (p : Path) : State :=
  let s := { s with win := { s.win with claims := s.win.claims.put (claimKey die b) p } }
  if b = .kv ∨ b = .cph ∨ b = .msc then s.notApproved else s

/-- The dies that the BLOCK commands take from their selector (R471). -/
def claimDies : DieRule := .oneOf [0, 1, 2, 3, 4, 5, 6, 7, 15]

/-- R510, R511, R524: BLOCK.CLAIM. -/
def execBlockClaim (h : Hdr) (block : Word) (s : State) : Host.Outcome State Fault Refusal :=
  .next (command h 0x1200 claimDies (fun caller s =>
    let d := h.die.toNat
    match blockOf d block.toNat with
    | none => .fail s .badParam
    | some b =>
      if h.path = .inband ∨ b = .evt then .fail s .badParam
      else match s.win.claims.find (claimKey d b) with
        | some q => if q = h.path then .ok s else .fail s .blockClaimed
        | none =>
          if s.flag .secCfgStrict 0 ∧ (b = .kv ∨ b = .cph ∨ b = .msc) then .fail s .notApprovedMode
          else if s.actedOn d b then
            ⟨{ s with win := { s.win with claimWait := s.win.claimWait ++ [⟨d, b, caller, s.elapsed⟩] } }, .ok, [], true⟩
          else .ok (s.takeClaim d b h.path)) s)

/-- The oldest claim that waits for a block. -/
def State.waitingClaim (s : State) (die block : Nat) : Option ClaimWait :=
  s.win.claimWait.find? (fun w => w.die = die && blockOf die block = some w.blk)

def State.dropWait (s : State) (w : ClaimWait) : State :=
  { s with win := { s.win with claimWait := s.win.claimWait.filter (fun x => decide (x ≠ w)) } }

/-- R511: the commands that acted on the block have posted their final replies. -/
def execClaimEffect (die : Die) (block : BitVec 6) (s : State) : Host.Outcome State Fault Refusal :=
  match s.waitingClaim die.toNat block.toNat with
  | none => .next s
  | some w =>
    if s.actedOn w.die w.blk then .next s
    else
      let s := s.dropWait w
      match s.win.claims.find (claimKey w.die w.blk) with
      | some q => .next (s.answer w.caller (if q = w.caller.path then .ok else .blockClaimed) [])
      | none => .next ((s.takeClaim w.die w.blk w.caller.path).answer w.caller .ok [])

/-- R511: 1 ms has passed since it was asked for: the claim is not taken. -/
def execClaimTimeout (die : Die) (block : BitVec 6) (s : State) : Host.Outcome State Fault Refusal :=
  match s.waitingClaim die.toNat block.toNat with
  | none => .next s
  | some w => .next (if w.since + msSpan 1 ≤ s.elapsed then (s.dropWait w).answer w.caller .busy [] else s)

/-- R512: BLOCK.RELEASE. -/
def execBlockRelease (h : Hdr) (block : Word) (s : State) : Host.Outcome State Fault Refusal :=
  .next (command h 0x1201 claimDies (fun _ s =>
    let k := h.die.toNat * 64 + block.toNat
    if block.toNat < 64 ∧ s.win.claims.find k = some h.path then
      .ok { s with win := { s.win with claims := s.win.claims.del k } }
    else .fail s .notOwner) s)

/-- R524: BLOCK.STATUS. -/
def execBlockStatus (h : Hdr) (s : State) : Host.Outcome State Fault Refusal :=
  .next (command h 0x1202 claimDies (fun _ s => .ok s (listWords (s.blockStatus h.die.toNat))) s)

end Sys2Proof.Machine
end

