-- ==== Sys2Proof/Machine/Gauge.lean ====
section
/-!
DEFINITION. The PM commands (R585, R591, R594, R603), and the gauge: named and gauge counters by unit, snapshots, slot accounts and
latency histograms (R596-R602, R604-R606).
-/

namespace Sys2Proof.Machine

/-! ### PM commands -/

/-- The die whose binner keeps an entity (R585); none where the index names nothing. -/
def pmDie (kind i : Nat) : Option Nat :=
  match kind with
  | 0 => if i < 128 then some (dieOfChan i) else none
  | 1 => if i < 16384 then some (2 + i / 4096) else none
  | 2 => if i < 64 then some (2 + i / 16) else none
  | 3 => if i < 1024 then some (2 + i / 256) else none
  | 4 => if i < 64 then some (halfOfLane i) else none
  | _ => none

/-- The die that keeps an entity: an ONU's is its tree's; that of one since released is where its history lies. -/
def State.pmHome (s : State) (kind i : Nat) : Option Nat :=
  if kind = 4 ∧ s.portOf i ≠ i then none
  else if kind = 1 then match s.onu i with
    | some x => some (dieOfTree x.tree)
    | none => (s.pm.ents.find (pmKey 1 i)).map (fun e => e.die)
  else pmDie kind i

def pmBlk (die : Nat) : Nat × Blk := if die < 2 then (15, .ggc) else (die, .pmb)

/-- The die that owns an entity's object (R471): an uplink port's is its uplink die. -/
def pmOwner (kind i die : Nat) : Nat := if kind = 4 then dieOfLane (i % 64) else die

/-- R585, R595: PM.ENTITY_SET. Enabling clears the history; the bins in force begin incomplete (R592). -/
def execPmEntitySet (h : Hdr) (kind index enable : Word) (s : State) : Host.Outcome State Fault Refusal :=
  let k := kind.toNat
  let i := index.toNat
  let die := (s.pmHome k i).getD 15
  .next (command h 0x0C00 (.owner (pmOwner k i die)) (fun _ s =>
    if (s.pmHome k i).isNone ∨ !flagOk enable then .fail s .badParam
    else s.unlessClaimed [pmBlk die] (
      let key := pmKey k i
      if enable = 0 then .ok (s.modPmEnt key (fun e => { e with enabled := false }))
      else if !s.hasSegment (pmHalf die) 2 then .fail s .noRoom
      else
        let bin := fun (day : Bool) => (⟨binStart day (secOf (s.nowOn die)), [], 2 ^ suspectIncomplete, []⟩ : PmBin)
        let e : PmEnt := ⟨die, true, [bin false], [bin true], [], false, 0, 0, s.pmDefectNow key⟩
        .ok { s with pm := { s.pm with
          ents := s.pm.ents.put key e
          began := if s.pm.began.has die then s.pm.began else s.pm.began.put die (s.pmBegins die) } })) s)

/-- A bin by its number in PM.READ: 24-hour or not, and how many bins back (R591). -/
def pmBinOf (n : Nat) : Option (Bool × Nat) :=
  if n ≤ 96 then some (false, n) else if n = 0x100 then some (true, 0) else if n = 0x101 then some (true, 1) else none

def PmBin.words (b : PmBin) : List Word :=
  (List.range 32).flatMap (fun p => wordsOf 64 (Tbl.getD b.params p 0)) ++ timeWords (mkTime b.start 0)
    ++ [BitVec.ofNat 32 b.suspect, BitVec.ofNat 32 (b.suspect.testBit suspectIncomplete).toNat]

/-- A bin that the entity has not lived through: zeros, incomplete (R591). -/
def PmBin.absent : PmBin := ⟨0, [], 2 ^ suspectIncomplete, []⟩

/-- R552: an uncorrectable HBM error under a use other than DEEP's: counted, raised, the page (stack × 2^22 + page) retired. -/
def State.hbmError (s : State) (half page inst : Nat) : State :=
  (s.retirePage half (page / 2 ^ 22) (page % 2 ^ 22)).report .hbmEccErr half .hbmEcc half inst

/-- R552, R592: a bin whose page has an uncorrectable error reads zero from then on, suspect. -/
def State.binLost (s : State) (key : Nat) (day : Bool) (n page : Nat) : State :=
  match s.pm.ents.find key with
  | none => s
  | some e =>
    match (e.bins day)[n]? with
    | none => s
    | some b =>
      let e := e.setBins day ((e.bins day).set n ({ b with params := [] }.mark suspectHbm))
      ({ s with pm := { s.pm with ents := s.pm.ents.put key e } }).hbmError (pmHalf e.die) page (64 + 63)

/-- R591: PM.READ. A bin that closed less than 10 s ago is NOT_READY. `ecc` is the page of the bin, where the read finds an
uncorrectable error in it (R552). -/
def execPmRead (h : Hdr) (kind index bin : Word) (ecc : Option (BitVec 23)) (s : State) : Host.Outcome State Fault Refusal :=
  let k := kind.toNat
  let i := index.toNat
  let die := (s.pmHome k i).getD 15
  .next (command h 0x0C01 (.owner (pmOwner k i die)) (fun _ s =>
    match s.pmHome k i, pmBinOf bin.toNat with
    | some _, some (day, n) =>
      let s := match ecc with
        | some p => s.binLost (pmKey k i) day n p.toNat
        | none => s
      match (s.pm.ents.find (pmKey k i)).bind (fun e => (e.bins day)[n]?) with
      | none => .ok s PmBin.absent.words
      | some b =>
        let sec := secOf (s.nowOn die)
        if 0 < n ∧ secReached sec (b.start + binLen day) ∧ !secReached sec (b.start + binLen day + 10) then .fail s .notReady
        else .ok s b.words
    | _, _ => .fail s .badParam) s)

/-- Parameters that R588 lists for a kind. -/
def pmListed (kind : Nat) : Nat := if kind < 2 then 16 else if kind < 4 then 10 else if kind = 4 then 12 else 0

/-- R594: PM.TCA_SET: bin length 0 for 15 minutes, 1 for 24 hours (log entry 80). -/
def execPmTcaSet (h : Hdr) (kind param length threshold : Word) (s : State) : Host.Outcome State Fault Refusal :=
  .next (command h 0x0C02 .package (fun _ s =>
    let k := kind.toNat
    if pmListed k ≤ param.toNat ∨ 1 < length.toNat then .fail s .badParam
    else s.unlessClaimed (if k = 4 then [(15, .ggc)] else [(2, .pmb), (3, .pmb), (4, .pmb), (5, .pmb)]) (
      .ok { s with pm := { s.pm with
        thresholds := s.pm.thresholds.setD ((k * 32 + param.toNat) * 2 + length.toNat) 0 threshold.toNat } })) s)

def PmTca.words (x : PmTca) : List Word :=
  [BitVec.ofNat 32 x.ent, BitVec.ofNat 32 x.param, BitVec.ofNat 32 x.day.toNat] ++ timeWords (mkTime x.bin 0) ++ timeWords x.at_

/-- Dies whose entities a half keeps. -/
def pmDies (half : Nat) : List Nat := [half, 2 + 2 * half, 3 + 2 * half]

/-- R603: PM.STATUS: enabled entities, the TCA list, which it empties, and the pmb counters. -/
def execPmStatus (h : Hdr) (s : State) : Host.Outcome State Fault Refusal :=
  .next (command h 0x0C03 (.oneOf [0, 1]) (fun _ s =>
    let half := h.die.toNat
    s.unlessClaimed (if half = 0 then [(15, .ggc), (2, .pmb), (3, .pmb)] else [(15, .ggc), (4, .pmb), (5, .pmb)]) (
      let on := s.pm.ents.filter (fun p => p.2.enabled && pmHalf p.2.die = half)
      let l := Tbl.getD s.pm.tcas half []
      .ok { s with pm := { s.pm with tcas := Tbl.setD s.pm.tcas half [] [] } }
        (listWords (on.map (fun p => BitVec.ofNat 32 p.1)) ++ (BitVec.ofNat 32 l.length :: l.flatMap PmTca.words)
          ++ [Ctr.pmbSecLost, .pmbTcaDrop].flatMap (fun c => ctrWords (sumOn (pmDies half) (fun d => s.ctr c d)))))) s)

/-! ### Clocks and gauge counters (R596, R605) -/

/-- The clock of a unit's region in kHz (R19); none for the clocks locked to REFCLK_UPL. -/
def unitClock (b : Blk) : Option Nat :=
  match b with
  | .tb | .gnt | .act | .pmb | .sys | .evt | .pwr | .tns | .rmd | .sec | .ggc => some 625000
  | .pch | .brx | .skn | .cad | .lnp => some 777600
  | .lnu | .umac | .tsi | .tnd => none
  | _ => some 1500000

/-- The region that holds a unit, where tension may stretch it (R19, R613). -/
def unitRegion (die : Nat) (b : Blk) (u : Nat) : Option Nat :=
  if die < 2 then
    match b with
    | .pipe => some (die * 18 + u)
    | .sch | .gt => some (die * 18 + 9)
    | .sq | .kv => some (die * 18 + 11)
    | _ => none
  else if die < 6 then
    match b with
    | .cph | .sq => some (36 + (die - 2) * 6 + 5)
    | _ => none
  else if die < 8 then
    match b with
    | .msc | .sq => some (60 + (die - 6) * 6 + 5)
    | _ => none
  else none

/-- Time a region's clock has lost to its stretch: at s steps a cycle takes (16 + s) / 16 of the nominal one (R614). -/
def State.lostOf (s : State) (r : Nat) : Nat :=
  let n := s.fld .tnsStatS r
  Tbl.getD s.power.lost r 0 + (s.elapsed - Tbl.getD s.power.stretchAt r 0) * n / (16 + n)

/-- Cycles of a unit's region clock since cast-on; those of a clock locked to REFCLK_UPL are its standard's (log entry 80). -/
def State.cycles (s : State) (w : Nat) : Nat :=
  match unitBlk w with
  | none => 0
  | some b =>
    let lost := match unitRegion (unitDie w) b (unitNo w) with
      | some r => s.lostOf r
      | none => 0
    match unitClock b with
    | some khz => (s.elapsed - lost) * khz / (nsUnit * 1000000)
    | none => Config.standard 60 [s.elapsed]

/-- What an input of a unit has counted (R605). -/
def State.gaugeSel (s : State) (w sel : Nat) : Nat :=
  if sel = 0x100 then s.cycles w
  else if sel = 0x101 then (Tbl.getD s.gauge.carried w (0, 0)).1
  else if sel = 0x102 then (Tbl.getD s.gauge.carried w (0, 0)).2
  else if sel = 0 then 0
  else match unitBlk w with
    | some b => match (inOrder b)[sel - 1]? with
      | some c => unitCtr s.ctrs (unitDie w) b (unitNo w) c
      | none => 0
    | none => 0

def cfgInst (w k : Nat) : Nat := w * 128 + k

/-- What gauge counter k has counted, and what its input has: the carries of the counter below it where that is chained. -/
def State.gaugeTotal (s : State) (w : Nat) : Nat → Nat
  | 0 => Tbl.getD s.gauge.counts (gaugeKey w 0) 0 + (s.gaugeSel w (s.fld .ggcCfgSel (cfgInst w 0)) - Tbl.getD s.gauge.bases (gaugeKey w 0) 0)
  | k + 1 =>
    let input := if s.flag .ggcCfgChain (cfgInst w k) then State.gaugeTotal s w k / 2 ^ 48 else s.gaugeSel w (s.fld .ggcCfgSel (cfgInst w (k + 1)))
    Tbl.getD s.gauge.counts (gaugeKey w (k + 1)) 0 + (input - Tbl.getD s.gauge.bases (gaugeKey w (k + 1)) 0)

def State.gaugeInput (s : State) (w : Nat) : Nat → Nat
  | 0 => s.gaugeSel w (s.fld .ggcCfgSel (cfgInst w 0))
  | k + 1 => if s.flag .ggcCfgChain (cfgInst w k) then s.gaugeTotal w k / 2 ^ 48 else s.gaugeSel w (s.fld .ggcCfgSel (cfgInst w (k + 1)))

/-- A gauge counter's 48 bits, and the wrap bit of an unchained one (R596). -/
def State.gauge48 (s : State) (w k : Nat) : Nat := s.gaugeTotal w k % 2 ^ 48
def State.gaugeOvf (s : State) (w : Nat) : Word :=
  (List.range 8).foldl (fun v k => if !s.flag .ggcCfgChain (cfgInst w k) ∧ 2 ^ 48 ≤ s.gaugeTotal w k then v ||| BitVec.ofNat 32 (2 ^ k) else v)
    (s.reg .ggcOvf w)

/-- Eight counters take given counts from now on. -/
def State.gaugeSet (s : State) (w : Nat) (f : Nat → Nat) : State :=
  let s := { s with gauge := { s.gauge with
    counts := (List.range 8).foldl (fun (t : Tbl Nat) k => t.setD (gaugeKey w k) 0 (f k)) s.gauge.counts
    bases := (List.range 8).foldl (fun (t : Tbl Nat) k => t.del (gaugeKey w k)) s.gauge.bases } }
  (List.range 8).foldl (fun s k =>
    { s with gauge := { s.gauge with bases := s.gauge.bases.setD (gaugeKey w k) 0 (s.gaugeInput w k) } }) s

/-- A unit's selectors are written: its counts stay, and its counters count their new inputs from now on (R605). -/
def State.gaugeConfigure (s : State) (w : Nat) (write : State → State) : State :=
  let ovf := s.gaugeOvf w
  let f := fun k => s.gauge48 w k
  let vs := (List.range 8).map f
  ((write s).setReg .ggcOvf w ovf).gaugeSet w (fun k => vs.getD k 0)

/-- The counters of every unit with a selected input, as they stand at the end of a clock cycle. -/
def State.markGauges (s : State) : Tbl Nat :=
  (((s.regs.filter (fun p => p.1 % 1024 = Reg.ggcCfg.ctorIdx)).map (fun p => p.1 / 1024)).map
    (fun i => (gaugeKey (i / 128) (i % 128), s.gaugeTotal (i / 128) (i % 128))))

/-- A cycle of the clock passes (log entry 4); what the gauge counters hold before it tells the wraps of the new cycle (R8). The heads
that waited for an admission go first in it (R331). -/
def State.cycleOver (s : State) : State :=
  let m := s.markGauges
  let s := s.tick
  let s := { s with gauge := { s.gauge with marks := m, markAt := s.elapsed } }
  (s.admitWaiting 0).admitWaiting 1

/-- The wrap bits of a unit set in this cycle (R8, R605). -/
def State.freshOvf (s : State) (w : Nat) : Word :=
  if s.gauge.markAt ≠ s.elapsed then 0
  else (List.range 8).foldl (fun v k =>
    if Tbl.getD s.gauge.marks (gaugeKey w k) 0 / 2 ^ 48 < s.gaugeTotal w k / 2 ^ 48 then v ||| BitVec.ofNat 32 (2 ^ k) else v) 0

/-- R605: a write of GGC_OVF clears wrap bits, but for those of its own cycle (R8). -/
def State.clearOvf (s : State) (w : Nat) (data : Word) : State :=
  let fresh := s.freshOvf w
  s.gaugeConfigure w id |> fun s => s.setReg .ggcOvf w ((s.reg .ggcOvf w &&& ~~~data) ||| (s.reg .ggcOvf w &&& fresh))

/-! ### GAUGE commands -/

/-- R603: GAUGE.READ of a unit: the sequence (0 for live values), then the counters. -/
def execGaugeRead (h : Hdr) (block unit live : Word) (s : State) : Host.Outcome State Fault Refusal :=
  .next (command h 0x0D02 claimDies (fun _ s =>
    let w := h.die.toNat * 2 ^ 22 + block.toNat * 2 ^ 16 + unit.toNat
    match blockOf h.die.toNat block.toNat with
    | none => .fail s .badParam
    | some b =>
      if 65535 < unit.toNat ∨ !unitExists w ∨ !flagOk live then .fail s .badParam
      else if live = 1 then
        let s := s.prbsLook
        .ok s (0 :: unitWords s.ctrs (s.gauge48 w) w b)
      else match s.gauge.last with
        | none => .fail s .notReady
        | some x => .ok s (BitVec.ofNat 32 x.seq :: unitWords x.ctrs (fun k => Tbl.getD x.gauges (gaugeKey w k) 0) w b)) s)

/-- Slots of a pipeline since cast-on: three in every 2 ns (R600). -/
def slotCount (span : Nat) : Nat := span * 3 / (2 * nsUnit)

/-- The six accounts of a pipeline: stretched from its region's lost time, empty the slots in no other account. The time-driven
model holds no head back (log entry 80). -/
def State.slotAccounts (s : State) (half p : Nat) : List Nat :=
  let a := fun n => Tbl.getD s.gauge.slots ((half * 16 + p) * 8 + n) 0
  let stretched := slotCount (s.lostOf (half * 18 + p))
  let used := stretched + a 2 + a 3 + a 4 + a 5
  [stretched, a 2, a 3, a 4, a 5, slotCount s.elapsed - used]

/-- R600: GAUGE.SLOTS. -/
def execGaugeSlots (h : Hdr) (pipeline : Word) (s : State) : Host.Outcome State Fault Refusal :=
  .next (command h 0x0D03 claimDies (fun _ s =>
    let half := h.die.toNat
    let p := pipeline.toNat
    if 1 < half ∨ 8 < p then .fail s .badParam
    else .ok s ((s.slotAccounts half p ++ [slotCount s.elapsed]).flatMap ctrWords)) s)

/-- The histogram of an uplink port or channel: a word below 64 names a port, 128 + c a channel (log entry 64). -/
def histOf (w : Nat) : Option (Nat × Nat × Nat) :=
  if w < 64 then some (dieOfLane w, halfOfLane w, w % 32)
  else if 128 ≤ w ∧ w < 256 then some (dieOfChan (w - 128), halfOfChan (w - 128), 32 + (w - 128) % 64)
  else none

/-- R601: GAUGE.HIST_READ. -/
def execGaugeHistRead (h : Hdr) (port : Word) (s : State) : Host.Outcome State Fault Refusal :=
  .next (command h 0x0D04 (.owner ((histOf port.toNat).map Prod.fst |>.getD 15)) (fun _ s =>
    match histOf port.toNat with
    | none => .fail s .badParam
    | some (_, half, g) =>
      if g < 32 ∧ s.portOf port.toNat ≠ port.toNat then .fail s .badParam
      else .ok s ((List.range 16).map (fun b => BitVec.ofNat 32 (Tbl.getD s.gauge.hists ((half * 128 + g) * 16 + b) 0)))) s)

/-- R592: the bins in force of the entities that the cleared counters feed become suspect. -/
def State.markCleared (s : State) (ks : List Nat) (b : Blk) : State :=
  ks.foldl (fun s k =>
    match (ctrOf k b).bind (fun c => s.pmFed c (k / 1024)) with
    | some (kind, i, _) => s.modPmEnt (pmKey kind i) (fun e => e.markNow suspectClear)
    | none => s) s

/-- The egress whose histogram a unit's clear zeroes: a port's UMAC, a channel's PCH (R601). -/
def unitHist (w : Nat) : Option Nat :=
  match unitBlk w with
  | some .umac => some (unitNo w / 32 * 128 + unitNo w % 32)
  | some .pch => some (unitNo w / 64 * 128 + 32 + unitNo w % 64)
  | _ => none

/-- R597: a unit's named and gauge counters go to zero. -/
def State.clearUnit (s : State) (w : Nat) (b : Blk) : State :=
  let gone := fun (p : Nat × Nat) => entryOf (unitDie w) b (unitNo w) p.1
  let s := s.markCleared ((s.ctrs.filter gone).map Prod.fst) b
  let hists := match unitHist w with
    | some e => s.gauge.hists.filter (fun p => p.1 / 16 != e)
    | none => s.gauge.hists
  { s with ctrs := s.ctrs.filter (fun p => !gone p), gauge := { s.gauge with hists := hists } }.gaugeSet w (fun _ => 0)

/-- R597, R603: GAUGE.CLEAR. -/
def execGaugeClear (h : Hdr) (block unit : Word) (s : State) : Host.Outcome State Fault Refusal :=
  .next (command h 0x0D05 claimDies (fun _ s =>
    let d := h.die.toNat
    let w := d * 2 ^ 22 + block.toNat * 2 ^ 16 + unit.toNat
    match blockOf d block.toNat with
    | none => .fail s .badParam
    | some b =>
      if 65535 < unit.toNat ∨ !unitExists w then .fail s .badParam
      else s.unlessClaimed [(d, b)] (.ok (s.clearUnit w b))) s)

/-! ### Snapshots (R598, R599) -/

/-- The instant a snapshot is taken: one less than 10 µs ahead, or "now", gives 10 µs from now. -/
def State.snapInstant (s : State) (t : T3) : Nat :=
  if T3.isNone t ∨ timeDiff s.now (T3.time t) > -10000 then (s.now + usSpan 10) % timeMod else T3.time t

/-- R598: GAUGE.SNAP; "now" is all ones. One single snapshot at a time. -/
def execGaugeSnap (h : Hdr) (instant : T3) (s : State) : Host.Outcome State Fault Refusal :=
  .next (command h 0x0D00 .package (fun caller s =>
    s.unlessClaimed [(15, .ggc)] (
      if s.gauge.single.isSome ∨ s.asyncFull then .fail s .busy
      else
        let t := s.snapInstant instant
        ⟨{ s with gauge := { s.gauge with single := some (caller, t) } }, .accepted, timeWords t, false⟩)) s)

/-- The first instant of a period at or after a time, times being compared modulo 2^48 s (R51). -/
def nextPeriod (first span now : Nat) : Nat :=
  let d := (now + timeMod - first % timeMod) % timeMod
  if timeMod ≤ 2 * d then first else (first + ceilDiv d (max 1 span) * span) % timeMod

/-- R598: GAUGE.PERIOD_SET, in ms; 0 turns it off. -/
def execGaugePeriodSet (h : Hdr) (period : Word) (first : T3) (s : State) : Host.Outcome State Fault Refusal :=
  .next (command h 0x0D01 .package (fun _ s =>
    if 1000000 < period.toNat then .fail s .badParam
    else s.unlessClaimed [(15, .ggc)] (
      .ok { s with gauge := { s.gauge with
        periodic := if period = 0 then none else some (period.toNat, nextPeriod (T3.time first) (msSpan period.toNat) s.now) } })) s)

/-- A buffer is owned by GAUGE. -/
def State.gaugeOwns (s : State) (die buf : Nat) : Bool := (bufferBanks die buf).all (fun b => s.bankOwner die b = 2)

/-- The buffer a die's snapshot goes to: the one that does not hold the last, where GAUGE owns it, else the other. -/
def State.nextBuffer (s : State) (die : Nat) : Option Nat :=
  let old := Tbl.getD s.gauge.bufs die 1
  if s.gaugeOwns die (1 - old) then some (1 - old) else if s.gaugeOwns die old then some old else none

/-- The dies that write snapshots. -/
def State.snapDies (s : State) : List Nat := if s.is064 then [0, 1, 2, 3] else [0, 1, 2, 3, 4, 5]

/-- The values a snapshot latches (R598). -/
def State.snapshot (s : State) : Snapshot where
  seq := (s.fld .ggcSnapStatSeq 0 + 1) % 2 ^ 24
  at_ := s.now
  ctrs := s.ctrs
  gauges := ((s.regs.filter (fun p => p.1 % 1024 = Reg.ggcCfg.ctorIdx)).map (fun p => p.1 / 1024)).foldl
    (fun (t : Tbl Nat) i => t.put (gaugeKey (i / 128) (i % 128)) (s.gauge48 (i / 128) (i % 128))) []
  slots := [0, 1].foldl (fun (t : Tbl Nat) half => (List.range 9).foldl (fun (t : Tbl Nat) p =>
    ((s.slotAccounts half p).zip (List.range 6)).foldl (fun (t : Tbl Nat) x => t.setD ((half * 16 + p) * 8 + 1 + x.2) 0 x.1) t) t) []
  hists := s.gauge.hists

/-- A launch of a snapshot: it is latched, or skipped where one is still being written or a die has no buffer. -/
def State.launchSnapshot (s : State) (caller : Option Caller) : State :=
  let bufs := s.snapDies.map (fun d => (d, s.nextBuffer d))
  if s.gauge.latched.isSome ∨ bufs.any (fun b => b.2.isNone) then
    let s := s.report .ggcSnapSkip 0 .ggcSnapSkip 15 0
    match caller with
    | some c => s.answer c .busy []
    | none => s
  else
    let s := s.prbsLook
    let x := s.snapshot
    let bs := bufs.foldl (fun (t : Tbl Nat) b => t.put b.1 (b.2.getD 0)) []
    { s with gauge := { s.gauge with latched := some (x, caller, bs) } }.setFlag .ggcSnapStatBusy 0 true

/-- R598: a snapshot's instant is reached, on the replica of every die (R55): each has latched then. -/
def execSnapshotLaunch (s : State) : Host.Outcome State Fault Refusal :=
  match s.gauge.single with
  | some (c, t) =>
    if s.allReached t then .next ({ s with gauge := { s.gauge with single := none } }.launchSnapshot (some c))
    else match s.gauge.periodic with
      | some (p, t) =>
        if s.allReached t then
          .next ({ s with gauge := { s.gauge with periodic := some (p, nextPeriod t (msSpan p) (s.now + 1)) } }.launchSnapshot none)
        else .next s
      | none => .next s
  | none =>
    match s.gauge.periodic with
    | some (p, t) =>
      if s.allReached t then
        .next ({ s with gauge := { s.gauge with periodic := some (p, nextPeriod t (msSpan p) (s.now + 1)) } }.launchSnapshot none)
      else .next s
    | none => .next s

/-- The banks of a completed snapshot hold its image. -/
def State.putImage (s : State) (x : Snapshot) (die buf : Nat) : State :=
  (bufferBanks die buf).foldl (fun s b =>
    let s := s.clearBank die b
    { s with gauge := { s.gauge with images := s.gauge.images.put (die * 256 + b) x } }) s

/-- Bytes of a die's units in a snapshot (R599). -/
def snapBytes (die : Nat) : Nat :=
  sumOn (allBlocks.filter (fun b => ((dieKind die).bind (fun k => Blk.number k b)).isSome)) (fun b =>
    unitCount die b * (4 + 8 * (b.ctrs.length + 8)))

/-- Bank time of so many bytes (R541). -/
def bankSpan (bytes : Nat) : Nat := ceilDiv bytes 32 * nsUnit * 2 / 3

/-- The GAUGE_PM rations of a snapshot (R32, R599) with their time: a core die writes its uplink die's counters too, whose collection
takes that die's ration the time their writing takes (log entry 10). -/
def State.snapRations (s : State) : List ((Nat × Nat) × Nat) :=
  s.snapDies.map (fun d => ((d, if d < 2 then 22 else 1), bankSpan (16 + snapBytes d + if d < 2 then snapBytes (6 + d) else 0)))
    ++ [6, 7].map (fun d => ((d, 1), bankSpan (snapBytes d)))

/-- The snapshot that every die has written is the last completed one. -/
def State.snapshotWritten (s : State) (x : Snapshot) (caller : Option Caller) (bufs : Tbl Nat) : State :=
    let s := bufs.foldl (fun s b => s.putImage x b.1 b.2) s
    let s := { s with gauge := { s.gauge with latched := none, last := some x, bufs := bufs } }
    let s := s.setReg .ggcSnapStat 0 (BitVec.ofNat 32 (Tbl.getD bufs 0 0 * 2 ^ 30 + x.seq))
    let s := s.raise .ggcSnapDone 15 0
    match caller with
    | some c => s.answer c .ok [BitVec.ofNat 32 x.seq, BitVec.ofNat 32 (sumOn bufs (fun b => b.2 * 2 ^ b.1))]
    | none => s

/-- A die's ration serves as much as it may now of the time that the snapshot being written takes of it (R30, R34, R35): whether that was
the rest. -/
def State.serveSnap (s : State) (r : (Nat × Nat) × Nat) : State × Bool :=
  let s := s.wantTime r.1.1 r.1.2
  let i := r.1.1 * 64 + r.1.2
  let had := Tbl.getD s.gauge.written i 0
  let part := s.rationSpan r.1.1 r.1.2 (r.2 - had)
  let s := s.charge r.1.1 r.1.2 part
  ({ s with gauge := { s.gauge with written := s.gauge.written.put i (had + part) } }, r.2 ≤ had + part)

/-- R599: the dies write their snapshots under GAUGE_PM, each as much as its ration serves; once each has written all of it, the snapshot
is done (R35). -/
def execSnapshotDone (s : State) : Host.Outcome State Fault Refusal :=
  match s.gauge.latched with
  | none => .next s
  | some (x, caller, bufs) =>
    let rations := s.snapRations
    let (s, done) := rations.foldl (fun (a : State × Bool) r =>
      let (s, all) := a.1.serveSnap r
      (s, a.2 && all)) (s, true)
    .next (if done then { s with gauge := { s.gauge with written := [] } }.snapshotWritten x caller bufs else s)

end Sys2Proof.Machine
end

