-- ==== Sys2Proof/Machine/Power.lean ====
section
/-!
DEFINITION. Power domains (R610-R612), sensors (R609), tension (R613-R615), wear (R616) and the remuda (R617, R618): the POWER
and REMUDA commands (R619) and what the device does by itself. Readings: log entry 84.
-/

namespace Sys2Proof.Machine

/-! ### Regions (R613, R19) -/

def regionDie (r : Nat) : Nat := if r < 36 then r / 18 else if r < 60 then 2 + (r - 36) / 6 else 6 + (r - 60) / 6
def regionIdx (r : Nat) : Nat := if r < 36 then r % 18 else r % 6
/-- The part has the die (R1, R2). -/
def State.hasDie (s : State) (die : Nat) : Bool := die < 8 && !s.dieFused die
def State.hasRegion (s : State) (r : Nat) : Bool := r < 72 && s.hasDie (regionDie r)
/-- A region whose clock tension stretches (R19): pipelines, schedulers and SEQ of a core die, CPS, MSC. -/
def stretches (r : Nat) : Bool := if r < 36 then regionIdx r < 12 else regionIdx r = 5

/-! ### Domains (R610-R612) -/

inductive DomainKind where
  | pipe (half n : Nat)
  | banks (half group : Nat)
  | tc (die n : Nat)
  | pcs (die n : Nat)
deriving DecidableEq, Repr

/-- The domains that POWER.DOMAIN_SET switches (R611). -/
def switchable (d : Nat) : Option DomainKind :=
  if 330 ≤ d ∧ d < 376 then
    let half := (d - 330) / 23
    let i := (d - 330) % 23
    if i < 9 then some (.pipe half i) else if 19 ≤ i ∧ i < 22 then some (.banks half (i - 18)) else none
  else if 376 ≤ d ∧ d < 400 then
    let i := (d - 376) % 6
    if i < 4 then some (.tc (2 + (d - 376) / 6) i) else none
  else if 400 ≤ d ∧ d < 412 then
    let i := (d - 400) % 6
    if i < 4 then some (.pcs (6 + (d - 400) / 6) i) else none
  else none

def DomainKind.die : DomainKind → Nat
  | .pipe h _ | .banks h _ => h
  | .tc d _ | .pcs d _ => d

/-- R611: the domain may be switched off now. -/
def State.mayPowerOff (s : State) : DomainKind → Bool
  | .pipe h n => !s.pipeServes h n && ((n = 8 && (s.spareServes h).isNone)
      || (List.range 9).any (fun m => m ≠ n && s.pipeServes h m && (s.pipeUp h m == s.pipeUp h n)))
  | .banks h g => (List.range 16).all (fun b =>
      s.bankOwner h (16 * g + b) = 0 && !s.bankPending h (16 * g + b) && !s.bankBusy h (16 * g + b))
  | .tc d n => (List.range 8).all (fun i =>
      let c := (d - 2) * 32 + 8 * n + i
      !s.flag .pchCfgEnable c && s.laneState 0 c = 0 && s.laneState 1 c = 0)
  | .pcs d n => (List.range 8).all (fun i => s.laneState 2 ((d - 6) * 32 + 8 * n + i) = 0)
      && (n ≠ 3 || (List.range 4).all (fun i => s.laneState 3 ((d - 6) * 4 + i) = 0))

def domainDies (d : Nat) : DieRule :=
  match switchable d with
  | some k => .owner k.die
  | none => .oneOf (List.range 16)

/-- R611, R612: POWER.DOMAIN_SET. -/
def execPowerDomainSet (h : Hdr) (domain on : Word) (s : State) : Host.Outcome State Fault Refusal :=
  .next (command h 0x0F00 (domainDies domain.toNat) (fun caller s =>
    let d := domain.toNat
    match switchable d with
    | none => .fail s .badParam
    | some k =>
      if !flagOk on ∨ !s.hasDie k.die then .fail s .badParam
      else s.unlessClaimed [(15, .pwr)] (
        if s.power.switches.any (fun x => x.1 = d) ∨ (on = 0 ∧ !s.mayPowerOff k) ∨ s.asyncFull then .fail s .busy
        else .accepted (s.modPower (fun p => { p with switches := p.switches ++ [(d, decide (on = 1), caller)] })))) s)

/-- What a domain that wakes has cleared (R548). -/
def State.clearDomain (s : State) : DomainKind → State
  | .banks h g => (List.range 16).foldl (fun s b => s.clearBank h (16 * g + b)) s
  | _ => s

/-- R612: a switch ends. -/
def execDomainSwitchDone (domain : BitVec 9) (s : State) : Host.Outcome State Fault Refusal :=
  let d := domain.toNat
  match s.power.switches.find? (fun x => x.1 = d) with
  | none => .next s
  | some (_, on, caller) =>
    let s := s.modPower (fun p => { p with switches := p.switches.filter (fun x => x.1 != d) })
    let wakes := on && !s.domainOn d
    let s := match switchable d with
      | some k => if wakes then s.clearDomain k else s
      | none => s
    .next ((s.setDomain d on).answer caller .ok [])

/-! ### Sensors (R609) -/

/-- A sensor's reading as a signed number of half degrees. -/
def halfDegrees (t : BitVec 12) : Int := signedOf 12 t.toNat

/-- A region's temperature register as a signed number. -/
def State.temperature (s : State) (r : Nat) : Int := signedOf 12 (s.fld .pwrTempV r)

/-- A level is crossed when the sensor reaches it and did not stand there: bit 0 warning, 1 maximum, 2 alarm. -/
def levelBits (t warn : Int) : Nat :=
  (if 2 * warn ≤ t then 1 else 0) + (if 210 < t then 2 else 0) + (if 240 < t ∨ t < -80 then 4 else 0)

def crossed (old new k : Nat) : Bool := new.testBit k && !old.testBit k

/-- R609: a region's sensor is read; `mw` is the package power estimate, where one falls due. -/
def execThermalSample (region : BitVec 7) (temp : BitVec 12) (mw : Option (BitVec 20)) (s : State) : Host.Outcome State Fault Refusal :=
  let r := region.toNat
  .next (if !s.hasRegion r then s
    else
      let s := s.setFld .pwrTempV r temp.toNat
      let s := match mw with
        | some v => s.setFld .pwrPkgMwV 0 v.toNat
        | none => s
      let old := Tbl.getD s.power.heat r 0
      let new := levelBits (halfDegrees temp) (s.fld .pwrThermCfgWarn 0)
      let s := s.modPower (fun p => { p with heat := p.heat.setD r 0 new })
      let s := if crossed old new 0 then s.report .pwrThermWarn r .pwrThermWarn 15 r else s
      let s := if crossed old new 1 then s.report .pwrThermMax r .pwrThermMax 15 r else s
      if crossed old new 2 then s.alarm 5 (regionDie r) .package else s)

/-- The hottest sensor: its region in [22:16], its reading in [11:0]. -/
def State.hottest (s : State) : Word :=
  let r := (List.range 72).foldl (fun best r => if s.hasRegion r ∧ s.temperature best < s.temperature r then r else best) 0
  BitVec.ofNat 32 (r * 65536 + s.fld .pwrTempV r)

/-- R609, R619: POWER.STATUS: PWR_DOM_STAT0-12, the package power, the hottest sensor. -/
def execPowerStatus (h : Hdr) (s : State) : Host.Outcome State Fault Refusal :=
  .next (command h 0x0F01 .package (fun _ s =>
    .ok s ((List.range 13).map (fun k => s.reg .pwrDomStat k) ++ [s.reg .pwrPkgMw 0, s.hottest])) s)

/-- The regions of a die. -/
def regionsOf (die : Nat) : List Nat := (List.range 72).filter (fun r => regionDie r = die)

/-- R619: POWER.SENSORS: of each region of the die its temperature, its stretch, and the four counters. -/
def execPowerSensors (h : Hdr) (s : State) : Host.Outcome State Fault Refusal :=
  .next (command h 0x0F03 (.oneOf (List.range 8)) (fun _ s =>
    .ok s ((regionsOf h.die.toNat).flatMap (fun r =>
      [s.reg .pwrTemp r, s.reg .tnsStat r]
        ++ [Ctr.tnsEpisode, .tnsStretchNs, .tnsDroopNs, .tnsHard].flatMap (fun c => ctrWords (s.ctr c r))))) s)

/-! ### Tension (R614, R615) -/

/-- R614, R619: POWER.TENSION_SET. -/
def execPowerTensionSet (h : Hdr) (region thr rel longUs : Word) (s : State) : Host.Outcome State Fault Refusal :=
  let r := region.toNat
  .next (command h 0x0F02 (if r < 72 then .owner (regionDie r) else .oneOf (List.range 16)) (fun _ s =>
    if 72 ≤ r ∨ thr.toNat < 4 ∨ 20 < thr.toNat ∨ rel.toNat < 1 ∨ 255 < rel.toNat ∨ 255 < longUs.toNat then .fail s .badParam
    else s.unlessClaimed [(15, .tns)]
      (.ok (((s.setFld .tnsCfgThr r thr.toNat).setFld .tnsCfgRel r rel.toNat).setFld .tnsCfgLongUs r longUs.toNat))) s)

def State.stretchOf (s : State) (r : Nat) : Nat := s.fld .tnsStatS r

/-- The stretch changes: what the clock lost at the old one is kept. -/
def State.setStretch (s : State) (r n : Nat) : State :=
  let lost := s.lostOf r
  (s.modPower (fun p => { p with lost := p.lost.setD r 0 lost, stretchAt := p.stretchAt.put r s.elapsed })).setFld .tnsStatS r n

/-- R614, R615: the supply falls below the threshold; `hard`: an unstretched region's, below -8 % for at least 2 ns. -/
def execDroopDetect (region : BitVec 7) (hard : Bool) (s : State) : Host.Outcome State Fault Refusal :=
  let r := region.toNat
  .next (if !s.hasRegion r then s
    else if stretches r then
      if s.flag .tnsStatBelow r then s
      else
        let s := (s.setFlag .tnsStatBelow r true).modPower (fun p => { p with droop := p.droop.put r s.elapsed, calm := p.calm.del r })
        let s := if s.power.episodes.has r then s
          else (s.modPower (fun p => { p with episodes := p.episodes.put r (s.elapsed, false) })).count .tnsEpisode r
        s.setStretch r 4
    else
      let s := if s.flag .tnsStatBelow r then s
        else (s.setFlag .tnsStatBelow r true).modPower (fun p => { p with droop := p.droop.put r s.elapsed })
      if hard then (s.count .tnsHard r).raiseOnce .tnsHard 15 r else s)

/-- R614: a further 20 ns below the threshold. -/
def execStretchStepUp (region : BitVec 7) (s : State) : Host.Outcome State Fault Refusal :=
  let r := region.toNat
  let n := s.stretchOf r
  let fell := Tbl.getD s.power.droop r 0
  .next (if stretches r ∧ s.flag .tnsStatBelow r ∧ fell + nsSpan (20 * (n / 4)) ≤ s.elapsed then s.setStretch r (min 32 (n + 4)) else s)

/-- R614, R615: the supply is back; an unstretched region's time below is counted. -/
def execDroopRecovery (region : BitVec 7) (s : State) : Host.Outcome State Fault Refusal :=
  let r := region.toNat
  .next (if !s.flag .tnsStatBelow r then s
    else
      let fell := Tbl.getD s.power.droop r 0
      let s := (s.setFlag .tnsStatBelow r false).modPower (fun p => { p with droop := p.droop.del r })
      if stretches r then s.modPower (fun p => { p with calm := p.calm.put r s.elapsed })
      else s.countBy .tnsDroopNs r ((s.elapsed - fell) / nsUnit))

/-- R614: a release step falls due; at 0 the episode ends, its duration counted. -/
def execStretchReleaseStep (region : BitVec 7) (s : State) : Host.Outcome State Fault Refusal :=
  let r := region.toNat
  let n := s.stretchOf r
  match s.power.calm.find r with
  | none => .next s
  | some t =>
    let due := t + nsSpan (10 * s.fld .tnsCfgRel r)
    .next (if n = 0 ∨ s.elapsed < due then s
      else
        let s := s.setStretch r (n - 1)
        if n = 1 then
          let began := ((s.power.episodes.find r).map Prod.fst).getD s.elapsed
          (s.modPower (fun p => { p with calm := p.calm.del r, episodes := p.episodes.del r })).countBy .tnsStretchNs r ((s.elapsed - began) / nsUnit)
        else s.modPower (fun p => { p with calm := p.calm.put r due }))

/-- R614: an episode lasts longer than long_us: once per episode; 0 turns the event off. -/
def execTensionEpisodeLong (region : BitVec 7) (s : State) : Host.Outcome State Fault Refusal :=
  let r := region.toNat
  let limit := s.fld .tnsCfgLongUs r
  match s.power.episodes.find r with
  | some (began, false) =>
    .next (if limit ≠ 0 ∧ began + usSpan limit < s.elapsed then
        (s.modPower (fun p => { p with episodes := p.episodes.put r (began, true) })).raise .tnsLong 15 r
      else s)
  | _ => .next s

/-! ### Wear (R616) -/

def daySpan : Nat := 86400 * secUnit

/-- The unit that a region is, where it is one: a pipeline, a TC, a PCS. -/
def regionUnit (r : Nat) : Option (Nat × Nat) :=
  if r < 36 then (if regionIdx r < 9 then some (0, regionIdx r) else none)
  else if regionIdx r < 4 then some (8, regionIdx r) else none

/-- R616: a region's aging monitor is measured; under a policy on wear a spare takes the worn unit's work (R618). -/
def execWearSample (region : BitVec 7) (ppm : Word) (s : State) : Host.Outcome State Fault Refusal :=
  let r := region.toNat
  let day := s.elapsed / daySpan
  .next (if !s.hasRegion r then s
    else
      let s := s.modPower (fun p => { p with wear := p.wear.setD r 0 ppm.toNat })
      if ppm.toNat ≤ s.fld .rmdCfgWearPpm 0 then s
      else
        let s := if s.power.wearTold.find r = some day then s
          else (s.modPower (fun p => { p with wearTold := p.wearTold.put r day })).count .rmdWear 0 |>.raise .rmdWear 15 r
        match regionUnit r with
        | some (kind, u) => if s.unitPolicy kind (regionDie r) = 2 ∧ !s.unitReplaced kind (regionDie r) u then s.autoSpare kind (regionDie r) u else s
        | none => s)

/-- R616, R619: REMUDA.WEAR_READ. -/
def execRemudaWearRead (h : Hdr) (region : Word) (s : State) : Host.Outcome State Fault Refusal :=
  let r := region.toNat
  .next (command h 0x1003 (if r < 72 then .owner (regionDie r) else .oneOf (List.range 16)) (fun _ s =>
    if !s.hasRegion r then .fail s .badParam
    else .ok s [BitVec.ofNat 32 (Tbl.getD s.power.wear r 0)]) s)

/-! ### The remuda (R617-R619) -/

/-- R619: REMUDA.STATUS. -/
def execRemudaStatus (h : Hdr) (s : State) : Host.Outcome State Fault Refusal :=
  .next (command h 0x1000 .package (fun _ s => .ok s ((List.range 9).map (fun k => s.reg .rmdKind k))) s)

/-- R618, R619: REMUDA.POLICY_SET. -/
def execRemudaPolicySet (h : Hdr) (kind policy : Word) (s : State) : Host.Outcome State Fault Refusal :=
  .next (command h 0x1002 .package (fun _ s =>
    if 8 < kind.toNat ∨ 2 < policy.toNat ∨ (kind = 6 ∧ policy ≠ 0) then .fail s .badParam
    else s.unlessClaimed [(15, .rmd)] (
      let s := s.setFld .rmdKindPolicy kind.toNat policy.toNat
      .ok (if kind = 8 then s.modPower (fun p => { p with pcsPolicy := policy.toNat }) else s))) s)

/-- A unit that a spare of the kind can replace: it exists, and is not itself an idle spare or already replaced. -/
def State.unitOk (s : State) (kind die unit : Nat) : Bool :=
  s.hasDie die && !s.unitReplaced kind die unit && (match kind with
  | 0 => die < 2 && (unit < 8 || (unit = 8 && (s.spareServes die).isSome))
  | 1 => 2 ≤ die && unit < 128 && unit % 64 < clusterSize die && (s.coreState die unit = 1 || s.coreState die unit = 3)
  | 2 => unit < spareIdx die || (unit = spareIdx die && s.fld .sqStatState (die * 128 + unit) != 0)
  | 3 => unit < 7
  | 4 => die < 2 && unit < 32
  | 5 => die < 2 && unit < 2 ^ 25
  | 6 => unit < 2 ^ 16
  | 7 => unit = 0
  | 8 => 2 ≤ die && unit < 4
  | _ => false)

/-- R617, R618: REMUDA.BRING_IN. A working sequencer is ordered to hold (R534, R536). -/
def execRemudaBringIn (h : Hdr) (kind unit : Word) (s : State) : Host.Outcome State Fault Refusal :=
  .next (command h 0x1001 (.oneOf (List.range 8)) (fun caller s =>
    let d := h.die.toNat
    let k := kind.toNat
    let u := unit.toNat
    if !s.unitOk k d u then .fail s .badParam
    else s.unlessClaimed [(15, .rmd)] (
      if s.bringing k d u ∨ s.asyncFull then .fail s .busy
      else if !s.spareLeft k d u then ⟨s.noSpare k d u, .noRoom, [], false⟩
      else
        let s := s.beginBringIn k d u (some caller)
        .accepted (if k = 2 then s.setSeq (d * 3 + u) { s.seq (d * 3 + u) with order := true } else s))) s)

/-- R617: pipeline 8 takes the failed pipeline's direction, sources and recirculation queue. -/
def State.pipelineIn (s : State) (half n : Nat) : State :=
  (s.replaceUnit 0 half n).modFwd half (fun f =>
    let q := Tbl.getD f.recirc n []
    let i := Tbl.getD f.injected n []
    { f with
      recirc := if q.isEmpty then f.recirc else (f.recirc.del n).put 8 (Tbl.getD f.recirc 8 [] ++ q)
      injected := if i.isEmpty then f.injected else (f.injected.del n).put 8 (Tbl.getD f.injected 8 [] ++ i) })

/-- R409, R428, R429: spares of a cluster take the known-answer tests before insertion, the lowest first, until one passes; the verdict on
each is free (log entry 95), and one that fails is retired. -/
def State.testSpares (s : State) (die : Nat) : List Nat → State × Option Nat
  | [] => (s, none)
  | c :: cs =>
    if s.free % 2 = 0 then (s.drawn, some c)
    else State.testSpares ((s.drawn.setCore die c 3).setFld .rmdKindLeft 1 (s.fld .rmdKindLeft 1 - 1)) die cs

/-- R409, R617: the cluster's first idle spare that passes its tests becomes active, and the core it replaces is retired, unless it failed
its own; without such a spare the core stays as it is: whether there was one. -/
def State.coreIn (s : State) (die core : Nat) : State × Bool :=
  match s.testSpares die (s.coresIn die (core / 64) 0) with
  | (s, some c) =>
    let s := if s.coreState die core = 1 then s.setCore die core 2 else s
    ((s.modPower (fun p => { p with replaced := p.replaced.put (unitKey 1 die core) () })).setCore die c 1, true)
  | (s, none) => (s, false)

/-- R617: the pseudo-channel's pages have moved to the spare. -/
def State.pseudoChannelIn (s : State) (half pc : Nat) : State :=
  let i := pcInst half pc
  let s := s.failUnit 4 half (pc / 16 * 32 + s.fld .hbmPcMapPhys i)
  match s.pcSpares half (pc / 16) with
  | x :: _ => ((s.setFld .hbmPcMapPhys i x).setFlag .hbmPcMapLost i false).unmarkHbm 4 half pc
  | [] => s

/-- R617: the row is repaired, and its retired pages are freed. -/
def State.rowIn (s : State) (half row : Nat) : State :=
  let mine := fun (p : Nat) => p / 2 ^ 22 = row / 2 ^ 24 && p % 2 ^ 22 / 2 = row % 2 ^ 24
  let freed := (s.storeOf half).retired.filter mine
  let s := s.modStore half (fun st => { st with retired := st.retired.filter (fun p => !mine p) })
  let s := freed.foldl (fun s p =>
    let i := pcInst half (p / 2 ^ 22 * 16 + p % 16)
    s.setFld .hbmPcMapRetired i (s.fld .hbmPcMapRetired i - 1)) s
  (s.modPower (fun p => { p with hbmRows := p.hbmRows.del (half * 2 ^ 28 + row) })).unmarkHbm 5 half row

/-- R617: a PCS moved to its spare restarts its ports per R98. -/
def State.pcsIn (s : State) (die n : Nat) : State :=
  ((List.range 8).map (fun i => s.portOf ((die - 6) * 32 + 8 * n + i))).eraseDups.foldl (fun s port => s.uplinkDown port) (s.replaceUnit 8 die n)

/-- R617: a spare other than a sequencer has taken the unit's work, and the bring-in completes; where no cipher core passes its tests there
is none left (R618). -/
def State.spareIn (s : State) (k d u : Nat) : State :=
  let (s, ok) := match k with
    | 0 => (s.pipelineIn d u, true)
    | 1 => s.coreIn d u
    | 4 => (s.pseudoChannelIn d u, true)
    | 5 => (s.rowIn d u, true)
    | 6 => (s.modPower (fun p => { p with repairs := p.repairs + 1 }), true)
    | 7 => (s.replaceUnit 7 d u, true)
    | 8 => (if d < 6 then s.replaceUnit 8 d u else s.pcsIn d u, true)
    | _ => (s, true)
  if ok then (s.spareUsed k d u).endBringIn k d u .ok else (s.noSpare k d u).endBringIn k d u .noRoom

/-- HBM command time of a bring-in: a pseudo-channel's 1 GiB, a row's two pages, read and written (R549, R552, R617). -/
def copySpan (kind : Nat) : Nat := hbmSpan (if kind = 4 then 2 ^ 31 else 2 ^ 14)

/-- A bring-in's copy in the HBM is served for as much of its time as HDMA allows now (R30, R35, R617): whether that was all. -/
def State.serveCopy (s : State) (k d u : Nat) : State × Bool :=
  let i := 28 + 5 * (if k = 4 then u / 16 else u / 2 ^ 24)
  let s := s.wantTime d i
  let had := sumOn (s.power.bringIns.filter (fun b => b.is k d u)) (fun b => b.served)
  let part := s.rationSpan d i (copySpan k - had)
  let s := s.charge d i part
  (s.modPower (fun p => { p with bringIns := p.bringIns.map (fun b => if b.is k d u then { b with served := b.served + part } else b) })
  , copySpan k ≤ had + part)

/-- R617: a bring-in's work is done; what is copied in the HBM is copied under HDMA, which may make it wait, and where a period's ration
serves a part of it the rest waits for the next. A sequencer's hand-over is SEQ_HANDOVER. -/
def execSpareBringInDone (kind : BitVec 4) (die : BitVec 3) (unit : Word) (s : State) : Host.Outcome State Fault Refusal :=
  let k := kind.toNat
  let d := die.toNat
  let u := unit.toNat
  .next (if k = 2 ∨ !s.bringing k d u then s
    else if k = 4 ∨ k = 5 then
      let (s, done) := s.serveCopy k d u
      if done then s.spareIn k d u else s
    else s.spareIn k d u)

/-- R617: a working sequencer has not reached holding within 10 ms: the command completes BUSY and the sequencer goes on. -/
def execBringInHoldTimeout (die : BitVec 3) (index : BitVec 2) (s : State) : Host.Outcome State Fault Refusal :=
  let d := die.toNat
  let u := index.toNat
  let q := d * 3 + u
  .next (if !(s.power.bringIns.any (fun b => b.is 2 d u && b.since + msSpan 10 < s.elapsed)) ∨ s.seqHolds q then s
    else
      let s := s.setSeq q { s.seq q with order := false }
      let s := if s.seqState q = 4 ∧ s.trust.pending.isNone then s.setSeqState q 1 else s
      s.endBringIn 2 d u .busy)

/-- R617, R618: a unit with a parity error is out of service, and a spare follows where the policy has it. -/
def State.parityError (s : State) (kind die n : Nat) : State :=
  if !s.hasDie die ∨ s.unitFailed kind die n then s else (s.failUnit kind die n).autoSpare kind die n

def execUnitParityError (u : ParityUnit) (s : State) : Host.Outcome State Fault Refusal :=
  .next (match u with
    | .pipeline half n =>
      if s.pipeServes half.toNat n.toNat then (s.count .pipeParErr half.toNat).parityError 0 half.toNat n.toNat else s
    | .tc line n =>
      let s := s.parityError 8 (2 + line.toNat) n.toNat
      ((List.range 8).map (line.toNat * 32 + 8 * n.toNat + ·)).foldl (fun s c => if s.tcOut c then s.darken c else s) s
    | .pcs uplink n => s.parityError 8 (6 + uplink.toNat) n.toNat)

/-- R16, R617: a link retrains with a lane remapped to a spare; no frame is lost or reordered. -/
def execUcieLaneRepair (link : BitVec 3) (s : State) : Host.Outcome State Fault Refusal :=
  let l := link.toNat
  .next (if !s.hasLink l ∨ s.ucieDown.contains l ∨ s.policy 3 = 0 then s
    else if s.spareLeft 3 0 l then s.spareUsed 3 0 l
    else s.noSpare 3 0 l)

/-- R617: the clock generator in use on a die loses lock; the duplicate takes over where the policy is automatic. -/
def execClockGeneratorLockLoss (die : BitVec 3) (s : State) : Host.Outcome State Fault Refusal :=
  let d := die.toNat
  .next (if !s.hasDie d then s
    else
      let s := s.failUnit 7 d 0
      if s.policy 7 = 0 ∨ s.bringing 7 d 0 then s
      else if s.spareLeft 7 d 0 then (s.replaceUnit 7 d 0).spareUsed 7 d 0
      else s.noSpare 7 d 0)

end Sys2Proof.Machine
end

