-- ==== Sys2Proof/Machine/Scrub.lean ====
section
/-!
DEFINITION. The patrol scrub (R32, R547): what it does with a correctable and with an uncorrectable error of each memory (R160,
R284, R319, R346, R376, R400, R433, R552).
-/

namespace Sys2Proof.Machine

/-- The ration under which the patrol visits a memory (R32): the die and its index. -/
def patrolRation : ScrubSite → Nat × Nat
  | .alloc l _ => (2 + l.toNat, 0)
  | .rule h _ _ | .table h _ | .cells h _ _ | .pool h _ | .node h _ | .policer h _ | .gate h _ => (h.toNat, 21)
  | .keyRam d _ | .pad d _ _ | .sram d => (d.toNat, if d.toNat < 2 then 21 else 0)
  | .hbm h k _ _ => (h.toNat, if k = 0 then 27 else 32)
  | .round h => (h.toNat, 27)

/-- A correctable error is corrected and counted. The HBM also counts them by row (R552). -/
def State.scrubCorrect (s : State) (site : ScrubSite) : State :=
  match site with
  | .alloc l _ => s.count .gntMemCorr (2 + l.toNat)
  | .rule h _ _ => s.count .rulMemCorr h.toNat
  | .table h _ => s.count .brMemCorr h.toNat
  | .node h _ => s.count .schMemCorr h.toNat
  | .policer h _ => s.count .plcMemCorr h.toNat
  | .gate h g => s.count .gtMemCorr (h.toNat * 128 + g.toNat)
  | .keyRam d _ => if d.toNat < 2 then s else if d.toNat < 6 then s.count .cphMemCorr d.toNat else s.count .mscMemCorr d.toNat
  | .pad d _ _ => if d.toNat < 6 then s.count .spEccCorr d.toNat else s
  | .hbm h k page _ =>
    let half := h.toNat
    let row := k.toNat * 2 ^ 24 + page.toNat / 2
    let key := half * 2 ^ 28 + row
    let n := Tbl.getD s.power.hbmRows key 0 + 1
    let s := (s.modPower (fun p => { p with hbmRows := p.hbmRows.put key n })).count .hbmEccCorr half
    if s.fld .hbmCfgCorrThr half ≤ n then s.markHbm 5 half row else s
  | .round h => s.modPower (fun p => { p with hbmRows := p.hbmRows.filter (fun x => x.1 / 2 ^ 28 != h.toNat) })
  | .sram _ => s.count .sramPatrolFail 0
  | .cells _ _ _ | .pool _ _ => s

/-- R160: the record is granted nothing until it is committed again; a cause of R457 on a protected channel. -/
def State.allocBroken (s : State) (die rec_ : Nat) : State :=
  let k := (die - 2) * 16384 + rec_
  match s.pon.allocs.find k with
  | none => s
  | some r =>
    let c := s.recChan r
    (({ s with pon := { s.pon with allocs := s.pon.allocs.put k { r with memErr := true } } }).report .gntMemErr die .gntMemErr die c).chanCause c

/-- R284: the entry matches nothing until rewritten. -/
def State.ruleBroken (s : State) (half t i : Nat) : State :=
  match s.rule half t i with
  | none => s
  | some e => (s.setRule half t i (some { e with memErr := true })).report .rulMemErr half .rulMemErr half t

/-- The entries of a list but the one in a place. -/
def without {α : Type} (l : List α) (n : Nat) : List α := l.eraseIdx n

/-- R319: the entry is absent. -/
def Fwd.entryLost (f : Fwd) : TableMem → Fwd
  | .bridge i => { f with bridge := f.bridge.del i.toNat }
  | .service n => { f with svcs := f.svcs.del n.toNat }
  | .route n => { f with routes := without f.routes n.toNat }
  | .nextHop n => { f with nhs := f.nhs.del n.toNat }
  | .binding n => { f with binds := without f.binds n.toNat }
  | .domain n => { f with bds := f.bds.del n.toNat }
  | .routerMac n => { f with rmacs := f.rmacs.del n.toNat }
  | .flood n => { f with floods := f.floods.del n.toNat }

/-- R346: a frame with an uncorrectable cell is discarded. -/
def State.cellsBroken (s : State) (half q frame : Nat) : State :=
  let x := s.queue half q
  if x.frames.length ≤ frame then s
  else
    let first := sumOn (x.frames.take frame) (fun f => f.cells)
    let y := (x.without (fun a _ _ => decide (a = first))).1
    ((s.setQueue half q y).report .cstMemErr half .cstMemErr half 0).settle half q

/-- The heads of a half that hold a frame between its arrival and its admission, in lists and between passes, without it; each pass ended
leaves its version (R281). -/
def State.dropWay (s : State) (half name : Nat) : State :=
  let keep := fun (x : Head) => !(x.half = half && x.frame.name = name)
  let versions := (s.fwdOf half).recirc.flatMap (fun (p : Nat × List Pkt) => (p.2.filter (fun k => !keep k.head)).map (·.tag))
  let s := s.modFwd half (fun f => { f with
    upHeads := f.upHeads.filter keep
    downHeads := f.downHeads.filter keep
    injected := f.injected.map (fun (p : Nat × List Head) => (p.1, p.2.filter keep))
    recirc := f.recirc.map (fun (p : Nat × List Pkt) => (p.1, p.2.filter (fun k => keep k.head))) })
  let s := [0, 1].foldl (fun s h => s.modStore h (fun st => { st with
    bridge := st.bridge.filter (fun x => keep x.2.head)
    own := st.own.filter (fun x => keep x.2.2.head)
    repl := st.repl.filter (fun x => keep x.2.head) })) s
  versions.foldl (fun s v => s.dropVersion half v) s

/-- R346: the frame of the ingress, reassembly or host pool with an uncorrectable cell is discarded; nothing where there is none. -/
def State.poolBroken (s : State) (half : Nat) (m : PoolMem) : State :=
  let s' := match m with
    | .way name => s.dropWay half name.toNat
    | .context t port =>
      let k := t.toNat * 65536 + port.toNat
      if halfOfTree t.toNat = half ∧ s.pon.rsm.has k then { s with pon := { s.pon with rsm := s.pon.rsm.put k .discard } } else s
    | .held o seq =>
      match s.skeinOnus.find o.toNat with
      | some j => if j.skein / 32 = half then
          { s with skeinOnus := s.skeinOnus.put o.toNat { j with held := j.held.filter (fun x => x.seq != seq.toNat || !x.inPool) } } else s
      | none => s
    | .trap place => if (s.laosh.trapWait[place.toNat]?).any (fun x => x.half = half) then
        { s with laosh := { s.laosh with trapWait := without s.laosh.trapWait place.toNat } } else s
  if s' = s then s else s'.report .cstMemErr half .cstMemErr half 0

/-- R338: every frame with a cell in the page is discarded, whole. -/
def State.deepBroken (s : State) (half page : Nat) : State :=
  let hit := (s.storeOf half).queues.find? (fun (p : Nat × QueueSt) => p.2.pages.any (fun g => g.1 = page && g.2 != 0))
  let s := match hit with
    | none => s
    | some (q, x) =>
      let before := x.pages.takeWhile (fun (g : Nat × Nat) => g.1 != page)
      let lo := x.headCells + sumOn before Prod.snd
      let live := ((x.pages.find? (fun (g : Nat × Nat) => g.1 = page)).map Prod.snd).getD 0
      let (y, n) := x.without (fun a b _ => decide (0 < overlap a b lo (lo + live)))
      ((s.setQueue half q y).countBy .dstEccDrop half n).settle half q
  (s.raise .dstEcc half (page / 2 ^ 22)).retirePage half (page / 2 ^ 22) (page % 2 ^ 22)

/-- R552: what an uncorrectable HBM page loses by its use; the page is retired. -/
def State.hbmBroken (s : State) (half page : Nat) : HbmUse → State
  | .deep => s.deepBroken half page
  | .sdu o seq =>
    let s := match s.skeinOnus.find o.toNat with
      | some j => { s with skeinOnus := s.skeinOnus.put o.toNat { j with held := j.held.filter (fun x => x.seq != seq.toNat) } }
      | none => s
    s.hbmError half page 127
  | .container i mfi wl =>
    let s := match s.tribs.find i.toNat with
      | some x => { s with tribs := s.tribs.put i.toNat { x with aligning := x.aligning.map (fun (a : Aligning) =>
          if a.mfi = mfi.toNat then { a with members := a.members.filter (fun m => m.1 != x.index wl.toNat) } else a) } }
      | none => s
    s.hbmError half page 127
  | .bin kind index day back => s.binLost (pmKey kind.toNat index.toNat) day back.toNat page
  | .dma => s.hbmError half page 126

/-- An uncorrectable error, by the memory that holds it. -/
def State.scrubLose (s : State) (site : ScrubSite) : State :=
  match site with
  | .alloc l r => s.allocBroken (2 + l.toNat) r.toNat
  | .rule h t i => s.ruleBroken h.toNat t.toNat i.toNat
  | .table h m => (s.modFwd h.toNat (fun f => f.entryLost m)).report .brMemErr h.toNat .brMemErr h.toNat 0
  | .cells h q f => s.cellsBroken h.toNat q.toNat f.toNat
  | .pool h m => s.poolBroken h.toNat m
  | .node h n =>
    (s.setNode h.toNat n.toNat { s.node h.toNat n.toNat with memErr := true }).report .schMemErr h.toNat .schMemErr h.toNat n.toNat
  | .policer h n =>
    (s.setPolicer h.toNat n.toNat { s.policer h.toNat n.toNat with memErr := true }).report .plcMemErr h.toNat .plcMemErr h.toNat n.toNat
  | .gate h g =>
    if ((s.storeOf h.toNat).gates.find g.toNat).isNone then s
    else (s.modStore h.toNat (fun st => { st with gates := st.gates.del g.toNat })).report .gtMemErr (h.toNat * 128 + g.toNat) .gateMemErr h.toNat g.toNat
  | .keyRam d k => if d.toNat < 2 then s else s.alarm 0 d.toNat (.cluster d.toNat k.toNat)
  | .pad d b w =>
    if bankExists d.toNat b.toNat ∧ w.toNat < bankWords d.toNat b.toNat then
      ({ s with pads := { s.pads with broken := s.pads.broken.put (padKey d.toNat b.toNat w.toNat / 8) () } }).report .spEccErr d.toNat .spEcc d.toNat b.toNat
    else s
  | .hbm h k page use => s.hbmBroken h.toNat (k.toNat * 2 ^ 22 + page.toNat) use
  | .round _ | .sram _ => s.scrubCorrect site

/-- Resource time of a visit (R28; log entry 10): one access of a maintenance port, one 64-byte burst of a stack. -/
def patrolSpan : ScrubSite → Nat
  | .hbm _ _ _ _ => hbmSpan 64
  | .round _ => 0
  | _ => accessSpan

/-- The patrol of a stack waits while a hand-over clears one of its segments (R551). -/
def State.patrolHeld (s : State) : ScrubSite → Bool
  | .hbm h k _ _ => s.pads.handovers.any (fun x => x.die = h.toNat && x.bank / 64 = 1 + k.toNat)
  | _ => false

/-- The patrol visits a word with an error, unless its ration makes it wait (R34, R35). -/
def execScrubPatrol (site : ScrubSite) (uncorrectable : Bool) (s : State) : Host.Outcome State Fault Refusal :=
  .next (if s.patrolHeld site then s
    else s.rationed (patrolRation site).1 (patrolRation site).2 (patrolSpan site) (fun s =>
      if uncorrectable then s.scrubLose site else s.scrubCorrect site))

end Sys2Proof.Machine
end

