-- ==== Sys2Proof/Machine/CastOn.lean ====
section
/-!
DEFINITION. Resets and cast-on (R573-R584). Readings: log entry 85.
-/

namespace Sys2Proof.Machine

/-! ### What a package reset keeps (R583) -/

/-- Pins that something outside drives. -/
def inputPin : Pin → Bool
  | .tpin | .ppsIn | .hltPeerN | .hostRstN | .tamperN | .devnum | .hltSenior | .refclkPon | .refclkUpl | .refclkTnd | .pcieRefclk
  | .rails | .testEn | .tck | .tms | .tdi | .trstN => true
  | _ => false

def allPins : List Pin :=
  [.optTxen, .brxRstN, .rssiTrg, .tpin, .ppsOut, .ppsIn, .hltOwnN, .hltPeerN, .alertN, .hostRstN, .tamperN, .devnum, .hltSenior,
    .refclkPon, .refclkUpl, .refclkTnd, .pcieRefclk, .rails, .testEn, .tck, .tms, .tdi, .trstN]

/-- TAMPER_N has been high for 1 ms (R566); 0 stands for an instant long past. -/
def State.tamperCalm (s : State) : Bool :=
  s.pin .tamperN 0 = 1 && (s.trust.tamperHigh = 0 || decide (s.trust.tamperHigh + msSpan 1 ≤ s.elapsed))

/-- The fuses: lifecycle with its counts and bits, owner hash, part code (R563, R572). -/
def fuseReg (k : Nat) : Bool := [Reg.secLifecycle, .secOwnerHash, .sysId].any (fun r => r.ctorIdx = k % 1024)

/-- R573, R575, R582, R583: the package is reset: everything as at reset but the fuses and what the outside drives; `last` is the
kind of reset. The queue, the free-value counter and the record of what was sent are the model's own. -/
def State.packageReset (s : State) (last : Nat) : State :=
  let inputs := (allPins.filter inputPin).map Pin.ctorIdx
  let r : State := { State.reset with
    pending := s.pending
    freeCtr := s.freeCtr
    out := s.out
    pins := s.pins.filter (fun p => inputs.contains (p.1 % 64))
    regs := s.regs.filter (fun p => fuseReg p.1)
    trust := { State.reset.trust with tamperHigh := if s.tamperCalm then 0 else 1 }
    power := { State.reset.power with repairs := s.power.repairs }
    tap := s.tap }
  ((r.setFlag .secLifecycleIdOk 0 false).setFld .rmdKindLeft 6 (min 255 (256 - s.power.repairs))).setFld .sysCastonLast 0 last

/-- Every OPT_TXEN is deasserted (R574). -/
def State.allDark (s : State) : State := (List.range 128).foldl State.darken s

/-- R574, R575: HOST_RST_N falls. `short`: it rises again after so many ns, less than 2 µs; else it stays low. -/
def execResetFall (short : Option (BitVec 11)) (s : State) : Host.Outcome State Fault Refusal :=
  let s := s.allDark
  .next (match short with
    | some w =>
      if w.toNat < 2000 then s.modPower (fun p => { p with lightFrom := s.elapsed + nsSpan (w.toNat + 10000) }) else s.drive .hostRstN 0 0
    | none => s.drive .hostRstN 0 0)

/-- R575: HOST_RST_N low for 2 µs: the device resets, the halter is released. -/
def execResetAsserted (s : State) : Host.Outcome State Fault Refusal :=
  .next (if s.pin .hostRstN 0 = 1 then s else s.packageReset 1)

/-- R573: a rail falls below power-good: a reset as a power-on. -/
def execRailPowerFail (s : State) : Host.Outcome State Fault Refusal := .next ((s.drive .rails 0 0).packageReset 0)

/-- The straps are sampled and the boot controller starts FUSE (R576, R577). -/
def State.bootFrom (s : State) (devnum : BitVec 10) (senior : Bool) : State :=
  ((s.drive .devnum 0 devnum.toNat).drive .hltSenior 0 senior.toNat).setFld .sysDevnumDevnum 0 devnum.toNat

/-- R576, R577: HOST_RST_N rises with the rails good; the test port is held from then on (R629). -/
def execCastOnStart (devnum : BitVec 10) (senior : Bool) (s : State) : Host.Outcome State Fault Refusal :=
  .next (if s.pin .hostRstN 0 = 1 ∧ s.pin .rails 0 = 1 then s
    else (({ s with tap := Tap.reset }.drive .hostRstN 0 1).drive .rails 0 1).bootFrom devnum senior)

/-- R582: 1 ms has passed since SYS.RESET kind 0. -/
def execPackageReset (devnum : BitVec 10) (senior : Bool) (s : State) : Host.Outcome State Fault Refusal :=
  .next (match s.power.resetDue with
    | some t => if t ≤ s.elapsed then (s.packageReset 2).bootFrom devnum senior else s
    | none => s)

/-! ### The stages (R577, R578) -/

/-- The boot controller is at a stage: out of reset, neither halted nor done. -/
def State.booting (s : State) (stage : Nat) : Bool :=
  s.pin .hostRstN 0 = 1 && s.pin .rails 0 = 1 && !s.flag .sysCastonHalted 0 && !s.flag .sysCastonDone 0 && s.fld .sysCastonStage 0 = stage

/-- R578: cast-on halts at its stage; ALERT_N is low from then on (`State.alertLow`). -/
def State.castOnHalt (s : State) (cause : Nat) : State := (s.setFlag .sysCastonHalted 0 true).setFld .sysCastonCause 0 cause

def State.castOnStage (s : State) (n : Nat) : State := s.setFld .sysCastonStage 0 n

/-- Every domain of the part's dies but the lanes' is switched on (R577). -/
def State.domainsOn (s : State) : State :=
  ((List.range 82).map (· + 330)).foldl (fun s d =>
    let die := if d < 376 then (d - 330) / 23 else if d < 400 then 2 + (d - 376) / 6 else 6 + (d - 400) / 6
    if s.hasDie die then s.setDomain d true else s) s

/-- R58, R577: the timebase starts at 0 on REFCLK_UPL[0], or on [1] where [0] is absent. -/
def State.clockUp (s : State) (upl0 upl1 : Bool) (pon : BitVec 4) (tnd pcie : Bool) : State :=
  let s := (s.drive .refclkUpl 0 upl0.toNat).drive .refclkUpl 1 upl1.toNat
  let s := (List.range 4).foldl (fun s n => s.drive .refclkPon n (pon.getLsbD n).toNat) s
  let s := (s.drive .refclkTnd 0 tnd.toNat).drive .pcieRefclk 0 pcie.toNat
  if !upl0 ∧ !upl1 then s.castOnHalt 2
  else (({ s with now := 0, elapsed := 0 }.setFld .tbStatRef 0 (!upl0).toNat).domainsOn).castOnStage 2

/-- R16, R578: links beyond their spares go down; the others took a spare lane. -/
def State.linksUp (s : State) (down spares : List (BitVec 3)) : State :=
  let s := (down.map BitVec.toNat).eraseDups.foldl (fun s l =>
    if !s.hasLink l then s else { s with ucieDown := s.ucieDown ++ [l] }.report .sysUcieDown l .sysUcieDown 15 l) s
  let s := (spares.map BitVec.toNat).foldl (fun s l => if !s.hasLink l then s else s.spareUsed 3 0 l) s
  s.castOnStage 3

/-- R553: a pseudo-channel that fails training is mapped to a spare at once; with none left its pages are retired. -/
def State.pcUntrained (s : State) (half pc : Nat) : State :=
  let i := pcInst half pc
  let s := s.failUnit 4 half (pc / 16 * 32 + s.fld .hbmPcMapPhys i)
  match s.pcSpares half (pc / 16) with
  | x :: _ => (s.setFld .hbmPcMapPhys i x).spareUsed 4 half pc
  | [] => ((s.setFlag .hbmPcMapLost i true).setFld .hbmPcMapRetired i 65535).report .hbmPcFail half .hbmPcFail half pc

/-- A unit whose memory failed its test with no repair entry left is out of service (R578). -/
def State.sramUnit (s : State) (u : ParityUnit) : State :=
  let fail := fun (s : State) => s.report .sysSramFail 0 .sysSramFail 15 0
  match u with
  | .pipeline h n => fail (s.failUnit 0 h.toNat n.toNat)
  | .tc l n => if s.dieFused (2 + l.toNat) then s else fail (s.failUnit 8 (2 + l.toNat) n.toNat)
  | .pcs k n => fail (s.failUnit 8 (6 + k.toNat) n.toNat)

/-- The identity private key, the same at every cast-on (R560). -/
def identityKey : Nat := Config.standard 16 []

/-- R428, R560: the self-test of every die, and the identity key. -/
def State.selfTested (s : State) (failed : List (BitVec 3 × BitVec 7)) (shared idOk : Bool) : State :=
  let s := ((List.range 8).filter s.hasDie).foldl (fun s d =>
    s.testDie d ((failed.filter (fun p => p.1.toNat = d)).map (fun p => p.2.toNat)) shared) s
  let s := if s.lifecycle = 0 then s
    else if idOk then (s.modCipher (fun c => { c with identity := some identityKey })).setFlag .secLifecycleIdOk 0 true
    else (s.setFlag .secStatError 0 true).report .secIdBad 0 .secIdBad 15 0
  s.setFlag .sysCastonStDone 0 true

/-- R577, R578: a stage ends `ms` after HOST_RST_N rose, and the next starts. The self-test runs from the end of LINK on; it does not
end while TAMPER_N has not been high for 1 ms (R566). -/
def execCastOnStageDone (stage : StageEnd) (ms : BitVec 16) (s : State) : Host.Outcome State Fault Refusal :=
  let t := s.setFld .sysCastonMs 0 ms.toNat
  .next (match stage with
    | .fuse ok => if !s.booting 0 then s else if ok then t.castOnStage 1 else t.castOnHalt 1
    | .clock a b pon tnd pcie => if s.booting 1 then t.clockUp a b pon tnd pcie else s
    | .link down spares => if s.booting 2 then t.linksUp down spares else s
    | .hbm failed =>
      if s.booting 3 then (failed.foldl (fun s p => s.pcUntrained p.1.toNat p.2.toNat) t).castOnStage 4 else s
    | .clear sram => if s.booting 4 then (sram.foldl State.sramUnit t).castOnStage 5 else s
    | .firmware ok =>
      if !s.booting 5 ∨ s.power.firmwareUp then s
      else if ok then t.modPower (fun p => { p with firmwareUp := true })
      else t.castOnHalt 3
    | .selftest failed shared idOk =>
      if ([3, 4, 5].any s.booting) && !s.flag .sysCastonStDone 0 && s.tamperCalm then t.selfTested failed shared idOk else s)

/-- R580: FIRMWARE and the self-test have ended: in one cycle cast-on is complete. -/
def execCastOnDone (ms : BitVec 16) (s : State) : Host.Outcome State Fault Refusal :=
  .next (if s.booting 5 && s.power.firmwareUp && s.flag .sysCastonStDone 0 then
      let s := [0, 1, 2].foldl (fun s p => s.setFlag .lshStatCastOn p false) (s.setFld .sysCastonMs 0 ms.toNat)
      ((s.castOnStage 6).setFlag .sysCastonDone 0 true).raise .sysCastonDone 15 0
    else s)

/-! ### Path resets (R581-R583) -/

/-- R583: a path is reset: its role and KLK, tags, generation, mark, select copies, claims, event-ring index and mailbox; a PCIe
reset disables the rings. Its commands that have not begun are dropped. -/
def State.resetPath (s : State) (p : Path) : State :=
  let n := pathCode p
  let s := (s.losePath n).dropClaims p
  let mine := fun (c : Caller) => decide (c.path = p)
  let s := s.clearCopies n
  let s := { s with
    flights := s.flights.filter (fun f => !mine f.2.caller)
    win := { s.win with claimWait := s.win.claimWait.filter (fun w => !mine w.caller) }
    seqs := s.seqs.map (fun (q : Nat × SeqSt) => (q.1, { q.2 with work := q.2.work.filter (fun i =>
      match i with
      | .command c _ => !mine c
      | _ => true) }))
    laosh := { s.laosh with order := s.laosh.order.filter (fun c => !mine c) } }
  let s := s.setFld .lshStatGen n 0
  match p with
  | .pcie =>
    let s := [0, 1, 2, 3].foldl (fun s r => s.setFlag .lshRingCfgEn r false) s
    { s with laosh := { s.laosh with replySlots := [], replyWait := [], trapSlots := [] } }
  | .i3c =>
    { s with laosh := { s.laosh with mailbox := [], mailboxSeen := false, armedRead := none, i3cAddress := none, ibiEnable := true } }
  | .inband => { s with laosh := { s.laosh with mark := 0, inbandWait := [], inbandFrom := [] } }

def execFunctionLevelReset (s : State) : Host.Outcome State Fault Refusal := .next (s.resetPath .pcie)

/-- R581: the target reset pattern, with either action. -/
def execI3cTargetReset (s : State) : Host.Outcome State Fault Refusal := .next (s.resetPath .i3c)

/-- R494, R582: SYS.RESET. -/
def execSysReset (h : Hdr) (kind : Word) (s : State) : Host.Outcome State Fault Refusal :=
  .next (command h 0x0005 .package (fun caller s =>
    if 1 < kind.toNat then .fail s .badParam
    else if s.lifecycle = 2 ∧ !s.isOfficer h.path then .fail s .unauthorized
    else if kind = 0 then (if s.asyncFull then .fail s .busy else .accepted (s.modPower (fun p => { p with resetDue := some (p.resetDue.getD (s.elapsed + msSpan 1)) })))
    else ⟨(s.answer caller .ok []).resetPath h.path, .ok, [], true⟩) s)

end Sys2Proof.Machine
end

