-- ==== Sys2Proof/Machine/Dispatching.lean ====
section
/-!
DEFINITION. Dispatch of the stitch sequencers (R530), hand-over to a spare (R536, R617, R618) and darn swaps (R534, R568).
-/

namespace Sys2Proof.Machine

/-! ### Dispatch (R530, R490, R491) -/

/-- A waiting item of an activation or link sequencer takes effect. -/
def State.serveReport (s : State) : SeqReport → State
  | .snResponse c serial x frame => s.snServed c serial x frame
  | .rangingBurst o rt => s.rangingServed o rt
  | .registration o regId => s.registrationServed o regId
  | .keyReply o wrapped fits => s.keyServed o wrapped fits
  | .laneStage f i peer dev => s.stageServed f i peer dev
  | .record r => s.recordRx r

/-- R530: an idle sequencer takes the first waiting item. `entry` is the ROM dispatch table's for a new item: an event
without one is ignored. A parked pattern resumes with T as its wait ended. -/
def execSeqDispatch (q : BitVec 5) (entry : Option (BitVec 17)) (s : State) : Host.Outcome State Fault Refusal :=
  let n := q.toNat
  let x := s.seq n
  let fresh := fun (s : State) (item : SeqItem) (a : BitVec 17) =>
    (s.setCtx n { SeqCtx.empty with item := some item, addr := a.toNat }).setSeqState n 2
  .next (
    if !seqExists n ∨ s.seqState n ≠ 1 then s
    else if s.stopsTaking n then s.setSeqState n 4
    else match (if seqDie n = 0 then s.fwEvents else []) with
      | src :: rest =>
        let s := { s with fwEvents := rest }
        match entry with
        | some a => fresh s (.event src) a
        | none => s
      | [] =>
        match x.parked.find? (fun p => p.woken.isSome) with
        | some p =>
          let s := s.setSeq n { x with parked := x.parked.erase p, ctx := { p.ctx.step with t := p.woken.getD false } }
          s.setSeqState n 2
        | none =>
          match x.work, entry with
          | .command c ps :: rest, some a =>
            if s.mayStart c then fresh ((s.setSeq n { x with work := rest }).start c) (.command c ps) a else s
          | item :: rest, some a => fresh (s.setSeq n { x with work := rest }) item a
          | _, _ => match x.reports with
            | r :: rest => (s.setSeq n { x with reports := rest }).serveReport r
            | [] => s)

/-! ### Hand-over (R536, R617, R618) -/

/-- R536: the work of a failed sequencer, or of one named by a bring-in, passes to the spare of its die. -/
def execSeqHandover (q : BitVec 5) (s : State) : Host.Outcome State Fault Refusal :=
  let n := q.toNat
  let die := seqDie n
  let x := s.seq n
  .next (
    if !seqExists n ∨ !x.order ∨ !s.seqHolds n then s
    else if !s.spareFree die ∨ n = spareSeq die then
      let s := s.setSeq n { x with order := false }
      let s := if s.seqState n = 4 then s.setSeqState n 1 else s
      (s.noSpare 2 die (seqIdx n)).endBringIn 2 die (seqIdx n) .noRoom
    else
      let sp := spareSeq die
      let s := (s.clearCopies (apathCode (.seq (BitVec.ofNat 5 sp)))).setSeq sp { SeqSt.empty with work := x.work, mailbox := x.mailbox, reports := x.reports }
      let s := (s.setSeqState sp 1).setFld .sqStatServes (seqInst sp) (s.fld .sqStatServes (seqInst n))
      let s := s.setSeq n { x with order := false, work := [], mailbox := [], reports := [] }
      let s := if s.seqState n = 5 then s else s.setSeqState n 0
      let s := if die < 2 then [die * 3, die * 3 + 1].foldl (fun s r => if s.seqState r = 5 then s.passWork r else s) s else s
      let s := s.failUnit 2 die (seqIdx n)
      let s := s.report .sqHandover (seqInst n) .sqHandover die n
      (s.spareUsed 2 die (seqIdx n)).endBringIn 2 die (seqIdx n) .ok)

/-! ### Darn swaps (R534, R568) -/

def allSeqs : List Nat := (List.range 23).filter seqExists

/-- The sequencers resume: those that held rest idle. -/
def State.resumeSeqs (s : State) : State :=
  allSeqs.foldl (fun s q => if s.seqState q = 4 ∧ !(s.seq q).order then s.setSeqState q 1 else s) s

/-- R534: every sequencer holds: staged and in-force slots swap, SQ_DARN_LEVEL follows on every die, the rollback count
advances where R568 has it do so, and the load completes. -/
def execDarnSwap (s : State) : Host.Outcome State Fault Refusal :=
  match s.trust.pending with
  | none => .next s
  | some (d, c, _, _) =>
    if !allSeqs.all s.seqHolds then .next s
    else
      let s := { s with trust := { s.trust with darn := some d, staged := s.trust.darn, pending := none } }
      let s := (List.range 8).foldl (fun s die => s.setReg .sqDarnLevel die (BitVec.ofNat 32 (2 ^ 31 + d.level))) s
      let s := s.setFld .secLifecycleRb 0 (min 64 (max d.rb (s.fld .secLifecycleRb 0)))
      .next (s.resumeSeqs.answer c .ok [])

/-- R534: 10 ms without every sequencer holding: all resume on the old slots. -/
def execDarnHoldTimeout (s : State) : Host.Outcome State Fault Refusal :=
  match s.trust.pending with
  | none => .next s
  | some (_, c, since, _) =>
    if s.elapsed < since + msSpan 10 then .next s else
    let s := { s with trust := { s.trust with pending := none } }
    .next ((s.resumeSeqs.answer c .busy []).report .sqDarnHold 0 .sqDarnHold 0 0)

end Sys2Proof.Machine
end

