-- ==== Sys2Proof/Machine/Jumps.lean ====
section
/-!
DEFINITION. Jumps of the time: actions (R46, R47, R49), the replicas' steps (R54), and what a step or set does to the launchers (R36,
R56, R399, R593).
-/

namespace Sys2Proof.Machine

/-- A launcher's one-shot target that is armed (R55, R56). -/
inductive OneShot where
  | pin (p : Nat)
  | launch (tree : Nat)
  | snapshot
  | gates (half ctl : Nat)
  | departure (port : Nat)
  | reset (chan burst : Nat)
  | rssi (chan burst : Nat)
deriving DecidableEq, Repr

/-- The die whose replica a launcher takes its instant from. -/
def OneShot.die : OneShot → Nat
  | .pin _ | .snapshot => 0
  | .launch t => dieOfTree t
  | .gates half _ => half
  | .departure port => dieOfLane port
  | .reset c _ | .rssi c _ => dieOfChan c

/-- A channel's expected bursts, with their numbers. -/
def numbered (l : List Expect) : List (Nat × Expect) := (List.range l.length).zip l

/-- Every one-shot target that has not fired, with its instant. -/
def State.oneShots (s : State) : List (Nat × OneShot) :=
  (s.tb.nextEdge.filter (fun p => s.fld .tbPinCfgMode p.1 = 1)).map (fun p => (p.2, .pin p.1))
  ++ ((List.range 32).filter s.launchPending).map (fun t => ((s.tree t).launchAt, .launch t))
  ++ (match s.gauge.single with | some (_, t) => [(t, .snapshot)] | none => [])
  ++ s.store.flatMap (fun h => h.2.armed.map (fun g => (g.2.start, .gates h.1 g.1)))
  ++ s.lanes.held.flatMap (fun p => p.2.map (fun x => (x.departure, .departure p.1)))
  ++ s.pon.expects.flatMap (fun p => ((numbered p.2).filter (fun b => !b.2.rstSent)).map (fun b => ((s.resetFall p.1 b.1 b.2).1, .reset p.1 b.1)))
  ++ s.pon.expects.flatMap (fun p =>
    ((numbered p.2).filter (fun b => b.2.rssi && !b.2.rssiSent && decide (s.fld .gntPinCfgRssiWidth p.1 ≠ 0))).map
      (fun b => (s.rssiRise p.1 b.2, .rssi p.1 b.1)))

/-- A one-shot target that a forward step has passed over fires now. -/
def State.fire (s : State) (x : OneShot) : State :=
  let now := s.nowOn x.die
  match x with
  | .pin p => s.pulsePin p now
  | .launch t => s.launchTree t now
  | .snapshot =>
    match s.gauge.single with
    | some (c, _) => { s with gauge := { s.gauge with single := none } }.launchSnapshot (some c)
    | none => s
  | .gates half g => (s.startList half g).syncEgress half g
  | .departure port =>
    match Tbl.getD s.lanes.held port [] with
    | x :: _ => (s.unhold port).depart port x now
    | [] => s
  | .reset c i =>
    match (s.expects c)[i]? with
    | some e => s.driveReset c i e now
    | none => s
  | .rssi c i => s.driveRssi c i now

/-- Insertion by ascending target. -/
def insertTarget (x : Nat × OneShot) : List (Nat × OneShot) → List (Nat × OneShot)
  | [] => [x]
  | y :: l => if x.1 ≤ y.1 then x :: y :: l else y :: insertTarget x l

/-- The time of the dies named has jumped since a state: every target passed over fires, in ascending target order (R56); a gate list
in force takes the entry of its position at the new time (R399). -/
def State.firePassed (s was : State) (moved : Nat → Bool) : State :=
  let passed := s.oneShots.filter (fun x =>
    moved x.2.die && !reached (was.nowOn x.2.die) x.1 && reached (s.nowOn x.2.die) x.1)
  let s := (passed.foldr insertTarget []).foldl (fun s x => s.fire x.2) s
  s.store.foldl (fun s h => if moved h.1 then h.2.gates.foldl (fun s g => s.syncEgress h.1 g.1) s else s) s

/-- What a step or set of the time does to every launcher (R36, R56, R399, R592, R593). -/
def State.jumped (s was : State) : State :=
  let s := { s with tb := { s.tb with jumpedAt := some s.tb.cycle } }.pinsJump
  let s := (s.periodJump was.now).landWrites
  (s.firePassed was (fun _ => true)).pmJump was.now

/-- R46: the pending action applies: SET, STEP, INCR, SLEW in one cycle, on the master and every replica. R47: one armed too late is
flagged, counted and raised. A slew absorbs what is left of an earlier one (R49); the spec does not say whether the limit of 0.16 ns a
cycle also holds of the sum: it is checked of the new offset over its cycles alone (DESIGN CHOICE, log entry 23). -/
def State.applyAction (s : State) (a : Action) : State :=
  let s := { s with tb := { s.tb with pendingAction := none } }
  let s := if a.late then (s.latchFlag .tbActCtlLate 0).report .tbActLate 0 .tbActLate 0 0 else s
  let was := s
  let s := if Action.has a 3 then { s with now := a.setValue % timeMod } else s
  let s := if Action.has a 1 then s.moveTime (a.stepNs * 2 ^ 32) else s
  let s := if Action.has a 3 || Action.has a 1 then (s.setFlag .tbStatAligned 0 true).jumped was else s
  let s := if Action.has a 0 then s.writeIncr a.incr else s
  if Action.has a 2 then
    if slewOk a.slewOfs a.slewCyc && a.slewCyc != 0 then
      let rest := match s.tb.slew with | some w => w.rest | none => 0
      { s with tb := { s.tb with slew := some ⟨rest + a.slewOfs * 2 ^ 16, a.slewCyc⟩ } }
    else s.incrReject
  else s

/-- R46, R47: the pending action, in the first cycle that reaches its instant, or 625 cycles after a late arming. -/
def execActionApply (s : State) : Host.Outcome State Fault Refusal :=
  match s.tb.pendingAction with
  | some a => .next (if s.actionDue a then s.applyAction a else s)
  | none => .next s

/-- A replica has stepped: its die's launchers behave as for a step (R54, R56). -/
def State.replicaJumped (s was : State) (die : Nat) : State :=
  let s := s.firePassed was (fun d => d = die)
  { s with pm := { s.pm with ents := s.pm.ents.map (fun (p : Nat × PmEnt) => if p.2.die = die then (p.1, p.2.markNow suspectStep) else p) } }

/-- R54: a replica takes the master's sync word, 1 µs after its last one. `drift` is how far it has drifted since the last one, signed, in 0.1 ns; a due step
comes first, and takes away the difference found at the last sync word (log entry 22); beyond the limit a difference is counted, flagged
and raised; up to 100 ns the replica slews by 0.1 ns, beyond it steps at the next sync word. -/
def execReplicaSync (die : BitVec 3) (drift : BitVec 32) (s : State) : Host.Outcome State Fault Refusal :=
  let d := die.toNat
  if d = 0 ∨ s.dieFused d ∨ (s.tb.syncAt.find d).any (fun t => decide (s.elapsed < t + usSpan 1)) then .next s
  else
    let (old, due) := s.replica d
    let x := (if due then 0 else old) + drift.toInt
    let y : Int × Bool := if x.natAbs ≤ 1000 then (x - x.sign, false) else (x, true)
    let t := { s with tb := { s.tb with replicas := Tbl.setD s.tb.replicas d (0, false) y, syncAt := s.tb.syncAt.put d s.elapsed } }
    let t := if due then t.replicaJumped s d else t
    .next (if s.fld .tbDivCfgLimit 0 < x.natAbs then (t.latchFlag .tbStatDiv 0).report .tbDiv d .tbDiverge d d else t)

end Sys2Proof.Machine
end

