-- ==== Sys2Proof/Machine/Registers.lean ====
section
/-!
DEFINITION. The register windows (R499-R509): what a read returns, what a write does to each register, the split values of
R506, the I3C forms of R507, and firmware's RDREG and WRREG (R526, R528). A word that another part of the state determines is
computed where it is read. Readings of this file: log entry 86.
-/

namespace Sys2Proof.Machine

/-! ### Which accesses meet an instance (R504, R508) -/

/-- Registers of a TC or PCS region: the lane of the region that holds the instance (R19). -/
def regionLane (r : Reg) (i : Nat) : Option (Nat × Nat) :=
  match r.block with
  | .lnp | .pch | .brx =>
    match r.scope with
    | .ch | .lnpch => some (0, i)
    | .tree => some (0, 4 * i)
    | .prf => some (0, i / 4)
    | _ => none
  | .skn => if r.scope = .skein then some (0, i / 2 * 4) else none
  | .lnu | .tsi =>
    match r.scope with
    | .lane => some (2, i)
    | .octet => some (2, 8 * i)
    | _ => none
  | .tnd => if r.scope = .tlane then some (3, i) else none
  | _ => none

/-- R504 cause 3: the region that holds the instance is off. -/
def State.accOff (s : State) (a : RegAccess) : Bool :=
  match a.reg with
  | none => false
  | some r =>
    match s.instOf (apathCode a.path) (accDie a) a.idx r with
    | none => false
    | some i => match regionLane r i with
      | some (f, l) => !s.regionOn f l
      | none => false

/-- R504 cause 4: the select names no node, queue, core or unit of the die. -/
def State.selectEmpty (s : State) (die : Nat) (r : Reg) (i : Nat) : Bool :=
  match r.scope with
  | .node =>
    let n := i % 2 ^ 29
    !s.nodeOk die (n / 2 ^ 28 % 2) (nodeLevel n) (nodeIndex n) || n / 2 ^ 17 % 2 ^ 8 != 0
  | .queue => let q := i % 2 ^ 26; if qIsUp q then qPort q / 32 != die else decide (0x3FFFD < q)
  | .core => clusterSize die ≤ i % 64
  | .gunit => let u := if r = .ggcOvf then i else i / 128; !unitExists u || s.dieFused (unitDie u)
  | .pol => false
  | _ => false

/-- Why an access fails, whichever way it goes (R504). -/
def State.accFault (s : State) (a : RegAccess) (write : Bool) : Option Nat :=
  match s.accessError a (s.accOff a) write with
  | some c => some c
  | none => match a.reg with
    | none => none
    | some r => match s.instOf (apathCode a.path) (accDie a) a.idx r with
      | none => none
      | some i => if s.selectEmpty (accDie a) r i then some 4 else none

/-! ### Reads -/

/-- BLK_ID (R501). How many registers a block's directory holds is not in the spec (log entry 3). -/
def blkIdWord (die n : Nat) : Word :=
  let k := (dieKind die).getD 0
  BitVec.ofNat 32 (n * 2 ^ 26 + k * 2 ^ 24 + 2 ^ 16 + Config.standard 42 [k, n] % 2 ^ 12)

/-- The slot's ONU on a line die: its index and its state. -/
def State.slotOnu (s : State) (i : Nat) : Option (Nat × OnuSlot) :=
  s.pon.onus.find? (fun p => dieOfTree p.2.tree = 2 + i / 4096 && p.2.slot = i % 4096)

/-- ACT_ONU_STAT (R235). -/
def onuStatWord (x : OnuSlot) : Word :=
  BitVec.ofNat 32 (min 255 x.miss * 2 ^ 24 + x.migration.isSome.toNat * 2 ^ 17 + x.auto.toNat * 2 ^ 16 + x.keySlot * 2 ^ 14
    + x.wl * 2 ^ 12 + x.phase.code)

/-- GNT_ALC_STAT, as of the last snapshot (R170). -/
def AllocRec.statWord (r : AllocRec) : Word :=
  BitVec.ofNat 32 (r.lastQ % 2 ^ 16 * 2 ^ 16 + r.statErr.toNat * 4 + r.leftOut.toNat * 2 + r.statFull.toNat)

/-- QM_Q_STAT (R352). -/
def QueueSt.statWord (x : QueueSt) : Word :=
  BitVec.ofNat 32 (x.deep.toNat * 2 ^ 31 + (decide (x.depth = 0)).toNat * 2 ^ 30 + min 131071 x.held)

/-- LSH_STAT for the path that reads it (R498); firmware has no tags of its own. -/
def State.lshStatWord (s : State) (p : APath) : Word :=
  let on := (!s.flag .sysCastonDone 0).toNat * 2 ^ 24
  match p with
  | .pcie => BitVec.ofNat 32 (on + (s.gen .pcie).toNat * 2 ^ 16 + min 4096 (s.inflight .pcie))
  | .i3c => BitVec.ofNat 32 (on + (s.gen .i3c).toNat * 2 ^ 16 + min 4096 (s.inflight .i3c))
  | .seq _ => BitVec.ofNat 32 on

/-- The records of a pin's capture FIFO (R60); TB_CAP_STAT reads 0 while it is empty, and the places of its bits are not in the spec (log
entry 21). -/
def State.captureWord (s : State) (r : Reg) (pin : Nat) : Word :=
  let q := Tbl.getD s.tb.captures pin []
  match r with
  | .tbCapStat => (q.head?.map (fun c => BitVec.ofNat 32 (Config.standard 51 [c.step.toNat]))).getD 0
  | .tbCapSecHi => (q.head?.map (fun c => BitVec.ofNat 32 (secOf c.time / 2 ^ 32 % 2 ^ 16))).getD 0
  | .tbCapSecLo => (q.head?.map (fun c => BitVec.ofNat 32 (secOf c.time))).getD 0
  | .tbCapNs => (q.head?.map (fun c => BitVec.ofNat 32 (nsOf c.time))).getD 0
  | _ => (q.head?.map (fun c => BitVec.ofNat 32 (fracOf c.time))).getD 0

/-- EVT_RING_STAT (R523) and the words of the first available record (R519). -/
def State.ringStatWord (s : State) (p : Nat) : Word := BitVec.ofNat 32 (min 65535 (s.lostRecords p) * 2 ^ 16 + s.available p)
def State.ringRecWord (s : State) (p k : Nat) : Word := ((s.records p).head?.map (fun r => r.words.getD k 0)).getD 0

/-- R514: on ULT-OT064 the groups of dies 4 and 5 read zero. -/
def State.groupFused (s : State) (g : Nat) : Bool := s.is064 && 15 ≤ g && g ≤ 20

/-- What an instance of a register reads as, reserved and write-only bits aside. -/
def State.regValue (s : State) (p : APath) (die : Nat) (r : Reg) (i idx : Nat) : Word :=
  let n := fun (v : Nat) => BitVec.ofNat 32 v
  let pc := apathCode p
  match r with
  | .blkId => blkIdWord die (i % 64)
  | .tbStat => s.tbStat
  | .tbActCtl => n (s.fld .tbActCtlLate 0 * 2 ^ 8 + s.fld .tbActKindKinds pc * 2 + s.tb.pendingAction.isSome.toNat)
  | .tbPinCfg => withField 8 5 (s.reg r i) (Tbl.getD s.tb.captures i []).length
  | .tbCapStat | .tbCapSecHi | .tbCapSecLo | .tbCapNs | .tbCapFrac => s.captureWord r i
  | .lnuStat => withField 9 1 (s.reg r i) (s.pin .refclkUpl (i / 32))
  | .tndStat => withField 9 1 (s.reg r i) (s.pin .refclkTnd 0)
  | .lnpCtl => withField 3 1 (s.reg r i) (s.xgs i).toNat
  | .pchStat => s.pchStat i
  | .gntAlcId | .gntAlcCfg | .gntAlcFix | .gntAlcAsr | .gntAlcNas | .gntAlcMax => s.alcWord p die r
  | .gntAlcStat => ((s.pon.allocs.find i).map AllocRec.statWord).getD 0
  | .gntAlcDemand => ((s.pon.allocs.find i).map (fun x => n (min (2 ^ 32 - 1) x.demand))).getD 0
  | .brxPrfCfg => s.prfWord (i / 4) (i % 4)
  | .brxChStat => s.brxStat i
  | .actTreeStat => n (s.tEq i)
  | .actOnuId => ((s.slotOnu i).map (fun x => n (x.1 * 2 ^ 14 + x.2.tree % 8 * 2 ^ 11 + x.2.onuId))).getD (s.reg r i)
  | .actOnuStat => ((s.slotOnu i).map (fun x => onuStatWord x.2)).getD 0
  | .actOnuEqd => ((s.slotOnu i).map (fun x => n x.2.eqd)).getD 0
  | .cadTribCfg | .cadTribQ | .cadTribWl | .cadTribWh => s.tribWord p die r
  | .cadTribStat => s.tribStat i
  | .rulVer => n (s.fld .rulVerBusy i * 2 ^ 12 + (relVer (s.oldest i) (s.cur i) + 1) * 2 ^ 8 + s.oldest i * 2 ^ 4 + s.cur i)
  | .lrnStat => withField 0 17 (s.reg r i) (s.fwdOf i).lrnQ.length
  | .qmQStat => (s.queue die (i % 2 ^ 26)).statWord
  | .qmQPages => n (s.queue die (i % 2 ^ 26)).pages.length
  | .cstStat => n (s.freeShared die)
  | .dstFree0 => n (s.pagesFree die 0)
  | .dstFree1 => n (s.pagesFree die 1)
  | .schNdPir => if nodeLevel (i % 2 ^ 29) = 1 then n (s.rootRate die (i % 2 ^ 29)) else s.reg r i
  | .schNdPar => n (s.ndParent die (i % 2 ^ 29))
  | .schNdStat => s.ndStat die (i % 2 ^ 29)
  | .schQStat => s.ndStat die (queueNode (i % 2 ^ 26))
  | .gtListCtl => withField 31 1 (s.reg r i) ((s.storeOf die).armed.has (i % 128)).toNat
  | .gtStat => s.gtStat die (i % 128)
  | .secStat => s.secStatWord pc
  | .tndPairStat => s.tndPairStat
  | .lshStat => s.lshStatWord p
  | .evtStat | .evtMask | .evtRoute => if s.groupFused i then 0 else s.reg r i
  | .evtRingRec => s.ringRecWord pc idx
  | .evtRingStat => s.ringStatWord pc
  | .ggcOvf => s.gaugeOvf i
  | .ggcCntHi => n (s.gauge48 (i / 128) (i % 128) / 2 ^ 32)
  | .ggcCntLo => n (s.gauge48 (i / 128) (i % 128))
  | _ => s.reg r i

/-- Where a path's shadow and staged half of a split value stand (R506). -/
def hiKey (die : Nat) (p : APath) (hi : Reg) (idx : Nat) : Nat := regKey hi (copyInst die (apathCode p) * 128 + idx)

/-- The offset is a select's that does not apply to the die: it reads zero, and a write is dropped (R508). -/
def selectIdle (r : Reg) (die : Nat) : Bool := (r.scope = .sel || r = .rtnsel) && !(selectDies r).contains die

/-- A word of the register directory (R502), which is not in the spec (log entry 3). -/
def directoryWord (a : RegAccess) : Word :=
  if inDirectory a then BitVec.ofNat 32 (Config.standard 43 [(dieKind (accDie a)).getD 0, accBlock a, accOffset a]) else 0

/-- The bits of a register that each path sees as its own (R75, R435). -/
def ownBits : Reg → Word
  | .tbActCtl => 0x1E
  | .secStat => 4
  | _ => 0

/-- What a path reads in an instance: the old value in the cycle in which another path's write lands (R505; log entry 86). -/
def State.readWord (s : State) (p : APath) (die : Nat) (r : Reg) (i idx : Nat) : Word :=
  let now := s.regValue p die r i idx &&& readableMask r
  match s.win.before.find (regKey r i) with
  | some (q, at_, w) => if at_ = s.elapsed ∧ q ≠ apathCode p then (w &&& ~~~ ownBits r) ||| (now &&& ownBits r) else now
  | none => now

/-- A read (R503-R506): an access error reads zero; a _LO latches its _HI for the path, whose next read of _HI ends the
latch. -/
def State.readAccess (s : State) (a : RegAccess) : State × Word :=
  let die := accDie a
  if s.dieFused die then (s, 0)
  else match s.accFault a false with
    | some c => (s.accError a c, 0)
    | none => match a.reg with
      | none => (s, directoryWord a)
      | some r =>
        if selectIdle r die then (s, 0)
        else match s.instOf (apathCode a.path) die a.idx r with
          | none => (s, 0)
          | some i =>
            let v := s.readWord a.path die r i a.idx
            match hiOf r with
            | some hi =>
              let h := s.readWord a.path die hi i a.idx
              ({ s with win := { s.win with shadow := s.win.shadow.put (hiKey die a.path hi a.idx) h } }, v)
            | none =>
              if isHi r then
                match s.win.shadow.find (hiKey die a.path r a.idx) with
                | some h => ({ s with win := { s.win with shadow := s.win.shadow.del (hiKey die a.path r a.idx) } }, h)
                | none => (s, v)
              else (s, v)

/-! ### Writes -/

/-- The tree whose LNP, PCH, BRX, GNT, ACT or SKN register an instance is (R442). -/
def State.treeOfReg (s : State) (r : Reg) (i : Nat) : Option Nat :=
  match r.block with
  | .lnp | .pch | .brx | .gnt | .act | .skn =>
    match r.scope with
    | .ch | .lnpch => some (treeOfChan i)
    | .tree => some i
    | .prf => some (i / 16)
    | .skein => some (i / 2)
    | .slot => (s.slotOnu i).map (fun x => x.2.tree)
    | _ => none
  | _ => none

/-- The field keeps its value where a written one is reserved beside another field's: counted and raised (R10). -/
def State.keepsField (s : State) (die : Nat) : State := s.report .sysBadEnc 0 .sysBadEnc die 0

/-- R38, R40, R33: SYS_RTN_CFG; a budget that would break a sum stays. -/
def State.writeRation (s : State) (p : APath) (i : Nat) (data : Word) : State :=
  let (s, w) := s.meet p 15 .sysRtnCfg i data
  if s.rationSumsHold (i / 64) (i % 64) (fldOf .sysRtnCfgBudget w) then s.setReg .sysRtnCfg i w
  else (s.setReg .sysRtnCfg i (withField 0 17 w (s.fld .sysRtnCfgBudget i))).report .sysRtnReject 0 .sysRtnReject (i / 64) (i % 64)

/-- R59, R78: a register of a time pin; the mode of PPS_IN is fixed. -/
def State.writePin (s : State) (p : APath) (r : Reg) (i : Nat) (data : Word) : State :=
  let (s', w) := s.meet p 0 r i data
  let w := if r = .tbPinCfg ∧ i = 32 then withField 0 3 w 3 else w
  if s.mayRwc p 0 .tb then (s'.setReg r i w).pinWritten i else s'

/-- R85, R104, R108, R111: LNU_CTL, TND_CTL and LNP_CTL. Turning a lane on or off acts on its port, prbs on the lane's generator and
checker; retrain acts without a claim. -/
def State.writeLaneCtl (s : State) (p : APath) (die : Nat) (r : Reg) (i : Nat) (data : Word) : State :=
  let (s', w) := s.meet p die r i data
  if r = .lnpCtl then
    let old := s.reg r i
    let s' := s'.setReg r i (withField 4 2 (withField 0 2 w (fieldOf 0 2 old)) (fieldOf 4 2 old))
    let s' := if fieldOf 4 2 w = fieldOf 4 2 old then s' else s'.writePrbs 0 i (fieldOf 4 2 w)
    let s' := if fieldOf 0 1 w = fieldOf 0 1 old then s' else s'.laneTurn 0 i (fieldOf 0 1 w = 1)
    if fieldOf 1 1 w = fieldOf 1 1 old then s' else s'.laneTurn 1 i (fieldOf 1 1 w = 1)
  else
    let f := if r = .lnuCtl then 2 else 3
    let old := s.reg r i
    let s' := s'.setReg r i (withField 8 3 (withField 0 1 w (fieldOf 0 1 old)) (fieldOf 8 3 old))
    let s' := if fieldOf 8 3 w = fieldOf 8 3 old then s' else s'.writePrbs f i (fieldOf 8 3 w)
    let s' := if fieldOf 0 1 w = fieldOf 0 1 old then s' else s'.laneTurn f i (fieldOf 0 1 w = 1)
    let s' := if r = .lnuCtl ∧ !s'.loopedBack (s'.portOf i) then
        { s' with lanes := { s'.lanes with looped := s'.lanes.looped.del (s'.portOf i) } }
      else s'
    if data.getLsbD 1 then (s'.laneGroup f i).foldl (fun s j => s.bringUp f j 1) s' else s'

/-- R119, R121, R122, R133: PCH_CFG. The mode is writable only while the channel is disabled; max_pli takes steps of 4. -/
def State.writeChannel (s : State) (p : APath) (die c : Nat) (data : Word) : State :=
  let old := s.reg .pchCfg c
  let (s', w) := s.meet p die .pchCfg c data
  let w := if fieldOf 0 1 old = 1 then withField 2 1 w (fieldOf 2 1 old) else w
  let off := fldOf .pchCfgMaxPli w % 4 != 0
  let w := if off then withField 16 14 w (fldOf .pchCfgMaxPli old) else w
  let s' := if off then s'.keepsField die else s'
  (s'.setReg .pchCfg c (withField 0 1 w (fieldOf 0 1 old))).setEnable c (fieldOf 0 1 w = 1)

/-- R121, R135: PCH_TREE.offset stands while the tree is launched or its launch is pending. -/
def State.writeGrid (s : State) (p : APath) (die t : Nat) (data : Word) : State :=
  if s.launched t ∨ s.launchPending t then s else s.writeReg p die .pchTree t data

/-- R174: the patterns of a profile that a valid Alloc record names. -/
def State.writePattern (s : State) (p : APath) (die : Nat) (r : Reg) (i : Nat) (data : Word) : State :=
  let (s', w) := s.meet p die r i data
  if w = s.reg r i then s'
  else if s.profileFree (i / 4) (i % 4) then s'.setReg r i w
  else s'.report .brxPrfReject (i / 4) .brxPrfReject die (i / 4)

def State.actReject (s : State) (die inst : Nat) : State := s.report .actCfgReject die .actCfgReject die inst

/-- R202, R230: ACT_TREE_CFG; a minimum above the maximum is reserved and stays as it was (R10), and with it a maximum that would then
lie below it (log entry 86). -/
def State.writeReach (s : State) (p : APath) (die t : Nat) (data : Word) : State :=
  let old := s.reg .actTreeCfg t
  let (s', w) := s.meet p die .actTreeCfg t data
  let low := fldOf .actTreeCfgMinReach old
  if !s.mayRwc p die .act then s'
  else if s.launched t ∨ s.launchPending t then s'.actReject die t
  else if fldOf .actTreeCfgMinReach w ≤ fldOf .actTreeCfgMaxReach w then s'.setReg .actTreeCfg t w
  else if low ≤ fldOf .actTreeCfgMaxReach w then (s'.setReg .actTreeCfg t (withField 0 9 w low)).keepsField die
  else (s'.setReg .actTreeCfg t (withField 0 18 w (fieldOf 0 18 old))).keepsField die

/-- R234: ACT_ONU_ID binds a FREE slot's ONU-ID: one that is neither bound, but by this slot's own last write, nor resting. The ONU-ID that
the slot had bound before is free again. -/
def State.writeOnuId (s : State) (p : APath) (die i : Nat) (data : Word) : State :=
  let old := s.reg .actOnuId i
  let (s', w) := s.meet p die .actOnuId i data
  let treeOf := fun (w : Word) => (die - 2) * 8 + fldOf .actOnuIdTree w
  let t := treeOf w
  let mine := s.regs.has (regKey .actOnuId i) && s.ident (treeOf old) 0 (fldOf .actOnuIdOnuId old) = some (.bound (fldOf .actOnuIdOnu old))
    && (s.onu (fldOf .actOnuIdOnu old)).isNone
  let same := mine && treeOf old = t && fldOf .actOnuIdOnuId old = fldOf .actOnuIdOnuId w
  if !s.mayRwc p die .act then s'
  else if s.expertBarred p t then s'.protectedWrite t
  else if (s.slotOnu i).isSome ∨ (!same ∧ (s.ident t 0 (fldOf .actOnuIdOnuId w)).isSome) then s'.actReject die i
  else
    let s' := if mine then s'.setIdent (treeOf old) 0 (fldOf .actOnuIdOnuId old) none else s'
    (s'.setReg .actOnuId i w).setIdent t 0 (fldOf .actOnuIdOnuId w) (some (.bound (fldOf .actOnuIdOnu w)))

/-- R261: SKN_CFG is writable only while no ONU is joined. -/
def State.writeSkein (s : State) (p : APath) (die k : Nat) (data : Word) : State :=
  if s.skeinJoined k then s else s.writeReg p die .sknCfg k data

/-- R272, R284, R289: RUL_TBL_CFG. -/
def State.writeTableCfg (s : State) (p : APath) (half i : Nat) (data : Word) : State :=
  let (s', w) := s.meet p half .rulTblCfg i data
  if w = s.reg .rulTblCfg i then s'
  else
    let r := s'.setTable half (i % 16) (fldOf .rulTblCfgDir w) (fldOf .rulTblCfgMode w) (fldOf .rulTblCfgBlocks w)
    if r.status = .ok then r.st else s'.entReject half

/-- R273, R290: RUL_KEYn; an unlisted selector is reserved. -/
def State.writeKeyField (s : State) (p : APath) (half i : Nat) (data : Word) : State :=
  let (s', w) := s.meet p half .rulKey i data
  if selectorOk w then s'.setReg .rulKey i w
  else (s'.setReg .rulKey i (withField 0 8 w (fieldOf 0 8 (s.reg .rulKey i)))).keepsField half

/-- R266: a definition stands while an enabled edge leads to its type. -/
def State.writeHeader (s : State) (p : APath) (half i : Nat) (data : Word) : State :=
  if (s.fwdOf half).edges.any (fun e => e.2.en && e.2.to_ = i / 128 % 128) then s else s.writeReg p half .prsHdr i data

/-- R302: BR_SEED, an RWC register. -/
def State.writeSeedReg (s : State) (p : APath) (half : Nat) (data : Word) : State :=
  if s.mayRwc p half .br then s.writeSeed half data
  else if data = s.reg .brSeed half then s else s.unclaimedWrite half

/-- R351: a profile's minimum runs to its maximum; R354: ret runs to spill - 1. A written maximum or spill that a kept minimum or ret
contradicts is kept too, and one bad encoding counts: R10 does not say which field gives way (DESIGN CHOICE, log entry 86). A new ret settles
the half's deep queues (R337). -/
def State.writePair (s : State) (p : APath) (half : Nat) (r : Reg) (i : Nat) (strict : Bool) (data : Word) : State :=
  let old := s.reg r i
  let (s', w) := s.meet p half r i data
  let lo := fieldOf 0 16 w
  let hi := fieldOf 16 16 w
  if hi < lo ∨ (strict ∧ hi = lo) then
    let w' := withField 0 16 w (fieldOf 0 16 old)
    let ok := fieldOf 0 16 w' < hi ∨ (!strict ∧ fieldOf 0 16 w' = hi)
    ((if ok then s'.setReg r i w' else s').keepsField half).settleAll half
  else (s'.setReg r i w).settleAll half

def State.schReject (s : State) (half n : Nat) : State := s.report .schCfgReject half .schCfgReject half (n % 2 ^ 17)

/-- A node's word is written: balances run up to now under the old one; first enabled, its buckets are full (R369); its
tags and eligibility follow. -/
def State.nodeWord (s : State) (half n : Nat) (r : Reg) (i : Nat) (w : Word) : State :=
  let s := (s.refillNode half n).setReg r i w
  let s := if s.ndEnabled half n ∧ (s.node half n).buckets.isNone then
      s.setNode half n { s.node half n with buckets := some (s.ndBuckets half n) } else s
  (s.rewrittenNode half n).syncHalf half

/-- R367, R371, R378-R382: the registers of a node or of a queue at the lowest level. gate belongs to queues, ovh to level 1;
the device sets the parents of the upper levels (R356). Enabling a queue attaches it, within R355 and R356; disabling one leaves it attached
(R360). -/
def State.writeNode (s : State) (p : APath) (half n : Nat) (r : Reg) (i : Nat) (data : Word) : State :=
  let old := s.reg r i
  let (s', w) := s.meet p half r i data
  let root := !isQueueNode n && nodeLevel n = 1
  let rate := fieldOf 0 26 w
  if !s.mayRwc p half .sch then s'
  else match r with
    | .schNdCfg =>
      let w := withField 25 3 w 0
      s'.nodeWord half n r i (if root then w else withField 16 9 w (fieldOf 16 9 old))
    | .schNdPar =>
      let dir := (nodeUp n).toNat
      if !hostParent dir (nodeLevel n) then s'
      else if s.parentFits half n (fieldOf 0 17 w) then s'.nodeWord half n r i w else s'.schReject half n
    | .schNdCir | .schQCir =>
      let pir := s.ndFld half n .schNdPirRate .schQPirRate
      if root ∨ (pir ≠ 0 ∧ pir < rate) then s'.schReject half n else s'.nodeWord half n r i w
    | .schNdPir | .schQPir =>
      if root ∨ (rate ≠ 0 ∧ rate < s.ndFld half n .schNdCirRate .schQCirRate) then s'.schReject half n else s'.nodeWord half n r i w
    | .schQCfg =>
      let q := n - 2 ^ 29
      let x := s'.queue half q
      if !w.getLsbD 31 ∨ x.attached then s'.nodeWord half n r i w
      else if !s'.attachOk half q (s'.fld .schQParParent i) ∨ (if qIsUp q then 65536 else 131072) ≤ s'.attachedCount half (qIsUp q) then
        s'.schReject half n
      else (s'.setQueue half q { x with attached := true }).nodeWord half n r i w
    | .schQPar => if s'.attachOk half (n - 2 ^ 29) (fieldOf 0 17 w) then s'.nodeWord half n r i w else s'.schReject half n
    | _ => s'.nodeWord half n r i w

/-- R376, R384: a policer's registers; one written while it is valid is rewritten. -/
def State.writePolicer (s : State) (p : APath) (half : Nat) (r : Reg) (i : Nat) (data : Word) : State :=
  let n := i % 2 ^ 17
  let s' := s.writeReg p half r i data
  if s.mayRwc p half .plc ∧ (s'.flag .plcCfgValid i ∨ (s'.policer half n).memErr) then s'.rewrittenPolicer half n else s'

/-- R378: NDSEL's level runs to 4 downstream, to 3 upstream; a level 4 that would stand beside direction 1 is kept out (R10), and where the
level kept is itself 4 so is the direction (DESIGN CHOICE, log entry 86). -/
def State.writeNdsel (s : State) (p : APath) (die i : Nat) (data : Word) : State :=
  let old := s.reg .ndsel i
  let (s', w) := s.meet p die .ndsel i data
  if fldOf .ndselDir w = 1 ∧ fldOf .ndselLevel w = 4 then
    let w := withField 25 3 w (fldOf .ndselLevel old)
    (s'.setReg .ndsel i (if fldOf .ndselLevel old = 4 then withField 28 1 w (fldOf .ndselDir old) else w)).keepsField die
  else s'.setReg .ndsel i w

/-- R385: the interval of an entry, a staged base's nanoseconds, a staged cycle are out of their limits. -/
def gateWordBad (r : Reg) (data : Word) : Bool :=
  let v := data.toNat % 2 ^ 30
  1000000000 < v || (r = .gtEntInt && v < 8) || (r = .gtCycle && v < 1000) || (r = .gtBaseNs && v = 1000000000)

/-- R385, R400: an expert write outside R385's limits is a bad encoding (R10) and a refused write of the gates. -/
def State.writeGateTime (s : State) (p : APath) (half : Nat) (r : Reg) (i : Nat) (data : Word) : State :=
  let s' := s.writeReg p half r i data
  if s.mayRwc p half .gt && gateWordBad r data then s'.gtReject half (i % 128) else s'

/-- R385, R387, R400: a write of the staging entries, refused while a list is armed. -/
def State.writeEntry (s : State) (p : APath) (half : Nat) (r : Reg) (i : Nat) (data : Word) : State :=
  let g := i / 1024 % 128
  if s.mayRwc p half .gt ∧ (s.storeOf half).armed.has g then s.gtReject half g
  else
    let s' := s.writeReg p half r i data
    if s.mayRwc p half .gt && r = .gtEntInt && gateWordBad r data then s'.gtReject half g else s'

/-- R432, R436: SEC_CFG. Ignoring an alarm source is a non-approved service, refused once strict is set. -/
def State.writeSecCfg (s : State) (p : APath) (data : Word) : State :=
  let old := s.reg .secCfg 0
  let (s', w) := s.meet p 15 .secCfg 0 data
  let asks := fieldOf 1 9 w &&& fieldOf 1 9 old != fieldOf 1 9 w
  if asks ∧ s.flag .secCfgStrict 0 then s'.setReg .secCfg 0 (withField 1 9 w (fieldOf 1 9 old))
  else if asks then (s'.setReg .secCfg 0 w).notApproved
  else s'.setReg .secCfg 0 w

/-- R440, R450, R464: TND_PAIR_CFG; enabling pairing starts it, as TANDEM.PAIR does; auto set while the peer's halter is released
seeks. -/
def State.writePairCfg (s : State) (p : APath) (data : Word) : State :=
  let was := s.flag .tndPairCfgEn 0
  let auto := s.flag .tndPairCfgAuto 0
  let s := s.writeReg p 6 .tndPairCfg 0 data
  let s := if auto then s else s.autoSeek
  if !was ∧ s.flag .tndPairCfgEn 0 then (s.modTandem (fun w => { w with ephemeral := none })).sendPair else s

/-- R466: TND_TREE_CFG is writable only while protect is 0. -/
def State.writePairTree (s : State) (p : APath) (t : Nat) (data : Word) : State :=
  if s.protected t then s else s.writeReg p 6 .tndTreeCfg t data

/-- R480: the base of an enabled ring. -/
def State.writeRingBase (s : State) (p : APath) (r : Reg) (i : Nat) (data : Word) : State :=
  if s.flag .lshRingCfgEn i then s.ringReject else s.writeReg p 0 r i data

/-- What a written word does to an instance of a register that the access may reach. -/
def State.writeInst (s : State) (p : APath) (die : Nat) (r : Reg) (i idx : Nat) (data : Word) : State :=
  match r with
  | .sysRtnCfg => s.writeRation p i data
  | .tbLatch => s.latchTime p data
  | .tbIncr => s.writeTbIncr p data
  | .tbActCtl => s.writeTbActCtl p data
  | .tbWdog => s.writeTbWdog p data
  | .tbCapPop => s.popCapture p
  | .tbPinCfg | .tbPinStartSecHi | .tbPinStartSecLo | .tbPinStartNs | .tbPinPeriod | .tbPinWidth => s.writePin p r i data
  | .lnuCtl | .tndCtl | .lnpCtl => s.writeLaneCtl p die r i data
  | .lnuMode => s.writeLnuMode p i data
  | .pchCfg => s.writeChannel p die i data
  | .pchTree => s.writeGrid p die i data
  | .gntAlcId | .gntAlcCfg | .gntAlcFix | .gntAlcAsr | .gntAlcNas | .gntAlcMax => s.stageReg p die r (s.alcWord p die r) data
  | .gntAlcCommit => s.commitAlloc p die data
  | .brxPrfCfg => s.writeProfile p (i / 4) (i % 4) data
  | .brxPrfPreHi | .brxPrfPreLo | .brxPrfDlmHi | .brxPrfDlmLo => s.writePattern p die r i data
  | .actTreeCfg => s.writeReach p die i data
  | .actOnuId => s.writeOnuId p die i data
  | .sknCfg => s.writeSkein p die i data
  | .cadTribCfg | .cadTribQ | .cadTribWl | .cadTribWh => s.stageReg p die r (s.tribWord p die r) data
  | .cadTribCommit => s.commitTrib p i data
  | .prsHdr => s.writeHeader p die i data
  | .rulTblCfg => s.writeTableCfg p die i data
  | .rulKey => s.writeKeyField p die i data
  | .rulEntWr => s.writeRulEnt p die data
  | .rulCommit => s.writeRulCommit p die data
  | .brAccCtl => s.writeAccess p die data
  | .brSeed => s.writeSeedReg p die data
  | .qmPrfCells => s.writePair p die r i false data
  | .dstCfg => s.writePair p die r i true data
  | .ndsel => s.writeNdsel p die i data
  | .gtBaseNs | .gtCycle => s.writeGateTime p die r i data
  | .edtCommit => s.commitEdit p die data
  | .schNdCfg | .schNdPar | .schNdCir | .schNdPir | .schNdCbs | .schNdPbs => s.writeNode p die (i % 2 ^ 29) r i data
  | .schQCfg | .schQPar | .schQCir | .schQPir | .schQCbs | .schQPbs => s.writeNode p die (queueNode (i % 2 ^ 26)) r i data
  | .plcCfg | .plcCir | .plcEir | .plcCbs | .plcEbs => s.writePolicer p die r i data
  | .gtEntInt | .gtEntGates => s.writeEntry p die r i data
  | .gtListCtl => s.writeListCtl p die (i % 128) data
  | .secCfg => s.writeSecCfg p data
  | .tndPairCfg => s.writePairCfg p data
  | .tndTreeCfg => s.writePairTree p i data
  | .lshRingBaseHi | .lshRingBaseLo => s.writeRingBase p r i data
  | .lshRingCfg => s.writeRingCfg i data
  | .lshRingPtr => s.writeRingPtr i (fldOf .lshRingPtrHost data)
  | .evtStat => s.clearStat i data
  | .evtMask => s.writeMask i data
  | .evtRingRd => s.writeRingRd (apathCode p) data
  | .spBankOwner => s.writeOwner p die idx data
  | .hbmSegOwner => s.writeOwner p die (64 + idx) data
  | .ggcCfg => s.gaugeConfigure (i / 128) (fun s => s.writeReg p die r i data)
  | .ggcOvf => s.clearOvf i data
  | _ => s.writeReg p die r i data

/-- A read-only copy: TB on die 1 (R54), the pair registers on die 7 (R464). -/
def readOnlyCopy (r : Reg) (die : Nat) : Bool :=
  (die = 1 && r.block = .tb && r.scope ≠ .sel) || (die = 7 && (r.scope = .pair || r.scope = .ptree))

/-- Firmware meets a claimed block (R41, R526). -/
def State.firmwareBarred (s : State) (p : APath) (die : Nat) (r : Reg) : Bool :=
  match p with
  | .seq _ => r.scope ≠ .sel && r ≠ .rtnsel && s.claimed die r.block
  | .pcie | .i3c => false

/-- A path may stage the upper half of a split value, or its write counts as R7 says. -/
def State.stageHi (s : State) (p : APath) (die : Nat) (r : Reg) (i idx : Nat) (data : Word) : State :=
  let (s', w) := s.meet p die r i data
  let rw := r = .lshRingBaseHi
  if rw ∨ s.mayRwc p die r.block then
    { s' with win := { s'.win with stagedHi := s'.win.stagedHi.put (hiKey die p r idx) w } }
  else s'

/-- A write of a _LO register applies the path's staged _HI with it, on the instance selected now (R506). -/
def State.commitHi (s : State) (p : APath) (die : Nat) (r : Reg) (i idx : Nat) : State :=
  match hiOf r with
  | none => s
  | some hi =>
    match s.win.stagedHi.find (hiKey die p hi idx) with
    | none => s
    | some v =>
      let s := { s with win := { s.win with stagedHi := s.win.stagedHi.del (hiKey die p hi idx) } }
      s.writeInst p die hi i idx v

/-- A write has landed on a register: what it read before stands for the other paths to the end of the cycle (R505). -/
def State.noteBefore (s was : State) (p : APath) (die : Nat) (r : Reg) (i idx : Nat) : State :=
  let kept := s.win.before.filter (fun e => e.2.2.1 = s.elapsed)
  let note := fun (t : Tbl (Nat × Nat × Word)) (r : Reg) =>
    if t.has (regKey r i) then t else t.put (regKey r i) (apathCode p, s.elapsed, was.regValue p die r i idx &&& readableMask r)
  { s with win := { s.win with before := (r :: (hiOf r).toList).foldl note kept } }

/-- A written word at an instance that the access reaches: an upper half is staged, anything else takes effect. -/
def State.landWord (s : State) (p : APath) (die : Nat) (r : Reg) (i idx : Nat) (data : Word) : State :=
  if isHi r then s.stageHi p die r i idx data
  else ((s.commitHi p die r i idx).writeInst p die r i idx data).noteBefore s p die r i idx

/-- A write (R503-R509). -/
def State.writeAccessTo (s : State) (a : RegAccess) : State :=
  let die := accDie a
  let p := a.path
  if s.dieFused die then s
  else match s.accFault a true with
    | some c => s.accError a c
    | none => match a.reg with
      | none => s
      | some r =>
        if selectIdle r die ∨ readOnlyCopy r die then s
        else match s.instOf (apathCode p) die a.idx r with
          | none => s
          | some i =>
            if s.firmwareBarred p die r then s.count .sqClaimDrop (seqDie (apathCode p - 3))
            else match s.treeOfReg r i with
              | some t =>
                if s.expertBarred p t then s.protectedWrite t else s.landWord p die r i a.idx a.data
              | none => s.landWord p die r i a.idx a.data

/-! ### The commands -/

/-- R7, R504: a write to a register. -/
def execRegisterWrite (a : RegAccess) (s : State) : Host.Outcome State Fault Refusal := .next (s.writeAccessTo a)

/-- R506: a read through a register path, its value returned to the host; of a _LO register it latches the _HI half. -/
def execHiLoReadLatch (a : RegAccess) (s : State) : Host.Outcome State Fault Refusal :=
  let r := s.readAccess a
  .next (r.1.send (.regRead a.path r.2))

/-- R506: a write of a _LO register with the staged _HI. -/
def execHiLoWriteCommit (a : RegAccess) (s : State) : Host.Outcome State Fault Refusal := .next (s.writeAccessTo a)

/-- The 4-byte field of a private write, most significant byte first (R507). -/
def beWord (b : List Byte) (at_ : Nat) : Nat := ((b.drop at_).take 4).foldl (fun acc x => acc * 256 + x.toNat) 0

/-- The access a private write in one of the two forms names; none in any other form (R507). -/
def i3cAccess (write : Bool) (b : List Byte) (reg : Option Reg) (idx : Nat) : Option RegAccess :=
  let addr := beWord b 2
  let form := if write then b.length = 10 && b.take 2 = [0x57, 0x52] else b.length = 6 && b.take 2 = [0x52, 0x44]
  if form && addr < 2 ^ 26 then some ⟨.i3c, BitVec.ofNat 26 addr, reg, idx, false, BitVec.ofNat 32 (if write then beWord b 6 else 0)⟩
  else none

/-- A private write of neither form (R507): an access error of cause 0 at the address it carries. -/
def i3cBad (b : List Byte) : RegAccess := ⟨.i3c, BitVec.ofNat 26 (beWord b 2), none, 0, false, 0⟩

def execI3cRegisterWrite (bytes : List Byte) (reg : Option Reg) (idx : Nat) (s : State) : Host.Outcome State Fault Refusal :=
  .next (
    if !s.i3cUp then s
    else match i3cAccess true bytes reg idx with
      | some a => s.writeAccessTo a
      | none => s.accError (i3cBad bytes) 0)

/-- R507: the next private read returns the value read when the read is armed. -/
def execI3cRegisterReadArm (bytes : List Byte) (reg : Option Reg) (idx : Nat) (s : State) : Host.Outcome State Fault Refusal :=
  .next (
    if !s.i3cUp then s
    else match i3cAccess false bytes reg idx with
      | some a =>
        let r := s.readAccess a
        { r.1 with laosh := { r.1.laosh with armedRead := some r.2 } }
      | none => s.accError (i3cBad bytes) 0)

/-- A stitch's access: the BAR0 address in register a plus the offset, modulo 2^26 (R499, R528). -/
def State.stitchAccess (s : State) (q : BitVec 5) (a : BitVec 4) (offset : BitVec 18) (reg : Option Reg) (idx : Nat) (data : Word) : RegAccess :=
  ⟨.seq q, BitVec.ofNat 26 ((s.seq q.toNat).ctx.address a offset), reg, idx, false, data⟩

def execStRdreg (q : BitVec 5) (d a : BitVec 4) (offset : BitVec 18) (reg : Option Reg) (idx : Nat) (s : State) :
    Host.Outcome State Fault Refusal :=
  .next (s.stitchRow q.toNat 0x18 [fmtD d, fmtA a, fmtOffset offset] (fun s =>
    let r := s.readAccess (s.stitchAccess q a offset reg idx 0)
    r.1.stitch q.toNat (fun x => x.set d.toNat r.2)))

def execStWrreg (q : BitVec 5) (d a : BitVec 4) (offset : BitVec 18) (reg : Option Reg) (idx : Nat) (s : State) :
    Host.Outcome State Fault Refusal :=
  .next (s.stitchRow q.toNat 0x19 [fmtD d, fmtA a, fmtOffset offset] (fun s =>
    let x := (s.seq q.toNat).ctx
    (s.writeAccessTo (s.stitchAccess q a offset reg idx (x.get d.toNat))).stitch q.toNat id))

end Sys2Proof.Machine
end

