-- ==== Sys2Proof/Machine/TestPort.lean ====
section
/-!
DEFINITION. The board test port (R629). No command clocks it: `State.tapClock` is what a rising edge of TCK does, and the levels at the
balls are `State.ball` (log entry 24).
-/

namespace Sys2Proof.Machine

/-- The controller's next state by TMS (IEEE 1149.1). -/
def TapCtrl.next (c : TapCtrl) (tms : Bool) : TapCtrl :=
  match c, tms with
  | .testLogicReset, true => .testLogicReset
  | .testLogicReset, false => .runTestIdle
  | .runTestIdle, true => .selectDr
  | .runTestIdle, false => .runTestIdle
  | .selectDr, true => .selectIr
  | .selectDr, false => .captureDr
  | .captureDr, true => .exit1Dr
  | .captureDr, false => .shiftDr
  | .shiftDr, true => .exit1Dr
  | .shiftDr, false => .shiftDr
  | .exit1Dr, true => .updateDr
  | .exit1Dr, false => .pauseDr
  | .pauseDr, true => .exit2Dr
  | .pauseDr, false => .pauseDr
  | .exit2Dr, true => .updateDr
  | .exit2Dr, false => .shiftDr
  | .updateDr, true => .selectDr
  | .updateDr, false => .runTestIdle
  | .selectIr, true => .testLogicReset
  | .selectIr, false => .captureIr
  | .captureIr, true => .exit1Ir
  | .captureIr, false => .shiftIr
  | .shiftIr, true => .exit1Ir
  | .shiftIr, false => .shiftIr
  | .exit1Ir, true => .updateIr
  | .exit1Ir, false => .pauseIr
  | .pauseIr, true => .exit2Ir
  | .pauseIr, false => .pauseIr
  | .exit2Ir, true => .updateIr
  | .exit2Ir, false => .shiftIr
  | .updateIr, true => .selectDr
  | .updateIr, false => .runTestIdle

/-- The TAP is held in Test-Logic-Reset except while TEST_EN is high and HOST_RST_N low together. -/
def State.tapHeld (s : State) : Bool := !(s.pin .testEn 0 = 1 && s.pin .hostRstN 0 = 0)

/-- The test port as it stands. -/
def State.tapNow (s : State) : Tap := if s.tapHeld then Tap.reset else s.tap

/-- The IDCODE: SYS_ID.part in [27:12], and bit 0, which is 1 (IEEE 1149.1); the version in [31:28] and the manufacturer in [11:1] are not
in the spec (log entry 24). -/
def State.idcode (s : State) : Nat :=
  Config.standard 74 [] % 16 * 2 ^ 28 + s.fld .sysIdPart 0 % 2 ^ 16 * 2 ^ 12 + Config.standard 75 [] % 2 ^ 11 * 2 + 1

/-- The bits of a word, least significant first. -/
def lowBits (n w : Nat) : List Bool := (List.range n).map (fun i => w.testBit i)

/-- The cells of the boundary register, in the model's order (log entry 24): every digital signal ball but OPT_TXEN and HLT_OWN_N. -/
def boundary : List (Pin × Nat) :=
  (List.range 128).map (fun c => (.brxRstN, c)) ++ (List.range 128).map (fun c => (.rssiTrg, c)) ++ (List.range 32).map (fun p => (.tpin, p))
  ++ [(.ppsOut, 0), (.ppsIn, 0), (.hltPeerN, 0), (.alertN, 0), (.hostRstN, 0), (.tamperN, 0), (.hltSenior, 0), (.i3cScl, 0), (.i3cSda, 0)]
  ++ (List.range 10).map (fun b => (.devnum, b))

/-- The level a boundary cell captures; DEVNUM's balls are the bits of one number. -/
def State.cell (s : State) (c : Pin × Nat) : Bool := if c.1 = .devnum then (s.pin .devnum 0).testBit c.2 else s.pin c.1 c.2 != 0

/-- The instruction that an instruction register's bits name: all ones are BYPASS; the other codes are not in the spec (log entry 24). -/
def tapInstr (bits : List Bool) : TapInstr :=
  if bits.all id then .bypass
  else match Config.standard 76 (bits.map Bool.toNat) % 4 with
    | 0 => .bypass
    | 1 => .idcode
    | 2 => .sample
    | _ => .extest

/-- What a data register captures. -/
def State.tapCapture (s : State) : TapInstr → List Bool
  | .bypass => [false]
  | .idcode => lowBits 32 s.idcode
  | .sample | .extest => boundary.map s.cell

/-- A rising edge of TCK with the levels of TMS and TDI. -/
def State.tapClock (s : State) (tms tdi : Bool) : State :=
  if s.tapHeld then { s with tap := Tap.reset }
  else
    let t := s.tap
    let t := match t.ctrl with
      | .testLogicReset => Tap.reset
      | .captureDr => { t with dr := s.tapCapture t.instr }
      | .shiftDr => { t with dr := t.dr.drop 1 ++ [tdi] }
      | .updateDr => if t.instr = TapInstr.sample ∨ t.instr = TapInstr.extest then { t with latch := t.dr } else t
      | .captureIr => { t with ir := [true, false] }
      | .shiftIr => { t with ir := t.ir.drop 1 ++ [tdi] }
      | .updateIr => { t with instr := tapInstr t.ir }
      | _ => t
    { s with tap := { t with ctrl := t.ctrl.next tms } }

/-- EXTEST runs. -/
def State.extest (s : State) : Bool := decide (s.tapNow.instr = .extest)

/-- Balls that the device drives and that the boundary register holds. -/
def drivenPin : Pin → Bool
  | .brxRstN | .rssiTrg | .tpin | .ppsOut | .alertN => true
  | _ => false

/-- The level at a ball: under EXTEST the boundary register drives it; OPT_TXEN and HLT_OWN_N, which it does not hold, stay low and
released. -/
def State.ball (s : State) (p : Pin) (i : Nat) : Nat :=
  if !s.extest then s.pin p i
  else if p = .optTxen then 0
  else if p = .hltOwnN then 1
  else if !drivenPin p then s.pin p i
  else match (boundary.zip s.tapNow.latch).find? (fun c => c.1 = (p, i)) with
    | some c => c.2.toNat
    | none => s.pin p i

end Sys2Proof.Machine
end

