-- ==== Sys2Proof/Machine/Upstream.lean ====
section
/-!
DEFINITION. One burst from its window to the reassembled SDUs (R175-R192), with what it tells the activation sequencers
(R214, R215, R218, R220) and the standby's measurement (R455, R459). Log entry 81.
-/

namespace Sys2Proof.Machine

/-! ### Reassembly (R189, R190, R245) -/

def State.setRsm (s : State) (key : Nat) (x : Option RsmCtx) : State :=
  { s with pon := { s.pon with rsm := s.pon.rsm.setOpt key x } }

/-- What is received: the channel, the ONU whose burst was expected, the superframe count of its map, and where the unit's bytes begin
in the upstream frame. -/
structure RxAt where
  c : Nat
  o : Nat
  frame : Nat
  base : Nat

/-- An event at most once per channel and frame, or per ONU and frame (R191): the frame is that of the map. -/
def State.raiseAt (s : State) (r : RxAt) (e : Ev) (inst : Nat) : State := s.raiseOnceIn r.frame e (dieOfChan r.c) inst inst

/-- R190: a frame of the ONU is discarded, or its delineation lost. -/
def State.onuLoss (s : State) (o : Nat) : State :=
  if (s.onu o).isSome then s.modOnu o (fun x => { x with loss := x.loss + 1 })
  else { s with pon := { s.pon with gone := s.pon.gone.put o (Tbl.getD s.pon.gone o 0 + 1) } }

/-- An ONU's loss count; that of a released ONU stands beside the slots. -/
def State.lossOf (s : State) (o : Nat) : Nat :=
  match s.onu o with
  | some x => x.loss
  | none => Tbl.getD s.pon.gone o 0

/-- An SDU is discarded in reassembly with its counter and event. -/
def State.sduGone (s : State) (c o : Nat) (k : Ctr) (e : Option Ev) : State :=
  let die := dieOfChan c
  let s := ((s.count k die).pmAdd 0 c 14 1).pmAdd 1 o 14 1
  match e with
  | some e => s.raise e die o
  | none => s

/-- A number read from leading bytes, most significant first. -/
def leadNat (l : List Byte) : Nat := l.foldl (fun a b => a * 256 + b.toNat) 0

/-- The tributary that a port of an ONU carries. -/
def State.tribOfPort (s : State) (o port : Nat) : Option Nat :=
  (s.tribs.find? (fun p => p.2.onu = o && p.2.port = port)).map Prod.fst

/-- R185, R412: the integrity code of an OMCI message under the ONU's key; the decrypt cluster takes the message on one core. -/
def State.omciOk (s : State) (o : Nat) (h : XgemHead) (len : Nat) : Bool :=
  decide (h.mic.toNat = omciMic (s.integrityKey o 2) h.name.toNat len)

/-- R190, R243, R256: an SDU is complete, with its leading bytes and the loss count its context began with. The standby forwards none
(R455). -/
def State.sduDone (s : State) (c o port len taint : Nat) (lead : List Byte) (h : XgemHead) : State :=
  if s.treeBarred (treeOfChan c) then s
  else if s.lossOf o ≠ taint then s.sduGone c o .brxRsmTaint none
  else match s.tribOfPort o port with
    | some i => s.containerRx i c (leadNat (lead.take 4))
    | none =>
      let s := if s.managementPort c o port then s.cipherItem (dieOfChan c) 1 c len true else s
      match s.skeinJoin o with
      | some j =>
        let f : Frame := ⟨h.name.toNat, len - 4, lead.drop 4⟩
        if len < 64 then s.sduGone c o .brxRsmSize (some .brxRsmSize)
        else s.skeinRx o port f (leadNat (lead.take 4)) (s.omciOk o h (len - 4)) j
      | none =>
        if len < 60 then s.sduGone c o .brxRsmSize (some .brxRsmSize)
        else s.deliverSdu c o port ⟨h.name.toNat, len, lead⟩ (s.omciOk o h len)

/-- The longest SDU a port's context takes: 12,288 bytes, and 4 of a skein tag (R189, R241); on a tributary's port a member container
(R248, R255). -/
def State.sduLimit (s : State) (o port : Nat) : Nat :=
  match (s.tribOfPort o port).bind s.tribs.find with
  | some x => memberBytes x.nd x.q x.count 0
  | none => if (s.skeinJoin o).isSome then 12292 else 12288

/-- R187: a fragment is deciphered under the key its index names, with the count of its map and its place in the frame (R411); the
decrypt cluster takes it in segments (R408). -/
def State.clearLead (s : State) (r : RxAt) (h : XgemHead) : State × List Byte :=
  let known := h.lead.take h.pli.toNat
  if h.key = 0 then (s, known)
  else
    let key := ((s.unicastKey r.o h.key.toNat).map (fun k => k.2.value)).getD 0
    (s.cipherItem (dieOfChan r.c) 1 r.c h.pli.toNat, ponBytes key r.frame (r.base + h.pos.toNat + 8) known)

/-- R189: a fragment enters its port's context. -/
def State.fragment (s : State) (r : RxAt) (port : Nat) (h : XgemHead) : State :=
  let c := r.c
  let o := r.o
  let t := treeOfChan c
  let key := t * 65536 + port
  let (s, clear) := s.clearLead r h
  let s := match s.pon.rsm.find key, s.skeinJoin o with
    | some (.open_ _ _ _ c0 _), some j => if c0 = c then s else (s.flushPort t port).count .sknFragSplit j.skein
    | _, _ => s
  let loss := s.lossOf o
  let go := fun (old deadline taint from_ : Nat) (lead : List Byte) =>
    let len := old + h.pli.toNat
    let lead := if lead.length = old then lead ++ clear else lead
    let bad := fun (k : Ctr) (e : Ev) => ((s.sduGone c o k (some e)).onuLoss o).setRsm key (if h.last then none else some .discard)
    if s.sduLimit o port < len then bad .brxRsmSize .brxRsmSize
    else if s.rsmPool (halfOfTree t) < s.rsmUsed (halfOfTree t) + cellsOf len - cellsOf old then bad .brxRsmNobuf .brxRsmNobuf
    else if h.last then (s.setRsm key none).sduDone c o port len taint lead h
    else s.setRsm key (some (.open_ len deadline taint from_ lead))
  match s.pon.rsm.find key with
  | none => go 0 ((s.nowOn (dieOfChan c) + s.fld .brxRsmCfgTimeout (dieOfChan c) * frameSpan) % timeMod) loss c []
  | some (.open_ len d taint c0 lead) => go len d taint c0 lead
  | some .discard => (if h.last then s.setRsm key none else s).onuLoss o

/-! ### Ports and keys (R187, R218) -/

/-- Traffic that bears a resting identifier: raised once per tree and frame. -/
def State.restingTraffic (s : State) (t : Nat) : State :=
  (s.count .actPdkLate t).raiseOnceIn (s.treeCount t) .actPdkLate (dieOfTree t) t t

/-- R187: the key index fits the port's kind. -/
def State.keyFits (s : State) (o kind key : Nat) : Bool :=
  if kind = 0 then key = 0
  else kind = 1 && (key = 1 || key = 2) && (s.unicastKey o key).isSome

/-- R186, R187: a frame that delineation delivers: idle ones are dropped; the others are checked, and reassembled. -/
def State.xgemRx (s : State) (r : RxAt) (h : XgemHead) : State :=
  let t := treeOfChan r.c
  let port := h.port.toNat
  let bad := fun (k : Ctr) (e : Ev) => ((s.count k r.c).raiseAt r e r.o).onuLoss r.o
  if port = 0xFFFF then s
  else if s.holder t 2 port ≠ some r.o then
    let s := bad .brxPortBad .brxPort
    if s.resting t 2 port then s.restingTraffic t else s
  else if !s.keyFits r.o (s.portKind t port) h.key.toNat then
    (bad .brxKeyBad .brxKey).pmAdd 1 r.o 11 1
  else s.fragment r port h

/-- What delineation of an allocation's payload gives, as it happens (R186, R190). The frame whose predicted header lies in a lost
codeword is discarded with it (R180). -/
def State.dlnEvent (s : State) (r : RxAt) (e : DlnEv) : State :=
  match e with
  | .frame h => s.xgemRx r h
  | .dropped | .hole => ((s.count .brxXgemDrop r.c).pmAdd 1 r.o 13 1).onuLoss r.o
  | .abandoned => s.count .brxDlnAbandon r.c
  | .loss => (s.report .brxDlnLoss r.c .brxDlnLoss (dieOfChan r.c) r.c).onuLoss r.o

/-! ### Codewords (R179, R180) -/

/-- The codewords are counted; an uncorrectable one is raised once per channel and frame. -/
def State.codewordRx (s : State) (r : RxAt) (w : Option (BitVec 15)) : State :=
  match w with
  | some n =>
    if n = 0 then s
    else ((((s.count .brxFecCorr r.c).countBy .brxFecBits r.c n.toNat).pmAdd 1 r.o 6 1).pmAdd 1 r.o 5 n.toNat)
  | none => ((s.count .brxFecUncorr r.c).pmAdd 1 r.o 7 1).raiseAt r .brxFec r.c

/-- The ranges of the burst's data, counted from its header, that uncorrectable codewords lose. -/
def lostRanges (data : Nat) (ws : List (Option (BitVec 15))) : List (Nat × Nat) :=
  (ws.zipIdx.filter (fun p => p.1.isNone)).map (fun p => (p.2 * data, (p.2 + 1) * data))

/-- The parts of the lost ranges from a position on, counted from it. -/
def rangesFrom (pos : Nat) (rs : List (Nat × Nat)) : List (Nat × Nat) :=
  (rs.filter (fun r => pos < r.2)).map (fun r => (r.1 - pos, r.2 - pos))

def hitBy (rs : List (Nat × Nat)) (lo hi : Nat) : Bool := rs.any (fun r => r.1 < hi && lo < r.2)

/-! ### Allocations (R183-R186) -/

/-- R185: the MIC of a PLOAMu under the ONU's PLOAM integrity key. -/
def State.ploamuOk (s : State) (o : Nat) (a : BurstAlloc) : Bool :=
  decide (a.mic.toNat = ploamMic (s.integrityKey o 3) [a.named.toNat, a.message.toNat])

/-- R185, R218: a PLOAMu, on one core of the decrypt cluster. What the message says reaches the activation sequencer as commands of
their own. -/
def State.ploamuRx (s : State) (r : RxAt) (a : BurstAlloc) (lost : Bool) : State :=
  let t := treeOfChan r.c
  if lost then s
  else
    let s := s.cipherItem (dieOfChan r.c) 1 r.c 48 true
    if !s.ploamuOk r.o a then s.report .brxPloamMic r.c .brxPloamMic (dieOfChan r.c) r.o
    else if s.resting t 0 a.named.toNat then s.restingTraffic t
    else s.wake 9 r.o

/-- A DBRu that did not come. -/
def State.rptMiss (s : State) (c n : Nat) : State := s.countBy .gntRptMiss c n

/-- R184: a DBRu; its occupancy is that of the burst's frame. -/
def State.dbruRx (s : State) (r : RxAt) (key : Option Nat) (a : BurstAlloc) (lost : Bool) : State :=
  if lost then s.rptMiss r.c 1
  else if !a.crcOk then ((s.count .brxDbruBad r.c).raiseAt r .brxDbruBad r.c).rptMiss r.c 1
  else match key with
    | some k => s.decoded k (.dbru a.occupancy (BitVec.ofNat 51 r.frame))
    | none => s

/-- The bytes of XGEM frames other than idle ones, headers and padding included. -/
def sentBytes (o : DlnOut) : Nat :=
  sumOn o (fun e => match e with
    | .frame h => if h.port = 0xFFFF then 0 else 8 + pad4 h.pli.toNat
    | _ => 0)

/-- The bytes that a container's XGEM frames take in an allocation (R255): the unit of its own delineation context (R129). -/
def State.containerUnit (s : State) (c : Nat) (x : Trib) : Nat := xgemBytes (memberBytes x.nd x.q x.count (x.index (c % 4))) (s.fld .pchCfgMaxPli c)

/-- R129, R256: the tributary that an allocation carries, and whether its own delineation context loses its place in the container:
then that is missing. -/
def State.cadContext (s : State) (r : RxAt) (m : AllocStruct) (len : Nat) (heads : List XgemHead) (lost : List (Nat × Nat)) :
    State × Option Nat :=
  match s.tribs.find? (fun p => p.2.onu = r.o && p.2.members.any (fun q => q.2 = m.allocId)) with
  | none => (s, none)
  | some (i, x) =>
    let out := Unit_.delineate ⟨min len (s.containerUnit r.c x), s.fld .cadDlnCfgDelta i, s.fld .cadDlnCfgAlpha i, heads, lost⟩
    let n := out.count .loss
    let s := s.countBy .cadDlnAbandon i (out.count .abandoned)
    if n = 0 then (s, none) else ((List.range n).foldl (fun s _ => s.report .cadDlnLoss i .cadDlnLoss (2 + i / 256) i) s, some x.port)

/-- One allocation: PLOAMu, DBRu, payload. `pos` is where its data begins in the burst's, `bpq` the bytes of a quantum, `last` that it
ends with the trailer. A grant is fully used when XGEM frames other than idle ones fill its payload, headers and padding included
(DEDUCED, log entry 16). -/
def State.allocRx (s : State) (r : RxAt) (bpq pos : Nat) (last : Bool) (m : AllocStruct) (a : BurstAlloc) (rs : List (Nat × Nat)) :
    State :=
  let c := r.c
  let p := if m.ploamu then ploamuQ bpq * bpq else 0
  let d := if m.dbru then bpq else 0
  let len := m.payload * bpq - (if last then 4 else 0)
  let at_ := { r with base := m.start * bpq + p + d }
  let key := match s.recOf (treeOfChan c) m.allocId with
    | some (k, rec_) => if rec_.onu = r.o then some k else none
    | none => none
  let mode := ((key.bind s.pon.allocs.find).map (·.rpt)).getD 0
  let lost := rangesFrom (pos + p + d) rs
  let out := Unit_.delineate ⟨len, s.fld .brxDlnCfgDelta c, s.fld .brxDlnCfgAlpha c, a.heads, lost⟩
  let s := if m.ploamu then s.ploamuRx r a (hitBy rs pos (pos + 48)) else s
  let s := match key with
    | some k => if 2 ≤ mode ∧ m.payload ≠ 0 then s.decoded k (.usage (BitVec.ofNat 32 (sentBytes out)) (len ≤ sentBytes out)) else s
    | none => s
  let s := if m.dbru then s.dbruRx r key a (hitBy rs (pos + p) (pos + p + 4)) else s
  let (s, gone) := s.cadContext r m len a.heads lost
  out.foldl (fun s e => match e with
    | .frame h => if gone = some h.port.toNat then s.onuLoss r.o else s.dlnEvent at_ e
    | _ => s.dlnEvent at_ e) s

/-- The allocations of a burst in turn. -/
def State.allocsRx (s : State) (r : RxAt) (bpq pos : Nat) (rs : List (Nat × Nat)) : List AllocStruct → List BurstAlloc → State
  | [], _ => s
  | m :: ms, as =>
    let a := as.headD ⟨0, 0, 0, false, 0, []⟩
    let size := ((if m.ploamu then ploamuQ bpq else 0) + m.dbru.toNat + m.payload) * bpq
    State.allocsRx (s.allocRx r bpq pos ms.isEmpty m a rs) r bpq (pos + size) rs ms (as.drop 1)

/-! ### Bursts lost and received (R178, R181, R191, R214, R215, R220) -/

/-- Blocks of PM's second: a burst of the channel and of the ONU, errored or not (R585). -/
def State.pmBurst (s : State) (c o : Nat) (bad : Bool) : State := (s.pmBlocks 0 c 1 bad.toNat).pmBlocks 1 o 1 bad.toNat

/-- A takeover's figures are being taken (R461). -/
def State.figures (s : State) : Bool := decide (s.elapsed < s.tandem.figUntil)

/-- The index of an expected burst's ONU now names another ONU, provisioned since. -/
def State.another (s : State) (o : Nat) (e : Expect) : Bool := ((s.onu o).map (fun x => decide (x.onuId ≠ e.onuId))).getD false

/-- A burst of an expected ONU is lost: its DBRus with it, and whatever frames it held (R190); `missed` where R215 counts it as not
received. -/
def State.burstLost (s : State) (r : RxAt) (e : Expect) (missed : Bool) : State :=
  let c := r.c
  let o := r.o
  let t := treeOfChan c
  if s.another o e then ((s.pmBlocks 0 c 1 1).pmAdd 0 c 10 1).rptMiss c (e.allocs.countP (·.dbru)) else
  let s := (((s.pmBurst c o true).pmAdd 0 c 10 1).pmAdd 1 o 10 1).onuLoss o
  let s := s.rptMiss c (e.allocs.countP (·.dbru))
  let s := if s.protected t then s.modTndChan c (fun x => { x with lost := x.lost + 1 }) else s
  let s := if s.protected t && s.figures then s.modTndTree t (fun x => { x with missed := x.missed + 1 }) else s
  if !missed then s
  else
    let s := s.modOnu o (fun x => { x with miss := x.miss + 1 })
    match s.onu o with
    | some x =>
      if x.phase = .operation ∧ s.fld .actTreeCfgLobThr t ≤ x.miss ∧ !s.treeBarred t then
        let s := (s.modOnu o (fun x => x.enter .lost s.elapsed)).report .actLob t .actLob (dieOfTree t) o
        let s := s.pmDefect 1 o
        if s.protected t && s.figures then s.modTndTree t (fun x => { x with lostOnus := x.lostOnus + 1 }) else s
      else s
    | none => s

/-- The arrival of an expected burst's first preamble bit, an offset of d UI late, in elapsed time. -/
def State.burstStart (s : State) (c : Nat) (e : Expect) (d : Int) : Int :=
  (s.frameElapsed (treeOfChan c) e.frame : Int) + nsSpan (s.tEq (treeOfChan c)) + e.first * frameSpan / (s.quanta c : Int)
    + d * nsUnit * 100000 / (s.uiRate c e.profile : Int) + s.feeder (treeOfChan c)

/-- R220, R221: the burst comes on a placement that the ONU has left. -/
def State.pastFence (s : State) (c o : Nat) (x : OnuSlot) (arrival : Int) : Bool :=
  x.fenceCut ||
  match x.migration with
  | some m => decide ((m.fence : Int) ≤ arrival) && m.target != some c
  | none => x.away || (x.chan != c && !(s.skeinJoin o).isSome)

/-- A burst past the fence is discarded: its DBRus do not reach the grant engine (R220). -/
def State.fenceLate (s : State) (r : RxAt) (e : Expect) : State :=
  let t := treeOfChan r.c
  ((s.report .actFenceLate t .actFenceLate (dieOfTree t) r.o).onuLoss r.o).rptMiss r.c (e.allocs.countP (·.dbru))

/-- An offset in UI as 1/16 ns, rounded to nearest (log entry 81). -/
def ui16 (rate : Nat) (d : Int) : Int := (2 * d * 1600000 + rate) / (2 * rate : Int)

/-- R214, R238: the drift of a joined ONU on a member other than its anchor moves that member's own EqD. -/
def State.memberDrift (s : State) (r : RxAt) (rate : Nat) (d : Int) (onuId : Nat) : State :=
  match s.skeinJoin r.o with
  | none => s
  | some j =>
    let wl := r.c % 4
    match j.members.find? (fun m => m.1 = wl) with
    | none => s
    | some m =>
      if ((j.drift.find wl).map (fun n => decide (framesBetween n r.frame < 0))).getD false then s
      else
        let eqd := unsignedOf 32 (signedOf 32 m.2 - ui16 rate d)
        let j := { j with members := j.members.map (fun y => if y.1 = wl then (wl, eqd) else y), drift := j.drift.put wl ((r.frame + 8) % 2 ^ 51) }
        ((({ s with skeinOnus := s.skeinOnus.put r.o j }.sendEqd r.c onuId eqd).count .actEqdAdj (treeOfChan r.c)).pmAdd 1 r.o 15 1)

/-- R214: the equalization delay follows the drift of an ONU in OPERATION, and drift reports are ignored for 8 frames. -/
def State.driftFix (s : State) (r : RxAt) (rate : Nat) (d : Int) : State :=
  match s.onu r.o with
  | none => s
  | some x =>
    let idle := match x.driftUntil with
      | some n => decide (0 ≤ framesBetween n r.frame)
      | none => true
    if x.phase ≠ .operation ∨ !idle ∨ s.treeBarred x.tree then s
    else if r.c ≠ x.chan then s.memberDrift r rate d x.onuId
    else
      let eqd := unsignedOf 32 (signedOf 32 x.eqd - ui16 rate d)
      let s := s.modOnu r.o (fun x => { x with eqd := eqd, driftUntil := some ((r.frame + 8) % 2 ^ 51) })
      ((s.sendEqd r.c x.onuId eqd).count .actEqdAdj x.tree).pmAdd 1 r.o 15 1

/-- The bits of a profile's delimiter that differ from those received at a position, most significant first (R177, R194). -/
def State.delimiterDiff (s : State) (c n : Nat) (bits : BitVec 64) : Nat :=
  let i := prfInst c n
  let lo := s.reg .brxPrfDlmLo i
  if s.dlmLen c n = 8 then popCount 64 (((s.reg .brxPrfDlmHi i) ++ lo) ^^^ bits).toNat
  else popCount 32 (lo ^^^ bits.extractLsb' 32 32).toNat

/-- The first position, by its place, at which the delimiter is accepted (R177), in the window or, where an ONU is accepted
at either offset (R459), as far from its old one: its offset and the differing bits. -/
def acceptAt (tol win : Nat) (old : Option Int) (l : List (Int × Nat)) : Option (Int × Nat) :=
  let near := fun (d : Int) => d.natAbs ≤ win || (match old with
    | some x => (d - x).natAbs ≤ win
    | none => false)
  (l.filter (fun p => p.2 ≤ tol && near p.1)).foldl (fun acc p =>
    match acc with
    | some q => if p.1 < q.1 then some p else acc
    | none => some p) none

/-- R178, R214, R455, R459: the offset of an accepted burst is kept, reported and corrected. -/
def State.offsetRx (s : State) (r : RxAt) (rate win : Nat) (old : Option Int) (d : Int) : State :=
  let c := r.c
  let o := r.o
  let t := treeOfChan c
  let tol := s.fld .brxChCfgDriftTol c
  let atOld := decide (win < d.natAbs)
  let rest := if atOld then d - old.getD 0 else d
  let s := s.setFld .brxChStatLastOfs c (unsignedOf 12 (max (-2047) (min 2047 d)))
  let s := s.modOnu o (fun x => { x with lastOfs := d })
  let ns := d * 100000 / (rate : Int)
  let s := if s.treeBarred t then
      s.modTandem (fun w => { w with u := Tbl.put w.u o (signedOf 19 (s.fld .tndTreeCfgDfeed t) + ns) })
    else s
  let s := if !atOld then s.modTandem (fun w => { w with accept := w.accept.del o }) else s
  let s := if s.protected t && s.figures && !atOld then s.modTndTree t (fun x => { x with maxR := max x.maxR ns.natAbs }) else s
  if rest.natAbs ≤ tol ∨ atOld then s
  else ((s.count .brxDrift c).raiseAt r .brxDrift o).driftFix r rate d

/-- A received burst clears the missed ones, and brings an ONU that is LOST back (R204, R215). -/
def State.burstSeen (s : State) (c o : Nat) (d : Int) : State :=
  let tol := s.fld .brxChCfgDriftTol c
  if s.treeBarred (treeOfChan c) then s.modOnu o (fun x => { x with miss := 0 })
  else s.modOnu o (fun x => { x with miss := 0, phase := if x.phase = .lost ∧ d.natAbs ≤ tol then .operation else x.phase })

/-- R179-R186: what follows the delimiter of a burst of an expected ONU. -/
def State.burstBody (s : State) (r : RxAt) (e : Expect) (b : BurstRx) (d : Int) : State :=
  let c := r.c
  let o := r.o
  let t := treeOfChan c
  let die := dieOfChan c
  let fec := s.prfFec c e.profile
  let s := if fec.isSome then b.codewords.foldl (fun s w => s.codewordRx r w) s else s
  let rs := match fec with
    | some f => lostRanges f.1 b.codewords
    | none => []
  if b.hec = 2 then (((s.count .brxHecBad c).pmAdd 1 o 9 1).raise .brxHec die c).burstLost r e true
  else
    let s := if b.hec = 1 then (s.count .brxHecCorr c).pmAdd 1 o 8 1 else s
    if b.onuId.toNat ≠ e.onuId ∨ s.resting t 0 b.onuId.toNat then
      let s := s.report .brxOnuMismatch c .brxOnuMismatch die o
      let s := if s.resting t 0 b.onuId.toNat then s.restingTraffic t else s
      s.burstLost r e false
    else
      let s := (s.burstSeen c o d).modOnu o (fun x => { x with indication := b.indication.toNat })
      let before := ((s.ctr .brxDlnLoss c), (s.ctr .brxFecUncorr c))
      let s := if b.bip = 0 then s else (s.countBy .brxBipErr c b.bip.toNat).pmAdd 1 o 12 b.bip.toNat
      let s := s.allocsRx r (s.prfBytes c e.profile) 4 rs e.allocs b.allocs
      s.pmBurst c o (decide (before.1 ≠ s.ctr .brxDlnLoss c) || !rs.isEmpty)

/-- R84: a loop that has not locked in time; with acq_thr 0 the event is off (R111). -/
def State.acquisition (s : State) (c : Nat) (locked : Bool) : State :=
  if locked then s
  else
    let n := Tbl.getD s.lanes.acqLate c 0 + 1
    let s := { s with lanes := { s.lanes with acqLate := s.lanes.acqLate.put c n } }.count .lnpAcqLate c
    if s.fld .lnpCtlAcqThr c ≠ 0 ∧ n = s.fld .lnpCtlAcqThr c + 1 then s.raise .lnpAcqLate (dieOfChan c) c else s


/-- R175-R178: acquisition and delimiter of a burst of a granted ONU. -/
def State.burstRx (s : State) (r : RxAt) (e : Expect) (b : BurstRx) : State :=
  let c := r.c
  let o := r.o
  let die := dieOfChan c
  let unseen := fun (s : State) => ((s.count .brxBurstMiss c).raiseAt r .brxBurstMiss c).burstLost r e true
  if !s.receives c then unseen s
  else
    let s := s.acquisition c b.locked
    let rate := s.uiRate c e.profile
    let win := s.winEff c e.profile
    let old := (s.tandem.accept.find o).map (fun a => a.2 * (rate : Int) / 100000)
    let tried := b.positions.map (fun p => (signedOf 32 p.1.toNat, s.delimiterDiff c e.profile p.2))
    match acceptAt (s.fld .brxPrfCfgTol (prfInst c e.profile)) win old tried with
    | none => if b.locked then (s.report .brxDelimMiss c .brxDelim die o).burstLost r e true else unseen s
    | some (d, n) =>
      let s := s.countBy .brxDelimBiterr c n
      if s.another o e then s.burstBody r e b d
      else if ((s.onu o).map (fun x => s.pastFence c o x (s.burstStart c e d))).getD false then s.fenceLate r e
      else (s.offsetRx r rate win old d).burstBody r e b d

/-- A burst that the receiver expects; a window's responses come as commands of their own. What the map expects of an ONU stands though
the ONU has been released since (R171): its burst then bears a resting ONU-ID (R218). -/
def execBurstRx (c : Chan) (index : BitVec 10) (b : BurstRx) (s : State) : Host.Outcome State Fault Refusal :=
  let c := c.toNat
  .next (match (s.expects c)[index.toNat]? with
    | none => s
    | some e =>
      let s := s.dropExpect c index.toNat
      match e.onu with
      | some o => if e.window then s else s.burstRx ⟨c, o, e.frame, 0⟩ e b
      | none => s)

end Sys2Proof.Machine
end

