-- ==== Sys2Proof/Machine/Dispatch.lean ====
section
/-! DEFINITION. One arm per command: what each does to everything but the queue. -/

namespace Sys2Proof.Machine

def exec (i : Instr) (s : State) : Host.Outcome State Fault Refusal :=
  match i with
  | .registerWrite a => Sys2Proof.Machine.execRegisterWrite a s
  | .hiLoReadLatch a => Sys2Proof.Machine.execHiLoReadLatch a s
  | .hiLoWriteCommit a => Sys2Proof.Machine.execHiLoWriteCommit a s
  | .i3cRegisterWrite bytes reg idx => Sys2Proof.Machine.execI3cRegisterWrite bytes reg idx s
  | .i3cRegisterReadArm bytes reg idx => Sys2Proof.Machine.execI3cRegisterReadArm bytes reg idx s
  | .ucieLinkDown link => Sys2Proof.Machine.execUcieLinkDown link s
  | .rationPeriodStart => Sys2Proof.Machine.execRationPeriodStart s
  | .rationPeriodForced => Sys2Proof.Machine.execRationPeriodForced s
  | .rationSpent die index => Sys2Proof.Machine.execRationSpent die index s
  | .sysRationSet h index cfg => Sys2Proof.Machine.execSysRationSet h index cfg s
  | .sysRationGet h index => Sys2Proof.Machine.execSysRationGet h index s
  | .timeGet h => Sys2Proof.Machine.execTimeGet h s
  | .timeIncrSet h int frac => Sys2Proof.Machine.execTimeIncrSet h int frac s
  | .timeAction h w => Sys2Proof.Machine.execTimeAction h w s
  | .timeActionCancel h => Sys2Proof.Machine.execTimeActionCancel h s
  | .timeWdogSet h timeout => Sys2Proof.Machine.execTimeWdogSet h timeout s
  | .timePinSet h pin mode pol start period width => Sys2Proof.Machine.execTimePinSet h pin mode pol start period width s
  | .timeCaptureRead h pin count => Sys2Proof.Machine.execTimeCaptureRead h pin count s
  | .timePpsSet h width => Sys2Proof.Machine.execTimePpsSet h width s
  | .timeTodGet h tree sHi sLo => Sys2Proof.Machine.execTimeTodGet h tree sHi sLo s
  | .timeStatus h => Sys2Proof.Machine.execTimeStatus h s
  | .timePtpPortSet h port oneStep twoStep transparent ingAdj egrAdj => Sys2Proof.Machine.execTimePtpPortSet h port oneStep twoStep transparent ingAdj egrAdj s
  | .timeEgressTsRead h port count => Sys2Proof.Machine.execTimeEgressTsRead h port count s
  | .actionApply => Sys2Proof.Machine.execActionApply s
  | .slewEnd => Sys2Proof.Machine.execSlewEnd s
  | .servoWdogExpire => Sys2Proof.Machine.execServoWdogExpire s
  | .replicaSync die drift => Sys2Proof.Machine.execReplicaSync die drift s
  | .tpinPulse pin => Sys2Proof.Machine.execTpinPulse pin s
  | .ppsOutEdge => Sys2Proof.Machine.execPpsOutEdge s
  | .tpinCapture pin before after fine => Sys2Proof.Machine.execTpinCapture pin before after fine s
  | .ppsInCapture rising fine => Sys2Proof.Machine.execPpsInCapture rising fine s
  | .tbLatch p data => Sys2Proof.Machine.execTbLatch p data s
  | .tbIncrCommit p data => Sys2Proof.Machine.execTbIncrCommit p data s
  | .tbActArm p data => Sys2Proof.Machine.execTbActArm p data s
  | .tbActCancel p data => Sys2Proof.Machine.execTbActCancel p data s
  | .tbCapPop p data => Sys2Proof.Machine.execTbCapPop p data s
  | .tbWdogWrite p data => Sys2Proof.Machine.execTbWdogWrite p data s
  | .departureInstant port late => Sys2Proof.Machine.execDepartureInstant port late s
  | .refHoldoverExit which => Sys2Proof.Machine.execRefHoldoverExit which s
  | .lanePower h family index on => Sys2Proof.Machine.execLanePower h family index on s
  | .laneStatus h family index => Sys2Proof.Machine.execLaneStatus h family index s
  | .laneModeSet h octet oct800 quad0 quad1 half50 => Sys2Proof.Machine.execLaneModeSet h octet oct800 quad0 quad1 half50 s
  | .laneIntfSet h port intf an => Sys2Proof.Machine.execLaneIntfSet h port intf an s
  | .laneEqSet h family index pre post gain => Sys2Proof.Machine.execLaneEqSet h family index pre post gain s
  | .laneRetrain h family index => Sys2Proof.Machine.execLaneRetrain h family index s
  | .laneEyeScan h family index dwell => Sys2Proof.Machine.execLaneEyeScan h family index dwell s
  | .eyeScanDone die margins => Sys2Proof.Machine.execEyeScanDone die margins s
  | .lanePrbsSet h family index pattern generator checker => Sys2Proof.Machine.execLanePrbsSet h family index pattern generator checker s
  | .laneCounters h family index => Sys2Proof.Machine.execLaneCounters h family index s
  | .lanePllLock l => Sys2Proof.Machine.execLanePllLock l s
  | .lanePllTimeout l => Sys2Proof.Machine.execLanePllTimeout l s
  | .transmitterStop c => Sys2Proof.Machine.execTransmitterStop c s
  | .laneStageDone l peerIndex peerDev => Sys2Proof.Machine.execLaneStageDone l peerIndex peerDev s
  | .tndStageTimeout l => Sys2Proof.Machine.execTndStageTimeout l s
  | .laneRetryPauseEnd l => Sys2Proof.Machine.execLaneRetryPauseEnd l s
  | .lnuTrainFail l => Sys2Proof.Machine.execLnuTrainFail l s
  | .tndBlockRx l header => Sys2Proof.Machine.execTndBlockRx l header s
  | .tndRelockTimeout l => Sys2Proof.Machine.execTndRelockTimeout l s
  | .lnuLinkDown l => Sys2Proof.Machine.execLnuLinkDown l s
  | .lnuFecWindow l corr uncorr symbols codewords whole => Sys2Proof.Machine.execLnuFecWindow l corr uncorr symbols codewords whole s
  | .hostLinkDown toDetect => Sys2Proof.Machine.execHostLinkDown toDetect s
  | .hostLinkUp width rate => Sys2Proof.Machine.execHostLinkUp width rate s
  | .refclkLoss ref => Sys2Proof.Machine.execRefclkLoss ref s
  | .refclkReturn ref => Sys2Proof.Machine.execRefclkReturn ref s
  | .lnuRetrain p l => Sys2Proof.Machine.execLnuRetrain p l s
  | .lanePowerBitWrite p family index on => Sys2Proof.Machine.execLanePowerBitWrite p family index on s
  | .lnuModeWrite p octet data => Sys2Proof.Machine.execLnuModeWrite p octet data s
  | .treeConfig h tree offset => Sys2Proof.Machine.execTreeConfig h tree offset s
  | .treeChannelSet h chan mode enable maxPli ploamMax => Sys2Proof.Machine.execTreeChannelSet h chan mode enable maxPli ploamMax s
  | .treeLaunch h tree earliest unaligned => Sys2Proof.Machine.execTreeLaunch h tree earliest unaligned s
  | .treeStop h tree => Sys2Proof.Machine.execTreeStop h tree s
  | .treeStatus h tree => Sys2Proof.Machine.execTreeStatus h tree s
  | .treeDlnSet h chan delta alpha => Sys2Proof.Machine.execTreeDlnSet h chan delta alpha s
  | .treeLaunchStart t => Sys2Proof.Machine.execTreeLaunchStart t s
  | .channelStart c => Sys2Proof.Machine.execChannelStart c s
  | .frameStart c => Sys2Proof.Machine.execFrameStart c s
  | .treeStopEffect t => Sys2Proof.Machine.execTreeStopEffect t s
  | .tcSduRx c => Sys2Proof.Machine.execTcSduRx c s
  | .keySwitch t onu => Sys2Proof.Machine.execKeySwitch t onu s
  | .grantChannelSet h chan enable guard admPct ploamIvl => Sys2Proof.Machine.execGrantChannelSet h chan enable guard admPct ploamIvl s
  | .grantTreeSet h tree cutoff coopEn => Sys2Proof.Machine.execGrantTreeSet h tree cutoff coopEn s
  | .grantAllocSet h onu allocId p => Sys2Proof.Machine.execGrantAllocSet h onu allocId p s
  | .grantAllocClear h onu allocId => Sys2Proof.Machine.execGrantAllocClear h onu allocId s
  | .grantAllocGet h onu allocId => Sys2Proof.Machine.execGrantAllocGet h onu allocId s
  | .grantHint h record sHi sLo frames bytes pin => Sys2Proof.Machine.execGrantHint h record sHi sLo frames bytes pin s
  | .grantHintCancel h handle => Sys2Proof.Machine.execGrantHintCancel h handle s
  | .grantCtiSet h ports udp sources pairs => Sys2Proof.Machine.execGrantCtiSet h ports udp sources pairs s
  | .grantRssiArm h onu sHi sLo count => Sys2Proof.Machine.execGrantRssiArm h onu sHi sLo count s
  | .grantMapRead h chan => Sys2Proof.Machine.execGrantMapRead h chan s
  | .grantStatus h chan => Sys2Proof.Machine.execGrantStatus h chan s
  | .grantCutoff t => Sys2Proof.Machine.execGrantCutoff t s
  | .mapComputed t => Sys2Proof.Machine.execMapComputed t s
  | .mapDeadline t => Sys2Proof.Machine.execMapDeadline t s
  | .grantReportRx die index rep => Sys2Proof.Machine.execGrantReportRx die index rep s
  | .ctiReportRx port udp source entity flow start length bytes wellFormed => Sys2Proof.Machine.execCtiReportRx port udp source entity flow start length bytes wellFormed s
  | .brxRstPulse c burst => Sys2Proof.Machine.execBrxRstPulse c burst s
  | .rssiTrigger c burst => Sys2Proof.Machine.execRssiTrigger c burst s
  | .rssiArmExpire c => Sys2Proof.Machine.execRssiArmExpire c s
  | .gntAlcCommit p die data => Sys2Proof.Machine.execGntAlcCommit p die data s
  | .treeProfileSet h chan index p => Sys2Proof.Machine.execTreeProfileSet h chan index p s
  | .treeProfileGet h chan index => Sys2Proof.Machine.execTreeProfileGet h chan index s
  | .treeBrxSet h words => Sys2Proof.Machine.execTreeBrxSet h words s
  | .treeBrxStatus h chan => Sys2Proof.Machine.execTreeBrxStatus h chan s
  | .brxPrfValidWrite p c n data => Sys2Proof.Machine.execBrxPrfValidWrite p c n data s
  | .burstRx c index b => Sys2Proof.Machine.execBurstRx c index b s
  | .rsmDeadlineCheck c => Sys2Proof.Machine.execRsmDeadlineCheck c s
  | .onuProvision h onu tree wl onuId serialHi serialLo regId auto => Sys2Proof.Machine.execOnuProvision h onu tree wl onuId serialHi serialLo regId auto s
  | .onuActivate h onu => Sys2Proof.Machine.execOnuActivate h onu s
  | .onuDeactivate h onu => Sys2Proof.Machine.execOnuDeactivate h onu s
  | .onuRelease h onu => Sys2Proof.Machine.execOnuRelease h onu s
  | .onuDisable h onu tree serialHi serialLo => Sys2Proof.Machine.execOnuDisable h onu tree serialHi serialLo s
  | .onuEnable h onu tree serialHi serialLo => Sys2Proof.Machine.execOnuEnable h onu tree serialHi serialLo s
  | .onuMigrate h onu target sHi sLo => Sys2Proof.Machine.execOnuMigrate h onu target sHi sLo s
  | .onuPortSet h onu port kind dir => Sys2Proof.Machine.execOnuPortSet h onu port kind dir s
  | .onuPortClear h onu port => Sys2Proof.Machine.execOnuPortClear h onu port s
  | .onuRekey h onu => Sys2Proof.Machine.execOnuRekey h onu s
  | .onuStatus h onu => Sys2Proof.Machine.execOnuStatus h onu s
  | .onuIdQuery h tree kind value => Sys2Proof.Machine.execOnuIdQuery h tree kind value s
  | .onuRogueScan h chan onus => Sys2Proof.Machine.execOnuRogueScan h chan onus s
  | .rogueScanStep c => Sys2Proof.Machine.execRogueScanStep c s
  | .treeReachSet h tree minReach maxReach rdr lobThr regTo keyTo lostMs => Sys2Proof.Machine.execTreeReachSet h tree minReach maxReach rdr lobThr regTo keyTo lostMs s
  | .treeSnSet h chan snEn snIvl profile rogueThr => Sys2Proof.Machine.execTreeSnSet h chan snEn snIvl profile rogueThr s
  | .treeDiscoveredRead h tree => Sys2Proof.Machine.execTreeDiscoveredRead h tree s
  | .snWindowBook c => Sys2Proof.Machine.execSnWindowBook c s
  | .snResponseRx c serial arrival good => Sys2Proof.Machine.execSnResponseRx c serial arrival good s
  | .rangingBurstRx onu arrival => Sys2Proof.Machine.execRangingBurstRx onu arrival s
  | .rangingWindowEnd onu => Sys2Proof.Machine.execRangingWindowEnd onu s
  | .registrationReply onu regId => Sys2Proof.Machine.execRegistrationReply onu regId s
  | .registrationTimeout onu => Sys2Proof.Machine.execRegistrationTimeout onu s
  | .keyReply onu wrapped fits => Sys2Proof.Machine.execKeyReply onu wrapped fits s
  | .keyTimeout onu => Sys2Proof.Machine.execKeyTimeout onu s
  | .lostTimeout onu => Sys2Proof.Machine.execLostTimeout onu s
  | .paddockRestEnd t kind value => Sys2Proof.Machine.execPaddockRestEnd t kind value s
  | .migrationFence onu => Sys2Proof.Machine.execMigrationFence onu s
  | .migrationComplete onu => Sys2Proof.Machine.execMigrationComplete onu s
  | .rogueFrameEval c lit => Sys2Proof.Machine.execRogueFrameEval c lit s
  | .skeinForm h tree k members skewMax holdKib => Sys2Proof.Machine.execSkeinForm h tree k members skewMax holdKib s
  | .skeinDissolve h skein => Sys2Proof.Machine.execSkeinDissolve h skein s
  | .skeinOnuJoin h onu skein => Sys2Proof.Machine.execSkeinOnuJoin h onu skein s
  | .skeinJoinDone onu arrivals => Sys2Proof.Machine.execSkeinJoinDone onu arrivals s
  | .skeinOnuLeave h onu => Sys2Proof.Machine.execSkeinOnuLeave h onu s
  | .skeinAllocMember h onu allocId member => Sys2Proof.Machine.execSkeinAllocMember h onu allocId member s
  | .skeinStatus h skein => Sys2Proof.Machine.execSkeinStatus h skein s
  | .skeinTribSet h trib onu port carrier allocIds w => Sys2Proof.Machine.execSkeinTribSet h trib onu port carrier allocIds w s
  | .skeinTribClear h trib => Sys2Proof.Machine.execSkeinTribClear h trib s
  | .skeinTribStatus h trib => Sys2Proof.Machine.execSkeinTribStatus h trib s
  | .skeinDlnSet h trib delta alpha => Sys2Proof.Machine.execSkeinDlnSet h trib delta alpha s
  | .skeinGapExpiry onu => Sys2Proof.Machine.execSkeinGapExpiry onu s
  | .containerLost trib mfi => Sys2Proof.Machine.execContainerLost trib mfi s
  | .pseudowireRx trib seq stamp bytes l => Sys2Proof.Machine.execPseudowireRx trib seq stamp bytes l s
  | .playout trib => Sys2Proof.Machine.execPlayout trib s
  | .cadTribCommit p trib data => Sys2Proof.Machine.execCadTribCommit p trib data s
  | .ruleTableSet h table dir mode blocks keys => Sys2Proof.Machine.execRuleTableSet h table dir mode blocks keys s
  | .ruleWrite h table index pri value mask act => Sys2Proof.Machine.execRuleWrite h table index pri value mask act s
  | .ruleDelete h table index => Sys2Proof.Machine.execRuleDelete h table index s
  | .ruleCommit h => Sys2Proof.Machine.execRuleCommit h s
  | .ruleAbort h => Sys2Proof.Machine.execRuleAbort h s
  | .ruleRead h table index => Sys2Proof.Machine.execRuleRead h table index s
  | .ruleStatus h => Sys2Proof.Machine.execRuleStatus h s
  | .ruleParseSet h vxlan guess ptpUdp => Sys2Proof.Machine.execRuleParseSet h vxlan guess ptpUdp s
  | .ruleHeaderSet h typ w0 w1 w2 => Sys2Proof.Machine.execRuleHeaderSet h typ w0 w1 w2 s
  | .ruleEdgeSet h edge src value mask dst enable => Sys2Proof.Machine.execRuleEdgeSet h edge src value mask dst enable s
  | .ruleFragSet h life orphan => Sys2Proof.Machine.execRuleFragSet h life orphan s
  | .ruleSpoofSet h port mode => Sys2Proof.Machine.execRuleSpoofSet h port mode s
  | .commitBump half => Sys2Proof.Machine.execCommitBump half s
  | .versionTidy half => Sys2Proof.Machine.execVersionTidy half s
  | .rulEntWr p half data => Sys2Proof.Machine.execRulEntWr p half data s
  | .rulCommitWrite p half data => Sys2Proof.Machine.execRulCommitWrite p half data s
  | .rulAbortWrite p half data => Sys2Proof.Machine.execRulAbortWrite p half data s
  | .pipelinePass half up pipe => Sys2Proof.Machine.execPipelinePass half up pipe s
  | .recircPass half pipe => Sys2Proof.Machine.execRecircPass half pipe s
  | .fragSweep half => Sys2Proof.Machine.execFragSweep half s
  | .tableBdSet h w => Sys2Proof.Machine.execTableBdSet h w s
  | .tableRmacSet h index mac => Sys2Proof.Machine.execTableRmacSet h index mac s
  | .tableFloodSet h group dests => Sys2Proof.Machine.execTableFloodSet h group dests s
  | .tableSvcSet h w => Sys2Proof.Machine.execTableSvcSet h w s
  | .tableSvcClear h dir source ovid ivid => Sys2Proof.Machine.execTableSvcClear h dir source ovid ivid s
  | .tableMacAdd h bd mac fixed kind dest => Sys2Proof.Machine.execTableMacAdd h bd mac fixed kind dest s
  | .tableMacDel h bd mac => Sys2Proof.Machine.execTableMacDel h bd mac s
  | .tableMacRead h bd mac => Sys2Proof.Machine.execTableMacRead h bd mac s
  | .tableMacFlush h bd dest => Sys2Proof.Machine.execTableMacFlush h bd dest s
  | .macFlushDone half => Sys2Proof.Machine.execMacFlushDone half s
  | .tableRouteSet h vrf pre len nh => Sys2Proof.Machine.execTableRouteSet h vrf pre len nh s
  | .tableRouteClear h vrf pre len => Sys2Proof.Machine.execTableRouteClear h vrf pre len s
  | .tableNhSet h index w => Sys2Proof.Machine.execTableNhSet h index w s
  | .tableBindSet h onu port kind addr => Sys2Proof.Machine.execTableBindSet h onu port kind addr s
  | .tableBindClear h onu port kind addr => Sys2Proof.Machine.execTableBindClear h onu port kind addr s
  | .tableLearnSet h lrn age => Sys2Proof.Machine.execTableLearnSet h lrn age s
  | .tableStatus h => Sys2Proof.Machine.execTableStatus h s
  | .tableEditSet h prog ops => Sys2Proof.Machine.execTableEditSet h prog ops s
  | .tableRemarkSet h table entries => Sys2Proof.Machine.execTableRemarkSet h table entries s
  | .tableEditRead h which => Sys2Proof.Machine.execTableEditRead h which s
  | .learnEvent half => Sys2Proof.Machine.execLearnEvent half s
  | .refreshRequest half => Sys2Proof.Machine.execRefreshRequest half s
  | .ageingTick half => Sys2Proof.Machine.execAgeingTick half s
  | .ageingScanVisit half => Sys2Proof.Machine.execAgeingScanVisit half s
  | .scanLate half => Sys2Proof.Machine.execScanLate half s
  | .reseatVisit half => Sys2Proof.Machine.execReseatVisit half s
  | .brAccGo p half data => Sys2Proof.Machine.execBrAccGo p half data s
  | .queueProfileSet h prf mn mx ag ay ar dpy dpr => Sys2Proof.Machine.execQueueProfileSet h prf mn mx ag ay ar dpy dpr s
  | .queueAdmitSet h queue prf deepEn deepMax => Sys2Proof.Machine.execQueueAdmitSet h queue prf deepEn deepMax s
  | .queuePoolSet h ing rsm host => Sys2Proof.Machine.execQueuePoolSet h ing rsm host s
  | .queueDeepSet h spill ret => Sys2Proof.Machine.execQueueDeepSet h spill ret s
  | .queueFlush h queue => Sys2Proof.Machine.execQueueFlush h queue s
  | .queueFlushDone half => Sys2Proof.Machine.execQueueFlushDone half s
  | .queueDepth h queue => Sys2Proof.Machine.execQueueDepth h queue s
  | .queueStoreStatus h => Sys2Proof.Machine.execQueueStoreStatus h s
  | .queueNodeSet h w => Sys2Proof.Machine.execQueueNodeSet h w s
  | .queueNodeGet h dir level index => Sys2Proof.Machine.execQueueNodeGet h dir level index s
  | .queueAttach h queue w => Sys2Proof.Machine.execQueueAttach h queue w s
  | .queueDetach h queue => Sys2Proof.Machine.execQueueDetach h queue s
  | .queueOvhSet h egress ovh => Sys2Proof.Machine.execQueueOvhSet h egress ovh s
  | .queuePolicerSet h policer w => Sys2Proof.Machine.execQueuePolicerSet h policer w s
  | .queuePolicerRead h policer => Sys2Proof.Machine.execQueuePolicerRead h policer s
  | .queueSchedStatus h => Sys2Proof.Machine.execQueueSchedStatus h s
  | .uplinkFrameRx l r => Sys2Proof.Machine.execUplinkFrameRx l r s
  | .icvVerdict port e => Sys2Proof.Machine.execIcvVerdict port e s
  | .bridgeHeadRx half => Sys2Proof.Machine.execBridgeHeadRx half s
  | .replicationCopy half => Sys2Proof.Machine.execReplicationCopy half s
  | .deepPageWrite half queue => Sys2Proof.Machine.execDeepPageWrite half queue s
  | .deepPageRead half queue ecc => Sys2Proof.Machine.execDeepPageRead half queue ecc s
  | .schedulerRelease half ctl idle => Sys2Proof.Machine.execSchedulerRelease half ctl idle s
  | .edtCommit p half data => Sys2Proof.Machine.execEdtCommit p half data s
  | .gateGateSet h ctl gate gmax guard => Sys2Proof.Machine.execGateGateSet h ctl gate gmax guard s
  | .gateEntriesWrite h ctl first entries => Sys2Proof.Machine.execGateEntriesWrite h ctl first entries s
  | .gateListStart h ctl base cycle count => Sys2Proof.Machine.execGateListStart h ctl base cycle count s
  | .gateListCancel h ctl => Sys2Proof.Machine.execGateListCancel h ctl s
  | .gateDisable h ctl base => Sys2Proof.Machine.execGateDisable h ctl base s
  | .gateStatus h ctl => Sys2Proof.Machine.execGateStatus h ctl s
  | .gateListStartAt half ctl => Sys2Proof.Machine.execGateListStartAt half ctl s
  | .gateEntry half ctl => Sys2Proof.Machine.execGateEntry half ctl s
  | .gtListArm p half ctl data => Sys2Proof.Machine.execGtListArm p half ctl data s
  | .gtListCancel p half ctl data => Sys2Proof.Machine.execGtListCancel p half ctl data s
  | .keyAuth h phase sig => Sys2Proof.Machine.execKeyAuth h phase sig s
  | .keyLogout h => Sys2Proof.Machine.execKeyLogout h s
  | .keyKlkAgree h pub => Sys2Proof.Machine.execKeyKlkAgree h pub s
  | .keyLoad h kind target key clear => Sys2Proof.Machine.execKeyLoad h kind target key clear s
  | .keyErase h handle => Sys2Proof.Machine.execKeyErase h handle s
  | .keyBcastNew h tree onus => Sys2Proof.Machine.execKeyBcastNew h tree onus s
  | .keyBcastSwitch h tree cHi cLo => Sys2Proof.Machine.execKeyBcastSwitch h tree cHi cLo s
  | .keyMscSaSet h w => Sys2Proof.Machine.execKeyMscSaSet h w s
  | .keyMscTxSwitch h port an => Sys2Proof.Machine.execKeyMscTxSwitch h port an s
  | .keyMscStatus h port => Sys2Proof.Machine.execKeyMscStatus h port s
  | .keyJob h w => Sys2Proof.Machine.execKeyJob h w s
  | .jobDone half => Sys2Proof.Machine.execJobDone half s
  | .keyZeroize h scope object => Sys2Proof.Machine.execKeyZeroize h scope object s
  | .keySelftest h => Sys2Proof.Machine.execKeySelftest h s
  | .selftestDone die failed shared => Sys2Proof.Machine.execSelftestDone die failed shared s
  | .keyStatus h => Sys2Proof.Machine.execKeyStatus h s
  | .keyDelivered half => Sys2Proof.Machine.execKeyDelivered half s
  | .tamperInput => Sys2Proof.Machine.execTamperInput s
  | .shieldBreak => Sys2Proof.Machine.execShieldBreak s
  | .lightDetect die => Sys2Proof.Machine.execLightDetect die s
  | .temperatureAlarm die => Sys2Proof.Machine.execTemperatureAlarm die s
  | .voltageGlitch die => Sys2Proof.Machine.execVoltageGlitch die s
  | .clockGlitch die => Sys2Proof.Machine.execClockGlitch die s
  | .duplicateRoundMismatch die core => Sys2Proof.Machine.execDuplicateRoundMismatch die core s
  | .drbgRepeat die core => Sys2Proof.Machine.execDrbgRepeat die core s
  | .entropyHealthFail die => Sys2Proof.Machine.execEntropyHealthFail die s
  | .tandemPair h peer auto divThr lossThr => Sys2Proof.Machine.execTandemPair h peer auto divThr lossThr s
  | .tandemUnpair h => Sys2Proof.Machine.execTandemUnpair h s
  | .tandemTreeProtect h tree on dfeed => Sys2Proof.Machine.execTandemTreeProtect h tree on dfeed s
  | .tandemTake h => Sys2Proof.Machine.execTandemTake h s
  | .tandemRelease h => Sys2Proof.Machine.execTandemRelease h s
  | .tandemResync h tree => Sys2Proof.Machine.execTandemResync h tree s
  | .tandemExercise h dwell => Sys2Proof.Machine.execTandemExercise h dwell s
  | .tandemStatus h => Sys2Proof.Machine.execTandemStatus h s
  | .tandemDlnSet h lane delta alpha => Sys2Proof.Machine.execTandemDlnSet h lane delta alpha s
  | .tandemFrameRx l fseq crcOk heads recs => Sys2Proof.Machine.execTandemFrameRx l fseq crcOk heads recs s
  | .recordResend stream seq => Sys2Proof.Machine.execRecordResend stream seq s
  | .heartbeatSend => Sys2Proof.Machine.execHeartbeatSend s
  | .heartbeatTimeout => Sys2Proof.Machine.execHeartbeatTimeout s
  | .digestTimeout c => Sys2Proof.Machine.execDigestTimeout c s
  | .halterPeerChange high => Sys2Proof.Machine.execHalterPeerChange high s
  | .halterSeekDrive => Sys2Proof.Machine.execHalterSeekDrive s
  | .halterOwn => Sys2Proof.Machine.execHalterOwn s
  | .halterReleasePin => Sys2Proof.Machine.execHalterReleasePin s
  | .acceptWindowEnd onu => Sys2Proof.Machine.execAcceptWindowEnd onu s
  | .drillDwellEnd => Sys2Proof.Machine.execDrillDwellEnd s
  | .sysNop h words => Sys2Proof.Machine.execSysNop h words s
  | .sysInfo h => Sys2Proof.Machine.execSysInfo h s
  | .sysSessionOpen h => Sys2Proof.Machine.execSysSessionOpen h s
  | .sysAck h tags => Sys2Proof.Machine.execSysAck h tags s
  | .sysInbandSet h ports mac handle => Sys2Proof.Machine.execSysInbandSet h ports mac handle s
  | .sysReset h kind => Sys2Proof.Machine.execSysReset h kind s
  | .sysEventRoute h group mask fw alert ibi msix vector => Sys2Proof.Machine.execSysEventRoute h group mask fw alert ibi msix vector s
  | .sysEventRead h count => Sys2Proof.Machine.execSysEventRead h count s
  | .commandRingRead packet => Sys2Proof.Machine.execCommandRingRead packet s
  | .i3cMailboxWrite bytes => Sys2Proof.Machine.execI3cMailboxWrite bytes s
  | .i3cMailboxAck tag => Sys2Proof.Machine.execI3cMailboxAck tag s
  | .i3cMailboxRead whole => Sys2Proof.Machine.execI3cMailboxRead whole s
  | .inbandFrameRx l packet cmac src vlan => Sys2Proof.Machine.execInbandFrameRx l packet cmac src vlan s
  | .trapPost => Sys2Proof.Machine.execTrapPost s
  | .injectRingRead w0 w1 w2 w3 name head pipe => Sys2Proof.Machine.execInjectRingRead w0 w1 w2 w3 name head pipe s
  | .lshRingPtrWrite p data => Sys2Proof.Machine.execLshRingPtrWrite p data s
  | .lshRingCfgWrite p data => Sys2Proof.Machine.execLshRingCfgWrite p data s
  | .evtStatClear g data => Sys2Proof.Machine.execEvtStatClear g data s
  | .evtMaskWrite g data => Sys2Proof.Machine.execEvtMaskWrite g data s
  | .evtRingRdWrite p data => Sys2Proof.Machine.execEvtRingRdWrite p data s
  | .eventRecordEnter die => Sys2Proof.Machine.execEventRecordEnter die s
  | .blockClaim h block => Sys2Proof.Machine.execBlockClaim h block s
  | .claimEffect die block => Sys2Proof.Machine.execClaimEffect die block s
  | .claimTimeout die block => Sys2Proof.Machine.execClaimTimeout die block s
  | .blockRelease h block => Sys2Proof.Machine.execBlockRelease h block s
  | .blockStatus h => Sys2Proof.Machine.execBlockStatus h s
  | .seqDispatch q entry => Sys2Proof.Machine.execSeqDispatch q entry s
  | .stMov q d a => Sys2Proof.Machine.execStMov q d a s
  | .stAdd q d a b => Sys2Proof.Machine.execStAdd q d a b s
  | .stSub q d a b => Sys2Proof.Machine.execStSub q d a b s
  | .stAnd q d a b => Sys2Proof.Machine.execStAnd q d a b s
  | .stOr q d a b => Sys2Proof.Machine.execStOr q d a b s
  | .stXor q d a b => Sys2Proof.Machine.execStXor q d a b s
  | .stShl q d a b => Sys2Proof.Machine.execStShl q d a b s
  | .stShr q d a b => Sys2Proof.Machine.execStShr q d a b s
  | .stCmp q a b => Sys2Proof.Machine.execStCmp q a b s
  | .stTst q a b => Sys2Proof.Machine.execStTst q a b s
  | .stLdi q d imm => Sys2Proof.Machine.execStLdi q d imm s
  | .stLdh q d imm => Sys2Proof.Machine.execStLdh q d imm s
  | .stAddi q d imm => Sys2Proof.Machine.execStAddi q d imm s
  | .stCmpi q d imm => Sys2Proof.Machine.execStCmpi q d imm s
  | .stRdreg q d a offset reg idx => Sys2Proof.Machine.execStRdreg q d a offset reg idx s
  | .stWrreg q d a offset reg idx => Sys2Proof.Machine.execStWrreg q d a offset reg idx s
  | .stRdsp q d a offset => Sys2Proof.Machine.execStRdsp q d a offset s
  | .stWrsp q d a offset => Sys2Proof.Machine.execStWrsp q d a offset s
  | .stRdpar q d a offset => Sys2Proof.Machine.execStRdpar q d a offset s
  | .stWrpar q d a offset => Sys2Proof.Machine.execStWrpar q d a offset s
  | .stBr q cond target => Sys2Proof.Machine.execStBr q cond target s
  | .stCall q target => Sys2Proof.Machine.execStCall q target s
  | .stRet q => Sys2Proof.Machine.execStRet q s
  | .stLoop q target => Sys2Proof.Machine.execStLoop q target s
  | .stEnd q => Sys2Proof.Machine.execStEnd q s
  | .stWait q cond arg cls => Sys2Proof.Machine.execStWait q cond arg cls s
  | .stPark q cond arg cls => Sys2Proof.Machine.execStPark q cond arg cls s
  | .stReply q r => Sys2Proof.Machine.execStReply q r s
  | .stAccept q => Sys2Proof.Machine.execStAccept q s
  | .stRaise q src => Sys2Proof.Machine.execStRaise q src s
  | .stPloam q r c kind onuId args => Sys2Proof.Machine.execStPloam q r c kind onuId args s
  | .stMail q r target => Sys2Proof.Machine.execStMail q r target s
  | .waitEnd q parked event => Sys2Proof.Machine.execWaitEnd q parked event s
  | .machineCheck q cause addr => Sys2Proof.Machine.execMachineCheck q cause addr s
  | .seqHandover q => Sys2Proof.Machine.execSeqHandover q s
  | .darnSwap => Sys2Proof.Machine.execDarnSwap s
  | .darnHoldTimeout => Sys2Proof.Machine.execDarnHoldTimeout s
  | .scratchOwnerSet h bank owner clear => Sys2Proof.Machine.execScratchOwnerSet h bank owner clear s
  | .scratchRead h bank offset count => Sys2Proof.Machine.execScratchRead h bank offset count s
  | .scratchWrite h bank offset words => Sys2Proof.Machine.execScratchWrite h bank offset words s
  | .scratchDma h dir bank offset hostHi hostLo len => Sys2Proof.Machine.execScratchDma h dir bank offset hostHi hostLo len s
  | .dmaDone die n stop moved => Sys2Proof.Machine.execDmaDone die n stop moved s
  | .spBankOwnerWrite p die bank data => Sys2Proof.Machine.execSpBankOwnerWrite p die bank data s
  | .bankHandoverDone die bank => Sys2Proof.Machine.execBankHandoverDone die bank s
  | .scrubPatrol site uncorrectable => Sys2Proof.Machine.execScrubPatrol site uncorrectable s
  | .trustAttest h nonce => Sys2Proof.Machine.execTrustAttest h nonce s
  | .trustCertRead h => Sys2Proof.Machine.execTrustCertRead h s
  | .trustDarnLoad h bank len => Sys2Proof.Machine.execTrustDarnLoad h bank len s
  | .trustDarnStatus h => Sys2Proof.Machine.execTrustDarnStatus h s
  | .trustLifecycle h target authority => Sys2Proof.Machine.execTrustLifecycle h target authority s
  | .resetFall short => Sys2Proof.Machine.execResetFall short s
  | .resetAsserted => Sys2Proof.Machine.execResetAsserted s
  | .railPowerFail => Sys2Proof.Machine.execRailPowerFail s
  | .castOnStart devnum senior => Sys2Proof.Machine.execCastOnStart devnum senior s
  | .castOnStageDone stage ms => Sys2Proof.Machine.execCastOnStageDone stage ms s
  | .castOnDone ms => Sys2Proof.Machine.execCastOnDone ms s
  | .packageReset devnum senior => Sys2Proof.Machine.execPackageReset devnum senior s
  | .functionLevelReset => Sys2Proof.Machine.execFunctionLevelReset s
  | .i3cTargetReset => Sys2Proof.Machine.execI3cTargetReset s
  | .pmEntitySet h kind index enable => Sys2Proof.Machine.execPmEntitySet h kind index enable s
  | .pmRead h kind index bin ecc => Sys2Proof.Machine.execPmRead h kind index bin ecc s
  | .pmTcaSet h kind param length threshold => Sys2Proof.Machine.execPmTcaSet h kind param length threshold s
  | .pmStatus h => Sys2Proof.Machine.execPmStatus h s
  | .gaugeSnap h instant => Sys2Proof.Machine.execGaugeSnap h instant s
  | .gaugePeriodSet h period first => Sys2Proof.Machine.execGaugePeriodSet h period first s
  | .gaugeRead h block unit live => Sys2Proof.Machine.execGaugeRead h block unit live s
  | .gaugeSlots h pipeline => Sys2Proof.Machine.execGaugeSlots h pipeline s
  | .gaugeHistRead h port => Sys2Proof.Machine.execGaugeHistRead h port s
  | .gaugeClear h block unit => Sys2Proof.Machine.execGaugeClear h block unit s
  | .pmSecond die => Sys2Proof.Machine.execPmSecond die s
  | .pmBinBoundary die day => Sys2Proof.Machine.execPmBinBoundary die day s
  | .snapshotLaunch => Sys2Proof.Machine.execSnapshotLaunch s
  | .snapshotDone => Sys2Proof.Machine.execSnapshotDone s
  | .powerDomainSet h domain on => Sys2Proof.Machine.execPowerDomainSet h domain on s
  | .domainSwitchDone domain => Sys2Proof.Machine.execDomainSwitchDone domain s
  | .powerStatus h => Sys2Proof.Machine.execPowerStatus h s
  | .powerTensionSet h region thr rel longUs => Sys2Proof.Machine.execPowerTensionSet h region thr rel longUs s
  | .powerSensors h => Sys2Proof.Machine.execPowerSensors h s
  | .remudaStatus h => Sys2Proof.Machine.execRemudaStatus h s
  | .remudaBringIn h kind unit => Sys2Proof.Machine.execRemudaBringIn h kind unit s
  | .spareBringInDone kind die unit => Sys2Proof.Machine.execSpareBringInDone kind die unit s
  | .remudaPolicySet h kind policy => Sys2Proof.Machine.execRemudaPolicySet h kind policy s
  | .remudaWearRead h region => Sys2Proof.Machine.execRemudaWearRead h region s
  | .unitParityError u => Sys2Proof.Machine.execUnitParityError u s
  | .thermalSample region temp mw => Sys2Proof.Machine.execThermalSample region temp mw s
  | .droopDetect region hard => Sys2Proof.Machine.execDroopDetect region hard s
  | .stretchReleaseStep region => Sys2Proof.Machine.execStretchReleaseStep region s
  | .wearSample region ppm => Sys2Proof.Machine.execWearSample region ppm s
  | .ucieLaneRepair link => Sys2Proof.Machine.execUcieLaneRepair link s
  | .clockGeneratorLockLoss die => Sys2Proof.Machine.execClockGeneratorLockLoss die s
  | .stretchStepUp region => Sys2Proof.Machine.execStretchStepUp region s
  | .droopRecovery region => Sys2Proof.Machine.execDroopRecovery region s
  | .tensionEpisodeLong region => Sys2Proof.Machine.execTensionEpisodeLong region s
  | .pmSecondForced die => Sys2Proof.Machine.execPmSecondForced die s
  | .tamperNRelease => Sys2Proof.Machine.execTamperNRelease s
  | .i3cDynamicAddress addr => Sys2Proof.Machine.execI3cDynamicAddress addr s
  | .i3cEnecDisec on => Sys2Proof.Machine.execI3cEnecDisec on s
  | .hostLinkDmaTimeout moved => Sys2Proof.Machine.execHostLinkDmaTimeout moved s
  | .bringInHoldTimeout die index => Sys2Proof.Machine.execBringInHoldTimeout die index s

end Sys2Proof.Machine
end

