-- ==== Sys2Proof/Machine/Balls.lean ====
section
/-!
DEFINITION. The ball map (R623-R628): what each of the 84 × 84 balls carries, and the level at a ball of a single-ended signal.
-/

namespace Sys2Proof.Machine

/-- Differential and analog groups of R628. -/
inductive PairGroup where
  | ponTx | ponRx | uplTx | uplRx | tndTx | tndRx | pcieTx | pcieRx | refclkPon | refclkUpl | refclkTnd | pcieRefclk | vsns
deriving DecidableEq, Repr

/-- Supplies of R624-R627. -/
inductive Rail where
  | vss | vddaPonHi | vddaPonLo | vddaUplHi | vddaUplLo | vppHbm | vddqHbm | vddio | vddSram | vddCore
deriving DecidableEq, Repr

/-- What a ball carries: a single-ended pin's number, the N or P side of a pair, or a supply. -/
inductive Ball where
  | pin (p : Pin) (i : Nat)
  | pair (g : PairGroup) (i : Nat) (neg : Bool)
  | rail (r : Rail)
deriving DecidableEq, Repr

def Ball.isSignal : Ball → Bool
  | .rail _ => false
  | _ => true

/-- The fields of R623. -/
inductive BallField where
  | pon (line : Nat) | uplink (die : Nat) | control | centre
deriving DecidableEq, Repr

/-- The field of a ball, rows and columns from 1 to 84 (R623); line dies L0 to L3 are 0 to 3. -/
def ballField (row col : Nat) : BallField :=
  let half := if col ≤ 42 then 0 else 1
  if row ≤ 10 then .pon (2 * half)
  else if 75 ≤ row then .pon (2 * half + 1)
  else if col ≤ 10 then .uplink 0
  else if 75 ≤ col then .uplink 1
  else if 67 ≤ row ∧ 39 ≤ col ∧ col ≤ 46 then .control
  else .centre

/-- R624: a ball of a tree's five columns, by edge row and column c from 1 to 5; the four channels begin at `ch`. -/
def treeBall (ch edge c : Nat) : Ball :=
  let w := if c ≤ 2 then 0 else 1
  let diff := fun (g : PairGroup) (first : Nat) =>
    if c = 3 then Ball.rail .vss else .pair g (ch + first + w) (c = 2 ∨ c = 5)
  let one := fun (p : Pin) (r : Rail) => if c = 3 then Ball.rail r else .pin p (ch + (if c < 3 then c - 1 else c - 2))
  match edge with
  | 1 => diff .ponTx 0
  | 3 => diff .ponTx 2
  | 5 => diff .ponRx 0
  | 7 => diff .ponRx 2
  | 8 => one .brxRstN .vddaPonHi
  | 9 => one .rssiTrg .vddaPonLo
  | 10 => one .optTxen .vddio
  | _ => .rail .vss

/-- R624: a PON field; the two last columns carry the die's reference clock at edge row 5. -/
def ponBall (line row col : Nat) : Ball :=
  let edge := if line % 2 = 0 then row else 85 - row
  let x := col - 42 * (line / 2)
  if 40 < x then (if edge = 5 then .pair .refclkPon line (x = 42) else .rail .vss)
  else treeBall (4 * (8 * line + (x - 1) / 5)) edge ((x - 1) % 5 + 1)

/-- R625: edge columns 9 and 10 of an uplink field. -/
def uplinkPair (die row : Nat) : Option (PairGroup × Nat) :=
  let n := (row - 11) / 4
  if row ≤ 26 then (if row % 4 = 3 then some (.tndTx, 4 * die + n) else if row % 4 = 1 then some (.tndRx, 4 * die + n) else none)
  else if row = 29 then some (.refclkUpl, die)
  else if die = 1 then none
  else if row = 33 then some (.refclkTnd, 0)
  else if row = 37 then some (.pcieRefclk, 0)
  else if 41 ≤ row ∧ row ≤ 56 then
    (if row % 4 = 1 then some (.pcieTx, (row - 41) / 4) else if row % 4 = 3 then some (.pcieRx, (row - 41) / 4) else none)
  else none

/-- R625: an uplink field. -/
def uplinkBall (die row col : Nat) : Ball :=
  let edge := if die = 0 then col else 85 - col
  let lane := 32 * die + (row - 11) / 2
  let first := row % 2 = 1
  if 9 ≤ edge then (match uplinkPair die row with
    | some (g, n) => .pair g n (edge = 10)
    | none => .rail .vss)
  else if edge = 7 then .rail (if first then .vddaUplLo else .vddaUplHi)
  else if first ∧ edge ≤ 2 then .pair .uplTx lane (edge = 2)
  else if first ∧ (edge = 4 ∨ edge = 5) then .pair .uplRx lane (edge = 5)
  else .rail .vss

/-- R626: the control field, in its order. -/
def controlBalls : List Ball :=
  (List.range 32).map (fun i => .pin .tpin i)
  ++ [.pin .ppsIn 0, .pin .ppsOut 0, .pin .i3cScl 0, .pin .i3cSda 0, .pin .hostRstN 0, .pin .alertN 0, .pin .tamperN 0]
  ++ (List.range 10).map (fun i => .pin .devnum i)
  ++ [.pin .hltOwnN 0, .pin .hltPeerN 0, .pin .hltSenior 0, .pin .testEn 0, .pin .tck 0, .pin .tms 0, .pin .tdi 0, .pin .tdo 0, .pin .trstN 0]
  ++ [.pair .vsns 0 false, .pair .vsns 0 true, .pair .vsns 1 false, .pair .vsns 1 true, .rail .vddio, .rail .vddio]

/-- R627: the supply of an odd ball of the centre field. -/
def centreRail (row col : Nat) : Rail :=
  if row ≤ 12 ∨ 73 ≤ row then .vddaPonLo
  else if row ≤ 14 ∨ 71 ≤ row then .vddaPonHi
  else if col ≤ 12 ∨ 73 ≤ col then .vddaUplLo
  else if col ≤ 14 ∨ 71 ≤ col then .vddaUplHi
  else if row ≤ 16 then .vppHbm
  else if row ≤ 22 then .vddqHbm
  else if row ≤ 24 then .vddio
  else if row ≤ 30 then .vddSram
  else .vddCore

/-- R623: what a ball carries. -/
def ballAt (row col : Nat) : Ball :=
  match ballField row col with
  | .pon line => ponBall line row col
  | .uplink die => uplinkBall die row col
  | .control => controlBalls.getD ((row - 67) * 8 + (col - 39)) (.rail .vss)
  | .centre => .rail (if (row + col) % 2 = 0 then .vss else centreRail row col)

/-- The balls of the array. -/
def allBalls : List Ball := (List.range 84).flatMap (fun r => (List.range 84).map (fun c => ballAt (r + 1) (c + 1)))

/-- R1, R628: on ULT-OT064 the PON balls of L2 and L3 are unconnected, and their OPT_TXEN balls are held low. -/
def State.unconnected (s : State) (row col : Nat) : Bool :=
  s.is064 && (match ballField row col with
    | .pon line => decide (2 ≤ line)
    | _ => false)

/-- The level at a ball of a single-ended signal (R628, R629); none at any other ball and at an unconnected one. -/
def State.levelAt (s : State) (row col : Nat) : Option Bool :=
  match ballAt row col with
  | .pin p i =>
    if s.unconnected row col then (if p = .optTxen then some false else none)
    else some (if p = .devnum then s.cell (p, i) else s.ball p i != 0)
  | _ => none

end Sys2Proof.Machine
end

