-- ==== Sys2Proof/Safety.lean ====
section
/-!
DEFINITION. The terms the statements use: a command that completes in a next state, the claims that a command must find free, a Laosh command that has its effect and is
answered, and the invariant of the block's event queues.
-/

namespace Sys2Proof.Machine

/-- The next state of a Laosh command that completes: it takes its tag and starts, has its effect f, and the reply with a
status and words is posted to its caller (R472, R474). -/
def completed (h : Hdr) (op : Nat) (s : State) (f : State → State) (ws : List Word := []) (st : Status := .ok) :
    Host.Outcome State Fault Refusal :=
  .next ((f (s.start (callerOf h op))).answer (callerOf h op) st ws)

/-- The next state of a Laosh command that starts and has its effect f, its reply to come at a later event. -/
def waiting (h : Hdr) (op : Nat) (s : State) (f : State → State) : Host.Outcome State Fault Refusal :=
  .next (f (s.start (callerOf h op)))

/-- The command answers a next state, of which P holds. -/
def Goes (c : Instr) (s : State) (P : State → Prop) : Prop := ∃ t, exec c s = .next t ∧ P t

/-- The command of a header and opcode starts and completes with status OK, P holding of the state whence its reply is posted
and of the reply's words. -/
def Answers (c : Instr) (h : Hdr) (op : Nat) (s : State) (P : State → List Word → Prop) : Prop :=
  ∃ u ws, exec c s = .next (u.answer (callerOf h op) .ok ws) ∧ P u ws

/-- R41: none of the blocks that a command acts on is claimed at expert level. -/
def State.unclaimed (s : State) (bs : List (Nat × Blk)) : Bool := !bs.any (fun b => s.claimed b.1 b.2)

/-- R30, R34, R35: an activity that wants time of its resource gets it. -/
def State.served (s : State) (die index : Nat) : Bool := !(s.wantTime die index).rationWaits die index

/-- R35, R280: a host's change of the tables on the halves of a header that takes so much port time waits neither behind another nor for
the maintenance port. -/
def State.portIdle (s : State) (h : Hdr) (span : Nat) : Bool := !(s.wantPort (halvesOf h) span).tableBlocked (halvesOf h) span

/-- The sequencer that does an index's work on a die is idle with no item before a new one (R530): it serves one at once. -/
def State.idleFor (s : State) (die idx : Nat) : Bool :=
  s.seqState (s.serving die idx) = 1 && (s.seq (s.serving die idx)).reports.isEmpty

/-- The item waits for that sequencer's dispatch. -/
def State.queued (s : State) (die idx : Nat) (r : SeqReport) : State :=
  let q := s.serving die idx
  { s with seqs := s.seqs.setD q SeqSt.empty { s.seq q with reports := (s.seq q).reports ++ [r] } }

/-- R29, R35: a change of the tables has been made on the halves of a header, its port time wanted and charged to TBL_HOST. -/
def State.changed (s : State) (h : Hdr) (span : Nat) (f : State → State) : State :=
  (f (s.wantPort (halvesOf h) span)).chargePort (halvesOf h) span

/-- R525, R527, R533: a running sequencer's fetch delivers a stitch of that op and those fields (lowest bit, width, value): an enabled darn
slot that names the address holds it, or no slot does and the control store backs the address. -/
def State.delivers (s : State) (q op : Nat) (fs : List (Nat × Nat × Nat)) : Bool :=
  let bs := fs.map (fun x => fieldBits x.1 x.2.1 x.2.2)
  let addr := (s.seq q).ctx.addr
  s.seqRuns q && (match s.darnSlot q addr with
    | some w => w.toNat &&& (opBits 63 + (bs.map Prod.fst).sum) = opBits op + (bs.map Prod.snd).sum
    | none => addr < storeSize (seqKind q))

/-- R503, R504, R508: an access reaches an instance of a register. -/
def State.reaches (s : State) (a : RegAccess) (write : Bool) (r : Reg) (i : Nat) : Bool :=
  !s.dieFused (accDie a) && s.accFault a write = none && a.reg = some r && !selectIdle r (accDie a)
    && s.instOf (apathCode a.path) (accDie a) a.idx r = some i

/-- R41, R54, R442, R464: a write that reaches an instance lands there: it is no read-only copy, firmware meets no claimed block, and no
protected tree bars it. -/
def State.mayLand (s : State) (a : RegAccess) (r : Reg) (i : Nat) : Bool :=
  !readOnlyCopy r (accDie a) && !s.firmwareBarred a.path (accDie a) r && (s.treeOfReg r i).all (fun t => !s.expertBarred a.path t)

/-- R517, R519: a die's queue of event records holds at most 64, and the record ring at most 4,096. -/
def EventsBounded (s : State) : Prop :=
  s.evRing.length ≤ 4096 ∧ ∀ die, (Tbl.getD s.evQueue die []).length ≤ 64

end Sys2Proof.Machine
end

