-- ==== Sys2Proof/WellFormed.lean ====
section
/-!
DEFINITION. Which commands can be sent at all: the numbers and lengths that the spec's packets and windows can carry, where an
operand's type is wider. The meanings are total; a statement that needs such a bound names `Instr.wf`.
-/

namespace Sys2Proof

/-- The 22 sequencers as MAIL numbers them, die × 3 + index (R525, R528). -/
def seqNumOk (q : BitVec 5) : Bool := q.toNat < 20 || q.toNat = 21 || q.toNat = 22

def pathOk : APath → Bool
  | .pcie | .i3c => true
  | .seq q => seqNumOk q

/-- An access is one aligned 32-bit word (R503). -/
def accessOk (a : RegAccess) : Bool := pathOk a.path && a.addr.toNat % 4 = 0 && a.idx < 128

/-- A packet carries at most 1,023 parameter words (R468). -/
def paramsOk {α : Type} (l : List α) : Bool := l.length ≤ 1023

/-- A packet's bytes at most: header, parameters, CRC, CMAC (R468). -/
def bytesOk (l : List Byte) : Bool := l.length ≤ 4128

/-- A lane by its family's count (R106): 128 PON TX and RX, 64 uplink, 8 tandem, the host link. -/
def laneRefOk' (l : LaneRef) : Bool :=
  l.family.toNat < 2 || (l.family = 2 && l.index.toNat < 64) || (l.family = 3 && l.index.toNat < 8) || (l.family = 4 && l.index = 0)

/-- Headers are tried at 4-byte-aligned positions, with one of three verdicts (R129). -/
def headOk (x : XgemHead) : Bool := x.pos.toNat % 4 = 0 && x.hec.toNat < 3

def burstOk' (b : BurstRx) : Bool := b.hec.toNat < 3 && b.allocs.all (fun a => a.heads.all headOk && a.heads.length ≤ 16384)

/-- A frame's leading bytes lie within it. -/
def frameOk (r : UplinkRx) : Bool := r.head.length ≤ r.len.toNat

/-- Gate controllers (R402), event groups (R514), UCIe links (R16), regions (R19), domains (R610). -/
def ctlOk (c : BitVec 7) : Bool := c.toNat < 96
def groupOk (g : BitVec 5) : Bool := g.toNat < 27
def linkOk (l : BitVec 3) : Bool := l.toNat < 7
def regionOk (r : BitVec 7) : Bool := r.toNat < 72
def domainOk (d : BitVec 9) : Bool := d.toNat < 412

/-- A command that can be sent. -/
def Instr.wf : Instr → Bool
  | .registerWrite a => accessOk a
  | .hiLoReadLatch a => accessOk a
  | .hiLoWriteCommit a => accessOk a
  | .i3cRegisterWrite bytes _ _ => bytesOk bytes
  | .i3cRegisterReadArm bytes _ _ => bytesOk bytes
  | .ucieLinkDown link => linkOk link
  | .rationPeriodStart => true
  | .rationPeriodForced => true
  | .rationSpent _ _ => true
  | .sysRationSet _ _ _ => true
  | .sysRationGet _ _ => true
  | .timeGet _ => true
  | .timeIncrSet _ _ _ => true
  | .timeAction _ _ => true
  | .timeActionCancel _ => true
  | .timeWdogSet _ _ => true
  | .timePinSet _ _ _ _ _ _ _ => true
  | .timeCaptureRead _ _ _ => true
  | .timePpsSet _ _ => true
  | .timeTodGet _ _ _ _ => true
  | .timeStatus _ => true
  | .timePtpPortSet _ _ _ _ _ _ _ => true
  | .timeEgressTsRead _ _ _ => true
  | .actionApply => true
  | .slewEnd => true
  | .servoWdogExpire => true
  | .replicaSync _ _ => true
  | .tpinPulse _ => true
  | .ppsOutEdge => true
  | .tpinCapture _ _ _ _ => true
  | .ppsInCapture _ _ => true
  | .tbLatch p _ => pathOk p
  | .tbIncrCommit p _ => pathOk p
  | .tbActArm p _ => pathOk p
  | .tbActCancel p _ => pathOk p
  | .tbCapPop p _ => pathOk p
  | .tbWdogWrite p _ => pathOk p
  | .departureInstant _ _ => true
  | .refHoldoverExit _ => true
  | .lanePower _ _ _ _ => true
  | .laneStatus _ _ _ => true
  | .laneModeSet _ _ _ _ _ _ => true
  | .laneIntfSet _ _ _ _ => true
  | .laneEqSet _ _ _ _ _ _ => true
  | .laneRetrain _ _ _ => true
  | .laneEyeScan _ _ _ _ => true
  | .eyeScanDone _ margins => paramsOk margins
  | .lanePrbsSet _ _ _ _ _ _ => true
  | .laneCounters _ _ _ => true
  | .lanePllLock l => laneRefOk' l
  | .lanePllTimeout l => laneRefOk' l
  | .transmitterStop _ => true
  | .laneStageDone l _ _ => laneRefOk' l
  | .tndStageTimeout _ => true
  | .laneRetryPauseEnd _ => true
  | .lnuTrainFail _ => true
  | .tndBlockRx _ _ => true
  | .tndRelockTimeout _ => true
  | .lnuLinkDown _ => true
  | .lnuFecWindow _ _ _ _ _ _ => true
  | .hostLinkDown _ => true
  | .hostLinkUp _ _ => true
  | .refclkLoss _ => true
  | .refclkReturn _ => true
  | .lnuRetrain p _ => pathOk p
  | .lanePowerBitWrite p _ _ _ => pathOk p
  | .lnuModeWrite p _ _ => pathOk p
  | .treeConfig _ _ _ => true
  | .treeChannelSet _ _ _ _ _ _ => true
  | .treeLaunch _ _ _ _ => true
  | .treeStop _ _ => true
  | .treeStatus _ _ => true
  | .treeDlnSet _ _ _ _ => true
  | .treeLaunchStart _ => true
  | .channelStart _ => true
  | .frameStart _ => true
  | .treeStopEffect _ => true
  | .tcSduRx _ => true
  | .keySwitch _ _ => true
  | .grantChannelSet _ _ _ _ _ _ => true
  | .grantTreeSet _ _ _ _ => true
  | .grantAllocSet _ _ _ _ => true
  | .grantAllocClear _ _ _ => true
  | .grantAllocGet _ _ _ => true
  | .grantHint _ _ _ _ _ _ _ => true
  | .grantHintCancel _ _ => true
  | .grantCtiSet _ ports _ sources pairs => paramsOk ports && paramsOk sources && paramsOk pairs
  | .grantRssiArm _ _ _ _ _ => true
  | .grantMapRead _ _ => true
  | .grantStatus _ _ => true
  | .grantCutoff _ => true
  | .mapComputed _ => true
  | .mapDeadline _ => true
  | .grantReportRx _ _ _ => true
  | .ctiReportRx _ _ _ _ _ _ _ _ _ => true
  | .brxRstPulse _ _ => true
  | .rssiTrigger _ _ => true
  | .rssiArmExpire _ => true
  | .gntAlcCommit p _ _ => pathOk p
  | .treeProfileSet _ _ _ _ => true
  | .treeProfileGet _ _ _ => true
  | .treeBrxSet _ words => paramsOk words
  | .treeBrxStatus _ _ => true
  | .brxPrfValidWrite p _ _ _ => pathOk p
  | .burstRx _ _ b => burstOk' b
  | .rsmDeadlineCheck _ => true
  | .onuProvision _ _ _ _ _ _ _ regId _ => paramsOk regId
  | .onuActivate _ _ => true
  | .onuDeactivate _ _ => true
  | .onuRelease _ _ => true
  | .onuDisable _ _ _ _ _ => true
  | .onuEnable _ _ _ _ _ => true
  | .onuMigrate _ _ _ _ _ => true
  | .onuPortSet _ _ _ _ _ => true
  | .onuPortClear _ _ _ => true
  | .onuRekey _ _ => true
  | .onuStatus _ _ => true
  | .onuIdQuery _ _ _ _ => true
  | .onuRogueScan _ _ onus => paramsOk onus
  | .rogueScanStep _ => true
  | .treeReachSet _ _ _ _ _ _ _ _ _ => true
  | .treeSnSet _ _ _ _ _ _ => true
  | .treeDiscoveredRead _ _ => true
  | .snWindowBook _ => true
  | .snResponseRx _ _ _ _ => true
  | .rangingBurstRx _ _ => true
  | .rangingWindowEnd _ => true
  | .registrationReply _ regId => paramsOk regId
  | .registrationTimeout _ => true
  | .keyReply _ wrapped _ => paramsOk wrapped
  | .keyTimeout _ => true
  | .lostTimeout _ => true
  | .paddockRestEnd _ _ _ => true
  | .migrationFence _ => true
  | .migrationComplete _ => true
  | .rogueFrameEval _ _ => true
  | .skeinForm _ _ _ _ _ _ => true
  | .skeinDissolve _ _ => true
  | .skeinOnuJoin _ _ _ => true
  | .skeinJoinDone _ arrivals => paramsOk arrivals
  | .skeinOnuLeave _ _ => true
  | .skeinAllocMember _ _ _ _ => true
  | .skeinStatus _ _ => true
  | .skeinTribSet _ _ _ _ _ allocIds _ => paramsOk allocIds
  | .skeinTribClear _ _ => true
  | .skeinTribStatus _ _ => true
  | .skeinDlnSet _ _ _ _ => true
  | .skeinGapExpiry _ => true
  | .containerLost _ _ => true
  | .pseudowireRx _ _ _ _ _ => true
  | .playout _ => true
  | .cadTribCommit p _ _ => pathOk p
  | .ruleTableSet _ _ _ _ _ keys => paramsOk keys
  | .ruleWrite _ _ _ _ value mask _ => paramsOk value && paramsOk mask
  | .ruleDelete _ _ _ => true
  | .ruleCommit _ => true
  | .ruleAbort _ => true
  | .ruleRead _ _ _ => true
  | .ruleStatus _ => true
  | .ruleParseSet _ _ _ _ => true
  | .ruleHeaderSet _ _ _ _ _ => true
  | .ruleEdgeSet _ _ _ _ _ _ _ => true
  | .ruleFragSet _ _ _ => true
  | .ruleSpoofSet _ _ _ => true
  | .commitBump _ => true
  | .versionTidy _ => true
  | .rulEntWr p _ _ => pathOk p
  | .rulCommitWrite p _ _ => pathOk p
  | .rulAbortWrite p _ _ => pathOk p
  | .pipelinePass _ _ _ => true
  | .recircPass _ _ => true
  | .fragSweep _ => true
  | .tableBdSet _ _ => true
  | .tableRmacSet _ _ _ => true
  | .tableFloodSet _ _ dests => paramsOk dests
  | .tableSvcSet _ _ => true
  | .tableSvcClear _ _ _ _ _ => true
  | .tableMacAdd _ _ _ _ _ _ => true
  | .tableMacDel _ _ _ => true
  | .tableMacRead _ _ _ => true
  | .tableMacFlush _ _ _ => true
  | .macFlushDone _ => true
  | .tableRouteSet _ _ pre _ _ => paramsOk pre
  | .tableRouteClear _ _ pre _ => paramsOk pre
  | .tableNhSet _ _ _ => true
  | .tableBindSet _ _ _ _ addr => paramsOk addr
  | .tableBindClear _ _ _ _ addr => paramsOk addr
  | .tableLearnSet _ _ _ => true
  | .tableStatus _ => true
  | .tableEditSet _ _ ops => paramsOk ops
  | .tableRemarkSet _ _ entries => paramsOk entries
  | .tableEditRead _ _ => true
  | .learnEvent _ => true
  | .refreshRequest _ => true
  | .ageingTick _ => true
  | .ageingScanVisit _ => true
  | .scanLate _ => true
  | .reseatVisit _ => true
  | .brAccGo p _ _ => pathOk p
  | .queueProfileSet _ _ _ _ _ _ _ _ _ => true
  | .queueAdmitSet _ _ _ _ _ => true
  | .queuePoolSet _ _ _ _ => true
  | .queueDeepSet _ _ _ => true
  | .queueFlush _ _ => true
  | .queueFlushDone _ => true
  | .queueDepth _ _ => true
  | .queueStoreStatus _ => true
  | .queueNodeSet _ _ => true
  | .queueNodeGet _ _ _ _ => true
  | .queueAttach _ _ _ => true
  | .queueDetach _ _ => true
  | .queueOvhSet _ _ _ => true
  | .queuePolicerSet _ _ _ => true
  | .queuePolicerRead _ _ => true
  | .queueSchedStatus _ => true
  | .uplinkFrameRx _ r => frameOk r
  | .icvVerdict _ _ => true
  | .bridgeHeadRx _ => true
  | .replicationCopy _ => true
  | .deepPageWrite _ _ => true
  | .deepPageRead _ _ _ => true
  | .schedulerRelease _ ctl _ => ctlOk ctl
  | .edtCommit p _ _ => pathOk p
  | .gateGateSet _ _ _ _ _ => true
  | .gateEntriesWrite _ _ _ entries => paramsOk entries
  | .gateListStart _ _ _ _ _ => true
  | .gateListCancel _ _ => true
  | .gateDisable _ _ _ => true
  | .gateStatus _ _ => true
  | .gateListStartAt _ ctl => ctlOk ctl
  | .gateEntry _ ctl => ctlOk ctl
  | .gtListArm p _ ctl _ => pathOk p && ctlOk ctl
  | .gtListCancel p _ ctl _ => pathOk p && ctlOk ctl
  | .keyAuth _ _ sig => paramsOk sig
  | .keyLogout _ => true
  | .keyKlkAgree _ pub => paramsOk pub
  | .keyLoad _ _ _ key _ => paramsOk key
  | .keyErase _ _ => true
  | .keyBcastNew _ _ onus => paramsOk onus
  | .keyBcastSwitch _ _ _ _ => true
  | .keyMscSaSet _ _ => true
  | .keyMscTxSwitch _ _ _ => true
  | .keyMscStatus _ _ => true
  | .keyJob _ w => paramsOk w.iv && paramsOk w.tag
  | .jobDone _ => true
  | .keyZeroize _ _ _ => true
  | .keySelftest _ => true
  | .selftestDone _ failed _ => paramsOk failed
  | .keyStatus _ => true
  | .keyDelivered _ => true
  | .tamperInput => true
  | .shieldBreak => true
  | .lightDetect _ => true
  | .temperatureAlarm _ => true
  | .voltageGlitch _ => true
  | .clockGlitch _ => true
  | .duplicateRoundMismatch _ _ => true
  | .drbgRepeat _ _ => true
  | .entropyHealthFail _ => true
  | .tandemPair _ _ _ _ _ => true
  | .tandemUnpair _ => true
  | .tandemTreeProtect _ _ _ _ => true
  | .tandemTake _ => true
  | .tandemRelease _ => true
  | .tandemResync _ _ => true
  | .tandemExercise _ _ => true
  | .tandemStatus _ => true
  | .tandemDlnSet _ _ _ _ => true
  | .tandemFrameRx _ _ _ heads recs => heads.all headOk && paramsOk recs
  | .recordResend _ _ => true
  | .heartbeatSend => true
  | .heartbeatTimeout => true
  | .digestTimeout _ => true
  | .halterPeerChange _ => true
  | .halterSeekDrive => true
  | .halterOwn => true
  | .halterReleasePin => true
  | .acceptWindowEnd _ => true
  | .drillDwellEnd => true
  | .sysNop _ words => paramsOk words
  | .sysInfo _ => true
  | .sysSessionOpen _ => true
  | .sysAck _ tags => paramsOk tags
  | .sysInbandSet _ ports _ _ => paramsOk ports
  | .sysReset _ _ => true
  | .sysEventRoute _ _ _ _ _ _ _ _ => true
  | .sysEventRead _ _ => true
  | .commandRingRead packet => bytesOk packet
  | .i3cMailboxWrite bytes => bytesOk bytes
  | .i3cMailboxAck _ => true
  | .i3cMailboxRead _ => true
  | .inbandFrameRx _ packet _ _ _ => bytesOk packet
  | .trapPost => true
  | .injectRingRead _ _ _ _ _ head _ => bytesOk head
  | .lshRingPtrWrite p _ => pathOk p
  | .lshRingCfgWrite p _ => pathOk p
  | .evtStatClear g _ => groupOk g
  | .evtMaskWrite g _ => groupOk g
  | .evtRingRdWrite p _ => pathOk p
  | .eventRecordEnter _ => true
  | .blockClaim _ _ => true
  | .claimEffect _ _ => true
  | .claimTimeout _ _ => true
  | .blockRelease _ _ => true
  | .blockStatus _ => true
  | .seqDispatch q _ => seqNumOk q
  | .stMov q _ _ => seqNumOk q
  | .stAdd q _ _ _ => seqNumOk q
  | .stSub q _ _ _ => seqNumOk q
  | .stAnd q _ _ _ => seqNumOk q
  | .stOr q _ _ _ => seqNumOk q
  | .stXor q _ _ _ => seqNumOk q
  | .stShl q _ _ _ => seqNumOk q
  | .stShr q _ _ _ => seqNumOk q
  | .stCmp q _ _ => seqNumOk q
  | .stTst q _ _ => seqNumOk q
  | .stLdi q _ _ => seqNumOk q
  | .stLdh q _ _ => seqNumOk q
  | .stAddi q _ _ => seqNumOk q
  | .stCmpi q _ _ => seqNumOk q
  | .stRdreg q _ _ _ _ _ => seqNumOk q
  | .stWrreg q _ _ _ _ _ => seqNumOk q
  | .stRdsp q _ _ _ => seqNumOk q
  | .stWrsp q _ _ _ => seqNumOk q
  | .stRdpar q _ _ _ => seqNumOk q
  | .stWrpar q _ _ _ => seqNumOk q
  | .stBr q _ _ => seqNumOk q
  | .stCall q _ => seqNumOk q
  | .stRet q => seqNumOk q
  | .stLoop q _ => seqNumOk q
  | .stEnd q => seqNumOk q
  | .stWait q _ _ _ => seqNumOk q
  | .stPark q _ _ _ => seqNumOk q
  | .stReply q _ => seqNumOk q
  | .stAccept q => seqNumOk q
  | .stRaise q _ => seqNumOk q
  | .stPloam q _ _ _ _ args => seqNumOk q && paramsOk args
  | .stMail q _ _ => seqNumOk q
  | .waitEnd q _ _ => seqNumOk q
  | .machineCheck q _ _ => seqNumOk q
  | .seqHandover q => seqNumOk q
  | .darnSwap => true
  | .darnHoldTimeout => true
  | .scratchOwnerSet _ _ _ _ => true
  | .scratchRead _ _ _ _ => true
  | .scratchWrite _ _ _ words => paramsOk words
  | .scratchDma _ _ _ _ _ _ _ => true
  | .dmaDone _ _ _ _ => true
  | .spBankOwnerWrite p _ _ _ => pathOk p
  | .bankHandoverDone _ _ => true
  | .scrubPatrol _ _ => true
  | .trustAttest _ nonce => paramsOk nonce
  | .trustCertRead _ => true
  | .trustDarnLoad _ _ _ => true
  | .trustDarnStatus _ => true
  | .trustLifecycle _ _ authority => paramsOk authority
  | .resetFall _ => true
  | .resetAsserted => true
  | .railPowerFail => true
  | .castOnStart _ _ => true
  | .castOnStageDone _ _ => true
  | .castOnDone _ => true
  | .packageReset _ _ => true
  | .functionLevelReset => true
  | .i3cTargetReset => true
  | .pmEntitySet _ _ _ _ => true
  | .pmRead _ _ _ _ _ => true
  | .pmTcaSet _ _ _ _ _ => true
  | .pmStatus _ => true
  | .gaugeSnap _ _ => true
  | .gaugePeriodSet _ _ _ => true
  | .gaugeRead _ _ _ _ => true
  | .gaugeSlots _ _ => true
  | .gaugeHistRead _ _ => true
  | .gaugeClear _ _ _ => true
  | .pmSecond _ => true
  | .pmBinBoundary _ _ => true
  | .snapshotLaunch => true
  | .snapshotDone => true
  | .powerDomainSet _ _ _ => true
  | .domainSwitchDone domain => domainOk domain
  | .powerStatus _ => true
  | .powerTensionSet _ _ _ _ _ => true
  | .powerSensors _ => true
  | .remudaStatus _ => true
  | .remudaBringIn _ _ _ => true
  | .spareBringInDone _ _ _ => true
  | .remudaPolicySet _ _ _ => true
  | .remudaWearRead _ _ => true
  | .unitParityError _ => true
  | .thermalSample region _ _ => regionOk region
  | .droopDetect region _ => regionOk region
  | .stretchReleaseStep region => regionOk region
  | .wearSample region _ => regionOk region
  | .ucieLaneRepair link => linkOk link
  | .clockGeneratorLockLoss _ => true
  | .stretchStepUp region => regionOk region
  | .droopRecovery region => regionOk region
  | .tensionEpisodeLong region => regionOk region
  | .pmSecondForced _ => true
  | .tamperNRelease => true
  | .i3cDynamicAddress _ => true
  | .i3cEnecDisec _ => true
  | .hostLinkDmaTimeout moved => paramsOk moved
  | .bringInHoldTimeout _ _ => true

end Sys2Proof
end

