-- ==== Sys2Proof/Certificates/Slice0/Obligations.lean ====
section
/-! DEFINITION. The statements for the provers. `completed`, `waiting`, `Goes` and `Answers` are Safety.lean's. -/

open Sys2Proof Sys2Proof.Machine

/-- A step runs the command at the front of the queue, with the queue's rest; on an empty queue a cycle of the clock passes, which moves the
time alone where no head waits for an admission. 00_scope; that a cycle is what an empty queue gives is the model's choice (log entry 4). -/
def Obligations.StepTakesTheFrontCommand : Prop :=
  (∀ (c : Instr) (rest : List Instr) (s : State), s.pending = c :: rest → step s = exec c { s with pending := rest }) ∧
  (∀ s : State, s.pending = [] → step s = .next s.cycleOver) ∧
  (∀ s : State, (s.storeOf 0).own = [] → (s.storeOf 1).own = [] →
    (∃ n e w g x, s.cycleOver = { s with now := n, elapsed := e, tb := w, gauge := g, store := x }) ∧
    (∀ k < 2, s.cycleOver.storeOf k = s.storeOf k))

/-- The ration commands, a ration spent and a UCIe link going down have their effects. R637, R39, R30, R16. -/
def Obligations.RationCommandsComplete : Prop :=
  (∀ (h : Hdr) (index cfg : Word) (s : State), s.ready h 0x0010 (.oneOf [0, 1, 2, 3, 4, 5, 6, 7]) = true →
    (rationReset h.die.toNat index.toNat).isSome = true → index.toNat < 64 → cfg &&& 0xFCFE0000 = 0 →
    s.rationSumsHold h.die.toNat index.toNat (fldOf .sysRtnCfgBudget cfg) = true → s.claimed 15 .sys = false →
    exec (.sysRationSet h index cfg) s = completed h 0x0010 s (fun u => u.setReg .sysRtnCfg (h.die.toNat * 64 + index.toNat) cfg)) ∧
  (∀ (h : Hdr) (index : Word) (s : State), s.ready h 0x0011 (.oneOf [0, 1, 2, 3, 4, 5, 6, 7]) = true →
    (rationReset h.die.toNat index.toNat).isSome = true → index.toNat < 64 →
    exec (.sysRationGet h index) s = completed h 0x0011 s id
      [s.reg .sysRtnCfg (h.die.toNat * 64 + index.toNat), s.reg .sysRtnStat (h.die.toNat * 64 + index.toNat)]) ∧
  (∀ (die : BitVec 3) (index : BitVec 6) (s : State), (rationReset die.toNat index.toNat).isSome = true →
    s.rationBudget (die.toNat * 64 + index.toNat) < 125000 → s.flag .sysRtnStatSpent (die.toNat * 64 + index.toNat) = false →
    ∃ u t, u = s.setMeter (die.toNat * 64 + index.toNat) (max (Tbl.getD s.rtn.meter (die.toNat * 64 + index.toNat) 0)
        (s.rationBudget (die.toNat * 64 + index.toNat) * nsUnit)) ∧
      t = (u.setFlag .sysRtnStatSpent (die.toNat * 64 + index.toNat) true).count .sysRtnSpent (die.toNat * 64 + index.toNat) ∧
      exec (.rationSpent die index) s =
        .next (if t.flag .sysRtnCfgEvtEn (die.toNat * 64 + index.toNat) then t.raise .sysRtnSpent die.toNat index.toNat else t)) ∧
  (∀ (link : BitVec 3) (s : State), s.hasLink link.toNat = true → link.toNat ∉ s.ucieDown →
    exec (.ucieLinkDown link) s =
      .next ({ s with ucieDown := s.ucieDown ++ [link.toNat] }.report .sysUcieDown link.toNat .sysUcieDown 15 link.toNat))

/-- A ration period start puts every meter to zero and the configured budgets in force; with nothing waiting for the table ports, for
SKEW or for PM, it changes nothing else. R27. -/
def Obligations.RationPeriodOpensWithMetersAtZero : Prop :=
  (∀ s : State, s.allReached s.rtn.next = true → exec .rationPeriodStart s = .next s.newPeriod) ∧
  (∀ s : State, s.rtn.stepped = true → s.rtn.opened + frameSpan ≤ s.elapsed → exec .rationPeriodForced s = .next s.newPeriod) ∧
  (∀ s : State, (∀ i, s.openPeriod.reg .sysRtnStat i = 0) ∧ (∀ i, Tbl.getD s.openPeriod.rtn.meter i 0 = 0) ∧
    (∀ i, s.openPeriod.rationInForce i = s.reg .sysRtnCfg i) ∧ (∀ r i, r ≠ .sysRtnStat → s.openPeriod.reg r i = s.reg r i) ∧
    s.openPeriod.rtn.opened = s.elapsed ∧ s.openPeriod.rtn.next = (s.now / frameSpan + 1) * frameSpan ∧
    s.openPeriod = { s with regs := s.openPeriod.regs, rtn := s.openPeriod.rtn }) ∧
  (∀ s : State, s.tableWaits = [] → s.skewOut = [] → s.skeinOnus.all (fun p => p.2.held.all (fun x => !x.spill)) = true →
    s.tribs.all (fun p => p.2.aligning.all (fun a => a.waiting.isEmpty)) = true → s.pm.ents.all (fun p => decide (p.2.secs.length < 10)) = true →
    s.newPeriod = s.openPeriod)

/-- The TIME commands have their effects and answer. R72, R44, R45, R48, R60, R69, R638. -/
def Obligations.TimeCommandsComplete : Prop :=
  (∀ (h : Hdr) (s : State), s.ready h 0x0100 (.owner 0) = true →
    exec (.timeGet h) s = completed h 0x0100 s id (timeWords s.now ++ [s.tbStat])) ∧
  (∀ (h : Hdr) (int frac : Word) (s : State), s.ready h 0x0101 (.owner 0) = true → incrOk (int.toNat * 2 ^ 32 + frac.toNat) = true →
    s.claimed 0 .tb = false →
    exec (.timeIncrSet h int frac) s = completed h 0x0101 s (fun u =>
      let v := (u.setFld .tbIncrInt 0 int.toNat).setFlag .tbStatHoldover 0 false
      { v with tb := { v.tb with frac := frac, wdogFired := false, wdogFrom := s.elapsed } })) ∧
  (∀ (h : Hdr) (w : ActionWords) (s : State), s.ready h 0x0102 (.owner 0) = true → actionWordsOk w = true →
    actionRatesOk (actionOf w s.now s.tb.cycle) = true → s.claimed 0 .tb = false → s.tb.pendingAction = none →
    exec (.timeAction h w) s = completed h 0x0102 s (fun u =>
      { u with tb := { u.tb with pendingAction := some (actionOf w s.now s.tb.cycle) } }) []
      (if tooLate s.now (T3.time w.instant) then .advanced else .ok)) ∧
  (∀ (h : Hdr) (s : State), s.ready h 0x0103 (.owner 0) = true → s.claimed 0 .tb = false → s.cancellable = true →
    exec (.timeActionCancel h) s = completed h 0x0103 s (fun u => { u with tb := { u.tb with pendingAction := none } })) ∧
  (∀ (h : Hdr) (ms : Word) (s : State), s.ready h 0x0104 (.owner 0) = true → ms.toNat < 65536 → s.claimed 0 .tb = false →
    exec (.timeWdogSet h ms) s = completed h 0x0104 s (fun u =>
      if ms = 0 then u.setFld .tbWdogTimeout 0 0
      else { u.setFld .tbWdogTimeout 0 ms.toNat with tb := { u.tb with wdogFired := false, wdogFrom := s.elapsed } })) ∧
  (∀ (h : Hdr) (pin count : Word) (s : State), s.ready h 0x0106 (.owner 0) = true → pin.toNat ≤ 32 → count ≠ 0 → count.toNat ≤ 16 →
    s.claimed 0 .tb = false →
    exec (.timeCaptureRead h pin count) s = completed h 0x0106 s
      (fun u => { u with tb := { u.tb with captures := Tbl.setD u.tb.captures pin.toNat [] ((Tbl.getD u.tb.captures pin.toNat []).drop count.toNat) } })
      (BitVec.ofNat 32 ((Tbl.getD s.tb.captures pin.toNat []).take count.toNat).length ::
        ((Tbl.getD s.tb.captures pin.toNat []).take count.toNat).flatMap Capture.words)) ∧
  (∀ (h : Hdr) (width : Word) (s : State), s.ready h 0x0107 (.owner 0) = true → 1 ≤ width.toNat → width.toNat ≤ 500000 →
    s.claimed 0 .tb = false →
    exec (.timePpsSet h width) s = completed h 0x0107 s (fun u => u.setFld .tbPpsCfgWidth 0 width.toNat)) ∧
  (∀ (h : Hdr) (s : State), s.ready h 0x0109 (.owner 0) = true →
    exec (.timeStatus h) s = completed h 0x0109 s id
      (s.tbStat :: ([Ctr.tbActBusy, .tbActLate, .tbCapOvf, .tbDiv, .tbFrameErr, .tbIncrReject, .tbPinBad, .tbRefHold, .tbServoWdog, .tbShortPast].flatMap
        (fun c => ctrWords (s.ctrAll c)))
        ++ ([1, 2, 3, 4, 5, 6, 7].map (fun d => BitVec.ofInt 32 (s.replica d).1)))) ∧
  (∀ (h : Hdr) (port one two tr ia ea : Word) (s : State), s.ready h 0x010A (.owner (dieOfLane (port.toNat % 64))) = true →
    port.toNat < 64 → s.portOf port.toNat = port.toNat → one.toNat < 2 → two.toNat < 2 → tr.toNat < 2 →
    s.claimed (dieOfLane port.toNat) .tsi = false →
    exec (.timePtpPortSet h port one two tr ia ea) s = completed h 0x010A s (fun u =>
      let p := Tbl.setD u.tb.ptpPorts port.toNat ⟨false, false, false⟩ ⟨one = 1, two = 1, tr = 1⟩
      ({ u with tb := { u.tb with ptpPorts := p } }.setReg .tsiIngAdj port.toNat ia).setReg .tsiEgrAdj port.toNat ea)) ∧
  (∀ (h : Hdr) (port count : Word) (s : State), s.ready h 0x010B (.owner (dieOfLane (port.toNat % 64))) = true →
    port.toNat < 64 → s.portOf port.toNat = port.toNat → count ≠ 0 → count.toNat ≤ 16 → s.claimed (dieOfLane port.toNat) .tsi = false →
    exec (.timeEgressTsRead h port count) s = completed h 0x010B s
      (fun u => { u with tb := { u.tb with stamps := Tbl.setD u.tb.stamps port.toNat [] ((Tbl.getD u.tb.stamps port.toNat []).drop count.toNat) } })
      (BitVec.ofNat 32 ((Tbl.getD s.tb.stamps port.toNat []).take count.toNat).length ::
        ((Tbl.getD s.tb.stamps port.toNat []).take count.toNat).flatMap Stamp.words))

/-- A pending action whose cycle has come applies: the time jumps as SET and STEP say, an increment in range comes into force, a slew in
range starts, and nothing stays pending. R46, R44, R45, R49, R638. -/
def Obligations.TimebaseActionApplies : Prop :=
  (∀ (a : Action) (s : State), s.tb.pendingAction = some a → s.actionDue a = true →
    Goes .actionApply s (fun t => t.tb.pendingAction = none ∧ t.elapsed = s.elapsed ∧
      t.now = (let n := if Action.has a 3 then a.setValue % timeMod else s.now
               if Action.has a 1 then (((n : Int) + a.stepNs * 2 ^ 32) % timeMod).toNat else n))) ∧
  (∀ (a : Action) (s : State), s.tb.pendingAction = some a → s.actionDue a = true → a.kinds = 1 → a.late = false → incrOk a.incr = true →
    Goes .actionApply s (fun t => t.incr = a.incr ∧ t.flag .tbStatHoldover 0 = false ∧ t.tb.wdogFired = false ∧ t.tb.wdogFrom = s.elapsed ∧
      (∀ r i, (r ≠ .tbIncr ∨ i ≠ 0) → (r ≠ .tbStat ∨ i ≠ 0) → t.reg r i = s.reg r i) ∧ t.ctrs = s.ctrs ∧ t.pins = s.pins)) ∧
  (∀ (a : Action) (s : State), s.tb.pendingAction = some a → s.actionDue a = true → a.kinds = 4 → a.late = false →
    slewOk a.slewOfs a.slewCyc = true → a.slewCyc ≠ 0 →
    exec .actionApply s = .next { s with tb := { s.tb with
      pendingAction := none, slew := some ⟨(s.tb.slew.map Slew.rest).getD 0 + a.slewOfs * 2 ^ 16, a.slewCyc⟩ } })

/-- Slew end, servo watchdog, replica sync, time pins and captures have their effects. R49, R45, R54, R59, R60, R61. -/
def Obligations.TimebaseEventsComplete : Prop :=
  (∀ (w : Slew) (s : State), s.tb.slew = some w → w.cycles ≤ 1 →
    exec .slewEnd s = .next { s with tb := { s.tb with slew := none }, now := ((s.now + w.rest) % timeMod).toNat, elapsed := (s.elapsed + w.rest).toNat }) ∧
  (∀ s : State, s.fld .tbWdogTimeout 0 ≠ 0 → s.tb.wdogFired = false → s.tb.wdogFrom + msSpan (s.fld .tbWdogTimeout 0) ≤ s.elapsed →
    exec .servoWdogExpire s = .next ({ s.setFlag .tbStatHoldover 0 true with tb := { s.tb with wdogFired := true } }.report
      .tbServoWdog 0 .tbServoWdog 0 0)) ∧
  (∀ (die : BitVec 3) (drift : BitVec 32) (s : State), die ≠ 0 → s.dieFused die.toNat = false →
    (∀ a, s.tb.syncAt.find die.toNat = some a → a + usSpan 1 ≤ s.elapsed) →
    let x := (if (s.replica die.toNat).2 then 0 else (s.replica die.toNat).1) + drift.toInt
    Goes (.replicaSync die drift) s (fun t =>
      t.replica die.toNat = (if x.natAbs ≤ 1000 then (x - x.sign, false) else (x, true)) ∧
      (s.fld .tbDivCfgLimit 0 < x.natAbs → t.flag .tbStatDiv 0 = true) ∧
      ((s.replica die.toNat).2 = false → x.natAbs ≤ s.fld .tbDivCfgLimit 0 → t.regs = s.regs ∧ t.now = s.now ∧ t.out = s.out))) ∧
  (∀ (pin : BitVec 5) (at_ : Nat) (s : State), s.pinOk pin.toNat = true → s.fld .tbPinCfgMode pin.toNat = 2 →
    s.tb.nextEdge.find pin.toNat = some at_ → reached s.now at_ = true →
    exec (.tpinPulse pin) s = .next ({ s with tb := { s.tb with
        nextEdge := s.tb.nextEdge.put pin.toNat ((at_ + nsSpan (s.fld .tbPinPeriodV pin.toNat)) % timeMod) } }.send
      (.pulse .tpin pin.toNat (if s.flag .tbPinCfgPol pin.toNat then 0 else 1) at_ (s.fld .tbPinWidthV pin.toNat)))) ∧
  (∀ (pin : BitVec 5) (at_ : Nat) (s : State), s.pinOk pin.toNat = true → s.fld .tbPinCfgMode pin.toNat = 1 →
    s.tb.nextEdge.find pin.toNat = some at_ → reached s.now at_ = true →
    exec (.tpinPulse pin) s = .next ({ s with tb := { s.tb with nextEdge := s.tb.nextEdge.del pin.toNat } }.send
      (.pulse .tpin pin.toNat (if s.flag .tbPinCfgPol pin.toNat then 0 else 1) at_ (s.fld .tbPinWidthV pin.toNat)))) ∧
  (∀ s : State, reached s.now s.tb.ppsNext = true →
    exec .ppsOutEdge s = .next ({ s with tb := { s.tb with ppsNext := (s.tb.ppsNext + secUnit) % timeMod } }.send
      (.pulse .ppsOut 0 1 s.tb.ppsNext (s.fld .tbPpsCfgWidth 0 * 1000)))) ∧
  (∀ (pin : BitVec 5) (before after : Bool) (fine : BitVec 3) (s : State), before ≠ after →
    (s.fld .tbPinCfgMode pin.toNat = 5 ∨ (s.fld .tbPinCfgMode pin.toNat = 3 ∧ after = true) ∨
      (s.fld .tbPinCfgMode pin.toNat = 4 ∧ after = false)) → s.tb.lastEdge.find pin.toNat = none →
    (Tbl.getD s.tb.captures pin.toNat []).length < 16 →
    Goes (.tpinCapture pin before after fine) s (fun t => Tbl.getD t.tb.captures pin.toNat [] =
      Tbl.getD s.tb.captures pin.toNat [] ++ [⟨s.now + fine.toNat * nsUnit / 5, decide (s.tb.jumpedAt = some s.tb.cycle)⟩])) ∧
  (∀ (pin : BitVec 5) (before after : Bool) (fine : BitVec 3) (s : State), before ≠ after →
    (s.fld .tbPinCfgMode pin.toNat = 5 ∨ (s.fld .tbPinCfgMode pin.toNat = 3 ∧ after = true) ∨
      (s.fld .tbPinCfgMode pin.toNat = 4 ∧ after = false)) → s.tb.lastEdge.find pin.toNat = none →
    16 ≤ (Tbl.getD s.tb.captures pin.toNat []).length →
    exec (.tpinCapture pin before after fine) s = .next ({ s.drive .tpin pin.toNat after.toNat with tb := { s.tb with
      lastEdge := s.tb.lastEdge.put pin.toNat (s.now + fine.toNat * nsUnit / 5) } }.report .tbCapOvf pin.toNat .tbCapOvf 0 pin.toNat)) ∧
  (∀ (fine : BitVec 3) (s : State), s.tb.lastEdge.find 32 = none → (Tbl.getD s.tb.captures 32 []).length < 16 →
    Goes (.ppsInCapture true fine) s (fun t => Tbl.getD t.tb.captures 32 [] =
      Tbl.getD s.tb.captures 32 [] ++ [⟨s.now + fine.toNat * nsUnit / 5, decide (s.tb.jumpedAt = some s.tb.cycle)⟩])) ∧
  (∀ (fine : BitVec 3) (s : State), exec (.ppsInCapture false fine) s = .next (s.drive .ppsIn 0 0)) ∧
  (∀ (pin : BitVec 5) (before after : Bool) (fine : BitVec 3) (s : State),
    edgeSelected (s.fld .tbPinCfgMode pin.toNat) before after = false →
    Goes (.tpinCapture pin before after fine) s (fun t => t.tb = s.tb ∧ t.regs = s.regs ∧ t.ctrs = s.ctrs ∧ t.out = s.out))

/-- Writes of the timebase registers with an effect, and TIME.PIN_SET and TIME.TOD_GET. R73, R74, R75, R60, R77,
R59, R70, R71, R72. -/
def Obligations.TimebaseRegistersComplete : Prop :=
  (∀ (p : APath) (data : Word) (s : State), data.getLsbD 0 = true →
    Goes (.tbLatch p data) s (fun t =>
      t.reg .tbSnapSecHi (apathCode p) = BitVec.ofNat 32 (secOf s.now / 2 ^ 32) ∧ t.reg .tbSnapSecLo (apathCode p) = BitVec.ofNat 32 (secOf s.now) ∧
      t.reg .tbSnapNs (apathCode p) = BitVec.ofNat 32 (nsOf s.now) ∧ t.reg .tbSnapFrac (apathCode p) = BitVec.ofNat 32 (fracOf s.now))) ∧
  (∀ (p : APath) (data : Word) (s : State), s.mayRwc p 0 .tb = true →
    incrOk (fldOf .tbIncrInt data * 2 ^ 32 + (s.reg .tbIncrFrac (apathCode p)).toNat) = true →
    exec (.tbIncrCommit p data) s = .next (s.installIncr (fldOf .tbIncrInt data * 2 ^ 32 + (s.reg .tbIncrFrac (apathCode p)).toNat))) ∧
  (∀ (p : APath) (data : Word) (s : State), s.mayRwc p 0 .tb = true → s.tb.pendingAction = none → fldOf .tbActKindKinds (data ||| 1) ≠ 0 →
    Goes (.tbActArm p data) s (fun t => ∃ a, t.tb.pendingAction = some a ∧ a.kinds = fldOf .tbActKindKinds (data ||| 1) ∧
      (data.getLsbD 8 = true → (s.freshBits .tbActCtl 0).getLsbD 8 = false → t.flag .tbActCtlLate 0 = false))) ∧
  (∀ (p : APath) (data : Word) (s : State), s.mayRwc p 0 .tb = true → s.cancellable = true →
    Goes (.tbActCancel p data) s (fun t => t.tb.pendingAction = none ∧ t.now = s.now ∧ t.ctrs = s.ctrs)) ∧
  (∀ (p : APath) (data : Word) (s : State),
    Goes (.tbCapPop p data) s (fun t => Tbl.getD t.tb.captures (s.sel .tpsel 0 (apathCode p)) [] =
      (Tbl.getD s.tb.captures (s.sel .tpsel 0 (apathCode p)) []).drop 1 ∧ t.regs = s.regs)) ∧
  (∀ (p : APath) (data : Word) (s : State), s.mayRwc p 0 .tb = true →
    Goes (.tbWdogWrite p data) s (fun t => t.fld .tbWdogTimeout 0 = fldOf .tbWdogTimeout data ∧
      (fldOf .tbWdogTimeout data ≠ 0 → t.tb.wdogFired = false ∧ t.tb.wdogFrom = s.elapsed) ∧ t.reg .tbStat 0 = s.reg .tbStat 0)) ∧
  (∀ (h : Hdr) (pin mode pol : Word) (start : T3) (period width : Word) (s : State), s.ready h 0x0105 (.owner 0) = true →
    pin.toNat ≤ 32 → mode.toNat ≤ 5 → pol.toNat ≤ 1 → (pin = 32 → mode = 3) → start.ns.toNat < 1000000000 → start.hi.toNat < 65536 →
    s.claimed 0 .tb = false →
    exec (.timePinSet h pin mode pol start period width) s = completed h 0x0105 s (fun u =>
      (((((((u.setFld .tbPinCfgMode pin.toNat mode.toNat).setFld .tbPinCfgPol pin.toNat pol.toNat).setReg .tbPinStartSecHi pin.toNat start.hi).setReg
        .tbPinStartSecLo pin.toNat start.lo).setReg .tbPinStartNs pin.toNat start.ns).setReg .tbPinPeriod pin.toNat period).setReg
        .tbPinWidth pin.toNat width).pinWritten pin.toNat)) ∧
  (∀ (h : Hdr) (tree sHi sLo : Word) (s : State), s.ready h 0x0108 (.owner (dieOfTree (tree.toNat % 32))) = true → tree.toNat < 32 →
    s.launched tree.toNat = true → sHi.toNat < 2 ^ 19 →
    (s.framesTo tree.toNat (sHi.toNat * 2 ^ 32 + sLo.toNat)).natAbs ≤ 80000 →
    exec (.timeTodGet h tree sHi sLo) s = completed h 0x0108 s id
      ((chansOfTree tree.toNat).flatMap (fun c =>
          timeWords (((s.tree tree.toNat).startTime : Int) + framesBetween (s.tree tree.toNat).count (sHi.toNat * 2 ^ 32 + sLo.toNat) * frameSpan
            + nsSpan (if s.xgs c then 538 else 412)).toNat ++ [BitVec.ofNat 32 (s.framing c).toNat])
        ++ [BitVec.ofNat 32 ((s.tree tree.toNat).fleOver || s.flag .pchTreeUnaligned tree.toNat).toNat]))

/-- The LANE commands have their effects and answer. R106, R85, R95, R103, R104, R110. -/
def Obligations.LaneCommandsComplete : Prop :=
  (∀ (h : Hdr) (family index on : Word) (s : State), s.ready h 0x0200 (.owner (laneDie family.toNat index.toNat)) = true → laneRefOk family index = true → family.toNat ≠ 4 → on.toNat < 2 →
    s.claimed (laneDie family.toNat index.toNat) (laneBlk family.toNat) = false → s.regionOn family.toNat index.toNat = true →
    exec (.lanePower h family index on) s = completed h 0x0200 s (fun u => u.laneTurn family.toNat index.toNat (on = 1))) ∧
  (∀ (h : Hdr) (family index : Word) (s : State), s.ready h 0x0201 (.owner (laneDie family.toNat index.toNat)) = true → laneRefOk family index = true →
    exec (.laneStatus h family index) s = completed h 0x0201 s id
      ([s.laneState family.toNat index.toNat, s.laneStage family.toNat index.toNat,
        if family.toNat = 2 then s.fld .lnuStatCdrLock index.toNat + 2 * s.fld .lnuStatBlkLock index.toNat + 4 * s.pin .refclkUpl (index.toNat / 32)
        else if family.toNat = 3 then s.fld .tndStatCdrLock index.toNat + 2 * s.fld .tndStatBlkLock index.toNat + 4 * s.pin .refclkTnd 0
        else if family.toNat < 2 then 4 * s.pin .refclkPon (index.toNat / 32) else 4 * s.pin .pcieRefclk 0, s.laneRate family.toNat index.toNat,
        if family.toNat = 4 then s.lanes.hostWidth else 1].map (BitVec.ofNat 32))) ∧
  (∀ (h : Hdr) (o oct q0 q1 half : Word) (s : State), s.ready h 0x0202 (.owner (dieOfLane (o.toNat * 8 % 64))) = true → o.toNat < 8 → oct.toNat < 2 →
    q0.toNat < 3 → q1.toNat < 3 → half.toNat < 256 → modeValid oct.toNat q0.toNat q1.toNat half.toNat = true →
    s.claimed (dieOfLane (8 * o.toNat)) .lnu = false → s.modeBusy o.toNat oct.toNat q0.toNat q1.toNat half.toNat = false →
    exec (.laneModeSet h o oct q0 q1 half) s = completed h 0x0202 s (fun u => (((u.setFld .lnuModeOct800 o.toNat oct.toNat).setFld
      .lnuModeQuad0 o.toNat q0.toNat).setFld .lnuModeQuad1 o.toNat q1.toNat).setFld .lnuModeHalf50 o.toNat half.toNat)) ∧
  (∀ (h : Hdr) (port intf an : Word) (s : State), s.ready h 0x0203 (.owner (dieOfLane (port.toNat % 64))) = true → port.toNat < 64 →
    s.portOf port.toNat = port.toNat → intf.toNat < 3 → an.toNat < 2 → s.claimed (dieOfLane port.toNat) .lnu = false →
    (s.laneGroup 2 port.toNat).any (fun j => s.laneState 2 j != 0) = false →
    exec (.laneIntfSet h port intf an) s = completed h 0x0203 s (fun u => (s.laneGroup 2 port.toNat).foldl
      (fun u j => (u.setFld .lnuCtlIntf j intf.toNat).setFld .lnuCtlAnEn j an.toNat) u)) ∧
  (∀ (h : Hdr) (family index pre post gain : Word) (s : State), s.ready h 0x0204 (.owner (laneDie family.toNat index.toNat)) = true → laneRefOk family index = true → s.claimed (laneDie family.toNat index.toNat) (laneBlk family.toNat) = false →
    exec (.laneEqSet h family index pre post gain) s = completed h 0x0204 s (fun u =>
      (s.laneGroup family.toNat index.toNat).foldl (fun u j =>
        { u with lanes := { u.lanes with eq := u.lanes.eq.put (laneKey family.toNat j) (pre, post, gain) } }) u)) ∧
  (∀ (h : Hdr) (family index : Word) (s : State), s.ready h 0x0205 (.owner (laneDie family.toNat index.toNat)) = true → laneRefOk family index = true → 2 ≤ family.toNat → s.claimed (laneDie family.toNat index.toNat) (laneBlk family.toNat) = false →
    exec (.laneRetrain h family index) s = completed h 0x0205 s (fun u => if family.toNat = 4 then u.hostDown true
      else (s.laneGroup family.toNat index.toNat).foldl (fun u j => u.bringUp family.toNat j 1) u)) ∧
  (∀ (h : Hdr) (family index : Word) (dwell : BitVec 64) (s : State), s.ready h 0x0206 (.owner (laneDie family.toNat index.toNat)) = true → laneRefOk family index = true → family.toNat ≠ 0 →
    10 ^ 6 ≤ dwell.toNat → dwell.toNat ≤ 10 ^ 12 →
    (family.toNat = 1 → (Tbl.getD s.lanes.prbs (laneKey family.toNat index.toNat) (false, false)).2 = true) → s.claimed (laneDie family.toNat index.toNat) (laneBlk family.toNat) = false →
    s.lanes.eyes.has (laneDie family.toNat index.toNat) = false → (s.start (callerOf h 0x0206)).asyncFull = false →
    exec (.laneEyeScan h family index dwell) s = completed h 0x0206 s (fun u => { u with lanes := { u.lanes with
      eyes := u.lanes.eyes.put (laneDie family.toNat index.toNat) ⟨callerOf h 0x0206, family.toNat, index.toNat, dwell.toNat⟩ } }) [] .accepted) ∧
  (∀ (die : BitVec 3) (margins : List Word) (e : EyeScan) (s : State), s.lanes.eyes.find die.toNat = some e →
    margins.length = (if e.family = 2 ∨ e.family = 3 then 12 else 4) →
    exec (.eyeScanDone die margins) s =
      .next ({ s with lanes := { s.lanes with eyes := s.lanes.eyes.del die.toNat } }.answer e.caller .ok margins)) ∧
  (∀ (h : Hdr) (family index pattern gen chk : Word) (s : State), s.ready h 0x0207 (.owner (laneDie family.toNat index.toNat)) = true → laneRefOk family index = true → family.toNat ≠ 4 →
    pattern.toNat ≤ (if family.toNat < 2 then 2 else 4) → gen.toNat < 2 → chk.toNat < 2 → s.claimed (laneDie family.toNat index.toNat) (laneBlk family.toNat) = false →
    ¬ (family.toNat = 0 ∧ gen = 1 ∧ s.launched (treeOfChan index.toNat) = true) →
    exec (.lanePrbsSet h family index pattern gen chk) s = completed h 0x0207 s (fun u => (s.laneGroup family.toNat index.toNat).foldl
      (fun u j => u.setPrbs family.toNat j pattern.toNat (gen = 1) (chk = 1)) u)) ∧
  (∀ (f i j pattern : Nat) (gen chk : Bool) (s : State), f < 4 → i < 128 → j < 128 →
    (s.setPrbs f i pattern gen chk).prbsOf f j =
      if j = i then (decide (pattern ≠ 0) && gen, decide (pattern ≠ 0) && chk) else s.prbsOf f j) ∧
  (∀ (h : Hdr) (family index : Word) (s : State), s.ready h 0x0208 (.owner (laneDie family.toNat index.toNat)) = true → laneRefOk family index = true →
    ∃ u, u = (if family.toNat < 4 then (s.start (callerOf h 0x0208)).prbsErrors family.toNat index.toNat else s.start (callerOf h 0x0208)) ∧
      exec (.laneCounters h family index) s = completed h 0x0208 s (fun _ => u) ((laneCounters family.toNat).flatMap
        (fun c => ctrWords (u.ctr c (if family.toNat = 4 then 0 else index.toNat)))))

/-- Lanes come up, fail and return as their events say. R85, R86, R87, R88, R89, R92, R98, R100, R101, R102, R108. -/
def Obligations.LaneEventsComplete : Prop :=
  (∀ (l : LaneRef) (s : State), l.index.toNat < laneCount l.family.toNat → s.laneState l.family.toNat l.index.toNat = 1 →
    s.laneRef l.family.toNat l.index.toNat = true →
    exec (.lanePllLock l) s = .next (if l.family.toNat < 2 then s.setLane l.family.toNat l.index.toNat 3 0 else s.setLane l.family.toNat l.index.toNat 2 1)) ∧
  (∀ (l : LaneRef) (s : State), l.index.toNat < laneCount l.family.toNat → s.laneState l.family.toNat l.index.toNat = 1 →
    s.laneWaited l.family.toNat l.index.toNat (pllLimit l.family.toNat) = true →
    exec (.lanePllTimeout l) s = .next (
      let t := (s.setLane l.family.toNat l.index.toNat 4 0).report (State.familyPll l.family.toNat).1 l.index.toNat
        (State.familyPll l.family.toNat).2 (laneDie l.family.toNat l.index.toNat) l.index.toNat
      if l.family.toNat < 2 then t.memberGone l.index.toNat else t)) ∧
  (∀ (c : Chan) (s : State), s.pin .optTxen c.toNat = 0 → s.lanes.transmitting.has c.toNat = true →
    Tbl.getD s.lanes.darkAt c.toNat 0 + usSpan 1 ≤ s.elapsed →
    exec (.transmitterStop c) s = .next (
      let t := { s with lanes := { s.lanes with transmitting := s.lanes.transmitting.del c.toNat } }
      if s.lanes.goingOff.has c.toNat then
        let u := { t with lanes := { t.lanes with goingOff := t.lanes.goingOff.del c.toNat } }.laneDark 0 c.toNat
        if u.lanePower 0 c.toNat then u.laneOn 0 c.toNat else u
      else t)) ∧
  (∀ (l : LaneRef) (peer : BitVec 3) (dev : BitVec 10) (s : State), 2 ≤ l.family.toNat → l.index.toNat < laneCount l.family.toNat →
    (∀ j ∈ s.laneGroup l.family.toNat l.index.toNat, s.laneState l.family.toNat j = 2 ∧
      s.laneStage l.family.toNat j = s.laneStage l.family.toNat l.index.toNat) →
    s.laneState l.family.toNat l.index.toNat = 2 → (l.family.toNat = 3 → s.lanes.paused.has l.index.toNat = false) →
    (l.family.toNat = 4 ∨ s.idleFor (laneDie l.family.toNat l.index.toNat) 0 = true →
      exec (.laneStageDone l peer dev) s = .next ((s.laneGroup l.family.toNat l.index.toNat).foldl
        (fun t j => t.stageDone l.family.toNat j peer.toNat dev.toNat) s)) ∧
    (l.family.toNat ≠ 4 → s.idleFor (laneDie l.family.toNat l.index.toNat) 0 = false →
      exec (.laneStageDone l peer dev) s = .next (s.queued (laneDie l.family.toNat l.index.toNat) 0
        (.laneStage l.family.toNat l.index.toNat peer.toNat dev.toNat)))) ∧
  (∀ (l : TLane) (s : State), s.laneState 3 l.toNat = 2 → s.lanes.paused.has l.toNat = false →
    s.laneWaited 3 l.toNat (stageLimit (s.laneStage 3 l.toNat)) = true →
    Goes (.tndStageTimeout l) s (fun t => t.lanes.paused.has l.toNat = true ∧ t.fld .tndStatState l.toNat = 2 ∧ t.fld .tndStatStage l.toNat = 1)) ∧
  (∀ (l : TLane) (s : State), s.lanes.paused.has l.toNat = true → s.laneWaited 3 l.toNat (msSpan 10) = true →
    s.laneState 3 l.toNat = 2 → Goes (.laneRetryPauseEnd l) s (fun t => t.lanes.paused.has l.toNat = false ∧
      t.laneState 3 l.toNat = 2 ∧ t.laneStage 3 l.toNat = 1)) ∧
  (∀ (l : Lane) (s : State), s.laneState 2 (s.portOf l.toNat) = 2 → s.fld .lnuCtlIntf (s.portOf l.toNat) ≠ 0 →
    exec (.lnuTrainFail l) s = .next (((s.laneGroup 2 (s.portOf l.toNat)).foldl (fun t j => t.bringUp 2 j 1) s).report .lnuTrainFail
      (s.portOf l.toNat) .lnuTrainFail (dieOfLane (s.portOf l.toNat)) (s.portOf l.toNat))) ∧
  (∀ (l : TLane) (s : State), s.laneState 3 l.toNat = 2 → s.laneStage 3 l.toNat = 3 →
    s.laneWaited 3 l.toNat (msSpan 10) = true →
    Goes (.tndRelockTimeout l) s (fun t => t.lanes.paused.has l.toNat = true ∧ t.fld .tndStatState l.toNat = 2 ∧ t.fld .tndStatStage l.toNat = 1)) ∧
  (∀ (p : APath) (l : Lane) (s : State),
    exec (.lnuRetrain p l) s = .next ((s.laneGroup 2 l.toNat).foldl (fun t j => t.bringUp 2 j 1) s)) ∧
  (∀ (d : Bool) (s : State), s.laosh.linkUp = true → exec (.hostLinkDown d) s = .next (
      let t := (({ s with laosh := { s.laosh with linkUp := false, downAt := s.elapsed } }.setLane 4 0 2 (if d then 1 else 2)).losePath 0).report .sysHlDown 0 .sysHlDown 0 0
      if d then t.count .sysHlRetrain 0 else t)) ∧
  (∀ s : State, s.laosh.linkUp = false → s.lanes.hostState = 2 → s.lanes.hostStage ≠ 1 →
    exec (.hostLinkDown true) s = .next ((s.setLane 4 0 2 1).count .sysHlRetrain 0)) ∧
  (∀ (which : BitVec 1) (s : State), s.flag .tbStatRefHold 0 = true → s.pin .refclkUpl which.toNat = 1 →
    s.laneWaited 7 which.toNat (msSpan 1) = true →
    exec (.refHoldoverExit which) s = .next ((s.setFlag .tbStatRefHold 0 false).setFld .tbStatRef 0 which.toNat))

/-- Lane writes, block headers, loss of link, FEC windows and reference clocks have their effects. R85, R91, R92,
R98, R99, R100, R101, R110. -/
def Obligations.LaneInputsComplete : Prop :=
  (∀ (p : APath) (f : BitVec 2) (i : BitVec 7) (on : Bool) (s : State), i.toNat < laneCount f.toNat →
    s.dieFused (laneDie f.toNat i.toNat) = false → (f.toNat < 2 → s.expertBarred p (treeOfChan i.toNat) = false) → s.mayRwc p (laneDie f.toNat i.toNat) (laneBlk f.toNat) = true →
    exec (.lanePowerBitWrite p f i on) s = .next (s.laneTurn f.toNat i.toNat on)) ∧
  (∀ (p : APath) (f : BitVec 2) (i : BitVec 7) (on : Bool) (s : State), s.dieFused (laneDie f.toNat i.toNat) = true →
    exec (.lanePowerBitWrite p f i on) s = .next s) ∧
  (∀ (p : APath) (o : BitVec 3) (data : Word) (s : State) (w : Word),
    writeWord .lnuMode (s.reg .lnuMode o.toNat) data (s.mayRwc p (dieOfLane (8 * o.toNat)) .lnu) = (w, false, false) →
    modeValid (fldOf .lnuModeOct800 w) (fldOf .lnuModeQuad0 w) (fldOf .lnuModeQuad1 w) (fldOf .lnuModeHalf50 w) = true →
    s.modeBusy o.toNat (fldOf .lnuModeOct800 w) (fldOf .lnuModeQuad0 w) (fldOf .lnuModeQuad1 w) (fldOf .lnuModeHalf50 w) = false →
    Goes (.lnuModeWrite p o data) s (fun t => t.reg .lnuMode o.toNat = w ∧ ∀ r i, (r ≠ .lnuMode ∨ i ≠ o.toNat) → t.reg r i = s.reg r i)) ∧
  (∀ (l : TLane) (header : BitVec 2) (s : State), s.laneState 3 l.toNat = 2 → s.laneStage 3 l.toNat = 4 →
    Tbl.getD s.lanes.blockLock l.toNat .hunt = .hunt →
    Goes (.tndBlockRx l header) s (fun t =>
      Tbl.getD t.lanes.blockLock l.toNat .hunt = (if header = 1 ∨ header = 2 then .test 1 else .hunt) ∧
      Tbl.getD t.lanes.slip l.toNat 0 = (if header = 1 ∨ header = 2 then Tbl.getD s.lanes.slip l.toNat 0
        else (Tbl.getD s.lanes.slip l.toNat 0 + 1) % 66))) ∧
  (∀ (l : Lane) (s : State), s.laneState 2 (s.portOf l.toNat) = 3 → exec (.lnuLinkDown l) s = .next (
      let t := (s.dropHeld (s.portOf l.toNat) .lnuTxDownDrop).report .lnuLinkDown (s.portOf l.toNat) .lnuLinkDown
        (dieOfLane (s.portOf l.toNat)) (s.portOf l.toNat)
      (t.laneGroup 2 (s.portOf l.toNat)).foldl (fun u j => u.bringUp 2 j (if u.fld .lnuCtlIntf j = 0 then 3 else 1)) t)) ∧
  (∀ (l : Lane) (corr uncorr symbols cw : BitVec 32) (whole : Bool) (s : State), s.portOf l.toNat ≠ l.toNat →
    exec (.lnuFecWindow l corr uncorr symbols cw whole) s = .next (s.countBy .lnuFecSym l.toNat symbols.toNat)) ∧
  (∀ (l : Lane) (corr uncorr symbols cw : BitVec 32) (whole : Bool) (s : State), s.portOf l.toNat = l.toNat →
    exec (.lnuFecWindow l corr uncorr symbols cw whole) s = .next (
      let t := (((s.countBy .lnuFecSym l.toNat symbols.toNat).countBy .lnuFecCorr l.toNat corr.toNat).countBy .lnuFecUncorr l.toNat
        uncorr.toNat).pmBlocks 4 l.toNat cw.toNat uncorr.toNat
      if s.fld .lnuCtlFecThr l.toNat ≠ 0 ∧ s.fld .lnuCtlFecThr l.toNat < uncorr.toNat then
        if s.lanes.fecOver.has l.toNat then t
        else { t with lanes := { t.lanes with fecOver := t.lanes.fecOver.put l.toNat () } }.raise .lnuFecDegrade (dieOfLane l.toNat) l.toNat
      else if whole then { t with lanes := { t.lanes with fecOver := t.lanes.fecOver.del l.toNat } } else t)) ∧
  (∀ (width rate : BitVec 3) (s : State), Goes (.hostLinkUp width rate) s (fun t =>
      t.laosh.linkUp = true ∧ t.laosh.msixHeld = [] ∧ t.lanes.hostState = 3 ∧ t.lanes.hostStage = 0 ∧ t.lanes.hostWidth = width.toNat ∧ t.lanes.hostRate = rate.toNat)) ∧
  (∀ (ref : BitVec 3) (s : State), ref.toNat = 6 → exec (.refclkLoss ref) s = .next (
      (List.range 8).foldl (fun t l => if t.laneState 3 l = 3 ∨ 3 < t.laneStage 3 l then t.tandemUnlock l else t) ((s.drive .refclkTnd 0 0).report .tndRefLoss 0 .tndRefLoss 6 0))) ∧
  (∀ (ref : BitVec 3) (s : State), 4 ≤ ref.toNat → ref.toNat < 6 → exec (.refclkLoss ref) s = .next (
      ((((List.range 32).map (· + 32 * (ref.toNat - 4))).foldl (fun t l => if t.portOf l = l then t.uplinkDown l else t)
        ((s.drive .refclkUpl (ref.toNat - 4) 0).report .lnuRefLoss (6 + (ref.toNat - 4)) .lnuRefLoss (6 + (ref.toNat - 4)) 0)).masterLoses
          (ref.toNat - 4)))) ∧
  (∀ (s : State), exec (.refclkLoss 7) s = .next ((s.drive .pcieRefclk 0 0).hostDown false)) ∧
  (∀ (ref : BitVec 3) (s : State), ref.toNat < 4 → (s.is064 = true → ref.toNat < 2) → exec (.refclkLoss ref) s = .next (
      ((List.range 8).map (· + 8 * ref.toNat)).foldl
        (fun t k => if t.launched k || t.launchPending k then t.stopTree k else t)
        (((List.range 32).map (· + 32 * ref.toNat)).foldl (fun t c => ((t.darken c).memberGone c).pmDefect 0 c)
          ((s.drive .refclkPon ref.toNat 0).report .lnpRefLoss (2 + ref.toNat) .lnpRefLoss (2 + ref.toNat) 0)))) ∧
  (∀ (ref : BitVec 3) (s : State), ref.toNat < 4 → (s.is064 = true → ref.toNat < 2) → exec (.refclkReturn ref) s = .next (
      ((List.range 32).map (· + 32 * ref.toNat)).foldl (fun t c => (t.laneAgain 0 c).laneAgain 1 c) (s.drive .refclkPon ref.toNat 1))) ∧
  (∀ (ref : BitVec 3) (s : State), 4 ≤ ref.toNat → ref.toNat < 6 → exec (.refclkReturn ref) s = .next (
      ((List.range 32).map (· + 32 * (ref.toNat - 4))).foldl (fun t l => t.laneAgain 2 l)
        ({ s with lanes := { s.lanes with since := s.lanes.since.put (laneKey 7 (ref.toNat - 4)) s.elapsed } }.drive .refclkUpl (ref.toNat - 4) 1))) ∧
  (∀ s : State, exec (.refclkReturn 6) s = .next ((List.range 8).foldl (fun t l => t.laneAgain 3 l) (s.drive .refclkTnd 0 1))) ∧
  (∀ s : State, exec (.refclkReturn 7) s = .next ((s.drive .pcieRefclk 0 1).laneAgain 4 0))

/-- The TREE commands of the frame grid have their effects and answer. R131, R121, R122, R119, R130, R453. -/
def Obligations.TreeCommandsComplete : Prop :=
  (∀ (h : Hdr) (tree offset : Word) (s : State), s.ready h 0x0300 (.owner (dieOfTree (tree.toNat % 32))) = true → tree.toNat < 32 → offset.toNat < 125000 → s.treeBarred tree.toNat = false →
    s.claimed (dieOfTree tree.toNat) .pch = false → s.launched tree.toNat = false → s.launchPending tree.toNat = false →
    exec (.treeConfig h tree offset) s = completed h 0x0300 s (fun u => (u.setFld .pchTreeOffset tree.toNat offset.toNat).mirror tree.toNat)) ∧
  (∀ (h : Hdr) (chan mode enable maxPli ploamMax : Word) (s : State), s.ready h 0x0301 (.owner (dieOfChan (chan.toNat % 128))) = true → chan.toNat < 128 → mode.toNat < 2 → enable.toNat < 2 →
    pliOk maxPli.toNat = true → 1 ≤ ploamMax.toNat → ploamMax.toNat ≤ 8 → s.treeBarred (treeOfChan chan.toNat) = false → s.claimed (dieOfChan chan.toNat) .pch = false →
    (s.flag .pchCfgEnable chan.toNat = true → mode.toNat = s.fld .pchCfgMode chan.toNat) →
    exec (.treeChannelSet h chan mode enable maxPli ploamMax) s = completed h 0x0301 s (fun u => ((((u.setFld .pchCfgMode chan.toNat
      mode.toNat).setFld .pchCfgMaxPli chan.toNat maxPli.toNat).setFld .pchCfgPloamMax chan.toNat ploamMax.toNat).setEnable chan.toNat
        (enable = 1)).mirror (treeOfChan chan.toNat))) ∧
  (∀ (h : Hdr) (tree : Word) (earliest : T3) (unaligned : Word) (s : State), s.ready h 0x0302 (.owner (dieOfTree (tree.toNat % 32))) = true → tree.toNat < 32 → unaligned.toNat < 2 →
    s.treeBarred tree.toNat = false → s.claimed (dieOfTree tree.toNat) .pch = false → s.launched tree.toNat = false → s.launchPending tree.toNat = false →
    (s.flag .tbStatAligned 0 = true ∨ unaligned = 1) →
    let n := s.nowOn (dieOfTree tree.toNat) + usSpan 10
    let m := if T3.isNone earliest then n else max n (T3.time earliest)
    let k := gridFirst (s.fld .pchTreeOffset tree.toNat) m
    let i := gridInstant (s.fld .pchTreeOffset tree.toNat) k
    exec (.treeLaunch h tree earliest unaligned) s = completed h 0x0302 s (fun u =>
      (((u.setFlag .pchTreePending tree.toNat true).setFlag .pchTreeUnaligned tree.toNat (!s.flag .tbStatAligned 0)).setTree tree.toNat
        { s.tree tree.toNat with launchAt := i, launchCount := k % 2 ^ 51, stopping := false, noCutoff := decide (timeDiff i (s.nowOn (dieOfTree tree.toNat)) < (usSpan (s.fld .gntTreeCfgCutoff tree.toNat) : Int)) }).mirror tree.toNat)
      (timeWords i ++ wordsOf 64 (k % 2 ^ 51))) ∧
  (∀ (h : Hdr) (tree : Word) (s : State), s.ready h 0x0303 (.owner (dieOfTree (tree.toNat % 32))) = true → tree.toNat < 32 → s.treeBarred tree.toNat = false → s.claimed (dieOfTree tree.toNat) .pch = false →
    exec (.treeStop h tree) s = completed h 0x0303 s (fun u => State.mirror (if s.launchPending tree.toNat then (u.setFlag .pchTreePending tree.toNat false).treeEnded tree.toNat
      else if s.launched tree.toNat then u.setTree tree.toNat { s.tree tree.toNat with stopping := true } else u) tree.toNat)) ∧
  (∀ (h : Hdr) (tree : Word) (s : State), s.ready h 0x0304 (.owner (dieOfTree (tree.toNat % 32))) = true → tree.toNat < 32 → s.treeBarred tree.toNat = false →
    exec (.treeStatus h tree) s = completed h 0x0304 s (fun u => u.mirror tree.toNat)
      (s.reg .pchTree tree.toNat :: timeWords (s.tree tree.toNat).launchAt ++ wordsOf 64 (s.treeCount tree.toNat)
        ++ (chansOfTree tree.toNat).map s.pchStat ++ [BitVec.ofInt 32 (s.tree tree.toNat).fle])) ∧
  (∀ (h : Hdr) (chan delta alpha : Word) (s : State), s.ready h 0x0305 (.owner (dieOfChan (chan.toNat % 128))) = true → chan.toNat < 128 → 1 ≤ delta.toNat → delta.toNat ≤ 7 →
    1 ≤ alpha.toNat → alpha.toNat ≤ 15 → s.treeBarred (treeOfChan chan.toNat) = false → s.claimed (dieOfChan chan.toNat) .brx = false →
    exec (.treeDlnSet h chan delta alpha) s = completed h 0x0305 s (fun u => ((u.setFld .brxDlnCfgDelta chan.toNat delta.toNat).setFld
      .brxDlnCfgAlpha chan.toNat alpha.toNat).mirror (treeOfChan chan.toNat)))

/-- Each event of the downstream framer changes the state as the spec says. R121, R122, R114, R116, R118, R119, R125,
R138, R140, R213. -/
def Obligations.FrameEventsComplete : Prop :=
  (∀ (t : Tree) (s : State), s.launchPending t.toNat = true → reached (s.nowOn (dieOfTree t.toNat)) (s.tree t.toNat).launchAt = true →
    let v := ((s.setFlag .pchTreePending t.toNat false).setFlag .pchTreeLaunched t.toNat true).setTree t.toNat
      { s.tree t.toNat with count := (s.tree t.toNat).launchCount, startTime := (s.tree t.toNat).launchAt, startElapsed := s.elapsed }
    exec (.treeLaunchStart t) s = .next (((((chansOfTree t.toNat).filter (fun c => v.flag .pchCfgEnable c)).foldl (fun v c =>
      v.startChan c (s.tree t.toNat).launchCount) v).pmTree t.toNat).raise .pchLaunched (dieOfTree t.toNat) t.toNat)) ∧
  (∀ (c : Chan) (at_ n : Nat) (s : State), (s.chan c.toNat).startAt = some (at_, n) → at_ ≤ s.elapsed → s.framing c.toNat = false →
    s.launched (treeOfChan c.toNat) = true → exec (.channelStart c) s = .next (s.startChan c.toNat n)) ∧
  (∀ (t : Tree) (s : State), (s.tree t.toNat).stopping = true →
    exec (.treeStopEffect t) s = .next (((chansOfTree t.toNat).foldl State.closeFrame s).stopTree t.toNat)) ∧
  (∀ (t : Tree) (s : State), (s.tree t.toNat).stopping = false →
    exec (.treeStopEffect t) s = .next (((chansOfTree t.toNat).filter (fun c => (s.chan c).stopping)).foldl (fun s c =>
      ((s.closeFrame c).stopChan c).raise .pchStopped (dieOfTree t.toNat) t.toNat) s)) ∧
  (∀ (c : Chan) (s : State), s.framing c.toNat = true → s.launched (treeOfChan c.toNat) = true → (s.chan c.toNat).stopping =
      false → (s.tree (treeOfChan c.toNat)).stopping = false →
    exec (.frameStart c) s = .next (s.startFrame c.toNat)) ∧
  (∀ (c : Chan) (s : State), s.framing c.toNat = true → s.launched (treeOfChan c.toNat) = true → (s.chan c.toNat).stopping = false →
      (s.tree (treeOfChan c.toNat)).stopping = false →
    Goes (.frameStart c) s (fun t => (t.chan c.toNat).count = (s.chan c.toNat).next ∧ (t.chan c.toNat).next = ((s.chan c.toNat).next + 1) % 2 ^ 51 ∧
      (t.chan c.toNat).map = none ∧ (t.chan c.toNat).maxPli = s.fld .pchCfgMaxPli c.toNat ∧
      (t.tree (treeOfChan c.toNat)).count = (s.chan c.toNat).next ∧ t.now = s.now ∧ t.elapsed = s.elapsed)) ∧
  (∀ (c : Chan) (u : ToTc) (rest : List ToTc) (s : State), Tbl.getD s.toTc c.toNat [] = u :: rest → reached (s.nowOn (halfOfChan c.toNat)) u.at_ = true → s.linkCut (dieOfChan c.toNat) = false → s.framing c.toNat = true → s.tcBytes c.toNat + u.frame.len ≤ 65536 →
    let w := State.noteOverrun { s with toTc := s.toTc.setD c.toNat [] rest } (halfOfChan c.toNat) (32 + c.toNat % 64) u.gate
      (s.nowOn (halfOfChan c.toNat)) u.tx
    let v := w.carry (dieOfChan c.toNat) .pch c.toNat u.frame.len
    exec (.tcSduRx c) s = .next (if (w.downKey c.toNat (w.chan c.toNat).count u.onu u.kind).isNone then w.keyAbsent c.toNat else (v.setChan c.toNat
      { w.chan c.toNat with tc := (w.chan c.toNat).tc ++ [⟨u.onu, u.port, u.kind, u.frame, 0, none, 0, u.host⟩] }).fill c.toNat)) ∧
  (∀ (t : Tree) (n k : Nat) (s : State), (s.bcastOf t.toNat).2 = some (n, k) → s.framesTo t.toNat n ≤ 0 →
    exec (.keySwitch t none) s = .next ({ s with cipher := { s.cipher with bcast := s.cipher.bcast.put t.toNat (k, none) } })) ∧
  (∀ (t : Tree) (o : Onu) (x : OnuSlot) (n k : Nat) (s : State), s.onu o.toNat = some x → x.keySwitch = some (n, k) → x.tree
      = t.toNat → s.framesTo t.toNat n ≤ 0 →
    let v := s.modOnu o.toNat (fun x =>
      { x with keySlot := k, keySwitch := none, keyFails := 0, rekey := none, phase := if x.phase = .keying then .operation else x.phase })
    exec (.keySwitch t (some o)) s = .next (match x.rekey with | some c => v.answer c .ok [] | none => v)) ∧
  (∀ (t : Tree) (s : State), s.launched t.toNat = true ∨ s.launchPending t.toNat = true →
    let n := if s.launchPending t.toNat then (s.tree t.toNat).launchCount else (s.treeCount t.toNat + 1) % 2 ^ 51
    (s.pon.calcs.find t.toNat).map (·.frame) ≠ some n → s.lockstep t.toNat = false →
      (s.launchPending t.toNat = false → s.frameElapsed t.toNat n ≤ s.elapsed + usSpan (s.fld .gntTreeCfgCutoff t.toNat)) →
      (s.launchPending t.toNat = true → (s.tree t.toNat).noCutoff = false ∧
        reached (s.nowOn (dieOfTree t.toNat)) ((s.tree t.toNat).launchAt - usSpan (s.fld .gntTreeCfgCutoff t.toNat)) = true) →
    exec (.grantCutoff t) s = .next ((((s.skeinCutoff t.toNat).cutoff t.toNat n).sendCut t.toNat n).wake 2 t.toNat)) ∧
  (∀ (t : Tree) (s : State), s.nearFrame t.toNat (usSpan 2) = true →
    exec (.mapDeadline t) s = .next ((((s.cutDeadline t.toNat).deliverMaps t.toNat).formDigests t.toNat).drillReport)) ∧
  (∀ (o : Onu) (wrapped : List Word) (fits : Bool) (x : OnuSlot) (s : State), s.onu o.toNat = some x →
      s.idleFor (dieOfTree x.tree) (x.tree % 8 / 4) = false →
    exec (.keyReply o wrapped fits) s = .next (s.queued (dieOfTree x.tree) (x.tree % 8 / 4) (.keyReply o.toNat wrapped fits))) ∧
  (∀ (o : Onu) (wrapped : List Word) (x : OnuSlot) (s : State), s.onu o.toNat = some x →
      s.idleFor (dieOfTree x.tree) (x.tree % 8 / 4) = true → x.keyAsked = true → s.treeBarred
      x.tree = false → s.slotHeld (.unicast (if x.keySlot = 1 then 2 else 1)) o.toNat (if x.keySlot = 1 then 2 else 1) = false → s.cipher.kekErased.has o.toNat = false → s.tampered = false → s.clusterOut (dieOfTree x.tree) = false →
      s.vaultRoom (halfOfTree x.tree) 1 false = true →
    let slot := if x.keySlot = 1 then 2 else 1
    let key : VKey := ⟨.unicast slot, o.toNat, dieOfTree x.tree, Config.standard 1 (s.kekOf o.toNat :: wrapped.map (·.toNat)) % 2 ^ 128, 128, 0, true⟩
    let n := (s.treeCount x.tree + 65) % 2 ^ 51
    let v := (s.installKeys ((s.freeHandles (halfOfTree x.tree) 1).zip [key])).tellKey key (some n)
    exec (.keyReply o wrapped true) s = .next ((v.offer x.chan ⟨.keyControl, some x.onuId, [1, n, slot]⟩).modOnu o.toNat (fun
      x => { x with keySwitch := some (n, slot) })))

/-- The commands that provision, activate, deactivate, release, disable and enable an ONU have their effects and
answer. R204, R222, R216, R221, R223, R227. -/
def Obligations.OnuCommandsComplete : Prop :=
  (∀ (h : Hdr) (onu tree wl onuId serialHi serialLo : Word) (regId : List Word) (auto : Word) (s : State), s.ready h 0x0400
      (.owner (dieOfTree (tree.toNat % 32))) = true → onu.toNat < 16384 → tree.toNat < 32 → wl.toNat < 4 → onuId.toNat < 1023
      → (regId.length = 0 ∨ regId.length = 9) → auto.toNat < 2 → s.prfValid (4 * tree.toNat + wl.toNat) (s.fld .actChCfgSnPrf
      (4 * tree.toNat + wl.toNat)) = true → s.treeBarred tree.toNat = false → s.unclaimed (onuBlocks tree.toNat [.act, .gnt, .pch]) = true →
      s.onu onu.toNat = none → (s.onusOf tree.toNat).any (fun p => p.2.serial = serialOf serialHi serialLo) = false → s.ident
      tree.toNat 0 onuId.toNat = none → s.ident tree.toNat 1 onuId.toNat = none → s.ident tree.toNat 2 onuId.toNat = none →
      s.onuRoom tree.toNat = true → s.allocRoom tree.toNat = true → s.portRoom tree.toNat = true →
    let slot := s.freeSlot (dieOfTree tree.toNat)
    exec (.onuProvision h onu tree wl onuId serialHi serialLo regId auto) s = completed h 0x0400 s (fun u => (u.provision
      onu.toNat (newOnu slot tree.toNat wl.toNat onuId.toNat (serialOf serialHi serialLo) (if regId.isEmpty then none else
      some regId) (auto = 1))).mirror tree.toNat) (BitVec.ofNat 32 slot :: [])) ∧
  (∀ (h : Hdr) (onu : Word) (x : OnuSlot) (s : State), s.ready h 0x0401 (s.onuRule onu.toNat) = true → s.onu onu.toNat = some
      x → s.treeBarred x.tree = false → s.claimed (dieOfTree x.tree) .act = false → x.phase = .provisioned → x.seen.isSome =
      true →
    exec (.onuActivate h onu) s = completed h 0x0401 s (fun u => State.mirror (u.assign onu.toNat) x.tree)) ∧
  (∀ (h : Hdr) (onu : Word) (x : OnuSlot) (s : State), s.ready h 0x0402 (s.onuRule onu.toNat) = true → s.onu onu.toNat = some
      x → s.treeBarred x.tree = false → s.unclaimed (onuBlocks x.tree [.act, .kv]) = true → x.migration = none → x.phase ≠
      .provisioned → x.phase ≠ .disabled →
    exec (.onuDeactivate h onu) s = completed h 0x0402 s (fun u => State.mirror (u.deactivate onu.toNat .provisioned) x.tree)) ∧
  (∀ (h : Hdr) (onu : Word) (x : OnuSlot) (s : State), s.ready h 0x0403 (s.onuRule onu.toNat) = true → s.onu onu.toNat = some
      x → s.treeBarred x.tree = false → s.unclaimed (onuBlocks x.tree [.act, .gnt, .pch, .kv]) = true → x.migration = none →
    exec (.onuRelease h onu) s = completed h 0x0403 s (fun u => State.mirror (u.releaseOnu onu.toNat) x.tree)) ∧
  (∀ (h : Hdr) (onu tree serialHi serialLo : Word) (x : OnuSlot) (s : State), s.ready h 0x0404 (s.disableRule onu tree) =
      true → onu ≠ 0xFFFFFFFF → s.onu onu.toNat = some x → s.treeBarred x.tree = false → s.unclaimed (onuBlocks x.tree [.act, .kv]) = true →
    exec (.onuDisable h onu tree serialHi serialLo) s = completed h 0x0404 s (fun u => (u.disableOnu onu.toNat).mirror x.tree)) ∧
  (∀ (h : Hdr) (tree serialHi serialLo : Word) (o : Nat) (s : State), s.ready h 0x0404 (s.disableRule 0xFFFFFFFF tree) = true
      → tree.toNat < 32 → s.treeBarred tree.toNat = false → s.unclaimed (onuBlocks tree.toNat [.act, .kv]) = true → s.bySerial
      tree.toNat (serialOf serialHi serialLo) = some o →
    exec (.onuDisable h 0xFFFFFFFF tree serialHi serialLo) s = completed h 0x0404 s (fun u => (u.disableOnu o).mirror
      tree.toNat)) ∧
  (∀ (h : Hdr) (tree serialHi serialLo : Word) (s : State), s.ready h 0x0404 (s.disableRule 0xFFFFFFFF tree) = true →
      tree.toNat < 32 → s.treeBarred tree.toNat = false → s.unclaimed (onuBlocks tree.toNat [.act, .kv]) = true → s.bySerial
      tree.toNat (serialOf serialHi serialLo) = none → (s.disabledList tree.toNat).contains (serialOf serialHi serialLo) =
      false → (s.disabledList tree.toNat).length < 64 →
    exec (.onuDisable h 0xFFFFFFFF tree serialHi serialLo) s = completed h 0x0404 s (fun u => State.mirror (((chansOfTree
      tree.toNat).foldl (fun u c => u.offer3 c ⟨.disableSerialNumber, none, [1, serialOf serialHi serialLo]⟩) u).setDisabled
      tree.toNat (s.disabledList tree.toNat ++ [serialOf serialHi serialLo])) tree.toNat)) ∧
  (∀ (h : Hdr) (onu tree serialHi serialLo : Word) (x : OnuSlot) (s : State), s.ready h 0x0405 (s.disableRule onu tree) =
      true → onu ≠ 0xFFFFFFFF → s.onu onu.toNat = some x → s.treeBarred x.tree = false → s.claimed (dieOfTree x.tree) .act =
      false →
    exec (.onuEnable h onu tree serialHi serialLo) s = completed h 0x0405 s (fun u => (u.enableOnu onu.toNat).mirror x.tree)) ∧
  (∀ (h : Hdr) (tree serialHi serialLo : Word) (s : State), s.ready h 0x0405 (s.disableRule 0xFFFFFFFF tree) = true →
      tree.toNat < 32 → s.treeBarred tree.toNat = false → s.claimed (dieOfTree tree.toNat) .act = false →
    exec (.onuEnable h 0xFFFFFFFF tree serialHi serialLo) s = completed h 0x0405 s (fun u =>
      let v := u.enableSerial tree.toNat (serialOf serialHi serialLo)
      State.mirror (match s.bySerial tree.toNat (serialOf serialHi serialLo) with | some o => v.enableOnu o | none => v) tree.toNat)) ∧
  (∀ (t serial : Nat) (s : State), (s.disabledList t).contains serial = true → s.enableSerial t serial =
    ((chansOfTree t).foldl (fun u c => u.offer c ⟨.disableSerialNumber, none, [0, serial]⟩) s).setDisabled t
      ((s.disabledList t).filter (· ≠ serial)))

/-- The commands that move an ONU, set its ports, rekey it, report on it and hunt a rogue have their effects and
answer. R219, R124, R641, R201, R213, R217, R225, R202, R228, R208. -/
def Obligations.OnuServiceCommandsComplete : Prop :=
  (∀ (h : Hdr) (onu target sHi sLo : Word) (x : OnuSlot) (s : State), s.ready h 0x0406 (s.onuRule onu.toNat) = true →
      s.onu onu.toNat = some x → s.treeBarred x.tree = false → s.claimed (dieOfTree x.tree) .act = false → target.toNat < 128 →
      target.toNat ≠ x.chan → treeOfChan target.toNat = x.tree → x.migration = none → x.phase = .operation → s.launched x.tree = true →
      s.launchPending x.tree = false → s.skeinOnus.has onu.toNat = false →
    let e := (sHi.toNat * 2 ^ 32 + sLo.toNat) % 2 ^ 51
    let m := s.nextFrame x.tree
    let span := s.tEq x.tree + 1000
    let k0 := (s.framesTo x.tree m).toNat + ceilDiv (span + 1000 * s.fld .gntTreeCfgCutoff x.tree) 125000
    let kf := (s.treeCount x.tree + (if e = 0 then k0 else max k0 (s.framesTo x.tree e).toNat)) % 2 ^ 51
    exec (.onuMigrate h onu target sHi sLo) s = completed h 0x0406 s (fun u => State.mirror
      ((u.offer x.chan ⟨.tuningControl, some x.onuId, [target.toNat, kf]⟩).modOnu onu.toNat (fun y =>
        { y with migration := some ⟨some target.toNat, m, s.frameElapsed x.tree m + nsSpan span, kf, false⟩ })) x.tree)
      (timeWords (s.frameTime x.tree m + nsSpan span) ++ wordsOf 64 kf)) ∧
  (∀ (h : Hdr) (onu port kind dir : Word) (x : OnuSlot) (s : State), s.ready h 0x0407 (s.onuRule onu.toNat) = true → s.onu
      onu.toNat = some x → s.treeBarred x.tree = false → s.unclaimed (onuBlocks x.tree [.act, .pch]) = true → port.toNat < 65535 →
      kind.toNat < 3 → dir.toNat < 3 → ¬(kind = 2 ∧ dir ≠ 0) → s.ident x.tree 2 port.toNat = none → s.portRoom x.tree = true →
    exec (.onuPortSet h onu port kind dir) s = completed h 0x0407 s (fun u => State.mirror
      ({ (u.setIdent x.tree 2 port.toNat (some (.bound onu.toNat))) with pon := { (u.setIdent x.tree 2 port.toNat (some (.bound onu.toNat))).pon with ports := (u.setIdent x.tree 2 port.toNat (some (.bound onu.toNat))).pon.ports.put (x.tree * 65536 + port.toNat) ⟨kind.toNat, dir.toNat, none⟩ } })
      x.tree)) ∧
  (∀ (h : Hdr) (onu port kind dir : Word) (x : OnuSlot) (s : State), s.ready h 0x0407 (s.onuRule onu.toNat) = true → s.onu
      onu.toNat = some x → s.treeBarred x.tree = false → s.unclaimed (onuBlocks x.tree [.act, .pch]) = true → port.toNat < 65535 →
      kind.toNat < 3 → dir.toNat < 3 → ¬(kind = 2 ∧ dir ≠ 0) → s.ident x.tree 2 port.toNat = some (.bound onu.toNat) →
      port.toNat ≠ x.onuId →
    exec (.onuPortSet h onu port kind dir) s = completed h 0x0407 s (fun u => State.mirror
      (if s.launched x.tree then
        { u with pon := { u.pon with ports := u.pon.ports.modify (x.tree * 65536 + port.toNat) (fun q => { q with next := some (kind.toNat, dir.toNat) }) } }
       else
        let v := u.flushPort x.tree port.toNat
        { v with pon := { v.pon with ports := v.pon.ports.put (x.tree * 65536 + port.toNat) ⟨kind.toNat, dir.toNat, none⟩ } })
      x.tree)) ∧
  (∀ (h : Hdr) (onu port : Word) (x : OnuSlot) (s : State), s.ready h 0x0408 (s.onuRule onu.toNat) = true → s.onu onu.toNat =
      some x → s.treeBarred x.tree = false → s.unclaimed (onuBlocks x.tree [.act, .pch]) = true → port.toNat < 65535 → port.toNat ≠
      x.onuId → s.resting x.tree 2 port.toNat = false → s.holder x.tree 2 port.toNat = some onu.toNat →
    exec (.onuPortClear h onu port) s = completed h 0x0408 s (fun u => State.mirror (u.release x.tree 2 port.toNat) x.tree)) ∧
  (∀ (h : Hdr) (onu : Word) (x : OnuSlot) (s : State), s.ready h 0x0409 (s.onuRule onu.toNat) = true → s.onu onu.toNat = some
      x → s.treeBarred x.tree = false → s.claimed (dieOfTree x.tree) .act = false → s.cipher.kekErased.has onu.toNat = false →
      x.phase = .operation → x.rekey = none → x.keySwitch = none → (s.start (callerOf h 0x0409)).asyncFull = false →
    exec (.onuRekey h onu) s = completed h 0x0409 s (fun u => State.mirror ((u.modOnu onu.toNat (fun x =>
      { x with rekey := some (callerOf h 0x0409), keyFails := 0 })).askKey onu.toNat) x.tree) [] .accepted) ∧
  (∀ (h : Hdr) (onu : Word) (x : OnuSlot) (s : State), s.ready h 0x040A (s.onuRule onu.toNat) = true → onu.toNat < 16384 →
      s.onu onu.toNat = some x →
    exec (.onuStatus h onu) s = completed h 0x040A s id ([x.phase.code, x.slot, x.chan, x.eqd, x.miss, x.keySlot,
      x.migration.isSome.toNat].map (BitVec.ofNat 32))) ∧
  (∀ (h : Hdr) (tree kind value : Word) (o : Nat) (s : State), s.ready h 0x040B (.owner (dieOfTree (tree.toNat % 32))) = true
      → tree.toNat < 32 → kind.toNat < 3 → value.toNat ≤ (if kind = 0 then 1022 else if kind = 1 then 16383 else 65534) →
      s.ident tree.toNat kind.toNat value.toNat = some (.bound o) →
    exec (.onuIdQuery h tree kind value) s = completed h 0x040B s id ([1, BitVec.ofNat 32 o, 0, 0])) ∧
  (∀ (h : Hdr) (tree kind value : Word) (s : State), s.ready h 0x040B (.owner (dieOfTree (tree.toNat % 32))) = true
      → tree.toNat < 32 → kind.toNat < 3 → value.toNat ≤ (if kind = 0 then 1022 else if kind = 1 then 16383 else 65534) →
      s.ident tree.toNat kind.toNat value.toNat = none →
    exec (.onuIdQuery h tree kind value) s = completed h 0x040B s id [0, 0, 0, 0]) ∧
  (∀ (h : Hdr) (tree kind value : Word) (t : Nat) (s : State), s.ready h 0x040B (.owner (dieOfTree (tree.toNat % 32))) = true
      → tree.toNat < 32 → kind.toNat < 3 → value.toNat ≤ (if kind = 0 then 1022 else if kind = 1 then 16383 else 65534) →
      s.ident tree.toNat kind.toNat value.toNat = some (.resting t) →
    exec (.onuIdQuery h tree kind value) s = completed h 0x040B s id ([2, 0, BitVec.ofNat 32 (s.restLeft t).1, BitVec.ofNat 32
      (s.restLeft t).2])) ∧
  (∀ (h : Hdr) (chan : Word) (onus : List Word) (s : State), s.ready h 0x040C (.owner (dieOfChan (chan.toNat % 128))) = true
      → chan.toNat < 128 → onus.length ≤ 64 → onus.any (fun o => (s.onu o.toNat).isNone) = false → s.treeBarred (treeOfChan
      chan.toNat) = false → s.unclaimed (onuBlocks (treeOfChan chan.toNat) [.act, .kv]) = true → s.pon.scans.has chan.toNat = false → (s.start
      (callerOf h 0x040C)).asyncFull = false →
    exec (.onuRogueScan h chan onus) s = completed h 0x040C s (fun u => (u.scanNext chan.toNat ⟨callerOf h 0x040C, onus.map
      (·.toNat), 0, [], 0⟩).mirror (treeOfChan chan.toNat)) [] .accepted) ∧
  (∀ (h : Hdr) (tree minReach maxReach rdr lobThr regTo keyTo lostMs : Word) (s : State), s.ready h 0x030A (.owner (dieOfTree
      (tree.toNat % 32))) = true → tree.toNat < 32 → maxReach.toNat ≤ 400 → minReach.toNat ≤ maxReach.toNat → rdr.toNat < 256
      → 1 ≤ lobThr.toNat → lobThr.toNat ≤ 15 → 1 ≤ regTo.toNat → regTo.toNat ≤ 255 → 1 ≤ keyTo.toNat → keyTo.toNat ≤ 255 → 1 ≤
      lostMs.toNat → lostMs.toNat ≤ 65535 → s.treeBarred tree.toNat = false → s.claimed (dieOfTree tree.toNat) .act = false →
      s.launched tree.toNat = false → s.launchPending tree.toNat = false →
    let reachSet := fun (u : State) => ((((((u.setFld .actTreeCfgMinReach tree.toNat minReach.toNat).setFld
      .actTreeCfgMaxReach tree.toNat maxReach.toNat).setFld .actTreeCfgRdr tree.toNat rdr.toNat).setFld .actTreeCfgLobThr
      tree.toNat lobThr.toNat).setFld .actTreeTmrRegTo tree.toNat regTo.toNat).setFld .actTreeTmrKeyTo tree.toNat
      keyTo.toNat).setFld .actTreeTmrLostMs tree.toNat lostMs.toNat
    exec (.treeReachSet h tree minReach maxReach rdr lobThr regTo keyTo lostMs) s = completed h 0x030A s (fun u =>
      State.mirror (reachSet u) tree.toNat) (BitVec.ofNat 32 ((reachSet (s.start (callerOf h 0x030A))).tEq tree.toNat) :: [])) ∧
  (∀ (h : Hdr) (chan snEn snIvl profile rogueThr : Word) (s : State), s.ready h 0x030B (.owner (dieOfChan (chan.toNat %
      128))) = true → chan.toNat < 128 → snEn.toNat < 2 → 1 ≤ snIvl.toNat → snIvl.toNat ≤ 65535 → profile.toNat < 4 →
      rogueThr.toNat ≤ 8 → s.prfValid chan.toNat profile.toNat = true → s.treeBarred (treeOfChan chan.toNat) = false →
      s.claimed (dieOfChan chan.toNat) .act = false →
    exec (.treeSnSet h chan snEn snIvl profile rogueThr) s = completed h 0x030B s (fun u => ((((u.setFld .actChCfgSnEn
      chan.toNat snEn.toNat).setFld .actChCfgSnIvl chan.toNat snIvl.toNat).setFld .actChCfgSnPrf chan.toNat
      profile.toNat).setFld .actChCfgRogueThr chan.toNat rogueThr.toNat).mirror (treeOfChan chan.toNat))) ∧
  (∀ (h : Hdr) (tree : Word) (s : State), s.ready h 0x030C (.owner (dieOfTree (tree.toNat % 32))) = true → tree.toNat < 32 →
      s.treeBarred tree.toNat = false →
    exec (.treeDiscoveredRead h tree) s = completed h 0x030C s (fun u => u.mirror tree.toNat) (BitVec.ofNat 32 (s.foundList
      tree.toNat).length :: (s.foundList tree.toNat).flatMap (fun e => wordsOf 64 e.1 ++ [BitVec.ofNat 32 e.2.1, BitVec.ofNat
      32 e.2.2])))

/-- Each event of the activation engine changes the state as the spec says. R225, R224, R206, R208, R210, R204,
R212, R213, R215, R216, R220. -/
def Obligations.ActivationEventsComplete : Prop :=
  (∀ (c : Chan) (caller : Caller) (o n since : Nat) (rest : List Nat) (done : List (Nat × Nat)) (s : State), s.pon.scans.find
      c.toNat = some ⟨caller, o :: rest, n, done, since⟩ → since + 8 * frameSpan ≤ s.elapsed →
    exec (.rogueScanStep c) s = .next ((s.enableOnu o).scanNext c.toNat ⟨caller, rest, 0, done ++ [(o, n)], 0⟩)) ∧
  (∀ (c : Chan) (lit : BitVec 16) (s : State), s.pon.scans.find c.toNat = none → lit.toNat < 64 → (Tbl.getD s.pon.rogue
      c.toNat ([], false)).2 = false → s.fld .actChCfgRogueThr c.toNat = 0 →
    exec (.rogueFrameEval c lit) s = .next
      ({ s with pon := { s.pon with rogue := s.pon.rogue.put c.toNat ((false :: (Tbl.getD s.pon.rogue c.toNat ([], false)).1).take 8, false) } })) ∧
  (let hist := fun (s : State) (c : Chan) => (true :: (Tbl.getD s.pon.rogue c.toNat ([], false)).1).take 8
    ∀ (c : Chan) (lit : BitVec 16) (s : State), s.pon.scans.find c.toNat = none → 64 ≤ lit.toNat → (Tbl.getD s.pon.rogue
      c.toNat ([], false)).2 = false → 0 < s.fld .actChCfgRogueThr c.toNat → s.fld .actChCfgRogueThr c.toNat ≤ (hist s
      c).count true →
    let v := (s.count .actRogueIdle c.toNat).raise .actRogue (dieOfChan c.toNat) c.toNat
    exec (.rogueFrameEval c lit) s = .next
      ({ v with pon := { v.pon with rogue := v.pon.rogue.put c.toNat (hist s c, true) } })) ∧
  (∀ (c : Chan) (s : State), s.flag .actChCfgSnEn c.toNat = true → s.launched (treeOfChan c.toNat) = true → s.snDue c.toNat = true →
    let t := treeOfChan c.toNat
    let teq := (s.tEq t : Int) * 16
    let v := { s with pon := { s.pon with snAt := s.pon.snAt.put c.toNat s.elapsed } }
    exec (.snWindowBook c) s = .next (v.book c.toNat 2 none (windowOf (s.quanta c.toNat) (s.snQuanta c.toNat) (teq - (s.rtd
      c.toNat (s.fld .actTreeCfgMinReach t) : Int) * 16 - 560000 + 16000) ((s.rtd c.toNat (s.fld .actTreeCfgMaxReach t) : Int)
      * 16 + 560000 + (s.fld .actTreeCfgRdr t : Int) * 16000 + 16000 - teq)))) ∧
  (∀ (c : Chan) (serial : BitVec 64) (arrival : BitVec 32) (w : Window) (s : State), s.snWindow c.toNat = some w →
      s.receives c.toNat = true →
    let t := treeOfChan c.toNat
    let v := s.resetAfter c.toNat w arrival.toNat
    let x := (roundTrip (v.quanta c.toNat) w.start arrival.toNat).toNat
    v.treeBarred t = false →
    (v.idleFor (dieOfTree t) (t % 8 / 4) = false →
      exec (.snResponseRx c serial arrival true) s = .next (v.queued (dieOfTree t) (t % 8 / 4) (.snResponse c.toNat serial.toNat x w.frame))) ∧
    (v.idleFor (dieOfTree t) (t % 8 / 4) = true → (v.disabledList t).contains serial.toNat = false → v.bySerial t serial.toNat = none →
      exec (.snResponseRx c serial arrival true) s = .next (((v.count .actSnUnknown c.toNat).raise .actSnFound (dieOfTree t) c.toNat).discover t
        serial.toNat c.toNat x))) ∧
  (∀ (c : Chan) (serial : BitVec 64) (arrival : BitVec 32) (w : Window) (o : Nat) (y : OnuSlot) (s : State), s.snWindow c.toNat = some w →
      s.receives c.toNat = true →
    let t := treeOfChan c.toNat
    let u := s.resetAfter c.toNat w arrival.toNat
    u.treeBarred t = false → u.idleFor (dieOfTree t) (t % 8 / 4) = true → (u.disabledList t).contains serial.toNat = false →
      u.bySerial t serial.toNat = some o → u.onu o = some y → y.phase = .provisioned →
    let v := (u.report .actSnFound c.toNat .actSnFound (dieOfTree t) o).modOnu o (fun y =>
      { y with seen := some ((roundTrip (u.quanta c.toNat) w.start arrival.toNat).toNat, w.frame) })
    exec (.snResponseRx c serial arrival true) s = .next (if y.auto then v.assign o else v)) ∧
  (∀ (c : Chan) (serial : BitVec 64) (arrival : BitVec 32) (w : Window) (s : State), s.snWindow c.toNat = some w → s.receives c.toNat = true →
    exec (.snResponseRx c serial arrival false) s = .next ((s.resetAfter c.toNat w arrival.toNat).count .actSnGarble c.toNat)) ∧
  (∀ (onu : Onu) (arrival : BitVec 32) (x : OnuSlot) (w : Window) (s : State), s.onu onu.toNat = some x → s.rangingWindow
      onu.toNat = some w → x.phase = .ranging → s.treeBarred x.tree = false → s.receives x.chan = true →
    let rt := roundTrip (s.quanta x.chan) w.start arrival.toNat
    let u := s.resetAfter x.chan w arrival.toNat
    (u.idleFor (dieOfTree x.tree) (x.tree % 8 / 4) = false →
      exec (.rangingBurstRx onu arrival) s = .next (u.queued (dieOfTree x.tree) (x.tree % 8 / 4) (.rangingBurst onu.toNat rt))) ∧
    (∀ y : OnuSlot, u.idleFor (dieOfTree x.tree) (x.tree % 8 / 4) = true → u.onu onu.toNat = some y → y.phase = .ranging →
      let lo := (u.rtd y.chan (u.fld .actTreeCfgMinReach y.tree) : Int) * 16 - 16000
      let hi := (u.rtd y.chan (u.fld .actTreeCfgMaxReach y.tree) : Int) * 16 + 16000
      let v := u.unbook onu.toNat
      let eqd := unsignedOf 32 ((v.tEq y.tree : Int) * 16 - 560000 - rt)
      let w1 := v.offer y.chan ⟨.rangingTime, some y.onuId, [v.rangingUnits y.chan eqd]⟩
      let w2 := w1.offer y.chan ⟨.requestRegistration, some y.onuId, []⟩
      (lo ≤ rt → rt ≤ hi → exec (.rangingBurstRx onu arrival) s = .next (w2.modOnu onu.toNat (fun x =>
        { x with phase := .registering, since := w2.elapsed, eqd := eqd, miss := 0 }))) ∧
      (rt < lo ∨ hi < rt → exec (.rangingBurstRx onu arrival) s = .next (v.failOnu onu.toNat .actReachBad .actReach)))) ∧
  (∀ (onu : Onu) (x : OnuSlot) (w : Window) (s : State), s.onu onu.toNat = some x → s.rangingWindow onu.toNat = some w →
      x.phase = .ranging → s.treeBarred x.tree = false →
    exec (.rangingWindowEnd onu) s = .next (if 2 ≤ x.tries then (s.unbook onu.toNat).failOnu onu.toNat .actRngFail .actRngFail
      else ((s.unbook onu.toNat).modOnu onu.toNat (fun x => { x with tries := x.tries + 1 })).bookRanging onu.toNat)) ∧
  (∀ (onu : Onu) (regId : List Word) (x : OnuSlot) (s : State), s.onu onu.toNat = some x → x.phase = .registering →
      s.treeBarred x.tree = false →
    exec (.registrationReply onu regId) s = .next (if s.idleFor (dieOfTree x.tree) (x.tree % 8 / 4) = false then
      s.queued (dieOfTree x.tree) (x.tree % 8 / 4) (.registration onu.toNat regId) else if x.regId = none ∨ x.regId = some regId then (s.modOnu onu.toNat (fun x =>
      { x with phase := .keying, since := s.elapsed, keyFails := 0 })).askKey onu.toNat else s.failOnu onu.toNat .actRegBad .actRegBad)) ∧
  (∀ (onu : Onu) (x : OnuSlot) (s : State), s.onu onu.toNat = some x → x.phase = .registering → s.treeBarred x.tree = false →
      x.since + s.fld .actTreeTmrRegTo x.tree * frameSpan ≤ s.elapsed →
    exec (.registrationTimeout onu) s = .next (s.failOnu onu.toNat .actRegBad .actRegBad)) ∧
  (∀ (onu : Onu) (x : OnuSlot) (s : State), s.onu onu.toNat = some x → x.keyAsked = true → s.treeBarred x.tree = false →
      x.asked + s.fld .actTreeTmrKeyTo x.tree * frameSpan ≤ s.elapsed →
    exec (.keyTimeout onu) s = .next (s.keyFailed onu.toNat)) ∧
  (∀ (onu : Onu) (x : OnuSlot) (s : State), s.onu onu.toNat = some x → x.phase = .lost → s.treeBarred x.tree = false →
      x.since + msSpan (s.fld .actTreeTmrLostMs x.tree) ≤ s.elapsed →
    exec (.lostTimeout onu) s = .next (s.failOnu onu.toNat .actLostDeact .actDeact)) ∧
  (∀ (t : Tree) (kind : BitVec 2) (value : BitVec 16) (u : Nat) (s : State),
      s.ident t.toNat kind.toNat value.toNat = some (.resting u) → u ≤ s.elapsed →
    let v := s.setIdent t.toNat kind.toNat value.toNat none
    exec (.paddockRestEnd t kind value) s = .next (if kind = 2 then
      { v with pon := { v.pon with rsm := v.pon.rsm.del (t.toNat * 65536 + value.toNat) } } else v)) ∧
  (∀ (onu : Onu) (x : OnuSlot) (m : Migration) (c : Nat) (s : State), s.onu onu.toNat = some x → x.migration = some m → m.fenced =
      false → m.fence ≤ s.elapsed → m.target = some c →
    exec (.migrationFence onu) s = .next (s.modOnu onu.toNat (fun _ =>
      { x with wl := c % 4, migration := some { m with fenced := true } }))) ∧
  (∀ (onu : Onu) (x : OnuSlot) (m : Migration) (s : State), s.onu onu.toNat = some x → x.migration = some m → m.fenced =
      false → m.fence ≤ s.elapsed → m.target = none →
    exec (.migrationFence onu) s = .next (s.modOnu onu.toNat (fun _ =>
      { x with away := true, migration := some { m with fenced := true } }))) ∧
  (∀ (onu : Onu) (x : OnuSlot) (m : Migration) (s : State), s.onu onu.toNat = some x → x.migration = some m → m.fenced = true →
      s.frameElapsed x.tree m.frameK ≤ s.elapsed →
    exec (.migrationComplete onu) s = .next (s.modOnu onu.toNat (fun _ => { x with downWl := x.wl, migration := none })))

/-- The GRANT commands have their effects and answer. R163, R143, R144, R162, R155, R156, R159, R201, R200. -/
def Obligations.GrantCommandsComplete : Prop :=
  (∀ (h : Hdr) (chan enable guard admPct ploamIvl : Word) (s : State), s.ready h 0x0500 (.owner (dieOfChan (chan.toNat %
      128))) = true → chan.toNat < 128 → enable.toNat < 2 → 4 ≤ guard.toNat → guard.toNat ≤ 255 → 10 ≤ admPct.toNat →
      admPct.toNat ≤ 100 → ploamIvl.toNat ≤ 255 → s.treeBarred (treeOfChan chan.toNat) = false → s.claimed (dieOfChan
      chan.toNat) .gnt = false →
    exec (.grantChannelSet h chan enable guard admPct ploamIvl) s = completed h 0x0500 s (fun u => State.mirror ((((u.setFld
      .gntChCfgEnable chan.toNat enable.toNat).setFld .gntChCfgGuard chan.toNat guard.toNat).setFld .gntChCfgAdmPct chan.toNat
      admPct.toNat).setFld .gntChCfgPloamIvl chan.toNat ploamIvl.toNat) (treeOfChan chan.toNat))) ∧
  (∀ (h : Hdr) (tree cutoff coopEn : Word) (s : State), s.ready h 0x0501 (.owner (dieOfTree (tree.toNat % 32))) = true →
      tree.toNat < 32 → 16 ≤ cutoff.toNat → cutoff.toNat ≤ 120 → coopEn.toNat < 2 → s.treeBarred tree.toNat = false →
      s.claimed (dieOfTree tree.toNat) .gnt = false →
    exec (.grantTreeSet h tree cutoff coopEn) s = completed h 0x0501 s (fun u => State.mirror ((u.setFld .gntTreeCfgCutoff
      tree.toNat cutoff.toNat).setFld .gntTreeCfgCoopEn tree.toNat coopEn.toNat) tree.toNat)) ∧
  (∀ (h : Hdr) (onu allocId : Word) (p : AllocWords) (k : Nat) (x : OnuSlot) (s : State), s.ready h 0x0502 (s.onuRule
      onu.toNat) = true → s.onu onu.toNat = some x → s.treeBarred x.tree = false → s.unclaimed (onuBlocks x.tree [.gnt]) = true →
      allocId.toNat < 16384 → allocWordsOk p = true → s.prfValid x.chan p.profile.toNat = true → s.ident x.tree 1
      allocId.toNat = none → s.freeRec (dieOfTree x.tree) = some k → s.allocRoom x.tree = true →
    let r := s.freshTags ((newRec x.tree onu.toNat allocId.toNat p.profile.toNat).withWords p)
    s.admits k r = true →
    exec (.grantAllocSet h onu allocId p) s = completed h 0x0502 s (fun u => State.mirror ((u.setIdent x.tree 1 allocId.toNat
      (some (.bound onu.toNat))).setRec k r) x.tree) (BitVec.ofNat 32 (k % 16384) :: [])) ∧
  (∀ (h : Hdr) (onu allocId : Word) (p : AllocWords) (k : Nat) (x : OnuSlot) (s : State), s.ready h 0x0502 (s.onuRule
      onu.toNat) = true → s.onu onu.toNat = some x → s.treeBarred x.tree = false → s.unclaimed (onuBlocks x.tree [.gnt]) = true →
      allocId.toNat < 16384 → allocWordsOk p = true → s.prfValid x.chan p.profile.toNat = true → s.ident x.tree 1
      allocId.toNat = none → s.freeRec (dieOfTree x.tree) = some k →
      s.admits k (s.freshTags ((newRec x.tree onu.toNat allocId.toNat p.profile.toNat).withWords p)) = false →
    exec (.grantAllocSet h onu allocId p) s = completed h 0x0502 s id [] .noRoom) ∧
  (∀ (h : Hdr) (onu allocId : Word) (p : AllocWords) (o : Nat) (x : OnuSlot) (s : State), s.ready h 0x0502 (s.onuRule
      onu.toNat) = true → s.onu onu.toNat = some x → s.treeBarred x.tree = false → s.unclaimed (onuBlocks x.tree [.gnt]) = true →
      allocId.toNat < 16384 → allocWordsOk p = true → s.prfValid x.chan p.profile.toNat = true → s.ident x.tree 1
      allocId.toNat = some (.bound o) →
    exec (.grantAllocSet h onu allocId p) s = completed h 0x0502 s id [] .idInUse) ∧
  (∀ (h : Hdr) (onu allocId : Word) (x : OnuSlot) (s : State), s.ready h 0x0503 (s.onuRule onu.toNat) = true → s.onu
      onu.toNat = some x → s.treeBarred x.tree = false → s.unclaimed (onuBlocks x.tree [.gnt]) = true → allocId.toNat < 16384 →
      allocId.toNat ≠ x.onuId → s.resting x.tree 1 allocId.toNat = false → s.holder x.tree 1 allocId.toNat = some onu.toNat →
    exec (.grantAllocClear h onu allocId) s = completed h 0x0503 s (fun u => State.mirror (u.release x.tree 1 allocId.toNat)
      x.tree)) ∧
  (∀ (h : Hdr) (onu allocId : Word) (x : OnuSlot) (k : Nat) (r : AllocRec) (s : State), s.ready h 0x0504 (s.onuRule
      onu.toNat) = true → s.onu onu.toNat = some x → s.recOf x.tree allocId.toNat = some (k, r) → r.onu = onu.toNat →
    exec (.grantAllocGet h onu allocId) s = completed h 0x0504 s id (r.words)) ∧
  (∀ (h : Hdr) (record sHi sLo frames bytes pin : Word) (r : AllocRec) (k : Nat) (s : State), s.ready h 0x0505 (.oneOf [2, 3,
      4, 5]) = true → s.pon.allocs.find (recKey h.die.toNat record.toNat) = some r → record.toNat < 16384 → 1 ≤ frames.toNat →
      frames.toNat ≤ 65535 → sHi.toNat < 2 ^ 19 → (pin = 0xFFFF ∨ pin.toNat < s.quanta (s.recChan r)) → s.treeBarred r.tree =
      false → s.claimed (h.die.toNat) .gnt = false → s.hintPlace h.die.toNat = some k →
    exec (.grantHint h record sHi sLo frames bytes pin) s = completed h 0x0505 s (fun u => State.mirror (u.addHint r.tree k
      ⟨recKey h.die.toNat record.toNat, sHi.toNat * 2 ^ 32 + sLo.toNat, frames.toNat, bytes.toNat, 0, if pin = 0xFFFF then
      none else some pin.toNat⟩) r.tree) (BitVec.ofNat 32 k :: [])) ∧
  (∀ (h : Hdr) (handle : Word) (x : Hint) (r : AllocRec) (s : State), s.ready h 0x0506 (.owner (2 + handle.toNat / 4096)) =
      true → s.pon.hints.find handle.toNat = some x → s.pon.allocs.find x.rec_ = some r → s.treeBarred r.tree = false →
      s.claimed (dieOfTree r.tree) .gnt = false →
    exec (.grantHintCancel h handle) s = completed h 0x0506 s (fun u => State.mirror
      { u with pon := { u.pon with hints := u.pon.hints.del handle.toNat } } r.tree)) ∧
  (∀ (h : Hdr) (ports : List Word) (udp : Word) (sources : List (BitVec 128)) (pairs : List (Word × Word × Word)) (s :
      State), s.ready h 0x0507 (.oneOf [2, 3, 4, 5]) = true → ports.any (fun p => 63 < p.toNat || s.portOf p.toNat ≠ p.toNat)
      = false → udp.toNat ≤ 65535 → sources.length ≤ 16 → pairs.any (fun p => 16383 < p.2.2.toNat) = false → s.claimed
      (h.die.toNat) .gnt = false → (pairs.foldl (fun t p => Tbl.put t (p.1.toNat * 2 ^ 32 + p.2.1.toNat) (recKey h.die.toNat p.2.2.toNat)) (s.pon.cti.pairs.filter (fun p => p.2 / 16384 + 2 ≠ h.die.toNat))).length ≤ 4096 →
    exec (.grantCtiSet h ports udp sources pairs) s = completed h 0x0507 s (fun u =>
      { u with pon := { u.pon with cti := ⟨ports.map (·.toNat), udp.toNat, sources.map (·.toNat), pairs.foldl (fun t p => Tbl.put t (p.1.toNat * 2 ^ 32 + p.2.1.toNat) (recKey h.die.toNat p.2.2.toNat)) (s.pon.cti.pairs.filter (fun p => p.2 / 16384 + 2 ≠ h.die.toNat))⟩ } })) ∧
  (∀ (h : Hdr) (onu sHi sLo count : Word) (x : OnuSlot) (s : State), s.ready h 0x0508 (s.onuRule onu.toNat) = true → s.onu
      onu.toNat = some x → 1 ≤ count.toNat → count.toNat ≤ 255 → sHi.toNat < 2 ^ 19 → s.treeBarred x.tree = false → s.claimed
      (dieOfTree x.tree) .gnt = false → (s.arms x.chan).length < 8 →
    exec (.grantRssiArm h onu sHi sLo count) s = completed h 0x0508 s (fun u => State.mirror (u.addArm x ⟨onu.toNat,
      if (sHi.toNat * 2 ^ 32 + sLo.toNat) % 2 ^ 51 = 0 then none else some ((sHi.toNat * 2 ^ 32 + sLo.toNat) % 2 ^ 51),
      count.toNat⟩) x.tree)) ∧
  (∀ (h : Hdr) (chan : Word) (s : State), s.ready h 0x0509 (.owner (dieOfChan (chan.toNat % 128))) = true → chan.toNat < 128
      →
    exec (.grantMapRead h chan) s = completed h 0x0509 s id (wordsOf 64 (s.chan chan.toNat).sentMap.1 ++ BitVec.ofNat 32
      (s.chan chan.toNat).sentMap.2.length :: (s.chan chan.toNat).sentMap.2.flatMap AllocStruct.words)) ∧
  (∀ (h : Hdr) (chan : Word) (s : State), s.ready h 0x050A (.owner (dieOfChan (chan.toNat % 128))) = true → chan.toNat < 128
      →
    exec (.grantStatus h chan) s = completed h 0x050A s id ([s.reg .gntChStat chan.toNat, BitVec.ofNat 32 (s.arms
      chan.toNat).length, BitVec.ofNat 32 (s.pon.hints.filter (fun p => ((s.pon.allocs.find p.2.rec_).map (fun r => decide
      (s.recChan r = chan.toNat))).getD false)).length] ++ (grantCounters.flatMap (fun k => ctrWords (s.ctr k.1 (if k.2 then dieOfChan chan.toNat else chan.toNat))))))

/-- Each event of the grant engine changes the state as the spec says. R156, R159, R160, R146, R62, R158, R169,
R145. -/
def Obligations.GrantEventsComplete : Prop :=
  (∀ (port : Lane) (udp : BitVec 16) (source : BitVec 128) (entity flow : Word) (start : T3) (length bytes : Word) (k p :
      Nat) (r : AllocRec) (s : State), s.lineRx (s.portOf port.toNat) = true → s.pon.cti.ports.contains (s.portOf port.toNat) = true → s.pon.cti.udp = udp.toNat →
      s.pon.cti.pairs.find (entity.toNat * 2 ^ 32 + flow.toNat) = some k → s.pon.allocs.find k = some r →
      s.pon.cti.sources.contains source.toNat = true → length ≠ 0 → s.flag .gntTreeCfgCoopEn r.tree = true → s.treeBarred
      r.tree = false → s.hintPlace (k / 16384 + 2) = some p →
    exec (.ctiReportRx port udp source entity flow start length bytes true) s = .next (State.mirror (s.addHint r.tree p
      (s.ctiHint r.tree k (T3.time start) length.toNat bytes.toNat)) r.tree)) ∧
  (∀ (port : Lane) (udp : BitVec 16) (source : BitVec 128) (entity flow : Word) (start : T3) (length bytes : Word) (good :
      Bool) (s : State), s.lineRx (s.portOf port.toNat) = true → s.pon.cti.ports.contains (s.portOf port.toNat) = true → s.pon.cti.udp = udp.toNat →
      s.pon.cti.pairs.find (entity.toNat * 2 ^ 32 + flow.toNat) = none →
    exec (.ctiReportRx port udp source entity flow start length bytes good) s = .next (s.report .gntCtiBad (2 + 2 *
      (port.toNat / 32)) .gntCtiBad (2 + 2 * (port.toNat / 32)) port.toNat)) ∧
  (∀ (c : Chan) (s : State),
    let old := fun (a : RssiArm) => (a.start.map (fun n => decide (s.framesTo (treeOfChan c.toNat) ((n + 8000) % 2 ^ 51) ≤ 0))).getD false
    exec (.rssiArmExpire c) s = .next (((s.arms c.toNat).filter old).foldl (fun s a => s.report .gntRssiExpire c.toNat
      .gntRssiExpire (dieOfChan c.toNat) a.onu) (s.setArms c.toNat ((s.arms c.toNat).filter (fun a => !old a))))) ∧
  (∀ (die : BitVec 2) (index : BitVec 14) (rep : GrantReport) (r : AllocRec) (s : State), s.pon.allocs.find (recKey (2 +
      die.toNat) index.toNat) = some r → s.protected r.tree = false → s.mirrors r.tree = false → s.treeBarred r.tree = false →
    exec (.grantReportRx die index rep) s = .next (s.reportRx (recKey (2 + die.toNat) index.toNat) rep)) ∧
  (∀ (t : Tree) (n : Nat) (snap : List GChan) (s : State), s.pon.calcs.find t.toNat = some ⟨n, snap, none⟩ →
    let r := snap.foldl (fun (acc : State × List (Nat × List AllocStruct)) g => ((acc.1.mapDone n g).1, acc.2 ++ [(g.chan,
      (acc.1.mapDone n g).2)])) (s, [])
    exec (.mapComputed t) s = .next
      ({ r.1 with pon := { r.1.pon with calcs := r.1.pon.calcs.put t.toNat ⟨n, snap, some r.2⟩ } })) ∧
  (∀ (c : Chan) (burst : BitVec 10) (e : Expect) (s : State), (s.expects c.toNat)[burst.toNat]? = some e → e.rstSent = false →
      s.windowOfBurst c.toNat e = none →
    let width := step02 (s.fld .gntPinCfgRstWidth c.toNat)
    let fall := s.quantumTime c.toNat e.frame e.first - step02 (s.fld .gntPinCfgRstLead c.toNat)
    let prev := (((s.expects c.toNat).take burst.toNat).map (fun p => s.quantumTime c.toNat p.frame p.last)).foldl max e.after
    let v := s.modExpect c.toNat burst.toNat (fun e => { e with rstSent := true })
    shortReached (s.nowOn (dieOfChan c.toNat)) (shortOf (max prev fall).toNat) = true →
    exec (.brxRstPulse c burst) s = .next (if fall < prev then (v.send (.pulse .brxRstN c.toNat 0 prev.toNat width)).report
      .gntRstSqueeze c.toNat .gntRstSqueeze (dieOfChan c.toNat) c.toNat else v.send (.pulse .brxRstN c.toNat 0 fall.toNat
      width))) ∧
  (∀ (c : Chan) (burst : BitVec 10) (e : Expect) (w : Window) (s : State), (s.expects c.toNat)[burst.toNat]? = some e →
      e.rstSent = false → s.windowOfBurst c.toNat e = some w →
    let opens := (s.quantumTime c.toNat ((w.frame + 2 ^ 51 - w.j) % 2 ^ 51) 0).toNat
    shortReached (s.nowOn (dieOfChan c.toNat)) (shortOf opens) = true →
    exec (.brxRstPulse c burst) s = .next ((s.modExpect c.toNat burst.toNat (fun e => { e with rstSent := true })).send
      (.pulse .brxRstN c.toNat 0 opens (step02 (s.fld .gntPinCfgRstWidth c.toNat))))) ∧
  (∀ (c : Chan) (burst : BitVec 10) (e : Expect) (s : State), (s.expects c.toNat)[burst.toNat]? = some e → e.rssi = true →
      e.rssiSent = false → s.fld .gntPinCfgRssiWidth c.toNat ≠ 0 →
    let rise := (s.quantumTime c.toNat e.frame e.first + step02 (s.fld .gntPinCfgRssiOfs c.toNat)).toNat
    shortReached (s.nowOn (dieOfChan c.toNat)) (shortOf rise) = true →
    exec (.rssiTrigger c burst) s = .next ((s.modExpect c.toNat burst.toNat (fun e => { e with rssiSent := true })).send
      (.pulse .rssiTrg c.toNat 1 rise (step02 (s.fld .gntPinCfgRssiWidth c.toNat))))) ∧
  (∀ (p : APath) (die : BitVec 2) (data : Word) (s : State), data.getLsbD 0 = false →
    exec (.gntAlcCommit p die data) s = .next s) ∧
  (∀ (p : APath) (die : BitVec 2) (data : Word) (a : AllocRec) (x : OnuSlot) (s : State), data.getLsbD 0 = true →
    let d := 2 + die.toNat
    let k := recKey d (s.sel .alcsel d (apathCode p) % 16384)
    let fld := fun (f : Fld) => fieldOf f.lo f.w (s.alcWord p d f.reg)
    s.pon.allocs.find k = some a → fld .gntAlcCfgValid ≠ 0 → fld .gntAlcIdOnu = a.onu → fld .gntAlcIdAllocId = a.allocId →
      s.onu a.onu = some x → x.tree = a.tree → x.onuId ≠ a.allocId → dieOfTree a.tree = d → s.expertBarred p a.tree = false →
    let r := a.withWords (s.stagedAlloc p d)
    r.band = a.band → s.prfValid (s.recChan r) r.profile = true → s.admits k r = true →
    exec (.gntAlcCommit p die data) s = .next ((((s.unstage p d alcRegs).setIdent a.tree 1 a.allocId (some (.bound a.onu))).setRec
      k r).mirror a.tree)) ∧
  (∀ (p : APath) (die : BitVec 2) (data : Word) (s : State), data.getLsbD 0 = true →
    let d := 2 + die.toNat
    let fld := fun (f : Fld) => fieldOf f.lo f.w (s.alcWord p d f.reg)
    fld .gntAlcCfgValid ≠ 0 → s.onu (fld .gntAlcIdOnu) = none →
    exec (.gntAlcCommit p die data) s = .next (s.recReject d)) ∧
  (∀ (c : Chan) (index : BitVec 10) (b : BurstRx) (e : Expect) (o : Nat) (s : State), (s.expects c.toNat)[index.toNat]? =
      some e → e.onu = some o → e.window = false →
    let v := s.dropExpect c.toNat index.toNat
    let r : RxAt := ⟨c.toNat, o, e.frame, 0⟩
    v.receives c.toNat = false →
    exec (.burstRx c index b) s = .next (((v.count .brxBurstMiss c.toNat).raiseAt r .brxBurstMiss c.toNat).burstLost r e true)) ∧
  (∀ (c : Chan) (index : BitVec 10) (b : BurstRx) (e : Expect) (o : Nat) (d : Int) (n : Nat) (s : State),
      (s.expects c.toNat)[index.toNat]? = some e → e.onu = some o → e.window = false →
    let v := (s.dropExpect c.toNat index.toNat).acquisition c.toNat b.locked
    let r : RxAt := ⟨c.toNat, o, e.frame, 0⟩
    let rate := v.uiRate c.toNat e.profile
    let old := (v.tandem.accept.find o).map (fun a => a.2 * (rate : Int) / 100000)
    let w := v.countBy .brxDelimBiterr c.toNat n
    let found := acceptAt (v.fld .brxPrfCfgTol (prfInst c.toNat e.profile)) (v.winEff c.toNat e.profile) old (b.positions.map (fun p =>
        (signedOf 32 p.1.toNat, v.delimiterDiff c.toNat e.profile p.2)))
    State.receives (s.dropExpect c.toNat index.toNat) c.toNat = true →
    (found = some (d, n) → exec (.burstRx c index b) s = .next (
      if w.another o e then w.burstBody r e b d
      else if ((w.onu o).map (fun x => w.pastFence c.toNat o x (w.burstStart c.toNat e d))).getD false then w.fenceLate r e
      else (w.offsetRx r rate (v.winEff c.toNat e.profile) old d).burstBody r e b d)) ∧
    (found = none → b.locked = true → exec (.burstRx c index b) s = .next
      ((v.report .brxDelimMiss c.toNat .brxDelim (dieOfChan c.toNat) o).burstLost r e true)) ∧
    (found = none → b.locked = false → exec (.burstRx c index b) s = .next
      (((v.count .brxBurstMiss c.toNat).raiseAt r .brxBurstMiss c.toNat).burstLost r e true))) ∧
  (∀ (c : Chan) (s : State),
    exec (.rsmDeadlineCheck c) s = .next (((s.pon.rsm.filter (fun p => s.portChan p.1 = some c.toNat &&
      match p.2 with | .open_ _ d _ _ _ => reached (s.nowOn (dieOfChan c.toNat)) d | .discard => false)).foldl (fun s p => (((State.pmSdu
      { s with pon := { s.pon with rsm := s.pon.rsm.del p.1 } } (p.1 / 65536) (p.1 % 65536)).count .brxRsmTimeout (dieOfChan
      c.toNat)).raiseOnce .brxRsmTimeout (dieOfChan c.toNat) 0)) s)))

/-- The commands of burst profiles and of the burst receiver have their effects and answer. R172, R173, R174, R193,
R195, R640, R176. -/
def Obligations.BurstCommandsComplete : Prop :=
  (∀ (h : Hdr) (chan index : Word) (p : ProfileWords) (s : State), s.ready h 0x0306 (.owner (dieOfChan (chan.toNat % 128))) =
      true → chan.toNat < 128 → index.toNat < 4 → p.fec.toNat < 2 → profileOk (s.xgs chan.toNat) p.rate.toNat p.pre.toNat
      p.preLen.toNat p.dlm.toNat p.dlmLen.toNat p.tol.toNat = true → s.treeBarred (treeOfChan chan.toNat) = false → s.claimed
      (dieOfChan chan.toNat) .brx = false → s.profileFree chan.toNat index.toNat = true →
    let i := prfInst chan.toNat index.toNat
    let written := fun (u : State) => (((((((((u.setFld .brxPrfCfgRate i p.rate.toNat).setFld .brxPrfCfgFec i
      p.fec.toNat).setFlag .brxPrfCfgDlm8 i (p.dlmLen = 8)).setFld .brxPrfCfgTol i p.tol.toNat).setFld .brxPrfCfgPreLen i
      p.preLen.toNat).setFlag .brxPrfCfgValid i true).setReg .brxPrfPreHi i (p.pre.extractLsb' 32 32)).setReg .brxPrfPreLo i
      (p.pre.extractLsb' 0 32)).setReg .brxPrfDlmHi i (p.dlm.extractLsb' 32 32)).setReg .brxPrfDlmLo i (p.dlm.extractLsb' 0
      32)
    exec (.treeProfileSet h chan index p) s = completed h 0x0306 s (fun u => State.mirror (written u) (treeOfChan chan.toNat))
      (BitVec.ofNat 32 ((written (s.start (callerOf h 0x0306))).ovhQ chan.toNat index.toNat) :: [])) ∧
  (∀ (h : Hdr) (chan index : Word) (s : State), s.ready h 0x0307 (.owner (dieOfChan (chan.toNat % 128))) = true → chan.toNat
      < 128 → index.toNat < 4 →
    exec (.treeProfileGet h chan index) s = completed h 0x0307 s id ([s.prfWord chan.toNat index.toNat, s.reg .brxPrfPreHi
      (prfInst chan.toNat index.toNat), s.reg .brxPrfPreLo (prfInst chan.toNat index.toNat), s.reg .brxPrfDlmHi (prfInst
      chan.toNat index.toNat), s.reg .brxPrfDlmLo (prfInst chan.toNat index.toNat), BitVec.ofNat 32 (s.ovhQ chan.toNat
      index.toNat)])) ∧
  (∀ (h : Hdr) (chan win tol : Word) (s : State), s.ready h 0x0308 (.owner (dieOfChan (chan.toNat % 128))) = true →
      chan.toNat < 128 → 16 ≤ win.toNat → win.toNat ≤ 1023 → 1 ≤ tol.toNat → tol.toNat ≤ 255 → s.treeBarred (treeOfChan
      chan.toNat) = false → s.claimed (dieOfChan chan.toNat) .brx = false →
    exec (.treeBrxSet h [0, chan, win, tol]) s = completed h 0x0308 s (fun u => State.mirror ((u.setFld .brxChCfgWin
      chan.toNat win.toNat).setFld .brxChCfgDriftTol chan.toNat tol.toNat) (treeOfChan chan.toNat))) ∧
  (∀ (h : Hdr) (timeout : Word) (s : State), s.ready h 0x0308 (.oneOf [2, 3, 4, 5]) = true → 1 ≤ timeout.toNat →
      timeout.toNat ≤ 255 → s.claimed (h.die.toNat) .brx = false →
    exec (.treeBrxSet h [1, timeout]) s = completed h 0x0308 s (fun u => u.setFld .brxRsmCfgTimeout h.die.toNat timeout.toNat)) ∧
  (∀ (h : Hdr) (chan : Word) (s : State), s.ready h 0x0309 (.owner (dieOfChan (chan.toNat % 128))) = true → chan.toNat < 128
      →
    exec (.treeBrxStatus h chan) s = completed h 0x0309 s id (s.brxStat chan.toNat :: brxCounters.flatMap (fun k =>
      ctrWords (s.ctr k.1 (if k.2 then dieOfChan chan.toNat else chan.toNat))) ++ BitVec.ofNat 32 (s.pon.onus.filter (fun p =>
      p.2.chan = chan.toNat)).length :: (s.pon.onus.filter (fun p => p.2.chan = chan.toNat)).flatMap (fun p => [BitVec.ofNat 32
      p.1, BitVec.ofInt 32 p.2.lastOfs]))) ∧
  (∀ (p : APath) (c : Chan) (n : BitVec 2) (data : Word) (s : State),
    let i := prfInst c.toNat n.toNat
    let die := dieOfChan c.toNat
    let m := s.meet p die .brxPrfCfg i data
    let w := (legalTol (s.reg .brxPrfCfg i) m.2).1
    let f := fun x : Fld => fldOf x w
    let v := if (legalTol (s.reg .brxPrfCfg i) m.2).2 then m.1.report .sysBadEnc 0 .sysBadEnc die 0 else m.1
    let pair := fun hi lo => (v.reg hi i).toNat * 2 ^ 32 + (v.reg lo i).toNat
    let ok := profileOk (v.xgs c.toNat) (f .brxPrfCfgRate) (pair .brxPrfPreHi .brxPrfPreLo) (f .brxPrfCfgPreLen)
      (pair .brxPrfDlmHi .brxPrfDlmLo) (if f .brxPrfCfgDlm8 = 1 then 8 else 4) (f .brxPrfCfgTol)
    s.expertBarred p (treeOfChan c.toNat) = false → s.dieFused die = false → v.mayRwc p die .brx = true →
    (f .brxPrfCfgValid = 0 ∨ ok = true → v.profileFree c.toNat n.toNat = true →
      exec (.brxPrfValidWrite p c n data) s = .next (v.setReg .brxPrfCfg i w)) ∧
    (f .brxPrfCfgValid ≠ 0 → ok = false →
      exec (.brxPrfValidWrite p c n data) s = .next (v.report .brxPrfReject c.toNat .brxPrfReject die c.toNat)) ∧
    (w ≠ s.reg .brxPrfCfg i → v.profileFree c.toNat n.toNat = false →
      exec (.brxPrfValidWrite p c n data) s = .next (v.report .brxPrfReject c.toNat .brxPrfReject die c.toNat)))

/-- The RULE commands on rules and versions have their effects on each half named and answer. R285, R272, R276,
R277, R279, R280, R471. -/
def Obligations.RuleCommandsComplete : Prop :=
  (∀ (h : Hdr) (table dir mode blocks : Word) (keys : List Word) (s : State), s.ready h 0x0700 (ruleDies) = true →
      table.toNat < 16 → dir.toNat < 3 → mode.toNat < 2 → blocks.toNat ≤ 64 → keys.length = 10 → keys.all selectorOk = true →
      (∀ d ∈ halvesOf h, s.claimed d .rul = false) →
    let eff := fun (k : Nat) (u : State) => (List.range 10).foldl (fun s n => s.setReg .rulKey ((k * 16 + table.toNat) * 128 +
      n) (keys.getD n 0)) (((u.setFld .rulTblCfgDir (k * 16 + table.toNat) dir.toNat).setFld .rulTblCfgMode (k * 16 +
      table.toNat) mode.toNat).setFld .rulTblCfgBlocks (k * 16 + table.toNat) blocks.toNat)
    let fits := fun (k : Nat) (u : State) => (List.range 16).foldl (fun n j => if j = table.toNat then n else n + u.ruleBlocks
      k j) 0 + blocks.toNat ≤ 64 ∧ u.ruleUsed k table.toNat = false
    (h.die.toNat < 2 → fits h.die.toNat (s.start (callerOf h 0x0700)) → exec (.ruleTableSet h table dir mode blocks keys) s =
      completed h 0x0700 s (eff h.die.toNat)) ∧
    (h.die = 15 → fits 0 (s.start (callerOf h 0x0700)) → fits 1 (eff 0 (s.start (callerOf h 0x0700))) → exec (.ruleTableSet h
      table dir mode blocks keys) s = completed h 0x0700 s (fun u => eff 1 (eff 0 u)) [0, 0])) ∧
  (∀ (h : Hdr) (table index pri : Word) (value mask : List Word) (act : Word) (s : State), s.ready h 0x0701 (ruleDies) = true
      → table.toNat < 16 → pri.toNat < 65536 → value.length = 10 → mask.length = 10 → fldOf .rulEntActColour act ≠ 3 → act &&&
      0x803C0000 = 0 → index ≠ 0xFFFFFFFF → (∀ d ∈ halvesOf h, index.toNat < s.ruleSlots d table.toNat) → (∀ d ∈ halvesOf h,
      s.claimed d .rul = false) → State.portIdle (s.start (callerOf h 0x0701)) h accessSpan = true →
    let u0 := (s.start (callerOf h 0x0701)).wantPort (halvesOf h) accessSpan
    let eff := fun (k : Nat) (u : State) => u.putRule k (pathCode h.path) table.toNat index.toNat ⟨pri.toNat, value, mask, act
      ||| 0x80000000, 0, 0, true, true, 0, false⟩
    let fits := fun (k : Nat) (u : State) => (u.ruleEpoch k table.toNat = true → u.stagedByOther k (pathCode h.path) = false ∧
      u.rule k table.toNat index.toNat = none)
    (h.die.toNat < 2 → fits h.die.toNat u0 → exec (.ruleWrite h table index pri value mask act) s =
      completed h 0x0701 s (fun u => u.changed h accessSpan (eff h.die.toNat)) [index]) ∧
    (h.die = 15 → fits 0 u0 → fits 1 (eff 0 u0) → exec (.ruleWrite h table index pri value mask act) s =
      completed h 0x0701 s (fun u => u.changed h accessSpan (fun u => eff 1 (eff 0 u))) [0, 0, index, index])) ∧
  (∀ (h : Hdr) (table pri : Word) (value mask : List Word) (act : Word) (i : Nat) (s : State), s.ready h 0x0701 (ruleDies) =
      true → h.die.toNat < 2 → table.toNat < 16 → pri.toNat < 65536 → value.length = 10 → mask.length = 10 → fldOf
      .rulEntActColour act ≠ 3 → act &&& 0x803C0000 = 0 → s.claimed h.die.toNat .rul = false →
      State.portIdle (s.start (callerOf h 0x0701)) h accessSpan = true →
    let k := h.die.toNat
    let u0 := (s.start (callerOf h 0x0701)).wantPort (halvesOf h) accessSpan
    u0.freeRule k table.toNat (u0.ruleSlots k table.toNat) 0 = some i → u0.rule k table.toNat i = none →
      (u0.ruleEpoch k table.toNat = true → u0.stagedByOther k (pathCode h.path) = false) →
    exec (.ruleWrite h table 0xFFFFFFFF pri value mask act) s = completed h 0x0701 s (fun u => u.changed h accessSpan (fun u =>
      u.putRule k (pathCode h.path) table.toNat i ⟨pri.toNat, value, mask, act ||| 0x80000000, 0, 0, true, true, 0, false⟩))
      [BitVec.ofNat 32 i]) ∧
  (∀ (h : Hdr) (table index : Word) (s : State), s.ready h 0x0702 (ruleDies) = true → table.toNat < 16 → (∀ d ∈ halvesOf h,
      index.toNat < s.ruleSlots d table.toNat) → (∀ d ∈ halvesOf h, s.claimed d .rul = false) →
      State.portIdle (s.start (callerOf h 0x0702)) h accessSpan = true →
    let u0 := (s.start (callerOf h 0x0702)).wantPort (halvesOf h) accessSpan
    let eff := fun (k : Nat) (u : State) => u.closeRule k (pathCode h.path) table.toNat index.toNat
    let fits := fun (k : Nat) (u : State) => (u.ruleEpoch k table.toNat = true → u.stagedByOther k (pathCode h.path) = false)
    (h.die.toNat < 2 → fits h.die.toNat u0 → exec (.ruleDelete h table index) s = completed h
      0x0702 s (fun u => u.changed h accessSpan (eff h.die.toNat))) ∧
    (h.die = 15 → fits 0 u0 → fits 1 (eff 0 u0) → exec (.ruleDelete h table index) s = completed h 0x0702 s (fun u =>
      u.changed h accessSpan (fun u => eff 1 (eff 0 u))) [0, 0])) ∧
  (∀ (h : Hdr)  (s : State), s.ready h 0x0703 (ruleDies) = true → (∀ d ∈ halvesOf h, s.claimed d .rul = false) →
      State.portIdle (s.start (callerOf h 0x0703)) h 0 = true →
    let eff := fun (k : Nat) (u : State) => u.bump k
    let ws := fun (k : Nat) (u : State) => ([BitVec.ofNat 32 ((u.bump k).cur k)] : List Word)
    let fits := fun (k : Nat) (u : State) => u.stagedByOther k (pathCode h.path) = false ∧ u.commitBusy k = false
    (h.die.toNat < 2 → fits h.die.toNat (s.start (callerOf h 0x0703)) → exec (.ruleCommit h) s = completed h 0x0703 s (eff
      h.die.toNat) (ws h.die.toNat (s.start (callerOf h 0x0703)))) ∧
    (h.die = 15 → fits 0 (s.start (callerOf h 0x0703)) → fits 1 (eff 0 (s.start (callerOf h 0x0703))) → exec (.ruleCommit h) s
      = completed h 0x0703 s (fun u => eff 1 (eff 0 u)) (0 :: 0 :: (ws 0 (s.start (callerOf h 0x0703)) ++ ws 1 (eff 0 (s.start
      (callerOf h 0x0703))))))) ∧
  (∀ (h : Hdr)  (s : State), s.ready h 0x0704 (ruleDies) = true → (∀ d ∈ halvesOf h, s.claimed d .rul = false) →
      State.portIdle (s.start (callerOf h 0x0704)) h 0 = true →
    let eff := fun (k : Nat) (u : State) => u.abort k
    let fits := fun (k : Nat) (u : State) => u.stagedByOther k (pathCode h.path) = false
    (h.die.toNat < 2 → fits h.die.toNat (s.start (callerOf h 0x0704)) → exec (.ruleAbort h) s = completed h 0x0704 s (eff
      h.die.toNat)) ∧
    (h.die = 15 → fits 0 (s.start (callerOf h 0x0704)) → fits 1 (eff 0 (s.start (callerOf h 0x0704))) → exec (.ruleAbort h) s
      = completed h 0x0704 s (fun u => eff 1 (eff 0 u)) [0, 0])) ∧
  (∀ (h : Hdr) (table index : Word) (s : State), s.ready h 0x0705 (ruleDies) = true → table.toNat < 16 → (∀ d ∈ halvesOf h,
      index.toNat < s.ruleSlots d table.toNat) →
    let ws := fun (k : Nat) (u : State) =>
      (match u.rule k table.toNat index.toNat with | some e => ruleWords e | none => [0] : List Word)
    (h.die.toNat < 2 → exec (.ruleRead h table index) s = completed h 0x0705 s id (ws h.die.toNat (s.start (callerOf h
      0x0705)))) ∧
    (h.die = 15 → exec (.ruleRead h table index) s = completed h 0x0705 s id (0 :: 0 :: (ws 0 (s.start (callerOf h 0x0705)) ++
      ws 1 (s.start (callerOf h 0x0705)))))) ∧
  (∀ (h : Hdr)  (s : State), s.ready h 0x0706 (ruleDies) = true →
    let ws := fun (k : Nat) (u : State) => ([BitVec.ofNat 32 (u.cur k), BitVec.ofNat 32 (u.oldest k)] ++ listWords
      (((List.range (relVer (u.oldest k) (u.cur k) + 1)).map (fun i => (u.oldest k + i) % 16)).flatMap (fun v => [BitVec.ofNat
      32 v, BitVec.ofNat 32 ((u.fwdOf k).inflightOf v)])) ++ [BitVec.ofNat 32 ((u.fwdOf k).rules.filter (fun p =>
      (!p.2.settled && p.2.first = nextVer (u.cur k)) || (!p.2.open_ && p.2.last = u.cur k))).length, BitVec.ofNat 32
      (((u.fwdOf k).rules.filter (fun p => !p.2.settled || !p.2.open_)).length - ((u.fwdOf k).rules.filter (fun p =>
      (!p.2.settled && p.2.first = nextVer (u.cur k)) || (!p.2.open_ && p.2.last = u.cur k))).length)] : List Word)
    (h.die.toNat < 2 → exec (.ruleStatus h) s = completed h 0x0706 s id (ws h.die.toNat (s.start (callerOf h 0x0706)))) ∧
    (h.die = 15 → exec (.ruleStatus h) s = completed h 0x0706 s id (0 :: 0 :: (ws 0 (s.start (callerOf h 0x0706)) ++ ws 1
      (s.start (callerOf h 0x0706))))))

/-- The commands of the parser, of fragments and of spoof checks, and the rule engine's registers and events, have
their effects. R266, R268, R283, R286, R279, R281, R273. -/
def Obligations.RuleSettingsComplete : Prop :=
  (∀ (h : Hdr) (vxlan guess ptpUdp : Word) (s : State), s.ready h 0x0707 (ruleDies) = true → vxlan.toNat < 65536 →
      guess.toNat < 2 → ptpUdp.toNat < 2 → (∀ d ∈ halvesOf h, s.claimed d .prs = false) →
    let eff := fun (k : Nat) (u : State) => ((u.setFld .prsCfgVxlanPort k vxlan.toNat).setFld .prsCfgMplsGuess k
      guess.toNat).setFld .prsCfgPtpUdp k ptpUdp.toNat
    (h.die.toNat < 2 → exec (.ruleParseSet h vxlan guess ptpUdp) s = completed h 0x0707 s (eff h.die.toNat)) ∧
    (h.die = 15 → exec (.ruleParseSet h vxlan guess ptpUdp) s = completed h 0x0707 s (fun u => eff 1 (eff 0 u)) [0, 0])) ∧
  (∀ (h : Hdr) (typ w0 w1 w2 : Word) (s : State), s.ready h 0x0708 (ruleDies) = true → 64 ≤ typ.toNat → typ.toNat < 128 →
      hdrWordsOk w0 w1 w2 = true → (∀ d ∈ halvesOf h, s.claimed d .prs = false) →
    let eff := fun (k : Nat) (u : State) => ((u.setReg .prsHdr ((k * 128 + typ.toNat) * 128) (w0 ||| 0x80000000)).setReg
      .prsHdr ((k * 128 + typ.toNat) * 128 + 1) w1).setReg .prsHdr ((k * 128 + typ.toNat) * 128 + 2) w2
    let fits := fun (k : Nat) (u : State) => (u.fwdOf k).edges.any (fun e => e.2.en && e.2.to_ = typ.toNat) = false
    (h.die.toNat < 2 → fits h.die.toNat (s.start (callerOf h 0x0708)) → exec (.ruleHeaderSet h typ w0 w1 w2) s = completed h
      0x0708 s (eff h.die.toNat)) ∧
    (h.die = 15 → fits 0 (s.start (callerOf h 0x0708)) → fits 1 (eff 0 (s.start (callerOf h 0x0708))) → exec (.ruleHeaderSet h
      typ w0 w1 w2) s = completed h 0x0708 s (fun u => eff 1 (eff 0 u)) [0, 0])) ∧
  (∀ (h : Hdr) (edge src value mask dst enable : Word) (s : State), s.ready h 0x0709 (ruleDies) = true → edge.toNat < 256 →
      enable.toNat < 2 → value.toNat < 65536 → mask.toNat < 65536 → (halvesOf h).any (fun d => !s.typeKnown d src.toNat ||
      !s.typeKnown d dst.toNat) = false → (∀ d ∈ halvesOf h, s.claimed d .prs = false) →
    let eff := fun (k : Nat) (u : State) => u.modFwd k (fun f =>
      { f with edges := f.edges.put edge.toNat ⟨src.toNat, value.toNat, mask.toNat, dst.toNat, enable = 1⟩ })
    (h.die.toNat < 2 → exec (.ruleEdgeSet h edge src value mask dst enable) s = completed h 0x0709 s (eff h.die.toNat)) ∧
    (h.die = 15 → exec (.ruleEdgeSet h edge src value mask dst enable) s = completed h 0x0709 s (fun u => eff 1 (eff 0 u)) [0,
      0])) ∧
  (∀ (h : Hdr) (life orphan : Word) (s : State), s.ready h 0x070A (ruleDies) = true → 1 ≤ life.toNat → life.toNat ≤ 1000 →
      orphan.toNat < 3 → (∀ d ∈ halvesOf h, s.claimed d .frg = false) →
    let eff := fun (k : Nat) (u : State) => (u.setFld .frgCfgLifeMs k life.toNat).setFld .frgCfgOrphan k orphan.toNat
    (h.die.toNat < 2 → exec (.ruleFragSet h life orphan) s = completed h 0x070A s (eff h.die.toNat)) ∧
    (h.die = 15 → exec (.ruleFragSet h life orphan) s = completed h 0x070A s (fun u => eff 1 (eff 0 u)) [0, 0])) ∧
  (∀ (h : Hdr) (port mode : Word) (s : State), s.ready h 0x070B (ruleDies) = true → port.toNat < 2 ^ 21 → mode.toNat < 4 →
      (h.die.toNat < 2 → h.die.toNat = halfOfTree (port.toNat / 65536)) → (s.is064 = true → halfOfTree (port.toNat / 65536) = 0) → s.claimed (halfOfTree (port.toNat / 65536)) .prs =
      false →
    exec (.ruleSpoofSet h port mode) s = completed h 0x070B s (fun u => u.modFwd (halfOfTree (port.toNat / 65536)) (fun f =>
      { f with spoof := f.spoof.setD port.toNat 0 mode.toNat }))) ∧
  (∀ (half : BitVec 1) (c : Caller) (h : Hdr) (s : State), h.die.toNat = half.toNat → s.tableWaits = [⟨some c, [half.toNat], .ruleCommit h, none⟩] →
      s.stagedByOther half.toNat (pathCode c.path) = false → s.commitBusy half.toNat = false →
    let v := State.bump { s with tableWaits := [] } half.toNat
    exec (.commitBump half) s = .next (v.answer c .ok [BitVec.ofNat 32 (v.cur half.toNat)])) ∧
  (∀ (half : BitVec 1) (c : Caller) (h : Hdr) (s : State), h.die.toNat = half.toNat → s.tableWaits = [⟨some c, [half.toNat], .ruleCommit h, none⟩] →
      s.stagedByOther half.toNat (pathCode c.path) = false → s.commitBusy half.toNat = true →
    exec (.commitBump half) s = .next ((State.refuseCommit { s with tableWaits := [] } half.toNat).answer c .commitBusy [])) ∧
  (∀ (half : BitVec 1) (s : State), s.oldest half.toNat ≠ s.cur half.toNat → (s.fwdOf half.toNat).inflightOf (s.oldest
      half.toNat) = 0 → s.served half.toNat tblMaint = true →
    let f := s.fwdOf half.toNat
    let o := s.oldest half.toNat
    let closed := f.rules.filter (fun p => !p.2.open_ && p.2.last = o)
    let fresh := f.rules.filter (fun p => !p.2.settled && p.2.first = nextVer o)
    let tidy := (f.rules.filter (fun p => p.2.open_ || p.2.last != o)).map (fun (p : Nat × RuleEnt) =>
      (p.1, if p.2.first = nextVer o then { p.2 with settled := true } else p.2))
    let v := s.wantTime half.toNat tblMaint
    exec (.versionTidy half) s = .next (((v.setFwd half.toNat { v.fwdOf half.toNat with rules := tidy }).advanceOldest
      half.toNat 16).charge half.toNat tblMaint ((closed.length + fresh.length) * accessSpan))) ∧
  (∀ (p : APath) (half : BitVec 1) (data : Word) (s : State), data.getLsbD 0 = true →
    let u := s.wantPort [half.toNat] accessSpan
    let x := u.stagedEnt p half.toNat
    u.tableBlocked [half.toNat] accessSpan = false → x.2.1 < u.ruleSlots half.toNat x.1 →
      u.stagedByOther half.toNat (apathCode p) = false → x.2.2.act.getLsbD 31 = false →
    exec (.rulEntWr p half data) s = .next ((u.closeRule half.toNat (apathCode p) x.1 x.2.1).chargePort [half.toNat] accessSpan)) ∧
  (∀ (p : APath) (half : BitVec 1) (data : Word) (s : State), data.getLsbD 0 = true →
    let u := s.wantPort [half.toNat] accessSpan
    let x := u.stagedEnt p half.toNat
    u.tableBlocked [half.toNat] accessSpan = false → x.2.1 < u.ruleSlots half.toNat x.1 →
      u.stagedByOther half.toNat (apathCode p) = false → x.2.2.act.getLsbD 31 = true → u.rule half.toNat x.1 x.2.1 = none →
    exec (.rulEntWr p half data) s = .next ((u.putRule half.toNat (apathCode p) x.1 x.2.1 x.2.2).chargePort [half.toNat] accessSpan)) ∧
  (∀ (p : APath) (half : BitVec 1) (data : Word) (s : State), data.getLsbD 0 = true →
    let u := s.wantPort [half.toNat] accessSpan
    u.tableBlocked [half.toNat] accessSpan = true →
    exec (.rulEntWr p half data) s = .next { u with tableWaits := u.tableWaits ++ [⟨none, [half.toNat], .rulEntWr p half data, some (u.stagedEnt p half.toNat)⟩] }) ∧
  (∀ (p : APath) (half : Nat) (s : State),
    let i := copyInst half (apathCode p)
    s.stagedEnt p half = ((s.reg .rtsel i).toNat, (s.reg .ridx i).toNat, ⟨(s.reg .rulEntPri i).toNat,
      (List.range 10).map (fun n => s.reg .rulEntVal (i * 128 + n)), (List.range 10).map (fun n => s.reg .rulEntMsk (i * 128 + n)),
      s.reg .rulEntAct i, 0, 0, true, true, 0, false⟩)) ∧
  (∀ (p : APath) (half : BitVec 1) (data : Word) (s : State), s.tableBlocked [half.toNat] 0 = false →
      s.stagedByOther half.toNat (apathCode p) = false → data.getLsbD 0 = true → data.getLsbD 1 = false →
    exec (.rulCommitWrite p half data) s = .next (if s.commitBusy half.toNat then (s.count .rulCommitBusy half.toNat).latchFlag
      .rulVerBusy half.toNat else s.bump half.toNat)) ∧
  (∀ (p : APath) (half : BitVec 1) (data : Word) (s : State), s.tableBlocked [half.toNat] 0 = false →
      s.stagedByOther half.toNat (apathCode p) = false → data.getLsbD 0 = false → data.getLsbD 1 = true →
    exec (.rulAbortWrite p half data) s = .next (s.abort half.toNat)) ∧
  (∀ (half : BitVec 1) (s : State),
    exec (.fragSweep half) s = .next (s.modFwd half.toNat (fun f =>
      { f with frags := f.frags.filter (fun e => !s.fragExpired half.toNat e) })))

/-- The TABLE commands of bridging, services and routes have their effects on each half named and answer. R320,
R642, R293, R295, R297, R299, R317, R471. -/
def Obligations.TableCommandsComplete : Prop :=
  (∀ (h : Hdr) (w : BdWords) (s : State), s.ready h 0x0800 (ruleDies) = true → w.domain.toNat < 65536 → w.valid.toNat < 2 →
      w.learn.toNat < 2 → w.isolate.toNat < 2 → w.route.toNat < 2 → w.vrf.toNat < 4096 → w.rmac.toNat < 16 → w.flood.toNat <
      16384 → w.unknown.toNat < 3 → (∀ d ∈ halvesOf h, s.claimed d .br = false) →
      State.portIdle (s.start (callerOf h 0x0800)) h accessSpan = true →
    let eff := fun (k : Nat) (u : State) => u.modFwd k (fun f =>
      { f with bds := f.bds.put w.domain.toNat ⟨w.valid = 1, w.learn = 1, w.isolate = 1, w.route = 1, w.vrf.toNat, w.rmac.toNat, w.flood.toNat, w.unknown.toNat⟩ })
    (h.die.toNat < 2 → exec (.tableBdSet h w) s = completed h 0x0800 s (fun u => u.changed h accessSpan (eff h.die.toNat))) ∧
    (h.die = 15 → exec (.tableBdSet h w) s = completed h 0x0800 s (fun u => u.changed h accessSpan (fun u => eff 1 (eff 0 u))) [0, 0])) ∧
  (∀ (h : Hdr) (index : Word) (mac : BitVec 48) (s : State), s.ready h 0x0801 (ruleDies) = true → index.toNat < 16 → (∀ d ∈
      halvesOf h, s.claimed d .br = false) →
      State.portIdle (s.start (callerOf h 0x0801)) h accessSpan = true →
    let eff := fun (k : Nat) (u : State) => u.modFwd k (fun f => { f with rmacs := f.rmacs.setD index.toNat 0 mac.toNat })
    (h.die.toNat < 2 → exec (.tableRmacSet h index mac) s = completed h 0x0801 s (fun u => u.changed h accessSpan (eff h.die.toNat))) ∧
    (h.die = 15 → exec (.tableRmacSet h index mac) s = completed h 0x0801 s (fun u => u.changed h accessSpan (fun u => eff 1 (eff 0 u))) [0, 0])) ∧
  (∀ (h : Hdr) (group : Word) (dests : List Word) (s : State), s.ready h 0x0802 (ruleDies) = true → group.toNat < 16384 →
      dests.length ≤ 1024 → dests.any (fun d => !(d.toNat / 2 ^ 18 ≤ 1 && destOk (d.toNat / 2 ^ 18) (d.toNat % 2 ^ 18))) =
      false → (∀ d ∈ halvesOf h, s.claimed d .br = false) →
      State.portIdle (s.start (callerOf h 0x0802)) h accessSpan = true →
    let u0 := (s.start (callerOf h 0x0802)).wantPort (halvesOf h) accessSpan
    let eff := fun (k : Nat) (u : State) => ((u.floodPut k group.toNat (dests.map (·.toNat))).getD u)
    let fits := fun (k : Nat) (u : State) => (u.floodPut k group.toNat (dests.map (·.toNat))).isSome = true
    (h.die.toNat < 2 → fits h.die.toNat u0 → exec (.tableFloodSet h group dests) s = completed h
      0x0802 s (fun u => u.changed h accessSpan (eff h.die.toNat))) ∧
    (h.die = 15 → fits 0 u0 → fits 1 (eff 0 u0) → exec (.tableFloodSet h
      group dests) s = completed h 0x0802 s (fun u => u.changed h accessSpan (fun u => eff 1 (eff 0 u))) [0, 0])) ∧
  (∀ (h : Hdr) (w : SvcWords) (s : State), s.ready h 0x0803 (ruleDies) = true → svcKeyOk w.dir w.source w.ovid w.ivid = true
      → w.mode.toNat < 2 → (w.policer = 0xFFFFFFFF ∨ w.policer.toNat < 131072) → w.prog.toNat < 4096 → w.learn.toNat < 2 →
      w.macLimit.toNat < 1048576 → w.ret.toNat ≤ 0x3FFFD → w.upBase.toNat < 65536 → (if w.mode = 0 then destOk (w.target.toNat
      / 2 ^ 18) (w.target.toNat % 2 ^ 18) = true else w.target.toNat < 65536) → (∀ d ∈ halvesOf h, s.claimed d .svc = false) →
      State.portIdle (s.start (callerOf h 0x0803)) h accessSpan = true →
    let u0 := (s.start (callerOf h 0x0803)).wantPort (halvesOf h) accessSpan
    let eff := fun (k : Nat) (u : State) => ((u.svcPut k ⟨w.dir = 1, w.source.toNat, w.ovid.toNat, w.ivid.toNat, w.mode = 0,
      if w.mode = 0 then 0 else w.target.toNat, if w.mode = 0 then w.target.toNat / 2 ^ 18 else 0, if w.mode = 0 then
      w.target.toNat % 2 ^ 18 else 0, if decide (w.policer = 0xFFFFFFFF) then none else some w.policer.toNat, w.prog.toNat,
      w.learn = 1, w.macLimit.toNat, w.ret.toNat, w.upBase.toNat⟩).getD u)
    let fits := fun (k : Nat) (u : State) => (u.svcPut k ⟨w.dir = 1, w.source.toNat, w.ovid.toNat, w.ivid.toNat, w.mode = 0,
      if w.mode = 0 then 0 else w.target.toNat, if w.mode = 0 then w.target.toNat / 2 ^ 18 else 0, if w.mode = 0 then
      w.target.toNat % 2 ^ 18 else 0, if decide (w.policer = 0xFFFFFFFF) then none else some w.policer.toNat, w.prog.toNat,
      w.learn = 1, w.macLimit.toNat, w.ret.toNat, w.upBase.toNat⟩).isSome = true
    (h.die.toNat < 2 → fits h.die.toNat u0 → exec (.tableSvcSet h w) s = completed h 0x0803 s (fun u => u.changed h accessSpan (eff h.die.toNat))) ∧
    (h.die = 15 → fits 0 u0 → fits 1 (eff 0 u0) → exec (.tableSvcSet h
      w) s = completed h 0x0803 s (fun u => u.changed h accessSpan (fun u => eff 1 (eff 0 u))) [0, 0])) ∧
  (∀ (h : Hdr) (dir source ovid ivid : Word) (s : State), s.ready h 0x0804 (ruleDies) = true → svcKeyOk dir source ovid ivid
      = true → (∀ d ∈ halvesOf h, s.claimed d .svc = false) →
      State.portIdle (s.start (callerOf h 0x0804)) h accessSpan = true →
    let eff := fun (k : Nat) (u : State) => u.svcDel k (dir = 1) source.toNat ovid.toNat ivid.toNat
    (h.die.toNat < 2 → exec (.tableSvcClear h dir source ovid ivid) s = completed h 0x0804 s (fun u => u.changed h accessSpan (eff h.die.toNat))) ∧
    (h.die = 15 → exec (.tableSvcClear h dir source ovid ivid) s = completed h 0x0804 s (fun u => u.changed h accessSpan (fun u => eff 1 (eff 0 u))) [0, 0])) ∧
  (∀ (h : Hdr) (bd : Word) (mac : BitVec 48) (fixed kind dest : Word) (s : State), s.ready h 0x0805 (ruleDies) = true →
      bd.toNat < 65536 → fixed.toNat < 2 → destOk kind.toNat dest.toNat = true → (∀ d ∈ halvesOf h, s.claimed d .br = false) →
      State.portIdle (s.start (callerOf h 0x0805)) h accessSpan = true →
    let u0 := (s.start (callerOf h 0x0805)).wantPort (halvesOf h) accessSpan
    let eff := fun (k : Nat) (u : State) => ((u.macPut k ⟨fixed = 1, false, kind.toNat, u.tickNow k, 0, 0, dest.toNat, none,
      bd.toNat, mac.toNat⟩).getD u)
    let fits := fun (k : Nat) (u : State) => (u.macPut k ⟨fixed = 1, false, kind.toNat, u.tickNow k, 0, 0, dest.toNat, none,
      bd.toNat, mac.toNat⟩).isSome = true
    (h.die.toNat < 2 → fits h.die.toNat u0 → exec (.tableMacAdd h bd mac fixed kind dest) s =
      completed h 0x0805 s (fun u => u.changed h accessSpan (eff h.die.toNat))) ∧
    (h.die = 15 → fits 0 u0 → fits 1 (eff 0 u0) → exec (.tableMacAdd h
      bd mac fixed kind dest) s = completed h 0x0805 s (fun u => u.changed h accessSpan (fun u => eff 1 (eff 0 u))) [0, 0])) ∧
  (∀ (h : Hdr) (bd : Word) (mac : BitVec 48) (s : State), s.ready h 0x0806 (ruleDies) = true → bd.toNat < 65536 → (∀ d ∈
      halvesOf h, s.claimed d .br = false) →
      State.portIdle (s.start (callerOf h 0x0806)) h accessSpan = true →
    let u0 := (s.start (callerOf h 0x0806)).wantPort (halvesOf h) accessSpan
    let eff := fun (k : Nat) (u : State) =>
      match u.brFind k bd.toNat mac.toNat with | some p => u.setBr k p.1 none | none => u
    let ws := fun (k : Nat) (u : State) => ([if (u.brFind k bd.toNat mac.toNat).isSome then 1 else 0] : List Word)
    (h.die.toNat < 2 → exec (.tableMacDel h bd mac) s = completed h 0x0806 s (fun u => u.changed h accessSpan (eff h.die.toNat)) (ws h.die.toNat u0)) ∧
    (h.die = 15 → exec (.tableMacDel h bd mac) s = completed h 0x0806 s (fun u => u.changed h accessSpan (fun u => eff 1 (eff 0 u))) (0 :: 0 :: (ws 0 u0 ++ ws 1 (eff 0 u0))))) ∧
  (∀ (h : Hdr) (bd : Word) (mac : BitVec 48) (s : State), s.ready h 0x0807 (ruleDies) = true → bd.toNat < 65536 →
    let ws := fun (k : Nat) (u : State) =>
      (match u.brFind k bd.toNat mac.toNat with | some p => [1, BitVec.ofNat 32 p.1] ++ wordsOf 128 p.2.bits | none => [0] : List Word)
    (h.die.toNat < 2 → exec (.tableMacRead h bd mac) s = completed h 0x0807 s id (ws h.die.toNat (s.start (callerOf h
      0x0807)))) ∧
    (h.die = 15 → exec (.tableMacRead h bd mac) s = completed h 0x0807 s id (0 :: 0 :: (ws 0 (s.start (callerOf h 0x0807)) ++
      ws 1 (s.start (callerOf h 0x0807)))))) ∧
  (∀ (h : Hdr) (bd dest : Word) (s : State), s.ready h 0x0808 (ruleDies) = true → (bd = 0xFFFFFFFF ∨ bd.toNat < 65536) →
      (dest = 0xFFFFFFFF ∨ destOk (dest.toNat / 2 ^ 18) (dest.toNat % 2 ^ 18) = true) → (∀ d ∈ halvesOf h, s.claimed d .br =
      false) → (s.start (callerOf h 0x0808)).asyncFull = false →
    let asked := fun (w : Word) => if w = 0xFFFFFFFF then none else some w.toNat
    exec (.tableMacFlush h bd dest) s = completed h 0x0808 s (fun u => (halvesOf h).foldl (fun u k => u.setFwd k
      { u.fwdOf k with flush := (u.fwdOf k).flush ++ [⟨callerOf h 0x0808, decide (2 ≤ h.die.toNat), asked bd, asked dest, 0, 0, none⟩] })
      u) [] .accepted) ∧
  (∀ (h : Hdr) (vrf : Word) (pre : List Word) (len nh : Word) (s : State), s.ready h 0x0809 (ruleDies) = true → prefixOk vrf
      pre len = true → nh.toNat < 262144 → (∀ d ∈ halvesOf h, s.claimed d .lpm = false) →
      State.portIdle (s.start (callerOf h 0x0809)) h routeSpan = true →
    let u0 := (s.start (callerOf h 0x0809)).wantPort (halvesOf h) routeSpan
    let eff := fun (k : Nat) (u : State) => ((u.routePut k ⟨pre.length = 4, vrf.toNat, prefixBits (pre.length = 4) len.toNat
      (wordsNat pre), len.toNat, nh.toNat⟩).getD u)
    let fits := fun (k : Nat) (u : State) => (u.routePut k ⟨pre.length = 4, vrf.toNat, prefixBits (pre.length = 4) len.toNat
      (wordsNat pre), len.toNat, nh.toNat⟩).isSome = true
    (h.die.toNat < 2 → fits h.die.toNat u0 → exec (.tableRouteSet h vrf pre len nh) s = completed h
      0x0809 s (fun u => u.changed h routeSpan (eff h.die.toNat))) ∧
    (h.die = 15 → fits 0 u0 → fits 1 (eff 0 u0) → exec (.tableRouteSet h
      vrf pre len nh) s = completed h 0x0809 s (fun u => u.changed h routeSpan (fun u => eff 1 (eff 0 u))) [0, 0])) ∧
  (∀ (h : Hdr) (vrf : Word) (pre : List Word) (len : Word) (s : State), s.ready h 0x080A (ruleDies) = true → prefixOk vrf pre
      len = true → (∀ d ∈ halvesOf h, s.claimed d .lpm = false) →
      State.portIdle (s.start (callerOf h 0x080A)) h routeSpan = true →
    let eff := fun (k : Nat) (u : State) => u.modFwd k (fun f =>
      { f with routes := f.routes.filter (fun q => !q.same ⟨pre.length = 4, vrf.toNat, prefixBits (pre.length = 4) len.toNat (wordsNat pre), len.toNat, 0⟩) })
    (h.die.toNat < 2 → exec (.tableRouteClear h vrf pre len) s = completed h 0x080A s (fun u => u.changed h routeSpan (eff h.die.toNat))) ∧
    (h.die = 15 → exec (.tableRouteClear h vrf pre len) s = completed h 0x080A s (fun u => u.changed h routeSpan (fun u => eff 1 (eff 0 u))) [0, 0])) ∧
  (∀ (h : Hdr) (index : Word) (w : NhWords) (s : State), s.ready h 0x080B (ruleDies) = true → index.toNat < 262144 → nhOk
      w.kind.toNat w.dest.toNat = true → w.smac.toNat < 16 → w.prog.toNat < 4096 → w.domain.toNat < 65536 → w.strip.toNat <
      256 → (∀ d ∈ halvesOf h, s.claimed d .br = false) →
      State.portIdle (s.start (callerOf h 0x080B)) h accessSpan = true →
    let eff := fun (k : Nat) (u : State) => u.modFwd k (fun f =>
      { f with nhs := f.nhs.put index.toNat ⟨w.kind.toNat, w.dest.toNat, w.dmac.toNat, w.smac.toNat, w.prog.toNat, w.domain.toNat, w.strip.toNat⟩ })
    (h.die.toNat < 2 → exec (.tableNhSet h index w) s = completed h 0x080B s (fun u => u.changed h accessSpan (eff h.die.toNat))) ∧
    (h.die = 15 → exec (.tableNhSet h index w) s = completed h 0x080B s (fun u => u.changed h accessSpan (fun u => eff 1 (eff 0 u))) [0, 0]))

/-- The remaining TABLE commands, and the events and registers of the bridge tables, have their effects. R320, R321,
R312, R317, R341, R348, R349, R294. -/
def Obligations.TableServiceCommandsComplete : Prop :=
  (∀ (h : Hdr) (onu port kind : Word) (addr : List Word) (s : State), s.ready h 0x080C (ruleDies) = true → bindOk onu port
      kind addr = true → (∀ d ∈ halvesOf h, s.claimed d .prs = false) →
      State.portIdle (s.start (callerOf h 0x080C)) h accessSpan = true →
    let u0 := (s.start (callerOf h 0x080C)).wantPort (halvesOf h) accessSpan
    let eff := fun (k : Nat) (u : State) => ((u.bindPut k ⟨onu.toNat, port.toNat, kind.toNat, wordsNat addr⟩).getD u)
    let fits := fun (k : Nat) (u : State) => (u.bindPut k ⟨onu.toNat, port.toNat, kind.toNat, wordsNat addr⟩).isSome = true
    (h.die.toNat < 2 → fits h.die.toNat u0 → exec (.tableBindSet h onu port kind addr) s =
      completed h 0x080C s (fun u => u.changed h accessSpan (eff h.die.toNat))) ∧
    (h.die = 15 → fits 0 u0 → fits 1 (eff 0 u0) → exec (.tableBindSet h
      onu port kind addr) s = completed h 0x080C s (fun u => u.changed h accessSpan (fun u => eff 1 (eff 0 u))) [0, 0])) ∧
  (∀ (h : Hdr) (onu port kind : Word) (addr : List Word) (s : State), s.ready h 0x080D (ruleDies) = true → bindOk onu port
      kind addr = true → (∀ d ∈ halvesOf h, s.claimed d .prs = false) →
      State.portIdle (s.start (callerOf h 0x080D)) h accessSpan = true →
    let eff := fun (k : Nat) (u : State) => u.modFwd k (fun f =>
      { f with binds := f.binds.filter (fun q => decide (q ≠ ⟨onu.toNat, port.toNat, kind.toNat, wordsNat addr⟩)) })
    (h.die.toNat < 2 → exec (.tableBindClear h onu port kind addr) s = completed h 0x080D s (fun u => u.changed h accessSpan (eff h.die.toNat))) ∧
    (h.die = 15 → exec (.tableBindClear h onu port kind addr) s = completed h 0x080D s (fun u => u.changed h accessSpan (fun u => eff 1 (eff 0 u))) [0, 0])) ∧
  (∀ (h : Hdr) (lrn age : Word) (s : State), s.ready h 0x080E (ruleDies) = true → wordLegal .lrnCfg lrn = true → wordLegal
      .brAgeCfg age = true → (∀ d ∈ halvesOf h, s.claimed d .lrn = false) →
    let eff := fun (k : Nat) (u : State) => (u.setReg .lrnCfg k lrn).setReg .brAgeCfg k age
    (h.die.toNat < 2 → exec (.tableLearnSet h lrn age) s = completed h 0x080E s (eff h.die.toNat)) ∧
    (h.die = 15 → exec (.tableLearnSet h lrn age) s = completed h 0x080E s (fun u => eff 1 (eff 0 u)) [0, 0])) ∧
  (∀ (h : Hdr)  (s : State), s.ready h 0x080F (ruleDies) = true →
    let ws := fun (k : Nat) (u : State) => ([BitVec.ofNat 32 ((u.fwdOf k).bridge.filter (fun p => p.1 < overflowBase)).length,
      BitVec.ofNat 32 ((u.fwdOf k).bds.filter (fun p => p.2.valid)).length, BitVec.ofNat 32 (u.fwdOf k).rmacs.length,
      BitVec.ofNat 32 (sumOn (u.fwdOf k).floods (fun p => p.2.length)), BitVec.ofNat 32 (u.fwdOf k).svcs.length, BitVec.ofNat
      32 (sumOn (u.fwdOf k).routes Route.units), BitVec.ofNat 32 (u.fwdOf k).nhs.length, BitVec.ofNat 32 (sumOn (u.fwdOf
      k).binds Binding.units), BitVec.ofNat 32 ((u.fwdOf k).bridge.filter (fun p => overflowBase ≤ p.1)).length, BitVec.ofNat
      32 (u.fwdOf k).lrnQ.length, BitVec.ofNat 32 ((u.fwdOf k).scan.getD 0)] ++ [Ctr.svcMiss, .lpmMiss, .lpmTtl, .brIsolate,
      .brFlood, .brInsFail, .lrnNew, .lrnMove, .lrnMoveFrozen, .lrnStaticViol, .lrnFreeze, .lrnLimit, .lrnMerge, .lrnQDrop,
      .brRefreshDrop, .brAged, .brScanLate, .brMemCorr, .brMemErr, .brCfgReject].flatMap (fun c => ctrWords (u.ctr c k)) :
      List Word)
    (h.die.toNat < 2 → exec (.tableStatus h) s = completed h 0x080F s id (ws h.die.toNat (s.start (callerOf h 0x080F)))) ∧
    (h.die = 15 → exec (.tableStatus h) s = completed h 0x080F s id (0 :: 0 :: (ws 0 (s.start (callerOf h 0x080F)) ++ ws 1
      (s.start (callerOf h 0x080F)))))) ∧
  (∀ (h : Hdr) (prog : Word) (ops : List Word) (s : State), s.ready h 0x0810 (ruleDies) = true → 1 ≤ prog.toNat → prog.toNat
      < 4096 → ops.length ≤ 8 → ops.all editWordOk = true → (∀ d ∈ halvesOf h, s.claimed d .edt = false) →
    let eff := fun (k : Nat) (u : State) => u.setProg k prog.toNat ops
    (h.die.toNat < 2 → exec (.tableEditSet h prog ops) s = completed h 0x0810 s (eff h.die.toNat)) ∧
    (h.die = 15 → exec (.tableEditSet h prog ops) s = completed h 0x0810 s (fun u => eff 1 (eff 0 u)) [0, 0])) ∧
  (∀ (h : Hdr) (table : Word) (entries : List Word) (s : State), s.ready h 0x0811 (ruleDies) = true → table.toNat < 16 →
      entries.length = 48 → entries.any (fun e => 8191 < e.toNat) = false → (∀ d ∈ halvesOf h, s.claimed d .edt = false) →
    let eff := fun (k : Nat) (u : State) => u.setStore k
      { u.storeOf k with remark := (List.range 48).foldl (fun r i => r.setD (table.toNat * 64 + i / 3 * 4 + i % 3) (0, 0, 0) (fieldOf 0 6 (entries.getD i 0), fieldOf 6 4 (entries.getD i 0), fieldOf 10 3 (entries.getD i 0))) (u.storeOf k).remark }
    (h.die.toNat < 2 → exec (.tableRemarkSet h table entries) s = completed h 0x0811 s (eff h.die.toNat)) ∧
    (h.die = 15 → exec (.tableRemarkSet h table entries) s = completed h 0x0811 s (fun u => eff 1 (eff 0 u)) [0, 0])) ∧
  (∀ (h : Hdr) (which : Word) (s : State), s.ready h 0x0812 (ruleDies) = true → (which.getLsbD 31 = true → which.toNat % 2 ^
      31 < 16) → (which.getLsbD 31 = false → which.toNat % 2 ^ 31 < 4096) →
    let ws := fun (k : Nat) (u : State) => (if which.getLsbD 31 then (List.range 48).map (fun i => BitVec.ofNat 32 ((u.remark
      k (which.toNat % 2 ^ 31) (i / 3) (i % 3)).1 + (u.remark k (which.toNat % 2 ^ 31) (i / 3) (i % 3)).2.1 * 64 + (u.remark k
      (which.toNat % 2 ^ 31) (i / 3) (i % 3)).2.2 * 1024)) else listWords (Tbl.getD (u.storeOf k).progs (which.toNat % 2 ^ 31)
      []) : List Word)
    (h.die.toNat < 2 → exec (.tableEditRead h which) s = completed h 0x0812 s id (ws h.die.toNat (s.start (callerOf h
      0x0812)))) ∧
    (h.die = 15 → exec (.tableEditRead h which) s = completed h 0x0812 s id (0 :: 0 :: (ws 0 (s.start (callerOf h 0x0812)) ++
      ws 1 (s.start (callerOf h 0x0812)))))) ∧
  (∀ (half : BitVec 1) (w : FlushWalk) (rest : List FlushWalk) (s : State), (s.fwdOf half.toNat).flush = w :: rest →
    let u := s.wantPort [half.toNat] accessSpan
    u.hostPortFree half.toNat = true →
    let n := ceilDiv (u.rationSpan half.toNat tblHost ((scanEnd - w.pos) * accessSpan)) accessSpan
    let f := u.fwdOf half.toNat
    let kept := f.bridge.filter (fun p => !(w.pos ≤ accessOf p.1 && accessOf p.1 < w.pos + n && (!p.2.static_ && w.bd.all (fun b => b == p.2.bd) &&
      w.dest.all (fun x => x == p.2.dkind * 2 ^ 18 + p.2.dest))))
    let w' := { w with pos := w.pos + n, deleted := w.deleted + (f.bridge.length - kept.length) }
    let v := (u.setFwd half.toNat { f with bridge := kept }).chargePort [half.toNat] (n * accessSpan)
    (w.pos + n < scanEnd → exec (.macFlushDone half) s = .next (v.setFwd half.toNat { v.fwdOf half.toNat with flush := w' :: rest })) ∧
    (scanEnd ≤ w.pos + n →
      let e := v.setFwd half.toNat { v.fwdOf half.toNat with flush := (v.fwdOf half.toNat).flush.tail }
      (w.both = false → exec (.macFlushDone half) s = .next (e.answer w.caller .ok [BitVec.ofNat 32 w'.deleted])) ∧
      (∀ other, w.both = true → w.partner = some other → exec (.macFlushDone half) s = .next (e.answer w.caller .ok
        ([0, 0] ++ (if half = 0 then [BitVec.ofNat 32 w'.deleted, BitVec.ofNat 32 other] else [BitVec.ofNat 32 other, BitVec.ofNat 32 w'.deleted])))) ∧
      (w.both = true → w.partner = none → exec (.macFlushDone half) s = .next (e.setFwd (1 - half.toNat) { e.fwdOf (1 - half.toNat) with
        flush := (e.fwdOf (1 - half.toNat)).flush.map (fun x => if x.caller = w.caller then { x with partner := some w'.deleted } else x) })))) ∧
  (∀ (p : APath) (half : BitVec 1) (data : Word) (s : State), data.getLsbD 31 = true →
      s.flag .brAccStatBusy (copyInst half.toNat (apathCode p)) = false →
    let m := s.meet p half.toNat .brAccCtl (copyInst half.toNat (apathCode p)) data
    let v := (m.1.setReg .brAccCtl (copyInst half.toNat (apathCode p)) m.2).wantPort [half.toNat] accessSpan
    v.tableBlocked [half.toNat] accessSpan = false →
    exec (.brAccGo p half data) s = .next (v.accRun p half.toNat m.2)) ∧
  (∀ (p : APath) (half : BitVec 1) (data : Word) (s : State), data.getLsbD 31 = true →
      s.flag .brAccStatBusy (copyInst half.toNat (apathCode p)) = true →
    exec (.brAccGo p half data) s = .next (s.brReject half.toNat)) ∧
  (∀ (p : APath) (half : BitVec 1) (data : Word) (s : State), data.getLsbD 0 = true → (s.reg .epsel (copyInst half.toNat
      (apathCode p))).toNat ≠ 0 →
    exec (.edtCommit p half data) s = .next (s.setProg half.toNat (s.reg .epsel (copyInst half.toNat (apathCode p))).toNat
      ((List.range 8).map (fun k => s.reg .edtOp (copyInst half.toNat (apathCode p) * 128 + k)))))

/-- Each event of learning, ageing and re-seating changes the bridge table as the spec says, its access charged to the ration it is
under. R305, R307, R310, R313, R314, R315, R316, R28. -/
def Obligations.LearningEventsComplete : Prop :=
  (∀ (half : BitVec 1) (e : LrnEv) (rest : List LrnEv) (s : State), (s.fwdOf half.toNat).lrnQ = e :: rest → s.served
      half.toNat tblLearn = true →
    let v := s.wantTime half.toNat tblLearn
    exec (.learnEvent half) s = .next (State.landWrites (((v.setFwd half.toNat { v.fwdOf half.toNat with lrnQ := rest }).learn
      half.toNat e).charge half.toNat tblLearn accessSpan))) ∧
  (∀ (half : BitVec 1) (bd mac : Nat) (rest : List (Nat × Nat)) (i : Nat) (x : BrEnt) (s : State),
    let u := s.landWrites
    let v := u.wantTime half.toNat tblMaint
    let w := v.setFwd half.toNat { v.fwdOf half.toNat with refreshQ := rest }
    (u.fwdOf half.toNat).refreshQ = (bd, mac) :: rest → u.maintWaits half.toNat = false → u.served half.toNat tblMaint = true →
      w.brFind half.toNat bd mac = some (i, x) →
    exec (.refreshRequest half) s = .next ((w.setBr half.toNat i (some { x with stamp := w.tickNow half.toNat })).charge
      half.toNat tblMaint accessSpan)) ∧
  (∀ (half : BitVec 1) (s : State),
    let due := (s.fwdOf half.toNat).tickAt + msSpan (100 * s.fld .brAgeCfgTick half.toNat)
    due ≤ s.elapsed →
    exec (.ageingTick half) s = .next (((s.modFwd half.toNat (fun f => { f with tickAt := due })).setFld .lrnStatTickNow half.toNat
      ((s.tickNow half.toNat + 1) % 1024)).modFwd half.toNat (fun f =>
      match f.scan with | none => { f with seen := [], scan := some 0 } | some _ => { f with seen := [], late := f.late + 1 }))) ∧
  (∀ (half : BitVec 1) (n : Nat) (s : State),
    let u := s.landWrites
    (u.fwdOf half.toNat).scan = some n → u.maintWaits half.toNat = false → (u.fwdOf half.toNat).refreshQ = [] →
      u.served half.toNat tblMaint = true →
    let places := if n < 1048576 then (List.range 4).map (4 * n + ·) else (List.range 16).map (overflowBase + 16 * (n -
      1048576) + ·)
    exec (.ageingScanVisit half) s = .next (((places.foldl (fun s i => s.visit half.toNat i) (u.wantTime half.toNat tblMaint)).modFwd
      half.toNat (fun f => { f with scan := if n + 1 < scanEnd then some (n + 1) else none })).charge half.toNat tblMaint
      accessSpan)) ∧
  (∀ (half : BitVec 1) (s : State), (s.fwdOf half.toNat).late ≠ 0 →
    exec (.scanLate half) s = .next ((s.setFwd half.toNat
      { s.fwdOf half.toNat with late := (s.fwdOf half.toNat).late - 1 }).report .brScanLate half.toNat .brScanLate half.toNat
      0)) ∧
  (∀ (half : BitVec 1) (slot : Nat) (x : BrEnt) (w : Nat) (s : State),
    let u := s.landWrites
    u.nextSlot half.toNat = some slot → u.maintWaits half.toNat = false → (u.fwdOf half.toNat).refreshQ = [] →
      (u.fwdOf half.toNat).scan = none → u.served half.toNat tblMaint = true → u.br half.toNat (overflowBase + slot) = some x →
      u.brFree half.toNat 4 (4 * u.bucket half.toNat x.bd x.mac) = some w →
    exec (.reseatVisit half) s = .next (((((u.wantTime half.toNat tblMaint).modFwd half.toNat (fun f =>
      { f with reseat := (slot + 1) % 4096 })).setBr half.toNat w (some x)).setBr half.toNat (overflowBase + slot) none).charge
      half.toNat tblMaint (3 * accessSpan)))

/-- The QUEUE commands of profiles, pools and queues have their effects and answer. R351, R329, R330, R335, R338,
R352, R353. -/
def Obligations.QueueCommandsComplete : Prop :=
  (∀ (h : Hdr) (prf mn mx ag ay ar dpy dpr : Word) (s : State), s.ready h 0x0900 (.oneOf [0, 1]) = true → profileNumbersOk
      prf.toNat mn.toNat mx.toNat ag.toNat ay.toNat ar.toNat dpy.toNat dpr.toNat = true → s.claimed h.die.toNat .qm = false →
    exec (.queueProfileSet h prf mn mx ag ay ar dpy dpr) s = completed h 0x0900 s (fun u => (u.setReg .qmPrfCells (h.die.toNat
      * 64 + prf.toNat) (BitVec.ofNat 32 (mx.toNat * 65536 + mn.toNat))).setReg .qmPrfDt (h.die.toNat * 64 + prf.toNat)
      (BitVec.ofNat 32 (ag.toNat * 2 ^ 24 + ay.toNat * 2 ^ 16 + ar.toNat * 2 ^ 8 + dpy.toNat * 16 + dpr.toNat)))) ∧
  (∀ (h : Hdr) (queue prf deepEn deepMax : Word) (k q : Nat) (s : State), s.ready h 0x0901
      (match (queueOf s queue).bind s.queueHalf with | some half => .owner half | none => .oneOf [0, 1]) = true → queueOf s
      queue = some q → s.commandHalf h q = some k → prf.toNat < 64 → deepEn.toNat < 2 → deepMax.toNat < 4194304 → s.claimed k
      .qm = false →
    exec (.queueAdmitSet h queue prf deepEn deepMax) s = completed h 0x0901 s (fun u => u.setReg .qmQCfg (queueInst k q)
      (BitVec.ofNat 32 (prf.toNat * 2 ^ 26 + deepEn.toNat * 2 ^ 25 + deepMax.toNat)))) ∧
  (∀ (h : Hdr) (ing rsm host : Word) (s : State), s.ready h 0x0902 (.oneOf [0, 1]) = true → 1 ≤ ing.toNat → ing.toNat ≤ 1023
      → 1 ≤ rsm.toNat → rsm.toNat ≤ 1023 → 1 ≤ host.toNat → host.toNat ≤ 1023 → 64 * (ing.toNat + rsm.toNat + host.toNat) +
      s.minSum h.die.toNat ≤ 524288 → s.claimed h.die.toNat .cst = false →
    exec (.queuePoolSet h ing rsm host) s = completed h 0x0902 s (fun u => u.setReg .cstPoolCfg h.die.toNat (BitVec.ofNat 32
      (rsm.toNat * 2 ^ 22 + ing.toNat * 2 ^ 12 + host.toNat * 4)))) ∧
  (∀ (h : Hdr) (spill ret : Word) (s : State), s.ready h 0x0903 (.oneOf [0, 1]) = true → 64 ≤ spill.toNat → spill.toNat ≤
      65535 → 1 ≤ ret.toNat → ret.toNat < spill.toNat → s.claimed h.die.toNat .dst = false →
    exec (.queueDeepSet h spill ret) s = completed h 0x0903 s (fun u => (u.setReg .dstCfg h.die.toNat (BitVec.ofNat 32
      (spill.toNat * 65536 + ret.toNat))).settleAll h.die.toNat)) ∧
  (∀ (h : Hdr) (queue : Word) (k q : Nat) (s : State), s.ready h 0x0904
      (match (queueOf s queue).bind s.queueHalf with | some half => .owner half | none => .oneOf [0, 1]) = true → queueOf s
      queue = some q → s.commandHalf h q = some k → (s.start (callerOf h 0x0904)).asyncFull = false → s.claimed k .qm = false
      →
    exec (.queueFlush h queue) s = completed h 0x0904 s (fun u => u.modStore k (fun st =>
      { st with flushes := st.flushes ++ [(q, callerOf h 0x0904)] })) [] .accepted) ∧
  (∀ (half : BitVec 1) (q : Nat) (c : Caller) (rest : List (Nat × Caller)) (s : State), (s.storeOf half.toNat).flushes = (q,
      c) :: rest →
    let v := s.modStore half.toNat (fun st => { st with flushes := rest })
    exec (.queueFlushDone half) s = .next ((((v.setQueue half.toNat q
      { v.queue half.toNat q with frames := [], headCells := 0, pages := [], tail := 0, deep := false, holding := false, stalled := false }).count
      .qmFlush half.toNat).syncHalf half.toNat).answer c .ok [])) ∧
  (∀ (h : Hdr) (queue : Word) (k q : Nat) (s : State), s.ready h 0x0905
      (match (queueOf s queue).bind s.queueHalf with | some half => .owner half | none => .oneOf [0, 1]) = true → queueOf s
      queue = some q → s.commandHalf h q = some k →
    exec (.queueDepth h queue) s = completed h 0x0905 s id ([(s.queue k q).held, (s.queue k q).pages.length, (s.queue k
      q).deep.toNat, (s.queue k q).drops.1, (s.queue k q).drops.2.1, (s.queue k q).drops.2.2].map (BitVec.ofNat 32))) ∧
  (∀ (h : Hdr)  (s : State), s.ready h 0x0906 (.oneOf [0, 1]) = true →
    exec (.queueStoreStatus h) s = completed h 0x0906 s id ([BitVec.ofNat 32 (s.ingPool h.die.toNat - s.ingUsed h.die.toNat),
      BitVec.ofNat 32 (s.rsmPool h.die.toNat - s.rsmUsed h.die.toNat), BitVec.ofNat 32 (s.hostPool h.die.toNat - s.hostUsed
      h.die.toNat), BitVec.ofNat 32 (s.freeShared h.die.toNat), BitVec.ofNat 32 (s.pagesFree h.die.toNat 0), BitVec.ofNat 32
      (s.pagesFree h.die.toNat 1)] ++ storeCounters.flatMap (fun c => ctrWords (s.ctr c h.die.toNat))))

/-- The QUEUE commands of the schedulers and policers have their effects and answer. R370, R371, R372, R375, R383,
R365, R384. -/
def Obligations.SchedulerCommandsComplete : Prop :=
  (∀ (h : Hdr) (w : NodeWords) (s : State), s.ready h 0x0907 (.oneOf [0, 1]) = true → s.nodeOk h.die.toNat w.dir.toNat
      w.level.toNat w.index.toNat = true → w.enable.toNat < 2 → w.band.toNat < 8 → 1 ≤ w.weight.toNat → w.weight.toNat ≤ 65535
      → ratesOk w.cir w.pir w.cbs w.pbs = true → (hostParent w.dir.toNat w.level.toNat = true → s.parentFits h.die.toNat
      (ndNum w.dir.toNat w.level.toNat w.index.toNat) w.parent.toNat = true) → (w.level = 1 → w.cir = 0 ∧ w.pir = 0) → (w.enable = 0 → s.hasChildren h.die.toNat
      (ndNum w.dir.toNat w.level.toNat w.index.toNat) = false) → s.claimed h.die.toNat .sch = false →
    let num := ndNum w.dir.toNat w.level.toNat w.index.toNat
    let i := nodeInst h.die.toNat num
    let cfg := fun (u : State) => (((u.refillNode h.die.toNat num).setFld .schNdCfgEnable i w.enable.toNat).setFld
      .schNdCfgBand i w.band.toNat).setFld .schNdCfgWeight i w.weight.toNat
    let par := fun (u : State) => if hostParent w.dir.toNat w.level.toNat then u.setFld .schNdParParent i w.parent.toNat else
      u
    let bursts := fun (u : State) => (u.setFld .schNdCbsBurst i w.cbs.toNat).setFld .schNdPbsBurst i w.pbs.toNat
    let rates := fun (u : State) => if w.level = 1 then u else (u.setFld .schNdCirRate i w.cir.toNat).setFld .schNdPirRate i
      w.pir.toNat
    let fill := fun (u : State) => if w.enable = 1 ∧ (u.node h.die.toNat num).buckets.isNone then u.setNode h.die.toNat num
      { u.node h.die.toNat num with buckets := some (u.ndBuckets h.die.toNat num) } else u
    exec (.queueNodeSet h w) s = completed h 0x0907 s (fun u => ((fill (rates (bursts (par (cfg u))))).rewrittenNode
      h.die.toNat num).syncHalf h.die.toNat)) ∧
  (∀ (h : Hdr) (dir level index : Word) (s : State), s.ready h 0x0908 (.oneOf [0, 1]) = true → s.nodeOk h.die.toNat dir.toNat
      level.toNat index.toNat = true →
    exec (.queueNodeGet h dir level index) s = completed h 0x0908 s id ([s.reg .schNdCfg (nodeInst h.die.toNat (ndNum
      dir.toNat level.toNat index.toNat)), BitVec.ofNat 32 (s.ndParent h.die.toNat (ndNum dir.toNat level.toNat index.toNat)),
      BitVec.ofNat 32 (s.ndRates h.die.toNat (ndNum dir.toNat level.toNat index.toNat)).1, BitVec.ofNat 32 (s.ndRates
      h.die.toNat (ndNum dir.toNat level.toNat index.toNat)).2.1, s.reg .schNdCbs (nodeInst h.die.toNat (ndNum dir.toNat
      level.toNat index.toNat)), s.reg .schNdPbs (nodeInst h.die.toNat (ndNum dir.toNat level.toNat index.toNat))] ++ wordsOf
      64 (unsignedOf 64 (s.ndBuckets h.die.toNat (ndNum dir.toNat level.toNat index.toNat)).1.bal) ++ wordsOf 64 (unsignedOf
      64 (s.ndBuckets h.die.toNat (ndNum dir.toNat level.toNat index.toNat)).2.bal) ++ [(s.start (callerOf h 0x0908)).ndStat
      h.die.toNat (ndNum dir.toNat level.toNat index.toNat)])) ∧
  (∀ (h : Hdr) (queue : Word) (w : AttachWords) (k q : Nat) (s : State), s.ready h 0x0909
      (match (queueOf s queue).bind s.queueHalf with | some half => .owner half | none => .oneOf [0, 1]) = true → queueOf s
      queue = some q → s.commandHalf h q = some k → w.band.toNat < 8 → 1 ≤ w.weight.toNat → w.weight.toNat ≤ 65535 →
      w.gate.toNat < 8 → ratesOk w.cir w.pir w.cbs w.pbs = true → s.attachOk k q w.parent.toNat = true → ((s.queue k
      q).attached = false → s.attachedCount k (qIsUp q) < (if qIsUp q then 65536 else 131072)) → s.claimed k .sch = false →
    let i := queueInst k q
    let num := queueNode q
    let cfg := fun (u : State) => (u.refillNode k num).setReg .schQCfg i (BitVec.ofNat 32 (2 ^ 31 + w.band.toNat * 2 ^ 28 +
      w.gate.toNat * 2 ^ 25 + w.weight.toNat))
    let rates := fun (u : State) => ((((u.setFld .schQParParent i w.parent.toNat).setFld .schQCirRate i w.cir.toNat).setFld
      .schQPirRate i w.pir.toNat).setFld .schQCbsBurst i w.cbs.toNat).setFld .schQPbsBurst i w.pbs.toNat
    let attached := fun (u : State) => u.setQueue k q { u.queue k q with attached := true }
    let fill := fun (u : State) => if (u.node k num).buckets.isNone then u.setNode k num
      { u.node k num with buckets := some (u.ndBuckets k num) } else u
    exec (.queueAttach h queue w) s = completed h 0x0909 s (fun u => ((fill (attached (rates (cfg u)))).rewrittenNode k
      (queueNode q)).syncHalf k)) ∧
  (∀ (h : Hdr) (queue : Word) (k q : Nat) (s : State), s.ready h 0x090A
      (match (queueOf s queue).bind s.queueHalf with | some half => .owner half | none => .oneOf [0, 1]) = true → queueOf s
      queue = some q → s.commandHalf h q = some k → (s.queue k q).depth = 0 → (s.queue k q).frames.isEmpty = true → s.claimed
      k .sch = false →
    let detached := fun (u : State) => (u.setQueue k q { s.queue k q with attached := false }).setFlag .schQCfgEnable
      (queueInst k q) false
    exec (.queueDetach h queue) s = completed h 0x090A s (fun u => (detached u).setNode k (queueNode q)
      { (detached u).node k (queueNode q) with active := false })) ∧
  (∀ (h : Hdr) (egress ovh : Word) (k g : Nat) (s : State), s.ready h 0x090B (.owner k) = true → s.controller egress = some
      (k, g) → -64 ≤ signedOf 32 ovh.toNat → signedOf 32 ovh.toNat ≤ 255 → s.claimed k .sch = false →
    exec (.queueOvhSet h egress ovh) s = completed h 0x090B s (fun u => u.setFld .schNdCfgOvh (nodeInst k (egressRoot k g))
      (unsignedOf 9 (signedOf 32 ovh.toNat)))) ∧
  (∀ (h : Hdr) (policer : Word) (w : PolicerWords) (s : State), s.ready h 0x090C (.oneOf [0, 1]) = true → policer.toNat <
      131072 → w.valid.toNat < 2 → w.typ.toNat < 3 → w.aware.toNat < 2 → w.deiIn.toNat < 2 → w.cf.toNat < 2 → w.redAct.toNat <
      2 → rateOk w.cir = true → rateOk w.eir = true → burstOk w.cbs = true → (burstOk w.ebs = true ∨ w.ebs = 0) → s.claimed
      h.die.toNat .plc = false →
    let i := plcInst h.die.toNat policer.toNat
    let plcWritten := fun (u : State) => ((((u.setReg .plcCfg i (BitVec.ofNat 32 (w.valid.toNat * 2 ^ 31 + w.typ.toNat * 2 ^
      29 + w.aware.toNat * 2 ^ 28 + w.cf.toNat * 2 ^ 27 + w.redAct.toNat * 2 ^ 26 + w.deiIn.toNat * 2 ^ 25))).setFld
      .plcCirRate i w.cir.toNat).setFld .plcEirRate i w.eir.toNat).setFld .plcCbsBurst i w.cbs.toNat).setFld .plcEbsBurst i
      w.ebs.toNat
    exec (.queuePolicerSet h policer w) s = completed h 0x090C s (fun u => if w.valid = 1 ∨ (State.policer (plcWritten u)
      h.die.toNat policer.toNat).memErr then (plcWritten u).rewrittenPolicer h.die.toNat policer.toNat else plcWritten u)) ∧
  (∀ (h : Hdr) (policer : Word) (s : State), s.ready h 0x090D (.oneOf [0, 1]) = true → policer.toNat < 131072 →
    exec (.queuePolicerRead h policer) s = completed h 0x090D s id (wordsOf 64 (unsignedOf 64 (s.policer h.die.toNat
      policer.toNat).c.bal) ++ wordsOf 64 (unsignedOf 64 (s.policer h.die.toNat policer.toNat).e.bal) ++ (List.range
      6).flatMap (fun j => ctrWords (Tbl.getD (s.policer h.die.toNat policer.toNat).counts j 0)))) ∧
  (∀ (h : Hdr)  (s : State), s.ready h 0x090E (.oneOf [0, 1]) = true →
    exec (.queueSchedStatus h) s = completed h 0x090E s id ((List.range 32).flatMap (fun p => ctrWords (s.ctr .schRelShort
      (h.die.toNat * 128 + p))) ++ schedCounters.flatMap (fun c => ctrWords (s.ctr c h.die.toNat))))

/-- The GATE commands have their effects and answer. R390, R387, R394, R396, R397, R401, R405, R406. -/
def Obligations.GateCommandsComplete : Prop :=
  (∀ (h : Hdr) (ctl gate gmax guard : Word) (k g : Nat) (s : State), s.ready h 0x0A00 (.owner k) = true → s.controller ctl =
      some (k, g) → gate.toNat ≤ 7 → 60 ≤ gmax.toNat → gmax.toNat ≤ 12288 → guard.toNat ≤ 262143 → s.claimed k .gt = false →
    exec (.gateGateSet h ctl gate gmax guard) s = completed h 0x0A00 s (fun u => u.setReg .gtGateCfg ((k * 128 + g) * 128 +
      gate.toNat) (BitVec.ofNat 32 (guard.toNat * 2 ^ 14 + gmax.toNat)))) ∧
  (∀ (h : Hdr) (ctl first : Word) (entries : List (Word × Word)) (k g : Nat) (s : State), s.ready h 0x0A01 (.owner k) = true
      → s.controller ctl = some (k, g) → entries.length ≤ 508 → first.toNat + entries.length ≤ 1024 → entries.all entryOk =
      true → (s.storeOf k).armed.has g = false → s.claimed k .gt = false →
    let stage := fun (u : State) (j : Nat) => (u.setReg .gtEntInt (entryInst k g (first.toNat + j)) (entries.getD j (0,
      0)).1).setReg .gtEntGates (entryInst k g (first.toNat + j)) (entries.getD j (0, 0)).2
    exec (.gateEntriesWrite h ctl first entries) s = completed h 0x0A01 s (fun u => (List.range entries.length).foldl stage u)) ∧
  (∀ (h : Hdr) (ctl : Word) (base : T3) (cycle count : Word) (k g : Nat) (s : State), s.ready h 0x0A02 (.owner k) = true →
      s.controller ctl = some (k, g) → t3Ok base = true → 1000 ≤ cycle.toNat → cycle.toNat ≤ 1000000000 → 1 ≤ count.toNat →
      count.toNat ≤ 1024 → (s.storeOf k).armed.has g = false → s.claimed k .gt = false →
    let start := startOf (s.nowOn k) (T3.time base) cycle.toNat
    exec (.gateListStart h ctl base cycle count) s = completed h 0x0A02 s (fun u => ((u.stageList k g (T3.time base)
      cycle.toNat).armAt k g start.1 cycle.toNat count.toNat).noteAdvance k g start.2) (timeWords start.1) (if start.2 then
      .advanced else .ok)) ∧
  (∀ (h : Hdr) (ctl : Word) (l : GateList) (k g : Nat) (s : State), s.ready h 0x0A03 (.owner k) = true → s.controller ctl =
      some (k, g) → (s.storeOf k).armed.find g = some l → reached (s.nowOn k) l.start = false → s.claimed k .gt = false →
    exec (.gateListCancel h ctl) s = completed h 0x0A03 s (fun u => (u.modStore k (fun st =>
      { st with armed := st.armed.del g })).setFlag .gtListCtlArm (k * 128 + g) false)) ∧
  (∀ (h : Hdr) (ctl : Word) (base : T3) (k g : Nat) (s : State), s.ready h 0x0A04 (.owner k) = true → s.controller ctl = some
      (k, g) → t3Ok base = true → (s.storeOf k).armed.has g = false → s.claimed k .gt = false →
    let start := startOf (s.nowOn k) (T3.time base) 1000000000
    let opened := fun (u : State) => (u.setReg .gtEntInt (entryInst k g 0) 1000000000).setReg .gtEntGates (entryInst k g 0)
      0xFF
    exec (.gateDisable h ctl base) s = completed h 0x0A04 s (fun u => (((opened u).stageList k g (T3.time base)
      1000000000).armAt k g start.1 1000000000 1).noteAdvance k g start.2) (timeWords start.1) (if start.2 then .advanced else
      .ok)) ∧
  (∀ (h : Hdr) (ctl : Word) (k g : Nat) (s : State), s.ready h 0x0A05 (.owner k) = true → s.controller ctl = some (k, g) →
    let i := k * 128 + g
    exec (.gateStatus h ctl) s = completed h 0x0A05 s id ([s.gtStat k g, s.reg .gtStartSecHi i, s.reg .gtStartSecLo i, s.reg
      .gtStartNs i, BitVec.ofNat 32 ((((s.storeOf k).gates.find g).map (·.cycle)).getD 0), BitVec.ofNat 32 ((s.storeOf
      k).armed.has g).toNat] ++ [Ctr.gtOversize, .gtStartAdv, .gtOverrun, .gtHoldLate, .gtCfgReject, .gtMemCorr,
      .gtMemErr].flatMap (fun c => ctrWords (s.ctr c i)))) ∧
  (∀ (p : APath) (half : BitVec 1) (ctl : BitVec 7) (data : Word) (s : State), ctl.toNat < 96 → s.gateless half.toNat ctl.toNat = false → s.mayRwc p half.toNat .gt =
      true → data.getLsbD 16 = false → data.getLsbD 31 = true → 1 ≤ fldOf .gtListCtlCount data → fldOf .gtListCtlCount data ≤
      1024 → (s.storeOf half.toNat).armed.has ctl.toNat = false →
    let k := half.toNat
    let g := ctl.toNat
    let start := startOf (s.nowOn k) (s.stagedBase k g) (s.reg .gtCycle (k * 128 + g)).toNat
    exec (.gtListArm p half ctl data) s = .next ((s.armAt k g start.1 (s.reg .gtCycle (k * 128 + g)).toNat (fldOf
      .gtListCtlCount data)).noteAdvance k g start.2)) ∧
  (∀ (p : APath) (half : BitVec 1) (ctl : BitVec 7) (data : Word) (l : GateList) (s : State), ctl.toNat < 96 → s.gateless half.toNat ctl.toNat = false → s.mayRwc p
      half.toNat .gt = true → data.getLsbD 16 = false → data.getLsbD 31 = false → 1 ≤ fldOf .gtListCtlCount data → fldOf
      .gtListCtlCount data ≤ 1024 → (s.storeOf half.toNat).armed.find ctl.toNat = some l → reached (s.nowOn half.toNat) l.start = false →
    let k := half.toNat
    let g := ctl.toNat
    exec (.gtListCancel p half ctl data) s = .next (((s.modStore k (fun st => { st with armed := st.armed.del g })).setFlag
      .gtListCtlArm (k * 128 + g) false).setFld .gtListCtlCount (k * 128 + g) (fldOf .gtListCtlCount data)))

/-- Heads over the bridge, waiting copies, deep pages and the schedulers' events have their effects. R328, R318,
R333, R335, R336, R338, R395, R67, R388, R364. -/
def Obligations.StoreEventsComplete : Prop :=
  (∀ (half : BitVec 1) (qs : List Nat) (m : Meta) (rest : List (List Nat × Meta)) (e : LrnEv) (s : State), (s.storeOf
      half.toNat).bridge = (qs, m) :: rest → m.learn = some e →
      s.bridgeCut = false → s.decisionsLeft half.toNat ≠ 0 →
    exec (.bridgeHeadRx half) s = .next (((s.setStore half.toNat { s.storeOf half.toNat with bridge := rest }).admitAll
      half.toNat qs m.group.isSome { m with learn := none }).learnArrival half.toNat e)) ∧
  (∀ (half : BitVec 1) (q : Nat) (m : Meta) (rest : List (Nat × Meta)) (s : State), (s.storeOf half.toNat).repl = (q, m) ::
      rest → s.decisionsLeft half.toNat ≠ 0 →
    exec (.replicationCopy half) s = .next ((s.setStore half.toNat { s.storeOf half.toNat with repl := rest }).offerTo
      half.toNat q m)) ∧
  (∀ (half : BitVec 1) (queue : BitVec 26) (p : Nat) (s : State),
    let x := s.queue half.toNat queue.toNat
    let v := (s.wantTime half.toNat (deepRation 0)).wantTime half.toNat (deepRation 1)
    x.deep = true → 16 ≤ x.tail → v.rationWaits half.toNat (deepRation x.stack) = false → v.freePage half.toNat x.stack = some p →
    exec (.deepPageWrite half queue) s = .next ((v.setQueue half.toNat queue.toNat
      { x with pages := x.pages ++ [(x.stack * 2 ^ 22 + p, 16)], tail := x.tail - 16, stack := 1 - x.stack, holding := x.holding && decide (16 ≤ x.tail - 16), heldPages := min x.heldPages ((x.tail - 16) / 16) }).charge
      half.toNat (deepRation x.stack) pageSpan)) ∧
  (∀ (half : BitVec 1) (queue : BitVec 26) (ecc : BitVec 2) (p live : Nat) (rest : List (Nat × Nat)) (s : State),
    let x := s.queue half.toNat queue.toNat
    let v := (s.wantTime half.toNat (deepRation (p / 2 ^ 22))).charge half.toNat (deepRation (p / 2 ^ 22)) pageSpan
    x.pages = (p, live) :: rest → x.headCells < 32 → s.served half.toNat (deepRation (p / 2 ^ 22)) = true → ecc.toNat < 2 →
    exec (.deepPageRead half queue ecc) s = .next (((if ecc = 1 then v.count .dstEccCorr half.toNat else v).setQueue
      half.toNat queue.toNat { x with pages := rest, headCells := x.headCells + live, stalled := false }).settle half.toNat
      queue.toNat)) ∧
  (∀ (half : BitVec 1) (queue : BitVec 26) (ecc : BitVec 2) (p live : Nat) (rest : List (Nat × Nat)) (s : State),
    let x := s.queue half.toNat queue.toNat
    let v := (s.wantTime half.toNat (deepRation (p / 2 ^ 22))).charge half.toNat (deepRation (p / 2 ^ 22)) pageSpan
    let y := x.without (fun a b _ => decide (0 < overlap a b x.headCells (x.headCells + live)))
    x.pages = (p, live) :: rest → x.headCells < 32 → s.served half.toNat (deepRation (p / 2 ^ 22)) = true → 2 ≤ ecc.toNat →
    exec (.deepPageRead half queue ecc) s = .next ((((((v.setQueue half.toNat queue.toNat
      { y.1 with stalled := false }).countBy .dstEccDrop half.toNat y.2).raise .dstEcc half.toNat (p / 2 ^ 22)).retirePage
      half.toNat (p / 2 ^ 22) (p % 2 ^ 22)).settle half.toNat queue.toNat))) ∧
  (∀ (half : BitVec 1) (ctl : BitVec 7) (l : GateList) (s : State), (s.storeOf half.toNat).armed.find ctl.toNat = some l →
      reached (s.nowOn half.toNat) l.start = true →
    let k := half.toNat
    let g := ctl.toNat
    let v := (s.setStore k
      { s.storeOf k with gates := (s.storeOf k).gates.put g l, armed := (s.storeOf k).armed.del g }).swapBuffers k g
    exec (.gateListStartAt half ctl) s = .next ((v.setFlag .gtListCtlArm (k * 128 + g) false).syncEgress k g)) ∧
  (∀ (half : BitVec 1) (ctl : BitVec 7) (s : State), ctl.toNat < 96 →
    exec (.gateEntry half ctl) s = .next (s.syncEgress half.toNat ctl.toNat)) ∧
  (∀ (half : BitVec 1) (ctl : BitVec 7) (idle : BitVec 32) (s : State), ctl.toNat < 96 →
    exec (.schedulerRelease half ctl idle) s = .next ((s.countBy .schRelShort (half.toNat * 128 + ctl.toNat)
      idle.toNat).release1 half.toNat ctl.toNat)) ∧
  (∀ (port : Lane) (x : HeldFrame) (rest : List HeldFrame) (s : State), Tbl.getD s.lanes.held port.toNat [] = x :: rest →
      reached (s.nowOn (dieOfLane port.toNat)) x.departure = true →
    exec (.departureInstant port false) s = .next ((s.unhold port.toNat).depart port.toNat x x.departure)) ∧
  (∀ (port : Lane) (x : HeldFrame) (rest : List HeldFrame) (s : State), Tbl.getD s.lanes.held port.toNat [] = x :: rest →
      reached (s.nowOn (dieOfLane port.toNat)) x.departure = true → x.origin = true →
    exec (.departureInstant port true) s = .next ((s.unhold port.toNat).report .tsiLateDrop port.toNat .tsiLate
      (dieOfLane port.toNat) port.toNat)) ∧
  (∀ (port : Lane) (x : HeldFrame) (rest : List HeldFrame) (s : State), Tbl.getD s.lanes.held port.toNat [] = x :: rest →
    (s.unhold port.toNat).lanes = { s.lanes with held := s.lanes.held.setD port.toNat [] rest })

/-- The SKEIN commands of members and of joining have their effects and answer. R237, R240, R238, R239, R259. -/
def Obligations.SkeinCommandsComplete : Prop :=
  (∀ (h : Hdr) (tree k members skewMax holdKib : Word) (s : State), s.ready h 0x0600 (.owner (dieOfTree (tree.toNat % 32))) =
      true → tree.toNat ≤ 31 → k.toNat ≤ 1 → members.toNat ≤ 15 → 2 ≤ ((List.range 4).filter (fun w => members.toNat.testBit
      w)).length → 1 ≤ skewMax.toNat → skewMax.toNat ≤ 250 → 1 ≤ holdKib.toNat → holdKib.toNat ≤ 65535 → (((List.range
      4).filter (fun w => members.toNat.testBit w)).map (· + 4 * tree.toNat)).any (fun c => s.xgs c ≠ s.xgs ((((List.range
      4).filter (fun w => members.toNat.testBit w)).map (· + 4 * tree.toNat)).headD 0)) = false → (((List.range 4).filter (fun
      w => members.toNat.testBit w)).map (· + 4 * tree.toNat)).any (fun c => (s.skeinOf c).isSome) = false → s.treeBarred
      tree.toNat = false → s.claimed (dieOfTree tree.toNat) .skn = false → s.hasSegment (halfOfTree tree.toNat) 1 = true →
      s.flag .sknCfgValid (2 * tree.toNat + k.toNat) = false → (s.onusOf tree.toNat).any (fun p => (((List.range 4).filter
      (fun w => members.toNat.testBit w)).map (· + 4 * tree.toNat)).contains p.2.chan) = false →
    let n := 2 * tree.toNat + k.toNat
    exec (.skeinForm h tree k members skewMax holdKib) s = completed h 0x0600 s (fun u => ((((u.setFld .sknCfgMembers n
      members.toNat).setFld .sknCfgSkewMax n skewMax.toNat).setFld .sknCfgHoldKib n holdKib.toNat).setFlag .sknCfgValid n
      true).mirror tree.toNat) ([BitVec.ofNat 32 n])) ∧
  (∀ (h : Hdr) (skein : Word) (s : State), s.ready h 0x0601 (.owner (skeinDie skein.toNat)) = true → skein.toNat ≤ 63 →
      s.flag .sknCfgValid skein.toNat = true → s.treeBarred (skein.toNat / 2) = false → s.claimed (skeinDie skein.toNat) .skn
      = false → s.skeinJoined skein.toNat = false →
    exec (.skeinDissolve h skein) s = completed h 0x0601 s (fun u => State.mirror
      ((({ u with memberDown := u.memberDown.filter (fun p => decide (p.1 / 4 ≠ skein.toNat)) }.setFlag .sknCfgValid
      skein.toNat false).setFld .sknCfgMembers skein.toNat 0)) (skein.toNat / 2))) ∧
  (∀ (h : Hdr) (onu skein : Word) (x : OnuSlot) (s : State), s.ready h 0x0602 (s.onuRule onu.toNat) = true → s.onu onu.toNat
      = some x → s.treeBarred x.tree = false → s.unclaimed (onuBlocks x.tree [.act, .skn]) = true → skein.toNat ≤ 63 → s.flag
      .sknCfgValid skein.toNat = true → (s.skeinChans skein.toNat).contains x.chan = true → x.phase = .operation → x.migration
      = none → s.skeinOnus.has onu.toNat = false → s.launched x.tree = true → (s.start (callerOf h 0x0602)).asyncFull = false
      →
    let rt := (s.tEq x.tree : Int) * 16 - 560000 - x.eqd
    let booked := fun (u : State) => ((s.skeinChans skein.toNat).filter (fun c => c ≠ x.chan && s.memberUp c)).foldl (fun v c => v.bookMember onu.toNat c rt) u
    exec (.skeinOnuJoin h onu skein) s = completed h 0x0602 s (fun u => State.mirror
      ({ booked u with skeinOnus := (booked u).skeinOnus.put onu.toNat ⟨skein.toNat, x.wl, [(x.wl, x.eqd)], 0, none, [], some (callerOf h 0x0602), []⟩ })
      x.tree) [] .accepted) ∧
  (∀ (h : Hdr) (onu : Word) (j : SkeinOnu) (x : OnuSlot) (s : State), s.ready h 0x0603 (s.onuRule onu.toNat) = true → s.onu
      onu.toNat = some x → s.treeBarred x.tree = false → s.unclaimed (onuBlocks x.tree [.act, .skn, .gnt]) = true → s.skeinOnus.find
      onu.toNat = some j → j.joining = none →
    exec (.skeinOnuLeave h onu) s = completed h 0x0603 s (fun u => State.mirror (u.skeinLeave onu.toNat j) x.tree)) ∧
  (∀ (h : Hdr) (onu allocId member : Word) (j : SkeinOnu) (k : Nat) (r : AllocRec) (x : OnuSlot) (s : State), s.ready h
      0x0604 (s.onuRule onu.toNat) = true → s.onu onu.toNat = some x → s.treeBarred x.tree = false → s.unclaimed (onuBlocks x.tree [.act, .skn, .gnt]) = true → s.skeinOnus.find onu.toNat = some j → s.recOf x.tree allocId.toNat = some (k, r) → r.onu =
      onu.toNat → j.members.any (fun m => m.1 = member.toNat) = true → s.prfValid (4 * x.tree + member.toNat) r.profile = true
      → s.admits k { r with moveTo := some member.toNat } = true →
    exec (.skeinAllocMember h onu allocId member) s = completed h 0x0604 s (fun u => State.mirror (u.modRec k (fun r =>
      { r with moveTo := some member.toNat })) x.tree)) ∧
  (∀ (h : Hdr) (skein : Word) (s : State), s.ready h 0x0605 (.owner (skeinDie skein.toNat)) = true → skein.toNat ≤ 63 →
    let k := skein.toNat
    exec (.skeinStatus h skein) s = completed h 0x0605 s id ([s.reg .sknCfg k, BitVec.ofNat 32 (sumOn (List.range 4) (fun w =>
      if s.memberDown.has (4 * k + w) then 2 ^ w else 0))] ++ listWords ((s.skeinOnus.filter (fun p => p.2.skein = k)).map
      (fun p => BitVec.ofNat 32 p.1)) ++ [BitVec.ofNat 32 (s.skeinHeldBytes k true + s.skeinHeldBytes k false)] ++
      [Ctr.sknRngFail, .sknLate, .sknGap, .sknHoldFull, .sknFragSplit, .sknMemberDown, .sknTagBad].flatMap (fun c => ctrWords
      (s.ctr c k)))) ∧
  (∀ (onu : Onu) (arrivals : List (BitVec 2 × BitVec 32)) (x : OnuSlot) (j : SkeinOnu) (c : Caller) (s : State), s.onu
      onu.toNat = some x → s.skeinOnus.find onu.toNat = some j → j.joining = some c → (s.skeinChans j.skein).filter (fun d =>
      d ≠ 4 * x.tree + j.anchor) = [] →
    let ms : List (Nat × Nat) := sortOn Prod.fst j.members
    exec (.skeinJoinDone onu arrivals) s = .next
      ({ s with skeinOnus := s.skeinOnus.put onu.toNat { j with members := ms, joining := none } }.answer c .ok (ms.flatMap
      (fun (m : Nat × Nat) => [BitVec.ofNat 32 m.1, BitVec.ofNat 32 m.2])))) ∧
  (∀ (onu : Onu) (arrivals : List (BitVec 2 × BitVec 32)) (x : OnuSlot) (j : SkeinOnu) (c : Caller) (d : Nat) (w : Window)
      (a : BitVec 2 × BitVec 32) (s : State), s.onu onu.toNat = some x → s.skeinOnus.find onu.toNat = some j → j.joining = some
      c → (s.skeinChans j.skein).filter (fun d => d ≠ 4 * x.tree + j.anchor) = [d] → (s.windows d).find? (fun w => w.ranging =
      some onu.toNat) = some w → arrivals.find? (fun a => a.1.toNat = d % 4) = some a →
    let rt := roundTrip (s.quanta d) w.start a.2.toNat
    let eqd := unsignedOf 32 ((s.tEq x.tree : Int) * 16 - 560000 - rt)
    let fits := s.withinReach d rt
    let ms : List (Nat × Nat) := sortOn Prod.fst (if fits then j.members ++ [(d % 4, eqd)] else j.members)
    let u := s.setWindows d ((s.windows d).filter (fun w => w.ranging ≠ some onu.toNat))
    let v := if fits then u.sendEqd d x.onuId eqd else u.report .sknRngFail j.skein .sknRngFail (dieOfTree x.tree) onu.toNat
    exec (.skeinJoinDone onu arrivals) s = .next
      ({ v with skeinOnus := v.skeinOnus.put onu.toNat { j with members := ms, joining := none } }.answer c .ok (ms.flatMap
      (fun (m : Nat × Nat) => [BitVec.ofNat 32 m.1, BitVec.ofNat 32 m.2])))) ∧
  (∀ (onu : Onu) (x : OnuSlot) (j : SkeinOnu) (c : Caller) (d : Nat) (s : State), s.onu onu.toNat = some x → s.skeinOnus.find
      onu.toNat = some j → j.joining = some c → (s.skeinChans j.skein).filter (fun d => d ≠ 4 * x.tree + j.anchor) = [d] →
      (s.windows d).any (fun w => w.ranging = some onu.toNat && !s.windowOver d w) = false →
    let ms : List (Nat × Nat) := sortOn Prod.fst j.members
    let v := State.report (s.setWindows d ((s.windows d).filter (fun w => w.ranging ≠ some onu.toNat))) .sknRngFail j.skein
      .sknRngFail (dieOfTree x.tree) onu.toNat
    exec (.skeinJoinDone onu []) s = .next
      ({ v with skeinOnus := v.skeinOnus.put onu.toNat { j with members := ms, joining := none } }.answer c .ok (ms.flatMap
      (fun (m : Nat × Nat) => [BitVec.ofNat 32 m.1, BitVec.ofNat 32 m.2]))))

/-- The SKEIN commands of tributaries and the events of skeins and tributaries have their effects. R250, R251, R254,
R255, R257, R259, R243, R256, R253, R260. -/
def Obligations.TributaryCommandsComplete : Prop :=
  (∀ (h : Hdr) (trib onu port carrier : Word) (allocIds : List Word) (w : TribWords) (x : OnuSlot) (kk : Option Nat) (ws :
      List Nat) (s : State), s.ready h 0x0606 (.owner (2 + trib.toNat / 256)) = true → s.onu onu.toNat = some x →
      s.carrierMembers onu.toNat carrier = some (kk, ws) → trib.toNat ≤ 1023 → dieOfTree x.tree = 2 + trib.toNat / 256 →
      s.holder x.tree 2 port.toNat = some onu.toNat → ((s.pon.ports.find (x.tree * 65536 + port.toNat)).map (fun (p : PonPort)
      => p.kind) = some 0 ∨ (s.pon.ports.find (x.tree * 65536 + port.toNat)).map (fun (p : PonPort) => p.kind) = some 1) →
      ws.length = allocIds.length → (ws.zip (allocIds.map (·.toNat))).all (fun m => ((s.recOf x.tree m.2).map (fun (r : Nat ×
      AllocRec) => decide (r.2.onu = onu.toNat ∧ s.recChan r.2 = 4 * x.tree + m.1))).getD false) = true → tribNumbersOk
      w.nd.toNat w.q.toNat w.ppm.toNat w.wl.toNat w.wh.toNat = true → w.kind.toNat ≤ 1 → w.udp.toNat ≤ 65535 → decide (w.kind
      = 1) = decide (5625 < w.nd.toNat) → (if w.kind = 1 then 1 ≤ w.payload.toNat ∧ w.payload.toNat ≤ 8192 else 32 ≤
      w.payload.toNat ∧ w.payload.toNat ≤ 1440) → 125000 ≤ w.playout.toNat → w.playout.toNat ≤ 1000000000 → s.tribCarried
      x.tree (ws.zip (allocIds.map (·.toNat))) w.nd.toNat w.q.toNat = true → s.treeBarred x.tree = false → s.claimed (2 +
      trib.toNat / 256) .cad = false → s.tribs.has trib.toNat = false → s.hasSegment (halfOfTree x.tree) 1 = true → s.tribRoom
      trib.toNat w.wh.toNat w.nd.toNat w.q.toNat = true →
    exec (.skeinTribSet h trib onu port carrier allocIds w) s = completed h 0x0606 s (fun u => State.mirror (u.setTrib
      trib.toNat
      { onu := onu.toNat, port := port.toNat, skein := kk, members := ws.zip (allocIds.map (·.toNat)), nd := w.nd.toNat, q := w.q.toNat, ppm := w.ppm.toNat, wl := w.wl.toNat, wh := w.wh.toNat, cadence := decide (w.kind = 1), udp := w.udp.toNat, payload := w.payload.toNat, playout := w.playout.toNat, elastic := centred w.wl.toNat w.wh.toNat, slipped := false, down := false, lostRun := 0, goodRun := 0, csf := false, csfRx := false, jc := 0, jcRx := 0, mfi := 0, aligning := [], seqRx := none, seqTx := 0, plays := [], upBits := [], pwEvent := none, inbox := [], lossRx := false, built := none })
      x.tree)) ∧
  (∀ (h : Hdr) (trib : Word) (x : Trib) (y : OnuSlot) (s : State), s.ready h 0x0607 (.owner (2 + trib.toNat / 256)) = true →
      trib.toNat ≤ 1023 → s.tribs.find trib.toNat = some x → s.onu x.onu = some y → s.treeBarred y.tree = false → s.claimed
      (2 + trib.toNat / 256) .cad = false →
    exec (.skeinTribClear h trib) s = completed h 0x0607 s (fun u => State.mirror { u with tribs := u.tribs.del trib.toNat }
      y.tree)) ∧
  (∀ (h : Hdr) (trib : Word) (s : State), s.ready h 0x0608 (.owner (2 + trib.toNat / 256)) = true → trib.toNat ≤ 1023 →
    exec (.skeinTribStatus h trib) s = completed h 0x0608 s id ([s.tribStat trib.toNat, BitVec.ofNat 32 (((s.tribs.find
      trib.toNat).map (·.fill)).getD 0)] ++ [Ctr.cadJcBad, .cadSlip, .cadPwLate, .cadPwLost, .cadContLost, .cadMemberLoss,
      .cadDlnLoss, .cadDlnAbandon].flatMap (fun c => ctrWords (s.ctr c trib.toNat)))) ∧
  (∀ (h : Hdr) (trib delta alpha : Word) (s : State), s.ready h 0x0609 (.owner (2 + trib.toNat / 256)) = true → trib.toNat ≤
      1023 → 1 ≤ delta.toNat → delta.toNat ≤ 7 → 1 ≤ alpha.toNat → alpha.toNat ≤ 15 → s.claimed (2 + trib.toNat / 256) .cad =
      false →
    exec (.skeinDlnSet h trib delta alpha) s = completed h 0x0609 s (fun u => ((u.setFld .cadDlnCfgDelta trib.toNat
      delta.toNat).setFld .cadDlnCfgAlpha trib.toNat alpha.toNat).mirrorTrib trib.toNat)) ∧
  (∀ (onu : Onu) (j : SkeinOnu) (x : SkeinHeld) (s : State), s.skeinOnus.find onu.toNat = some j → j.lowest = some x →
      x.arrival + usSpan (s.fld .sknCfgSkewMax j.skein) ≤ s.elapsed →
    let gap := (seqDiff x.seq (j.upSeq.getD x.seq)).toNat
    let v := State.pmBlocks { s with skeinOnus := s.skeinOnus.put onu.toNat { j with upSeq := some x.seq } } 2 j.skein gap gap
    exec (.skeinGapExpiry onu) s = .next (((v.count .sknGap j.skein).raiseOnceIn (v.skeinFrame j.skein) .sknGap (skeinDie j.skein)
      j.skein j.skein).releaseHeld onu.toNat (j.held.length + 1))) ∧
  (∀ (trib : BitVec 10) (mfi : BitVec 8) (x : Trib) (s : State), s.tribs.find trib.toNat = some x → s.overdue x mfi.toNat = true →
    let v := s.setTrib trib.toNat
      { x with aligning := x.aligning.filter (fun a => decide (a.mfi ≠ mfi.toNat)), lostRun := x.lostRun + 1, goodRun := 0 }
    let w := (v.count .cadContLost trib.toNat).pmBlocks 3 trib.toNat 1 1
    let y := (w.raiseOnceIn (v.tribFrame trib.toNat) .cadContLost (2 + trib.toNat / 256) trib.toNat trib.toNat).emitBits
      trib.toNat [⟨x.nd, true, shortOf (s.nowOn (2 + trib.toNat / 256))⟩]
    exec (.containerLost trib mfi) s = .next (if 7 ≤ x.lostRun then y.tribDown trib.toNat else y)) ∧
  (∀ (trib : BitVec 10) (seq : BitVec 16) (stamp : Word) (bytes : BitVec 14) (l : Bool) (x : Trib) (s : State), s.tribs.find
      trib.toNat = some x → x.seqRx = some seq.toNat → x.inbox.isEmpty = false →
    let ahead := (signedOf 32 ((stamp.toNat + 2 ^ 32 - shortOf (s.nowOn (2 + trib.toNat / 256))) % 2 ^ 32) + x.playout : Int)
    0 ≤ ahead →
    exec (.pseudowireRx trib seq stamp bytes l) s = .next (s.setTrib trib.toNat
      { x with seqRx := some ((seq.toNat + 1) % 2 ^ 16), csf := l, inbox := x.inbox.tail, lossRx := false, plays := x.plays ++ [⟨(s.elapsed + ahead * nsUnit).toNat, 8 * bytes.toNat, false⟩] })) ∧
  (∀ (trib : BitVec 10) (seq : BitVec 16) (stamp : Word) (bytes : BitVec 14) (l : Bool) (x : Trib) (s : State), s.tribs.find
      trib.toNat = some x → x.seqRx = some seq.toNat → x.inbox.isEmpty = false →
      (signedOf 32 ((stamp.toNat + 2 ^ 32 - shortOf (s.nowOn (2 + trib.toNat / 256))) % 2 ^ 32) + x.playout : Int) < 0 →
    exec (.pseudowireRx trib seq stamp bytes l) s = .next (State.pwEvent (State.count (s.setTrib trib.toNat
      { x with seqRx := some ((seq.toNat + 1) % 2 ^ 16), csf := l, inbox := x.inbox.tail, lossRx := true, plays := x.plays ++ [⟨s.elapsed, 8 * bytes.toNat, true⟩] })
      .cadPwLate trib.toNat) trib.toNat)) ∧
  (∀ (trib : BitVec 10) (x : Trib) (p : Play) (rest : List Play) (s : State), s.tribs.find trib.toNat = some x → x.plays = p
      :: rest → p.at_ ≤ s.elapsed →
    exec (.playout trib) s = .next (s.intoStore trib.toNat { x with plays := rest } ⟨p.bits, p.filler, 0⟩)) ∧
  (∀ (p : APath) (trib : BitVec 10) (data : Word) (x : Trib) (y : OnuSlot) (s : State), data.getLsbD 0 = true → s.tribs.find trib.toNat =
      some x → s.onu x.onu = some y → s.expertBarred p y.tree = false →
      fieldOf Fld.cadTribCfgValid.lo Fld.cadTribCfgValid.w (s.tribWord p (2 + trib.toNat / 256) Fld.cadTribCfgValid.reg) ≠ 1 →
    exec (.cadTribCommit p trib data) s = .next (State.mirror (State.unstage { s with tribs := s.tribs.del trib.toNat } p
      (2 + trib.toNat / 256) tribRegs) y.tree)) ∧
  (∀ (p : APath) (trib : BitVec 10) (data : Word) (x : Trib) (y : OnuSlot) (s : State),
    let die := 2 + trib.toNat / 256
    let fld := fun (f : Fld) => fieldOf f.lo f.w (s.tribWord p die f.reg)
    let nd := fld .cadTribCfgNd
    let q := fld .cadTribQQ
    let ppm := fld .cadTribCfgPpm
    let wl := (s.tribWord p die .cadTribWl).toNat
    let wh := (s.tribWord p die .cadTribWh).toNat
    let cadence := decide (fld .cadTribCfgPw = 1)
    data.getLsbD 0 = true → s.tribs.find trib.toNat = some x → s.onu x.onu = some y → s.expertBarred p y.tree = false →
      fld .cadTribCfgValid = 1 → tribNumbersOk nd q ppm wl wh = true → cadence = decide (5625 < nd) → s.tribRoom trib.toNat wh nd
      q = true → s.tribCarried y.tree x.members nd q = true → pwPayloadOk cadence x.payload = true →
    exec (.cadTribCommit p trib data) s = .next (State.mirror (State.unstage (s.setTrib trib.toNat
      { x with nd := nd, q := q, ppm := ppm, wl := wl, wh := wh, cadence := cadence }) p die tribRegs) y.tree))

/-- The SCRATCH commands, owner writes, hand-over ends and DMA ends have their effects and answer. R545, R546, R544,
R554, R555, R556. -/
def Obligations.ScratchCommandsComplete : Prop :=
  (∀ (h : Hdr) (bank owner clear : Word) (s : State), s.ready h 0x1300 (.oneOf [0, 1, 2, 3, 4, 5]) = true → bankExists
      h.die.toNat bank.toNat = true → clear.toNat < 2 → owner.toNat ≤ 7 → s.handoverRefused h.die.toNat bank.toNat owner.toNat
      = none → s.claimed (h.die.toNat) (bankBlk bank.toNat) = false →
    exec (.scratchOwnerSet h bank owner clear) s = waiting h 0x1300 s (fun u => u.startHandover h.die.toNat bank.toNat
      owner.toNat (clear = 1) (some (callerOf h 0x1300)))) ∧
  (∀ (h : Hdr) (bank offset count : Word) (s : State), s.ready h 0x1301 (.oneOf [0, 1, 2, 3, 4, 5]) = true → rangeOk
      h.die.toNat bank.toNat offset.toNat count.toNat 1023 = true → h.path ≠ .inband → s.bankOn h.die.toNat
      bank.toNat = true → s.bankOwner h.die.toNat bank.toNat = 0 →
    exec (.scratchRead h bank offset count) s = completed h 0x1301 s (fun u => ((u.settleBank h.die.toNat bank.toNat).readPads
      h.die.toNat bank.toNat (offset.toNat / 4) count.toNat).1) ((((s.start (callerOf h 0x1301)).settleBank h.die.toNat
      bank.toNat).readPads h.die.toNat bank.toNat (offset.toNat / 4) count.toNat).2)) ∧
  (∀ (h : Hdr) (bank offset : Word) (words : List Word) (s : State), s.ready h 0x1302 (.oneOf [0, 1, 2, 3, 4, 5]) = true →
      rangeOk h.die.toNat bank.toNat offset.toNat words.length 1020 = true → h.path ≠ .inband → s.claimed (h.die.toNat) .sp = false → s.bankOn
      h.die.toNat bank.toNat = true → s.bankOwner h.die.toNat bank.toNat = 0 →
    exec (.scratchWrite h bank offset words) s = completed h 0x1302 s (fun u => (u.settleBank h.die.toNat
      bank.toNat).writePads h.die.toNat bank.toNat (offset.toNat / 4) words)) ∧
  (∀ (h : Hdr) (dir bank offset hostHi hostLo len : Word) (s : State), s.ready h 0x1303 (.oneOf [0, 1, 2, 3, 4, 5]) = true →
      h.path = .pcie → dir.toNat ≤ 1 → bankExists h.die.toNat bank.toNat = true → hostAddress hostHi hostLo % 64 = 0 →
      offset.toNat % 64 = 0 → len.toNat % 64 = 0 → 64 ≤ len.toNat → len.toNat ≤ 2 ^ 24 → offset.toNat + len.toNat ≤ bankWords
      h.die.toNat bank.toNat * 4 → s.claimed (h.die.toNat) (bankBlk bank.toNat) = false → s.bankOn h.die.toNat bank.toNat = true → s.bankOwner h.die.toNat bank.toNat =
      (if 64 ≤ bank.toNat then 3 else 5) → (s.pads.dmas.filter (fun x => x.die = h.die.toNat)).length < 4 → (s.start (callerOf
      h 0x1303)).asyncFull = false →
    let settled := fun (u : State) => if bank.toNat < 64 then u.settleBank h.die.toNat bank.toNat else u
    exec (.scratchDma h dir bank offset hostHi hostLo len) s = completed h 0x1303 s (fun u =>
      { settled u with pads := { (settled u).pads with dmas := (settled u).pads.dmas ++ [⟨callerOf h 0x1303, h.die.toNat, dir = 1, bank.toNat, offset.toNat, hostAddress hostHi hostLo, len.toNat, 0⟩] } })
      [] .accepted) ∧
  (∀ (die : BitVec 3) (bank : Byte) (x : Handover) (s : State), s.pads.handovers.find? (fun y => decide (y.die = die.toNat ∧
      y.bank = bank.toNat)) = some x →
    let v := if x.clear then s.clearBank x.die x.bank else s
    let w := State.setBank { v with pads := { v.pads with handovers := v.pads.handovers.filter (fun y => decide (¬(y.die = x.die ∧ y.bank = x.bank))) } }
      x.die x.bank x.owner false false
    let done := match x.caller with | some c => w.answer c .ok [] | none => w
    (bank.toNat < 64 → exec (.bankHandoverDone die bank) s = .next done) ∧
    (64 ≤ bank.toNat → s.flag .sysRtnStatSpent (die.toNat * 64 + scrubRation bank.toNat) = false →
      exec (.bankHandoverDone die bank) s = .next (done.chargeWith die.toNat (scrubRation bank.toNat) (nsSpan 582500) true))) ∧
  (∀ (p : APath) (die : BitVec 3) (bank : Byte) (data : Word) (s : State), bankExists die.toNat bank.toNat = true → s.dieFused die.toNat = false → fieldOf 0
      3 data ≠ fieldOf 0 3 (s.reg (bankReg bank.toNat) (bankInst die.toNat bank.toNat)) → s.mayRwc p die.toNat (bankBlk
      bank.toNat) = true → s.handoverRefused die.toNat bank.toNat (fieldOf 0 3 data) = none →
    exec (.spBankOwnerWrite p die bank data) s = .next (s.startHandover die.toNat bank.toNat (fieldOf 0 3 data) (fieldOf 30 1
      data = 1) none)) ∧
  (∀ (die : BitVec 3) (m : BitVec 2) (moved : DmaMoved) (x : DmaXfer) (s : State), (s.pads.dmas.filter (fun x => x.die =
      die.toNat))[m.toNat]? = some x → s.bankPending x.die x.bank = false → s.served x.die x.ration = true →
    let left := x.span x.len - x.served
    (s.wantTime x.die x.ration).rationSpan x.die x.ration left = left →
    let w := (s.wantTime x.die x.ration).charge x.die x.ration left
    let v := State.moveDma { w with pads := { w.pads with dmas := w.pads.dmas.map (fun y =>
      if y.caller = x.caller then { y with served := y.served + left } else y) } } x x.len moved.data
    exec (.dmaDone die m .whole moved) s = .next ({ v with pads := { v.pads with dmas := v.pads.dmas.filter (fun y =>
      decide (y.caller ≠ x.caller)) } }.answer x.caller .ok [BitVec.ofNat 32 x.len])) ∧
  (∀ (moved : List DmaMoved) (s : State), s.laosh.linkUp = false → s.laosh.downAt + msSpan 100 < s.elapsed →
    let stop := fun (u : State) (p : Nat × DmaXfer) => (u.endDma p.2 (moved.getD p.1 ⟨0, []⟩) .badParam).report .spDmaErr
      p.2.die .spDmaErr p.2.die p.2.bank
    exec (.hostLinkDmaTimeout moved) s = .next (((List.range s.pads.dmas.length).zip s.pads.dmas).foldl stop s))

/-- Frames at the uplinks, packets of the paths and passes of the pipelines have their effects. R327, R413, R340,
R414, R264, R281, R479, R480, R481, R484, R485, R486. -/
def Obligations.FrontEventsComplete : Prop :=
  (∀ (l : Lane) (r : UplinkRx) (s : State), s.lineRx (s.portOf l.toNat) = true →
    exec (.uplinkFrameRx l r) s = .next (s.uplinkRx (s.portOf l.toNat) ⟨r.name.toNat, r.len.toNat, r.head⟩ r.fcsOk r.coming r.tag none)) ∧
  (∀ (l : Lane) (e : FrameEnd) (v : Verdict) (rest : List Verdict) (s : State), (s.secy (s.portOf l.toNat)).verdicts = v :: rest →
    let p := s.portOf l.toNat
    let u := s.setSecy p { s.secy p with verdicts := rest }
    (v.coming = true → e.fcsOk = false → exec (.icvVerdict l e) s = .next
      (if v.refused then u.count .umacRxFcs p else (u.count .umacRxFcs p).frameEnds v.frame.name false)) ∧
    (v.coming = false ∨ e.fcsOk = true →
      (v.refused = true → exec (.icvVerdict l e) s = .next u) ∧
      (∀ k pn, v.refused = false → v.sa = some (k, pn) →
        exec (.icvVerdict l e) s = .next (u.icvEnds p v.frame k pn (v.icv.getD e.icv.toNat))) ∧
      (v.refused = false → v.sa = none → exec (.icvVerdict l e) s = .next (u.frameEnds v.frame.name true)))) ∧
  (∀ (half : BitVec 1) (up : Bool) (pipe : BitVec 4) (x : Head) (rest : List Head) (s : State),
      s.pipeServes half.toNat pipe.toNat = true → s.pipeUp half.toNat pipe.toNat = up →
      Tbl.getD (s.fwdOf half.toNat).injected pipe.toNat [] = [] → s.lineHeads half.toNat pipe.toNat = x :: rest →
    let k := half.toNat
    let f := s.fwdOf k
    exec (.pipelinePass half up pipe) s = .next (((s.setFwd k
      (if up then { f with upHeads := rest } else { f with downHeads := rest })).setTurns k pipe.toNat
        (Tbl.getD f.turns pipe.toNat 0 - 1)).firstPass k pipe.toNat x)) ∧
  (∀ (half : BitVec 1) (up : Bool) (pipe : BitVec 4) (x : Head) (rest : List Head) (s : State),
      s.pipeServes half.toNat pipe.toNat = true → s.pipeUp half.toNat pipe.toNat = up →
      Tbl.getD (s.fwdOf half.toNat).injected pipe.toNat [] = x :: rest →
      s.slotOpen half.toNat pipe.toNat (9 + pipe.toNat) = true → s.rationWaits half.toNat (9 + pipe.toNat) = false →
      s.served half.toNat (9 + pipe.toNat) = true →
    let k := half.toNat
    let v := s.wantTime k (9 + pipe.toNat)
    exec (.pipelinePass half up pipe) s = .next ((((v.modFwd k (fun f =>
      { f with injected := f.injected.setD pipe.toNat [] rest })).setTurns k pipe.toNat 3).firstPass k pipe.toNat x).charge k
        (9 + pipe.toNat) (s.slotSpan k pipe.toNat))) ∧
  (∀ (half : BitVec 1) (pipe : BitVec 4) (x : Pkt) (rest : List Pkt) (s : State),
      Tbl.getD (s.fwdOf half.toNat).recirc pipe.toNat [] = x :: rest → s.slotOpen half.toNat pipe.toNat pipe.toNat = true →
      s.served half.toNat pipe.toNat = true →
    let k := half.toNat
    let p := pipe.toNat
    exec (.recircPass half pipe) s = .next (((((s.wantTime k p).modFwd k (fun f =>
      { f with recirc := f.recirc.setD p [] rest })).setTurns k p 3).slotUsed k p 3).pass p x |>.charge k p (s.slotSpan k p))) ∧
  (∀ (packet : List Byte) (s : State), s.unread 0 = true → s.replyRoom = true →
    exec (.commandRingRead packet) s = .next ((s.ringStep 0).accept .pcie packet false (0, 0, none))) ∧
  (∀ (s : State),
    exec (.trapPost) s = .next (s.flushTraps 1)) ∧
  (∀ (w0 w1 w2 w3 : Word) (name : BitVec 32) (head : List Byte) (pipe : BitVec 4) (s : State), s.unread 3 = true → fieldOf 30
      2 w0 = 1 → 60 ≤ fieldOf 0 14 w0 → fieldOf 0 14 w0 ≤ 12288 → s.hostUsed ((s.queueHalf (fieldOf 0 19 w2)).getD 0) +
      cellsOf (fieldOf 0 14 w0) ≤ s.hostPool ((s.queueHalf (fieldOf 0 19 w2)).getD 0) → s.decisionsLeft ((s.queueHalf (fieldOf 0 19 w2)).getD 0) ≠ 0 →
    exec (.injectRingRead w0 w1 w2 w3 name head pipe) s = .next ((s.ringStep 3).injectQueue (fieldOf 0 19 w2) ⟨name.toNat,
      fieldOf 0 14 w0, head⟩)) ∧
  (∀ (w0 w1 w2 w3 : Word) (name : BitVec 32) (head : List Byte) (pipe : BitVec 4) (s : State), s.unread 3 = true → fieldOf 30
      2 w0 = 0 → 60 ≤ fieldOf 0 14 w0 → fieldOf 0 14 w0 ≤ 12288 →
    let up := w1.getLsbD 31
    let i := fieldOf 0 16 w1
    let half := if up then halfOfChan i else halfOfLane i
    i < s.ingresses up →
    let v := s.wantTime half (9 + pipe.toNat)
    v.pipeUp half pipe.toNat = up → v.pipeServes half pipe.toNat = true → v.rationWaits half (9 + pipe.toNat) = false →
      v.hostUsed half + cellsOf (fieldOf 0 14 w0) ≤ v.hostPool half → v.unread 3 = true → i < v.ingresses up →
    exec (.injectRingRead w0 w1 w2 w3 name head pipe) s = .next ((v.ringStep 3).injectHead pipe.toNat up i ⟨name.toNat,
      fieldOf 0 14 w0, head⟩)) ∧
  (∀ (bytes : List Byte) (s : State), s.i3cUp = true → s.laosh.mailbox = [] → s.inflight .i3c = 0 →
    exec (.i3cMailboxWrite bytes) s = .next (s.accept .i3c bytes false (0, 0, none))) ∧
  (∀ (tag : BitVec 16) (r : Reply) (s : State), s.i3cUp = true → s.laosh.mailbox = [r] → r.tag = tag →
    exec (.i3cMailboxAck tag) s = .next ({ s with laosh := { s.laosh with mailbox := [], mailboxSeen := false } }.acknowledged
      r)) ∧
  (∀ (r : Reply) (rest : List Reply) (s : State), s.i3cUp = true → s.laosh.armedRead = none → s.laosh.mailbox = r :: rest →
    let v := s.send (.mailboxRead (some { r with rep := r.rep || s.laosh.mailboxSeen }))
    exec (.i3cMailboxRead true) s = .next ({ v with laosh := { v.laosh with mailboxSeen := true } })) ∧
  (∀ (addr : BitVec 7) (s : State), s.i3cUp = true →
    exec (.i3cDynamicAddress addr) s = .next ({ s with laosh := { s.laosh with i3cAddress := some addr, ibiEnable := true } }.send (.i3cId s.provisionalId))) ∧
  (∀ (on : Bool) (s : State), s.i3cUp = true →
    exec (.i3cEnecDisec on) s = .next ({ s with laosh := { s.laosh with ibiEnable := on } })) ∧
  (∀ (l : Lane) (packet : List Byte) (cmac : BitVec 128) (src : BitVec 48) (vlan : Option (BitVec 16)) (s : State),
      s.laosh.inbandPorts.contains (s.portOf l.toNat) = true → s.portUp (s.portOf l.toNat) = true → (s.laosh.inbandWait.filter
      (fun w => w.1 = (s.portOf l.toNat))).length < 16 →
    exec (.inbandFrameRx l packet cmac src vlan) s = .next (s.accept .inband packet (decide (cmac.toNat = s.sessionCmac packet)) ((s.portOf l.toNat), src.toNat,
      vlan.map BitVec.toNat))) ∧
  (∀ (p : APath) (data : Word) (s : State), s.sel .rgsel 0 (apathCode p) % 4 = 0 → fldOf .lshRingPtrHost data < s.ringSize 0
      →
    exec (.lshRingPtrWrite p data) s = .next (s.setFld .lshRingPtrHost 0 (fldOf .lshRingPtrHost data))) ∧
  (∀ (p : APath) (data : Word) (s : State), (writeWord .lshRingCfg (s.reg .lshRingCfg (s.sel .rgsel 0 (apathCode p) % 4))
      data true).2.1 = false → fldOf .lshRingCfgEn (s.reg .lshRingCfg (s.sel .rgsel 0 (apathCode p) % 4)) = 0 → fldOf
      .lshRingCfgEn (writeWord .lshRingCfg (s.reg .lshRingCfg (s.sel .rgsel 0 (apathCode p) % 4)) data true).1 = 1 →
    let r := s.sel .rgsel 0 (apathCode p) % 4
    exec (.lshRingCfgWrite p data) s = .next ((s.setReg .lshRingCfg r (writeWord .lshRingCfg (s.reg .lshRingCfg r) data
      true).1).enableRing r))

/-- The register and immediate stitches leave the stated context. R528, R526. -/
def Obligations.StitchArithmeticCompletes : Prop :=
  (∀ (q : BitVec 5) (d a : BitVec 4) (s : State), s.delivers q.toNat 0x00 [fmtD d, fmtA a] = true →
    let x := (s.seq q.toNat).ctx
    let r : Word := x.get a.toNat
    exec (.stMov q d a) s = .next (s.drawn.setCtx q.toNat (SeqCtx.step ((x.flags r (s.free % 2 = 1)).set d.toNat r)))) ∧
  (∀ (q : BitVec 5) (d a b : BitVec 4) (s : State), s.delivers q.toNat 0x01 [fmtD d, fmtA a, fmtB b] = true →
    let x := (s.seq q.toNat).ctx
    exec (.stAdd q d a b) s = .next (s.setCtx q.toNat (SeqCtx.step ((x.flags (x.get a.toNat + x.get b.toNat) (carryOf (x.get
      a.toNat) (x.get b.toNat))).set d.toNat (x.get a.toNat + x.get b.toNat))))) ∧
  (∀ (q : BitVec 5) (d a b : BitVec 4) (s : State), s.delivers q.toNat 0x02 [fmtD d, fmtA a, fmtB b] = true →
    let x := (s.seq q.toNat).ctx
    exec (.stSub q d a b) s = .next (s.setCtx q.toNat (SeqCtx.step ((x.flags (x.get a.toNat - x.get b.toNat) (borrowOf (x.get
      a.toNat) (x.get b.toNat))).set d.toNat (x.get a.toNat - x.get b.toNat))))) ∧
  (∀ (q : BitVec 5) (d a b : BitVec 4) (s : State), s.delivers q.toNat 0x03 [fmtD d, fmtA a, fmtB b] = true →
    let x := (s.seq q.toNat).ctx
    let r : Word := x.get a.toNat &&& x.get b.toNat
    exec (.stAnd q d a b) s = .next (s.drawn.setCtx q.toNat (SeqCtx.step ((x.flags r (s.free % 2 = 1)).set d.toNat r)))) ∧
  (∀ (q : BitVec 5) (d a b : BitVec 4) (s : State), s.delivers q.toNat 0x04 [fmtD d, fmtA a, fmtB b] = true →
    let x := (s.seq q.toNat).ctx
    let r : Word := x.get a.toNat ||| x.get b.toNat
    exec (.stOr q d a b) s = .next (s.drawn.setCtx q.toNat (SeqCtx.step ((x.flags r (s.free % 2 = 1)).set d.toNat r)))) ∧
  (∀ (q : BitVec 5) (d a b : BitVec 4) (s : State), s.delivers q.toNat 0x05 [fmtD d, fmtA a, fmtB b] = true →
    let x := (s.seq q.toNat).ctx
    let r : Word := x.get a.toNat ^^^ x.get b.toNat
    exec (.stXor q d a b) s = .next (s.drawn.setCtx q.toNat (SeqCtx.step ((x.flags r (s.free % 2 = 1)).set d.toNat r)))) ∧
  (∀ (q : BitVec 5) (d a b : BitVec 4) (s : State), s.delivers q.toNat 0x06 [fmtD d, fmtA a, fmtB b] = true →
    let x := (s.seq q.toNat).ctx
    let r : Word := x.get a.toNat <<< ((x.get b.toNat).toNat % 32)
    exec (.stShl q d a b) s = .next (s.drawn.setCtx q.toNat (SeqCtx.step ((x.flags r (s.free % 2 = 1)).set d.toNat r)))) ∧
  (∀ (q : BitVec 5) (d a b : BitVec 4) (s : State), s.delivers q.toNat 0x07 [fmtD d, fmtA a, fmtB b] = true →
    let x := (s.seq q.toNat).ctx
    let r : Word := x.get a.toNat >>> ((x.get b.toNat).toNat % 32)
    exec (.stShr q d a b) s = .next (s.drawn.setCtx q.toNat (SeqCtx.step ((x.flags r (s.free % 2 = 1)).set d.toNat r)))) ∧
  (∀ (q : BitVec 5) (a b : BitVec 4) (s : State), s.delivers q.toNat 0x08 [fmtA a, fmtB b] = true →
    let x := (s.seq q.toNat).ctx
    exec (.stCmp q a b) s = .next (s.setCtx q.toNat (SeqCtx.step (x.flags (x.get a.toNat - x.get b.toNat) (borrowOf (x.get
      a.toNat) (x.get b.toNat)))))) ∧
  (∀ (q : BitVec 5) (a b : BitVec 4) (s : State), s.delivers q.toNat 0x09 [fmtA a, fmtB b] = true →
    let x := (s.seq q.toNat).ctx
    let r : Word := x.get a.toNat &&& x.get b.toNat
    exec (.stTst q a b) s = .next (s.drawn.setCtx q.toNat (SeqCtx.step (x.flags r (s.free % 2 = 1))))) ∧
  (∀ (q : BitVec 5) (d : BitVec 4) (imm : BitVec 16) (s : State), s.delivers q.toNat 0x10 [fmtD d, fmtImm imm] = true →
    let x := (s.seq q.toNat).ctx
    exec (.stLdi q d imm) s = .next (s.setCtx q.toNat (SeqCtx.step (x.set d.toNat (imm.setWidth 32))))) ∧
  (∀ (q : BitVec 5) (d : BitVec 4) (imm : BitVec 16) (s : State), s.delivers q.toNat 0x11 [fmtD d, fmtImm imm] = true →
    let x := (s.seq q.toNat).ctx
    exec (.stLdh q d imm) s = .next (s.setCtx q.toNat (SeqCtx.step (x.set d.toNat (withField 16 16 (x.get d.toNat)
      imm.toNat))))) ∧
  (∀ (q : BitVec 5) (d : BitVec 4) (imm : BitVec 16) (s : State), s.delivers q.toNat 0x12 [fmtD d, fmtImm imm] = true →
    let x := (s.seq q.toNat).ctx
    exec (.stAddi q d imm) s = .next (s.setCtx q.toNat (SeqCtx.step ((x.flags (x.get d.toNat + imm.setWidth 32) (carryOf
      (x.get d.toNat) (imm.setWidth 32))).set d.toNat (x.get d.toNat + imm.setWidth 32))))) ∧
  (∀ (q : BitVec 5) (d : BitVec 4) (imm : BitVec 16) (s : State), s.delivers q.toNat 0x13 [fmtD d, fmtImm imm] = true →
    let x := (s.seq q.toNat).ctx
    exec (.stCmpi q d imm) s = .next (s.setCtx q.toNat (SeqCtx.step (x.flags (x.get d.toNat - imm.setWidth 32) (borrowOf
      (x.get d.toNat) (imm.setWidth 32))))))

/-- The access, branch, wait and external stitches have their effects. R528, R529, R531, R532, R544, R499. -/
def Obligations.StitchControlCompletes : Prop :=
  (∀ (q : BitVec 5) (d a : BitVec 4) (offset : BitVec 18) (b w : Nat) (s : State), s.delivers q.toNat 0x1A [fmtD d, fmtA a, fmtOffset offset] = true →
      s.padsOn (seqDie q.toNat) ((s.seq q.toNat).ctx.address a offset) = true → s.firmwareWord
      (seqDie q.toNat) ((s.seq q.toNat).ctx.address a offset) = some (b, w) →
    let r := (s.settleBank (seqDie q.toNat) b).readPad (seqDie q.toNat) b w
    exec (.stRdsp q d a offset) s = .next (r.1.stitch q.toNat (fun x => x.set d.toNat r.2))) ∧
  (∀ (q : BitVec 5) (d a : BitVec 4) (offset : BitVec 18) (b w : Nat) (s : State), s.delivers q.toNat 0x1B [fmtD d, fmtA a, fmtOffset offset] = true →
      s.padsOn (seqDie q.toNat) ((s.seq q.toNat).ctx.address a offset) = true → s.firmwareWord
      (seqDie q.toNat) ((s.seq q.toNat).ctx.address a offset) = some (b, w) →
    let x := (s.seq q.toNat).ctx
    exec (.stWrsp q d a offset) s = .next (((s.settleBank (seqDie q.toNat) b).writePad (seqDie q.toNat) b w (x.get
      d.toNat)).stitch q.toNat id)) ∧
  (∀ (q : BitVec 5) (d a : BitVec 4) (offset : BitVec 18) (s : State),
      s.delivers q.toNat 0x1A [fmtD d, fmtA a, fmtOffset offset] = true → s.padsOn (seqDie q.toNat) ((s.seq q.toNat).ctx.address a offset) = true →
      s.firmwareWord (seqDie q.toNat) ((s.seq q.toNat).ctx.address a offset) = none →
    exec (.stRdsp q d a offset) s = .next ((s.nonOwner (seqDie q.toNat)).stitch q.toNat (fun x => x.set d.toNat 0))) ∧
  (∀ (q : BitVec 5) (d a : BitVec 4) (offset : BitVec 18) (s : State),
      s.delivers q.toNat 0x1B [fmtD d, fmtA a, fmtOffset offset] = true → s.padsOn (seqDie q.toNat) ((s.seq q.toNat).ctx.address a offset) = true →
      s.firmwareWord (seqDie q.toNat) ((s.seq q.toNat).ctx.address a offset) = none →
    exec (.stWrsp q d a offset) s = .next ((s.nonOwner (seqDie q.toNat)).stitch q.toNat id)) ∧
  (∀ (q : BitVec 5) (d a : BitVec 4) (offset : BitVec 18) (s : State), s.delivers q.toNat 0x1A [fmtD d, fmtA a, fmtOffset offset] = true →
      s.padsOn (seqDie q.toNat) ((s.seq q.toNat).ctx.address a offset) = false →
    exec (.stRdsp q d a offset) s = .next ((s.padsError q ((s.seq q.toNat).ctx.address a offset)).stitch q.toNat (fun x => x.set d.toNat 0))) ∧
  (∀ (q : BitVec 5) (d a : BitVec 4) (offset : BitVec 18) (s : State), s.delivers q.toNat 0x1B [fmtD d, fmtA a, fmtOffset offset] = true →
      s.padsOn (seqDie q.toNat) ((s.seq q.toNat).ctx.address a offset) = false →
    exec (.stWrsp q d a offset) s = .next ((s.padsError q ((s.seq q.toNat).ctx.address a offset)).stitch q.toNat id)) ∧
  (∀ (q : BitVec 5) (d a : BitVec 4) (offset : BitVec 18) (reg : Option Reg) (idx : Nat) (s : State), s.delivers q.toNat 0x18 [fmtD d, fmtA a, fmtOffset offset] = true →
    let x := (s.seq q.toNat).ctx
    let r := s.readAccess ⟨.seq q, BitVec.ofNat 26 (x.address a offset), reg, idx, false, 0⟩
    exec (.stRdreg q d a offset reg idx) s = .next (r.1.stitch q.toNat (fun x => x.set d.toNat r.2))) ∧
  (∀ (q : BitVec 5) (d a : BitVec 4) (offset : BitVec 18) (reg : Option Reg) (idx : Nat) (s : State), s.delivers q.toNat 0x19 [fmtD d, fmtA a, fmtOffset offset] = true →
    let x := (s.seq q.toNat).ctx
    exec (.stWrreg q d a offset reg idx) s = .next ((s.writeAccessTo ⟨.seq q, BitVec.ofNat 26 (x.address a offset), reg, idx,
      false, x.get d.toNat⟩).stitch q.toNat id)) ∧
  (∀ (q : BitVec 5) (d a : BitVec 4) (offset : BitVec 18) (c : Caller) (ps : List Word) (v : Word) (s : State), s.delivers q.toNat 0x1C [fmtD d, fmtA a, fmtOffset offset] = true → (s.seq q.toNat).ctx.item = some (.command c ps) → ps[(s.seq q.toNat).ctx.address a offset]? = some v →
    let x := (s.seq q.toNat).ctx
    exec (.stRdpar q d a offset) s = .next (s.setCtx q.toNat (x.set d.toNat v).step)) ∧
  (∀ (q : BitVec 5) (d a : BitVec 4) (offset : BitVec 18) (s : State), s.delivers q.toNat 0x1D [fmtD d, fmtA a, fmtOffset offset] = true →
    let x := (s.seq q.toNat).ctx
    exec (.stWrpar q d a offset) s = .next (s.setCtx q.toNat (SeqCtx.step
      ({ x with reply := x.reply.put (x.address a offset) (x.get d.toNat) })))) ∧
  (∀ (q : BitVec 5) (cond : BitVec 4) (target : BitVec 17) (b : Bool) (s : State), s.delivers q.toNat 0x20 [(22, 4, cond.toNat), fmtTarget target] = true → (s.seq
      q.toNat).ctx.cond cond.toNat = some b →
    let x := (s.seq q.toNat).ctx
    exec (.stBr q cond target) s = .next (s.setCtx q.toNat (if b then x.go target.toNat else x.step))) ∧
  (∀ (q : BitVec 5) (target : BitVec 17) (s : State), s.delivers q.toNat 0x21 [fmtTarget target] = true → (s.seq q.toNat).ctx.stack.length < 8 →
    let x := (s.seq q.toNat).ctx
    exec (.stCall q target) s = .next (s.setCtx q.toNat
      { x with stack := (x.addr + 1) % 2 ^ 17 :: x.stack, addr := target.toNat })) ∧
  (∀ (q : BitVec 5) (r : Nat) (rest : List Nat) (s : State), s.delivers q.toNat 0x22 [] = true → (s.seq q.toNat).ctx.stack = r :: rest
      →
    let x := (s.seq q.toNat).ctx
    exec (.stRet q) s = .next (s.setCtx q.toNat { x with stack := rest, addr := r })) ∧
  (∀ (q : BitVec 5) (target : BitVec 17) (s : State), s.delivers q.toNat 0x23 [fmtTarget target] = true →
    let x := (s.seq q.toNat).ctx
    exec (.stLoop q target) s = .next (s.setCtx q.toNat (if (x.set 15 (x.get 15 - 1)).get 15 = 0 then (x.set 15 (x.get 15 -
      1)).step else (x.set 15 (x.get 15 - 1)).go target.toNat))) ∧
  (∀ (q : BitVec 5) (s : State), s.delivers q.toNat 0x24 [] = true →
    let u := s.setSeq q.toNat { s.seq q.toNat with ctx := SeqCtx.empty, wait := none }
    exec (.stEnd q) s = .next (u.setSeqState q.toNat (u.restState q.toNat))) ∧
  (∀ (q : BitVec 5) (cond : BitVec 5) (arg cls : BitVec 4) (s : State), s.delivers q.toNat 0x28 (fmtWait cond arg cls) = true → cond.toNat < 12 →
      s.waitHolds q.toNat (s.newWait q.toNat cond.toNat ((s.seq q.toNat).ctx.get arg.toNat) cls.toNat) = some true →
    let x := (s.seq q.toNat).ctx
    let v := if cond.toNat = 0 then s.count .tbShortPast 0 else s
    exec (.stWait q cond arg cls) s = .next (v.setCtx q.toNat { x.step with t := false })) ∧
  (∀ (q : BitVec 5) (cond : BitVec 5) (arg cls : BitVec 4) (s : State), s.delivers q.toNat 0x28 (fmtWait cond arg cls) = true → cond.toNat < 12 →
      s.waitHolds q.toNat (s.newWait q.toNat cond.toNat ((s.seq q.toNat).ctx.get arg.toNat) cls.toNat) ≠ some true →
    let x := (s.seq q.toNat).ctx
    exec (.stWait q cond arg cls) s = .next ((s.setSeq q.toNat
      { s.seq q.toNat with wait := some (s.newWait q.toNat cond.toNat (x.get arg.toNat) cls.toNat) }).setSeqState q.toNat 3)) ∧
  (∀ (q : BitVec 5) (cond : BitVec 5) (arg cls : BitVec 4) (s : State), s.delivers q.toNat 0x29 (fmtWait cond arg cls) = true → cond.toNat < 12 →
      s.waitHolds q.toNat (s.newWait q.toNat cond.toNat ((s.seq q.toNat).ctx.get arg.toNat) cls.toNat) ≠ some true → (s.seq
      q.toNat).ctx.accepted = true → (s.seq q.toNat).parked.length < (if seqDie q.toNat < 2 then 64 else 16) →
    let x := (s.seq q.toNat).ctx
    exec (.stPark q cond arg cls) s = .next ((s.setSeq q.toNat
      { s.seq q.toNat with parked := (s.seq q.toNat).parked ++ [⟨x, s.newWait q.toNat cond.toNat (x.get arg.toNat) cls.toNat, none⟩] }).seqRest
      q.toNat)) ∧
  (∀ (q : BitVec 5) (cond : BitVec 5) (arg cls : BitVec 4) (s : State), s.delivers q.toNat 0x29 (fmtWait cond arg cls) = true → cond.toNat < 12 →
      s.waitHolds q.toNat (s.newWait q.toNat cond.toNat ((s.seq q.toNat).ctx.get arg.toNat) cls.toNat) ≠ some true →
      ((s.seq q.toNat).ctx.accepted = false ∨ (if seqDie q.toNat < 2 then 64 else 16) ≤ (s.seq q.toNat).parked.length) →
    let x := (s.seq q.toNat).ctx
    exec (.stPark q cond arg cls) s = .next ((s.setSeq q.toNat
      { s.seq q.toNat with wait := some (s.newWait q.toNat cond.toNat (x.get arg.toNat) cls.toNat) }).setSeqState q.toNat 3)) ∧
  (∀ (q : BitVec 5) (r : BitVec 4) (c : Caller) (ps : List Word) (z : Status) (s : State), s.delivers q.toNat 0x30 [fmtD r] = true → (s.seq
      q.toNat).ctx.item = some (.command c ps) → Status.ofCode (((s.seq q.toNat).ctx.get r.toNat).toNat % 65536) = some z →
    let x := (s.seq q.toNat).ctx
    exec (.stReply q r) s = .next ((s.setCtx q.toNat x.step).endCommand c z x.replyWords)) ∧
  (∀ (q : BitVec 5) (c : Caller) (ps : List Word) (s : State), s.delivers q.toNat 0x31 [] = true → (s.seq q.toNat).ctx.item = some
      (.command c ps) → (s.seq q.toNat).ctx.accepted = false →
    let x := (s.seq q.toNat).ctx
    exec (.stAccept q) s = .next ((s.setCtx q.toNat { x with accepted := true }.step).endCommand c .accepted [])) ∧
  (∀ (q : BitVec 5) (src : BitVec 10) (e : Ev) (s : State), s.delivers q.toNat 0x32 [(0, 10, src.toNat)] = true → evOfSource src.toNat = some e →
    let x := (s.seq q.toNat).ctx
    exec (.stRaise q src) s = .next ((s.setCtx q.toNat x.step).raise e (dieOfSource src.toNat) 0)) ∧
  (∀ (q : BitVec 5) (r : BitVec 4) (c : Chan) (kind : BitVec 5) (onuId : Option (BitVec 10)) (args : List Word) (k :
      PloamKind) (s : State), s.delivers q.toNat 0x33 [fmtD r, (0, 7, c.toNat)] = true → ploamKinds[kind.toNat]? = some k → (s.chan c.toNat).ploams.length <
      64 → (s.chan c.toNat).offers = [] →
    let x := (s.seq q.toNat).ctx
    exec (.stPloam q r c kind onuId args) s = .next ((s.setCtx q.toNat x.step).setChan c.toNat
      { s.chan c.toNat with ploams := (s.chan c.toNat).ploams ++ [⟨k, onuId.map BitVec.toNat, args.map BitVec.toNat⟩] })) ∧
  (∀ (q : BitVec 5) (r : BitVec 4) (target : BitVec 5) (s : State), s.delivers q.toNat 0x34 [fmtD r, (0, 5, target.toNat)] = true → seqExists target.toNat = true
      →
    let x := (s.seq q.toNat).ctx
    let u := s.setCtx q.toNat x.step
    exec (.stMail q r target) s = .next (u.setSeq target.toNat
      { u.seq target.toNat with mailbox := (u.seq target.toNat).mailbox ++ [x.get r.toNat] }))

/-- Dispatch, the end of a wait, machine checks, hand-over and darn swaps have their effects. R530, R531, R535,
R536, R534. -/
def Obligations.SequencerEventsComplete : Prop :=
  (∀ (q : BitVec 5) (a : BitVec 17) (item : SeqItem) (rest : List SeqItem) (s : State), seqExists q.toNat = true → s.seqState
      q.toNat = 1 → (s.seq q.toNat).order = false → s.trust.pending = none → s.fwEvents = [] → (s.seq q.toNat).parked.find?
      (fun p => p.woken.isSome) = none → (s.seq q.toNat).work = item :: rest → (∀ c ps, item ≠ .command c ps) →
    exec (.seqDispatch q (some a)) s = .next ((State.setCtx (s.setSeq q.toNat { s.seq q.toNat with work := rest }) q.toNat
      { SeqCtx.empty with item := some item, addr := a.toNat }).setSeqState q.toNat 2)) ∧
  (∀ (q : BitVec 5) (a : BitVec 17) (c : Caller) (ps : List Word) (rest : List SeqItem) (s : State), seqExists q.toNat = true →
      s.seqState q.toNat = 1 → (s.seq q.toNat).order = false → s.trust.pending = none → s.fwEvents = [] →
      (s.seq q.toNat).parked.find? (fun p => p.woken.isSome) = none → (s.seq q.toNat).work = .command c ps :: rest → s.mayStart c = true →
    exec (.seqDispatch q (some a)) s = .next ((State.setCtx ((s.setSeq q.toNat { s.seq q.toNat with work := rest }).start c) q.toNat
      { SeqCtx.empty with item := some (.command c ps), addr := a.toNat }).setSeqState q.toNat 2)) ∧
  (∀ (q : BitVec 5) (entry : Option (BitVec 17)) (p : Parked) (s : State), seqExists q.toNat = true → s.seqState q.toNat = 1 →
      (s.seq q.toNat).order = false → s.trust.pending = none → s.fwEvents = [] →
      (s.seq q.toNat).parked.find? (fun p => p.woken.isSome) = some p →
    let x := s.seq q.toNat
    exec (.seqDispatch q entry) s = .next ((s.setSeq q.toNat
      { x with parked := x.parked.erase p, ctx := { p.ctx.step with t := p.woken.getD false } }).setSeqState q.toNat 2)) ∧
  (∀ (q : BitVec 5) (a : BitVec 17) (src : Nat) (rest : List Nat) (s : State), seqExists q.toNat = true → s.seqState q.toNat = 1 →
      (s.seq q.toNat).order = false → s.trust.pending = none → seqDie q.toNat = 0 → s.fwEvents = src :: rest →
    exec (.seqDispatch q (some a)) s = .next ((State.setCtx { s with fwEvents := rest } q.toNat
      { SeqCtx.empty with item := some (.event src), addr := a.toNat }).setSeqState q.toNat 2)) ∧
  (∀ (q : BitVec 5) (entry : Option (BitVec 17)) (r : SeqReport) (rest : List SeqReport) (s : State), seqExists q.toNat = true →
      s.seqState q.toNat = 1 → (s.seq q.toNat).order = false → s.trust.pending = none → s.fwEvents = [] →
      (s.seq q.toNat).parked.find? (fun p => p.woken.isSome) = none → (s.seq q.toNat).work = [] → (s.seq q.toNat).reports = r :: rest →
    exec (.seqDispatch q entry) s = .next ((s.setSeq q.toNat { s.seq q.toNat with reports := rest }).serveReport r)) ∧
  (∀ (q : BitVec 5) (entry : Option (BitVec 17)) (s : State), seqExists q.toNat = true → s.seqState q.toNat = 1 →
      s.stopsTaking q.toNat = true →
    exec (.seqDispatch q entry) s = .next (s.setSeqState q.toNat 4)) ∧
  (∀ (q : BitVec 5) (event late : Bool) (w : SeqWait) (s : State), (s.seq q.toNat).wait = some w → s.waitEnded q.toNat w
      event = some late →
    exec (.waitEnd q none event) s = .next (((s.setSeq q.toNat
      { s.seq q.toNat with wait := none, ctx := { (s.seq q.toNat).ctx.step with t := late } }).setSeqState q.toNat
      2).noteTimeout q.toNat late)) ∧
  (∀ (q : BitVec 5) (k : BitVec 6) (event late : Bool) (p : Parked) (s : State), (s.seq q.toNat).parked[k.toNat]? = some p →
      p.woken = none → s.waitEnded q.toNat p.wait event = some late →
    let x := s.seq q.toNat
    exec (.waitEnd q (some k) event) s = .next ((s.setSeq q.toNat
      { x with parked := x.parked.set k.toNat { p with woken := some late } }).noteTimeout q.toNat late)) ∧
  (∀ (q : BitVec 5) (cause : BitVec 3) (addr : BitVec 17) (s : State), s.seqRuns q.toNat = true → (s.seq q.toNat).ctx.addr = addr.toNat →
      s.faultFits q.toNat cause.toNat = true →
    exec (.machineCheck q cause addr) s = .next (s.mcheck q.toNat cause.toNat addr.toNat)) ∧
  (∀ (q : BitVec 5) (cause : BitVec 3) (addr : BitVec 17) (s : State), s.seqRuns q.toNat = true → (s.seq q.toNat).ctx.addr = addr.toNat →
      s.faultFits q.toNat cause.toNat = true → (s.seq q.toNat).parked = [] → itemCaller (s.seq q.toNat).ctx.item = none → 6 ≤ seqDie q.toNat →
    exec (.machineCheck q cause addr) s = .next ((((s.setSeq q.toNat
      { s.seq q.toNat with ctx := { SeqCtx.empty with addr := addr.toNat }, wait := none, parked := [], order := 1 ≤ s.policy 2 }).setSeqState
      q.toNat 5).setFld .sqStatCause (seqInst q.toNat) cause.toNat).report .sqMcheck (seqInst q.toNat) .sqMcheck (seqDie
      q.toNat) q.toNat)) ∧
  (∀ (q : BitVec 5) (s : State), seqExists q.toNat = true → (s.seq q.toNat).order = true → s.seqHolds q.toNat = true →
      s.spareFree (seqDie q.toNat) = true → q.toNat ≠ spareSeq (seqDie q.toNat) →
    let n := q.toNat
    let die := seqDie n
    let sp := spareSeq die
    let v := (s.clearCopies (apathCode (.seq (BitVec.ofNat 5 sp)))).setSeq sp { SeqSt.empty with work := (s.seq n).work, mailbox := (s.seq n).mailbox, reports := (s.seq n).reports }
    let lent := (v.setSeqState sp 1).setFld .sqStatServes (seqInst sp) (v.fld .sqStatServes (seqInst n))
    let given := lent.setSeq n { s.seq n with order := false, work := [], mailbox := [], reports := [] }
    let failed := if given.seqState n = 5 then given else given.setSeqState n 0
    let passed := if die < 2 then [die * 3, die * 3 + 1].foldl (fun (u : State) r => if u.seqState r = 5 then u.passWork r else u) failed else failed
    exec (.seqHandover q) s = .next ((State.spareUsed (((passed).failUnit 2 die (seqIdx n)).report .sqHandover (seqInst n)
      .sqHandover die n) 2 die (seqIdx n)).endBringIn 2 die (seqIdx n) .ok)) ∧
  (∀ (d : Darn) (c : Caller) (x y : Nat) (s : State), s.trust.pending = some (d, c, x, y) → allSeqs.all s.seqHolds = true →
    let levels := (List.range 8).foldl (fun (u : State) die => u.setReg .sqDarnLevel die (BitVec.ofNat 32 (2 ^ 31 + d.level)))
      { s with trust := { s.trust with darn := some d, staged := s.trust.darn, pending := none } }
    exec (.darnSwap) s = .next ((levels.setFld .secLifecycleRb 0 (min 64 (max d.rb (levels.fld .secLifecycleRb
      0)))).resumeSeqs.answer c .ok [])) ∧
  (∀ (d : Darn) (c : Caller) (x y : Nat) (s : State), s.trust.pending = some (d, c, x, y) → x + msSpan 10 ≤ s.elapsed →
    exec (.darnHoldTimeout) s = .next ((({ s with trust := { s.trust with pending := none } }.resumeSeqs).answer c .busy
      []).report .sqDarnHold 0 .sqDarnHold 0 0))

/-- The KEY commands of roles, keys and SAs have their effects and answer. R431, R417, R418, R416, R432, R420, R419,
R413, R415, R434. -/
def Obligations.KeyCommandsComplete : Prop :=
  (∀ (h : Hdr) (phase : Word) (s : State), s.ready h 0x0B00 (.package) = true → s.errorState = false → s.lifecycle ≠ 0 →
      s.lifecycle ≠ 3 → phase = 0 → s.lifecycle = 2 →
    exec (.keyAuth h phase []) s = completed h 0x0B00 s (fun u => u.drawn.modCipher (fun c =>
      { c with nonces := c.nonces.put (pathCode h.path) (s.free % 2 ^ 384) })) (natWords 12 (s.free % 2 ^ 384))) ∧
  (∀ (h : Hdr) (sig : List Word) (m : Nat) (s : State), s.ready h 0x0B00 (.package) = true → s.errorState = false →
      s.lifecycle ≠ 0 → s.lifecycle ≠ 3 → s.lifecycle = 2 → sig.length = 49 → s.cipher.nonces.find (pathCode h.path) = some m
      →
    let ok := hashOf (sig.take 25) = s.ownerHash ∧ verifies (sig.take 25) m (sig.drop 25) = true
    exec (.keyAuth h 1 sig) s = completed h 0x0B00 s (fun u => if ok then u.modCipher (fun c =>
      { c with nonces := c.nonces.del (pathCode h.path), roles := c.roles.put (pathCode h.path) () }) else u) [] (if ok then
      .ok else .unauthorized)) ∧
  (∀ (h : Hdr)  (s : State), s.ready h 0x0B01 (.package) = true → s.errorState = false → s.lifecycle ≠ 0 → s.lifecycle ≠ 3 →
      (s.cipher.klks.has (pathCode h.path) = true → s.unclaimed [(0, .kv), (1, .kv)] = true) →
    exec (.keyLogout h) s = completed h 0x0B01 s (fun u => u.losePath (pathCode h.path))) ∧
  (∀ (h : Hdr) (pub : List Word) (id : Nat) (s : State), s.ready h 0x0B02 (.package) = true → s.errorState = false →
      s.lifecycle ≠ 0 → s.lifecycle ≠ 3 → pub.length = 25 → s.claimed (0) .kv = false → s.claimed (1) .kv = false → s.tampered
      = false → s.cipher.identity = some id →
    exec (.keyKlkAgree h pub) s = completed h 0x0B02 s (fun u => u.drawn.modCipher (fun c =>
      { c with klks := c.klks.put (pathCode h.path) (Config.standard 2 [Config.standard 5 [s.free, wordsNat pub]] % 2 ^ 256), klkErased := c.klkErased.del (pathCode h.path) }))
      (natWords 25 (Config.standard 9 [s.free]) ++ natWords 24 (Config.standard 6 [id, Config.standard 9 [s.free]]))) ∧
  (∀ (h : Hdr) (kind target : Word) (key : List Word) (half die : Nat) (k : KeyKind) (s : State), s.ready h 0x0B03 (if kind =
      2 then .owner half else .owner die) = true → s.loadTarget kind.toNat target.toNat = some (half, die, k) → s.errorState =
      false → s.lifecycle ≠ 0 → s.lifecycle ≠ 3 → (key.length = 4 ∨ key.length = 8) → s.unclaimed [(half, .kv), clusterBlk die] = true → s.isOfficer
      h.path = true → s.tampered = false → s.flag .secCfgStrict 0 = false → s.clusterOut die = false → s.vaultRoom half (if k
      = .msk then mskKeys target.toNat die (wordsNat key) (32 * key.length) else [⟨k, target.toNat, die, wordsNat key, 32 *
      key.length, 0, true⟩]).length (decide (k = .job)) = true →
    let ks : List VKey := if k = .msk then mskKeys target.toNat die (wordsNat key) (32 * key.length) else [⟨k, target.toNat,
      die, wordsNat key, 32 * key.length, 0, true⟩]
    exec (.keyLoad h kind target key 1) s = waiting h 0x0B03 s (fun u => State.modCipher u.notApproved (fun c =>
      { c with deliveries := c.deliveries ++ [⟨callerOf h 0x0B03, half, (u.notApproved.freeHandles half ks.length).zip ks, ((u.notApproved.freeHandles half ks.length).take 1).map (BitVec.ofNat 32)⟩] }))) ∧
  (∀ (h : Hdr) (kind target : Word) (key : List Word) (half die : Nat) (k : KeyKind) (s : State), s.ready h 0x0B03 (if kind =
      2 then .owner half else .owner die) = true → s.loadTarget kind.toNat target.toNat = some (half, die, k) → s.errorState =
      false → s.lifecycle ≠ 0 → s.lifecycle ≠ 3 → (key.length = 6 ∨ key.length = 10) → s.unclaimed [(half, .kv), clusterBlk die] = true → s.isOfficer
      h.path = true → s.tampered = false → s.cipher.klkErased.has (pathCode h.path) = false → s.clusterOut die = false →
      s.vaultRoom half (if k = .msk then 4 else 1) (decide (k = .job)) = true →
    let ks : Nat → List VKey := fun v => if k = .msk then mskKeys target.toNat die v (32 * (key.length - 2)) else [⟨k,
      target.toNat, die, v, 32 * (key.length - 2), 0, true⟩]
    exec (.keyLoad h kind target key 0) s = (match unwrap (s.cipher.klks.find (pathCode h.path)) false key with
      | some v => waiting h 0x0B03 s (fun u => u.modCipher (fun c =>
          { c with deliveries := c.deliveries ++ [⟨callerOf h 0x0B03, half, (s.freeHandles half (ks v).length).zip (ks v),
            ((s.freeHandles half (ks v).length).take 1).map (BitVec.ofNat 32)⟩] }))
      | none => completed h 0x0B03 s (fun u => u.report .kvUnwrapBad half .kvUnwrapBad half 0) [] .badParam)) ∧
  (∀ (half : BitVec 1) (d : Delivery) (s : State), s.cipher.deliveries.find? (fun d => d.half = half.toNat) = some d →
    exec (.keyDelivered half) s = .next (((s.modCipher (fun c =>
      { c with deliveries := c.deliveries.filter (fun e => decide (e ≠ d)) })).installKeys d.keys).answer d.caller .ok
      d.words)) ∧
  (∀ (h : Hdr) (handle : Word) (k : VKey) (s : State), s.ready h 0x0B04 (.owner (halfOfHandle handle.toNat)) = true →
      s.errorState = false → s.lifecycle ≠ 0 → s.lifecycle ≠ 3 → s.vault.find handle.toNat = some k → s.unclaimed [(halfOfHandle
      handle.toNat, .kv), clusterBlk k.die] = true → s.isOfficer h.path = true → k.inVault = true → s.inForce handle.toNat k = false →
    exec (.keyErase h handle) s = completed h 0x0B04 s (fun u =>
      { u with vault := u.vault.del handle.toNat, secys := u.secys.map (fun p => (p.1, p.2.without (fun x => x = handle.toNat))) })) ∧
  (∀ (h : Hdr) (tree : Word) (onus : List Word) (slot : Nat) (s : State), s.ready h 0x0B05 (.owner (dieOfTree (tree.toNat %
      32))) = true → s.errorState = false → s.lifecycle ≠ 0 → s.lifecycle ≠ 3 → tree.toNat ≤ 31 → onus.length ≤ 64 → onus.any
      (fun o => ((s.onu o.toNat).map (fun x => x.tree)) ≠ some tree.toNat) = false → s.unclaimed [(halfOfTree (tree.toNat % 32),
      .kv), clusterBlk (dieOfTree tree.toNat)] = true → s.isOfficer h.path = true → s.tampered = false → onus.any (fun o => s.cipher.kekErased.has o.toNat) =
      false → s.clusterOut (dieOfTree tree.toNat) = false → s.bcastFree tree.toNat = some slot → s.slotHeld (.broadcast slot) tree.toNat slot = false → s.vaultRoom (halfOfTree
      (tree.toNat % 32)) 1 false = true →
    let v := s.free % 2 ^ 128
    let hs := s.freeHandles (halfOfTree (tree.toNat % 32)) 1
    exec (.keyBcastNew h tree onus) s = waiting h 0x0B05 s (fun u => State.modCipher u.drawn (fun c =>
      { c with deliveries := c.deliveries ++ [⟨callerOf h 0x0B05, halfOfTree (tree.toNat % 32), hs.zip [⟨.broadcast slot, tree.toNat, dieOfTree tree.toNat, v, 128, 0, true⟩], hs.map (BitVec.ofNat 32) ++ onus.flatMap (fun o => natWords 4 (Config.standard 8 [s.kekOf o.toNat, v] % 2 ^ 128))⟩] }))) ∧
  (∀ (h : Hdr) (tree cHi cLo : Word) (slot : Nat) (k : Nat × VKey) (s : State), s.ready h 0x0B06 (.owner (dieOfTree
      (tree.toNat % 32))) = true → s.errorState = false → s.lifecycle ≠ 0 → s.lifecycle ≠ 3 → tree.toNat ≤ 31 → cHi.toNat * 2
      ^ 32 + cLo.toNat < 2 ^ 51 → 64 ≤ s.framesTo tree.toNat (cHi.toNat * 2 ^ 32 + cLo.toNat) → s.claimed (halfOfTree
      (tree.toNat % 32)) .kv = false → s.isOfficer h.path = true → s.launched tree.toNat = true → s.bcastFree tree.toNat =
      some slot → s.keyOf (.broadcast slot) tree.toNat = some k →
    exec (.keyBcastSwitch h tree cHi cLo) s = completed h 0x0B06 s (fun u => u.modCipher (fun c =>
      { c with bcast := c.bcast.put tree.toNat ((s.bcastOf tree.toNat).1, some (cHi.toNat * 2 ^ 32 + cLo.toNat, slot)) }) |>.tellKey k.2
        (some (cHi.toNat * 2 ^ 32 + cLo.toNat)))) ∧
  (∀ (h : Hdr) (w : SaWords) (k : VKey) (s : State), s.ready h 0x0B07 (.owner (dieOfLane (w.port.toNat % 64))) = true →
      s.errorState = false → s.lifecycle ≠ 0 → s.lifecycle ≠ 3 → w.port.toNat ≤ 63 → s.portOf w.port.toNat = w.port.toNat →
      w.dir = 1 → w.an.toNat ≤ 3 → w.suite.toNat ≤ 3 → w.offset.toNat ≤ 2 → w.validate.toNat < 2 → w.pnHi.toNat * 2 ^ 32 +
      w.pnLo.toNat ≠ 0 → (w.suite.toNat < 2 → w.pnHi.toNat * 2 ^ 32 + w.pnLo.toNat < 2 ^ 32) → s.vault.find w.handle.toNat =
      some k → k.kind = .sak → k.owner = w.port.toNat → k.bits = (if w.suite.toNat % 2 = 0 then 128 else 256) → s.claimed
      (dieOfLane (w.port.toNat % 64)) .msc = false → s.isOfficer h.path = true → k.inVault = true → s.rxSas (dieOfLane
      (w.port.toNat % 64)) < 2048 → (s.secy w.port.toNat).channels.length < 64 →
    let p := w.port.toNat
    exec (.keyMscSaSet h w) s = completed h 0x0B07 s (fun u => (((u.setSecy p
      { s.secy p with rx := (s.secy p).rx.put ((w.sciHi.toNat * 2 ^ 32 + w.sciLo.toNat) * 4 + w.an.toNat) ⟨w.suite.toNat, w.handle.toNat, w.pnHi.toNat * 2 ^ 32 + w.pnLo.toNat, w.salt.toNat, w.ssci.toNat, w.window.toNat, false, w.sciHi.toNat * 2 ^ 32 + w.sciLo.toNat⟩ }).setFld
      .mscPortCfgOffset p w.offset.toNat).setFld .mscPortCfgStrict p w.validate.toNat).setFlag .mscPortCfgEn p true)) ∧
  (∀ (h : Hdr) (w : SaWords) (k : VKey) (s : State), s.ready h 0x0B07 (.owner (dieOfLane (w.port.toNat % 64))) = true →
      s.errorState = false → s.lifecycle ≠ 0 → s.lifecycle ≠ 3 → w.port.toNat ≤ 63 → s.portOf w.port.toNat = w.port.toNat →
      w.dir = 0 → w.an.toNat ≤ 3 → w.suite.toNat ≤ 3 → w.offset.toNat ≤ 2 → w.validate.toNat < 2 → w.pnHi.toNat * 2 ^ 32 +
      w.pnLo.toNat ≠ 0 → (w.suite.toNat < 2 → w.pnHi.toNat * 2 ^ 32 + w.pnLo.toNat < 2 ^ 32) → s.vault.find w.handle.toNat =
      some k → k.kind = .sak → k.owner = w.port.toNat → k.bits = (if w.suite.toNat % 2 = 0 then 128 else 256) → s.claimed
      (dieOfLane (w.port.toNat % 64)) .msc = false → s.isOfficer h.path = true → k.inVault = true → ((s.fld .mscPortCfgTxAn w.port.toNat) ≠ w.an.toNat ∨ (s.secy w.port.toNat).tx.has w.an.toNat = false) →
    let p := w.port.toNat
    let y := s.secy p
    let inUse := s.fld .mscPortCfgTxAn p
    let x : MscSa := ⟨w.suite.toNat, w.handle.toNat, w.pnHi.toNat * 2 ^ 32 + w.pnLo.toNat, w.salt.toNat, w.ssci.toNat, w.window.toNat, false, w.sciHi.toNat * 2 ^ 32 + w.sciLo.toNat⟩
    exec (.keyMscSaSet h w) s = completed h 0x0B07 s (fun u =>
      let v := (((u.setSecy p { y with tx := y.tx.put w.an.toNat x, txZero := y.txZero && decide (w.an.toNat ≠ inUse) }).setFld
        .mscPortCfgOffset p w.offset.toNat).setFld .mscPortCfgStrict p w.validate.toNat).setFlag .mscPortCfgEn p true
      if w.an.toNat = inUse then v.setFlag .mscPortCfgProtect p true else v)) ∧
  (∀ (h : Hdr) (port an : Word) (s : State), s.ready h 0x0B08 (.owner (dieOfLane (port.toNat % 64))) = true → s.errorState =
      false → s.lifecycle ≠ 0 → s.lifecycle ≠ 3 → port.toNat ≤ 63 → s.portOf port.toNat = port.toNat → an.toNat ≤ 3 → (s.secy
      port.toNat).tx.has an.toNat = true → s.claimed (dieOfLane port.toNat) .msc = false → s.isOfficer h.path = true →
    exec (.keyMscTxSwitch h port an) s = completed h 0x0B08 s (fun u => ((u.setSecy port.toNat
      { s.secy port.toNat with txZero := false }).setFld .mscPortCfgTxAn port.toNat an.toNat).setFlag .mscPortCfgProtect
      port.toNat true)) ∧
  (∀ (h : Hdr) (port : Word) (s : State), s.ready h 0x0B09 (.owner (dieOfLane (port.toNat % 64))) = true → s.errorState =
      false → s.lifecycle ≠ 0 → s.lifecycle ≠ 3 → port.toNat ≤ 63 → s.portOf port.toNat = port.toNat →
    let p := port.toNat
    let y := s.secy p
    exec (.keyMscStatus h port) s = completed h 0x0B09 s id (s.reg .mscPortCfg p :: listWords (y.tx.flatMap (fun x =>
      [BitVec.ofNat 32 x.1, BitVec.ofNat 32 x.2.handle] ++ wordsOf 64 x.2.pn)) ++ listWords (y.rx.flatMap (fun x => wordsOf 64
      (x.1 / 4) ++ [BitVec.ofNat 32 (x.1 % 4), BitVec.ofNat 32 x.2.handle] ++ wordsOf 64 x.2.pn)) ++ [Ctr.mscNoSa,
      .mscUntagged, .mscReplay, .mscIcvBad, .mscPnExhaust, .mscTxZero].flatMap (fun c => ctrWords (s.ctr c p))))

/-- The KEY commands of jobs, zeroization and self-tests have their effects and answer. R421, R425, R429, R434. -/
def Obligations.KeyServiceCommandsComplete : Prop :=
  (∀ (h : Hdr) (w : JobWords) (k : VKey) (s : State), s.ready h 0x0B0A (.owner (w.half.toNat % 2)) = true → s.errorState =
      false → s.lifecycle ≠ 0 → s.lifecycle ≠ 3 → w.dir.toNat ≤ 1 → (jobOf w (callerOf h 0x0B0A)).ok = true → s.vault.find
      w.handle.toNat = some k → k.kind = .job → k.owner = w.half.toNat → s.claimed (w.half.toNat) .kv = false → (w.mode.toNat = modeKw → s.isOfficer h.path = true) → s.bankOn w.half.toNat w.bank.toNat = true → s.bankOwner w.half.toNat w.bank.toNat = 4 → (s.cipher.jobs.filter (fun x => x.half = w.half.toNat)).length < 16
      → (s.start (callerOf h 0x0B0A)).asyncFull = false → s.clusterOut (6 + w.half.toNat) = false → k.inVault = true →
      (w.dir = 0 → (w.mode.toNat = modeGcm ∨ w.mode.toNat = modeCtr) → k.count + (s.cipher.jobs.filter (fun x => x.handle = w.handle.toNat)).length + 1 < 2 ^ 64) →
    exec (.keyJob h w) s = completed h 0x0B0A s (fun u => (u.settleBank w.half.toNat w.bank.toNat).modCipher (fun c =>
      { c with jobs := c.jobs ++ [jobOf w (callerOf h 0x0B0A)] })) [] .accepted) ∧
  (∀ (half : BitVec 1) (j : Job) (k : VKey) (s : State), s.cipher.jobs.find? (fun j => j.half = half.toNat) = some j →
      s.vault.find j.handle = some k →
    let u := ((s.dropJob j).jobIv j k).2.cipherItem (6 + j.half) 0 jobEgress (j.inLen + j.aadLen) j.chained
      |>.noteBytes j.half j.bank j.inOff j.inLen |>.noteBytes j.half j.bank j.aadOff j.aadLen
    let iv := ((s.dropJob j).jobIv j k).1
    let inputs := [j.mode, j.back.toNat, k.bits, k.value, iv, j.inLen, j.aadLen] ++ u.padBytes j.half j.bank j.inOff j.inLen ++
      u.padBytes j.half j.bank j.aadOff j.aadLen
    let tag := Config.standard 21 inputs % 2 ^ 128
    let good := (List.range j.outLen).map (fun i => Config.standard 20 (i :: inputs) % 256)
    let zeros := (List.range j.outLen).map (fun _ => 0)
    let packed := fun (out : List Nat) => (List.range (ceilDiv j.outLen 4)).map (fun i => BitVec.ofNat 32 ((List.range 4).foldl
      (fun a b => a * 256 + out.getD (4 * i + b) 0) 0))
    let ends := fun (v : State) (ws : List Word) => exec (.jobDone half) s = .next (v.answer j.caller .ok (natWords (ivWords j.mode) iv ++ ws))
    (j.back = false → (j.mode = modeGcm ∨ j.mode = modeCmac) →
      ends (u.writeBytes j.half j.bank j.outOff good) (natWords 4 tag ++ [1] ++ packed good)) ∧
    (j.back = false → j.mode ≠ modeGcm → j.mode ≠ modeCmac →
      ends (u.writeBytes j.half j.bank j.outOff good) ([1] ++ packed good)) ∧
    (j.back = true → ((j.mode = modeGcm ∨ j.mode = modeCmac) ∧ tag = wordsNat j.tag ∨ j.mode = modeKw ∧ Config.standard 22 inputs = 1
        ∨ j.mode < 4) →
      ends (u.writeBytes j.half j.bank j.outOff good) ([1] ++ packed good)) ∧
    (j.back = true → ((j.mode = modeGcm ∨ j.mode = modeCmac) ∧ tag ≠ wordsNat j.tag ∨ j.mode = modeKw ∧ Config.standard 22 inputs ≠ 1) →
      ends ((u.writeBytes j.half j.bank j.outOff zeros).count .mscJobAuthFail (6 + j.half)) ([0] ++ packed zeros))) ∧
  (∀ (h : Hdr) (scope object : Word) (d : Nat) (s : State), s.ready h 0x0B0B (.owner d) = true → s.errorState = false →
      s.lifecycle ≠ 0 → s.lifecycle ≠ 3 → zScopeOf scope.toNat object.toNat = some (.die d) → s.unclaimed (ZScope.blocks (.die d)) = true →
    exec (.keyZeroize h scope object) s = completed h 0x0B0B s (fun u => u.zeroize (.die d))) ∧
  (∀ (h : Hdr) (scope object : Word) (d k : Nat) (s : State), s.ready h 0x0B0B (.owner d) = true → s.errorState = false →
      s.lifecycle ≠ 0 → s.lifecycle ≠ 3 → zScopeOf scope.toNat object.toNat = some (.cluster d k) → s.unclaimed (ZScope.blocks (.cluster d k)) = true →
    exec (.keyZeroize h scope object) s = completed h 0x0B0B s (fun u => u.zeroize (.cluster d k))) ∧
  (∀ (h : Hdr) (scope object : Word) (s : State), s.ready h 0x0B0B (.package) = true → s.errorState = false → s.lifecycle ≠ 0
      → s.lifecycle ≠ 3 → zScopeOf scope.toNat object.toNat = some .package → s.unclaimed (ZScope.blocks .package) = true →
    exec (.keyZeroize h scope object) s = completed h 0x0B0B s (fun u => u.zeroize .package)) ∧
  (∀ (h : Hdr)  (s : State), s.ready h 0x0B0C (.oneOf (List.range 8)) = true → s.errorState = false → s.lifecycle ≠ 0 →
      s.lifecycle ≠ 3 → s.unclaimed (if h.die.toNat < 2 then [] else [clusterBlk h.die.toNat]) = true →
      s.cipher.tests.any (fun t => t.1 = h.die.toNat) = false → (s.start (callerOf h 0x0B0C)).asyncFull =
      false →
    exec (.keySelftest h) s = completed h 0x0B0C s (fun u => u.modCipher (fun c =>
      { c with tests := c.tests ++ [(h.die.toNat, callerOf h 0x0B0C)] })) [] .accepted) ∧
  (∀ (die : BitVec 3) (failed : List (BitVec 7)) (shared : Bool) (t : Nat × Caller) (s : State), s.cipher.tests.find? (fun t
      => t.1 = die.toNat) = some t →
    exec (.selftestDone die failed shared) s = .next (((s.modCipher (fun c =>
      { c with tests := c.tests.filter (fun x => x.1 != die.toNat) })).testDie die.toNat (failed.map BitVec.toNat)
      shared).answer t.2 .ok (BitVec.ofNat 32 (!shared).toNat :: listWords ((failed.map BitVec.toNat).map (BitVec.ofNat 32))))) ∧
  (∀ (h : Hdr)  (s : State), s.ready h 0x0B0D (.package) = true → s.errorState = false → s.lifecycle ≠ 0 →
    exec (.keyStatus h) s = completed h 0x0B0D s id ([s.secStatWord (pathCode h.path), s.reg .secAlarm 0] ++ [0, 1].map (fun
      half => BitVec.ofNat 32 (s.vault.filter (fun p => p.1 / 2 ^ 31 = half && p.2.inVault)).length) ++ [0, 1, 2].map (fun p
      => BitVec.ofNat 32 (s.cipher.roles.has p).toNat)))

/-- Each unmasked alarm latches its cause, is counted and raised, and zeroizes its scope. R424, R566, R425. -/
def Obligations.AlarmsZeroize : Prop :=
  (∀ (s : State), (s.fld .secCfgAlarmMask 0).testBit 8 = false →
    let v := s.drive .tamperN 0 0
    let w := State.zeroize ((v.latchBits .secAlarm 0 (BitVec.ofNat 32 (2 ^ 8))).report .secAlarm 0
      .secAlarm 15 0) .package
    exec (.tamperInput) s = .next ((State.setFld w .secLifecycleTamper 0 (min 32 (w.fld .secLifecycleTamper 0 + 1))))) ∧
  (∀ (s : State), (s.fld .secCfgAlarmMask 0).testBit 6 = false →
    let v := s
    let w := State.zeroize ((v.latchBits .secAlarm 0 (BitVec.ofNat 32 (2 ^ 6))).report .secAlarm 0
      .secAlarm 15 0) .package
    exec (.shieldBreak) s = .next ((State.setFld w .secLifecycleTamper 0 (min 32 (w.fld .secLifecycleTamper 0 + 1))))) ∧
  (∀ (die : BitVec 3) (s : State), s.dieFused die.toNat = false → (s.fld .secCfgAlarmMask 0).testBit 7 = false →
    let v := s
    let w := State.zeroize ((v.latchBits .secAlarm 0 (BitVec.ofNat 32 (2 ^ 7))).report .secAlarm 0
      .secAlarm die.toNat 0) .package
    exec (.lightDetect die) s = .next ((State.setFld w .secLifecycleTamper 0 (min 32 (w.fld .secLifecycleTamper 0 + 1))))) ∧
  (∀ (die : BitVec 3) (s : State), s.dieFused die.toNat = false → (s.fld .secCfgAlarmMask 0).testBit 5 = false →
    let v := s
    exec (.temperatureAlarm die) s = .next ((State.zeroize (State.report (v.latchBits .secAlarm 0 (BitVec.ofNat 32 (2 ^ 5))) .secAlarm 0 .secAlarm die.toNat 0) .package))) ∧
  (∀ (die : BitVec 3) (s : State), s.dieFused die.toNat = false → (s.fld .secCfgAlarmMask 0).testBit 3 = false →
    let v := s
    exec (.voltageGlitch die) s = .next ((State.zeroize (State.report (v.latchBits .secAlarm 0 (BitVec.ofNat 32 (2 ^ 3))) .secAlarm 0 .secAlarm die.toNat 0) (.die die.toNat)))) ∧
  (∀ (die : BitVec 3) (s : State), s.dieFused die.toNat = false → (s.fld .secCfgAlarmMask 0).testBit 4 = false →
    let v := s
    exec (.clockGlitch die) s = .next ((State.zeroize (State.report (v.latchBits .secAlarm 0 (BitVec.ofNat 32 (2 ^ 4))) .secAlarm 0 .secAlarm die.toNat 0) (.die die.toNat)))) ∧
  (∀ (die : BitVec 3) (core : BitVec 7) (s : State), s.dieFused die.toNat = false → 2 ≤ die.toNat → (s.fld .secCfgAlarmMask 0).testBit 0 = false →
    let v := s
    exec (.duplicateRoundMismatch die core) s = .next ((State.zeroize (State.report (v.latchBits .secAlarm 0 (BitVec.ofNat 32 (2 ^ 0))) .secAlarm 0 .secAlarm die.toNat 0) (.cluster die.toNat (core.toNat / 64))))) ∧
  (∀ (die : BitVec 3) (core : BitVec 7) (s : State), s.dieFused die.toNat = false → 2 ≤ die.toNat → (s.fld .secCfgAlarmMask 0).testBit 1 = false →
    let v := s
    exec (.drbgRepeat die core) s = .next ((State.zeroize (State.report (v.latchBits .secAlarm 0 (BitVec.ofNat 32 (2 ^ 1))) .secAlarm 0 .secAlarm die.toNat 0) (.cluster die.toNat (core.toNat / 64))))) ∧
  (∀ (die : BitVec 3) (s : State), s.dieFused die.toNat = false → (s.fld .secCfgAlarmMask 0).testBit 2 = false →
    let v := s
    exec (.entropyHealthFail die) s = .next ((State.zeroize (State.report (v.latchBits .secAlarm 0 (BitVec.ofNat 32 (2 ^ 2))) .secAlarm 0 .secAlarm die.toNat 0) (.die die.toNat)))) ∧
  (∀ (die : BitVec 3) (core : BitVec 7) (s : State), s.dieFused die.toNat = true →
    exec (.lightDetect die) s = .next s ∧ exec (.temperatureAlarm die) s = .next s ∧ exec (.voltageGlitch die) s = .next s ∧
    exec (.clockGlitch die) s = .next s ∧ exec (.duplicateRoundMismatch die core) s = .next s ∧
    exec (.drbgRepeat die core) s = .next s ∧ exec (.entropyHealthFail die) s = .next s) ∧
  (∀ (die : BitVec 3) (s : State),
    let m := fun (k : Nat) => (s.fld .secCfgAlarmMask 0).testBit k = true
    (m 8 → exec (.tamperInput) s = .next (s.drive .tamperN 0 0)) ∧ (m 6 → exec (.shieldBreak) s = .next s) ∧
    (m 7 → exec (.lightDetect die) s = .next s) ∧ (m 5 → exec (.temperatureAlarm die) s = .next s) ∧
    (m 3 → exec (.voltageGlitch die) s = .next s) ∧ (m 4 → exec (.clockGlitch die) s = .next s) ∧
    (m 2 → exec (.entropyHealthFail die) s = .next s)) ∧
  (∀ (s : State),
    exec (.tamperNRelease) s = .next ({ s.drive .tamperN 0 1 with trust := { s.trust with tamperHigh := max 1 s.elapsed } }))

/-- The TRUST commands have their effects and answer. R569, R561, R568, R571, R563, R565. -/
def Obligations.TrustCommandsComplete : Prop :=
  (∀ (h : Hdr) (nonce : List Word) (key : Nat) (s : State), s.ready h 0x1100 (.package) = true → s.errorState = false →
      nonce.length = 12 → s.lifecycle ≠ 0 → s.cipher.identity = some key →
    exec (.trustAttest h nonce) s = completed h 0x1100 s id ((s.start (callerOf h 0x1100)).attestBody (pathCode h.path) nonce
      ++ natWords 24 (Config.standard 6 [key, sha384 (((s.start (callerOf h 0x1100)).attestBody (pathCode h.path) nonce).map
      BitVec.toNat)]))) ∧
  (∀ (h : Hdr)  (s : State), s.ready h 0x1101 (.package) = true → s.errorState = false →
    exec (.trustCertRead h) s = completed h 0x1101 s id (certWords 0 ++ certWords 1)) ∧
  (∀ (h : Hdr) (bank len : Word) (s : State), s.ready h 0x1102 (.package) = true → s.errorState = false → bank.toNat ≤ 63 →
      len.toNat ≤ bankWords 0 bank.toNat * 4 → s.claimed (0) .sq = false → s.lifecycle ≠ 0 → s.lifecycle ≠ 3 → s.trust.pending
      = none → (s.start (callerOf h 0x1102)).asyncFull = false → s.bankOn 0 bank.toNat = true → s.bankOwner 0 bank.toNat = 0 → h.path ≠ .inband →
    let judged := fun (a : State) => if a.imageOk (if 1892 < len.toNat then [] else a.padBytes 0 bank.toNat 0 len.toNat) then
      { a with trust := { a.trust with staged := some (imageDarn (if 1892 < len.toNat then [] else a.padBytes 0 bank.toNat 0 len.toNat)), pending := some (imageDarn (if 1892 < len.toNat then [] else a.padBytes 0 bank.toNat 0 len.toNat), callerOf h 0x1102, a.elapsed, bank.toNat) } }
      else (a.report .secDarnReject 0 .secDarnReject 15 0).answer (callerOf h 0x1102) .badParam []
    exec (.trustDarnLoad h bank len) s = waiting h 0x1102 s (fun u => judged (State.noteBytes (State.settleBank (u.answer (callerOf h 0x1102)
      .accepted []) 0 bank.toNat) 0 bank.toNat 0 len.toNat))) ∧
  (∀ (h : Hdr) (bank len : Word) (s : State), s.ready h 0x1102 (.package) = true → s.errorState = false → bank.toNat ≤ 63 →
      len.toNat ≤ bankWords 0 bank.toNat * 4 → s.claimed (0) .sq = false → s.lifecycle ≠ 0 → s.lifecycle ≠ 3 → s.trust.pending
      = none → (s.start (callerOf h 0x1102)).asyncFull = false → s.bankOn 0 bank.toNat = true → (s.bankOwner 0 bank.toNat ≠ 0 ∨ h.path = .inband) →
    exec (.trustDarnLoad h bank len) s = waiting h 0x1102 s (fun u => ((u.answer (callerOf h 0x1102) .accepted []).nonOwner 0).answer
      (callerOf h 0x1102) .notOwner [])) ∧
  (∀ (h : Hdr)  (s : State), s.ready h 0x1103 (.package) = true → s.errorState = false →
    let counts := (s.trust.darn.map (fun x => x.counts)).getD (0, 0, 0)
    exec (.trustDarnStatus h) s = completed h 0x1103 s id (s.reg .sqDarnLevel 0 :: natWords 12 ((s.trust.darn.map (fun x =>
      x.digest)).getD 0) ++ [counts.1, counts.2.1, counts.2.2, s.fld .secLifecycleRb 0].map (BitVec.ofNat 32))) ∧
  (∀ (h : Hdr) (authority : List Word) (s : State), s.ready h 0x1104 (.package) = true → s.errorState = false →
      s.trust.pending = none → s.lifecycle = 1 →
    let hashed := fun (u : State) => ((List.range 12).zip (natWords 12 (hashOf (authority.take 25)))).foldl (fun v p =>
      v.setReg .secOwnerHash p.1 p.2) u
    exec (.trustLifecycle h 2 authority) s = completed h 0x1104 s (fun u => if ownAuthority authority then ((hashed u).setFld
      .secLifecycleCosign 0 (authority.getD 25 0).toNat).setFld .secLifecycleState 0 2 else u.count .secLcReject 0) [] (if
      ownAuthority authority then .ok else .unauthorized)) ∧
  (∀ (h : Hdr) (authority : List Word) (s : State), s.ready h 0x1104 (.package) = true → s.errorState = false →
      s.trust.pending = none → s.lifecycle = 2 →
    exec (.trustLifecycle h 3 authority) s = completed h 0x1104 s (fun u => if s.retireAuthority authority then ((u.zeroize
      .package).modCipher (fun c => { c with roles := [] })).setFld .secLifecycleState 0 3 else u.count .secLcReject 0) [] (if s.retireAuthority authority then .ok else
      .unauthorized)) ∧
  (∀ (h : Hdr) (target : Word) (authority : List Word) (s : State), s.ready h 0x1104 (.package) = true → s.errorState = false →
      s.trust.pending = none → ¬(target = 2 ∧ s.lifecycle = 1) → ¬(target = 3 ∧ s.lifecycle = 2) →
    exec (.trustLifecycle h target authority) s = completed h 0x1104 s (fun u => u.count .secLcReject 0) [] .unauthorized)

/-- Reset leaves the reset words the spec gives, and every queue empty. R74, R522, R539, R405, R351, R406. -/
def Obligations.ResetLeavesTheResetWords : Prop :=
  ((State.reset.reg .tbIncr 0 = 1 ∧ State.reset.tb.frac = 0x9999999A) ∧ (∀ g, State.reset.reg .evtMask g = 0xFFFFFFFF) ∧ (∀ g < 27, State.reset.fld .evtRouteVector g = g) ∧ (∀ die k, k < 16 → State.reset.fld .sqTmoTmo (die * 128 + k) = 2 ^ (k + 4)) ∧ (∀ i, State.reset.reg .gtCycle i = 1000000000) ∧ (∀ i, State.reset.fld .qmPrfCellsMax i = 16384) ∧ (∀ k g t, (State.reset.storeOf k).maskAt g t = 0xFF)) ∧
  ((∀ c i, State.reset.ctr c i = 0) ∧ (∀ k q, (State.reset.queue k q).frames = []) ∧ State.reset.pending = [] ∧ State.reset.evRing = [] ∧ State.reset.flights = [] ∧ (∀ c, (State.reset.chan c).ploams = []))

/-- After reset the event ring and the dies' record queues are within their bounds. R517, R519. -/
def Obligations.EventsBoundedAtReset : Prop :=
  EventsBounded State.reset

/-- No step lets the event ring exceed 4,096 records. R517, R519. -/
def Obligations.EventRingStaysBounded : Prop :=
  ∀ s s' : State, s.evRing.length ≤ 4096 → step s = .next s' → s'.evRing.length ≤ 4096

/-- No step lets a die queue more than 64 event records. R517. -/
def Obligations.EventQueuesStayBounded : Prop :=
  ∀ s s' : State, (∀ die, (Tbl.getD s.evQueue die []).length ≤ 64) → step s = .next s' → ∀ die, (Tbl.getD s'.evQueue die []).length ≤ 64

/-- Increments outside 1.2 ns to 2.0 ns are rejected. R44. -/
def Obligations.IncrementOutsideRangeIsRejected : Prop :=
  (∀ v : Nat, incrOk v = true ↔ 12 * 2 ^ 32 ≤ 10 * v ∧ 10 * v ≤ 20 * 2 ^ 32) ∧
  (∀ (h : Hdr) (int frac : Word) (s : State), s.ready h 0x0101 (.owner 0) = true → incrOk (int.toNat * 2 ^ 32 + frac.toNat) =
      true → s.claimed 0 .tb = false →
    exec (.timeIncrSet h int frac) s = completed h 0x0101 s (fun u => u.installIncr (int.toNat * 2 ^ 32 + frac.toNat))) ∧
  (∀ (v : Nat) (s : State), incrOk v = true → (s.installIncr v).incr = v) ∧
  (∀ (h : Hdr) (int frac : Word) (s : State), s.ready h 0x0101 (.owner 0) = true → incrOk (int.toNat * 2 ^ 32 + frac.toNat) =
      false →
    exec (.timeIncrSet h int frac) s = completed h 0x0101 s (fun u => u.report .tbIncrReject 0 .tbIncrReject 0 0) [] .badParam) ∧
  (∀ s : State, (s.report .tbIncrReject 0 .tbIncrReject 0 0).incr = s.incr ∧ (∀ r i, r ≠ .evtStat → (s.report .tbIncrReject 0 .tbIncrReject 0 0).reg r i = s.reg r i)) ∧
  (∀ (p : APath) (data : Word) (s : State), s.mayRwc p 0 .tb = true → incrOk (fldOf .tbIncrInt data * 2 ^ 32 + (s.reg .tbIncrFrac (apathCode p)).toNat) = false → s.writeTbIncr p data = s.report .tbIncrReject 0 .tbIncrReject 0 0)

/-- The mask of a gate list at an instant is that of the last entry begun in its cycle. R386. -/
def Obligations.GateMaskInForce : Prop :=
  ∀ (x : Store) (g t : Nat) (l : GateList), x.listAt g t = some l → l.start ≤ t → l.entries ≠ [] → 0 < l.cycle →
    let off := fun (i : Nat) => ((l.entries.take i).map Prod.fst).sum
    let pos := (t - l.start) % nsSpan l.cycle
    ∃ i e, l.entries[i]? = some e ∧ off i < l.cycle ∧ nsSpan (off i) ≤ pos ∧
      (∀ j, i < j → j < l.entries.length → off j < l.cycle → pos < nsSpan (off j)) ∧ x.maskAt g t = e.2

/-- Reads and writes through the register windows, of whole words, of the halves of split values and of the forms of the I3C target, have
their effects. R503, R504, R506, R507. -/
def Obligations.RegisterAccessesComplete : Prop :=
  (∀ (a : RegAccess) (r : Reg) (i : Nat) (s : State), s.reaches a true r i = true → s.mayLand a r i = true → isHi r = false → hiOf r = none →
    exec (.registerWrite a) s = .next ((s.writeInst a.path (accDie a) r i a.idx a.data).noteBefore s a.path (accDie a) r i a.idx)) ∧
  (∀ (a : RegAccess) (r : Reg) (i : Nat) (s : State), s.reaches a true r i = true → s.mayLand a r i = true → isHi r = true →
      (r = .lshRingBaseHi ∨ s.mayRwc a.path (accDie a) r.block = true) →
    let m := s.meet a.path (accDie a) r i a.data
    exec (.registerWrite a) s = .next { m.1 with win := { m.1.win with
      stagedHi := m.1.win.stagedHi.put (hiKey (accDie a) a.path r a.idx) m.2 } }) ∧
  (∀ (a : RegAccess) (r hi : Reg) (i : Nat) (v : Word) (s : State), s.reaches a true r i = true → s.mayLand a r i = true → isHi r = false →
      hiOf r = some hi → s.win.stagedHi.find (hiKey (accDie a) a.path hi a.idx) = some v →
    let u := { s with win := { s.win with stagedHi := s.win.stagedHi.del (hiKey (accDie a) a.path hi a.idx) } }
    exec (.hiLoWriteCommit a) s = .next (((u.writeInst a.path (accDie a) hi i a.idx v).writeInst a.path (accDie a) r i a.idx a.data).noteBefore
      s a.path (accDie a) r i a.idx)) ∧
  (∀ (a : RegAccess) (r hi : Reg) (i : Nat) (s : State), s.reaches a false r i = true → isHi r = false → hiOf r = some hi →
    exec (.hiLoReadLatch a) s = .next (State.send { s with win := { s.win with
      shadow := s.win.shadow.put (hiKey (accDie a) a.path hi a.idx) (s.readWord a.path (accDie a) hi i a.idx) } }
      (.regRead a.path (s.readWord a.path (accDie a) r i a.idx)))) ∧
  (∀ (a : RegAccess) (r : Reg) (i : Nat) (s : State), s.reaches a false r i = true → isHi r = false → hiOf r = none →
    exec (.hiLoReadLatch a) s = .next (s.send (.regRead a.path (s.readWord a.path (accDie a) r i a.idx)))) ∧
  (∀ (a : RegAccess) (r : Reg) (i : Nat) (w : Word) (s : State), s.reaches a false r i = true → isHi r = true → hiOf r = none →
      s.win.shadow.find (hiKey (accDie a) a.path r a.idx) = some w →
    exec (.hiLoReadLatch a) s = .next (State.send { s with win := { s.win with
      shadow := s.win.shadow.del (hiKey (accDie a) a.path r a.idx) } } (.regRead a.path w))) ∧
  (∀ (a : RegAccess) (c : Nat) (s : State), s.dieFused (accDie a) = false → s.accFault a true = some c →
    exec (.registerWrite a) s = .next (s.accError a c) ∧ exec (.hiLoWriteCommit a) s = .next (s.accError a c)) ∧
  (∀ (a : RegAccess) (c : Nat) (s : State), s.dieFused (accDie a) = false → s.accFault a false = some c →
    exec (.hiLoReadLatch a) s = .next ((s.accError a c).send (.regRead a.path 0))) ∧
  (∀ (b : List Byte) (r : Reg) (i idx : Nat) (s : State), s.i3cUp = true → b.length = 10 → b.take 2 = [0x57, 0x52] → beWord b 2 < 2 ^ 26 →
      isHi r = false → hiOf r = none →
    let a : RegAccess := ⟨.i3c, BitVec.ofNat 26 (beWord b 2), some r, idx, false, BitVec.ofNat 32 (beWord b 6)⟩
    s.reaches a true r i = true → s.mayLand a r i = true →
    exec (.i3cRegisterWrite b (some r) idx) s = .next ((s.writeInst .i3c (accDie a) r i idx a.data).noteBefore s .i3c (accDie a) r i idx)) ∧
  (∀ (b : List Byte) (r : Reg) (i idx : Nat) (s : State), s.i3cUp = true → b.length = 6 → b.take 2 = [0x52, 0x44] → beWord b 2 < 2 ^ 26 →
      isHi r = false → hiOf r = none →
    let a : RegAccess := ⟨.i3c, BitVec.ofNat 26 (beWord b 2), some r, idx, false, 0⟩
    s.reaches a false r i = true →
    exec (.i3cRegisterReadArm b (some r) idx) s = .next { s with laosh := { s.laosh with
      armedRead := some (s.readWord .i3c (accDie a) r i idx) } })

/-- The TANDEM commands have their effects and answer. R463, R440, R441, R442, R446, R450, R452, R454, R461. -/
def Obligations.TandemCommandsComplete : Prop :=
  (∀ (h : Hdr) (peer auto divThr lossThr : Word) (s : State), s.ready h 0x0E00 (.owner 6) = true → peer.toNat ≤ 1023 →
      peer.toNat ≠ s.fld .sysDevnumDevnum 0 → auto.toNat ≤ 1 → 1 ≤ divThr.toNat → divThr.toNat ≤ 15 → 1 ≤ lossThr.toNat →
      lossThr.toNat ≤ 255 → s.unclaimed [(6, .tnd)] = true →
    exec (.tandemPair h peer auto divThr lossThr) s = completed h 0x0E00 s (fun u =>
      let v := ((((u.setFld .tndPairCfgPeer 0 peer.toNat).setFld .tndPairCfgAuto 0 auto.toNat).setFld .tndPairCfgDivThr 0 divThr.toNat).setFld
        .tndPairCfgLossThr 0 lossThr.toNat).setFlag .tndPairCfgEn 0 true
      let w := if v.flag .tndPairCfgAuto 0 = true ∧ v.pin .hltPeerN 0 = 1 ∧ v.fld .tndPairStatHalter 0 = 0 then
        v.setFld .tndPairStatHalter 0 1 else v
      State.sendPair { w with tandem := { w.tandem with ephemeral := none } })) ∧
  (∀ (h : Hdr) (s : State), s.ready h 0x0E01 (.owner 6) = true → s.unclaimed [(6, .tnd)] = true →
    exec (.tandemUnpair h) s = completed h 0x0E01 s (fun u =>
      let v := (((List.range 32).filter u.protected).foldl State.unprotect u)
      (State.setFlag { v with tandem := { v.tandem with trees := [], pairKey := none, ephemeral := none } } .tndPairStatPaired 0
        false).setFlag .tndPairCfgEn 0 false)) ∧
  (∀ (h : Hdr) (tree on dfeed : Word) (s : State), s.ready h 0x0E02 (.owner (dieOfTree (tree.toNat % 32))) = true → tree.toNat ≤ 31 →
      on.toNat ≤ 1 → (signedOf 32 dfeed.toNat).natAbs ≤ 200000 → (on = 1 → s.flag .tndPairStatPaired 0 = true ∧
      20 ≤ s.fld .gntTreeCfgCutoff tree.toNat ∧ (s.tndTree tree.toNat).peerCfg = some (s.pairConfig tree.toNat)) →
      s.unclaimed [(6, .tnd)] = true →
    let t := tree.toNat
    exec (.tandemTreeProtect h tree on dfeed) s = completed h 0x0E02 s (fun u =>
      ((((u.setFld .tndTreeCfgDfeed t (unsignedOf 19 (signedOf 32 dfeed.toNat))).tellConfig t).modTndTree t
        (fun x => { x with want := decide (on = 1) })).tellNamed t).protectIfBoth t)) ∧
  (∀ (h : Hdr) (s : State), s.ready h 0x0E03 (.owner 6) = true → s.unclaimed [(6, .tnd)] = true → s.tandem.take = none →
      (s.start (callerOf h 0x0E03)).asyncFull = false →
    let c := callerOf h 0x0E03
    (s.ownsHalter = true → exec (.tandemTake h) s = waiting h 0x0E03 s (fun u => (u.answer c .accepted []).answer c .ok [])) ∧
    (s.ownsHalter = false → s.pin .hltPeerN 0 = 0 →
      exec (.tandemTake h) s = waiting h 0x0E03 s (fun u => (u.answer c .accepted []).answer c .busy [])) ∧
    (s.ownsHalter = false → s.pin .hltPeerN 0 ≠ 0 →
      exec (.tandemTake h) s = completed h 0x0E03 s (fun u => u.seek.modTandem (fun w => { w with take := some c })) [] .accepted)) ∧
  (∀ (h : Hdr) (s : State), s.ready h 0x0E04 (.owner 6) = true → s.unclaimed [(6, .tnd)] = true →
    exec (.tandemRelease h) s = completed h 0x0E04 s (fun u => (match u.tandem.take with
      | some c => (u.modTandem (fun w => { w with take := none })).answer c .busy []
      | none => u).giveUpHalter)) ∧
  (∀ (h : Hdr) (tree : Word) (s : State), s.ready h 0x0E05 (.owner (dieOfTree (tree.toNat % 32))) = true → tree.toNat ≤ 31 →
      s.protected tree.toNat = true → s.unclaimed [(6, .tnd)] = true → (s.tndTree tree.toNat).resync = none →
      (s.start (callerOf h 0x0E05)).asyncFull = false →
    exec (.tandemResync h tree) s = completed h 0x0E05 s (fun u => ((u.setFlag .tndTreeStatReady tree.toNat false).modTndTree tree.toNat
      (fun x => { x with resync := some (callerOf h 0x0E05), startAt := none })).sendTree tree.toNat) [] .accepted) ∧
  (∀ (h : Hdr) (dwell : Word) (s : State), s.ready h 0x0E06 (.owner 6) = true → 8 ≤ dwell.toNat → dwell.toNat ≤ 65535 →
      s.unclaimed [(6, .tnd)] = true → s.ownsHalter = true →
      (∀ t < 32, s.protected t = true → s.flag .tndTreeStatReady t = true) → s.tandem.drill = none →
      (s.start (callerOf h 0x0E06)).asyncFull = false →
    exec (.tandemExercise h dwell) s = completed h 0x0E06 s (fun u => ((u.modTandem (fun w =>
      { w with drill := some ⟨callerOf h 0x0E06, dwell.toNat, 0, 0, []⟩ })).sendRecord 0x30 (.drill 0 [])).giveUpHalter) [] .accepted) ∧
  (∀ (h : Hdr) (s : State), s.ready h 0x0E07 (.owner 6) = true →
    exec (.tandemStatus h) s = completed h 0x0E07 s id (s.tndPairStat :: (List.range 32).map (s.reg .tndTreeStat) ++
      [Ctr.tndAuthFail, .tndCfgReject, .tndCutLate, .tndDevnumDup, .tndDiverge, .tndDrillFail, .tndEqdNeg, .tndHalterContend,
        .tndHalterLost, .tndLinkDown, .tndPairBad, .tndResendFail, .tndSeniorBad, .tndTakeover, .tndUnreadyDeact].flatMap
        (fun c => ctrWords (s.ctr c 0)) ++ [Ctr.tndCrcBad, .tndDlnAbandon, .tndDlnLoss].flatMap (fun c =>
          (List.range 8).flatMap (fun l => ctrWords (s.ctr c l))))) ∧
  (∀ (h : Hdr) (lane delta alpha : Word) (s : State), s.ready h 0x0E08 (.owner (dieOfTLane (lane.toNat % 8))) = true → lane.toNat ≤ 7 →
      1 ≤ delta.toNat → delta.toNat ≤ 7 → 1 ≤ alpha.toNat → alpha.toNat ≤ 15 → s.unclaimed [(dieOfTLane lane.toNat, .tnd)] = true →
    exec (.tandemDlnSet h lane delta alpha) s = completed h 0x0E08 s (fun u => (u.setFld .tndDlnCfgDelta (dieOfTLane lane.toNat)
      delta.toNat).setFld .tndDlnCfgAlpha (dieOfTLane lane.toNat) alpha.toNat))

/-- The events of the tandem link, of the halter and of a drill have their effects. R443, R445, R446, R447, R448, R449, R450, R452, R456, R459,
R461, R462. -/
def Obligations.TandemEventsComplete : Prop :=
  (∀ (l : TLane) (fseq : Word) (heads : List XgemHead) (recs : List TndRx) (s : State), s.tandemLaneHears l.toNat = true →
    exec (.tandemFrameRx l fseq false heads recs) s = .next ((s.count .tndCrcBad l.toNat).raiseOnce .tndCrc (dieOfTLane l.toNat) l.toNat)) ∧
  (∀ (l : TLane) (fseq : Word) (heads : List XgemHead) (recs : List TndRx) (s : State), s.tandemLaneHears l.toNat = true →
    let d := dieOfTLane l.toNat
    let v := s.modTandem (fun w => { w with frames := w.frames.put l.toNat fseq.toNat })
    exec (.tandemFrameRx l fseq true heads recs) s = .next
      ((Unit_.delineate ⟨2048, v.fld .tndDlnCfgDelta d, v.fld .tndDlnCfgAlpha d, heads, []⟩).foldl (fun u x => match x with
        | .frame h => (recs[h.name.toNat]?).elim u (fun r =>
          if u.idleFor d 0 then u.recordRx r else u.queued d 0 (.record r))
        | .abandoned => u.count .tndDlnAbandon l.toNat
        | .loss => u.report .tndDlnLoss l.toNat .tndDlnLoss d l.toNat
        | .dropped | .hole => u) v)) ∧
  (∀ (stream : Byte) (seq : BitVec 28) (u : TndSent) (s : State),
      s.tandem.unacked.find? (fun u => u.stream = stream.toNat && u.seq = seq.toNat) = some u → u.sentAt + usSpan 50 ≤ s.elapsed →
    let again := fun (n : Nat) (v : State) => v.modTandem (fun w =>
      { w with unacked := w.unacked.map (fun x => if x = u then { u with sendings := n, sentAt := s.elapsed } else x) })
    (u.sendings < 8 → exec (.recordResend stream seq) s = .next ((again (u.sendings + 1) s).sendTandem (.tandem u.stream u.seq u.body))) ∧
    (8 ≤ u.sendings → exec (.recordResend stream seq) s = .next (again 0 (s.count .tndResendFail 0)).tandemDown)) ∧
  (∀ (l : Nat) (s : State), l < 8 → s.tandemLaneSends l = true → s.tandem.beatAt + usSpan 25 ≤ s.elapsed →
    let v := (List.range 32).foldl State.tellConfig { s with tandem := { s.tandem with beatAt := s.elapsed } }
    exec .heartbeatSend s = .next (v.send (.heartbeat (v.fld .tndPairStatHalter 0)
      (((List.range 32).filter v.protected).filter (v.flag .tndTreeStatReady))))) ∧
  (∀ (s : State), s.tandem.lastBeat + usSpan 500 ≤ s.elapsed →
    exec .heartbeatTimeout s = .next s.tandemDown) ∧
  (∀ (c : Chan) (f v : Nat) (a : Bool) (s : State), (s.tndChan c.toNat).mine = some (f, v, a) → s.flag .tndPairStatLink 0 = true →
      s.frameElapsed (treeOfChan c.toNat) ((f + 1) % 2 ^ 51) + usSpan 50 ≤ s.elapsed →
    exec (.digestTimeout c) s = .next (s.judge c.toNat f false a false)) ∧
  (∀ (s : State), s.pin .hltPeerN 0 ≠ 1 → s.tandem.drill = none →
    let v := (s.drive .hltPeerN 0 1).modTandem (fun w => { w with peerAt := s.elapsed })
    let st := s.fld .tndPairStatHalter 0
    ((st = 2 ∨ st = 4) → s.windowShut = true → exec (.halterPeerChange true) s = .next v.gainHalter) ∧
    ((st = 2 ∨ st = 4) → s.windowShut = false → exec (.halterPeerChange true) s = .next (v.setFld .tndPairStatHalter 0 2)) ∧
    (st ≠ 2 → st ≠ 4 → exec (.halterPeerChange true) s = .next v.autoSeek)) ∧
  (∀ (d : Drill) (s : State), s.tandem.drill = some d →
    let st := s.fld .tndPairStatHalter 0
    (s.pin .hltPeerN 0 ≠ 1 → d.phase = 1 → st ≠ 2 → st ≠ 4 → exec (.halterPeerChange true) s = .next (((s.drive .hltPeerN 0 1).modTandem
      (fun w => { w with peerAt := s.elapsed })).autoSeek).drillFailed) ∧
    (s.pin .hltPeerN 0 = 1 → d.phase = 0 → st ≠ 2 → st ≠ 3 → exec (.halterPeerChange false) s =
      let v := (s.drive .hltPeerN 0 0).closeGate
      .next (v.modTandem (fun w => { w with drill := some { d with phase := 1, since := v.elapsed } })))) ∧
  (∀ (s : State), s.pin .hltPeerN 0 = 1 → s.tandem.drill = none →
    let v := (s.drive .hltPeerN 0 0).closeGate
    let st := s.fld .tndPairStatHalter 0
    (st = 3 → exec (.halterPeerChange false) s = .next (State.setFld (v.report .tndHalterLost 0 .tndHalterLost 6 0) .tndPairStatHalter 0
      (if (v.report .tndHalterLost 0 .tndHalterLost 6 0).pin .hltSenior 0 = 1 then 4 else 2))) ∧
    (st = 2 → exec (.halterPeerChange false) s = .next v.contend) ∧
    (st ≠ 2 → st ≠ 3 → exec (.halterPeerChange false) s = .next v)) ∧
  (∀ (s : State), s.fld .tndPairStatHalter 0 = 1 → s.pin .hltPeerN 0 = 1 → s.tandem.peerAt + usSpan 2 ≤ s.elapsed →
    exec .halterSeekDrive s = .next (((s.drive .hltOwnN 0 0).setFld .tndPairStatHalter 0 2).modTandem (fun w => { w with haltAt := s.elapsed }))) ∧
  (∀ (s : State), s.fld .tndPairStatHalter 0 = 2 → s.tandem.haltAt + usSpan 1 ≤ s.elapsed →
    (s.pin .hltPeerN 0 = 1 → exec .halterOwn s = .next ((((s.setFld .tndPairStatHalter 0 3).raise .tndHalterOwn 6 0).takeDone .ok).takeover)) ∧
    (s.pin .hltPeerN 0 ≠ 1 → s.pin .hltSenior 0 = 1 → exec .halterOwn s = .next (s.setFld .tndPairStatHalter 0 4)) ∧
    (s.pin .hltPeerN 0 ≠ 1 → s.pin .hltSenior 0 ≠ 1 → exec .halterOwn s = .next ((((s.drive .hltOwnN 0 1).setFld .tndPairStatHalter 0
      0).report .tndHalterContend 0 .tndHalterContend 6 0).takeDone .busy))) ∧
  (∀ (s : State), s.fld .tndPairStatHalter 0 < 2 → s.tandem.haltAt + nsSpan 100 ≤ s.elapsed →
    exec .halterReleasePin s = .next (s.drive .hltOwnN 0 1)) ∧
  (∀ (onu : Onu) (x : OnuSlot) (n : Nat) (d : Int) (s : State), s.onu onu.toNat = some x → s.tandem.accept.find onu.toNat = some (some n, d) →
      s.framesTo x.tree n ≤ 0 →
    exec (.acceptWindowEnd onu) s = .next { s with tandem := { s.tandem with accept := s.tandem.accept.del onu.toNat } }) ∧
  (∀ (d : Drill) (s : State), s.tandem.drill = some d → d.phase = 1 → d.since + d.dwell * frameSpan ≤ s.elapsed →
    exec .drillDwellEnd s = .next (((s.modTandem (fun w => { w with drill := some { d with phase := 2 } })).sendRecord 0x30
      (.drill 1 [])).seek))

/-- The SYS commands have their effects and answer; SYS.ACK has no reply. R494, R477, R487, R488, R486, R582, R516, R519, R524. -/
def Obligations.SystemCommandsComplete : Prop :=
  (∀ (h : Hdr) (words : List Word) (s : State), s.ready h 0x0000 (.package) = true →
    exec (.sysNop h words) s = completed h 0x0000 s id words) ∧
  (∀ (h : Hdr) (s : State), s.ready h 0x0001 (.package) = true →
    exec (.sysInfo h) s = completed h 0x0001 s id [s.reg .sysId 0, BitVec.ofNat 32 (s.fld .sysDevnumDevnum 0), s.reg .sysCaston 0,
      BitVec.ofNat 32 (s.fld .sqDarnLevelLevel 0), (s.gen .pcie).setWidth 32, (s.gen .i3c).setWidth 32, (s.gen .inband).setWidth 32]) ∧
  (∀ (h : Hdr) (s : State), s.ready h 0x0002 (.package) = true → h.path ≠ .inband → h.gen ≠ s.gen h.path →
    exec (.sysSessionOpen h) s = completed h 0x0002 s (fun u =>
      let v := (u.setFld .lshStatGen (pathCode h.path) h.gen.toNat).dropClaims h.path
      { v with flights := renewFlights (callerOf h 0x0002) v.flights })) ∧
  (∀ (h : Hdr) (s : State), s.ready h 0x0002 (.package) = true → h.path = .inband → h.gen = s.gen .inband + 1 → s.laosh.sessions < 255 →
    exec (.sysSessionOpen h) s = completed h 0x0002 s (fun u =>
      let v := (u.setFld .lshStatGen (pathCode .inband) h.gen.toNat).dropClaims .inband
      { v with flights := renewFlights (callerOf h 0x0002) v.flights
               laosh := { v.laosh with mark := h.tag, sessions := v.laosh.sessions + 1 } })) ∧
  (∀ (h : Hdr) (tags : List Word) (s : State), h.path = .inband → h.die.toNat = 15 → s.flag .sysCastonDone 0 = true →
    exec (.sysAck h tags) s = .next (tags.foldl (fun u t =>
      match u.flights.find (tagKey .inband (t.setWidth 16)) with
      | some f => if f.final.isSome then { u with flights := u.flights.del (tagKey .inband (t.setWidth 16)) } else u
      | none => u) s)) ∧
  (∀ (h : Hdr) (ports : List Word) (mac : BitVec 48) (handle : Word) (k : VKey) (s : State), s.ready h 0x0004 (.package) = true →
      ports.length ≤ 4 → ports.any (fun p => 63 < p.toNat || s.portOf p.toNat ≠ p.toNat) = false → s.unclaimed [(0, .lsh)] = true →
      s.isOfficer h.path = true → s.vault.find handle.toNat = some k → k.kind = .job →
    exec (.sysInbandSet h ports mac handle) s = completed h 0x0004 s (fun u =>
      let v := (u.setReg .lshInbMacHi 0 (BitVec.ofNat 32 (mac.toNat / 2 ^ 32))).setReg .lshInbMacLo 0 (mac.setWidth 32)
      { v with laosh := { v.laosh with inbandPorts := ports.map BitVec.toNat, inbandKey := some handle.toNat, sessions := 0 } })) ∧
  (∀ (h : Hdr) (s : State), s.ready h 0x0005 (.package) = true → (s.lifecycle = 2 → s.isOfficer h.path = true) →
    ((s.start (callerOf h 0x0005)).asyncFull = false → exec (.sysReset h 0) s = completed h 0x0005 s (fun u => u.modPower (fun p =>
      { p with resetDue := some (p.resetDue.getD (s.elapsed + msSpan 1)) })) [] .accepted) ∧
    exec (.sysReset h 1) s = waiting h 0x0005 s (fun u => (u.answer (callerOf h 0x0005) .ok []).resetPath h.path)) ∧
  (∀ (h : Hdr) (group mask fw alert ibi msix vector : Word) (s : State), s.ready h 0x0006 (.package) = true → group.toNat ≤ 26 →
      fw.toNat ≤ 1 → alert.toNat ≤ 1 → ibi.toNat ≤ 1 → msix.toNat ≤ 1 → vector.toNat ≤ 63 →
    exec (.sysEventRoute h group mask fw alert ibi msix vector) s = completed h 0x0006 s (fun u =>
      (u.setReg .evtRoute group.toNat (BitVec.ofNat 32 (fw.toNat * 2 ^ 31 + alert.toNat * 2 ^ 30 + ibi.toNat * 2 ^ 29 + msix.toNat * 2 ^ 28
        + vector.toNat))).writeMask group.toNat mask)) ∧
  (∀ (h : Hdr) (count : Word) (s : State), s.ready h 0x0007 (.package) = true → 1 ≤ count.toNat → count.toNat ≤ 64 →
    let p := pathCode h.path
    let l := (s.records p).take count.toNat
    exec (.sysEventRead h count) s = completed h 0x0007 s (fun u => u.setReg .evtRingRd (evtCopy p)
      (s.reg .evtRingWr 0 - BitVec.ofNat 32 (s.available p) + BitVec.ofNat 32 l.length))
      (BitVec.ofNat 32 l.length :: l.flatMap EvRec.words ++ [BitVec.ofNat 32 (s.lostRecords p)]))

/-- The event registers and the entry of a queued record into the ring have their effects. R515, R516, R517, R519, R522, R523. -/
def Obligations.EventRegistersComplete : Prop :=
  (∀ (g : BitVec 5) (data : Word) (s : State), g.toNat < 27 → s.reg .evtStat g.toNat &&& s.reg .evtMask g.toNat &&& ~~~data = 0 →
    exec (.evtMaskWrite g data) s = .next (s.setReg .evtMask g.toNat data)) ∧
  (∀ (g : BitVec 5) (data : Word) (s : State), g.toNat < 27 → s.reg .evtStat g.toNat &&& s.reg .evtMask g.toNat &&& ~~~data ≠ 0 →
    exec (.evtMaskWrite g data) s = .next ((s.setReg .evtMask g.toNat data).deliver g.toNat
      (((List.range 32).filter (fun i => (s.reg .evtStat g.toNat &&& s.reg .evtMask g.toNat &&& ~~~data).getLsbD i)).map
        (fun i => g.toNat * 32 + i)))) ∧
  (∀ (g : BitVec 5) (data : Word) (s : State), g.toNat < 27 →
    let old := s.reg .evtStat g.toNat
    let u := s.setReg .evtStat g.toNat ((old &&& ~~~data) ||| (s.freshBits .evtStat g.toNat &&& old))
    let v := u.fld .evtRouteVector g.toNat
    exec (.evtStatClear g data) s = .next (if u.flag .evtRouteMsix g.toNat = true ∧ u.vectorWaits v = true then u.sendMsix v else u)) ∧
  (∀ (p : APath) (data : Word) (s : State), ¬ 0 < (data - s.reg .evtRingWr 0).toInt →
    exec (.evtRingRdWrite p data) s = .next (s.setReg .evtRingRd (evtCopy (apathCode p)) data)) ∧
  (∀ (p : APath) (data : Word) (s : State), 0 < (data - s.reg .evtRingWr 0).toInt →
    exec (.evtRingRdWrite p data) s = .next (s.setReg .evtRingRd (evtCopy (apathCode p)) (s.reg .evtRingWr 0))) ∧
  (∀ (die : Die) (r : EvRec) (rest : List EvRec) (s : State), Tbl.getD s.evQueue die.toNat [] = r :: rest → s.evRing.length < 4096 →
    exec (.eventRecordEnter die) s = .next (State.setReg
      { s with evQueue := Tbl.setD s.evQueue die.toNat [] rest, evRing := s.evRing ++ [r] } .evtRingWr 0 (s.reg .evtRingWr 0 + 1))) ∧
  (∀ (die : Die) (r : EvRec) (rest : List EvRec) (s : State), Tbl.getD s.evQueue die.toNat [] = r :: rest → 4096 ≤ s.evRing.length →
    exec (.eventRecordEnter die) s = .next (State.setReg
      { s with evQueue := Tbl.setD s.evQueue die.toNat [] rest, evRing := s.evRing.drop 1 ++ [r] } .evtRingWr 0 (s.reg .evtRingWr 0 + 1)))

/-- Claims are taken, wait for the commands that act on their block, time out, are released and are told. R510, R511, R512, R513, R524. -/
def Obligations.BlockClaimsComplete : Prop :=
  (∀ (h : Hdr) (block : Word) (b : Blk) (s : State), s.ready h 0x1200 claimDies = true → blockOf h.die.toNat block.toNat = some b →
      h.path ≠ .inband → b ≠ .evt → s.win.claims.find (claimKey h.die.toNat b) = some h.path →
    exec (.blockClaim h block) s = completed h 0x1200 s id) ∧
  (∀ (h : Hdr) (block : Word) (b : Blk) (s : State), s.ready h 0x1200 claimDies = true → blockOf h.die.toNat block.toNat = some b →
      h.path ≠ .inband → b ≠ .evt → s.win.claims.find (claimKey h.die.toNat b) = none →
      (s.flag .secCfgStrict 0 = true → b ≠ .kv ∧ b ≠ .cph ∧ b ≠ .msc) → (s.start (callerOf h 0x1200)).actedOn h.die.toNat b = false →
    exec (.blockClaim h block) s = completed h 0x1200 s (fun u =>
      let v := { u with win := { u.win with claims := u.win.claims.put (claimKey h.die.toNat b) h.path } }
      if b = .kv ∨ b = .cph ∨ b = .msc then v.notApproved else v)) ∧
  (∀ (h : Hdr) (block : Word) (b : Blk) (s : State), s.ready h 0x1200 claimDies = true → blockOf h.die.toNat block.toNat = some b →
      h.path ≠ .inband → b ≠ .evt → s.win.claims.find (claimKey h.die.toNat b) = none →
      (s.flag .secCfgStrict 0 = true → b ≠ .kv ∧ b ≠ .cph ∧ b ≠ .msc) → (s.start (callerOf h 0x1200)).actedOn h.die.toNat b = true →
    exec (.blockClaim h block) s = waiting h 0x1200 s (fun u => { u with win := { u.win with
      claimWait := u.win.claimWait ++ [⟨h.die.toNat, b, callerOf h 0x1200, s.elapsed⟩] } })) ∧
  (∀ (die : Die) (block : BitVec 6) (w : ClaimWait) (s : State),
      s.win.claimWait.find? (fun w => w.die = die.toNat && blockOf die.toNat block.toNat = some w.blk) = some w →
    let v := { s with win := { s.win with claimWait := s.win.claimWait.filter (fun x => decide (x ≠ w)) } }
    (s.actedOn w.die w.blk = false → s.win.claims.find (claimKey w.die w.blk) = none →
      exec (.claimEffect die block) s = .next ((State.takeClaim v w.die w.blk w.caller.path).answer w.caller .ok [])) ∧
    (∀ q, s.actedOn w.die w.blk = false → s.win.claims.find (claimKey w.die w.blk) = some q →
      exec (.claimEffect die block) s = .next (State.answer v w.caller (if q = w.caller.path then .ok else .blockClaimed) [])) ∧
    (w.since + msSpan 1 ≤ s.elapsed → exec (.claimTimeout die block) s = .next (State.answer v w.caller .busy []))) ∧
  (∀ (h : Hdr) (block : Word) (s : State), s.ready h 0x1201 claimDies = true → block.toNat < 64 →
      s.win.claims.find (h.die.toNat * 64 + block.toNat) = some h.path →
    exec (.blockRelease h block) s = completed h 0x1201 s (fun u => { u with win := { u.win with
      claims := u.win.claims.del (h.die.toNat * 64 + block.toNat) } })) ∧
  (∀ (h : Hdr) (s : State), s.ready h 0x1202 claimDies = true →
    exec (.blockStatus h) s = completed h 0x1202 s id (listWords (s.blockStatus h.die.toNat)))

/-- Resets, the stages of cast-on and the resets of a path have their effects. R16, R58, R553, R573, R574, R575, R576, R577, R578, R580, R581,
R582, R583. -/
def Obligations.ResetCommandsComplete : Prop :=
  (∀ (w : BitVec 11) (s : State), w.toNat < 2000 →
    let v := (List.range 128).foldl State.darken s
    exec (.resetFall (some w)) s = .next (v.modPower (fun p => { p with lightFrom := v.elapsed + nsSpan (w.toNat + 10000) }))) ∧
  (∀ (s : State), exec (.resetFall none) s = .next (((List.range 128).foldl State.darken s).drive .hostRstN 0 0)) ∧
  (∀ (w : BitVec 11) (s : State), 2000 ≤ w.toNat →
    exec (.resetFall (some w)) s = .next (((List.range 128).foldl State.darken s).drive .hostRstN 0 0)) ∧
  (∀ (s : State), s.pin .hostRstN 0 ≠ 1 → exec .resetAsserted s = .next (s.packageReset 1)) ∧
  (∀ (s : State), exec .railPowerFail s = .next ((s.drive .rails 0 0).packageReset 0)) ∧
  (∀ (devnum : BitVec 10) (senior : Bool) (s : State), (s.pin .hostRstN 0 ≠ 1 ∨ s.pin .rails 0 ≠ 1) →
    exec (.castOnStart devnum senior) s = .next ((((((State.drive { s with tap := Tap.reset } .hostRstN 0 1).drive .rails 0 1).drive .devnum 0
      devnum.toNat).drive .hltSenior 0 senior.toNat)).setFld .sysDevnumDevnum 0 devnum.toNat)) ∧
  (∀ (ms : BitVec 16) (s : State), s.booting 0 = true →
    let v := s.setFld .sysCastonMs 0 ms.toNat
    exec (.castOnStageDone (.fuse true) ms) s = .next (v.setFld .sysCastonStage 0 1) ∧
    exec (.castOnStageDone (.fuse false) ms) s = .next ((v.setFlag .sysCastonHalted 0 true).setFld .sysCastonCause 0 1)) ∧
  (∀ (ms : BitVec 16) (a b : Bool) (pon : BitVec 4) (tnd pcie : Bool) (s : State), s.booting 1 = true →
    exec (.castOnStageDone (.clock a b pon tnd pcie) ms) s = .next ((s.setFld .sysCastonMs 0 ms.toNat).clockUp a b pon tnd pcie)) ∧
  (∀ (ms : BitVec 16) (down spares : List (BitVec 3)) (s : State), s.booting 2 = true →
    exec (.castOnStageDone (.link down spares) ms) s = .next ((s.setFld .sysCastonMs 0 ms.toNat).linksUp down spares)) ∧
  (∀ (ms : BitVec 16) (failed : List (BitVec 1 × BitVec 5)) (s : State), s.booting 3 = true →
    exec (.castOnStageDone (.hbm failed) ms) s = .next ((failed.foldl (fun u p => u.pcUntrained p.1.toNat p.2.toNat)
      (s.setFld .sysCastonMs 0 ms.toNat)).setFld .sysCastonStage 0 4)) ∧
  (∀ (ms : BitVec 16) (sram : List ParityUnit) (s : State), s.booting 4 = true →
    exec (.castOnStageDone (.clear sram) ms) s = .next ((sram.foldl State.sramUnit (s.setFld .sysCastonMs 0 ms.toNat)).setFld
      .sysCastonStage 0 5)) ∧
  (∀ (ms : BitVec 16) (s : State), s.booting 5 = true → s.power.firmwareUp = false →
    let v := s.setFld .sysCastonMs 0 ms.toNat
    exec (.castOnStageDone (.firmware true) ms) s = .next (v.modPower (fun p => { p with firmwareUp := true })) ∧
    exec (.castOnStageDone (.firmware false) ms) s = .next ((v.setFlag .sysCastonHalted 0 true).setFld .sysCastonCause 0 3)) ∧
  (∀ (ms : BitVec 16) (failed : List (BitVec 3 × BitVec 7)) (shared idOk : Bool) (s : State),
      (s.booting 3 = true ∨ s.booting 4 = true ∨ s.booting 5 = true) → s.flag .sysCastonStDone 0 = false → s.tamperCalm = true →
    exec (.castOnStageDone (.selftest failed shared idOk) ms) s = .next ((s.setFld .sysCastonMs 0 ms.toNat).selfTested failed shared idOk)) ∧
  (∀ (ms : BitVec 16) (s : State), s.booting 5 = true → s.power.firmwareUp = true → s.flag .sysCastonStDone 0 = true →
    exec (.castOnDone ms) s = .next (State.raise (((((((s.setFld .sysCastonMs 0 ms.toNat).setFlag .lshStatCastOn 0 false).setFlag .lshStatCastOn
      1 false).setFlag .lshStatCastOn 2 false).setFld .sysCastonStage 0 6).setFlag .sysCastonDone 0 true)) .sysCastonDone 15 0)) ∧
  (∀ (devnum : BitVec 10) (senior : Bool) (t : Nat) (s : State), s.power.resetDue = some t → t ≤ s.elapsed →
    exec (.packageReset devnum senior) s = .next ((((s.packageReset 2).drive .devnum 0 devnum.toNat).drive .hltSenior 0 senior.toNat).setFld
      .sysDevnumDevnum 0 devnum.toNat)) ∧
  (∀ (s : State), exec .functionLevelReset s = .next (s.resetPath .pcie)) ∧
  (∀ (s : State), exec .i3cTargetReset s = .next (s.resetPath .i3c))

/-- The PM and GAUGE commands have their effects and answer. R585, R591, R594, R595, R597, R598, R600, R601, R603. -/
def Obligations.GaugeCommandsComplete : Prop :=
  (∀ (h : Hdr) (kind index : Word) (die : Nat) (s : State), s.pmHome kind.toNat index.toNat = some die →
      s.ready h 0x0C00 (.owner (pmOwner kind.toNat index.toNat die)) = true → s.unclaimed [pmBlk die] = true →
      s.hasSegment (pmHalf die) 2 = true →
    let key := pmKey kind.toNat index.toNat
    let bin := fun (day : Bool) => (⟨binStart day (secOf (s.nowOn die)), [], 4, []⟩ : PmBin)
    exec (.pmEntitySet h kind index 1) s = completed h 0x0C00 s (fun u => { u with pm := { u.pm with
      ents := u.pm.ents.put key ⟨die, true, [bin false], [bin true], [], false, 0, 0, s.pmDefectNow key⟩
      began := if u.pm.began.has die then u.pm.began else u.pm.began.put die (s.pmBegins die) } })) ∧
  (∀ (h : Hdr) (kind index : Word) (die : Nat) (s : State), s.pmHome kind.toNat index.toNat = some die →
      s.ready h 0x0C00 (.owner (pmOwner kind.toNat index.toNat die)) = true → s.unclaimed [pmBlk die] = true →
    exec (.pmEntitySet h kind index 0) s = completed h 0x0C00 s (fun u => u.modPmEnt (pmKey kind.toNat index.toNat)
      (fun e => { e with enabled := false }))) ∧
  (∀ (h : Hdr) (kind index bin : Word) (die n : Nat) (day : Bool) (e : PmEnt) (b : PmBin) (s : State),
      s.pmHome kind.toNat index.toNat = some die → s.ready h 0x0C01 (.owner (pmOwner kind.toNat index.toNat die)) = true →
      pmBinOf bin.toNat = some (day, n) → s.pm.ents.find (pmKey kind.toNat index.toNat) = some e → (e.bins day)[n]? = some b →
      (n = 0 ∨ secReached (secOf (s.nowOn die)) (b.start + binLen day) = false ∨
        secReached (secOf (s.nowOn die)) (b.start + binLen day + 10) = true) →
    exec (.pmRead h kind index bin none) s = completed h 0x0C01 s id b.words) ∧
  (∀ (h : Hdr) (kind param length threshold : Word) (s : State), s.ready h 0x0C02 (.package) = true → param.toNat < pmListed kind.toNat →
      length.toNat ≤ 1 → s.unclaimed (if kind.toNat = 4 then [(15, .ggc)] else [(2, .pmb), (3, .pmb), (4, .pmb), (5, .pmb)]) = true →
    exec (.pmTcaSet h kind param length threshold) s = completed h 0x0C02 s (fun u => { u with pm := { u.pm with
      thresholds := u.pm.thresholds.setD ((kind.toNat * 32 + param.toNat) * 2 + length.toNat) 0 threshold.toNat } })) ∧
  (∀ (h : Hdr) (s : State), s.ready h 0x0C03 (.oneOf [0, 1]) = true →
      s.unclaimed (if h.die.toNat = 0 then [(15, .ggc), (2, .pmb), (3, .pmb)] else [(15, .ggc), (4, .pmb), (5, .pmb)]) = true →
    let half := h.die.toNat
    let on := s.pm.ents.filter (fun p => p.2.enabled && pmHalf p.2.die = half)
    let l := Tbl.getD s.pm.tcas half []
    exec (.pmStatus h) s = completed h 0x0C03 s (fun u => { u with pm := { u.pm with tcas := Tbl.setD u.pm.tcas half [] [] } })
      (listWords (on.map (fun p => BitVec.ofNat 32 p.1)) ++ (BitVec.ofNat 32 l.length :: l.flatMap PmTca.words)
        ++ [Ctr.pmbSecLost, .pmbTcaDrop].flatMap (fun c => ctrWords (sumOn (pmDies half) (fun d => s.ctr c d))))) ∧
  (∀ (h : Hdr) (instant : T3) (s : State), s.ready h 0x0D00 (.package) = true → s.unclaimed [(15, .ggc)] = true → s.gauge.single = none →
      (s.start (callerOf h 0x0D00)).asyncFull = false →
    let t := if T3.isNone instant ∨ timeDiff s.now (T3.time instant) > -10000 then (s.now + usSpan 10) % timeMod else T3.time instant
    exec (.gaugeSnap h instant) s = completed h 0x0D00 s (fun u => { u with gauge := { u.gauge with
      single := some (callerOf h 0x0D00, t) } }) (timeWords t) .accepted) ∧
  (∀ (h : Hdr) (period : Word) (first : T3) (s : State), s.ready h 0x0D01 (.package) = true → period.toNat ≤ 1000000 →
      s.unclaimed [(15, .ggc)] = true →
    exec (.gaugePeriodSet h period first) s = completed h 0x0D01 s (fun u => { u with gauge := { u.gauge with
      periodic := if period = 0 then none else some (period.toNat, nextPeriod (T3.time first) (msSpan period.toNat) s.now) } })) ∧
  (∀ (h : Hdr) (block unit : Word) (b : Blk) (s : State), s.ready h 0x0D02 claimDies = true → blockOf h.die.toNat block.toNat = some b →
      unit.toNat ≤ 65535 →
    let w := h.die.toNat * 2 ^ 22 + block.toNat * 2 ^ 16 + unit.toNat
    unitExists w = true →
    let v := (s.start (callerOf h 0x0D02)).prbsLook
    exec (.gaugeRead h block unit 1) s = completed h 0x0D02 s (fun u => u.prbsLook) (0 :: unitWords v.ctrs (v.gauge48 w) w b) ∧
    (∀ x, s.gauge.last = some x → exec (.gaugeRead h block unit 0) s = completed h 0x0D02 s id
      (BitVec.ofNat 32 x.seq :: unitWords x.ctrs (fun k => Tbl.getD x.gauges (gaugeKey w k) 0) w b))) ∧
  (∀ (h : Hdr) (pipeline : Word) (s : State), s.ready h 0x0D03 claimDies = true → h.die.toNat ≤ 1 → pipeline.toNat ≤ 8 →
    exec (.gaugeSlots h pipeline) s = completed h 0x0D03 s id ((s.slotAccounts h.die.toNat pipeline.toNat ++
      [slotCount s.elapsed]).flatMap ctrWords)) ∧
  (∀ (h : Hdr) (port : Word) (die half g : Nat) (s : State), histOf port.toNat = some (die, half, g) → s.ready h 0x0D04 (.owner die) = true →
      (g < 32 → s.portOf port.toNat = port.toNat) →
    exec (.gaugeHistRead h port) s = completed h 0x0D04 s id ((List.range 16).map (fun b => BitVec.ofNat 32
      (Tbl.getD s.gauge.hists ((half * 128 + g) * 16 + b) 0)))) ∧
  (∀ (h : Hdr) (block unit : Word) (b : Blk) (s : State), s.ready h 0x0D05 claimDies = true → blockOf h.die.toNat block.toNat = some b →
      unit.toNat ≤ 65535 →
    let w := h.die.toNat * 2 ^ 22 + block.toNat * 2 ^ 16 + unit.toNat
    unitExists w = true → s.unclaimed [(h.die.toNat, b)] = true →
    exec (.gaugeClear h block unit) s = completed h 0x0D05 s (fun u => u.clearUnit w b))

/-- PM seconds and bins and snapshots take their course. R586, R587, R590, R592, R593, R598, R599. -/
def Obligations.GaugeEventsComplete : Prop :=
  (∀ (die : BitVec 3) (b : PmNow) (s : State), s.pm.began.find die.toNat = some b → reached (s.nowOn die.toNat) (mkTime b.next 0) = true →
    exec (.pmSecond die) s = .next (State.pmCommit { s with pm := { s.pm with
      ents := s.pm.ents.map (fun p => if p.2.die = die.toNat ∧ p.2.enabled = true then (p.1, s.pmClassify p.1 b.start p.2) else p)
      began := s.pm.began.put die.toNat (s.pmBegins die.toNat), tcaTold := s.pm.tcaTold.del die.toNat } } die.toNat)) ∧
  (∀ (die : BitVec 3) (b : PmNow) (s : State), s.pm.began.find die.toNat = some b → b.stepped = true → b.since + secUnit ≤ s.elapsed →
    exec (.pmSecondForced die) s = .next (s.pmSecond die.toNat)) ∧
  (∀ (die : BitVec 3) (day : Bool) (s : State),
    let sec := secOf (s.nowOn die.toNat)
    exec (.pmBinBoundary die day) s = .next { s with pm := { s.pm with ents := s.pm.ents.map (fun p =>
      if p.2.die = die.toNat ∧ p.2.ends day sec = true then
        (p.1, p.2.advance day (binStart day sec) (if s.flag .tbStatAligned 0 then 0 else 2)) else p) } }) ∧
  (∀ (c : Caller) (t : Nat) (s : State), s.gauge.single = some (c, t) → s.allReached t = true →
    exec .snapshotLaunch s = .next (State.launchSnapshot { s with gauge := { s.gauge with single := none } } (some c))) ∧
  (∀ (p t : Nat) (s : State), s.gauge.single.all (fun x => !s.allReached x.2) = true → s.gauge.periodic = some (p, t) →
      s.allReached t = true →
    exec .snapshotLaunch s = .next (State.launchSnapshot { s with gauge := { s.gauge with
      periodic := some (p, nextPeriod t (msSpan p) (s.now + 1)) } } none)) ∧
  (∀ (x : Snapshot) (caller : Option Caller) (bufs : Tbl Nat) (s : State), s.gauge.latched = some (x, caller, bufs) →
    let a := s.snapRations.foldl (fun (a : State × Bool) r => ((a.1.serveSnap r).1, a.2 && (a.1.serveSnap r).2)) (s, true)
    exec .snapshotDone s = .next (if a.2 then State.snapshotWritten { a.1 with gauge := { a.1.gauge with written := [] } } x caller bufs else a.1)) ∧
  (∀ (s : State), (∀ die ∈ s.snapDies, s.nextBuffer die ≠ none) → s.gauge.latched = none →
    s.launchSnapshot none = State.setFlag { s.prbsLook with gauge := { s.prbsLook.gauge with
      latched := some (s.prbsLook.snapshot, none, (s.snapDies.map (fun d => (d, s.nextBuffer d))).foldl (fun (t : Tbl Nat) b =>
        t.put b.1 (b.2.getD 0)) []) } } .ggcSnapStatBusy 0 true)

/-- The POWER and REMUDA commands have their effects and answer; what they order ends at an event, which answers. R609, R611, R612, R614,
R616-R619. -/
def Obligations.PowerCommandsComplete : Prop :=
  (∀ (h : Hdr) (domain on : Word) (k : DomainKind) (s : State), switchable domain.toNat = some k → s.ready h 0x0F00 (.owner k.die) = true →
      on.toNat ≤ 1 → s.hasDie k.die = true → s.unclaimed [(15, .pwr)] = true → s.power.switches.any (fun x => x.1 = domain.toNat) = false →
      (on = 0 → s.mayPowerOff k = true) → (s.start (callerOf h 0x0F00)).asyncFull = false →
    exec (.powerDomainSet h domain on) s = completed h 0x0F00 s (fun u => u.modPower (fun p => { p with
      switches := p.switches ++ [(domain.toNat, decide (on = 1), callerOf h 0x0F00)] })) [] .accepted) ∧
  (∀ (h : Hdr) (domain on : Word) (k : DomainKind) (s : State), switchable domain.toNat = some k → s.ready h 0x0F00 (.owner k.die) = true →
      s.hasDie k.die = true → s.unclaimed [(15, .pwr)] = true → on = 0 → s.mayPowerOff k = false →
    exec (.powerDomainSet h domain on) s = completed h 0x0F00 s id [] .busy) ∧
  (∀ (domain : BitVec 9) (on : Bool) (caller : Caller) (k : DomainKind) (s : State), switchable domain.toNat = some k →
      s.power.switches.find? (fun x => x.1 = domain.toNat) = some (domain.toNat, on, caller) →
    let u := s.modPower (fun p => { p with switches := p.switches.filter (fun x => x.1 != domain.toNat) })
    exec (.domainSwitchDone domain) s = .next (((if on = true ∧ u.domainOn domain.toNat = false then u.clearDomain k else u).setDomain
      domain.toNat on).answer caller .ok [])) ∧
  (∀ (h : Hdr) (s : State), s.ready h 0x0F01 .package = true →
    exec (.powerStatus h) s = completed h 0x0F01 s id ((List.range 13).map (fun k => (s.start (callerOf h 0x0F01)).reg .pwrDomStat k) ++
      [(s.start (callerOf h 0x0F01)).reg .pwrPkgMw 0, (s.start (callerOf h 0x0F01)).hottest])) ∧
  (∀ (h : Hdr) (region thr rel longUs : Word) (s : State), region.toNat < 72 → s.ready h 0x0F02 (.owner (regionDie region.toNat)) = true →
      4 ≤ thr.toNat → thr.toNat ≤ 20 → 1 ≤ rel.toNat → rel.toNat ≤ 255 → longUs.toNat ≤ 255 → s.unclaimed [(15, .tns)] = true →
    exec (.powerTensionSet h region thr rel longUs) s = completed h 0x0F02 s (fun u => ((u.setFld .tnsCfgThr region.toNat thr.toNat).setFld
      .tnsCfgRel region.toNat rel.toNat).setFld .tnsCfgLongUs region.toNat longUs.toNat)) ∧
  (∀ (h : Hdr) (s : State), s.ready h 0x0F03 (.oneOf (List.range 8)) = true →
    let v := s.start (callerOf h 0x0F03)
    exec (.powerSensors h) s = completed h 0x0F03 s id ((regionsOf h.die.toNat).flatMap (fun r => [v.reg .pwrTemp r, v.reg .tnsStat r]
      ++ [Ctr.tnsEpisode, .tnsStretchNs, .tnsDroopNs, .tnsHard].flatMap (fun c => ctrWords (v.ctr c r))))) ∧
  (∀ (h : Hdr) (s : State), s.ready h 0x1000 .package = true →
    exec (.remudaStatus h) s = completed h 0x1000 s id ((List.range 9).map (fun k => (s.start (callerOf h 0x1000)).reg .rmdKind k))) ∧
  (∀ (h : Hdr) (kind unit : Word) (s : State), s.ready h 0x1001 (.oneOf (List.range 8)) = true →
      s.unitOk kind.toNat h.die.toNat unit.toNat = true → s.unclaimed [(15, .rmd)] = true →
      s.bringing kind.toNat h.die.toNat unit.toNat = false → (s.start (callerOf h 0x1001)).asyncFull = false →
    (s.spareLeft kind.toNat h.die.toNat unit.toNat = true → kind.toNat ≠ 2 →
      exec (.remudaBringIn h kind unit) s = completed h 0x1001 s (fun u =>
        u.beginBringIn kind.toNat h.die.toNat unit.toNat (some (callerOf h 0x1001))) [] .accepted) ∧
    (s.spareLeft kind.toNat h.die.toNat unit.toNat = true → kind.toNat = 2 →
      let q := h.die.toNat * 3 + unit.toNat
      exec (.remudaBringIn h kind unit) s = completed h 0x1001 s (fun u =>
        (u.beginBringIn 2 h.die.toNat unit.toNat (some (callerOf h 0x1001))).setSeq q { s.seq q with order := true }) [] .accepted) ∧
    (s.spareLeft kind.toNat h.die.toNat unit.toNat = false →
      exec (.remudaBringIn h kind unit) s = completed h 0x1001 s (fun u => u.noSpare kind.toNat h.die.toNat unit.toNat) [] .noRoom)) ∧
  (∀ (kind : BitVec 4) (die : BitVec 3) (unit : Word) (s : State), s.bringing kind.toNat die.toNat unit.toNat = true →
    (kind.toNat ≠ 2 → kind.toNat ≠ 4 → kind.toNat ≠ 5 →
      exec (.spareBringInDone kind die unit) s = .next (s.spareIn kind.toNat die.toNat unit.toNat)) ∧
    (kind.toNat = 4 ∨ kind.toNat = 5 →
      let i := 28 + 5 * (if kind.toNat = 4 then unit.toNat / 16 else unit.toNat / 2 ^ 24)
      let w := s.wantTime die.toNat i
      let had := sumOn (w.power.bringIns.filter (fun b => b.is kind.toNat die.toNat unit.toNat)) (fun b => b.served)
      let part := w.rationSpan die.toNat i (copySpan kind.toNat - had)
      let v := (w.charge die.toNat i part).modPower (fun p => { p with bringIns := p.bringIns.map (fun b =>
        if b.is kind.toNat die.toNat unit.toNat then { b with served := b.served + part } else b) })
      exec (.spareBringInDone kind die unit) s = .next (if copySpan kind.toNat ≤ had + part then
        v.spareIn kind.toNat die.toNat unit.toNat else v))) ∧
  (∀ (h : Hdr) (kind policy : Word) (s : State), s.ready h 0x1002 .package = true → kind.toNat ≤ 8 → policy.toNat ≤ 2 →
      (kind = 6 → policy = 0) → s.unclaimed [(15, .rmd)] = true →
    exec (.remudaPolicySet h kind policy) s = completed h 0x1002 s (fun u =>
      let v := u.setFld .rmdKindPolicy kind.toNat policy.toNat
      if kind = 8 then v.modPower (fun p => { p with pcsPolicy := policy.toNat }) else v)) ∧
  (∀ (h : Hdr) (region : Word) (s : State), region.toNat < 72 → s.ready h 0x1003 (.owner (regionDie region.toNat)) = true →
      s.hasRegion region.toNat = true →
    exec (.remudaWearRead h region) s = completed h 0x1003 s id [BitVec.ofNat 32 (Tbl.getD s.power.wear region.toNat 0)]) ∧
  (∀ (die : BitVec 3) (index : BitVec 2) (s : State),
      s.power.bringIns.any (fun b => b.is 2 die.toNat index.toNat && decide (b.since + msSpan 10 < s.elapsed)) = true →
      s.seqHolds (die.toNat * 3 + index.toNat) = false →
    let q := die.toNat * 3 + index.toNat
    let u := s.setSeq q { s.seq q with order := false }
    exec (.bringInHoldTimeout die index) s = .next ((if u.seqState q = 4 ∧ u.trust.pending.isNone = true then u.setSeqState q 1 else u).endBringIn
      2 die.toNat index.toNat .busy))

/-- Sensors, tension, wear, failures and repairs act on the device as they happen. R16, R609, R614-R618. -/
def Obligations.PowerEventsComplete : Prop :=
  (∀ (region : BitVec 7) (temp : BitVec 12) (mw : Option (BitVec 20)) (s : State), s.hasRegion region.toNat = true →
    let r := region.toNat
    let a := s.setFld .pwrTempV r temp.toNat
    let b := match mw with
      | some v => a.setFld .pwrPkgMwV 0 v.toNat
      | none => a
    let old := Tbl.getD b.power.heat r 0
    let new := levelBits (halfDegrees temp) (b.fld .pwrThermCfgWarn 0)
    let c := b.modPower (fun p => { p with heat := p.heat.setD r 0 new })
    let d := if crossed old new 0 = true then c.report .pwrThermWarn r .pwrThermWarn 15 r else c
    let e := if crossed old new 1 = true then d.report .pwrThermMax r .pwrThermMax 15 r else d
    exec (.thermalSample region temp mw) s = .next (if crossed old new 2 = true then e.alarm 5 (regionDie r) .package else e)) ∧
  (∀ (region : BitVec 7) (hard : Bool) (s : State), s.hasRegion region.toNat = true → stretches region.toNat = true →
      s.flag .tnsStatBelow region.toNat = false →
    let r := region.toNat
    let u := (s.setFlag .tnsStatBelow r true).modPower (fun p => { p with droop := p.droop.put r s.elapsed, calm := p.calm.del r })
    exec (.droopDetect region hard) s = .next ((if s.power.episodes.has r then u
      else (u.modPower (fun p => { p with episodes := p.episodes.put r (s.elapsed, false) })).count .tnsEpisode r).setStretch r 4)) ∧
  (∀ (region : BitVec 7) (s : State), s.hasRegion region.toNat = true → stretches region.toNat = false →
      s.flag .tnsStatBelow region.toNat = false →
    let r := region.toNat
    exec (.droopDetect region true) s = .next ((((s.setFlag .tnsStatBelow r true).modPower (fun p => { p with
      droop := p.droop.put r s.elapsed })).count .tnsHard r).raiseOnce .tnsHard 15 r)) ∧
  (∀ (region : BitVec 7) (s : State), stretches region.toNat = true → s.flag .tnsStatBelow region.toNat = true →
      Tbl.getD s.power.droop region.toNat 0 + nsSpan (20 * (s.stretchOf region.toNat / 4)) ≤ s.elapsed →
    exec (.stretchStepUp region) s = .next (s.setStretch region.toNat (min 32 (s.stretchOf region.toNat + 4)))) ∧
  (∀ (region : BitVec 7) (s : State), s.flag .tnsStatBelow region.toNat = true →
    let r := region.toNat
    let u := (s.setFlag .tnsStatBelow r false).modPower (fun p => { p with droop := p.droop.del r })
    (stretches r = true → exec (.droopRecovery region) s = .next (u.modPower (fun p => { p with calm := p.calm.put r s.elapsed }))) ∧
    (stretches r = false → exec (.droopRecovery region) s = .next (u.countBy .tnsDroopNs r
      ((s.elapsed - Tbl.getD s.power.droop r 0) / nsUnit)))) ∧
  (∀ (region : BitVec 7) (t : Nat) (s : State), s.power.calm.find region.toNat = some t →
    let r := region.toNat
    let n := s.stretchOf r
    let due := t + nsSpan (10 * s.fld .tnsCfgRel r)
    due ≤ s.elapsed →
    (1 < n → exec (.stretchReleaseStep region) s = .next ((s.setStretch r (n - 1)).modPower (fun p => { p with calm := p.calm.put r due }))) ∧
    (n = 1 → ∀ began told, s.power.episodes.find r = some (began, told) →
      exec (.stretchReleaseStep region) s = .next (((s.setStretch r 0).modPower (fun p => { p with
        calm := p.calm.del r, episodes := p.episodes.del r })).countBy .tnsStretchNs r ((s.elapsed - began) / nsUnit)))) ∧
  (∀ (region : BitVec 7) (began : Nat) (s : State), s.power.episodes.find region.toNat = some (began, false) →
      s.fld .tnsCfgLongUs region.toNat ≠ 0 → began + usSpan (s.fld .tnsCfgLongUs region.toNat) < s.elapsed →
    exec (.tensionEpisodeLong region) s = .next ((s.modPower (fun p => { p with
      episodes := p.episodes.put region.toNat (began, true) })).raise .tnsLong 15 region.toNat)) ∧
  (∀ (region : BitVec 7) (ppm : Word) (s : State), s.hasRegion region.toNat = true →
    let r := region.toNat
    let u := s.modPower (fun p => { p with wear := p.wear.setD r 0 ppm.toNat })
    let v := (u.modPower (fun p => { p with wearTold := p.wearTold.put r (s.elapsed / daySpan) })).count .rmdWear 0 |>.raise .rmdWear 15 r
    (ppm.toNat ≤ s.fld .rmdCfgWearPpm 0 → exec (.wearSample region ppm) s = .next u) ∧
    (s.fld .rmdCfgWearPpm 0 < ppm.toNat → s.power.wearTold.find r ≠ some (s.elapsed / daySpan) → regionUnit r = none →
      exec (.wearSample region ppm) s = .next v) ∧
    (∀ kind n, s.fld .rmdCfgWearPpm 0 < ppm.toNat → s.power.wearTold.find r ≠ some (s.elapsed / daySpan) → regionUnit r = some (kind, n) →
      v.unitPolicy kind (regionDie r) = 2 → v.unitReplaced kind (regionDie r) n = false →
      exec (.wearSample region ppm) s = .next (v.autoSpare kind (regionDie r) n))) ∧
  (∀ (half : BitVec 1) (n : BitVec 4) (s : State), s.pipeServes half.toNat n.toNat = true →
    exec (.unitParityError (.pipeline half n)) s = .next ((s.count .pipeParErr half.toNat).parityError 0 half.toNat n.toNat)) ∧
  (∀ (line n : BitVec 2) (s : State),
    exec (.unitParityError (.tc line n)) s = .next (((List.range 8).map (line.toNat * 32 + 8 * n.toNat + ·)).foldl
      (fun u c => if u.tcOut c = true then u.darken c else u) (s.parityError 8 (2 + line.toNat) n.toNat))) ∧
  (∀ (uplink : BitVec 1) (n : BitVec 2) (s : State),
    exec (.unitParityError (.pcs uplink n)) s = .next (s.parityError 8 (6 + uplink.toNat) n.toNat)) ∧
  (∀ (kind die n : Nat) (s : State), s.hasDie die = true → s.unitFailed kind die n = false →
    s.parityError kind die n = (s.failUnit kind die n).autoSpare kind die n) ∧
  (∀ (link : BitVec 3) (s : State), s.hasLink link.toNat = true → s.ucieDown.contains link.toNat = false → s.policy 3 ≠ 0 →
    (s.spareLeft 3 0 link.toNat = true → exec (.ucieLaneRepair link) s = .next (s.spareUsed 3 0 link.toNat)) ∧
    (s.spareLeft 3 0 link.toNat = false → exec (.ucieLaneRepair link) s = .next (s.noSpare 3 0 link.toNat))) ∧
  (∀ (die : BitVec 3) (s : State), s.hasDie die.toNat = true →
    let u := s.failUnit 7 die.toNat 0
    (u.policy 7 = 0 → exec (.clockGeneratorLockLoss die) s = .next u) ∧
    (u.policy 7 ≠ 0 → u.bringing 7 die.toNat 0 = false → u.spareLeft 7 die.toNat 0 = true →
      exec (.clockGeneratorLockLoss die) s = .next ((u.replaceUnit 7 die.toNat 0).spareUsed 7 die.toNat 0)) ∧
    (u.policy 7 ≠ 0 → u.bringing 7 die.toNat 0 = false → u.spareLeft 7 die.toNat 0 = false →
      exec (.clockGeneratorLockLoss die) s = .next (u.noSpare 7 die.toNat 0)))

/-- The patrol scrub corrects or loses what it finds in each memory, under the ration of the memory. R32, R35, R160, R284, R319, R346, R376,
R400, R433, R547, R552. -/
def Obligations.PatrolScrubActs : Prop :=
  (∀ (site : ScrubSite) (bad : Bool) (s : State), s.patrolHeld site = false → s.served (patrolRation site).1 (patrolRation site).2 = true →
    let u := s.wantTime (patrolRation site).1 (patrolRation site).2
    exec (.scrubPatrol site bad) s = .next ((if bad = true then u.scrubLose site else u.scrubCorrect site).charge
      (patrolRation site).1 (patrolRation site).2 (patrolSpan site))) ∧
  (∀ (site : ScrubSite) (bad : Bool) (s : State), s.patrolHeld site = false → s.served (patrolRation site).1 (patrolRation site).2 = false →
    exec (.scrubPatrol site bad) s = .next (s.wantTime (patrolRation site).1 (patrolRation site).2)) ∧
  (∀ l r (s : State), s.scrubCorrect (.alloc l r) = s.count .gntMemCorr (2 + l.toNat)) ∧
  (∀ h t i (s : State), s.scrubCorrect (.rule h t i) = s.count .rulMemCorr h.toNat) ∧
  (∀ h m (s : State), s.scrubCorrect (.table h m) = s.count .brMemCorr h.toNat) ∧
  (∀ h n (s : State), s.scrubCorrect (.node h n) = s.count .schMemCorr h.toNat) ∧
  (∀ h n (s : State), s.scrubCorrect (.policer h n) = s.count .plcMemCorr h.toNat) ∧
  (∀ h g (s : State), s.scrubCorrect (.gate h g) = s.count .gtMemCorr (h.toNat * 128 + g.toNat)) ∧
  (∀ l r (x : AllocRec) (s : State), s.pon.allocs.find (l.toNat * 16384 + r.toNat) = some x →
    s.scrubLose (.alloc l r) = (State.report { s with pon := { s.pon with allocs := s.pon.allocs.put (l.toNat * 16384 + r.toNat) { x with memErr := true } } }
      .gntMemErr (2 + l.toNat) .gntMemErr (2 + l.toNat) (s.recChan x)).chanCause (s.recChan x)) ∧
  (∀ h t i (e : RuleEnt) (s : State), s.rule h.toNat t.toNat i.toNat = some e →
    s.scrubLose (.rule h t i) = (s.setRule h.toNat t.toNat i.toNat (some { e with memErr := true })).report .rulMemErr h.toNat .rulMemErr h.toNat t.toNat) ∧
  (∀ h m (s : State), s.scrubLose (.table h m) = (s.modFwd h.toNat (fun f => f.entryLost m)).report .brMemErr h.toNat .brMemErr h.toNat 0) ∧
  (∀ h q f (s : State), s.scrubLose (.cells h q f) = s.cellsBroken h.toNat q.toNat f.toNat) ∧
  (∀ h n (s : State), s.scrubLose (.node h n) = (s.setNode h.toNat n.toNat { s.node h.toNat n.toNat with memErr := true }).report
    .schMemErr h.toNat .schMemErr h.toNat n.toNat) ∧
  (∀ h n (s : State), s.scrubLose (.policer h n) = (s.setPolicer h.toNat n.toNat { s.policer h.toNat n.toNat with memErr := true }).report
    .plcMemErr h.toNat .plcMemErr h.toNat n.toNat) ∧
  (∀ (d : BitVec 3) k (s : State), 2 ≤ d.toNat → s.scrubLose (.keyRam d k) = s.alarm 0 d.toNat (.cluster d.toNat k.toNat)) ∧
  (∀ h k page (s : State),
    let row := k.toNat * 2 ^ 24 + page.toNat / 2
    let n := Tbl.getD s.power.hbmRows (h.toNat * 2 ^ 28 + row) 0 + 1
    let u := (s.modPower (fun p => { p with hbmRows := p.hbmRows.put (h.toNat * 2 ^ 28 + row) n })).count .hbmEccCorr h.toNat
    ∀ use, (n < u.fld .hbmCfgCorrThr h.toNat → s.scrubCorrect (.hbm h k page use) = u) ∧
      (u.fld .hbmCfgCorrThr h.toNat ≤ n → s.scrubCorrect (.hbm h k page use) = u.markHbm 5 h.toNat row))

/-- The test port is held in Test-Logic-Reset except while TEST_EN is high and HOST_RST_N low together; while it is held a clock edge
leaves it reset; an edge changes nothing but the test port; its IDCODE bears the part; EXTEST drives neither OPT_TXEN nor
HLT_OWN_N. R629. -/
def Obligations.TestPortHeld : Prop :=
  (∀ (s : State), s.tapHeld = true ↔ ¬ (s.pin .testEn 0 = 1 ∧ s.pin .hostRstN 0 = 0)) ∧
  (∀ (s : State), s.tapHeld = true → s.tapNow = Tap.reset) ∧
  (∀ (s : State) (tms tdi : Bool), s.tapHeld = true → (s.tapClock tms tdi).tap = Tap.reset) ∧
  (∀ (s : State) (tms tdi : Bool), ∃ t, s.tapClock tms tdi = { s with tap := t }) ∧
  (∀ (s : State) (p : Pin) (i : Nat), s.tapHeld = true → s.ball p i = s.pin p i) ∧
  (∀ (s : State) (i : Nat), s.extest = true → s.ball .optTxen i = 0 ∧ s.ball .hltOwnN i = 1) ∧
  (∀ (s : State) (tms tdi : Bool), s.tapHeld = false → s.tap.ctrl = .captureDr → s.tap.instr = .idcode →
    (s.tapClock tms tdi).tap.dr = lowBits 32 s.idcode) ∧
  (∀ (s : State), s.idcode / 2 ^ 12 % 2 ^ 16 = s.fld .sysIdPart 0 % 2 ^ 16 ∧ s.idcode % 2 = 1)

/-- Each field of every register meets a written word by its access code. R6, R7, R10. That a reserved encoding written to an RWC field of an
unclaimed block counts as an unclaimed write alone is the model's choice (log entry 14). -/
def Obligations.RegisterFieldsTakeTheirAccessCodes : Prop :=
  (∀ (r : Reg) (f : FieldRow) (old data : Word) (may : Bool), f ∈ r.rows →
    let x := fieldOf f.lo f.w data
    let o := fieldOf f.lo f.w old
    let n := fieldOf f.lo f.w (writeWord r old data may).1
    (f.acc = .rw → legalValue f.legal x = true → n = x) ∧
    (f.acc = .rwc → may = true → legalValue f.legal x = true → n = x) ∧
    (f.acc = .rwc → may = false → n = o) ∧
    (f.acc = .rw ∨ f.acc = .rwc → legalValue f.legal x = false → n = o) ∧
    (f.acc = .w1c → ∀ k, n.testBit k = (o.testBit k && !x.testBit k)) ∧
    (f.acc = .w1s → ∀ k, n.testBit k = (o.testBit k || x.testBit k)) ∧
    (f.acc = .ro → n = o)) ∧
  (∀ (r : Reg) (old data : Word) (may : Bool), (writeWord r old data may).2.1 = true ↔
    ∃ f ∈ r.rows, (f.acc = .rw ∨ f.acc = .rwc ∧ may = true) ∧ legalValue f.legal (fieldOf f.lo f.w data) = false) ∧
  (∀ (r : Reg) (old data : Word) (may : Bool), (writeWord r old data may).2.2 = true ↔
    ∃ f ∈ r.rows, f.acc = .rwc ∧ may = false ∧ fieldOf f.lo f.w data ≠ fieldOf f.lo f.w old) ∧
  (∀ (p : APath) (die : Nat) (r : Reg) (i : Nat) (data : Word) (s : State), r.scope ≠ .sel → s.mayRwc p die r.block = false →
    (writeWord r (s.reg r i) data false).2 = (false, true) →
    (s.meet p die r i data).1 = s.report .sysUnclaimedWr 0 .sysUnclaimedWr die 0)

/-- The array has 7,056 balls, 1,278 of them signals; every channel has its three control balls. A pin's ball shows the pin's level, DEVNUM's its bits; under
EXTEST the OPT_TXEN balls stay low and the HLT_OWN_N ball released; on ULT-OT064 the PON balls of L2 and L3 are unconnected but for
OPT_TXEN, which is low. R1, R623-R629. -/
def Obligations.BallsCarryTheirSignals : Prop :=
  (allBalls.length = 7056 ∧ (allBalls.filter Ball.isSignal).length = 1278) ∧
  (∀ (c : Nat) (p : Pin), c < 128 → p ∈ [Pin.brxRstN, .rssiTrg, .optTxen] → ∃ row col, ballAt row col = .pin p c) ∧
  (∀ (s : State) (row col : Nat) (p : Pin) (i : Nat), ballAt row col = .pin p i → p ≠ .devnum → s.unconnected row col = false →
    s.extest = false → s.levelAt row col = some (s.pin p i != 0)) ∧
  (∀ (s : State) (n : Nat), n < 10 → s.levelAt (67 + (39 + n) / 8) (39 + (39 + n) % 8) = some ((s.pin .devnum 0).testBit n)) ∧
  (∀ (s : State) (row col i : Nat), ballAt row col = .pin .optTxen i → s.extest = true → s.levelAt row col = some false) ∧
  (∀ (s : State), s.extest = true → s.levelAt 73 40 = some true) ∧
  (∀ (s : State) (row col i : Nat), ballAt row col = .pin .optTxen i → s.unconnected row col = true → s.levelAt row col = some false) ∧
  (∀ (s : State) (row col : Nat) (p : Pin) (i : Nat), ballAt row col = .pin p i → p ≠ .optTxen → s.unconnected row col = true →
    s.levelAt row col = none)
end

