-- ==== Sys2Proof/Laws/Tbl.lean ====
section
/-! SUPPORT. Sparse tables: reading after writing, and every operation keeps the canonical form. -/

namespace Sys2Proof

variable {α : Type}

@[simp] theorem Tbl.find_nil (n : Nat) : Tbl.find ([] : Tbl α) n = none := rfl

theorem Tbl.find_put (t : Tbl α) (n m : Nat) (v : α) :
    (t.put n v).find m = if n = m then some v else t.find m := by
  induction t with
  | nil => simp [Tbl.put, Tbl.find]
  | cons p t ih =>
    obtain ⟨k, w⟩ := p
    simp only [Tbl.put]
    split
    · simp only [Tbl.find]
    · split
      · subst_vars; simp only [Tbl.find]; split <;> rfl
      · simp only [Tbl.find, ih]; split
        · subst_vars; simp; intro h; omega
        · rfl

@[simp] theorem Tbl.find_put_same (t : Tbl α) (n : Nat) (v : α) : (t.put n v).find n = some v := by simp [Tbl.find_put]

theorem Tbl.find_put_other (t : Tbl α) {n m : Nat} (v : α) (h : n ≠ m) : (t.put n v).find m = t.find m := by
  simp [Tbl.find_put, h]

theorem Tbl.find_del (t : Tbl α) (n m : Nat) : (t.del n).find m = if n = m then none else t.find m := by
  induction t with
  | nil => simp [Tbl.del, Tbl.find]
  | cons p t ih =>
    obtain ⟨k, w⟩ := p
    simp only [Tbl.del] at ih ⊢
    by_cases hk : k = n
    · subst hk; simp [ih, Tbl.find]; split <;> rfl
    · simp [hk, Tbl.find, ih]; split
      · subst_vars; rw [if_neg (fun h => hk h.symm)]
      · rfl

@[simp] theorem Tbl.find_del_same (t : Tbl α) (n : Nat) : (t.del n).find n = none := by simp [Tbl.find_del]

theorem Tbl.getD_setD (t : Tbl α) [DecidableEq α] (n m : Nat) (d e v : α) :
    (Tbl.setD t n d v).getD m e = if n = m then (if v = d then e else v) else t.getD m e := by
  unfold Tbl.setD Tbl.getD
  split <;> simp only [Tbl.find_del, Tbl.find_put] <;> split <;> simp_all

@[simp] theorem Tbl.getD_setD_same (t : Tbl α) [DecidableEq α] (n : Nat) (d v : α) :
    (Tbl.setD t n d v).getD n d = v := by
  rw [Tbl.getD_setD]; simp; intro h; exact h.symm

theorem Tbl.getD_setD_other (t : Tbl α) [DecidableEq α] {n m : Nat} (d e v : α) (h : n ≠ m) :
    (Tbl.setD t n d v).getD m e = t.getD m e := by rw [Tbl.getD_setD]; simp [h]

@[simp] theorem Tbl.getD_put_same (t : Tbl α) (n : Nat) (d v : α) : (t.put n v).getD n d = v := by simp [Tbl.getD]

@[simp] theorem Tbl.has_put_same (t : Tbl α) (n : Nat) (v : α) : (t.put n v).has n = true := by simp [Tbl.has]

@[simp] theorem Tbl.has_del_same (t : Tbl α) (n : Nat) : (t.del n).has n = false := by simp [Tbl.has]

theorem Tbl.wf_del (t : Tbl α) (n : Nat) (h : t.wf) : (t.del n).wf := by
  unfold Tbl.wf Tbl.del at *
  exact h.sublist (List.Sublist.map _ List.filter_sublist)

theorem Tbl.mem_put_fst (t : Tbl α) (n : Nat) (v : α) (k : Nat) (h : k ∈ (t.put n v).map Prod.fst) :
    k = n ∨ k ∈ t.map Prod.fst := by
  induction t with
  | nil => simp [Tbl.put] at h; exact .inl h
  | cons p t ih =>
    obtain ⟨a, w⟩ := p
    simp only [Tbl.put] at h
    split at h
    · simpa using h
    · split at h
      · simp at h ⊢; tauto
      · simp only [List.map_cons, List.mem_cons] at h ⊢
        rcases h with h | h
        · exact .inr (.inl h)
        · rcases ih h with h | h
          · exact .inl h
          · exact .inr (.inr h)

theorem Tbl.wf_put (t : Tbl α) (n : Nat) (v : α) (h : t.wf) : (t.put n v).wf := by
  induction t with
  | nil => simp [Tbl.put, Tbl.wf]
  | cons p t ih =>
    obtain ⟨a, w⟩ := p
    unfold Tbl.wf at h ih ⊢
    rw [List.map_cons, List.pairwise_cons] at h
    obtain ⟨h1, h2⟩ := h
    simp only [Tbl.put]
    split
    · rename_i hlt
      rw [List.map_cons, List.map_cons, List.pairwise_cons, List.pairwise_cons]
      refine ⟨?_, h1, h2⟩
      intro b hb
      rcases List.mem_cons.mp hb with rfl | hb
      · exact hlt
      · exact Nat.lt_trans hlt (h1 b hb)
    · split
      · subst_vars; rw [List.map_cons, List.pairwise_cons]; exact ⟨h1, h2⟩
      · rw [List.map_cons, List.pairwise_cons]
        refine ⟨?_, ih h2⟩
        intro b hb
        rcases Tbl.mem_put_fst t n v b hb with rfl | hb
        · show a < b; omega
        · exact h1 b hb

theorem Tbl.wf_setD (t : Tbl α) [DecidableEq α] (n : Nat) (d v : α) (h : t.wf) : (Tbl.setD t n d v).wf := by
  unfold Tbl.setD; split
  · exact Tbl.wf_del t n h
  · exact Tbl.wf_put t n v h

theorem Tbl.wf_setOpt (t : Tbl α) (n : Nat) (o : Option α) (h : t.wf) : (t.setOpt n o).wf := by
  cases o
  · exact Tbl.wf_del t n h
  · exact Tbl.wf_put t n _ h

theorem Tbl.wf_modify (t : Tbl α) (n : Nat) (f : α → α) (h : t.wf) : (t.modify n f).wf := by
  unfold Tbl.modify; split
  · exact Tbl.wf_put t n _ h
  · exact h

end Sys2Proof
end

