-- ==== Sys2Proof/Laws/State.lean ====
section
/-! SUPPORT. What each update of State leaves alone: one lemma per field per update, each true by unfolding, so that no proof
unfolds a record update. -/

namespace Sys2Proof.Machine

variable (s : State)

@[simp] theorem setReg_pending (r : Reg) (i : Nat) (v : Word) : (s.setReg r i v).pending = s.pending := (rfl)
@[simp] theorem setReg_ctrs (r : Reg) (i : Nat) (v : Word) : (s.setReg r i v).ctrs = s.ctrs := (rfl)
@[simp] theorem setReg_pins (r : Reg) (i : Nat) (v : Word) : (s.setReg r i v).pins = s.pins := (rfl)
@[simp] theorem setReg_latches (r : Reg) (i : Nat) (v : Word) : (s.setReg r i v).latches = s.latches := (rfl)
@[simp] theorem setReg_now (r : Reg) (i : Nat) (v : Word) : (s.setReg r i v).now = s.now := (rfl)
@[simp] theorem setReg_freeCtr (r : Reg) (i : Nat) (v : Word) : (s.setReg r i v).freeCtr = s.freeCtr := (rfl)
@[simp] theorem setReg_out (r : Reg) (i : Nat) (v : Word) : (s.setReg r i v).out = s.out := (rfl)
@[simp] theorem setReg_evQueue (r : Reg) (i : Nat) (v : Word) : (s.setReg r i v).evQueue = s.evQueue := (rfl)
@[simp] theorem setReg_evRing (r : Reg) (i : Nat) (v : Word) : (s.setReg r i v).evRing = s.evRing := (rfl)
@[simp] theorem setReg_once (r : Reg) (i : Nat) (v : Word) : (s.setReg r i v).once = s.once := (rfl)
@[simp] theorem setReg_flights (r : Reg) (i : Nat) (v : Word) : (s.setReg r i v).flights = s.flights := (rfl)
@[simp] theorem setReg_laosh (r : Reg) (i : Nat) (v : Word) : (s.setReg r i v).laosh = s.laosh := (rfl)
@[simp] theorem setReg_win (r : Reg) (i : Nat) (v : Word) : (s.setReg r i v).win = s.win := (rfl)
@[simp] theorem setReg_rtn (r : Reg) (i : Nat) (v : Word) : (s.setReg r i v).rtn = s.rtn := (rfl)
@[simp] theorem setReg_ucieDown (r : Reg) (i : Nat) (v : Word) : (s.setReg r i v).ucieDown = s.ucieDown := (rfl)
@[simp] theorem setReg_tb (r : Reg) (i : Nat) (v : Word) : (s.setReg r i v).tb = s.tb := (rfl)
@[simp] theorem setReg_lanes (r : Reg) (i : Nat) (v : Word) : (s.setReg r i v).lanes = s.lanes := (rfl)
@[simp] theorem setReg_chans (r : Reg) (i : Nat) (v : Word) : (s.setReg r i v).chans = s.chans := (rfl)
@[simp] theorem setReg_trees (r : Reg) (i : Nat) (v : Word) : (s.setReg r i v).trees = s.trees := (rfl)
@[simp] theorem setReg_skeinOnus (r : Reg) (i : Nat) (v : Word) : (s.setReg r i v).skeinOnus = s.skeinOnus := (rfl)
@[simp] theorem setReg_memberDown (r : Reg) (i : Nat) (v : Word) : (s.setReg r i v).memberDown = s.memberDown := (rfl)
@[simp] theorem setReg_elapsed (r : Reg) (i : Nat) (v : Word) : (s.setReg r i v).elapsed = s.elapsed := (rfl)
@[simp] theorem setReg_pon (r : Reg) (i : Nat) (v : Word) : (s.setReg r i v).pon = s.pon := (rfl)
@[simp] theorem setReg_vault (r : Reg) (i : Nat) (v : Word) : (s.setReg r i v).vault = s.vault := (rfl)
@[simp] theorem setReg_tribs (r : Reg) (i : Nat) (v : Word) : (s.setReg r i v).tribs = s.tribs := (rfl)
@[simp] theorem setReg_fwd (r : Reg) (i : Nat) (v : Word) : (s.setReg r i v).fwd = s.fwd := (rfl)
@[simp] theorem setReg_tableWaits (r : Reg) (i : Nat) (v : Word) : (s.setReg r i v).tableWaits = s.tableWaits := (rfl)
@[simp] theorem setReg_store (r : Reg) (i : Nat) (v : Word) : (s.setReg r i v).store = s.store := (rfl)
@[simp] theorem setReg_toTc (r : Reg) (i : Nat) (v : Word) : (s.setReg r i v).toTc = s.toTc := (rfl)
@[simp] theorem setReg_idled (r : Reg) (i : Nat) (v : Word) : (s.setReg r i v).idled = s.idled := (rfl)
@[simp] theorem setReg_secys (r : Reg) (i : Nat) (v : Word) : (s.setReg r i v).secys = s.secys := (rfl)
@[simp] theorem setReg_cipher (r : Reg) (i : Nat) (v : Word) : (s.setReg r i v).cipher = s.cipher := (rfl)
@[simp] theorem setReg_tandem (r : Reg) (i : Nat) (v : Word) : (s.setReg r i v).tandem = s.tandem := (rfl)
@[simp] theorem setReg_seqs (r : Reg) (i : Nat) (v : Word) : (s.setReg r i v).seqs = s.seqs := (rfl)
@[simp] theorem setReg_fwEvents (r : Reg) (i : Nat) (v : Word) : (s.setReg r i v).fwEvents = s.fwEvents := (rfl)
@[simp] theorem setReg_seqTurn (r : Reg) (i : Nat) (v : Word) : (s.setReg r i v).seqTurn = s.seqTurn := (rfl)
@[simp] theorem setReg_pads (r : Reg) (i : Nat) (v : Word) : (s.setReg r i v).pads = s.pads := (rfl)
@[simp] theorem setReg_trust (r : Reg) (i : Nat) (v : Word) : (s.setReg r i v).trust = s.trust := (rfl)
@[simp] theorem setReg_pm (r : Reg) (i : Nat) (v : Word) : (s.setReg r i v).pm = s.pm := (rfl)
@[simp] theorem setReg_gauge (r : Reg) (i : Nat) (v : Word) : (s.setReg r i v).gauge = s.gauge := (rfl)
@[simp] theorem setReg_power (r : Reg) (i : Nat) (v : Word) : (s.setReg r i v).power = s.power := (rfl)
@[simp] theorem setReg_tap (r : Reg) (i : Nat) (v : Word) : (s.setReg r i v).tap = s.tap := (rfl)

@[simp] theorem setFld_pending (f : Fld) (i x : Nat) : (s.setFld f i x).pending = s.pending := (rfl)
@[simp] theorem setFld_ctrs (f : Fld) (i x : Nat) : (s.setFld f i x).ctrs = s.ctrs := (rfl)
@[simp] theorem setFld_pins (f : Fld) (i x : Nat) : (s.setFld f i x).pins = s.pins := (rfl)
@[simp] theorem setFld_latches (f : Fld) (i x : Nat) : (s.setFld f i x).latches = s.latches := (rfl)
@[simp] theorem setFld_now (f : Fld) (i x : Nat) : (s.setFld f i x).now = s.now := (rfl)
@[simp] theorem setFld_freeCtr (f : Fld) (i x : Nat) : (s.setFld f i x).freeCtr = s.freeCtr := (rfl)
@[simp] theorem setFld_out (f : Fld) (i x : Nat) : (s.setFld f i x).out = s.out := (rfl)
@[simp] theorem setFld_evQueue (f : Fld) (i x : Nat) : (s.setFld f i x).evQueue = s.evQueue := (rfl)
@[simp] theorem setFld_evRing (f : Fld) (i x : Nat) : (s.setFld f i x).evRing = s.evRing := (rfl)
@[simp] theorem setFld_once (f : Fld) (i x : Nat) : (s.setFld f i x).once = s.once := (rfl)
@[simp] theorem setFld_flights (f : Fld) (i x : Nat) : (s.setFld f i x).flights = s.flights := (rfl)
@[simp] theorem setFld_laosh (f : Fld) (i x : Nat) : (s.setFld f i x).laosh = s.laosh := (rfl)
@[simp] theorem setFld_win (f : Fld) (i x : Nat) : (s.setFld f i x).win = s.win := (rfl)
@[simp] theorem setFld_rtn (f : Fld) (i x : Nat) : (s.setFld f i x).rtn = s.rtn := (rfl)
@[simp] theorem setFld_ucieDown (f : Fld) (i x : Nat) : (s.setFld f i x).ucieDown = s.ucieDown := (rfl)
@[simp] theorem setFld_tb (f : Fld) (i x : Nat) : (s.setFld f i x).tb = s.tb := (rfl)
@[simp] theorem setFld_lanes (f : Fld) (i x : Nat) : (s.setFld f i x).lanes = s.lanes := (rfl)
@[simp] theorem setFld_chans (f : Fld) (i x : Nat) : (s.setFld f i x).chans = s.chans := (rfl)
@[simp] theorem setFld_trees (f : Fld) (i x : Nat) : (s.setFld f i x).trees = s.trees := (rfl)
@[simp] theorem setFld_skeinOnus (f : Fld) (i x : Nat) : (s.setFld f i x).skeinOnus = s.skeinOnus := (rfl)
@[simp] theorem setFld_memberDown (f : Fld) (i x : Nat) : (s.setFld f i x).memberDown = s.memberDown := (rfl)
@[simp] theorem setFld_elapsed (f : Fld) (i x : Nat) : (s.setFld f i x).elapsed = s.elapsed := (rfl)
@[simp] theorem setFld_pon (f : Fld) (i x : Nat) : (s.setFld f i x).pon = s.pon := (rfl)
@[simp] theorem setFld_vault (f : Fld) (i x : Nat) : (s.setFld f i x).vault = s.vault := (rfl)
@[simp] theorem setFld_tribs (f : Fld) (i x : Nat) : (s.setFld f i x).tribs = s.tribs := (rfl)
@[simp] theorem setFld_fwd (f : Fld) (i x : Nat) : (s.setFld f i x).fwd = s.fwd := (rfl)
@[simp] theorem setFld_tableWaits (f : Fld) (i x : Nat) : (s.setFld f i x).tableWaits = s.tableWaits := (rfl)
@[simp] theorem setFld_store (f : Fld) (i x : Nat) : (s.setFld f i x).store = s.store := (rfl)
@[simp] theorem setFld_toTc (f : Fld) (i x : Nat) : (s.setFld f i x).toTc = s.toTc := (rfl)
@[simp] theorem setFld_idled (f : Fld) (i x : Nat) : (s.setFld f i x).idled = s.idled := (rfl)
@[simp] theorem setFld_secys (f : Fld) (i x : Nat) : (s.setFld f i x).secys = s.secys := (rfl)
@[simp] theorem setFld_cipher (f : Fld) (i x : Nat) : (s.setFld f i x).cipher = s.cipher := (rfl)
@[simp] theorem setFld_tandem (f : Fld) (i x : Nat) : (s.setFld f i x).tandem = s.tandem := (rfl)
@[simp] theorem setFld_seqs (f : Fld) (i x : Nat) : (s.setFld f i x).seqs = s.seqs := (rfl)
@[simp] theorem setFld_fwEvents (f : Fld) (i x : Nat) : (s.setFld f i x).fwEvents = s.fwEvents := (rfl)
@[simp] theorem setFld_seqTurn (f : Fld) (i x : Nat) : (s.setFld f i x).seqTurn = s.seqTurn := (rfl)
@[simp] theorem setFld_pads (f : Fld) (i x : Nat) : (s.setFld f i x).pads = s.pads := (rfl)
@[simp] theorem setFld_trust (f : Fld) (i x : Nat) : (s.setFld f i x).trust = s.trust := (rfl)
@[simp] theorem setFld_pm (f : Fld) (i x : Nat) : (s.setFld f i x).pm = s.pm := (rfl)
@[simp] theorem setFld_gauge (f : Fld) (i x : Nat) : (s.setFld f i x).gauge = s.gauge := (rfl)
@[simp] theorem setFld_power (f : Fld) (i x : Nat) : (s.setFld f i x).power = s.power := (rfl)
@[simp] theorem setFld_tap (f : Fld) (i x : Nat) : (s.setFld f i x).tap = s.tap := (rfl)

@[simp] theorem setFlag_pending (f : Fld) (i : Nat) (b : Bool) : (s.setFlag f i b).pending = s.pending := (rfl)
@[simp] theorem setFlag_ctrs (f : Fld) (i : Nat) (b : Bool) : (s.setFlag f i b).ctrs = s.ctrs := (rfl)
@[simp] theorem setFlag_pins (f : Fld) (i : Nat) (b : Bool) : (s.setFlag f i b).pins = s.pins := (rfl)
@[simp] theorem setFlag_latches (f : Fld) (i : Nat) (b : Bool) : (s.setFlag f i b).latches = s.latches := (rfl)
@[simp] theorem setFlag_now (f : Fld) (i : Nat) (b : Bool) : (s.setFlag f i b).now = s.now := (rfl)
@[simp] theorem setFlag_freeCtr (f : Fld) (i : Nat) (b : Bool) : (s.setFlag f i b).freeCtr = s.freeCtr := (rfl)
@[simp] theorem setFlag_out (f : Fld) (i : Nat) (b : Bool) : (s.setFlag f i b).out = s.out := (rfl)
@[simp] theorem setFlag_evQueue (f : Fld) (i : Nat) (b : Bool) : (s.setFlag f i b).evQueue = s.evQueue := (rfl)
@[simp] theorem setFlag_evRing (f : Fld) (i : Nat) (b : Bool) : (s.setFlag f i b).evRing = s.evRing := (rfl)
@[simp] theorem setFlag_once (f : Fld) (i : Nat) (b : Bool) : (s.setFlag f i b).once = s.once := (rfl)
@[simp] theorem setFlag_flights (f : Fld) (i : Nat) (b : Bool) : (s.setFlag f i b).flights = s.flights := (rfl)
@[simp] theorem setFlag_laosh (f : Fld) (i : Nat) (b : Bool) : (s.setFlag f i b).laosh = s.laosh := (rfl)
@[simp] theorem setFlag_win (f : Fld) (i : Nat) (b : Bool) : (s.setFlag f i b).win = s.win := (rfl)
@[simp] theorem setFlag_rtn (f : Fld) (i : Nat) (b : Bool) : (s.setFlag f i b).rtn = s.rtn := (rfl)
@[simp] theorem setFlag_ucieDown (f : Fld) (i : Nat) (b : Bool) : (s.setFlag f i b).ucieDown = s.ucieDown := (rfl)
@[simp] theorem setFlag_tb (f : Fld) (i : Nat) (b : Bool) : (s.setFlag f i b).tb = s.tb := (rfl)
@[simp] theorem setFlag_lanes (f : Fld) (i : Nat) (b : Bool) : (s.setFlag f i b).lanes = s.lanes := (rfl)
@[simp] theorem setFlag_chans (f : Fld) (i : Nat) (b : Bool) : (s.setFlag f i b).chans = s.chans := (rfl)
@[simp] theorem setFlag_trees (f : Fld) (i : Nat) (b : Bool) : (s.setFlag f i b).trees = s.trees := (rfl)
@[simp] theorem setFlag_skeinOnus (f : Fld) (i : Nat) (b : Bool) : (s.setFlag f i b).skeinOnus = s.skeinOnus := (rfl)
@[simp] theorem setFlag_memberDown (f : Fld) (i : Nat) (b : Bool) : (s.setFlag f i b).memberDown = s.memberDown := (rfl)
@[simp] theorem setFlag_elapsed (f : Fld) (i : Nat) (b : Bool) : (s.setFlag f i b).elapsed = s.elapsed := (rfl)
@[simp] theorem setFlag_pon (f : Fld) (i : Nat) (b : Bool) : (s.setFlag f i b).pon = s.pon := (rfl)
@[simp] theorem setFlag_vault (f : Fld) (i : Nat) (b : Bool) : (s.setFlag f i b).vault = s.vault := (rfl)
@[simp] theorem setFlag_tribs (f : Fld) (i : Nat) (b : Bool) : (s.setFlag f i b).tribs = s.tribs := (rfl)
@[simp] theorem setFlag_fwd (f : Fld) (i : Nat) (b : Bool) : (s.setFlag f i b).fwd = s.fwd := (rfl)
@[simp] theorem setFlag_tableWaits (f : Fld) (i : Nat) (b : Bool) : (s.setFlag f i b).tableWaits = s.tableWaits := (rfl)
@[simp] theorem setFlag_store (f : Fld) (i : Nat) (b : Bool) : (s.setFlag f i b).store = s.store := (rfl)
@[simp] theorem setFlag_toTc (f : Fld) (i : Nat) (b : Bool) : (s.setFlag f i b).toTc = s.toTc := (rfl)
@[simp] theorem setFlag_idled (f : Fld) (i : Nat) (b : Bool) : (s.setFlag f i b).idled = s.idled := (rfl)
@[simp] theorem setFlag_secys (f : Fld) (i : Nat) (b : Bool) : (s.setFlag f i b).secys = s.secys := (rfl)
@[simp] theorem setFlag_cipher (f : Fld) (i : Nat) (b : Bool) : (s.setFlag f i b).cipher = s.cipher := (rfl)
@[simp] theorem setFlag_tandem (f : Fld) (i : Nat) (b : Bool) : (s.setFlag f i b).tandem = s.tandem := (rfl)
@[simp] theorem setFlag_seqs (f : Fld) (i : Nat) (b : Bool) : (s.setFlag f i b).seqs = s.seqs := (rfl)
@[simp] theorem setFlag_fwEvents (f : Fld) (i : Nat) (b : Bool) : (s.setFlag f i b).fwEvents = s.fwEvents := (rfl)
@[simp] theorem setFlag_seqTurn (f : Fld) (i : Nat) (b : Bool) : (s.setFlag f i b).seqTurn = s.seqTurn := (rfl)
@[simp] theorem setFlag_pads (f : Fld) (i : Nat) (b : Bool) : (s.setFlag f i b).pads = s.pads := (rfl)
@[simp] theorem setFlag_trust (f : Fld) (i : Nat) (b : Bool) : (s.setFlag f i b).trust = s.trust := (rfl)
@[simp] theorem setFlag_pm (f : Fld) (i : Nat) (b : Bool) : (s.setFlag f i b).pm = s.pm := (rfl)
@[simp] theorem setFlag_gauge (f : Fld) (i : Nat) (b : Bool) : (s.setFlag f i b).gauge = s.gauge := (rfl)
@[simp] theorem setFlag_power (f : Fld) (i : Nat) (b : Bool) : (s.setFlag f i b).power = s.power := (rfl)
@[simp] theorem setFlag_tap (f : Fld) (i : Nat) (b : Bool) : (s.setFlag f i b).tap = s.tap := (rfl)

@[simp] theorem latchBits_pending (r : Reg) (i : Nat) (v : Word) : (s.latchBits r i v).pending = s.pending := (rfl)
@[simp] theorem latchBits_ctrs (r : Reg) (i : Nat) (v : Word) : (s.latchBits r i v).ctrs = s.ctrs := (rfl)
@[simp] theorem latchBits_pins (r : Reg) (i : Nat) (v : Word) : (s.latchBits r i v).pins = s.pins := (rfl)
@[simp] theorem latchBits_now (r : Reg) (i : Nat) (v : Word) : (s.latchBits r i v).now = s.now := (rfl)
@[simp] theorem latchBits_freeCtr (r : Reg) (i : Nat) (v : Word) : (s.latchBits r i v).freeCtr = s.freeCtr := (rfl)
@[simp] theorem latchBits_out (r : Reg) (i : Nat) (v : Word) : (s.latchBits r i v).out = s.out := (rfl)
@[simp] theorem latchBits_evQueue (r : Reg) (i : Nat) (v : Word) : (s.latchBits r i v).evQueue = s.evQueue := (rfl)
@[simp] theorem latchBits_evRing (r : Reg) (i : Nat) (v : Word) : (s.latchBits r i v).evRing = s.evRing := (rfl)
@[simp] theorem latchBits_once (r : Reg) (i : Nat) (v : Word) : (s.latchBits r i v).once = s.once := (rfl)
@[simp] theorem latchBits_flights (r : Reg) (i : Nat) (v : Word) : (s.latchBits r i v).flights = s.flights := (rfl)
@[simp] theorem latchBits_laosh (r : Reg) (i : Nat) (v : Word) : (s.latchBits r i v).laosh = s.laosh := (rfl)
@[simp] theorem latchBits_win (r : Reg) (i : Nat) (v : Word) : (s.latchBits r i v).win = s.win := (rfl)
@[simp] theorem latchBits_rtn (r : Reg) (i : Nat) (v : Word) : (s.latchBits r i v).rtn = s.rtn := (rfl)
@[simp] theorem latchBits_ucieDown (r : Reg) (i : Nat) (v : Word) : (s.latchBits r i v).ucieDown = s.ucieDown := (rfl)
@[simp] theorem latchBits_tb (r : Reg) (i : Nat) (v : Word) : (s.latchBits r i v).tb = s.tb := (rfl)
@[simp] theorem latchBits_lanes (r : Reg) (i : Nat) (v : Word) : (s.latchBits r i v).lanes = s.lanes := (rfl)
@[simp] theorem latchBits_chans (r : Reg) (i : Nat) (v : Word) : (s.latchBits r i v).chans = s.chans := (rfl)
@[simp] theorem latchBits_trees (r : Reg) (i : Nat) (v : Word) : (s.latchBits r i v).trees = s.trees := (rfl)
@[simp] theorem latchBits_skeinOnus (r : Reg) (i : Nat) (v : Word) : (s.latchBits r i v).skeinOnus = s.skeinOnus := (rfl)
@[simp] theorem latchBits_memberDown (r : Reg) (i : Nat) (v : Word) : (s.latchBits r i v).memberDown = s.memberDown := (rfl)
@[simp] theorem latchBits_elapsed (r : Reg) (i : Nat) (v : Word) : (s.latchBits r i v).elapsed = s.elapsed := (rfl)
@[simp] theorem latchBits_pon (r : Reg) (i : Nat) (v : Word) : (s.latchBits r i v).pon = s.pon := (rfl)
@[simp] theorem latchBits_vault (r : Reg) (i : Nat) (v : Word) : (s.latchBits r i v).vault = s.vault := (rfl)
@[simp] theorem latchBits_tribs (r : Reg) (i : Nat) (v : Word) : (s.latchBits r i v).tribs = s.tribs := (rfl)
@[simp] theorem latchBits_fwd (r : Reg) (i : Nat) (v : Word) : (s.latchBits r i v).fwd = s.fwd := (rfl)
@[simp] theorem latchBits_tableWaits (r : Reg) (i : Nat) (v : Word) : (s.latchBits r i v).tableWaits = s.tableWaits := (rfl)
@[simp] theorem latchBits_store (r : Reg) (i : Nat) (v : Word) : (s.latchBits r i v).store = s.store := (rfl)
@[simp] theorem latchBits_toTc (r : Reg) (i : Nat) (v : Word) : (s.latchBits r i v).toTc = s.toTc := (rfl)
@[simp] theorem latchBits_idled (r : Reg) (i : Nat) (v : Word) : (s.latchBits r i v).idled = s.idled := (rfl)
@[simp] theorem latchBits_secys (r : Reg) (i : Nat) (v : Word) : (s.latchBits r i v).secys = s.secys := (rfl)
@[simp] theorem latchBits_cipher (r : Reg) (i : Nat) (v : Word) : (s.latchBits r i v).cipher = s.cipher := (rfl)
@[simp] theorem latchBits_tandem (r : Reg) (i : Nat) (v : Word) : (s.latchBits r i v).tandem = s.tandem := (rfl)
@[simp] theorem latchBits_seqs (r : Reg) (i : Nat) (v : Word) : (s.latchBits r i v).seqs = s.seqs := (rfl)
@[simp] theorem latchBits_fwEvents (r : Reg) (i : Nat) (v : Word) : (s.latchBits r i v).fwEvents = s.fwEvents := (rfl)
@[simp] theorem latchBits_seqTurn (r : Reg) (i : Nat) (v : Word) : (s.latchBits r i v).seqTurn = s.seqTurn := (rfl)
@[simp] theorem latchBits_pads (r : Reg) (i : Nat) (v : Word) : (s.latchBits r i v).pads = s.pads := (rfl)
@[simp] theorem latchBits_trust (r : Reg) (i : Nat) (v : Word) : (s.latchBits r i v).trust = s.trust := (rfl)
@[simp] theorem latchBits_pm (r : Reg) (i : Nat) (v : Word) : (s.latchBits r i v).pm = s.pm := (rfl)
@[simp] theorem latchBits_gauge (r : Reg) (i : Nat) (v : Word) : (s.latchBits r i v).gauge = s.gauge := (rfl)
@[simp] theorem latchBits_power (r : Reg) (i : Nat) (v : Word) : (s.latchBits r i v).power = s.power := (rfl)
@[simp] theorem latchBits_tap (r : Reg) (i : Nat) (v : Word) : (s.latchBits r i v).tap = s.tap := (rfl)

@[simp] theorem latchFlag_pending (f : Fld) (i : Nat) : (s.latchFlag f i).pending = s.pending := (rfl)
@[simp] theorem latchFlag_ctrs (f : Fld) (i : Nat) : (s.latchFlag f i).ctrs = s.ctrs := (rfl)
@[simp] theorem latchFlag_pins (f : Fld) (i : Nat) : (s.latchFlag f i).pins = s.pins := (rfl)
@[simp] theorem latchFlag_now (f : Fld) (i : Nat) : (s.latchFlag f i).now = s.now := (rfl)
@[simp] theorem latchFlag_freeCtr (f : Fld) (i : Nat) : (s.latchFlag f i).freeCtr = s.freeCtr := (rfl)
@[simp] theorem latchFlag_out (f : Fld) (i : Nat) : (s.latchFlag f i).out = s.out := (rfl)
@[simp] theorem latchFlag_evQueue (f : Fld) (i : Nat) : (s.latchFlag f i).evQueue = s.evQueue := (rfl)
@[simp] theorem latchFlag_evRing (f : Fld) (i : Nat) : (s.latchFlag f i).evRing = s.evRing := (rfl)
@[simp] theorem latchFlag_once (f : Fld) (i : Nat) : (s.latchFlag f i).once = s.once := (rfl)
@[simp] theorem latchFlag_flights (f : Fld) (i : Nat) : (s.latchFlag f i).flights = s.flights := (rfl)
@[simp] theorem latchFlag_laosh (f : Fld) (i : Nat) : (s.latchFlag f i).laosh = s.laosh := (rfl)
@[simp] theorem latchFlag_win (f : Fld) (i : Nat) : (s.latchFlag f i).win = s.win := (rfl)
@[simp] theorem latchFlag_rtn (f : Fld) (i : Nat) : (s.latchFlag f i).rtn = s.rtn := (rfl)
@[simp] theorem latchFlag_ucieDown (f : Fld) (i : Nat) : (s.latchFlag f i).ucieDown = s.ucieDown := (rfl)
@[simp] theorem latchFlag_tb (f : Fld) (i : Nat) : (s.latchFlag f i).tb = s.tb := (rfl)
@[simp] theorem latchFlag_lanes (f : Fld) (i : Nat) : (s.latchFlag f i).lanes = s.lanes := (rfl)
@[simp] theorem latchFlag_chans (f : Fld) (i : Nat) : (s.latchFlag f i).chans = s.chans := (rfl)
@[simp] theorem latchFlag_trees (f : Fld) (i : Nat) : (s.latchFlag f i).trees = s.trees := (rfl)
@[simp] theorem latchFlag_skeinOnus (f : Fld) (i : Nat) : (s.latchFlag f i).skeinOnus = s.skeinOnus := (rfl)
@[simp] theorem latchFlag_memberDown (f : Fld) (i : Nat) : (s.latchFlag f i).memberDown = s.memberDown := (rfl)
@[simp] theorem latchFlag_elapsed (f : Fld) (i : Nat) : (s.latchFlag f i).elapsed = s.elapsed := (rfl)
@[simp] theorem latchFlag_pon (f : Fld) (i : Nat) : (s.latchFlag f i).pon = s.pon := (rfl)
@[simp] theorem latchFlag_vault (f : Fld) (i : Nat) : (s.latchFlag f i).vault = s.vault := (rfl)
@[simp] theorem latchFlag_tribs (f : Fld) (i : Nat) : (s.latchFlag f i).tribs = s.tribs := (rfl)
@[simp] theorem latchFlag_fwd (f : Fld) (i : Nat) : (s.latchFlag f i).fwd = s.fwd := (rfl)
@[simp] theorem latchFlag_tableWaits (f : Fld) (i : Nat) : (s.latchFlag f i).tableWaits = s.tableWaits := (rfl)
@[simp] theorem latchFlag_store (f : Fld) (i : Nat) : (s.latchFlag f i).store = s.store := (rfl)
@[simp] theorem latchFlag_toTc (f : Fld) (i : Nat) : (s.latchFlag f i).toTc = s.toTc := (rfl)
@[simp] theorem latchFlag_idled (f : Fld) (i : Nat) : (s.latchFlag f i).idled = s.idled := (rfl)
@[simp] theorem latchFlag_secys (f : Fld) (i : Nat) : (s.latchFlag f i).secys = s.secys := (rfl)
@[simp] theorem latchFlag_cipher (f : Fld) (i : Nat) : (s.latchFlag f i).cipher = s.cipher := (rfl)
@[simp] theorem latchFlag_tandem (f : Fld) (i : Nat) : (s.latchFlag f i).tandem = s.tandem := (rfl)
@[simp] theorem latchFlag_seqs (f : Fld) (i : Nat) : (s.latchFlag f i).seqs = s.seqs := (rfl)
@[simp] theorem latchFlag_fwEvents (f : Fld) (i : Nat) : (s.latchFlag f i).fwEvents = s.fwEvents := (rfl)
@[simp] theorem latchFlag_seqTurn (f : Fld) (i : Nat) : (s.latchFlag f i).seqTurn = s.seqTurn := (rfl)
@[simp] theorem latchFlag_pads (f : Fld) (i : Nat) : (s.latchFlag f i).pads = s.pads := (rfl)
@[simp] theorem latchFlag_trust (f : Fld) (i : Nat) : (s.latchFlag f i).trust = s.trust := (rfl)
@[simp] theorem latchFlag_pm (f : Fld) (i : Nat) : (s.latchFlag f i).pm = s.pm := (rfl)
@[simp] theorem latchFlag_gauge (f : Fld) (i : Nat) : (s.latchFlag f i).gauge = s.gauge := (rfl)
@[simp] theorem latchFlag_power (f : Fld) (i : Nat) : (s.latchFlag f i).power = s.power := (rfl)
@[simp] theorem latchFlag_tap (f : Fld) (i : Nat) : (s.latchFlag f i).tap = s.tap := (rfl)

@[simp] theorem moveCtr_pending (c : Ctr) (i n : Nat) : (s.moveCtr c i n).pending = s.pending := (rfl)
@[simp] theorem moveCtr_regs (c : Ctr) (i n : Nat) : (s.moveCtr c i n).regs = s.regs := (rfl)
@[simp] theorem moveCtr_pins (c : Ctr) (i n : Nat) : (s.moveCtr c i n).pins = s.pins := (rfl)
@[simp] theorem moveCtr_latches (c : Ctr) (i n : Nat) : (s.moveCtr c i n).latches = s.latches := (rfl)
@[simp] theorem moveCtr_now (c : Ctr) (i n : Nat) : (s.moveCtr c i n).now = s.now := (rfl)
@[simp] theorem moveCtr_freeCtr (c : Ctr) (i n : Nat) : (s.moveCtr c i n).freeCtr = s.freeCtr := (rfl)
@[simp] theorem moveCtr_out (c : Ctr) (i n : Nat) : (s.moveCtr c i n).out = s.out := (rfl)
@[simp] theorem moveCtr_evQueue (c : Ctr) (i n : Nat) : (s.moveCtr c i n).evQueue = s.evQueue := (rfl)
@[simp] theorem moveCtr_evRing (c : Ctr) (i n : Nat) : (s.moveCtr c i n).evRing = s.evRing := (rfl)
@[simp] theorem moveCtr_once (c : Ctr) (i n : Nat) : (s.moveCtr c i n).once = s.once := (rfl)
@[simp] theorem moveCtr_flights (c : Ctr) (i n : Nat) : (s.moveCtr c i n).flights = s.flights := (rfl)
@[simp] theorem moveCtr_laosh (c : Ctr) (i n : Nat) : (s.moveCtr c i n).laosh = s.laosh := (rfl)
@[simp] theorem moveCtr_win (c : Ctr) (i n : Nat) : (s.moveCtr c i n).win = s.win := (rfl)
@[simp] theorem moveCtr_rtn (c : Ctr) (i n : Nat) : (s.moveCtr c i n).rtn = s.rtn := (rfl)
@[simp] theorem moveCtr_ucieDown (c : Ctr) (i n : Nat) : (s.moveCtr c i n).ucieDown = s.ucieDown := (rfl)
@[simp] theorem moveCtr_tb (c : Ctr) (i n : Nat) : (s.moveCtr c i n).tb = s.tb := (rfl)
@[simp] theorem moveCtr_lanes (c : Ctr) (i n : Nat) : (s.moveCtr c i n).lanes = s.lanes := (rfl)
@[simp] theorem moveCtr_chans (c : Ctr) (i n : Nat) : (s.moveCtr c i n).chans = s.chans := (rfl)
@[simp] theorem moveCtr_trees (c : Ctr) (i n : Nat) : (s.moveCtr c i n).trees = s.trees := (rfl)
@[simp] theorem moveCtr_skeinOnus (c : Ctr) (i n : Nat) : (s.moveCtr c i n).skeinOnus = s.skeinOnus := (rfl)
@[simp] theorem moveCtr_memberDown (c : Ctr) (i n : Nat) : (s.moveCtr c i n).memberDown = s.memberDown := (rfl)
@[simp] theorem moveCtr_elapsed (c : Ctr) (i n : Nat) : (s.moveCtr c i n).elapsed = s.elapsed := (rfl)
@[simp] theorem moveCtr_pon (c : Ctr) (i n : Nat) : (s.moveCtr c i n).pon = s.pon := (rfl)
@[simp] theorem moveCtr_vault (c : Ctr) (i n : Nat) : (s.moveCtr c i n).vault = s.vault := (rfl)
@[simp] theorem moveCtr_tribs (c : Ctr) (i n : Nat) : (s.moveCtr c i n).tribs = s.tribs := (rfl)
@[simp] theorem moveCtr_fwd (c : Ctr) (i n : Nat) : (s.moveCtr c i n).fwd = s.fwd := (rfl)
@[simp] theorem moveCtr_tableWaits (c : Ctr) (i n : Nat) : (s.moveCtr c i n).tableWaits = s.tableWaits := (rfl)
@[simp] theorem moveCtr_store (c : Ctr) (i n : Nat) : (s.moveCtr c i n).store = s.store := (rfl)
@[simp] theorem moveCtr_toTc (c : Ctr) (i n : Nat) : (s.moveCtr c i n).toTc = s.toTc := (rfl)
@[simp] theorem moveCtr_idled (c : Ctr) (i n : Nat) : (s.moveCtr c i n).idled = s.idled := (rfl)
@[simp] theorem moveCtr_secys (c : Ctr) (i n : Nat) : (s.moveCtr c i n).secys = s.secys := (rfl)
@[simp] theorem moveCtr_cipher (c : Ctr) (i n : Nat) : (s.moveCtr c i n).cipher = s.cipher := (rfl)
@[simp] theorem moveCtr_tandem (c : Ctr) (i n : Nat) : (s.moveCtr c i n).tandem = s.tandem := (rfl)
@[simp] theorem moveCtr_seqs (c : Ctr) (i n : Nat) : (s.moveCtr c i n).seqs = s.seqs := (rfl)
@[simp] theorem moveCtr_fwEvents (c : Ctr) (i n : Nat) : (s.moveCtr c i n).fwEvents = s.fwEvents := (rfl)
@[simp] theorem moveCtr_seqTurn (c : Ctr) (i n : Nat) : (s.moveCtr c i n).seqTurn = s.seqTurn := (rfl)
@[simp] theorem moveCtr_pads (c : Ctr) (i n : Nat) : (s.moveCtr c i n).pads = s.pads := (rfl)
@[simp] theorem moveCtr_trust (c : Ctr) (i n : Nat) : (s.moveCtr c i n).trust = s.trust := (rfl)
@[simp] theorem moveCtr_pm (c : Ctr) (i n : Nat) : (s.moveCtr c i n).pm = s.pm := (rfl)
@[simp] theorem moveCtr_gauge (c : Ctr) (i n : Nat) : (s.moveCtr c i n).gauge = s.gauge := (rfl)
@[simp] theorem moveCtr_power (c : Ctr) (i n : Nat) : (s.moveCtr c i n).power = s.power := (rfl)
@[simp] theorem moveCtr_tap (c : Ctr) (i n : Nat) : (s.moveCtr c i n).tap = s.tap := (rfl)

@[simp] theorem drawn_pending : (s.drawn).pending = s.pending := (rfl)
@[simp] theorem drawn_regs : (s.drawn).regs = s.regs := (rfl)
@[simp] theorem drawn_ctrs : (s.drawn).ctrs = s.ctrs := (rfl)
@[simp] theorem drawn_pins : (s.drawn).pins = s.pins := (rfl)
@[simp] theorem drawn_latches : (s.drawn).latches = s.latches := (rfl)
@[simp] theorem drawn_now : (s.drawn).now = s.now := (rfl)
@[simp] theorem drawn_out : (s.drawn).out = s.out := (rfl)
@[simp] theorem drawn_evQueue : (s.drawn).evQueue = s.evQueue := (rfl)
@[simp] theorem drawn_evRing : (s.drawn).evRing = s.evRing := (rfl)
@[simp] theorem drawn_once : (s.drawn).once = s.once := (rfl)
@[simp] theorem drawn_flights : (s.drawn).flights = s.flights := (rfl)
@[simp] theorem drawn_laosh : (s.drawn).laosh = s.laosh := (rfl)
@[simp] theorem drawn_win : (s.drawn).win = s.win := (rfl)
@[simp] theorem drawn_rtn : (s.drawn).rtn = s.rtn := (rfl)
@[simp] theorem drawn_ucieDown : (s.drawn).ucieDown = s.ucieDown := (rfl)
@[simp] theorem drawn_tb : (s.drawn).tb = s.tb := (rfl)
@[simp] theorem drawn_lanes : (s.drawn).lanes = s.lanes := (rfl)
@[simp] theorem drawn_chans : (s.drawn).chans = s.chans := (rfl)
@[simp] theorem drawn_trees : (s.drawn).trees = s.trees := (rfl)
@[simp] theorem drawn_skeinOnus : (s.drawn).skeinOnus = s.skeinOnus := (rfl)
@[simp] theorem drawn_memberDown : (s.drawn).memberDown = s.memberDown := (rfl)
@[simp] theorem drawn_elapsed : (s.drawn).elapsed = s.elapsed := (rfl)
@[simp] theorem drawn_pon : (s.drawn).pon = s.pon := (rfl)
@[simp] theorem drawn_vault : (s.drawn).vault = s.vault := (rfl)
@[simp] theorem drawn_tribs : (s.drawn).tribs = s.tribs := (rfl)
@[simp] theorem drawn_fwd : (s.drawn).fwd = s.fwd := (rfl)
@[simp] theorem drawn_tableWaits : (s.drawn).tableWaits = s.tableWaits := (rfl)
@[simp] theorem drawn_store : (s.drawn).store = s.store := (rfl)
@[simp] theorem drawn_toTc : (s.drawn).toTc = s.toTc := (rfl)
@[simp] theorem drawn_idled : (s.drawn).idled = s.idled := (rfl)
@[simp] theorem drawn_secys : (s.drawn).secys = s.secys := (rfl)
@[simp] theorem drawn_cipher : (s.drawn).cipher = s.cipher := (rfl)
@[simp] theorem drawn_tandem : (s.drawn).tandem = s.tandem := (rfl)
@[simp] theorem drawn_seqs : (s.drawn).seqs = s.seqs := (rfl)
@[simp] theorem drawn_fwEvents : (s.drawn).fwEvents = s.fwEvents := (rfl)
@[simp] theorem drawn_seqTurn : (s.drawn).seqTurn = s.seqTurn := (rfl)
@[simp] theorem drawn_pads : (s.drawn).pads = s.pads := (rfl)
@[simp] theorem drawn_trust : (s.drawn).trust = s.trust := (rfl)
@[simp] theorem drawn_pm : (s.drawn).pm = s.pm := (rfl)
@[simp] theorem drawn_gauge : (s.drawn).gauge = s.gauge := (rfl)
@[simp] theorem drawn_power : (s.drawn).power = s.power := (rfl)
@[simp] theorem drawn_tap : (s.drawn).tap = s.tap := (rfl)

@[simp] theorem drive_pending (p : Pin) (i v : Nat) : (s.drive p i v).pending = s.pending := (rfl)
@[simp] theorem drive_regs (p : Pin) (i v : Nat) : (s.drive p i v).regs = s.regs := (rfl)
@[simp] theorem drive_ctrs (p : Pin) (i v : Nat) : (s.drive p i v).ctrs = s.ctrs := (rfl)
@[simp] theorem drive_now (p : Pin) (i v : Nat) : (s.drive p i v).now = s.now := (rfl)
@[simp] theorem drive_freeCtr (p : Pin) (i v : Nat) : (s.drive p i v).freeCtr = s.freeCtr := (rfl)
@[simp] theorem drive_out (p : Pin) (i v : Nat) : (s.drive p i v).out = s.out := (rfl)
@[simp] theorem drive_evQueue (p : Pin) (i v : Nat) : (s.drive p i v).evQueue = s.evQueue := (rfl)
@[simp] theorem drive_evRing (p : Pin) (i v : Nat) : (s.drive p i v).evRing = s.evRing := (rfl)
@[simp] theorem drive_once (p : Pin) (i v : Nat) : (s.drive p i v).once = s.once := (rfl)
@[simp] theorem drive_flights (p : Pin) (i v : Nat) : (s.drive p i v).flights = s.flights := (rfl)
@[simp] theorem drive_laosh (p : Pin) (i v : Nat) : (s.drive p i v).laosh = s.laosh := (rfl)
@[simp] theorem drive_win (p : Pin) (i v : Nat) : (s.drive p i v).win = s.win := (rfl)
@[simp] theorem drive_rtn (p : Pin) (i v : Nat) : (s.drive p i v).rtn = s.rtn := (rfl)
@[simp] theorem drive_ucieDown (p : Pin) (i v : Nat) : (s.drive p i v).ucieDown = s.ucieDown := (rfl)
@[simp] theorem drive_tb (p : Pin) (i v : Nat) : (s.drive p i v).tb = s.tb := (rfl)
@[simp] theorem drive_lanes (p : Pin) (i v : Nat) : (s.drive p i v).lanes = s.lanes := (rfl)
@[simp] theorem drive_chans (p : Pin) (i v : Nat) : (s.drive p i v).chans = s.chans := (rfl)
@[simp] theorem drive_trees (p : Pin) (i v : Nat) : (s.drive p i v).trees = s.trees := (rfl)
@[simp] theorem drive_skeinOnus (p : Pin) (i v : Nat) : (s.drive p i v).skeinOnus = s.skeinOnus := (rfl)
@[simp] theorem drive_memberDown (p : Pin) (i v : Nat) : (s.drive p i v).memberDown = s.memberDown := (rfl)
@[simp] theorem drive_elapsed (p : Pin) (i v : Nat) : (s.drive p i v).elapsed = s.elapsed := (rfl)
@[simp] theorem drive_pon (p : Pin) (i v : Nat) : (s.drive p i v).pon = s.pon := (rfl)
@[simp] theorem drive_vault (p : Pin) (i v : Nat) : (s.drive p i v).vault = s.vault := (rfl)
@[simp] theorem drive_tribs (p : Pin) (i v : Nat) : (s.drive p i v).tribs = s.tribs := (rfl)
@[simp] theorem drive_fwd (p : Pin) (i v : Nat) : (s.drive p i v).fwd = s.fwd := (rfl)
@[simp] theorem drive_tableWaits (p : Pin) (i v : Nat) : (s.drive p i v).tableWaits = s.tableWaits := (rfl)
@[simp] theorem drive_store (p : Pin) (i v : Nat) : (s.drive p i v).store = s.store := (rfl)
@[simp] theorem drive_toTc (p : Pin) (i v : Nat) : (s.drive p i v).toTc = s.toTc := (rfl)
@[simp] theorem drive_idled (p : Pin) (i v : Nat) : (s.drive p i v).idled = s.idled := (rfl)
@[simp] theorem drive_secys (p : Pin) (i v : Nat) : (s.drive p i v).secys = s.secys := (rfl)
@[simp] theorem drive_cipher (p : Pin) (i v : Nat) : (s.drive p i v).cipher = s.cipher := (rfl)
@[simp] theorem drive_tandem (p : Pin) (i v : Nat) : (s.drive p i v).tandem = s.tandem := (rfl)
@[simp] theorem drive_seqs (p : Pin) (i v : Nat) : (s.drive p i v).seqs = s.seqs := (rfl)
@[simp] theorem drive_fwEvents (p : Pin) (i v : Nat) : (s.drive p i v).fwEvents = s.fwEvents := (rfl)
@[simp] theorem drive_seqTurn (p : Pin) (i v : Nat) : (s.drive p i v).seqTurn = s.seqTurn := (rfl)
@[simp] theorem drive_pads (p : Pin) (i v : Nat) : (s.drive p i v).pads = s.pads := (rfl)
@[simp] theorem drive_trust (p : Pin) (i v : Nat) : (s.drive p i v).trust = s.trust := (rfl)
@[simp] theorem drive_pm (p : Pin) (i v : Nat) : (s.drive p i v).pm = s.pm := (rfl)
@[simp] theorem drive_gauge (p : Pin) (i v : Nat) : (s.drive p i v).gauge = s.gauge := (rfl)
@[simp] theorem drive_power (p : Pin) (i v : Nat) : (s.drive p i v).power = s.power := (rfl)
@[simp] theorem drive_tap (p : Pin) (i v : Nat) : (s.drive p i v).tap = s.tap := (rfl)

@[simp] theorem send_pending (o : Out) : (s.send o).pending = s.pending := (rfl)
@[simp] theorem send_regs (o : Out) : (s.send o).regs = s.regs := (rfl)
@[simp] theorem send_ctrs (o : Out) : (s.send o).ctrs = s.ctrs := (rfl)
@[simp] theorem send_pins (o : Out) : (s.send o).pins = s.pins := (rfl)
@[simp] theorem send_latches (o : Out) : (s.send o).latches = s.latches := (rfl)
@[simp] theorem send_now (o : Out) : (s.send o).now = s.now := (rfl)
@[simp] theorem send_freeCtr (o : Out) : (s.send o).freeCtr = s.freeCtr := (rfl)
@[simp] theorem send_evQueue (o : Out) : (s.send o).evQueue = s.evQueue := (rfl)
@[simp] theorem send_evRing (o : Out) : (s.send o).evRing = s.evRing := (rfl)
@[simp] theorem send_once (o : Out) : (s.send o).once = s.once := (rfl)
@[simp] theorem send_flights (o : Out) : (s.send o).flights = s.flights := (rfl)
@[simp] theorem send_laosh (o : Out) : (s.send o).laosh = s.laosh := (rfl)
@[simp] theorem send_win (o : Out) : (s.send o).win = s.win := (rfl)
@[simp] theorem send_rtn (o : Out) : (s.send o).rtn = s.rtn := (rfl)
@[simp] theorem send_ucieDown (o : Out) : (s.send o).ucieDown = s.ucieDown := (rfl)
@[simp] theorem send_tb (o : Out) : (s.send o).tb = s.tb := (rfl)
@[simp] theorem send_lanes (o : Out) : (s.send o).lanes = s.lanes := (rfl)
@[simp] theorem send_chans (o : Out) : (s.send o).chans = s.chans := (rfl)
@[simp] theorem send_trees (o : Out) : (s.send o).trees = s.trees := (rfl)
@[simp] theorem send_skeinOnus (o : Out) : (s.send o).skeinOnus = s.skeinOnus := (rfl)
@[simp] theorem send_memberDown (o : Out) : (s.send o).memberDown = s.memberDown := (rfl)
@[simp] theorem send_elapsed (o : Out) : (s.send o).elapsed = s.elapsed := (rfl)
@[simp] theorem send_pon (o : Out) : (s.send o).pon = s.pon := (rfl)
@[simp] theorem send_vault (o : Out) : (s.send o).vault = s.vault := (rfl)
@[simp] theorem send_tribs (o : Out) : (s.send o).tribs = s.tribs := (rfl)
@[simp] theorem send_fwd (o : Out) : (s.send o).fwd = s.fwd := (rfl)
@[simp] theorem send_tableWaits (o : Out) : (s.send o).tableWaits = s.tableWaits := (rfl)
@[simp] theorem send_store (o : Out) : (s.send o).store = s.store := (rfl)
@[simp] theorem send_toTc (o : Out) : (s.send o).toTc = s.toTc := (rfl)
@[simp] theorem send_idled (o : Out) : (s.send o).idled = s.idled := (rfl)
@[simp] theorem send_secys (o : Out) : (s.send o).secys = s.secys := (rfl)
@[simp] theorem send_cipher (o : Out) : (s.send o).cipher = s.cipher := (rfl)
@[simp] theorem send_tandem (o : Out) : (s.send o).tandem = s.tandem := (rfl)
@[simp] theorem send_seqs (o : Out) : (s.send o).seqs = s.seqs := (rfl)
@[simp] theorem send_fwEvents (o : Out) : (s.send o).fwEvents = s.fwEvents := (rfl)
@[simp] theorem send_seqTurn (o : Out) : (s.send o).seqTurn = s.seqTurn := (rfl)
@[simp] theorem send_pads (o : Out) : (s.send o).pads = s.pads := (rfl)
@[simp] theorem send_trust (o : Out) : (s.send o).trust = s.trust := (rfl)
@[simp] theorem send_pm (o : Out) : (s.send o).pm = s.pm := (rfl)
@[simp] theorem send_gauge (o : Out) : (s.send o).gauge = s.gauge := (rfl)
@[simp] theorem send_power (o : Out) : (s.send o).power = s.power := (rfl)
@[simp] theorem send_tap (o : Out) : (s.send o).tap = s.tap := (rfl)

@[simp] theorem start_pending (c : Caller) : (s.start c).pending = s.pending := (rfl)
@[simp] theorem start_regs (c : Caller) : (s.start c).regs = s.regs := (rfl)
@[simp] theorem start_ctrs (c : Caller) : (s.start c).ctrs = s.ctrs := (rfl)
@[simp] theorem start_pins (c : Caller) : (s.start c).pins = s.pins := (rfl)
@[simp] theorem start_latches (c : Caller) : (s.start c).latches = s.latches := (rfl)
@[simp] theorem start_now (c : Caller) : (s.start c).now = s.now := (rfl)
@[simp] theorem start_freeCtr (c : Caller) : (s.start c).freeCtr = s.freeCtr := (rfl)
@[simp] theorem start_out (c : Caller) : (s.start c).out = s.out := (rfl)
@[simp] theorem start_evQueue (c : Caller) : (s.start c).evQueue = s.evQueue := (rfl)
@[simp] theorem start_evRing (c : Caller) : (s.start c).evRing = s.evRing := (rfl)
@[simp] theorem start_once (c : Caller) : (s.start c).once = s.once := (rfl)
@[simp] theorem start_win (c : Caller) : (s.start c).win = s.win := (rfl)
@[simp] theorem start_rtn (c : Caller) : (s.start c).rtn = s.rtn := (rfl)
@[simp] theorem start_ucieDown (c : Caller) : (s.start c).ucieDown = s.ucieDown := (rfl)
@[simp] theorem start_tb (c : Caller) : (s.start c).tb = s.tb := (rfl)
@[simp] theorem start_lanes (c : Caller) : (s.start c).lanes = s.lanes := (rfl)
@[simp] theorem start_chans (c : Caller) : (s.start c).chans = s.chans := (rfl)
@[simp] theorem start_trees (c : Caller) : (s.start c).trees = s.trees := (rfl)
@[simp] theorem start_skeinOnus (c : Caller) : (s.start c).skeinOnus = s.skeinOnus := (rfl)
@[simp] theorem start_memberDown (c : Caller) : (s.start c).memberDown = s.memberDown := (rfl)
@[simp] theorem start_elapsed (c : Caller) : (s.start c).elapsed = s.elapsed := (rfl)
@[simp] theorem start_pon (c : Caller) : (s.start c).pon = s.pon := (rfl)
@[simp] theorem start_vault (c : Caller) : (s.start c).vault = s.vault := (rfl)
@[simp] theorem start_tribs (c : Caller) : (s.start c).tribs = s.tribs := (rfl)
@[simp] theorem start_fwd (c : Caller) : (s.start c).fwd = s.fwd := (rfl)
@[simp] theorem start_tableWaits (c : Caller) : (s.start c).tableWaits = s.tableWaits := (rfl)
@[simp] theorem start_store (c : Caller) : (s.start c).store = s.store := (rfl)
@[simp] theorem start_toTc (c : Caller) : (s.start c).toTc = s.toTc := (rfl)
@[simp] theorem start_idled (c : Caller) : (s.start c).idled = s.idled := (rfl)
@[simp] theorem start_secys (c : Caller) : (s.start c).secys = s.secys := (rfl)
@[simp] theorem start_cipher (c : Caller) : (s.start c).cipher = s.cipher := (rfl)
@[simp] theorem start_tandem (c : Caller) : (s.start c).tandem = s.tandem := (rfl)
@[simp] theorem start_fwEvents (c : Caller) : (s.start c).fwEvents = s.fwEvents := (rfl)
@[simp] theorem start_seqTurn (c : Caller) : (s.start c).seqTurn = s.seqTurn := (rfl)
@[simp] theorem start_pads (c : Caller) : (s.start c).pads = s.pads := (rfl)
@[simp] theorem start_trust (c : Caller) : (s.start c).trust = s.trust := (rfl)
@[simp] theorem start_pm (c : Caller) : (s.start c).pm = s.pm := (rfl)
@[simp] theorem start_gauge (c : Caller) : (s.start c).gauge = s.gauge := (rfl)
@[simp] theorem start_power (c : Caller) : (s.start c).power = s.power := (rfl)
@[simp] theorem start_tap (c : Caller) : (s.start c).tap = s.tap := (rfl)

/-! ### Registers, fields, counters and pins after an update -/

theorem regIdx_lt (r : Reg) : r.ctorIdx < 1024 := by cases r <;> decide

theorem reg_of_idx {r r' : Reg} (h : r.ctorIdx = r'.ctorIdx) : r = r' := by
  have := congrArg Reg.ofNat h
  rwa [Reg.ofNat_ctorIdx, Reg.ofNat_ctorIdx] at this

theorem ctrIdx_lt (c : Ctr) : c.ctorIdx < 1024 := by cases c <;> decide

theorem ctr_of_idx {c c' : Ctr} (h : c.ctorIdx = c'.ctorIdx) : c = c' := by
  have := congrArg Ctr.ofNat h
  rwa [Ctr.ofNat_ctorIdx, Ctr.ofNat_ctorIdx] at this

theorem regKey_inj {r r' : Reg} {i i' : Nat} (h : regKey r i = regKey r' i') : r = r' ∧ i = i' := by
  have a : r.ctorIdx < 1024 := Nat.lt_of_lt_of_le (regIdx_lt r) (by decide)
  have b : r'.ctorIdx < 1024 := Nat.lt_of_lt_of_le (regIdx_lt r') (by decide)
  unfold regKey at h
  exact ⟨reg_of_idx (by omega), by omega⟩

@[simp] theorem reg_setReg_same (r : Reg) (i : Nat) (v : Word) : (s.setReg r i v).reg r i = v := by
  simp [State.reg, State.setReg]

theorem reg_setReg_other {r r' : Reg} {i i' : Nat} (v : Word) (h : r ≠ r' ∨ i ≠ i') :
    (s.setReg r i v).reg r' i' = s.reg r' i' := by
  have : regKey r i ≠ regKey r' i' := fun e => by
    have := regKey_inj e; rcases h with h | h <;> simp_all
  simp [State.reg, State.setReg, Tbl.getD_setD_other _ _ _ _ this]

theorem reg_setReg (r r' : Reg) (i i' : Nat) (v : Word) :
    (s.setReg r i v).reg r' i' = if r = r' ∧ i = i' then v else s.reg r' i' := by
  split
  · rename_i h; obtain ⟨rfl, rfl⟩ := h; simp
  · rename_i h; exact reg_setReg_other s v (by by_cases r = r' <;> simp_all)

theorem fieldOf_withField {lo w : Nat} (v : Word) (x : Nat) (h : lo + w ≤ 32) :
    fieldOf lo w (withField lo w v x) = x % 2 ^ w := by
  unfold fieldOf withField
  have hv := v.isLt
  have e : (2 : Nat) ^ 32 = 2 ^ (lo + w) * 2 ^ (32 - (lo + w)) := by rw [← Nat.pow_add]; congr 1; omega
  have e2 : (2 : Nat) ^ (lo + w) = 2 ^ lo * 2 ^ w := Nat.pow_add ..
  have hx := Nat.mod_lt x (Nat.two_pow_pos w)
  have hl := Nat.mod_lt v.toNat (Nat.two_pow_pos lo)
  have hq : v.toNat / 2 ^ (lo + w) < 2 ^ (32 - (lo + w)) := by
    rw [Nat.div_lt_iff_lt_mul (Nat.two_pow_pos _), Nat.mul_comm, ← e]; exact hv
  have hlow : x % 2 ^ w * 2 ^ lo + v.toNat % 2 ^ lo < 2 ^ (lo + w) := by
    rw [e2]
    calc x % 2 ^ w * 2 ^ lo + v.toNat % 2 ^ lo < x % 2 ^ w * 2 ^ lo + 1 * 2 ^ lo := by omega
      _ = (x % 2 ^ w + 1) * 2 ^ lo := by rw [Nat.add_mul]
      _ ≤ 2 ^ w * 2 ^ lo := Nat.mul_le_mul_right _ hx
      _ = 2 ^ lo * 2 ^ w := Nat.mul_comm ..
  have hb : v.toNat / 2 ^ (lo + w) * 2 ^ (lo + w) + x % 2 ^ w * 2 ^ lo + v.toNat % 2 ^ lo < 2 ^ 32 := by
    rw [e]
    calc _ < v.toNat / 2 ^ (lo + w) * 2 ^ (lo + w) + 1 * 2 ^ (lo + w) := by omega
      _ = (v.toNat / 2 ^ (lo + w) + 1) * 2 ^ (lo + w) := by rw [Nat.add_mul]
      _ ≤ 2 ^ (32 - (lo + w)) * 2 ^ (lo + w) := Nat.mul_le_mul_right _ hq
      _ = _ := Nat.mul_comm ..
  rw [BitVec.toNat_ofNat, Nat.mod_eq_of_lt hb]
  have e3 : v.toNat / 2 ^ (lo + w) * 2 ^ (lo + w) + x % 2 ^ w * 2 ^ lo + v.toNat % 2 ^ lo
      = v.toNat % 2 ^ lo + 2 ^ lo * (x % 2 ^ w + 2 ^ w * (v.toNat / 2 ^ (lo + w))) := by rw [e2]; ring
  rw [e3, Nat.add_mul_div_left _ _ (Nat.two_pow_pos lo), Nat.div_eq_of_lt hl, Nat.zero_add,
    Nat.add_mul_mod_self_left, Nat.mod_mod]

theorem toNat_withField {lo w : Nat} (v : Word) (x : Nat) (h : lo + w ≤ 32) :
    (withField lo w v x).toNat = v.toNat / 2 ^ (lo + w) * 2 ^ (lo + w) + (x % 2 ^ w * 2 ^ lo + v.toNat % 2 ^ lo) ∧
      x % 2 ^ w * 2 ^ lo + v.toNat % 2 ^ lo < 2 ^ (lo + w) := by
  unfold withField
  have hv := v.isLt
  have e : (2 : Nat) ^ 32 = 2 ^ (lo + w) * 2 ^ (32 - (lo + w)) := by rw [← Nat.pow_add]; congr 1; omega
  have e2 : (2 : Nat) ^ (lo + w) = 2 ^ lo * 2 ^ w := Nat.pow_add ..
  have hx := Nat.mod_lt x (Nat.two_pow_pos w)
  have hl := Nat.mod_lt v.toNat (Nat.two_pow_pos lo)
  have hq : v.toNat / 2 ^ (lo + w) < 2 ^ (32 - (lo + w)) := by
    rw [Nat.div_lt_iff_lt_mul (Nat.two_pow_pos _), Nat.mul_comm, ← e]; exact hv
  have hlow : x % 2 ^ w * 2 ^ lo + v.toNat % 2 ^ lo < 2 ^ (lo + w) := by
    rw [e2]
    calc x % 2 ^ w * 2 ^ lo + v.toNat % 2 ^ lo < x % 2 ^ w * 2 ^ lo + 1 * 2 ^ lo := by omega
      _ = (x % 2 ^ w + 1) * 2 ^ lo := by rw [Nat.add_mul]
      _ ≤ 2 ^ w * 2 ^ lo := Nat.mul_le_mul_right _ hx
      _ = 2 ^ lo * 2 ^ w := Nat.mul_comm ..
  have hb : v.toNat / 2 ^ (lo + w) * 2 ^ (lo + w) + x % 2 ^ w * 2 ^ lo + v.toNat % 2 ^ lo < 2 ^ 32 := by
    rw [e]
    calc _ < v.toNat / 2 ^ (lo + w) * 2 ^ (lo + w) + 1 * 2 ^ (lo + w) := by omega
      _ = (v.toNat / 2 ^ (lo + w) + 1) * 2 ^ (lo + w) := by rw [Nat.add_mul]
      _ ≤ 2 ^ (32 - (lo + w)) * 2 ^ (lo + w) := Nat.mul_le_mul_right _ hq
      _ = _ := Nat.mul_comm ..
  refine ⟨?_, hlow⟩
  rw [BitVec.toNat_ofNat, Nat.mod_eq_of_lt hb, Nat.add_assoc]

/-- A field beside the one written keeps its value. -/
theorem fieldOf_withField_other {lo w lo' w' : Nat} (v : Word) (x : Nat) (h : lo' + w' ≤ 32)
    (hd : lo + w ≤ lo' ∨ lo' + w' ≤ lo) : fieldOf lo w (withField lo' w' v x) = fieldOf lo w v := by
  obtain ⟨e, hl⟩ := toNat_withField (lo := lo') (w := w') v x h
  unfold fieldOf
  rw [e]
  rcases hd with hd | hd
  · rw [← Nat.mod_mul_right_div_self, ← Nat.mod_mul_right_div_self, ← Nat.pow_add]
    have d1 : 2 ^ (lo + w) ∣ 2 ^ lo' := Nat.pow_dvd_pow _ hd
    have d2 : 2 ^ lo' ∣ v.toNat / 2 ^ (lo' + w') * 2 ^ (lo' + w') :=
      Dvd.dvd.mul_left (Nat.pow_dvd_pow _ (by omega)) _
    have key : (v.toNat / 2 ^ (lo' + w') * 2 ^ (lo' + w') + (x % 2 ^ w' * 2 ^ lo' + v.toNat % 2 ^ lo')) % 2 ^ lo' =
        v.toNat % 2 ^ lo' := by
      rw [Nat.add_mod, Nat.mod_eq_zero_of_dvd d2, Nat.zero_add, Nat.mod_mod, Nat.add_mod, Nat.mul_mod_left, Nat.zero_add,
        Nat.mod_mod, Nat.mod_mod]
    congr 1
    rw [← Nat.mod_mod_of_dvd _ d1, key, Nat.mod_mod_of_dvd _ d1]
  · have e3 : (2 : Nat) ^ lo = 2 ^ (lo' + w') * 2 ^ (lo - (lo' + w')) := by rw [← Nat.pow_add]; congr 1; omega
    rw [e3, ← Nat.div_div_eq_div_mul, ← Nat.div_div_eq_div_mul]
    congr 2
    rw [Nat.add_comm, Nat.add_mul_div_right _ _ (Nat.two_pow_pos _), Nat.div_eq_of_lt hl, Nat.zero_add]

@[simp] theorem reg_setFld_same (f : Fld) (i x : Nat) :
    (s.setFld f i x).reg f.reg i = withField f.lo f.w (s.reg f.reg i) x := by simp [State.setFld]

theorem fld_setFld_same (f : Fld) (i x : Nat) (h : f.lo + f.w ≤ 32) : (s.setFld f i x).fld f i = x % 2 ^ f.w := by
  simp [State.fld, State.setFld, fieldOf_withField _ _ h]

theorem reg_setFld_other (f : Fld) {r : Reg} {i j : Nat} (x : Nat) (h : f.reg ≠ r ∨ i ≠ j) :
    (s.setFld f i x).reg r j = s.reg r j := reg_setReg_other s _ h

@[simp] theorem reg_latchBits_same (r : Reg) (i : Nat) (v : Word) : (s.latchBits r i v).reg r i = s.reg r i ||| v :=
  reg_setReg_same s r i _

theorem reg_latchBits_other {r q : Reg} {i j : Nat} (v : Word) (h : r ≠ q ∨ i ≠ j) : (s.latchBits r i v).reg q j = s.reg q j :=
  reg_setReg_other s _ h

theorem reg_setFlag_other (f : Fld) {r : Reg} {i j : Nat} (b : Bool) (h : f.reg ≠ r ∨ i ≠ j) :
    (s.setFlag f i b).reg r j = s.reg r j := reg_setFld_other s f _ h

theorem fld_setFld_beside (f g : Fld) (i x : Nat) (hr : f.reg = g.reg) (h : f.lo + f.w ≤ 32)
    (hd : g.lo + g.w ≤ f.lo ∨ f.lo + f.w ≤ g.lo) : (s.setFld f i x).fld g i = s.fld g i := by
  simp only [State.fld, ← hr, reg_setFld_same, fieldOf_withField_other _ _ h hd]

theorem fld_setFld_other (f g : Fld) (i j x : Nat) (h : f.reg ≠ g.reg ∨ i ≠ j) : (s.setFld f i x).fld g j = s.fld g j := by
  simp [State.fld, State.setFld, reg_setReg_other s _ h]

theorem flag_setFlag_same (f : Fld) (i : Nat) (b : Bool) (h : f.lo + f.w ≤ 32) (hw : 0 < f.w) :
    (s.setFlag f i b).flag f i = b := by
  have : 1 < 2 ^ f.w := Nat.one_lt_two_pow (by omega)
  cases b <;> simp [State.flag, State.setFlag, fld_setFld_same s f i _ h, Nat.mod_eq_of_lt this]

theorem ctr_moveCtr_same (c : Ctr) (i n : Nat) : (s.moveCtr c i n).ctr c i = s.ctr c i + n := by
  simp [State.ctr, State.moveCtr]

@[simp] theorem pin_drive_same (p : Pin) (i v : Nat) : (s.drive p i v).pin p i = v := by simp [State.pin, State.drive]

/-- Reads that a command's start does not touch. -/
@[simp] theorem start_reg (c : Caller) (r : Reg) (i : Nat) : (s.start c).reg r i = s.reg r i := (rfl)
@[simp] theorem start_fld (c : Caller) (f : Fld) (i : Nat) : (s.start c).fld f i = s.fld f i := (rfl)
@[simp] theorem start_flag (c : Caller) (f : Fld) (i : Nat) : (s.start c).flag f i = s.flag f i := (rfl)
@[simp] theorem start_ctr (c : Caller) (k : Ctr) (i : Nat) : (s.start c).ctr k i = s.ctr k i := (rfl)
@[simp] theorem start_claimed (c : Caller) (d : Nat) (b : Blk) : (s.start c).claimed d b = s.claimed d b := (rfl)

end Sys2Proof.Machine
end

