-- ==== Sys2Proof/Laws/Events.lean ====
section
/-! SUPPORT. Counting, raising and reporting (R514-R519, R587, R588): what they leave alone. `Quiet s t` says that t differs from
s at most in the counters, the event status, queues and deliveries, the Laosh interface's held messages and the PM bins. -/

namespace Sys2Proof.Machine

/-- What counting and raising never touch. -/
structure Quiet (s t : State) : Prop where
  reg : ∀ r i, r ≠ .evtStat → t.reg r i = s.reg r i
  evRing : t.evRing = s.evRing
  rest : t.pending = s.pending ∧ t.pins = s.pins ∧ t.now = s.now ∧ t.freeCtr = s.freeCtr ∧ t.once = s.once ∧ t.flights
    = s.flights ∧ t.win = s.win ∧ t.rtn = s.rtn ∧ t.ucieDown = s.ucieDown ∧ t.tb = s.tb ∧ t.lanes = s.lanes ∧
    t.chans = s.chans ∧ t.trees = s.trees ∧ t.skeinOnus = s.skeinOnus ∧ t.memberDown = s.memberDown ∧ t.elapsed =
    s.elapsed ∧ t.pon = s.pon ∧ t.vault = s.vault ∧ t.tribs = s.tribs ∧ t.fwd = s.fwd ∧ t.tableWaits = s.tableWaits ∧ t.store = s.store ∧ t.toTc
    = s.toTc ∧ t.idled = s.idled ∧ t.secys = s.secys ∧ t.cipher = s.cipher ∧ t.tandem = s.tandem ∧ t.seqs = s.seqs
    ∧ t.seqTurn = s.seqTurn ∧ t.pads = s.pads ∧ t.trust = s.trust ∧ t.gauge = s.gauge ∧ t.power = s.power ∧ t.tap = s.tap

theorem Quiet.refl (s : State) : Quiet s s := ⟨fun _ _ _ => rfl, rfl, by simp⟩

theorem Quiet.trans {s t u : State} (a : Quiet s t) (b : Quiet t u) : Quiet s u :=
  ⟨fun r i h => (b.reg r i h).trans (a.reg r i h), b.evRing.trans a.evRing, by
    have ha := a.rest; have hb := b.rest
    simp_all⟩

theorem quiet_moveCtr (s : State) (c : Ctr) (i n : Nat) : Quiet s (s.moveCtr c i n) := ⟨fun _ _ _ => rfl, rfl, by simp⟩
theorem quiet_send (s : State) (o : Out) : Quiet s (s.send o) := ⟨fun _ _ _ => rfl, rfl, by simp⟩

theorem quiet_laosh (s : State) (l : Laosh) : Quiet s { s with laosh := l } := ⟨fun _ _ _ => rfl, rfl, by simp⟩
theorem quiet_fw (s : State) (l : List Nat) : Quiet s { s with fwEvents := l } := ⟨fun _ _ _ => rfl, rfl, by simp⟩
theorem quiet_evQueue (s : State) (q : Tbl (List EvRec)) : Quiet s { s with evQueue := q } := ⟨fun _ _ _ => rfl, rfl, by simp⟩
theorem quiet_pm (s : State) (p : Pm) : Quiet s { s with pm := p } := ⟨fun _ _ _ => rfl, rfl, by simp⟩
theorem quiet_stat (s : State) (i : Nat) (v : Word) : Quiet s (s.setReg .evtStat i v) :=
  ⟨fun _ _ h => reg_setReg_other s v (.inl (Ne.symm h)), rfl, by simp⟩

theorem quiet_latch (s : State) (i : Nat) (v : Word) : Quiet s (s.latchBits .evtStat i v) :=
  ⟨fun _ _ h => reg_setReg_other s _ (.inl (Ne.symm h)), rfl, by simp [State.latchBits]⟩

theorem quiet_sendMsix (s : State) (v : Nat) : Quiet s (s.sendMsix v) := by
  unfold State.sendMsix; split
  · exact quiet_send ..
  · exact quiet_laosh ..

theorem quiet_deliver (s : State) (g : Nat) (l : List Nat) : Quiet s (s.deliver g l) := by
  have h1 : ∀ s : State, Quiet s (if s.flag .evtRouteMsix g then s.sendMsix (s.fld .evtRouteVector g) else s) := by
    intro s; split
    · exact quiet_sendMsix ..
    · exact .refl _
  have h2 : ∀ s : State, Quiet s
      (if s.flag .evtRouteIbi g && s.laosh.ibiEnable && s.laosh.i3cAddress.isSome then s.send (.ibi 2 g) else s) := by
    intro s; split
    · exact quiet_send ..
    · exact .refl _
  have h3 : ∀ s : State, Quiet s (if s.flag .evtRouteFw g then { s with fwEvents := s.fwEvents ++ l } else s) := by
    intro s; split
    · exact quiet_fw ..
    · exact .refl _
  exact ((h1 s).trans (h2 _)).trans (h3 _)

/-- A record that joins a queue makes it longer by one. -/
theorem queueRecord_length (q : List EvRec) (r : EvRec) : (queueRecord q r).length = q.length + 1 := by
  have key : ∀ (p : EvRec → Bool) (l : List EvRec), (l.filter (fun x => !p x)).length + (l.filter p).length = l.length := by
    intro p l
    induction l with
    | nil => rfl
    | cons x l ih => cases hx : p x <;> simp [hx] <;> omega
  have := key (fun x => decide (x.time = r.time) && decide (r.source < x.source)) q
  simp only [queueRecord, List.length_append, List.length_cons, List.length_nil]
  omega

theorem quiet_raise (s : State) (e : Ev) (die inst : Nat) : Quiet s (s.raise e die inst) := by
  unfold State.raise
  extract_lets src g bit stat was rd q t t2
  have h1 : Quiet s t := by
    show Quiet s (if _ then _ else _)
    split
    · exact quiet_evQueue ..
    · exact quiet_moveCtr ..
  have h2 : Quiet t t2 := quiet_latch ..
  split
  · exact (h1.trans h2).trans (quiet_deliver ..)
  · exact h1.trans h2

theorem quiet_tca (s : State) (die : Nat) (x : PmTca) : Quiet s (s.tca die x) := by
  unfold State.tca
  extract_lets half l src t src2 u
  have h1 : Quiet s t := by
    show Quiet s (if _ then _ else _)
    split
    · exact quiet_pm ..
    · exact quiet_moveCtr ..
  have h2 : Quiet t u := quiet_pm ..
  split
  · exact h1
  · split
    · exact (h1.trans h2).trans (quiet_raise ..)
    · exact (h1.trans h2).trans (quiet_raise ..)

theorem quiet_pmInto (s : State) (key p n : Nat) (day : Bool) (sel : PmBin → Bool) : Quiet s (s.pmInto key p n day sel) := by
  unfold State.pmInto
  split
  · exact .refl _
  · extract_lets l
    split
    · exact .refl _
    · extract_lets old thr hit b2 l2 e2
      split
      · exact (quiet_pm ..).trans (quiet_tca ..)
      · exact quiet_pm ..

theorem quiet_pmAdd (s : State) (kind idx p n : Nat) : Quiet s (s.pmAdd kind idx p n) := by
  unfold State.pmAdd
  split
  · split
    · exact (quiet_pmInto ..).trans (quiet_pmInto ..)
    · exact .refl _
  · exact .refl _

theorem quiet_countBy (s : State) (c : Ctr) (i n : Nat) : Quiet s (s.countBy c i n) := by
  unfold State.countBy
  split
  · exact quiet_moveCtr ..
  · exact (quiet_moveCtr ..).trans (quiet_pmAdd ..)

theorem quiet_count (s : State) (c : Ctr) (i : Nat) : Quiet s (s.count c i) := quiet_countBy ..

theorem quiet_report (s : State) (c : Ctr) (ci : Nat) (e : Ev) (die inst : Nat) : Quiet s (s.report c ci e die inst) :=
  (quiet_count ..).trans (quiet_raise ..)

theorem quiet_modPmEnt (s : State) (key : Nat) (f : PmEnt → PmEnt) : Quiet s (s.modPmEnt key f) := quiet_pm ..

variable (s : State)

theorem raise_reg (e : Ev) (die inst : Nat) {r : Reg} {k : Nat} (h : r ≠ .evtStat) : (s.raise e die inst).reg r k = s.reg r k := (quiet_raise s e die inst).reg r k h
@[simp] theorem raise_evRing (e : Ev) (die inst : Nat) : (s.raise e die inst).evRing = s.evRing := (quiet_raise s e die inst).evRing
@[simp] theorem raise_pending (e : Ev) (die inst : Nat) : (s.raise e die inst).pending = s.pending := (quiet_raise s e die inst).rest.1
@[simp] theorem raise_pins (e : Ev) (die inst : Nat) : (s.raise e die inst).pins = s.pins := (quiet_raise s e die inst).rest.2.1
@[simp] theorem raise_now (e : Ev) (die inst : Nat) : (s.raise e die inst).now = s.now := (quiet_raise s e die inst).rest.2.2.1
@[simp] theorem raise_freeCtr (e : Ev) (die inst : Nat) : (s.raise e die inst).freeCtr = s.freeCtr := (quiet_raise s e die inst).rest.2.2.2.1
@[simp] theorem raise_once (e : Ev) (die inst : Nat) : (s.raise e die inst).once = s.once := (quiet_raise s e die inst).rest.2.2.2.2.1
@[simp] theorem raise_flights (e : Ev) (die inst : Nat) : (s.raise e die inst).flights = s.flights := (quiet_raise s e die inst).rest.2.2.2.2.2.1
@[simp] theorem raise_win (e : Ev) (die inst : Nat) : (s.raise e die inst).win = s.win := (quiet_raise s e die inst).rest.2.2.2.2.2.2.1
@[simp] theorem raise_rtn (e : Ev) (die inst : Nat) : (s.raise e die inst).rtn = s.rtn := (quiet_raise s e die inst).rest.2.2.2.2.2.2.2.1
@[simp] theorem raise_ucieDown (e : Ev) (die inst : Nat) : (s.raise e die inst).ucieDown = s.ucieDown := (quiet_raise s e die inst).rest.2.2.2.2.2.2.2.2.1
@[simp] theorem raise_tb (e : Ev) (die inst : Nat) : (s.raise e die inst).tb = s.tb := (quiet_raise s e die inst).rest.2.2.2.2.2.2.2.2.2.1
@[simp] theorem raise_lanes (e : Ev) (die inst : Nat) : (s.raise e die inst).lanes = s.lanes := (quiet_raise s e die inst).rest.2.2.2.2.2.2.2.2.2.2.1
@[simp] theorem raise_chans (e : Ev) (die inst : Nat) : (s.raise e die inst).chans = s.chans := (quiet_raise s e die inst).rest.2.2.2.2.2.2.2.2.2.2.2.1
@[simp] theorem raise_trees (e : Ev) (die inst : Nat) : (s.raise e die inst).trees = s.trees := (quiet_raise s e die inst).rest.2.2.2.2.2.2.2.2.2.2.2.2.1
@[simp] theorem raise_skeinOnus (e : Ev) (die inst : Nat) : (s.raise e die inst).skeinOnus = s.skeinOnus := (quiet_raise s e die inst).rest.2.2.2.2.2.2.2.2.2.2.2.2.2.1
@[simp] theorem raise_memberDown (e : Ev) (die inst : Nat) : (s.raise e die inst).memberDown = s.memberDown := (quiet_raise s e die inst).rest.2.2.2.2.2.2.2.2.2.2.2.2.2.2.1
@[simp] theorem raise_elapsed (e : Ev) (die inst : Nat) : (s.raise e die inst).elapsed = s.elapsed := (quiet_raise s e die inst).rest.2.2.2.2.2.2.2.2.2.2.2.2.2.2.2.1
@[simp] theorem raise_pon (e : Ev) (die inst : Nat) : (s.raise e die inst).pon = s.pon := (quiet_raise s e die inst).rest.2.2.2.2.2.2.2.2.2.2.2.2.2.2.2.2.1
@[simp] theorem raise_vault (e : Ev) (die inst : Nat) : (s.raise e die inst).vault = s.vault := (quiet_raise s e die inst).rest.2.2.2.2.2.2.2.2.2.2.2.2.2.2.2.2.2.1
@[simp] theorem raise_tribs (e : Ev) (die inst : Nat) : (s.raise e die inst).tribs = s.tribs := (quiet_raise s e die inst).rest.2.2.2.2.2.2.2.2.2.2.2.2.2.2.2.2.2.2.1
@[simp] theorem raise_fwd (e : Ev) (die inst : Nat) : (s.raise e die inst).fwd = s.fwd := (quiet_raise s e die inst).rest.2.2.2.2.2.2.2.2.2.2.2.2.2.2.2.2.2.2.2.1
@[simp] theorem raise_tableWaits (e : Ev) (die inst : Nat) : (s.raise e die inst).tableWaits = s.tableWaits := (quiet_raise s e die inst).rest.2.2.2.2.2.2.2.2.2.2.2.2.2.2.2.2.2.2.2.2.1
@[simp] theorem raise_store (e : Ev) (die inst : Nat) : (s.raise e die inst).store = s.store := (quiet_raise s e die inst).rest.2.2.2.2.2.2.2.2.2.2.2.2.2.2.2.2.2.2.2.2.2.1
@[simp] theorem raise_toTc (e : Ev) (die inst : Nat) : (s.raise e die inst).toTc = s.toTc := (quiet_raise s e die inst).rest.2.2.2.2.2.2.2.2.2.2.2.2.2.2.2.2.2.2.2.2.2.2.1
@[simp] theorem raise_idled (e : Ev) (die inst : Nat) : (s.raise e die inst).idled = s.idled := (quiet_raise s e die inst).rest.2.2.2.2.2.2.2.2.2.2.2.2.2.2.2.2.2.2.2.2.2.2.2.1
@[simp] theorem raise_secys (e : Ev) (die inst : Nat) : (s.raise e die inst).secys = s.secys := (quiet_raise s e die inst).rest.2.2.2.2.2.2.2.2.2.2.2.2.2.2.2.2.2.2.2.2.2.2.2.2.1
@[simp] theorem raise_cipher (e : Ev) (die inst : Nat) : (s.raise e die inst).cipher = s.cipher := (quiet_raise s e die inst).rest.2.2.2.2.2.2.2.2.2.2.2.2.2.2.2.2.2.2.2.2.2.2.2.2.2.1
@[simp] theorem raise_tandem (e : Ev) (die inst : Nat) : (s.raise e die inst).tandem = s.tandem := (quiet_raise s e die inst).rest.2.2.2.2.2.2.2.2.2.2.2.2.2.2.2.2.2.2.2.2.2.2.2.2.2.2.1
@[simp] theorem raise_seqs (e : Ev) (die inst : Nat) : (s.raise e die inst).seqs = s.seqs := (quiet_raise s e die inst).rest.2.2.2.2.2.2.2.2.2.2.2.2.2.2.2.2.2.2.2.2.2.2.2.2.2.2.2.1
@[simp] theorem raise_seqTurn (e : Ev) (die inst : Nat) : (s.raise e die inst).seqTurn = s.seqTurn := (quiet_raise s e die inst).rest.2.2.2.2.2.2.2.2.2.2.2.2.2.2.2.2.2.2.2.2.2.2.2.2.2.2.2.2.1
@[simp] theorem raise_pads (e : Ev) (die inst : Nat) : (s.raise e die inst).pads = s.pads := (quiet_raise s e die inst).rest.2.2.2.2.2.2.2.2.2.2.2.2.2.2.2.2.2.2.2.2.2.2.2.2.2.2.2.2.2.1
@[simp] theorem raise_trust (e : Ev) (die inst : Nat) : (s.raise e die inst).trust = s.trust := (quiet_raise s e die inst).rest.2.2.2.2.2.2.2.2.2.2.2.2.2.2.2.2.2.2.2.2.2.2.2.2.2.2.2.2.2.2.1
@[simp] theorem raise_gauge (e : Ev) (die inst : Nat) : (s.raise e die inst).gauge = s.gauge := (quiet_raise s e die inst).rest.2.2.2.2.2.2.2.2.2.2.2.2.2.2.2.2.2.2.2.2.2.2.2.2.2.2.2.2.2.2.2.1
@[simp] theorem raise_power (e : Ev) (die inst : Nat) : (s.raise e die inst).power = s.power := (quiet_raise s e die inst).rest.2.2.2.2.2.2.2.2.2.2.2.2.2.2.2.2.2.2.2.2.2.2.2.2.2.2.2.2.2.2.2.2.1
@[simp] theorem raise_tap (e : Ev) (die inst : Nat) : (s.raise e die inst).tap = s.tap := (quiet_raise s e die inst).rest.2.2.2.2.2.2.2.2.2.2.2.2.2.2.2.2.2.2.2.2.2.2.2.2.2.2.2.2.2.2.2.2.2

theorem count_reg (c : Ctr) (i : Nat) {r : Reg} {k : Nat} (h : r ≠ .evtStat) : (s.count c i).reg r k = s.reg r k := (quiet_count s c i).reg r k h
@[simp] theorem count_evRing (c : Ctr) (i : Nat) : (s.count c i).evRing = s.evRing := (quiet_count s c i).evRing
@[simp] theorem count_pending (c : Ctr) (i : Nat) : (s.count c i).pending = s.pending := (quiet_count s c i).rest.1
@[simp] theorem count_pins (c : Ctr) (i : Nat) : (s.count c i).pins = s.pins := (quiet_count s c i).rest.2.1
@[simp] theorem count_now (c : Ctr) (i : Nat) : (s.count c i).now = s.now := (quiet_count s c i).rest.2.2.1
@[simp] theorem count_freeCtr (c : Ctr) (i : Nat) : (s.count c i).freeCtr = s.freeCtr := (quiet_count s c i).rest.2.2.2.1
@[simp] theorem count_once (c : Ctr) (i : Nat) : (s.count c i).once = s.once := (quiet_count s c i).rest.2.2.2.2.1
@[simp] theorem count_flights (c : Ctr) (i : Nat) : (s.count c i).flights = s.flights := (quiet_count s c i).rest.2.2.2.2.2.1
@[simp] theorem count_win (c : Ctr) (i : Nat) : (s.count c i).win = s.win := (quiet_count s c i).rest.2.2.2.2.2.2.1
@[simp] theorem count_rtn (c : Ctr) (i : Nat) : (s.count c i).rtn = s.rtn := (quiet_count s c i).rest.2.2.2.2.2.2.2.1
@[simp] theorem count_ucieDown (c : Ctr) (i : Nat) : (s.count c i).ucieDown = s.ucieDown := (quiet_count s c i).rest.2.2.2.2.2.2.2.2.1
@[simp] theorem count_tb (c : Ctr) (i : Nat) : (s.count c i).tb = s.tb := (quiet_count s c i).rest.2.2.2.2.2.2.2.2.2.1
@[simp] theorem count_lanes (c : Ctr) (i : Nat) : (s.count c i).lanes = s.lanes := (quiet_count s c i).rest.2.2.2.2.2.2.2.2.2.2.1
@[simp] theorem count_chans (c : Ctr) (i : Nat) : (s.count c i).chans = s.chans := (quiet_count s c i).rest.2.2.2.2.2.2.2.2.2.2.2.1
@[simp] theorem count_trees (c : Ctr) (i : Nat) : (s.count c i).trees = s.trees := (quiet_count s c i).rest.2.2.2.2.2.2.2.2.2.2.2.2.1
@[simp] theorem count_skeinOnus (c : Ctr) (i : Nat) : (s.count c i).skeinOnus = s.skeinOnus := (quiet_count s c i).rest.2.2.2.2.2.2.2.2.2.2.2.2.2.1
@[simp] theorem count_memberDown (c : Ctr) (i : Nat) : (s.count c i).memberDown = s.memberDown := (quiet_count s c i).rest.2.2.2.2.2.2.2.2.2.2.2.2.2.2.1
@[simp] theorem count_elapsed (c : Ctr) (i : Nat) : (s.count c i).elapsed = s.elapsed := (quiet_count s c i).rest.2.2.2.2.2.2.2.2.2.2.2.2.2.2.2.1
@[simp] theorem count_pon (c : Ctr) (i : Nat) : (s.count c i).pon = s.pon := (quiet_count s c i).rest.2.2.2.2.2.2.2.2.2.2.2.2.2.2.2.2.1
@[simp] theorem count_vault (c : Ctr) (i : Nat) : (s.count c i).vault = s.vault := (quiet_count s c i).rest.2.2.2.2.2.2.2.2.2.2.2.2.2.2.2.2.2.1
@[simp] theorem count_tribs (c : Ctr) (i : Nat) : (s.count c i).tribs = s.tribs := (quiet_count s c i).rest.2.2.2.2.2.2.2.2.2.2.2.2.2.2.2.2.2.2.1
@[simp] theorem count_fwd (c : Ctr) (i : Nat) : (s.count c i).fwd = s.fwd := (quiet_count s c i).rest.2.2.2.2.2.2.2.2.2.2.2.2.2.2.2.2.2.2.2.1
@[simp] theorem count_tableWaits (c : Ctr) (i : Nat) : (s.count c i).tableWaits = s.tableWaits := (quiet_count s c i).rest.2.2.2.2.2.2.2.2.2.2.2.2.2.2.2.2.2.2.2.2.1
@[simp] theorem count_store (c : Ctr) (i : Nat) : (s.count c i).store = s.store := (quiet_count s c i).rest.2.2.2.2.2.2.2.2.2.2.2.2.2.2.2.2.2.2.2.2.2.1
@[simp] theorem count_toTc (c : Ctr) (i : Nat) : (s.count c i).toTc = s.toTc := (quiet_count s c i).rest.2.2.2.2.2.2.2.2.2.2.2.2.2.2.2.2.2.2.2.2.2.2.1
@[simp] theorem count_idled (c : Ctr) (i : Nat) : (s.count c i).idled = s.idled := (quiet_count s c i).rest.2.2.2.2.2.2.2.2.2.2.2.2.2.2.2.2.2.2.2.2.2.2.2.1
@[simp] theorem count_secys (c : Ctr) (i : Nat) : (s.count c i).secys = s.secys := (quiet_count s c i).rest.2.2.2.2.2.2.2.2.2.2.2.2.2.2.2.2.2.2.2.2.2.2.2.2.1
@[simp] theorem count_cipher (c : Ctr) (i : Nat) : (s.count c i).cipher = s.cipher := (quiet_count s c i).rest.2.2.2.2.2.2.2.2.2.2.2.2.2.2.2.2.2.2.2.2.2.2.2.2.2.1
@[simp] theorem count_tandem (c : Ctr) (i : Nat) : (s.count c i).tandem = s.tandem := (quiet_count s c i).rest.2.2.2.2.2.2.2.2.2.2.2.2.2.2.2.2.2.2.2.2.2.2.2.2.2.2.1
@[simp] theorem count_seqs (c : Ctr) (i : Nat) : (s.count c i).seqs = s.seqs := (quiet_count s c i).rest.2.2.2.2.2.2.2.2.2.2.2.2.2.2.2.2.2.2.2.2.2.2.2.2.2.2.2.1
@[simp] theorem count_seqTurn (c : Ctr) (i : Nat) : (s.count c i).seqTurn = s.seqTurn := (quiet_count s c i).rest.2.2.2.2.2.2.2.2.2.2.2.2.2.2.2.2.2.2.2.2.2.2.2.2.2.2.2.2.1
@[simp] theorem count_pads (c : Ctr) (i : Nat) : (s.count c i).pads = s.pads := (quiet_count s c i).rest.2.2.2.2.2.2.2.2.2.2.2.2.2.2.2.2.2.2.2.2.2.2.2.2.2.2.2.2.2.1
@[simp] theorem count_trust (c : Ctr) (i : Nat) : (s.count c i).trust = s.trust := (quiet_count s c i).rest.2.2.2.2.2.2.2.2.2.2.2.2.2.2.2.2.2.2.2.2.2.2.2.2.2.2.2.2.2.2.1
@[simp] theorem count_gauge (c : Ctr) (i : Nat) : (s.count c i).gauge = s.gauge := (quiet_count s c i).rest.2.2.2.2.2.2.2.2.2.2.2.2.2.2.2.2.2.2.2.2.2.2.2.2.2.2.2.2.2.2.2.1
@[simp] theorem count_power (c : Ctr) (i : Nat) : (s.count c i).power = s.power := (quiet_count s c i).rest.2.2.2.2.2.2.2.2.2.2.2.2.2.2.2.2.2.2.2.2.2.2.2.2.2.2.2.2.2.2.2.2.1
@[simp] theorem count_tap (c : Ctr) (i : Nat) : (s.count c i).tap = s.tap := (quiet_count s c i).rest.2.2.2.2.2.2.2.2.2.2.2.2.2.2.2.2.2.2.2.2.2.2.2.2.2.2.2.2.2.2.2.2.2

theorem report_reg (c : Ctr) (ci : Nat) (e : Ev) (die inst : Nat) {r : Reg} {k : Nat} (h : r ≠ .evtStat) : (s.report c ci e die inst).reg r k = s.reg r k := (quiet_report s c ci e die inst).reg r k h
@[simp] theorem report_evRing (c : Ctr) (ci : Nat) (e : Ev) (die inst : Nat) : (s.report c ci e die inst).evRing = s.evRing := (quiet_report s c ci e die inst).evRing
@[simp] theorem report_pending (c : Ctr) (ci : Nat) (e : Ev) (die inst : Nat) : (s.report c ci e die inst).pending = s.pending := (quiet_report s c ci e die inst).rest.1
@[simp] theorem report_pins (c : Ctr) (ci : Nat) (e : Ev) (die inst : Nat) : (s.report c ci e die inst).pins = s.pins := (quiet_report s c ci e die inst).rest.2.1
@[simp] theorem report_now (c : Ctr) (ci : Nat) (e : Ev) (die inst : Nat) : (s.report c ci e die inst).now = s.now := (quiet_report s c ci e die inst).rest.2.2.1
@[simp] theorem report_freeCtr (c : Ctr) (ci : Nat) (e : Ev) (die inst : Nat) : (s.report c ci e die inst).freeCtr = s.freeCtr := (quiet_report s c ci e die inst).rest.2.2.2.1
@[simp] theorem report_once (c : Ctr) (ci : Nat) (e : Ev) (die inst : Nat) : (s.report c ci e die inst).once = s.once := (quiet_report s c ci e die inst).rest.2.2.2.2.1
@[simp] theorem report_flights (c : Ctr) (ci : Nat) (e : Ev) (die inst : Nat) : (s.report c ci e die inst).flights = s.flights := (quiet_report s c ci e die inst).rest.2.2.2.2.2.1
@[simp] theorem report_win (c : Ctr) (ci : Nat) (e : Ev) (die inst : Nat) : (s.report c ci e die inst).win = s.win := (quiet_report s c ci e die inst).rest.2.2.2.2.2.2.1
@[simp] theorem report_rtn (c : Ctr) (ci : Nat) (e : Ev) (die inst : Nat) : (s.report c ci e die inst).rtn = s.rtn := (quiet_report s c ci e die inst).rest.2.2.2.2.2.2.2.1
@[simp] theorem report_ucieDown (c : Ctr) (ci : Nat) (e : Ev) (die inst : Nat) : (s.report c ci e die inst).ucieDown = s.ucieDown := (quiet_report s c ci e die inst).rest.2.2.2.2.2.2.2.2.1
@[simp] theorem report_tb (c : Ctr) (ci : Nat) (e : Ev) (die inst : Nat) : (s.report c ci e die inst).tb = s.tb := (quiet_report s c ci e die inst).rest.2.2.2.2.2.2.2.2.2.1
@[simp] theorem report_lanes (c : Ctr) (ci : Nat) (e : Ev) (die inst : Nat) : (s.report c ci e die inst).lanes = s.lanes := (quiet_report s c ci e die inst).rest.2.2.2.2.2.2.2.2.2.2.1
@[simp] theorem report_chans (c : Ctr) (ci : Nat) (e : Ev) (die inst : Nat) : (s.report c ci e die inst).chans = s.chans := (quiet_report s c ci e die inst).rest.2.2.2.2.2.2.2.2.2.2.2.1
@[simp] theorem report_trees (c : Ctr) (ci : Nat) (e : Ev) (die inst : Nat) : (s.report c ci e die inst).trees = s.trees := (quiet_report s c ci e die inst).rest.2.2.2.2.2.2.2.2.2.2.2.2.1
@[simp] theorem report_skeinOnus (c : Ctr) (ci : Nat) (e : Ev) (die inst : Nat) : (s.report c ci e die inst).skeinOnus = s.skeinOnus := (quiet_report s c ci e die inst).rest.2.2.2.2.2.2.2.2.2.2.2.2.2.1
@[simp] theorem report_memberDown (c : Ctr) (ci : Nat) (e : Ev) (die inst : Nat) : (s.report c ci e die inst).memberDown = s.memberDown := (quiet_report s c ci e die inst).rest.2.2.2.2.2.2.2.2.2.2.2.2.2.2.1
@[simp] theorem report_elapsed (c : Ctr) (ci : Nat) (e : Ev) (die inst : Nat) : (s.report c ci e die inst).elapsed = s.elapsed := (quiet_report s c ci e die inst).rest.2.2.2.2.2.2.2.2.2.2.2.2.2.2.2.1
@[simp] theorem report_pon (c : Ctr) (ci : Nat) (e : Ev) (die inst : Nat) : (s.report c ci e die inst).pon = s.pon := (quiet_report s c ci e die inst).rest.2.2.2.2.2.2.2.2.2.2.2.2.2.2.2.2.1
@[simp] theorem report_vault (c : Ctr) (ci : Nat) (e : Ev) (die inst : Nat) : (s.report c ci e die inst).vault = s.vault := (quiet_report s c ci e die inst).rest.2.2.2.2.2.2.2.2.2.2.2.2.2.2.2.2.2.1
@[simp] theorem report_tribs (c : Ctr) (ci : Nat) (e : Ev) (die inst : Nat) : (s.report c ci e die inst).tribs = s.tribs := (quiet_report s c ci e die inst).rest.2.2.2.2.2.2.2.2.2.2.2.2.2.2.2.2.2.2.1
@[simp] theorem report_fwd (c : Ctr) (ci : Nat) (e : Ev) (die inst : Nat) : (s.report c ci e die inst).fwd = s.fwd := (quiet_report s c ci e die inst).rest.2.2.2.2.2.2.2.2.2.2.2.2.2.2.2.2.2.2.2.1
@[simp] theorem report_tableWaits (c : Ctr) (ci : Nat) (e : Ev) (die inst : Nat) : (s.report c ci e die inst).tableWaits = s.tableWaits := (quiet_report s c ci e die inst).rest.2.2.2.2.2.2.2.2.2.2.2.2.2.2.2.2.2.2.2.2.1
@[simp] theorem report_store (c : Ctr) (ci : Nat) (e : Ev) (die inst : Nat) : (s.report c ci e die inst).store = s.store := (quiet_report s c ci e die inst).rest.2.2.2.2.2.2.2.2.2.2.2.2.2.2.2.2.2.2.2.2.2.1
@[simp] theorem report_toTc (c : Ctr) (ci : Nat) (e : Ev) (die inst : Nat) : (s.report c ci e die inst).toTc = s.toTc := (quiet_report s c ci e die inst).rest.2.2.2.2.2.2.2.2.2.2.2.2.2.2.2.2.2.2.2.2.2.2.1
@[simp] theorem report_idled (c : Ctr) (ci : Nat) (e : Ev) (die inst : Nat) : (s.report c ci e die inst).idled = s.idled := (quiet_report s c ci e die inst).rest.2.2.2.2.2.2.2.2.2.2.2.2.2.2.2.2.2.2.2.2.2.2.2.1
@[simp] theorem report_secys (c : Ctr) (ci : Nat) (e : Ev) (die inst : Nat) : (s.report c ci e die inst).secys = s.secys := (quiet_report s c ci e die inst).rest.2.2.2.2.2.2.2.2.2.2.2.2.2.2.2.2.2.2.2.2.2.2.2.2.1
@[simp] theorem report_cipher (c : Ctr) (ci : Nat) (e : Ev) (die inst : Nat) : (s.report c ci e die inst).cipher = s.cipher := (quiet_report s c ci e die inst).rest.2.2.2.2.2.2.2.2.2.2.2.2.2.2.2.2.2.2.2.2.2.2.2.2.2.1
@[simp] theorem report_tandem (c : Ctr) (ci : Nat) (e : Ev) (die inst : Nat) : (s.report c ci e die inst).tandem = s.tandem := (quiet_report s c ci e die inst).rest.2.2.2.2.2.2.2.2.2.2.2.2.2.2.2.2.2.2.2.2.2.2.2.2.2.2.1
@[simp] theorem report_seqs (c : Ctr) (ci : Nat) (e : Ev) (die inst : Nat) : (s.report c ci e die inst).seqs = s.seqs := (quiet_report s c ci e die inst).rest.2.2.2.2.2.2.2.2.2.2.2.2.2.2.2.2.2.2.2.2.2.2.2.2.2.2.2.1
@[simp] theorem report_seqTurn (c : Ctr) (ci : Nat) (e : Ev) (die inst : Nat) : (s.report c ci e die inst).seqTurn = s.seqTurn := (quiet_report s c ci e die inst).rest.2.2.2.2.2.2.2.2.2.2.2.2.2.2.2.2.2.2.2.2.2.2.2.2.2.2.2.2.1
@[simp] theorem report_pads (c : Ctr) (ci : Nat) (e : Ev) (die inst : Nat) : (s.report c ci e die inst).pads = s.pads := (quiet_report s c ci e die inst).rest.2.2.2.2.2.2.2.2.2.2.2.2.2.2.2.2.2.2.2.2.2.2.2.2.2.2.2.2.2.1
@[simp] theorem report_trust (c : Ctr) (ci : Nat) (e : Ev) (die inst : Nat) : (s.report c ci e die inst).trust = s.trust := (quiet_report s c ci e die inst).rest.2.2.2.2.2.2.2.2.2.2.2.2.2.2.2.2.2.2.2.2.2.2.2.2.2.2.2.2.2.2.1
@[simp] theorem report_gauge (c : Ctr) (ci : Nat) (e : Ev) (die inst : Nat) : (s.report c ci e die inst).gauge = s.gauge := (quiet_report s c ci e die inst).rest.2.2.2.2.2.2.2.2.2.2.2.2.2.2.2.2.2.2.2.2.2.2.2.2.2.2.2.2.2.2.2.1
@[simp] theorem report_power (c : Ctr) (ci : Nat) (e : Ev) (die inst : Nat) : (s.report c ci e die inst).power = s.power := (quiet_report s c ci e die inst).rest.2.2.2.2.2.2.2.2.2.2.2.2.2.2.2.2.2.2.2.2.2.2.2.2.2.2.2.2.2.2.2.2.1
@[simp] theorem report_tap (c : Ctr) (ci : Nat) (e : Ev) (die inst : Nat) : (s.report c ci e die inst).tap = s.tap := (quiet_report s c ci e die inst).rest.2.2.2.2.2.2.2.2.2.2.2.2.2.2.2.2.2.2.2.2.2.2.2.2.2.2.2.2.2.2.2.2.2

end Sys2Proof.Machine
end

