-- ==== Sys2Proof/Laws/Ops.lean ====
section
/-! SUPPORT. The shared operations: what each can do, once. -/

namespace Sys2Proof.Machine

/-- A command that is ready starts, has its effect and is answered, unless its reply waits. -/
theorem command_ready {h : Hdr} {op : Nat} {rule : DieRule} {body : Caller → State → Res} {s : State}
    (hr : s.ready h op rule = true) :
    command h op rule body s =
      if (body (callerOf h op) (s.start (callerOf h op))).held then (body (callerOf h op) (s.start (callerOf h op))).st
      else (body (callerOf h op) (s.start (callerOf h op))).st.answer (callerOf h op)
        (body (callerOf h op) (s.start (callerOf h op))).status (body (callerOf h op) (s.start (callerOf h op))).words := by
  simp only [State.ready, Bool.and_eq_true] at hr
  obtain ⟨⟨h1, h2⟩, h3⟩ := hr
  have h2' : (!castOnAnswers op && !s.flag .sysCastonDone 0) = false := by
    cases ha : castOnAnswers op <;> simp_all
  simp only [command, h1, h2', h3, Bool.not_true, Bool.false_eq_true, if_false]

/-- The form of a completion: the body answers on the started state, and does not wait. -/
theorem completed_of {h : Hdr} {op : Nat} {rule : DieRule} {body : Caller → State → Res} {s : State} {f : State → State}
    {st : Status} {ws : List Word} (hr : s.ready h op rule = true)
    (hb : body (callerOf h op) (s.start (callerOf h op)) = ⟨f (s.start (callerOf h op)), st, ws, false⟩) :
    Host.Outcome.next (command h op rule body s) = (completed h op s f ws st : Host.Outcome State Fault Refusal) := by
  rw [command_ready hr, hb]; rfl

theorem waiting_of {h : Hdr} {op : Nat} {rule : DieRule} {body : Caller → State → Res} {s : State} {f : State → State}
    (hr : s.ready h op rule = true) (hh : (body (callerOf h op) (s.start (callerOf h op))).held = true)
    (hb : (body (callerOf h op) (s.start (callerOf h op))).st = f (s.start (callerOf h op))) :
    Host.Outcome.next (command h op rule body s) = (waiting h op s f : Host.Outcome State Fault Refusal) := by
  rw [command_ready hr, hh, hb]; rfl

/-- The body answers OK, and P holds of what it leaves. -/
theorem answers_of {h : Hdr} {op : Nat} {rule : DieRule} {body : Caller → State → Res} {s : State} {c : Instr}
    {P : State → List Word → Prop}
    (hc : exec c s = .next (command h op rule body s)) (hr : s.ready h op rule = true)
    (hh : (body (callerOf h op) (s.start (callerOf h op))).held = false)
    (hs : (body (callerOf h op) (s.start (callerOf h op))).status = .ok)
    (hp : P (body (callerOf h op) (s.start (callerOf h op))).st (body (callerOf h op) (s.start (callerOf h op))).words) :
    Answers c h op s P :=
  ⟨_, _, by rw [hc, command_ready hr, hh, hs]; rfl, hp⟩

theorem unlessClaimed_free {s : State} {bs : List (Nat × Blk)} {r : Res}
    (h : bs.any (fun b => s.claimed b.1 b.2) = false) : s.unlessClaimed bs r = r := by
  simp [State.unlessClaimed, h]

/-- A command on a tree that is this device's, its blocks unclaimed, has its result, mirrored. -/
theorem onTree_free {s : State} {t : Nat} {bs : List (Nat × Blk)} {r : Res} (ht : s.treeBarred t = false)
    (hb : bs.any (fun b => s.claimed b.1 b.2) = false) (hr : r.status.refuses = false) :
    s.onTree t bs r = { r with st := r.st.mirror t } := by
  simp [State.onTree, ht, unlessClaimed_free hb, hr]

theorem onHalves_one {h : Hdr} {f : Nat → State → Res} {s : State} (hd : h.die.toNat < 2) :
    onHalves h f s = f h.die.toNat s := by simp [onHalves, hd]

/-- On both halves the reply is led by two statuses. -/
theorem onHalves_both {h : Hdr} {f : Nat → State → Res} {s a b : State} {wa wb : List Word} (hd : h.die = 15)
    (ha : f 0 s = ⟨a, .ok, wa, false⟩) (hb : f 1 a = ⟨b, .ok, wb, false⟩) :
    onHalves h f s = ⟨b, .ok, 0 :: 0 :: (wa ++ wb), false⟩ := by
  have h15 : ¬ h.die.toNat < 2 := by rw [hd]; decide
  simp [onHalves, h15, ha, hb, Status.refuses, Status.code]

theorem halvesOf_one {h : Hdr} (hd : h.die.toNat < 2) : halvesOf h = [h.die.toNat] := by
  simp only [halvesOf, hd, if_true]

theorem halvesOf_both {h : Hdr} (hd : h.die = 15) : halvesOf h = [0, 1] := by simp [halvesOf, hd]

/-- A table command that is ready, its operands good, its blocks unclaimed and the port idle, has its work done at once. -/
theorem tableCommand_idle {i : Instr} {h : Hdr} {op span : Nat} {blk : Blk} {bad : State → Bool} {body : Caller → Nat → State → Res}
    {s : State} {f : State → State} {ws : List Word} (hr : s.ready h op ruleDies = true) (hb : bad (s.start (callerOf h op)) = false)
    (hc : ∀ d ∈ halvesOf h, s.claimed d blk = false) (hp : (s.start (callerOf h op)).portIdle h span = true)
    (hw : onHalves h (body (callerOf h op)) ((s.start (callerOf h op)).wantPort (halvesOf h) span)
      = ⟨f ((s.start (callerOf h op)).wantPort (halvesOf h) span), .ok, ws, false⟩) :
    Host.Outcome.next (tableCommand i h op blk span bad body s)
      = (completed h op s (fun u => u.changed h span f) ws : Host.Outcome State Fault Refusal) := by
  refine completed_of hr ?_
  have hc' : ((halvesOf h).map (fun d => (d, blk))).any (fun b => (s.start (callerOf h op)).claimed b.1 b.2) = false := by
    simp only [List.any_map, List.any_eq_false, Function.comp]
    intro d hd
    simpa using hc d hd
  simp only [State.portIdle, Bool.not_eq_true'] at hp
  simp [hb, unlessClaimed_free hc', State.tableWork, hp, hw, Res.onPort, State.changed, Status.refuses, Status.code]

/-- Rationed work that is served is done and charged. -/
theorem rationed_served {s : State} {die index span : Nat} {work : State → State} (h : s.served die index = true) :
    s.rationed die index span work = (work (s.wantTime die index)).charge die index span := by
  simp only [State.served, Bool.not_eq_true'] at h
  simp [State.rationed, h]

/-- An item of an activation or link sequencer's work is served at once, or waits for its dispatch (R530). -/
theorem toSequencer_served {s : State} {die idx : Nat} {r : SeqReport} {f : State → State} :
    s.toSequencer die idx r f = if s.idleFor die idx then f s else s.queued die idx r := by
  simp only [State.toSequencer, State.idleFor, State.queued, Bool.and_eq_true, decide_eq_true_eq, List.isEmpty_iff]

/-- A stitch that the fetch delivers runs, on a sequencer that runs a pattern. -/
theorem stitchRow_delivered {s : State} {q op : Nat} {fs : List (Nat × Nat × Nat)} {f : State → State} (h : s.delivers q op fs = true) :
    s.stitchRow q op fs f = f s ∧ s.seqRuns q = true := by
  simp only [State.delivers, Bool.and_eq_true] at h
  refine ⟨?_, h.1⟩
  have h2 := h.2
  simp only [State.stitchRow, State.fetch, h.1, Bool.not_true, Bool.false_eq_true, if_false]
  split <;> simp_all

/-- Outside the error state and in a lifecycle that runs KEY commands, the gate lets one pass. -/
theorem keyGate_open {s : State} {op : Nat} {r : Res} (he : s.errorState = false) (h0 : s.lifecycle ≠ 0) (h3 : s.lifecycle ≠ 3) :
    s.keyGate op r = r := by simp [State.keyGate, he, h0, h3]

/-- A service of the Crypto Officer runs on an officer's path. -/
theorem officerOnly_officer {s : State} {h : Hdr} {r : Res} (hp : s.isOfficer h.path = true) : s.officerOnly h r = r := by
  simp [State.officerOnly, hp]

/-- A command creates a key while TAMPER_N is high. -/
theorem creates_untampered {s : State} {r : Res} (h : s.tampered = false) : s.creates r = r := by simp [State.creates, h]

/-- A read that reaches an instance returns the word it reads as; of a _LO it latches the _HI beside it. -/
theorem readAccess_reaches {s : State} {a : RegAccess} {r : Reg} {i : Nat} (h : s.reaches a false r i = true) (hh : isHi r = false) :
    s.readAccess a = (match hiOf r with
      | some hi => { s with win := { s.win with
          shadow := s.win.shadow.put (hiKey (accDie a) a.path hi a.idx) (s.readWord a.path (accDie a) hi i a.idx) } }
      | none => s, s.readWord a.path (accDie a) r i a.idx) := by
  simp only [State.reaches, Bool.and_eq_true, Bool.not_eq_true', decide_eq_true_eq] at h
  obtain ⟨⟨⟨⟨h1, h2⟩, h3⟩, h4⟩, h5⟩ := h
  cases ho : hiOf r <;> simp [State.readAccess, h1, h2, h3, h4, h5, hh, ho]

/-- A write that reaches an instance and may land there lands. -/
theorem writeAccessTo_lands {s : State} {a : RegAccess} {r : Reg} {i : Nat} (h : s.reaches a true r i = true)
    (hm : s.mayLand a r i = true) : s.writeAccessTo a = s.landWord a.path (accDie a) r i a.idx a.data := by
  simp only [State.reaches, Bool.and_eq_true, Bool.not_eq_true', decide_eq_true_eq] at h
  simp only [State.mayLand, Bool.and_eq_true, Bool.not_eq_true'] at hm
  obtain ⟨⟨⟨⟨h1, h2⟩, h3⟩, h4⟩, h5⟩ := h
  obtain ⟨⟨m1, m2⟩, m3⟩ := hm
  simp only [State.writeAccessTo, h1, h2, h3, h4, h5, m1, m2, Bool.false_eq_true, or_self, if_false]
  split
  · next t ht =>
    rw [ht] at m3
    have m4 : s.expertBarred a.path t = false := by simpa using m3
    simp [m4]
  · rfl

/-- Where no table write waits, none lands. -/
theorem landWrites_none {s : State} (h : s.tableWaits = []) : s.landWrites = s := by
  simp only [State.landWrites, h, List.foldl_nil]
  rw [← h]

/-- Time running on moves the time in force and the elapsed time only. -/
theorem runTime_frame (s : State) (d : Int) :
    s.runTime d = { s with now := (s.runTime d).now, elapsed := (s.runTime d).elapsed } := rfl

end Sys2Proof.Machine
end

