-- ==== Sys2Proof/Tests/Slice0.lean ====
section
/-! SUPPORT. The model's own tests: the well-formedness smoke, single commands on small states, and the witnesses of the
statements. -/

namespace Sys2Proof.Tests

open Sys2Proof.Machine

set_option Elab.async false

/-- The machine after cast-on, nothing else done. -/
def up : State := State.reset.setFlag .sysCastonDone 0 true
/-- A command's header on PCIe, tag 1, generation 0. -/
def hd (die : Nat) : Hdr := ⟨.pcie, 1, 0, BitVec.ofNat 4 die⟩
def cal : Caller := callerOf (hd 0) 0x0100
def front (s : State) (c : Instr) : State := { s with pending := c :: s.pending }
def actW : ActionWords := ⟨2, ⟨0, 0, 0⟩, ⟨0, 0, 0⟩, 0, 0, 1, 0x9999999A, 0, 0, 0⟩
def withAction (s : State) : State := { s with tb := { s.tb with pendingAction := some (actionOf actW s.now s.tb.cycle) } }

def claim (s : State) (die : Nat) (b : Blk) : State :=
  { s with win := { s.win with claims := s.win.claims.put (claimKey die b) .pcie } }
def pin2 : State := ((up.setFld .tbPinCfgMode 31 2).setReg .tbPinPeriod 31 16).setReg .tbPinWidth 31 12
def pin1 : State := (up.setFld .tbPinCfgMode 31 1).setReg .tbPinWidth 31 4
def launch (s : State) (t : Nat) : State := s.setFlag .pchTreeLaunched t true

def mtb (s : State) (f : Timebase → Timebase) : State := { s with tb := f s.tb }
def mln (s : State) (f : Lanes → Lanes) : State := { s with lanes := f s.lanes }

def mpon (s : State) (f : Pon → Pon) : State := { s with pon := f s.pon }

/-- Uplink region 0 powered. -/
def lup : State := up.setDomain 400 true
def eyeUp : State := { up with lanes := { up.lanes with eyes := [(6, ⟨callerOf (hd 6) 0x0206, 2, 0, 1000000⟩)] } }

/-- Tree 0 launched, its channel 3 framing and about to start anew, one SDU handed to its TC. -/
def sdu : ToTc := ⟨0, 20, 7, 1, ⟨1, 64, []⟩, false, 0, 1⟩
def frameUp : State :=
  { (((launch up 0).setFlag .pchStatTx 3 true).setChan 3 { chanDefault with startAt := some 5 }) with toTc := [(3, [sdu])] }
def oneOnu (s : State) (o : Nat) (x : OnuSlot) : State := { s with pon := { s.pon with onus := s.pon.onus.put o x } }
/-- An ONU of tree 31 in OPERATION, and one in KEYING. -/
def inOp : OnuSlot := { newOnu 0 31 3 20 77 none false with phase := .operation }
def keying : OnuSlot := { inOp with phase := .keying }
def keyed : OnuSlot := { inOp with keySwitch := some (0, 2) }
def switching : State := { oneOnu up 20 keyed with cipher := { up.cipher with bcast := up.cipher.bcast.put 31 (1, some (0, 2)) } }

/-- Every burst profile valid; an ONU of tree 31 provisioned and seen; one in OPERATION. -/
def lit : State := (List.range 4).foldl (fun s n => s.setFlag .brxPrfCfgValid (prfInst 127 n) true) up
def seen : OnuSlot := { newOnu 0 31 3 20 77 none false with seen := some (1000, 0) }
def seenUp : State := oneOnu up 20 seen
def opUp : State := oneOnu up 20 inOp
def ranging : OnuSlot := { inOp with phase := .ranging }
def rangingUp : State := (oneOnu up 20 ranging).setWindows 127 [⟨some 20, 3, 0, 10, 5⟩]

def allocW : AllocWords := ⟨0, 0, 0, 1, 777600, 7, 3, 15, 3⟩
/-- An open window of channel 127, and ranging and migrating ONUs. -/
def snWin : Window := ⟨none, 3, 0, 10, 5⟩
def rgWin : Window := ⟨some 20, 3, 0, 10, 5⟩
def snUp : State := up.setWindows 127 [snWin]
def moving (target : Option Nat) (fenced : Bool) : OnuSlot := { inOp with migration := some ⟨target, 0, 5, 0, fenced⟩ }
/-- The ONU of tree 31 with the default Alloc record 1000. -/
def recUp : State :=
  let s := oneOnu lit 20 inOp
  (s.setIdent 31 1 1000 (some (.bound 20))).setRec (recKey 5 0) (newRec 31 20 1000 3)
def hint0 : Hint := ⟨recKey 5 0, 9, 1, 100, 0, none⟩
def hintUp : State := { recUp with pon := { recUp.pon with hints := [(12288, hint0)] } }
def ctiUp : State :=
  { (recUp.setFlag .gntTreeCfgCoopEn 31 true) with pon := { recUp.pon with cti := ⟨[63], 65535, [9], [(5 * 2 ^ 32 + 6, recKey 5 0)]⟩ } }
def expect0 : Expect := { frame := 7, onu := some 20, onuId := 1000, profile := 3, first := 50, allocs := [], rssi := true, window := false }
def burstUp : State :=
  let s := (recUp.setFld .gntPinCfgRssiWidth 127 1).setExpects 127 [expect0]
  { s with pon := { s.pon with calcs := [(31, ⟨7, [], none⟩)] } }

def burst0 : BurstRx := ⟨true, [(0, 0)], 0, 1000, 0, [], 0, []⟩
def rxUp : State := burstUp.setLane 1 127 3 0
def one (e : Expect) : State := { burstUp.setExpects 127 [e] with now := secUnit }

/-- Tables 15 of both halves with one block, in EPOCH mode, and PCIe's selector on that of half 1. -/
def tableUp : State :=
  ([0, 1].foldl (fun s k => (s.setFld .rulTblCfgBlocks (k * 16 + 15) 1).setFld .rulTblCfgMode (k * 16 + 15) 1) up).setReg .rtsel
    (copyInst 1 (apathCode .pcie)) 15

def head0 : Head := ⟨1, true, 5, 7, 0, ⟨1, 64, []⟩, none, .whole, 0, false⟩
def meta0 : Meta := ⟨head0, 0, 0, 0, none, none, some ⟨1, 2, 0, 3, none⟩⟩
def frontUp : State := up.modStore 1 (fun st => { st with bridge := [([5], meta0)], repl := [(6, meta0)] })
def held0 : HeldFrame := ⟨⟨1, 64, []⟩, some 14, true, none, true, 9, 0, 1⟩
def heldUp : State := { up with lanes := { up.lanes with held := [(63, [held0])] } }

def skeinUp : State := ((up.setFld .sknCfgMembers 63 12).setFld .sknCfgSkewMax 63 10).setFlag .sknCfgValid 63 true
def tribW : TribWords := { kind := 0, nd := 193, q := 1, ppm := 1, wl := 200, wh := 300, udp := 7, payload := 32, playout := 125000 }
/-- The ONU of tree 31 with XGEM port 2000 and fixed bandwidth on its record. -/
def tribReady : State :=
  let s := (recUp.setIdent 31 2 2000 (some (.bound 20))).modRec (recKey 5 0) (fun r => { r with fixed := 100 })
  { s with pon := { s.pon with ports := s.pon.ports.put (31 * 65536 + 2000) ⟨0, 0, none⟩ } }
def trib0 : Trib :=
  { onu := 20, port := 2000, skein := none, members := [(3, 1000)], nd := 193, q := 1, ppm := 1, wl := 200, wh := 300, cadence := false
    udp := 7, payload := 32, playout := 125000, elastic := [], slipped := false, down := false, lostRun := 0, goodRun := 0, csf := false, csfRx := false
    jc := 0, jcRx := 0, mfi := 0, aligning := [], seqRx := some 5, seqTx := 0, plays := [⟨0, 256, false⟩], upBits := [], pwEvent := none
    inbox := [⟨5, 64, []⟩], lossRx := false, built := none }
def tribBound : State := { up with tribs := [(1023, trib0)] }
def portUp63 : State := (List.range 8).foldl (fun s k => s.setFld .lnuStatState (56 + k) 3) up
/-- An ONU that joins skein 63, ranged on one further member. -/
def joiner (c : Option Caller) : SkeinOnu := ⟨63, 3, [(3, 0)], 0, none, [], c, []⟩
def joinUp (c : Option Caller) : State := { oneOnu skeinUp 20 inOp with skeinOnus := [(20, joiner c)] }
def held1 : SkeinHeld := ⟨9, ⟨1, 64, []⟩, 7, 0, true, true, false⟩
def heads (hs : List Head) (inj : Tbl (List Head)) (re : Tbl (List Pkt)) : State :=
  up.setFwd 1 { up.fwdOf 1 with upHeads := hs, downHeads := hs, injected := inj, recirc := re }
def pads0 (hs : List Handover) (ds : List DmaXfer) : State := { up with pads := ⟨[], [], hs, ds⟩ }
def dma0 : DmaXfer := ⟨callerOf (hd 5) 0x1303, 5, true, 11, 0, 64, 64, 0⟩
def pkt0 : Pkt := ⟨head0, 2, 0, tEth, 0, none, none, false, none, false, 0⟩
/-- The host link up, the command and reply rings running, one command slot written; the I3C target up. -/
def ringsUp : State :=
  let s := (((up.setFlag .lshRingCfgEn 0 true).setFlag .lshRingCfgEn 1 true).setFld .lshRingPtrHost 0 1).setFld .sysCastonStage 0 7
  let s := (s.setFlag .lshRingCfgEn 3 true).setFld .lshRingPtrHost 3 1
  { s with laosh := { s.laosh with linkUp := true } }
def cmdItem : SeqItem := .command (callerOf (hd 7) 0x0109) [9]
/-- Sequencer 22 runs a pattern of a command. -/
def runUp : State :=
  (up.setSeq 22 { SeqSt.empty with ctx := { SeqCtx.empty with item := some cmdItem, stack := [5], w := [(1, 0xFFFFFFFF), (2, 2)] } }).setSeqState 22 2
/-- Sequencer 17 of die 5 runs an accepted command. -/
def run17 : State := (up.setSeq 17 { SeqSt.empty with ctx := { SeqCtx.empty with item := some cmdItem, accepted := true } }).setSeqState 17 2
/-- Sequencer 5 of die 1 runs a command, a bank group of its die off. -/
def darkUp : State :=
  ((up.setSeq 5 { SeqSt.empty with ctx := { SeqCtx.empty with item := some cmdItem, w := [(1, 0x1000000)] } }).setSeqState 5 2).setDomain 373 false
/-- Sequencer 22 idle, its first work an item. -/
def idle22 (w : List SeqItem) (ps : List Parked) : State :=
  (up.setSeq 22 { SeqSt.empty with work := w, parked := ps }).setSeqState 22 1
def darn0 : Darn := ⟨7, 64, 5, [(0, (true, 5, 0))], (1, 0, 0)⟩

/-- OWNED, PCIe the Crypto Officer with a nonce and a KLK, the identity key in place; an ONU of tree 31, and a key of each kind used. -/
def coUp : State :=
  let s := (oneOnu up 20 inOp).setFld .secLifecycleState 0 2
  let s := s.modCipher (fun c => { c with roles := [(pathCode .pcie, ())], nonces := [(pathCode .pcie, 5)], klks := [(pathCode .pcie, 9)], identity := some 7 })
  { s with vault := [(2 ^ 31, ⟨.sak, 56, 7, 5, 128, 0, true⟩), (2 ^ 31 + 1, ⟨.job, 1, 7, 5, 128, 0, true⟩), (2 ^ 31 + 2, ⟨.broadcast 1, 31, 5, 5, 128, 0, true⟩)] }
def sa0 : MscSa := ⟨0, 2 ^ 31, 1, 0, 0, 0, false, 0⟩
def saW (dir an : Word) : SaWords := ⟨56, dir, 0, 1, an, 0, 0x80000000, 0, 1, 0, 0, 2, 1, 0⟩
def delivery0 : Delivery := ⟨cal, 1, [(2 ^ 31 + 3, ⟨.sak, 56, 7, 5, 128, 0, true⟩)], [0x80000003]⟩
def jobW : JobWords := ⟨1, 5, 0, 0x80000001, 63, 0, 65536, 0, 0, 0, [], []⟩
/-- Half 1's bank 63 lent to look-aside jobs. -/
def jobUp : State := (coUp.setBank 1 63 4 false false).setDomain 374 true
def job0 (mode : Nat) (back : Bool) (tag : List Word) : Job := ⟨cal, 1, mode, back, 2 ^ 31 + 1, 63, 0, 0, 0, 0, 0, [], tag⟩
def jobOn (j : Job) : State := { coUp with cipher := { coUp.cipher with jobs := [j] } }

/-- An access to a register of a die under one of its indices. -/
def acc (p : APath) (die : Nat) (r : Reg) (idx : Nat) (w : Word) : RegAccess :=
  ⟨p, BitVec.ofNat 26 (die * 2 ^ 22 + ((Blk.number ((dieKind die).getD 0) r.block).getD 0) * 2 ^ 16), some r, idx, false, w⟩
def inst0 (a : RegAccess) (r : Reg) (s : State) : Nat := (s.instOf (apathCode a.path) (accDie a) a.idx r).getD 0
def stage0 : State := { claim up 0 .tb with win := { (claim up 0 .tb).win with stagedHi := [(hiKey 0 .pcie .tbSetSecHi 0, 5)], shadow := [(hiKey 0 .pcie .tbSetSecHi 0, 5)] } }

def at_ (s : State) (e : Nat) : State := { s with elapsed := e }
def mtnd (s : State) (f : Tandem → Tandem) : State := { s with tandem := f s.tandem }
/-- Tree 31 fit to be protected: paired, a cutoff of 20, the peer's configuration the same. -/
def pairUp : State :=
  let s := (up.setFlag .tndPairStatPaired 0 true).setFld .gntTreeCfgCutoff 31 20
  s.modTndTree 31 (fun x => { x with peerCfg := some (s.pairConfig 31) })
def tup : State := (List.range 8).foldl (fun s k => s.setFld .tndStatState k 3) up
/-- A halter state, the level of HLT_PEER_N, the time elapsed, and a drill. -/
def halt (st pin e : Nat) (d : Option Drill) : State := at_ (mtnd ((up.drive .hltPeerN 0 pin).setFld .tndPairStatHalter 0 st) (fun w => { w with drill := d })) e
def drill (phase : Nat) : Drill := ⟨cal, 8, phase, 0, []⟩
def sent (n : Nat) : TndSent := ⟨255, 5, .report 0 0 0, n, 0⟩
def sentUp (n : Nat) : State := at_ (mtnd up (fun w => { w with unacked := [sent n] })) (usSpan 50)
def evr : EvRec := ⟨0, 7, 0, 0, false⟩
def wait0 : ClaimWait := ⟨0, .tb, cal, 0⟩
def waitUp (cs : Tbl Path) : State := { up with win := { up.win with claims := cs, claimWait := [wait0] } }
/-- Cast-on at a stage, the pins that hold it released. -/
def boot (k : Nat) : State := ((State.reset.setFld .sysCastonStage 0 k).drive .hostRstN 0 1).drive .rails 0 1

def run4 : State := (up.setSeq 4 { SeqSt.empty with ctx := { SeqCtx.empty with item := some cmdItem } }).setSeqState 4 2
def ruleEnt0 : RuleEnt := ⟨0, [], [], 0, 0, 0, false, true, 0, false⟩
/-- The test port let go: TEST_EN high, HOST_RST_N low. -/
def tapUp (c : TapCtrl) (i : TapInstr) : State := { (up.drive .testEn 0 1).drive .hostRstN 0 0 with tap := ⟨c, i, [], [], []⟩ }


/-! ### Ill-formed commands, one for each check of `Instr.wf` -/

theorem test_wf_refuses_misaligned_access :
    (Instr.registerWrite ⟨.pcie, 2, none, 0, false, 0⟩).wf = false ∧ (Instr.registerWrite ⟨.pcie, 4, none, 0, false, 0⟩).wf = true := by decide
theorem test_wf_refuses_index_128 :
    (Instr.hiLoReadLatch ⟨.pcie, 4, none, 128, false, 0⟩).wf = false ∧ (Instr.hiLoWriteCommit ⟨.pcie, 4, none, 127, false, 0⟩).wf = true := by decide
theorem test_wf_refuses_sequencer_20 :
    (Instr.stEnd 20).wf = false ∧ (Instr.stEnd 19).wf = true ∧ (Instr.stEnd 23).wf = false ∧ (Instr.stEnd 22).wf = true := by decide
theorem test_wf_refuses_path_of_no_sequencer : (Instr.tbLatch (.seq 20) 0).wf = false ∧ (Instr.tbLatch (.seq 21) 0).wf = true := by decide
theorem test_wf_refuses_1024_parameters :
    (Instr.sysNop (hd 15) (List.replicate 1024 0)).wf = false ∧ (Instr.sysNop (hd 15) (List.replicate 1023 0)).wf = true := by decide +kernel
theorem test_wf_refuses_4129_bytes :
    (Instr.commandRingRead (List.replicate 4129 0)).wf = false ∧ (Instr.commandRingRead (List.replicate 4128 0)).wf = true := by decide +kernel
theorem test_wf_refuses_lanes_beyond_their_family :
    [(2, 64), (3, 8), (4, 1), (5, 0)].all (fun x => !(Instr.lanePllLock ⟨BitVec.ofNat 3 x.1, BitVec.ofNat 7 x.2⟩).wf) = true ∧
    [(0, 127), (1, 127), (2, 63), (3, 7), (4, 0)].all (fun x => (Instr.lanePllLock ⟨BitVec.ofNat 3 x.1, BitVec.ofNat 7 x.2⟩).wf) = true := by decide +kernel
theorem test_wf_refuses_header_between_words :
    (Instr.tandemFrameRx 7 0 0 [⟨2, 0, 0, 0, 0, false, 0, [], 0⟩] []).wf = false ∧
      (Instr.tandemFrameRx 7 0 0 [⟨4, 0, 0, 0, 0, false, 0, [], 0⟩] []).wf = true := by decide
theorem test_wf_refuses_fourth_verdict :
    (Instr.burstRx 127 0 { burst0 with hec := 3 }).wf = false ∧ (Instr.burstRx 127 0 { burst0 with hec := 2 }).wf = true := by decide
theorem test_wf_refuses_head_beyond_frame :
    (Instr.uplinkFrameRx 63 ⟨0, 1, [0, 0], true, none, false⟩).wf = false ∧
      (Instr.uplinkFrameRx 63 ⟨0, 2, [0, 0], true, none, false⟩).wf = true := by decide
theorem test_wf_refuses_gate_controller_96 : (Instr.gateEntry 1 96).wf = false ∧ (Instr.gateEntry 1 95).wf = true := by decide
theorem test_wf_refuses_event_group_27 : (Instr.evtStatClear 27 0).wf = false ∧ (Instr.evtStatClear 26 0).wf = true := by decide
theorem test_wf_refuses_link_7 : (Instr.ucieLinkDown 7).wf = false ∧ (Instr.ucieLinkDown 6).wf = true := by decide
theorem test_wf_refuses_region_72 : (Instr.droopRecovery 72).wf = false ∧ (Instr.droopRecovery 71).wf = true := by decide
theorem test_wf_refuses_domain_412 : (Instr.domainSwitchDone 412).wf = false ∧ (Instr.domainSwitchDone 411).wf = true := by decide

/-! ### The spec's worked examples -/

/-- R469: the CRC of the nine ASCII bytes "123456789". -/
theorem test_crc_of_nine_digits : crc32c [0x31, 0x32, 0x33, 0x34, 0x35, 0x36, 0x37, 0x38, 0x39] = 0xE3069283 := by decide +kernel

/-- 00_scope.md: tree 21 is in half 1; its wavelength 2 is channel 86, on line die L2, die number 4. -/
theorem test_numbering_of_tree_21 : halfOfTree 21 = 1 ∧ (chansOfTree 21)[2]? = some 86 ∧ dieOfChan 86 = 4 := by decide

/-- R207: the SN window of tree 9, and of a tree from 0 km to 40.0 km. -/
theorem test_sn_window_of_tree_9 : windowOf 48600 35 (101126 * 16) (46874 * 16) = (0, 39318, 57578) := by decide +kernel
theorem test_sn_window_of_40_km : (windowOf 48600 35 (395126 * 16) (46874 * 16)).1 = 3 ∧
    (windowOf 48600 35 (395126 * 16) (46874 * 16)).2.2 = 171885 := by
  decide +kernel

/-- R209: the ranging window of the ONU at 11.3 km, and its round trips in 1/16 ns, within a picosecond's rounding of the example. -/
theorem test_ranging_window_of_the_example : windowOf 48600 35 (70136 * 16) (-20136 * 16) = (0, 27269, 19476) := by decide +kernel
theorem test_round_trips_of_the_example :
    (roundTrip 48600 39318 4232457 - 128402 * 16).natAbs ≤ 1 ∧ (roundTrip 48600 27269 3460613 - 111152 * 16).natAbs ≤ 1 := by decide +kernel

/-- R519: EV_BRX_HEC on die 4 is source 494: bit 14 of group 15. -/
theorem test_source_of_brx_hec : sourceOf .brxHec 4 = 494 ∧ 494 = 15 * 32 + 14 := by decide +kernel

/-- R70: tree 5 at superframe count 13,600,000,000,000, its channels 20 and 21 in 50G-PON mode. -/
def todUp : State :=
  let s := (launch up 5).setTree 5 { (launch up 5).tree 5 with count := 13600000000000, startTime := mkTime 1700000000 3000 }
  { (s.setFld .pchCfgMode 22 1).setFld .pchCfgMode 23 1 with now := mkTime 1700000000 4000 }
def replyWords (s : State) (c : Caller) : Option (List Word) := ((s.flights.find (tagKey c.path c.tag)).bind (fun f => f.final)).map (fun r => r.words)
def after (o : Host.Outcome State Fault Refusal) (f : State → Bool) : Bool :=
  match o with
  | .next t => f t
  | _ => false
theorem test_time_of_day_of_tree_5 :
    after (exec (.timeTodGet (hd 2) 5 3166 (BitVec.ofNat 32 13600000008000)) todUp) (fun t =>
      replyWords t (callerOf (hd 2) 0x0108) = some ([0, 1700000001, 3412, 0, 0, 1700000001, 3412, 0, 0, 1700000001, 3538, 0, 0, 1700000001, 3538, 0, 0])) = true := by
  decide +kernel

/-- R48: an action while one is pending is refused and leaves it. -/
theorem test_second_action_is_busy :
    after (exec (.timeAction (hd 0) actW) (withAction up)) (fun t => decide (t.tb.pendingAction = (withAction up).tb.pendingAction)) = true := by
  decide +kernel

/-- R7: an RWC field of an unclaimed block keeps its value, and the write is counted. -/
theorem test_unclaimed_write_is_counted :
    after (exec (.registerWrite (acc .pcie 0 .tbWdog 0 5)) up) (fun t => t.reg .tbWdog 0 = up.reg .tbWdog 0 && t.ctr .sysUnclaimedWr 0 = 1) = true := by
  decide +kernel

/-- R626: ball 67.39 takes TPIN[0] and ball 74.46 the last VDDIO; R627: VDD_CORE's balls of row 31 of the centre field. -/
theorem test_control_field_ends : ballAt 67 39 = .pin .tpin 0 ∧ ballAt 74 46 = .rail .vddio ∧ controlBalls.length = 64 := by decide

/-! ### States and operands that meet the hypotheses of the statements -/

/-- States and operands that meet the hypotheses of `Obligations.StepTakesTheFrontCommand`, clause by clause. -/
theorem wit_StepTakesTheFrontCommand :
    (let c : Instr := .slewEnd; let rest : List Instr := [.ppsOutEdge]; let s : State := front (front up .ppsOutEdge) .slewEnd;
      s.pending = c :: rest) ∧
    (let s : State := up; s.pending = []) ∧
    (let s : State := up; (s.storeOf 0).own = [] ∧ (s.storeOf 1).own = []) ∧
    (let s : State := up; (s.storeOf 0).own = [] ∧ (s.storeOf 1).own = []) := by
  refine ⟨?_, ?_, ?_, ?_⟩ <;> decide +kernel

/-- States and operands that meet the hypotheses of `Obligations.RationCommandsComplete`, clause by clause. -/
theorem wit_RationCommandsComplete :
    (let h : Hdr := hd 7; let index : Word := 1; let cfg : Word := 0x03000001; let s : State := up;
      s.ready h 0x0010 (.oneOf [0, 1, 2, 3, 4, 5, 6, 7]) = true ∧ (rationReset h.die.toNat index.toNat).isSome = true ∧ index.toNat < 64 ∧
      cfg &&& 0xFCFE0000 = 0 ∧ s.rationSumsHold h.die.toNat index.toNat (fldOf .sysRtnCfgBudget cfg) = true ∧ s.claimed 15 .sys = false) ∧
    (let h : Hdr := hd 0; let index : Word := 33; let s : State := up; s.ready h 0x0011 (.oneOf [0, 1, 2, 3, 4, 5, 6, 7]) = true ∧
      (rationReset h.die.toNat index.toNat).isSome = true ∧ index.toNat < 64) ∧
    (let die : BitVec 3 := 7; let index : BitVec 6 := 1; let s : State := up; (rationReset die.toNat index.toNat).isSome = true ∧
      s.rationBudget (die.toNat * 64 + index.toNat) < 125000 ∧ s.flag .sysRtnStatSpent (die.toNat * 64 + index.toNat) = false) ∧
    (let link : BitVec 3 := 6; let s : State := up; s.hasLink link.toNat = true ∧ link.toNat ∉ s.ucieDown) := by
  refine ⟨?_, ?_, ?_, ?_⟩ <;> decide +kernel

/-- States and operands that meet the hypotheses of `Obligations.RationPeriodOpensWithMetersAtZero`, clause by clause. -/
theorem wit_RationPeriodOpensWithMetersAtZero :
    (let s : State := { up with now := up.rtn.next }; s.allReached s.rtn.next = true) ∧
    (let s : State := { up with rtn := { up.rtn with stepped := true }, elapsed := up.rtn.opened + frameSpan }; s.rtn.stepped = true ∧
      s.rtn.opened + frameSpan ≤ s.elapsed) ∧
    (let s : State := up; s.tableWaits = [] ∧ s.skewOut = [] ∧ s.skeinOnus.all (fun p => p.2.held.all (fun x => !x.spill)) = true ∧
      s.tribs.all (fun p => p.2.aligning.all (fun a => a.waiting.isEmpty)) = true ∧
      s.pm.ents.all (fun p => decide (p.2.secs.length < 10)) = true) := by
  refine ⟨?_, ?_, ?_⟩ <;> decide +kernel

/-- States and operands that meet the hypotheses of `Obligations.TimeCommandsComplete`, clause by clause. -/
theorem wit_TimeCommandsComplete :
    (let h : Hdr := hd 0; let s : State := up; s.ready h 0x0100 (.owner 0) = true) ∧
    (let h : Hdr := hd 0; let int : Word := 1; let frac : Word := 0x33333334; let s : State := up; s.ready h 0x0101 (.owner 0) = true ∧
      incrOk (int.toNat * 2 ^ 32 + frac.toNat) = true ∧ s.claimed 0 .tb = false) ∧
    (let h : Hdr := hd 0; let int : Word := 2; let frac : Word := 0; let s : State := up; s.ready h 0x0101 (.owner 0) = true ∧
      incrOk (int.toNat * 2 ^ 32 + frac.toNat) = true ∧ s.claimed 0 .tb = false) ∧
    (let h : Hdr := hd 0; let w : ActionWords := actW; let s : State := up; s.ready h 0x0102 (.owner 0) = true ∧ actionWordsOk w = true ∧
      actionRatesOk (actionOf w s.now s.tb.cycle) = true ∧ s.claimed 0 .tb = false ∧ s.tb.pendingAction = none) ∧
    (let h : Hdr := hd 0; let w : ActionWords := ⟨16, ⟨0, 0, 0⟩, ⟨65535, 0xFFFFFFFF, 999999999⟩, 0, 0, 0, 0, 0, 0, 0⟩; let s : State := up;
      s.ready h 0x0102 (.owner 0) = true ∧ actionWordsOk w = true ∧ actionRatesOk (actionOf w s.now s.tb.cycle) = true ∧ s.claimed 0 .tb = false ∧
      s.tb.pendingAction = none) ∧
    (let h : Hdr := hd 0;
      let s : State := mtb (withAction up) (fun t => { t with pendingAction := some ⟨1, 2 ^ 70, false, 0, 0, 7000000000, 0, 0, 0⟩ }); s.ready h 0x0103 (.owner 0) = true ∧
      s.claimed 0 .tb = false ∧ s.cancellable = true) ∧
    (let h : Hdr := hd 0; let ms : Word := 65535; let s : State := up; s.ready h 0x0104 (.owner 0) = true ∧ ms.toNat < 65536 ∧
      s.claimed 0 .tb = false) ∧
    (let h : Hdr := hd 0; let pin : Word := 32; let count : Word := 16; let s : State := up; s.ready h 0x0106 (.owner 0) = true ∧ pin.toNat ≤ 32 ∧
      count ≠ 0 ∧ count.toNat ≤ 16 ∧ s.claimed 0 .tb = false) ∧
    (let h : Hdr := hd 0; let width : Word := 500000; let s : State := up; s.ready h 0x0107 (.owner 0) = true ∧ 1 ≤ width.toNat ∧
      width.toNat ≤ 500000 ∧ s.claimed 0 .tb = false) ∧
    (let h : Hdr := hd 0; let s : State := up; s.ready h 0x0109 (.owner 0) = true) ∧
    (let h : Hdr := hd 7; let port : Word := 63; let one : Word := 1; let two : Word := 0; let tr : Word := 1; let s : State := up;
      s.ready h 0x010A (.owner (dieOfLane (port.toNat % 64))) = true ∧ port.toNat < 64 ∧ s.portOf port.toNat = port.toNat ∧ one.toNat < 2 ∧
      two.toNat < 2 ∧ tr.toNat < 2 ∧ s.claimed (dieOfLane port.toNat) .tsi = false) ∧
    (let h : Hdr := hd 7; let port : Word := 63; let count : Word := 16; let s : State := up;
      s.ready h 0x010B (.owner (dieOfLane (port.toNat % 64))) = true ∧ port.toNat < 64 ∧ s.portOf port.toNat = port.toNat ∧ count ≠ 0 ∧
      count.toNat ≤ 16 ∧ s.claimed (dieOfLane port.toNat) .tsi = false) := by
  refine ⟨?_, ?_, ?_, ?_, ?_, ?_, ?_, ?_, ?_, ?_, ?_, ?_⟩ <;> decide +kernel

/-- States and operands that meet the hypotheses of `Obligations.TimebaseActionApplies`, clause by clause. -/
theorem wit_TimebaseActionApplies :
    (let a : Action := ⟨10, 5, false, 99, -1, 0, 0, 0, 0⟩; let s : State := { mtb up (fun t => { t with pendingAction := some a }) with now := 5 };
      s.tb.pendingAction = some a ∧ s.actionDue a = true) ∧
    (let a : Action := ⟨10, 5, true, 99, -1, 0, 0, 0, 0⟩; let s : State := mtb up (fun t => { t with pendingAction := some a, cycle := 625 });
      s.tb.pendingAction = some a ∧ s.actionDue a = true) ∧
    (let a : Action := ⟨1, 5, false, 0, 0, 2 ^ 33, 0, 0, 0⟩; let s : State := { mtb up (fun t => { t with pendingAction := some a }) with now := 5 };
      s.tb.pendingAction = some a ∧ s.actionDue a = true ∧ a.kinds = 1 ∧ a.late = false ∧ incrOk a.incr = true) ∧
    (let a : Action := ⟨4, 5, false, 0, 0, 0, -10485, 1, 0⟩; let s : State := { mtb up (fun t => { t with pendingAction := some a }) with now := 5 };
      s.tb.pendingAction = some a ∧ s.actionDue a = true ∧ a.kinds = 4 ∧ a.late = false ∧ slewOk a.slewOfs a.slewCyc = true ∧ a.slewCyc ≠ 0) := by
  refine ⟨?_, ?_, ?_, ?_⟩ <;> decide +kernel

/-- States and operands that meet the hypotheses of `Obligations.TimebaseEventsComplete`, clause by clause. -/
theorem wit_TimebaseEventsComplete :
    (let w : Slew := ⟨5, 1⟩; let s : State := mtb up (fun t => { t with slew := some w }); s.tb.slew = some w ∧ w.cycles ≤ 1) ∧
    (let s : State := { up.setFld .tbWdogTimeout 0 65535 with elapsed := msSpan 65535 }; s.fld .tbWdogTimeout 0 ≠ 0 ∧ s.tb.wdogFired = false ∧
      s.tb.wdogFrom + msSpan (s.fld .tbWdogTimeout 0) ≤ s.elapsed) ∧
    (let die : BitVec 3 := 7; let s : State := up; die ≠ 0 ∧ s.dieFused die.toNat = false ∧
      (∀ a, s.tb.syncAt.find die.toNat = some a → a + usSpan 1 ≤ s.elapsed)) ∧
    (let pin : BitVec 5 := 31; let at_ : Nat := 9; let s : State := { mtb pin2 (fun t => { t with nextEdge := [(31, 9)] }) with now := 9 };
      s.pinOk pin.toNat = true ∧ s.fld .tbPinCfgMode pin.toNat = 2 ∧ s.tb.nextEdge.find pin.toNat = some at_ ∧ reached s.now at_ = true) ∧
    (let pin : BitVec 5 := 31; let at_ : Nat := 9; let s : State := { mtb pin1 (fun t => { t with nextEdge := [(31, 9)] }) with now := 9 };
      s.pinOk pin.toNat = true ∧ s.fld .tbPinCfgMode pin.toNat = 1 ∧ s.tb.nextEdge.find pin.toNat = some at_ ∧ reached s.now at_ = true) ∧
    (let s : State := { up with now := up.tb.ppsNext }; reached s.now s.tb.ppsNext = true) ∧
    (let pin : BitVec 5 := 31; let before : Bool := false; let after : Bool := true; let s : State := up.setFld .tbPinCfgMode 31 5; before ≠ after ∧
      (s.fld .tbPinCfgMode pin.toNat = 5 ∨ (s.fld .tbPinCfgMode pin.toNat = 3 ∧ after = true) ∨ (s.fld .tbPinCfgMode pin.toNat = 4 ∧ after = false)) ∧
      s.tb.lastEdge.find pin.toNat = none ∧ (Tbl.getD s.tb.captures pin.toNat []).length < 16) ∧
    (let pin : BitVec 5 := 0; let before : Bool := true; let after : Bool := false; let s : State := up.setFld .tbPinCfgMode 0 4; before ≠ after ∧
      (s.fld .tbPinCfgMode pin.toNat = 5 ∨ (s.fld .tbPinCfgMode pin.toNat = 3 ∧ after = true) ∨ (s.fld .tbPinCfgMode pin.toNat = 4 ∧ after = false)) ∧
      s.tb.lastEdge.find pin.toNat = none ∧ (Tbl.getD s.tb.captures pin.toNat []).length < 16) ∧
    (let pin : BitVec 5 := 31; let before : Bool := false; let after : Bool := true;
      let s : State := mtb (up.setFld .tbPinCfgMode 31 3) (fun t => { t with captures := [(31, List.replicate 16 ⟨0, false⟩)] }); before ≠ after ∧
      (s.fld .tbPinCfgMode pin.toNat = 5 ∨ (s.fld .tbPinCfgMode pin.toNat = 3 ∧ after = true) ∨ (s.fld .tbPinCfgMode pin.toNat = 4 ∧ after = false)) ∧
      s.tb.lastEdge.find pin.toNat = none ∧ 16 ≤ (Tbl.getD s.tb.captures pin.toNat []).length) ∧
    (let s : State := up; s.tb.lastEdge.find 32 = none ∧ (Tbl.getD s.tb.captures 32 []).length < 16) ∧
    (let pin : BitVec 5 := 31; let before : Bool := true; let after : Bool := false; let s : State := up.setFld .tbPinCfgMode 31 3;
      edgeSelected (s.fld .tbPinCfgMode pin.toNat) before after = false) := by
  refine ⟨?_, ?_, ?_, ?_, ?_, ?_, ?_, ?_, ?_, ?_, ?_⟩ <;> decide +kernel

/-- States and operands that meet the hypotheses of `Obligations.TimebaseRegistersComplete`, clause by clause. -/
theorem wit_TimebaseRegistersComplete :
    (let data : Word := 1; data.getLsbD 0 = true) ∧
    (let p : APath := .pcie; let data : Word := 1; let s : State := (claim up 0 .tb).setReg .tbIncrFrac (apathCode .pcie) 0x9999999A;
      s.mayRwc p 0 .tb = true ∧ incrOk (fldOf .tbIncrInt data * 2 ^ 32 + (s.reg .tbIncrFrac (apathCode p)).toNat) = true) ∧
    (let p : APath := .i3c; let data : Word := 0x11E; let s : State := { up with win := { up.win with claims := [(claimKey 0 .tb, .i3c)] } };
      s.mayRwc p 0 .tb = true ∧ s.tb.pendingAction = none ∧ fldOf .tbActKindKinds (data ||| 1) ≠ 0) ∧
    (let p : APath := .pcie;
      let s : State := mtb (claim up 0 .tb) (fun t => { t with pendingAction := some ⟨1, 2 ^ 70, false, 0, 0, 7000000000, 0, 0, 0⟩ }); s.mayRwc p 0 .tb = true ∧
      s.cancellable = true) ∧
    (let p : APath := .pcie; let s : State := claim up 0 .tb; s.mayRwc p 0 .tb = true) ∧
    (let h : Hdr := hd 0; let pin : Word := 32; let mode : Word := 3; let pol : Word := 1; let start : T3 := ⟨65535, 0, 999999999⟩;
      let s : State := up; s.ready h 0x0105 (.owner 0) = true ∧ pin.toNat ≤ 32 ∧ mode.toNat ≤ 5 ∧ pol.toNat ≤ 1 ∧ (pin = 32 → mode = 3) ∧
      start.ns.toNat < 1000000000 ∧ start.hi.toNat < 65536 ∧ s.claimed 0 .tb = false) ∧
    (let h : Hdr := hd 0; let pin : Word := 31; let mode : Word := 5; let pol : Word := 0; let start : T3 := ⟨65535, 0, 999999999⟩;
      let s : State := up; s.ready h 0x0105 (.owner 0) = true ∧ pin.toNat ≤ 32 ∧ mode.toNat ≤ 5 ∧ pol.toNat ≤ 1 ∧ (pin = 32 → mode = 3) ∧
      start.ns.toNat < 1000000000 ∧ start.hi.toNat < 65536 ∧ s.claimed 0 .tb = false) ∧
    (let h : Hdr := hd 5; let tree : Word := 31; let sHi : Word := 0; let sLo : Word := 80000; let s : State := launch up 31;
      s.ready h 0x0108 (.owner (dieOfTree (tree.toNat % 32))) = true ∧ tree.toNat < 32 ∧ s.launched tree.toNat = true ∧ sHi.toNat < 2 ^ 19 ∧
      (s.framesTo tree.toNat (sHi.toNat * 2 ^ 32 + sLo.toNat)).natAbs ≤ 80000) := by
  refine ⟨?_, ?_, ?_, ?_, ?_, ?_, ?_, ?_⟩ <;> decide +kernel

/-- States and operands that meet the hypotheses of `Obligations.LaneCommandsComplete`, clause by clause. -/
theorem wit_LaneCommandsComplete :
    (let h : Hdr := hd 6; let family : Word := 2; let index : Word := 0; let on : Word := 1; let s : State := lup;
      s.ready h 0x0200 (.owner (laneDie family.toNat index.toNat)) = true ∧ laneRefOk family index = true ∧ family.toNat ≠ 4 ∧ on.toNat < 2 ∧
      s.claimed (laneDie family.toNat index.toNat) (laneBlk family.toNat) = false ∧ s.regionOn family.toNat index.toNat = true) ∧
    (let h : Hdr := hd 5; let family : Word := 0; let index : Word := 127; let on : Word := 0; let s : State := up.setDomain 397 true;
      s.ready h 0x0200 (.owner (laneDie family.toNat index.toNat)) = true ∧ laneRefOk family index = true ∧ family.toNat ≠ 4 ∧ on.toNat < 2 ∧
      s.claimed (laneDie family.toNat index.toNat) (laneBlk family.toNat) = false ∧ s.regionOn family.toNat index.toNat = true) ∧
    (let h : Hdr := hd 7; let family : Word := 3; let index : Word := 7; let s : State := up;
      s.ready h 0x0201 (.owner (laneDie family.toNat index.toNat)) = true ∧ laneRefOk family index = true) ∧
    (let h : Hdr := hd 7; let o : Word := 7; let oct : Word := 0; let q0 : Word := 0; let q1 : Word := 2; let half : Word := 15; let s : State := up;
      s.ready h 0x0202 (.owner (dieOfLane (o.toNat * 8 % 64))) = true ∧ o.toNat < 8 ∧ oct.toNat < 2 ∧ q0.toNat < 3 ∧ q1.toNat < 3 ∧ half.toNat < 256 ∧
      modeValid oct.toNat q0.toNat q1.toNat half.toNat = true ∧ s.claimed (dieOfLane (8 * o.toNat)) .lnu = false ∧
      s.modeBusy o.toNat oct.toNat q0.toNat q1.toNat half.toNat = false) ∧
    (let h : Hdr := hd 6; let o : Word := 0; let oct : Word := 1; let q0 : Word := 0; let q1 : Word := 0; let half : Word := 0; let s : State := up;
      s.ready h 0x0202 (.owner (dieOfLane (o.toNat * 8 % 64))) = true ∧ o.toNat < 8 ∧ oct.toNat < 2 ∧ q0.toNat < 3 ∧ q1.toNat < 3 ∧ half.toNat < 256 ∧
      modeValid oct.toNat q0.toNat q1.toNat half.toNat = true ∧ s.claimed (dieOfLane (8 * o.toNat)) .lnu = false ∧
      s.modeBusy o.toNat oct.toNat q0.toNat q1.toNat half.toNat = false) ∧
    (let h : Hdr := hd 7; let port : Word := 63; let intf : Word := 2; let an : Word := 1; let s : State := up;
      s.ready h 0x0203 (.owner (dieOfLane (port.toNat % 64))) = true ∧ port.toNat < 64 ∧ s.portOf port.toNat = port.toNat ∧ intf.toNat < 3 ∧
      an.toNat < 2 ∧ s.claimed (dieOfLane port.toNat) .lnu = false ∧ (s.laneGroup 2 port.toNat).any (fun j => s.laneState 2 j != 0) = false) ∧
    (let h : Hdr := hd 5; let family : Word := 1; let index : Word := 127; let s : State := up;
      s.ready h 0x0204 (.owner (laneDie family.toNat index.toNat)) = true ∧ laneRefOk family index = true ∧
      s.claimed (laneDie family.toNat index.toNat) (laneBlk family.toNat) = false) ∧
    (let h : Hdr := hd 0; let family : Word := 4; let index : Word := 0; let s : State := up;
      s.ready h 0x0205 (.owner (laneDie family.toNat index.toNat)) = true ∧ laneRefOk family index = true ∧ 2 ≤ family.toNat ∧
      s.claimed (laneDie family.toNat index.toNat) (laneBlk family.toNat) = false) ∧
    (let h : Hdr := hd 6; let family : Word := 2; let index : Word := 0; let s : State := up;
      s.ready h 0x0205 (.owner (laneDie family.toNat index.toNat)) = true ∧ laneRefOk family index = true ∧ 2 ≤ family.toNat ∧
      s.claimed (laneDie family.toNat index.toNat) (laneBlk family.toNat) = false) ∧
    (let h : Hdr := hd 6; let family : Word := 2; let index : Word := 0; let dwell : BitVec 64 := 1000000; let s : State := up;
      s.ready h 0x0206 (.owner (laneDie family.toNat index.toNat)) = true ∧ laneRefOk family index = true ∧ family.toNat ≠ 0 ∧ 10 ^ 6 ≤ dwell.toNat ∧
      dwell.toNat ≤ 10 ^ 12 ∧ (family.toNat = 1 → (Tbl.getD s.lanes.prbs (laneKey family.toNat index.toNat) (false, false)).2 = true) ∧
      s.claimed (laneDie family.toNat index.toNat) (laneBlk family.toNat) = false ∧ s.lanes.eyes.has (laneDie family.toNat index.toNat) = false ∧
      (s.start (callerOf h 0x0206)).asyncFull = false) ∧
    (let h : Hdr := hd 5; let family : Word := 1; let index : Word := 127; let dwell : BitVec 64 := 1000000000000;
      let s : State := mln up (fun t => { t with prbs := [(laneKey 1 127, (false, true))] }); s.ready h 0x0206 (.owner (laneDie family.toNat index.toNat)) = true ∧
      laneRefOk family index = true ∧ family.toNat ≠ 0 ∧ 10 ^ 6 ≤ dwell.toNat ∧ dwell.toNat ≤ 10 ^ 12 ∧
      (family.toNat = 1 → (Tbl.getD s.lanes.prbs (laneKey family.toNat index.toNat) (false, false)).2 = true) ∧
      s.claimed (laneDie family.toNat index.toNat) (laneBlk family.toNat) = false ∧ s.lanes.eyes.has (laneDie family.toNat index.toNat) = false ∧
      (s.start (callerOf h 0x0206)).asyncFull = false) ∧
    (let die : BitVec 3 := 6; let margins : List Word := List.replicate 12 5; let e : EyeScan := ⟨callerOf (hd 6) 0x0206, 2, 0, 1000000⟩;
      let s : State := eyeUp; s.lanes.eyes.find die.toNat = some e ∧ margins.length = (if e.family = 2 ∨ e.family = 3 then 12 else 4)) ∧
    (let die : BitVec 3 := 0; let margins : List Word := List.replicate 4 5; let e : EyeScan := ⟨callerOf (hd 0) 0x0206, 4, 0, 1000000⟩;
      let s : State := mln up (fun t => { t with eyes := [(0, e)] }); s.lanes.eyes.find die.toNat = some e ∧
      margins.length = (if e.family = 2 ∨ e.family = 3 then 12 else 4)) ∧
    (let h : Hdr := hd 2; let family : Word := 0; let index : Word := 0; let pattern : Word := 2; let gen : Word := 1; let chk : Word := 0;
      let s : State := up; s.ready h 0x0207 (.owner (laneDie family.toNat index.toNat)) = true ∧ laneRefOk family index = true ∧ family.toNat ≠ 4 ∧
      pattern.toNat ≤ (if family.toNat < 2 then 2 else 4) ∧ gen.toNat < 2 ∧ chk.toNat < 2 ∧
      s.claimed (laneDie family.toNat index.toNat) (laneBlk family.toNat) = false ∧ (¬ (family.toNat = 0 ∧ gen = 1 ∧
      s.launched (treeOfChan index.toNat) = true))) ∧
    (let h : Hdr := hd 7; let family : Word := 3; let index : Word := 7; let pattern : Word := 4; let gen : Word := 0; let chk : Word := 1;
      let s : State := up; s.ready h 0x0207 (.owner (laneDie family.toNat index.toNat)) = true ∧ laneRefOk family index = true ∧ family.toNat ≠ 4 ∧
      pattern.toNat ≤ (if family.toNat < 2 then 2 else 4) ∧ gen.toNat < 2 ∧ chk.toNat < 2 ∧
      s.claimed (laneDie family.toNat index.toNat) (laneBlk family.toNat) = false ∧ (¬ (family.toNat = 0 ∧ gen = 1 ∧
      s.launched (treeOfChan index.toNat) = true))) ∧
    (let f : Nat := 3; let i : Nat := 127; let j : Nat := 0; f < 4 ∧ i < 128 ∧ j < 128) ∧
    (let h : Hdr := hd 2; let family : Word := 0; let index : Word := 0; let s : State := up;
      s.ready h 0x0208 (.owner (laneDie family.toNat index.toNat)) = true ∧ laneRefOk family index = true) := by
  refine ⟨?_, ?_, ?_, ?_, ?_, ?_, ?_, ?_, ?_, ?_, ?_, ?_, ?_, ?_, ?_, ?_, ?_⟩ <;> decide +kernel

/-- States and operands that meet the hypotheses of `Obligations.LaneEventsComplete`, clause by clause. -/
theorem wit_LaneEventsComplete :
    (let l : LaneRef := ⟨2, 3⟩; let s : State := up.setFld .lnuStatState 3 1; l.index.toNat < laneCount l.family.toNat ∧
      s.laneState l.family.toNat l.index.toNat = 1 ∧ s.laneRef l.family.toNat l.index.toNat = true) ∧
    (let l : LaneRef := ⟨0, 127⟩; let s : State := up.setLane 0 127 1 0; l.index.toNat < laneCount l.family.toNat ∧
      s.laneState l.family.toNat l.index.toNat = 1 ∧ s.laneRef l.family.toNat l.index.toNat = true) ∧
    (let l : LaneRef := ⟨2, 3⟩; let s : State := { up.setFld .lnuStatState 3 1 with elapsed := secUnit }; l.index.toNat < laneCount l.family.toNat ∧
      s.laneState l.family.toNat l.index.toNat = 1 ∧ s.laneWaited l.family.toNat l.index.toNat (pllLimit l.family.toNat) = true) ∧
    (let c : Chan := 127;
      let s : State := { mln up (fun t => { t with transmitting := [(127, ())], darkAt := [(127, 0)] }) with elapsed := usSpan 1 }; s.pin .optTxen c.toNat = 0 ∧
      s.lanes.transmitting.has c.toNat = true ∧ Tbl.getD s.lanes.darkAt c.toNat 0 + usSpan 1 ≤ s.elapsed) ∧
    (let l : LaneRef := ⟨3, 7⟩; let s : State := (up.setFld .tndStatState 7 2).setFld .tndStatStage 7 3; 2 ≤ l.family.toNat ∧
      l.index.toNat < laneCount l.family.toNat ∧ (∀ j ∈ s.laneGroup l.family.toNat l.index.toNat, s.laneState l.family.toNat j = 2 ∧
      s.laneStage l.family.toNat j = s.laneStage l.family.toNat l.index.toNat) ∧ s.laneState l.family.toNat l.index.toNat = 2 ∧
      (l.family.toNat = 3 → s.lanes.paused.has l.index.toNat = false) ∧
      (l.family.toNat = 4 ∨ s.idleFor (laneDie l.family.toNat l.index.toNat) 0 = true)) ∧
    (let l : LaneRef := ⟨3, 7⟩; let s : State := ((up.setFld .tndStatState 7 2).setFld .tndStatStage 7 3).setSeqState 21 2; 2 ≤ l.family.toNat ∧
      l.index.toNat < laneCount l.family.toNat ∧ (∀ j ∈ s.laneGroup l.family.toNat l.index.toNat, s.laneState l.family.toNat j = 2 ∧
      s.laneStage l.family.toNat j = s.laneStage l.family.toNat l.index.toNat) ∧ s.laneState l.family.toNat l.index.toNat = 2 ∧
      (l.family.toNat = 3 → s.lanes.paused.has l.index.toNat = false) ∧ l.family.toNat ≠ 4 ∧
      s.idleFor (laneDie l.family.toNat l.index.toNat) 0 = false) ∧
    (let l : TLane := 7; let s : State := { (up.setFld .tndStatState 7 2).setFld .tndStatStage 7 3 with elapsed := secUnit };
      s.laneState 3 l.toNat = 2 ∧ s.lanes.paused.has l.toNat = false ∧ s.laneWaited 3 l.toNat (stageLimit (s.laneStage 3 l.toNat)) = true) ∧
    (let l : TLane := 7; let s : State := { mln (up.setFld .tndStatState 7 2) (fun t => { t with paused := [(7, ())] }) with elapsed := msSpan 10 };
      s.lanes.paused.has l.toNat = true ∧ s.laneWaited 3 l.toNat (msSpan 10) = true ∧ s.laneState 3 l.toNat = 2) ∧
    (let l : Lane := 63; let s : State := (up.setFld .lnuStatState 63 2).setFld .lnuCtlIntf 63 2; s.laneState 2 (s.portOf l.toNat) = 2 ∧
      s.fld .lnuCtlIntf (s.portOf l.toNat) ≠ 0) ∧
    (let l : TLane := 7; let s : State := { (up.setFld .tndStatState 7 2).setFld .tndStatStage 7 3 with elapsed := msSpan 10 };
      s.laneState 3 l.toNat = 2 ∧ s.laneStage 3 l.toNat = 3 ∧ s.laneWaited 3 l.toNat (msSpan 10) = true) ∧
    (let s : State := { up with laosh := { up.laosh with linkUp := true } }; s.laosh.linkUp = true) ∧
    (let s : State := mln { up with laosh := { up.laosh with linkUp := false } } (fun t => { t with hostState := 2, hostStage := 2 });
      s.laosh.linkUp = false ∧ s.lanes.hostState = 2 ∧ s.lanes.hostStage ≠ 1) ∧
    (let which : BitVec 1 := 1; let s : State := { up.setFlag .tbStatRefHold 0 true with elapsed := msSpan 1 }; s.flag .tbStatRefHold 0 = true ∧
      s.pin .refclkUpl which.toNat = 1 ∧ s.laneWaited 7 which.toNat (msSpan 1) = true) := by
  refine ⟨?_, ?_, ?_, ?_, ?_, ?_, ?_, ?_, ?_, ?_, ?_, ?_, ?_⟩ <;> decide +kernel

/-- States and operands that meet the hypotheses of `Obligations.LaneInputsComplete`, clause by clause. -/
theorem wit_LaneInputsComplete :
    (let p : APath := .pcie; let f : BitVec 2 := 1; let i : BitVec 7 := 127; let s : State := claim up 5 .lnp; i.toNat < laneCount f.toNat ∧
      s.dieFused (laneDie f.toNat i.toNat) = false ∧ (f.toNat < 2 → s.expertBarred p (treeOfChan i.toNat) = false) ∧
      s.mayRwc p (laneDie f.toNat i.toNat) (laneBlk f.toNat) = true) ∧
    (let p : APath := .pcie; let f : BitVec 2 := 3; let i : BitVec 7 := 7; let s : State := claim up 7 .tnd; i.toNat < laneCount f.toNat ∧
      s.dieFused (laneDie f.toNat i.toNat) = false ∧ (f.toNat < 2 → s.expertBarred p (treeOfChan i.toNat) = false) ∧
      s.mayRwc p (laneDie f.toNat i.toNat) (laneBlk f.toNat) = true) ∧
    (let f : BitVec 2 := 1; let i : BitVec 7 := 127; let s : State := up.setReg .sysId 0 0x0064A100; s.dieFused (laneDie f.toNat i.toNat) = true) ∧
    (let p : APath := .pcie; let o : BitVec 3 := 7; let data : Word := 2; let s : State := claim up 7 .lnu; let w : Word := 2;
      writeWord .lnuMode (s.reg .lnuMode o.toNat) data (s.mayRwc p (dieOfLane (8 * o.toNat)) .lnu) = (w, false, false) ∧
      modeValid (fldOf .lnuModeOct800 w) (fldOf .lnuModeQuad0 w) (fldOf .lnuModeQuad1 w) (fldOf .lnuModeHalf50 w) = true ∧
      s.modeBusy o.toNat (fldOf .lnuModeOct800 w) (fldOf .lnuModeQuad0 w) (fldOf .lnuModeQuad1 w) (fldOf .lnuModeHalf50 w) = false) ∧
    (let l : TLane := 7; let s : State := (up.setFld .tndStatState 7 2).setFld .tndStatStage 7 4; s.laneState 3 l.toNat = 2 ∧
      s.laneStage 3 l.toNat = 4 ∧ Tbl.getD s.lanes.blockLock l.toNat .hunt = .hunt) ∧
    (let l : Lane := 63; let s : State := up.setFld .lnuStatState 63 3; s.laneState 2 (s.portOf l.toNat) = 3) ∧
    (let l : Lane := 63; let s : State := up.setFlag .lnuModeOct800 7 true; s.portOf l.toNat ≠ l.toNat) ∧
    (let l : Lane := 63; let s : State := up; s.portOf l.toNat = l.toNat) ∧
    (let ref : BitVec 3 := 6; ref.toNat = 6) ∧
    (let ref : BitVec 3 := 5; 4 ≤ ref.toNat ∧ ref.toNat < 6) ∧
    (let ref : BitVec 3 := 3; let s : State := up; ref.toNat < 4 ∧ (s.is064 = true → ref.toNat < 2)) ∧
    (let ref : BitVec 3 := 3; let s : State := up; ref.toNat < 4 ∧ (s.is064 = true → ref.toNat < 2)) ∧
    (let ref : BitVec 3 := 4; 4 ≤ ref.toNat ∧ ref.toNat < 6) := by
  refine ⟨?_, ?_, ?_, ?_, ?_, ?_, ?_, ?_, ?_, ?_, ?_, ?_, ?_⟩ <;> decide +kernel

/-- States and operands that meet the hypotheses of `Obligations.TreeCommandsComplete`, clause by clause. -/
theorem wit_TreeCommandsComplete :
    (let h : Hdr := hd 5; let tree : Word := 31; let offset : Word := 124999; let s : State := up;
      s.ready h 0x0300 (.owner (dieOfTree (tree.toNat % 32))) = true ∧ tree.toNat < 32 ∧ offset.toNat < 125000 ∧ s.treeBarred tree.toNat = false ∧
      s.claimed (dieOfTree tree.toNat) .pch = false ∧ s.launched tree.toNat = false ∧ s.launchPending tree.toNat = false) ∧
    (let h : Hdr := hd 5; let chan : Word := 127; let mode : Word := 1; let enable : Word := 1; let maxPli : Word := 16380; let ploamMax : Word := 8;
      let s : State := up; s.ready h 0x0301 (.owner (dieOfChan (chan.toNat % 128))) = true ∧ chan.toNat < 128 ∧ mode.toNat < 2 ∧ enable.toNat < 2 ∧
      pliOk maxPli.toNat = true ∧ 1 ≤ ploamMax.toNat ∧ ploamMax.toNat ≤ 8 ∧ s.treeBarred (treeOfChan chan.toNat) = false ∧
      s.claimed (dieOfChan chan.toNat) .pch = false ∧ (s.flag .pchCfgEnable chan.toNat = true → mode.toNat = s.fld .pchCfgMode chan.toNat)) ∧
    (let h : Hdr := hd 5; let tree : Word := 31; let unaligned : Word := 1; let s : State := up;
      s.ready h 0x0302 (.owner (dieOfTree (tree.toNat % 32))) = true ∧ tree.toNat < 32 ∧ unaligned.toNat < 2 ∧ s.treeBarred tree.toNat = false ∧
      s.claimed (dieOfTree tree.toNat) .pch = false ∧ s.launched tree.toNat = false ∧ s.launchPending tree.toNat = false ∧
      (s.flag .tbStatAligned 0 = true ∨ unaligned = 1)) ∧
    (let h : Hdr := hd 5; let tree : Word := 31; let s : State := up; s.ready h 0x0303 (.owner (dieOfTree (tree.toNat % 32))) = true ∧
      tree.toNat < 32 ∧ s.treeBarred tree.toNat = false ∧ s.claimed (dieOfTree tree.toNat) .pch = false) ∧
    (let h : Hdr := hd 2; let tree : Word := 0; let s : State := up; s.ready h 0x0304 (.owner (dieOfTree (tree.toNat % 32))) = true ∧
      tree.toNat < 32 ∧ s.treeBarred tree.toNat = false) ∧
    (let h : Hdr := hd 5; let chan : Word := 127; let delta : Word := 7; let alpha : Word := 15; let s : State := up;
      s.ready h 0x0305 (.owner (dieOfChan (chan.toNat % 128))) = true ∧ chan.toNat < 128 ∧ 1 ≤ delta.toNat ∧ delta.toNat ≤ 7 ∧ 1 ≤ alpha.toNat ∧
      alpha.toNat ≤ 15 ∧ s.treeBarred (treeOfChan chan.toNat) = false ∧ s.claimed (dieOfChan chan.toNat) .brx = false) := by
  refine ⟨?_, ?_, ?_, ?_, ?_, ?_⟩ <;> decide +kernel

/-- States and operands that meet the hypotheses of `Obligations.FrameEventsComplete`, clause by clause. -/
theorem wit_FrameEventsComplete :
    (let t : Tree := 31; let s : State := up.setFlag .pchTreePending 31 true; s.launchPending t.toNat = true ∧
      reached (s.nowOn (dieOfTree t.toNat)) (s.tree t.toNat).launchAt = true) ∧
    (let c : Chan := 3; let at_ : Nat := 5; let n : Nat := 9;
      let s : State := { (launch up 0).setChan 3 { chanDefault with startAt := some (5, 9) } with elapsed := 5 }; (s.chan c.toNat).startAt = some (at_, n) ∧
      at_ ≤ s.elapsed ∧ s.framing c.toNat = false ∧ s.launched (treeOfChan c.toNat) = true) ∧
    (let t : Tree := 31; let s : State := up.setTree 31 { up.tree 31 with stopping := true }; (s.tree t.toNat).stopping = true) ∧
    (let t : Tree := 31; let s : State := up; (s.tree t.toNat).stopping = false) ∧
    (let c : Chan := 3; let s : State := frameUp; s.framing c.toNat = true ∧ s.launched (treeOfChan c.toNat) = true ∧
      (s.chan c.toNat).stopping = false ∧ (s.tree (treeOfChan c.toNat)).stopping = false) ∧
    (let c : Chan := 3; let s : State := frameUp; s.framing c.toNat = true ∧ s.launched (treeOfChan c.toNat) = true ∧
      (s.chan c.toNat).stopping = false ∧ (s.tree (treeOfChan c.toNat)).stopping = false) ∧
    (let c : Chan := 3; let u : ToTc := sdu; let rest : List ToTc := [sdu]; let s : State := { frameUp with toTc := [(3, [sdu, sdu])] };
      Tbl.getD s.toTc c.toNat [] = u :: rest ∧ reached (s.nowOn (halfOfChan c.toNat)) u.at_ = true ∧ s.linkCut (dieOfChan c.toNat) = false ∧
      s.framing c.toNat = true ∧ s.tcBytes c.toNat + u.frame.len ≤ 65536) ∧
    (let t : Tree := 31; let n : Nat := 0; let k : Nat := 2; let s : State := switching; (s.bcastOf t.toNat).2 = some (n, k) ∧
      s.framesTo t.toNat n ≤ 0) ∧
    (let t : Tree := 31; let o : Onu := 20; let x : OnuSlot := keyed; let n : Nat := 0; let k : Nat := 2; let s : State := switching;
      s.onu o.toNat = some x ∧ x.keySwitch = some (n, k) ∧ x.tree = t.toNat ∧ s.framesTo t.toNat n ≤ 0) ∧
    (let t : Tree := 31; let s : State := { launch up 31 with elapsed := 2 * frameSpan - 1 };
      let n := if s.launchPending t.toNat then (s.tree t.toNat).launchCount else (s.treeCount t.toNat + 1) % 2 ^ 51; (s.launched t.toNat = true ∨ s.launchPending t.toNat = true) ∧
      (s.pon.calcs.find t.toNat).map (·.frame) ≠ some n ∧ s.lockstep t.toNat = false ∧
      (s.launchPending t.toNat = false → s.frameElapsed t.toNat n ≤ s.elapsed + usSpan (s.fld .gntTreeCfgCutoff t.toNat)) ∧
      (s.launchPending t.toNat = true → (s.tree t.toNat).noCutoff = false ∧
      reached (s.nowOn (dieOfTree t.toNat)) ((s.tree t.toNat).launchAt - usSpan (s.fld .gntTreeCfgCutoff t.toNat)) = true)) ∧
    (let t : Tree := 31; let s : State := { launch up 31 with elapsed := 2 * frameSpan - 1 }; s.nearFrame t.toNat (usSpan 2) = true) ∧
    (let o : Onu := 20; let x : OnuSlot := keying; let s : State := (oneOnu up 20 keying).setSeqState 16 2; s.onu o.toNat = some x ∧
      s.idleFor (dieOfTree x.tree) (x.tree % 8 / 4) = false) ∧
    (let o : Onu := 20; let x : OnuSlot := keying; let s : State := oneOnu up 20 keying; s.onu o.toNat = some x ∧
      s.idleFor (dieOfTree x.tree) (x.tree % 8 / 4) = true ∧ x.keyAsked = true ∧ s.treeBarred x.tree = false ∧
      s.slotHeld (.unicast (if x.keySlot = 1 then 2 else 1)) o.toNat (if x.keySlot = 1 then 2 else 1) = false ∧
      s.cipher.kekErased.has o.toNat = false ∧ s.tampered = false ∧ s.clusterOut (dieOfTree x.tree) = false ∧
      s.vaultRoom (halfOfTree x.tree) 1 false = true) := by
  refine ⟨?_, ?_, ?_, ?_, ?_, ?_, ?_, ?_, ?_, ?_, ?_, ?_, ?_⟩ <;> decide +kernel

/-- States and operands that meet the hypotheses of `Obligations.OnuCommandsComplete`, clause by clause. -/
theorem wit_OnuCommandsComplete :
    (let h : Hdr := hd 5; let onu : Word := 16383; let tree : Word := 31; let wl : Word := 3; let onuId : Word := 1022; let serialHi : Word := 0;
      let serialLo : Word := 0; let regId : List Word := List.replicate 9 5; let auto : Word := 1; let s : State := lit;
      s.ready h 0x0400 (.owner (dieOfTree (tree.toNat % 32))) = true ∧ onu.toNat < 16384 ∧ tree.toNat < 32 ∧ wl.toNat < 4 ∧ onuId.toNat < 1023 ∧
      (regId.length = 0 ∨ regId.length = 9) ∧ auto.toNat < 2 ∧
      s.prfValid (4 * tree.toNat + wl.toNat) (s.fld .actChCfgSnPrf (4 * tree.toNat + wl.toNat)) = true ∧ s.treeBarred tree.toNat = false ∧
      s.unclaimed (onuBlocks tree.toNat [.act, .gnt, .pch]) = true ∧ s.onu onu.toNat = none ∧
      (s.onusOf tree.toNat).any (fun p => p.2.serial = serialOf serialHi serialLo) = false ∧ s.ident tree.toNat 0 onuId.toNat = none ∧
      s.ident tree.toNat 1 onuId.toNat = none ∧ s.ident tree.toNat 2 onuId.toNat = none ∧ s.onuRoom tree.toNat = true ∧
      s.allocRoom tree.toNat = true ∧ s.portRoom tree.toNat = true) ∧
    (let h : Hdr := hd 5; let onu : Word := 0; let tree : Word := 31; let wl : Word := 3; let onuId : Word := 0; let serialHi : Word := 0;
      let serialLo : Word := 0; let regId : List Word := []; let auto : Word := 0; let s : State := lit;
      s.ready h 0x0400 (.owner (dieOfTree (tree.toNat % 32))) = true ∧ onu.toNat < 16384 ∧ tree.toNat < 32 ∧ wl.toNat < 4 ∧ onuId.toNat < 1023 ∧
      (regId.length = 0 ∨ regId.length = 9) ∧ auto.toNat < 2 ∧
      s.prfValid (4 * tree.toNat + wl.toNat) (s.fld .actChCfgSnPrf (4 * tree.toNat + wl.toNat)) = true ∧ s.treeBarred tree.toNat = false ∧
      s.unclaimed (onuBlocks tree.toNat [.act, .gnt, .pch]) = true ∧ s.onu onu.toNat = none ∧
      (s.onusOf tree.toNat).any (fun p => p.2.serial = serialOf serialHi serialLo) = false ∧ s.ident tree.toNat 0 onuId.toNat = none ∧
      s.ident tree.toNat 1 onuId.toNat = none ∧ s.ident tree.toNat 2 onuId.toNat = none ∧ s.onuRoom tree.toNat = true ∧
      s.allocRoom tree.toNat = true ∧ s.portRoom tree.toNat = true) ∧
    (let h : Hdr := hd 5; let onu : Word := 20; let x : OnuSlot := seen; let s : State := seenUp; s.ready h 0x0401 (s.onuRule onu.toNat) = true ∧
      s.onu onu.toNat = some x ∧ s.treeBarred x.tree = false ∧ s.claimed (dieOfTree x.tree) .act = false ∧ x.phase = .provisioned ∧
      x.seen.isSome = true) ∧
    (let h : Hdr := hd 5; let onu : Word := 20; let x : OnuSlot := inOp; let s : State := opUp; s.ready h 0x0402 (s.onuRule onu.toNat) = true ∧
      s.onu onu.toNat = some x ∧ s.treeBarred x.tree = false ∧ s.unclaimed (onuBlocks x.tree [.act, .kv]) = true ∧ x.migration = none ∧
      x.phase ≠ .provisioned ∧ x.phase ≠ .disabled) ∧
    (let h : Hdr := hd 5; let onu : Word := 20; let x : OnuSlot := inOp; let s : State := opUp; s.ready h 0x0403 (s.onuRule onu.toNat) = true ∧
      s.onu onu.toNat = some x ∧ s.treeBarred x.tree = false ∧ s.unclaimed (onuBlocks x.tree [.act, .gnt, .pch, .kv]) = true ∧ x.migration = none) ∧
    (let h : Hdr := hd 5; let onu : Word := 20; let tree : Word := 31; let x : OnuSlot := inOp; let s : State := opUp;
      s.ready h 0x0404 (s.disableRule onu tree) = true ∧ onu ≠ 0xFFFFFFFF ∧ s.onu onu.toNat = some x ∧ s.treeBarred x.tree = false ∧
      s.unclaimed (onuBlocks x.tree [.act, .kv]) = true) ∧
    (let h : Hdr := hd 5; let tree : Word := 31; let serialHi : Word := 0; let serialLo : Word := 77; let o : Nat := 20; let s : State := opUp;
      s.ready h 0x0404 (s.disableRule 0xFFFFFFFF tree) = true ∧ tree.toNat < 32 ∧ s.treeBarred tree.toNat = false ∧
      s.unclaimed (onuBlocks tree.toNat [.act, .kv]) = true ∧ s.bySerial tree.toNat (serialOf serialHi serialLo) = some o) ∧
    (let h : Hdr := hd 5; let tree : Word := 31; let serialHi : Word := 0; let serialLo : Word := 78;
      let s : State := mpon opUp (fun p => { p with disabled := [(31, List.range 63)] }); s.ready h 0x0404 (s.disableRule 0xFFFFFFFF tree) = true ∧
      tree.toNat < 32 ∧ s.treeBarred tree.toNat = false ∧ s.unclaimed (onuBlocks tree.toNat [.act, .kv]) = true ∧
      s.bySerial tree.toNat (serialOf serialHi serialLo) = none ∧ (s.disabledList tree.toNat).contains (serialOf serialHi serialLo) = false ∧
      (s.disabledList tree.toNat).length < 64) ∧
    (let h : Hdr := hd 5; let onu : Word := 20; let tree : Word := 31; let x : OnuSlot := { inOp with phase := .disabled };
      let s : State := oneOnu up 20 x; s.ready h 0x0405 (s.disableRule onu tree) = true ∧ onu ≠ 0xFFFFFFFF ∧ s.onu onu.toNat = some x ∧
      s.treeBarred x.tree = false ∧ s.claimed (dieOfTree x.tree) .act = false) ∧
    (let h : Hdr := hd 5; let tree : Word := 31; let s : State := up; s.ready h 0x0405 (s.disableRule 0xFFFFFFFF tree) = true ∧ tree.toNat < 32 ∧
      s.treeBarred tree.toNat = false ∧ s.claimed (dieOfTree tree.toNat) .act = false) ∧
    (let t : Nat := 31; let serial : Nat := 78; let s : State := mpon opUp (fun p => { p with disabled := [(31, [78])] });
      (s.disabledList t).contains serial = true) := by
  refine ⟨?_, ?_, ?_, ?_, ?_, ?_, ?_, ?_, ?_, ?_, ?_⟩ <;> decide +kernel

/-- States and operands that meet the hypotheses of `Obligations.OnuServiceCommandsComplete`, clause by clause. -/
theorem wit_OnuServiceCommandsComplete :
    (let h : Hdr := hd 5; let onu : Word := 20; let target : Word := 124; let x : OnuSlot := inOp; let s : State := launch opUp 31;
      s.ready h 0x0406 (s.onuRule onu.toNat) = true ∧ s.onu onu.toNat = some x ∧ s.treeBarred x.tree = false ∧
      s.claimed (dieOfTree x.tree) .act = false ∧ target.toNat < 128 ∧ target.toNat ≠ x.chan ∧ treeOfChan target.toNat = x.tree ∧ x.migration = none ∧
      x.phase = .operation ∧ s.launched x.tree = true ∧ s.launchPending x.tree = false ∧ s.skeinOnus.has onu.toNat = false) ∧
    (let h : Hdr := hd 5; let onu : Word := 20; let port : Word := 65534; let kind : Word := 2; let dir : Word := 0; let x : OnuSlot := inOp;
      let s : State := opUp; s.ready h 0x0407 (s.onuRule onu.toNat) = true ∧ s.onu onu.toNat = some x ∧ s.treeBarred x.tree = false ∧
      s.unclaimed (onuBlocks x.tree [.act, .pch]) = true ∧ port.toNat < 65535 ∧ kind.toNat < 3 ∧ dir.toNat < 3 ∧ (¬(kind = 2 ∧ dir ≠ 0)) ∧
      s.ident x.tree 2 port.toNat = none ∧ s.portRoom x.tree = true) ∧
    (let h : Hdr := hd 5; let onu : Word := 20; let port : Word := 0; let kind : Word := 1; let dir : Word := 2; let x : OnuSlot := inOp;
      let s : State := opUp; s.ready h 0x0407 (s.onuRule onu.toNat) = true ∧ s.onu onu.toNat = some x ∧ s.treeBarred x.tree = false ∧
      s.unclaimed (onuBlocks x.tree [.act, .pch]) = true ∧ port.toNat < 65535 ∧ kind.toNat < 3 ∧ dir.toNat < 3 ∧ (¬(kind = 2 ∧ dir ≠ 0)) ∧
      s.ident x.tree 2 port.toNat = none ∧ s.portRoom x.tree = true) ∧
    (let h : Hdr := hd 5; let onu : Word := 20; let port : Word := 65534; let kind : Word := 0; let dir : Word := 2; let x : OnuSlot := inOp;
      let s : State := opUp.setIdent 31 2 65534 (some (.bound 20)); s.ready h 0x0407 (s.onuRule onu.toNat) = true ∧ s.onu onu.toNat = some x ∧
      s.treeBarred x.tree = false ∧ s.unclaimed (onuBlocks x.tree [.act, .pch]) = true ∧ port.toNat < 65535 ∧ kind.toNat < 3 ∧ dir.toNat < 3 ∧
      (¬(kind = 2 ∧ dir ≠ 0)) ∧ s.ident x.tree 2 port.toNat = some (.bound onu.toNat) ∧ port.toNat ≠ x.onuId) ∧
    (let h : Hdr := hd 5; let onu : Word := 20; let port : Word := 65534; let x : OnuSlot := inOp;
      let s : State := opUp.setIdent 31 2 65534 (some (.bound 20)); s.ready h 0x0408 (s.onuRule onu.toNat) = true ∧ s.onu onu.toNat = some x ∧
      s.treeBarred x.tree = false ∧ s.unclaimed (onuBlocks x.tree [.act, .pch]) = true ∧ port.toNat < 65535 ∧ port.toNat ≠ x.onuId ∧
      s.resting x.tree 2 port.toNat = false ∧ s.holder x.tree 2 port.toNat = some onu.toNat) ∧
    (let h : Hdr := hd 5; let onu : Word := 20; let x : OnuSlot := inOp; let s : State := opUp; s.ready h 0x0409 (s.onuRule onu.toNat) = true ∧
      s.onu onu.toNat = some x ∧ s.treeBarred x.tree = false ∧ s.claimed (dieOfTree x.tree) .act = false ∧ s.cipher.kekErased.has onu.toNat = false ∧
      x.phase = .operation ∧ x.rekey = none ∧ x.keySwitch = none ∧ (s.start (callerOf h 0x0409)).asyncFull = false) ∧
    (let h : Hdr := hd 5; let onu : Word := 16383; let x : OnuSlot := inOp; let s : State := oneOnu up 16383 inOp;
      s.ready h 0x040A (s.onuRule onu.toNat) = true ∧ onu.toNat < 16384 ∧ s.onu onu.toNat = some x) ∧
    (let h : Hdr := hd 5; let tree : Word := 31; let kind : Word := 1; let value : Word := 16383; let o : Nat := 20;
      let s : State := opUp.setIdent 31 1 16383 (some (.bound 20)); s.ready h 0x040B (.owner (dieOfTree (tree.toNat % 32))) = true ∧ tree.toNat < 32 ∧
      kind.toNat < 3 ∧ value.toNat ≤ (if kind = 0 then 1022 else if kind = 1 then 16383 else 65534) ∧
      s.ident tree.toNat kind.toNat value.toNat = some (.bound o)) ∧
    (let h : Hdr := hd 5; let tree : Word := 31; let kind : Word := 0; let value : Word := 1022; let s : State := up;
      s.ready h 0x040B (.owner (dieOfTree (tree.toNat % 32))) = true ∧ tree.toNat < 32 ∧ kind.toNat < 3 ∧
      value.toNat ≤ (if kind = 0 then 1022 else if kind = 1 then 16383 else 65534) ∧ s.ident tree.toNat kind.toNat value.toNat = none) ∧
    (let h : Hdr := hd 5; let tree : Word := 31; let kind : Word := 2; let value : Word := 65534; let t : Nat := 9;
      let s : State := up.setIdent 31 2 65534 (some (.resting 9)); s.ready h 0x040B (.owner (dieOfTree (tree.toNat % 32))) = true ∧ tree.toNat < 32 ∧
      kind.toNat < 3 ∧ value.toNat ≤ (if kind = 0 then 1022 else if kind = 1 then 16383 else 65534) ∧
      s.ident tree.toNat kind.toNat value.toNat = some (.resting t)) ∧
    (let h : Hdr := hd 5; let chan : Word := 127; let onus : List Word := List.replicate 64 20; let s : State := opUp;
      s.ready h 0x040C (.owner (dieOfChan (chan.toNat % 128))) = true ∧ chan.toNat < 128 ∧ onus.length ≤ 64 ∧
      onus.any (fun o => (s.onu o.toNat).isNone) = false ∧ s.treeBarred (treeOfChan chan.toNat) = false ∧
      s.unclaimed (onuBlocks (treeOfChan chan.toNat) [.act, .kv]) = true ∧ s.pon.scans.has chan.toNat = false ∧
      (s.start (callerOf h 0x040C)).asyncFull = false) ∧
    (let h : Hdr := hd 5; let tree : Word := 31; let minReach : Word := 400; let maxReach : Word := 400; let rdr : Word := 255;
      let lobThr : Word := 15; let regTo : Word := 255; let keyTo : Word := 255; let lostMs : Word := 65535; let s : State := up;
      s.ready h 0x030A (.owner (dieOfTree (tree.toNat % 32))) = true ∧ tree.toNat < 32 ∧ maxReach.toNat ≤ 400 ∧ minReach.toNat ≤ maxReach.toNat ∧
      rdr.toNat < 256 ∧ 1 ≤ lobThr.toNat ∧ lobThr.toNat ≤ 15 ∧ 1 ≤ regTo.toNat ∧ regTo.toNat ≤ 255 ∧ 1 ≤ keyTo.toNat ∧ keyTo.toNat ≤ 255 ∧
      1 ≤ lostMs.toNat ∧ lostMs.toNat ≤ 65535 ∧ s.treeBarred tree.toNat = false ∧ s.claimed (dieOfTree tree.toNat) .act = false ∧
      s.launched tree.toNat = false ∧ s.launchPending tree.toNat = false) ∧
    (let h : Hdr := hd 5; let chan : Word := 127; let snEn : Word := 1; let snIvl : Word := 65535; let profile : Word := 3; let rogueThr : Word := 8;
      let s : State := lit; s.ready h 0x030B (.owner (dieOfChan (chan.toNat % 128))) = true ∧ chan.toNat < 128 ∧ snEn.toNat < 2 ∧ 1 ≤ snIvl.toNat ∧
      snIvl.toNat ≤ 65535 ∧ profile.toNat < 4 ∧ rogueThr.toNat ≤ 8 ∧ s.prfValid chan.toNat profile.toNat = true ∧
      s.treeBarred (treeOfChan chan.toNat) = false ∧ s.claimed (dieOfChan chan.toNat) .act = false) ∧
    (let h : Hdr := hd 5; let tree : Word := 31; let s : State := up; s.ready h 0x030C (.owner (dieOfTree (tree.toNat % 32))) = true ∧
      tree.toNat < 32 ∧ s.treeBarred tree.toNat = false) := by
  refine ⟨?_, ?_, ?_, ?_, ?_, ?_, ?_, ?_, ?_, ?_, ?_, ?_, ?_, ?_⟩ <;> decide +kernel

/-- States and operands that meet the hypotheses of `Obligations.ActivationEventsComplete`, clause by clause. -/
theorem wit_ActivationEventsComplete :
    (let c : Chan := 127; let caller : Caller := cal; let o : Nat := 20; let n : Nat := 3; let since : Nat := 0; let rest : List Nat := [];
      let done : List (Nat × Nat) := [];
      let s : State := { mpon opUp (fun p => { p with scans := [(127, ⟨cal, [20], 3, [], 0⟩)] }) with elapsed := 8 * frameSpan }; s.pon.scans.find c.toNat = some ⟨caller, o :: rest, n, done, since⟩ ∧
      since + 8 * frameSpan ≤ s.elapsed) ∧
    (let c : Chan := 127; let lit : BitVec 16 := 63; let s : State := up.setFld .actChCfgRogueThr 127 0; s.pon.scans.find c.toNat = none ∧
      lit.toNat < 64 ∧ (Tbl.getD s.pon.rogue c.toNat ([], false)).2 = false ∧ s.fld .actChCfgRogueThr c.toNat = 0) ∧
    (let c : Chan := 127; let lit : BitVec 16 := 64; let s : State := up.setFld .actChCfgRogueThr 127 1;
      let hist := fun (s : State) (c : Chan) => (true :: (Tbl.getD s.pon.rogue c.toNat ([], false)).1).take 8; s.pon.scans.find c.toNat = none ∧
      64 ≤ lit.toNat ∧ (Tbl.getD s.pon.rogue c.toNat ([], false)).2 = false ∧ 0 < s.fld .actChCfgRogueThr c.toNat ∧
      s.fld .actChCfgRogueThr c.toNat ≤ (hist s c).count true) ∧
    (let c : Chan := 127; let s : State := launch (up.setFlag .actChCfgSnEn 127 true) 31; s.flag .actChCfgSnEn c.toNat = true ∧
      s.launched (treeOfChan c.toNat) = true ∧ s.snDue c.toNat = true) ∧
    (let c : Chan := 127; let arrival : BitVec 32 := 9; let w : Window := snWin;
      let s : State := { (snUp.setLane 1 127 3 0).setSeqState 16 2 with elapsed := secUnit }; let t := treeOfChan c.toNat;
      let v := s.resetAfter c.toNat w arrival.toNat; s.snWindow c.toNat = some w ∧ s.receives c.toNat = true ∧ v.treeBarred t = false ∧
      v.idleFor (dieOfTree t) (t % 8 / 4) = false) ∧
    (let c : Chan := 127; let serial : BitVec 64 := 5; let arrival : BitVec 32 := 9; let w : Window := snWin;
      let s : State := { snUp.setLane 1 127 3 0 with elapsed := secUnit }; let t := treeOfChan c.toNat; let v := s.resetAfter c.toNat w arrival.toNat;
      s.snWindow c.toNat = some w ∧ s.receives c.toNat = true ∧ v.treeBarred t = false ∧ v.idleFor (dieOfTree t) (t % 8 / 4) = true ∧
      (v.disabledList t).contains serial.toNat = false ∧ v.bySerial t serial.toNat = none) ∧
    (let c : Chan := 127; let serial : BitVec 64 := 77; let arrival : BitVec 32 := 9; let w : Window := snWin; let o : Nat := 20;
      let y : OnuSlot := seen; let s : State := { oneOnu (snUp.setLane 1 127 3 0) 20 seen with elapsed := secUnit }; let t := treeOfChan c.toNat;
      let u := s.resetAfter c.toNat w arrival.toNat; s.snWindow c.toNat = some w ∧ s.receives c.toNat = true ∧ u.treeBarred t = false ∧
      u.idleFor (dieOfTree t) (t % 8 / 4) = true ∧ (u.disabledList t).contains serial.toNat = false ∧ u.bySerial t serial.toNat = some o ∧
      u.onu o = some y ∧ y.phase = .provisioned) ∧
    (let c : Chan := 127; let w : Window := snWin; let s : State := { snUp.setLane 1 127 3 0 with elapsed := secUnit }; s.snWindow c.toNat = some w ∧
      s.receives c.toNat = true) ∧
    (let onu : Onu := 20; let arrival : BitVec 32 := 582720; let x : OnuSlot := ranging; let w : Window := rgWin;
      let s : State := (rangingUp.setLane 1 127 3 0).setSeqState 16 2; let u := s.resetAfter x.chan w arrival.toNat; s.onu onu.toNat = some x ∧
      s.rangingWindow onu.toNat = some w ∧ x.phase = .ranging ∧ s.treeBarred x.tree = false ∧ s.receives x.chan = true ∧
      u.idleFor (dieOfTree x.tree) (x.tree % 8 / 4) = false) ∧
    (let onu : Onu := 20; let arrival : BitVec 32 := 582720; let x : OnuSlot := ranging; let w : Window := rgWin;
      let s : State := rangingUp.setLane 1 127 3 0; let rt := roundTrip (s.quanta x.chan) w.start arrival.toNat;
      let u := s.resetAfter x.chan w arrival.toNat; let y : OnuSlot := ranging;
      let lo := (u.rtd y.chan (u.fld .actTreeCfgMinReach y.tree) : Int) * 16 - 16000;
      let hi := (u.rtd y.chan (u.fld .actTreeCfgMaxReach y.tree) : Int) * 16 + 16000; s.onu onu.toNat = some x ∧ s.rangingWindow onu.toNat = some w ∧
      x.phase = .ranging ∧ s.treeBarred x.tree = false ∧ s.receives x.chan = true ∧ u.idleFor (dieOfTree x.tree) (x.tree % 8 / 4) = true ∧
      u.onu onu.toNat = some y ∧ y.phase = .ranging ∧ lo ≤ rt ∧ rt ≤ hi) ∧
    (let onu : Onu := 20; let arrival : BitVec 32 := 0xFFFFFFFF; let x : OnuSlot := ranging; let w : Window := rgWin;
      let s : State := rangingUp.setLane 1 127 3 0; let rt := roundTrip (s.quanta x.chan) w.start arrival.toNat;
      let u := s.resetAfter x.chan w arrival.toNat; let y : OnuSlot := ranging;
      let lo := (u.rtd y.chan (u.fld .actTreeCfgMinReach y.tree) : Int) * 16 - 16000;
      let hi := (u.rtd y.chan (u.fld .actTreeCfgMaxReach y.tree) : Int) * 16 + 16000; s.onu onu.toNat = some x ∧ s.rangingWindow onu.toNat = some w ∧
      x.phase = .ranging ∧ s.treeBarred x.tree = false ∧ s.receives x.chan = true ∧ u.idleFor (dieOfTree x.tree) (x.tree % 8 / 4) = true ∧
      u.onu onu.toNat = some y ∧ y.phase = .ranging ∧ (rt < lo ∨ hi < rt)) ∧
    (let onu : Onu := 20; let x : OnuSlot := ranging; let w : Window := rgWin; let s : State := rangingUp; s.onu onu.toNat = some x ∧
      s.rangingWindow onu.toNat = some w ∧ x.phase = .ranging ∧ s.treeBarred x.tree = false) ∧
    (let onu : Onu := 20; let x : OnuSlot := { inOp with phase := .registering }; let s : State := oneOnu up 20 x; s.onu onu.toNat = some x ∧
      x.phase = .registering ∧ s.treeBarred x.tree = false) ∧
    (let onu : Onu := 20; let x : OnuSlot := { inOp with phase := .registering }; let s : State := { oneOnu up 20 x with elapsed := 255 * frameSpan };
      s.onu onu.toNat = some x ∧ x.phase = .registering ∧ s.treeBarred x.tree = false ∧
      x.since + s.fld .actTreeTmrRegTo x.tree * frameSpan ≤ s.elapsed) ∧
    (let onu : Onu := 20; let x : OnuSlot := keying; let s : State := { oneOnu up 20 x with elapsed := 255 * frameSpan }; s.onu onu.toNat = some x ∧
      x.keyAsked = true ∧ s.treeBarred x.tree = false ∧ x.asked + s.fld .actTreeTmrKeyTo x.tree * frameSpan ≤ s.elapsed) ∧
    (let onu : Onu := 20; let x : OnuSlot := { inOp with phase := .lost }; let s : State := { oneOnu up 20 x with elapsed := msSpan 65535 };
      s.onu onu.toNat = some x ∧ x.phase = .lost ∧ s.treeBarred x.tree = false ∧ x.since + msSpan (s.fld .actTreeTmrLostMs x.tree) ≤ s.elapsed) ∧
    (let t : Tree := 31; let kind : BitVec 2 := 2; let value : BitVec 16 := 65535; let u : Nat := 9;
      let s : State := { up.setIdent 31 2 65535 (some (.resting 9)) with elapsed := 9 }; s.ident t.toNat kind.toNat value.toNat = some (.resting u) ∧
      u ≤ s.elapsed) ∧
    (let onu : Onu := 20; let x : OnuSlot := moving (some 124) false; let m : Migration := ⟨some 124, 0, 5, 0, false⟩; let c : Nat := 124;
      let s : State := { oneOnu up 20 x with elapsed := 5 }; s.onu onu.toNat = some x ∧ x.migration = some m ∧ m.fenced = false ∧
      m.fence ≤ s.elapsed ∧ m.target = some c) ∧
    (let onu : Onu := 20; let x : OnuSlot := moving none false; let m : Migration := ⟨none, 0, 5, 0, false⟩;
      let s : State := { oneOnu up 20 x with elapsed := 5 }; s.onu onu.toNat = some x ∧ x.migration = some m ∧ m.fenced = false ∧
      m.fence ≤ s.elapsed ∧ m.target = none) ∧
    (let onu : Onu := 20; let x : OnuSlot := moving none true; let m : Migration := ⟨none, 0, 5, 0, true⟩; let s : State := oneOnu up 20 x;
      s.onu onu.toNat = some x ∧ x.migration = some m ∧ m.fenced = true ∧ s.frameElapsed x.tree m.frameK ≤ s.elapsed) := by
  refine ⟨?_, ?_, ?_, ?_, ?_, ?_, ?_, ?_, ?_, ?_, ?_, ?_, ?_, ?_, ?_, ?_, ?_, ?_, ?_, ?_⟩ <;> decide +kernel

/-- States and operands that meet the hypotheses of `Obligations.GrantCommandsComplete`, clause by clause. -/
theorem wit_GrantCommandsComplete :
    (let h : Hdr := hd 5; let chan : Word := 127; let enable : Word := 1; let guard : Word := 255; let admPct : Word := 100;
      let ploamIvl : Word := 255; let s : State := up; s.ready h 0x0500 (.owner (dieOfChan (chan.toNat % 128))) = true ∧ chan.toNat < 128 ∧
      enable.toNat < 2 ∧ 4 ≤ guard.toNat ∧ guard.toNat ≤ 255 ∧ 10 ≤ admPct.toNat ∧ admPct.toNat ≤ 100 ∧ ploamIvl.toNat ≤ 255 ∧
      s.treeBarred (treeOfChan chan.toNat) = false ∧ s.claimed (dieOfChan chan.toNat) .gnt = false) ∧
    (let h : Hdr := hd 5; let tree : Word := 31; let cutoff : Word := 120; let coopEn : Word := 1; let s : State := up;
      s.ready h 0x0501 (.owner (dieOfTree (tree.toNat % 32))) = true ∧ tree.toNat < 32 ∧ 16 ≤ cutoff.toNat ∧ cutoff.toNat ≤ 120 ∧ coopEn.toNat < 2 ∧
      s.treeBarred tree.toNat = false ∧ s.claimed (dieOfTree tree.toNat) .gnt = false) ∧
    (let h : Hdr := hd 5; let onu : Word := 20; let allocId : Word := 16383; let p : AllocWords := allocW; let k : Nat := recKey 5 1;
      let x : OnuSlot := inOp; let s : State := recUp; let r := s.freshTags ((newRec x.tree onu.toNat allocId.toNat p.profile.toNat).withWords p);
      s.ready h 0x0502 (s.onuRule onu.toNat) = true ∧ s.onu onu.toNat = some x ∧ s.treeBarred x.tree = false ∧
      s.unclaimed (onuBlocks x.tree [.gnt]) = true ∧ allocId.toNat < 16384 ∧ allocWordsOk p = true ∧ s.prfValid x.chan p.profile.toNat = true ∧
      s.ident x.tree 1 allocId.toNat = none ∧ s.freeRec (dieOfTree x.tree) = some k ∧ s.allocRoom x.tree = true ∧ s.admits k r = true) ∧
    (let h : Hdr := hd 5; let onu : Word := 20; let allocId : Word := 16383; let p : AllocWords := { allocW with fixed := 777600 };
      let k : Nat := recKey 5 1; let x : OnuSlot := inOp; let s : State := recUp.setFld .gntChCfgAdmPct 127 10;
      s.ready h 0x0502 (s.onuRule onu.toNat) = true ∧ s.onu onu.toNat = some x ∧ s.treeBarred x.tree = false ∧
      s.unclaimed (onuBlocks x.tree [.gnt]) = true ∧ allocId.toNat < 16384 ∧ allocWordsOk p = true ∧ s.prfValid x.chan p.profile.toNat = true ∧
      s.ident x.tree 1 allocId.toNat = none ∧ s.freeRec (dieOfTree x.tree) = some k ∧
      s.admits k (s.freshTags ((newRec x.tree onu.toNat allocId.toNat p.profile.toNat).withWords p)) = false) ∧
    (let h : Hdr := hd 5; let onu : Word := 20; let allocId : Word := 16383; let p : AllocWords := allocW; let o : Nat := 20; let x : OnuSlot := inOp;
      let s : State := recUp.setIdent 31 1 16383 (some (.bound 20)); s.ready h 0x0502 (s.onuRule onu.toNat) = true ∧ s.onu onu.toNat = some x ∧
      s.treeBarred x.tree = false ∧ s.unclaimed (onuBlocks x.tree [.gnt]) = true ∧ allocId.toNat < 16384 ∧ allocWordsOk p = true ∧
      s.prfValid x.chan p.profile.toNat = true ∧ s.ident x.tree 1 allocId.toNat = some (.bound o)) ∧
    (let h : Hdr := hd 5; let onu : Word := 20; let allocId : Word := 16383; let x : OnuSlot := inOp;
      let s : State := opUp.setIdent 31 1 16383 (some (.bound 20)); s.ready h 0x0503 (s.onuRule onu.toNat) = true ∧ s.onu onu.toNat = some x ∧
      s.treeBarred x.tree = false ∧ s.unclaimed (onuBlocks x.tree [.gnt]) = true ∧ allocId.toNat < 16384 ∧ allocId.toNat ≠ x.onuId ∧
      s.resting x.tree 1 allocId.toNat = false ∧ s.holder x.tree 1 allocId.toNat = some onu.toNat) ∧
    (let h : Hdr := hd 5; let onu : Word := 20; let allocId : Word := 1000; let x : OnuSlot := inOp; let k : Nat := recKey 5 0;
      let r : AllocRec := newRec 31 20 1000 3; let s : State := recUp; s.ready h 0x0504 (s.onuRule onu.toNat) = true ∧ s.onu onu.toNat = some x ∧
      s.recOf x.tree allocId.toNat = some (k, r) ∧ r.onu = onu.toNat) ∧
    (let h : Hdr := hd 5; let record : Word := 0; let sHi : Word := 0; let frames : Word := 65535; let pin : Word := 0xFFFF;
      let r : AllocRec := newRec 31 20 1000 3; let k : Nat := 12288; let s : State := recUp; s.ready h 0x0505 (.oneOf [2, 3, 4, 5]) = true ∧
      s.pon.allocs.find (recKey h.die.toNat record.toNat) = some r ∧ record.toNat < 16384 ∧ 1 ≤ frames.toNat ∧ frames.toNat ≤ 65535 ∧
      sHi.toNat < 2 ^ 19 ∧ (pin = 0xFFFF ∨ pin.toNat < s.quanta (s.recChan r)) ∧ s.treeBarred r.tree = false ∧ s.claimed (h.die.toNat) .gnt = false ∧
      s.hintPlace h.die.toNat = some k) ∧
    (let h : Hdr := hd 5; let handle : Word := 12288; let x : Hint := hint0; let r : AllocRec := newRec 31 20 1000 3; let s : State := hintUp;
      s.ready h 0x0506 (.owner (2 + handle.toNat / 4096)) = true ∧ s.pon.hints.find handle.toNat = some x ∧ s.pon.allocs.find x.rec_ = some r ∧
      s.treeBarred r.tree = false ∧ s.claimed (dieOfTree r.tree) .gnt = false) ∧
    (let h : Hdr := hd 5; let ports : List Word := [63]; let udp : Word := 65535; let sources : List (BitVec 128) := List.replicate 16 7;
      let pairs : List (Word × Word × Word) := [(0xFFFFFFFF, 6, 16383)]; let s : State := up; s.ready h 0x0507 (.oneOf [2, 3, 4, 5]) = true ∧
      ports.any (fun p => 63 < p.toNat || s.portOf p.toNat ≠ p.toNat) = false ∧ udp.toNat ≤ 65535 ∧ sources.length ≤ 16 ∧
      pairs.any (fun p => 16383 < p.2.2.toNat) = false ∧ s.claimed (h.die.toNat) .gnt = false ∧
      (pairs.foldl (fun t p => Tbl.put t (p.1.toNat * 2 ^ 32 + p.2.1.toNat) (recKey h.die.toNat p.2.2.toNat)) (s.pon.cti.pairs.filter (fun p => p.2 / 16384 + 2 ≠ h.die.toNat))).length ≤ 4096) ∧
    (let h : Hdr := hd 5; let onu : Word := 20; let sHi : Word := 0; let count : Word := 255; let x : OnuSlot := inOp; let s : State := opUp;
      s.ready h 0x0508 (s.onuRule onu.toNat) = true ∧ s.onu onu.toNat = some x ∧ 1 ≤ count.toNat ∧ count.toNat ≤ 255 ∧ sHi.toNat < 2 ^ 19 ∧
      s.treeBarred x.tree = false ∧ s.claimed (dieOfTree x.tree) .gnt = false ∧ (s.arms x.chan).length < 8) ∧
    (let h : Hdr := hd 5; let chan : Word := 127; let s : State := up; s.ready h 0x0509 (.owner (dieOfChan (chan.toNat % 128))) = true ∧
      chan.toNat < 128) ∧
    (let h : Hdr := hd 5; let chan : Word := 127; let s : State := up; s.ready h 0x050A (.owner (dieOfChan (chan.toNat % 128))) = true ∧
      chan.toNat < 128) := by
  refine ⟨?_, ?_, ?_, ?_, ?_, ?_, ?_, ?_, ?_, ?_, ?_, ?_, ?_⟩ <;> decide +kernel

/-- States and operands that meet the hypotheses of `Obligations.GrantEventsComplete`, clause by clause. -/
theorem wit_GrantEventsComplete :
    (let port : Lane := 63; let udp : BitVec 16 := 65535; let source : BitVec 128 := 9; let entity : Word := 5; let flow : Word := 6;
      let length : Word := 1; let k : Nat := recKey 5 0; let p : Nat := 12288; let r : AllocRec := newRec 31 20 1000 3;
      let s : State := { portUp63 with pon := ctiUp.pon }.setFlag .gntTreeCfgCoopEn 31 true; s.lineRx (s.portOf port.toNat) = true ∧
      s.pon.cti.ports.contains (s.portOf port.toNat) = true ∧ s.pon.cti.udp = udp.toNat ∧
      s.pon.cti.pairs.find (entity.toNat * 2 ^ 32 + flow.toNat) = some k ∧ s.pon.allocs.find k = some r ∧
      s.pon.cti.sources.contains source.toNat = true ∧ length ≠ 0 ∧ s.flag .gntTreeCfgCoopEn r.tree = true ∧ s.treeBarred r.tree = false ∧
      s.hintPlace (k / 16384 + 2) = some p) ∧
    (let port : Lane := 63; let udp : BitVec 16 := 65535; let entity : Word := 0; let flow : Word := 0;
      let s : State := { portUp63 with pon := ctiUp.pon }.setFlag .gntTreeCfgCoopEn 31 true; s.lineRx (s.portOf port.toNat) = true ∧
      s.pon.cti.ports.contains (s.portOf port.toNat) = true ∧ s.pon.cti.udp = udp.toNat ∧
      s.pon.cti.pairs.find (entity.toNat * 2 ^ 32 + flow.toNat) = none) ∧
    (let die : BitVec 2 := 3; let index : BitVec 14 := 0; let r : AllocRec := newRec 31 20 1000 3; let s : State := recUp;
      s.pon.allocs.find (recKey (2 + die.toNat) index.toNat) = some r ∧ s.protected r.tree = false ∧ s.mirrors r.tree = false ∧
      s.treeBarred r.tree = false) ∧
    (let t : Tree := 31; let n : Nat := 7; let snap : List GChan := []; let s : State := burstUp; s.pon.calcs.find t.toNat = some ⟨n, snap, none⟩) ∧
    (let c : Chan := 127; let burst : BitVec 10 := 0; let e : Expect := { expect0 with frame := 0 }; let s : State := one { expect0 with frame := 0 };
      let fall := s.quantumTime c.toNat e.frame e.first - step02 (s.fld .gntPinCfgRstLead c.toNat);
      let prev := (((s.expects c.toNat).take burst.toNat).map (fun p => s.quantumTime c.toNat p.frame p.last)).foldl max e.after; (s.expects c.toNat)[burst.toNat]? = some e ∧
      e.rstSent = false ∧ s.windowOfBurst c.toNat e = none ∧ shortReached (s.nowOn (dieOfChan c.toNat)) (shortOf (max prev fall).toNat) = true) ∧
    (let c : Chan := 127; let burst : BitVec 10 := 0; let e : Expect := { expect0 with frame := 3, onu := none, window := true };
      let w : Window := snWin; let s : State := (one { expect0 with frame := 3, onu := none, window := true }).setWindows 127 [snWin];
      let opens := (s.quantumTime c.toNat ((w.frame + 2 ^ 51 - w.j) % 2 ^ 51) 0).toNat; (s.expects c.toNat)[burst.toNat]? = some e ∧
      e.rstSent = false ∧ s.windowOfBurst c.toNat e = some w ∧ shortReached (s.nowOn (dieOfChan c.toNat)) (shortOf opens) = true) ∧
    (let c : Chan := 127; let burst : BitVec 10 := 0; let e : Expect := { expect0 with frame := 0 }; let s : State := one { expect0 with frame := 0 };
      let rise := (s.quantumTime c.toNat e.frame e.first + step02 (s.fld .gntPinCfgRssiOfs c.toNat)).toNat; (s.expects c.toNat)[burst.toNat]? = some e ∧
      e.rssi = true ∧ e.rssiSent = false ∧ s.fld .gntPinCfgRssiWidth c.toNat ≠ 0 ∧ shortReached (s.nowOn (dieOfChan c.toNat)) (shortOf rise) = true) ∧
    (let data : Word := 0; data.getLsbD 0 = false) ∧
    (let p : APath := .pcie; let die : BitVec 2 := 3; let data : Word := 1; let a : AllocRec := newRec 31 20 1000 3; let x : OnuSlot := inOp;
      let s : State := recUp.setReg .gntAlcCfg 0 0; let d := 2 + die.toNat; let k := recKey d (s.sel .alcsel d (apathCode p) % 16384);
      let fld := fun (f : Fld) => fieldOf f.lo f.w (s.alcWord p d f.reg); let r := a.withWords (s.stagedAlloc p d); data.getLsbD 0 = true ∧
      s.pon.allocs.find k = some a ∧ fld .gntAlcCfgValid ≠ 0 ∧ fld .gntAlcIdOnu = a.onu ∧ fld .gntAlcIdAllocId = a.allocId ∧ s.onu a.onu = some x ∧
      x.tree = a.tree ∧ x.onuId ≠ a.allocId ∧ dieOfTree a.tree = d ∧ s.expertBarred p a.tree = false ∧ r.band = a.band ∧
      s.prfValid (s.recChan r) r.profile = true ∧ s.admits k r = true) ∧
    (let p : APath := .pcie; let die : BitVec 2 := 3; let data : Word := 1; let s : State := mpon recUp (fun p => { p with onus := [] });
      let d := 2 + die.toNat; let fld := fun (f : Fld) => fieldOf f.lo f.w (s.alcWord p d f.reg); data.getLsbD 0 = true ∧ fld .gntAlcCfgValid ≠ 0 ∧
      s.onu (fld .gntAlcIdOnu) = none) ∧
    (let c : Chan := 127; let index : BitVec 10 := 0; let e : Expect := expect0; let o : Nat := 20; let s : State := burstUp;
      let v := s.dropExpect c.toNat index.toNat; (s.expects c.toNat)[index.toNat]? = some e ∧ e.onu = some o ∧ e.window = false ∧
      v.receives c.toNat = false) ∧
    (let c : Chan := 127; let index : BitVec 10 := 0; let b : BurstRx := burst0; let e : Expect := expect0; let o : Nat := 20; let d : Int := 0;
      let n : Nat := 0; let s : State := rxUp; let v := (s.dropExpect c.toNat index.toNat).acquisition c.toNat b.locked;
      let rate := v.uiRate c.toNat e.profile; let old := (v.tandem.accept.find o).map (fun a => a.2 * (rate : Int) / 100000);
      let found := acceptAt (v.fld .brxPrfCfgTol (prfInst c.toNat e.profile)) (v.winEff c.toNat e.profile) old (b.positions.map (fun p => (signedOf 32 p.1.toNat, v.delimiterDiff c.toNat e.profile p.2))); (s.expects c.toNat)[index.toNat]? = some e ∧
      e.onu = some o ∧ e.window = false ∧ State.receives (s.dropExpect c.toNat index.toNat) c.toNat = true ∧ found = some (d, n)) ∧
    (let c : Chan := 127; let index : BitVec 10 := 0; let b : BurstRx := { burst0 with positions := [] }; let e : Expect := expect0;
      let o : Nat := 20; let s : State := rxUp; let v := (s.dropExpect c.toNat index.toNat).acquisition c.toNat b.locked;
      let rate := v.uiRate c.toNat e.profile; let old := (v.tandem.accept.find o).map (fun a => a.2 * (rate : Int) / 100000);
      let found := acceptAt (v.fld .brxPrfCfgTol (prfInst c.toNat e.profile)) (v.winEff c.toNat e.profile) old (b.positions.map (fun p => (signedOf 32 p.1.toNat, v.delimiterDiff c.toNat e.profile p.2))); (s.expects c.toNat)[index.toNat]? = some e ∧
      e.onu = some o ∧ e.window = false ∧ State.receives (s.dropExpect c.toNat index.toNat) c.toNat = true ∧ found = none ∧ b.locked = true) ∧
    (let c : Chan := 127; let index : BitVec 10 := 0; let b : BurstRx := { burst0 with positions := [], locked := false }; let e : Expect := expect0;
      let o : Nat := 20; let s : State := rxUp; let v := (s.dropExpect c.toNat index.toNat).acquisition c.toNat b.locked;
      let rate := v.uiRate c.toNat e.profile; let old := (v.tandem.accept.find o).map (fun a => a.2 * (rate : Int) / 100000);
      let found := acceptAt (v.fld .brxPrfCfgTol (prfInst c.toNat e.profile)) (v.winEff c.toNat e.profile) old (b.positions.map (fun p => (signedOf 32 p.1.toNat, v.delimiterDiff c.toNat e.profile p.2))); (s.expects c.toNat)[index.toNat]? = some e ∧
      e.onu = some o ∧ e.window = false ∧ State.receives (s.dropExpect c.toNat index.toNat) c.toNat = true ∧ found = none ∧ b.locked = false) := by
  refine ⟨?_, ?_, ?_, ?_, ?_, ?_, ?_, ?_, ?_, ?_, ?_, ?_, ?_, ?_⟩ <;> decide +kernel

/-- States and operands that meet the hypotheses of `Obligations.BurstCommandsComplete`, clause by clause. -/
theorem wit_BurstCommandsComplete :
    (let h : Hdr := hd 5; let chan : Word := 127; let index : Word := 3; let p : ProfileWords := ⟨0, 1, 0, 192, 0xFFFFFFFF, 4, 0⟩;
      let s : State := up; s.ready h 0x0306 (.owner (dieOfChan (chan.toNat % 128))) = true ∧ chan.toNat < 128 ∧ index.toNat < 4 ∧ p.fec.toNat < 2 ∧
      profileOk (s.xgs chan.toNat) p.rate.toNat p.pre.toNat p.preLen.toNat p.dlm.toNat p.dlmLen.toNat p.tol.toNat = true ∧
      s.treeBarred (treeOfChan chan.toNat) = false ∧ s.claimed (dieOfChan chan.toNat) .brx = false ∧ s.profileFree chan.toNat index.toNat = true) ∧
    (let h : Hdr := hd 5; let chan : Word := 127; let index : Word := 3; let s : State := up;
      s.ready h 0x0307 (.owner (dieOfChan (chan.toNat % 128))) = true ∧ chan.toNat < 128 ∧ index.toNat < 4) ∧
    (let h : Hdr := hd 5; let chan : Word := 127; let win : Word := 1023; let tol : Word := 255; let s : State := up;
      s.ready h 0x0308 (.owner (dieOfChan (chan.toNat % 128))) = true ∧ chan.toNat < 128 ∧ 16 ≤ win.toNat ∧ win.toNat ≤ 1023 ∧ 1 ≤ tol.toNat ∧
      tol.toNat ≤ 255 ∧ s.treeBarred (treeOfChan chan.toNat) = false ∧ s.claimed (dieOfChan chan.toNat) .brx = false) ∧
    (let h : Hdr := hd 5; let timeout : Word := 255; let s : State := up; s.ready h 0x0308 (.oneOf [2, 3, 4, 5]) = true ∧ 1 ≤ timeout.toNat ∧
      timeout.toNat ≤ 255 ∧ s.claimed (h.die.toNat) .brx = false) ∧
    (let h : Hdr := hd 5; let chan : Word := 127; let s : State := up; s.ready h 0x0309 (.owner (dieOfChan (chan.toNat % 128))) = true ∧
      chan.toNat < 128) ∧
    (let p : APath := .pcie; let c : Chan := 127; let n : BitVec 2 := 3; let data : Word := 0; let s : State := claim up 5 .brx;
      let i := prfInst c.toNat n.toNat; let die := dieOfChan c.toNat; let m := s.meet p die .brxPrfCfg i data;
      let w := (legalTol (s.reg .brxPrfCfg i) m.2).1; let f := fun x : Fld => fldOf x w;
      let v := if (legalTol (s.reg .brxPrfCfg i) m.2).2 then m.1.report .sysBadEnc 0 .sysBadEnc die 0 else m.1;
      let pair := fun hi lo => (v.reg hi i).toNat * 2 ^ 32 + (v.reg lo i).toNat;
      let ok := profileOk (v.xgs c.toNat) (f .brxPrfCfgRate) (pair .brxPrfPreHi .brxPrfPreLo) (f .brxPrfCfgPreLen) (pair .brxPrfDlmHi .brxPrfDlmLo) (if f .brxPrfCfgDlm8 = 1 then 8 else 4) (f .brxPrfCfgTol); s.expertBarred p (treeOfChan c.toNat) = false ∧
      s.dieFused die = false ∧ v.mayRwc p die .brx = true ∧ (f .brxPrfCfgValid = 0 ∨ ok = true) ∧ v.profileFree c.toNat n.toNat = true) ∧
    (let p : APath := .pcie; let c : Chan := 127; let n : BitVec 2 := 3; let data : Word := BitVec.ofNat 32 (2 ^ Fld.brxPrfCfgValid.lo);
      let s : State := claim up 5 .brx; let i := prfInst c.toNat n.toNat; let die := dieOfChan c.toNat; let m := s.meet p die .brxPrfCfg i data;
      let w := (legalTol (s.reg .brxPrfCfg i) m.2).1; let f := fun x : Fld => fldOf x w;
      let v := if (legalTol (s.reg .brxPrfCfg i) m.2).2 then m.1.report .sysBadEnc 0 .sysBadEnc die 0 else m.1;
      let pair := fun hi lo => (v.reg hi i).toNat * 2 ^ 32 + (v.reg lo i).toNat;
      let ok := profileOk (v.xgs c.toNat) (f .brxPrfCfgRate) (pair .brxPrfPreHi .brxPrfPreLo) (f .brxPrfCfgPreLen) (pair .brxPrfDlmHi .brxPrfDlmLo) (if f .brxPrfCfgDlm8 = 1 then 8 else 4) (f .brxPrfCfgTol); s.expertBarred p (treeOfChan c.toNat) = false ∧
      s.dieFused die = false ∧ v.mayRwc p die .brx = true ∧ f .brxPrfCfgValid ≠ 0 ∧ ok = false) ∧
    (let p : APath := .pcie; let c : Chan := 127; let n : BitVec 2 := 3; let data : Word := 0; let s : State := claim recUp 5 .brx;
      let i := prfInst c.toNat n.toNat; let die := dieOfChan c.toNat; let m := s.meet p die .brxPrfCfg i data;
      let w := (legalTol (s.reg .brxPrfCfg i) m.2).1;
      let v := if (legalTol (s.reg .brxPrfCfg i) m.2).2 then m.1.report .sysBadEnc 0 .sysBadEnc die 0 else m.1; s.expertBarred p (treeOfChan c.toNat) = false ∧
      s.dieFused die = false ∧ v.mayRwc p die .brx = true ∧ w ≠ s.reg .brxPrfCfg i ∧ v.profileFree c.toNat n.toNat = false) := by
  refine ⟨?_, ?_, ?_, ?_, ?_, ?_, ?_, ?_⟩ <;> decide +kernel

/-- States and operands that meet the hypotheses of `Obligations.RuleCommandsComplete`, clause by clause. -/
theorem wit_RuleCommandsComplete :
    (let h : Hdr := hd 1; let table : Word := 15; let dir : Word := 2; let mode : Word := 1; let blocks : Word := 64;
      let keys : List Word := List.replicate 10 0; let s : State := up;
      let fits := fun (k : Nat) (u : State) => (List.range 16).foldl (fun n j => if j = table.toNat then n else n + u.ruleBlocks k j) 0 + blocks.toNat ≤ 64 ∧
      u.ruleUsed k table.toNat = false; s.ready h 0x0700 (ruleDies) = true ∧ table.toNat < 16 ∧ dir.toNat < 3 ∧ mode.toNat < 2 ∧ blocks.toNat ≤ 64 ∧
      keys.length = 10 ∧ keys.all selectorOk = true ∧ (∀ d ∈ halvesOf h, s.claimed d .rul = false) ∧ h.die.toNat < 2 ∧
      fits h.die.toNat (s.start (callerOf h 0x0700))) ∧
    (let h : Hdr := hd 15; let table : Word := 15; let dir : Word := 2; let mode : Word := 1; let blocks : Word := 1;
      let keys : List Word := List.replicate 10 0; let s : State := up;
      let eff := fun (k : Nat) (u : State) => (List.range 10).foldl (fun s n => s.setReg .rulKey ((k * 16 + table.toNat) * 128 + n) (keys.getD n 0)) (((u.setFld .rulTblCfgDir (k * 16 + table.toNat) dir.toNat).setFld .rulTblCfgMode (k * 16 + table.toNat) mode.toNat).setFld .rulTblCfgBlocks (k * 16 + table.toNat) blocks.toNat);
      let fits := fun (k : Nat) (u : State) => (List.range 16).foldl (fun n j => if j = table.toNat then n else n + u.ruleBlocks k j) 0 + blocks.toNat ≤ 64 ∧
      u.ruleUsed k table.toNat = false; s.ready h 0x0700 (ruleDies) = true ∧ table.toNat < 16 ∧ dir.toNat < 3 ∧ mode.toNat < 2 ∧ blocks.toNat ≤ 64 ∧
      keys.length = 10 ∧ keys.all selectorOk = true ∧ (∀ d ∈ halvesOf h, s.claimed d .rul = false) ∧ h.die = 15 ∧
      fits 0 (s.start (callerOf h 0x0700)) ∧ fits 1 (eff 0 (s.start (callerOf h 0x0700)))) ∧
    (let h : Hdr := hd 1; let table : Word := 15; let index : Word := 1023; let pri : Word := 65535; let value : List Word := List.replicate 10 0;
      let mask : List Word := List.replicate 10 0; let act : Word := 0; let s : State := tableUp;
      let u0 := (s.start (callerOf h 0x0701)).wantPort (halvesOf h) accessSpan;
      let fits := fun (k : Nat) (u : State) => (u.ruleEpoch k table.toNat = true → u.stagedByOther k (pathCode h.path) = false ∧
      u.rule k table.toNat index.toNat = none); s.ready h 0x0701 (ruleDies) = true ∧ table.toNat < 16 ∧ pri.toNat < 65536 ∧ value.length = 10 ∧
      mask.length = 10 ∧ fldOf .rulEntActColour act ≠ 3 ∧ act &&& 0x803C0000 = 0 ∧ index ≠ 0xFFFFFFFF ∧
      (∀ d ∈ halvesOf h, index.toNat < s.ruleSlots d table.toNat) ∧ (∀ d ∈ halvesOf h, s.claimed d .rul = false) ∧
      State.portIdle (s.start (callerOf h 0x0701)) h accessSpan = true ∧ h.die.toNat < 2 ∧ fits h.die.toNat u0) ∧
    (let h : Hdr := hd 15; let table : Word := 15; let index : Word := 1023; let pri : Word := 65535; let value : List Word := List.replicate 10 0;
      let mask : List Word := List.replicate 10 0; let act : Word := 0; let s : State := tableUp;
      let u0 := (s.start (callerOf h 0x0701)).wantPort (halvesOf h) accessSpan;
      let eff := fun (k : Nat) (u : State) => u.putRule k (pathCode h.path) table.toNat index.toNat ⟨pri.toNat, value, mask, act ||| 0x80000000, 0, 0, true, true, 0, false⟩;
      let fits := fun (k : Nat) (u : State) => (u.ruleEpoch k table.toNat = true → u.stagedByOther k (pathCode h.path) = false ∧
      u.rule k table.toNat index.toNat = none); s.ready h 0x0701 (ruleDies) = true ∧ table.toNat < 16 ∧ pri.toNat < 65536 ∧ value.length = 10 ∧
      mask.length = 10 ∧ fldOf .rulEntActColour act ≠ 3 ∧ act &&& 0x803C0000 = 0 ∧ index ≠ 0xFFFFFFFF ∧
      (∀ d ∈ halvesOf h, index.toNat < s.ruleSlots d table.toNat) ∧ (∀ d ∈ halvesOf h, s.claimed d .rul = false) ∧
      State.portIdle (s.start (callerOf h 0x0701)) h accessSpan = true ∧ h.die = 15 ∧ fits 0 u0 ∧ fits 1 (eff 0 u0)) ∧
    (let h : Hdr := hd 1; let table : Word := 15; let pri : Word := 65535; let value : List Word := List.replicate 10 0;
      let mask : List Word := List.replicate 10 0; let act : Word := 0; let i : Nat := 0; let s : State := tableUp; let k := h.die.toNat;
      let u0 := (s.start (callerOf h 0x0701)).wantPort (halvesOf h) accessSpan; s.ready h 0x0701 (ruleDies) = true ∧ h.die.toNat < 2 ∧
      table.toNat < 16 ∧ pri.toNat < 65536 ∧ value.length = 10 ∧ mask.length = 10 ∧ fldOf .rulEntActColour act ≠ 3 ∧ act &&& 0x803C0000 = 0 ∧
      s.claimed h.die.toNat .rul = false ∧ State.portIdle (s.start (callerOf h 0x0701)) h accessSpan = true ∧
      u0.freeRule k table.toNat (u0.ruleSlots k table.toNat) 0 = some i ∧ u0.rule k table.toNat i = none ∧
      (u0.ruleEpoch k table.toNat = true → u0.stagedByOther k (pathCode h.path) = false)) ∧
    (let h : Hdr := hd 1; let table : Word := 15; let index : Word := 1023; let s : State := tableUp;
      let u0 := (s.start (callerOf h 0x0702)).wantPort (halvesOf h) accessSpan;
      let fits := fun (k : Nat) (u : State) => (u.ruleEpoch k table.toNat = true → u.stagedByOther k (pathCode h.path) = false); s.ready h 0x0702 (ruleDies) = true ∧
      table.toNat < 16 ∧ (∀ d ∈ halvesOf h, index.toNat < s.ruleSlots d table.toNat) ∧ (∀ d ∈ halvesOf h, s.claimed d .rul = false) ∧
      State.portIdle (s.start (callerOf h 0x0702)) h accessSpan = true ∧ h.die.toNat < 2 ∧ fits h.die.toNat u0) ∧
    (let h : Hdr := hd 15; let table : Word := 15; let index : Word := 1023; let s : State := tableUp;
      let u0 := (s.start (callerOf h 0x0702)).wantPort (halvesOf h) accessSpan;
      let eff := fun (k : Nat) (u : State) => u.closeRule k (pathCode h.path) table.toNat index.toNat;
      let fits := fun (k : Nat) (u : State) => (u.ruleEpoch k table.toNat = true → u.stagedByOther k (pathCode h.path) = false); s.ready h 0x0702 (ruleDies) = true ∧
      table.toNat < 16 ∧ (∀ d ∈ halvesOf h, index.toNat < s.ruleSlots d table.toNat) ∧ (∀ d ∈ halvesOf h, s.claimed d .rul = false) ∧
      State.portIdle (s.start (callerOf h 0x0702)) h accessSpan = true ∧ h.die = 15 ∧ fits 0 u0 ∧ fits 1 (eff 0 u0)) ∧
    (let h : Hdr := hd 1; let s : State := up;
      let fits := fun (k : Nat) (u : State) => u.stagedByOther k (pathCode h.path) = false ∧
      u.commitBusy k = false; s.ready h 0x0703 (ruleDies) = true ∧ (∀ d ∈ halvesOf h, s.claimed d .rul = false) ∧
      State.portIdle (s.start (callerOf h 0x0703)) h 0 = true ∧ h.die.toNat < 2 ∧ fits h.die.toNat (s.start (callerOf h 0x0703))) ∧
    (let h : Hdr := hd 15; let s : State := up; let eff := fun (k : Nat) (u : State) => u.bump k;
      let fits := fun (k : Nat) (u : State) => u.stagedByOther k (pathCode h.path) = false ∧
      u.commitBusy k = false; s.ready h 0x0703 (ruleDies) = true ∧ (∀ d ∈ halvesOf h, s.claimed d .rul = false) ∧
      State.portIdle (s.start (callerOf h 0x0703)) h 0 = true ∧ h.die = 15 ∧ fits 0 (s.start (callerOf h 0x0703)) ∧
      fits 1 (eff 0 (s.start (callerOf h 0x0703)))) ∧
    (let h : Hdr := hd 1; let s : State := up; let fits := fun (k : Nat) (u : State) => u.stagedByOther k (pathCode h.path) = false;
      s.ready h 0x0704 (ruleDies) = true ∧ (∀ d ∈ halvesOf h, s.claimed d .rul = false) ∧ State.portIdle (s.start (callerOf h 0x0704)) h 0 = true ∧
      h.die.toNat < 2 ∧ fits h.die.toNat (s.start (callerOf h 0x0704))) ∧
    (let h : Hdr := hd 15; let s : State := up; let eff := fun (k : Nat) (u : State) => u.abort k;
      let fits := fun (k : Nat) (u : State) => u.stagedByOther k (pathCode h.path) = false; s.ready h 0x0704 (ruleDies) = true ∧
      (∀ d ∈ halvesOf h, s.claimed d .rul = false) ∧ State.portIdle (s.start (callerOf h 0x0704)) h 0 = true ∧ h.die = 15 ∧
      fits 0 (s.start (callerOf h 0x0704)) ∧ fits 1 (eff 0 (s.start (callerOf h 0x0704)))) ∧
    (let h : Hdr := hd 1; let table : Word := 15; let index : Word := 1023; let s : State := tableUp; s.ready h 0x0705 (ruleDies) = true ∧
      table.toNat < 16 ∧ (∀ d ∈ halvesOf h, index.toNat < s.ruleSlots d table.toNat) ∧ h.die.toNat < 2) ∧
    (let h : Hdr := hd 15; let table : Word := 15; let index : Word := 1023; let s : State := tableUp; s.ready h 0x0705 (ruleDies) = true ∧
      table.toNat < 16 ∧ (∀ d ∈ halvesOf h, index.toNat < s.ruleSlots d table.toNat) ∧ h.die = 15) ∧
    (let h : Hdr := hd 1; let s : State := up; s.ready h 0x0706 (ruleDies) = true ∧ h.die.toNat < 2) ∧
    (let h : Hdr := hd 15; let s : State := up; s.ready h 0x0706 (ruleDies) = true ∧ h.die = 15) := by
  refine ⟨?_, ?_, ?_, ?_, ?_, ?_, ?_, ?_, ?_, ?_, ?_, ?_, ?_, ?_, ?_⟩ <;> decide +kernel

/-- States and operands that meet the hypotheses of `Obligations.RuleSettingsComplete`, clause by clause. -/
theorem wit_RuleSettingsComplete :
    (let h : Hdr := hd 1; let vxlan : Word := 65535; let guess : Word := 1; let ptpUdp : Word := 1; let s : State := up;
      s.ready h 0x0707 (ruleDies) = true ∧ vxlan.toNat < 65536 ∧ guess.toNat < 2 ∧ ptpUdp.toNat < 2 ∧ (∀ d ∈ halvesOf h, s.claimed d .prs = false) ∧
      h.die.toNat < 2) ∧
    (let h : Hdr := hd 15; let vxlan : Word := 65535; let guess : Word := 1; let ptpUdp : Word := 1; let s : State := up;
      s.ready h 0x0707 (ruleDies) = true ∧ vxlan.toNat < 65536 ∧ guess.toNat < 2 ∧ ptpUdp.toNat < 2 ∧ (∀ d ∈ halvesOf h, s.claimed d .prs = false) ∧
      h.die = 15) ∧
    (let h : Hdr := hd 1; let typ : Word := 127; let w0 : Word := 0x40000000; let w1 : Word := 0; let w2 : Word := 0; let s : State := up;
      let fits := fun (k : Nat) (u : State) => (u.fwdOf k).edges.any (fun e => e.2.en && e.2.to_ = typ.toNat) = false; s.ready h 0x0708 (ruleDies) = true ∧
      64 ≤ typ.toNat ∧ typ.toNat < 128 ∧ hdrWordsOk w0 w1 w2 = true ∧ (∀ d ∈ halvesOf h, s.claimed d .prs = false) ∧ h.die.toNat < 2 ∧
      fits h.die.toNat (s.start (callerOf h 0x0708))) ∧
    (let h : Hdr := hd 15; let typ : Word := 64; let w0 : Word := 0x40000000; let w1 : Word := 0; let w2 : Word := 0; let s : State := up;
      let eff := fun (k : Nat) (u : State) => ((u.setReg .prsHdr ((k * 128 + typ.toNat) * 128) (w0 ||| 0x80000000)).setReg .prsHdr ((k * 128 + typ.toNat) * 128 + 1) w1).setReg .prsHdr ((k * 128 + typ.toNat) * 128 + 2) w2;
      let fits := fun (k : Nat) (u : State) => (u.fwdOf k).edges.any (fun e => e.2.en && e.2.to_ = typ.toNat) = false; s.ready h 0x0708 (ruleDies) = true ∧
      64 ≤ typ.toNat ∧ typ.toNat < 128 ∧ hdrWordsOk w0 w1 w2 = true ∧ (∀ d ∈ halvesOf h, s.claimed d .prs = false) ∧ h.die = 15 ∧
      fits 0 (s.start (callerOf h 0x0708)) ∧ fits 1 (eff 0 (s.start (callerOf h 0x0708)))) ∧
    (let h : Hdr := hd 1; let edge : Word := 255; let src : Word := 0; let value : Word := 65535; let mask : Word := 65535; let dst : Word := 1;
      let enable : Word := 1; let s : State := up; s.ready h 0x0709 (ruleDies) = true ∧ edge.toNat < 256 ∧ enable.toNat < 2 ∧ value.toNat < 65536 ∧
      mask.toNat < 65536 ∧ (halvesOf h).any (fun d => !s.typeKnown d src.toNat || !s.typeKnown d dst.toNat) = false ∧
      (∀ d ∈ halvesOf h, s.claimed d .prs = false) ∧ h.die.toNat < 2) ∧
    (let h : Hdr := hd 15; let edge : Word := 255; let src : Word := 0; let value : Word := 65535; let mask : Word := 65535; let dst : Word := 1;
      let enable : Word := 1; let s : State := up; s.ready h 0x0709 (ruleDies) = true ∧ edge.toNat < 256 ∧ enable.toNat < 2 ∧ value.toNat < 65536 ∧
      mask.toNat < 65536 ∧ (halvesOf h).any (fun d => !s.typeKnown d src.toNat || !s.typeKnown d dst.toNat) = false ∧
      (∀ d ∈ halvesOf h, s.claimed d .prs = false) ∧ h.die = 15) ∧
    (let h : Hdr := hd 1; let life : Word := 1000; let orphan : Word := 2; let s : State := up; s.ready h 0x070A (ruleDies) = true ∧ 1 ≤ life.toNat ∧
      life.toNat ≤ 1000 ∧ orphan.toNat < 3 ∧ (∀ d ∈ halvesOf h, s.claimed d .frg = false) ∧ h.die.toNat < 2) ∧
    (let h : Hdr := hd 15; let life : Word := 1; let orphan : Word := 2; let s : State := up; s.ready h 0x070A (ruleDies) = true ∧ 1 ≤ life.toNat ∧
      life.toNat ≤ 1000 ∧ orphan.toNat < 3 ∧ (∀ d ∈ halvesOf h, s.claimed d .frg = false) ∧ h.die = 15) ∧
    (let h : Hdr := hd 1; let port : Word := 2097151; let mode : Word := 3; let s : State := up; s.ready h 0x070B (ruleDies) = true ∧
      port.toNat < 2 ^ 21 ∧ mode.toNat < 4 ∧ (h.die.toNat < 2 → h.die.toNat = halfOfTree (port.toNat / 65536)) ∧
      (s.is064 = true → halfOfTree (port.toNat / 65536) = 0) ∧ s.claimed (halfOfTree (port.toNat / 65536)) .prs = false) ∧
    (let h : Hdr := hd 15; let port : Word := 0; let mode : Word := 3; let s : State := up; s.ready h 0x070B (ruleDies) = true ∧ port.toNat < 2 ^ 21 ∧
      mode.toNat < 4 ∧ (h.die.toNat < 2 → h.die.toNat = halfOfTree (port.toNat / 65536)) ∧ (s.is064 = true → halfOfTree (port.toNat / 65536) = 0) ∧
      s.claimed (halfOfTree (port.toNat / 65536)) .prs = false) ∧
    (let half : BitVec 1 := 1; let c : Caller := cal; let h : Hdr := hd 1;
      let s : State := { up with tableWaits := [⟨some cal, [1], .ruleCommit (hd 1), none⟩] }; h.die.toNat = half.toNat ∧
      s.tableWaits = [⟨some c, [half.toNat], .ruleCommit h, none⟩] ∧ s.stagedByOther half.toNat (pathCode c.path) = false ∧
      s.commitBusy half.toNat = false) ∧
    (let half : BitVec 1 := 1; let c : Caller := cal; let h : Hdr := hd 1;
      let s : State := { up.setVersions 1 14 0 with tableWaits := [⟨some cal, [1], .ruleCommit (hd 1), none⟩] }; h.die.toNat = half.toNat ∧
      s.tableWaits = [⟨some c, [half.toNat], .ruleCommit h, none⟩] ∧ s.stagedByOther half.toNat (pathCode c.path) = false ∧
      s.commitBusy half.toNat = true) ∧
    (let half : BitVec 1 := 1; let s : State := up.setVersions 1 2 1; s.oldest half.toNat ≠ s.cur half.toNat ∧
      (s.fwdOf half.toNat).inflightOf (s.oldest half.toNat) = 0 ∧ s.served half.toNat tblMaint = true) ∧
    (let p : APath := .pcie; let half : BitVec 1 := 1; let data : Word := 1; let s : State := tableUp; let u := s.wantPort [half.toNat] accessSpan;
      let x := u.stagedEnt p half.toNat; data.getLsbD 0 = true ∧ u.tableBlocked [half.toNat] accessSpan = false ∧ x.2.1 < u.ruleSlots half.toNat x.1 ∧
      u.stagedByOther half.toNat (apathCode p) = false ∧ x.2.2.act.getLsbD 31 = false) ∧
    (let p : APath := .pcie; let half : BitVec 1 := 1; let data : Word := 1;
      let s : State := tableUp.setReg .rulEntAct (copyInst 1 (apathCode .pcie)) 0x80000000; let u := s.wantPort [half.toNat] accessSpan;
      let x := u.stagedEnt p half.toNat; data.getLsbD 0 = true ∧ u.tableBlocked [half.toNat] accessSpan = false ∧ x.2.1 < u.ruleSlots half.toNat x.1 ∧
      u.stagedByOther half.toNat (apathCode p) = false ∧ x.2.2.act.getLsbD 31 = true ∧ u.rule half.toNat x.1 x.2.1 = none) ∧
    (let half : BitVec 1 := 1; let data : Word := 1; let s : State := { up with tableWaits := [⟨some cal, [1], .ruleCommit (hd 1), none⟩] };
      let u := s.wantPort [half.toNat] accessSpan; data.getLsbD 0 = true ∧ u.tableBlocked [half.toNat] accessSpan = true) ∧
    (let p : APath := .pcie; let half : BitVec 1 := 1; let data : Word := 1; let s : State := up; s.tableBlocked [half.toNat] 0 = false ∧
      s.stagedByOther half.toNat (apathCode p) = false ∧ data.getLsbD 0 = true ∧ data.getLsbD 1 = false) ∧
    (let p : APath := .pcie; let half : BitVec 1 := 1; let data : Word := 2; let s : State := up; s.tableBlocked [half.toNat] 0 = false ∧
      s.stagedByOther half.toNat (apathCode p) = false ∧ data.getLsbD 0 = false ∧ data.getLsbD 1 = true) := by
  refine ⟨?_, ?_, ?_, ?_, ?_, ?_, ?_, ?_, ?_, ?_, ?_, ?_, ?_, ?_, ?_, ?_, ?_, ?_⟩ <;> decide +kernel

/-- States and operands that meet the hypotheses of `Obligations.TableCommandsComplete`, clause by clause. -/
theorem wit_TableCommandsComplete :
    (let h : Hdr := hd 1; let w : BdWords := ⟨65535, 1, 1, 1, 1, 4095, 15, 16383, 2⟩; let s : State := up; s.ready h 0x0800 (ruleDies) = true ∧
      w.domain.toNat < 65536 ∧ w.valid.toNat < 2 ∧ w.learn.toNat < 2 ∧ w.isolate.toNat < 2 ∧ w.route.toNat < 2 ∧ w.vrf.toNat < 4096 ∧
      w.rmac.toNat < 16 ∧ w.flood.toNat < 16384 ∧ w.unknown.toNat < 3 ∧ (∀ d ∈ halvesOf h, s.claimed d .br = false) ∧
      State.portIdle (s.start (callerOf h 0x0800)) h accessSpan = true ∧ h.die.toNat < 2) ∧
    (let h : Hdr := hd 15; let w : BdWords := ⟨65535, 1, 1, 1, 1, 4095, 15, 16383, 2⟩; let s : State := up; s.ready h 0x0800 (ruleDies) = true ∧
      w.domain.toNat < 65536 ∧ w.valid.toNat < 2 ∧ w.learn.toNat < 2 ∧ w.isolate.toNat < 2 ∧ w.route.toNat < 2 ∧ w.vrf.toNat < 4096 ∧
      w.rmac.toNat < 16 ∧ w.flood.toNat < 16384 ∧ w.unknown.toNat < 3 ∧ (∀ d ∈ halvesOf h, s.claimed d .br = false) ∧
      State.portIdle (s.start (callerOf h 0x0800)) h accessSpan = true ∧ h.die = 15) ∧
    (let h : Hdr := hd 1; let index : Word := 15; let s : State := up; s.ready h 0x0801 (ruleDies) = true ∧ index.toNat < 16 ∧
      (∀ d ∈ halvesOf h, s.claimed d .br = false) ∧ State.portIdle (s.start (callerOf h 0x0801)) h accessSpan = true ∧ h.die.toNat < 2) ∧
    (let h : Hdr := hd 15; let index : Word := 15; let s : State := up; s.ready h 0x0801 (ruleDies) = true ∧ index.toNat < 16 ∧
      (∀ d ∈ halvesOf h, s.claimed d .br = false) ∧ State.portIdle (s.start (callerOf h 0x0801)) h accessSpan = true ∧ h.die = 15) ∧
    (let h : Hdr := hd 1; let group : Word := 16383; let dests : List Word := [0x7FFFD]; let s : State := up;
      let u0 := (s.start (callerOf h 0x0802)).wantPort (halvesOf h) accessSpan;
      let fits := fun (k : Nat) (u : State) => (u.floodPut k group.toNat (dests.map (·.toNat))).isSome = true; s.ready h 0x0802 (ruleDies) = true ∧
      group.toNat < 16384 ∧ dests.length ≤ 1024 ∧
      dests.any (fun d => !(d.toNat / 2 ^ 18 ≤ 1 && destOk (d.toNat / 2 ^ 18) (d.toNat % 2 ^ 18))) = false ∧
      (∀ d ∈ halvesOf h, s.claimed d .br = false) ∧ State.portIdle (s.start (callerOf h 0x0802)) h accessSpan = true ∧ h.die.toNat < 2 ∧
      fits h.die.toNat u0) ∧
    (let h : Hdr := hd 15; let group : Word := 16383; let dests : List Word := []; let s : State := up;
      let u0 := (s.start (callerOf h 0x0802)).wantPort (halvesOf h) accessSpan;
      let eff := fun (k : Nat) (u : State) => ((u.floodPut k group.toNat (dests.map (·.toNat))).getD u);
      let fits := fun (k : Nat) (u : State) => (u.floodPut k group.toNat (dests.map (·.toNat))).isSome = true; s.ready h 0x0802 (ruleDies) = true ∧
      group.toNat < 16384 ∧ dests.length ≤ 1024 ∧
      dests.any (fun d => !(d.toNat / 2 ^ 18 ≤ 1 && destOk (d.toNat / 2 ^ 18) (d.toNat % 2 ^ 18))) = false ∧
      (∀ d ∈ halvesOf h, s.claimed d .br = false) ∧ State.portIdle (s.start (callerOf h 0x0802)) h accessSpan = true ∧ h.die = 15 ∧ fits 0 u0 ∧
      fits 1 (eff 0 u0)) ∧
    (let h : Hdr := hd 1; let w : SvcWords := ⟨1, 0x3FFFFFFF, 4095, 4095, 0, 63, 0xFFFFFFFF, 4095, 1, 1048575, 0x3FFFD, 65535⟩; let s : State := up;
      let u0 := (s.start (callerOf h 0x0803)).wantPort (halvesOf h) accessSpan;
      let fits := fun (k : Nat) (u : State) => (u.svcPut k ⟨w.dir = 1, w.source.toNat, w.ovid.toNat, w.ivid.toNat, w.mode = 0, if w.mode = 0 then 0 else w.target.toNat, if w.mode = 0 then w.target.toNat / 2 ^ 18 else 0, if w.mode = 0 then w.target.toNat % 2 ^ 18 else 0, if decide (w.policer = 0xFFFFFFFF) then none else some w.policer.toNat, w.prog.toNat, w.learn = 1, w.macLimit.toNat, w.ret.toNat, w.upBase.toNat⟩).isSome = true; s.ready h 0x0803 (ruleDies) = true ∧
      svcKeyOk w.dir w.source w.ovid w.ivid = true ∧ w.mode.toNat < 2 ∧ (w.policer = 0xFFFFFFFF ∨ w.policer.toNat < 131072) ∧ w.prog.toNat < 4096 ∧
      w.learn.toNat < 2 ∧ w.macLimit.toNat < 1048576 ∧ w.ret.toNat ≤ 0x3FFFD ∧ w.upBase.toNat < 65536 ∧
      (if w.mode = 0 then destOk (w.target.toNat / 2 ^ 18) (w.target.toNat % 2 ^ 18) = true else w.target.toNat < 65536) ∧
      (∀ d ∈ halvesOf h, s.claimed d .svc = false) ∧ State.portIdle (s.start (callerOf h 0x0803)) h accessSpan = true ∧ h.die.toNat < 2 ∧
      fits h.die.toNat u0) ∧
    (let h : Hdr := hd 15; let w : SvcWords := ⟨0, 63, 0, 0, 1, 65535, 131071, 0, 0, 0, 0, 0⟩; let s : State := up;
      let u0 := (s.start (callerOf h 0x0803)).wantPort (halvesOf h) accessSpan;
      let eff := fun (k : Nat) (u : State) => ((u.svcPut k ⟨w.dir = 1, w.source.toNat, w.ovid.toNat, w.ivid.toNat, w.mode = 0, if w.mode = 0 then 0 else w.target.toNat, if w.mode = 0 then w.target.toNat / 2 ^ 18 else 0, if w.mode = 0 then w.target.toNat % 2 ^ 18 else 0, if decide (w.policer = 0xFFFFFFFF) then none else some w.policer.toNat, w.prog.toNat, w.learn = 1, w.macLimit.toNat, w.ret.toNat, w.upBase.toNat⟩).getD u);
      let fits := fun (k : Nat) (u : State) => (u.svcPut k ⟨w.dir = 1, w.source.toNat, w.ovid.toNat, w.ivid.toNat, w.mode = 0, if w.mode = 0 then 0 else w.target.toNat, if w.mode = 0 then w.target.toNat / 2 ^ 18 else 0, if w.mode = 0 then w.target.toNat % 2 ^ 18 else 0, if decide (w.policer = 0xFFFFFFFF) then none else some w.policer.toNat, w.prog.toNat, w.learn = 1, w.macLimit.toNat, w.ret.toNat, w.upBase.toNat⟩).isSome = true; s.ready h 0x0803 (ruleDies) = true ∧
      svcKeyOk w.dir w.source w.ovid w.ivid = true ∧ w.mode.toNat < 2 ∧ (w.policer = 0xFFFFFFFF ∨ w.policer.toNat < 131072) ∧ w.prog.toNat < 4096 ∧
      w.learn.toNat < 2 ∧ w.macLimit.toNat < 1048576 ∧ w.ret.toNat ≤ 0x3FFFD ∧ w.upBase.toNat < 65536 ∧
      (if w.mode = 0 then destOk (w.target.toNat / 2 ^ 18) (w.target.toNat % 2 ^ 18) = true else w.target.toNat < 65536) ∧
      (∀ d ∈ halvesOf h, s.claimed d .svc = false) ∧ State.portIdle (s.start (callerOf h 0x0803)) h accessSpan = true ∧ h.die = 15 ∧ fits 0 u0 ∧
      fits 1 (eff 0 u0)) ∧
    (let h : Hdr := hd 1; let dir : Word := 1; let source : Word := 0x3FFFFFFF; let ovid : Word := 4095; let ivid : Word := 4095; let s : State := up;
      s.ready h 0x0804 (ruleDies) = true ∧ svcKeyOk dir source ovid ivid = true ∧ (∀ d ∈ halvesOf h, s.claimed d .svc = false) ∧
      State.portIdle (s.start (callerOf h 0x0804)) h accessSpan = true ∧ h.die.toNat < 2) ∧
    (let h : Hdr := hd 15; let dir : Word := 0; let source : Word := 63; let ovid : Word := 4095; let ivid : Word := 4095; let s : State := up;
      s.ready h 0x0804 (ruleDies) = true ∧ svcKeyOk dir source ovid ivid = true ∧ (∀ d ∈ halvesOf h, s.claimed d .svc = false) ∧
      State.portIdle (s.start (callerOf h 0x0804)) h accessSpan = true ∧ h.die = 15) ∧
    (let h : Hdr := hd 1; let bd : Word := 65535; let mac : BitVec 48 := 7; let fixed : Word := 1; let kind : Word := 1; let dest : Word := 0x3FFFD;
      let s : State := up; let u0 := (s.start (callerOf h 0x0805)).wantPort (halvesOf h) accessSpan;
      let fits := fun (k : Nat) (u : State) => (u.macPut k ⟨fixed = 1, false, kind.toNat, u.tickNow k, 0, 0, dest.toNat, none, bd.toNat, mac.toNat⟩).isSome = true; s.ready h 0x0805 (ruleDies) = true ∧
      bd.toNat < 65536 ∧ fixed.toNat < 2 ∧ destOk kind.toNat dest.toNat = true ∧ (∀ d ∈ halvesOf h, s.claimed d .br = false) ∧
      State.portIdle (s.start (callerOf h 0x0805)) h accessSpan = true ∧ h.die.toNat < 2 ∧ fits h.die.toNat u0) ∧
    (let h : Hdr := hd 15; let bd : Word := 65535; let mac : BitVec 48 := 7; let fixed : Word := 1; let kind : Word := 3; let dest : Word := 16383;
      let s : State := up; let u0 := (s.start (callerOf h 0x0805)).wantPort (halvesOf h) accessSpan;
      let eff := fun (k : Nat) (u : State) => ((u.macPut k ⟨fixed = 1, false, kind.toNat, u.tickNow k, 0, 0, dest.toNat, none, bd.toNat, mac.toNat⟩).getD u);
      let fits := fun (k : Nat) (u : State) => (u.macPut k ⟨fixed = 1, false, kind.toNat, u.tickNow k, 0, 0, dest.toNat, none, bd.toNat, mac.toNat⟩).isSome = true; s.ready h 0x0805 (ruleDies) = true ∧
      bd.toNat < 65536 ∧ fixed.toNat < 2 ∧ destOk kind.toNat dest.toNat = true ∧ (∀ d ∈ halvesOf h, s.claimed d .br = false) ∧
      State.portIdle (s.start (callerOf h 0x0805)) h accessSpan = true ∧ h.die = 15 ∧ fits 0 u0 ∧ fits 1 (eff 0 u0)) ∧
    (let h : Hdr := hd 1; let bd : Word := 65535; let s : State := up; s.ready h 0x0806 (ruleDies) = true ∧ bd.toNat < 65536 ∧
      (∀ d ∈ halvesOf h, s.claimed d .br = false) ∧ State.portIdle (s.start (callerOf h 0x0806)) h accessSpan = true ∧ h.die.toNat < 2) ∧
    (let h : Hdr := hd 15; let bd : Word := 65535; let s : State := up; s.ready h 0x0806 (ruleDies) = true ∧ bd.toNat < 65536 ∧
      (∀ d ∈ halvesOf h, s.claimed d .br = false) ∧ State.portIdle (s.start (callerOf h 0x0806)) h accessSpan = true ∧ h.die = 15) ∧
    (let h : Hdr := hd 1; let bd : Word := 65535; let s : State := up; s.ready h 0x0807 (ruleDies) = true ∧ bd.toNat < 65536 ∧ h.die.toNat < 2) ∧
    (let h : Hdr := hd 15; let bd : Word := 65535; let s : State := up; s.ready h 0x0807 (ruleDies) = true ∧ bd.toNat < 65536 ∧ h.die = 15) ∧
    (let h : Hdr := hd 15; let bd : Word := 0xFFFFFFFF; let dest : Word := 0xFFFFFFFF; let s : State := up; s.ready h 0x0808 (ruleDies) = true ∧
      (bd = 0xFFFFFFFF ∨ bd.toNat < 65536) ∧ (dest = 0xFFFFFFFF ∨ destOk (dest.toNat / 2 ^ 18) (dest.toNat % 2 ^ 18) = true) ∧
      (∀ d ∈ halvesOf h, s.claimed d .br = false) ∧ (s.start (callerOf h 0x0808)).asyncFull = false) ∧
    (let h : Hdr := hd 1; let bd : Word := 65535; let dest : Word := 0x7FFFD; let s : State := up; s.ready h 0x0808 (ruleDies) = true ∧
      (bd = 0xFFFFFFFF ∨ bd.toNat < 65536) ∧ (dest = 0xFFFFFFFF ∨ destOk (dest.toNat / 2 ^ 18) (dest.toNat % 2 ^ 18) = true) ∧
      (∀ d ∈ halvesOf h, s.claimed d .br = false) ∧ (s.start (callerOf h 0x0808)).asyncFull = false) ∧
    (let h : Hdr := hd 1; let vrf : Word := 4095; let pre : List Word := [0, 0, 0, 1]; let len : Word := 128; let nh : Word := 262143;
      let s : State := up; let u0 := (s.start (callerOf h 0x0809)).wantPort (halvesOf h) routeSpan;
      let fits := fun (k : Nat) (u : State) => (u.routePut k ⟨pre.length = 4, vrf.toNat, prefixBits (pre.length = 4) len.toNat (wordsNat pre), len.toNat, nh.toNat⟩).isSome = true; s.ready h 0x0809 (ruleDies) = true ∧
      prefixOk vrf pre len = true ∧ nh.toNat < 262144 ∧ (∀ d ∈ halvesOf h, s.claimed d .lpm = false) ∧
      State.portIdle (s.start (callerOf h 0x0809)) h routeSpan = true ∧ h.die.toNat < 2 ∧ fits h.die.toNat u0) ∧
    (let h : Hdr := hd 15; let vrf : Word := 4095; let pre : List Word := [0]; let len : Word := 32; let nh : Word := 262143; let s : State := up;
      let u0 := (s.start (callerOf h 0x0809)).wantPort (halvesOf h) routeSpan;
      let eff := fun (k : Nat) (u : State) => ((u.routePut k ⟨pre.length = 4, vrf.toNat, prefixBits (pre.length = 4) len.toNat (wordsNat pre), len.toNat, nh.toNat⟩).getD u);
      let fits := fun (k : Nat) (u : State) => (u.routePut k ⟨pre.length = 4, vrf.toNat, prefixBits (pre.length = 4) len.toNat (wordsNat pre), len.toNat, nh.toNat⟩).isSome = true; s.ready h 0x0809 (ruleDies) = true ∧
      prefixOk vrf pre len = true ∧ nh.toNat < 262144 ∧ (∀ d ∈ halvesOf h, s.claimed d .lpm = false) ∧
      State.portIdle (s.start (callerOf h 0x0809)) h routeSpan = true ∧ h.die = 15 ∧ fits 0 u0 ∧ fits 1 (eff 0 u0)) ∧
    (let h : Hdr := hd 1; let vrf : Word := 4095; let pre : List Word := [0, 0, 0, 1]; let len : Word := 128; let s : State := up;
      s.ready h 0x080A (ruleDies) = true ∧ prefixOk vrf pre len = true ∧ (∀ d ∈ halvesOf h, s.claimed d .lpm = false) ∧
      State.portIdle (s.start (callerOf h 0x080A)) h routeSpan = true ∧ h.die.toNat < 2) ∧
    (let h : Hdr := hd 15; let vrf : Word := 4095; let pre : List Word := [0]; let len : Word := 0; let s : State := up;
      s.ready h 0x080A (ruleDies) = true ∧ prefixOk vrf pre len = true ∧ (∀ d ∈ halvesOf h, s.claimed d .lpm = false) ∧
      State.portIdle (s.start (callerOf h 0x080A)) h routeSpan = true ∧ h.die = 15) ∧
    (let h : Hdr := hd 1; let index : Word := 262143; let w : NhWords := ⟨4, 0, 5, 15, 4095, 65535, 255⟩; let s : State := up;
      s.ready h 0x080B (ruleDies) = true ∧ index.toNat < 262144 ∧ nhOk w.kind.toNat w.dest.toNat = true ∧ w.smac.toNat < 16 ∧ w.prog.toNat < 4096 ∧
      w.domain.toNat < 65536 ∧ w.strip.toNat < 256 ∧ (∀ d ∈ halvesOf h, s.claimed d .br = false) ∧
      State.portIdle (s.start (callerOf h 0x080B)) h accessSpan = true ∧ h.die.toNat < 2) ∧
    (let h : Hdr := hd 15; let index : Word := 262143; let w : NhWords := ⟨1, 0x3FFFD, 5, 15, 4095, 65535, 255⟩; let s : State := up;
      s.ready h 0x080B (ruleDies) = true ∧ index.toNat < 262144 ∧ nhOk w.kind.toNat w.dest.toNat = true ∧ w.smac.toNat < 16 ∧ w.prog.toNat < 4096 ∧
      w.domain.toNat < 65536 ∧ w.strip.toNat < 256 ∧ (∀ d ∈ halvesOf h, s.claimed d .br = false) ∧
      State.portIdle (s.start (callerOf h 0x080B)) h accessSpan = true ∧ h.die = 15) := by
  refine ⟨?_, ?_, ?_, ?_, ?_, ?_, ?_, ?_, ?_, ?_, ?_, ?_, ?_, ?_, ?_, ?_, ?_, ?_, ?_, ?_, ?_, ?_, ?_, ?_⟩ <;> decide +kernel

/-- States and operands that meet the hypotheses of `Obligations.TableServiceCommandsComplete`, clause by clause. -/
theorem wit_TableServiceCommandsComplete :
    (let h : Hdr := hd 1; let onu : Word := 16383; let port : Word := 65535; let kind : Word := 2; let addr : List Word := [0, 0, 0, 1];
      let s : State := up; let u0 := (s.start (callerOf h 0x080C)).wantPort (halvesOf h) accessSpan;
      let fits := fun (k : Nat) (u : State) => (u.bindPut k ⟨onu.toNat, port.toNat, kind.toNat, wordsNat addr⟩).isSome = true; s.ready h 0x080C (ruleDies) = true ∧
      bindOk onu port kind addr = true ∧ (∀ d ∈ halvesOf h, s.claimed d .prs = false) ∧
      State.portIdle (s.start (callerOf h 0x080C)) h accessSpan = true ∧ h.die.toNat < 2 ∧ fits h.die.toNat u0) ∧
    (let h : Hdr := hd 15; let onu : Word := 16383; let port : Word := 65535; let kind : Word := 0; let addr : List Word := [65535, 5];
      let s : State := up; let u0 := (s.start (callerOf h 0x080C)).wantPort (halvesOf h) accessSpan;
      let eff := fun (k : Nat) (u : State) => ((u.bindPut k ⟨onu.toNat, port.toNat, kind.toNat, wordsNat addr⟩).getD u);
      let fits := fun (k : Nat) (u : State) => (u.bindPut k ⟨onu.toNat, port.toNat, kind.toNat, wordsNat addr⟩).isSome = true; s.ready h 0x080C (ruleDies) = true ∧
      bindOk onu port kind addr = true ∧ (∀ d ∈ halvesOf h, s.claimed d .prs = false) ∧
      State.portIdle (s.start (callerOf h 0x080C)) h accessSpan = true ∧ h.die = 15 ∧ fits 0 u0 ∧ fits 1 (eff 0 u0)) ∧
    (let h : Hdr := hd 1; let onu : Word := 16383; let port : Word := 65535; let kind : Word := 2; let addr : List Word := [0, 0, 0, 1];
      let s : State := up; s.ready h 0x080D (ruleDies) = true ∧ bindOk onu port kind addr = true ∧ (∀ d ∈ halvesOf h, s.claimed d .prs = false) ∧
      State.portIdle (s.start (callerOf h 0x080D)) h accessSpan = true ∧ h.die.toNat < 2) ∧
    (let h : Hdr := hd 15; let onu : Word := 16383; let port : Word := 65535; let kind : Word := 1; let addr : List Word := [7]; let s : State := up;
      s.ready h 0x080D (ruleDies) = true ∧ bindOk onu port kind addr = true ∧ (∀ d ∈ halvesOf h, s.claimed d .prs = false) ∧
      State.portIdle (s.start (callerOf h 0x080D)) h accessSpan = true ∧ h.die = 15) ∧
    (let h : Hdr := hd 1; let lrn : Word := up.reg .lrnCfg 1; let age : Word := up.reg .brAgeCfg 1; let s : State := up;
      s.ready h 0x080E (ruleDies) = true ∧ wordLegal .lrnCfg lrn = true ∧ wordLegal .brAgeCfg age = true ∧
      (∀ d ∈ halvesOf h, s.claimed d .lrn = false) ∧ h.die.toNat < 2) ∧
    (let h : Hdr := hd 15; let lrn : Word := up.reg .lrnCfg 1; let age : Word := up.reg .brAgeCfg 1; let s : State := up;
      s.ready h 0x080E (ruleDies) = true ∧ wordLegal .lrnCfg lrn = true ∧ wordLegal .brAgeCfg age = true ∧
      (∀ d ∈ halvesOf h, s.claimed d .lrn = false) ∧ h.die = 15) ∧
    (let h : Hdr := hd 1; let s : State := up; s.ready h 0x080F (ruleDies) = true ∧ h.die.toNat < 2) ∧
    (let h : Hdr := hd 15; let s : State := up; s.ready h 0x080F (ruleDies) = true ∧ h.die = 15) ∧
    (let h : Hdr := hd 1; let prog : Word := 4095; let ops : List Word := List.replicate 8 0xA0000000; let s : State := up;
      s.ready h 0x0810 (ruleDies) = true ∧ 1 ≤ prog.toNat ∧ prog.toNat < 4096 ∧ ops.length ≤ 8 ∧ ops.all editWordOk = true ∧
      (∀ d ∈ halvesOf h, s.claimed d .edt = false) ∧ h.die.toNat < 2) ∧
    (let h : Hdr := hd 15; let prog : Word := 1; let ops : List Word := []; let s : State := up; s.ready h 0x0810 (ruleDies) = true ∧ 1 ≤ prog.toNat ∧
      prog.toNat < 4096 ∧ ops.length ≤ 8 ∧ ops.all editWordOk = true ∧ (∀ d ∈ halvesOf h, s.claimed d .edt = false) ∧ h.die = 15) ∧
    (let h : Hdr := hd 1; let table : Word := 15; let entries : List Word := List.replicate 48 8191; let s : State := up;
      s.ready h 0x0811 (ruleDies) = true ∧ table.toNat < 16 ∧ entries.length = 48 ∧ entries.any (fun e => 8191 < e.toNat) = false ∧
      (∀ d ∈ halvesOf h, s.claimed d .edt = false) ∧ h.die.toNat < 2) ∧
    (let h : Hdr := hd 15; let table : Word := 15; let entries : List Word := List.replicate 48 8191; let s : State := up;
      s.ready h 0x0811 (ruleDies) = true ∧ table.toNat < 16 ∧ entries.length = 48 ∧ entries.any (fun e => 8191 < e.toNat) = false ∧
      (∀ d ∈ halvesOf h, s.claimed d .edt = false) ∧ h.die = 15) ∧
    (let h : Hdr := hd 1; let which : Word := 0x8000000F; let s : State := up; s.ready h 0x0812 (ruleDies) = true ∧
      (which.getLsbD 31 = true → which.toNat % 2 ^ 31 < 16) ∧ (which.getLsbD 31 = false → which.toNat % 2 ^ 31 < 4096) ∧ h.die.toNat < 2) ∧
    (let h : Hdr := hd 15; let which : Word := 4095; let s : State := up; s.ready h 0x0812 (ruleDies) = true ∧
      (which.getLsbD 31 = true → which.toNat % 2 ^ 31 < 16) ∧ (which.getLsbD 31 = false → which.toNat % 2 ^ 31 < 4096) ∧ h.die = 15) ∧
    (let half : BitVec 1 := 1; let w : FlushWalk := ⟨cal, false, none, none, 0, 0, none⟩; let rest : List FlushWalk := [];
      let s : State := { up.setFwd 1 { up.fwdOf 1 with flush := [⟨cal, false, none, none, 0, 0, none⟩] } with rtn := { up.rtn with inForce := [(82, 100)] } };
      let u := s.wantPort [half.toNat] accessSpan; let n := ceilDiv (u.rationSpan half.toNat tblHost ((scanEnd - w.pos) * accessSpan)) accessSpan;
      (s.fwdOf half.toNat).flush = w :: rest ∧ u.hostPortFree half.toNat = true ∧ w.pos + n < scanEnd) ∧
    (let half : BitVec 1 := 1; let w : FlushWalk := ⟨cal, false, none, none, 1048830, 0, none⟩; let rest : List FlushWalk := [];
      let s : State := up.setFwd 1 { up.fwdOf 1 with flush := [⟨cal, false, none, none, 1048830, 0, none⟩] };
      let u := s.wantPort [half.toNat] accessSpan; let n := ceilDiv (u.rationSpan half.toNat tblHost ((scanEnd - w.pos) * accessSpan)) accessSpan;
      (s.fwdOf half.toNat).flush = w :: rest ∧ u.hostPortFree half.toNat = true ∧ scanEnd ≤ w.pos + n ∧ w.both = false) ∧
    (let half : BitVec 1 := 1; let w : FlushWalk := ⟨cal, true, none, none, 1048830, 0, some 5⟩; let rest : List FlushWalk := [];
      let s : State := up.setFwd 1 { up.fwdOf 1 with flush := [⟨cal, true, none, none, 1048830, 0, some 5⟩] };
      let u := s.wantPort [half.toNat] accessSpan; let n := ceilDiv (u.rationSpan half.toNat tblHost ((scanEnd - w.pos) * accessSpan)) accessSpan;
      let other := 5; (s.fwdOf half.toNat).flush = w :: rest ∧ u.hostPortFree half.toNat = true ∧ scanEnd ≤ w.pos + n ∧ w.both = true ∧
      w.partner = some other) ∧
    (let half : BitVec 1 := 1; let w : FlushWalk := ⟨cal, true, none, none, 1048830, 0, none⟩; let rest : List FlushWalk := [];
      let s : State := up.setFwd 1 { up.fwdOf 1 with flush := [⟨cal, true, none, none, 1048830, 0, none⟩] };
      let u := s.wantPort [half.toNat] accessSpan; let n := ceilDiv (u.rationSpan half.toNat tblHost ((scanEnd - w.pos) * accessSpan)) accessSpan;
      (s.fwdOf half.toNat).flush = w :: rest ∧ u.hostPortFree half.toNat = true ∧ scanEnd ≤ w.pos + n ∧ w.both = true ∧ w.partner = none) ∧
    (let p : APath := .pcie; let half : BitVec 1 := 1; let data : Word := 0x80000000; let s : State := up;
      let m := s.meet p half.toNat .brAccCtl (copyInst half.toNat (apathCode p)) data;
      let v := (m.1.setReg .brAccCtl (copyInst half.toNat (apathCode p)) m.2).wantPort [half.toNat] accessSpan; data.getLsbD 31 = true ∧
      s.flag .brAccStatBusy (copyInst half.toNat (apathCode p)) = false ∧ v.tableBlocked [half.toNat] accessSpan = false) ∧
    (let p : APath := .pcie; let half : BitVec 1 := 1; let data : Word := 0x80000000;
      let s : State := up.setFlag .brAccStatBusy (copyInst 1 (apathCode .pcie)) true; data.getLsbD 31 = true ∧
      s.flag .brAccStatBusy (copyInst half.toNat (apathCode p)) = true) ∧
    (let p : APath := .pcie; let half : BitVec 1 := 1; let data : Word := 1; let s : State := up.setReg .epsel (copyInst 1 (apathCode .pcie)) 4095;
      data.getLsbD 0 = true ∧ (s.reg .epsel (copyInst half.toNat (apathCode p))).toNat ≠ 0) := by
  refine ⟨?_, ?_, ?_, ?_, ?_, ?_, ?_, ?_, ?_, ?_, ?_, ?_, ?_, ?_, ?_, ?_, ?_, ?_, ?_, ?_, ?_⟩ <;> decide +kernel

/-- States and operands that meet the hypotheses of `Obligations.LearningEventsComplete`, clause by clause. -/
theorem wit_LearningEventsComplete :
    (let half : BitVec 1 := 1; let e : LrnEv := ⟨1, 2, 0, 3, none⟩; let rest : List LrnEv := [];
      let s : State := up.setFwd 1 { up.fwdOf 1 with lrnQ := [e] }; (s.fwdOf half.toNat).lrnQ = e :: rest ∧ s.served half.toNat tblLearn = true) ∧
    (let half : BitVec 1 := 1; let bd : Nat := 1; let mac : Nat := 2; let rest : List (Nat × Nat) := []; let i : Nat := overflowBase + 4095;
      let x : BrEnt := ⟨false, false, 0, 0, 0, 0, 5, none, 1, 2⟩;
      let s : State := up.setFwd 1 { up.fwdOf 1 with refreshQ := [(1, 2)], bridge := [(overflowBase + 4095, x)] }; let u := s.landWrites;
      let v := u.wantTime half.toNat tblMaint; let w := v.setFwd half.toNat { v.fwdOf half.toNat with refreshQ := rest };
      (u.fwdOf half.toNat).refreshQ = (bd, mac) :: rest ∧ u.maintWaits half.toNat = false ∧ u.served half.toNat tblMaint = true ∧
      w.brFind half.toNat bd mac = some (i, x)) ∧
    (let half : BitVec 1 := 1; let s : State := { up with elapsed := secUnit * 1000 };
      let due := (s.fwdOf half.toNat).tickAt + msSpan (100 * s.fld .brAgeCfgTick half.toNat); due ≤ s.elapsed) ∧
    (let half : BitVec 1 := 1; let n : Nat := 1048831; let s : State := up.setFwd 1 { up.fwdOf 1 with scan := some 1048831 }; let u := s.landWrites;
      (u.fwdOf half.toNat).scan = some n ∧ u.maintWaits half.toNat = false ∧ (u.fwdOf half.toNat).refreshQ = [] ∧
      u.served half.toNat tblMaint = true) ∧
    (let half : BitVec 1 := 1; let n : Nat := 1048575; let s : State := up.setFwd 1 { up.fwdOf 1 with scan := some 1048575 }; let u := s.landWrites;
      (u.fwdOf half.toNat).scan = some n ∧ u.maintWaits half.toNat = false ∧ (u.fwdOf half.toNat).refreshQ = [] ∧
      u.served half.toNat tblMaint = true) ∧
    (let half : BitVec 1 := 1; let s : State := up.setFwd 1 { up.fwdOf 1 with late := 2 }; (s.fwdOf half.toNat).late ≠ 0) ∧
    (let half : BitVec 1 := 1; let slot : Nat := 4095; let x : BrEnt := ⟨false, false, 0, 0, 0, 0, 5, none, 1, 2⟩; let w : Nat := 2191612;
      let s : State := up.setFwd 1 { up.fwdOf 1 with bridge := [(overflowBase + 4095, x)] }; let u := s.landWrites;
      u.nextSlot half.toNat = some slot ∧ u.maintWaits half.toNat = false ∧ (u.fwdOf half.toNat).refreshQ = [] ∧ (u.fwdOf half.toNat).scan = none ∧
      u.served half.toNat tblMaint = true ∧ u.br half.toNat (overflowBase + slot) = some x ∧
      u.brFree half.toNat 4 (4 * u.bucket half.toNat x.bd x.mac) = some w) := by
  refine ⟨?_, ?_, ?_, ?_, ?_, ?_, ?_⟩ <;> decide +kernel

/-- States and operands that meet the hypotheses of `Obligations.QueueCommandsComplete`, clause by clause. -/
theorem wit_QueueCommandsComplete :
    (let h : Hdr := hd 1; let prf : Word := 63; let mn : Word := 48; let mx : Word := 48; let ag : Word := 255; let ay : Word := 255;
      let ar : Word := 255; let dpy : Word := 15; let dpr : Word := 15; let s : State := up; s.ready h 0x0900 (.oneOf [0, 1]) = true ∧
      profileNumbersOk prf.toNat mn.toNat mx.toNat ag.toNat ay.toNat ar.toNat dpy.toNat dpr.toNat = true ∧ s.claimed h.die.toNat .qm = false) ∧
    (let h : Hdr := hd 1; let prf : Word := 63; let mn : Word := 65535; let mx : Word := 65535; let ag : Word := 255; let ay : Word := 255;
      let ar : Word := 255; let dpy : Word := 15; let dpr : Word := 15; let s : State := up; s.ready h 0x0900 (.oneOf [0, 1]) = true ∧
      profileNumbersOk prf.toNat mn.toNat mx.toNat ag.toNat ay.toNat ar.toNat dpy.toNat dpr.toNat = true ∧ s.claimed h.die.toNat .qm = false) ∧
    (let h : Hdr := hd 1; let queue : Word := 0x3FFFD; let prf : Word := 63; let deepEn : Word := 1; let deepMax : Word := 4194303; let k : Nat := 1;
      let q : Nat := 0x3FFFD; let s : State := up;
      s.ready h 0x0901 (match (queueOf s queue).bind s.queueHalf with | some half => .owner half | none => .oneOf [0, 1]) = true ∧
      queueOf s queue = some q ∧ s.commandHalf h q = some k ∧ prf.toNat < 64 ∧ deepEn.toNat < 2 ∧ deepMax.toNat < 4194304 ∧ s.claimed k .qm = false) ∧
    (let h : Hdr := hd 1; let ing : Word := 1; let rsm : Word := 1; let host : Word := 1; let s : State := up;
      s.ready h 0x0902 (.oneOf [0, 1]) = true ∧ 1 ≤ ing.toNat ∧ ing.toNat ≤ 1023 ∧ 1 ≤ rsm.toNat ∧ rsm.toNat ≤ 1023 ∧ 1 ≤ host.toNat ∧
      host.toNat ≤ 1023 ∧ 64 * (ing.toNat + rsm.toNat + host.toNat) + s.minSum h.die.toNat ≤ 524288 ∧ s.claimed h.die.toNat .cst = false) ∧
    (let h : Hdr := hd 1; let spill : Word := 65535; let ret : Word := 65534; let s : State := up; s.ready h 0x0903 (.oneOf [0, 1]) = true ∧
      64 ≤ spill.toNat ∧ spill.toNat ≤ 65535 ∧ 1 ≤ ret.toNat ∧ ret.toNat < spill.toNat ∧ s.claimed h.die.toNat .dst = false) ∧
    (let h : Hdr := hd 1; let queue : Word := 0x3FFFD; let k : Nat := 1; let q : Nat := 0x3FFFD; let s : State := up;
      s.ready h 0x0904 (match (queueOf s queue).bind s.queueHalf with | some half => .owner half | none => .oneOf [0, 1]) = true ∧
      queueOf s queue = some q ∧ s.commandHalf h q = some k ∧ (s.start (callerOf h 0x0904)).asyncFull = false ∧ s.claimed k .qm = false) ∧
    (let half : BitVec 1 := 1; let q : Nat := 5; let c : Caller := cal; let rest : List (Nat × Caller) := [];
      let s : State := up.modStore 1 (fun st => { st with flushes := [(5, cal)] }); (s.storeOf half.toNat).flushes = (q, c) :: rest) ∧
    (let h : Hdr := hd 1; let queue : Word := 0x3FFFD; let k : Nat := 1; let q : Nat := 0x3FFFD; let s : State := up;
      s.ready h 0x0905 (match (queueOf s queue).bind s.queueHalf with | some half => .owner half | none => .oneOf [0, 1]) = true ∧
      queueOf s queue = some q ∧ s.commandHalf h q = some k) ∧
    (let h : Hdr := hd 1; let s : State := up; s.ready h 0x0906 (.oneOf [0, 1]) = true) := by
  refine ⟨?_, ?_, ?_, ?_, ?_, ?_, ?_, ?_, ?_⟩ <;> decide +kernel

/-- States and operands that meet the hypotheses of `Obligations.SchedulerCommandsComplete`, clause by clause. -/
theorem wit_SchedulerCommandsComplete :
    (let h : Hdr := hd 1; let w : NodeWords := ⟨1, 3, 16383, 1, 7, 65535, 512, 0, 0, 256, 256⟩; let s : State := up;
      s.ready h 0x0907 (.oneOf [0, 1]) = true ∧ s.nodeOk h.die.toNat w.dir.toNat w.level.toNat w.index.toNat = true ∧ w.enable.toNat < 2 ∧
      w.band.toNat < 8 ∧ 1 ≤ w.weight.toNat ∧ w.weight.toNat ≤ 65535 ∧ ratesOk w.cir w.pir w.cbs w.pbs = true ∧
      (hostParent w.dir.toNat w.level.toNat = true → s.parentFits h.die.toNat (ndNum w.dir.toNat w.level.toNat w.index.toNat) w.parent.toNat = true) ∧
      (w.level = 1 → w.cir = 0 ∧ w.pir = 0) ∧ (w.enable = 0 → s.hasChildren h.die.toNat (ndNum w.dir.toNat w.level.toNat w.index.toNat) = false) ∧
      s.claimed h.die.toNat .sch = false) ∧
    (let h : Hdr := hd 1; let w : NodeWords := ⟨0, 2, 95, 0, 0, 1, 0, 0, 0, 256, 256⟩; let s : State := up; s.ready h 0x0907 (.oneOf [0, 1]) = true ∧
      s.nodeOk h.die.toNat w.dir.toNat w.level.toNat w.index.toNat = true ∧ w.enable.toNat < 2 ∧ w.band.toNat < 8 ∧ 1 ≤ w.weight.toNat ∧
      w.weight.toNat ≤ 65535 ∧ ratesOk w.cir w.pir w.cbs w.pbs = true ∧
      (hostParent w.dir.toNat w.level.toNat = true → s.parentFits h.die.toNat (ndNum w.dir.toNat w.level.toNat w.index.toNat) w.parent.toNat = true) ∧
      (w.level = 1 → w.cir = 0 ∧ w.pir = 0) ∧ (w.enable = 0 → s.hasChildren h.die.toNat (ndNum w.dir.toNat w.level.toNat w.index.toNat) = false) ∧
      s.claimed h.die.toNat .sch = false) ∧
    (let h : Hdr := hd 1; let dir : Word := 0; let level : Word := 4; let index : Word := 32767; let s : State := up;
      s.ready h 0x0908 (.oneOf [0, 1]) = true ∧ s.nodeOk h.die.toNat dir.toNat level.toNat index.toNat = true) ∧
    (let h : Hdr := hd 1; let queue : Word := 0x3FFFD; let w : AttachWords := ⟨32767, 7, 65535, 7, 0, 0, 256, 256⟩; let k : Nat := 1;
      let q : Nat := 0x3FFFD; let s : State := up;
      s.ready h 0x0909 (match (queueOf s queue).bind s.queueHalf with | some half => .owner half | none => .oneOf [0, 1]) = true ∧
      queueOf s queue = some q ∧ s.commandHalf h q = some k ∧ w.band.toNat < 8 ∧ 1 ≤ w.weight.toNat ∧ w.weight.toNat ≤ 65535 ∧ w.gate.toNat < 8 ∧
      ratesOk w.cir w.pir w.cbs w.pbs = true ∧ s.attachOk k q w.parent.toNat = true ∧
      ((s.queue k q).attached = false → s.attachedCount k (qIsUp q) < (if qIsUp q then 65536 else 131072)) ∧ s.claimed k .sch = false) ∧
    (let h : Hdr := hd 1; let queue : Word := 0x3FFFD; let k : Nat := 1; let q : Nat := 0x3FFFD; let s : State := up;
      s.ready h 0x090A (match (queueOf s queue).bind s.queueHalf with | some half => .owner half | none => .oneOf [0, 1]) = true ∧
      queueOf s queue = some q ∧ s.commandHalf h q = some k ∧ (s.queue k q).depth = 0 ∧ (s.queue k q).frames.isEmpty = true ∧
      s.claimed k .sch = false) ∧
    (let h : Hdr := hd 1; let egress : Word := 200; let ovh : Word := 255; let k : Nat := 1; let g : Nat := 40; let s : State := up;
      s.ready h 0x090B (.owner k) = true ∧ s.controller egress = some (k, g) ∧ -64 ≤ signedOf 32 ovh.toNat ∧ signedOf 32 ovh.toNat ≤ 255 ∧
      s.claimed k .sch = false) ∧
    (let h : Hdr := hd 1; let egress : Word := 200; let ovh : Word := 0xFFFFFFC0; let k : Nat := 1; let g : Nat := 40; let s : State := up;
      s.ready h 0x090B (.owner k) = true ∧ s.controller egress = some (k, g) ∧ -64 ≤ signedOf 32 ovh.toNat ∧ signedOf 32 ovh.toNat ≤ 255 ∧
      s.claimed k .sch = false) ∧
    (let h : Hdr := hd 1; let policer : Word := 131071; let w : PolicerWords := ⟨1, 2, 1, 1, 1, 1, 0, 0, 256, 0⟩; let s : State := up;
      s.ready h 0x090C (.oneOf [0, 1]) = true ∧ policer.toNat < 131072 ∧ w.valid.toNat < 2 ∧ w.typ.toNat < 3 ∧ w.aware.toNat < 2 ∧ w.deiIn.toNat < 2 ∧
      w.cf.toNat < 2 ∧ w.redAct.toNat < 2 ∧ rateOk w.cir = true ∧ rateOk w.eir = true ∧ burstOk w.cbs = true ∧ (burstOk w.ebs = true ∨ w.ebs = 0) ∧
      s.claimed h.die.toNat .plc = false) ∧
    (let h : Hdr := hd 1; let policer : Word := 131071; let s : State := up; s.ready h 0x090D (.oneOf [0, 1]) = true ∧ policer.toNat < 131072) ∧
    (let h : Hdr := hd 1; let s : State := up; s.ready h 0x090E (.oneOf [0, 1]) = true) := by
  refine ⟨?_, ?_, ?_, ?_, ?_, ?_, ?_, ?_, ?_, ?_⟩ <;> decide +kernel

/-- States and operands that meet the hypotheses of `Obligations.GateCommandsComplete`, clause by clause. -/
theorem wit_GateCommandsComplete :
    (let h : Hdr := hd 1; let ctl : Word := 200; let gate : Word := 7; let gmax : Word := 12288; let guard : Word := 262143; let k : Nat := 1;
      let g : Nat := 40; let s : State := up; s.ready h 0x0A00 (.owner k) = true ∧ s.controller ctl = some (k, g) ∧ gate.toNat ≤ 7 ∧ 60 ≤ gmax.toNat ∧
      gmax.toNat ≤ 12288 ∧ guard.toNat ≤ 262143 ∧ s.claimed k .gt = false) ∧
    (let h : Hdr := hd 1; let ctl : Word := 200; let first : Word := 1023; let entries : List (Word × Word) := [(8, 255)]; let k : Nat := 1;
      let g : Nat := 40; let s : State := up; s.ready h 0x0A01 (.owner k) = true ∧ s.controller ctl = some (k, g) ∧ entries.length ≤ 508 ∧
      first.toNat + entries.length ≤ 1024 ∧ entries.all entryOk = true ∧ (s.storeOf k).armed.has g = false ∧ s.claimed k .gt = false) ∧
    (let h : Hdr := hd 1; let ctl : Word := 200; let base : T3 := ⟨0, 5, 999999999⟩; let cycle : Word := 1000000000; let count : Word := 1024;
      let k : Nat := 1; let g : Nat := 40; let s : State := up; s.ready h 0x0A02 (.owner k) = true ∧ s.controller ctl = some (k, g) ∧
      t3Ok base = true ∧ 1000 ≤ cycle.toNat ∧ cycle.toNat ≤ 1000000000 ∧ 1 ≤ count.toNat ∧ count.toNat ≤ 1024 ∧ (s.storeOf k).armed.has g = false ∧
      s.claimed k .gt = false) ∧
    (let h : Hdr := hd 1; let ctl : Word := 200; let base : T3 := ⟨0, 5, 999999999⟩; let cycle : Word := 1000; let count : Word := 1;
      let k : Nat := 1; let g : Nat := 40; let s : State := up; s.ready h 0x0A02 (.owner k) = true ∧ s.controller ctl = some (k, g) ∧
      t3Ok base = true ∧ 1000 ≤ cycle.toNat ∧ cycle.toNat ≤ 1000000000 ∧ 1 ≤ count.toNat ∧ count.toNat ≤ 1024 ∧ (s.storeOf k).armed.has g = false ∧
      s.claimed k .gt = false) ∧
    (let h : Hdr := hd 1; let ctl : Word := 200; let l : GateList := ⟨2 ^ 70, 1000, [(1000, 255)]⟩; let k : Nat := 1; let g : Nat := 40;
      let s : State := up.modStore 1 (fun st => { st with armed := [(40, l)] }); s.ready h 0x0A03 (.owner k) = true ∧ s.controller ctl = some (k, g) ∧
      (s.storeOf k).armed.find g = some l ∧ reached (s.nowOn k) l.start = false ∧ s.claimed k .gt = false) ∧
    (let h : Hdr := hd 1; let ctl : Word := 200; let base : T3 := ⟨0, 5, 999999999⟩; let k : Nat := 1; let g : Nat := 40; let s : State := up;
      s.ready h 0x0A04 (.owner k) = true ∧ s.controller ctl = some (k, g) ∧ t3Ok base = true ∧ (s.storeOf k).armed.has g = false ∧
      s.claimed k .gt = false) ∧
    (let h : Hdr := hd 1; let ctl : Word := 200; let k : Nat := 1; let g : Nat := 40; let s : State := up; s.ready h 0x0A05 (.owner k) = true ∧
      s.controller ctl = some (k, g)) ∧
    (let p : APath := .pcie; let half : BitVec 1 := 1; let ctl : BitVec 7 := 95; let data : Word := 0x80000400; let s : State := claim up 1 .gt;
      ctl.toNat < 96 ∧ s.gateless half.toNat ctl.toNat = false ∧ s.mayRwc p half.toNat .gt = true ∧ data.getLsbD 16 = false ∧ data.getLsbD 31 = true ∧
      1 ≤ fldOf .gtListCtlCount data ∧ fldOf .gtListCtlCount data ≤ 1024 ∧ (s.storeOf half.toNat).armed.has ctl.toNat = false) ∧
    (let p : APath := .pcie; let half : BitVec 1 := 1; let ctl : BitVec 7 := 95; let data : Word := 0x400;
      let l : GateList := ⟨2 ^ 70, 1000, [(1000, 255)]⟩; let s : State := (claim up 1 .gt).modStore 1 (fun st => { st with armed := [(95, l)] });
      ctl.toNat < 96 ∧ s.gateless half.toNat ctl.toNat = false ∧ s.mayRwc p half.toNat .gt = true ∧ data.getLsbD 16 = false ∧
      data.getLsbD 31 = false ∧ 1 ≤ fldOf .gtListCtlCount data ∧ fldOf .gtListCtlCount data ≤ 1024 ∧
      (s.storeOf half.toNat).armed.find ctl.toNat = some l ∧ reached (s.nowOn half.toNat) l.start = false) := by
  refine ⟨?_, ?_, ?_, ?_, ?_, ?_, ?_, ?_, ?_⟩ <;> decide +kernel

/-- States and operands that meet the hypotheses of `Obligations.StoreEventsComplete`, clause by clause. -/
theorem wit_StoreEventsComplete :
    (let half : BitVec 1 := 1; let qs : List Nat := [5]; let m : Meta := meta0; let rest : List (List Nat × Meta) := [];
      let e : LrnEv := ⟨1, 2, 0, 3, none⟩; let s : State := frontUp; (s.storeOf half.toNat).bridge = (qs, m) :: rest ∧ m.learn = some e ∧
      s.bridgeCut = false ∧ s.decisionsLeft half.toNat ≠ 0) ∧
    (let half : BitVec 1 := 1; let q : Nat := 6; let m : Meta := meta0; let rest : List (Nat × Meta) := []; let s : State := frontUp;
      (s.storeOf half.toNat).repl = (q, m) :: rest ∧ s.decisionsLeft half.toNat ≠ 0) ∧
    (let half : BitVec 1 := 1; let queue : BitVec 26 := 5; let p : Nat := 0;
      let s : State := up.setQueue 1 5 { QueueSt.empty with deep := true, tail := 16 }; let x := s.queue half.toNat queue.toNat;
      let v := (s.wantTime half.toNat (deepRation 0)).wantTime half.toNat (deepRation 1); x.deep = true ∧ 16 ≤ x.tail ∧
      v.rationWaits half.toNat (deepRation x.stack) = false ∧ v.freePage half.toNat x.stack = some p) ∧
    (let half : BitVec 1 := 1; let queue : BitVec 26 := 5; let ecc : BitVec 2 := 1; let p : Nat := 3; let live : Nat := 16;
      let rest : List (Nat × Nat) := []; let s : State := up.setQueue 1 5 { QueueSt.empty with deep := true, pages := [(3, 16)] };
      let x := s.queue half.toNat queue.toNat; x.pages = (p, live) :: rest ∧ x.headCells < 32 ∧ s.served half.toNat (deepRation (p / 2 ^ 22)) = true ∧
      ecc.toNat < 2) ∧
    (let half : BitVec 1 := 1; let queue : BitVec 26 := 5; let ecc : BitVec 2 := 2; let p : Nat := 3; let live : Nat := 16;
      let rest : List (Nat × Nat) := []; let s : State := up.setQueue 1 5 { QueueSt.empty with deep := true, pages := [(3, 16)] };
      let x := s.queue half.toNat queue.toNat; x.pages = (p, live) :: rest ∧ x.headCells < 32 ∧ s.served half.toNat (deepRation (p / 2 ^ 22)) = true ∧
      2 ≤ ecc.toNat) ∧
    (let half : BitVec 1 := 1; let ctl : BitVec 7 := 40; let l : GateList := ⟨0, 1000, [(1000, 255)]⟩;
      let s : State := up.modStore 1 (fun st => { st with armed := [(40, l)] }); (s.storeOf half.toNat).armed.find ctl.toNat = some l ∧
      reached (s.nowOn half.toNat) l.start = true) ∧
    (let ctl : BitVec 7 := 95; ctl.toNat < 96) ∧
    (let ctl : BitVec 7 := 95; ctl.toNat < 96) ∧
    (let port : Lane := 63; let x : HeldFrame := held0; let rest : List HeldFrame := []; let s : State := { heldUp with now := held0.departure };
      Tbl.getD s.lanes.held port.toNat [] = x :: rest ∧ reached (s.nowOn (dieOfLane port.toNat)) x.departure = true) ∧
    (let port : Lane := 63; let x : HeldFrame := held0; let rest : List HeldFrame := []; let s : State := { heldUp with now := held0.departure };
      Tbl.getD s.lanes.held port.toNat [] = x :: rest ∧ reached (s.nowOn (dieOfLane port.toNat)) x.departure = true ∧ x.origin = true) ∧
    (let port : Lane := 63; let x : HeldFrame := held0; let rest : List HeldFrame := []; let s : State := heldUp;
      Tbl.getD s.lanes.held port.toNat [] = x :: rest) := by
  refine ⟨?_, ?_, ?_, ?_, ?_, ?_, ?_, ?_, ?_, ?_, ?_⟩ <;> decide +kernel

/-- States and operands that meet the hypotheses of `Obligations.SkeinCommandsComplete`, clause by clause. -/
theorem wit_SkeinCommandsComplete :
    (let h : Hdr := hd 5; let tree : Word := 31; let k : Word := 1; let members : Word := 12; let skewMax : Word := 250; let holdKib : Word := 65535;
      let s : State := up; s.ready h 0x0600 (.owner (dieOfTree (tree.toNat % 32))) = true ∧ tree.toNat ≤ 31 ∧ k.toNat ≤ 1 ∧ members.toNat ≤ 15 ∧
      2 ≤ ((List.range 4).filter (fun w => members.toNat.testBit w)).length ∧ 1 ≤ skewMax.toNat ∧ skewMax.toNat ≤ 250 ∧ 1 ≤ holdKib.toNat ∧
      holdKib.toNat ≤ 65535 ∧
      (((List.range 4).filter (fun w => members.toNat.testBit w)).map (· + 4 * tree.toNat)).any (fun c => s.xgs c ≠ s.xgs ((((List.range 4).filter (fun w => members.toNat.testBit w)).map (· + 4 * tree.toNat)).headD 0)) = false ∧
      (((List.range 4).filter (fun w => members.toNat.testBit w)).map (· + 4 * tree.toNat)).any (fun c => (s.skeinOf c).isSome) = false ∧
      s.treeBarred tree.toNat = false ∧ s.claimed (dieOfTree tree.toNat) .skn = false ∧ s.hasSegment (halfOfTree tree.toNat) 1 = true ∧
      s.flag .sknCfgValid (2 * tree.toNat + k.toNat) = false ∧
      (s.onusOf tree.toNat).any (fun p => (((List.range 4).filter (fun w => members.toNat.testBit w)).map (· + 4 * tree.toNat)).contains p.2.chan) = false) ∧
    (let h : Hdr := hd 2; let tree : Word := 0; let k : Word := 0; let members : Word := 15; let skewMax : Word := 1; let holdKib : Word := 1;
      let s : State := up; s.ready h 0x0600 (.owner (dieOfTree (tree.toNat % 32))) = true ∧ tree.toNat ≤ 31 ∧ k.toNat ≤ 1 ∧ members.toNat ≤ 15 ∧
      2 ≤ ((List.range 4).filter (fun w => members.toNat.testBit w)).length ∧ 1 ≤ skewMax.toNat ∧ skewMax.toNat ≤ 250 ∧ 1 ≤ holdKib.toNat ∧
      holdKib.toNat ≤ 65535 ∧
      (((List.range 4).filter (fun w => members.toNat.testBit w)).map (· + 4 * tree.toNat)).any (fun c => s.xgs c ≠ s.xgs ((((List.range 4).filter (fun w => members.toNat.testBit w)).map (· + 4 * tree.toNat)).headD 0)) = false ∧
      (((List.range 4).filter (fun w => members.toNat.testBit w)).map (· + 4 * tree.toNat)).any (fun c => (s.skeinOf c).isSome) = false ∧
      s.treeBarred tree.toNat = false ∧ s.claimed (dieOfTree tree.toNat) .skn = false ∧ s.hasSegment (halfOfTree tree.toNat) 1 = true ∧
      s.flag .sknCfgValid (2 * tree.toNat + k.toNat) = false ∧
      (s.onusOf tree.toNat).any (fun p => (((List.range 4).filter (fun w => members.toNat.testBit w)).map (· + 4 * tree.toNat)).contains p.2.chan) = false) ∧
    (let h : Hdr := hd 5; let skein : Word := 63; let s : State := skeinUp; s.ready h 0x0601 (.owner (skeinDie skein.toNat)) = true ∧
      skein.toNat ≤ 63 ∧ s.flag .sknCfgValid skein.toNat = true ∧ s.treeBarred (skein.toNat / 2) = false ∧
      s.claimed (skeinDie skein.toNat) .skn = false ∧ s.skeinJoined skein.toNat = false) ∧
    (let h : Hdr := hd 5; let onu : Word := 20; let skein : Word := 63; let x : OnuSlot := inOp; let s : State := launch (oneOnu skeinUp 20 inOp) 31;
      s.ready h 0x0602 (s.onuRule onu.toNat) = true ∧ s.onu onu.toNat = some x ∧ s.treeBarred x.tree = false ∧
      s.unclaimed (onuBlocks x.tree [.act, .skn]) = true ∧ skein.toNat ≤ 63 ∧ s.flag .sknCfgValid skein.toNat = true ∧
      (s.skeinChans skein.toNat).contains x.chan = true ∧ x.phase = .operation ∧ x.migration = none ∧ s.skeinOnus.has onu.toNat = false ∧
      s.launched x.tree = true ∧ (s.start (callerOf h 0x0602)).asyncFull = false) ∧
    (let h : Hdr := hd 5; let onu : Word := 20; let j : SkeinOnu := joiner none; let x : OnuSlot := inOp; let s : State := joinUp none;
      s.ready h 0x0603 (s.onuRule onu.toNat) = true ∧ s.onu onu.toNat = some x ∧ s.treeBarred x.tree = false ∧
      s.unclaimed (onuBlocks x.tree [.act, .skn, .gnt]) = true ∧ s.skeinOnus.find onu.toNat = some j ∧ j.joining = none) ∧
    (let h : Hdr := hd 5; let onu : Word := 20; let allocId : Word := 1000; let member : Word := 3; let j : SkeinOnu := joiner none;
      let k : Nat := recKey 5 0; let r : AllocRec := newRec 31 20 1000 3; let x : OnuSlot := inOp;
      let s : State := { recUp with skeinOnus := [(20, joiner none)] }; s.ready h 0x0604 (s.onuRule onu.toNat) = true ∧ s.onu onu.toNat = some x ∧
      s.treeBarred x.tree = false ∧ s.unclaimed (onuBlocks x.tree [.act, .skn, .gnt]) = true ∧ s.skeinOnus.find onu.toNat = some j ∧
      s.recOf x.tree allocId.toNat = some (k, r) ∧ r.onu = onu.toNat ∧ j.members.any (fun m => m.1 = member.toNat) = true ∧
      s.prfValid (4 * x.tree + member.toNat) r.profile = true ∧ s.admits k { r with moveTo := some member.toNat } = true) ∧
    (let h : Hdr := hd 5; let skein : Word := 63; let s : State := up; s.ready h 0x0605 (.owner (skeinDie skein.toNat)) = true ∧ skein.toNat ≤ 63) ∧
    (let onu : Onu := 20; let x : OnuSlot := inOp; let j : SkeinOnu := joiner (some cal); let c : Caller := cal;
      let s : State := { oneOnu (skeinUp.setFld .sknCfgMembers 63 8) 20 inOp with skeinOnus := [(20, joiner (some cal))] }; s.onu onu.toNat = some x ∧
      s.skeinOnus.find onu.toNat = some j ∧ j.joining = some c ∧ (s.skeinChans j.skein).filter (fun d => d ≠ 4 * x.tree + j.anchor) = []) ∧
    (let onu : Onu := 20; let arrivals : List (BitVec 2 × BitVec 32) := [(2, 9)]; let x : OnuSlot := inOp; let j : SkeinOnu := joiner (some cal);
      let c : Caller := cal; let d : Nat := 126; let w : Window := rgWin; let a : BitVec 2 × BitVec 32 := (2, 9);
      let s : State := (joinUp (some cal)).setWindows 126 [rgWin]; s.onu onu.toNat = some x ∧ s.skeinOnus.find onu.toNat = some j ∧
      j.joining = some c ∧ (s.skeinChans j.skein).filter (fun d => d ≠ 4 * x.tree + j.anchor) = [d] ∧
      (s.windows d).find? (fun w => w.ranging = some onu.toNat) = some w ∧ arrivals.find? (fun a => a.1.toNat = d % 4) = some a) ∧
    (let onu : Onu := 20; let x : OnuSlot := inOp; let j : SkeinOnu := joiner (some cal); let c : Caller := cal; let d : Nat := 126;
      let s : State := { (joinUp (some cal)).setWindows 126 [rgWin] with elapsed := secUnit }; s.onu onu.toNat = some x ∧
      s.skeinOnus.find onu.toNat = some j ∧ j.joining = some c ∧ (s.skeinChans j.skein).filter (fun d => d ≠ 4 * x.tree + j.anchor) = [d] ∧
      (s.windows d).any (fun w => w.ranging = some onu.toNat && !s.windowOver d w) = false) := by
  refine ⟨?_, ?_, ?_, ?_, ?_, ?_, ?_, ?_, ?_, ?_⟩ <;> decide +kernel

/-- States and operands that meet the hypotheses of `Obligations.TributaryCommandsComplete`, clause by clause. -/
theorem wit_TributaryCommandsComplete :
    (let h : Hdr := hd 5; let trib : Word := 1023; let onu : Word := 20; let port : Word := 2000; let carrier : Word := 127;
      let allocIds : List Word := [1000]; let w : TribWords := tribW; let x : OnuSlot := inOp; let kk : Option Nat := none; let ws : List Nat := [3];
      let s : State := tribReady; s.ready h 0x0606 (.owner (2 + trib.toNat / 256)) = true ∧ s.onu onu.toNat = some x ∧
      s.carrierMembers onu.toNat carrier = some (kk, ws) ∧ trib.toNat ≤ 1023 ∧ dieOfTree x.tree = 2 + trib.toNat / 256 ∧
      s.holder x.tree 2 port.toNat = some onu.toNat ∧
      ((s.pon.ports.find (x.tree * 65536 + port.toNat)).map (fun (p : PonPort) => p.kind) = some 0 ∨ (s.pon.ports.find (x.tree * 65536 + port.toNat)).map (fun (p : PonPort) => p.kind) = some 1) ∧
      ws.length = allocIds.length ∧
      (ws.zip (allocIds.map (·.toNat))).all (fun m => ((s.recOf x.tree m.2).map (fun (r : Nat × AllocRec) => decide (r.2.onu = onu.toNat ∧
      s.recChan r.2 = 4 * x.tree + m.1))).getD false) = true ∧ tribNumbersOk w.nd.toNat w.q.toNat w.ppm.toNat w.wl.toNat w.wh.toNat = true ∧
      w.kind.toNat ≤ 1 ∧ w.udp.toNat ≤ 65535 ∧ decide (w.kind = 1) = decide (5625 < w.nd.toNat) ∧ (if w.kind = 1 then 1 ≤ w.payload.toNat ∧
      w.payload.toNat ≤ 8192 else 32 ≤ w.payload.toNat ∧ w.payload.toNat ≤ 1440) ∧ 125000 ≤ w.playout.toNat ∧ w.playout.toNat ≤ 1000000000 ∧
      s.tribCarried x.tree (ws.zip (allocIds.map (·.toNat))) w.nd.toNat w.q.toNat = true ∧ s.treeBarred x.tree = false ∧
      s.claimed (2 + trib.toNat / 256) .cad = false ∧ s.tribs.has trib.toNat = false ∧ s.hasSegment (halfOfTree x.tree) 1 = true ∧
      s.tribRoom trib.toNat w.wh.toNat w.nd.toNat w.q.toNat = true) ∧
    (let h : Hdr := hd 5; let trib : Word := 1023; let x : Trib := trib0; let y : OnuSlot := inOp;
      let s : State := { opUp with tribs := [(1023, trib0)] }; s.ready h 0x0607 (.owner (2 + trib.toNat / 256)) = true ∧ trib.toNat ≤ 1023 ∧
      s.tribs.find trib.toNat = some x ∧ s.onu x.onu = some y ∧ s.treeBarred y.tree = false ∧ s.claimed (2 + trib.toNat / 256) .cad = false) ∧
    (let h : Hdr := hd 5; let trib : Word := 1023; let s : State := up; s.ready h 0x0608 (.owner (2 + trib.toNat / 256)) = true ∧ trib.toNat ≤ 1023) ∧
    (let h : Hdr := hd 5; let trib : Word := 1023; let delta : Word := 7; let alpha : Word := 15; let s : State := up;
      s.ready h 0x0609 (.owner (2 + trib.toNat / 256)) = true ∧ trib.toNat ≤ 1023 ∧ 1 ≤ delta.toNat ∧ delta.toNat ≤ 7 ∧ 1 ≤ alpha.toNat ∧
      alpha.toNat ≤ 15 ∧ s.claimed (2 + trib.toNat / 256) .cad = false) ∧
    (let onu : Onu := 20; let j : SkeinOnu := { joiner none with held := [held1] }; let x : SkeinHeld := held1;
      let s : State := { up with skeinOnus := [(20, j)], elapsed := usSpan 250 }; s.skeinOnus.find onu.toNat = some j ∧ j.lowest = some x ∧
      x.arrival + usSpan (s.fld .sknCfgSkewMax j.skein) ≤ s.elapsed) ∧
    (let trib : BitVec 10 := 1023; let mfi : BitVec 8 := 255; let x : Trib := trib0; let s : State := tribBound; s.tribs.find trib.toNat = some x ∧
      s.overdue x mfi.toNat = true) ∧
    (let trib : BitVec 10 := 1023; let seq : BitVec 16 := 5; let stamp : Word := 0; let x : Trib := trib0; let s : State := tribBound;
      let ahead := (signedOf 32 ((stamp.toNat + 2 ^ 32 - shortOf (s.nowOn (2 + trib.toNat / 256))) % 2 ^ 32) + x.playout : Int); s.tribs.find trib.toNat = some x ∧
      x.seqRx = some seq.toNat ∧ x.inbox.isEmpty = false ∧ 0 ≤ ahead) ∧
    (let trib : BitVec 10 := 1023; let seq : BitVec 16 := 5; let stamp : Word := 0x80000000; let x : Trib := trib0; let s : State := tribBound;
      s.tribs.find trib.toNat = some x ∧ x.seqRx = some seq.toNat ∧ x.inbox.isEmpty = false ∧
      (signedOf 32 ((stamp.toNat + 2 ^ 32 - shortOf (s.nowOn (2 + trib.toNat / 256))) % 2 ^ 32) + x.playout : Int) < 0) ∧
    (let trib : BitVec 10 := 1023; let x : Trib := trib0; let p : Play := ⟨0, 256, false⟩; let rest : List Play := []; let s : State := tribBound;
      s.tribs.find trib.toNat = some x ∧ x.plays = p :: rest ∧ p.at_ ≤ s.elapsed) ∧
    (let p : APath := .pcie; let trib : BitVec 10 := 1023; let data : Word := 1; let x : Trib := trib0; let y : OnuSlot := inOp;
      let s : State := ({ opUp with tribs := [(1023, trib0)] } : State); data.getLsbD 0 = true ∧ s.tribs.find trib.toNat = some x ∧
      s.onu x.onu = some y ∧ s.expertBarred p y.tree = false ∧
      fieldOf Fld.cadTribCfgValid.lo Fld.cadTribCfgValid.w (s.tribWord p (2 + trib.toNat / 256) Fld.cadTribCfgValid.reg) ≠ 1) ∧
    (let p : APath := .pcie; let trib : BitVec 10 := 768; let data : Word := 1; let x : Trib := { trib0 with members := [(3, 1000)] };
      let y : OnuSlot := inOp; let s : State := { tribReady with tribs := [(768, { trib0 with members := [(3, 1000)] })] };
      let die := 2 + trib.toNat / 256; let fld := fun (f : Fld) => fieldOf f.lo f.w (s.tribWord p die f.reg); let nd := fld .cadTribCfgNd;
      let q := fld .cadTribQQ; let ppm := fld .cadTribCfgPpm; let wl := (s.tribWord p die .cadTribWl).toNat;
      let wh := (s.tribWord p die .cadTribWh).toNat; let cadence := decide (fld .cadTribCfgPw = 1); data.getLsbD 0 = true ∧
      s.tribs.find trib.toNat = some x ∧ s.onu x.onu = some y ∧ s.expertBarred p y.tree = false ∧ fld .cadTribCfgValid = 1 ∧
      tribNumbersOk nd q ppm wl wh = true ∧ cadence = decide (5625 < nd) ∧ s.tribRoom trib.toNat wh nd q = true ∧
      s.tribCarried y.tree x.members nd q = true ∧ pwPayloadOk cadence x.payload = true) := by
  refine ⟨?_, ?_, ?_, ?_, ?_, ?_, ?_, ?_, ?_, ?_, ?_⟩ <;> decide +kernel

/-- States and operands that meet the hypotheses of `Obligations.ScratchCommandsComplete`, clause by clause. -/
theorem wit_ScratchCommandsComplete :
    (let h : Hdr := hd 5; let bank : Word := 11; let owner : Word := 1; let clear : Word := 1; let s : State := up;
      s.ready h 0x1300 (.oneOf [0, 1, 2, 3, 4, 5]) = true ∧ bankExists h.die.toNat bank.toNat = true ∧ clear.toNat < 2 ∧ owner.toNat ≤ 7 ∧
      s.handoverRefused h.die.toNat bank.toNat owner.toNat = none ∧ s.claimed (h.die.toNat) (bankBlk bank.toNat) = false) ∧
    (let h : Hdr := hd 1; let bank : Word := 191; let owner : Word := 3; let clear : Word := 0; let s : State := up.setDomain 375 true;
      s.ready h 0x1300 (.oneOf [0, 1, 2, 3, 4, 5]) = true ∧ bankExists h.die.toNat bank.toNat = true ∧ clear.toNat < 2 ∧ owner.toNat ≤ 7 ∧
      s.handoverRefused h.die.toNat bank.toNat owner.toNat = none ∧ s.claimed (h.die.toNat) (bankBlk bank.toNat) = false) ∧
    (let h : Hdr := hd 5; let bank : Word := 11; let offset : Word := 262140; let count : Word := 1; let s : State := up.setDomain 375 true;
      s.ready h 0x1301 (.oneOf [0, 1, 2, 3, 4, 5]) = true ∧ rangeOk h.die.toNat bank.toNat offset.toNat count.toNat 1023 = true ∧ h.path ≠ .inband ∧
      s.bankOn h.die.toNat bank.toNat = true ∧ s.bankOwner h.die.toNat bank.toNat = 0) ∧
    (let h : Hdr := hd 5; let bank : Word := 8; let offset : Word := 262140; let words : List Word := [7]; let s : State := up.setDomain 375 true;
      s.ready h 0x1302 (.oneOf [0, 1, 2, 3, 4, 5]) = true ∧ rangeOk h.die.toNat bank.toNat offset.toNat words.length 1020 = true ∧ h.path ≠ .inband ∧
      s.claimed (h.die.toNat) .sp = false ∧ s.bankOn h.die.toNat bank.toNat = true ∧ s.bankOwner h.die.toNat bank.toNat = 0) ∧
    (let h : Hdr := hd 5; let dir : Word := 1; let bank : Word := 11; let offset : Word := 262080; let hostHi : Word := 0; let hostLo : Word := 64;
      let len : Word := 64; let s : State := up.setBank 5 11 5 false false; s.ready h 0x1303 (.oneOf [0, 1, 2, 3, 4, 5]) = true ∧ h.path = .pcie ∧
      dir.toNat ≤ 1 ∧ bankExists h.die.toNat bank.toNat = true ∧ hostAddress hostHi hostLo % 64 = 0 ∧ offset.toNat % 64 = 0 ∧ len.toNat % 64 = 0 ∧
      64 ≤ len.toNat ∧ len.toNat ≤ 2 ^ 24 ∧ offset.toNat + len.toNat ≤ bankWords h.die.toNat bank.toNat * 4 ∧
      s.claimed (h.die.toNat) (bankBlk bank.toNat) = false ∧ s.bankOn h.die.toNat bank.toNat = true ∧
      s.bankOwner h.die.toNat bank.toNat = (if 64 ≤ bank.toNat then 3 else 5) ∧ (s.pads.dmas.filter (fun x => x.die = h.die.toNat)).length < 4 ∧
      (s.start (callerOf h 0x1303)).asyncFull = false) ∧
    (let die : BitVec 3 := 5; let bank : Byte := 11; let x : Handover := ⟨5, 11, 1, true, none⟩; let s : State := pads0 [x] [];
      s.pads.handovers.find? (fun y => decide (y.die = die.toNat ∧ y.bank = bank.toNat)) = some x ∧ bank.toNat < 64) ∧
    (let die : BitVec 3 := 1; let bank : Byte := 191; let x : Handover := ⟨1, 191, 1, true, none⟩; let s : State := pads0 [x] [];
      s.pads.handovers.find? (fun y => decide (y.die = die.toNat ∧ y.bank = bank.toNat)) = some x ∧ 64 ≤ bank.toNat ∧
      s.flag .sysRtnStatSpent (die.toNat * 64 + scrubRation bank.toNat) = false) ∧
    (let p : APath := .pcie; let die : BitVec 3 := 5; let bank : Byte := 11; let data : Word := 1; let s : State := claim up 5 .sp;
      bankExists die.toNat bank.toNat = true ∧ s.dieFused die.toNat = false ∧
      fieldOf 0 3 data ≠ fieldOf 0 3 (s.reg (bankReg bank.toNat) (bankInst die.toNat bank.toNat)) ∧ s.mayRwc p die.toNat (bankBlk bank.toNat) = true ∧
      s.handoverRefused die.toNat bank.toNat (fieldOf 0 3 data) = none) ∧
    (let die : BitVec 3 := 5; let m : BitVec 2 := 0; let x : DmaXfer := dma0; let s : State := pads0 [] [dma0]; let left := x.span x.len - x.served;
      (s.pads.dmas.filter (fun x => x.die = die.toNat))[m.toNat]? = some x ∧ s.bankPending x.die x.bank = false ∧ s.served x.die x.ration = true ∧
      (s.wantTime x.die x.ration).rationSpan x.die x.ration left = left) ∧
    (let s : State := at_ up (msSpan 101); s.laosh.linkUp = false ∧ s.laosh.downAt + msSpan 100 < s.elapsed) := by
  refine ⟨?_, ?_, ?_, ?_, ?_, ?_, ?_, ?_, ?_, ?_⟩ <;> decide +kernel

/-- States and operands that meet the hypotheses of `Obligations.FrontEventsComplete`, clause by clause. -/
theorem wit_FrontEventsComplete :
    (let l : Lane := 63; let s : State := portUp63; s.lineRx (s.portOf l.toNat) = true) ∧
    (let l : Lane := 63; let e : FrameEnd := ⟨0, false⟩; let v : Verdict := ⟨⟨1, 64, []⟩, none, true, none, false⟩; let rest : List Verdict := [];
      let s : State := up.setSecy 63 { secyEmpty with verdicts := [⟨⟨1, 64, []⟩, none, true, none, false⟩] }; (s.secy (s.portOf l.toNat)).verdicts = v :: rest ∧
      v.coming = true ∧ e.fcsOk = false) ∧
    (let l : Lane := 63; let e : FrameEnd := ⟨0, false⟩; let v : Verdict := ⟨⟨1, 64, []⟩, none, false, none, true⟩; let rest : List Verdict := [];
      let s : State := up.setSecy 63 { secyEmpty with verdicts := [⟨⟨1, 64, []⟩, none, false, none, true⟩] }; (s.secy (s.portOf l.toNat)).verdicts = v :: rest ∧
      (v.coming = false ∨ e.fcsOk = true) ∧ v.refused = true) ∧
    (let l : Lane := 63; let e : FrameEnd := ⟨0, true⟩; let v : Verdict := ⟨⟨1, 64, []⟩, some (4, 5), true, none, false⟩;
      let rest : List Verdict := []; let s : State := up.setSecy 63 { secyEmpty with verdicts := [⟨⟨1, 64, []⟩, some (4, 5), true, none, false⟩] };
      let k := 4; let pn := 5; (s.secy (s.portOf l.toNat)).verdicts = v :: rest ∧ (v.coming = false ∨ e.fcsOk = true) ∧ v.refused = false ∧
      v.sa = some (k, pn)) ∧
    (let l : Lane := 63; let e : FrameEnd := ⟨0, true⟩; let v : Verdict := ⟨⟨1, 64, []⟩, none, true, none, false⟩; let rest : List Verdict := [];
      let s : State := up.setSecy 63 { secyEmpty with verdicts := [⟨⟨1, 64, []⟩, none, true, none, false⟩] }; (s.secy (s.portOf l.toNat)).verdicts = v :: rest ∧
      (v.coming = false ∨ e.fcsOk = true) ∧ v.refused = false ∧ v.sa = none) ∧
    (let s : State := ringsUp; s.unread 0 = true ∧ s.replyRoom = true) ∧
    (let w0 : Word := 0x4000003C; let w2 : Word := 0; let s : State := ringsUp; s.unread 3 = true ∧ fieldOf 30 2 w0 = 1 ∧ 60 ≤ fieldOf 0 14 w0 ∧
      fieldOf 0 14 w0 ≤ 12288 ∧
      s.hostUsed ((s.queueHalf (fieldOf 0 19 w2)).getD 0) + cellsOf (fieldOf 0 14 w0) ≤ s.hostPool ((s.queueHalf (fieldOf 0 19 w2)).getD 0) ∧
      s.decisionsLeft ((s.queueHalf (fieldOf 0 19 w2)).getD 0) ≠ 0) ∧
    (let w0 : Word := 0x40003000; let w2 : Word := 0; let s : State := ringsUp; s.unread 3 = true ∧ fieldOf 30 2 w0 = 1 ∧ 60 ≤ fieldOf 0 14 w0 ∧
      fieldOf 0 14 w0 ≤ 12288 ∧
      s.hostUsed ((s.queueHalf (fieldOf 0 19 w2)).getD 0) + cellsOf (fieldOf 0 14 w0) ≤ s.hostPool ((s.queueHalf (fieldOf 0 19 w2)).getD 0) ∧
      s.decisionsLeft ((s.queueHalf (fieldOf 0 19 w2)).getD 0) ≠ 0) ∧
    (let s : State := ringsUp; s.i3cUp = true ∧ s.laosh.mailbox = [] ∧ s.inflight .i3c = 0) ∧
    (let tag : BitVec 16 := 1; let r : Reply := (callerOf (hd 0) 0).reply .ok [];
      let s : State := { ringsUp with laosh := { ringsUp.laosh with mailbox := [r] } }; s.i3cUp = true ∧ s.laosh.mailbox = [r] ∧ r.tag = tag) ∧
    (let r : Reply := (callerOf (hd 0) 0).reply .ok []; let rest : List Reply := [];
      let s : State := { ringsUp with laosh := { ringsUp.laosh with mailbox := [r] } }; s.i3cUp = true ∧ s.laosh.armedRead = none ∧
      s.laosh.mailbox = r :: rest) ∧
    (let s : State := ringsUp; s.i3cUp = true) ∧
    (let s : State := ringsUp; s.i3cUp = true) ∧
    (let l : Lane := 63; let s : State := { portUp63 with laosh := { up.laosh with inbandPorts := [63] } };
      s.laosh.inbandPorts.contains (s.portOf l.toNat) = true ∧ s.portUp (s.portOf l.toNat) = true ∧
      (s.laosh.inbandWait.filter (fun w => w.1 = (s.portOf l.toNat))).length < 16) ∧
    (let p : APath := .pcie; let data : Word := 0; let s : State := up; s.sel .rgsel 0 (apathCode p) % 4 = 0 ∧
      fldOf .lshRingPtrHost data < s.ringSize 0) ∧
    (let p : APath := .pcie; let data : Word := 0x80040000; let s : State := up;
      (writeWord .lshRingCfg (s.reg .lshRingCfg (s.sel .rgsel 0 (apathCode p) % 4)) data true).2.1 = false ∧
      fldOf .lshRingCfgEn (s.reg .lshRingCfg (s.sel .rgsel 0 (apathCode p) % 4)) = 0 ∧
      fldOf .lshRingCfgEn (writeWord .lshRingCfg (s.reg .lshRingCfg (s.sel .rgsel 0 (apathCode p) % 4)) data true).1 = 1) := by
  refine ⟨?_, ?_, ?_, ?_, ?_, ?_, ?_, ?_, ?_, ?_, ?_, ?_, ?_, ?_, ?_, ?_⟩ <;> decide +kernel

/-- States and operands that meet the hypotheses of `Obligations.StitchArithmeticCompletes`, clause by clause. -/
theorem wit_StitchArithmeticCompletes :
    (let q : BitVec 5 := 22; let d : BitVec 4 := 15; let a : BitVec 4 := 1; let s : State := runUp; s.delivers q.toNat 0x00 [fmtD d, fmtA a] = true) ∧
    (let q : BitVec 5 := 22; let d : BitVec 4 := 15; let a : BitVec 4 := 1; let b : BitVec 4 := 2; let s : State := runUp;
      s.delivers q.toNat 0x01 [fmtD d, fmtA a, fmtB b] = true) ∧
    (let q : BitVec 5 := 22; let d : BitVec 4 := 15; let a : BitVec 4 := 1; let b : BitVec 4 := 2; let s : State := runUp;
      s.delivers q.toNat 0x02 [fmtD d, fmtA a, fmtB b] = true) ∧
    (let q : BitVec 5 := 22; let d : BitVec 4 := 15; let a : BitVec 4 := 1; let b : BitVec 4 := 2; let s : State := runUp;
      s.delivers q.toNat 0x03 [fmtD d, fmtA a, fmtB b] = true) ∧
    (let q : BitVec 5 := 22; let d : BitVec 4 := 15; let a : BitVec 4 := 1; let b : BitVec 4 := 2; let s : State := runUp;
      s.delivers q.toNat 0x04 [fmtD d, fmtA a, fmtB b] = true) ∧
    (let q : BitVec 5 := 22; let d : BitVec 4 := 15; let a : BitVec 4 := 1; let b : BitVec 4 := 2; let s : State := runUp;
      s.delivers q.toNat 0x05 [fmtD d, fmtA a, fmtB b] = true) ∧
    (let q : BitVec 5 := 22; let d : BitVec 4 := 15; let a : BitVec 4 := 1; let b : BitVec 4 := 2; let s : State := runUp;
      s.delivers q.toNat 0x06 [fmtD d, fmtA a, fmtB b] = true) ∧
    (let q : BitVec 5 := 22; let d : BitVec 4 := 15; let a : BitVec 4 := 1; let b : BitVec 4 := 2; let s : State := runUp;
      s.delivers q.toNat 0x07 [fmtD d, fmtA a, fmtB b] = true) ∧
    (let q : BitVec 5 := 22; let a : BitVec 4 := 1; let b : BitVec 4 := 2; let s : State := runUp; s.delivers q.toNat 0x08 [fmtA a, fmtB b] = true) ∧
    (let q : BitVec 5 := 22; let a : BitVec 4 := 1; let b : BitVec 4 := 2; let s : State := runUp; s.delivers q.toNat 0x09 [fmtA a, fmtB b] = true) ∧
    (let q : BitVec 5 := 22; let d : BitVec 4 := 15; let imm : BitVec 16 := 0xFFFF; let s : State := runUp;
      s.delivers q.toNat 0x10 [fmtD d, fmtImm imm] = true) ∧
    (let q : BitVec 5 := 22; let d : BitVec 4 := 15; let imm : BitVec 16 := 0xFFFF; let s : State := runUp;
      s.delivers q.toNat 0x11 [fmtD d, fmtImm imm] = true) ∧
    (let q : BitVec 5 := 22; let d : BitVec 4 := 15; let imm : BitVec 16 := 0xFFFF; let s : State := runUp;
      s.delivers q.toNat 0x12 [fmtD d, fmtImm imm] = true) ∧
    (let q : BitVec 5 := 22; let d : BitVec 4 := 15; let imm : BitVec 16 := 0xFFFF; let s : State := runUp;
      s.delivers q.toNat 0x13 [fmtD d, fmtImm imm] = true) := by
  refine ⟨?_, ?_, ?_, ?_, ?_, ?_, ?_, ?_, ?_, ?_, ?_, ?_, ?_, ?_⟩ <;> decide +kernel

/-- States and operands that meet the hypotheses of `Obligations.StitchControlCompletes`, clause by clause. -/
theorem wit_StitchControlCompletes :
    (let q : BitVec 5 := 17; let d : BitVec 4 := 15; let a : BitVec 4 := 0; let offset : BitVec 18 := 0x3FFFC; let b : Nat := 0; let w : Nat := 65535;
      let s : State := run17; s.delivers q.toNat 0x1A [fmtD d, fmtA a, fmtOffset offset] = true ∧
      s.padsOn (seqDie q.toNat) ((s.seq q.toNat).ctx.address a offset) = true ∧
      s.firmwareWord (seqDie q.toNat) ((s.seq q.toNat).ctx.address a offset) = some (b, w)) ∧
    (let q : BitVec 5 := 17; let d : BitVec 4 := 15; let a : BitVec 4 := 0; let offset : BitVec 18 := 0x3FFFC; let b : Nat := 0; let w : Nat := 65535;
      let s : State := run17; s.delivers q.toNat 0x1B [fmtD d, fmtA a, fmtOffset offset] = true ∧
      s.padsOn (seqDie q.toNat) ((s.seq q.toNat).ctx.address a offset) = true ∧
      s.firmwareWord (seqDie q.toNat) ((s.seq q.toNat).ctx.address a offset) = some (b, w)) ∧
    (let q : BitVec 5 := 22; let d : BitVec 4 := 15; let a : BitVec 4 := 0; let offset : BitVec 18 := 0x3FFFC; let s : State := runUp;
      s.delivers q.toNat 0x1A [fmtD d, fmtA a, fmtOffset offset] = true ∧ s.padsOn (seqDie q.toNat) ((s.seq q.toNat).ctx.address a offset) = true ∧
      s.firmwareWord (seqDie q.toNat) ((s.seq q.toNat).ctx.address a offset) = none) ∧
    (let q : BitVec 5 := 22; let d : BitVec 4 := 15; let a : BitVec 4 := 0; let offset : BitVec 18 := 0x3FFFC; let s : State := runUp;
      s.delivers q.toNat 0x1B [fmtD d, fmtA a, fmtOffset offset] = true ∧ s.padsOn (seqDie q.toNat) ((s.seq q.toNat).ctx.address a offset) = true ∧
      s.firmwareWord (seqDie q.toNat) ((s.seq q.toNat).ctx.address a offset) = none) ∧
    (let q : BitVec 5 := 5; let d : BitVec 4 := 15; let a : BitVec 4 := 1; let offset : BitVec 18 := 0; let s : State := darkUp;
      s.delivers q.toNat 0x1A [fmtD d, fmtA a, fmtOffset offset] = true ∧ s.padsOn (seqDie q.toNat) ((s.seq q.toNat).ctx.address a offset) = false) ∧
    (let q : BitVec 5 := 5; let d : BitVec 4 := 15; let a : BitVec 4 := 1; let offset : BitVec 18 := 0; let s : State := darkUp;
      s.delivers q.toNat 0x1B [fmtD d, fmtA a, fmtOffset offset] = true ∧ s.padsOn (seqDie q.toNat) ((s.seq q.toNat).ctx.address a offset) = false) ∧
    (let q : BitVec 5 := 22; let d : BitVec 4 := 15; let a : BitVec 4 := 1; let offset : BitVec 18 := 0; let s : State := runUp;
      s.delivers q.toNat 0x18 [fmtD d, fmtA a, fmtOffset offset] = true) ∧
    (let q : BitVec 5 := 22; let d : BitVec 4 := 15; let a : BitVec 4 := 1; let offset : BitVec 18 := 0; let s : State := runUp;
      s.delivers q.toNat 0x19 [fmtD d, fmtA a, fmtOffset offset] = true) ∧
    (let q : BitVec 5 := 22; let d : BitVec 4 := 15; let a : BitVec 4 := 0; let offset : BitVec 18 := 0; let c : Caller := callerOf (hd 7) 0x0109;
      let ps : List Word := [9]; let v : Word := 9; let s : State := runUp; s.delivers q.toNat 0x1C [fmtD d, fmtA a, fmtOffset offset] = true ∧
      (s.seq q.toNat).ctx.item = some (.command c ps) ∧ ps[(s.seq q.toNat).ctx.address a offset]? = some v) ∧
    (let q : BitVec 5 := 22; let d : BitVec 4 := 15; let a : BitVec 4 := 0; let offset : BitVec 18 := 0; let s : State := runUp;
      s.delivers q.toNat 0x1D [fmtD d, fmtA a, fmtOffset offset] = true) ∧
    (let q : BitVec 5 := 22; let cond : BitVec 4 := 8; let target : BitVec 17 := 131071; let b : Bool := true; let s : State := runUp;
      s.delivers q.toNat 0x20 [(22, 4, cond.toNat), fmtTarget target] = true ∧ (s.seq q.toNat).ctx.cond cond.toNat = some b) ∧
    (let q : BitVec 5 := 22; let target : BitVec 17 := 131071; let s : State := runUp; s.delivers q.toNat 0x21 [fmtTarget target] = true ∧
      (s.seq q.toNat).ctx.stack.length < 8) ∧
    (let q : BitVec 5 := 22; let r : Nat := 5; let rest : List Nat := []; let s : State := runUp; s.delivers q.toNat 0x22 [] = true ∧
      (s.seq q.toNat).ctx.stack = r :: rest) ∧
    (let q : BitVec 5 := 22; let target : BitVec 17 := 131071; let s : State := runUp; s.delivers q.toNat 0x23 [fmtTarget target] = true) ∧
    (let q : BitVec 5 := 22; let s : State := runUp; s.delivers q.toNat 0x24 [] = true) ∧
    (let q : BitVec 5 := 22; let cond : BitVec 5 := 0; let arg : BitVec 4 := 0; let cls : BitVec 4 := 15; let s : State := runUp;
      s.delivers q.toNat 0x28 (fmtWait cond arg cls) = true ∧ cond.toNat < 12 ∧
      s.waitHolds q.toNat (s.newWait q.toNat cond.toNat ((s.seq q.toNat).ctx.get arg.toNat) cls.toNat) = some true) ∧
    (let q : BitVec 5 := 22; let cond : BitVec 5 := 7; let arg : BitVec 4 := 0; let cls : BitVec 4 := 15; let s : State := runUp;
      s.delivers q.toNat 0x28 (fmtWait cond arg cls) = true ∧ cond.toNat < 12 ∧
      s.waitHolds q.toNat (s.newWait q.toNat cond.toNat ((s.seq q.toNat).ctx.get arg.toNat) cls.toNat) = some true) ∧
    (let q : BitVec 5 := 22; let cond : BitVec 5 := 5; let arg : BitVec 4 := 0; let cls : BitVec 4 := 15; let s : State := runUp;
      s.delivers q.toNat 0x28 (fmtWait cond arg cls) = true ∧ cond.toNat < 12 ∧
      s.waitHolds q.toNat (s.newWait q.toNat cond.toNat ((s.seq q.toNat).ctx.get arg.toNat) cls.toNat) ≠ some true) ∧
    (let q : BitVec 5 := 17; let cond : BitVec 5 := 10; let arg : BitVec 4 := 0; let cls : BitVec 4 := 15; let s : State := run17;
      s.delivers q.toNat 0x29 (fmtWait cond arg cls) = true ∧ cond.toNat < 12 ∧
      s.waitHolds q.toNat (s.newWait q.toNat cond.toNat ((s.seq q.toNat).ctx.get arg.toNat) cls.toNat) ≠ some true ∧
      (s.seq q.toNat).ctx.accepted = true ∧ (s.seq q.toNat).parked.length < (if seqDie q.toNat < 2 then 64 else 16)) ∧
    (let q : BitVec 5 := 22; let cond : BitVec 5 := 10; let arg : BitVec 4 := 0; let cls : BitVec 4 := 0; let s : State := runUp;
      s.delivers q.toNat 0x29 (fmtWait cond arg cls) = true ∧ cond.toNat < 12 ∧
      s.waitHolds q.toNat (s.newWait q.toNat cond.toNat ((s.seq q.toNat).ctx.get arg.toNat) cls.toNat) ≠ some true ∧
      ((s.seq q.toNat).ctx.accepted = false ∨ (if seqDie q.toNat < 2 then 64 else 16) ≤ (s.seq q.toNat).parked.length)) ∧
    (let q : BitVec 5 := 22; let r : BitVec 4 := 0; let c : Caller := callerOf (hd 7) 0x0109; let ps : List Word := [9]; let z : Status := .ok;
      let s : State := runUp; s.delivers q.toNat 0x30 [fmtD r] = true ∧ (s.seq q.toNat).ctx.item = some (.command c ps) ∧
      Status.ofCode (((s.seq q.toNat).ctx.get r.toNat).toNat % 65536) = some z) ∧
    (let q : BitVec 5 := 22; let c : Caller := callerOf (hd 7) 0x0109; let ps : List Word := [9]; let s : State := runUp;
      s.delivers q.toNat 0x31 [] = true ∧ (s.seq q.toNat).ctx.item = some (.command c ps) ∧ (s.seq q.toNat).ctx.accepted = false) ∧
    (let q : BitVec 5 := 22; let src : BitVec 10 := 0; let e : Ev := (evOfSource 0).getD .tbActLate; let s : State := runUp;
      s.delivers q.toNat 0x32 [(0, 10, src.toNat)] = true ∧ evOfSource src.toNat = some e) ∧
    (let q : BitVec 5 := 22; let r : BitVec 4 := 15; let c : Chan := 127; let kind : BitVec 5 := 16; let k : PloamKind := .powerConsumptionInquire;
      let s : State := runUp; s.delivers q.toNat 0x33 [fmtD r, (0, 7, c.toNat)] = true ∧ ploamKinds[kind.toNat]? = some k ∧
      (s.chan c.toNat).ploams.length < 64 ∧ (s.chan c.toNat).offers = []) ∧
    (let q : BitVec 5 := 22; let r : BitVec 4 := 15; let target : BitVec 5 := 21; let s : State := runUp;
      s.delivers q.toNat 0x34 [fmtD r, (0, 5, target.toNat)] = true ∧ seqExists target.toNat = true) := by
  refine ⟨?_, ?_, ?_, ?_, ?_, ?_, ?_, ?_, ?_, ?_, ?_, ?_, ?_, ?_, ?_, ?_, ?_, ?_, ?_, ?_, ?_, ?_, ?_, ?_, ?_⟩ <;> decide +kernel

/-- States and operands that meet the hypotheses of `Obligations.SequencerEventsComplete`, clause by clause. -/
theorem wit_SequencerEventsComplete :
    (let q : BitVec 5 := 22; let item : SeqItem := .event 5; let rest : List SeqItem := []; let s : State := idle22 [.event 5] [];
      seqExists q.toNat = true ∧ s.seqState q.toNat = 1 ∧ (s.seq q.toNat).order = false ∧ s.trust.pending = none ∧ s.fwEvents = [] ∧
      (s.seq q.toNat).parked.find? (fun p => p.woken.isSome) = none ∧ (s.seq q.toNat).work = item :: rest) ∧
    (let q : BitVec 5 := 22; let c : Caller := callerOf (hd 7) 0x0109; let ps : List Word := [9]; let rest : List SeqItem := [];
      let s : State := idle22 [cmdItem] []; seqExists q.toNat = true ∧ s.seqState q.toNat = 1 ∧ (s.seq q.toNat).order = false ∧
      s.trust.pending = none ∧ s.fwEvents = [] ∧ (s.seq q.toNat).parked.find? (fun p => p.woken.isSome) = none ∧
      (s.seq q.toNat).work = .command c ps :: rest ∧ s.mayStart c = true) ∧
    (let q : BitVec 5 := 22; let p : Parked := ⟨SeqCtx.empty, ⟨5, 0, 0, 0, false⟩, some true⟩;
      let s : State := idle22 [] [⟨SeqCtx.empty, ⟨5, 0, 0, 0, false⟩, some true⟩]; seqExists q.toNat = true ∧ s.seqState q.toNat = 1 ∧
      (s.seq q.toNat).order = false ∧ s.trust.pending = none ∧ s.fwEvents = [] ∧ (s.seq q.toNat).parked.find? (fun p => p.woken.isSome) = some p) ∧
    (let q : BitVec 5 := 0; let src : Nat := 5; let rest : List Nat := []; let s : State := { up.setSeqState 0 1 with fwEvents := [5] };
      seqExists q.toNat = true ∧ s.seqState q.toNat = 1 ∧ (s.seq q.toNat).order = false ∧ s.trust.pending = none ∧ seqDie q.toNat = 0 ∧
      s.fwEvents = src :: rest) ∧
    (let q : BitVec 5 := 22; let r : SeqReport := .snResponse 127 77 9 0; let rest : List SeqReport := [];
      let s : State := (up.setSeq 22 { SeqSt.empty with reports := [.snResponse 127 77 9 0] }).setSeqState 22 1; seqExists q.toNat = true ∧
      s.seqState q.toNat = 1 ∧ (s.seq q.toNat).order = false ∧ s.trust.pending = none ∧ s.fwEvents = [] ∧
      (s.seq q.toNat).parked.find? (fun p => p.woken.isSome) = none ∧ (s.seq q.toNat).work = [] ∧ (s.seq q.toNat).reports = r :: rest) ∧
    (let q : BitVec 5 := 22; let s : State := (up.setSeq 22 { SeqSt.empty with order := true }).setSeqState 22 1; seqExists q.toNat = true ∧
      s.seqState q.toNat = 1 ∧ s.stopsTaking q.toNat = true) ∧
    (let q : BitVec 5 := 22; let event : Bool := true; let late : Bool := false; let w : SeqWait := ⟨10, 0, 0, 0, false⟩;
      let s : State := runUp.setSeq 22 { runUp.seq 22 with wait := some ⟨10, 0, 0, 0, false⟩ }; (s.seq q.toNat).wait = some w ∧
      s.waitEnded q.toNat w event = some late) ∧
    (let q : BitVec 5 := 22; let event : Bool := false; let late : Bool := true; let w : SeqWait := ⟨10, 0, 0, 0, false⟩;
      let s : State := runUp.setSeq 22 { runUp.seq 22 with wait := some ⟨10, 0, 0, 0, false⟩ }; (s.seq q.toNat).wait = some w ∧
      s.waitEnded q.toNat w event = some late) ∧
    (let q : BitVec 5 := 22; let k : BitVec 6 := 0; let event : Bool := true; let late : Bool := false;
      let p : Parked := ⟨SeqCtx.empty, ⟨10, 0, 0, 0, false⟩, none⟩; let s : State := idle22 [] [⟨SeqCtx.empty, ⟨10, 0, 0, 0, false⟩, none⟩];
      (s.seq q.toNat).parked[k.toNat]? = some p ∧ p.woken = none ∧ s.waitEnded q.toNat p.wait event = some late) ∧
    (let q : BitVec 5 := 22; let cause : BitVec 3 := 1; let addr : BitVec 17 := 0; let s : State := runUp; s.seqRuns q.toNat = true ∧
      (s.seq q.toNat).ctx.addr = addr.toNat ∧ s.faultFits q.toNat cause.toNat = true) ∧
    (let q : BitVec 5 := 22; let cause : BitVec 3 := 5; let addr : BitVec 17 := 0;
      let s : State := runUp.setSeq 22 { runUp.seq 22 with ctx := { (runUp.seq 22).ctx with item := some (.event 5), stack := [] } }; s.seqRuns q.toNat = true ∧
      (s.seq q.toNat).ctx.addr = addr.toNat ∧ s.faultFits q.toNat cause.toNat = true ∧ (s.seq q.toNat).parked = [] ∧
      itemCaller (s.seq q.toNat).ctx.item = none ∧ 6 ≤ seqDie q.toNat) ∧
    (let q : BitVec 5 := 15; let s : State := (up.setSeq 15 { SeqSt.empty with order := true }).setSeqState 15 5; seqExists q.toNat = true ∧
      (s.seq q.toNat).order = true ∧ s.seqHolds q.toNat = true ∧ s.spareFree (seqDie q.toNat) = true ∧ q.toNat ≠ spareSeq (seqDie q.toNat)) ∧
    (let d : Darn := darn0; let c : Caller := cal; let x : Nat := 0; let y : Nat := 0;
      let s : State := { up with trust := { up.trust with pending := some (darn0, cal, 0, 0) } }; s.trust.pending = some (d, c, x, y) ∧
      allSeqs.all s.seqHolds = true) ∧
    (let d : Darn := darn0; let c : Caller := cal; let x : Nat := 0; let y : Nat := 0;
      let s : State := { up with trust := { up.trust with pending := some (darn0, cal, 0, 0) }, elapsed := msSpan 10 }; s.trust.pending = some (d, c, x, y) ∧
      x + msSpan 10 ≤ s.elapsed) := by
  refine ⟨?_, ?_, ?_, ?_, ?_, ?_, ?_, ?_, ?_, ?_, ?_, ?_, ?_, ?_⟩ <;> decide +kernel

/-- States and operands that meet the hypotheses of `Obligations.KeyCommandsComplete`, clause by clause. -/
theorem wit_KeyCommandsComplete :
    (let h : Hdr := hd 15; let phase : Word := 0; let s : State := coUp; s.ready h 0x0B00 (.package) = true ∧ s.errorState = false ∧ s.lifecycle ≠ 0 ∧
      s.lifecycle ≠ 3 ∧ phase = 0 ∧ s.lifecycle = 2) ∧
    (let h : Hdr := hd 15; let sig : List Word := List.replicate 49 0; let m : Nat := 5; let s : State := coUp; s.ready h 0x0B00 (.package) = true ∧
      s.errorState = false ∧ s.lifecycle ≠ 0 ∧ s.lifecycle ≠ 3 ∧ s.lifecycle = 2 ∧ sig.length = 49 ∧
      s.cipher.nonces.find (pathCode h.path) = some m) ∧
    (let h : Hdr := hd 15; let s : State := coUp; s.ready h 0x0B01 (.package) = true ∧ s.errorState = false ∧ s.lifecycle ≠ 0 ∧ s.lifecycle ≠ 3 ∧
      (s.cipher.klks.has (pathCode h.path) = true → s.unclaimed [(0, .kv), (1, .kv)] = true)) ∧
    (let h : Hdr := hd 15; let pub : List Word := List.replicate 25 0; let id : Nat := 7; let s : State := coUp; s.ready h 0x0B02 (.package) = true ∧
      s.errorState = false ∧ s.lifecycle ≠ 0 ∧ s.lifecycle ≠ 3 ∧ pub.length = 25 ∧ s.claimed (0) .kv = false ∧ s.claimed (1) .kv = false ∧
      s.tampered = false ∧ s.cipher.identity = some id) ∧
    (let h : Hdr := hd 7; let kind : Word := 1; let target : Word := 56; let key : List Word := [1, 2, 3, 4]; let half : Nat := 1; let die : Nat := 7;
      let k : KeyKind := .sak; let s : State := coUp; s.ready h 0x0B03 (if kind = 2 then .owner half else .owner die) = true ∧
      s.loadTarget kind.toNat target.toNat = some (half, die, k) ∧ s.errorState = false ∧ s.lifecycle ≠ 0 ∧ s.lifecycle ≠ 3 ∧
      (key.length = 4 ∨ key.length = 8) ∧ s.unclaimed [(half, .kv), clusterBlk die] = true ∧ s.isOfficer h.path = true ∧ s.tampered = false ∧
      s.flag .secCfgStrict 0 = false ∧ s.clusterOut die = false ∧
      s.vaultRoom half (if k = .msk then mskKeys target.toNat die (wordsNat key) (32 * key.length) else [⟨k, target.toNat, die, wordsNat key, 32 * key.length, 0, true⟩]).length (decide (k = .job)) = true) ∧
    (let h : Hdr := hd 5; let kind : Word := 0; let target : Word := 20; let key : List Word := [1, 2, 3, 4, 5, 6, 7, 8]; let half : Nat := 1;
      let die : Nat := 5; let k : KeyKind := .msk; let s : State := coUp; s.ready h 0x0B03 (if kind = 2 then .owner half else .owner die) = true ∧
      s.loadTarget kind.toNat target.toNat = some (half, die, k) ∧ s.errorState = false ∧ s.lifecycle ≠ 0 ∧ s.lifecycle ≠ 3 ∧
      (key.length = 4 ∨ key.length = 8) ∧ s.unclaimed [(half, .kv), clusterBlk die] = true ∧ s.isOfficer h.path = true ∧ s.tampered = false ∧
      s.flag .secCfgStrict 0 = false ∧ s.clusterOut die = false ∧
      s.vaultRoom half (if k = .msk then mskKeys target.toNat die (wordsNat key) (32 * key.length) else [⟨k, target.toNat, die, wordsNat key, 32 * key.length, 0, true⟩]).length (decide (k = .job)) = true) ∧
    (let h : Hdr := hd 1; let kind : Word := 2; let target : Word := 1; let key : List Word := [1, 2, 3, 4]; let half : Nat := 1; let die : Nat := 7;
      let k : KeyKind := .job; let s : State := coUp; s.ready h 0x0B03 (if kind = 2 then .owner half else .owner die) = true ∧
      s.loadTarget kind.toNat target.toNat = some (half, die, k) ∧ s.errorState = false ∧ s.lifecycle ≠ 0 ∧ s.lifecycle ≠ 3 ∧
      (key.length = 4 ∨ key.length = 8) ∧ s.unclaimed [(half, .kv), clusterBlk die] = true ∧ s.isOfficer h.path = true ∧ s.tampered = false ∧
      s.flag .secCfgStrict 0 = false ∧ s.clusterOut die = false ∧
      s.vaultRoom half (if k = .msk then mskKeys target.toNat die (wordsNat key) (32 * key.length) else [⟨k, target.toNat, die, wordsNat key, 32 * key.length, 0, true⟩]).length (decide (k = .job)) = true) ∧
    (let h : Hdr := hd 5; let kind : Word := 0; let target : Word := 20; let key : List Word := [1, 2, 3, 4, 5, 6]; let half : Nat := 1;
      let die : Nat := 5; let k : KeyKind := .msk; let s : State := coUp; s.ready h 0x0B03 (if kind = 2 then .owner half else .owner die) = true ∧
      s.loadTarget kind.toNat target.toNat = some (half, die, k) ∧ s.errorState = false ∧ s.lifecycle ≠ 0 ∧ s.lifecycle ≠ 3 ∧
      (key.length = 6 ∨ key.length = 10) ∧ s.unclaimed [(half, .kv), clusterBlk die] = true ∧ s.isOfficer h.path = true ∧ s.tampered = false ∧
      s.cipher.klkErased.has (pathCode h.path) = false ∧ s.clusterOut die = false ∧
      s.vaultRoom half (if k = .msk then 4 else 1) (decide (k = .job)) = true) ∧
    (let h : Hdr := hd 1; let kind : Word := 2; let target : Word := 1; let key : List Word := [1, 2, 3, 4, 5, 6, 7, 8, 9, 10]; let half : Nat := 1;
      let die : Nat := 7; let k : KeyKind := .job; let s : State := coUp; s.ready h 0x0B03 (if kind = 2 then .owner half else .owner die) = true ∧
      s.loadTarget kind.toNat target.toNat = some (half, die, k) ∧ s.errorState = false ∧ s.lifecycle ≠ 0 ∧ s.lifecycle ≠ 3 ∧
      (key.length = 6 ∨ key.length = 10) ∧ s.unclaimed [(half, .kv), clusterBlk die] = true ∧ s.isOfficer h.path = true ∧ s.tampered = false ∧
      s.cipher.klkErased.has (pathCode h.path) = false ∧ s.clusterOut die = false ∧
      s.vaultRoom half (if k = .msk then 4 else 1) (decide (k = .job)) = true) ∧
    (let half : BitVec 1 := 1; let d : Delivery := delivery0; let s : State := { coUp with cipher := { coUp.cipher with deliveries := [delivery0] } };
      s.cipher.deliveries.find? (fun d => d.half = half.toNat) = some d) ∧
    (let h : Hdr := hd 1; let handle : Word := 0x80000000; let k : VKey := ⟨.sak, 56, 7, 5, 128, 0, true⟩; let s : State := coUp;
      s.ready h 0x0B04 (.owner (halfOfHandle handle.toNat)) = true ∧ s.errorState = false ∧ s.lifecycle ≠ 0 ∧ s.lifecycle ≠ 3 ∧
      s.vault.find handle.toNat = some k ∧ s.unclaimed [(halfOfHandle handle.toNat, .kv), clusterBlk k.die] = true ∧ s.isOfficer h.path = true ∧
      k.inVault = true ∧ s.inForce handle.toNat k = false) ∧
    (let h : Hdr := hd 5; let tree : Word := 31; let onus : List Word := [20]; let slot : Nat := 1; let s : State := coUp;
      s.ready h 0x0B05 (.owner (dieOfTree (tree.toNat % 32))) = true ∧ s.errorState = false ∧ s.lifecycle ≠ 0 ∧ s.lifecycle ≠ 3 ∧ tree.toNat ≤ 31 ∧
      onus.length ≤ 64 ∧ onus.any (fun o => ((s.onu o.toNat).map (fun x => x.tree)) ≠ some tree.toNat) = false ∧
      s.unclaimed [(halfOfTree (tree.toNat % 32), .kv), clusterBlk (dieOfTree tree.toNat)] = true ∧ s.isOfficer h.path = true ∧ s.tampered = false ∧
      onus.any (fun o => s.cipher.kekErased.has o.toNat) = false ∧ s.clusterOut (dieOfTree tree.toNat) = false ∧ s.bcastFree tree.toNat = some slot ∧
      s.slotHeld (.broadcast slot) tree.toNat slot = false ∧ s.vaultRoom (halfOfTree (tree.toNat % 32)) 1 false = true) ∧
    (let h : Hdr := hd 5; let tree : Word := 31; let cHi : Word := 0; let cLo : Word := 64; let slot : Nat := 1;
      let k : Nat × VKey := (2 ^ 31 + 2, ⟨.broadcast 1, 31, 5, 5, 128, 0, true⟩); let s : State := launch coUp 31;
      s.ready h 0x0B06 (.owner (dieOfTree (tree.toNat % 32))) = true ∧ s.errorState = false ∧ s.lifecycle ≠ 0 ∧ s.lifecycle ≠ 3 ∧ tree.toNat ≤ 31 ∧
      cHi.toNat * 2 ^ 32 + cLo.toNat < 2 ^ 51 ∧ 64 ≤ s.framesTo tree.toNat (cHi.toNat * 2 ^ 32 + cLo.toNat) ∧
      s.claimed (halfOfTree (tree.toNat % 32)) .kv = false ∧ s.isOfficer h.path = true ∧ s.launched tree.toNat = true ∧
      s.bcastFree tree.toNat = some slot ∧ s.keyOf (.broadcast slot) tree.toNat = some k) ∧
    (let h : Hdr := hd 7; let w : SaWords := saW 1 3; let k : VKey := ⟨.sak, 56, 7, 5, 128, 0, true⟩; let s : State := coUp;
      s.ready h 0x0B07 (.owner (dieOfLane (w.port.toNat % 64))) = true ∧ s.errorState = false ∧ s.lifecycle ≠ 0 ∧ s.lifecycle ≠ 3 ∧
      w.port.toNat ≤ 63 ∧ s.portOf w.port.toNat = w.port.toNat ∧ w.dir = 1 ∧ w.an.toNat ≤ 3 ∧ w.suite.toNat ≤ 3 ∧ w.offset.toNat ≤ 2 ∧
      w.validate.toNat < 2 ∧ w.pnHi.toNat * 2 ^ 32 + w.pnLo.toNat ≠ 0 ∧ (w.suite.toNat < 2 → w.pnHi.toNat * 2 ^ 32 + w.pnLo.toNat < 2 ^ 32) ∧
      s.vault.find w.handle.toNat = some k ∧ k.kind = .sak ∧ k.owner = w.port.toNat ∧ k.bits = (if w.suite.toNat % 2 = 0 then 128 else 256) ∧
      s.claimed (dieOfLane (w.port.toNat % 64)) .msc = false ∧ s.isOfficer h.path = true ∧ k.inVault = true ∧
      s.rxSas (dieOfLane (w.port.toNat % 64)) < 2048 ∧ (s.secy w.port.toNat).channels.length < 64) ∧
    (let h : Hdr := hd 7; let w : SaWords := saW 0 3; let k : VKey := ⟨.sak, 56, 7, 5, 128, 0, true⟩; let s : State := coUp;
      s.ready h 0x0B07 (.owner (dieOfLane (w.port.toNat % 64))) = true ∧ s.errorState = false ∧ s.lifecycle ≠ 0 ∧ s.lifecycle ≠ 3 ∧
      w.port.toNat ≤ 63 ∧ s.portOf w.port.toNat = w.port.toNat ∧ w.dir = 0 ∧ w.an.toNat ≤ 3 ∧ w.suite.toNat ≤ 3 ∧ w.offset.toNat ≤ 2 ∧
      w.validate.toNat < 2 ∧ w.pnHi.toNat * 2 ^ 32 + w.pnLo.toNat ≠ 0 ∧ (w.suite.toNat < 2 → w.pnHi.toNat * 2 ^ 32 + w.pnLo.toNat < 2 ^ 32) ∧
      s.vault.find w.handle.toNat = some k ∧ k.kind = .sak ∧ k.owner = w.port.toNat ∧ k.bits = (if w.suite.toNat % 2 = 0 then 128 else 256) ∧
      s.claimed (dieOfLane (w.port.toNat % 64)) .msc = false ∧ s.isOfficer h.path = true ∧ k.inVault = true ∧
      ((s.fld .mscPortCfgTxAn w.port.toNat) ≠ w.an.toNat ∨ (s.secy w.port.toNat).tx.has w.an.toNat = false)) ∧
    (let h : Hdr := hd 7; let port : Word := 56; let an : Word := 3; let s : State := coUp.setSecy 56 { secyEmpty with tx := [(3, sa0)] };
      s.ready h 0x0B08 (.owner (dieOfLane (port.toNat % 64))) = true ∧ s.errorState = false ∧ s.lifecycle ≠ 0 ∧ s.lifecycle ≠ 3 ∧ port.toNat ≤ 63 ∧
      s.portOf port.toNat = port.toNat ∧ an.toNat ≤ 3 ∧ (s.secy port.toNat).tx.has an.toNat = true ∧ s.claimed (dieOfLane port.toNat) .msc = false ∧
      s.isOfficer h.path = true) ∧
    (let h : Hdr := hd 7; let port : Word := 56; let s : State := coUp; s.ready h 0x0B09 (.owner (dieOfLane (port.toNat % 64))) = true ∧
      s.errorState = false ∧ s.lifecycle ≠ 0 ∧ s.lifecycle ≠ 3 ∧ port.toNat ≤ 63 ∧ s.portOf port.toNat = port.toNat) := by
  refine ⟨?_, ?_, ?_, ?_, ?_, ?_, ?_, ?_, ?_, ?_, ?_, ?_, ?_, ?_, ?_, ?_, ?_⟩ <;> decide +kernel

/-- States and operands that meet the hypotheses of `Obligations.KeyServiceCommandsComplete`, clause by clause. -/
theorem wit_KeyServiceCommandsComplete :
    (let h : Hdr := hd 1; let w : JobWords := jobW; let k : VKey := ⟨.job, 1, 7, 5, 128, 0, true⟩; let s : State := jobUp;
      s.ready h 0x0B0A (.owner (w.half.toNat % 2)) = true ∧ s.errorState = false ∧ s.lifecycle ≠ 0 ∧ s.lifecycle ≠ 3 ∧ w.dir.toNat ≤ 1 ∧
      (jobOf w (callerOf h 0x0B0A)).ok = true ∧ s.vault.find w.handle.toNat = some k ∧ k.kind = .job ∧ k.owner = w.half.toNat ∧
      s.claimed (w.half.toNat) .kv = false ∧ (w.mode.toNat = modeKw → s.isOfficer h.path = true) ∧ s.bankOn w.half.toNat w.bank.toNat = true ∧
      s.bankOwner w.half.toNat w.bank.toNat = 4 ∧ (s.cipher.jobs.filter (fun x => x.half = w.half.toNat)).length < 16 ∧
      (s.start (callerOf h 0x0B0A)).asyncFull = false ∧ s.clusterOut (6 + w.half.toNat) = false ∧ k.inVault = true ∧
      (w.dir = 0 → (w.mode.toNat = modeGcm ∨ w.mode.toNat = modeCtr) → k.count + (s.cipher.jobs.filter (fun x => x.handle = w.handle.toNat)).length + 1 < 2 ^ 64)) ∧
    (let half : BitVec 1 := 1; let j : Job := job0 5 false []; let k : VKey := ⟨.job, 1, 7, 5, 128, 0, true⟩;
      let s : State := jobOn (job0 5 false []); s.cipher.jobs.find? (fun j => j.half = half.toNat) = some j ∧ s.vault.find j.handle = some k ∧
      j.back = false ∧ (j.mode = modeGcm ∨ j.mode = modeCmac)) ∧
    (let half : BitVec 1 := 1; let j : Job := job0 4 false []; let k : VKey := ⟨.job, 1, 7, 5, 128, 0, true⟩;
      let s : State := jobOn (job0 4 false []); s.cipher.jobs.find? (fun j => j.half = half.toNat) = some j ∧ s.vault.find j.handle = some k ∧
      j.back = false ∧ (j.mode = modeGcm ∨ j.mode = modeCmac)) ∧
    (let half : BitVec 1 := 1; let j : Job := job0 6 false []; let k : VKey := ⟨.job, 1, 7, 5, 128, 0, true⟩;
      let s : State := jobOn (job0 6 false []); s.cipher.jobs.find? (fun j => j.half = half.toNat) = some j ∧ s.vault.find j.handle = some k ∧
      j.back = false ∧ j.mode ≠ modeGcm ∧ j.mode ≠ modeCmac) ∧
    (let half : BitVec 1 := 1; let j : Job := job0 3 true []; let k : VKey := ⟨.job, 1, 7, 5, 128, 0, true⟩; let s : State := jobOn (job0 3 true []);
      let u := ((s.dropJob j).jobIv j k).2.cipherItem (6 + j.half) 0 jobEgress (j.inLen + j.aadLen) j.chained |>.noteBytes j.half j.bank j.inOff j.inLen |>.noteBytes j.half j.bank j.aadOff j.aadLen;
      let iv := ((s.dropJob j).jobIv j k).1;
      let inputs := [j.mode, j.back.toNat, k.bits, k.value, iv, j.inLen, j.aadLen] ++ u.padBytes j.half j.bank j.inOff j.inLen ++ u.padBytes j.half j.bank j.aadOff j.aadLen;
      let tag := Config.standard 21 inputs % 2 ^ 128; s.cipher.jobs.find? (fun j => j.half = half.toNat) = some j ∧ s.vault.find j.handle = some k ∧
      j.back = true ∧ ((j.mode = modeGcm ∨ j.mode = modeCmac) ∧ tag = wordsNat j.tag ∨ j.mode = modeKw ∧
      Config.standard 22 inputs = 1 ∨ j.mode < 4)) ∧
    (let h : Hdr := hd 7; let scope : Word := 1; let object : Word := 7; let d : Nat := 7; let s : State := coUp; s.ready h 0x0B0B (.owner d) = true ∧
      s.errorState = false ∧ s.lifecycle ≠ 0 ∧ s.lifecycle ≠ 3 ∧ zScopeOf scope.toNat object.toNat = some (.die d) ∧
      s.unclaimed (ZScope.blocks (.die d)) = true) ∧
    (let h : Hdr := hd 7; let scope : Word := 0; let object : Word := 15; let d : Nat := 7; let k : Nat := 1; let s : State := coUp;
      s.ready h 0x0B0B (.owner d) = true ∧ s.errorState = false ∧ s.lifecycle ≠ 0 ∧ s.lifecycle ≠ 3 ∧
      zScopeOf scope.toNat object.toNat = some (.cluster d k) ∧ s.unclaimed (ZScope.blocks (.cluster d k)) = true) ∧
    (let h : Hdr := hd 15; let scope : Word := 2; let object : Word := 0; let s : State := coUp; s.ready h 0x0B0B (.package) = true ∧
      s.errorState = false ∧ s.lifecycle ≠ 0 ∧ s.lifecycle ≠ 3 ∧ zScopeOf scope.toNat object.toNat = some .package ∧
      s.unclaimed (ZScope.blocks .package) = true) ∧
    (let h : Hdr := hd 7; let s : State := coUp; s.ready h 0x0B0C (.oneOf (List.range 8)) = true ∧ s.errorState = false ∧ s.lifecycle ≠ 0 ∧
      s.lifecycle ≠ 3 ∧ s.unclaimed (if h.die.toNat < 2 then [] else [clusterBlk h.die.toNat]) = true ∧
      s.cipher.tests.any (fun t => t.1 = h.die.toNat) = false ∧ (s.start (callerOf h 0x0B0C)).asyncFull = false) ∧
    (let die : BitVec 3 := 7; let t : Nat × Caller := (7, cal); let s : State := { coUp with cipher := { coUp.cipher with tests := [(7, cal)] } };
      s.cipher.tests.find? (fun t => t.1 = die.toNat) = some t) ∧
    (let h : Hdr := hd 15; let s : State := coUp; s.ready h 0x0B0D (.package) = true ∧ s.errorState = false ∧ s.lifecycle ≠ 0) := by
  refine ⟨?_, ?_, ?_, ?_, ?_, ?_, ?_, ?_, ?_, ?_, ?_⟩ <;> decide +kernel

/-- States and operands that meet the hypotheses of `Obligations.AlarmsZeroize`, clause by clause. -/
theorem wit_AlarmsZeroize :
    (let s : State := up; (s.fld .secCfgAlarmMask 0).testBit 8 = false) ∧
    (let s : State := up; (s.fld .secCfgAlarmMask 0).testBit 6 = false) ∧
    (let die : BitVec 3 := 7; let s : State := up; s.dieFused die.toNat = false ∧ (s.fld .secCfgAlarmMask 0).testBit 7 = false) ∧
    (let die : BitVec 3 := 7; let s : State := up; s.dieFused die.toNat = false ∧ (s.fld .secCfgAlarmMask 0).testBit 5 = false) ∧
    (let die : BitVec 3 := 7; let s : State := up; s.dieFused die.toNat = false ∧ (s.fld .secCfgAlarmMask 0).testBit 3 = false) ∧
    (let die : BitVec 3 := 7; let s : State := up; s.dieFused die.toNat = false ∧ (s.fld .secCfgAlarmMask 0).testBit 4 = false) ∧
    (let die : BitVec 3 := 7; let s : State := up; s.dieFused die.toNat = false ∧ 2 ≤ die.toNat ∧ (s.fld .secCfgAlarmMask 0).testBit 0 = false) ∧
    (let die : BitVec 3 := 7; let s : State := up; s.dieFused die.toNat = false ∧ 2 ≤ die.toNat ∧ (s.fld .secCfgAlarmMask 0).testBit 1 = false) ∧
    (let die : BitVec 3 := 7; let s : State := up; s.dieFused die.toNat = false ∧ (s.fld .secCfgAlarmMask 0).testBit 2 = false) ∧
    (let die : BitVec 3 := 5; let s : State := up.setReg .sysId 0 0x0064A100; s.dieFused die.toNat = true) ∧
    (let s : State := up.setFld .secCfgAlarmMask 0 0x1FF; let m := fun (k : Nat) => (s.fld .secCfgAlarmMask 0).testBit k = true; m 8) ∧
    (let s : State := up.setFld .secCfgAlarmMask 0 0x1FF; let m := fun (k : Nat) => (s.fld .secCfgAlarmMask 0).testBit k = true; m 6) ∧
    (let s : State := up.setFld .secCfgAlarmMask 0 0x1FF; let m := fun (k : Nat) => (s.fld .secCfgAlarmMask 0).testBit k = true; m 7) ∧
    (let s : State := up.setFld .secCfgAlarmMask 0 0x1FF; let m := fun (k : Nat) => (s.fld .secCfgAlarmMask 0).testBit k = true; m 5) ∧
    (let s : State := up.setFld .secCfgAlarmMask 0 0x1FF; let m := fun (k : Nat) => (s.fld .secCfgAlarmMask 0).testBit k = true; m 3) ∧
    (let s : State := up.setFld .secCfgAlarmMask 0 0x1FF; let m := fun (k : Nat) => (s.fld .secCfgAlarmMask 0).testBit k = true; m 4) ∧
    (let s : State := up.setFld .secCfgAlarmMask 0 0x1FF; let m := fun (k : Nat) => (s.fld .secCfgAlarmMask 0).testBit k = true; m 2) := by
  refine ⟨?_, ?_, ?_, ?_, ?_, ?_, ?_, ?_, ?_, ?_, ?_, ?_, ?_, ?_, ?_, ?_, ?_⟩ <;> decide +kernel

/-- States and operands that meet the hypotheses of `Obligations.TrustCommandsComplete`, clause by clause. -/
theorem wit_TrustCommandsComplete :
    (let h : Hdr := hd 15; let nonce : List Word := List.replicate 12 0; let key : Nat := 7; let s : State := coUp;
      s.ready h 0x1100 (.package) = true ∧ s.errorState = false ∧ nonce.length = 12 ∧ s.lifecycle ≠ 0 ∧ s.cipher.identity = some key) ∧
    (let h : Hdr := hd 15; let s : State := coUp; s.ready h 0x1101 (.package) = true ∧ s.errorState = false) ∧
    (let h : Hdr := hd 15; let bank : Word := 63; let len : Word := 524288; let s : State := coUp.setDomain 351 true;
      s.ready h 0x1102 (.package) = true ∧ s.errorState = false ∧ bank.toNat ≤ 63 ∧ len.toNat ≤ bankWords 0 bank.toNat * 4 ∧
      s.claimed (0) .sq = false ∧ s.lifecycle ≠ 0 ∧ s.lifecycle ≠ 3 ∧ s.trust.pending = none ∧ (s.start (callerOf h 0x1102)).asyncFull = false ∧
      s.bankOn 0 bank.toNat = true ∧ s.bankOwner 0 bank.toNat = 0 ∧ h.path ≠ .inband) ∧
    (let h : Hdr := hd 15; let bank : Word := 63; let len : Word := 524288; let s : State := (coUp.setBank 0 63 4 false false).setDomain 351 true;
      s.ready h 0x1102 (.package) = true ∧ s.errorState = false ∧ bank.toNat ≤ 63 ∧ len.toNat ≤ bankWords 0 bank.toNat * 4 ∧
      s.claimed (0) .sq = false ∧ s.lifecycle ≠ 0 ∧ s.lifecycle ≠ 3 ∧ s.trust.pending = none ∧ (s.start (callerOf h 0x1102)).asyncFull = false ∧
      s.bankOn 0 bank.toNat = true ∧ (s.bankOwner 0 bank.toNat ≠ 0 ∨ h.path = .inband)) ∧
    (let h : Hdr := hd 15; let s : State := coUp; s.ready h 0x1103 (.package) = true ∧ s.errorState = false) ∧
    (let h : Hdr := hd 15; let s : State := up.setFld .secLifecycleState 0 1; s.ready h 0x1104 (.package) = true ∧ s.errorState = false ∧
      s.trust.pending = none ∧ s.lifecycle = 1) ∧
    (let h : Hdr := hd 15; let s : State := coUp; s.ready h 0x1104 (.package) = true ∧ s.errorState = false ∧ s.trust.pending = none ∧
      s.lifecycle = 2) ∧
    (let h : Hdr := hd 15; let target : Word := 3; let s : State := up; s.ready h 0x1104 (.package) = true ∧ s.errorState = false ∧
      s.trust.pending = none ∧ (¬(target = 2 ∧ s.lifecycle = 1)) ∧ (¬(target = 3 ∧ s.lifecycle = 2))) := by
  refine ⟨?_, ?_, ?_, ?_, ?_, ?_, ?_, ?_⟩ <;> decide +kernel

/-- States and operands that meet the hypotheses of `Obligations.ResetLeavesTheResetWords`, clause by clause. -/
theorem wit_ResetLeavesTheResetWords :
    (let k := default; k < 16) := by decide +kernel

/-- States and operands that meet the hypotheses of `Obligations.IncrementOutsideRangeIsRejected`, clause by clause. -/
theorem wit_IncrementOutsideRangeIsRejected :
    (let h : Hdr := hd 0; let int : Word := 2; let frac : Word := 0; let s : State := up; s.ready h 0x0101 (.owner 0) = true ∧
      incrOk (int.toNat * 2 ^ 32 + frac.toNat) = true ∧ s.claimed 0 .tb = false) ∧
    (let h : Hdr := hd 0; let int : Word := 1; let frac : Word := 0x33333334; let s : State := up; s.ready h 0x0101 (.owner 0) = true ∧
      incrOk (int.toNat * 2 ^ 32 + frac.toNat) = true ∧ s.claimed 0 .tb = false) ∧
    (let v : Nat := 2 ^ 33; incrOk v = true) ∧
    (let h : Hdr := hd 0; let int : Word := 1; let frac : Word := 0x33333333; let s : State := up; s.ready h 0x0101 (.owner 0) = true ∧
      incrOk (int.toNat * 2 ^ 32 + frac.toNat) = false) ∧
    (let h : Hdr := hd 0; let int : Word := 2; let frac : Word := 1; let s : State := up; s.ready h 0x0101 (.owner 0) = true ∧
      incrOk (int.toNat * 2 ^ 32 + frac.toNat) = false) ∧
    (let p : APath := .pcie; let data : Word := 3; let s : State := claim up 0 .tb; s.mayRwc p 0 .tb = true ∧
      incrOk (fldOf .tbIncrInt data * 2 ^ 32 + (s.reg .tbIncrFrac (apathCode p)).toNat) = false) := by
  refine ⟨?_, ?_, ?_, ?_, ?_, ?_⟩ <;> decide +kernel

/-- States and operands that meet the hypotheses of `Obligations.GateMaskInForce`, clause by clause. -/
theorem wit_GateMaskInForce :
    (let x : Store := (up.modStore 1 (fun st => { st with gates := [(127, ⟨5, 1000, [(600, 1), (400, 2)]⟩)] })).storeOf 1; let g : Nat := 127;
      let t : Nat := 9; let l : GateList := ⟨5, 1000, [(600, 1), (400, 2)]⟩; x.listAt g t = some l ∧ l.start ≤ t ∧ l.entries ≠ [] ∧
      0 < l.cycle) := by decide +kernel

/-- States and operands that meet the hypotheses of `Obligations.RegisterAccessesComplete`, clause by clause. -/
theorem wit_RegisterAccessesComplete :
    (let a : RegAccess := acc .pcie 0 .tbWdog 0 5; let r : Reg := .tbWdog; let s : State := claim up 0 .tb; let i : Nat := inst0 a r s;
      s.reaches a true r i = true ∧ s.mayLand a r i = true ∧ isHi r = false ∧ hiOf r = none) ∧
    (let a : RegAccess := acc .pcie 0 .tbSetSecHi 0 5; let r : Reg := .tbSetSecHi; let s : State := stage0; let i : Nat := inst0 a r s;
      s.reaches a true r i = true ∧ s.mayLand a r i = true ∧ isHi r = true ∧ (r = .lshRingBaseHi ∨ s.mayRwc a.path (accDie a) r.block = true)) ∧
    (let a : RegAccess := acc .pcie 0 .lshRingBaseHi 0 5; let r : Reg := .lshRingBaseHi; let s : State := up; let i : Nat := inst0 a r s;
      s.reaches a true r i = true ∧ s.mayLand a r i = true ∧ isHi r = true ∧ (r = .lshRingBaseHi ∨ s.mayRwc a.path (accDie a) r.block = true)) ∧
    (let a : RegAccess := acc .pcie 0 .tbSetSecLo 0 5; let r : Reg := .tbSetSecLo; let hi : Reg := .tbSetSecHi; let v : Word := 5;
      let s : State := stage0; let i : Nat := inst0 a r s; s.reaches a true r i = true ∧ s.mayLand a r i = true ∧ isHi r = false ∧ hiOf r = some hi ∧
      s.win.stagedHi.find (hiKey (accDie a) a.path hi a.idx) = some v) ∧
    (let a : RegAccess := acc .pcie 0 .tbSetSecLo 0 5; let r : Reg := .tbSetSecLo; let hi : Reg := .tbSetSecHi; let s : State := stage0;
      let i : Nat := inst0 a r s; s.reaches a false r i = true ∧ isHi r = false ∧ hiOf r = some hi) ∧
    (let a : RegAccess := acc .i3c 15 .sysId 0 0; let r : Reg := .sysId; let s : State := up; let i : Nat := inst0 a r s;
      s.reaches a false r i = true ∧ isHi r = false ∧ hiOf r = none) ∧
    (let a : RegAccess := acc .pcie 0 .tbSetSecHi 0 0; let r : Reg := .tbSetSecHi; let w : Word := 5; let s : State := stage0;
      let i : Nat := inst0 a r s; s.reaches a false r i = true ∧ isHi r = true ∧ hiOf r = none ∧
      s.win.shadow.find (hiKey (accDie a) a.path r a.idx) = some w) ∧
    (let a : RegAccess := acc .pcie 0 .tbWdog 99 5; let c : Nat := 0; let s : State := up; s.dieFused (accDie a) = false ∧
      s.accFault a true = some c) ∧
    (let a : RegAccess := acc .pcie 9 .tbWdog 0 5; let c : Nat := 2; let s : State := up; s.dieFused (accDie a) = false ∧
      s.accFault a false = some c) ∧
    (let b : List Byte := [0x57, 0x52, 0, 0, 0, 0, 0, 0, 0, 5]; let r : Reg := .tbWdog; let idx : Nat := 0;
      let s : State := (claim up 0 .tb).setFld .sysCastonStage 0 7;
      let a : RegAccess := ⟨.i3c, BitVec.ofNat 26 (beWord b 2), some r, idx, false, BitVec.ofNat 32 (beWord b 6)⟩; let i : Nat := inst0 a r s;
      s.i3cUp = true ∧ b.length = 10 ∧ b.take 2 = [0x57, 0x52] ∧ beWord b 2 < 2 ^ 26 ∧ isHi r = false ∧ hiOf r = none ∧ s.reaches a true r i = true ∧
      s.mayLand a r i = true) ∧
    (let b : List Byte := [0x52, 0x44, 0, 0, 0, 0]; let r : Reg := .tbWdog; let idx : Nat := 0; let s : State := up.setFld .sysCastonStage 0 7;
      let a : RegAccess := ⟨.i3c, BitVec.ofNat 26 (beWord b 2), some r, idx, false, 0⟩; let i : Nat := inst0 a r s; s.i3cUp = true ∧ b.length = 6 ∧
      b.take 2 = [0x52, 0x44] ∧ beWord b 2 < 2 ^ 26 ∧ isHi r = false ∧ hiOf r = none ∧ s.reaches a false r i = true) := by
  refine ⟨?_, ?_, ?_, ?_, ?_, ?_, ?_, ?_, ?_, ?_, ?_⟩ <;> decide +kernel

/-- States and operands that meet the hypotheses of `Obligations.TandemCommandsComplete`, clause by clause. -/
theorem wit_TandemCommandsComplete :
    (let h : Hdr := hd 6; let peer : Word := 1023; let auto : Word := 1; let divThr : Word := 15; let lossThr : Word := 255; let s : State := up;
      s.ready h 0x0E00 (.owner 6) = true ∧ peer.toNat ≤ 1023 ∧ peer.toNat ≠ s.fld .sysDevnumDevnum 0 ∧ auto.toNat ≤ 1 ∧ 1 ≤ divThr.toNat ∧
      divThr.toNat ≤ 15 ∧ 1 ≤ lossThr.toNat ∧ lossThr.toNat ≤ 255 ∧ s.unclaimed [(6, .tnd)] = true) ∧
    (let h : Hdr := hd 6; let s : State := up; s.ready h 0x0E01 (.owner 6) = true ∧ s.unclaimed [(6, .tnd)] = true) ∧
    (let h : Hdr := hd 5; let tree : Word := 31; let on : Word := 1; let dfeed : Word := 0xFFFCF2C0; let s : State := pairUp;
      s.ready h 0x0E02 (.owner (dieOfTree (tree.toNat % 32))) = true ∧ tree.toNat ≤ 31 ∧ on.toNat ≤ 1 ∧ (signedOf 32 dfeed.toNat).natAbs ≤ 200000 ∧
      (on = 1 → s.flag .tndPairStatPaired 0 = true ∧ 20 ≤ s.fld .gntTreeCfgCutoff tree.toNat ∧
      (s.tndTree tree.toNat).peerCfg = some (s.pairConfig tree.toNat)) ∧ s.unclaimed [(6, .tnd)] = true) ∧
    (let h : Hdr := hd 5; let tree : Word := 31; let on : Word := 0; let dfeed : Word := 200000; let s : State := up;
      s.ready h 0x0E02 (.owner (dieOfTree (tree.toNat % 32))) = true ∧ tree.toNat ≤ 31 ∧ on.toNat ≤ 1 ∧ (signedOf 32 dfeed.toNat).natAbs ≤ 200000 ∧
      (on = 1 → s.flag .tndPairStatPaired 0 = true ∧ 20 ≤ s.fld .gntTreeCfgCutoff tree.toNat ∧
      (s.tndTree tree.toNat).peerCfg = some (s.pairConfig tree.toNat)) ∧ s.unclaimed [(6, .tnd)] = true) ∧
    (let h : Hdr := hd 6; let s : State := halt 3 0 0 none; s.ready h 0x0E03 (.owner 6) = true ∧ s.unclaimed [(6, .tnd)] = true ∧
      s.tandem.take = none ∧ (s.start (callerOf h 0x0E03)).asyncFull = false ∧ s.ownsHalter = true) ∧
    (let h : Hdr := hd 6; let s : State := halt 4 0 0 none; s.ready h 0x0E03 (.owner 6) = true ∧ s.unclaimed [(6, .tnd)] = true ∧
      s.tandem.take = none ∧ (s.start (callerOf h 0x0E03)).asyncFull = false ∧ s.ownsHalter = false ∧ s.pin .hltPeerN 0 = 0) ∧
    (let h : Hdr := hd 6; let s : State := halt 4 1 0 none; s.ready h 0x0E03 (.owner 6) = true ∧ s.unclaimed [(6, .tnd)] = true ∧
      s.tandem.take = none ∧ (s.start (callerOf h 0x0E03)).asyncFull = false ∧ s.ownsHalter = false ∧ s.pin .hltPeerN 0 ≠ 0) ∧
    (let h : Hdr := hd 6; let s : State := up; s.ready h 0x0E04 (.owner 6) = true ∧ s.unclaimed [(6, .tnd)] = true) ∧
    (let h : Hdr := hd 5; let tree : Word := 31; let s : State := up.setFlag .tndTreeCfgProtect 31 true;
      s.ready h 0x0E05 (.owner (dieOfTree (tree.toNat % 32))) = true ∧ tree.toNat ≤ 31 ∧ s.protected tree.toNat = true ∧
      s.unclaimed [(6, .tnd)] = true ∧ (s.tndTree tree.toNat).resync = none ∧ (s.start (callerOf h 0x0E05)).asyncFull = false) ∧
    (let h : Hdr := hd 6; let dwell : Word := 65535;
      let s : State := (halt 3 0 0 none).setFlag .tndTreeCfgProtect 31 true |>.setFlag .tndTreeStatReady 31 true; s.ready h 0x0E06 (.owner 6) = true ∧
      8 ≤ dwell.toNat ∧ dwell.toNat ≤ 65535 ∧ s.unclaimed [(6, .tnd)] = true ∧ s.ownsHalter = true ∧
      (∀ t < 32, s.protected t = true → s.flag .tndTreeStatReady t = true) ∧ s.tandem.drill = none ∧
      (s.start (callerOf h 0x0E06)).asyncFull = false) ∧
    (let h : Hdr := hd 6; let s : State := up; s.ready h 0x0E07 (.owner 6) = true) ∧
    (let h : Hdr := hd 7; let lane : Word := 7; let delta : Word := 7; let alpha : Word := 15; let s : State := up;
      s.ready h 0x0E08 (.owner (dieOfTLane (lane.toNat % 8))) = true ∧ lane.toNat ≤ 7 ∧ 1 ≤ delta.toNat ∧ delta.toNat ≤ 7 ∧ 1 ≤ alpha.toNat ∧
      alpha.toNat ≤ 15 ∧ s.unclaimed [(dieOfTLane lane.toNat, .tnd)] = true) := by
  refine ⟨?_, ?_, ?_, ?_, ?_, ?_, ?_, ?_, ?_, ?_, ?_, ?_⟩ <;> decide +kernel

/-- States and operands that meet the hypotheses of `Obligations.TandemEventsComplete`, clause by clause. -/
theorem wit_TandemEventsComplete :
    (let l : TLane := 7; let s : State := tup; s.tandemLaneHears l.toNat = true) ∧
    (let l : TLane := 7; let s : State := tup; s.tandemLaneHears l.toNat = true) ∧
    (let stream : Byte := 255; let seq : BitVec 28 := 5; let u : TndSent := sent 7; let s : State := sentUp 7;
      s.tandem.unacked.find? (fun u => u.stream = stream.toNat && u.seq = seq.toNat) = some u ∧ u.sentAt + usSpan 50 ≤ s.elapsed ∧ u.sendings < 8) ∧
    (let stream : Byte := 255; let seq : BitVec 28 := 5; let u : TndSent := sent 8; let s : State := sentUp 8;
      s.tandem.unacked.find? (fun u => u.stream = stream.toNat && u.seq = seq.toNat) = some u ∧ u.sentAt + usSpan 50 ≤ s.elapsed ∧ 8 ≤ u.sendings) ∧
    (let l : Nat := 7; let s : State := at_ tup (usSpan 25); l < 8 ∧ s.tandemLaneSends l = true ∧ s.tandem.beatAt + usSpan 25 ≤ s.elapsed) ∧
    (let s : State := at_ up (usSpan 500); s.tandem.lastBeat + usSpan 500 ≤ s.elapsed) ∧
    (let c : Chan := 127; let f : Nat := 0; let v : Nat := 7; let a : Bool := true;
      let s : State := at_ ((up.modTndChan 127 (fun x => { x with mine := some (0, 7, true) })).setFlag .tndPairStatLink 0 true) secUnit; (s.tndChan c.toNat).mine = some (f, v, a) ∧
      s.flag .tndPairStatLink 0 = true ∧ s.frameElapsed (treeOfChan c.toNat) ((f + 1) % 2 ^ 51) + usSpan 50 ≤ s.elapsed) ∧
    (let s : State := halt 2 0 (usSpan 1) none; let st := s.fld .tndPairStatHalter 0; s.pin .hltPeerN 0 ≠ 1 ∧ s.tandem.drill = none ∧
      (st = 2 ∨ st = 4) ∧ s.windowShut = true) ∧
    (let s : State := halt 4 0 0 none; let st := s.fld .tndPairStatHalter 0; s.pin .hltPeerN 0 ≠ 1 ∧ s.tandem.drill = none ∧ (st = 2 ∨ st = 4) ∧
      s.windowShut = false) ∧
    (let s : State := halt 3 0 0 none; let st := s.fld .tndPairStatHalter 0; s.pin .hltPeerN 0 ≠ 1 ∧ s.tandem.drill = none ∧ st ≠ 2 ∧ st ≠ 4) ∧
    (let d : Drill := drill 1; let s : State := halt 3 0 0 (some (drill 1)); let st := s.fld .tndPairStatHalter 0; s.tandem.drill = some d ∧
      s.pin .hltPeerN 0 ≠ 1 ∧ d.phase = 1 ∧ st ≠ 2 ∧ st ≠ 4) ∧
    (let d : Drill := drill 0; let s : State := halt 4 1 0 (some (drill 0)); let st := s.fld .tndPairStatHalter 0; s.tandem.drill = some d ∧
      s.pin .hltPeerN 0 = 1 ∧ d.phase = 0 ∧ st ≠ 2 ∧ st ≠ 3) ∧
    (let s : State := halt 3 1 0 none; let st := s.fld .tndPairStatHalter 0; s.pin .hltPeerN 0 = 1 ∧ s.tandem.drill = none ∧ st = 3) ∧
    (let s : State := halt 2 1 0 none; let st := s.fld .tndPairStatHalter 0; s.pin .hltPeerN 0 = 1 ∧ s.tandem.drill = none ∧ st = 2) ∧
    (let s : State := halt 4 1 0 none; let st := s.fld .tndPairStatHalter 0; s.pin .hltPeerN 0 = 1 ∧ s.tandem.drill = none ∧ st ≠ 2 ∧ st ≠ 3) ∧
    (let s : State := halt 1 1 (usSpan 2) none; s.fld .tndPairStatHalter 0 = 1 ∧ s.pin .hltPeerN 0 = 1 ∧ s.tandem.peerAt + usSpan 2 ≤ s.elapsed) ∧
    (let s : State := halt 2 1 (usSpan 1) none; s.fld .tndPairStatHalter 0 = 2 ∧ s.tandem.haltAt + usSpan 1 ≤ s.elapsed ∧ s.pin .hltPeerN 0 = 1) ∧
    (let s : State := (halt 2 0 (usSpan 1) none).drive .hltSenior 0 1; s.fld .tndPairStatHalter 0 = 2 ∧ s.tandem.haltAt + usSpan 1 ≤ s.elapsed ∧
      s.pin .hltPeerN 0 ≠ 1 ∧ s.pin .hltSenior 0 = 1) ∧
    (let s : State := (halt 2 0 (usSpan 1) none).drive .hltSenior 0 0; s.fld .tndPairStatHalter 0 = 2 ∧ s.tandem.haltAt + usSpan 1 ≤ s.elapsed ∧
      s.pin .hltPeerN 0 ≠ 1 ∧ s.pin .hltSenior 0 ≠ 1) ∧
    (let s : State := halt 1 0 (nsSpan 100) none; s.fld .tndPairStatHalter 0 < 2 ∧ s.tandem.haltAt + nsSpan 100 ≤ s.elapsed) ∧
    (let onu : Onu := 20; let x : OnuSlot := inOp; let n : Nat := 0; let d : Int := 0;
      let s : State := mtnd opUp (fun w => { w with accept := [(20, some 0, 0)] }); s.onu onu.toNat = some x ∧
      s.tandem.accept.find onu.toNat = some (some n, d) ∧ s.framesTo x.tree n ≤ 0) ∧
    (let d : Drill := drill 1; let s : State := halt 3 0 (8 * frameSpan) (some (drill 1)); s.tandem.drill = some d ∧ d.phase = 1 ∧
      d.since + d.dwell * frameSpan ≤ s.elapsed) := by
  refine ⟨?_, ?_, ?_, ?_, ?_, ?_, ?_, ?_, ?_, ?_, ?_, ?_, ?_, ?_, ?_, ?_, ?_, ?_, ?_, ?_, ?_, ?_⟩ <;> decide +kernel

/-- States and operands that meet the hypotheses of `Obligations.SystemCommandsComplete`, clause by clause. -/
theorem wit_SystemCommandsComplete :
    (let h : Hdr := hd 15; let s : State := up; s.ready h 0x0000 (.package) = true) ∧
    (let h : Hdr := hd 15; let s : State := up; s.ready h 0x0001 (.package) = true) ∧
    (let h : Hdr := ⟨.pcie, 1, 5, 15⟩; let s : State := up; s.ready h 0x0002 (.package) = true ∧ h.path ≠ .inband ∧ h.gen ≠ s.gen h.path) ∧
    (let h : Hdr := ⟨.inband, 1, 1, 15⟩; let s : State := up; s.ready h 0x0002 (.package) = true ∧ h.path = .inband ∧ h.gen = s.gen .inband + 1 ∧
      s.laosh.sessions < 255) ∧
    (let h : Hdr := ⟨.inband, 1, 0, 15⟩; let s : State := up; h.path = .inband ∧ h.die.toNat = 15 ∧ s.flag .sysCastonDone 0 = true) ∧
    (let h : Hdr := hd 15; let ports : List Word := [56]; let handle : Word := 0x80000001; let k : VKey := ⟨.job, 1, 7, 5, 128, 0, true⟩;
      let s : State := coUp; s.ready h 0x0004 (.package) = true ∧ ports.length ≤ 4 ∧
      ports.any (fun p => 63 < p.toNat || s.portOf p.toNat ≠ p.toNat) = false ∧ s.unclaimed [(0, .lsh)] = true ∧ s.isOfficer h.path = true ∧
      s.vault.find handle.toNat = some k ∧ k.kind = .job) ∧
    (let h : Hdr := hd 15; let s : State := coUp; s.ready h 0x0005 (.package) = true ∧ (s.lifecycle = 2 → s.isOfficer h.path = true) ∧
      (s.start (callerOf h 0x0005)).asyncFull = false) ∧
    (let h : Hdr := hd 15; let group : Word := 26; let fw : Word := 1; let alert : Word := 1; let ibi : Word := 1; let msix : Word := 1;
      let vector : Word := 63; let s : State := up; s.ready h 0x0006 (.package) = true ∧ group.toNat ≤ 26 ∧ fw.toNat ≤ 1 ∧ alert.toNat ≤ 1 ∧
      ibi.toNat ≤ 1 ∧ msix.toNat ≤ 1 ∧ vector.toNat ≤ 63) ∧
    (let h : Hdr := hd 15; let count : Word := 64; let s : State := up; s.ready h 0x0007 (.package) = true ∧ 1 ≤ count.toNat ∧ count.toNat ≤ 64) := by
  refine ⟨?_, ?_, ?_, ?_, ?_, ?_, ?_, ?_, ?_⟩ <;> decide +kernel

/-- States and operands that meet the hypotheses of `Obligations.EventRegistersComplete`, clause by clause. -/
theorem wit_EventRegistersComplete :
    (let g : BitVec 5 := 26; let data : Word := 0; let s : State := up; g.toNat < 27 ∧
      s.reg .evtStat g.toNat &&& s.reg .evtMask g.toNat &&& ~~~data = 0) ∧
    (let g : BitVec 5 := 26; let data : Word := 0; let s : State := (up.setReg .evtStat 26 1).setReg .evtMask 26 1; g.toNat < 27 ∧
      s.reg .evtStat g.toNat &&& s.reg .evtMask g.toNat &&& ~~~data ≠ 0) ∧
    (let g : BitVec 5 := 26; g.toNat < 27) ∧
    (let data : Word := 0; let s : State := up; (¬ 0 < (data - s.reg .evtRingWr 0).toInt)) ∧
    (let data : Word := 1; let s : State := up; 0 < (data - s.reg .evtRingWr 0).toInt) ∧
    (let die : Die := 7; let r : EvRec := evr; let rest : List EvRec := [evr]; let s : State := { up with evQueue := [(7, [evr, evr])] };
      Tbl.getD s.evQueue die.toNat [] = r :: rest ∧ s.evRing.length < 4096) ∧
    (let die : Die := 7; let r : EvRec := evr; let rest : List EvRec := [evr];
      let s : State := { up with evQueue := [(7, [evr, evr])], evRing := List.replicate 4096 evr }; Tbl.getD s.evQueue die.toNat [] = r :: rest ∧
      4096 ≤ s.evRing.length) := by
  refine ⟨?_, ?_, ?_, ?_, ?_, ?_, ?_⟩ <;> decide +kernel

/-- States and operands that meet the hypotheses of `Obligations.BlockClaimsComplete`, clause by clause. -/
theorem wit_BlockClaimsComplete :
    (let h : Hdr := hd 0; let block : Word := 0; let b : Blk := .tb; let s : State := claim up 0 .tb; s.ready h 0x1200 claimDies = true ∧
      blockOf h.die.toNat block.toNat = some b ∧ h.path ≠ .inband ∧ b ≠ .evt ∧ s.win.claims.find (claimKey h.die.toNat b) = some h.path) ∧
    (let h : Hdr := hd 0; let block : Word := 0; let b : Blk := .tb; let s : State := up; s.ready h 0x1200 claimDies = true ∧
      blockOf h.die.toNat block.toNat = some b ∧ h.path ≠ .inband ∧ b ≠ .evt ∧ s.win.claims.find (claimKey h.die.toNat b) = none ∧
      (s.flag .secCfgStrict 0 = true → b ≠ .kv ∧ b ≠ .cph ∧ b ≠ .msc) ∧ (s.start (callerOf h 0x1200)).actedOn h.die.toNat b = false) ∧
    (let h : Hdr := hd 0; let block : Word := 0; let b : Blk := .tb; let s : State := up.start (callerOf ⟨.i3c, 9, 0, 15⟩ 0x0101);
      s.ready h 0x1200 claimDies = true ∧ blockOf h.die.toNat block.toNat = some b ∧ h.path ≠ .inband ∧ b ≠ .evt ∧
      s.win.claims.find (claimKey h.die.toNat b) = none ∧ (s.flag .secCfgStrict 0 = true → b ≠ .kv ∧ b ≠ .cph ∧ b ≠ .msc) ∧
      (s.start (callerOf h 0x1200)).actedOn h.die.toNat b = true) ∧
    (let die : Die := 0; let block : BitVec 6 := 0; let w : ClaimWait := wait0; let s : State := waitUp [];
      s.win.claimWait.find? (fun w => w.die = die.toNat && blockOf die.toNat block.toNat = some w.blk) = some w ∧ s.actedOn w.die w.blk = false ∧
      s.win.claims.find (claimKey w.die w.blk) = none) ∧
    (let die : Die := 0; let block : BitVec 6 := 0; let w : ClaimWait := wait0; let s : State := waitUp [(claimKey 0 .tb, .i3c)]; let q := Path.i3c;
      s.win.claimWait.find? (fun w => w.die = die.toNat && blockOf die.toNat block.toNat = some w.blk) = some w ∧ s.actedOn w.die w.blk = false ∧
      s.win.claims.find (claimKey w.die w.blk) = some q) ∧
    (let die : Die := 0; let block : BitVec 6 := 0; let w : ClaimWait := wait0; let s : State := at_ (waitUp []) (msSpan 1);
      s.win.claimWait.find? (fun w => w.die = die.toNat && blockOf die.toNat block.toNat = some w.blk) = some w ∧ w.since + msSpan 1 ≤ s.elapsed) ∧
    (let h : Hdr := hd 0; let block : Word := 0; let s : State := claim up 0 .tb; s.ready h 0x1201 claimDies = true ∧ block.toNat < 64 ∧
      s.win.claims.find (h.die.toNat * 64 + block.toNat) = some h.path) ∧
    (let h : Hdr := hd 0; let s : State := up; s.ready h 0x1202 claimDies = true) := by
  refine ⟨?_, ?_, ?_, ?_, ?_, ?_, ?_, ?_⟩ <;> decide +kernel

/-- States and operands that meet the hypotheses of `Obligations.ResetCommandsComplete`, clause by clause. -/
theorem wit_ResetCommandsComplete :
    (let w : BitVec 11 := 1999; w.toNat < 2000) ∧
    (let w : BitVec 11 := 2000; 2000 ≤ w.toNat) ∧
    (let s : State := up.drive .hostRstN 0 0; s.pin .hostRstN 0 ≠ 1) ∧
    (let s : State := up.drive .rails 0 0; (s.pin .hostRstN 0 ≠ 1 ∨ s.pin .rails 0 ≠ 1)) ∧
    (let s : State := boot 0; s.booting 0 = true) ∧
    (let s : State := boot 1; s.booting 1 = true) ∧
    (let s : State := boot 2; s.booting 2 = true) ∧
    (let s : State := boot 3; s.booting 3 = true) ∧
    (let s : State := boot 4; s.booting 4 = true) ∧
    (let s : State := boot 5; s.booting 5 = true ∧ s.power.firmwareUp = false) ∧
    (let s : State := boot 3; (s.booting 3 = true ∨ s.booting 4 = true ∨ s.booting 5 = true) ∧ s.flag .sysCastonStDone 0 = false ∧
      s.tamperCalm = true) ∧
    (let s : State := (({ boot 5 with power := { (boot 5).power with firmwareUp := true } }).setFlag .sysCastonStDone 0 true); s.booting 5 = true ∧
      s.power.firmwareUp = true ∧ s.flag .sysCastonStDone 0 = true) ∧
    (let t : Nat := 5; let s : State := at_ { up with power := { up.power with resetDue := some 5 } } 5; s.power.resetDue = some t ∧
      t ≤ s.elapsed) := by
  refine ⟨?_, ?_, ?_, ?_, ?_, ?_, ?_, ?_, ?_, ?_, ?_, ?_, ?_⟩ <;> decide +kernel

/-- States and operands that meet the hypotheses of `Obligations.GaugeCommandsComplete`, clause by clause. -/
theorem wit_GaugeCommandsComplete :
    (let h : Hdr := hd 5; let kind : Word := 0; let index : Word := 127; let die : Nat := 5; let s : State := up.setReg .hbmSegOwner 133 2;
      s.pmHome kind.toNat index.toNat = some die ∧ s.ready h 0x0C00 (.owner (pmOwner kind.toNat index.toNat die)) = true ∧
      s.unclaimed [pmBlk die] = true ∧ s.hasSegment (pmHalf die) 2 = true) ∧
    (let h : Hdr := hd 5; let kind : Word := 0; let index : Word := 127; let die : Nat := 5; let s : State := up;
      s.pmHome kind.toNat index.toNat = some die ∧ s.ready h 0x0C00 (.owner (pmOwner kind.toNat index.toNat die)) = true ∧
      s.unclaimed [pmBlk die] = true) ∧
    (let h : Hdr := hd 5; let kind : Word := 0; let index : Word := 127; let bin : Word := 0x101; let die : Nat := 5; let n : Nat := 1;
      let day : Bool := true; let b : PmBin := ⟨0, [], 4, []⟩; let e : PmEnt := ⟨5, true, [b], [b, b], [], false, 0, 0, false⟩;
      let s : State := { up with now := mkTime 86410 0, pm := { up.pm with ents := [(pmKey 0 127, e)] } }; s.pmHome kind.toNat index.toNat = some die ∧
      s.ready h 0x0C01 (.owner (pmOwner kind.toNat index.toNat die)) = true ∧ pmBinOf bin.toNat = some (day, n) ∧
      s.pm.ents.find (pmKey kind.toNat index.toNat) = some e ∧ (e.bins day)[n]? = some b ∧
      (n = 0 ∨ secReached (secOf (s.nowOn die)) (b.start + binLen day) = false ∨ secReached (secOf (s.nowOn die)) (b.start + binLen day + 10) = true)) ∧
    (let h : Hdr := hd 5; let kind : Word := 0; let index : Word := 127; let bin : Word := 0; let die : Nat := 5; let n : Nat := 0;
      let day : Bool := false; let b : PmBin := ⟨0, [], 4, []⟩; let e : PmEnt := ⟨5, true, [b], [b, b], [], false, 0, 0, false⟩;
      let s : State := { up with pm := { up.pm with ents := [(pmKey 0 127, e)] } }; s.pmHome kind.toNat index.toNat = some die ∧
      s.ready h 0x0C01 (.owner (pmOwner kind.toNat index.toNat die)) = true ∧ pmBinOf bin.toNat = some (day, n) ∧
      s.pm.ents.find (pmKey kind.toNat index.toNat) = some e ∧ (e.bins day)[n]? = some b ∧
      (n = 0 ∨ secReached (secOf (s.nowOn die)) (b.start + binLen day) = false ∨ secReached (secOf (s.nowOn die)) (b.start + binLen day + 10) = true)) ∧
    (let h : Hdr := hd 15; let kind : Word := 4; let param : Word := 11; let length : Word := 1; let s : State := up;
      s.ready h 0x0C02 (.package) = true ∧ param.toNat < pmListed kind.toNat ∧ length.toNat ≤ 1 ∧
      s.unclaimed (if kind.toNat = 4 then [(15, .ggc)] else [(2, .pmb), (3, .pmb), (4, .pmb), (5, .pmb)]) = true) ∧
    (let h : Hdr := hd 15; let kind : Word := 0; let param : Word := 15; let length : Word := 1; let s : State := up;
      s.ready h 0x0C02 (.package) = true ∧ param.toNat < pmListed kind.toNat ∧ length.toNat ≤ 1 ∧
      s.unclaimed (if kind.toNat = 4 then [(15, .ggc)] else [(2, .pmb), (3, .pmb), (4, .pmb), (5, .pmb)]) = true) ∧
    (let h : Hdr := hd 1; let s : State := up; s.ready h 0x0C03 (.oneOf [0, 1]) = true ∧
      s.unclaimed (if h.die.toNat = 0 then [(15, .ggc), (2, .pmb), (3, .pmb)] else [(15, .ggc), (4, .pmb), (5, .pmb)]) = true) ∧
    (let h : Hdr := hd 15; let s : State := up; s.ready h 0x0D00 (.package) = true ∧ s.unclaimed [(15, .ggc)] = true ∧ s.gauge.single = none ∧
      (s.start (callerOf h 0x0D00)).asyncFull = false) ∧
    (let h : Hdr := hd 15; let period : Word := 1000000; let s : State := up; s.ready h 0x0D01 (.package) = true ∧ period.toNat ≤ 1000000 ∧
      s.unclaimed [(15, .ggc)] = true) ∧
    (let h : Hdr := hd 5; let block : Word := BitVec.ofNat 32 ((Blk.number 1 .pch).getD 0); let unit : Word := 127; let b : Blk := .pch;
      let s : State := up; let w := h.die.toNat * 2 ^ 22 + block.toNat * 2 ^ 16 + unit.toNat; s.ready h 0x0D02 claimDies = true ∧
      blockOf h.die.toNat block.toNat = some b ∧ unit.toNat ≤ 65535 ∧ unitExists w = true) ∧
    (let h : Hdr := hd 1; let pipeline : Word := 8; let s : State := up; s.ready h 0x0D03 claimDies = true ∧ h.die.toNat ≤ 1 ∧ pipeline.toNat ≤ 8) ∧
    (let h : Hdr := hd 5; let port : Word := 255; let die : Nat := 5; let half : Nat := 1; let g : Nat := 95; let s : State := up;
      histOf port.toNat = some (die, half, g) ∧ s.ready h 0x0D04 (.owner die) = true ∧ (g < 32 → s.portOf port.toNat = port.toNat)) ∧
    (let h : Hdr := hd 7; let port : Word := 56; let die : Nat := 7; let half : Nat := 1; let g : Nat := 24; let s : State := up;
      histOf port.toNat = some (die, half, g) ∧ s.ready h 0x0D04 (.owner die) = true ∧ (g < 32 → s.portOf port.toNat = port.toNat)) ∧
    (let h : Hdr := hd 5; let block : Word := BitVec.ofNat 32 ((Blk.number 1 .pch).getD 0); let unit : Word := 127; let b : Blk := .pch;
      let s : State := up; let w := h.die.toNat * 2 ^ 22 + block.toNat * 2 ^ 16 + unit.toNat; s.ready h 0x0D05 claimDies = true ∧
      blockOf h.die.toNat block.toNat = some b ∧ unit.toNat ≤ 65535 ∧ unitExists w = true ∧ s.unclaimed [(h.die.toNat, b)] = true) := by
  refine ⟨?_, ?_, ?_, ?_, ?_, ?_, ?_, ?_, ?_, ?_, ?_, ?_, ?_, ?_⟩ <;> decide +kernel

/-- States and operands that meet the hypotheses of `Obligations.GaugeEventsComplete`, clause by clause. -/
theorem wit_GaugeEventsComplete :
    (let die : BitVec 3 := 5; let b : PmNow := ⟨0, 0, 1, false⟩;
      let s : State := { up with now := mkTime 1 0, pm := { up.pm with began := [(5, ⟨0, 0, 1, false⟩)] } }; s.pm.began.find die.toNat = some b ∧
      reached (s.nowOn die.toNat) (mkTime b.next 0) = true) ∧
    (let die : BitVec 3 := 5; let b : PmNow := ⟨0, 0, 1, true⟩;
      let s : State := { up with elapsed := secUnit, pm := { up.pm with began := [(5, ⟨0, 0, 1, true⟩)] } }; s.pm.began.find die.toNat = some b ∧
      b.stepped = true ∧ b.since + secUnit ≤ s.elapsed) ∧
    (let c : Caller := cal; let t : Nat := 0; let s : State := { up with gauge := { up.gauge with single := some (cal, 0) } };
      s.gauge.single = some (c, t) ∧ s.allReached t = true) ∧
    (let p : Nat := 1; let t : Nat := 0; let s : State := { up with gauge := { up.gauge with periodic := some (1, 0) } };
      s.gauge.single.all (fun x => !s.allReached x.2) = true ∧ s.gauge.periodic = some (p, t) ∧ s.allReached t = true) ∧
    (let x : Snapshot := ⟨1, 0, [], [], [], []⟩; let caller : Option Caller := some cal; let bufs : Tbl Nat := [(0, 0)];
      let s : State := { up with gauge := { up.gauge with latched := some (x, caller, bufs) } }; s.gauge.latched = some (x, caller, bufs)) ∧
    (let s : State := up; (∀ die ∈ s.snapDies, s.nextBuffer die ≠ none) ∧ s.gauge.latched = none) := by
  refine ⟨?_, ?_, ?_, ?_, ?_, ?_⟩ <;> decide +kernel

/-- States and operands that meet the hypotheses of `Obligations.PowerCommandsComplete`, clause by clause. -/
theorem wit_PowerCommandsComplete :
    (let h : Hdr := hd 7; let domain : Word := 409; let on : Word := 0; let k : DomainKind := .pcs 7 3; let s : State := up;
      switchable domain.toNat = some k ∧ s.ready h 0x0F00 (.owner k.die) = true ∧ on.toNat ≤ 1 ∧ s.hasDie k.die = true ∧
      s.unclaimed [(15, .pwr)] = true ∧ s.power.switches.any (fun x => x.1 = domain.toNat) = false ∧ (on = 0 → s.mayPowerOff k = true) ∧
      (s.start (callerOf h 0x0F00)).asyncFull = false) ∧
    (let h : Hdr := hd 0; let domain : Word := 330; let on : Word := 1; let k : DomainKind := .pipe 0 0; let s : State := up;
      switchable domain.toNat = some k ∧ s.ready h 0x0F00 (.owner k.die) = true ∧ on.toNat ≤ 1 ∧ s.hasDie k.die = true ∧
      s.unclaimed [(15, .pwr)] = true ∧ s.power.switches.any (fun x => x.1 = domain.toNat) = false ∧ (on = 0 → s.mayPowerOff k = true) ∧
      (s.start (callerOf h 0x0F00)).asyncFull = false) ∧
    (let h : Hdr := hd 0; let domain : Word := 330; let on : Word := 0; let k : DomainKind := .pipe 0 0; let s : State := up;
      switchable domain.toNat = some k ∧ s.ready h 0x0F00 (.owner k.die) = true ∧ s.hasDie k.die = true ∧ s.unclaimed [(15, .pwr)] = true ∧ on = 0 ∧
      s.mayPowerOff k = false) ∧
    (let domain : BitVec 9 := 330; let on : Bool := true; let caller : Caller := cal; let k : DomainKind := .pipe 0 0;
      let s : State := { up with power := { up.power with switches := [(330, true, cal)] } }; switchable domain.toNat = some k ∧
      s.power.switches.find? (fun x => x.1 = domain.toNat) = some (domain.toNat, on, caller)) ∧
    (let h : Hdr := hd 15; let s : State := up; s.ready h 0x0F01 .package = true) ∧
    (let h : Hdr := hd 7; let region : Word := 71; let thr : Word := 20; let rel : Word := 255; let longUs : Word := 255; let s : State := up;
      region.toNat < 72 ∧ s.ready h 0x0F02 (.owner (regionDie region.toNat)) = true ∧ 4 ≤ thr.toNat ∧ thr.toNat ≤ 20 ∧ 1 ≤ rel.toNat ∧
      rel.toNat ≤ 255 ∧ longUs.toNat ≤ 255 ∧ s.unclaimed [(15, .tns)] = true) ∧
    (let h : Hdr := hd 0; let region : Word := 0; let thr : Word := 4; let rel : Word := 1; let longUs : Word := 0; let s : State := up;
      region.toNat < 72 ∧ s.ready h 0x0F02 (.owner (regionDie region.toNat)) = true ∧ 4 ≤ thr.toNat ∧ thr.toNat ≤ 20 ∧ 1 ≤ rel.toNat ∧
      rel.toNat ≤ 255 ∧ longUs.toNat ≤ 255 ∧ s.unclaimed [(15, .tns)] = true) ∧
    (let h : Hdr := hd 7; let s : State := up; s.ready h 0x0F03 (.oneOf (List.range 8)) = true) ∧
    (let h : Hdr := hd 15; let s : State := up; s.ready h 0x1000 .package = true) ∧
    (let h : Hdr := hd 1; let kind : Word := 0; let unit : Word := 7; let s : State := up; s.ready h 0x1001 (.oneOf (List.range 8)) = true ∧
      s.unitOk kind.toNat h.die.toNat unit.toNat = true ∧ s.unclaimed [(15, .rmd)] = true ∧ s.bringing kind.toNat h.die.toNat unit.toNat = false ∧
      (s.start (callerOf h 0x1001)).asyncFull = false ∧ s.spareLeft kind.toNat h.die.toNat unit.toNat = true ∧ kind.toNat ≠ 2) ∧
    (let h : Hdr := hd 1; let kind : Word := 2; let unit : Word := 1; let s : State := up; s.ready h 0x1001 (.oneOf (List.range 8)) = true ∧
      s.unitOk kind.toNat h.die.toNat unit.toNat = true ∧ s.unclaimed [(15, .rmd)] = true ∧ s.bringing kind.toNat h.die.toNat unit.toNat = false ∧
      (s.start (callerOf h 0x1001)).asyncFull = false ∧ s.spareLeft kind.toNat h.die.toNat unit.toNat = true ∧ kind.toNat = 2) ∧
    (let h : Hdr := hd 1; let kind : Word := 0; let unit : Word := 7;
      let s : State := { up with power := { up.power with bringIns := [⟨0, 1, 5, none, 0, 0⟩] } }; s.ready h 0x1001 (.oneOf (List.range 8)) = true ∧
      s.unitOk kind.toNat h.die.toNat unit.toNat = true ∧ s.unclaimed [(15, .rmd)] = true ∧ s.bringing kind.toNat h.die.toNat unit.toNat = false ∧
      (s.start (callerOf h 0x1001)).asyncFull = false ∧ s.spareLeft kind.toNat h.die.toNat unit.toNat = false) ∧
    (let kind : BitVec 4 := 0; let die : BitVec 3 := 1; let unit : Word := 7;
      let s : State := { up with power := { up.power with bringIns := [⟨0, 1, 7, none, 0, 0⟩] } }; s.bringing kind.toNat die.toNat unit.toNat = true ∧
      kind.toNat ≠ 2 ∧ kind.toNat ≠ 4 ∧ kind.toNat ≠ 5) ∧
    (let kind : BitVec 4 := 5; let die : BitVec 3 := 1; let unit : Word := 0;
      let s : State := { up with power := { up.power with bringIns := [⟨5, 1, 0, none, 0, 0⟩] } }; s.bringing kind.toNat die.toNat unit.toNat = true ∧
      (kind.toNat = 4 ∨ kind.toNat = 5)) ∧
    (let h : Hdr := hd 15; let kind : Word := 8; let policy : Word := 2; let s : State := up; s.ready h 0x1002 .package = true ∧ kind.toNat ≤ 8 ∧
      policy.toNat ≤ 2 ∧ (kind = 6 → policy = 0) ∧ s.unclaimed [(15, .rmd)] = true) ∧
    (let h : Hdr := hd 15; let kind : Word := 6; let policy : Word := 0; let s : State := up; s.ready h 0x1002 .package = true ∧ kind.toNat ≤ 8 ∧
      policy.toNat ≤ 2 ∧ (kind = 6 → policy = 0) ∧ s.unclaimed [(15, .rmd)] = true) ∧
    (let h : Hdr := hd 7; let region : Word := 71; let s : State := up; region.toNat < 72 ∧
      s.ready h 0x1003 (.owner (regionDie region.toNat)) = true ∧ s.hasRegion region.toNat = true) ∧
    (let die : BitVec 3 := 1; let index : BitVec 2 := 1;
      let s : State := { run4 with power := { up.power with bringIns := [⟨2, 1, 1, none, 0, 0⟩] }, elapsed := msSpan 11 }; s.power.bringIns.any (fun b => b.is 2 die.toNat index.toNat && decide (b.since + msSpan 10 < s.elapsed)) = true ∧
      s.seqHolds (die.toNat * 3 + index.toNat) = false) := by
  refine ⟨?_, ?_, ?_, ?_, ?_, ?_, ?_, ?_, ?_, ?_, ?_, ?_, ?_, ?_, ?_, ?_, ?_, ?_⟩ <;> decide +kernel

/-- States and operands that meet the hypotheses of `Obligations.PowerEventsComplete`, clause by clause. -/
theorem wit_PowerEventsComplete :
    (let region : BitVec 7 := 71; let s : State := up; s.hasRegion region.toNat = true) ∧
    (let region : BitVec 7 := 71; let s : State := up; s.hasRegion region.toNat = true ∧ stretches region.toNat = true ∧
      s.flag .tnsStatBelow region.toNat = false) ∧
    (let region : BitVec 7 := 70; let s : State := up; s.hasRegion region.toNat = true ∧ stretches region.toNat = false ∧
      s.flag .tnsStatBelow region.toNat = false) ∧
    (let region : BitVec 7 := 71; let s : State := at_ (up.setFlag .tnsStatBelow 71 true) secUnit; stretches region.toNat = true ∧
      s.flag .tnsStatBelow region.toNat = true ∧ Tbl.getD s.power.droop region.toNat 0 + nsSpan (20 * (s.stretchOf region.toNat / 4)) ≤ s.elapsed) ∧
    (let region : BitVec 7 := 71; let s : State := up.setFlag .tnsStatBelow 71 true; let r := region.toNat; s.flag .tnsStatBelow region.toNat = true ∧
      stretches r = true) ∧
    (let region : BitVec 7 := 70; let s : State := up.setFlag .tnsStatBelow 70 true; let r := region.toNat; s.flag .tnsStatBelow region.toNat = true ∧
      stretches r = false) ∧
    (let region : BitVec 7 := 71; let t : Nat := 5;
      let s : State := at_ { up.setFld .tnsStatS 71 8 with power := { up.power with calm := [(71, 5)] } } secUnit; let r := region.toNat;
      let n := s.stretchOf r; let due := t + nsSpan (10 * s.fld .tnsCfgRel r); s.power.calm.find region.toNat = some t ∧ due ≤ s.elapsed ∧ 1 < n) ∧
    (let region : BitVec 7 := 71; let t : Nat := 5;
      let s : State := at_ { up.setFld .tnsStatS 71 1 with power := { up.power with calm := [(71, 5)], episodes := [(71, 0, false)] } } secUnit;
      let r := region.toNat; let n := s.stretchOf r; let due := t + nsSpan (10 * s.fld .tnsCfgRel r); let began := (0 : Nat); let told := false;
      s.power.calm.find region.toNat = some t ∧ due ≤ s.elapsed ∧ n = 1 ∧ s.power.episodes.find r = some (began, told)) ∧
    (let region : BitVec 7 := 71; let began : Nat := 0;
      let s : State := at_ { up.setFld .tnsCfgLongUs 71 1 with power := { up.power with episodes := [(71, 0, false)] } } secUnit; s.power.episodes.find region.toNat = some (began, false) ∧
      s.fld .tnsCfgLongUs region.toNat ≠ 0 ∧ began + usSpan (s.fld .tnsCfgLongUs region.toNat) < s.elapsed) ∧
    (let region : BitVec 7 := 71; let ppm : Word := 5; let s : State := up; s.hasRegion region.toNat = true ∧ ppm.toNat ≤ s.fld .rmdCfgWearPpm 0) ∧
    (let region : BitVec 7 := 71; let ppm : Word := 0xFFFFFFFF; let s : State := up; let r := region.toNat; s.hasRegion region.toNat = true ∧
      s.fld .rmdCfgWearPpm 0 < ppm.toNat ∧ s.power.wearTold.find r ≠ some (s.elapsed / daySpan) ∧ regionUnit r = none) ∧
    (let region : BitVec 7 := 0; let ppm : Word := 0xFFFFFFFF; let s : State := up.setFld .rmdKindPolicy 0 2; let r := region.toNat;
      let u := s.modPower (fun p => { p with wear := p.wear.setD r 0 ppm.toNat });
      let v := (u.modPower (fun p => { p with wearTold := p.wearTold.put r (s.elapsed / daySpan) })).count .rmdWear 0 |>.raise .rmdWear 15 r;
      let kind := (0 : Nat); let n := (0 : Nat); s.hasRegion region.toNat = true ∧ s.fld .rmdCfgWearPpm 0 < ppm.toNat ∧
      s.power.wearTold.find r ≠ some (s.elapsed / daySpan) ∧ regionUnit r = some (kind, n) ∧ v.unitPolicy kind (regionDie r) = 2 ∧
      v.unitReplaced kind (regionDie r) n = false) ∧
    (let half : BitVec 1 := 1; let n : BitVec 4 := 7; let s : State := up; s.pipeServes half.toNat n.toNat = true) ∧
    (let kind : Nat := 8; let die : Nat := 7; let n : Nat := 3; let s : State := up; s.hasDie die = true ∧ s.unitFailed kind die n = false) ∧
    (let link : BitVec 3 := 6; let s : State := up.setFld .rmdKindPolicy 3 1; s.hasLink link.toNat = true ∧ s.ucieDown.contains link.toNat = false ∧
      s.policy 3 ≠ 0 ∧ s.spareLeft 3 0 link.toNat = true) ∧
    (let link : BitVec 3 := 6; let s : State := (up.setFld .rmdKindPolicy 3 1).setFld .rmdKindLeft 3 0; s.hasLink link.toNat = true ∧
      s.ucieDown.contains link.toNat = false ∧ s.policy 3 ≠ 0 ∧ s.spareLeft 3 0 link.toNat = false) ∧
    (let die : BitVec 3 := 7; let s : State := up.setFld .rmdKindPolicy 7 0; let u := s.failUnit 7 die.toNat 0; s.hasDie die.toNat = true ∧
      u.policy 7 = 0) ∧
    (let die : BitVec 3 := 7; let s : State := up.setFld .rmdKindPolicy 7 1; let u := s.failUnit 7 die.toNat 0; s.hasDie die.toNat = true ∧
      u.policy 7 ≠ 0 ∧ u.bringing 7 die.toNat 0 = false ∧ u.spareLeft 7 die.toNat 0 = true) ∧
    (let die : BitVec 3 := 7; let s : State := { up.setFld .rmdKindPolicy 7 1 with power := { up.power with replaced := [(unitKey 7 7 0, ())] } };
      let u := s.failUnit 7 die.toNat 0; s.hasDie die.toNat = true ∧ u.policy 7 ≠ 0 ∧ u.bringing 7 die.toNat 0 = false ∧
      u.spareLeft 7 die.toNat 0 = false) := by
  refine ⟨?_, ?_, ?_, ?_, ?_, ?_, ?_, ?_, ?_, ?_, ?_, ?_, ?_, ?_, ?_, ?_, ?_, ?_, ?_⟩ <;> decide +kernel

/-- States and operands that meet the hypotheses of `Obligations.PatrolScrubActs`, clause by clause. -/
theorem wit_PatrolScrubActs :
    (let site : ScrubSite := .node 1 0x3FFFFFFF; let s : State := up; s.patrolHeld site = false ∧
      s.served (patrolRation site).1 (patrolRation site).2 = true) ∧
    (let site : ScrubSite := .node 1 0x3FFFFFFF;
      let s : State := { up.setFlag .sysRtnStatSpent 85 true with rtn := { up.rtn with inForce := [(85, 5)] } }; s.patrolHeld site = false ∧
      s.served (patrolRation site).1 (patrolRation site).2 = false) ∧
    (let l := (3 : BitVec 2); let r := (16383 : BitVec 14); let x : AllocRec := newRec 31 20 1000 3;
      let s : State := up.setRec (3 * 16384 + 16383) (newRec 31 20 1000 3); s.pon.allocs.find (l.toNat * 16384 + r.toNat) = some x) ∧
    (let h := (1 : BitVec 1); let t := (15 : BitVec 4); let i := (65535 : BitVec 16); let e : RuleEnt := ruleEnt0;
      let s : State := up.setRule 1 15 65535 (some ruleEnt0); s.rule h.toNat t.toNat i.toNat = some e) ∧
    (let d : BitVec 3 := 7; 2 ≤ d.toNat) ∧
    (let h := (1 : BitVec 1); let k := (1 : BitVec 5); let page := (5 : BitVec 25); let s : State := up; let row := k.toNat * 2 ^ 24 + page.toNat / 2;
      let n := Tbl.getD s.power.hbmRows (h.toNat * 2 ^ 28 + row) 0 + 1;
      let u := (s.modPower (fun p => { p with hbmRows := p.hbmRows.put (h.toNat * 2 ^ 28 + row) n })).count .hbmEccCorr h.toNat; n < u.fld .hbmCfgCorrThr h.toNat) ∧
    (let h := (1 : BitVec 1); let k := (1 : BitVec 5); let page := (5 : BitVec 25); let s : State := up.setFld .hbmCfgCorrThr 1 1;
      let row := k.toNat * 2 ^ 24 + page.toNat / 2; let n := Tbl.getD s.power.hbmRows (h.toNat * 2 ^ 28 + row) 0 + 1;
      let u := (s.modPower (fun p => { p with hbmRows := p.hbmRows.put (h.toNat * 2 ^ 28 + row) n })).count .hbmEccCorr h.toNat; u.fld .hbmCfgCorrThr h.toNat ≤ n) := by
  refine ⟨?_, ?_, ?_, ?_, ?_, ?_, ?_⟩ <;> decide +kernel

/-- States and operands that meet the hypotheses of `Obligations.TestPortHeld`, clause by clause. -/
theorem wit_TestPortHeld :
    (let s : State := up; s.tapHeld = true) ∧
    (let s : State := up; s.tapHeld = true) ∧
    (let s : State := up; s.tapHeld = true) ∧
    (let s : State := tapUp .runTestIdle .extest; s.extest = true) ∧
    (let s : State := tapUp .captureDr .idcode; s.tapHeld = false ∧ s.tap.ctrl = .captureDr ∧ s.tap.instr = .idcode) := by
  refine ⟨?_, ?_, ?_, ?_, ?_⟩ <;> decide +kernel

/-- States and operands that meet the hypotheses of `Obligations.RegisterFieldsTakeTheirAccessCodes`, clause by clause. -/
theorem wit_RegisterFieldsTakeTheirAccessCodes :
    (let r : Reg := .lshRingBaseHi; let f : FieldRow := ⟨0, 32, .rw, []⟩; let data : Word := 9; let x := fieldOf f.lo f.w data; f ∈ r.rows ∧
      f.acc = .rw ∧ legalValue f.legal x = true) ∧
    (let r : Reg := .tbPinCfg; let f : FieldRow := ⟨0, 3, .rwc, [(0, 5)]⟩; let data : Word := 5; let may : Bool := true;
      let x := fieldOf f.lo f.w data; f ∈ r.rows ∧ f.acc = .rwc ∧ may = true ∧ legalValue f.legal x = true) ∧
    (let r : Reg := .tbPinCfg; let f : FieldRow := ⟨0, 3, .rwc, [(0, 5)]⟩; let may : Bool := false; f ∈ r.rows ∧ f.acc = .rwc ∧ may = false) ∧
    (let r : Reg := .tbPinCfg; let f : FieldRow := ⟨0, 3, .rwc, [(0, 5)]⟩; let data : Word := 6; let x := fieldOf f.lo f.w data; f ∈ r.rows ∧
      (f.acc = .rw ∨ f.acc = .rwc) ∧ legalValue f.legal x = false) ∧
    (let r : Reg := .sysAccErr; let f : FieldRow := ⟨31, 1, .w1c, []⟩; f ∈ r.rows ∧ f.acc = .w1c) ∧
    (let r : Reg := .secCfg; let f : FieldRow := ⟨0, 1, .w1s, []⟩; f ∈ r.rows ∧ f.acc = .w1s) ∧
    (let r : Reg := .tbPinCfg; let f : FieldRow := ⟨8, 5, .ro, []⟩; f ∈ r.rows ∧ f.acc = .ro) ∧
    (let p : APath := .pcie; let die : Nat := 0; let r : Reg := .tbPinCfg; let i : Nat := 0; let data : Word := 1; let s : State := up;
      r.scope ≠ .sel ∧ s.mayRwc p die r.block = false ∧ (writeWord r (s.reg r i) data false).2 = (false, true)) := by
  refine ⟨?_, ?_, ?_, ?_, ?_, ?_, ?_, ?_⟩ <;> decide +kernel

/-- States and operands that meet the hypotheses of `Obligations.BallsCarryTheirSignals`, clause by clause. -/
theorem wit_BallsCarryTheirSignals :
    (let c : Nat := (127 : Nat); let p : Pin := .optTxen; c < 128 ∧ p ∈ [Pin.brxRstN, .rssiTrg, .optTxen]) ∧
    (let s : State := up; let row : Nat := (67 : Nat); let col : Nat := (39 : Nat); let p : Pin := .tpin; let i : Nat := (0 : Nat);
      ballAt row col = .pin p i ∧ p ≠ .devnum ∧ s.unconnected row col = false ∧ s.extest = false) ∧
    (let n : Nat := (9 : Nat); n < 10) ∧
    (let s : State := tapUp .runTestIdle .extest; let row : Nat := (75 : Nat); let col : Nat := (82 : Nat); let i : Nat := (127 : Nat);
      ballAt row col = .pin .optTxen i ∧ s.extest = true) ∧
    (let s : State := tapUp .runTestIdle .extest; s.extest = true) ∧
    (let s : State := up.setFld .sysIdPart 0 0x64; let row : Nat := (10 : Nat); let col : Nat := (47 : Nat); let i : Nat := (67 : Nat);
      ballAt row col = .pin .optTxen i ∧ s.unconnected row col = true) ∧
    (let s : State := up.setFld .sysIdPart 0 0x64; let row : Nat := (8 : Nat); let col : Nat := (43 : Nat); let p : Pin := .brxRstN;
      let i : Nat := (64 : Nat); ballAt row col = .pin p i ∧ p ≠ .optTxen ∧ s.unconnected row col = true) := by
  refine ⟨?_, ?_, ?_, ?_, ?_, ?_, ?_⟩ <;> decide +kernel

/-- A state that meets the hypotheses of `Obligations.EventRingStaysBounded`. -/
theorem wit_EventRingStaysBounded : up.evRing.length ≤ 4096 ∧ (∃ t, step up = .next t) := ⟨by decide, _, rfl⟩

/-- A state that meets the hypotheses of `Obligations.EventQueuesStayBounded`. -/
theorem wit_EventQueuesStayBounded : (∀ die, (Tbl.getD up.evQueue die []).length ≤ 64) ∧ (∃ t, step up = .next t) :=
  ⟨fun _ => Nat.zero_le _, _, rfl⟩
/-- The pipeline's direction is open, so both directions have the head. -/
theorem wit_FrontEventsComplete_line_head :
    let s := heads [head0] [] []
    s.pipeServes 1 7 = true ∧ Tbl.getD (s.fwdOf 1).injected 7 [] = [] ∧ s.lineHeads 1 7 = [head0] :=
  ⟨by decide +kernel, by decide +kernel, by simp only [State.lineHeads]; split <;> decide +kernel⟩

theorem wit_FrontEventsComplete_injected_head :
    let s := heads [] [(7, [head0])] []
    s.pipeServes 1 7 = true ∧ Tbl.getD (s.fwdOf 1).injected 7 [] = [head0] ∧ s.slotOpen 1 7 16 = true ∧
    s.rationWaits 1 16 = false ∧ s.served 1 16 = true := by
  refine ⟨by decide +kernel, by decide +kernel, ?_, ?_, ?_⟩
  · simp only [State.slotOpen, State.lineHeads]; split <;> decide +kernel
  · decide +kernel
  · decide +kernel

theorem wit_FrontEventsComplete_recirculated :
    let s := heads [] [] [(7, [pkt0])]
    Tbl.getD (s.fwdOf 1).recirc 7 [] = [pkt0] ∧ s.slotOpen 1 7 7 = true ∧ s.served 1 7 = true := by
  refine ⟨by decide +kernel, ?_, ?_⟩
  · simp only [State.slotOpen, State.lineHeads]; split <;> decide +kernel
  · decide +kernel

/-- A verification that fails: of two tags, one differs from the tag computed. -/
theorem wit_KeyServiceCommandsComplete_failed_tag : ∃ tag : List Word,
    let j := job0 5 true tag
    let s := jobOn j
    let k : VKey := ⟨.job, 1, 7, 5, 128, 0, true⟩
    let u := ((s.dropJob j).jobIv j k).2.cipherItem (6 + j.half) 0 jobEgress (j.inLen + j.aadLen) j.chained
    let iv := ((s.dropJob j).jobIv j k).1
    let inputs := [j.mode, j.back.toNat, k.bits, k.value, iv, j.inLen, j.aadLen] ++ u.padBytes j.half j.bank j.inOff j.inLen ++
      u.padBytes j.half j.bank j.aadOff j.aadLen
    s.cipher.jobs.find? (fun j => j.half = 1) = some j ∧ s.vault.find j.handle = some k ∧ j.back = true ∧ j.mode = modeGcm ∧
    Config.standard 21 inputs % 2 ^ 128 ≠ wordsNat j.tag := by
  by_cases h : Config.standard 21 [5, 1, 128, 5, 0, 0, 0] % 2 ^ 128 = 0
  · exact ⟨[1], by decide +kernel, by decide +kernel, rfl, rfl, fun e => absurd (h.symm.trans e) (by decide)⟩
  · exact ⟨[0], by decide +kernel, by decide +kernel, rfl, rfl, fun e => h (e.trans (by decide))⟩
theorem wit_SequencerEventsComplete_item_of_no_command : ∀ c ps, SeqItem.event 5 ≠ .command c ps := by intro _ _ h; cases h


/-- The pipeline's direction is open: a descriptor of that direction names the last ingress. -/
theorem wit_FrontEventsComplete_descriptor : ∃ w1 : Word,
    let s := ringsUp
    let up := w1.getLsbD 31
    let i := fieldOf 0 16 w1
    let half := if up then halfOfChan i else halfOfLane i
    let v := s.wantTime half 16
    s.unread 3 = true ∧ i < s.ingresses up ∧ v.pipeUp half 7 = up ∧ v.pipeServes half 7 = true ∧ v.rationWaits half 16 = false ∧
    v.hostUsed half + cellsOf 60 ≤ v.hostPool half ∧ v.unread 3 = true ∧ i < v.ingresses up := by
  by_cases h : Config.standard 70 [7] % 2 = 1
  · refine ⟨0x8000007F, by decide +kernel, by decide +kernel, ?_, by decide +kernel, by decide +kernel, by decide +kernel,
      by decide +kernel, by decide +kernel⟩
    exact decide_eq_true h
  · refine ⟨0x0000003F, by decide +kernel, by decide +kernel, ?_, by decide +kernel, by decide +kernel, by decide +kernel,
      by decide +kernel, by decide +kernel⟩
    exact decide_eq_false h

end Sys2Proof.Tests
end

/-! What a written word does to each field of a register: every access code of R6, the unclaimed write of R7 and the reserved encoding
of R10. -/

namespace Sys2Proof

open Machine

/-- A number is the bits it shares with a mask and the bits it has outside it. -/
theorem land_add_ldiff (a b : Nat) : (a &&& b) + a.ldiff b = a := by
  induction a using Nat.binaryRec generalizing b with
  | zero => simp [Nat.ldiff]
  | bit x m ih =>
    rw [← Nat.bit_bodd_div2 b, Nat.land_bit, Nat.ldiff_bit]
    have := ih b.div2
    cases x <;> cases b.bodd <;> simp [Nat.bit_val] <;> omega

/-- Clearing the bits that a written word has set, as a W1C field does. -/
theorem testBit_sub_land (a b k : Nat) : (a - (a &&& b)).testBit k = (a.testBit k && !b.testBit k) := by
  rw [show a - (a &&& b) = a.ldiff b from Nat.sub_eq_of_eq_add' (land_add_ldiff a b).symm, Nat.testBit_ldiff]

theorem fieldOf_lt (lo w : Nat) (v : Word) : fieldOf lo w v < 2 ^ w := Nat.mod_lt _ (Nat.two_pow_pos w)

/-- The field's bits lie within the word. -/
@[reducible] def FieldRow.Fits (f : FieldRow) : Prop := f.lo + f.w ≤ 32

/-- Two fields share no bit. -/
@[reducible] def FieldRow.Apart (f g : FieldRow) : Prop := f.lo + f.w ≤ g.lo ∨ g.lo + g.w ≤ f.lo

theorem FieldRow.Apart.symm {f g : FieldRow} (h : f.Apart g) : g.Apart f := Or.symm h

/-- Every register table lays its fields within the word and beside each other. -/
theorem Reg.rows_fit_apart (r : Reg) : (∀ f ∈ r.rows, f.Fits) ∧ r.rows.Pairwise FieldRow.Apart := by
  cases r <;> decide

/-- The value that a field takes of a written word, by its access code (R6). -/
def FieldRow.written (f : FieldRow) (old data : Word) (may : Bool) : Nat :=
  let x := fieldOf f.lo f.w data
  let o := fieldOf f.lo f.w old
  match f.acc with
  | .rw => if legalValue f.legal x then x else o
  | .rwc => if may && legalValue f.legal x then x else o
  | .w1c => o - (o &&& x)
  | .w1s => o ||| x
  | .ro | .wo => o

theorem FieldRow.written_lt (f : FieldRow) (old data : Word) (may : Bool) : f.written old data may < 2 ^ f.w := by
  have hx := fieldOf_lt f.lo f.w data
  have ho := fieldOf_lt f.lo f.w old
  unfold written
  split
  · dsimp only; split <;> assumption
  · dsimp only; split <;> assumption
  · exact Nat.lt_of_le_of_lt (Nat.sub_le ..) ho
  · exact Nat.or_lt_two_pow ho hx
  · exact ho
  · exact ho

/-- A field that may be written gets an encoding its table does not list (R10). -/
def FieldRow.GetsReserved (f : FieldRow) (data : Word) (may : Bool) : Prop :=
  (f.acc = .rw ∨ f.acc = .rwc ∧ may = true) ∧ legalValue f.legal (fieldOf f.lo f.w data) = false

/-- An RWC field that may not be written would change (R7). -/
def FieldRow.WouldChange (f : FieldRow) (old data : Word) (may : Bool) : Prop :=
  f.acc = .rwc ∧ may = false ∧ fieldOf f.lo f.w data ≠ fieldOf f.lo f.w old

section
variable (old data : Word) (may : Bool) (acc : Word × Bool × Bool) (f : FieldRow)

/-- One field's turn either leaves the word or replaces that field. -/
theorem writeField_word : (writeField old data may acc f).1 = acc.1 ∧ f.written old data may = fieldOf f.lo f.w old ∨
    (writeField old data may acc f).1 = withField f.lo f.w acc.1 (f.written old data may) := by
  cases h : f.acc <;> simp only [writeField, FieldRow.written, h]
  case rw => cases legalValue f.legal (fieldOf f.lo f.w data) <;> simp
  case rwc => cases may <;> cases legalValue f.legal (fieldOf f.lo f.w data) <;> simp
  case w1c | w1s => exact .inr trivial
  case ro | wo => exact .inl ⟨trivial, trivial⟩

/-- One field's turn raises the flag of R10 or of R7 just when that field is the reason for it. -/
theorem writeField_flags :
    ((writeField old data may acc f).2.1 = true ↔ acc.2.1 = true ∨ f.GetsReserved data may) ∧
    ((writeField old data may acc f).2.2 = true ↔ acc.2.2 = true ∨ f.WouldChange old data may) := by
  cases h : f.acc <;> simp only [writeField, FieldRow.GetsReserved, FieldRow.WouldChange, h]
  case rw => cases legalValue f.legal (fieldOf f.lo f.w data) <;> simp
  case rwc => cases may <;> cases legalValue f.legal (fieldOf f.lo f.w data) <;> simp
  case w1c | w1s | ro | wo => simp

variable {f}

/-- A field takes its own value when its turn comes. -/
theorem fieldOf_writeField_self (hf : f.Fits) (hw : fieldOf f.lo f.w acc.1 = fieldOf f.lo f.w old) :
    fieldOf f.lo f.w (writeField old data may acc f).1 = f.written old data may := by
  rcases writeField_word old data may acc f with ⟨e, h⟩ | e
  · rw [e, hw, h]
  · rw [e, fieldOf_withField _ _ hf, Nat.mod_eq_of_lt (f.written_lt old data may)]

/-- A field keeps its value while the fields apart from it have their turns. -/
theorem fieldOf_writeField_apart {g : FieldRow} (hf : f.Fits) (h : g.Apart f) :
    fieldOf g.lo g.w (writeField old data may acc f).1 = fieldOf g.lo g.w acc.1 := by
  rcases writeField_word old data may acc f with ⟨e, -⟩ | e
  · rw [e]
  · rw [e, fieldOf_withField_other _ _ hf h]

theorem fieldOf_foldl_apart {l : List FieldRow} (h : ∀ g ∈ l, g.Fits ∧ f.Apart g) :
    fieldOf f.lo f.w (l.foldl (writeField old data may) acc).1 = fieldOf f.lo f.w acc.1 := by
  induction l generalizing acc with
  | nil => rfl
  | cons g l ih =>
    obtain ⟨⟨hfit, hapart⟩, hl⟩ := List.forall_mem_cons.1 h
    rw [List.foldl_cons, ih _ hl, fieldOf_writeField_apart _ _ _ _ hfit hapart]

theorem fieldOf_foldl_mem {l : List FieldRow} (hfit : ∀ g ∈ l, g.Fits) (hapart : l.Pairwise FieldRow.Apart) (hf : f ∈ l)
    (hw : fieldOf f.lo f.w acc.1 = fieldOf f.lo f.w old) :
    fieldOf f.lo f.w (l.foldl (writeField old data may) acc).1 = f.written old data may := by
  induction l generalizing acc with
  | nil => cases hf
  | cons g l ih =>
    obtain ⟨hg, hl⟩ := List.forall_mem_cons.1 hfit
    obtain ⟨hgl, hll⟩ := List.pairwise_cons.1 hapart
    rw [List.foldl_cons]
    rcases List.mem_cons.1 hf with rfl | hf
    · rw [fieldOf_foldl_apart _ _ _ _ fun k hk => ⟨hl k hk, hgl k hk⟩, fieldOf_writeField_self _ _ _ _ hg hw]
    · exact ih _ hl hll hf (by rw [fieldOf_writeField_apart _ _ _ _ hg (hgl f hf).symm, hw])

end

/-- A flag that a fold only ever raises is up at the end just when it was up before or some element raises it. -/
theorem foldl_flag_iff {α β : Type} {step : β → α → β} {flag : β → Bool} {P : α → Prop}
    (h : ∀ b a, flag (step b a) = true ↔ flag b = true ∨ P a) (l : List α) (b : β) :
    flag (l.foldl step b) = true ↔ flag b = true ∨ ∃ a ∈ l, P a := by
  induction l generalizing b with
  | nil => simp
  | cons a l ih => simp [ih, h, or_assoc]

section
variable (r : Reg) (old data : Word) (may : Bool)

/-- Each field of a register takes the value its access code gives it. -/
theorem fieldOf_writeWord {f : FieldRow} (hf : f ∈ r.rows) :
    fieldOf f.lo f.w (writeWord r old data may).1 = f.written old data may :=
  fieldOf_foldl_mem _ _ _ _ r.rows_fit_apart.1 r.rows_fit_apart.2 hf rfl

theorem writeWord_reserved : (writeWord r old data may).2.1 = true ↔ ∃ f ∈ r.rows, f.GetsReserved data may := by
  simpa [writeWord] using
    foldl_flag_iff (flag := fun t => t.2.1) (fun acc f => (writeField_flags old data may acc f).1) r.rows (old, false, false)

theorem writeWord_unclaimed : (writeWord r old data may).2.2 = true ↔ ∃ f ∈ r.rows, f.WouldChange old data may := by
  simpa [writeWord] using
    foldl_flag_iff (flag := fun t => t.2.2) (fun acc f => (writeField_flags old data may acc f).2) r.rows (old, false, false)

end

/-- R7: a write that meets the access codes as an unclaimed write alone is counted and its event raised. -/
theorem meet_unclaimed {p : APath} {die : Nat} {r : Reg} {i : Nat} {data : Word} {s : State} (hsel : r.scope ≠ .sel)
    (hmay : s.mayRwc p die r.block = false) (h : (writeWord r (s.reg r i) data false).2 = (false, true)) :
    (s.meet p die r i data).1 = s.report .sysUnclaimedWr 0 .sysUnclaimedWr die 0 := by
  simp [State.meet, State.meetAs, hsel, hmay, h]

/-- Settles O58: a field's turn in `writeWord` gives it `FieldRow.written`, and the other fields' turns leave it. -/
theorem registerFieldsTakeTheirAccessCodes : Obligations.RegisterFieldsTakeTheirAccessCodes := by
  refine ⟨fun r f old data may hf => ?_, writeWord_reserved, writeWord_unclaimed, fun _ _ _ _ _ _ => meet_unclaimed⟩
  dsimp only
  rw [fieldOf_writeWord r old data may hf]
  unfold FieldRow.written
  refine ⟨?rw, ?rwc, ?barred, ?reserved, ?w1c, ?w1s, ?ro⟩
  case rw => intro h hx; simp [h, hx]
  case rwc => intro h hm hx; simp [h, hm, hx]
  case barred => intro h hm; simp [h, hm]
  case reserved => rintro (h | h) hx <;> simp [h, hx]
  case w1c => intro h k; simp only [h, testBit_sub_land]
  case w1s => intro h k; simp only [h, Nat.testBit_or]
  case ro => intro h; simp only [h]

end Sys2Proof

/-! The ball map: where a channel's control balls lie (R624), and the level at a ball of a single-ended signal (R628, R629). -/

namespace Sys2Proof

open Machine

/-- The row of a channel's control balls at an edge row of its PON field; L1 and L3 count their edge rows from row 84 (R624). -/
def controlRow (edge c : Nat) : Nat := if c / 32 % 2 = 0 then edge else 85 - edge

/-- The column of a channel's control balls: the four channels of a tree take columns 1, 2, 4 and 5 of the tree's five (R624). -/
def controlCol (c : Nat) : Nat := 42 * (c / 64) + 5 * (c / 4 % 8) + (if c % 4 < 2 then c % 4 + 1 else c % 4 + 2)

theorem ballAt_control : ∀ c < 128, ballAt (controlRow 8 c) (controlCol c) = .pin .brxRstN c ∧
    ballAt (controlRow 9 c) (controlCol c) = .pin .rssiTrg c ∧ ballAt (controlRow 10 c) (controlCol c) = .pin .optTxen c := by
  decide +kernel

theorem exists_control_ball (c : Nat) (p : Pin) (hc : c < 128) (hp : p ∈ [Pin.brxRstN, .rssiTrg, .optTxen]) :
    ∃ row col, ballAt row col = .pin p c := by
  obtain ⟨hrst, htrg, htxen⟩ := ballAt_control c hc
  simp only [List.mem_cons, List.not_mem_nil, or_false] at hp
  obtain rfl | rfl | rfl := hp
  · exact ⟨_, _, hrst⟩
  · exact ⟨_, _, htrg⟩
  · exact ⟨_, _, htxen⟩

theorem allBalls_length : allBalls.length = 7056 := by simp [allBalls]

theorem allBalls_signals : (allBalls.filter Ball.isSignal).length = 1278 := by decide +kernel

section
variable {s : State} {row col : Nat} {p : Pin} {i : Nat}

theorem levelAt_unconnected (hb : ballAt row col = .pin p i) (hu : s.unconnected row col = true) :
    s.levelAt row col = if p = .optTxen then some false else none := by
  simp [State.levelAt, hb, hu]

theorem levelAt_connected (hb : ballAt row col = .pin p i) (hp : p ≠ .devnum) (hu : s.unconnected row col = false) :
    s.levelAt row col = some (s.ball p i != 0) := by
  simp [State.levelAt, hb, hu, hp]

/-- The control field is connected on either ordering code. -/
theorem unconnected_of_control (h : ballField row col = .control) : s.unconnected row col = false := by
  simp [State.unconnected, h]

theorem ball_of_not_extest (h : s.extest = false) : s.ball p i = s.pin p i := by simp [State.ball, h]

theorem ball_optTxen_of_extest (h : s.extest = true) : s.ball .optTxen i = 0 := by simp [State.ball, h]

theorem ball_hltOwnN_of_extest (h : s.extest = true) : s.ball .hltOwnN i = 1 := by simp [State.ball, h]

/-- R626: DEVNUM takes balls 39 to 48 of the control field. -/
theorem ballAt_devnum : ∀ n < 10, ballField (67 + (39 + n) / 8) (39 + (39 + n) % 8) = .control ∧
    ballAt (67 + (39 + n) / 8) (39 + (39 + n) % 8) = .pin .devnum n := by decide

theorem levelAt_devnum {n : Nat} (hn : n < 10) :
    s.levelAt (67 + (39 + n) / 8) (39 + (39 + n) % 8) = some ((s.pin .devnum 0).testBit n) := by
  obtain ⟨hf, hb⟩ := ballAt_devnum n hn
  simp [State.levelAt, State.cell, hb, unconnected_of_control hf]

theorem levelAt_hltOwnN_of_extest (h : s.extest = true) : s.levelAt 73 40 = some true := by
  rw [levelAt_connected (p := .hltOwnN) (i := 0) (by decide) (by decide) (unconnected_of_control (by decide)),
    ball_hltOwnN_of_extest h]
  rfl

theorem levelAt_optTxen_of_extest (hb : ballAt row col = .pin .optTxen i) (h : s.extest = true) :
    s.levelAt row col = some false := by
  cases hu : s.unconnected row col
  case true => simp [levelAt_unconnected hb hu]
  case false => simp [levelAt_connected hb (by decide) hu, ball_optTxen_of_extest h]

end

/-- Settles O59: the array by evaluation, the channels' control balls by `controlRow` and `controlCol`, the levels by the branches of
`State.levelAt`. -/
theorem ballsCarryTheirSignals : Obligations.BallsCarryTheirSignals :=
  ⟨⟨allBalls_length, allBalls_signals⟩,
    exists_control_ball,
    fun s _ _ p i hb hp hu hx => by rw [levelAt_connected hb hp hu, ball_of_not_extest hx],
    fun _ _ => levelAt_devnum,
    fun _ _ _ _ => levelAt_optTxen_of_extest,
    fun _ => levelAt_hltOwnN_of_extest,
    fun _ _ _ _ hb hu => levelAt_unconnected hb hu,
    fun _ _ _ _ _ hb hp hu => by rw [levelAt_unconnected hb hu, if_neg hp]⟩

end Sys2Proof

/-! Rows that act under a condition, and sparse tables filtered by key: what the proofs about the package share. -/

namespace Sys2Proof

open Machine

section
variable {p : Prop} [Decidable p] {t u : State}

theorem next_ite_pos (h : p) : (.next (if p then t else u) : Host.Outcome State Fault Refusal) = .next t := by rw [if_pos h]

theorem next_ite_neg (h : ¬ p) : (.next (if p then t else u) : Host.Outcome State Fault Refusal) = .next u := by rw [if_neg h]

end

theorem bnot_ne_true {b : Bool} (h : b = true) : ¬ (!b) = true := by simp [h]

/-- A fold whose every step leaves the state it starts from leaves it. -/
theorem foldl_fixed_of_mem {α β : Type} {f : β → α → β} {b : β} {l : List α} (h : ∀ a ∈ l, f b a = b) : l.foldl f b = b := by
  induction l with
  | nil => rfl
  | cons a l ih =>
    rw [List.foldl_cons, h a List.mem_cons_self]
    exact ih fun x hx => h x (List.mem_cons_of_mem _ hx)

/-- A table without the keys that a test refuses lists nothing under them, and reads as before under every other key. -/
theorem Tbl.find_filter_key {α : Type} (p : Nat → Bool) (t : Tbl α) (n : Nat) :
    Tbl.find (t.filter (fun x => p x.1)) n = if p n then t.find n else none := by
  induction t with
  | nil => simp
  | cons x t ih =>
    obtain ⟨k, v⟩ := x
    by_cases h : k = n
    · subst h
      cases hk : p k <;> simp [hk, Tbl.find, ih]
    · cases hk : p k <;> simp [hk, Tbl.find, ih, h]

theorem regKey_mod (r : Reg) (i : Nat) : regKey r i % 1024 = r.ctorIdx := by
  have := regIdx_lt r
  unfold regKey
  omega

/-- The words of one register in a register file, listed by number alone. -/
theorem find_ofRegister (r : Reg) (t : Tbl Word) (i : Nat) :
    Tbl.find (t.filterMap (fun p => if p.1 % 1024 = r.ctorIdx then some (p.1 / 1024, p.2) else none)) i = t.find (regKey r i) := by
  have hr := regIdx_lt r
  induction t with
  | nil => rfl
  | cons x t ih =>
    obtain ⟨k, v⟩ := x
    by_cases hk : k % 1024 = r.ctorIdx
    · have hkey : k / 1024 = i ↔ k = regKey r i := by unfold regKey; omega
      simp [hk, Tbl.find, ih, hkey]
    · have hkey : k ≠ regKey r i := fun h => hk (h ▸ regKey_mod r i)
      simp [hk, Tbl.find, ih, hkey]

end Sys2Proof

/-! The rations (R27-R40, R637): the opening of a period, a ration spent, the commands, a link going down (R16). -/

namespace Sys2Proof

open Machine

section
variable (s : State)

/-- The opening of a period empties SYS_RTN_STAT and leaves every other register. -/
theorem reg_openPeriod (r : Reg) (i : Nat) :
    s.openPeriod.reg r i = if r = .sysRtnStat then regReset .sysRtnStat i else s.reg r i := by
  have hkey : (regKey r i % 1024 != Reg.sysRtnStat.ctorIdx) = true ↔ r ≠ .sysRtnStat := by
    rw [regKey_mod, bne_iff_ne]
    exact not_congr ⟨reg_of_idx, congrArg _⟩
  simp only [State.reg, State.openPeriod, Tbl.getD]
  rw [Tbl.find_filter_key (fun k => k % 1024 != Reg.sysRtnStat.ctorIdx)]
  by_cases h : r = .sysRtnStat
  · rw [if_neg (mt hkey.1 (not_not.2 h)), if_pos h, h]; rfl
  · rw [if_pos (hkey.2 h), if_neg h]

@[simp] theorem openPeriod_meter : s.openPeriod.rtn.meter = [] := rfl

/-- R40: the opening of a period puts every configured ration word in force. -/
theorem rationInForce_openPeriod (i : Nat) : s.openPeriod.rationInForce i = s.reg .sysRtnCfg i := by
  simp only [State.rationInForce, State.reg, State.openPeriod, Tbl.getD, find_ofRegister .sysRtnCfg]

variable {s}

theorem readHeld_none (h : s.skewOut = []) (half : Nat) : s.readHeld half = s := by
  simp only [State.readHeld, h, List.foldl_nil]
  rw [← h]

theorem spillHeld_none (h : s.skeinOnus.all (fun p => p.2.held.all (fun x => !x.spill)) = true) (half : Nat) :
    s.spillHeld half = s := by
  simp only [List.all_eq_true, Bool.not_eq_true'] at h
  refine foldl_fixed_of_mem fun p hp => ?_
  have hkept : p.2.held.filter (·.spill) = [] := by simpa using h p hp
  simp [hkept]

/-- Where no SDU waits to be read back or written and no member container to be stored, SKEW has nothing to do. -/
theorem skewServe_none (hout : s.skewOut = []) (hheld : s.skeinOnus.all (fun p => p.2.held.all (fun x => !x.spill)) = true)
    (halign : s.tribs.all (fun p => p.2.aligning.all (fun a => a.waiting.isEmpty)) = true) (half : Nat) :
    s.skewServe half = s := by
  simp only [List.all_eq_true] at halign
  rw [State.skewServe, readHeld_none hout, spillHeld_none hheld]
  refine foldl_fixed_of_mem fun p hp => ?_
  have hnone : p.2.aligning.filter (fun a => !a.waiting.isEmpty) = [] := by simpa using halign p hp
  simp [hnone]

/-- Where no entity has ten seconds, none is final and PM commits nothing. -/
theorem pmCommit_none (h : s.pm.ents.all (fun p => decide (p.2.secs.length < 10)) = true) (die : Nat) : s.pmCommit die = s := by
  simp only [List.all_eq_true, decide_eq_true_eq] at h
  have hdue : ((s.pmOn die).filter (fun p => 10 ≤ p.2.secs.length)).isEmpty = true := by
    simp only [List.isEmpty_iff, List.filter_eq_nil_iff, decide_eq_true_eq, Nat.not_le]
    exact fun p hp => h p (List.mem_filter.1 hp).1
  simp only [State.pmCommit, hdue, if_true]

end

/-- Settles O3: `State.openPeriod` by what it does to each register and to the words in force, and `State.newPeriod` by what each of its
parts does where nothing waits. -/
theorem rationPeriodOpensWithMetersAtZero : Obligations.RationPeriodOpensWithMetersAtZero := by
  refine ⟨?boundary, ?forced, ?opened, ?quiet⟩
  case boundary => intro s hreached; exact next_ite_pos hreached
  case forced => intro s hstepped hlimit; exact next_ite_pos ⟨hstepped, hlimit⟩
  case opened =>
    intro s
    refine ⟨fun i => ?stat, fun i => ?meter, rationInForce_openPeriod s, fun r i hr => ?other, rfl, rfl, rfl⟩
    case stat => exact (reg_openPeriod s _ i).trans (if_pos rfl)
    case meter => rw [openPeriod_meter]; rfl
    case other => exact (reg_openPeriod s r i).trans (if_neg hr)
  case quiet =>
    intro s htable hout hheld halign hpm
    have hland : s.openPeriod.landWrites = s.openPeriod := landWrites_none htable
    have hskew (half : Nat) : s.openPeriod.skewServe half = s.openPeriod :=
      skewServe_none (s := s.openPeriod) hout hheld halign half
    have hcommit (die : Nat) : s.openPeriod.pmCommit die = s.openPeriod := pmCommit_none (s := s.openPeriod) hpm die
    rw [State.newPeriod, hland, hskew, hskew]
    exact List.foldl_fixed' hcommit _

section
variable {s : State} {die index : Nat}

/-- The meter stands in SYS_RTN_STAT beside the mark of a spent ration, and leaves it. -/
@[simp] theorem flag_spent_setMeter (i j span : Nat) : (s.setMeter i span).flag .sysRtnStatSpent j = s.flag .sysRtnStatSpent j := by
  by_cases h : i = j
  · subst h
    exact congrArg (· != 0) (fld_setFld_beside _ .sysRtnStatUsed .sysRtnStatSpent i _ rfl (by decide) (by decide))
  · exact congrArg (· != 0) (fld_setFld_other _ .sysRtnStatUsed .sysRtnStatSpent i j _ (.inr h))

@[simp] theorem rationBudget_setMeter (i j span : Nat) : (s.setMeter i span).rationBudget j = s.rationBudget j := by
  simp only [State.rationBudget, State.rationInForce, State.setMeter, setFld_rtn]

/-- R30, R34: what a metered ration has when it is spent for the first time in a period. -/
theorem spend_unspent (hration : (rationReset die index).isSome = true) (hbudget : s.rationBudget (die * 64 + index) < 125000)
    (hspent : s.flag .sysRtnStatSpent (die * 64 + index) = false) :
    s.spend die index =
      let t := (s.setFlag .sysRtnStatSpent (die * 64 + index) true).count .sysRtnSpent (die * 64 + index)
      if t.flag .sysRtnCfgEvtEn (die * 64 + index) then t.raise .sysRtnSpent die index else t := by
  simp [State.spend, Option.isNone_eq_false_iff.2 hration, Nat.not_le.2 hbudget, hspent]

end

/-- Settles O2: each command by its operands' checks, the rest by `spend_unspent` and the guard of the link. -/
theorem rationCommandsComplete : Obligations.RationCommandsComplete := by
  refine ⟨?set, ?get, ?spent, ?linkDown⟩
  case set =>
    intro h index cfg s hready hration hindex hcfg hsums hclaim
    have hgood : ¬ ((rationReset h.die.toNat index.toNat).isNone = true ∨ 63 < index.toNat ∨ cfg &&& 0xFCFE0000 ≠ 0) := by
      rw [not_or, not_or, not_not, Bool.not_eq_true, Option.isNone_eq_false_iff]
      exact ⟨hration, by omega, hcfg⟩
    have hsums' : (s.start (callerOf h 0x0010)).rationSumsHold h.die.toNat index.toNat (fldOf .sysRtnCfgBudget cfg) = true := hsums
    have hfree : [(15, Blk.sys)].any (fun b => (s.start (callerOf h 0x0010)).claimed b.1 b.2) = false := by simp [hclaim]
    refine completed_of hready ?_
    simp only [if_neg hgood, hsums', unlessClaimed_free hfree]
    rfl
  case get =>
    intro h index s hready hration hindex
    have hgood : ¬ ((rationReset h.die.toNat index.toNat).isNone = true ∨ 63 < index.toNat) := by
      rw [not_or, Bool.not_eq_true, Option.isNone_eq_false_iff]
      exact ⟨hration, by omega⟩
    refine completed_of hready ?_
    rw [if_neg hgood]
    rfl
  case spent =>
    intro die index s hration hbudget hspent
    have hgoes : ¬ ((rationReset die.toNat index.toNat).isNone = true ∨ 125000 ≤ s.rationBudget (die.toNat * 64 + index.toNat) ∨
        s.flag .sysRtnStatSpent (die.toNat * 64 + index.toNat) = true) := by
      simp [Option.isNone_eq_false_iff.2 hration, hbudget, hspent]
    refine ⟨_, _, rfl, rfl, (next_ite_neg hgoes).trans ?_⟩
    rw [spend_unspent hration (by rwa [rationBudget_setMeter]) ((flag_spent_setMeter ..).trans hspent)]
  case linkDown =>
    intro link s hlink hup
    exact if_neg (by simp [hlink, hup])

end Sys2Proof

/-! Resets and cast-on (R573-R583): each row has its effect where its guard holds. -/

namespace Sys2Proof

open Machine

/-- Settles O51: by the guard of each row, and of each stage's end the boot controller's stage (R577, R578). -/
theorem resetCommandsComplete : Obligations.ResetCommandsComplete := by
  refine ⟨?glitch, fun _ => rfl, ?long, ?asserted, fun _ => rfl, ?released, ?fuse, ?clock, ?link, ?hbm, ?clear, ?firmware, ?selftest, ?done,
    ?commanded, fun _ => rfl, fun _ => rfl⟩
  case glitch => intro w s hshort; exact next_ite_pos hshort
  case long => intro w s hlong; exact next_ite_neg (Nat.not_lt.2 hlong)
  case asserted => intro s hlow; exact next_ite_neg hlow
  case released => intro devnum senior s hlow; exact next_ite_neg (not_and_or.2 hlow)
  case fuse =>
    intro ms s hstage
    exact ⟨(next_ite_neg (bnot_ne_true hstage)).trans (next_ite_pos rfl),
      (next_ite_neg (bnot_ne_true hstage)).trans (next_ite_neg Bool.false_ne_true)⟩
  case clock => intro ms a b pon tnd pcie s hstage; exact next_ite_pos hstage
  case link => intro ms down spares s hstage; exact next_ite_pos hstage
  case hbm => intro ms failed s hstage; exact next_ite_pos hstage
  case clear => intro ms sram s hstage; exact next_ite_pos hstage
  case firmware =>
    intro ms s hstage hdown
    have hgoes : ¬ ((!s.booting 5) = true ∨ s.power.firmwareUp = true) := by simp [hstage, hdown]
    exact ⟨(next_ite_neg hgoes).trans (next_ite_pos rfl), (next_ite_neg hgoes).trans (next_ite_neg Bool.false_ne_true)⟩
  case selftest =>
    intro ms failed shared idOk s hstage htodo hcalm
    exact next_ite_pos (by simpa [htodo, hcalm] using hstage)
  case done =>
    intro ms s hstage hup htested
    exact next_ite_pos (by simp [hstage, hup, htested])
  case commanded =>
    intro devnum senior t s hdue ht
    show execPackageReset devnum senior s = _
    simp only [execPackageReset, hdue, if_pos ht]
    rfl

end Sys2Proof

/-! Tension, wear and the remuda as they act by themselves (R609, R613-R618). -/

namespace Sys2Proof

open Machine

section
variable {region : BitVec 7} {s : State}

/-- R614: a due step of the release lowers the stretch by one; the last one ends the episode. -/
theorem stretchReleaseStep_due {t : Nat} (hcalm : s.power.calm.find region.toNat = some t) (hstretched : s.stretchOf region.toNat ≠ 0)
    (hdue : t + nsSpan (10 * s.fld .tnsCfgRel region.toNat) ≤ s.elapsed) :
    exec (.stretchReleaseStep region) s = .next (
      let r := region.toNat
      let u := s.setStretch r (s.stretchOf r - 1)
      if s.stretchOf r = 1 then (u.modPower (fun p => { p with calm := p.calm.del r, episodes := p.episodes.del r })).countBy .tnsStretchNs r
        ((s.elapsed - ((s.power.episodes.find r).map Prod.fst).getD s.elapsed) / nsUnit)
      else u.modPower (fun p => { p with calm := p.calm.put r (t + nsSpan (10 * s.fld .tnsCfgRel r)) })) := by
  show execStretchReleaseStep region s = _
  simp only [execStretchReleaseStep, hcalm]
  exact next_ite_neg (not_or.2 ⟨hstretched, Nat.not_lt.2 hdue⟩)

/-- R616: a worn region is counted and raised, and is not again that day. -/
def tellWear (s : State) (r : Nat) : State :=
  ((s.modPower (fun p => { p with wearTold := p.wearTold.put r (s.elapsed / daySpan) })).count .rmdWear 0).raise .rmdWear 15 r

/-- R618: under policy 2 a spare comes in for the unit that a worn region is. -/
def spareForWear (s : State) (r : Nat) : State :=
  match regionUnit r with
  | some (kind, n) => if s.unitPolicy kind (regionDie r) = 2 ∧ !s.unitReplaced kind (regionDie r) n then s.autoSpare kind (regionDie r) n else s
  | none => s

theorem spareForWear_noUnit {r : Nat} (h : regionUnit r = none) : spareForWear s r = s := by simp only [spareForWear, h]

theorem spareForWear_replaces {r kind n : Nat} (h : regionUnit r = some (kind, n)) (hpolicy : s.unitPolicy kind (regionDie r) = 2)
    (hserves : s.unitReplaced kind (regionDie r) n = false) : spareForWear s r = s.autoSpare kind (regionDie r) n := by
  simp [spareForWear, h, hpolicy, hserves]

/-- A region found worn for the first time in a day. -/
theorem wearSample_worn {ppm : Word} (hregion : s.hasRegion region.toNat = true) (hworn : s.fld .rmdCfgWearPpm 0 < ppm.toNat)
    (htold : s.power.wearTold.find region.toNat ≠ some (s.elapsed / daySpan)) :
    exec (.wearSample region ppm) s = .next (spareForWear
      (tellWear (s.modPower (fun p => { p with wear := p.wear.setD region.toNat 0 ppm.toNat })) region.toNat) region.toNat) := by
  refine (next_ite_neg (bnot_ne_true hregion)).trans ((next_ite_neg (Nat.not_le.2 hworn)).trans ?_)
  unfold spareForWear
  rcases regionUnit region.toNat with _ | ⟨kind, n⟩
  · exact congrArg Host.Outcome.next (if_neg htold)
  · exact congrArg (fun u : State => Host.Outcome.next
      (if u.unitPolicy kind _ = 2 ∧ !u.unitReplaced kind _ n then u.autoSpare kind _ n else u)) (if_neg htold)

end

section
variable {s : State} {kind die n : Nat}

/-- R617: a unit in service that has a parity error goes out of it, and a spare follows under its policy. -/
theorem parityError_inService (hdie : s.hasDie die = true) (hserves : s.unitFailed kind die n = false) :
    s.parityError kind die n = (s.failUnit kind die n).autoSpare kind die n :=
  if_neg (by simp [hdie, hserves])

end

/-- Settles O55: by the guard of each row; wear and the release of the stretch by their own lemmas. -/
theorem powerEventsComplete : Obligations.PowerEventsComplete := by
  refine ⟨?thermal, ?droop, ?hardDroop, ?stepUp, ?recovery, ?release, ?long, ?wear, ?pipeline, fun _ _ _ => rfl, fun _ _ _ => rfl,
    fun _ _ _ _ => parityError_inService, ?lane, ?clock⟩
  case thermal =>
    intro region temp mw s hregion
    cases mw <;> exact next_ite_neg (bnot_ne_true hregion)
  case droop =>
    intro region hard s hregion hstretches habove
    exact (next_ite_neg (bnot_ne_true hregion)).trans ((next_ite_pos hstretches).trans (next_ite_neg (Bool.eq_false_iff.1 habove)))
  case hardDroop =>
    intro region s hregion hstretches habove
    show execDroopDetect region true s = _
    simp only [execDroopDetect, hregion, hstretches, habove]
    rfl
  case stepUp => intro region s hstretches hbelow hdue; exact next_ite_pos ⟨hstretches, hbelow, hdue⟩
  case recovery =>
    intro region s hbelow
    exact ⟨fun hstretches => (next_ite_neg (bnot_ne_true hbelow)).trans (next_ite_pos hstretches),
      fun hstretches => (next_ite_neg (bnot_ne_true hbelow)).trans (next_ite_neg (Bool.eq_false_iff.1 hstretches))⟩
  case release =>
    intro region t s hcalm r n due hdue
    refine ⟨fun hn => ?_, fun hn began told hepisode => ?_⟩
    · exact (stretchReleaseStep_due hcalm (Nat.ne_of_gt (Nat.zero_lt_of_lt hn)) hdue).trans (next_ite_neg (Nat.ne_of_gt hn))
    · rw [stretchReleaseStep_due hcalm (hn.trans_ne Nat.one_ne_zero) hdue]
      refine (next_ite_pos hn).trans ?_
      rw [hepisode, show s.stretchOf region.toNat = 1 from hn]
      rfl
  case long =>
    intro region began s hepisode hlimit hlong
    show execTensionEpisodeLong region s = _
    simp only [execTensionEpisodeLong, hepisode]
    exact next_ite_pos ⟨hlimit, hlong⟩
  case wear =>
    intro region ppm s hregion
    refine ⟨fun hfresh => (next_ite_neg (bnot_ne_true hregion)).trans (next_ite_pos hfresh), fun hworn htold hunit => ?_,
      fun kind n hworn htold hunit hpolicy hserves => ?_⟩
    · exact (wearSample_worn hregion hworn htold).trans (congrArg _ (spareForWear_noUnit hunit))
    · exact (wearSample_worn hregion hworn htold).trans (congrArg _ (spareForWear_replaces hunit hpolicy hserves))
  case pipeline => intro half n s hserves; exact next_ite_pos hserves
  case lane =>
    intro link s hlink hup hpolicy
    have hrepairs : ¬ ((!s.hasLink link.toNat) = true ∨ s.ucieDown.contains link.toNat = true ∨ s.policy 3 = 0) := by
      rw [hlink, hup]; simpa using hpolicy
    exact ⟨fun hleft => (next_ite_neg hrepairs).trans (next_ite_pos hleft),
      fun hnone => (next_ite_neg hrepairs).trans (next_ite_neg (Bool.eq_false_iff.1 hnone))⟩
  case clock =>
    intro die s hdie u
    have hfails := bnot_ne_true hdie
    have hauto (hpolicy : u.policy 7 ≠ 0) (hidle : u.bringing 7 die.toNat 0 = false) :
        ¬ (u.policy 7 = 0 ∨ u.bringing 7 die.toNat 0 = true) := by simp [hpolicy, hidle]
    exact ⟨fun hmanual => (next_ite_neg hfails).trans (next_ite_pos (.inl hmanual)),
      fun hpolicy hidle hleft => (next_ite_neg hfails).trans ((next_ite_neg (hauto hpolicy hidle)).trans (next_ite_pos hleft)),
      fun hpolicy hidle hnone => (next_ite_neg hfails).trans
        ((next_ite_neg (hauto hpolicy hidle)).trans (next_ite_neg (Bool.eq_false_iff.1 hnone)))⟩

end Sys2Proof

/-! The patrol scrub (R32, R547, R552): a visit under its ration, and what an error does to each memory. -/

namespace Sys2Proof

open Machine

section
variable {s : State}

/-- Work whose ration makes it wait is not done; that it wanted time stays (R34, R35). -/
theorem rationed_waits {die index span : Nat} {work : State → State} (h : s.served die index = false) :
    s.rationed die index span work = s.wantTime die index := by
  simp only [State.served, Bool.not_eq_false'] at h
  simp [State.rationed, h]

/-- A visit that no hand-over holds is work under the ration of its memory. -/
theorem scrubPatrol_rationed {site : ScrubSite} (bad : Bool) (h : s.patrolHeld site = false) :
    exec (.scrubPatrol site bad) s = .next (s.rationed (patrolRation site).1 (patrolRation site).2 (patrolSpan site)
      (fun u => if bad then u.scrubLose site else u.scrubCorrect site)) :=
  next_ite_neg (Bool.eq_false_iff.1 h)

theorem allocBroken_listed {l r : Nat} {x : AllocRec} (h : s.pon.allocs.find (l * 16384 + r) = some x) :
    s.allocBroken (2 + l) r = (State.report { s with pon := { s.pon with allocs := s.pon.allocs.put (l * 16384 + r) { x with memErr := true } } }
      .gntMemErr (2 + l) .gntMemErr (2 + l) (s.recChan x)).chanCause (s.recChan x) := by
  simp only [State.allocBroken, Nat.add_sub_cancel_left, h]

theorem ruleBroken_listed {half t i : Nat} {e : RuleEnt} (h : s.rule half t i = some e) :
    s.ruleBroken half t i = (s.setRule half t i (some { e with memErr := true })).report .rulMemErr half .rulMemErr half t := by
  simp only [State.ruleBroken, h]

end

/-- Settles O56: a visit by `scrubPatrol_rationed`, the memories by the arms of `State.scrubCorrect` and `State.scrubLose`. -/
theorem patrolScrubActs : Obligations.PatrolScrubActs := by
  refine ⟨?served, ?waits, fun _ _ _ => rfl, fun _ _ _ _ => rfl, fun _ _ _ => rfl, fun _ _ _ => rfl, fun _ _ _ => rfl, fun _ _ _ => rfl,
    fun _ _ _ _ => allocBroken_listed, fun _ _ _ _ _ => ruleBroken_listed, fun _ _ _ => rfl, fun _ _ _ _ => rfl, fun _ _ _ => rfl,
    fun _ _ _ => rfl, ?keyRam, ?hbm⟩
  case served =>
    intro site bad s hheld hserved
    rw [scrubPatrol_rationed bad hheld, rationed_served hserved]
  case waits =>
    intro site bad s hheld hwaits
    rw [scrubPatrol_rationed bad hheld, rationed_waits hwaits]
  case keyRam => intro d k s hline; exact if_neg (Nat.not_lt.2 hline)
  case hbm =>
    intro h k page s row n u use
    exact ⟨fun hbelow => if_neg (Nat.not_le.2 hbelow), fun hthreshold => if_pos hthreshold⟩

end Sys2Proof

/-! What a jump of the time sets going (R56) moves no clock: one lemma for each operation that a launcher, a waiting change of the tables, a
ration or a PM second makes of. -/

namespace Sys2Proof

open Machine

/-- The time in force, the elapsed time, the action that waits for its instant and the replicas' differences from the master. -/
def Machine.State.clock (s : State) : Nat × Nat × Option Action × Tbl (Int × Bool) :=
  (s.now, s.elapsed, s.tb.pendingAction, s.tb.replicas)

theorem clock_iff {s t : State} : t.clock = s.clock ↔
    t.now = s.now ∧ t.elapsed = s.elapsed ∧ t.tb.pendingAction = s.tb.pendingAction ∧ t.tb.replicas = s.tb.replicas := by
  simp [State.clock]

theorem clock_ext {s t : State} (hnow : t.now = s.now) (helapsed : t.elapsed = s.elapsed)
    (haction : t.tb.pendingAction = s.tb.pendingAction) (hreplicas : t.tb.replicas = s.tb.replicas) : t.clock = s.clock :=
  clock_iff.2 ⟨hnow, helapsed, haction, hreplicas⟩

theorem clock_foldl {α : Type} {f : State → α → State} (h : ∀ s a, (f s a).clock = s.clock) (l : List α) (s : State) :
    (l.foldl f s).clock = s.clock := by
  induction l generalizing s with
  | nil => rfl
  | cons a l ih => rw [List.foldl_cons, ih, h]

theorem clock_ite {p : Prop} [Decidable p] {s t u : State} (ht : t.clock = s.clock) (hu : u.clock = s.clock) :
    (if p then t else u).clock = s.clock := by
  split <;> assumption

section
variable (s : State)

/-! ### Registers, counters, events, what is sent -/

@[simp] theorem clock_setReg (r : Reg) (i : Nat) (v : Word) : (s.setReg r i v).clock = s.clock := clock_ext rfl rfl rfl rfl
@[simp] theorem clock_setFld (f : Fld) (i x : Nat) : (s.setFld f i x).clock = s.clock := clock_ext rfl rfl rfl rfl
@[simp] theorem clock_setFlag (f : Fld) (i : Nat) (b : Bool) : (s.setFlag f i b).clock = s.clock := clock_ext rfl rfl rfl rfl
@[simp] theorem clock_latchFlag (f : Fld) (i : Nat) : (s.latchFlag f i).clock = s.clock := clock_ext rfl rfl rfl rfl
@[simp] theorem clock_send (o : Out) : (s.send o).clock = s.clock := clock_ext rfl rfl rfl rfl
@[simp] theorem clock_drawn : s.drawn.clock = s.clock := clock_ext rfl rfl rfl rfl
@[simp] theorem clock_modPmEnt (key : Nat) (f : PmEnt → PmEnt) : (s.modPmEnt key f).clock = s.clock := clock_ext rfl rfl rfl rfl

variable {s} in
/-- Counting and raising move no clock. -/
theorem Machine.Quiet.clock {t : State} (h : Quiet s t) : t.clock = s.clock := by
  have hrest := h.rest
  simp_all [State.clock]

@[simp] theorem clock_countBy (c : Ctr) (i n : Nat) : (s.countBy c i n).clock = s.clock := (quiet_countBy ..).clock
@[simp] theorem clock_count (c : Ctr) (i : Nat) : (s.count c i).clock = s.clock := (quiet_count ..).clock
@[simp] theorem clock_raise (e : Ev) (die inst : Nat) : (s.raise e die inst).clock = s.clock := (quiet_raise ..).clock
@[simp] theorem clock_report (c : Ctr) (ci : Nat) (e : Ev) (die inst : Nat) : (s.report c ci e die inst).clock = s.clock :=
  (quiet_report ..).clock
@[simp] theorem clock_pmInto (key p n : Nat) (day : Bool) (sel : PmBin → Bool) : (s.pmInto key p n day sel).clock = s.clock :=
  (quiet_pmInto ..).clock
@[simp] theorem clock_pmAdd (kind idx p n : Nat) : (s.pmAdd kind idx p n).clock = s.clock := (quiet_pmAdd ..).clock

@[simp] theorem clock_raiseOnceIn (frame : Nat) (e : Ev) (die inst cause : Nat) :
    (s.raiseOnceIn frame e die inst cause).clock = s.clock :=
  clock_ite rfl ((clock_raise ..).trans (clock_ext rfl rfl rfl rfl))
@[simp] theorem clock_raiseOnce (e : Ev) (die inst : Nat) : (s.raiseOnce e die inst).clock = s.clock := clock_raiseOnceIn ..

/-! ### Rations -/

@[simp] theorem clock_setMeter (i span : Nat) : (s.setMeter i span).clock = s.clock :=
  (clock_setFld ..).trans (clock_ext rfl rfl rfl rfl)
@[simp] theorem clock_borrow (i span : Nat) : (s.borrow i span).clock = s.clock :=
  (clock_countBy ..).trans (clock_ext rfl rfl rfl rfl)
@[simp] theorem clock_openPeriod : s.openPeriod.clock = s.clock := clock_ext rfl rfl rfl rfl

@[simp] theorem clock_spend (die index : Nat) : (s.spend die index).clock = s.clock := by
  unfold State.spend
  refine clock_ite rfl (clock_ite ?_ ?_) <;> simp

@[simp] theorem clock_wantTime (die index : Nat) : (s.wantTime die index).clock = s.clock := clock_ite (clock_spend ..) rfl

@[simp] theorem clock_chargeWith (die index span : Nat) (borrows : Bool) : (s.chargeWith die index span borrows).clock = s.clock := by
  unfold State.chargeWith
  refine clock_ite ?_ (clock_ite ?_ ?_) <;> simp

@[simp] theorem clock_charge (die index span : Nat) : (s.charge die index span).clock = s.clock := clock_chargeWith ..

@[simp] theorem clock_periodJump (old : Nat) : (s.periodJump old).clock = s.clock :=
  clock_ite (clock_ite (clock_openPeriod s) rfl) (clock_ext rfl rfl rfl rfl)

@[simp] theorem clock_wantPort (halves : List Nat) (span : Nat) : (s.wantPort halves span).clock = s.clock :=
  clock_ite rfl (clock_foldl (fun _ _ => clock_wantTime ..) ..)

@[simp] theorem clock_chargePort (halves : List Nat) (span : Nat) : (s.chargePort halves span).clock = s.clock :=
  clock_ite rfl (clock_foldl (fun _ _ => clock_charge ..) ..)

/-! ### Frames and replies sent -/

@[simp] theorem clock_setSecy (port : Nat) (x : SecY) : (s.setSecy port x).clock = s.clock := clock_ext rfl rfl rfl rfl
@[simp] theorem clock_carry (die : Nat) (b : Blk) (u len : Nat) : (s.carry die b u len).clock = s.clock := clock_ext rfl rfl rfl rfl

@[simp] theorem clock_segment (die cluster egress : Nat) : (s.segment die cluster egress).clock = s.clock := by
  unfold State.segment
  split
  · rfl
  · simp [State.clock]

@[simp] theorem clock_segments (die cluster egress n : Nat) : (s.segments die cluster egress n).clock = s.clock := by
  induction n generalizing s with
  | zero => rfl
  | succ n ih => rw [State.segments, ih, clock_segment]

@[simp] theorem clock_cipherItem (die cluster egress len : Nat) (chained : Bool) :
    (s.cipherItem die cluster egress len chained).clock = s.clock := clock_segments ..

@[simp] theorem clock_putOut (port : Nat) (f : Frame) (tag : Option (Nat × Nat × Nat)) : (s.putOut port f tag).clock = s.clock := by
  unfold State.putOut
  extract_lets t looped u
  have ht : t.clock = s.clock := clock_ite (clock_send ..) rfl
  have hu : u.clock = t.clock := clock_ite (clock_ext rfl rfl rfl rfl) rfl
  rw [clock_carry, clock_pmAdd, hu, ht]

@[simp] theorem clock_sendUplink (port : Nat) (f : Frame) : (s.sendUplink port f).clock = s.clock := by
  unfold State.sendUplink
  extract_lets die eapol y an
  split
  · exact clock_putOut ..
  · split
    · exact clock_count ..
    · refine clock_ite ?_ (clock_ite ?_ ?_) <;> simp

@[simp] theorem clock_ringStep (r : Nat) : (s.ringStep r).clock = s.clock := by
  unfold State.ringStep
  refine clock_ite ?_ (clock_ite ?_ ?_) <;> simp

@[simp] theorem clock_postPcie (r : Reply) : (s.postPcie r).clock = s.clock :=
  clock_ite ((clock_raise ..).trans ((clock_ringStep ..).trans (clock_ext rfl rfl rfl rfl))) (clock_ext rfl rfl rfl rfl)

@[simp] theorem clock_postI3c (r : Reply) : (s.postI3c r).clock = s.clock := by
  unfold State.postI3c
  refine clock_ite (clock_ite ?_ ?_) ?_ <;> exact clock_ext rfl rfl rfl rfl

@[simp] theorem clock_postInband (r : Reply) : (s.postInband r).clock = s.clock := by
  unfold State.postInband
  split
  · exact clock_ite (clock_sendUplink ..) rfl
  · rfl

@[simp] theorem clock_postPacket (r : Reply) : (s.postPacket r).clock = s.clock := by
  unfold State.postPacket
  split
  · exact clock_postPcie ..
  · exact clock_postI3c ..
  · exact clock_postInband ..

@[simp] theorem clock_post (r : Reply) : (s.post r).clock = s.clock := clock_foldl (fun _ _ => clock_postPacket ..) ..

@[simp] theorem clock_answer (c : Caller) (st : Status) (ws : List Word) : (s.answer c st ws).clock = s.clock := by
  unfold State.answer
  extract_lets k
  split
  · rfl
  · exact clock_ite rfl ((clock_post ..).trans (clock_ext rfl rfl rfl rfl))

/-! ### Changes of the tables -/

@[simp] theorem clock_setFwd (half : Nat) (x : Fwd) : (s.setFwd half x).clock = s.clock := clock_ext rfl rfl rfl rfl
@[simp] theorem clock_modFwd (half : Nat) (f : Fwd → Fwd) : (s.modFwd half f).clock = s.clock := clock_ext rfl rfl rfl rfl
@[simp] theorem clock_setRule (half t i : Nat) (e : Option RuleEnt) : (s.setRule half t i e).clock = s.clock := clock_ext rfl rfl rfl rfl
@[simp] theorem clock_setBr (half i : Nat) (e : Option BrEnt) : (s.setBr half i e).clock = s.clock := clock_ext rfl rfl rfl rfl
@[simp] theorem clock_abort (half : Nat) : (s.abort half).clock = s.clock := clock_ext rfl rfl rfl rfl
@[simp] theorem clock_setVersions (half cur o : Nat) : (s.setVersions half cur o).clock = s.clock := by
  simp [State.setVersions]

@[simp] theorem clock_putRule (half path t i : Nat) (e : RuleEnt) : (s.putRule half path t i e).clock = s.clock :=
  clock_ite ((clock_modFwd ..).trans (clock_setRule ..)) (clock_setRule ..)

@[simp] theorem clock_closeRule (half path t i : Nat) : (s.closeRule half path t i).clock = s.clock := by
  unfold State.closeRule
  refine clock_ite ?_ (clock_setRule ..)
  split
  · exact (clock_modFwd ..).trans (clock_setRule ..)
  · rfl

@[simp] theorem clock_refuseCommit (half : Nat) : (s.refuseCommit half).clock = s.clock :=
  (clock_latchFlag ..).trans (clock_count ..)

@[simp] theorem clock_advanceOldest (half n : Nat) : (s.advanceOldest half n).clock = s.clock := by
  induction n generalizing s with
  | zero => rfl
  | succ n ih => exact clock_ite rfl ((ih _).trans (clock_setVersions ..))

@[simp] theorem clock_bump (half : Nat) : (s.bump half).clock = s.clock :=
  (clock_advanceOldest ..).trans ((clock_setVersions ..).trans (clock_modFwd ..))

@[simp] theorem clock_svcDel (half : Nat) (up : Bool) (source ovid ivid : Nat) : (s.svcDel half up source ovid ivid).clock = s.clock := by
  unfold State.svcDel
  split
  · exact clock_modFwd ..
  · rfl

variable {s} in
theorem clock_res_ite {p : Prop} [Decidable p] {a b : Res} (ha : a.st.clock = s.clock) (hb : b.st.clock = s.clock) :
    (if p then a else b).st.clock = s.clock := by
  split <;> assumption

variable {s} in
theorem clock_ofOpt {o : Option State} {ws : List Word} (h : ∀ t ∈ o, t.clock = s.clock) : (Res.ofOpt s o ws).st.clock = s.clock := by
  cases o
  case none => rfl
  case some t => exact h t rfl

theorem clock_floodPut {half g : Nat} {ds : List Nat} : ∀ t ∈ s.floodPut half g ds, t.clock = s.clock := by
  simp [State.floodPut]

theorem clock_svcPut {half : Nat} {e : SvcEnt} : ∀ t ∈ s.svcPut half e, t.clock = s.clock := by
  simp [State.svcPut]

theorem clock_brInsert {half : Nat} {e : BrEnt} : ∀ t ∈ s.brInsert half e, t.clock = s.clock := by
  unfold State.brInsert
  extract_lets b
  cases s.brFree half 4 (4 * b) <;> simp

theorem clock_macPut {half : Nat} {e : BrEnt} : ∀ t ∈ s.macPut half e, t.clock = s.clock := by
  unfold State.macPut
  cases s.brFind half e.bd e.mac
  case none => exact clock_brInsert s
  case some => simp

theorem clock_routePut {half : Nat} {r : Route} : ∀ t ∈ s.routePut half r, t.clock = s.clock := by
  simp [State.routePut]

theorem clock_bindPut {half : Nat} {b : Binding} : ∀ t ∈ s.bindPut half b, t.clock = s.clock := by
  simp [State.bindPut]

variable {s} in
theorem clock_onHalves {h : Hdr} {f : Nat → State → Res} (hf : ∀ k s, (f k s).st.clock = s.clock) : (onHalves h f s).st.clock = s.clock := by
  unfold onHalves
  extract_lets a b codes
  have ha : a.st.clock = s.clock := hf ..
  have hb : b.st.clock = s.clock := (hf ..).trans ha
  split
  · exact hf ..
  · split
    · exact clock_ite hb ha
    · split
      · exact hf ..
      · exact hb

@[simp] theorem clock_onPort (r : Res) (halves : List Nat) (span : Nat) : (r.onPort halves span).st.clock = r.st.clock := by
  unfold Res.onPort
  split
  · rfl
  · exact clock_chargePort ..

section
variable (c : Caller) (k : Nat)

theorem clock_bodyRuleWrite (table index pri : Word) (value mask : List Word) (act : Word) :
    (bodyRuleWrite table index pri value mask act c k s).st.clock = s.clock := by
  unfold bodyRuleWrite
  extract_lets t path slot
  refine clock_res_ite rfl ?_
  clear_value slot
  cases slot
  case none => rfl
  case some => exact clock_res_ite rfl (clock_putRule ..)

theorem clock_bodyRuleDelete (table index : Word) : (bodyRuleDelete table index c k s).st.clock = s.clock :=
  clock_res_ite rfl (clock_closeRule ..)

theorem clock_bodyRuleCommit : (bodyRuleCommit c k s).st.clock = s.clock :=
  clock_res_ite rfl (clock_res_ite (clock_refuseCommit ..) (clock_bump ..))

theorem clock_bodyRuleAbort : (bodyRuleAbort c k s).st.clock = s.clock := clock_res_ite rfl (clock_abort ..)

theorem clock_bodyTableMacDel (bd : Word) (mac : BitVec 48) : (bodyTableMacDel bd mac c k s).st.clock = s.clock := by
  unfold bodyTableMacDel
  split
  · exact clock_setBr ..
  · rfl

/-- The changes of the tables that wait for the maintenance port. -/
theorem clock_tableBody {cmd : Instr} {h : Hdr} {span : Nat} {body : Caller → Nat → State → Res}
    (hb : tableBody cmd = some (h, span, body)) : (body c k s).st.clock = s.clock := by
  unfold tableBody at hb
  split at hb <;> simp only [Option.some.injEq, Prod.mk.injEq, reduceCtorEq] at hb <;> obtain ⟨-, -, rfl⟩ := hb
  · exact clock_bodyRuleWrite ..
  · exact clock_bodyRuleDelete ..
  · exact clock_bodyRuleCommit ..
  · exact clock_bodyRuleAbort ..
  · exact clock_modFwd ..
  · exact clock_modFwd ..
  · exact clock_ofOpt (clock_floodPut s)
  · exact clock_ofOpt (clock_svcPut s)
  · exact clock_svcDel ..
  · exact clock_ofOpt (clock_macPut s)
  · exact clock_bodyTableMacDel ..
  · exact clock_ofOpt (clock_routePut s)
  · exact clock_modFwd ..
  · exact clock_modFwd ..
  · exact clock_ofOpt (clock_bindPut s)
  · exact clock_modFwd ..

end

/-! ### Changes through the register windows -/

@[simp] theorem clock_setAccData (i v : Nat) : (s.setAccData i v).clock = s.clock := clock_foldl (fun _ _ => clock_setReg ..) ..

theorem clock_accWrite (half tbl v : Nat) (index : Option Nat) (del : Bool) : (s.accWrite half tbl v index del).st.clock = s.clock := by
  unfold State.accWrite
  extract_lets f g key entry
  clear_value f g key entry
  refine clock_res_ite ?bridge (clock_res_ite ?service (clock_res_ite ?route (clock_res_ite ?nextHop (clock_res_ite ?binding
    (clock_res_ite ?domain (clock_res_ite ?flood (clock_res_ite rfl (clock_setFwd ..))))))))
  case bridge =>
    rcases index with _ | i
    · refine clock_res_ite ?_ ?_
      · dsimp only [Res.ok]
        split
        · exact clock_setBr ..
        · rfl
      · cases entry
        case none => rfl
        case some => exact clock_ofOpt (clock_macPut s)
    · exact clock_res_ite rfl (clock_setBr ..)
  case service =>
    rcases index with _ | i
    · cases del
      case false => exact clock_ofOpt (clock_svcPut s)
      case true => exact clock_svcDel ..
    · exact clock_res_ite rfl (clock_setFwd ..)
  case route =>
    refine clock_res_ite rfl ?_
    rcases index with _ | i
    · exact clock_res_ite (clock_setFwd ..) (clock_ofOpt (clock_routePut s))
    · exact clock_res_ite rfl (clock_res_ite rfl (clock_setFwd ..))
  case nextHop => exact clock_res_ite rfl (clock_setFwd ..)
  case binding =>
    refine clock_res_ite rfl ?_
    rcases index with _ | i
    · exact clock_res_ite (clock_setFwd ..) (clock_ofOpt (clock_bindPut s))
    · exact clock_res_ite rfl (clock_res_ite rfl (clock_setFwd ..))
  case domain => exact clock_res_ite rfl (clock_setFwd ..)
  case flood =>
    refine clock_res_ite rfl ?_
    split
    · exact clock_ofOpt (clock_floodPut s)
    · rfl

@[simp] theorem clock_accRun (p : APath) (half : Nat) (data : Word) : (s.accRun p half data).clock = s.clock := by
  unfold State.accRun
  extract_lets i tbl op index done t found r
  have ht : t.clock = s.clock := clock_chargePort ..
  have hdone (u : State) (b : Bool) (st : Status) : (done u b st).clock = u.clock := by simp [done]
  split
  · split
    · rw [hdone, clock_setAccData, ht]
    · rw [hdone, ht]
  · have hr : r.st.clock = t.clock := clock_accWrite ..
    rw [hdone, ← ht, ← hr]
    exact clock_ite rfl (clock_report ..)

@[simp] theorem clock_rulCommitNow (p : APath) (half : Nat) (data : Word) : (s.rulCommitNow p half data).clock = s.clock := by
  unfold State.rulCommitNow
  extract_lets t
  have ht : t.clock = s.clock := clock_ite (clock_ite (clock_refuseCommit ..) (clock_bump ..)) rfl
  exact clock_ite rfl (clock_ite ((clock_abort ..).trans ht) ht)

@[simp] theorem clock_rulEntNow (p : APath) (half : Nat) (x : Nat × Nat × RuleEnt) : (s.rulEntNow p half x).clock = s.clock := by
  obtain ⟨t, n, e⟩ := x
  unfold State.rulEntNow
  have hreject : (s.entReject half).clock = s.clock := clock_report ..
  refine clock_ite hreject (clock_ite (clock_ite hreject ?_) ?_) <;> simp

@[simp] theorem clock_landOne (w : TableWait) : (s.landOne w).clock = s.clock := by
  unfold State.landOne
  split
  next c h span body hcaller hbody =>
    rw [clock_answer, clock_onPort, clock_onHalves fun k s => clock_tableBody s c k hbody]
  next =>
    split
    · exact clock_accRun ..
    · exact clock_rulCommitNow ..
    · exact clock_rulEntNow ..
    · rfl

@[simp] theorem clock_landWrites : s.landWrites.clock = s.clock := by
  unfold State.landWrites
  refine (clock_foldl (fun s w => ?_) ..).trans (clock_ext rfl rfl rfl rfl)
  refine clock_ite ((clock_ext rfl rfl rfl rfl).trans (clock_wantPort s w.halves w.span)) ((clock_landOne ..).trans (clock_wantPort ..))

/-! ### PM seconds -/

@[simp] theorem clock_commitSec (key : Nat) (e : PmEnt) : (s.commitSec key e).clock = s.clock := by
  unfold State.commitSec
  split
  next => rfl
  next h rest hsecs =>
    extract_lets ten un t here put
    have hput (u : State) (p n : Nat) : (put u p n).clock = u.clock := clock_ite rfl ((clock_pmInto ..).trans (clock_pmInto ..))
    have ht : t.clock = s.clock := clock_modPmEnt ..
    split <;> simp only [hput, ht]

@[simp] theorem clock_commitSecs (key n : Nat) : (s.commitSecs key n).clock = s.clock := by
  induction n generalizing s with
  | zero => rfl
  | succ n ih =>
    unfold State.commitSecs
    split
    · exact clock_ite ((ih _).trans (clock_commitSec ..)) rfl
    · rfl

@[simp] theorem clock_losePending (die : Nat) : (s.losePending die).clock = s.clock :=
  clock_ite ((clock_raiseOnce ..).trans ((clock_count ..).trans (clock_ext rfl rfl rfl rfl))) rfl

@[simp] theorem clock_pmCommit (die : Nat) : (s.pmCommit die).clock = s.clock := by
  unfold State.pmCommit
  extract_lets due rations
  refine clock_ite rfl ((clock_losePending ..).trans (clock_foldl (fun s p => ?_) ..))
  have hwant : (rations.foldl (fun s r => s.wantTime r.1.1 r.1.2) s).clock = s.clock := clock_foldl (fun _ _ => clock_wantTime ..) ..
  refine clock_ite hwant ?_
  rw [clock_commitSecs, clock_foldl fun _ _ => clock_charge .., hwant]

@[simp] theorem clock_pmSecond (die : Nat) : (s.pmSecond die).clock = s.clock := by
  unfold State.pmSecond
  split
  · rfl
  · exact (clock_pmCommit ..).trans (clock_ext rfl rfl rfl rfl)

@[simp] theorem clock_pmJump (old : Nat) : (s.pmJump old).clock = s.clock := by
  unfold State.pmJump
  extract_lets mark t dies u
  have ht : t.clock = s.clock := clock_ext rfl rfl rfl rfl
  have hu : u.clock = t.clock := clock_foldl clock_pmSecond ..
  exact clock_ite ((clock_ext rfl rfl rfl rfl).trans (hu.trans ht)) ((clock_ext rfl rfl rfl rfl).trans ht)

/-! ### Queues and gates -/

@[simp] theorem clock_setQueue (half q : Nat) (x : QueueSt) : (s.setQueue half q x).clock = s.clock := clock_ext rfl rfl rfl rfl
@[simp] theorem clock_setNode (half n : Nat) (x : NodeSt) : (s.setNode half n x).clock = s.clock := clock_ext rfl rfl rfl rfl
@[simp] theorem clock_setStore (half : Nat) (x : Store) : (s.setStore half x).clock = s.clock := clock_ext rfl rfl rfl rfl
@[simp] theorem clock_settle (half q : Nat) : (s.settle half q).clock = s.clock := clock_ite (clock_setQueue ..) rfl

@[simp] theorem clock_noteStall (half q : Nat) : (s.noteStall half q).clock = s.clock := by
  unfold State.noteStall
  extract_lets x
  split
  · exact clock_ite ((clock_count ..).trans (clock_setQueue ..)) rfl
  · rfl

@[simp] theorem clock_popHead (half q : Nat) : (s.popHead half q).clock = s.clock := by
  unfold State.popHead
  extract_lets x
  split
  · simp
  · rfl

@[simp] theorem clock_purge (half g q k : Nat) : (State.purge half g q k s).clock = s.clock := by
  induction k generalizing s with
  | zero => rfl
  | succ k ih =>
    unfold State.purge
    split
    · rfl
    · refine clock_ite ?_ (clock_ite ?_ rfl) <;> simp [ih]

@[simp] theorem clock_syncNode (half : Nat) (heads : List QHead) (s : State) (pn : Nat × Nat) : (State.syncNode half heads s pn).clock = s.clock :=
  clock_ite rfl (clock_ite (clock_setNode ..) (clock_setNode ..))

@[simp] theorem clock_syncEgress (half g : Nat) : (s.syncEgress half g).clock = s.clock := by
  unfold State.syncEgress
  extract_lets qs t heads paths idle u v
  have ht : t.clock = s.clock := clock_ite (clock_foldl (fun _ _ => clock_purge ..) ..) rfl
  have hu : u.clock = t.clock := clock_foldl (fun _ _ => clock_foldl (fun _ _ => clock_setNode ..) ..) ..
  have hv : v.clock = t.clock := clock_ite ((clock_ext rfl rfl rfl rfl).trans hu) rfl
  exact (clock_foldl (fun _ _ => clock_foldl (clock_syncNode half heads) ..) ..).trans (hv.trans ht)

@[simp] theorem clock_swapBuffers (half g : Nat) : (s.swapBuffers half g).clock = s.clock :=
  (clock_setStore ..).trans (clock_ext rfl rfl rfl rfl)

@[simp] theorem clock_startList (half g : Nat) : (s.startList half g).clock = s.clock := by
  unfold State.startList
  extract_lets st
  split
  · rfl
  · simp

/-! ### What a launcher does at its instant -/

@[simp] theorem clock_setTree (t : Nat) (x : TreeSt) : (s.setTree t x).clock = s.clock := clock_ext rfl rfl rfl rfl
@[simp] theorem clock_setChan (c : Nat) (x : ChanSt) : (s.setChan c x).clock = s.clock := clock_ext rfl rfl rfl rfl
@[simp] theorem clock_startChan (c count : Nat) : (s.startChan c count).clock = s.clock := (clock_setChan ..).trans (clock_setFlag ..)
@[simp] theorem clock_pmTree (t : Nat) : (s.pmTree t).clock = s.clock := clock_ext rfl rfl rfl rfl

@[simp] theorem clock_launchTree (t starts : Nat) : (s.launchTree t starts).clock = s.clock := by
  unfold State.launchTree
  extract_lets u x v w
  have hw : w.clock = v.clock := clock_foldl (fun _ _ => clock_startChan ..) ..
  rw [clock_raise, clock_pmTree, hw]
  simp [v, u]

@[simp] theorem clock_pulsePin (p leaves : Nat) : (s.pulsePin p leaves).clock = s.clock := by
  unfold State.pulsePin
  extract_lets mode
  split
  · rfl
  · exact clock_ite rfl ((clock_send ..).trans (clock_ext rfl rfl rfl rfl))

@[simp] theorem clock_prbsLook : s.prbsLook.clock = s.clock :=
  clock_foldl (fun _ _ => clock_ite ((clock_countBy ..).trans (clock_drawn _)) rfl) ..

@[simp] theorem clock_launchSnapshot (caller : Option Caller) : (s.launchSnapshot caller).clock = s.clock := by
  unfold State.launchSnapshot
  extract_lets bufs t u x bs
  refine clock_ite ?_ ?_
  · have ht : t.clock = s.clock := clock_report ..
    split
    · exact (clock_answer ..).trans ht
    · exact ht
  · exact (clock_setFlag ..).trans ((clock_ext rfl rfl rfl rfl).trans (clock_prbsLook s))

@[simp] theorem clock_noteOverrun (half g gate at_ tx : Nat) : (s.noteOverrun half g gate at_ tx).clock = s.clock :=
  clock_ite ((clock_raiseOnce ..).trans (clock_count ..)) rfl

@[simp] theorem clock_stampEgress (port seqId at_ : Nat) : (s.stampEgress port seqId at_).clock = s.clock :=
  clock_ite (clock_ext rfl rfl rfl rfl) (clock_report ..)

@[simp] theorem clock_depart (port : Nat) (x : HeldFrame) (at_ : Nat) : (s.depart port x at_).clock = s.clock := by
  unfold State.depart
  extract_lets half t u
  have ht : t.clock = s.clock := clock_noteOverrun ..
  have hu : u.clock = t.clock := by
    simp only [u]
    split
    · exact clock_ite (clock_stampEgress ..) rfl
    · rfl
  rw [clock_sendUplink, hu, ht]

@[simp] theorem clock_unhold (port : Nat) : (s.unhold port).clock = s.clock := clock_ext rfl rfl rfl rfl
@[simp] theorem clock_modExpect (c i : Nat) (f : Expect → Expect) : (s.modExpect c i f).clock = s.clock := clock_ext rfl rfl rfl rfl
@[simp] theorem clock_resetPulse (c at_ : Nat) : (s.resetPulse c at_).clock = s.clock := clock_send ..

@[simp] theorem clock_driveReset (c i : Nat) (e : Expect) (leaves : Nat) : (s.driveReset c i e leaves).clock = s.clock := by
  unfold State.driveReset
  refine clock_ite ?_ ?_ <;> simp

@[simp] theorem clock_driveRssi (c i leaves : Nat) : (s.driveRssi c i leaves).clock = s.clock := (clock_send ..).trans (clock_modExpect ..)

@[simp] theorem clock_fire (x : OneShot) : (s.fire x).clock = s.clock := by
  unfold State.fire
  cases x <;> dsimp only
  case pin => exact clock_pulsePin ..
  case launch => exact clock_launchTree ..
  case snapshot =>
    split
    · exact (clock_launchSnapshot ..).trans (clock_ext rfl rfl rfl rfl)
    · rfl
  case gates => exact (clock_syncEgress ..).trans (clock_startList ..)
  case departure =>
    split
    · exact (clock_depart ..).trans (clock_unhold ..)
    · rfl
  case reset =>
    split
    · exact clock_driveReset ..
    · rfl
  case rssi => exact clock_driveRssi ..

@[simp] theorem clock_firePassed (was : State) (moved : Nat → Bool) : (s.firePassed was moved).clock = s.clock := by
  unfold State.firePassed
  extract_lets passed t
  have ht : t.clock = s.clock := clock_foldl (fun _ _ => clock_fire ..) ..
  exact (clock_foldl (fun _ _ => clock_ite (clock_foldl (fun _ _ => clock_syncEgress ..) ..) rfl) ..).trans ht

/-- What a jump of the time does to the launchers leaves the time that it has jumped to. -/
theorem clock_jumped (was : State) : (s.jumped was).clock = s.clock := by
  unfold State.jumped
  rw [clock_pmJump, clock_firePassed, clock_landWrites, clock_periodJump]
  exact clock_ext rfl rfl rfl rfl

end

end Sys2Proof

/-! Reads of a state that keeps another's register file or claims, a flag that the device sets, and a body on one unclaimed block. -/

namespace Sys2Proof

open Machine

section
variable {s : State}

/-- A state with another's register file reads as it does. -/
theorem reg_congr {t : State} (h : t.regs = s.regs) (r : Reg) (i : Nat) : t.reg r i = s.reg r i := by simp only [State.reg, h]

theorem fld_congr {t : State} (h : t.regs = s.regs) (f : Fld) (i : Nat) : t.fld f i = s.fld f i := by
  simp only [State.fld, reg_congr h]

theorem flag_congr {t : State} {f : Fld} {i : Nat} (h : t.reg f.reg i = s.reg f.reg i) : t.flag f i = s.flag f i := by
  simp only [State.flag, State.fld, h]

theorem mayRwc_congr {t : State} {p : APath} (h : t.win = s.win) (die : Nat) (b : Blk) : t.mayRwc p die b = s.mayRwc p die b := by
  cases p <;> simp only [State.mayRwc, State.holdsClaim, State.claimed, h]

/-- A flag that the device sets reads as set. -/
theorem flag_latchFlag {f : Fld} {i : Nat} (hlo : f.lo < 32) (hw : 0 < f.w) : (s.latchFlag f i).flag f i = true := by
  have hbit : ((s.latchFlag f i).reg f.reg i).toNat.testBit f.lo = true := by
    rw [BitVec.testBit_toNat, State.latchFlag, reg_latchBits_same, BitVec.getLsbD_or, BitVec.getLsbD_ofNat, Nat.testBit_two_pow_self]
    simp [hlo]
  have hfld : ((s.latchFlag f i).fld f i).testBit 0 = true := by
    rw [State.fld, fieldOf, Nat.testBit_mod_two_pow, Nat.testBit_div_two_pow]
    simpa [hw] using hbit
  rw [State.flag, bne_iff_ne]
  intro hzero
  rw [hzero] at hfld
  exact absurd hfld (by decide)

/-- A body that acts on one block which nothing claims. -/
theorem unlessClaimed_one {die : Nat} {b : Blk} {r : Res} (h : s.claimed die b = false) : s.unlessClaimed [(die, b)] r = r :=
  unlessClaimed_free (by simpa using h)

end

end Sys2Proof

/-! The increment in force (R43, R44): what is accepted, what an accepted one and a refused one leave. -/

namespace Sys2Proof

open Machine

section
variable (s : State)

theorem incrOk_iff (v : Nat) : incrOk v = true ↔ 12 * 2 ^ 32 ≤ 10 * v ∧ 10 * v ≤ 20 * 2 ^ 32 := by
  simp only [incrOk, Bool.and_eq_true, decide_eq_true_eq]
  omega

theorem installIncr_regs (v : Nat) :
    (s.installIncr v).regs = ((s.setFld .tbIncrInt 0 (v / 2 ^ 32)).setFlag .tbStatHoldover 0 false).regs := rfl

/-- TB_INCR holds the integer part, the timebase the fraction. -/
theorem incr_installIncr {v : Nat} (hv : incrOk v = true) : (s.installIncr v).incr = v := by
  rw [incrOk_iff] at hv
  have hint : (s.installIncr v).fld .tbIncrInt 0 = v / 2 ^ 32 % 2 ^ 4 := by
    rw [fld_congr (installIncr_regs s v), State.setFlag, fld_setFld_other _ _ _ _ _ _ (.inl (by decide)), fld_setFld_same _ _ _ _ (by decide)]
  have hfrac : (s.installIncr v).tb.frac.toNat = v % 2 ^ 32 := BitVec.toNat_ofNat ..
  rw [State.incr, hint, hfrac]
  omega

theorem reg_installIncr {v : Nat} {r : Reg} {i : Nat} (hincr : r ≠ .tbIncr ∨ i ≠ 0) (hstat : r ≠ .tbStat ∨ i ≠ 0) :
    (s.installIncr v).reg r i = s.reg r i := by
  rw [reg_congr (installIncr_regs s v), reg_setFlag_other _ _ _ (hstat.imp Ne.symm Ne.symm), reg_setFld_other _ _ _ (hincr.imp Ne.symm Ne.symm)]

theorem holdover_installIncr (v : Nat) : (s.installIncr v).flag .tbStatHoldover 0 = false := by
  rw [State.flag, fld_congr (installIncr_regs s v)]
  exact flag_setFlag_same _ .tbStatHoldover 0 false (by decide) (by decide)

/-- An increment in two words: TB_INCR takes the one, the fraction is the other. -/
theorem installIncr_words (int frac : Word) : s.installIncr (int.toNat * 2 ^ 32 + frac.toNat) =
    let v := (s.setFld .tbIncrInt 0 int.toNat).setFlag .tbStatHoldover 0 false
    { v with tb := { v.tb with frac := frac, wdogFired := false, wdogFrom := s.elapsed } } := by
  have hint : (int.toNat * 2 ^ 32 + frac.toNat) / 2 ^ 32 = int.toNat := by have := frac.isLt; omega
  have hfrac : BitVec.ofNat 32 (int.toNat * 2 ^ 32 + frac.toNat) = frac := by
    apply BitVec.eq_of_toNat_eq
    have := frac.isLt
    simp only [BitVec.toNat_ofNat]
    omega
  simp only [State.installIncr, hint, hfrac]
  rfl

end

section
variable {s : State}

/-- TIME.INCR_SET installs an increment in range. -/
theorem timeIncrSet_installs {h : Hdr} {int frac : Word} (hready : s.ready h 0x0101 (.owner 0) = true)
    (hok : incrOk (int.toNat * 2 ^ 32 + frac.toNat) = true) (hfree : s.claimed 0 .tb = false) :
    exec (.timeIncrSet h int frac) s = completed h 0x0101 s (fun u => u.installIncr (int.toNat * 2 ^ 32 + frac.toNat)) := by
  refine completed_of hready ?_
  simp only [hok, unlessClaimed_one (s := s.start _) hfree]
  rfl

/-- TIME.INCR_SET rejects one that is not. -/
theorem timeIncrSet_rejects {h : Hdr} {int frac : Word} (hready : s.ready h 0x0101 (.owner 0) = true)
    (hbad : incrOk (int.toNat * 2 ^ 32 + frac.toNat) = false) :
    exec (.timeIncrSet h int frac) s = completed h 0x0101 s State.incrReject [] .badParam := by
  refine completed_of hready ?_
  simp only [hbad]
  rfl

/-- A refused increment leaves the one in force. -/
theorem incr_incrReject (s : State) : s.incrReject.incr = s.incr := by
  simp only [State.incr, State.fld, State.incrReject, report_tb, report_reg s _ _ _ _ _ (r := Fld.tbIncrInt.reg) (by decide)]

end

/-- Settles O43: the two outcomes of an increment write, by its range. -/
theorem incrementOutsideRangeIsRejected : Obligations.IncrementOutsideRangeIsRejected := by
  refine ⟨incrOk_iff, fun _ _ _ _ => timeIncrSet_installs, fun _ s => incr_installIncr s, fun _ _ _ _ => timeIncrSet_rejects,
    fun s => ⟨incr_incrReject s, fun _ _ => report_reg s _ _ _ _ _⟩, ?register⟩
  case register =>
    intro p data s hmay hbad
    simp only [State.writeTbIncr, hmay, if_true, State.writeIncr, hbad]
    rfl

end Sys2Proof

/-! A pending action applies (R46, R47, R49). -/

namespace Sys2Proof

open Machine

section
variable {s : State} {a : Action}

theorem clock_writeIncr (s : State) (v : Nat) : (s.writeIncr v).clock = s.clock := by
  have hinstall : (s.installIncr v).clock = s.clock := by
    rw [← clock_setFld s .tbIncrInt 0 (v / 2 ^ 32), ← clock_setFlag (s.setFld ..) .tbStatHoldover 0 false]
    exact clock_ext rfl rfl rfl rfl
  exact clock_ite hinstall (clock_report ..)

/-- The time that SET and STEP of an action leave in force (R46). -/
def Machine.Action.movedTime (a : Action) (now : Nat) : Nat :=
  let n := if a.has 3 then a.setValue % timeMod else now
  if a.has 1 then (((n : Int) + a.stepNs * 2 ^ 32) % timeMod).toNat else n

/-- An action that applies moves the time as SET and STEP say, and leaves no action pending: a jump's launchers, the increment and the
slew move no clock of their own. -/
theorem clock_applyAction (s : State) (a : Action) : (s.applyAction a).clock = (a.movedTime s.now, s.elapsed, none, s.tb.replicas) := by
  unfold State.applyAction
  extract_lets tb t u was v w x y
  have hu : u.clock = (s.now, s.elapsed, none, s.tb.replicas) := clock_ite (s := t) ((clock_report ..).trans (clock_latchFlag ..)) rfl
  obtain ⟨hnow, helapsed, haction, hreplicas⟩ :
      u.now = s.now ∧ u.elapsed = s.elapsed ∧ u.tb.pendingAction = none ∧ u.tb.replicas = s.tb.replicas := by
    simpa [State.clock] using hu
  have hw : w.clock = (a.movedTime s.now, s.elapsed, none, s.tb.replicas) := by
    simp only [w, v, State.clock, Action.movedTime, State.moveTime]
    cases a.has 3 <;> cases a.has 1 <;> simp [hnow, helapsed, haction, hreplicas]
  have hx : x.clock = w.clock := clock_ite ((clock_jumped ..).trans (clock_setFlag ..)) rfl
  have hy : y.clock = x.clock := clock_ite (clock_writeIncr ..) rfl
  rw [← hw, ← hx, ← hy]
  exact clock_ite (clock_ite (clock_ext rfl rfl rfl rfl) (clock_report ..)) rfl

theorem has_incr_alone (hkinds : a.kinds = 1) : a.has 0 = true ∧ a.has 1 = false ∧ a.has 2 = false ∧ a.has 3 = false := by
  simp only [Action.has, hkinds]
  decide

theorem has_slew_alone (hkinds : a.kinds = 4) : a.has 0 = false ∧ a.has 1 = false ∧ a.has 2 = true ∧ a.has 3 = false := by
  simp only [Action.has, hkinds]
  decide

theorem actionApply_due (hpend : s.tb.pendingAction = some a) (hdue : s.actionDue a = true) :
    exec .actionApply s = .next (s.applyAction a) := by
  show execActionApply s = _
  simp only [execActionApply, hpend, hdue, if_true]

/-- An action that names INCR alone writes the increment. -/
theorem applyAction_incr (hkinds : a.kinds = 1) (hlate : a.late = false) :
    s.applyAction a = { s with tb := { s.tb with pendingAction := none } }.writeIncr a.incr := by
  obtain ⟨hincr, hstep, hslew, hset⟩ := has_incr_alone hkinds
  simp only [State.applyAction, hlate, hincr, hstep, hslew, hset, Bool.false_eq_true, Bool.or_self, if_false, if_true]

/-- An action that names SLEW alone, within the limit of R49, has its offset join what an earlier slew left. -/
theorem applyAction_slew (hkinds : a.kinds = 4) (hlate : a.late = false) (hok : slewOk a.slewOfs a.slewCyc = true) (hcyc : a.slewCyc ≠ 0) :
    s.applyAction a = { s with tb := { s.tb with
      pendingAction := none, slew := some ⟨(s.tb.slew.map Slew.rest).getD 0 + a.slewOfs * 2 ^ 16, a.slewCyc⟩ } } := by
  obtain ⟨hincr, hstep, hslew, hset⟩ := has_slew_alone hkinds
  have hgoes : (slewOk a.slewOfs a.slewCyc && a.slewCyc != 0) = true := by simp [hok, hcyc]
  cases hrest : s.tb.slew <;> simp [State.applyAction, hlate, hincr, hstep, hslew, hset, hgoes, hrest]

end

/-- Settles O5: the time by `clock_applyAction`, the increment by `State.installIncr`, the slew by `applyAction_slew`. -/
theorem timebaseActionApplies : Obligations.TimebaseActionApplies := by
  refine ⟨?time, ?incr, ?slew⟩
  case time =>
    intro a s hpend hdue
    refine ⟨_, actionApply_due hpend hdue, ?_⟩
    obtain ⟨hnow, helapsed, haction, -⟩ : _ ∧ _ ∧ _ ∧ _ := by simpa only [State.clock, Prod.mk.injEq] using clock_applyAction s a
    exact ⟨haction, helapsed, hnow⟩
  case incr =>
    intro a s hpend hdue hkinds hlate hok
    refine ⟨_, actionApply_due hpend hdue, ?_⟩
    rw [applyAction_incr hkinds hlate, State.writeIncr, if_pos hok]
    refine ⟨incr_installIncr _ hok, holdover_installIncr .., rfl, rfl, fun r i hincr hstat => ?_, rfl, rfl⟩
    exact (reg_installIncr _ hincr hstat).trans (reg_congr rfl r i)
  case slew =>
    intro a s hpend hdue hkinds hlate hok hcyc
    rw [actionApply_due hpend hdue, applyAction_slew hkinds hlate hok hcyc]

end Sys2Proof

/-! The TIME commands (R72): each has its effect and answers where its operands are in range and its block is unclaimed. -/

namespace Sys2Proof

open Machine

section
variable {s : State} {h : Hdr}

/-- R45: a timeout other than 0 starts the watchdog afresh. -/
theorem setWdog_pos {ms : Nat} (hms : ms ≠ 0) :
    s.setWdog ms = { s.setFld .tbWdogTimeout 0 ms with tb := { s.tb with wdogFired := false, wdogFrom := s.elapsed } } := by
  simp only [State.setWdog, if_neg hms, setFld_tb, setFld_elapsed]

theorem count_inRange {pin count : Word} (hpin : pin.toNat ≤ 32) (hzero : count ≠ 0) (hcount : count.toNat ≤ 16) :
    ¬ (32 < pin.toNat ∨ 16 < count.toNat ∨ count = 0) := by
  simp only [not_or, Nat.not_lt]
  exact ⟨hpin, hcount, hzero⟩

end

/-- Settles O4: each command by its operands' checks. -/
theorem timeCommandsComplete : Obligations.TimeCommandsComplete := by
  refine ⟨fun h s hready => completed_of hready rfl, ?incr, ?action, ?cancel, ?wdog, ?capture, ?pps,
    fun h s hready => completed_of hready rfl, ?port, ?stamps⟩
  case incr =>
    intro h int frac s hready hok hfree
    rw [timeIncrSet_installs hready hok hfree]
    simp only [completed, installIncr_words]
    rfl
  case action =>
    intro h w s hready hwords hrates hfree hidle
    have hrates' : actionRatesOk (actionOf w (s.start (callerOf h 0x0102)).now (s.start (callerOf h 0x0102)).tb.cycle) = true := hrates
    have hidle' : (s.start (callerOf h 0x0102)).tb.pendingAction.isSome = false := by rw [start_tb, hidle]; rfl
    refine completed_of hready ?_
    simp only [hwords, hrates', hidle', unlessClaimed_one (s := s.start _) hfree]
    rfl
  case cancel =>
    intro h s hready hfree hcancel
    have hcancel' : (s.start (callerOf h 0x0103)).cancellable = true := hcancel
    refine completed_of hready ?_
    simp only [unlessClaimed_one (s := s.start _) hfree, hcancel']
    rfl
  case wdog =>
    intro h ms s hready hms hfree
    refine completed_of hready ?_
    rw [if_neg (by omega), unlessClaimed_one (s := s.start _) hfree]
    by_cases hzero : ms = 0
    · subst hzero; rfl
    · have hne : ms.toNat ≠ 0 := fun h0 => hzero (BitVec.eq_of_toNat_eq h0)
      rw [setWdog_pos hne, if_neg hzero]
      rfl
  case capture =>
    intro h pin count s hready hpin hzero hcount hfree
    refine completed_of hready ?_
    simp only [if_neg (count_inRange hpin hzero hcount), unlessClaimed_one (s := s.start _) hfree]
    rfl
  case pps =>
    intro h width s hready hlow hhigh hfree
    refine completed_of hready ?_
    rw [if_neg (by omega), unlessClaimed_one (s := s.start _) hfree]
    rfl
  case port =>
    intro h port one two tr ia ea s hready hport hlowest hone htwo htr hfree
    have hgood : ¬ (63 < port.toNat ∨ (s.start (callerOf h 0x010A)).portOf port.toNat ≠ port.toNat ∨ (!flagOk one) = true ∨ (!flagOk two) = true ∨
        (!flagOk tr) = true) := by
      simp only [flagOk, Bool.not_eq_true', decide_eq_false_iff_not]
      rintro (hbig | hother | hflag | hflag | hflag)
      · omega
      · exact hother hlowest
      · exact hflag hone
      · exact hflag htwo
      · exact hflag htr
    refine completed_of hready ?_
    simp only [if_neg hgood, unlessClaimed_one (s := s.start _) hfree]
    rfl
  case stamps =>
    intro h port count s hready hport hlowest hzero hcount hfree
    have hgood : ¬ (63 < port.toNat ∨ (s.start (callerOf h 0x010B)).portOf port.toNat ≠ port.toNat ∨ 16 < count.toNat ∨ count = 0) := by
      rintro (hbig | hother | hmany | hnone)
      · omega
      · exact hother hlowest
      · omega
      · exact hzero hnone
    refine completed_of hready ?_
    simp only [if_neg hgood, unlessClaimed_one (s := s.start _) hfree]
    rfl

end Sys2Proof

/-! What the timebase does by itself: slew end, servo watchdog, replicas, time pins and captures (R45, R49, R53, R54, R59-R61). -/

namespace Sys2Proof

open Machine

section
variable {s : State}

/-- The difference that a sync word finds on a replica: a step due has taken away the one found before (R54, log entry 22). -/
def syncDifference (s : State) (die : Nat) (drift : BitVec 32) : Int := (if (s.replica die).2 then 0 else (s.replica die).1) + drift.toInt

/-- R54: what a sync word leaves of a difference: one step of 0.1 ns less, or a step due. -/
def syncLeft (x : Int) : Int × Bool := if x.natAbs ≤ 1000 then (x - x.sign, false) else (x, true)

/-- The sync word has been taken: the replica's difference and its instant. -/
def takeSync (s : State) (die : Nat) (x : Int) : State :=
  { s with tb := { s.tb with replicas := Tbl.setD s.tb.replicas die (0, false) (syncLeft x), syncAt := s.tb.syncAt.put die s.elapsed } }

/-- A step that was due is made as the sync word is taken, and the launchers behave as for a step. -/
def afterSync (s : State) (die : Nat) (x : Int) : State :=
  if (s.replica die).2 then (takeSync s die x).replicaJumped s die else takeSync s die x

theorem replica_congr {t : State} (h : t.tb.replicas = s.tb.replicas) (die : Nat) : t.replica die = s.replica die := by
  simp only [State.replica, h]

theorem replica_replicaJumped (was : State) (die : Nat) : (s.replicaJumped was die).replica die = s.replica die := by
  obtain ⟨-, -, -, hreplicas⟩ := clock_iff.1 (clock_firePassed s was (fun d => d = die))
  have h : (s.replicaJumped was die).tb.replicas = s.tb.replicas := hreplicas
  exact replica_congr h die

theorem replica_takeSync (die : Nat) (x : Int) : (takeSync s die x).replica die = syncLeft x := Tbl.getD_setD_same ..

theorem replica_afterSync (die : Nat) (x : Int) : (afterSync s die x).replica die = syncLeft x := by
  unfold afterSync
  split
  · rw [replica_replicaJumped, replica_takeSync]
  · exact replica_takeSync ..

section
variable {die : BitVec 3} {drift : BitVec 32} (hdie : die ≠ 0) (hfused : s.dieFused die.toNat = false)
  (htime : ∀ a, s.tb.syncAt.find die.toNat = some a → a + usSpan 1 ≤ s.elapsed)
include hdie hfused htime

theorem sync_due : ¬ (die.toNat = 0 ∨ s.dieFused die.toNat = true ∨
    (s.tb.syncAt.find die.toNat).any (fun t => decide (s.elapsed < t + usSpan 1)) = true) := by
  rintro (hzero | hfused' | hearly)
  · exact hdie (BitVec.eq_of_toNat_eq hzero)
  · exact absurd (hfused.symm.trans hfused') (by decide)
  · obtain ⟨a, ha, hlt⟩ := (Option.any_eq_true ..).1 hearly
    exact absurd (htime a ha) (Nat.not_le.2 (of_decide_eq_true hlt))

/-- R54: a difference beyond the limit is flagged, counted and raised. -/
theorem replicaSync_beyond (hfar : s.fld .tbDivCfgLimit 0 < (syncDifference s die.toNat drift).natAbs) :
    exec (.replicaSync die drift) s = .next (((afterSync s die.toNat (syncDifference s die.toNat drift)).latchFlag .tbStatDiv 0).report
      .tbDiv die.toNat .tbDiverge die.toNat die.toNat) :=
  (if_neg (sync_due hdie hfused htime)).trans (next_ite_pos hfar)

theorem replicaSync_within (hnear : ¬ s.fld .tbDivCfgLimit 0 < (syncDifference s die.toNat drift).natAbs) :
    exec (.replicaSync die drift) s = .next (afterSync s die.toNat (syncDifference s die.toNat drift)) :=
  (if_neg (sync_due hdie hfused htime)).trans (next_ite_neg hnear)

end

/-- A capture mode of R59 selects the edges of its kind. -/
theorem edgeSelected_of_mode {mode : Nat} {before after : Bool} (hedge : before ≠ after)
    (hmode : mode = 5 ∨ (mode = 3 ∧ after = true) ∨ (mode = 4 ∧ after = false)) : edgeSelected mode before after = true := by
  rcases hmode with rfl | ⟨rfl, rfl⟩ | ⟨rfl, rfl⟩ <;> simp [edgeSelected, hedge]

/-- An edge that follows no other is recorded while the FIFO has room. -/
theorem capture_room {p fine : Nat} (hfirst : s.tb.lastEdge.find p = none) (hroom : (Tbl.getD s.tb.captures p []).length < 16) :
    Tbl.getD (s.capture p fine).tb.captures p [] =
      Tbl.getD s.tb.captures p [] ++ [⟨s.now + fine * nsUnit / 5, decide (s.tb.jumpedAt = some s.tb.cycle)⟩] := by
  simp only [State.capture, hfirst, Bool.false_eq_true, if_false, if_pos hroom, Tbl.getD_put_same]

/-- On a full FIFO the edge is lost, counted and raised. -/
theorem capture_full {p fine : Nat} (hfirst : s.tb.lastEdge.find p = none) (hfull : 16 ≤ (Tbl.getD s.tb.captures p []).length) :
    s.capture p fine = { s with tb := { s.tb with lastEdge := s.tb.lastEdge.put p (s.now + fine * nsUnit / 5) } }.report
      .tbCapOvf p .tbCapOvf 0 p := by
  simp only [State.capture, hfirst, Bool.false_eq_true, if_false, if_neg (Nat.not_lt.2 hfull)]

/-- A pin in a capture mode takes the level of its edge, and the edge is captured. -/
theorem tpinCapture_selected {pin : BitVec 5} {before after : Bool} {fine : BitVec 3} (hedge : before ≠ after)
    (hmode : s.fld .tbPinCfgMode pin.toNat = 5 ∨ (s.fld .tbPinCfgMode pin.toNat = 3 ∧ after = true) ∨
      (s.fld .tbPinCfgMode pin.toNat = 4 ∧ after = false)) :
    exec (.tpinCapture pin before after fine) s = .next ((s.drive .tpin pin.toNat after.toNat).capture pin.toNat fine.toNat) := by
  have hinput : ¬ (s.fld .tbPinCfgMode pin.toNat = 1 ∨ s.fld .tbPinCfgMode pin.toNat = 2) := by omega
  show execTpinCapture pin before after fine s = _
  simp only [execTpinCapture, edgeSelected_of_mode hedge hmode, if_neg hinput, if_true]

/-- The next edge of a pin that pulses at an instant: a period later, of a single pulse none (R59). -/
def Machine.State.edgeAfterPulse (s : State) (p at_ : Nat) : Option Nat :=
  if s.fld .tbPinCfgMode p = 2 then some ((at_ + nsSpan (s.fld .tbPinPeriodV p)) % timeMod) else none

/-- A pulse of a pin whose next edge is reached (R53, R59). -/
theorem tpinPulse_reached {pin : BitVec 5} {at_ : Nat} (hok : s.pinOk pin.toNat = true)
    (hnext : s.tb.nextEdge.find pin.toNat = some at_) (hreached : reached s.now at_ = true) :
    exec (.tpinPulse pin) s = .next ({ s with tb := { s.tb with nextEdge := s.tb.nextEdge.setOpt pin.toNat (s.edgeAfterPulse pin.toNat at_) } }.send
      (.pulse .tpin pin.toNat (if s.flag .tbPinCfgPol pin.toNat then 0 else 1) at_ (s.fld .tbPinWidthV pin.toNat))) := by
  show execTpinPulse pin s = _
  simp only [execTpinPulse, hnext, hreached, if_true, State.pulsePin, hok]
  rfl

end

/-- Settles O6: a replica by `replicaSync_beyond` and `replicaSync_within`, a pin by `tpinPulse_reached`, a capture by
`capture_room` and `capture_full`, the rest by the guard of each row. -/
theorem timebaseEventsComplete : Obligations.TimebaseEventsComplete := by
  refine ⟨?slewEnd, ?watchdog, ?replica, ?periodic, ?single, ?pps, ?captured, ?overflow, ?ppsIn, fun _ _ => rfl, ?unselected⟩
  case slewEnd =>
    intro w s hslew hlast
    show execSlewEnd s = _
    simp only [execSlewEnd, hslew, if_pos hlast]
    rfl
  case watchdog =>
    intro s hset hquiet hsilent
    refine if_neg ?_
    rintro (hzero | hfired | hearly)
    · exact hset hzero
    · exact absurd (hquiet.symm.trans hfired) (by decide)
    · exact absurd hsilent (Nat.not_le.2 hearly)
  case replica =>
    intro die drift s hdie hfused htime x
    have hleft : (afterSync s die.toNat x).replica die.toNat = syncLeft x := replica_afterSync ..
    by_cases hfar : s.fld .tbDivCfgLimit 0 < x.natAbs
    · refine ⟨_, replicaSync_beyond hdie hfused htime hfar, ?_, fun _ => ?_, fun _ hnear => absurd hfar (Nat.not_lt.2 hnear)⟩
      · refine (replica_congr ?_ _).trans hleft
        rw [report_tb, latchFlag_tb]
        rfl
      · rw [flag_congr (report_reg _ _ _ _ _ _ (by decide))]
        exact flag_latchFlag (by decide) (by decide)
    · refine ⟨_, replicaSync_within hdie hfused htime hfar, hleft, fun h => absurd h hfar, fun hnone _ => ?_⟩
      rw [show afterSync s die.toNat _ = takeSync s die.toNat _ from if_neg (by simp [hnone])]
      exact ⟨rfl, rfl, rfl⟩
  case periodic =>
    intro pin at_ s hok hmode hnext hreached
    rw [tpinPulse_reached hok hnext hreached, State.edgeAfterPulse, if_pos hmode]
    rfl
  case single =>
    intro pin at_ s hok hmode hnext hreached
    rw [tpinPulse_reached hok hnext hreached, State.edgeAfterPulse, if_neg (by omega)]
    rfl
  case pps => intro s hreached; exact next_ite_pos hreached
  case captured =>
    intro pin before after fine s hedge hmode hfirst hroom
    exact ⟨_, tpinCapture_selected hedge hmode, capture_room (s := s.drive ..) hfirst hroom⟩
  case overflow =>
    intro pin before after fine s hedge hmode hfirst hfull
    rw [tpinCapture_selected hedge hmode, capture_full (s := s.drive ..) hfirst hfull]
    rfl
  case ppsIn =>
    intro fine s hfirst hroom
    exact ⟨_, rfl, capture_room (s := s.drive ..) hfirst hroom⟩
  case unselected =>
    intro pin before after fine s hnot
    refine ⟨_, next_ite_neg (Bool.eq_false_iff.1 hnot), ?_⟩
    dsimp only
    split <;> exact ⟨rfl, rfl, rfl, rfl⟩

end Sys2Proof

/-! The timebase registers that act when they are written (R60, R73-R75, R77), and the commands of the pins and of the time of day. -/

namespace Sys2Proof

open Machine

section
variable {s : State} {p : APath} {data : Word}

theorem setWdog_regs {ms : Nat} : (s.setWdog ms).regs = (s.setFld .tbWdogTimeout 0 ms).regs := by
  unfold State.setWdog
  split <;> rfl

theorem writeTbWdog_of_may (hmay : s.mayRwc p 0 .tb = true) : s.writeTbWdog p data = s.setWdog (fldOf .tbWdogTimeout data) := if_pos hmay

theorem reg_latchTime (hone : data.getLsbD 0 = true) :
    (s.latchTime p data).reg .tbSnapSecHi (apathCode p) = BitVec.ofNat 32 (secOf s.now / 2 ^ 32) ∧
    (s.latchTime p data).reg .tbSnapSecLo (apathCode p) = BitVec.ofNat 32 (secOf s.now) ∧
    (s.latchTime p data).reg .tbSnapNs (apathCode p) = BitVec.ofNat 32 (nsOf s.now) ∧
    (s.latchTime p data).reg .tbSnapFrac (apathCode p) = BitVec.ofNat 32 (fracOf s.now) := by
  simp only [State.latchTime, hone, if_true, reg_setReg, setReg_now]
  simp

theorem writeTbIncr_ok (hmay : s.mayRwc p 0 .tb = true)
    (hok : incrOk (fldOf .tbIncrInt data * 2 ^ 32 + (s.reg .tbIncrFrac (apathCode p)).toNat) = true) :
    s.writeTbIncr p data = s.installIncr (fldOf .tbIncrInt data * 2 ^ 32 + (s.reg .tbIncrFrac (apathCode p)).toNat) :=
  (if_pos hmay).trans (if_pos hok)

/-- R75: the state in which a write of TB_ACT_CTL stages its kind bits, its late bit cleared before by a written one. -/
def stagedKinds (s : State) (p : APath) (data : Word) : State :=
  (if data.getLsbD 8 ∧ !(s.freshBits .tbActCtl 0).getLsbD 8 then s.setFlag .tbActCtlLate 0 false else s).setFld
    .tbActKindKinds (apathCode p) (fldOf .tbActKindKinds data)

theorem tb_stagedKinds : (stagedKinds s p data).tb = s.tb := by
  unfold stagedKinds
  split <;> rfl

theorem writeTbActCtl_of_may (hmay : s.mayRwc p 0 .tb = true) :
    s.writeTbActCtl p data =
      let t := stagedKinds s p data
      if data.getLsbD 0 then
        if t.tb.pendingAction.isSome ∨ fldOf .tbActKindKinds data = 0 then t.count .tbActBusy 0
        else { t with tb := { t.tb with pendingAction := some (t.stagedAction p) } }
      else if t.cancellable then { t with tb := { t.tb with pendingAction := none } }
      else t := by
  refine if_pos ?_
  rw [mayRwc_congr (s := s) (by split <;> rfl)]
  exact hmay

/-- A write that arms, with none pending and some kind named. -/
theorem writeTbActCtl_arms (hmay : s.mayRwc p 0 .tb = true) (harm : data.getLsbD 0 = true) (hidle : s.tb.pendingAction = none)
    (hkinds : fldOf .tbActKindKinds data ≠ 0) :
    s.writeTbActCtl p data = { stagedKinds s p data with
      tb := { (stagedKinds s p data).tb with pendingAction := some ((stagedKinds s p data).stagedAction p) } } := by
  rw [writeTbActCtl_of_may hmay]
  refine (if_pos harm).trans (if_neg ?_)
  rw [tb_stagedKinds, hidle]
  simpa using hkinds

theorem cancellable_congr {t : State} (htb : t.tb = s.tb) (hnow : t.now = s.now) : t.cancellable = s.cancellable := by
  simp only [State.cancellable, State.actionDue, htb, hnow]

theorem now_stagedKinds : (stagedKinds s p data).now = s.now := by
  unfold stagedKinds
  split <;> rfl

theorem ctrs_stagedKinds : (stagedKinds s p data).ctrs = s.ctrs := by
  unfold stagedKinds
  split <;> rfl

/-- A write that cancels an action which does not apply in this cycle. -/
theorem writeTbActCtl_cancels (hmay : s.mayRwc p 0 .tb = true) (harm : data.getLsbD 0 = false) (hcancel : s.cancellable = true) :
    s.writeTbActCtl p data = { stagedKinds s p data with tb := { (stagedKinds s p data).tb with pendingAction := none } } := by
  rw [writeTbActCtl_of_may hmay]
  refine (if_neg (Bool.eq_false_iff.1 harm)).trans (if_pos ?_)
  rw [cancellable_congr tb_stagedKinds now_stagedKinds]
  exact hcancel

theorem fld_kinds_stagedKinds : (stagedKinds s p data).fld .tbActKindKinds (apathCode p) = fldOf .tbActKindKinds data := by
  rw [stagedKinds, fld_setFld_same _ _ _ _ (by decide)]
  exact Nat.mod_eq_of_lt (fieldOf_lt ..)

theorem late_stagedKinds (hlate : data.getLsbD 8 = true) (hstale : (s.freshBits .tbActCtl 0).getLsbD 8 = false) :
    (stagedKinds s p data).flag .tbActCtlLate 0 = false := by
  rw [stagedKinds, if_pos ⟨hlate, by rw [hstale]; rfl⟩, flag_congr (reg_setFld_other _ _ _ (.inl (by decide)))]
  exact flag_setFlag_same _ _ _ _ (by decide) (by decide)

end

/-- Settles O7: a write of TB_ACT_CTL by `stagedKinds`, the others by what each writes. -/
theorem timebaseRegistersComplete : Obligations.TimebaseRegistersComplete := by
  refine ⟨fun p data s hone => ⟨_, rfl, reg_latchTime hone⟩, fun p data s hmay hok => congrArg Host.Outcome.next (writeTbIncr_ok hmay hok),
    ?arm, ?cancel, ?pop, ?wdog, ?pin, ?tod⟩
  case arm =>
    intro p data s hmay hidle hkinds
    have harm : (data ||| 1).getLsbD 0 = true := by simp
    refine ⟨_, congrArg Host.Outcome.next (writeTbActCtl_arms hmay harm hidle hkinds), _, rfl, fld_kinds_stagedKinds, fun hlate hstale => ?_⟩
    exact (flag_congr (s := stagedKinds s p (data ||| 1)) (reg_congr rfl _ _)).trans (late_stagedKinds (by simpa using hlate) hstale)
  case cancel =>
    intro p data s hmay hcancel
    have harm : (data &&& 0xFFFFFFFE).getLsbD 0 = false := by simp
    exact ⟨_, congrArg Host.Outcome.next (writeTbActCtl_cancels hmay harm hcancel), rfl, now_stagedKinds (p := p), ctrs_stagedKinds (p := p)⟩
  case pop =>
    intro p data s
    exact ⟨_, rfl, Tbl.getD_setD_same .., rfl⟩
  case wdog =>
    intro p data s hmay
    refine ⟨_, congrArg Host.Outcome.next (writeTbWdog_of_may hmay), ?_, fun hset => ?_, ?_⟩
    · rw [fld_congr setWdog_regs, fld_setFld_same _ _ _ _ (by decide)]
      exact Nat.mod_eq_of_lt (fieldOf_lt ..)
    · rw [setWdog_pos hset]
      exact ⟨rfl, rfl⟩
    · rw [reg_congr setWdog_regs, reg_setFld_other _ _ _ (.inl (by decide))]
  case pin =>
    intro h pin mode pol start period width s hready hpin hmode hpol hppsIn hns hsec hfree
    have hgood : ¬ (32 < pin.toNat ∨ 5 < mode.toNat ∨ 1 < pol.toNat ∨ (pin.toNat = 32 ∧ mode.toNat ≠ 3) ∨ 999999999 < start.ns.toNat ∨
        65535 < start.hi.toNat) := by
      have hfixed : ¬ (pin.toNat = 32 ∧ mode.toNat ≠ 3) := fun ⟨hpps, hother⟩ => hother (by rw [hppsIn (BitVec.eq_of_toNat_eq hpps)]; rfl)
      omega
    refine completed_of hready ?_
    simp only [if_neg hgood, unlessClaimed_one (s := s.start _) hfree]
    rfl
  case tod =>
    intro h tree sHi sLo s hready htree hlaunched hhi hnear
    have hlaunched' : (s.start (callerOf h 0x0108)).launched tree.toNat = true := hlaunched
    have hnear' : ((s.start (callerOf h 0x0108)).framesTo tree.toNat (sHi.toNat * 2 ^ 32 + sLo.toNat)).natAbs ≤ 80000 := hnear
    refine completed_of hready ?_
    rw [if_neg (by omega), if_neg (bnot_ne_true hlaunched'), if_neg (by omega)]
    rfl

end Sys2Proof

/-! What reset leaves (R74, R351, R405, R406, R522, R539): a register that nothing has written reads its reset word. -/

namespace Sys2Proof

open Machine

theorem reg_reset (r : Reg) (i : Nat) : State.reset.reg r i = regReset r i := rfl

/-- R539: the timeouts of a sequencer, by the register's number within its die. -/
theorem sqTmo_reset {k : Nat} (die : Nat) (hk : k < 16) : State.reset.fld .sqTmoTmo (die * 128 + k) = 2 ^ (k + 4) := by
  have hmod : (die * 128 + k) % 128 = k := by omega
  rw [State.fld, reg_reset]
  simp only [regReset, hmod]
  clear hmod
  revert k
  decide

/-- R351: a profile's maximum. -/
theorem qmPrfCells_reset (i : Nat) : State.reset.fld .qmPrfCellsMax i = 16384 := by
  rw [State.fld, reg_reset]
  exact (by decide : fieldOf Fld.qmPrfCellsMax.lo Fld.qmPrfCellsMax.w (BitVec.ofNat 32 (Reg.resetBase .qmPrfCells)) = 16384)

/-- R522: each group's vector is its own. -/
theorem evtRoute_reset : ∀ g < 27, State.reset.fld .evtRouteVector g = g := by decide

/-- R405: no list is in force, and a gate mask without a list is all ones. -/
theorem maskAt_reset (k g t : Nat) : (State.reset.storeOf k).maskAt g t = 0xFF := rfl

/-- Settles O39: the words of `regReset`, and the empty tables of `State.reset`. -/
theorem resetLeavesTheResetWords : Obligations.ResetLeavesTheResetWords :=
  ⟨⟨⟨rfl, rfl⟩, fun _ => rfl, evtRoute_reset, fun die _ => sqTmo_reset die, fun _ => rfl, qmPrfCells_reset, maskAt_reset⟩,
    ⟨fun _ _ => rfl, fun _ _ => rfl, rfl, rfl, rfl, fun _ => rfl⟩⟩

end Sys2Proof

/-! What counting, a tandem link that goes down and the PRBS generators and checkers leave of the lanes and of the registers (R104, R447). -/

namespace Sys2Proof

open Machine

/-- What every step of a fold leaves alone, the fold leaves alone. -/
theorem foldl_keeps {α β γ : Type} {f : β → α → β} (g : β → γ) (h : ∀ b a, g (f b a) = g b) (l : List α) (b : β) :
    g (l.foldl f b) = g b := by
  induction l generalizing b with
  | nil => rfl
  | cons a l ih => rw [List.foldl_cons, ih, h]

section
variable {s t : State}

/-- Counting and raising leave the lanes. -/
theorem Machine.Quiet.lanes (h : Quiet s t) : t.lanes = s.lanes := by
  obtain ⟨-, -, -, -, -, -, -, -, -, -, hlanes, -⟩ := h.rest
  exact hlanes

theorem Machine.Quiet.fld (h : Quiet s t) {f : Fld} (hf : f.reg ≠ .evtStat) (i : Nat) : t.fld f i = s.fld f i := by
  simp only [State.fld, h.reg _ _ hf]

theorem Machine.Quiet.flag (h : Quiet s t) {f : Fld} (hf : f.reg ≠ .evtStat) (i : Nat) : t.flag f i = s.flag f i :=
  congrArg (· != 0) (h.fld hf i)

/-- The port of a lane follows the modes alone. -/
theorem Machine.Quiet.portOf (h : Quiet s t) (lane : Nat) : t.portOf lane = s.portOf lane := by
  simp only [State.portOf, h.flag (f := .lnuModeOct800) (by decide), h.fld (f := .lnuModeQuad0) (by decide),
    h.fld (f := .lnuModeQuad1) (by decide)]

end

section
variable (s : State)

theorem modTndTree_lanes (t : Nat) (f : TndTree → TndTree) : (s.modTndTree t f).lanes = s.lanes := rfl

theorem modTndTree_reg (t : Nat) (f : TndTree → TndTree) (r : Reg) (i : Nat) : (s.modTndTree t f).reg r i = s.reg r i := rfl

theorem tandemDown_lanes : s.tandemDown.lanes = s.lanes := by
  unfold State.tandemDown
  split
  · rfl
  · rw [report_lanes, foldl_keeps State.lanes]
    · exact setFlag_lanes ..
    · exact fun t k => (modTndTree_lanes ..).trans (setFlag_lanes t .tndTreeStatReady k false)

/-- R447: of the registers, a tandem link that goes down writes TND_PAIR_STAT and TND_TREE_STAT, and EVT_STAT as its event is raised. -/
theorem tandemDown_reg {r : Reg} (hpair : r ≠ .tndPairStat) (htree : r ≠ .tndTreeStat) (hev : r ≠ .evtStat) (i : Nat) :
    s.tandemDown.reg r i = s.reg r i := by
  unfold State.tandemDown
  split
  · rfl
  · rw [report_reg _ _ _ _ _ _ hev, foldl_keeps (State.reg · r i)]
    · exact reg_setFlag_other _ _ _ (.inl hpair.symm)
    · exact fun t k => (modTndTree_reg ..).trans (reg_setFlag_other t .tndTreeStatReady false (.inl htree.symm))

theorem prbsErrors_lanes (f i : Nat) : (s.prbsErrors f i).lanes = s.lanes := by
  unfold State.prbsErrors
  split
  · exact (quiet_countBy s.drawn ..).lanes
  · rfl

/-- R104: the table of generators and checkers as LANE.PRBS_SET leaves it. -/
theorem setPrbs_prbs (f i pattern : Nat) (gen chk : Bool) : (s.setPrbs f i pattern gen chk).lanes.prbs =
    Tbl.setD s.lanes.prbs (laneKey f i) (false, false) (pattern != 0 && gen, pattern != 0 && chk) := by
  unfold State.setPrbs
  extract_lets t on p u lanes v
  have hu : u.lanes = s.lanes := by
    refine Eq.trans ?_ (prbsErrors_lanes s f i)
    simp only [u]
    split
    · rfl
    · split <;> rfl
  have hv : v.lanes.prbs = Tbl.setD s.lanes.prbs (laneKey f i) (false, false) (on && gen, on && chk) := by rw [← hu]
  rw [← hv]
  split
  · rfl
  · split
    · rw [tandemDown_lanes]
    · rfl

theorem laneKey_inj {f i j : Nat} : laneKey f i = laneKey f j ↔ i = j := by simp [laneKey]

/-- Setting one lane's generator and checker leaves those of the family's other lanes. -/
theorem prbsOf_setPrbs (f i j pattern : Nat) (gen chk : Bool) : (s.setPrbs f i pattern gen chk).prbsOf f j =
    if j = i then (decide (pattern ≠ 0) && gen, decide (pattern ≠ 0) && chk) else s.prbsOf f j := by
  have hon : (pattern != 0) = decide (pattern ≠ 0) := by simp [bne, Bool.beq_eq_decide_eq]
  rw [State.prbsOf, setPrbs_prbs, hon]
  by_cases hj : j = i
  · rw [hj, Tbl.getD_setD_same, if_pos rfl]
  · rw [Tbl.getD_setD_other _ _ _ _ (mt laneKey_inj.1 (Ne.symm hj)), if_neg hj]
    rfl

end

end Sys2Proof

/-! The LANE commands (R106): each has its effect and answers where its operands are in range and the lane's block is unclaimed. -/

namespace Sys2Proof

open Machine

section
variable {s : State}

theorem not_bnot_flagOk {w : Word} (h : w.toNat < 2) : ¬ (!flagOk w) = true := bnot_ne_true (decide_eq_true h)

/-- R103: a scan has four margins of each eye of its lane. -/
theorem four_mul_laneEyes (family : Nat) : 4 * laneEyes family = if family = 2 ∨ family = 3 then 12 else 4 := by
  unfold laneEyes
  split <;> rfl

/-- A scan that ends with all its margins answers its command. -/
theorem eyeScanDone_answers {die : BitVec 3} {margins : List Word} {e : EyeScan} (hscan : s.lanes.eyes.find die.toNat = some e)
    (hall : margins.length = 4 * laneEyes e.family) :
    exec (.eyeScanDone die margins) s =
      .next ({ s with lanes := { s.lanes with eyes := s.lanes.eyes.del die.toNat } }.answer e.caller .ok margins) := by
  show execEyeScanDone die margins s = _
  rw [execEyeScanDone, hscan]
  exact next_ite_pos hall

end

/-- Settles O8: each command by its operands' checks, a checker's state by `prbsOf_setPrbs`. -/
theorem laneCommandsComplete : Obligations.LaneCommandsComplete := by
  refine ⟨?power, ?status, ?mode, ?intf, ?eq, ?retrain, ?scan, ?scanDone, ?prbsSet, fun f i j pattern gen chk s _ _ _ => prbsOf_setPrbs ..,
    ?counters⟩
  case power =>
    intro h family index on s hready href hfam hon hfree hregion
    have hgood : ¬ ((!laneRefOk family index) = true ∨ family.toNat = 4 ∨ (!flagOk on) = true) :=
      not_or.2 ⟨bnot_ne_true href, not_or.2 ⟨hfam, not_bnot_flagOk hon⟩⟩
    have hregion' : (s.start (callerOf h 0x0200)).regionOn family.toNat index.toNat = true := hregion
    refine completed_of hready ?_
    simp only [if_neg hgood, unlessClaimed_one (s := s.start _) hfree, hregion']
    rfl
  case status =>
    intro h family index s hready href
    refine completed_of hready ?_
    simp only [href]
    rfl
  case mode =>
    intro h o oct q0 q1 half s hready ho hoct hq0 hq1 hhalf hvalid hfree hbusy
    have hgood : ¬ (7 < o.toNat ∨ 1 < oct.toNat ∨ 2 < q0.toNat ∨ 2 < q1.toNat ∨ 255 < half.toNat ∨
        (!modeValid oct.toNat q0.toNat q1.toNat half.toNat) = true) := by
      rw [hvalid]
      simp only [Bool.not_true, Bool.false_eq_true, or_false]
      omega
    have hbusy' : (s.start (callerOf h 0x0202)).modeBusy o.toNat oct.toNat q0.toNat q1.toNat half.toNat = false := hbusy
    refine completed_of hready ?_
    simp only [if_neg hgood, unlessClaimed_one (s := s.start _) hfree, hbusy']
    rfl
  case intf =>
    intro h port intf an s hready hport hlowest hintf han hfree hoff
    have hgood : ¬ (63 < port.toNat ∨ (s.start (callerOf h 0x0203)).portOf port.toNat ≠ port.toNat ∨ 2 < intf.toNat ∨
        (!flagOk an) = true) :=
      not_or.2 ⟨by omega, not_or.2 ⟨not_not.2 hlowest, not_or.2 ⟨by omega, not_bnot_flagOk han⟩⟩⟩
    have hoff' : ((s.start (callerOf h 0x0203)).laneGroup 2 port.toNat).any
        (fun j => (s.start (callerOf h 0x0203)).laneState 2 j != 0) = false := hoff
    refine completed_of hready ?_
    simp only [if_neg hgood, unlessClaimed_one (s := s.start _) hfree, hoff']
    rfl
  case eq =>
    intro h family index pre post gain s hready href hfree
    refine completed_of hready ?_
    simp only [href, unlessClaimed_one (s := s.start _) hfree]
    rfl
  case retrain =>
    intro h family index s hready href hfam hfree
    have hgood : ¬ ((!laneRefOk family index) = true ∨ family.toNat < 2) := not_or.2 ⟨bnot_ne_true href, Nat.not_lt.2 hfam⟩
    refine completed_of hready ?_
    simp only [if_neg hgood, unlessClaimed_one (s := s.start _) hfree]
    by_cases hhost : family.toNat = 4
    · simp only [if_pos hhost]
      rfl
    · simp only [if_neg hhost]
      rfl
  case scan =>
    intro h family index dwell s hready href hfam hshort hlong hchk hfree hidle hroom
    have hgood : ¬ ((!laneRefOk family index) = true ∨ family.toNat = 0 ∨ dwell.toNat < 10 ^ 6 ∨ 10 ^ 12 < dwell.toNat ∨
        (family.toNat = 1 ∧
          (!(Tbl.getD (s.start (callerOf h 0x0206)).lanes.prbs (laneKey family.toNat index.toNat) (false, false)).2) = true)) :=
      not_or.2 ⟨bnot_ne_true href, not_or.2 ⟨hfam, not_or.2 ⟨by omega, not_or.2 ⟨by omega,
        fun ⟨hrx, hnone⟩ => bnot_ne_true (hchk hrx) hnone⟩⟩⟩⟩
    have hidle' : ¬ ((s.start (callerOf h 0x0206)).lanes.eyes.has (laneDie family.toNat index.toNat) = true ∨
        (s.start (callerOf h 0x0206)).asyncFull = true) :=
      not_or.2 ⟨Bool.eq_false_iff.1 hidle, Bool.eq_false_iff.1 hroom⟩
    refine completed_of hready ?_
    simp only [if_neg hgood, unlessClaimed_one (s := s.start _) hfree, if_neg hidle']
  case scanDone =>
    intro die margins e s hscan hall
    exact eyeScanDone_answers hscan (hall.trans (four_mul_laneEyes _).symm)
  case prbsSet =>
    intro h family index pattern gen chk s hready href hfam hpattern hgen hchk hfree hdark
    have hgood : ¬ ((!laneRefOk family index) = true ∨ family.toNat = 4 ∨ (if family.toNat < 2 then 2 else 4) < pattern.toNat ∨
        (!flagOk gen) = true ∨ (!flagOk chk) = true) :=
      not_or.2 ⟨bnot_ne_true href, not_or.2 ⟨hfam, not_or.2 ⟨Nat.not_lt.2 hpattern,
        not_or.2 ⟨not_bnot_flagOk hgen, not_bnot_flagOk hchk⟩⟩⟩⟩
    have hdark' : ¬ (family.toNat = 0 ∧ gen = 1 ∧ (s.start (callerOf h 0x0207)).launched (treeOfChan index.toNat) = true) := hdark
    refine completed_of hready ?_
    simp only [if_neg hgood, unlessClaimed_one (s := s.start _) hfree, if_neg hdark']
    rfl
  case counters =>
    intro h family index s hready href
    refine ⟨_, rfl, completed_of hready ?_⟩
    simp only [href]
    rfl

end Sys2Proof

/-! Lanes that come up, fail and return (R85-R89, R92, R95, R100-R102, R108). -/

namespace Sys2Proof

open Machine

section
variable (s : State) (i st stage : Nat)

/-! ### A tandem lane's state and stage -/

/-- A tandem lane's state and stage are written, and the time of it. -/
def writeTandemStat : State :=
  ({ s with lanes := { s.lanes with since := s.lanes.since.put (laneKey 3 i) s.elapsed } }.setFld .tndStatState i st).setFld .tndStatStage i stage

/-- The tandem link goes down where no lane of it carries traffic any more (R447). -/
theorem setLane_tandem : s.setLane 3 i st stage =
    if (List.range 8).any (writeTandemStat s i st stage).tandemLaneUp then writeTandemStat s i st stage
    else (writeTandemStat s i st stage).tandemDown := rfl

theorem setLane_tandem_lanes :
    (s.setLane 3 i st stage).lanes = { s.lanes with since := s.lanes.since.put (laneKey 3 i) s.elapsed } := by
  rw [setLane_tandem]
  split
  · rfl
  · exact tandemDown_lanes _

theorem setLane_tandem_fld {f : Fld} (hf : f.reg = .tndStat) : (s.setLane 3 i st stage).fld f i = (writeTandemStat s i st stage).fld f i := by
  rw [setLane_tandem]
  split
  · rfl
  · simp only [State.fld, hf]
    rw [tandemDown_reg _ (by decide) (by decide) (by decide)]

theorem clearLocks_tandem_fld (afresh : Bool) {f : Fld} (hf : f.reg = .tndStat) (hlow : f.lo + f.w ≤ 6) :
    (s.clearLocks 3 i afresh).fld f i = s.fld f i := by
  have hblk := fld_setFld_beside s .tndStatBlkLock f i 0 hf.symm (by decide) (.inl (by omega : f.lo + f.w ≤ 7))
  have hcdr := fld_setFld_beside (s.setFlag .tndStatBlkLock i false) .tndStatCdrLock f i 0 hf.symm (by decide) (.inl hlow)
  exact hcdr.trans hblk

/-- R87, R106: bring-up of a tandem lane starts at a stage. -/
theorem restart_tandem_stat (afresh : Bool) (hst : st < 8) (hstage : stage < 8) :
    ((s.setLane 3 i st stage).clearLocks 3 i afresh).fld .tndStatState i = st ∧
    ((s.setLane 3 i st stage).clearLocks 3 i afresh).fld .tndStatStage i = stage := by
  have hstate : (writeTandemStat s i st stage).fld .tndStatState i = st :=
    (fld_setFld_beside _ .tndStatStage .tndStatState i stage rfl (by decide) (.inl (by decide))).trans
      ((fld_setFld_same _ .tndStatState i st (by decide)).trans (Nat.mod_eq_of_lt hst))
  have hstage' : (writeTandemStat s i st stage).fld .tndStatStage i = stage :=
    (fld_setFld_same _ .tndStatStage i stage (by decide)).trans (Nat.mod_eq_of_lt hstage)
  rw [clearLocks_tandem_fld _ _ _ rfl (by decide), clearLocks_tandem_fld _ _ _ rfl (by decide), setLane_tandem_fld _ _ _ _ rfl,
    setLane_tandem_fld _ _ _ _ rfl]
  exact ⟨hstate, hstage'⟩

/-- R87: bring-up of a tandem lane restarts at stage 1, a pause over. -/
theorem bringUp_tandem_restarts (hstate : s.laneState 3 i = 2) : (s.bringUp 3 i 1).lanes.paused.has i = false ∧
    (s.bringUp 3 i 1).laneState 3 i = 2 ∧ (s.bringUp 3 i 1).laneStage 3 i = 1 := by
  rw [State.bringUp, if_pos (.inl hstate)]
  refine ⟨?_, restart_tandem_stat s i 2 1 _ (by decide) (by decide)⟩
  show (((s.setLane 3 i 2 1).lanes.paused).del i).has i = false
  exact Tbl.has_del_same ..

/-- R87: a tandem lane that fails pauses, and stands at stage 1. -/
theorem tandemFail_restarts : (s.tandemFail i).lanes.paused.has i = true ∧ (s.tandemFail i).fld .tndStatState i = 2 ∧
    (s.tandemFail i).fld .tndStatStage i = 1 := by
  obtain ⟨hstate, hstage⟩ := restart_tandem_stat s i 2 1 true (by decide) (by decide)
  have hquiet := quiet_report { (s.setLane 3 i 2 1).clearLocks 3 i true with lanes := { ((s.setLane 3 i 2 1).clearLocks 3 i true).lanes with
    paused := ((s.setLane 3 i 2 1).clearLocks 3 i true).lanes.paused.put i () } } .tndBringupFail i .tndBringupFail (dieOfTLane i) i
  refine ⟨?_, (hquiet.fld (by decide) i).trans hstate, (hquiet.fld (by decide) i).trans hstage⟩
  have hpaused : (s.tandemFail i).lanes.paused = ((s.setLane 3 i 2 1).clearLocks 3 i true).lanes.paused.put i () := congrArg Lanes.paused hquiet.lanes
  rw [hpaused, Tbl.has_put_same]

end

section
variable {s : State}

/-! ### The stages of bring-up -/

/-- R95: a stage completes where every lane of the port is at it, on no tandem lane that pauses (R87). -/
theorem stageFits_of {f i : Nat} (hfam : 2 ≤ f) (hidx : i < laneCount f)
    (hgroup : ∀ j ∈ s.laneGroup f i, s.laneState f j = 2 ∧ s.laneStage f j = s.laneStage f i) (hstate : s.laneState f i = 2)
    (hruns : f = 3 → s.lanes.paused.has i = false) : s.stageFits f i = true := by
  simp only [State.stageFits, Bool.and_eq_true, Bool.not_eq_true', decide_eq_false_iff_not, decide_eq_true_eq, List.all_eq_true,
    Bool.and_eq_false_imp]
  exact ⟨⟨⟨⟨Nat.not_lt.2 hfam, hidx⟩, hgroup⟩, hstate⟩, hruns⟩

/-- The link sequencer of a lane's die has the work of its bring-up (R525). -/
theorem linkSequencer_die {f i : Nat} (hfam : 2 ≤ f) (hidx : i < laneCount f) (hserial : f ≠ 4) :
    (if f = 2 then dieOfLane i else dieOfTLane i) = laneDie f i := by
  have hcases : f = 2 ∨ f = 3 := by
    by_contra hother
    have hnone : laneCount f = 0 := by
      unfold laneCount
      rw [if_neg (by omega), if_neg (by omega), if_neg (by omega), if_neg hserial]
    omega
  rcases hcases with rfl | rfl <;> rfl

/-- A stage that its lanes can complete is done at once by an idle link sequencer, and on the host link, and waits else (R525, R530). -/
theorem laneStageDone_fits {l : LaneRef} {peer : BitVec 3} {dev : BitVec 10}
    (hfits : s.stageFits l.family.toNat l.index.toNat = true) (hfam : 2 ≤ l.family.toNat) (hidx : l.index.toNat < laneCount l.family.toNat) :
    exec (.laneStageDone l peer dev) s = .next (
      if l.family.toNat = 4 ∨ s.idleFor (laneDie l.family.toNat l.index.toNat) 0 = true then
        (s.laneGroup l.family.toNat l.index.toNat).foldl (fun t j => t.stageDone l.family.toNat j peer.toNat dev.toNat) s
      else s.queued (laneDie l.family.toNat l.index.toNat) 0 (.laneStage l.family.toNat l.index.toNat peer.toNat dev.toNat)) := by
  have hserved : s.stageServed l.family.toNat l.index.toNat peer.toNat dev.toNat =
      (s.laneGroup l.family.toNat l.index.toNat).foldl (fun t j => t.stageDone l.family.toNat j peer.toNat dev.toNat) s := if_pos hfits
  refine (if_neg (bnot_ne_true hfits)).trans (congrArg Host.Outcome.next ?_)
  by_cases hhost : l.family.toNat = 4
  · rw [if_pos hhost, if_pos (.inl hhost)]
    exact hserved
  · rw [if_neg hhost, toSequencer_served, linkSequencer_die hfam hidx hhost, hserved]
    simp only [hhost, false_or]

/-- R87: a host link that is down already falls on to Detect from a later stage of its bring-up. -/
theorem hostDown_toDetect (hdown : s.laosh.linkUp = false) (hstate : s.lanes.hostState = 2) (hstage : s.lanes.hostStage ≠ 1) :
    s.hostDown true = (s.setLane 4 0 2 1).count .sysHlRetrain 0 :=
  (if_neg (Bool.eq_false_iff.1 hdown)).trans (if_pos ⟨rfl, hstate, hstage⟩)

end

/-- Settles O9: a tandem lane by `restart_tandem_stat` and `tandemFail_restarts`, a stage by `stageFits_of`, the rest by the guard of each
row. -/
theorem laneEventsComplete : Obligations.LaneEventsComplete := by
  refine ⟨?pll, ?pllLimit, ?transmitter, ?stage, ?stageLimit, ?pause, ?training, ?relock, fun _ _ _ => rfl, ?hostDown, ?detect, ?holdover⟩
  case pll => intro l s hidx hstate href; exact if_pos ⟨hidx, hstate, href⟩
  case pllLimit => intro l s hidx hstate hlimit; exact if_pos ⟨hidx, hstate, hlimit⟩
  case transmitter =>
    intro c s hlow hruns hdue
    refine (if_pos ⟨hlow, hruns, hdue⟩).trans ?_
    dsimp only
    split <;> rfl
  case stage =>
    intro l peer dev s hfam hidx hgroup hstate hruns
    have hfits := stageFits_of hfam hidx hgroup hstate hruns
    rw [laneStageDone_fits hfits hfam hidx]
    exact ⟨next_ite_pos, fun hserial hbusy => next_ite_neg (not_or.2 ⟨hserial, Bool.eq_false_iff.1 hbusy⟩)⟩
  case stageLimit =>
    intro l s hstate hruns hlimit
    exact ⟨_, if_pos ⟨hstate, Bool.eq_false_iff.1 hruns, hlimit⟩, tandemFail_restarts s l.toNat⟩
  case pause =>
    intro l s hpaused hdue hstate
    exact ⟨_, if_pos ⟨hpaused, hdue⟩, bringUp_tandem_restarts _ l.toNat hstate⟩
  case training => intro l s hstate hintf; exact if_pos ⟨hstate, hintf⟩
  case relock =>
    intro l s hstate hstage hlimit
    exact ⟨_, if_pos ⟨hstate, hstage, hlimit⟩, tandemFail_restarts s l.toNat⟩
  case hostDown => intro d s hup; exact next_ite_pos hup
  case detect => intro s hdown hstate hstage; exact congrArg _ (hostDown_toDetect hdown hstate hstage)
  case holdover => intro which s hhold hpin hdue; exact if_pos ⟨hhold, hpin, hdue⟩

end Sys2Proof

/-! What reaches the lanes from outside: writes of their bits, block headers, loss of link, FEC windows, the host link and the reference
clocks (R85, R91, R92, R95, R98-R102, R110). -/

namespace Sys2Proof

open Machine

section
variable {s : State}

/-! ### Writes -/

/-- R85: a path that may write the block turns the lane. -/
theorem writeLanePower_of_may {p : APath} {f i : Nat} {on : Bool} (hdie : s.dieFused (laneDie f i) = false)
    (hown : f < 2 → s.expertBarred p (treeOfChan i) = false) (hmay : s.mayRwc p (laneDie f i) (laneBlk f) = true) :
    s.writeLanePower p f i on = s.laneTurn f i on :=
  (if_neg (Bool.eq_false_iff.1 hdie)).trans
    ((if_neg fun ⟨hpon, hbarred⟩ => Bool.eq_false_iff.1 (hown hpon) hbarred).trans (if_pos hmay))

theorem writeLanePower_of_fused {p : APath} {f i : Nat} {on : Bool} (hdie : s.dieFused (laneDie f i) = true) :
    s.writeLanePower p f i on = s := if_pos hdie

/-- R95, R110: a mode that is valid, whose lanes are off, is stored. -/
theorem writeLnuMode_stores {p : APath} {o : Nat} {data w : Word}
    (hw : writeWord .lnuMode (s.reg .lnuMode o) data (s.mayRwc p (dieOfLane (8 * o)) .lnu) = (w, false, false))
    (hvalid : modeValid (fldOf .lnuModeOct800 w) (fldOf .lnuModeQuad0 w) (fldOf .lnuModeQuad1 w) (fldOf .lnuModeHalf50 w) = true)
    (hoff : s.modeBusy o (fldOf .lnuModeOct800 w) (fldOf .lnuModeQuad0 w) (fldOf .lnuModeQuad1 w) (fldOf .lnuModeHalf50 w) = false) :
    s.writeLnuMode p o data = if w = s.reg .lnuMode o then s else s.setReg .lnuMode o w := by
  simp [State.writeLnuMode, hw, hvalid, hoff]

/-- A word stored unless the register holds it already. -/
theorem reg_setReg_unless_same (r : Reg) (o : Nat) (w : Word) :
    (if w = s.reg r o then s else s.setReg r o w).reg r o = w ∧
    ∀ q i, (q ≠ r ∨ i ≠ o) → (if w = s.reg r o then s else s.setReg r o w).reg q i = s.reg q i := by
  split
  case isTrue hsame => exact ⟨hsame.symm, fun _ _ _ => rfl⟩
  case isFalse => exact ⟨reg_setReg_same .., fun q i hother => reg_setReg_other _ _ (hother.imp Ne.symm Ne.symm)⟩

/-! ### Block lock (R91) -/

/-- The block-lock machine of a lane and its candidate after a header that finds it hunting. -/
def huntHeader (s : State) (i : Nat) (valid : Bool) : State :=
  { s with lanes := { s.lanes with
    blockLock := Tbl.setD s.lanes.blockLock i .hunt (if valid then .test 1 else .hunt)
    slip := Tbl.setD s.lanes.slip i 0 (if valid then Tbl.getD s.lanes.slip i 0 else (Tbl.getD s.lanes.slip i 0 + 1) % 66) } }

theorem tndBlockRx_hunting {l : TLane} {header : BitVec 2} (hstate : s.laneState 3 l.toNat = 2) (hstage : s.laneStage 3 l.toNat = 4)
    (hhunts : Tbl.getD s.lanes.blockLock l.toNat .hunt = .hunt) :
    exec (.tndBlockRx l header) s = .next (huntHeader s l.toNat (header = 1 || header = 2)) := by
  refine (if_pos (.inr ⟨hstate, by omega⟩)).trans ?_
  cases decide (header = 1) || decide (header = 2) <;> simp only [hhunts] <;> rfl

/-! ### FEC windows (R99) -/

/-- What a window of a port's lowest lane counts: the lane's corrected symbols and the port's codewords. -/
def fecWindow (s : State) (i corr uncorr symbols cw : Nat) : State :=
  (((s.countBy .lnuFecSym i symbols).countBy .lnuFecCorr i corr).countBy .lnuFecUncorr i uncorr).pmBlocks 4 i cw uncorr

theorem quiet_fecWindow (i corr uncorr symbols cw : Nat) : Quiet s (fecWindow s i corr uncorr symbols cw) :=
  (((quiet_countBy ..).trans (quiet_countBy ..)).trans (quiet_countBy ..)).trans (quiet_modPmEnt ..)

/-! ### The host link (R100) -/

/-- The host link is in L0 with no message held, the lanes as given. -/
def LinkOpen (lanes : Lanes) (s : State) : Prop := s.laosh.linkUp = true ∧ s.laosh.msixHeld = [] ∧ s.lanes = lanes

section
variable {lanes : Lanes}

theorem LinkOpen.congr {t : State} (h : LinkOpen lanes s) (hlaosh : t.laosh = s.laosh) (hlanes : t.lanes = s.lanes) : LinkOpen lanes t := by
  rwa [LinkOpen, hlaosh, hlanes]

theorem LinkOpen.sendMsix (h : LinkOpen lanes s) (v : Nat) : LinkOpen lanes (s.sendMsix v) := by
  have ⟨hup, _⟩ := h
  rw [State.sendMsix, if_pos hup]
  exact h

theorem LinkOpen.deliver (h : LinkOpen lanes s) (g : Nat) (l : List Nat) : LinkOpen lanes (s.deliver g l) := by
  unfold State.deliver
  extract_lets t u
  have ht : LinkOpen lanes t := by
    simp only [t]
    split
    · exact h.sendMsix _
    · exact h
  have hu : LinkOpen lanes u := by
    simp only [u]
    split <;> exact ht
  split <;> exact hu

theorem LinkOpen.raise (h : LinkOpen lanes s) (e : Ev) (die inst : Nat) : LinkOpen lanes (s.raise e die inst) := by
  unfold State.raise
  extract_lets src g bit stat was rd q t u
  have ht : LinkOpen lanes t := by
    simp only [t]
    split <;> exact h
  have hu : LinkOpen lanes u := ht
  split
  · exact hu.deliver ..
  · exact hu

theorem LinkOpen.setFld (h : LinkOpen lanes s) (f : Fld) (i x : Nat) : LinkOpen lanes (s.setFld f i x) :=
  h.congr (setFld_laosh ..) (setFld_lanes ..)

theorem LinkOpen.ringStep (h : LinkOpen lanes s) (r : Nat) : LinkOpen lanes (s.ringStep r) := by
  unfold State.ringStep
  extract_lets d u
  split
  · exact h.setFld ..
  · split
    · exact (h.setFld ..).setFld ..
    · exact h.setFld ..

/-- Replies that wait, or stand in the ring, are no held messages. -/
theorem LinkOpen.withReplies (h : LinkOpen lanes s) (wait : List Reply) (slots : List (Nat × Nat × Reply)) :
    LinkOpen lanes { s with laosh := { s.laosh with replyWait := wait, replySlots := slots } } := h

theorem LinkOpen.postPcie (h : LinkOpen lanes s) (r : Reply) : LinkOpen lanes (s.postPcie r) := by
  unfold State.postPcie
  split
  · extract_lets slot ph l u
    have hu : LinkOpen lanes u := h.withReplies ..
    exact (hu.ringStep 1).raise ..
  · exact h.withReplies ..

theorem LinkOpen.flushReplies (h : LinkOpen lanes s) (n : Nat) : LinkOpen lanes (s.flushReplies n) := by
  induction n generalizing s with
  | zero => exact h
  | succ n ih =>
    unfold State.flushReplies
    split
    · exact h
    · next r rest _ =>
      split
      · exact ih (((h.withReplies [] s.laosh.replySlots).postPcie r).withReplies rest _)
      · exact h

end

/-- The lanes once the host link is in L0. -/
def lanesAtL0 (s : State) : Lanes :=
  { s.lanes with since := s.lanes.since.put (laneKey 4 0) s.elapsed, hostState := 3, hostStage := 0 }

/-- R100: the held messages are sent, and what is posted then is held no more. -/
theorem hostUp_opens : LinkOpen (lanesAtL0 s) s.hostUp := by
  unfold State.hostUp
  extract_lets held laosh t u
  have ht : LinkOpen (lanesAtL0 s) t := ⟨rfl, rfl, rfl⟩
  have hu : LinkOpen (lanesAtL0 s) u :=
    ht.congr (foldl_keeps State.laosh (fun u v => send_laosh u (.msix v)) held t)
      (foldl_keeps State.lanes (fun u v => send_lanes u (.msix v)) held t)
  exact hu.flushReplies _

/-! ### Loss of link and of a reference (R98, R101) -/

/-- An ACTIVE port that loses its link drops what it holds, is counted and raised, and restarts (R98). -/
theorem uplinkDown_active {port : Nat} (hactive : s.laneState 2 port = 3) :
    s.uplinkDown port =
      let t := (s.dropHeld port .lnuTxDownDrop).report .lnuLinkDown port .lnuLinkDown (dieOfLane port) port
      (t.laneGroup 2 port).foldl (fun u j => u.bringUp 2 j (if u.fld .lnuCtlIntf j = 0 then 3 else 1)) t :=
  if_neg (not_not.2 hactive)

/-- The balls of a reference that an ordering code connects (R628). -/
theorem reference_connected {r : Nat} (hpart : 4 ≤ r ∨ (s.is064 = true → r < 2)) : ¬ (s.is064 = true ∧ (r = 2 ∨ r = 3)) := by
  rintro ⟨hsmall, hline⟩
  rcases hpart with hother | hpart
  · omega
  · have := hpart hsmall
    omega

end

/-- Settles O10: the host link by `hostUp_opens`, an FEC window by `quiet_fecWindow`, a header by `tndBlockRx_hunting`, a reference by the
balls that the part connects, the rest by the guard of each row. -/
theorem laneInputsComplete : Obligations.LaneInputsComplete := by
  refine ⟨?power, ?fused, ?mode, ?block, ?linkDown, ?fecLane, ?fecPort, ?hostUp, ?tandemLost, ?uplinkLost, ?hostLost, ?ponLost, ?ponBack,
    ?uplinkBack, ?tandemBack, ?hostBack⟩
  case power =>
    intro p f i on s hidx hdie hown hmay
    exact (if_pos hidx).trans (congrArg _ (writeLanePower_of_may hdie hown hmay))
  case fused =>
    intro p f i on s hdie
    show (if _ then _ else _) = _
    rw [writeLanePower_of_fused hdie, ite_self]
  case mode =>
    intro p o data s w hw hvalid hoff
    exact ⟨_, congrArg Host.Outcome.next (writeLnuMode_stores hw hvalid hoff), reg_setReg_unless_same ..⟩
  case block =>
    intro l header s hstate hstage hhunts
    refine ⟨_, tndBlockRx_hunting hstate hstage hhunts, ?_⟩
    simp only [huntHeader, Tbl.getD_setD_same, Bool.or_eq_true, decide_eq_true_eq]
    exact ⟨trivial, trivial⟩
  case linkDown => intro l s hactive; exact congrArg _ (uplinkDown_active hactive)
  case fecLane =>
    intro l corr uncorr symbols cw whole s hport
    exact if_pos (by rwa [(quiet_countBy ..).portOf])
  case fecPort =>
    intro l corr uncorr symbols cw whole s hport
    have hquiet := quiet_fecWindow (s := s) l.toNat corr.toNat uncorr.toNat symbols.toNat cw.toNat
    have hthr := hquiet.fld (f := .lnuCtlFecThr) (by decide) l.toNat
    have hover : (fecWindow s l.toNat corr.toNat uncorr.toNat symbols.toNat cw.toNat).lanes.fecOver.has l.toNat = s.lanes.fecOver.has l.toNat := by
      rw [hquiet.lanes]
    refine (if_neg (not_not.2 (((quiet_countBy ..).portOf _).trans hport))).trans ?_
    unfold fecWindow at hthr hover
    simp only [hthr, hover]
    split
    · split <;> rfl
    · split <;> rfl
  case hostUp =>
    intro width rate s
    obtain ⟨hup, hheld, hlanes⟩ := hostUp_opens (s := s)
    exact ⟨_, rfl, hup, hheld, congrArg Lanes.hostState hlanes, congrArg Lanes.hostStage hlanes, rfl, rfl⟩
  case tandemLost =>
    intro ref s href
    show Host.Outcome.next (s.refLost ref.toNat) = _
    rw [href]
    exact next_ite_neg (reference_connected (.inl (by decide)))
  case uplinkLost =>
    intro ref s hlow hhigh
    exact (next_ite_neg (reference_connected (.inl hlow))).trans ((next_ite_neg (Nat.not_lt.2 hlow)).trans (next_ite_pos hhigh))
  case hostLost => intro s; exact next_ite_neg (reference_connected (.inl (by decide)))
  case ponLost =>
    intro ref s hline hpart
    exact (next_ite_neg (reference_connected (.inr hpart))).trans (next_ite_pos hline)
  case ponBack =>
    intro ref s hline hpart
    exact (if_neg (reference_connected (.inr hpart))).trans (if_pos hline)
  case uplinkBack =>
    intro ref s hlow hhigh
    exact (if_neg (reference_connected (.inl hlow))).trans ((if_neg (Nat.not_lt.2 hlow)).trans (if_pos hhigh))
  case tandemBack => intro s; exact if_neg (reference_connected (.inl (by decide)))
  case hostBack => intro s; exact if_neg (reference_connected (.inl (by decide)))

end Sys2Proof

/-! The TREE commands (R131): each has its effect, mirrored where the tree is protected (R453), and answers where its operands are in range and
its block is unclaimed. -/

namespace Sys2Proof

open Machine

section
variable {s : State}

/-- R453: a command on a tree that is this device's, its block unclaimed, that answers OK is mirrored. -/
theorem onTree_ok {t die : Nat} {b : Blk} {r : Res} {u : State} {ws : List Word} (hown : s.treeBarred t = false)
    (hfree : s.claimed die b = false) (hr : r = .ok u ws) : s.onTree t [(die, b)] r = .ok (u.mirror t) ws := by
  subst hr
  exact onTree_free hown (by simpa using hfree) rfl

/-- Two bodies that answer OK with no words. -/
theorem res_ok_ite {p : Prop} [Decidable p] {t u : State} : (if p then Res.ok t else .ok u) = .ok (if p then t else u) :=
  (apply_ite (Res.ok ·) p t u).symm

@[simp] theorem start_nowOn (c : Caller) (die : Nat) : (s.start c).nowOn die = s.nowOn die := (rfl)
@[simp] theorem start_tree (c : Caller) (t : Nat) : (s.start c).tree t = s.tree t := (rfl)
@[simp] theorem setFlag_nowOn (f : Fld) (i : Nat) (b : Bool) (die : Nat) : (s.setFlag f i b).nowOn die = s.nowOn die := (rfl)
@[simp] theorem setFlag_tree (f : Fld) (i : Nat) (b : Bool) (t : Nat) : (s.setFlag f i b).tree t = s.tree t := (rfl)

/-- A flag of one register leaves the fields of another. -/
theorem fld_setFlag_other {f g : Fld} (i j : Nat) (b : Bool) (h : f.reg ≠ g.reg) : (s.setFlag f i b).fld g j = s.fld g j :=
  fld_setFld_other _ _ _ _ _ _ (.inl h)

/-- The flags of a launch that is pending leave the tree's cutoff span. -/
theorem cutoff_launchFlags (t : Nat) (a b : Bool) :
    ((s.setFlag .pchTreePending t a).setFlag .pchTreeUnaligned t b).fld .gntTreeCfgCutoff t = s.fld .gntTreeCfgCutoff t :=
  (fld_setFlag_other _ _ _ (by decide)).trans (fld_setFlag_other _ _ _ (by decide))

end

/-- Settles O11: each command by its operands' checks, then `onTree_ok`. -/
theorem treeCommandsComplete : Obligations.TreeCommandsComplete := by
  refine ⟨?config, ?channel, ?launch, ?stop, ?status, ?dln⟩
  case config =>
    intro h tree offset s hready htree hoffset hown hfree hdark hidle
    have hgood : ¬ (31 < tree.toNat ∨ 124999 < offset.toNat) := by omega
    have hoff : ¬ (s.launched tree.toNat = true ∨ s.launchPending tree.toNat = true) := by simp [hdark, hidle]
    exact completed_of hready ((if_neg hgood).trans (onTree_ok (s := s.start _) hown hfree (if_neg hoff)))
  case channel =>
    intro h chan mode enable maxPli ploamMax s hready hchan hmode henable hpli hlow hhigh hown hfree hkept
    have hgood : ¬ (127 < chan.toNat ∨ 1 < mode.toNat ∨ (!flagOk enable) = true ∨ (!pliOk maxPli.toNat) = true ∨
        ploamMax.toNat < 1 ∨ 8 < ploamMax.toNat) :=
      not_or.2 ⟨by omega, not_or.2 ⟨by omega, not_or.2 ⟨not_bnot_flagOk henable, not_or.2 ⟨bnot_ne_true hpli, by omega⟩⟩⟩⟩
    have hsame : ¬ ((s.start (callerOf h 0x0301)).flag .pchCfgEnable chan.toNat = true ∧
        mode.toNat ≠ (s.start (callerOf h 0x0301)).fld .pchCfgMode chan.toNat) :=
      fun ⟨hon, hother⟩ => hother (hkept hon)
    exact completed_of hready ((if_neg hgood).trans (onTree_ok (s := s.start _) hown hfree (if_neg hsame)))
  case launch =>
    intro h tree earliest unaligned s hready htree hflag hown hfree hdark hidle haligned
    have hgood : ¬ (31 < tree.toNat ∨ (!flagOk unaligned) = true) := not_or.2 ⟨by omega, not_bnot_flagOk hflag⟩
    have hoff : ¬ (s.launched tree.toNat = true ∨ s.launchPending tree.toNat = true) := by simp [hdark, hidle]
    have hmay : ¬ ((!s.flag .tbStatAligned 0) = true ∧ unaligned ≠ 1) := fun ⟨hnot, hne⟩ =>
      haligned.elim (fun h => bnot_ne_true h hnot) hne
    refine completed_of hready
      ((if_neg hgood).trans ((onTree_ok (s := s.start _) hown hfree ((if_neg hoff).trans (if_neg hmay))).trans ?_))
    simp only [start_nowOn, start_flag, start_fld, start_tree, setFlag_nowOn, setFlag_tree, cutoff_launchFlags]
    rfl
  case stop =>
    intro h tree s hready htree hown hfree
    have hgood : ¬ 31 < tree.toNat := by omega
    refine completed_of hready ((if_neg hgood).trans (onTree_ok (s := s.start _) hown hfree ?_))
    simp only [res_ok_ite]
    rfl
  case status =>
    intro h tree s hready htree hown
    have hgood : ¬ 31 < tree.toNat := by omega
    exact completed_of hready ((if_neg hgood).trans (onTree_free (s := s.start _) hown rfl rfl))
  case dln =>
    intro h chan delta alpha s hready hchan hdlow hdhigh halow hahigh hown hfree
    have hgood : ¬ (127 < chan.toNat ∨ delta.toNat < 1 ∨ 7 < delta.toNat ∨ alpha.toNat < 1 ∨ 15 < alpha.toNat) := by omega
    exact completed_of hready ((if_neg hgood).trans (onTree_ok (s := s.start _) hown hfree rfl))

end Sys2Proof

/-! What a frame's start fixes (R114, R119): the count of the channel's frame and of its tree's, the next count, the map and max_pli; one
lemma for each part of a frame that leaves them. -/

namespace Sys2Proof

open Machine

/-- What a frame's start fixes of a channel's frame and of its tree's, beside the time and the configured max_pli. -/
structure FrameView where
  now : Nat
  elapsed : Nat
  cfgMaxPli : Nat
  treeCount : Nat
  count : Nat
  next : Nat
  map : Option (Nat × List AllocStruct)
  maxPli : Nat

/-- R114, R119: the view of the next frame as it starts. -/
def FrameView.following (v : FrameView) : FrameView :=
  { v with treeCount := v.next, count := v.next, next := (v.next + 1) % 2 ^ 51, map := none, maxPli := v.cfgMaxPli }

/-- The time, the configured max_pli, the tree's count and the channel's frame. -/
def Machine.State.frameView (s : State) (c : Nat) : FrameView where
  now := s.now
  elapsed := s.elapsed
  cfgMaxPli := s.fld .pchCfgMaxPli c
  treeCount := (s.tree (treeOfChan c)).count
  count := (s.chan c).count
  next := (s.chan c).next
  map := (s.chan c).map
  maxPli := (s.chan c).maxPli

section
variable (s : State) (c : Nat)

/-! ### Updates of the state -/

theorem frameView_ext {s t : State} {c : Nat} (hnow : t.now = s.now) (helapsed : t.elapsed = s.elapsed)
    (hcfg : t.fld .pchCfgMaxPli c = s.fld .pchCfgMaxPli c) (htrees : t.trees = s.trees) (hchans : t.chans = s.chans) :
    t.frameView c = s.frameView c := by
  simp only [State.frameView, State.tree, State.chan, hnow, helapsed, hcfg, htrees, hchans]

theorem frameView_ite {p : Prop} [Decidable p] {s t u : State} {c : Nat} (ht : t.frameView c = s.frameView c)
    (hu : u.frameView c = s.frameView c) : (if p then t else u).frameView c = s.frameView c := by
  split <;> assumption

/-- Counting and raising leave the frames. -/
theorem Machine.Quiet.frameView {s t : State} (h : Quiet s t) (c : Nat) : t.frameView c = s.frameView c := by
  obtain ⟨-, -, hnow, -, -, -, -, -, -, -, -, hchans, htrees, -, -, helapsed, -⟩ := h.rest
  exact frameView_ext hnow helapsed (h.fld (by decide) c) htrees hchans

/-- An update of a channel sets the channel's part of the view. -/
theorem frameView_setFrame {x : ChanSt} : (s.setChan c x).frameView c =
    { s.frameView c with count := x.count, next := x.next, map := x.map, maxPli := x.maxPli } := by
  have hchan : (s.setChan c x).chan c = x := Tbl.getD_setD_same ..
  simp only [State.frameView, hchan]
  rfl

/-- An update of a channel that leaves its frame's count, the next count, the map held and max_pli. -/
theorem frameView_setChan {x : ChanSt} (hcount : x.count = (s.chan c).count) (hnext : x.next = (s.chan c).next)
    (hmap : x.map = (s.chan c).map) (hpli : x.maxPli = (s.chan c).maxPli) : (s.setChan c x).frameView c = s.frameView c := by
  rw [frameView_setFrame, hcount, hnext, hmap, hpli]
  rfl

theorem frameView_setTree (x : TreeSt) : (s.setTree (treeOfChan c) x).frameView c = { s.frameView c with treeCount := x.count } := by
  have htree : (s.setTree (treeOfChan c) x).tree (treeOfChan c) = x := Tbl.getD_setD_same ..
  simp only [State.frameView, htree]
  rfl

theorem frameView_setReg {r : Reg} (h : r ≠ .pchCfg) (i : Nat) (v : Word) : (s.setReg r i v).frameView c = s.frameView c :=
  frameView_ext rfl rfl (congrArg (fieldOf _ _) (reg_setReg_other _ _ (.inl h))) rfl rfl

theorem frameView_lanes (l : Lanes) : { s with lanes := l }.frameView c = s.frameView c := rfl

theorem frameView_cipher (x : Cipher) : { s with cipher := x }.frameView c = s.frameView c := rfl

theorem frameView_segment (die cluster egress : Nat) : (s.segment die cluster egress).frameView c = s.frameView c := by
  have hreg : coreReg die ≠ .pchCfg := by
    unfold coreReg
    split <;> decide
  unfold State.segment
  split
  · rfl
  · exact (frameView_cipher ..).trans (frameView_setReg s c hreg ..)

theorem frameView_cipherItem (die cluster egress len : Nat) (chained : Bool) :
    (s.cipherItem die cluster egress len chained).frameView c = s.frameView c := by
  unfold State.cipherItem
  induction segmentsOf len chained generalizing s with
  | zero => rfl
  | succ n ih => exact (ih _).trans (frameView_segment ..)

theorem frameView_send (o : Out) : (s.send o).frameView c = s.frameView c := rfl

theorem frameView_keyAbsent : (s.keyAbsent c).frameView c = s.frameView c := by
  unfold State.keyAbsent State.raiseOnceIn
  refine Eq.trans ?_ ((quiet_count s .pchKeyAbsent c).frameView c)
  exact frameView_ite rfl ((quiet_raise ..).frameView c)

/-! ### The parts of a frame -/

theorem frameView_closeFrame : (s.closeFrame c).frameView c = s.frameView c :=
  (foldl_keeps (State.frameView · c) (fun u _ => frameView_send u c _) ..).trans (frameView_setChan s c rfl rfl rfl rfl)

theorem frameView_frameInForce (n : Nat) :
    (s.frameInForce (treeOfChan c) n).frameView c = { s.frameView c with treeCount := n } := frameView_setTree ..

theorem frameView_noteLaunchDiff (n : Nat) : (s.noteLaunchDiff (treeOfChan c) n).frameView c = s.frameView c := by
  unfold State.noteLaunchDiff
  extract_lets d past was x u
  have hu : u.frameView c = s.frameView c := frameView_setTree ..
  exact frameView_ite (((quiet_report ..).frameView c).trans hu) hu

theorem frameView_pmSdu (t port : Nat) : (s.pmSdu t port).frameView c = s.frameView c := by
  unfold State.pmSdu
  split
  · rfl
  · split
    · exact ((quiet_pmAdd ..).trans (quiet_pmAdd ..)).frameView c
    · rfl

theorem frameView_flushPort (t port : Nat) : (s.flushPort t port).frameView c = s.frameView c := by
  unfold State.flushPort
  extract_lets k
  split
  · rfl
  · exact (frameView_pmSdu ..).trans ((quiet_count ..).frameView c)

theorem frameView_portChanges (t : Nat) : (s.portChanges t).frameView c = s.frameView c := by
  refine foldl_keeps (State.frameView · c) (fun u p => ?_) ..
  dsimp only
  split
  · exact frameView_flushPort ..
  · rfl

theorem frameView_light : (s.light c).frameView c = s.frameView c := frameView_ite rfl rfl

theorem frameView_chanCause : (s.chanCause c).frameView c = s.frameView c := frameView_ite rfl rfl

theorem frameView_admitOffers : (s.admitOffers c).frameView c = s.frameView c := frameView_setChan _ _ rfl rfl rfl rfl

theorem frameView_acceptFrom (n : Nat) (m : Ploam) : (s.acceptFrom c n m).frameView c = s.frameView c := by
  unfold State.acceptFrom
  refine frameView_ite rfl ?_
  split
  · split <;> rfl
  · rfl

theorem frameView_takePloams : (s.takePloams c).1.frameView c = s.frameView c := by
  unfold State.takePloams
  split
  · rfl
  · extract_lets t x out back again u v
    have ht : t.frameView c = s.frameView c := frameView_admitOffers ..
    have hu : u.frameView c = t.frameView c := frameView_setChan _ _ rfl rfl rfl rfl
    have hv : v.frameView c = u.frameView c :=
      foldl_keeps (State.frameView · c) (fun _ _ => (frameView_cipherItem ..).trans (frameView_acceptFrom ..)) ..
    exact (frameView_admitOffers ..).trans (hv.trans (hu.trans ht))

theorem frameView_expectMap (n : Nat) (map : List AllocStruct) : (s.expectMap c n map).frameView c = s.frameView c :=
  ((quiet_countBy ..).frameView c).trans rfl

theorem frameView_buildContainer (i n : Nat) : (s.buildContainer i n).frameView c = s.frameView c := by
  unfold State.buildContainer
  split
  · rfl
  · refine frameView_ite rfl ?_
    extract_lets jc bits x' u
    have hu : u.frameView c = s.frameView c := frameView_ite ((quiet_report ..).frameView c) rfl
    split <;> exact hu

theorem frameView_containerFrames (port name len : Nat) (k : Nat × Nat) (sent fuel : Nat) :
    (s.containerFrames c port name len k sent fuel).frameView c = s.frameView c := by
  induction fuel generalizing s sent with
  | zero => rfl
  | succ fuel ih =>
    unfold State.containerFrames
    extract_lets x n g sealed u v
    have hu : u.frameView c = s.frameView c := frameView_setChan _ _ rfl rfl rfl rfl
    have hv : v.frameView c = u.frameView c := frameView_ite rfl (frameView_cipherItem ..)
    exact frameView_ite rfl ((ih ..).trans (hv.trans hu))

theorem frameView_containers (n : Nat) : (s.containers c n).frameView c = s.frameView c := by
  refine foldl_keeps (State.frameView · c) (fun u p => ?_) ..
  extract_lets i v
  have hv : v.frameView c = u.frameView c := frameView_buildContainer ..
  split
  · exact hv
  · split
    · exact (frameView_containerFrames ..).trans hv
    · exact (frameView_keyAbsent ..).trans hv

theorem frameView_fillPayload (fuel : Nat) : (s.fillPayload c fuel).frameView c = s.frameView c := by
  induction fuel generalizing s with
  | zero => rfl
  | succ fuel ih =>
    unfold State.fillPayload
    extract_lets x
    split
    · rfl
    next u rest _ =>
    split
    · exact (ih _).trans ((frameView_keyAbsent ..).trans (frameView_setChan _ _ rfl rfl rfl rfl))
    · extract_lets pli
      split
      · rfl
      · extract_lets last tc g sealed mic v w y
        have hv : v.frameView c = s.frameView c := frameView_setChan _ _ rfl rfl rfl rfl
        have hw : w.frameView c = v.frameView c := frameView_ite (frameView_cipherItem ..) rfl
        have hy : y.frameView c = w.frameView c := frameView_ite rfl (frameView_cipherItem ..)
        exact (ih _).trans (hy.trans (hw.trans hv))

theorem frameView_fill : (s.fill c).frameView c = s.frameView c := frameView_fillPayload ..

variable {s c} in
theorem frameView_eq {v : FrameView} (h : s.frameView c = v) :
    (s.chan c).count = v.count ∧ (s.chan c).next = v.next ∧ (s.chan c).map = v.map ∧ (s.chan c).maxPli = v.maxPli ∧
      (s.tree (treeOfChan c)).count = v.treeCount ∧ s.now = v.now ∧ s.elapsed = v.elapsed ∧ s.fld .pchCfgMaxPli c = v.cfgMaxPli := by
  subst h
  exact ⟨rfl, rfl, rfl, rfl, rfl, rfl, rfl, rfl⟩

/-- R114, R119: a frame's start. The state that each part leaves is named before the next part is opened, so that the kernel is
not set to compute it. -/
theorem frameView_startFrame : (s.startFrame c).frameView c = (s.frameView c).following := by
  generalize hdef : @State.startFrame = start
  delta State.startFrame at hdef
  subst hdef
  beta_reduce
  extract_lets +onlyGivenNames t n closed told
  obtain ⟨u, hu, htold⟩ : ∃ u, told = u ∧ u.frameView c = { s.frameView c with treeCount := n } := by
    refine ⟨told, rfl, ?_⟩
    simp only [told, t, frameView_portChanges, frameView_noteLaunchDiff, frameView_frameInForce, closed, frameView_closeFrame]
  rw [hu]
  extract_lets lanes unlit lit
  obtain ⟨v, hv, hlit⟩ : ∃ v, lit = v ∧ v.frameView c = u.frameView c :=
    ⟨lit, rfl, (frameView_light ..).trans (frameView_lanes ..)⟩
  rw [hv]
  split
  next map late _ =>
  extract_lets warned
  have hwarned : warned.frameView c = v.frameView c :=
    frameView_ite ((frameView_chanCause ..).trans ((quiet_report ..).frameView c)) rfl
  split
  next w ploams htaken =>
  have hw : w.frameView c = { s.frameView c with treeCount := n } := by
    rw [← htold, ← hlit, ← hwarned, ← frameView_takePloams warned c, htaken]
  obtain ⟨-, -, -, -, -, -, -, hpli⟩ := frameView_eq hw
  extract_lets x formed sent
  rw [frameView_fill, frameView_containers, frameView_expectMap, frameView_send, frameView_setFrame, hw, hpli]
  rfl

end

end Sys2Proof

/-! What the downstream framer does by itself: launches, frames, stops, SDUs, key switches, cutoffs and the ONUs' keys (R114-R125, R138, R213). -/

namespace Sys2Proof

open Machine

section
variable {s : State}

/-! ### Launches and frames (R114, R121) -/

/-- R121: a tree's launch, its start in TAI given. -/
theorem launchTree_starts (t starts : Nat) :
    let v := ((s.setFlag .pchTreePending t false).setFlag .pchTreeLaunched t true).setTree t
      { s.tree t with count := (s.tree t).launchCount, startTime := starts, startElapsed := s.elapsed }
    s.launchTree t starts = ((((chansOfTree t).filter (fun c => v.flag .pchCfgEnable c)).foldl (fun v c =>
      v.startChan c (s.tree t).launchCount) v).pmTree t).raise .pchLaunched (dieOfTree t) t := by
  simp only [State.launchTree, setFlag_tree, setFlag_elapsed]

theorem frameStart_starts {c : Chan} (hframing : s.framing c.toNat = true) (hlaunched : s.launched (treeOfChan c.toNat) = true)
    (hchan : (s.chan c.toNat).stopping = false) (htree : (s.tree (treeOfChan c.toNat)).stopping = false) :
    exec (.frameStart c) s = .next (s.startFrame c.toNat) := by
  have hgoes : ¬ ((!s.framing c.toNat) = true ∨ (!s.launched (treeOfChan c.toNat)) = true ∨ (s.chan c.toNat).stopping = true ∨
      (s.tree (treeOfChan c.toNat)).stopping = true) :=
    not_or.2 ⟨bnot_ne_true hframing, not_or.2 ⟨bnot_ne_true hlaunched, not_or.2 ⟨Bool.eq_false_iff.1 hchan, Bool.eq_false_iff.1 htree⟩⟩⟩
  exact if_neg hgoes

/-! ### The cutoff (R138) -/

/-- R138, R161: the cutoff of the next frame has come, of a tree launched or about to be. -/
theorem nearFrame_of {t lead : Nat}
    (hrunning : s.launchPending t = false → s.frameElapsed t ((s.treeCount t + 1) % 2 ^ 51) ≤ s.elapsed + lead)
    (hpending : s.launchPending t = true →
      (s.tree t).noCutoff = false ∧ reached (s.nowOn (dieOfTree t)) ((s.tree t).launchAt - lead) = true) :
    s.nearFrame t lead = true := by
  unfold State.nearFrame
  split
  case isTrue h =>
    obtain ⟨hcut, hreached⟩ := hpending h
    rw [hcut, hreached]
    rfl
  case isFalse h => exact decide_eq_true (hrunning (Bool.eq_false_iff.2 h))

/-! ### An ONU's key (R213) -/

/-- R213: a reply goes to the activation sequencer of the ONU's tree. -/
theorem keyReply_of_onu {o : Onu} {x : OnuSlot} (honu : s.onu o.toNat = some x) (wrapped : List Word) (fits : Bool) :
    exec (.keyReply o wrapped fits) s = .next (s.toActivation x.tree (.keyReply o.toNat wrapped fits)
      (fun s => s.keyServed o.toNat wrapped fits)) := by
  show execKeyReply o wrapped fits s = _
  rw [execKeyReply, honu]

theorem toActivation_idle {t : Nat} {r : SeqReport} {f : State → State} (h : s.idleFor (dieOfTree t) (t % 8 / 4) = true) :
    s.toActivation t r f = f s := toSequencer_served.trans (if_pos h)

theorem toActivation_busy {t : Nat} {r : SeqReport} {f : State → State} (h : s.idleFor (dieOfTree t) (t % 8 / 4) = false) :
    s.toActivation t r f = s.queued (dieOfTree t) (t % 8 / 4) r := toSequencer_served.trans (if_neg (Bool.eq_false_iff.1 h))

/-- R213: a reply that fits is installed in the free slot, and the switch announced 64 frames on. -/
theorem keyServed_installs {o : Nat} {wrapped : List Word} {x : OnuSlot} (honu : s.onu o = some x) (hasked : x.keyAsked = true)
    (hown : s.treeBarred x.tree = false)
    (hslot : s.slotHeld (.unicast (if x.keySlot = 1 then 2 else 1)) o (if x.keySlot = 1 then 2 else 1) = false)
    (hkek : s.cipher.kekErased.has o = false) (hsafe : s.tampered = false) (hcluster : s.clusterOut (dieOfTree x.tree) = false)
    (hroom : s.vaultRoom (halfOfTree x.tree) 1 false = true) :
    let slot := if x.keySlot = 1 then 2 else 1
    let key : VKey := ⟨.unicast slot, o, dieOfTree x.tree, Config.standard 1 (s.kekOf o :: wrapped.map (·.toNat)) % 2 ^ 128, 128, 0, true⟩
    let n := (s.treeCount x.tree + 65) % 2 ^ 51
    let v := (s.installKeys ((s.freeHandles (halfOfTree x.tree) 1).zip [key])).tellKey key (some n)
    s.keyServed o wrapped true = (v.offer x.chan ⟨.keyControl, some x.onuId, [1, n, slot]⟩).modOnu o
      (fun x => { x with keySwitch := some (n, slot) }) := by
  have hturn : ¬ ((!x.keyAsked) = true ∨ s.treeBarred x.tree = true) := not_or.2 ⟨bnot_ne_true hasked, Bool.eq_false_iff.1 hown⟩
  unfold State.keyServed
  simp only [honu, if_neg hturn]
  refine if_neg ?_
  simp only [hslot, hkek, hsafe, hcluster, hroom]
  decide

end

/-- Settles O12: a launch by `launchTree_starts`, a frame's start by `frameView_startFrame`, a cutoff by `nearFrame_of`, a key by
`keyServed_installs`, the rest by the guard of each row. -/
theorem frameEventsComplete : Obligations.FrameEventsComplete := by
  refine ⟨?launch, ?chanStart, ?treeStop, ?chanStop, ?frame, ?frameStarts, ?sdu, ?bcast, ?unicast, ?cutoff, ?deadline, ?keyWaits, ?key⟩
  case launch =>
    intro t s hpending hreached v
    have hcome : (s.launchPending t.toNat && reached (s.nowOn (dieOfTree t.toNat)) (s.tree t.toNat).launchAt) = true := by
      rw [hpending, hreached]
      rfl
    exact (next_ite_pos hcome).trans (congrArg Host.Outcome.next (launchTree_starts ..))
  case chanStart =>
    intro c at_ n s hstart hreached hdark hlaunched
    show execChannelStart c s = _
    rw [execChannelStart, hstart]
    exact next_ite_pos ⟨hlaunched, hreached, by rw [hdark]; rfl⟩
  case treeStop => intro t s hstops; exact if_pos hstops
  case chanStop => intro t s hgoes; exact if_neg (Bool.eq_false_iff.1 hgoes)
  case frame => intro c s hframing hlaunched hchan htree; exact frameStart_starts hframing hlaunched hchan htree
  case frameStarts =>
    intro c s hframing hlaunched hchan htree
    obtain ⟨hcount, hnext, hmap, hpli, htreeCount, hnow, helapsed, -⟩ := frameView_eq (frameView_startFrame s c.toNat)
    exact ⟨_, frameStart_starts hframing hlaunched hchan htree, hcount, hnext, hmap, hpli, htreeCount, hnow, helapsed⟩
  case sdu =>
    intro c u rest s hhead hreached hlink hframing hroom
    have hgood : ¬ ((!s.framing c.toNat) = true ∨ 65536 < s.tcBytes c.toNat + u.frame.len ∨
        (!reached (s.nowOn (halfOfChan c.toNat)) u.at_) = true ∨ s.linkCut (dieOfChan c.toNat) = true) :=
      not_or.2 ⟨bnot_ne_true hframing, not_or.2 ⟨Nat.not_lt.2 hroom, not_or.2 ⟨bnot_ne_true hreached, Bool.eq_false_iff.1 hlink⟩⟩⟩
    show execTcSduRx c s = _
    rw [execTcSduRx, hhead]
    refine (if_neg hgood).trans ?_
    extract_lets w v
    exact (apply_ite Host.Outcome.next ..).symm
  case bcast =>
    intro t n k s hnext hcome
    show execKeySwitch t none s = _
    rw [execKeySwitch]
    simp only [hnext]
    exact if_pos hcome
  case unicast =>
    intro t o x n k s honu hswitch htree hcome
    show execKeySwitch t (some o) s = _
    rw [execKeySwitch]
    simp only [honu, hswitch]
    refine (if_neg (not_or.2 ⟨not_not.2 htree, Int.not_lt.2 hcome⟩)).trans ?_
    cases x.rekey <;> rfl
  case cutoff =>
    intro t s hon n hnew hlock hrunning hpending
    have hnear : s.nearFrame t.toNat (usSpan (s.fld .gntTreeCfgCutoff t.toNat)) = true :=
      nearFrame_of (fun h => by
        have hn : n = (s.treeCount t.toNat + 1) % 2 ^ 51 := if_neg (Bool.eq_false_iff.1 h)
        rw [← hn]
        exact hrunning h) hpending
    have hgood : ¬ (((!s.launched t.toNat) = true ∧ (!s.launchPending t.toNat) = true) ∨ (s.pon.calcs.find t.toNat).map (·.frame) = some n ∨
        s.lockstep t.toNat = true ∨ (!s.nearFrame t.toNat (usSpan (s.fld .gntTreeCfgCutoff t.toNat))) = true) :=
      not_or.2 ⟨fun ⟨hdark, hidle⟩ => hon.elim (bnot_ne_true · hdark) (bnot_ne_true · hidle),
        not_or.2 ⟨hnew, not_or.2 ⟨Bool.eq_false_iff.1 hlock, bnot_ne_true hnear⟩⟩⟩
    exact if_neg hgood
  case deadline => intro t s hnear; exact if_neg (bnot_ne_true hnear)
  case keyWaits =>
    intro o wrapped fits x s honu hbusy
    rw [keyReply_of_onu honu, toActivation_busy hbusy]
  case key =>
    intro o wrapped x s honu hidle hasked hown hslot hkek hsafe hcluster hroom
    rw [keyReply_of_onu honu, toActivation_idle hidle]
    exact congrArg Host.Outcome.next (keyServed_installs honu hasked hown hslot hkek hsafe hcluster hroom)

end Sys2Proof

/-! The GRANT commands (R163): each has its effect, mirrored where the tree is protected (R453), and answers where its operands are in range and
its block is unclaimed. -/

namespace Sys2Proof

open Machine

section
variable {s : State} {t o : Nat} {bs : List Blk} {body : OnuSlot → Res} {x : OnuSlot} {r : Res}

/-- A command on a tree that is this device's, its blocks unclaimed, that refuses answers so and has no effect to mirror. -/
theorem onTree_refused {blocks : List (Nat × Blk)} (hown : s.treeBarred t = false)
    (hfree : blocks.any (fun b => s.claimed b.1 b.2) = false) (hr : r.status.refuses = true) : s.onTree t blocks r = r := by
  simp [State.onTree, hown, unlessClaimed_free hfree, hr]

theorem onOnu_provisioned (honu : s.onu o = some x) : s.onOnu o body bs = s.onTree x.tree (onuBlocks x.tree bs) (body x) := by
  rw [State.onOnu, honu]

theorem unclaimed_iff {blocks : List (Nat × Blk)} :
    s.unclaimed blocks = true ↔ blocks.any (fun b => s.claimed b.1 b.2) = false := by
  rw [State.unclaimed, Bool.not_eq_true']

/-- A command on a provisioned ONU that answers OK is mirrored to the ONU's tree. -/
theorem onOnu_ok {u : State} {ws : List Word} (honu : s.onu o = some x) (hown : s.treeBarred x.tree = false)
    (hfree : s.unclaimed (onuBlocks x.tree bs) = true) (hr : body x = .ok u ws) :
    s.onOnu o body bs = .ok (u.mirror x.tree) ws := by
  rw [onOnu_provisioned honu, hr]
  exact onTree_free hown (unclaimed_iff.1 hfree) rfl

theorem onOnu_refused (honu : s.onu o = some x) (hown : s.treeBarred x.tree = false)
    (hfree : s.unclaimed (onuBlocks x.tree bs) = true) (hr : body x = r) (href : r.status.refuses = true) :
    s.onOnu o body bs = r := by
  rw [onOnu_provisioned honu, hr]
  exact onTree_refused hown (unclaimed_iff.1 hfree) href

/-- Reads of the PON that a command's start does not touch. -/
@[simp] theorem start_onu (c : Caller) (i : Nat) : (s.start c).onu i = s.onu i := (rfl)
@[simp] theorem start_ident (c : Caller) (kind v : Nat) : (s.start c).ident t kind v = s.ident t kind v := (rfl)
@[simp] theorem start_recOf (c : Caller) (a : Nat) : (s.start c).recOf t a = s.recOf t a := (rfl)
@[simp] theorem start_freeRec (c : Caller) (die : Nat) : (s.start c).freeRec die = s.freeRec die := (rfl)
@[simp] theorem start_hintPlace (c : Caller) (die : Nat) : (s.start c).hintPlace die = s.hintPlace die := (rfl)

/-- R144: the operands of GRANT.ALLOC_SET are in range. -/
theorem allocSet_good {allocId : Word} {p : AllocWords} (halloc : allocId.toNat < 16384) (hwords : allocWordsOk p = true)
    (hprofile : s.prfValid x.chan p.profile.toNat = true) :
    ¬ (16383 < allocId.toNat ∨ (!allocWordsOk p) = true ∨ (!s.prfValid x.chan p.profile.toNat) = true) :=
  not_or.2 ⟨by omega, not_or.2 ⟨bnot_ne_true hwords, bnot_ne_true hprofile⟩⟩

end

/-- Settles O16: each command by its operands' checks, then `onTree_ok`, `onOnu_ok` or `onOnu_refused`. -/
theorem grantCommandsComplete : Obligations.GrantCommandsComplete := by
  refine ⟨?channel, ?tree, ?alloc, ?full, ?used, ?clear, ?get, ?hint, ?cancel, ?cti, ?arm, ?map, ?status⟩
  case channel =>
    intro h chan enable guard admPct ploamIvl s hready hchan henable hguard hguard' hadm hadm' hivl hown hfree
    have hgood : ¬ (127 < chan.toNat ∨ (!flagOk enable) = true ∨ guard.toNat < 4 ∨ 255 < guard.toNat ∨ admPct.toNat < 10 ∨
        100 < admPct.toNat ∨ 255 < ploamIvl.toNat) :=
      not_or.2 ⟨by omega, not_or.2 ⟨not_bnot_flagOk henable, by omega⟩⟩
    exact completed_of hready ((if_neg hgood).trans (onTree_ok (s := s.start _) hown hfree rfl))
  case tree =>
    intro h tree cutoff coopEn s hready htree hcut hcut' hcoop hown hfree
    have hgood : ¬ (31 < tree.toNat ∨ cutoff.toNat < 16 ∨ 120 < cutoff.toNat ∨ (!flagOk coopEn) = true) :=
      not_or.2 ⟨by omega, not_or.2 ⟨by omega, not_or.2 ⟨by omega, not_bnot_flagOk hcoop⟩⟩⟩
    exact completed_of hready ((if_neg hgood).trans (onTree_ok (s := s.start _) hown hfree rfl))
  case alloc =>
    intro h onu allocId p k x s hready honu hown hfree halloc hwords hprofile hident hplace hroom r hadmits
    refine completed_of hready (onOnu_ok (s := s.start _) honu hown hfree
      ((if_neg (allocSet_good (s := s.start _) halloc hwords hprofile)).trans ?_))
    simp only [start_ident, hident, start_freeRec, hplace]
    exact if_neg (not_or.2 ⟨bnot_ne_true hroom, bnot_ne_true hadmits⟩)
  case full =>
    intro h onu allocId p k x s hready honu hown hfree halloc hwords hprofile hident hplace hfails
    refine completed_of hready (onOnu_refused (s := s.start _) honu hown hfree
      ((if_neg (allocSet_good (s := s.start _) halloc hwords hprofile)).trans ?_) (r := .fail (s.start _) .noRoom) rfl)
    simp only [start_ident, hident, start_freeRec, hplace]
    exact if_pos (.inr (congrArg not hfails))
  case used =>
    intro h onu allocId p o x s hready honu hown hfree halloc hwords hprofile hident
    refine completed_of hready (onOnu_refused (s := s.start _) honu hown hfree
      ((if_neg (allocSet_good (s := s.start _) halloc hwords hprofile)).trans ?_) (r := .fail (s.start _) .idInUse) rfl)
    simp only [start_ident, hident]
  case clear =>
    intro h onu allocId x s hready honu hown hfree halloc hother hrests hholds
    have hgood : ¬ (16383 < allocId.toNat ∨ allocId.toNat = x.onuId) := not_or.2 ⟨by omega, hother⟩
    exact completed_of hready (onOnu_ok (s := s.start _) honu hown hfree
      ((if_neg hgood).trans ((if_neg (Bool.eq_false_iff.1 hrests)).trans (if_neg (not_not.2 hholds)))))
  case get =>
    intro h onu allocId x k r s hready honu hrec hholds
    refine completed_of hready ?_
    simp only [start_onu, honu, start_recOf, hrec]
    exact if_pos hholds
  case hint =>
    intro h record sHi sLo frames bytes pin r k s hready hrec hrecord hframes hframes' hstart hpin hown hfree hplace
    have hgood : ¬ (16383 < record.toNat ∨ frames.toNat < 1 ∨ 65535 < frames.toNat ∨ 2 ^ 19 ≤ sHi.toNat ∨
        (pin ≠ 0xFFFF ∧ s.quanta (s.recChan r) ≤ pin.toNat)) :=
      not_or.2 ⟨by omega, not_or.2 ⟨by omega, not_or.2 ⟨by omega, not_or.2 ⟨Nat.not_le.2 hstart,
        fun ⟨hne, hpast⟩ => hpin.elim hne (fun hlt => Nat.not_le.2 hlt hpast)⟩⟩⟩⟩
    refine completed_of hready ?_
    simp only [start_pon, hrec]
    exact (if_neg hgood).trans (onTree_ok (s := s.start _) hown hfree (by rw [start_hintPlace, hplace]))
  case cancel =>
    intro h handle x r s hready hhint hrec hown hfree
    refine completed_of hready ?_
    simp only [start_pon, hhint, hrec]
    exact onTree_ok (s := s.start _) hown hfree rfl
  case cti =>
    intro h ports udp sources pairs s hready hports hudp hsources hpairs hfree hroom
    have hgood : ¬ (ports.any (fun p => 63 < p.toNat || s.portOf p.toNat ≠ p.toNat) = true ∨ 65535 < udp.toNat ∨ 16 < sources.length ∨
        pairs.any (fun p => 16383 < p.2.2.toNat) = true) :=
      not_or.2 ⟨Bool.eq_false_iff.1 hports, not_or.2 ⟨by omega, not_or.2 ⟨by omega, Bool.eq_false_iff.1 hpairs⟩⟩⟩
    exact completed_of hready ((if_neg hgood).trans ((unlessClaimed_one (s := s.start _) hfree).trans (if_neg (Nat.not_lt.2 hroom))))
  case arm =>
    intro h onu sHi sLo count x s hready honu hcount hcount' hstart hown hfree hroom
    have hgood : ¬ (count.toNat < 1 ∨ 255 < count.toNat ∨ 2 ^ 19 ≤ sHi.toNat) := not_or.2 ⟨by omega, not_or.2 ⟨by omega, Nat.not_le.2 hstart⟩⟩
    refine completed_of hready ?_
    simp only [start_onu, honu]
    exact (if_neg hgood).trans (onTree_ok (s := s.start _) hown hfree (if_neg (Nat.not_le.2 hroom)))
  case map =>
    intro h chan s hready hchan
    exact completed_of hready (if_neg (by omega : ¬ 127 < chan.toNat))
  case status =>
    intro h chan s hready hchan
    exact completed_of hready (if_neg (by omega : ¬ 127 < chan.toNat))

end Sys2Proof

/-! What the grant engine and the burst receiver do by themselves: CTI reports, arms, maps, pins, expert commits, bursts and reassembly
deadlines (R62, R145, R146, R156, R158-R160, R169, R175-R178, R189). -/

namespace Sys2Proof

open Machine

section
variable {s : State}

/-! ### Reports (R146) -/

/-- R146: of a tree that nothing protects a decoded report reaches the engine alone. -/
theorem decoded_unprotected {k : Nat} {rep : GrantReport} {r : AllocRec} (hrec : s.pon.allocs.find k = some r)
    (hopen : s.protected r.tree = false) (halone : s.mirrors r.tree = false) (hown : s.treeBarred r.tree = false) :
    s.decoded k rep = s.reportRx k rep := by
  simp [State.decoded, hrec, hopen, halone, hown]

/-! ### Pins (R62, R158) -/

/-- R62: the fall ahead of a granted burst, held back to the end of the burst before it. -/
theorem resetFall_burst {c i : Nat} {e : Expect} (hwin : s.windowOfBurst c e = none) :
    let fall := s.quantumTime c e.frame e.first - step02 (s.fld .gntPinCfgRstLead c)
    let prev := (((s.expects c).take i).map (fun p => s.quantumTime c p.frame p.last)).foldl max e.after
    s.resetFall c i e = ((max prev fall).toNat, decide (fall < prev)) := by
  intro fall prev
  have hcases : s.resetFall c i e = if fall < prev then (prev.toNat, true) else (fall.toNat, false) := by
    rw [State.resetFall, hwin]
    rfl
  rw [hcases]
  split
  case isTrue h => rw [max_eq_left h.le, decide_eq_true h]
  case isFalse h => rw [max_eq_right (not_lt.1 h), decide_eq_false h]

/-- R207: the fall at a quiet window's opening. -/
theorem resetFall_window {c i : Nat} {e : Expect} {w : Window} (hwin : s.windowOfBurst c e = some w) :
    s.resetFall c i e = ((s.quantumTime c ((w.frame + 2 ^ 51 - w.j) % 2 ^ 51) 0).toNat, false) := by
  rw [State.resetFall, hwin]

/-- R62, R158: the reset of an expected burst leaves once the die's time has reached its fall. -/
theorem brxRstPulse_due {c : Chan} {burst : BitVec 10} {e : Expect} {fall : Nat} {squeezed : Bool}
    (hburst : (s.expects c.toNat)[burst.toNat]? = some e) (hnew : e.rstSent = false)
    (hfall : s.resetFall c.toNat burst.toNat e = (fall, squeezed))
    (hdue : shortReached (s.nowOn (dieOfChan c.toNat)) (shortOf fall) = true) :
    let sent := (s.modExpect c.toNat burst.toNat (fun e => { e with rstSent := true })).send
      (.pulse .brxRstN c.toNat 0 fall (step02 (s.fld .gntPinCfgRstWidth c.toNat)))
    exec (.brxRstPulse c burst) s = .next
      (if squeezed then sent.report .gntRstSqueeze c.toNat .gntRstSqueeze (dieOfChan c.toNat) c.toNat else sent) := by
  intro sent
  show execBrxRstPulse c burst s = _
  rw [execBrxRstPulse]
  simp only [hburst, hfall]
  rw [if_neg (not_or.2 ⟨Bool.eq_false_iff.1 hnew, bnot_ne_true hdue⟩), State.driveReset, hfall]
  rfl

/-! ### Expert commits (R145, R169) -/

/-- A field of the record as a commit of the path would write it. -/
def alcField (s : State) (p : APath) (d : Nat) (f : Fld) : Nat := fieldOf f.lo f.w (s.alcWord p d f.reg)

/-- The record that the path has selected. -/
def selectedRec (s : State) (p : APath) (d : Nat) : Nat := recKey d (s.sel .alcsel d (apathCode p) % 16384)

/-- What a path has staged names the selected record a by a's own ONU x and Alloc-ID, one that the ONU does not have from activation. -/
structure NamesItself (s : State) (p : APath) (d : Nat) (a : AllocRec) (x : OnuSlot) : Prop where
  selected : s.pon.allocs.find (selectedRec s p d) = some a
  valid : alcField s p d .gntAlcCfgValid ≠ 0
  onu : alcField s p d .gntAlcIdOnu = a.onu
  allocId : alcField s p d .gntAlcIdAllocId = a.allocId
  provisioned : s.onu a.onu = some x
  tree : x.tree = a.tree
  notDefault : x.onuId ≠ a.allocId
  die : dieOfTree a.tree = d

variable {p : APath} {d : Nat} {data : Word}

/-- R145, R169: a commit that names the record it selects, and keeps its band, writes the staged fields to it. -/
theorem commitAlloc_writes {a : AllocRec} {x : OnuSlot} (hbit : data.getLsbD 0 = true) (hnames : NamesItself s p d a x)
    (hown : s.expertBarred p a.tree = false) (hband : (a.withWords (s.stagedAlloc p d)).band = a.band)
    (hprofile : s.prfValid (s.recChan (a.withWords (s.stagedAlloc p d))) (a.withWords (s.stagedAlloc p d)).profile = true)
    (hadmits : s.admits (selectedRec s p d) (a.withWords (s.stagedAlloc p d)) = true) :
    s.commitAlloc p d data = (((s.unstage p d alcRegs).setIdent a.tree 1 a.allocId (some (.bound a.onu))).setRec
      (selectedRec s p d) (a.withWords (s.stagedAlloc p d))).mirror a.tree := by
  obtain ⟨hrec, hvalid, honu, hid, hslot, htree, hother, hdie⟩ := hnames
  simp only [alcField, selectedRec] at hrec hvalid honu hid hadmits ⊢
  rw [State.commitAlloc, if_neg (bnot_ne_true hbit)]
  simp [hrec, hvalid, honu, hid, hslot, htree, hother, hdie, hown, hband, hprofile, hadmits, Option.filter_some]

/-- R169: a commit that names no ONU is refused. -/
theorem commitAlloc_noOnu (hbit : data.getLsbD 0 = true) (hvalid : alcField s p d .gntAlcCfgValid ≠ 0)
    (hnone : s.onu (alcField s p d .gntAlcIdOnu) = none) : s.commitAlloc p d data = s.recReject d := by
  simp only [alcField] at hvalid hnone
  rw [State.commitAlloc, if_neg (bnot_ne_true hbit)]
  simp only [hvalid, hnone, if_false]

/-! ### Bursts (R175-R178) -/

/-- A burst of an ONU that the map named is the receiver's; it is awaited no more. -/
theorem burstRx_granted {c : Chan} {index : BitVec 10} {b : BurstRx} {e : Expect} {o : Nat}
    (hburst : (s.expects c.toNat)[index.toNat]? = some e) (honu : e.onu = some o) (hwin : e.window = false) :
    exec (.burstRx c index b) s = .next ((s.dropExpect c.toNat index.toNat).burstRx ⟨c.toNat, o, e.frame, 0⟩ e b) := by
  show execBurstRx c index b s = _
  rw [execBurstRx]
  simp only [hburst, honu, hwin]
  rfl

/-- What the delimiter of a burst is found to be (R175-R177). -/
def delimiterOf (v : State) (r : RxAt) (e : Expect) (b : BurstRx) : Option (Int × Nat) :=
  acceptAt (v.fld .brxPrfCfgTol (prfInst r.c e.profile)) (v.winEff r.c e.profile)
    ((v.tandem.accept.find r.o).map (fun a => a.2 * (v.uiRate r.c e.profile : Int) / 100000))
    (b.positions.map (fun p => (signedOf 32 p.1.toNat, v.delimiterDiff r.c e.profile p.2)))

variable {r : RxAt} {e : Expect} {b : BurstRx}

/-- R176, R177: a burst whose delimiter is accepted goes on with its offset and its body, unless its index names another ONU by now or it
comes past its fence. -/
theorem burstRx_accepted {d : Int} {n : Nat} (hsees : s.receives r.c = true)
    (hfound : delimiterOf (s.acquisition r.c b.locked) r e b = some (d, n)) :
    let v := s.acquisition r.c b.locked
    let w := v.countBy .brxDelimBiterr r.c n
    let rate := v.uiRate r.c e.profile
    s.burstRx r e b =
      if w.another r.o e then w.burstBody r e b d
      else if ((w.onu r.o).map (fun x => w.pastFence r.c r.o x (w.burstStart r.c e d))).getD false then w.fenceLate r e
      else (w.offsetRx r rate (v.winEff r.c e.profile) ((v.tandem.accept.find r.o).map (fun a => a.2 * (rate : Int) / 100000)) d).burstBody
        r e b d := by
  rw [delimiterOf] at hfound
  rw [State.burstRx, if_neg (bnot_ne_true hsees)]
  simp only [hfound]

/-- R175, R176: a burst with no delimiter is lost, missed altogether where the loop has not locked. -/
theorem burstRx_undelimited (hsees : s.receives r.c = true) (hnone : delimiterOf (s.acquisition r.c b.locked) r e b = none) :
    let v := s.acquisition r.c b.locked
    s.burstRx r e b =
      if b.locked then (v.report .brxDelimMiss r.c .brxDelim (dieOfChan r.c) r.o).burstLost r e true
      else ((v.count .brxBurstMiss r.c).raiseAt r .brxBurstMiss r.c).burstLost r e true := by
  rw [delimiterOf] at hnone
  rw [State.burstRx, if_neg (bnot_ne_true hsees)]
  simp only [hnone]

end

/-- Settles O17: each event by its guard; the pins by `resetFall`, commits and bursts by their own lemmas. -/
theorem grantEventsComplete : Obligations.GrantEventsComplete := by
  refine ⟨?cti, ?ctiBad, ?expire, ?report, ?computed, ?reset, ?window, ?trigger, ?idle, ?commit, ?commitBad, ?missed, ?burst, ?deadline⟩
  case cti =>
    intro port udp source entity flow start length bytes k p r s hline hport hudp hpair hrec hsource hlength hcoop hown hplace
    show execCtiReportRx port udp source entity flow start length bytes true s = _
    rw [execCtiReportRx]
    simp only [hpair, hrec, hplace]
    rw [if_neg (bnot_ne_true hline), if_neg (not_or.2 ⟨bnot_ne_true hport, not_not.2 hudp⟩),
      if_neg (not_or.2 ⟨bnot_ne_true hsource, not_or.2 ⟨bnot_ne_true rfl, hlength⟩⟩),
      if_neg (not_or.2 ⟨bnot_ne_true hcoop, Bool.eq_false_iff.1 hown⟩)]
  case ctiBad =>
    intro port udp source entity flow start length bytes good s hline hport hudp hpair
    show execCtiReportRx port udp source entity flow start length bytes good s = _
    rw [execCtiReportRx]
    simp only [hpair]
    rw [if_neg (bnot_ne_true hline), if_neg (not_or.2 ⟨bnot_ne_true hport, not_not.2 hudp⟩)]
  case expire => intro c s; rfl
  case report =>
    intro die index rep r s hrec hopen halone hown
    exact congrArg Host.Outcome.next (decoded_unprotected hrec hopen halone hown)
  case computed =>
    intro t n snap s hcalc
    show execMapComputed t s = _
    rw [execMapComputed]
    simp only [hcalc]
  case reset =>
    intro c burst e s hburst hnew hwin width fall prev v hdue
    rw [brxRstPulse_due hburst hnew (resetFall_burst hwin) hdue]
    simp only [decide_eq_true_eq]
    split
    case isTrue h => rw [max_eq_left h.le]
    case isFalse h => rw [max_eq_right (not_lt.1 h)]
  case window =>
    intro c burst e w s hburst hnew hwin opens hdue
    exact brxRstPulse_due hburst hnew (resetFall_window hwin) hdue
  case trigger =>
    intro c burst e s hburst hflag hnew hwidth rise hdue
    show execRssiTrigger c burst s = _
    rw [execRssiTrigger]
    simp only [hburst]
    exact next_ite_neg (not_or.2 ⟨bnot_ne_true hflag, not_or.2 ⟨Bool.eq_false_iff.1 hnew, not_or.2 ⟨hwidth, bnot_ne_true hdue⟩⟩⟩)
  case idle =>
    intro p die data s hbit
    exact next_ite_pos (congrArg not hbit)
  case commit =>
    intro p die data a x s hbit d k fld hrec hvalid hnames hid honu htree hother hdie hown r hband hprofile hadmits
    exact congrArg Host.Outcome.next
      (commitAlloc_writes hbit ⟨hrec, hvalid, hnames, hid, honu, htree, hother, hdie⟩ hown hband hprofile hadmits)
  case commitBad =>
    intro p die data s hbit d fld hvalid hnone
    exact congrArg Host.Outcome.next (commitAlloc_noOnu hbit hvalid hnone)
  case missed =>
    intro c index b e o s hburst honu hwin v r hdark
    rw [burstRx_granted hburst honu hwin]
    exact next_ite_pos (congrArg not hdark)
  case burst =>
    intro c index b e o d n s hburst honu hwin v r rate old w found hsees
    rw [burstRx_granted hburst honu hwin]
    have hlost : found = none → _ := burstRx_undelimited (r := r) (e := e) (b := b) hsees
    refine ⟨fun hfound => ?_, fun hnone hlocked => ?_, fun hnone hunlocked => ?_⟩
    · exact congrArg Host.Outcome.next (burstRx_accepted hsees hfound)
    · rw [hlost hnone]
      exact next_ite_pos hlocked
    · rw [hlost hnone]
      exact next_ite_neg (Bool.eq_false_iff.1 hunlocked)
  case deadline => intro c s; rfl

end Sys2Proof

/-! Burst profiles and the burst receiver's settings: the TREE commands (R193, R640) and the checked write of a profile's CFG register
(R173, R174, R194, R195). -/

namespace Sys2Proof

open Machine

/-- R6, R10, R195: the word that a write of a profile's CFG register would leave, its tolerance one that the delimiter's length allows. -/
def profileWord (s : State) (p : APath) (c n : Nat) (data : Word) : Word :=
  (legalTol (s.reg .brxPrfCfg (prfInst c n)) (s.meet p (dieOfChan c) .brxPrfCfg (prfInst c n) data).2).1

/-- R7, R10, R195: the state once that word's reserved encodings and unclaimed fields have been counted and raised. -/
def profileMet (s : State) (p : APath) (c n : Nat) (data : Word) : State :=
  let m := s.meet p (dieOfChan c) .brxPrfCfg (prfInst c n) data
  if (legalTol (s.reg .brxPrfCfg (prfInst c n)) m.2).2 then m.1.report .sysBadEnc 0 .sysBadEnc (dieOfChan c) 0 else m.1

/-- R172, R173: a CFG word and the pattern registers beside it form a profile in range, its delimiter apart. -/
def profileWordOk (s : State) (c n : Nat) (w : Word) : Bool :=
  let pair := fun hi lo => (s.reg hi (prfInst c n)).toNat * 2 ^ 32 + (s.reg lo (prfInst c n)).toNat
  profileOk (s.xgs c) (fldOf .brxPrfCfgRate w) (pair .brxPrfPreHi .brxPrfPreLo) (fldOf .brxPrfCfgPreLen w)
    (pair .brxPrfDlmHi .brxPrfDlmLo) (if fldOf .brxPrfCfgDlm8 w = 1 then 8 else 4) (fldOf .brxPrfCfgTol w)

section
variable {s : State} {p : APath} {c n : Nat} {data : Word}

/-- R174, R194: a write that may change the register is refused where it would leave a valid profile that fails the checks, or would
change a profile in use. -/
theorem writeProfile_checked (hown : s.expertBarred p (treeOfChan c) = false) (hdie : s.dieFused (dieOfChan c) = false)
    (hmay : (profileMet s p c n data).mayRwc p (dieOfChan c) .brx = true) :
    let v := profileMet s p c n data
    let w := profileWord s p c n data
    s.writeProfile p c n data =
      if (fldOf .brxPrfCfgValid w ≠ 0 ∧ profileWordOk v c n w = false) ∨ (w ≠ s.reg .brxPrfCfg (prfInst c n) ∧ v.profileFree c n = false)
      then v.report .brxPrfReject c .brxPrfReject (dieOfChan c) c else v.setReg .brxPrfCfg (prfInst c n) w := by
  intro v w
  have hrefused : (!(decide (fldOf .brxPrfCfgValid w = 0) || !v.mayRwc p (dieOfChan c) .brx || profileWordOk v c n w)) = true ↔
      fldOf .brxPrfCfgValid w ≠ 0 ∧ profileWordOk v c n w = false := by
    rw [hmay]
    simp
  have hused : (!v.profileFree c n) = true ↔ v.profileFree c n = false := by rw [Bool.not_eq_true']
  rw [State.writeProfile, if_neg (Bool.eq_false_iff.1 hdie), if_neg (Bool.eq_false_iff.1 hown)]
  exact if_congr (or_congr hrefused (and_congr_right' hused)) rfl rfl

end

/-- Settles O18: each command by its operands' checks, then `onTree_ok` or `unlessClaimed_one`; the CFG write by `writeProfile_checked`. -/
theorem burstCommandsComplete : Obligations.BurstCommandsComplete := by
  refine ⟨?set, ?get, ?window, ?timeout, ?status, ?write⟩
  case set =>
    intro h chan index p s hready hchan hindex hfec hok hown hblock hfree i written
    have hgood : ¬ (127 < chan.toNat ∨ 3 < index.toNat ∨ (!flagOk p.fec) = true ∨ (!profileOk (s.xgs chan.toNat) p.rate.toNat p.pre.toNat
        p.preLen.toNat p.dlm.toNat p.dlmLen.toNat p.tol.toNat) = true) :=
      not_or.2 ⟨by omega, not_or.2 ⟨by omega, not_or.2 ⟨not_bnot_flagOk hfec, bnot_ne_true hok⟩⟩⟩
    exact completed_of hready ((if_neg hgood).trans (onTree_ok (s := s.start _) hown hblock (if_neg (bnot_ne_true hfree))))
  case get =>
    intro h chan index s hready hchan hindex
    exact completed_of hready (if_neg (by omega : ¬ (127 < chan.toNat ∨ 3 < index.toNat)))
  case window =>
    intro h chan win tol s hready hchan hwin hwin' htol htol' hown hblock
    have hgood : ¬ (127 < chan.toNat ∨ win.toNat < 16 ∨ 1023 < win.toNat ∨ tol.toNat < 1 ∨ 255 < tol.toNat) := by omega
    exact completed_of hready ((if_neg hgood).trans (onTree_ok (s := s.start _) hown hblock rfl))
  case timeout =>
    intro h timeout s hready hlow hhigh hblock
    have hgood : ¬ (timeout.toNat < 1 ∨ 255 < timeout.toNat) := by omega
    exact completed_of hready ((if_neg hgood).trans (unlessClaimed_one (s := s.start _) hblock))
  case status =>
    intro h chan s hready hchan
    exact completed_of hready (if_neg (by omega : ¬ 127 < chan.toNat))
  case write =>
    intro p c n data s i die m w f v pair ok hown hdie hmay
    have hwrite := congrArg (Host.Outcome.next (φ := Fault) (ρ := Refusal)) (writeProfile_checked hown hdie hmay)
    refine ⟨fun hok hfree => hwrite.trans (next_ite_neg ?_), fun hvalid hbad => hwrite.trans (next_ite_pos (.inl ⟨hvalid, hbad⟩)),
      fun hchanged hused => hwrite.trans (next_ite_pos (.inr ⟨hchanged, hused⟩))⟩
    have hpasses : ¬ (f .brxPrfCfgValid ≠ 0 ∧ ok = false) := fun ⟨hvalid, hbad⟩ => hok.elim hvalid (Bool.eq_false_iff.1 hbad)
    exact not_or.2 ⟨hpasses, fun ⟨_, hused⟩ => Bool.eq_false_iff.1 hused hfree⟩

end Sys2Proof

/-! The ONU commands (R204, R216, R221-R223, R227): each has its effect, mirrored where the tree is protected (R453), and answers where its
operands are in range and its blocks are unclaimed. -/

namespace Sys2Proof

open Machine

section
variable {s : State}

/-! ### What an offer to a channel leaves (R115) -/

theorem raiseOnceIn_leaves (frame : Nat) (e : Ev) (die inst cause : Nat) :
    (s.raiseOnceIn frame e die inst cause).pon = s.pon ∧ (s.raiseOnceIn frame e die inst cause).trees = s.trees := by
  unfold State.raiseOnceIn
  extract_lets k
  split
  · exact ⟨rfl, rfl⟩
  · exact ⟨raise_pon .., raise_trees ..⟩

theorem offer_leaves (c : Nat) (m : Ploam) : (s.offer c m).pon = s.pon ∧ (s.offer c m).trees = s.trees := by
  unfold State.offer
  extract_lets x u
  split
  · exact ⟨rfl, rfl⟩
  · obtain ⟨hpon, htrees⟩ := raiseOnceIn_leaves (s := u.drawn.count .pchPloamFull c) x.count .pchPloamFull (dieOfChan c) c c
    exact ⟨hpon.trans (count_pon ..), htrees.trans (count_trees ..)⟩

theorem setDisabled_onus (t : Nat) (l : List Nat) : (s.setDisabled t l).pon.onus = s.pon.onus := (rfl)

/-- R223: enabling a serial number of the list leaves the provisioned ONUs. -/
theorem enableSerial_onus (t serial : Nat) : (s.enableSerial t serial).pon.onus = s.pon.onus := by
  unfold State.enableSerial
  split
  · rw [setDisabled_onus]
    exact congrArg Pon.onus (foldl_keeps State.pon (fun _ _ => (offer_leaves ..).1) ..)
  · rfl

theorem bySerial_enableSerial (t serial t' serial' : Nat) :
    (s.enableSerial t serial).bySerial t' serial' = s.bySerial t' serial' := by
  simp only [State.bySerial, State.onusOf, enableSerial_onus]

/-! ### Identifiers and fences -/

/-- R217: identifiers that nothing holds or rests are free for an assignment. -/
theorem idFree_none {t : Nat} {ids : List (Nat × Nat)} {r : Res} (h : ∀ k ∈ ids, s.ident t k.1 k.2 = none) : s.idFree t ids r = r := by
  have hheld : ids.find? (fun k => (s.holder t k.1 k.2).isSome) = none :=
    List.find?_eq_none.2 fun k hk => by simp [State.holder, h k hk]
  have hrests : ids.find? (fun k => s.resting t k.1 k.2) = none :=
    List.find?_eq_none.2 fun k hk => by simp [State.resting, h k hk]
  rw [State.idFree, hheld, hrests]

/-- R221: with no fence pending a command goes on. -/
theorem unlessFence_none {x : OnuSlot} {r : Res} (h : x.migration = none) : s.unlessFence x r = r := by
  rw [State.unlessFence, h]

/-- A command on a tree that is this device's, its blocks unclaimed, that answers OK is mirrored. -/
theorem onBlocks_ok {t : Nat} {blocks : List (Nat × Blk)} {r : Res} {u : State} {ws : List Word} (hown : s.treeBarred t = false)
    (hfree : s.unclaimed blocks = true) (hr : r = .ok u ws) : s.onTree t blocks r = .ok (u.mirror t) ws := by
  subst hr
  exact onTree_free hown (unclaimed_iff.1 hfree) rfl

/-- The activation block alone is unclaimed. -/
theorem unclaimed_act {t : Nat} (h : s.claimed (dieOfTree t) .act = false) : s.unclaimed (onuBlocks t [.act]) = true :=
  unclaimed_iff.2 (by simpa [onuBlocks] using h)

end

/-- Settles O13: each command by its operands' checks, then `onOnu_ok` of an ONU or `onBlocks_ok` of a tree. -/
theorem onuCommandsComplete : Obligations.OnuCommandsComplete := by
  refine ⟨?provision, ?activate, ?deactivate, ?release, ?disable, ?disableSerial, ?disableUnknown, ?enable, ?enableSerial, ?listed⟩
  case provision =>
    intro h onu tree wl onuId sHi sLo regId auto s hready honu htree hwl hid hreg hauto hprofile hown hfree hindex hserial hident halloc
      hport honus hallocs hports slot
    have hgood : ¬ (16383 < onu.toNat ∨ 31 < tree.toNat ∨ 3 < wl.toNat ∨ 1022 < onuId.toNat ∨ ¬ (regId.length = 0 ∨ regId.length = 9) ∨
        (!flagOk auto) = true ∨
        (!s.prfValid (4 * tree.toNat + wl.toNat) (s.fld .actChCfgSnPrf (4 * tree.toNat + wl.toNat))) = true) :=
      not_or.2 ⟨by omega, not_or.2 ⟨by omega, not_or.2 ⟨by omega, not_or.2 ⟨by omega, not_or.2 ⟨not_not.2 hreg,
        not_or.2 ⟨not_bnot_flagOk hauto, bnot_ne_true hprofile⟩⟩⟩⟩⟩⟩
    have hnew : ¬ ((s.onu onu.toNat).isSome = true ∨
        (s.onusOf tree.toNat).any (fun p => p.2.serial = serialOf sHi sLo) = true) := by simp [hindex, hserial]
    have hroom : ¬ ((!s.onuRoom tree.toNat) = true ∨ (!s.allocRoom tree.toNat) = true ∨ (!s.portRoom tree.toNat) = true) :=
      not_or.2 ⟨bnot_ne_true honus, not_or.2 ⟨bnot_ne_true hallocs, bnot_ne_true hports⟩⟩
    have hids : ∀ k ∈ [(0, onuId.toNat), (1, onuId.toNat), (2, onuId.toNat)],
        (s.start (callerOf h 0x0400)).ident tree.toNat k.1 k.2 = none := by simp [hident, halloc, hport]
    exact completed_of hready ((if_neg hgood).trans (onBlocks_ok (s := s.start _) hown hfree
      ((if_neg hnew).trans ((idFree_none hids).trans (if_neg hroom)))))
  case activate =>
    intro h onu x s hready honu hown hfree hphase hseen
    have hmay : ¬ (x.phase ≠ .provisioned ∨ x.seen.isNone = true) := by simp [hphase, Option.isSome_iff_ne_none.1 hseen]
    exact completed_of hready (onOnu_ok (s := s.start _) honu hown (unclaimed_act hfree) (if_neg hmay))
  case deactivate =>
    intro h onu x s hready honu hown hfree hfence hprovisioned hdisabled
    exact completed_of hready (onOnu_ok (s := s.start _) honu hown hfree
      ((unlessFence_none hfence).trans (if_neg (not_or.2 ⟨hprovisioned, hdisabled⟩))))
  case release =>
    intro h onu x s hready honu hown hfree hfence
    exact completed_of hready (onOnu_ok (s := s.start _) honu hown hfree (unlessFence_none hfence))
  case disable =>
    intro h onu tree sHi sLo x s hready hnamed honu hown hfree
    exact completed_of hready ((if_pos hnamed).trans (onOnu_ok (s := s.start _) honu hown hfree rfl))
  case disableSerial =>
    intro h tree sHi sLo o s hready htree hown hfree hserial
    refine completed_of hready ((if_neg (not_not.2 rfl)).trans ((if_neg (by omega : ¬ 31 < tree.toNat)).trans
      (onBlocks_ok (s := s.start _) hown hfree ?_)))
    have hfound : (s.start (callerOf h 0x0404)).bySerial tree.toNat (serialOf sHi sLo) = some o := hserial
    rw [hfound]
  case disableUnknown =>
    intro h tree sHi sLo s hready htree hown hfree hserial hnew hroom
    refine completed_of hready ((if_neg (not_not.2 rfl)).trans ((if_neg (by omega : ¬ 31 < tree.toNat)).trans
      (onBlocks_ok (s := s.start _) hown hfree ?_)))
    have hunknown : (s.start (callerOf h 0x0404)).bySerial tree.toNat (serialOf sHi sLo) = none := hserial
    rw [hunknown]
    exact (if_neg (Bool.eq_false_iff.1 hnew)).trans (if_neg (Nat.not_le.2 hroom))
  case enable =>
    intro h onu tree sHi sLo x s hready hnamed honu hown hfree
    exact completed_of hready ((if_pos hnamed).trans (onOnu_ok (s := s.start _) honu hown (unclaimed_act hfree) rfl))
  case enableSerial =>
    intro h tree sHi sLo s hready htree hown hfree
    refine completed_of hready ((if_neg (not_not.2 rfl)).trans ((if_neg (by omega : ¬ 31 < tree.toNat)).trans
      (onTree_ok (s := s.start _) hown hfree ?_)))
    extract_lets v
    have hfound : v.bySerial tree.toNat (serialOf sHi sLo) = s.bySerial tree.toNat (serialOf sHi sLo) := bySerial_enableSerial ..
    rw [hfound]
    cases s.bySerial tree.toNat (serialOf sHi sLo) <;> rfl
  case listed => intro t serial s hlisted; exact if_pos hlisted

end Sys2Proof

/-! The commands that move an ONU, set its ports, rekey it, report on it and hunt a rogue (R124, R201, R213, R217, R219, R225, R641), and the
tree's reach and discovery (R202, R208, R228). -/

namespace Sys2Proof

open Machine

section
variable {s : State}

/-! ### A move's frame and fence (R219): what is queued and mirrored leaves the tree's frames -/

theorem sendTandem_trees (o : Out) : (s.sendTandem o).trees = s.trees := by
  unfold State.sendTandem
  split <;> rfl

theorem tellItem_trees (t : Nat) (m : MirrorItem) : (s.tellItem t m).trees = s.trees := sendTandem_trees ..

theorem mirror_trees (t : Nat) : (s.mirror t).trees = s.trees := by
  unfold State.mirror
  split
  · exact foldl_keeps State.trees (fun _ _ => tellItem_trees ..) ..
  · rfl

theorem modOnu_trees (o : Nat) (f : OnuSlot → OnuSlot) : (s.modOnu o f).trees = s.trees := by
  unfold State.modOnu
  split
  · rfl
  · extract_lets u
    split
    · rfl
    · exact mirror_trees ..

theorem frameTime_congr {u : State} (h : u.trees = s.trees) (t n : Nat) : u.frameTime t n = s.frameTime t n := by
  simp only [State.frameTime, State.tree, h]

/-- R219: a move within the device is announced by Tuning_Control and answered with its fence and frame. -/
theorem migrate_within (o : Nat) (x : OnuSlot) (c e : Nat) :
    let m := s.nextFrame x.tree
    let span := s.tEq x.tree + 1000
    let k0 := (s.framesTo x.tree m).toNat + ceilDiv (span + 1000 * s.fld .gntTreeCfgCutoff x.tree) 125000
    let kf := (s.treeCount x.tree + (if e = 0 then k0 else max k0 (s.framesTo x.tree e).toNat)) % 2 ^ 51
    s.migrate o x (some c) e = .ok ((s.offer x.chan ⟨.tuningControl, some x.onuId, [c, kf]⟩).modOnu o (fun y =>
      { y with migration := some ⟨some c, m, s.frameElapsed x.tree m + nsSpan span, kf, false⟩ }))
      (timeWords (s.frameTime x.tree m + nsSpan span) ++ wordsOf 64 kf) := by
  intro m span k0 kf
  unfold State.migrate
  extract_lets t m' span' k k0' e' kf' fence msg u v
  have htrees : v.trees = s.trees := (modOnu_trees ..).trans (offer_leaves ..).2
  rw [frameTime_congr htrees]

/-! ### Ports -/

/-- R124: the operands of ONU.PORT_SET are in range. -/
theorem portSet_good {port kind dir : Word} (hport : port.toNat < 65535) (hkind : kind.toNat < 3) (hdir : dir.toNat < 3)
    (hpair : ¬ (kind = 2 ∧ dir ≠ 0)) : ¬ (65534 < port.toNat ∨ 2 < kind.toNat ∨ 2 < dir.toNat ∨ (kind = 2 ∧ dir ≠ 0)) :=
  not_or.2 ⟨by omega, not_or.2 ⟨by omega, not_or.2 ⟨by omega, hpair⟩⟩⟩

/-- R217: the operands of ONU.ID_QUERY are in range. -/
theorem idQuery_good {tree kind value : Word} (htree : tree.toNat < 32) (hkind : kind.toNat < 3)
    (hvalue : value.toNat ≤ (if kind = 0 then 1022 else if kind = 1 then 16383 else 65534)) :
    ¬ (31 < tree.toNat ∨ 2 < kind.toNat ∨ (if kind = 0 then 1022 else if kind = 1 then 16383 else 65534) < value.toNat) :=
  not_or.2 ⟨by omega, not_or.2 ⟨by omega, Nat.not_lt.2 hvalue⟩⟩

end

/-- Settles O14: each command by its operands' checks, then `onOnu_ok` of an ONU or `onTree_free` of a tree; a move by `migrate_within`. -/
theorem onuServiceCommandsComplete : Obligations.OnuServiceCommandsComplete := by
  refine ⟨?migrate, ?portNew, ?portChange, ?portClear, ?rekey, ?status, ?bound, ?free, ?resting, ?rogue, ?reach, ?sn, ?discovered⟩
  case migrate =>
    intro h onu target sHi sLo x s hready honu hown hfree htarget hother htree hfence hphase hlaunched hpending hskein e m span k0 kf
    have hinside : ¬ target = 0xFFFFFFFF := fun hall => absurd (hall ▸ htarget) (by decide)
    have hgood : ¬ ((target = 0xFFFFFFFF ∧ (!s.protected x.tree) = true) ∨
        (¬ target = 0xFFFFFFFF ∧ (127 < target.toNat ∨ target.toNat = x.chan ∨ treeOfChan target.toNat ≠ x.tree))) :=
      not_or.2 ⟨fun hpair => hinside hpair.1, fun ⟨_, hbad⟩ => hbad.elim (by omega) (fun hbad => hbad.elim hother (· htree))⟩
    have hmay : ¬ (x.phase ≠ .operation ∨ (!s.launched x.tree) = true ∨ s.launchPending x.tree = true ∨ s.skeinOnus.has onu.toNat = true) :=
      not_or.2 ⟨not_not.2 hphase, not_or.2 ⟨bnot_ne_true hlaunched, not_or.2 ⟨Bool.eq_false_iff.1 hpending, Bool.eq_false_iff.1 hskein⟩⟩⟩
    have hmoved := migrate_within (s := s.start (callerOf h 0x0406)) onu.toNat x target.toNat e
    refine completed_of hready (onOnu_ok (s := s.start _) honu hown (unclaimed_act hfree)
      ((if_neg hgood).trans ((unlessFence_none hfence).trans ((if_neg hmay).trans ?_))))
    rw [if_neg hinside]
    exact hmoved
  case portNew =>
    intro h onu port kind dir x s hready honu hown hfree hport hkind hdir hpair hident hroom
    refine completed_of hready (onOnu_ok (s := s.start _) honu hown hfree ((if_neg (portSet_good hport hkind hdir hpair)).trans ?_))
    simp only [start_ident, hident]
    exact if_neg (bnot_ne_true hroom)
  case portChange =>
    intro h onu port kind dir x s hready honu hown hfree hport hkind hdir hpair hident hother
    refine completed_of hready (onOnu_ok (s := s.start _) honu hown hfree ((if_neg (portSet_good hport hkind hdir hpair)).trans ?_))
    simp only [start_ident, hident]
    exact (if_neg (not_or.2 ⟨not_not.2 rfl, hother⟩)).trans res_ok_ite
  case portClear =>
    intro h onu port x s hready honu hown hfree hport hother hrests hholds
    have hgood : ¬ (65534 < port.toNat ∨ port.toNat = x.onuId) := not_or.2 ⟨by omega, hother⟩
    exact completed_of hready (onOnu_ok (s := s.start _) honu hown hfree
      ((if_neg hgood).trans ((if_neg (Bool.eq_false_iff.1 hrests)).trans (if_neg (not_not.2 hholds)))))
  case rekey =>
    intro h onu x s hready honu hown hfree hkek hphase hrekey hswitch hroom
    have hmay : ¬ (x.phase ≠ .operation ∨ x.rekey.isSome = true ∨ x.keySwitch.isSome = true ∨
        (s.start (callerOf h 0x0409)).asyncFull = true) := by simp [hphase, hrekey, hswitch, hroom]
    refine completed_of hready ((onOnu_provisioned (s := s.start _) honu).trans
      ((congrArg _ ((if_neg hmay).trans (if_neg (Bool.eq_false_iff.1 hkek)))).trans
        (onTree_free (s := s.start _) hown (unclaimed_iff.1 (unclaimed_act hfree)) rfl)))
  case status =>
    intro h onu x s hready hindex honu
    refine completed_of hready ((if_neg (by omega : ¬ 16383 < onu.toNat)).trans ?_)
    simp only [start_onu, honu]
    rfl
  case bound =>
    intro h tree kind value o s hready htree hkind hvalue hident
    refine completed_of hready ((if_neg (idQuery_good htree hkind hvalue)).trans ?_)
    simp only [start_ident, hident]
    rfl
  case free =>
    intro h tree kind value s hready htree hkind hvalue hident
    refine completed_of hready ((if_neg (idQuery_good htree hkind hvalue)).trans ?_)
    simp only [start_ident, hident]
    rfl
  case resting =>
    intro h tree kind value t s hready htree hkind hvalue hident
    refine completed_of hready ((if_neg (idQuery_good htree hkind hvalue)).trans ?_)
    simp only [start_ident, hident]
    rfl
  case rogue =>
    intro h chan onus s hready hchan hlength honus hown hfree hidle hroom
    have hgood : ¬ (127 < chan.toNat ∨ 64 < onus.length ∨ onus.any (fun o => (s.onu o.toNat).isNone) = true) :=
      not_or.2 ⟨by omega, not_or.2 ⟨by omega, Bool.eq_false_iff.1 honus⟩⟩
    have hmay : ¬ (s.pon.scans.has chan.toNat = true ∨ (s.start (callerOf h 0x040C)).asyncFull = true) :=
      not_or.2 ⟨Bool.eq_false_iff.1 hidle, Bool.eq_false_iff.1 hroom⟩
    exact completed_of hready ((if_neg hgood).trans ((congrArg _ (if_neg hmay)).trans
      (onTree_free (s := s.start _) hown (unclaimed_iff.1 hfree) rfl)))
  case reach =>
    intro h tree minReach maxReach rdr lobThr regTo keyTo lostMs s hready htree hmax hmin hrdr hlob hlob' hreg hreg' hkey hkey' hlost hlost'
      hown hfree hdark hidle reachSet
    have hgood : ¬ (31 < tree.toNat ∨ 400 < maxReach.toNat ∨ maxReach.toNat < minReach.toNat ∨ 255 < rdr.toNat ∨
        (!decide (1 ≤ lobThr.toNat ∧ lobThr.toNat ≤ 15)) = true ∨ (!decide (1 ≤ regTo.toNat ∧ regTo.toNat ≤ 255)) = true ∨
        (!decide (1 ≤ keyTo.toNat ∧ keyTo.toNat ≤ 255)) = true ∨ (!decide (1 ≤ lostMs.toNat ∧ lostMs.toNat ≤ 65535)) = true) := by
      simp only [Bool.not_eq_true', decide_eq_false_iff_not]
      omega
    have hoff : ¬ (s.launched tree.toNat = true ∨ s.launchPending tree.toNat = true) := by simp [hdark, hidle]
    exact completed_of hready ((if_neg hgood).trans (onTree_ok (s := s.start _) hown hfree (if_neg hoff)))
  case sn =>
    intro h chan snEn snIvl profile rogueThr s hready hchan hen hivl hivl' hprofile hthr hvalid hown hfree
    have hgood : ¬ (127 < chan.toNat ∨ (!flagOk snEn) = true ∨ snIvl.toNat < 1 ∨ 65535 < snIvl.toNat ∨ 3 < profile.toNat ∨
        8 < rogueThr.toNat ∨ (!s.prfValid chan.toNat profile.toNat) = true) :=
      not_or.2 ⟨by omega, not_or.2 ⟨not_bnot_flagOk hen, not_or.2 ⟨by omega, not_or.2 ⟨by omega, not_or.2 ⟨by omega,
        not_or.2 ⟨by omega, bnot_ne_true hvalid⟩⟩⟩⟩⟩⟩
    exact completed_of hready ((if_neg hgood).trans (onTree_ok (s := s.start _) hown hfree rfl))
  case discovered =>
    intro h tree s hready htree hown
    exact completed_of hready ((if_neg (by omega : ¬ 31 < tree.toNat)).trans (onTree_free (s := s.start _) hown rfl rfl))

end Sys2Proof

/-! What the activation engine does by itself: the rogue hunt, quiet windows, responses, ranging, registration, timeouts, rests and migrations
(R204, R206, R208, R210, R212, R213, R215, R216, R220, R224, R225). -/

namespace Sys2Proof

open Machine

section
variable {s : State}

/-! ### Rogue frames (R224) -/

/-- R224: the rogue frames noted of a channel, newest first, and whether the event stands. -/
def Machine.State.noteRogue (s : State) (c : Nat) (hist : List Bool) (stands : Bool) : State :=
  { s with pon := { s.pon with rogue := s.pon.rogue.put c (hist, stands) } }

/-- R224: what a frame of a channel with no scan counts, raises and notes. -/
theorem rogueFrameEval_unscanned {c : Chan} {lit : BitVec 16} (hscan : s.pon.scans.find c.toNat = none) :
    let past := Tbl.getD s.pon.rogue c.toNat ([], false)
    let bad := decide (64 ≤ lit.toNat)
    let hist := (bad :: past.1).take 8
    let reached := s.fld .actChCfgRogueThr c.toNat != 0 && s.fld .actChCfgRogueThr c.toNat ≤ hist.count true
    let u := if bad then s.count .actRogueIdle c.toNat else s
    let v := if reached && !past.2 then u.raise .actRogue (dieOfChan c.toNat) c.toNat else u
    exec (.rogueFrameEval c lit) s = .next (v.noteRogue c.toNat hist (reached || (past.2 && hist.count true != 0))) := by
  intro past bad hist reached u v
  have hpon : u.pon = s.pon := by
    simp only [u]
    split
    · exact count_pon ..
    · rfl
  show execRogueFrameEval c lit s = _
  unfold execRogueFrameEval
  dsimp -zeta only
  extract_lets n hist' thr reached' u' src w v'
  have hw : w = u := by
    have hnone : u'.pon.scans.find n = none := (congrArg (fun p : Pon => p.scans.find n) hpon).trans hscan
    simp only [w, hnone]
    rfl
  have hv : v' = v := by
    simp only [v', hw]
    rfl
  exact congrArg (fun v : State => Host.Outcome.next (v.noteRogue n hist' (reached' || (past.2 && hist'.count true != 0)))) hv

/-- R224: a frame whose signal outside bursts stays below 64 quanta, no threshold set. -/
theorem rogueFrameEval_quiet {c : Chan} {lit : BitVec 16} (hscan : s.pon.scans.find c.toNat = none) (hlit : lit.toNat < 64)
    (hstands : (Tbl.getD s.pon.rogue c.toNat ([], false)).2 = false) (hthr : s.fld .actChCfgRogueThr c.toNat = 0) :
    exec (.rogueFrameEval c lit) s =
      .next (s.noteRogue c.toNat ((false :: (Tbl.getD s.pon.rogue c.toNat ([], false)).1).take 8) false) := by
  rw [rogueFrameEval_unscanned hscan, decide_eq_false (Nat.not_le.2 hlit), hstands, hthr]
  rfl

/-- R224: the rogue frame that brings the last eight to the threshold. -/
theorem rogueFrameEval_reached {c : Chan} {lit : BitVec 16} (hscan : s.pon.scans.find c.toNat = none) (hlit : 64 ≤ lit.toNat)
    (hstands : (Tbl.getD s.pon.rogue c.toNat ([], false)).2 = false) (hthr : 0 < s.fld .actChCfgRogueThr c.toNat)
    (hcount : s.fld .actChCfgRogueThr c.toNat ≤ ((true :: (Tbl.getD s.pon.rogue c.toNat ([], false)).1).take 8).count true) :
    exec (.rogueFrameEval c lit) s =
      .next (((s.count .actRogueIdle c.toNat).raise .actRogue (dieOfChan c.toNat) c.toNat).noteRogue c.toNat
        ((true :: (Tbl.getD s.pon.rogue c.toNat ([], false)).1).take 8) true) := by
  rw [rogueFrameEval_unscanned hscan, decide_eq_true hlit, hstands, bne_iff_ne.2 hthr.ne', decide_eq_true hcount]
  rfl

/-! ### Responses in a serial-number window (R208) -/

/-- R207, R208: a response is heard once the receiver's reset is set after it. -/
theorem snResponseRx_heard {c : Chan} {serial : BitVec 64} {arrival : BitVec 32} {good : Bool} {w : Window}
    (hwin : s.snWindow c.toNat = some w) (hsees : s.receives c.toNat = true) :
    let t := treeOfChan c.toNat
    let v := s.resetAfter c.toNat w arrival.toNat
    let x := (roundTrip (v.quanta c.toNat) w.start arrival.toNat).toNat
    exec (.snResponseRx c serial arrival good) s =
      if !good then .next (v.count .actSnGarble c.toNat)
      else if v.treeBarred t then .next v
      else .next (v.toActivation t (.snResponse c.toNat serial.toNat x w.frame) (fun s => s.snServed c.toNat serial.toNat x w.frame)) := by
  intro t v x
  show execSnResponseRx c serial arrival good s = _
  rw [execSnResponseRx]
  simp only [hwin]
  exact if_neg (bnot_ne_true hsees)

/-- R208: a good response on a tree that is this device's goes to the activation sequencer. -/
theorem snResponseRx_good {c : Chan} {serial : BitVec 64} {arrival : BitVec 32} {w : Window} (hwin : s.snWindow c.toNat = some w)
    (hsees : s.receives c.toNat = true) (hown : (s.resetAfter c.toNat w arrival.toNat).treeBarred (treeOfChan c.toNat) = false) :
    let t := treeOfChan c.toNat
    let v := s.resetAfter c.toNat w arrival.toNat
    let x := (roundTrip (v.quanta c.toNat) w.start arrival.toNat).toNat
    exec (.snResponseRx c serial arrival true) s =
      .next (v.toActivation t (.snResponse c.toNat serial.toNat x w.frame) (fun s => s.snServed c.toNat serial.toNat x w.frame)) :=
  (snResponseRx_heard hwin hsees).trans ((if_neg (by decide)).trans (if_neg (Bool.eq_false_iff.1 hown)))

/-- R208: a serial number that nothing provisions and no list disables is counted, raised and listed. -/
theorem snServed_unknown {c serial x frame : Nat} (henabled : (s.disabledList (treeOfChan c)).contains serial = false)
    (hserial : s.bySerial (treeOfChan c) serial = none) : s.snServed c serial x frame =
      ((s.count .actSnUnknown c).raise .actSnFound (dieOfTree (treeOfChan c)) c).discover (treeOfChan c) serial c x := by
  unfold State.snServed
  simp only [henabled, hserial]
  rfl

/-- R204, R208: a provisioned ONU's serial number is noted with its round trip, and activated where its flag has it so. -/
theorem snServed_provisioned {c serial x frame o : Nat} {y : OnuSlot}
    (henabled : (s.disabledList (treeOfChan c)).contains serial = false) (hserial : s.bySerial (treeOfChan c) serial = some o)
    (honu : s.onu o = some y) (hphase : y.phase = .provisioned) :
    let v := (s.report .actSnFound c .actSnFound (dieOfTree (treeOfChan c)) o).modOnu o (fun y => { y with seen := some (x, frame) })
    s.snServed c serial x frame = if y.auto then v.assign o else v := by
  intro v
  unfold State.snServed
  simp only [henabled, hserial, honu, hphase]
  rfl

/-! ### Ranging (R204, R210) -/

/-- R210: a burst of an ONU in its ranging window, its tree this device's. -/
theorem rangingBurstRx_measured {o : Onu} {arrival : BitVec 32} {x : OnuSlot} {w : Window} (honu : s.onu o.toNat = some x)
    (hwin : s.rangingWindow o.toNat = some w) (hphase : x.phase = .ranging) (hown : s.treeBarred x.tree = false)
    (hsees : s.receives x.chan = true) :
    let rt := roundTrip (s.quanta x.chan) w.start arrival.toNat
    exec (.rangingBurstRx o arrival) s = .next ((s.resetAfter x.chan w arrival.toNat).toActivation x.tree (.rangingBurst o.toNat rt)
      (fun s => s.rangingServed o.toNat rt)) := by
  have hmeets : ¬ (x.phase ≠ .ranging ∨ (!s.receives x.chan) = true) := not_or.2 ⟨not_not.2 hphase, bnot_ne_true hsees⟩
  show execRangingBurstRx o arrival s = _
  rw [execRangingBurstRx]
  simp only [honu, hwin]
  exact (if_neg hmeets).trans (if_neg (Bool.eq_false_iff.1 hown))

/-- R210: a round trip within reach sets the EqD, sends it and asks for registration. -/
theorem rangingServed_inReach {o : Nat} {rt : Int} {y : OnuSlot} (honu : s.onu o = some y) (hphase : y.phase = .ranging)
    (hlow : (s.rtd y.chan (s.fld .actTreeCfgMinReach y.tree) : Int) * 16 - 16000 ≤ rt)
    (hhigh : rt ≤ (s.rtd y.chan (s.fld .actTreeCfgMaxReach y.tree) : Int) * 16 + 16000) :
    let v := s.unbook o
    let eqd := unsignedOf 32 ((v.tEq y.tree : Int) * 16 - 560000 - rt)
    let w1 := v.offer y.chan ⟨.rangingTime, some y.onuId, [v.rangingUnits y.chan eqd]⟩
    let w2 := w1.offer y.chan ⟨.requestRegistration, some y.onuId, []⟩
    s.rangingServed o rt = w2.modOnu o (fun x => { x with phase := .registering, since := w2.elapsed, eqd := eqd, miss := 0 }) := by
  intro v eqd w1 w2
  unfold State.rangingServed
  simp only [honu]
  exact (if_neg (not_not.2 hphase)).trans (if_neg (not_or.2 ⟨Int.not_lt.2 hlow, Int.not_lt.2 hhigh⟩))

/-- R210: a round trip outside the tree's reach ends the activation. -/
theorem rangingServed_outside {o : Nat} {rt : Int} {y : OnuSlot} (honu : s.onu o = some y) (hphase : y.phase = .ranging)
    (hfar : rt < (s.rtd y.chan (s.fld .actTreeCfgMinReach y.tree) : Int) * 16 - 16000 ∨
      (s.rtd y.chan (s.fld .actTreeCfgMaxReach y.tree) : Int) * 16 + 16000 < rt) :
    s.rangingServed o rt = (s.unbook o).failOnu o .actReachBad .actReach := by
  unfold State.rangingServed
  simp only [honu]
  exact (if_neg (not_not.2 hphase)).trans (if_pos hfar)

/-! ### Registration (R212) -/

theorem registrationServed_registering {o : Nat} {regId : List Word} {x : OnuSlot} (honu : s.onu o = some x)
    (hphase : x.phase = .registering) (hown : s.treeBarred x.tree = false) :
    s.registrationServed o regId = if x.regId = none ∨ x.regId = some regId then
      (s.modOnu o (fun x => { x with phase := .keying, since := s.elapsed, keyFails := 0 })).askKey o
    else s.failOnu o .actRegBad .actRegBad := by
  unfold State.registrationServed
  simp only [honu]
  exact if_neg (not_or.2 ⟨not_not.2 hphase, Bool.eq_false_iff.1 hown⟩)

/-! ### Migration (R220) -/

/-- A change of an ONU's slot is what it makes of the slot the ONU has. -/
theorem modOnu_eq {o : Nat} {x : OnuSlot} {f : OnuSlot → OnuSlot} (honu : s.onu o = some x) : s.modOnu o f = s.modOnu o (fun _ => f x) := by
  simp only [State.modOnu, honu]

end

/-- Settles O15: each event by the guard of its row, what an activation sequencer serves by its own lemma. -/
theorem activationEventsComplete : Obligations.ActivationEventsComplete := by
  refine ⟨?scan, ?quiet, ?rogue, ?book, ?response, ?provisioned, ?garble, ?ranging, ?windowEnd, ?registration, ?regTimeout, ?keyTimeout,
    ?lost, ?rest, ?fence, ?fenceAway, ?moved⟩
  case scan =>
    intro c caller o n since rest done s hscan hover
    show execRogueScanStep c s = _
    rw [execRogueScanStep, hscan]
    exact next_ite_pos hover
  case quiet => intro c lit s hscan hlit hstands hthr; exact rogueFrameEval_quiet hscan hlit hstands hthr
  case rogue => intro hist c lit s hscan hlit hstands hthr hcount; exact rogueFrameEval_reached hscan hlit hstands hthr hcount
  case book =>
    intro c s hon hlaunched hdue t teq v
    have hgoes : ¬ ((!s.flag .actChCfgSnEn c.toNat) = true ∨ (!s.launched t) = true ∨ (!s.snDue c.toNat) = true) :=
      not_or.2 ⟨bnot_ne_true hon, not_or.2 ⟨bnot_ne_true hlaunched, bnot_ne_true hdue⟩⟩
    exact if_neg hgoes
  case response =>
    intro c serial arrival w s hwin hsees t v x hown
    have hheard := snResponseRx_good (serial := serial) hwin hsees hown
    refine ⟨fun hbusy => ?_, fun hidle henabled hserial => ?_⟩
    · exact hheard.trans (congrArg Host.Outcome.next (toActivation_busy hbusy))
    · exact hheard.trans (congrArg Host.Outcome.next ((toActivation_idle hidle).trans (snServed_unknown henabled hserial)))
  case provisioned =>
    intro c serial arrival w o y s hwin hsees t u hown hidle henabled hserial honu hphase v
    exact (snResponseRx_good hwin hsees hown).trans (congrArg Host.Outcome.next
      ((toActivation_idle hidle).trans (snServed_provisioned henabled hserial honu hphase)))
  case garble =>
    intro c serial arrival w s hwin hsees
    exact (snResponseRx_heard hwin hsees).trans (if_pos rfl)
  case ranging =>
    intro o arrival x w s honu hwin hphase hown hsees rt u
    have hmeasured := rangingBurstRx_measured (arrival := arrival) honu hwin hphase hown hsees
    refine ⟨fun hbusy => hmeasured.trans (congrArg Host.Outcome.next (toActivation_busy hbusy)), ?_⟩
    intro y hidle hslot hranging lo hi v eqd w1 w2
    refine ⟨fun hlow hhigh => ?_, fun hfar => ?_⟩
    · exact hmeasured.trans (congrArg Host.Outcome.next
        ((toActivation_idle hidle).trans (rangingServed_inReach hslot hranging hlow hhigh)))
    · exact hmeasured.trans (congrArg Host.Outcome.next ((toActivation_idle hidle).trans (rangingServed_outside hslot hranging hfar)))
  case windowEnd =>
    intro o x w s honu hwin hphase hown
    have hcloses : ¬ (x.phase ≠ .ranging ∨ s.treeBarred x.tree = true) := not_or.2 ⟨not_not.2 hphase, Bool.eq_false_iff.1 hown⟩
    show execRangingWindowEnd o s = _
    rw [execRangingWindowEnd]
    simp only [honu, hwin]
    exact (if_neg hcloses).trans (apply_ite Host.Outcome.next ..).symm
  case registration =>
    intro o regId x s honu hphase hown
    show execRegistrationReply o regId s = _
    rw [execRegistrationReply]
    simp only [honu]
    cases hidle : s.idleFor (dieOfTree x.tree) (x.tree % 8 / 4) with
    | false => rw [toActivation_busy hidle, if_pos rfl]
    | true => rw [toActivation_idle hidle, registrationServed_registering honu hphase hown, if_neg Bool.true_eq_false.mp]
  case regTimeout =>
    intro o x s honu hphase hown hover
    show execRegistrationTimeout o s = _
    rw [execRegistrationTimeout, honu]
    exact if_pos ⟨hphase, by rw [hown]; rfl, hover⟩
  case keyTimeout =>
    intro o x s honu hasked hown hover
    show execKeyTimeout o s = _
    rw [execKeyTimeout, honu]
    exact if_pos ⟨hasked, by rw [hown]; rfl, hover⟩
  case lost =>
    intro o x s honu hphase hown hover
    show execLostTimeout o s = _
    rw [execLostTimeout, honu]
    exact if_pos ⟨hphase, by rw [hown]; rfl, hover⟩
  case rest =>
    intro t kind value u s hident hover v
    have hrested : s.rested t.toNat kind.toNat value.toNat = true := by
      rw [State.rested, hident]
      exact decide_eq_true hover
    exact if_pos hrested
  case fence =>
    intro o x m c s honu hmove hnew hover htarget
    refine congrArg Host.Outcome.next ((modOnu_eq honu).trans ?_)
    simp only [hmove, htarget, if_neg (not_or.2 ⟨Bool.eq_false_iff.1 hnew, Nat.not_lt.2 hover⟩)]
  case fenceAway =>
    intro o x m s honu hmove hnew hover htarget
    refine congrArg Host.Outcome.next ((modOnu_eq honu).trans ?_)
    simp only [hmove, htarget, if_neg (not_or.2 ⟨Bool.eq_false_iff.1 hnew, Nat.not_lt.2 hover⟩)]
  case moved =>
    intro o x m s honu hmove hfenced hover
    refine congrArg Host.Outcome.next ((modOnu_eq honu).trans ?_)
    simp only [hmove, if_pos (And.intro hfenced hover)]

end Sys2Proof

/-! The SKEIN commands of members and of joining (R237-R240, R259): each has its effect, mirrored where the tree is protected (R453), and
answers where its operands are in range and its blocks are unclaimed; a join that ends answers the EqDs of its members. -/

namespace Sys2Proof

open Machine

section
variable {s : State}

/-- R237: the operands of SKEIN.FORM are in range, its members of one rate and of no other skein. -/
theorem skeinForm_good {tree k members skewMax holdKib : Word} {count : Nat} {rates taken : Prop} (htree : tree.toNat ≤ 31)
    (hk : k.toNat ≤ 1) (hmembers : members.toNat ≤ 15) (hcount : 2 ≤ count) (hskew : 1 ≤ skewMax.toNat) (hskew' : skewMax.toNat ≤ 250)
    (hhold : 1 ≤ holdKib.toNat) (hhold' : holdKib.toNat ≤ 65535) (hrates : ¬ rates) (htaken : ¬ taken) :
    ¬ (31 < tree.toNat ∨ 1 < k.toNat ∨ 15 < members.toNat ∨ count < 2 ∨ skewMax.toNat < 1 ∨ 250 < skewMax.toNat ∨ holdKib.toNat < 1 ∨
      65535 < holdKib.toNat ∨ rates ∨ taken) := by
  simp only [not_or, not_lt]
  exact ⟨htree, hk, hmembers, hcount, hskew, hskew', hhold, hhold', hrates, htaken⟩

/-- A command on a skein that is formed, its tree this device's and its block unclaimed, that answers OK is mirrored. -/
theorem onSkein_ok {k : Nat} {r : Res} {u : State} {ws : List Word} (hskein : k ≤ 63) (hvalid : s.flag .sknCfgValid k = true)
    (hown : s.treeBarred (k / 2) = false) (hfree : s.claimed (skeinDie k) .skn = false) (hr : r = .ok u ws) :
    s.onSkein k r = .ok (u.mirror (k / 2)) ws := by
  have hgood : ¬ (63 < k ∨ (!s.flag .sknCfgValid k) = true) := not_or.2 ⟨Nat.not_lt.2 hskein, bnot_ne_true hvalid⟩
  exact (if_neg hgood).trans (onTree_ok hown hfree hr)

/-- R238: a command on a provisioned ONU that is accepted, its reply to come, is mirrored to the ONU's tree. -/
theorem onOnu_accepted {o : Nat} {bs : List Blk} {body : OnuSlot → Res} {x : OnuSlot} {u : State} (honu : s.onu o = some x)
    (hown : s.treeBarred x.tree = false) (hfree : s.unclaimed (onuBlocks x.tree bs) = true) (hr : body x = .accepted u) :
    s.onOnu o body bs = .accepted (u.mirror x.tree) := by
  rw [onOnu_provisioned honu, hr]
  exact onTree_free hown (unclaimed_iff.1 hfree) rfl

end

section
variable (o : Nat) (x : OnuSlot) (j : SkeinOnu) (arrivals : List (BitVec 2 × BitVec 32)) (s : State)

/-- R238: the ranging of a member other than the anchor is still open: its window stands and it has not answered. -/
def stillRanging (d : Nat) : Bool :=
  (s.windows d).any (fun w => w.ranging = some o && !s.windowOver d w) && !arrivals.any (fun a => a.1.toNat = d % 4)

/-- R238: the end of a member's ranging: what it leaves of the state, and the EqDs with the member's where it answered within reach. -/
def memberRanged (acc : State × List (Nat × Nat)) (d : Nat) : State × List (Nat × Nat) :=
  let closed := acc.1.setWindows d ((acc.1.windows d).filter (fun w => w.ranging ≠ some o))
  match (acc.1.windows d).find? (fun w => w.ranging = some o), arrivals.find? (fun a => a.1.toNat = d % 4) with
  | some w, some a =>
    let rt := roundTrip (acc.1.quanta d) w.start a.2.toNat
    let eqd := unsignedOf 32 ((acc.1.tEq x.tree : Int) * 16 - 560000 - rt)
    if acc.1.withinReach d rt then (closed.sendEqd d x.onuId eqd, acc.2 ++ [(d % 4, eqd)])
    else (closed.report .sknRngFail j.skein .sknRngFail (dieOfTree x.tree) o, acc.2)
  | _, _ => (closed.report .sknRngFail j.skein .sknRngFail (dieOfTree x.tree) o, acc.2)

variable {o x j arrivals s} {d : Nat}

/-- R238, R210, R211: a member that answered has its EqD where its round trip is within reach, else it failed. -/
theorem memberRanged_answered {w : Window} {a : BitVec 2 × BitVec 32} {ms : List (Nat × Nat)}
    (hwin : (s.windows d).find? (fun w => w.ranging = some o) = some w) (harrival : arrivals.find? (fun a => a.1.toNat = d % 4) = some a) :
    let rt := roundTrip (s.quanta d) w.start a.2.toNat
    let eqd := unsignedOf 32 ((s.tEq x.tree : Int) * 16 - 560000 - rt)
    let fits := s.withinReach d rt
    let u := s.setWindows d ((s.windows d).filter (fun w => w.ranging ≠ some o))
    memberRanged o x j arrivals (s, ms) d =
      (if fits then u.sendEqd d x.onuId eqd else u.report .sknRngFail j.skein .sknRngFail (dieOfTree x.tree) o,
        if fits then ms ++ [(d % 4, eqd)] else ms) := by
  intro rt eqd fits u
  have hcases : memberRanged o x j arrivals (s, ms) d = if fits then (u.sendEqd d x.onuId eqd, ms ++ [(d % 4, eqd)])
      else (u.report .sknRngFail j.skein .sknRngFail (dieOfTree x.tree) o, ms) := by
    simp only [memberRanged, hwin, harrival]
    rfl
  rw [hcases]
  split <;> rfl

/-- R238: a member that did not answer failed. -/
theorem memberRanged_silent {ms : List (Nat × Nat)} (hnone : arrivals.find? (fun a => a.1.toNat = d % 4) = none) :
    memberRanged o x j arrivals (s, ms) d =
      ((s.setWindows d ((s.windows d).filter (fun w => w.ranging ≠ some o))).report .sknRngFail j.skein .sknRngFail (dieOfTree x.tree) o,
        ms) := by
  simp only [memberRanged, hnone]
  cases (s.windows d).find? (fun w => w.ranging = some o) <;> rfl

/-- R238: with the ranging of every member over a join ends and answers the EqDs. -/
theorem skeinJoinDone_ranged {onu : Onu} {c : Caller} {others : List Nat} {u : State} {ranged : List (Nat × Nat)}
    (honu : s.onu onu.toNat = some x) (hjoin : s.skeinOnus.find onu.toNat = some j) (hjoining : j.joining = some c)
    (hothers : (s.skeinChans j.skein).filter (fun d => d ≠ 4 * x.tree + j.anchor) = others)
    (hover : others.any (stillRanging onu.toNat arrivals s) = false)
    (hranged : others.foldl (memberRanged onu.toNat x j arrivals) (s, j.members) = (u, ranged)) :
    let ms : List (Nat × Nat) := sortOn Prod.fst ranged
    exec (.skeinJoinDone onu arrivals) s = .next
      ({ u with skeinOnus := u.skeinOnus.put onu.toNat { j with members := ms, joining := none } }.answer c .ok
        (ms.flatMap (fun (m : Nat × Nat) => [BitVec.ofNat 32 m.1, BitVec.ofNat 32 m.2]))) := by
  intro ms
  have hended : exec (.skeinJoinDone onu arrivals) s = if others.any (stillRanging onu.toNat arrivals s) then .next s else
      let r := others.foldl (memberRanged onu.toNat x j arrivals) (s, j.members)
      .next ({ r.1 with skeinOnus := r.1.skeinOnus.put onu.toNat { j with members := sortOn Prod.fst r.2, joining := none } }.answer c .ok
        ((sortOn Prod.fst r.2).flatMap (fun (m : Nat × Nat) => [BitVec.ofNat 32 m.1, BitVec.ofNat 32 m.2]))) := by
    show execSkeinJoinDone onu arrivals s = _
    rw [execSkeinJoinDone]
    simp only [honu, hjoin, hjoining, hothers]
    rfl
  rw [hended, hover, hranged]
  rfl

end

/-- Settles O28: each command by its operands' checks, then `onSkein_ok`, `onTree_ok` or `onOnu_ok`; a join's end by what the ranging of its
members comes to. -/
theorem skeinCommandsComplete : Obligations.SkeinCommandsComplete := by
  refine ⟨?form, ?dissolve, ?join, ?leave, ?member, ?status, ?alone, ?answered, ?silent⟩
  case form =>
    intro h tree k members skewMax holdKib s hready htree hk hmembers htwo hskew hskew' hhold hhold' hrates hapart hown hfree hroom
      hvalid honus n
    have hmembersGood := skeinForm_good htree hk hmembers htwo hskew hskew' hhold hhold' (Bool.eq_false_iff.1 hrates)
      (Bool.eq_false_iff.1 hapart)
    exact completed_of hready ((if_neg hmembersGood).trans (onTree_ok (s := s.start _) hown hfree
      ((if_neg (bnot_ne_true hroom)).trans (if_neg (not_or.2 ⟨Bool.eq_false_iff.1 hvalid, Bool.eq_false_iff.1 honus⟩)))))
  case dissolve =>
    intro h skein s hready hskein hvalid hown hfree hunjoined
    exact completed_of hready (onSkein_ok (s := s.start _) hskein hvalid hown hfree (if_neg (Bool.eq_false_iff.1 hunjoined)))
  case join =>
    intro h onu skein x s hready honu hown hfree hskein hvalid hchan hphase hfence hnew hlaunched hroom rt booked
    have hgood : ¬ (63 < skein.toNat ∨ (!s.flag .sknCfgValid skein.toNat) = true ∨ ¬ (s.skeinChans skein.toNat).contains x.chan = true) :=
      not_or.2 ⟨Nat.not_lt.2 hskein, not_or.2 ⟨bnot_ne_true hvalid, not_not.2 hchan⟩⟩
    have hmay : ¬ (x.phase ≠ .operation ∨ x.migration.isSome = true ∨ s.skeinOnus.has onu.toNat = true ∨ (!s.launched x.tree) = true ∨
        (s.start (callerOf h 0x0602)).asyncFull = true) := by simp [hphase, hfence, hnew, hlaunched, hroom]
    exact completed_of hready (onOnu_accepted (s := s.start _) honu hown hfree ((if_neg hgood).trans (if_neg hmay)))
  case leave =>
    intro h onu j x s hready honu hown hfree hjoin hjoined
    refine completed_of hready (onOnu_ok (s := s.start _) honu hown hfree ?_)
    have hfind : (s.start (callerOf h 0x0603)).skeinOnus.find onu.toNat = some j := hjoin
    simp only [hfind, hjoined]
    rfl
  case member =>
    intro h onu allocId member j k r x s hready honu hown hfree hjoin hrec howner hranged hprofile hadmits
    have hgood : ¬ (r.onu ≠ onu.toNat ∨ (!j.members.any (fun m => m.1 = member.toNat)) = true ∨
        (!s.prfValid (4 * x.tree + member.toNat) r.profile) = true) :=
      not_or.2 ⟨not_not.2 howner, not_or.2 ⟨bnot_ne_true hranged, bnot_ne_true hprofile⟩⟩
    have hfind : (s.start (callerOf h 0x0604)).skeinOnus.find onu.toNat = some j := hjoin
    refine completed_of hready (onOnu_ok (s := s.start _) honu hown hfree ?_)
    simp only [hfind, start_recOf, hrec]
    exact (if_neg hgood).trans (if_neg (bnot_ne_true hadmits))
  case status =>
    intro h skein s hready hskein k
    exact completed_of hready (if_neg (Nat.not_lt.2 hskein))
  case alone =>
    intro onu arrivals x j c s honu hjoin hjoining hothers ms
    exact skeinJoinDone_ranged honu hjoin hjoining hothers rfl rfl
  case answered =>
    intro onu arrivals x j c d w a s honu hjoin hjoining hothers hwin harrival rt eqd fits ms u v
    have hmember := List.find?_some (p := fun (a : BitVec 2 × BitVec 32) => decide (a.1.toNat = d % 4)) harrival
    have hheard : arrivals.any (fun a => a.1.toNat = d % 4) = true := List.any_eq_true.2 ⟨a, List.mem_of_find?_eq_some harrival, hmember⟩
    refine skeinJoinDone_ranged honu hjoin hjoining hothers ?_ (memberRanged_answered hwin harrival)
    simp [stillRanging, hheard]
  case silent =>
    intro onu x j c d s honu hjoin hjoining hothers hover ms v
    refine skeinJoinDone_ranged honu hjoin hjoining hothers ?_ (memberRanged_silent rfl)
    simp [stillRanging, hover]

end Sys2Proof

/-! The SKEIN commands of tributaries (R247, R250-R255, R257, R259), what skeins and tributaries do by themselves (R243, R253, R256, R257) and
the expert commit of a tributary (R260). -/

namespace Sys2Proof

open Machine

section
variable {s : State}

/-- R250, R252: the kind of pseudowire that more than 5,625 bits a frame ask for. -/
theorem cadence_fits {cadence : Bool} {nd : Nat} (h : cadence = decide (5625 < nd)) : ¬ cadence = decide (nd ≤ 5625) := by
  rw [h, decide_eq_decide]
  omega

/-- R252: the payload size that the kind of pseudowire allows. -/
theorem pwPayloadOk_of {kind : Word} {payload : Nat}
    (h : if kind = 1 then 1 ≤ payload ∧ payload ≤ 8192 else 32 ≤ payload ∧ payload ≤ 1440) : pwPayloadOk (kind = 1) payload = true := by
  by_cases hkind : kind = 1 <;> simpa [pwPayloadOk, hkind] using h

/-- R253: no packet is missing before the one that is awaited. -/
theorem seqStep_self (n : Nat) : signedOf 16 ((n + 2 ^ 16 - n) % 2 ^ 16) = 0 := by
  rw [Nat.add_sub_cancel_left, Nat.mod_self]
  rfl

/-- R253: a packet in sequence joins the playout at its instant, or late at once as filler, counted. -/
theorem pseudowireRx_inSequence {trib : BitVec 10} {seq : BitVec 16} {stamp : Word} {bytes : BitVec 14} {l : Bool} {x : Trib}
    (hbound : s.tribs.find trib.toNat = some x) (hseq : x.seqRx = some seq.toNat) (hinbox : x.inbox.isEmpty = false) :
    let ahead := (signedOf 32 ((stamp.toNat + 2 ^ 32 - shortOf (s.nowOn (2 + trib.toNat / 256))) % 2 ^ 32) + x.playout : Int)
    ∀ (late : Bool) (at_ : Nat), decide (ahead < 0) = late → (if late then s.elapsed else (s.elapsed + ahead * nsUnit).toNat) = at_ →
    let u := s.setTrib trib.toNat { x with
      seqRx := some ((seq.toNat + 1) % 2 ^ 16), csf := l, inbox := x.inbox.tail, lossRx := late
      plays := x.plays ++ [⟨at_, 8 * bytes.toNat, late⟩] }
    exec (.pseudowireRx trib seq stamp bytes l) s = .next (if late then (u.count .cadPwLate trib.toNat).pwEvent trib.toNat else u) := by
  intro ahead late at_ hlate hat u
  show execPseudowireRx trib seq stamp bytes l s = _
  unfold execPseudowireRx
  extract_lets i bits
  rw [hbound]
  dsimp -zeta only
  rw [if_neg (Bool.eq_false_iff.1 hinbox)]
  extract_lets ahead' missing instant late' plays v w
  have hlate' : late' = late := hlate
  have hmissing : missing = 0 := by
    simp only [missing, hseq, seqStep_self]
    rfl
  have hplays : plays = x.plays ++ [⟨at_, bits, late⟩] := by
    simp only [plays, if_pos hmissing, List.append_nil, hlate', ← hat]
    rfl
  have hw : w = u := by
    simp only [w, if_pos hmissing, v, hplays, hlate', hmissing, bne_self_eq_false, Bool.or_false]
    rfl
  rw [hlate', hw]

end

/-- Settles O29: each command by its operands' checks, then `onTree_ok` or `unlessClaimed_one`; each event by the guard of its row. -/
theorem tributaryCommandsComplete : Obligations.TributaryCommandsComplete := by
  refine ⟨?set, ?clear, ?status, ?dln, ?gap, ?lost, ?inTime, ?late, ?playout, ?commitClear, ?commitWrite⟩
  case set =>
    intro h trib onu port carrier allocIds w x kk ws s hready honu hcarrier htrib hdie hport hkind hlength hmembers hnumbers hpw hudp
      hcadence hpayload hplay hplay' hcarried hown hfree hunbound hseg hroom
    have hstart : (s.start (callerOf h 0x0606)).carrierMembers onu.toNat carrier = some (kk, ws) := hcarrier
    refine completed_of hready ?_
    simp only [start_onu, honu, hstart]
    refine (if_neg ?_).trans (onTree_ok (s := s.start _) hown (hdie ▸ hfree)
      ((if_neg (Bool.eq_false_iff.1 hunbound)).trans (if_neg (not_or.2 ⟨bnot_ne_true hseg, bnot_ne_true hroom⟩))))
    simp only [not_or, not_lt]
    exact ⟨htrib, not_not.2 hdie, not_not.2 hport, fun ⟨hno0, hno1⟩ => hkind.elim hno0 hno1, not_not.2 hlength, bnot_ne_true hmembers,
      bnot_ne_true hnumbers, hpw, hudp, cadence_fits hcadence, bnot_ne_true (pwPayloadOk_of hpayload), hplay, hplay',
      bnot_ne_true hcarried⟩
  case clear =>
    intro h trib x y s hready htrib hbound honu hown hfree
    have hfind : (s.start (callerOf h 0x0607)).tribs.find trib.toNat = some x := hbound
    refine completed_of hready ((if_neg (Nat.not_lt.2 htrib)).trans ?_)
    simp only [hfind, Option.bind_some, start_onu, honu, Option.map_some]
    exact onTree_ok (s := s.start _) hown hfree rfl
  case status =>
    intro h trib s hready htrib
    exact completed_of hready (if_neg (Nat.not_lt.2 htrib))
  case dln =>
    intro h trib delta alpha s hready htrib hdlow hdhigh halow hahigh hfree
    have hgood : ¬ (1023 < trib.toNat ∨ delta.toNat < 1 ∨ 7 < delta.toNat ∨ alpha.toNat < 1 ∨ 15 < alpha.toNat) := by omega
    exact completed_of hready ((if_neg hgood).trans (unlessClaimed_one (s := s.start _) hfree))
  case gap =>
    intro onu j x s hjoin hlowest hwaited gap v
    show execSkeinGapExpiry onu s = _
    rw [execSkeinGapExpiry]
    simp only [hjoin, hlowest]
    exact if_neg (Nat.not_lt.2 hwaited)
  case lost =>
    intro trib mfi x s hbound hdue v w y
    show execContainerLost trib mfi s = _
    rw [execContainerLost]
    simp only [hbound]
    exact if_neg (bnot_ne_true hdue)
  case inTime =>
    intro trib seq stamp bytes l x s hbound hseq hinbox ahead hahead
    exact pseudowireRx_inSequence hbound hseq hinbox false _ (decide_eq_false (not_lt.2 hahead)) (if_neg Bool.false_ne_true)
  case late =>
    intro trib seq stamp bytes l x s hbound hseq hinbox hahead
    exact pseudowireRx_inSequence hbound hseq hinbox true _ (decide_eq_true hahead) (if_pos rfl)
  case playout =>
    intro trib x p rest s hbound hplays hdue
    show execPlayout trib s = _
    rw [execPlayout]
    simp only [hbound, hplays]
    exact next_ite_pos hdue
  case commitClear =>
    intro p trib data x y s hbit hbound honu hown hvalid
    refine congrArg Host.Outcome.next ((if_neg (bnot_ne_true hbit)).trans ?_)
    simp only [hbound, honu, Option.map_some, Option.getD_some]
    exact (if_neg (Bool.eq_false_iff.1 hown)).trans (if_pos (by rw [decide_eq_false hvalid]; rfl))
  case commitWrite =>
    intro p trib data x y s die fld nd q ppm wl wh cadence hbit hbound honu hown hvalid hnumbers hcadence hroom hcarried hpayload
    refine congrArg Host.Outcome.next ((if_neg (bnot_ne_true hbit)).trans ?_)
    simp only [hbound, honu, Option.map_some, Option.getD_some]
    refine (if_neg (Bool.eq_false_iff.1 hown)).trans ((if_neg (bnot_ne_true (decide_eq_true hvalid))).trans (if_neg ?_))
    have hkind : ¬ (fld .cadTribCfgPw = 1) = (decide (nd ≤ 5625) = true) := fun heq =>
      cadence_fits hcadence (decide_eq_decide.2 ((iff_of_eq heq).trans (decide_eq_true_iff ..)))
    simp only [not_or]
    exact ⟨bnot_ne_true hnumbers, hkind, bnot_ne_true hroom, bnot_ne_true hcarried, bnot_ne_true hpayload⟩

end Sys2Proof

/-! A command on one half, or on both in turn (R320, R471), and what the commands on rules do on a half (R272, R276-R280). -/

namespace Sys2Proof

open Machine

/-- On the one half named, or on both in turn with both codes before their words, P holds of an effect and of the words of the reply, each half
fitting when its turn comes. -/
def AppliesOnHalves (h : Hdr) (u : State) (fits : Nat → State → Prop) (eff : Nat → State → State) (ws : Nat → State → List Word)
    (P : (State → State) → List Word → Prop) : Prop :=
  (h.die.toNat < 2 → fits h.die.toNat u → P (eff h.die.toNat) (ws h.die.toNat u)) ∧
  (h.die = 15 → fits 0 u → fits 1 (eff 0 u) → P (fun v => eff 1 (eff 0 v)) (0 :: 0 :: (ws 0 u ++ ws 1 (eff 0 u))))

section
variable {s : State} {h : Hdr} {op : Nat} {f : Nat → State → Res} {eff : Nat → State → State} {ws : Nat → State → List Word}
  {fits : Nat → State → Prop} {P : (State → State) → List Word → Prop}

/-- A body that has its effect on each half that fits, by what follows from its run on the halves named. -/
theorem appliesOnHalves_of (hbody : ∀ k u, fits k u → f k u = .ok (eff k u) (ws k u))
    (hrun : ∀ g vs, onHalves h f s = .ok (g s) vs → P g vs) : AppliesOnHalves h s fits eff ws P :=
  ⟨fun hone hfits => hrun _ _ ((onHalves_one hone).trans (hbody _ _ hfits)),
    fun hboth hfits0 hfits1 => hrun _ _ (onHalves_both hboth (hbody _ _ hfits0) (hbody _ _ hfits1))⟩

/-- Where every state fits. -/
theorem AppliesOnHalves.always (happly : AppliesOnHalves h s (fun _ _ => True) eff ws P) :
    (h.die.toNat < 2 → P (eff h.die.toNat) (ws h.die.toNat s)) ∧
      (h.die = 15 → P (fun v => eff 1 (eff 0 v)) (0 :: 0 :: (ws 0 s ++ ws 1 (eff 0 s)))) :=
  happly.imp (fun hone hdie => hone hdie trivial) (fun hboth hdie => hboth hdie trivial trivial)

/-- A command that comes to its work on the halves named completes with it. -/
theorem command_appliesOnHalves {rule : DieRule} {body : Caller → State → Res} (hready : s.ready h op rule = true)
    (hwork : body (callerOf h op) (s.start (callerOf h op)) = onHalves h f (s.start (callerOf h op)))
    (hbody : ∀ k u, fits k u → f k u = .ok (eff k u) (ws k u)) :
    AppliesOnHalves h (s.start (callerOf h op)) fits eff ws fun g vs =>
      Host.Outcome.next (command h op rule body s) = (completed h op s g vs : Host.Outcome State Fault Refusal) :=
  appliesOnHalves_of hbody fun _ _ hrun => completed_of hready (hwork.trans hrun)

section
variable {blk : Blk} {bad : State → Bool} {body : Caller → Nat → State → Res}

/-- So does a RULE command with good operands whose block is unclaimed on those halves. -/
theorem ruleCommand_appliesOnHalves (hready : s.ready h op ruleDies = true) (hgood : bad (s.start (callerOf h op)) = false)
    (hfree : ∀ d ∈ halvesOf h, s.claimed d blk = false) (hbody : ∀ k u, fits k u → body (callerOf h op) k u = .ok (eff k u) (ws k u)) :
    AppliesOnHalves h (s.start (callerOf h op)) fits eff ws fun g vs =>
      Host.Outcome.next (ruleCommand h op blk bad body s) = (completed h op s g vs : Host.Outcome State Fault Refusal) := by
  have hunclaimed : ((halvesOf h).map (fun d => (d, blk))).any (fun b => (s.start (callerOf h op)).claimed b.1 b.2) = false := by
    simpa using hfree
  exact command_appliesOnHalves hready ((if_neg (Bool.eq_false_iff.1 hgood)).trans (unlessClaimed_free hunclaimed)) hbody

/-- And a change of the tables that finds the port idle. -/
theorem tableCommand_appliesOnHalves {i : Instr} {span : Nat} (hready : s.ready h op ruleDies = true)
    (hgood : bad (s.start (callerOf h op)) = false) (hfree : ∀ d ∈ halvesOf h, s.claimed d blk = false)
    (hidle : (s.start (callerOf h op)).portIdle h span = true)
    (hbody : ∀ k u, fits k u → body (callerOf h op) k u = .ok (eff k u) (ws k u)) :
    AppliesOnHalves h ((s.start (callerOf h op)).wantPort (halvesOf h) span) fits eff ws fun g vs =>
      Host.Outcome.next (tableCommand i h op blk span bad body s) =
        (completed h op s (fun u => u.changed h span g) vs : Host.Outcome State Fault Refusal) :=
  appliesOnHalves_of hbody fun _ _ hrun => tableCommand_idle hready hgood hfree hidle hrun

end

/-! ### On one half -/

section
variable {c : Caller} {k t i : Nat}

/-- R280: in EPOCH mode no other path owns the staging. -/
theorem stagingFree {path : Nat} {p : Prop} (hfits : s.ruleEpoch k t = true → s.stagedByOther k path = false ∧ p) :
    ¬ (s.ruleEpoch k t = true ∧ s.stagedByOther k path = true) :=
  fun ⟨hepoch, hother⟩ => Bool.eq_false_iff.1 (hfits hepoch).1 hother

/-- R276: in EPOCH mode the slot is empty. -/
theorem slotFree (hempty : s.ruleEpoch k t = true → s.rule k t i = none) :
    ¬ (s.ruleEpoch k t = true ∧ (s.rule k t i).isSome = true) :=
  fun ⟨hepoch, hsome⟩ => by simp [hempty hepoch] at hsome

/-- R272: a table that is unused takes settings that fit the half's 64 blocks. -/
theorem setTable_fits {dir mode blocks : Nat}
    (hroom : (List.range 16).foldl (fun n j => if j = t then n else n + s.ruleBlocks k j) 0 + blocks ≤ 64) (hunused : s.ruleUsed k t = false) :
    s.setTable k t dir mode blocks = .ok (((s.setFld .rulTblCfgDir (k * 16 + t) dir).setFld .rulTblCfgMode (k * 16 + t) mode).setFld
      .rulTblCfgBlocks (k * 16 + t) blocks) :=
  (if_neg (Nat.not_lt.2 hroom)).trans (if_neg fun hused => Bool.eq_false_iff.1 hunused hused.1)

/-- R276: RULE.WRITE writes the slot it names or finds; in EPOCH mode only while the staging is the path's and the slot is empty. -/
theorem bodyRuleWrite_slot {table index pri act : Word} {value mask : List Word}
    (hslot : (if index = 0xFFFFFFFF then s.freeRule k table.toNat (s.ruleSlots k table.toNat) 0 else some index.toNat) = some i)
    (hfits : s.ruleEpoch k table.toNat = true → s.stagedByOther k (pathCode c.path) = false ∧ s.rule k table.toNat i = none) :
    bodyRuleWrite table index pri value mask act c k s = .ok (s.putRule k (pathCode c.path) table.toNat i
      ⟨pri.toNat, value, mask, act ||| 0x80000000, 0, 0, true, true, 0, false⟩) [BitVec.ofNat 32 i] := by
  simp only [bodyRuleWrite, hslot, if_neg (stagingFree hfits), if_neg (slotFree fun hepoch => (hfits hepoch).2)]

theorem bodyRuleDelete_ok {table index : Word}
    (hfits : s.ruleEpoch k table.toNat = true → s.stagedByOther k (pathCode c.path) = false) :
    bodyRuleDelete table index c k s = .ok (s.closeRule k (pathCode c.path) table.toNat index.toNat) :=
  if_neg (stagingFree fun hepoch => ⟨hfits hepoch, trivial⟩)

theorem bodyRuleCommit_bumps (hfits : s.stagedByOther k (pathCode c.path) = false ∧ s.commitBusy k = false) :
    bodyRuleCommit c k s = .ok (s.bump k) [BitVec.ofNat 32 ((s.bump k).cur k)] :=
  (if_neg (Bool.eq_false_iff.1 hfits.1)).trans (if_neg (Bool.eq_false_iff.1 hfits.2))

theorem bodyRuleCommit_busy (hown : s.stagedByOther k (pathCode c.path) = false) (hbusy : s.commitBusy k = true) :
    bodyRuleCommit c k s = .fail (s.refuseCommit k) .commitBusy :=
  (if_neg (Bool.eq_false_iff.1 hown)).trans (if_pos hbusy)

theorem bodyRuleAbort_ok (hown : s.stagedByOther k (pathCode c.path) = false) : bodyRuleAbort c k s = .ok (s.abort k) :=
  if_neg (Bool.eq_false_iff.1 hown)

end

end

end Sys2Proof

/-! The RULE commands on rules and versions (R272, R276-R280, R285): each by what it does on a half, where its operands are in range. -/

namespace Sys2Proof

open Machine

section
variable {s : State} {h : Hdr}

theorem slots_notBeyond {table index : Word} (hindex : ∀ d ∈ halvesOf h, index.toNat < s.ruleSlots d table.toNat) :
    (halvesOf h).any (fun d => decide (s.ruleSlots d table.toNat ≤ index.toNat)) = false := by
  simpa using hindex

/-- The checks of RULE.WRITE's operands but the index. -/
theorem ruleWrite_operands {table pri act : Word} {value mask : List Word} (htable : table.toNat < 16) (hpri : pri.toNat < 65536)
    (hvalue : value.length = 10) (hmask : mask.length = 10) (hcolour : fldOf .rulEntActColour act ≠ 3) (hact : act &&& 0x803C0000 = 0) :
    (decide (15 < table.toNat) || decide (65535 < pri.toNat) || value.length != 10 || mask.length != 10
      || decide (fldOf .rulEntActColour act = 3) || (act &&& 0x803C0000) != 0) = false := by
  have hact' : (act &&& 0x803C0000 != 0) = false := bne_eq_false_iff_eq.2 hact
  simp only [hact', hvalue, hmask, decide_eq_false hcolour, decide_eq_false (Nat.not_lt.2 (Nat.le_of_lt_succ htable)),
    decide_eq_false (Nat.not_lt.2 (Nat.le_of_lt_succ hpri))]
  rfl

end

/-- Settles O19: each command by its body on a half, then on the halves named by the lemma for commands of its kind. -/
theorem ruleCommandsComplete : Obligations.RuleCommandsComplete := by
  refine ⟨?tableSet, ?write, ?writeFree, ?delete, ?commit, ?abort, ?read, ?status⟩
  case tableSet =>
    intro h table dir mode blocks keys s hready htable hdir hmode hblocks hlength hkeys hfree eff fits
    refine ruleCommand_appliesOnHalves (eff := eff) (fits := fits) (ws := fun _ _ => []) hready ?_ hfree ?_
    · simp [hlength, hkeys, Nat.le_of_lt_succ htable, Nat.le_of_lt_succ hdir, Nat.le_of_lt_succ hmode, hblocks]
    · rintro k u ⟨hroom, hunused⟩
      simp only [setTable_fits hroom hunused]
      rfl
  case write =>
    intro h table index pri value mask act s hready htable hpri hvalue hmask hcolour hact hnamed hindex hfree hidle u0 eff fits
    refine tableCommand_appliesOnHalves (eff := eff) (fits := fits) (ws := fun _ _ => [index]) hready ?_ hfree hidle ?_
    · exact Bool.or_eq_false_iff.2 ⟨ruleWrite_operands htable hpri hvalue hmask hcolour hact,
        Bool.and_eq_false_iff.2 (.inr (slots_notBeyond (s := s.start _) hindex))⟩
    · intro k u hfits
      rw [bodyRuleWrite_slot (if_neg hnamed) hfits, BitVec.ofNat_toNat, BitVec.setWidth_eq]
      rfl
  case writeFree =>
    intro h table pri value mask act i s hready hone htable hpri hvalue hmask hcolour hact hfree hidle k u0 hslot hempty hown
    refine tableCommand_idle hready ?_ (by simpa [halvesOf_one hone] using hfree) hidle ?_
    · exact Bool.or_eq_false_iff.2 ⟨ruleWrite_operands htable hpri hvalue hmask hcolour hact, rfl⟩
    · exact (onHalves_one hone).trans (bodyRuleWrite_slot (c := callerOf h 0x0701) ((if_pos rfl).trans hslot)
        fun hepoch => ⟨hown hepoch, hempty⟩)
  case delete =>
    intro h table index s hready htable hindex hfree hidle u0 eff fits
    refine tableCommand_appliesOnHalves (eff := eff) (fits := fits) (ws := fun _ _ => []) hready ?_ hfree hidle
      fun k u hfits => bodyRuleDelete_ok hfits
    exact Bool.or_eq_false_iff.2 ⟨decide_eq_false (Nat.not_lt.2 (Nat.le_of_lt_succ htable)), slots_notBeyond (s := s.start _) hindex⟩
  case commit =>
    intro h s hready hfree hidle eff ws fits
    exact tableCommand_appliesOnHalves (eff := eff) (fits := fits) (ws := ws) hready rfl hfree hidle fun k u hfits => bodyRuleCommit_bumps hfits
  case abort =>
    intro h s hready hfree hidle eff fits
    exact tableCommand_appliesOnHalves (eff := eff) (fits := fits) (ws := fun _ _ => []) hready rfl hfree hidle
      fun k u hfits => bodyRuleAbort_ok hfits
  case read =>
    intro h table index s hready htable hindex ws
    have hgood : ¬ (15 < table.toNat ∨
        (halvesOf h).any (fun d => decide ((s.start (callerOf h 0x0705)).ruleSlots d table.toNat ≤ index.toNat)) = true) :=
      not_or.2 ⟨Nat.not_lt.2 (Nat.le_of_lt_succ htable), Bool.eq_false_iff.1 (slots_notBeyond (s := s.start _) hindex)⟩
    exact (command_appliesOnHalves (eff := fun _ u => u) (ws := ws) hready (if_neg hgood) fun k u _ => rfl).always
  case status =>
    intro h s hready ws
    exact (command_appliesOnHalves (eff := fun _ u => u) (ws := ws) hready rfl fun k u _ => rfl).always

end Sys2Proof

/-! The commands of the parser, of fragments and of spoof checks (R266, R268, R270, R283), the commits that waited, the tidying of versions and
the rule engine's registers (R278-R281, R286). -/

namespace Sys2Proof

open Machine

section
variable {s : State} {k : Nat} {p : APath}

/-- A change that takes no time on the port charges none. -/
theorem onPort_zero (r : Res) (halves : List Nat) : r.onPort halves 0 = r := by
  unfold Res.onPort
  split <;> rfl

/-- R279: a commit that waits alone on one half lands, and its caller gets the body's answer. -/
theorem commitBump_lands {half : BitVec 1} {c : Caller} {h : Hdr} {r : Res} (hdie : h.die.toNat = half.toNat)
    (hwaits : s.tableWaits = [⟨some c, [half.toNat], .ruleCommit h, none⟩])
    (hbody : bodyRuleCommit c half.toNat { s with tableWaits := [] } = r) :
    exec (.commitBump half) s = .next (r.st.answer c r.status r.words) := by
  have hlands : s.landWrites = State.landOne { s with tableWaits := [] } ⟨some c, [half.toNat], .ruleCommit h, none⟩ := by
    rw [State.landWrites, hwaits]
    rfl
  have hone : onHalves h (bodyRuleCommit c) { s with tableWaits := [] } = r :=
    (onHalves_one (hdie ▸ half.isLt)).trans (hdie ▸ hbody)
  refine congrArg Host.Outcome.next (hlands.trans ?_)
  simp only [State.landOne, tableBody, hone, onPort_zero]

/-- R284: an expert write within the table, the staging being its path's, is not refused. -/
theorem entAccepted {t n : Nat} (hslot : n < s.ruleSlots k t) (hown : s.stagedByOther k (apathCode p) = false) :
    ¬ (s.ruleSlots k t ≤ n ∨ (s.ruleEpoch k t = true ∧ s.stagedByOther k (apathCode p) = true)) :=
  not_or.2 ⟨Nat.not_le.2 hslot, stagingFree fun _ => ⟨hown, trivial⟩⟩

/-- R276: an expert write that removes its entry. -/
theorem rulEntNow_removes {t n : Nat} {e : RuleEnt} (hslot : n < s.ruleSlots k t) (hown : s.stagedByOther k (apathCode p) = false)
    (hinvalid : e.act.getLsbD 31 = false) :
    s.rulEntNow p k (t, n, e) = (s.closeRule k (apathCode p) t n).chargePort [k] accessSpan :=
  (if_neg (entAccepted hslot hown)).trans (if_neg (Bool.eq_false_iff.1 hinvalid))

/-- R276: an expert write that writes its entry into an empty slot. -/
theorem rulEntNow_writes {t n : Nat} {e : RuleEnt} (hslot : n < s.ruleSlots k t) (hown : s.stagedByOther k (apathCode p) = false)
    (hvalid : e.act.getLsbD 31 = true) (hempty : s.rule k t n = none) :
    s.rulEntNow p k (t, n, e) = (s.putRule k (apathCode p) t n e).chargePort [k] accessSpan :=
  (if_neg (entAccepted hslot hown)).trans ((if_pos hvalid).trans (if_neg (slotFree fun _ => hempty)))

/-- R35, R276: an expert entry write that finds the port free has its effect with what is staged. -/
theorem rulEntWr_now {half : BitVec 1} {data : Word} (hgo : data.getLsbD 0 = true)
    (hidle : (s.wantPort [half.toNat] accessSpan).tableBlocked [half.toNat] accessSpan = false) :
    exec (.rulEntWr p half data) s = .next ((s.wantPort [half.toNat] accessSpan).rulEntNow p half.toNat
      ((s.wantPort [half.toNat] accessSpan).stagedEnt p half.toNat)) :=
  congrArg Host.Outcome.next ((if_neg (bnot_ne_true hgo)).trans (if_neg (Bool.eq_false_iff.1 hidle)))

theorem writeRulCommit_now {data : Word} (hidle : s.tableBlocked [k] 0 = false) (hown : s.stagedByOther k (apathCode p) = false) :
    s.writeRulCommit p k data =
      let u := if data.getLsbD 0 then (if s.commitBusy k then s.refuseCommit k else s.bump k) else s
      if data.getLsbD 1 then u.abort k else u :=
  (if_neg (Bool.eq_false_iff.1 hidle)).trans (if_neg (Bool.eq_false_iff.1 hown))

end

/-- Settles O20: each command by its body on a half, a landed commit by `bodyRuleCommit`'s cases, each register by the checks of its write. -/
theorem ruleSettingsComplete : Obligations.RuleSettingsComplete := by
  refine ⟨?parseSet, ?headerSet, ?edgeSet, ?fragSet, ?spoofSet, ?commitBumps, ?commitBusy, ?tidy, ?entRemoves, ?entWrites, ?entWaits,
    fun p half s => rfl, ?commitReg, ?abortReg, fun half s => rfl⟩
  case parseSet =>
    intro h vxlan guess ptpUdp s hready hvxlan hguess hptp hfree eff
    refine (ruleCommand_appliesOnHalves (eff := eff) (ws := fun _ _ => []) hready ?_ hfree fun k u _ => rfl).always
    simp only [Bool.or_eq_false_iff, decide_eq_false_iff_not]
    omega
  case headerSet =>
    intro h typ w0 w1 w2 s hready hlow hhigh hwords hfree eff fits
    refine ruleCommand_appliesOnHalves (eff := eff) (fits := fits) (ws := fun _ _ => []) hready ?_ hfree fun k u hunused =>
      if_neg (Bool.eq_false_iff.1 hunused)
    simp only [hwords, Bool.not_true, Bool.or_false, Bool.or_eq_false_iff, decide_eq_false_iff_not]
    omega
  case edgeSet =>
    intro h edge src value mask dst enable s hready hedge henable hvalue hmask hknown hfree eff
    refine (ruleCommand_appliesOnHalves (eff := eff) (ws := fun _ _ => []) hready (Bool.or_eq_false_iff.2 ⟨?_, hknown⟩) hfree
      fun k u _ => rfl).always
    simp only [Bool.or_eq_false_iff, decide_eq_false_iff_not]
    omega
  case fragSet =>
    intro h life orphan s hready hlow hhigh horphan hfree eff
    refine (ruleCommand_appliesOnHalves (eff := eff) (ws := fun _ _ => []) hready ?_ hfree fun k u _ => rfl).always
    simp only [Bool.or_eq_false_iff, decide_eq_false_iff_not]
    omega
  case spoofSet =>
    intro h port mode s hready hport hmode hdie hpart hfree
    refine completed_of hready ((if_neg ?_).trans (unlessClaimed_one (s := s.start _) hfree))
    rintro (hbig | hwide | ⟨hone, hother⟩ | ⟨h064, hhalf⟩)
    · exact absurd hport (Nat.not_lt.2 hbig)
    · omega
    · exact hother (hdie hone)
    · exact absurd (hhalf.symm.trans (hpart h064)) one_ne_zero
  case commitBumps =>
    intro half c h s hdie hwaits hown hroom v
    exact commitBump_lands hdie hwaits (bodyRuleCommit_bumps (s := { s with tableWaits := [] }) ⟨hown, hroom⟩)
  case commitBusy =>
    intro half c h s hdie hwaits hown hbusy
    exact commitBump_lands hdie hwaits (bodyRuleCommit_busy (s := { s with tableWaits := [] }) hown hbusy)
  case tidy =>
    intro half s hheld hcarried hserved f o closed fresh tidy v
    have htidies : ¬ (s.oldest half.toNat = s.cur half.toNat ∨ (s.fwdOf half.toNat).inflightOf (s.oldest half.toNat) ≠ 0) :=
      not_or.2 ⟨hheld, not_not.2 hcarried⟩
    exact (if_neg htidies).trans (congrArg Host.Outcome.next (rationed_served hserved))
  case entRemoves =>
    intro p half data s hgo u x hidle hslot hown hinvalid
    exact (rulEntWr_now hgo hidle).trans (congrArg Host.Outcome.next (rulEntNow_removes hslot hown hinvalid))
  case entWrites =>
    intro p half data s hgo u x hidle hslot hown hvalid hempty
    exact (rulEntWr_now hgo hidle).trans (congrArg Host.Outcome.next (rulEntNow_writes hslot hown hvalid hempty))
  case entWaits =>
    intro p half data s hgo u hblocked
    refine congrArg Host.Outcome.next ((if_neg (bnot_ne_true hgo)).trans ((if_pos hblocked).trans ?_))
    rw [BitVec.ofNat_toNat, BitVec.setWidth_eq]
  case commitReg =>
    intro p half data s hidle hown hcommit habort
    refine congrArg Host.Outcome.next ((writeRulCommit_now hidle hown).trans ?_)
    simp only [hcommit, habort]
    rfl
  case abortReg =>
    intro p half data s hidle hown hcommit habort
    refine congrArg Host.Outcome.next ((writeRulCommit_now hidle hown).trans ?_)
    simp only [hcommit, habort]
    rfl

end Sys2Proof

/-! The TABLE commands of bridging, services and routes (R293-R299, R317, R320, R642): each by its body on a half, where its operands are in
range. -/

namespace Sys2Proof

open Machine

section
variable {s : State} {h : Hdr}

/-- A change that finds room answers OK. -/
theorem ofOpt_some {o : Option State} (hfits : o.isSome = true) : Res.ofOpt s o = .ok (o.getD s) := by
  obtain ⟨t, rfl⟩ := Option.isSome_iff_exists.1 hfits
  rfl

theorem start_unclaimedHalves {c : Caller} {blk : Blk} (hfree : ∀ d ∈ halvesOf h, s.claimed d blk = false) :
    ((halvesOf h).map (fun d => (d, blk))).any (fun b => (s.start c).claimed b.1 b.2) = false := by
  simpa using hfree

/-- R293, R642: the checks of TABLE.SVC_SET's operands. -/
theorem svcWords_good {w : SvcWords} (hkey : svcKeyOk w.dir w.source w.ovid w.ivid = true) (hmode : w.mode.toNat < 2)
    (hpolicer : w.policer = 0xFFFFFFFF ∨ w.policer.toNat < 131072) (hprog : w.prog.toNat < 4096) (hlearn : w.learn.toNat < 2)
    (hlimit : w.macLimit.toNat < 1048576) (hret : w.ret.toNat ≤ 0x3FFFD) (hbase : w.upBase.toNat < 65536)
    (htarget : if w.mode = 0 then destOk (w.target.toNat / 2 ^ 18) (w.target.toNat % 2 ^ 18) = true else w.target.toNat < 65536) :
    (!svcKeyOk w.dir w.source w.ovid w.ivid || decide (1 < w.mode.toNat) || (!decide (w.policer = 0xFFFFFFFF) && decide (131071 < w.policer.toNat))
      || decide (4095 < w.prog.toNat) || decide (1 < w.learn.toNat) || decide (1048575 < w.macLimit.toNat) || decide (0x3FFFD < w.ret.toNat)
      || decide (65535 < w.upBase.toNat)
      || (if w.mode = 0 then !destOk (w.target.toNat / 2 ^ 18) (w.target.toNat % 2 ^ 18) else decide (65535 < w.target.toNat))) = false := by
  have hpolicer' : (!decide (w.policer = 0xFFFFFFFF) && decide (131071 < w.policer.toNat)) = false := by
    obtain hnone | hnumber := hpolicer
    · simp only [hnone, decide_true, Bool.not_true, Bool.false_and]
    · exact Bool.and_eq_false_iff.2 (.inr (decide_eq_false (by omega)))
  have htarget' : (if w.mode = 0 then !destOk (w.target.toNat / 2 ^ 18) (w.target.toNat % 2 ^ 18) else decide (65535 < w.target.toNat)) = false := by
    split at htarget
    case isTrue hcross => rw [if_pos hcross, htarget, Bool.not_true]
    case isFalse hbridge => exact (if_neg hbridge).trans (decide_eq_false (by omega))
  simp only [hkey, hpolicer', htarget', Bool.not_true, Bool.or_eq_false_iff, decide_eq_false_iff_not, true_and, and_true]
  omega

end

/-- Settles O21: each command by its body on a half, then on the halves named by the lemma for commands of its kind. -/
theorem tableCommandsComplete : Obligations.TableCommandsComplete := by
  refine ⟨?bdSet, ?rmacSet, ?floodSet, ?svcSet, ?svcClear, ?macAdd, ?macDel, ?macRead, ?macFlush, ?routeSet, ?routeClear, ?nhSet⟩
  case bdSet =>
    intro h w s hready hdomain hvalid hlearn hisolate hroute hvrf hrmac hflood hunknown hfree hidle eff
    refine (tableCommand_appliesOnHalves (eff := eff) (ws := fun _ _ => []) hready ?_ hfree hidle fun k u _ => rfl).always
    simp only [Bool.or_eq_false_iff, decide_eq_false_iff_not]
    omega
  case rmacSet =>
    intro h index mac s hready hindex hfree hidle eff
    exact (tableCommand_appliesOnHalves (eff := eff) (ws := fun _ _ => []) hready (decide_eq_false (by omega)) hfree hidle
      fun k u _ => rfl).always
  case floodSet =>
    intro h group dests s hready hgroup hlength hdests hfree hidle u0 eff fits
    refine tableCommand_appliesOnHalves (eff := eff) (fits := fits) (ws := fun _ _ => []) hready
      (Bool.or_eq_false_iff.2 ⟨?_, hdests⟩) hfree hidle fun k u hfits => ofOpt_some hfits
    simp only [Bool.or_eq_false_iff, decide_eq_false_iff_not]
    omega
  case svcSet =>
    intro h w s hready hkey hmode hpolicer hprog hlearn hlimit hret hbase htarget hfree hidle u0 eff fits
    exact tableCommand_appliesOnHalves (eff := eff) (fits := fits) (ws := fun _ _ => []) hready
      (svcWords_good hkey hmode hpolicer hprog hlearn hlimit hret hbase htarget) hfree hidle fun k u hfits => ofOpt_some hfits
  case svcClear =>
    intro h dir source ovid ivid s hready hkey hfree hidle eff
    exact (tableCommand_appliesOnHalves (eff := eff) (ws := fun _ _ => []) hready ((Bool.not_eq_false' _).mpr hkey) hfree hidle
      fun k u _ => rfl).always
  case macAdd =>
    intro h bd mac fixed kind dest s hready hbd hfixed hdest hfree hidle u0 eff fits
    refine tableCommand_appliesOnHalves (eff := eff) (fits := fits) (ws := fun _ _ => []) hready
      (Bool.or_eq_false_iff.2 ⟨?_, (Bool.not_eq_false' _).mpr hdest⟩) hfree hidle fun k u hfits => ofOpt_some hfits
    simp only [Bool.or_eq_false_iff, decide_eq_false_iff_not]
    omega
  case macDel =>
    intro h bd mac s hready hbd hfree hidle u0 eff ws
    refine (tableCommand_appliesOnHalves (eff := eff) (ws := ws) hready (decide_eq_false (by omega)) hfree hidle fun k u _ => ?_).always
    cases hfind : u.brFind k bd.toNat mac.toNat <;> simp only [bodyTableMacDel, eff, ws, hfind] <;> rfl
  case macRead =>
    intro h bd mac s hready hbd ws
    refine (command_appliesOnHalves (eff := fun _ u => u) (ws := ws) hready (if_neg (by omega)) fun k u _ => ?_).always
    cases hfind : u.brFind k bd.toNat mac.toNat <;> simp only [ws, hfind]
  case macFlush =>
    intro h bd dest s hready hbd hdest hfree hroom asked
    refine completed_of hready ((if_neg ?_).trans ((unlessClaimed_free (start_unclaimedHalves hfree)).trans
      (if_neg (Bool.eq_false_iff.1 hroom))))
    rintro (⟨hnamed, hbig⟩ | ⟨hnamed, hbad⟩)
    · exact absurd (hbd.resolve_left hnamed) (by omega)
    · exact bnot_ne_true (hdest.resolve_left hnamed) hbad
  case routeSet =>
    intro h vrf pre len nh s hready hprefix hnh hfree hidle u0 eff fits
    exact tableCommand_appliesOnHalves (eff := eff) (fits := fits) (ws := fun _ _ => []) hready
      (Bool.or_eq_false_iff.2 ⟨(Bool.not_eq_false' _).mpr hprefix, decide_eq_false (by omega)⟩) hfree hidle fun k u hfits => ofOpt_some hfits
  case routeClear =>
    intro h vrf pre len s hready hprefix hfree hidle eff
    exact (tableCommand_appliesOnHalves (eff := eff) (ws := fun _ _ => []) hready ((Bool.not_eq_false' _).mpr hprefix) hfree hidle
      fun k u _ => rfl).always
  case nhSet =>
    intro h index w s hready hindex hkind hsmac hprog hdomain hstrip hfree hidle eff
    refine (tableCommand_appliesOnHalves (eff := eff) (ws := fun _ _ => []) hready ?_ hfree hidle fun k u _ => rfl).always
    simp only [hkind, Bool.not_true, Bool.or_false, Bool.or_eq_false_iff, decide_eq_false_iff_not]
    omega

end Sys2Proof

/-! The remaining TABLE commands (R294, R312, R320, R341, R348), the walks of a flush (R317), the access window and the edit commit
(R321, R349). -/

namespace Sys2Proof

open Machine

section
variable {s : State} {half : BitVec 1} {w : FlushWalk}

/-- R317: the oldest walk of a half that the port serves makes its accesses, then ends or goes on. -/
theorem macFlushDone_walks {rest : List FlushWalk} (hflush : (s.fwdOf half.toNat).flush = w :: rest)
    (hfree : (s.wantPort [half.toNat] accessSpan).hostPortFree half.toNat = true) :
    exec (.macFlushDone half) s =
      let u := s.wantPort [half.toNat] accessSpan
      let n := ceilDiv (u.rationSpan half.toNat tblHost ((scanEnd - w.pos) * accessSpan)) accessSpan
      let walked := u.walkOn half.toNat w n
      let v := walked.1.chargePort [half.toNat] (n * accessSpan)
      .next (if scanEnd ≤ w.pos + n then v.endWalk half.toNat walked.2
        else v.modFwd half.toNat (fun f => { f with flush := walked.2 :: rest })) := by
  show execMacFlushDone half s = _
  simp only [execMacFlushDone, hflush, if_neg (bnot_ne_true hfree)]
  rfl

/-- R317, R320: a walk for one half answers its command. -/
theorem endWalk_one (halone : w.both = false) (k : Nat) :
    s.endWalk k w = (s.modFwd k (fun f => { f with flush := f.flush.tail })).answer w.caller .ok [BitVec.ofNat 32 w.deleted] := by
  simp only [State.endWalk, halone, Bool.not_false, if_true]

/-- R320: the later walk of a command on both halves answers it with a status and a count for each. -/
theorem endWalk_later {other : Nat} (hboth : w.both = true) (hpartner : w.partner = some other) :
    s.endWalk half.toNat w = (s.modFwd half.toNat (fun f => { f with flush := f.flush.tail })).answer w.caller .ok
      ([0, 0] ++ if half = 0 then [BitVec.ofNat 32 w.deleted, BitVec.ofNat 32 other] else [BitVec.ofNat 32 other, BitVec.ofNat 32 w.deleted]) := by
  simp only [State.endWalk, hboth, hpartner, Bool.not_true, Bool.false_eq_true, if_false]
  obtain rfl | rfl := BitVec.eq_zero_or_eq_one half <;> rfl

/-- R320: the earlier walk leaves its count with the other half's. -/
theorem endWalk_earlier (hboth : w.both = true) (hpartner : w.partner = none) (k : Nat) :
    s.endWalk k w = (s.modFwd k (fun f => { f with flush := f.flush.tail })).modFwd (1 - k) (fun f =>
      { f with flush := f.flush.map (fun x => if x.caller = w.caller then { x with partner := some w.deleted } else x) }) := by
  simp only [State.endWalk, hboth, hpartner, Bool.not_true, Bool.false_eq_true, if_false]

end

section
variable {s : State} {p : APath} {k : Nat} {data : Word}

/-- R321: a go on a path whose access waits is refused. -/
theorem writeAccess_busy (hgo : data.getLsbD 31 = true) (hbusy : s.flag .brAccStatBusy (copyInst k (apathCode p)) = true) :
    s.writeAccess p k data = s.brReject k :=
  if_pos (Bool.and_eq_true_iff.2 ⟨hgo, hbusy⟩)

/-- R321, R322: a go on a path whose access does not wait asks for one with the fields as the write leaves them. -/
theorem writeAccess_goes (hgo : data.getLsbD 31 = true) (hidle : s.flag .brAccStatBusy (copyInst k (apathCode p)) = false) :
    s.writeAccess p k data =
      let m := s.meet p k .brAccCtl (copyInst k (apathCode p)) data
      (m.1.setReg .brAccCtl (copyInst k (apathCode p)) m.2).accGo p k m.2 := by
  have haccepted : ¬ (data.getLsbD 31 && s.flag .brAccStatBusy (copyInst k (apathCode p))) = true :=
    Bool.eq_false_iff.1 (Bool.and_eq_false_iff.2 (.inr hidle))
  exact (if_neg haccepted).trans (if_pos hgo)

end

/-- Settles O22: each command by its body on a half, a flush by its walk's accesses and the three ways a walk ends, the registers by the
conditions of their writes. -/
theorem tableServiceCommandsComplete : Obligations.TableServiceCommandsComplete := by
  refine ⟨?bindSet, ?bindClear, ?learnSet, ?status, ?editSet, ?remarkSet, ?editRead, ?flushDone, ?access, ?accessBusy, ?editCommit⟩
  case bindSet =>
    intro h onu port kind addr s hready hbind hfree hidle u0 eff fits
    exact tableCommand_appliesOnHalves (eff := eff) (fits := fits) (ws := fun _ _ => []) hready ((Bool.not_eq_false' _).mpr hbind) hfree hidle
      fun k u hfits => ofOpt_some hfits
  case bindClear =>
    intro h onu port kind addr s hready hbind hfree hidle eff
    exact (tableCommand_appliesOnHalves (eff := eff) (ws := fun _ _ => []) hready ((Bool.not_eq_false' _).mpr hbind) hfree hidle
      fun k u _ => rfl).always
  case learnSet =>
    intro h lrn age s hready hlrn hage hfree eff
    refine (ruleCommand_appliesOnHalves (eff := eff) (ws := fun _ _ => []) hready ?_ hfree fun k u _ => rfl).always
    simp only [hlrn, hage, Bool.not_true, Bool.or_false]
  case status =>
    intro h s hready ws
    exact (command_appliesOnHalves (eff := fun _ u => u) (ws := ws) hready rfl fun k u _ => rfl).always
  case editSet =>
    intro h prog ops s hready hlow hhigh hlength hops hfree eff
    refine (ruleCommand_appliesOnHalves (eff := eff) (ws := fun _ _ => []) hready ?_ hfree fun k u _ => rfl).always
    simp only [hops, Bool.not_true, Bool.or_false, Bool.or_eq_false_iff, decide_eq_false_iff_not]
    omega
  case remarkSet =>
    intro h table entries s hready htable hlength hentries hfree eff
    refine (ruleCommand_appliesOnHalves (eff := eff) (ws := fun _ _ => []) hready (Bool.or_eq_false_iff.2 ⟨?_, hentries⟩) hfree
      fun k u _ => rfl).always
    exact Bool.or_eq_false_iff.2 ⟨decide_eq_false (by omega), bne_eq_false_iff_eq.2 hlength⟩
  case editRead =>
    intro h which s hready htable hprog ws
    refine (command_appliesOnHalves (eff := fun _ u => u) (ws := ws) hready (if_neg ?_) fun k u _ => rfl).always
    rintro (⟨hremark, hbig⟩ | ⟨hprogram, hbig⟩)
    · exact absurd (htable hremark) (by omega)
    · exact absurd (hprog (Bool.eq_false_iff.2 hprogram)) (by omega)
  case flushDone =>
    intro half w rest s hflush u hfree n f kept w' v
    refine ⟨fun hmore => ?_, fun hlast => ?_⟩
    · exact (macFlushDone_walks hflush hfree).trans (next_ite_neg (Nat.not_le.2 hmore))
    · have hends : exec (.macFlushDone half) s = .next (v.endWalk half.toNat w') := (macFlushDone_walks hflush hfree).trans (next_ite_pos hlast)
      exact ⟨fun halone => hends.trans (congrArg Host.Outcome.next (endWalk_one (w := w') halone _)),
        fun other hboth hpartner => hends.trans (congrArg Host.Outcome.next (endWalk_later (w := w') hboth hpartner)),
        fun hboth hpartner => hends.trans (congrArg Host.Outcome.next (endWalk_earlier (w := w') hboth hpartner _))⟩
  case access =>
    intro p half data s hgo hidle m v hport
    exact congrArg Host.Outcome.next ((writeAccess_goes hgo hidle).trans (if_neg (Bool.eq_false_iff.1 hport)))
  case accessBusy =>
    intro p half data s hgo hbusy
    exact congrArg Host.Outcome.next (writeAccess_busy hgo hbusy)
  case editCommit =>
    intro p half data s hgo hprog
    exact next_ite_neg (not_or.2 ⟨bnot_ne_true hgo, hprog⟩)

end Sys2Proof

/-! Learning, refreshes, ageing and the re-seat sweep (R305-R316): what each event does where its turn at the maintenance port has come. -/

namespace Sys2Proof

open Machine

section
variable {s : State} {half : BitVec 1} {k : Nat}

/-- R305, R310: the oldest learn event, served, is decided; host writes behind it land. -/
theorem learnEvent_served {e : LrnEv} {rest : List LrnEv} (hqueue : (s.fwdOf half.toNat).lrnQ = e :: rest)
    (hserved : s.served half.toNat tblLearn = true) :
    exec (.learnEvent half) s =
      let v := s.wantTime half.toNat tblLearn
      .next ((((v.setFwd half.toNat { v.fwdOf half.toNat with lrnQ := rest }).learn half.toNat e).charge half.toNat tblLearn accessSpan).landWrites) := by
  show execLearnEvent half s = _
  simp only [execLearnEvent, hqueue, rationed_served hserved]

/-- R305: maintenance goes ahead only with no refresh before it. -/
theorem maintGoes (hmaint : s.maintWaits k = false) (hrefresh : (s.fwdOf k).refreshQ = []) :
    ¬ (s.maintWaits k = true ∨ (!(s.fwdOf k).refreshQ.isEmpty) = true) := by
  simp [hmaint, hrefresh]

/-- R316: a refresh that has the port stamps the entry of its key. -/
theorem refreshRequest_stamps {bd mac i : Nat} {rest : List (Nat × Nat)} {x : BrEnt}
    (hqueue : (s.landWrites.fwdOf half.toNat).refreshQ = (bd, mac) :: rest) (hmaint : s.landWrites.maintWaits half.toNat = false)
    (hserved : s.landWrites.served half.toNat tblMaint = true) :
    let v := s.landWrites.wantTime half.toNat tblMaint
    let w := v.setFwd half.toNat { v.fwdOf half.toNat with refreshQ := rest }
    w.brFind half.toNat bd mac = some (i, x) →
    exec (.refreshRequest half) s = .next ((w.setBr half.toNat i (some { x with stamp := w.tickNow half.toNat })).charge half.toNat tblMaint
      accessSpan) := by
  intro v w hfind
  show execRefreshRequest half s = _
  simp only [execRefreshRequest, hqueue, if_neg (Bool.eq_false_iff.1 hmaint), rationed_served hserved]
  simp only [v, w] at hfind ⊢
  simp only [hfind]

/-- R314: an access of the scan that has the port visits its places, then the scan goes on or ends. -/
theorem ageingScanVisit_visits {n : Nat} (hscan : (s.landWrites.fwdOf half.toNat).scan = some n)
    (hmaint : s.landWrites.maintWaits half.toNat = false) (hrefresh : (s.landWrites.fwdOf half.toNat).refreshQ = [])
    (hserved : s.landWrites.served half.toNat tblMaint = true) :
    exec (.ageingScanVisit half) s =
      let places := if n < 1048576 then (List.range 4).map (4 * n + ·) else (List.range 16).map (overflowBase + 16 * (n - 1048576) + ·)
      .next (((places.foldl (fun s i => s.visit half.toNat i) (s.landWrites.wantTime half.toNat tblMaint)).modFwd half.toNat (fun f =>
        { f with scan := if n + 1 < scanEnd then some (n + 1) else none })).charge half.toNat tblMaint accessSpan) := by
  show execAgeingScanVisit half s = _
  simp only [execAgeingScanVisit, hscan, if_neg (maintGoes hmaint hrefresh), rationed_served hserved]

/-- R307: the sweep's visit to a slot whose entry has a free way in its bucket moves the entry there. -/
theorem reseatVisit_moves {slot w : Nat} {x : BrEnt} (hslot : s.landWrites.nextSlot half.toNat = some slot)
    (hmaint : s.landWrites.maintWaits half.toNat = false) (hrefresh : (s.landWrites.fwdOf half.toNat).refreshQ = [])
    (hscan : (s.landWrites.fwdOf half.toNat).scan = none) (hserved : s.landWrites.served half.toNat tblMaint = true)
    (hentry : s.landWrites.br half.toNat (overflowBase + slot) = some x)
    (hway : s.landWrites.brFree half.toNat 4 (4 * s.landWrites.bucket half.toNat x.bd x.mac) = some w) :
    exec (.reseatVisit half) s = .next (((((s.landWrites.wantTime half.toNat tblMaint).modFwd half.toNat (fun f =>
      { f with reseat := (slot + 1) % 4096 })).setBr half.toNat w (some x)).setBr half.toNat (overflowBase + slot) none).charge
      half.toNat tblMaint (3 * accessSpan)) := by
  have hgoes : ¬ (s.landWrites.maintWaits half.toNat = true ∨ (!(s.landWrites.fwdOf half.toNat).refreshQ.isEmpty) = true ∨
      (s.landWrites.fwdOf half.toNat).scan.isSome = true) := by
    simp [hmaint, hrefresh, hscan]
  have hroom : (s.landWrites.br half.toNat (overflowBase + slot)).bind (fun x =>
      (s.landWrites.brFree half.toNat 4 (4 * s.landWrites.bucket half.toNat x.bd x.mac)).map (fun w => (x, w))) = some (x, w) := by
    simp only [hentry, hway, Option.bind_some, Option.map_some]
  show execReseatVisit half s = _
  simp only [execReseatVisit, hslot, if_neg hgoes, hroom, Option.isSome_some, if_true, rationed_served hserved]

end

/-- Settles O23: each event by what it does where its turn has come, the tick and the late scan by their own conditions. -/
theorem learningEventsComplete : Obligations.LearningEventsComplete := by
  refine ⟨?learn, ?refresh, ?tick, ?scan, ?late, ?reseat⟩
  case learn => intro half e rest s hqueue hserved; exact learnEvent_served hqueue hserved
  case refresh => intro half bd mac rest i x s u v w hqueue hmaint hserved hfind; exact refreshRequest_stamps hqueue hmaint hserved hfind
  case tick => intro half s due hdue; exact if_neg (Nat.not_lt.2 hdue)
  case scan => intro half n s u hscan hmaint hrefresh hserved; exact ageingScanVisit_visits hscan hmaint hrefresh hserved
  case late => intro half s hlate; exact next_ite_neg hlate
  case reseat =>
    intro half slot x w s u hslot hmaint hrefresh hscan hserved hentry hway
    exact reseatVisit_moves hslot hmaint hrefresh hscan hserved hentry hway

end Sys2Proof

/-! The bounds of the event ring and of the dies' queues of records (R517, R519). `State.filed` holds the ring and whether the queues are
within their bound; every operation keeps it, one lemma for each in the order of the model's files, and so does every row but a reset and
the entry of a record into the ring. -/

namespace Sys2Proof

open Machine

/-- Every die's queue of event records holds at most 64 (R517). -/
def QueuesFit (q : Tbl (List EvRec)) : Prop := ∀ die, (Tbl.getD q die []).length ≤ 64

/-- The event ring, and whether the dies' queues of records are within their bound. -/
def Machine.State.filed (s : State) : List EvRec × Prop := (s.evRing, QueuesFit s.evQueue)

/-- The row's next state has on file what the state had. -/
def KeepsFiled (s : State) (o : Host.Outcome State Fault Refusal) : Prop := ∀ t, o = .next t → t.filed = s.filed

/-! ### Updates, conditions, folds -/

theorem filed_of {s t : State} (hring : t.evRing = s.evRing) (hqueue : t.evQueue = s.evQueue) : t.filed = s.filed := by
  simp only [State.filed, hring, hqueue]

/-- A state with another's ring and queues, whatever its other fields are: the form in which `simp` meets a record update. -/
theorem filed_mk {a1 a2 a3 a4 a5 a6 a7 a8 a11 a12 a13 a14 a15 a16 a17 a18 a19 a20 a21 a22 a23 a24 a25 a26 a27 a28 a29 a30 a31 a32 a33 a34
    a35 a36 a37 a38 a39 a40 a41 a42 a43 a44} (s : State) :
    (State.mk a1 a2 a3 a4 a5 a6 a7 a8 s.evQueue s.evRing a11 a12 a13 a14 a15 a16 a17 a18 a19 a20 a21 a22 a23 a24 a25 a26 a27 a28 a29 a30 a31
      a32 a33 a34 a35 a36 a37 a38 a39 a40 a41 a42 a43 a44).filed = s.filed := (rfl)

theorem keepsFiled_next {s t : State} : KeepsFiled s (.next t) = (t.filed = s.filed) := by simp [KeepsFiled]

theorem st_ok (s : State) (ws : List Word) : (Res.ok s ws).st = s := (rfl)

theorem st_fail (s : State) (x : Status) : (Res.fail s x).st = s := (rfl)

theorem st_accepted (s : State) : (Res.accepted s).st = s := (rfl)

section
variable {p : Prop} [Decidable p]

theorem filed_ite {s t : State} : (if p then s else t).filed = if p then s.filed else t.filed := apply_ite ..

theorem st_ite {a b : Res} : (if p then a else b).st = if p then a.st else b.st := apply_ite ..

theorem fst_ite {α : Type} {a b : State × α} : (if p then a else b).1 = if p then a.1 else b.1 := apply_ite ..

theorem snd_ite {α : Type} {a b : α × State} : (if p then a else b).2 = if p then a.2 else b.2 := apply_ite ..

theorem keepsFiled_ite {s : State} {a b : Host.Outcome State Fault Refusal} :
    KeepsFiled s (if p then a else b) = if p then KeepsFiled s a else KeepsFiled s b := apply_ite ..

theorem filed_st_of_ite {s : State} {a b : Res} (ha : a.st.filed = s.filed) (hb : b.st.filed = s.filed) :
    (if p then a else b).st.filed = s.filed := by
  split <;> assumption

theorem filed_getD_ite {s t : State} (h : t.filed = s.filed) : ((if p then some t else none).getD s).filed = s.filed := by
  split
  · exact h
  · rfl

end

theorem filed_getD_map {α : Type} {s : State} {f : α → State} (h : ∀ a, (f a).filed = s.filed) (o : Option α) :
    ((o.map f).getD s).filed = s.filed := by
  cases o
  · rfl
  · exact h _

theorem filed_foldl {α : Type} {f : State → α → State} (h : ∀ s a, (f s a).filed = s.filed) (l : List α) (s : State) :
    (l.foldl f s).filed = s.filed := by
  induction l generalizing s with
  | nil => rfl
  | cons a l ih => rw [List.foldl_cons, ih, h]

theorem filed_foldl_fst {α β : Type} {f : State × β → α → State × β} (h : ∀ p a, (f p a).1.filed = p.1.filed) (l : List α)
    (p : State × β) : (l.foldl f p).1.filed = p.1.filed := by
  induction l generalizing p with
  | nil => rfl
  | cons a l ih => rw [List.foldl_cons, ih, h]

theorem filed_foldl_snd {α β : Type} {f : β × State → α → β × State} (h : ∀ p a, (f p a).2.filed = p.2.filed) (l : List α)
    (p : β × State) : (l.foldl f p).2.filed = p.2.filed := by
  induction l generalizing p with
  | nil => rfl
  | cons a l ih => rw [List.foldl_cons, ih, h]

/-- R517: a queue that holds fewer than 64 records takes one more. -/
theorem filed_putRecord (s : State) (die : Nat) (r : EvRec) (h : (Tbl.getD s.evQueue die []).length < 64) :
    State.filed { s with evQueue := s.evQueue.put die (queueRecord (Tbl.getD s.evQueue die []) r) } = s.filed := by
  have hfit : QueuesFit (s.evQueue.put die (queueRecord (Tbl.getD s.evQueue die []) r)) = QueuesFit s.evQueue := by
    refine propext (forall_congr' fun d => ?_)
    simp only [Tbl.getD, Tbl.find_put] at h ⊢
    by_cases hd : die = d
    · subst hd
      rw [if_pos rfl, Option.getD_some, queueRecord_length]
      omega
    · rw [if_neg hd]
  simp only [State.filed, hfit]

/-! ### Access -/

theorem filed_setReg (s : State) (r : Reg) (i : Nat) (v : Word) : (s.setReg r i v).filed = s.filed := (rfl)

theorem filed_setFld (s : State) (f : Fld) (i x : Nat) : (s.setFld f i x).filed = s.filed := by
  simp only [State.setFld, ↓filed_setReg]

theorem filed_setFlag (s : State) (f : Fld) (i : Nat) (b : Bool) : (s.setFlag f i b).filed = s.filed := by
  simp only [State.setFlag, ↓filed_setFld]

theorem filed_latchBits (s : State) (r : Reg) (i : Nat) (bits : Word) : (s.latchBits r i bits).filed = s.filed := by
  simp only [State.latchBits, ↓filed_mk, ↓filed_setReg]

theorem filed_latchFlag (s : State) (f : Fld) (i : Nat) : (s.latchFlag f i).filed = s.filed := by
  simp only [State.latchFlag, ↓filed_latchBits]

theorem filed_moveCtr (s : State) (c : Ctr) (i n : Nat) : (s.moveCtr c i n).filed = s.filed := (rfl)

theorem filed_drawn (s : State) : s.drawn.filed = s.filed := (rfl)

theorem filed_drive (s : State) (p : Pin) (i v : Nat) : (s.drive p i v).filed = s.filed := (rfl)

theorem filed_send (s : State) (o : Out) : (s.send o).filed = s.filed := (rfl)

theorem filed_sendMsix (s : State) (v : Nat) : (s.sendMsix v).filed = s.filed := by
  simp only [State.sendMsix, ↓filed_ite, ↓filed_mk, ite_self, ↓filed_send]

theorem filed_deliver (s : State) (g : Nat) (srcs : List Nat) : (s.deliver g srcs).filed = s.filed := by
  simp only [State.deliver, ↓filed_ite, ↓filed_mk, ite_self, ↓filed_send, ↓filed_sendMsix]

theorem filed_raise (s : State) (e : Ev) (die inst : Nat) :
    (s.raise e die inst).filed = s.filed := by
  unfold State.raise
  extract_lets src g bit stat was rd q t u
  have ht : t.filed = s.filed := by
    by_cases h : q.length < 64
    · exact (congrArg State.filed (if_pos h)).trans (filed_putRecord s rd _ h)
    · exact (congrArg State.filed (if_neg h)).trans (filed_moveCtr ..)
  have hu : u.filed = s.filed := (filed_latchBits ..).trans ht
  simp only [↓filed_ite, ↓filed_deliver, hu, ite_self]

theorem filed_raiseOnceIn (s : State) (frame : Nat) (e : Ev)
    (die inst cause : Nat) : (s.raiseOnceIn frame e die inst cause).filed = s.filed := by
  simp only [State.raiseOnceIn, ↓filed_ite, ↓filed_mk, ite_self, ↓filed_raise]

theorem filed_raiseOnceBy (s : State) (e : Ev) (die inst cause : Nat) : (s.raiseOnceBy e die inst cause).filed = s.filed := by
  simp only [State.raiseOnceBy, ↓filed_raiseOnceIn]

theorem filed_raiseOnce (s : State) (e : Ev) (die inst : Nat) : (s.raiseOnce e die inst).filed = s.filed := by
  simp only [State.raiseOnce, ↓filed_raiseOnceBy]

theorem filed_tca (s : State) (die : Nat) (x : PmTca) : (s.tca die x).filed = s.filed := by
  simp only [State.tca, ↓filed_ite, ↓filed_mk, ite_self, ↓filed_moveCtr, ↓filed_raise]

theorem filed_pmInto (s : State) (key p n : Nat) (day : Bool) (sel : PmBin → Bool) : (s.pmInto key p n day sel).filed = s.filed := by
  unfold State.pmInto
  simp only
  repeat' split
  all_goals simp only [↓filed_mk, ↓filed_tca]

theorem filed_pmAdd (s : State) (kind idx p n : Nat) : (s.pmAdd kind idx p n).filed = s.filed := by
  unfold State.pmAdd
  split <;> simp only [↓filed_ite, ite_self, ↓filed_pmInto]

theorem filed_modPmEnt (s : State) (key : Nat) (f : PmEnt → PmEnt) : (s.modPmEnt key f).filed = s.filed := (rfl)

theorem filed_pmBlocks (s : State) (kind idx n bad : Nat) : (s.pmBlocks kind idx n bad).filed = s.filed := by
  simp only [State.pmBlocks, ↓filed_modPmEnt]

theorem filed_pmDefect (s : State) (kind idx : Nat) : (s.pmDefect kind idx).filed = s.filed := by
  simp only [State.pmDefect, ↓filed_modPmEnt]

theorem filed_countBy (s : State) (c : Ctr) (i n : Nat) : (s.countBy c i n).filed = s.filed := by
  unfold State.countBy
  split <;> simp only [↓filed_moveCtr, ↓filed_pmAdd]

theorem filed_count (s : State) (c : Ctr) (i : Nat) : (s.count c i).filed = s.filed := by
  simp only [State.count, ↓filed_countBy]

theorem filed_report (s : State) (c : Ctr) (ci : Nat) (e : Ev) (die inst : Nat) : (s.report c ci e die inst).filed = s.filed := by
  simp only [State.report, ↓filed_raise, ↓filed_count]

theorem filed_carry (s : State) (die : Nat) (b : Blk) (u len : Nat) : (s.carry die b u len).filed = s.filed := by
  simp only [State.carry, ↓filed_mk]

theorem filed_slotUsed (s : State) (half pipe account : Nat) : (s.slotUsed half pipe account).filed = s.filed := (rfl)

theorem filed_latency (s : State) (half g ns : Nat) : (s.latency half g ns).filed = s.filed := (rfl)

/-! ### Wire -/

theorem filed_segment (s : State) (die cluster egress : Nat) : (s.segment die cluster egress).filed = s.filed := by
  unfold State.segment
  split <;> simp only [↓filed_mk, ↓filed_setReg]

theorem filed_segments (s : State) (die cluster egress n : Nat) : (s.segments die cluster egress n).filed = s.filed := by
  induction n generalizing s with
  | zero => rfl
  | succ n ih => rw [State.segments, ih, filed_segment]

theorem filed_cipherItem (s : State) (die cluster egress len : Nat)
    (chained : Bool) : (s.cipherItem die cluster egress len chained).filed = s.filed := by
  simp only [State.cipherItem, ↓filed_segments]

theorem filed_setSecy (s : State) (port : Nat) (x : SecY) : (s.setSecy port x).filed = s.filed := (rfl)

theorem filed_putOut (s : State) (port : Nat) (f : Frame) (tag : Option (Nat × Nat × Nat)) : (s.putOut port f tag).filed = s.filed := by
  simp only [State.putOut, ↓filed_ite, ↓filed_mk, ite_self, ↓filed_send, ↓filed_pmAdd, ↓filed_carry]

theorem filed_sendUplink (s : State) (port : Nat) (f : Frame) : (s.sendUplink port f).filed = s.filed := by
  unfold State.sendUplink
  simp only [↓filed_ite, ↓filed_putOut]
  repeat' split
  all_goals simp only [↓filed_raise, ↓filed_raiseOnce, ↓filed_count, ↓filed_cipherItem, ↓filed_setSecy, ↓filed_putOut]

/-! ### Ops -/

theorem filed_ringStep (s : State) (r : Nat) : (s.ringStep r).filed = s.filed := by
  simp only [State.ringStep, ↓filed_ite, ite_self, ↓filed_setFld]

theorem filed_postPcie (s : State) (r : Reply) : (s.postPcie r).filed = s.filed := by
  simp only [State.postPcie, ↓filed_ite, ↓filed_mk, ite_self, ↓filed_raise, ↓filed_ringStep]

theorem filed_postI3c (s : State) (r : Reply) : (s.postI3c r).filed = s.filed := by
  simp only [State.postI3c, ↓filed_ite, ↓filed_mk, ite_self, ↓filed_send]

theorem filed_flushReplies (n : Nat) (s : State) :
    (State.flushReplies n s).filed = s.filed := by
  induction n generalizing s with
  | zero => rfl
  | succ n ih =>
    unfold State.flushReplies
    split
    · rfl
    · simp only [↓filed_ite, ih, ↓filed_mk, ↓filed_postPcie, ite_self]

theorem filed_postInband (s : State) (r : Reply) : (s.postInband r).filed = s.filed := by
  unfold State.postInband
  split <;> simp only [↓filed_ite, ite_self, ↓filed_sendUplink]

theorem filed_postPacket (s : State) (r : Reply) : (s.postPacket r).filed = s.filed := by
  unfold State.postPacket
  split <;> simp only [↓filed_postPcie, ↓filed_postI3c, ↓filed_postInband]

theorem filed_post (s : State) (r : Reply) : (s.post r).filed = s.filed := by
  simp only [State.post, implies_true, ↓filed_foldl, ↓filed_postPacket]

theorem filed_answer (s : State) (c : Caller) (st : Status) (ws : List Word) : (s.answer c st ws).filed = s.filed := by
  unfold State.answer
  simp only
  split <;> simp only [↓filed_ite, ↓filed_mk, ite_self, ↓filed_post]

theorem filed_refuse (s : State) (c : Caller) (st : Status) : (s.refuse c st).filed = s.filed := by
  simp only [State.refuse, ↓filed_post]

theorem filed_dequeue (s : State) (c : Caller) : (s.dequeue c).filed = s.filed := (rfl)

theorem filed_start (s : State) (c : Caller) : (s.start c).filed = s.filed := by
  simp only [State.start, ↓filed_mk, ↓filed_dequeue]

theorem filed_withdraw (s : State) (c : Caller) : (s.withdraw c).filed = s.filed := by
  simp only [State.withdraw, ↓filed_mk, ↓filed_dequeue]

theorem filed_command (h : Hdr) (op : Nat) (rule : DieRule) (body : Caller → State → Res) (s : State) (hbody : ∀ a t,
    (body a t).st.filed = t.filed) : (command h op rule body s).filed = s.filed := by
  simp only [command, ↓filed_ite, ite_self, ↓filed_count, ↓filed_answer, ↓filed_refuse, ↓filed_start, ↓filed_withdraw, hbody]

theorem filed_wake (s : State) (cond arg : Nat) : (s.wake cond arg).filed = s.filed := (rfl)

theorem filed_modCipher (s : State) (f : Cipher → Cipher) : (s.modCipher f).filed = s.filed := (rfl)

theorem filed_losePath (s : State) (p : Nat) : (s.losePath p).filed = s.filed := by
  simp only [State.losePath, ↓filed_modCipher]

theorem filed_modTandem (s : State) (f : Tandem → Tandem) : (s.modTandem f).filed = s.filed := (rfl)

theorem filed_setPaired (s : State) (k : Option Nat) : (s.setPaired k).filed = s.filed := by
  simp only [State.setPaired, ↓filed_setFlag, ↓filed_modTandem]

theorem filed_setTndTree (s : State) (t : Nat) (x : TndTree) : (s.setTndTree t x).filed = s.filed := by
  simp only [State.setTndTree, ↓filed_modTandem]

theorem filed_modTndTree (s : State) (t : Nat) (f : TndTree → TndTree) : (s.modTndTree t f).filed = s.filed := by
  simp only [State.modTndTree, ↓filed_setTndTree]

theorem filed_modTndChan (s : State) (c : Nat) (f : TndChan → TndChan) : (s.modTndChan c f).filed = s.filed := by
  simp only [State.modTndChan, ↓filed_modTandem]

theorem filed_sendTandem (s : State) (o : Out) : (s.sendTandem o).filed = s.filed := by
  simp only [State.sendTandem, ↓filed_ite, ite_self, ↓filed_send]

theorem filed_sendRecord (s : State) (stream : Nat) (body : TndBody) : (s.sendRecord stream body).filed = s.filed := by
  simp only [State.sendRecord, ↓filed_modTandem, ↓filed_sendTandem]

theorem filed_chanCause (s : State) (c : Nat) : (s.chanCause c).filed = s.filed := by
  simp only [State.chanCause, ↓filed_ite, ite_self, ↓filed_modTndChan]

theorem filed_tandemDown (s : State) : s.tandemDown.filed = s.filed := by
  simp only [State.tandemDown, ↓filed_ite, ite_self, implies_true, ↓filed_foldl, ↓filed_setFlag, ↓filed_report, ↓filed_modTndTree]

theorem filed_unlessClaimed (s : State) (bs : List (Nat × Blk)) (r : Res) :
    (s.unlessClaimed bs r).st.filed = if bs.any (fun b => s.claimed b.1 b.2) then s.filed else r.st.filed := by
  simp only [State.unlessClaimed, st_ite, filed_ite, st_fail]

theorem filed_onHalves (h : Hdr) (f : Nat → State → Res) (s : State) (hf : ∀ a t,
    (f a t).st.filed = t.filed) : (onHalves h f s).st.filed = s.filed := by
  simp only [onHalves, ↓filed_ite, ite_self, st_ite, hf]

/-! ### Operands -/

theorem filed_clearCopies (s : State) (n : Nat) : (s.clearCopies n).filed = s.filed := (rfl)

theorem filed_accError (s : State) (a : RegAccess) (cause : Nat) : (s.accError a cause).filed = s.filed := by
  simp only [State.accError, ↓filed_ite, ite_self, ↓filed_setReg, ↓filed_latchFlag, ↓filed_raiseOnceBy, ↓filed_count]

theorem filed_meetAs (s : State) (p : APath) (die : Nat) (r : Reg) (i : Nat)
    (old data : Word) : (s.meetAs p die r i old data).1.filed = s.filed := by
  simp only [State.meetAs, ↓filed_ite, ite_self, ↓filed_report]

theorem filed_meet (s : State) (p : APath) (die : Nat) (r : Reg) (i : Nat) (data : Word) : (s.meet p die r i data).1.filed = s.filed := by
  simp only [State.meet, ↓filed_meetAs]

theorem filed_writeReg (s : State) (p : APath) (die : Nat) (r : Reg) (i : Nat) (data : Word) :
    (s.writeReg p die r i data).filed = s.filed := by
  simp only [State.writeReg, ↓filed_setReg, ↓filed_meet]

/-! ### Rations -/

theorem filed_execUcieLinkDown (link : BitVec 3) (s : State) : KeepsFiled s (execUcieLinkDown link s) := by
  simp only [execUcieLinkDown, ↓filed_mk, ite_self, keepsFiled_next, keepsFiled_ite, ↓filed_report]

theorem filed_openPeriod (s : State) : s.openPeriod.filed = s.filed := (rfl)

theorem filed_periodJump (s : State) (old : Nat) : (s.periodJump old).filed = s.filed := by
  simp only [State.periodJump, ↓filed_ite, ↓filed_mk, ite_self, ↓filed_openPeriod]

theorem filed_spend (s : State) (die index : Nat) : (s.spend die index).filed = s.filed := by
  simp only [State.spend, ↓filed_ite, ite_self, ↓filed_setFlag, ↓filed_raise, ↓filed_count]

theorem filed_setMeter (s : State) (i span : Nat) : (s.setMeter i span).filed = s.filed := by
  simp only [State.setMeter, ↓filed_mk, ↓filed_setFld]

theorem filed_borrow (s : State) (i span : Nat) : (s.borrow i span).filed = s.filed := by
  simp only [State.borrow, ↓filed_mk, ↓filed_countBy]

theorem filed_chargeWith (s : State) (die index span : Nat) (borrows : Bool) : (s.chargeWith die index span borrows).filed = s.filed := by
  simp only [State.chargeWith, ↓filed_ite, ite_self, ↓filed_spend, ↓filed_setMeter, ↓filed_borrow]

theorem filed_wantTime (s : State) (die index : Nat) : (s.wantTime die index).filed = s.filed := by
  simp only [State.wantTime, ↓filed_ite, ite_self, ↓filed_spend]

theorem filed_charge (s : State) (die index span : Nat) : (s.charge die index span).filed = s.filed := by
  simp only [State.charge, ↓filed_chargeWith]

theorem filed_serve (s : State) (die index span : Nat) : (s.serve die index span).1.filed = s.filed := by
  simp only [State.serve, ↓filed_ite, ite_self, fst_ite, ↓filed_wantTime, ↓filed_charge]

theorem filed_rationed (s : State) (die index span : Nat) (work : State → State) (hwork : ∀ t,
    (work t).filed = t.filed) : (s.rationed die index span work).filed = s.filed := by
  simp only [State.rationed, ↓filed_ite, ite_self, ↓filed_wantTime, ↓filed_charge, hwork]

theorem filed_execRationSpent (die : BitVec 3) (index : BitVec 6) (s : State) : KeepsFiled s (execRationSpent die index s) := by
  simp only [execRationSpent, ↓filed_ite, ite_self, keepsFiled_next, ↓filed_spend, ↓filed_setMeter]

theorem filed_execSysRationSet (h : Hdr) (index cfg : Word) (s : State) : KeepsFiled s (execSysRationSet h index cfg s) := by
  simp only [execSysRationSet, ↓filed_ite, ite_self, implies_true, st_ite, st_ok, st_fail, keepsFiled_next, ↓filed_setReg,
    ↓filed_command, ↓filed_unlessClaimed]

theorem filed_execSysRationGet (h : Hdr) (index : Word) (s : State) : KeepsFiled s (execSysRationGet h index s) := by
  simp only [execSysRationGet, ite_self, implies_true, st_ite, st_ok, st_fail, keepsFiled_next, ↓filed_command]

/-! ### PmBins -/

theorem filed_pmTree (s : State) (t : Nat) : (s.pmTree t).filed = s.filed := (rfl)

theorem filed_commitSec (s : State) (key : Nat) (e : PmEnt) : (s.commitSec key e).filed = s.filed := by
  unfold State.commitSec
  split <;> simp only [↓filed_ite, ite_self, ↓filed_pmInto, ↓filed_modPmEnt]

theorem filed_commitSecs (s : State) (key n : Nat) :
    (s.commitSecs key n).filed = s.filed := by
  induction n generalizing s with
  | zero => rfl
  | succ n ih =>
    unfold State.commitSecs
    split
    · simp only [↓filed_ite, ih, ↓filed_commitSec, ite_self]
    · rfl

theorem filed_losePending (s : State) (die : Nat) : (s.losePending die).filed = s.filed := by
  simp only [State.losePending, ↓filed_ite, ↓filed_mk, ite_self, ↓filed_raiseOnce, ↓filed_count]

theorem filed_pmCommit (s : State) (die : Nat) : (s.pmCommit die).filed = s.filed := by
  simp only [State.pmCommit, ↓filed_ite, ite_self, implies_true, ↓filed_foldl, ↓filed_wantTime, ↓filed_charge, ↓filed_commitSecs,
    ↓filed_losePending]

theorem filed_pmSecond (s : State) (die : Nat) : (s.pmSecond die).filed = s.filed := by
  unfold State.pmSecond
  split <;> simp only [↓filed_mk, ↓filed_pmCommit]

theorem filed_execPmSecond (die : BitVec 3) (s : State) : KeepsFiled s (execPmSecond die s) := by
  unfold execPmSecond
  split <;> simp only [ite_self, keepsFiled_next, keepsFiled_ite, ↓filed_pmSecond]

theorem filed_execPmSecondForced (die : BitVec 3) (s : State) : KeepsFiled s (execPmSecondForced die s) := by
  unfold execPmSecondForced
  split <;> simp only [ite_self, keepsFiled_next, keepsFiled_ite, ↓filed_pmSecond]

theorem filed_binBoundary (s : State) (die : Nat) (day : Bool) : (s.binBoundary die day).filed = s.filed := (rfl)

theorem filed_execPmBinBoundary (die : BitVec 3) (day : Bool) (s : State) : KeepsFiled s (execPmBinBoundary die day s) := by
  simp only [execPmBinBoundary, keepsFiled_next, ↓filed_binBoundary]

theorem filed_pmJump (s : State) (old : Nat) : (s.pmJump old).filed = s.filed := by
  simp only [State.pmJump, ↓filed_ite, ↓filed_mk, ite_self, implies_true, ↓filed_foldl, ↓filed_pmSecond]

/-! ### Time -/

theorem filed_moveTime (s : State) (d : Int) : (s.moveTime d).filed = s.filed := (rfl)

theorem filed_runTime (s : State) (d : Int) : (s.runTime d).filed = s.filed := by
  simp only [State.runTime, ↓filed_mk, ↓filed_moveTime]

theorem filed_tick (s : State) : s.tick.filed = s.filed := by
  unfold State.tick
  simp only [↓filed_ite]
  repeat' split
  all_goals simp only [↓filed_mk, ↓filed_runTime]

theorem filed_installIncr (s : State) (v : Nat) : (s.installIncr v).filed = s.filed := by
  simp only [State.installIncr, ↓filed_mk, ↓filed_setFld, ↓filed_setFlag]

theorem filed_incrReject (s : State) : s.incrReject.filed = s.filed := by
  simp only [State.incrReject, ↓filed_report]

theorem filed_writeIncr (s : State) (v : Nat) : (s.writeIncr v).filed = s.filed := by
  simp only [State.writeIncr, ↓filed_ite, ite_self, ↓filed_installIncr, ↓filed_incrReject]

theorem filed_execTimeGet (h : Hdr) (s : State) : KeepsFiled s (execTimeGet h s) := by
  simp only [execTimeGet, implies_true, st_ok, keepsFiled_next, ↓filed_command]

theorem filed_incrSet (h : Hdr) (v : Nat) (s : State) : (command h 0x0101 (.owner 0) (fun _ u =>
    if !incrOk v then .fail u.incrReject .badParam else u.unlessClaimed [(0, .tb)] (.ok (u.installIncr v))) s).filed = s.filed := by
  simp only [↓filed_ite, st_ite, st_ok, st_fail, ↓filed_incrReject, ↓filed_unlessClaimed, ↓filed_installIncr, ↓filed_command, ite_self,
    implies_true]

theorem filed_execTimeIncrSet (h : Hdr) (int frac : Word) (s : State) : KeepsFiled s (execTimeIncrSet h int frac s) :=
  keepsFiled_next.mpr (filed_incrSet h (int.toNat * 2 ^ 32 + frac.toNat) s)

theorem filed_execTimeAction (h : Hdr) (w : ActionWords) (s : State) : KeepsFiled s (execTimeAction h w s) := by
  simp only [execTimeAction, ↓filed_ite, ↓filed_mk, ite_self, implies_true, st_ite, st_fail, keepsFiled_next, ↓filed_command,
    ↓filed_unlessClaimed, ↓filed_incrReject]

theorem filed_execTimeActionCancel (h : Hdr) (s : State) : KeepsFiled s (execTimeActionCancel h s) := by
  simp only [execTimeActionCancel, ↓filed_ite, ↓filed_mk, ite_self, implies_true, st_ite, st_ok, st_fail, keepsFiled_next,
    ↓filed_command, ↓filed_unlessClaimed]

theorem filed_setWdog (s : State) (ms : Nat) : (s.setWdog ms).filed = s.filed := by
  simp only [State.setWdog, ↓filed_ite, ↓filed_mk, ite_self, ↓filed_setFld]

theorem filed_execTimeWdogSet (h : Hdr) (timeout : Word) (s : State) : KeepsFiled s (execTimeWdogSet h timeout s) := by
  simp only [execTimeWdogSet, ↓filed_ite, ite_self, implies_true, st_ite, st_ok, st_fail, keepsFiled_next, ↓filed_command,
    ↓filed_unlessClaimed, ↓filed_setWdog]

theorem filed_pinWritten (s : State) (p : Nat) : (s.pinWritten p).filed = s.filed := by
  simp only [State.pinWritten, ↓filed_ite, ↓filed_mk, ite_self, ↓filed_report]

theorem filed_execTimePinSet (h : Hdr) (pin mode pol : Word) (start : T3) (period width : Word)
    (s : State) : KeepsFiled s (execTimePinSet h pin mode pol start period width s) := by
  simp only [execTimePinSet, ↓filed_ite, ite_self, implies_true, st_ite, st_ok, st_fail, keepsFiled_next, ↓filed_setReg, ↓filed_setFld,
    ↓filed_command, ↓filed_unlessClaimed, ↓filed_pinWritten]

theorem filed_execTimeCaptureRead (h : Hdr) (pin count : Word) (s : State) : KeepsFiled s (execTimeCaptureRead h pin count s) := by
  simp only [execTimeCaptureRead, ↓filed_ite, ↓filed_mk, ite_self, implies_true, st_ite, st_ok, st_fail, keepsFiled_next, ↓filed_command,
    ↓filed_unlessClaimed]

theorem filed_execTimePpsSet (h : Hdr) (width : Word) (s : State) : KeepsFiled s (execTimePpsSet h width s) := by
  simp only [execTimePpsSet, ↓filed_ite, ite_self, implies_true, st_ite, st_ok, st_fail, keepsFiled_next, ↓filed_setFld, ↓filed_command,
    ↓filed_unlessClaimed]

theorem filed_execTimeStatus (h : Hdr) (s : State) : KeepsFiled s (execTimeStatus h s) := by
  simp only [execTimeStatus, implies_true, st_ok, keepsFiled_next, ↓filed_command]

theorem filed_execTimePtpPortSet (h : Hdr) (port oneStep twoStep transparent ingAdj egrAdj : Word)
    (s : State) : KeepsFiled s (execTimePtpPortSet h port oneStep twoStep transparent ingAdj egrAdj s) := by
  simp only [execTimePtpPortSet, ↓filed_ite, ↓filed_mk, ite_self, implies_true, st_ite, st_ok, st_fail, keepsFiled_next, ↓filed_setReg,
    ↓filed_command, ↓filed_unlessClaimed]

theorem filed_execTimeEgressTsRead (h : Hdr) (port count : Word) (s : State) : KeepsFiled s (execTimeEgressTsRead h port count s) := by
  simp only [execTimeEgressTsRead, ↓filed_ite, ↓filed_mk, ite_self, implies_true, st_ite, st_ok, st_fail, keepsFiled_next,
    ↓filed_command, ↓filed_unlessClaimed]

theorem filed_stampEgress (s : State) (port seqId at_ : Nat) : (s.stampEgress port seqId at_).filed = s.filed := by
  simp only [State.stampEgress, ↓filed_ite, ↓filed_mk, ite_self, ↓filed_report]

theorem filed_pulsePin (s : State) (p leaves : Nat) : (s.pulsePin p leaves).filed = s.filed := by
  unfold State.pulsePin
  split <;> simp only [↓filed_ite, ↓filed_mk, ite_self, ↓filed_send]

theorem filed_pinsJump (s : State) : s.pinsJump.filed = s.filed := (rfl)

theorem filed_execTpinPulse (pin : BitVec 5) (s : State) : KeepsFiled s (execTpinPulse pin s) := by
  unfold execTpinPulse
  split <;> simp only [↓filed_ite, ite_self, keepsFiled_next, ↓filed_pulsePin]

theorem filed_execPpsOutEdge (s : State) : KeepsFiled s (execPpsOutEdge s) := by
  simp only [execPpsOutEdge, ↓filed_ite, ↓filed_mk, ite_self, keepsFiled_next, ↓filed_send]

theorem filed_execSlewEnd (s : State) : KeepsFiled s (execSlewEnd s) := by
  unfold execSlewEnd
  split <;> simp only [↓filed_ite, ↓filed_mk, ite_self, keepsFiled_next, ↓filed_runTime]

theorem filed_execServoWdogExpire (s : State) : KeepsFiled s (execServoWdogExpire s) := by
  simp only [execServoWdogExpire, ↓filed_mk, ite_self, keepsFiled_next, keepsFiled_ite, ↓filed_setFlag, ↓filed_report]

theorem filed_capture (s : State) (p fine : Nat) : (s.capture p fine).filed = s.filed := by
  simp only [State.capture, ↓filed_ite, ↓filed_mk, ite_self, ↓filed_report]

theorem filed_execTpinCapture (pin : BitVec 5) (before after : Bool) (fine : BitVec 3)
    (s : State) : KeepsFiled s (execTpinCapture pin before after fine s) := by
  simp only [execTpinCapture, ↓filed_ite, ite_self, keepsFiled_next, ↓filed_drive, ↓filed_capture]

theorem filed_execPpsInCapture (rising : Bool) (fine : BitVec 3) (s : State) : KeepsFiled s (execPpsInCapture rising fine s) := by
  simp only [execPpsInCapture, ↓filed_ite, ite_self, keepsFiled_next, ↓filed_drive, ↓filed_capture]

theorem filed_latchTime (s : State) (p : APath) (data : Word) : (s.latchTime p data).filed = s.filed := by
  simp only [State.latchTime, ↓filed_ite, ite_self, ↓filed_setReg]

theorem filed_execTbLatch (p : APath) (data : Word) (s : State) : KeepsFiled s (execTbLatch p data s) := by
  simp only [execTbLatch, keepsFiled_next, ↓filed_latchTime]

theorem filed_unclaimedWrite (s : State) (die : Nat) : (s.unclaimedWrite die).filed = s.filed := by
  simp only [State.unclaimedWrite, ↓filed_report]

theorem filed_writeTbIncr (s : State) (p : APath) (data : Word) : (s.writeTbIncr p data).filed = s.filed := by
  simp only [State.writeTbIncr, ↓filed_ite, ite_self, ↓filed_writeIncr, ↓filed_unclaimedWrite]

theorem filed_execTbIncrCommit (p : APath) (data : Word) (s : State) : KeepsFiled s (execTbIncrCommit p data s) := by
  simp only [execTbIncrCommit, keepsFiled_next, ↓filed_writeTbIncr]

theorem filed_writeTbActCtl (s : State) (p : APath) (data : Word) : (s.writeTbActCtl p data).filed = s.filed := by
  simp only [State.writeTbActCtl, ↓filed_ite, ↓filed_mk, ite_self, ↓filed_setFld, ↓filed_setFlag, ↓filed_count, ↓filed_unclaimedWrite]

theorem filed_execTbActArm (p : APath) (data : Word) (s : State) : KeepsFiled s (execTbActArm p data s) := by
  simp only [execTbActArm, keepsFiled_next, ↓filed_writeTbActCtl]

theorem filed_execTbActCancel (p : APath) (data : Word) (s : State) : KeepsFiled s (execTbActCancel p data s) := by
  simp only [execTbActCancel, keepsFiled_next, ↓filed_writeTbActCtl]

theorem filed_popCapture (s : State) (p : APath) : (s.popCapture p).filed = s.filed := (rfl)

theorem filed_execTbCapPop (p : APath) (x1 : Word) (s : State) : KeepsFiled s (execTbCapPop p x1 s) := by
  simp only [execTbCapPop, keepsFiled_next, ↓filed_popCapture]

theorem filed_writeTbWdog (s : State) (p : APath) (data : Word) : (s.writeTbWdog p data).filed = s.filed := by
  simp only [State.writeTbWdog, ↓filed_ite, ite_self, ↓filed_setWdog, ↓filed_unclaimedWrite]

theorem filed_execTbWdogWrite (p : APath) (data : Word) (s : State) : KeepsFiled s (execTbWdogWrite p data s) := by
  simp only [execTbWdogWrite, keepsFiled_next, ↓filed_writeTbWdog]

/-! ### Idents -/

theorem filed_setChan (s : State) (c : Nat) (x : ChanSt) : (s.setChan c x).filed = s.filed := (rfl)

theorem filed_setTree (s : State) (t : Nat) (x : TreeSt) : (s.setTree t x).filed = s.filed := (rfl)

theorem filed_tellItem (s : State) (t : Nat) (m : MirrorItem) : (s.tellItem t m).filed = s.filed := by
  simp only [State.tellItem, ↓filed_modTndTree, ↓filed_sendRecord]

theorem filed_mirror (s : State) (t : Nat) : (s.mirror t).filed = s.filed := by
  simp only [State.mirror, ↓filed_ite, ite_self, implies_true, ↓filed_foldl, ↓filed_modTndTree, ↓filed_tellItem]

theorem filed_setOnu (s : State) (i : Nat) (x : OnuSlot) : (s.setOnu i x).filed = s.filed := (rfl)

theorem filed_modOnu (s : State) (i : Nat) (f : OnuSlot → OnuSlot) : (s.modOnu i f).filed = s.filed := by
  unfold State.modOnu
  split <;> simp only [↓filed_ite, ite_self, ↓filed_mirror, ↓filed_setOnu]

theorem filed_setIdent (s : State) (t kind v : Nat) (x : Option Ident) : (s.setIdent t kind v x).filed = s.filed := (rfl)

theorem filed_pmSdu (s : State) (t port : Nat) : (s.pmSdu t port).filed = s.filed := by
  unfold State.pmSdu
  repeat' split
  all_goals simp only [↓filed_pmAdd]

theorem filed_flushPort (s : State) (t port : Nat) : (s.flushPort t port).filed = s.filed := by
  unfold State.flushPort
  simp only
  split <;> simp only [↓filed_mk, ↓filed_count, ↓filed_pmSdu]

theorem filed_rest (s : State) (t kind v until_ : Nat) : (s.rest t kind v until_).filed = s.filed := by
  simp only [State.rest, ↓filed_ite, ↓filed_mk, ite_self, ↓filed_setIdent, ↓filed_flushPort]

theorem filed_release (s : State) (t kind v : Nat) : (s.release t kind v).filed = s.filed := by
  unfold State.release
  split <;> simp only [↓filed_ite, ↓filed_mk, ite_self, ↓filed_setIdent, ↓filed_rest]

theorem filed_releaseAll (s : State) (t from_ : Nat) : (s.releaseAll t from_).filed = s.filed := by
  simp only [State.releaseAll, implies_true, ↓filed_foldl, ↓filed_rest]

theorem filed_treeEnded (s : State) (t : Nat) : (s.treeEnded t).filed = s.filed := by
  simp only [State.treeEnded, ↓filed_mk, ↓filed_releaseAll]

/-! ### Spares -/

theorem filed_modPower (s : State) (f : Power → Power) : (s.modPower f).filed = s.filed := (rfl)

theorem filed_failUnit (s : State) (kind die unit : Nat) : (s.failUnit kind die unit).filed = s.filed := by
  simp only [State.failUnit, ↓filed_modPower]

theorem filed_replaceUnit (s : State) (kind die unit : Nat) : (s.replaceUnit kind die unit).filed = s.filed := by
  simp only [State.replaceUnit, ↓filed_modPower, ↓filed_failUnit]

theorem filed_setCore (s : State) (die core st : Nat) : (s.setCore die core st).filed = s.filed := by
  simp only [State.setCore, ↓filed_setReg]

theorem filed_toSequencer (s : State) (die idx : Nat) (r : SeqReport) (f : State → State) (hf : ∀ t,
    (f t).filed = t.filed) : (s.toSequencer die idx r f).filed = s.filed := by
  simp only [State.toSequencer, ↓filed_ite, ↓filed_mk, ite_self, hf]

theorem filed_toActivation (s : State) (t : Nat) (r : SeqReport) (f : State → State) (hf : ∀ t,
    (f t).filed = t.filed) : (s.toActivation t r f).filed = s.filed := by
  simp only [State.toActivation, implies_true, ↓filed_toSequencer, hf]

theorem filed_spareUsed (s : State) (kind die unit : Nat) : (s.spareUsed kind die unit).filed = s.filed := by
  simp only [State.spareUsed, ↓filed_setFld, ↓filed_report]

theorem filed_noSpare (s : State) (kind die unit : Nat) : (s.noSpare kind die unit).filed = s.filed := by
  simp only [State.noSpare, ↓filed_report]

theorem filed_beginBringIn (s : State) (kind die unit : Nat)
    (caller : Option Caller) : (s.beginBringIn kind die unit caller).filed = s.filed := by
  simp only [State.beginBringIn, ↓filed_modPower]

theorem filed_endBringIn (s : State) (kind die unit : Nat) (st : Status) : (s.endBringIn kind die unit st).filed = s.filed := by
  unfold State.endBringIn
  repeat' split
  all_goals simp only [↓filed_answer, ↓filed_modPower]

theorem filed_autoSpare (s : State) (kind die unit : Nat) : (s.autoSpare kind die unit).filed = s.filed := by
  simp only [State.autoSpare, ↓filed_ite, ite_self, ↓filed_noSpare, ↓filed_beginBringIn]

/-! ### Trees -/

theorem filed_onTree (s : State) (t : Nat) (bs : List (Nat × Blk)) (r : Res) :
    (s.onTree t bs r).st.filed =
      if s.treeBarred t then s.filed else if bs.any (fun b => s.claimed b.1 b.2) then s.filed else r.st.filed := by
  simp only [State.onTree, st_ite, filed_ite, filed_mirror, filed_unlessClaimed, st_fail, ite_self]

theorem filed_setDomain (s : State) (d : Nat) (on : Bool) : (s.setDomain d on).filed = s.filed := by
  simp only [State.setDomain, ↓filed_setReg]

theorem filed_tribDown (s : State) (i : Nat) : (s.tribDown i).filed = s.filed := by
  unfold State.tribDown
  split <;> simp only [↓filed_ite, ↓filed_mk, ite_self, ↓filed_pmDefect, ↓filed_report]

theorem filed_memberGone (s : State) (c : Nat) : (s.memberGone c).filed = s.filed := by
  unfold State.memberGone
  split <;> simp only [↓filed_ite, ↓filed_mk, ite_self, implies_true, ↓filed_foldl, ↓filed_pmDefect, ↓filed_report, ↓filed_tribDown]

theorem filed_closeFrame (s : State) (c : Nat) : (s.closeFrame c).filed = s.filed := by
  simp only [State.closeFrame, implies_true, ↓filed_foldl, ↓filed_send, ↓filed_setChan]

theorem filed_darken (s : State) (c : Nat) : (s.darken c).filed = s.filed := by
  simp only [State.darken, ↓filed_ite, ↓filed_mk, ite_self, ↓filed_drive]

theorem filed_stopChan (s : State) (c : Nat) : (s.stopChan c).filed = s.filed := by
  simp only [State.stopChan, ↓filed_mk, ↓filed_setFlag, ↓filed_countBy, ↓filed_setChan, ↓filed_darken]

theorem filed_stopTree (s : State) (t : Nat) : (s.stopTree t).filed = s.filed := by
  simp only [State.stopTree, ↓filed_ite, ite_self, implies_true, ↓filed_foldl, ↓filed_setFlag, ↓filed_raise, ↓filed_pmTree,
    ↓filed_setChan, ↓filed_setTree, ↓filed_treeEnded, ↓filed_stopChan]

theorem filed_execTreeConfig (h : Hdr) (tree offset : Word) (s : State) : KeepsFiled s (execTreeConfig h tree offset s) := by
  simp only [execTreeConfig, ↓filed_ite, ite_self, implies_true, st_ite, st_ok, st_fail, keepsFiled_next, ↓filed_setFld, ↓filed_command,
    ↓filed_onTree]

theorem filed_setEnable (s : State) (c : Nat) (on : Bool) : (s.setEnable c on).filed = s.filed := by
  simp only [State.setEnable, ↓filed_ite, ite_self, ↓filed_setFlag, ↓filed_setChan, ↓filed_memberGone]

theorem filed_execTreeChannelSet (h : Hdr) (chan mode enable maxPli ploamMax : Word)
    (s : State) : KeepsFiled s (execTreeChannelSet h chan mode enable maxPli ploamMax s) := by
  simp only [execTreeChannelSet, ↓filed_ite, ite_self, implies_true, st_ite, st_ok, st_fail, keepsFiled_next, ↓filed_setFld,
    ↓filed_command, ↓filed_onTree, ↓filed_setEnable]

theorem filed_execTreeLaunch (h : Hdr) (tree : Word) (earliest : T3) (unaligned : Word)
    (s : State) : KeepsFiled s (execTreeLaunch h tree earliest unaligned s) := by
  simp only [execTreeLaunch, ↓filed_ite, ite_self, implies_true, st_ite, st_ok, st_fail, keepsFiled_next, ↓filed_setFlag, ↓filed_command,
    ↓filed_setTree, ↓filed_onTree]

theorem filed_execTreeStop (h : Hdr) (tree : Word) (s : State) : KeepsFiled s (execTreeStop h tree s) := by
  simp only [execTreeStop, ↓filed_ite, ite_self, implies_true, st_ite, st_ok, st_fail, keepsFiled_next, ↓filed_setFlag, ↓filed_command,
    ↓filed_setTree, ↓filed_treeEnded, ↓filed_onTree]

theorem filed_execTreeStatus (h : Hdr) (tree : Word) (s : State) : KeepsFiled s (execTreeStatus h tree s) := by
  simp only [execTreeStatus, ↓filed_ite, ite_self, implies_true, st_ite, st_ok, st_fail, keepsFiled_next, ↓filed_command, ↓filed_onTree]

theorem filed_execTreeDlnSet (h : Hdr) (chan delta alpha : Word) (s : State) : KeepsFiled s (execTreeDlnSet h chan delta alpha s) := by
  simp only [execTreeDlnSet, ↓filed_ite, ite_self, implies_true, st_ite, st_ok, st_fail, keepsFiled_next, ↓filed_setFld, ↓filed_command,
    ↓filed_onTree]

theorem filed_startChan (s : State) (c count : Nat) : (s.startChan c count).filed = s.filed := by
  simp only [State.startChan, ↓filed_setFlag, ↓filed_setChan]

theorem filed_launchTree (s : State) (t starts : Nat) : (s.launchTree t starts).filed = s.filed := by
  simp only [State.launchTree, implies_true, ↓filed_foldl, ↓filed_setFlag, ↓filed_raise, ↓filed_pmTree, ↓filed_setTree, ↓filed_startChan]

theorem filed_execTreeLaunchStart (t : Tree) (s : State) : KeepsFiled s (execTreeLaunchStart t s) := by
  simp only [execTreeLaunchStart, ↓filed_ite, ite_self, keepsFiled_next, ↓filed_launchTree]

theorem filed_execChannelStart (c : Chan) (s : State) : KeepsFiled s (execChannelStart c s) := by
  unfold execChannelStart
  simp only
  split <;> simp only [↓filed_ite, ite_self, keepsFiled_next, ↓filed_startChan]

theorem filed_execTreeStopEffect (t : Tree) (s : State) : KeepsFiled s (execTreeStopEffect t s) := by
  simp only [execTreeStopEffect, ite_self, implies_true, ↓filed_foldl, keepsFiled_next, keepsFiled_ite, ↓filed_raise, ↓filed_closeFrame,
    ↓filed_stopChan, ↓filed_stopTree]

theorem filed_execTimeTodGet (h : Hdr) (tree sHi sLo : Word) (s : State) : KeepsFiled s (execTimeTodGet h tree sHi sLo s) := by
  simp only [execTimeTodGet, ite_self, implies_true, st_ite, st_ok, st_fail, keepsFiled_next, ↓filed_command]

/-! ### Lanes -/

theorem filed_setLane (s : State) (family i st stage : Nat) : (s.setLane family i st stage).filed = s.filed := by
  simp only [State.setLane, ↓filed_ite, ↓filed_mk, ite_self, ↓filed_setFld, ↓filed_pmDefect, ↓filed_tandemDown]

theorem filed_setPower (s : State) (family i : Nat) (on : Bool) : (s.setPower family i on).filed = s.filed := by
  simp only [State.setPower, ↓filed_ite, ite_self, ↓filed_setFlag]

theorem filed_laneOn (s : State) (family i : Nat) : (s.laneOn family i).filed = s.filed := by
  simp only [State.laneOn, ↓filed_ite, ite_self, ↓filed_setDomain, ↓filed_setLane, ↓filed_setPower]

theorem filed_dropHeld (s : State) (port : Nat) (c : Ctr) : (s.dropHeld port c).filed = s.filed := by
  simp only [State.dropHeld, ↓filed_mk, ↓filed_countBy]

theorem filed_clearLocks (s : State) (family i : Nat) (afresh : Bool) : (s.clearLocks family i afresh).filed = s.filed := by
  simp only [State.clearLocks, ↓filed_ite, ↓filed_mk, ite_self, ↓filed_setFlag]

theorem filed_laneDark (s : State) (family i : Nat) : (s.laneDark family i).filed = s.filed := by
  simp only [State.laneDark, ↓filed_ite, ite_self, ↓filed_countBy, ↓filed_setChan, ↓filed_setDomain, ↓filed_setLane, ↓filed_dropHeld,
    ↓filed_clearLocks]

theorem filed_laneOff (s : State) (family i : Nat) : (s.laneOff family i).filed = s.filed := by
  simp only [State.laneOff, ↓filed_ite, ↓filed_mk, ite_self, ↓filed_memberGone, ↓filed_darken, ↓filed_setPower, ↓filed_laneDark]

theorem filed_laneTurn (s : State) (family i : Nat) (on : Bool) : (s.laneTurn family i on).filed = s.filed := by
  simp only [State.laneTurn, ↓filed_ite, ite_self, implies_true, ↓filed_foldl, ↓filed_laneOn, ↓filed_laneOff]

theorem filed_execLanePower (h : Hdr) (family index on : Word) (s : State) : KeepsFiled s (execLanePower h family index on s) := by
  simp only [execLanePower, ↓filed_ite, ite_self, implies_true, st_ite, st_ok, st_fail, keepsFiled_next, ↓filed_command,
    ↓filed_unlessClaimed, ↓filed_laneTurn]

theorem filed_execLaneStatus (h : Hdr) (family index : Word) (s : State) : KeepsFiled s (execLaneStatus h family index s) := by
  simp only [execLaneStatus, ite_self, implies_true, st_ite, st_ok, st_fail, keepsFiled_next, ↓filed_command]

theorem filed_setMode (s : State) (o oct800 quad0 quad1 half50 : Nat) : (s.setMode o oct800 quad0 quad1 half50).filed = s.filed := by
  simp only [State.setMode, ↓filed_setFld]

theorem filed_execLaneModeSet (h : Hdr) (octet oct800 quad0 quad1 half50 : Word)
    (s : State) : KeepsFiled s (execLaneModeSet h octet oct800 quad0 quad1 half50 s) := by
  simp only [execLaneModeSet, ↓filed_ite, ite_self, implies_true, st_ite, st_ok, st_fail, keepsFiled_next, ↓filed_command,
    ↓filed_unlessClaimed, ↓filed_setMode]

theorem filed_writeLnuMode (s : State) (p : APath) (o : Nat) (data : Word) : (s.writeLnuMode p o data).filed = s.filed := by
  simp only [State.writeLnuMode, ↓filed_ite, ite_self, ↓filed_setReg, ↓filed_report, ↓filed_unclaimedWrite]

theorem filed_execLnuModeWrite (p : APath) (octet : BitVec 3) (data : Word) (s : State) :
    KeepsFiled s (execLnuModeWrite p octet data s) := by
  simp only [execLnuModeWrite, keepsFiled_next, ↓filed_writeLnuMode]

theorem filed_execLaneIntfSet (h : Hdr) (port intf an : Word) (s : State) : KeepsFiled s (execLaneIntfSet h port intf an s) := by
  simp only [execLaneIntfSet, ↓filed_ite, ite_self, implies_true, st_ite, ↓filed_foldl, st_ok, st_fail, keepsFiled_next, ↓filed_setFld,
    ↓filed_command, ↓filed_unlessClaimed]

theorem filed_execLaneEqSet (h : Hdr) (family index pre post gain : Word)
    (s : State) : KeepsFiled s (execLaneEqSet h family index pre post gain s) := by
  simp only [execLaneEqSet, ↓filed_ite, ↓filed_mk, ite_self, implies_true, st_ite, ↓filed_foldl, st_ok, st_fail, keepsFiled_next,
    ↓filed_command, ↓filed_unlessClaimed]

theorem filed_hostDown (s : State) (toDetect : Bool) : (s.hostDown toDetect).filed = s.filed := by
  simp only [State.hostDown, ↓filed_ite, ↓filed_mk, ite_self, ↓filed_count, ↓filed_report, ↓filed_losePath, ↓filed_setLane]

theorem filed_hostUp (s : State) : s.hostUp.filed = s.filed := by
  simp only [State.hostUp, ↓filed_mk, implies_true, ↓filed_foldl, ↓filed_send, ↓filed_flushReplies, ↓filed_setLane]

theorem filed_execHostLinkDown (toDetect : Bool) (s : State) : KeepsFiled s (execHostLinkDown toDetect s) := by
  simp only [execHostLinkDown, keepsFiled_next, ↓filed_hostDown]

theorem filed_execHostLinkUp (width rate : BitVec 3) (s : State) : KeepsFiled s (execHostLinkUp width rate s) := by
  simp only [execHostLinkUp, ↓filed_mk, keepsFiled_next, ↓filed_hostUp]

theorem filed_bringUp (s : State) (family i stage : Nat) : (s.bringUp family i stage).filed = s.filed := by
  simp only [State.bringUp, ↓filed_ite, ite_self, ↓filed_setLane, ↓filed_clearLocks]

theorem filed_execLaneRetrain (h : Hdr) (family index : Word) (s : State) : KeepsFiled s (execLaneRetrain h family index s) := by
  simp only [execLaneRetrain, ↓filed_ite, ite_self, implies_true, st_ite, ↓filed_foldl, st_ok, st_fail, keepsFiled_next, ↓filed_command,
    ↓filed_unlessClaimed, ↓filed_hostDown, ↓filed_bringUp]

theorem filed_execLnuRetrain (x0 : APath) (l : Lane) (s : State) : KeepsFiled s (execLnuRetrain x0 l s) := by
  simp only [execLnuRetrain, implies_true, ↓filed_foldl, keepsFiled_next, ↓filed_bringUp]

theorem filed_protectedWrite (s : State) (t : Nat) : (s.protectedWrite t).filed = s.filed := by
  simp only [State.protectedWrite, ↓filed_report]

theorem filed_writeLanePower (s : State) (p : APath) (f i : Nat) (on : Bool) : (s.writeLanePower p f i on).filed = s.filed := by
  simp only [State.writeLanePower, ↓filed_ite, ite_self, ↓filed_unclaimedWrite, ↓filed_laneTurn, ↓filed_protectedWrite]

theorem filed_execLanePowerBitWrite (p : APath) (family : BitVec 2) (index : BitVec 7) (on : Bool)
    (s : State) : KeepsFiled s (execLanePowerBitWrite p family index on s) := by
  simp only [execLanePowerBitWrite, ite_self, keepsFiled_next, keepsFiled_ite, ↓filed_writeLanePower]

theorem filed_execLanePllLock (l : LaneRef) (s : State) : KeepsFiled s (execLanePllLock l s) := by
  simp only [execLanePllLock, ↓filed_ite, ite_self, keepsFiled_next, keepsFiled_ite, ↓filed_setLane]

theorem filed_execLanePllTimeout (l : LaneRef) (s : State) : KeepsFiled s (execLanePllTimeout l s) := by
  simp only [execLanePllTimeout, ↓filed_ite, ite_self, keepsFiled_next, keepsFiled_ite, ↓filed_report, ↓filed_memberGone, ↓filed_setLane]

theorem filed_execTransmitterStop (c : Chan) (s : State) : KeepsFiled s (execTransmitterStop c s) := by
  simp only [execTransmitterStop, ↓filed_ite, ↓filed_mk, ite_self, keepsFiled_next, keepsFiled_ite, ↓filed_laneOn, ↓filed_laneDark]

theorem filed_tandemFail (s : State) (i : Nat) : (s.tandemFail i).filed = s.filed := by
  simp only [State.tandemFail, ↓filed_mk, ↓filed_report, ↓filed_setLane, ↓filed_clearLocks]

theorem filed_sendPair (s : State) : s.sendPair.filed = s.filed := by
  simp only [State.sendPair, ↓filed_ite, ite_self, ↓filed_drawn, ↓filed_modTandem, ↓filed_sendRecord]

theorem filed_measureDelays (s : State) (port : Nat) : (s.measureDelays port).filed = s.filed := by
  simp only [State.measureDelays, ↓filed_mk, ↓filed_drawn]

theorem filed_stageDone (s : State) (f i peer dev : Nat) : (s.stageDone f i peer dev).filed = s.filed := by
  simp only [State.stageDone, ↓filed_ite, ite_self, ↓filed_setFld, ↓filed_setFlag, ↓filed_raise, ↓filed_count, ↓filed_report,
    ↓filed_setLane, ↓filed_hostUp, ↓filed_tandemFail, ↓filed_sendPair, ↓filed_measureDelays]

theorem filed_stageServed (s : State) (f i peer dev : Nat) : (s.stageServed f i peer dev).filed = s.filed := by
  simp only [State.stageServed, ↓filed_ite, ite_self, implies_true, ↓filed_foldl, ↓filed_stageDone]

theorem filed_execLaneStageDone (l : LaneRef) (peerIndex : BitVec 3) (peerDev : BitVec 10)
    (s : State) : KeepsFiled s (execLaneStageDone l peerIndex peerDev s) := by
  simp only [execLaneStageDone, ↓filed_ite, ite_self, implies_true, keepsFiled_next, keepsFiled_ite, ↓filed_toSequencer,
    ↓filed_stageServed]

theorem filed_execTndStageTimeout (l : TLane) (s : State) : KeepsFiled s (execTndStageTimeout l s) := by
  simp only [execTndStageTimeout, ite_self, keepsFiled_next, keepsFiled_ite, ↓filed_tandemFail]

theorem filed_execLaneRetryPauseEnd (l : TLane) (s : State) : KeepsFiled s (execLaneRetryPauseEnd l s) := by
  simp only [execLaneRetryPauseEnd, ↓filed_mk, ite_self, keepsFiled_next, keepsFiled_ite, ↓filed_bringUp]

theorem filed_execLnuTrainFail (l : Lane) (s : State) : KeepsFiled s (execLnuTrainFail l s) := by
  simp only [execLnuTrainFail, ite_self, implies_true, ↓filed_foldl, keepsFiled_next, keepsFiled_ite, ↓filed_report, ↓filed_bringUp]

theorem filed_tandemUnlock (s : State) (i : Nat) : (s.tandemUnlock i).filed = s.filed := by
  simp only [State.tandemUnlock, ↓filed_bringUp]

theorem filed_execTndBlockRx (l : TLane) (header : BitVec 2) (s : State) : KeepsFiled s (execTndBlockRx l header s) := by
  simp only [execTndBlockRx, ↓filed_ite, ↓filed_mk, ite_self, keepsFiled_next, keepsFiled_ite, ↓filed_count, ↓filed_report,
    ↓filed_stageDone, ↓filed_tandemUnlock]

theorem filed_execTndRelockTimeout (l : TLane) (s : State) : KeepsFiled s (execTndRelockTimeout l s) := by
  simp only [execTndRelockTimeout, ite_self, keepsFiled_next, keepsFiled_ite, ↓filed_tandemFail]

theorem filed_uplinkDown (s : State) (port : Nat) : (s.uplinkDown port).filed = s.filed := by
  simp only [State.uplinkDown, ↓filed_ite, ite_self, implies_true, ↓filed_foldl, ↓filed_report, ↓filed_dropHeld, ↓filed_bringUp]

theorem filed_execLnuLinkDown (l : Lane) (s : State) : KeepsFiled s (execLnuLinkDown l s) := by
  simp only [execLnuLinkDown, keepsFiled_next, ↓filed_uplinkDown]

theorem filed_execLnuFecWindow (l : Lane) (corr uncorr symbols codewords : BitVec 32) (whole : Bool)
    (s : State) : KeepsFiled s (execLnuFecWindow l corr uncorr symbols codewords whole s) := by
  simp only [execLnuFecWindow, ↓filed_mk, ite_self, keepsFiled_next, keepsFiled_ite, ↓filed_raise, ↓filed_pmBlocks, ↓filed_countBy]

theorem filed_masterLoses (s : State) (n : Nat) : (s.masterLoses n).filed = s.filed := by
  simp only [State.masterLoses, ↓filed_ite, ite_self, ↓filed_setFld, ↓filed_setFlag, ↓filed_report]

theorem filed_refLost (s : State) (r : Nat) : (s.refLost r).filed = s.filed := by
  simp only [State.refLost, ↓filed_ite, ite_self, implies_true, ↓filed_foldl, ↓filed_drive, ↓filed_pmDefect, ↓filed_report,
    ↓filed_memberGone, ↓filed_darken, ↓filed_stopTree, ↓filed_hostDown, ↓filed_tandemUnlock, ↓filed_uplinkDown, ↓filed_masterLoses]

theorem filed_execRefclkLoss (ref : BitVec 3) (s : State) : KeepsFiled s (execRefclkLoss ref s) := by
  simp only [execRefclkLoss, keepsFiled_next, ↓filed_refLost]

theorem filed_laneAgain (s : State) (family i : Nat) : (s.laneAgain family i).filed = s.filed := by
  simp only [State.laneAgain, ↓filed_ite, ite_self, ↓filed_setLane, ↓filed_clearLocks]

theorem filed_execRefclkReturn (ref : BitVec 3) (s : State) : KeepsFiled s (execRefclkReturn ref s) := by
  simp only [execRefclkReturn, ↓filed_mk, ite_self, implies_true, ↓filed_foldl, keepsFiled_next, keepsFiled_ite, ↓filed_drive,
    ↓filed_laneAgain]

theorem filed_execRefHoldoverExit (which : BitVec 1) (s : State) : KeepsFiled s (execRefHoldoverExit which s) := by
  simp only [execRefHoldoverExit, ite_self, keepsFiled_next, keepsFiled_ite, ↓filed_setFld, ↓filed_setFlag]

theorem filed_execLaneEyeScan (h : Hdr) (family index : Word) (dwell : BitVec 64)
    (s : State) : KeepsFiled s (execLaneEyeScan h family index dwell s) := by
  simp only [execLaneEyeScan, ↓filed_ite, ↓filed_mk, ite_self, implies_true, st_ite, st_fail, keepsFiled_next, ↓filed_command,
    ↓filed_unlessClaimed]

theorem filed_execEyeScanDone (die : BitVec 3) (margins : List Word) (s : State) : KeepsFiled s (execEyeScanDone die margins s) := by
  unfold execEyeScanDone
  split <;> simp only [↓filed_ite, ↓filed_mk, ite_self, keepsFiled_next, ↓filed_answer]

theorem filed_prbsErrors (s : State) (family i : Nat) : (s.prbsErrors family i).filed = s.filed := by
  simp only [State.prbsErrors, ↓filed_ite, ite_self, ↓filed_drawn, ↓filed_countBy]

theorem filed_prbsLook (s : State) : s.prbsLook.filed = s.filed := by
  simp only [State.prbsLook, implies_true, ↓filed_foldl, ↓filed_prbsErrors]

theorem filed_setPrbs (s : State) (family i pattern : Nat) (gen chk : Bool) : (s.setPrbs family i pattern gen chk).filed = s.filed := by
  simp only [State.setPrbs, ↓filed_ite, ↓filed_mk, ite_self, ↓filed_setFld, ↓filed_tandemDown, ↓filed_prbsErrors]

theorem filed_execLanePrbsSet (h : Hdr) (family index pattern generator checker : Word)
    (s : State) : KeepsFiled s (execLanePrbsSet h family index pattern generator checker s) := by
  simp only [execLanePrbsSet, ↓filed_ite, ite_self, implies_true, st_ite, ↓filed_foldl, st_ok, st_fail, keepsFiled_next, ↓filed_command,
    ↓filed_unlessClaimed, ↓filed_setPrbs]

theorem filed_writePrbs (s : State) (family i pattern : Nat) : (s.writePrbs family i pattern).filed = s.filed := by
  simp only [State.writePrbs, ↓filed_ite, ite_self, ↓filed_setPrbs]

theorem filed_execLaneCounters (h : Hdr) (family index : Word) (s : State) : KeepsFiled s (execLaneCounters h family index s) := by
  simp only [execLaneCounters, ↓filed_ite, ite_self, implies_true, st_ite, st_ok, st_fail, keepsFiled_next, ↓filed_command,
    ↓filed_prbsErrors]

/-! ### Profiles -/

theorem filed_setRec (s : State) (k : Nat) (r : AllocRec) : (s.setRec k r).filed = s.filed := (rfl)

theorem filed_modRec (s : State) (k : Nat) (f : AllocRec → AllocRec) : (s.modRec k f).filed = s.filed := (rfl)

theorem filed_offer (s : State) (c : Nat) (m : Ploam) : (s.offer c m).filed = s.filed := by
  simp only [State.offer, ↓filed_ite, ite_self, ↓filed_drawn, ↓filed_raiseOnceIn, ↓filed_count, ↓filed_setChan]

theorem filed_admitOffers (s : State) (c : Nat) : (s.admitOffers c).filed = s.filed := by
  simp only [State.admitOffers, ↓filed_setChan]

theorem filed_offer3 (s : State) (c : Nat) (m : Ploam) : (s.offer3 c m).filed = s.filed := by
  simp only [State.offer3, ↓filed_setChan, ↓filed_offer]

theorem filed_setWindows (s : State) (c : Nat) (l : List Window) : (s.setWindows c l).filed = s.filed := (rfl)

theorem filed_book (s : State) (c earliest : Nat) (ranging : Option Nat)
    (jsl : Nat × Nat × Nat) : (s.book c earliest ranging jsl).filed = s.filed := by
  simp only [State.book, ↓filed_ite, ite_self, ↓filed_setWindows]

theorem filed_resetPulse (s : State) (c at_ : Nat) : (s.resetPulse c at_).filed = s.filed := by
  simp only [State.resetPulse, ↓filed_send]

theorem filed_resetAfter (s : State) (c : Nat) (w : Window) (arrival : Nat) : (s.resetAfter c w arrival).filed = s.filed := by
  simp only [State.resetAfter, ↓filed_resetPulse]

/-! ### Activation -/

theorem filed_eraseKeys (s : State) (p : VKey → Bool) : (s.eraseKeys p).filed = s.filed := (rfl)

theorem filed_flushOnu (s : State) (o : Nat) : (s.flushOnu o).filed = s.filed := by
  unfold State.flushOnu
  split <;> simp only [implies_true, ↓filed_foldl, ↓filed_flushPort]

theorem filed_endRekey (s : State) (o : Nat) : (s.endRekey o).filed = s.filed := by
  unfold State.endRekey
  split <;> simp only [↓filed_answer, ↓filed_modOnu]

theorem filed_unbook (s : State) (o : Nat) : (s.unbook o).filed = s.filed := by
  unfold State.unbook
  split <;> simp only [↓filed_setWindows]

theorem filed_tell3 (s : State) (x : OnuSlot) (m : Ploam) : (s.tell3 x m).filed = s.filed := by
  simp only [State.tell3, implies_true, ↓filed_foldl, ↓filed_offer3]

theorem filed_deactivate (s : State) (o : Nat) (ph : OnuPhase) : (s.deactivate o ph).filed = s.filed := by
  unfold State.deactivate
  split <;> simp only [↓filed_modOnu, ↓filed_eraseKeys, ↓filed_flushOnu, ↓filed_endRekey, ↓filed_unbook, ↓filed_tell3]

theorem filed_failOnu (s : State) (o : Nat) (c : Ctr) (e : Ev) : (s.failOnu o c e).filed = s.filed := by
  unfold State.failOnu
  split <;> simp only [↓filed_ite, ite_self, ↓filed_count, ↓filed_report, ↓filed_deactivate]

theorem filed_bookRanging (s : State) (o : Nat) : (s.bookRanging o).filed = s.filed := by
  unfold State.bookRanging
  repeat' split
  all_goals simp only [↓filed_modOnu, ↓filed_book]

theorem filed_assign (s : State) (o : Nat) : (s.assign o).filed = s.filed := by
  unfold State.assign
  split <;> simp only [↓filed_ite, ite_self, ↓filed_modOnu, ↓filed_offer, ↓filed_bookRanging]

theorem filed_askKey (s : State) (o : Nat) : (s.askKey o).filed = s.filed := by
  unfold State.askKey
  split <;> simp only [↓filed_modOnu, ↓filed_offer]

theorem filed_keyFailed (s : State) (o : Nat) : (s.keyFailed o).filed = s.filed := by
  unfold State.keyFailed
  split <;> simp only [↓filed_ite, ite_self, ↓filed_report, ↓filed_modOnu, ↓filed_endRekey, ↓filed_deactivate, ↓filed_askKey]

theorem filed_idFree (s : State) (t : Nat) (ids : List (Nat × Nat)) (r : Res) :
    (s.idFree t ids r).st.filed =
      if (ids.find? (fun k => (s.holder t k.1 k.2).isSome)).isSome ∨ (ids.find? (fun k => s.resting t k.1 k.2)).isSome
      then s.filed else r.st.filed := by
  unfold State.idFree
  split <;> rename_i h
  · simp only [h, st_fail, Option.isSome_some, true_or, if_true]
  · split <;> rename_i k <;> simp [h, k]

theorem filed_provision (s : State) (o : Nat) (x : OnuSlot) : (s.provision o x).filed = s.filed := by
  unfold State.provision
  extract_lets t u v p w
  have hw : w.filed = s.filed := by simp only [w, ↓filed_mk, v, ↓filed_setIdent, u, ↓filed_setOnu]
  split
  · exact (filed_setRec ..).trans hw
  · exact hw

theorem filed_execOnuProvision (h : Hdr) (onu tree wl onuId serialHi serialLo : Word) (regId : List Word) (auto : Word)
    (s : State) : KeepsFiled s (execOnuProvision h onu tree wl onuId serialHi serialLo regId auto s) := by
  simp only [execOnuProvision, ↓filed_ite, ite_self, implies_true, st_ite, st_ok, st_fail, keepsFiled_next, ↓filed_command,
    ↓filed_onTree, ↓filed_idFree, ↓filed_provision]

theorem filed_onOnu (s : State) (o : Nat) (body : OnuSlot → Res) (bs : List Blk) (hbody : ∀ x, (body x).st.filed = s.filed) :
    (s.onOnu o body bs).st.filed = s.filed := by
  unfold State.onOnu
  split
  · rfl
  · simp only [filed_onTree, hbody, ite_self]

theorem filed_unlessFence (s : State) (x : OnuSlot) (r : Res) :
    (s.unlessFence x r).st.filed = if x.migration.isSome then s.filed else r.st.filed := by
  unfold State.unlessFence
  split <;> rename_i h <;> simp [h]

theorem filed_execOnuActivate (h : Hdr) (onu : Word) (s : State) : KeepsFiled s (execOnuActivate h onu s) := by
  simp only [execOnuActivate, ↓filed_ite, ite_self, implies_true, st_ite, st_ok, st_fail, keepsFiled_next, ↓filed_command, ↓filed_assign,
    ↓filed_onOnu]

theorem filed_execOnuDeactivate (h : Hdr) (onu : Word) (s : State) : KeepsFiled s (execOnuDeactivate h onu s) := by
  simp only [execOnuDeactivate, ↓filed_ite, ite_self, implies_true, st_ite, st_ok, keepsFiled_next, ↓filed_command, ↓filed_deactivate,
    ↓filed_onOnu, ↓filed_unlessFence]

theorem filed_releaseOnu (s : State) (o : Nat) : (s.releaseOnu o).filed = s.filed := by
  unfold State.releaseOnu
  simp only
  repeat' split
  all_goals simp only [↓filed_mk, implies_true, ↓filed_foldl, ↓filed_answer, ↓filed_release, ↓filed_eraseKeys, ↓filed_endRekey,
    ↓filed_unbook]

theorem filed_execOnuRelease (h : Hdr) (onu : Word) (s : State) : KeepsFiled s (execOnuRelease h onu s) := by
  simp only [execOnuRelease, ite_self, implies_true, st_ok, keepsFiled_next, ↓filed_command, ↓filed_onOnu, ↓filed_unlessFence,
    ↓filed_releaseOnu]

theorem filed_setDisabled (s : State) (t : Nat) (l : List Nat) : (s.setDisabled t l).filed = s.filed := (rfl)

theorem filed_disableOnu (s : State) (o : Nat) : (s.disableOnu o).filed = s.filed := by
  unfold State.disableOnu
  split <;> simp only [↓filed_modOnu, ↓filed_tell3, ↓filed_deactivate]

theorem filed_enableOnu (s : State) (o : Nat) : (s.enableOnu o).filed = s.filed := by
  unfold State.enableOnu
  split <;> simp only [↓filed_ite, ite_self, ↓filed_modOnu, ↓filed_offer]

theorem filed_execOnuDisable (h : Hdr) (onu tree serialHi serialLo : Word)
    (s : State) : KeepsFiled s (execOnuDisable h onu tree serialHi serialLo s) := by
  unfold execOnuDisable
  rw [keepsFiled_next]
  refine filed_command _ _ _ _ _ fun c t => ?_
  simp only [↓filed_ite, implies_true, st_ite, st_ok, st_fail, ↓filed_onTree, ↓filed_onOnu, ↓filed_disableOnu]
  repeat' split
  all_goals simp only [implies_true, ↓filed_foldl, st_ok, st_fail, ↓filed_offer3, ↓filed_setDisabled, ↓filed_disableOnu]

theorem filed_enableSerial (s : State) (t serial : Nat) : (s.enableSerial t serial).filed = s.filed := by
  simp only [State.enableSerial, ↓filed_ite, ite_self, implies_true, ↓filed_foldl, ↓filed_offer, ↓filed_setDisabled]

theorem filed_execOnuEnable (h : Hdr) (onu tree serialHi serialLo : Word)
    (s : State) : KeepsFiled s (execOnuEnable h onu tree serialHi serialLo s) := by
  unfold execOnuEnable
  rw [keepsFiled_next]
  refine filed_command _ _ _ _ _ fun c t => ?_
  simp only [↓filed_ite, implies_true, st_ite, st_ok, st_fail, ↓filed_onTree, ↓filed_onOnu, ↓filed_enableOnu]
  repeat' split
  all_goals simp only [st_ok, ↓filed_enableOnu, ↓filed_enableSerial]

theorem filed_migrate (s : State) (o : Nat) (x : OnuSlot) (target : Option Nat)
    (earliest : Nat) : (s.migrate o x target earliest).st.filed = s.filed := by
  simp only [State.migrate, st_ok, ↓filed_modOnu, ↓filed_offer]

theorem filed_execOnuMigrate (h : Hdr) (onu target sHi sLo : Word) (s : State) :
    KeepsFiled s (execOnuMigrate h onu target sHi sLo s) := by
  simp only [execOnuMigrate, ↓filed_ite, ite_self, implies_true, st_ite, st_fail, keepsFiled_next, ↓filed_command, ↓filed_onOnu,
    ↓filed_unlessFence, ↓filed_migrate]

theorem filed_execOnuPortSet (h : Hdr) (onu port kind dir : Word) (s : State) : KeepsFiled s (execOnuPortSet h onu port kind dir s) := by
  unfold execOnuPortSet
  rw [keepsFiled_next]
  refine filed_command _ _ _ _ _ fun c t => filed_onOnu _ _ _ _ fun x => ?_
  simp only [↓filed_ite, st_ite, st_fail]
  repeat' split
  all_goals simp only [↓filed_mk, st_ok, st_fail, ↓filed_setIdent, ↓filed_flushPort]

theorem filed_execOnuPortClear (h : Hdr) (onu port : Word) (s : State) : KeepsFiled s (execOnuPortClear h onu port s) := by
  simp only [execOnuPortClear, ↓filed_ite, ite_self, implies_true, st_ite, st_ok, st_fail, keepsFiled_next, ↓filed_command,
    ↓filed_release, ↓filed_onOnu]

theorem filed_execOnuRekey (h : Hdr) (onu : Word) (s : State) : KeepsFiled s (execOnuRekey h onu s) := by
  simp only [execOnuRekey, ↓filed_ite, ite_self, implies_true, st_ite, st_fail, keepsFiled_next, ↓filed_command, ↓filed_modOnu,
    ↓filed_askKey, ↓filed_onOnu]

theorem filed_execOnuStatus (h : Hdr) (onu : Word) (s : State) : KeepsFiled s (execOnuStatus h onu s) := by
  unfold execOnuStatus
  rw [keepsFiled_next]
  refine filed_command _ _ _ _ _ fun c t => ?_
  repeat' split
  all_goals simp only [st_ok, st_fail]

theorem filed_execOnuIdQuery (h : Hdr) (tree kind value : Word) (s : State) : KeepsFiled s (execOnuIdQuery h tree kind value s) := by
  unfold execOnuIdQuery
  rw [keepsFiled_next]
  refine filed_command _ _ _ _ _ fun c t => ?_
  simp only [↓filed_ite, st_ite, st_fail]
  repeat' split
  all_goals simp only [st_ok]

theorem filed_scanNext (s : State) (c : Nat) (x : RogueScan) : (s.scanNext c x).filed = s.filed := by
  unfold State.scanNext
  split <;> simp only [↓filed_mk, ↓filed_answer, ↓filed_disableOnu]

theorem filed_execOnuRogueScan (h : Hdr) (chan : Word) (onus : List Word) (s : State) :
    KeepsFiled s (execOnuRogueScan h chan onus s) := by
  simp only [execOnuRogueScan, ↓filed_ite, ite_self, implies_true, st_ite, st_fail, keepsFiled_next, ↓filed_command, ↓filed_onTree,
    ↓filed_scanNext]

theorem filed_execRogueScanStep (c : Chan) (s : State) : KeepsFiled s (execRogueScanStep c s) := by
  unfold execRogueScanStep
  split <;> simp only [↓filed_ite, ite_self, keepsFiled_next, ↓filed_enableOnu, ↓filed_scanNext]

theorem filed_execRogueFrameEval (c : Chan) (lit : BitVec 16) (s : State) : KeepsFiled s (execRogueFrameEval c lit s) := by
  unfold execRogueFrameEval
  simp only [↓filed_ite, ↓filed_mk, ite_self, keepsFiled_next, ↓filed_raise]
  split <;> simp only [↓filed_ite, ↓filed_mk, ite_self, ↓filed_count]

theorem filed_execTreeReachSet (h : Hdr) (tree minReach maxReach rdr lobThr regTo keyTo lostMs : Word)
    (s : State) : KeepsFiled s (execTreeReachSet h tree minReach maxReach rdr lobThr regTo keyTo lostMs s) := by
  simp only [execTreeReachSet, ↓filed_ite, ite_self, implies_true, st_ite, st_ok, st_fail, keepsFiled_next, ↓filed_setFld,
    ↓filed_command, ↓filed_onTree]

theorem filed_execTreeSnSet (h : Hdr) (chan snEn snIvl profile rogueThr : Word)
    (s : State) : KeepsFiled s (execTreeSnSet h chan snEn snIvl profile rogueThr s) := by
  simp only [execTreeSnSet, ↓filed_ite, ite_self, implies_true, st_ite, st_ok, st_fail, keepsFiled_next, ↓filed_setFld, ↓filed_command,
    ↓filed_onTree]

theorem filed_execTreeDiscoveredRead (h : Hdr) (tree : Word) (s : State) : KeepsFiled s (execTreeDiscoveredRead h tree s) := by
  simp only [execTreeDiscoveredRead, ↓filed_ite, ite_self, implies_true, st_ite, st_ok, st_fail, keepsFiled_next, ↓filed_command,
    ↓filed_onTree]

theorem filed_execSnWindowBook (c : Chan) (s : State) : KeepsFiled s (execSnWindowBook c s) := by
  simp only [execSnWindowBook, ↓filed_mk, ite_self, keepsFiled_next, keepsFiled_ite, ↓filed_book]

theorem filed_discover (s : State) (t serial c x : Nat) : (s.discover t serial c x).filed = s.filed := by
  simp only [State.discover, ↓filed_ite, ↓filed_mk, ite_self, ↓filed_report]

theorem filed_snServed (s : State) (c serial x frame : Nat) : (s.snServed c serial x frame).filed = s.filed := by
  unfold State.snServed
  simp only [↓filed_ite, ↓filed_count]
  repeat' split
  all_goals simp only [↓filed_raise, ↓filed_count, ↓filed_report, ↓filed_modOnu, ↓filed_assign, ↓filed_discover]

theorem filed_execSnResponseRx (c : Chan) (serial : BitVec 64) (arrival : BitVec 32) (good : Bool)
    (s : State) : KeepsFiled s (execSnResponseRx c serial arrival good s) := by
  unfold execSnResponseRx
  simp only
  split <;> simp only [ite_self, implies_true, keepsFiled_next, keepsFiled_ite, ↓filed_count, ↓filed_toActivation, ↓filed_resetAfter,
    ↓filed_snServed]

theorem filed_sendEqd (s : State) (c onuId eqd : Nat) : (s.sendEqd c onuId eqd).filed = s.filed := by
  simp only [State.sendEqd, ↓filed_offer]

theorem filed_passiveRange (s : State) (o : Nat) (rt : Int) : (s.passiveRange o rt).filed = s.filed := by
  simp only [State.passiveRange, ↓filed_modTandem]

theorem filed_rangingServed (s : State) (o : Nat) (rt : Int) : (s.rangingServed o rt).filed = s.filed := by
  unfold State.rangingServed
  split <;> simp only [↓filed_ite, ite_self, ↓filed_modOnu, ↓filed_offer, ↓filed_unbook, ↓filed_failOnu, ↓filed_sendEqd]

theorem filed_execRangingBurstRx (onu : Onu) (arrival : BitVec 32) (s : State) : KeepsFiled s (execRangingBurstRx onu arrival s) := by
  unfold execRangingBurstRx
  simp only
  split <;> simp only [ite_self, implies_true, keepsFiled_next, keepsFiled_ite, ↓filed_toActivation, ↓filed_resetAfter,
    ↓filed_passiveRange, ↓filed_rangingServed]

theorem filed_execRangingWindowEnd (onu : Onu) (s : State) : KeepsFiled s (execRangingWindowEnd onu s) := by
  unfold execRangingWindowEnd
  simp only
  split <;> simp only [ite_self, keepsFiled_next, keepsFiled_ite, ↓filed_modOnu, ↓filed_unbook, ↓filed_failOnu, ↓filed_bookRanging]

theorem filed_registrationServed (s : State) (o : Nat) (regId : List Word) : (s.registrationServed o regId).filed = s.filed := by
  unfold State.registrationServed
  split <;> simp only [↓filed_ite, ite_self, ↓filed_modOnu, ↓filed_failOnu, ↓filed_askKey]

theorem filed_execRegistrationReply (onu : Onu) (regId : List Word) (s : State) : KeepsFiled s (execRegistrationReply onu regId s) := by
  unfold execRegistrationReply
  split <;> simp only [implies_true, keepsFiled_next, ↓filed_toActivation, ↓filed_registrationServed]

theorem filed_execRegistrationTimeout (onu : Onu) (s : State) : KeepsFiled s (execRegistrationTimeout onu s) := by
  unfold execRegistrationTimeout
  split <;> simp only [ite_self, keepsFiled_next, keepsFiled_ite, ↓filed_failOnu]

theorem filed_execKeyTimeout (onu : Onu) (s : State) : KeepsFiled s (execKeyTimeout onu s) := by
  unfold execKeyTimeout
  split <;> simp only [ite_self, keepsFiled_next, keepsFiled_ite, ↓filed_keyFailed]

theorem filed_execLostTimeout (onu : Onu) (s : State) : KeepsFiled s (execLostTimeout onu s) := by
  unfold execLostTimeout
  split <;> simp only [ite_self, keepsFiled_next, keepsFiled_ite, ↓filed_failOnu]

theorem filed_execPaddockRestEnd (t : Tree) (kind : BitVec 2) (value : BitVec 16)
    (s : State) : KeepsFiled s (execPaddockRestEnd t kind value s) := by
  simp only [execPaddockRestEnd, ↓filed_ite, ↓filed_mk, ite_self, keepsFiled_next, keepsFiled_ite, ↓filed_setIdent]

theorem filed_execMigrationFence (onu : Onu) (s : State) : KeepsFiled s (execMigrationFence onu s) := by
  simp only [execMigrationFence, keepsFiled_next, ↓filed_modOnu]

theorem filed_execMigrationComplete (onu : Onu) (s : State) : KeepsFiled s (execMigrationComplete onu s) := by
  simp only [execMigrationComplete, keepsFiled_next, ↓filed_modOnu]

/-! ### Grants -/

theorem filed_execGrantChannelSet (h : Hdr) (chan enable guard admPct ploamIvl : Word)
    (s : State) : KeepsFiled s (execGrantChannelSet h chan enable guard admPct ploamIvl s) := by
  simp only [execGrantChannelSet, ↓filed_ite, ite_self, implies_true, st_ite, st_ok, st_fail, keepsFiled_next, ↓filed_setFld,
    ↓filed_command, ↓filed_onTree]

theorem filed_execGrantTreeSet (h : Hdr) (tree cutoff coopEn : Word) (s : State) :
    KeepsFiled s (execGrantTreeSet h tree cutoff coopEn s) := by
  simp only [execGrantTreeSet, ↓filed_ite, ite_self, implies_true, st_ite, st_ok, st_fail, keepsFiled_next, ↓filed_setFld,
    ↓filed_command, ↓filed_onTree]

theorem filed_execGrantAllocSet (h : Hdr) (onu allocId : Word) (p : AllocWords)
    (s : State) : KeepsFiled s (execGrantAllocSet h onu allocId p s) := by
  unfold execGrantAllocSet
  rw [keepsFiled_next]
  refine filed_command _ _ _ _ _ fun c t => filed_onOnu _ _ _ _ fun x => ?_
  simp only [↓filed_ite, st_ite, st_fail]
  repeat' split
  all_goals simp only [st_ok, st_fail, ↓filed_setIdent, ↓filed_setRec]

theorem filed_execGrantAllocClear (h : Hdr) (onu allocId : Word) (s : State) : KeepsFiled s (execGrantAllocClear h onu allocId s) := by
  simp only [execGrantAllocClear, ↓filed_ite, ite_self, implies_true, st_ite, st_ok, st_fail, keepsFiled_next, ↓filed_command,
    ↓filed_release, ↓filed_onOnu]

theorem filed_execGrantAllocGet (h : Hdr) (onu allocId : Word) (s : State) : KeepsFiled s (execGrantAllocGet h onu allocId s) := by
  unfold execGrantAllocGet
  rw [keepsFiled_next]
  refine filed_command _ _ _ _ _ fun c t => ?_
  repeat' split
  all_goals simp only [st_ok, st_fail]

theorem filed_addHint (s : State) (t place : Nat) (x : Hint) : (s.addHint t place x).filed = s.filed := by
  simp only [State.addHint, ↓filed_ite, ↓filed_mk, ite_self, ↓filed_raise, ↓filed_countBy]

theorem filed_execGrantHint (h : Hdr) (record sHi sLo frames bytes pin : Word)
    (s : State) : KeepsFiled s (execGrantHint h record sHi sLo frames bytes pin s) := by
  unfold execGrantHint
  rw [keepsFiled_next]
  refine filed_command _ _ _ _ _ fun c t => ?_
  simp only
  repeat' split
  all_goals simp only [ite_self, st_ok, st_fail, ↓filed_report, ↓filed_onTree, ↓filed_addHint]

theorem filed_execGrantHintCancel (h : Hdr) (handle : Word) (s : State) : KeepsFiled s (execGrantHintCancel h handle s) := by
  unfold execGrantHintCancel
  rw [keepsFiled_next]
  refine filed_command _ _ _ _ _ fun c t => ?_
  repeat' split
  all_goals simp only [↓filed_mk, ite_self, st_ok, st_fail, ↓filed_onTree]

theorem filed_execGrantCtiSet (h : Hdr) (ports : List Word) (udp : Word) (sources : List (BitVec 128))
    (pairs : List (Word × Word × Word)) (s : State) : KeepsFiled s (execGrantCtiSet h ports udp sources pairs s) := by
  simp only [execGrantCtiSet, ↓filed_ite, ↓filed_mk, ite_self, implies_true, st_ite, st_ok, st_fail, keepsFiled_next, ↓filed_command,
    ↓filed_unlessClaimed]

theorem filed_execCtiReportRx (port : Lane) (udp : BitVec 16) (source : BitVec 128) (entity flow : Word) (start : T3)
    (length bytes : Word) (wellFormed : Bool)
    (s : State) : KeepsFiled s (execCtiReportRx port udp source entity flow start length bytes wellFormed s) := by
  unfold execCtiReportRx
  simp only [keepsFiled_next, keepsFiled_ite]
  repeat' split
  all_goals simp only [keepsFiled_next, ↓filed_report, ↓filed_mirror, ↓filed_addHint]

theorem filed_setArms (s : State) (c : Nat) (l : List RssiArm) : (s.setArms c l).filed = s.filed := (rfl)

theorem filed_addArm (s : State) (x : OnuSlot) (a : RssiArm) : (s.addArm x a).filed = s.filed := by
  simp only [State.addArm, ↓filed_ite, ite_self, ↓filed_tellItem, ↓filed_setArms]

theorem filed_execGrantRssiArm (h : Hdr) (onu sHi sLo count : Word) (s : State) :
    KeepsFiled s (execGrantRssiArm h onu sHi sLo count s) := by
  unfold execGrantRssiArm
  rw [keepsFiled_next]
  refine filed_command _ _ _ _ _ fun c t => ?_
  repeat' split
  all_goals simp only [ite_self, st_ok, st_fail, ↓filed_onTree, ↓filed_addArm]

theorem filed_execRssiArmExpire (c : Chan) (s : State) : KeepsFiled s (execRssiArmExpire c s) := by
  simp only [execRssiArmExpire, implies_true, ↓filed_foldl, keepsFiled_next, ↓filed_report, ↓filed_setArms]

theorem filed_armMap (s : State) (c n : Nat) (map : List AllocStruct) : (s.armMap c n map).1.filed = s.filed := by
  unfold State.armMap
  simp only
  repeat' split
  all_goals simp only [↓filed_setArms]

theorem filed_execGrantMapRead (h : Hdr) (chan : Word) (s : State) : KeepsFiled s (execGrantMapRead h chan s) := by
  simp only [execGrantMapRead, ite_self, implies_true, st_ite, st_ok, st_fail, keepsFiled_next, ↓filed_command]

theorem filed_execGrantStatus (h : Hdr) (chan : Word) (s : State) : KeepsFiled s (execGrantStatus h chan s) := by
  simp only [execGrantStatus, ite_self, implies_true, st_ite, st_ok, st_fail, keepsFiled_next, ↓filed_command]

theorem filed_reportRx (s : State) (k : Nat) (rep : GrantReport) : (s.reportRx k rep).filed = s.filed := by
  simp only [State.reportRx, ↓filed_modRec]

theorem filed_decoded (s : State) (k : Nat) (rep : GrantReport) : (s.decoded k rep).filed = s.filed := by
  unfold State.decoded
  split <;> simp only [↓filed_ite, ite_self, ↓filed_modTndTree, ↓filed_modTndChan, ↓filed_sendRecord, ↓filed_reportRx]

theorem filed_execGrantReportRx (die : BitVec 2) (index : BitVec 14) (rep : GrantReport)
    (s : State) : KeepsFiled s (execGrantReportRx die index rep s) := by
  simp only [execGrantReportRx, keepsFiled_next, ↓filed_decoded]

theorem filed_cutoffMoves (s : State) (t n : Nat) : (s.cutoffMoves t n).filed = s.filed := by
  simp only [State.cutoffMoves, ↓filed_mk, implies_true, ↓filed_foldl, ↓filed_releaseAll, ↓filed_setWindows, ↓filed_bookRanging]

theorem filed_cutoff (s : State) (t n : Nat) : (s.cutoff t n).filed = s.filed := by
  simp only [State.cutoff, ↓filed_mk, ↓filed_cutoffMoves]

theorem filed_sendCut (s : State) (t n : Nat) : (s.sendCut t n).filed = s.filed := by
  simp only [State.sendCut, ↓filed_ite, ite_self, implies_true, ↓filed_foldl, ↓filed_modTndTree, ↓filed_sendRecord, ↓filed_tellItem,
    ↓filed_mirror]

theorem filed_cases (s : State) (n : Nat) (k : Ctr) (e : Ev) (c : Nat) : (s.cases n k e c).filed = s.filed := by
  simp only [State.cases, ↓filed_ite, ite_self, ↓filed_raise, ↓filed_countBy]

theorem filed_mapDone (s : State) (n : Nat) (g : GChan) : (s.mapDone n g).1.filed = s.filed := by
  simp only [State.mapDone, ↓filed_ite, ↓filed_mk, ite_self, implies_true, ↓filed_foldl, ↓filed_setFld, ↓filed_countBy, ↓filed_modOnu,
    ↓filed_modRec, ↓filed_armMap, ↓filed_cases]

theorem filed_execMapComputed (t : Tree) (s : State) : KeepsFiled s (execMapComputed t s) := by
  unfold execMapComputed
  dsimp only
  split
  · next n snap h =>
    rw [keepsFiled_next, filed_mk]
    refine filed_foldl_fst (fun acc g => ?_) _ _
    dsimp only
    exact filed_mapDone acc.1 n g
  · exact keepsFiled_next.mpr rfl

theorem filed_deliverMaps (s : State) (t : Nat) : (s.deliverMaps t).filed = s.filed := by
  unfold State.deliverMaps
  split <;> simp only [implies_true, ↓filed_foldl, ↓filed_setChan]

theorem filed_setExpects (s : State) (c : Nat) (l : List Expect) : (s.setExpects c l).filed = s.filed := (rfl)

theorem filed_dropExpect (s : State) (c i : Nat) : (s.dropExpect c i).filed = s.filed := by
  unfold State.dropExpect
  split <;> simp only [↓filed_mk, ↓filed_setExpects]

theorem filed_modExpect (s : State) (c i : Nat) (f : Expect → Expect) : (s.modExpect c i f).filed = s.filed := by
  simp only [State.modExpect, ↓filed_setExpects]

theorem filed_driveReset (s : State) (c i : Nat) (e : Expect) (leaves : Nat) : (s.driveReset c i e leaves).filed = s.filed := by
  simp only [State.driveReset, ↓filed_ite, ite_self, ↓filed_report, ↓filed_resetPulse, ↓filed_modExpect]

theorem filed_execBrxRstPulse (c : Chan) (burst : BitVec 10) (s : State) : KeepsFiled s (execBrxRstPulse c burst s) := by
  unfold execBrxRstPulse
  simp only [keepsFiled_next]
  split <;> simp only [↓filed_ite, ite_self, ↓filed_driveReset]

theorem filed_driveRssi (s : State) (c i leaves : Nat) : (s.driveRssi c i leaves).filed = s.filed := by
  simp only [State.driveRssi, ↓filed_send, ↓filed_modExpect]

theorem filed_execRssiTrigger (c : Chan) (burst : BitVec 10) (s : State) : KeepsFiled s (execRssiTrigger c burst s) := by
  unfold execRssiTrigger
  simp only [keepsFiled_next]
  split <;> simp only [↓filed_ite, ite_self, ↓filed_driveRssi]

theorem filed_recReject (s : State) (die : Nat) : (s.recReject die).filed = s.filed := by
  simp only [State.recReject, ↓filed_report]

theorem filed_stageReg (s : State) (p : APath) (die : Nat) (r : Reg) (old data : Word) :
    (s.stageReg p die r old data).filed = s.filed := by
  simp only [State.stageReg, ↓filed_ite, ↓filed_mk, ite_self, ↓filed_setReg, ↓filed_meetAs]

theorem filed_unstage (s : State) (p : APath) (die : Nat) (rs : List Reg) : (s.unstage p die rs).filed = s.filed := (rfl)

theorem filed_commitAlloc (s : State) (p : APath) (die : Nat) (data : Word) : (s.commitAlloc p die data).filed = s.filed := by
  unfold State.commitAlloc
  simp only [↓filed_ite]
  repeat' split
  all_goals simp only [↓filed_mk, ↓filed_mirror, ↓filed_setIdent, ↓filed_release, ↓filed_protectedWrite, ↓filed_setRec, ↓filed_recReject,
    ↓filed_unstage]

theorem filed_execGntAlcCommit (p : APath) (die : BitVec 2) (data : Word) (s : State) : KeepsFiled s (execGntAlcCommit p die data s) := by
  simp only [execGntAlcCommit, keepsFiled_next, ↓filed_commitAlloc]

/-! ### Bursts -/

theorem filed_execTreeProfileSet (h : Hdr) (chan index : Word) (p : ProfileWords)
    (s : State) : KeepsFiled s (execTreeProfileSet h chan index p s) := by
  simp only [execTreeProfileSet, ↓filed_ite, ite_self, implies_true, st_ite, st_ok, st_fail, keepsFiled_next, ↓filed_setReg,
    ↓filed_setFld, ↓filed_setFlag, ↓filed_command, ↓filed_onTree]

theorem filed_execTreeProfileGet (h : Hdr) (chan index : Word) (s : State) : KeepsFiled s (execTreeProfileGet h chan index s) := by
  simp only [execTreeProfileGet, ite_self, implies_true, st_ite, st_ok, st_fail, keepsFiled_next, ↓filed_command]

theorem filed_writeProfile (s : State) (p : APath) (c n : Nat) (data : Word) : (s.writeProfile p c n data).filed = s.filed := by
  simp only [State.writeProfile, ↓filed_ite, ite_self, ↓filed_setReg, ↓filed_report, ↓filed_meet, ↓filed_protectedWrite]

theorem filed_execBrxPrfValidWrite (p : APath) (c : Chan) (n : BitVec 2) (data : Word)
    (s : State) : KeepsFiled s (execBrxPrfValidWrite p c n data s) := by
  simp only [execBrxPrfValidWrite, keepsFiled_next, ↓filed_writeProfile]

theorem filed_execTreeBrxSet (h : Hdr) (words : List Word) (s : State) : KeepsFiled s (execTreeBrxSet h words s) := by
  unfold execTreeBrxSet
  split <;> simp only [↓filed_ite, ite_self, implies_true, st_ite, st_ok, st_fail, keepsFiled_next, ↓filed_setFld, ↓filed_command,
    ↓filed_unlessClaimed, ↓filed_onTree]

theorem filed_execTreeBrxStatus (h : Hdr) (chan : Word) (s : State) : KeepsFiled s (execTreeBrxStatus h chan s) := by
  simp only [execTreeBrxStatus, ite_self, implies_true, st_ite, st_ok, st_fail, keepsFiled_next, ↓filed_command]

theorem filed_execRsmDeadlineCheck (c : Chan) (s : State) : KeepsFiled s (execRsmDeadlineCheck c s) := by
  simp only [execRsmDeadlineCheck, ↓filed_mk, implies_true, ↓filed_foldl, keepsFiled_next, ↓filed_raiseOnce, ↓filed_count, ↓filed_pmSdu]

/-! ### HostQueue -/

theorem filed_setFwd (s : State) (half : Nat) (x : Fwd) : (s.setFwd half x).filed = s.filed := (rfl)

theorem filed_setStore (s : State) (half : Nat) (x : Store) : (s.setStore half x).filed = s.filed := (rfl)

theorem filed_pushHead (s : State) (x : Head) : (s.pushHead x).filed = s.filed := by
  simp only [State.pushHead, ↓filed_setFwd]

theorem filed_postTrap (s : State) (x : Trap) : (s.postTrap x).filed = s.filed := by
  simp only [State.postTrap, ↓filed_mk, ↓filed_raise, ↓filed_ringStep]

theorem filed_flushTraps (n : Nat) (s : State) :
    (State.flushTraps n s).filed = s.filed := by
  induction n generalizing s with
  | zero => rfl
  | succ n ih =>
    unfold State.flushTraps
    split
    · rfl
    · simp only [↓filed_ite, ih, ↓filed_mk, ↓filed_postTrap, ite_self]

theorem filed_toHost (s : State) (x : Trap) : (s.toHost x).filed = s.filed := by
  simp only [State.toHost, ↓filed_ite, ↓filed_mk, ite_self, ↓filed_raiseOnce, ↓filed_count, ↓filed_flushTraps]

theorem filed_deliverSdu (s : State) (c o port : Nat) (f : Frame) (mic : Bool) : (s.deliverSdu c o port f mic).filed = s.filed := by
  simp only [State.deliverSdu, ↓filed_ite, ite_self, ↓filed_report, ↓filed_carry, ↓filed_pushHead, ↓filed_toHost]

/-! ### Skeins -/

theorem filed_onSkein (s : State) (k : Nat) (body : Res) (h : body.st.filed = s.filed) : (s.onSkein k body).st.filed = s.filed := by
  simp only [State.onSkein, st_ite, filed_ite, filed_onTree, h, st_fail, ite_self]

theorem filed_execSkeinForm (h : Hdr) (tree k members skewMax holdKib : Word)
    (s : State) : KeepsFiled s (execSkeinForm h tree k members skewMax holdKib s) := by
  simp only [execSkeinForm, ↓filed_ite, ite_self, implies_true, st_ite, st_ok, st_fail, keepsFiled_next, ↓filed_setFld, ↓filed_setFlag,
    ↓filed_command, ↓filed_onTree]

theorem filed_execSkeinDissolve (h : Hdr) (skein : Word) (s : State) : KeepsFiled s (execSkeinDissolve h skein s) := by
  simp only [execSkeinDissolve, ↓filed_ite, ↓filed_mk, ite_self, implies_true, st_ite, st_ok, st_fail, keepsFiled_next, ↓filed_setFld,
    ↓filed_setFlag, ↓filed_command, ↓filed_onSkein]

theorem filed_bookMember (s : State) (o c : Nat) (rt : Int) : (s.bookMember o c rt).filed = s.filed := by
  simp only [State.bookMember, ↓filed_book]

theorem filed_execSkeinOnuJoin (h : Hdr) (onu skein : Word) (s : State) : KeepsFiled s (execSkeinOnuJoin h onu skein s) := by
  unfold execSkeinOnuJoin
  rw [keepsFiled_next]
  refine filed_command _ _ _ _ _ fun c t => ?_
  simp only [↓filed_ite, ↓filed_mk, ite_self, implies_true, st_ite, ↓filed_foldl, st_fail, ↓filed_onOnu, ↓filed_bookMember]

theorem filed_execSkeinJoinDone (onu : Onu) (arrivals : List (BitVec 2 × BitVec 32)) (s : State) :
    KeepsFiled s (execSkeinJoinDone onu arrivals s) := by
  unfold execSkeinJoinDone
  dsimp only
  split
  · split
    · exact keepsFiled_next.mpr rfl
    · rw [keepsFiled_ite]
      split
      · exact keepsFiled_next.mpr rfl
      · refine keepsFiled_next.mpr ((filed_answer ..).trans ((filed_of rfl rfl).trans (filed_foldl_fst (fun acc c => ?_) _ _)))
        split
        · simp only [fst_ite, ↓filed_ite, ↓filed_sendEqd, ↓filed_report, ↓filed_setWindows, ite_self]
        · simp only [↓filed_report, ↓filed_setWindows]
  · exact keepsFiled_next.mpr rfl

theorem filed_letGo (s : State) (o k : Nat) (x : SkeinHeld) : (s.letGo o k x).filed = s.filed := by
  simp only [State.letGo, ↓filed_ite, ↓filed_mk, ite_self, ↓filed_serve, ↓filed_deliverSdu]

theorem filed_releaseHeld (s : State) (o n : Nat) :
    (s.releaseHeld o n).filed = s.filed := by
  induction n generalizing s with
  | zero => rfl
  | succ n ih =>
    unfold State.releaseHeld
    split
    · rfl
    · split
      · rfl
      · simp only [ih, ↓filed_pmBlocks, ↓filed_letGo, ↓filed_mk]

theorem filed_spillHeld (s : State) (half : Nat) : (s.spillHeld half).filed = s.filed := by
  simp only [State.spillHeld, ↓filed_ite, ↓filed_mk, ite_self, implies_true, ↓filed_foldl, ↓filed_serve]

theorem filed_readHeld (s : State) (half : Nat) : (s.readHeld half).filed = s.filed := by
  simp only [State.readHeld, ↓filed_ite, ↓filed_mk, ite_self, implies_true, ↓filed_foldl, ↓filed_letGo]

theorem filed_hold (s : State) (k port n : Nat) (f : Frame) (mic : Bool) (keep : State → SkeinHeld → State) (hkeep : ∀ t b,
    (keep t b).filed = t.filed) : (s.hold k port n f mic keep).filed = s.filed := by
  simp only [State.hold, ↓filed_ite, ite_self, ↓filed_report, ↓filed_serve, ↓filed_spillHeld, hkeep]

theorem filed_skeinRx (s : State) (o port : Nat) (f : Frame) (tag : Nat) (mic : Bool)
    (j : SkeinOnu) : (s.skeinRx o port f tag mic j).filed = s.filed := by
  simp only [State.skeinRx, ↓filed_ite, ↓filed_mk, ite_self, implies_true, ↓filed_raiseOnceIn, ↓filed_pmBlocks, ↓filed_count,
    ↓filed_letGo, ↓filed_releaseHeld, ↓filed_hold]

theorem filed_execSkeinGapExpiry (onu : Onu) (s : State) : KeepsFiled s (execSkeinGapExpiry onu s) := by
  unfold execSkeinGapExpiry
  simp only
  repeat' split
  all_goals simp only [↓filed_mk, keepsFiled_next, ↓filed_raiseOnceIn, ↓filed_pmBlocks, ↓filed_count, ↓filed_releaseHeld]

theorem filed_skeinLeave (s : State) (o : Nat) (j : SkeinOnu) : (s.skeinLeave o j).filed = s.filed := by
  simp only [State.skeinLeave, ↓filed_mk, implies_true, ↓filed_foldl, ↓filed_letGo]

theorem filed_execSkeinOnuLeave (h : Hdr) (onu : Word) (s : State) : KeepsFiled s (execSkeinOnuLeave h onu s) := by
  unfold execSkeinOnuLeave
  rw [keepsFiled_next]
  refine filed_command _ _ _ _ _ fun c t => ?_
  repeat' split
  all_goals simp only [implies_true, st_ok, st_fail, ↓filed_onOnu, ↓filed_skeinLeave]

theorem filed_execSkeinAllocMember (h : Hdr) (onu allocId member : Word)
    (s : State) : KeepsFiled s (execSkeinAllocMember h onu allocId member s) := by
  unfold execSkeinAllocMember
  rw [keepsFiled_next]
  refine filed_command _ _ _ _ _ fun c t => filed_onOnu _ _ _ _ fun x => ?_
  repeat' split
  all_goals simp only [↓filed_ite, ite_self, st_ite, st_ok, st_fail, ↓filed_modRec]

theorem filed_execSkeinStatus (h : Hdr) (skein : Word) (s : State) : KeepsFiled s (execSkeinStatus h skein s) := by
  simp only [execSkeinStatus, ite_self, implies_true, st_ite, st_ok, st_fail, keepsFiled_next, ↓filed_command]

theorem filed_skeinCutoff (s : State) (t : Nat) : (s.skeinCutoff t).filed = s.filed := by
  simp only [State.skeinCutoff, ↓filed_ite, ↓filed_mk, ite_self, implies_true, ↓filed_foldl, ↓filed_memberGone]

theorem filed_setTrib (s : State) (i : Nat) (x : Trib) : (s.setTrib i x).filed = s.filed := (rfl)

theorem filed_mirrorTrib (s : State) (i : Nat) : (s.mirrorTrib i).filed = s.filed := by
  unfold State.mirrorTrib
  split <;> simp only [↓filed_mirror]

theorem filed_execSkeinTribSet (h : Hdr) (trib onu port carrier : Word) (allocIds : List Word) (w : TribWords)
    (s : State) : KeepsFiled s (execSkeinTribSet h trib onu port carrier allocIds w s) := by
  unfold execSkeinTribSet
  rw [keepsFiled_next]
  refine filed_command _ _ _ _ _ fun c t => ?_
  simp only
  repeat' split
  all_goals simp only [ite_self, st_ok, st_fail, ↓filed_onTree, ↓filed_setTrib]

theorem filed_execSkeinTribClear (h : Hdr) (trib : Word) (s : State) : KeepsFiled s (execSkeinTribClear h trib s) := by
  unfold execSkeinTribClear
  rw [keepsFiled_next]
  refine filed_command _ _ _ _ _ fun c t => ?_
  simp only [↓filed_ite, st_ite, st_fail]
  repeat' split
  all_goals simp only [↓filed_mk, ite_self, st_ok, ↓filed_unlessClaimed, ↓filed_onTree]

theorem filed_execSkeinTribStatus (h : Hdr) (trib : Word) (s : State) : KeepsFiled s (execSkeinTribStatus h trib s) := by
  simp only [execSkeinTribStatus, ite_self, implies_true, st_ite, st_ok, st_fail, keepsFiled_next, ↓filed_command]

theorem filed_execSkeinDlnSet (h : Hdr) (trib delta alpha : Word) (s : State) : KeepsFiled s (execSkeinDlnSet h trib delta alpha s) := by
  simp only [execSkeinDlnSet, ↓filed_ite, ite_self, implies_true, st_ite, st_ok, st_fail, keepsFiled_next, ↓filed_setFld, ↓filed_command,
    ↓filed_unlessClaimed, ↓filed_mirrorTrib]

theorem filed_slip (s : State) (i : Nat) (x : Trib) : (s.slip i x).filed = s.filed := by
  simp only [State.slip, ↓filed_report, ↓filed_setTrib]

theorem filed_intoStore (s : State) (i : Nat) (x : Trib) (run : BitRun) : (s.intoStore i x run).filed = s.filed := by
  simp only [State.intoStore, ↓filed_ite, ite_self, ↓filed_setTrib, ↓filed_slip]

theorem filed_buildContainer (s : State) (i count : Nat) : (s.buildContainer i count).filed = s.filed := by
  unfold State.buildContainer
  simp only
  repeat' split
  all_goals simp only [↓filed_setTrib, ↓filed_slip]

theorem filed_pwEvent (s : State) (i : Nat) : (s.pwEvent i).filed = s.filed := by
  unfold State.pwEvent
  split <;> simp only [↓filed_ite, ite_self, ↓filed_raise, ↓filed_setTrib]

theorem filed_execPseudowireRx (trib : BitVec 10) (seq : BitVec 16) (stamp : Word) (bytes : BitVec 14) (l : Bool)
    (s : State) : KeepsFiled s (execPseudowireRx trib seq stamp bytes l s) := by
  unfold execPseudowireRx
  simp only
  split <;> simp only [↓filed_ite, ite_self, keepsFiled_next, keepsFiled_ite, ↓filed_count, ↓filed_setTrib, ↓filed_pwEvent]

theorem filed_execPlayout (trib : BitVec 10) (s : State) : KeepsFiled s (execPlayout trib s) := by
  unfold execPlayout
  simp only [keepsFiled_next]
  repeat' split
  all_goals simp only [↓filed_intoStore]

theorem filed_sendPackets (s : State) (i n : Nat) :
    (s.sendPackets i n).filed = s.filed := by
  induction n generalizing s with
  | zero => rfl
  | succ n ih =>
    unfold State.sendPackets
    split
    · rfl
    · simp only [↓filed_ite, ih, ↓filed_pushHead, ↓filed_send, ↓filed_setTrib, ite_self]

theorem filed_emitBits (s : State) (i : Nat) (runs : List BitRun) : (s.emitBits i runs).filed = s.filed := by
  unfold State.emitBits
  split <;> simp only [↓filed_setTrib, ↓filed_sendPackets]

theorem filed_joined (s : State) (i : Nat) (a : Aligning) : (s.joined i a).filed = s.filed := by
  unfold State.joined
  split <;> simp only [↓filed_pmBlocks, ↓filed_setTrib, ↓filed_emitBits]

theorem filed_alignStep (s : State) (i mfi : Nat) : (s.alignStep i mfi).filed = s.filed := by
  unfold State.alignStep
  split
  · rfl
  · split
    · rfl
    · next x hx a ha =>
      dsimp only
      simp only [↓filed_ite, ↓filed_joined, ↓filed_setTrib, ite_self]
      refine filed_foldl_fst (fun acc m => ?_) _ _
      simp only [fst_ite, ↓filed_ite, ↓filed_serve, ite_self]

theorem filed_containerRx (s : State) (i c header : Nat) : (s.containerRx i c header).filed = s.filed := by
  unfold State.containerRx
  simp only
  repeat' split
  all_goals simp only [↓filed_raiseOnceIn, ↓filed_pmBlocks, ↓filed_count, ↓filed_setTrib, ↓filed_alignStep]

theorem filed_skewServe (s : State) (half : Nat) : (s.skewServe half).filed = s.filed := by
  simp only [State.skewServe, ↓filed_ite, ite_self, implies_true, ↓filed_foldl, ↓filed_spillHeld, ↓filed_readHeld, ↓filed_alignStep]

theorem filed_execContainerLost (trib : BitVec 10) (mfi : BitVec 8) (s : State) : KeepsFiled s (execContainerLost trib mfi s) := by
  unfold execContainerLost
  simp only
  split <;> simp only [↓filed_ite, ite_self, keepsFiled_next, keepsFiled_ite, ↓filed_raiseOnceIn, ↓filed_pmBlocks, ↓filed_count,
    ↓filed_tribDown, ↓filed_setTrib, ↓filed_emitBits]

theorem filed_commitTrib (s : State) (p : APath) (i : Nat) (data : Word) : (s.commitTrib p i data).filed = s.filed := by
  unfold State.commitTrib
  simp only [↓filed_ite]
  repeat' split
  all_goals simp only [↓filed_mk, ↓filed_report, ↓filed_mirror, ↓filed_protectedWrite, ↓filed_unstage, ↓filed_setTrib]

theorem filed_execCadTribCommit (p : APath) (trib : BitVec 10) (data : Word) (s : State) :
    KeepsFiled s (execCadTribCommit p trib data s) := by
  simp only [execCadTribCommit, keepsFiled_next, ↓filed_commitTrib]

/-! ### Rules -/

theorem filed_modFwd (s : State) (half : Nat) (f : Fwd → Fwd) : (s.modFwd half f).filed = s.filed := by
  simp only [State.modFwd, ↓filed_setFwd]

theorem filed_setRule (s : State) (half t i : Nat) (e : Option RuleEnt) : (s.setRule half t i e).filed = s.filed := by
  simp only [State.setRule, ↓filed_modFwd]

theorem filed_setVersions (s : State) (half cur o : Nat) : (s.setVersions half cur o).filed = s.filed := by
  simp only [State.setVersions, ↓filed_setFld]

theorem filed_advanceOldest (s : State) (half n : Nat) :
    (s.advanceOldest half n).filed = s.filed := by
  induction n generalizing s with
  | zero => rfl
  | succ n ih => simp only [State.advanceOldest, ↓filed_ite, ih, ↓filed_setVersions, ite_self]

theorem filed_takeVersion (s : State) (half : Nat) : (s.takeVersion half).filed = s.filed := by
  simp only [State.takeVersion, ↓filed_modFwd]

theorem filed_dropVersion (s : State) (half v : Nat) : (s.dropVersion half v).filed = s.filed := by
  simp only [State.dropVersion, ↓filed_modFwd, ↓filed_advanceOldest]

theorem filed_execVersionTidy (half : BitVec 1) (s : State) : KeepsFiled s (execVersionTidy half s) := by
  simp only [execVersionTidy, ite_self, implies_true, keepsFiled_next, keepsFiled_ite, ↓filed_rationed, ↓filed_setFwd,
    ↓filed_advanceOldest]

theorem filed_staged (s : State) (half path : Nat) : (s.staged half path).filed = s.filed := by
  simp only [State.staged, ↓filed_modFwd]

theorem filed_putRule (s : State) (half path t i : Nat) (e : RuleEnt) : (s.putRule half path t i e).filed = s.filed := by
  simp only [State.putRule, ↓filed_ite, ite_self, ↓filed_setRule, ↓filed_staged]

theorem filed_closeRule (s : State) (half path t i : Nat) : (s.closeRule half path t i).filed = s.filed := by
  unfold State.closeRule
  repeat' split
  all_goals simp only [↓filed_setRule, ↓filed_staged]

theorem filed_bump (s : State) (half : Nat) : (s.bump half).filed = s.filed := by
  simp only [State.bump, ↓filed_modFwd, ↓filed_setVersions, ↓filed_advanceOldest]

theorem filed_abort (s : State) (half : Nat) : (s.abort half).filed = s.filed := by
  simp only [State.abort, ↓filed_modFwd]

theorem filed_searchRules (s : State) (half tag : Nat) (k : KeyView) :
    (s.searchRules half tag k).2.filed = s.filed := by
  unfold State.searchRules
  refine filed_foldl_snd (fun acc t => ?_) _ _
  split
  · exact filed_setRule ..
  · rfl

theorem filed_ruleCommand (h : Hdr) (op : Nat) (blk : Blk) (bad : State → Bool) (body : Caller → Nat → State → Res) (s : State)
    (hbody : ∀ a b t, (body a b t).st.filed = t.filed) : (ruleCommand h op blk bad body s).filed = s.filed := by
  simp only [ruleCommand, ↓filed_ite, ite_self, implies_true, st_ite, st_fail, ↓filed_command, ↓filed_unlessClaimed, ↓filed_onHalves,
    hbody]

theorem filed_wantPort (s : State) (halves : List Nat) (span : Nat) : (s.wantPort halves span).filed = s.filed := by
  simp only [State.wantPort, ↓filed_ite, ite_self, implies_true, ↓filed_foldl, ↓filed_wantTime]

theorem filed_chargePort (s : State) (halves : List Nat) (span : Nat) : (s.chargePort halves span).filed = s.filed := by
  simp only [State.chargePort, ↓filed_ite, ite_self, implies_true, ↓filed_foldl, ↓filed_charge]

theorem filed_onPort (r : Res) (halves : List Nat) (span : Nat) : (r.onPort halves span).st.filed = r.st.filed := by
  simp only [Res.onPort, st_ite, filed_ite, filed_chargePort, ite_self]

theorem filed_tableWork (s : State) (i : Instr) (c : Caller) (halves : List Nat) (span : Nat) (run : State → Res) (hrun : ∀ t,
    (run t).st.filed = t.filed) : (s.tableWork i c halves span run).st.filed = s.filed := by
  simp only [State.tableWork, ↓filed_ite, ↓filed_mk, ite_self, st_ite, ↓filed_wantPort, ↓filed_onPort, hrun]

theorem filed_tableCommand (i : Instr) (h : Hdr) (op : Nat) (blk : Blk) (span : Nat) (bad : State → Bool)
    (body : Caller → Nat → State → Res) (s : State) (hbody : ∀ c k t, (body c k t).st.filed = t.filed) :
    (tableCommand i h op blk span bad body s).filed = s.filed := by
  refine filed_command _ _ _ _ _ fun c t => ?_
  have hwork := filed_tableWork t i c (halvesOf h) span _ fun u => filed_onHalves h (body c) u (hbody c)
  simp only [st_ite, ↓filed_ite, ↓filed_unlessClaimed, hwork, st_fail, ite_self]

theorem filed_setTable (s : State) (half t dir mode blocks : Nat) : (s.setTable half t dir mode blocks).st.filed = s.filed := by
  simp only [State.setTable, ↓filed_ite, ite_self, st_ite, st_ok, st_fail, ↓filed_setFld]

theorem filed_execRuleTableSet (h : Hdr) (table dir mode blocks : Word) (keys : List Word)
    (s : State) : KeepsFiled s (execRuleTableSet h table dir mode blocks keys s) := by
  simp only [execRuleTableSet, ↓filed_ite, ite_self, implies_true, st_ite, ↓filed_foldl, keepsFiled_next, ↓filed_setReg,
    ↓filed_ruleCommand, ↓filed_setTable]

theorem filed_bodyRuleWrite (table index pri : Word) (value mask : List Word) (act : Word) (c : Caller) (half : Nat)
    (s : State) : (bodyRuleWrite table index pri value mask act c half s).st.filed = s.filed := by
  unfold bodyRuleWrite
  simp only [↓filed_ite, st_ite, st_fail]
  repeat' split
  all_goals simp only [st_ok, st_fail, ↓filed_putRule]

theorem filed_execRuleWrite (h : Hdr) (table index pri : Word) (value mask : List Word) (act : Word)
    (s : State) : KeepsFiled s (execRuleWrite h table index pri value mask act s) := by
  simp only [execRuleWrite, implies_true, keepsFiled_next, ↓filed_tableCommand, ↓filed_bodyRuleWrite]

theorem filed_bodyRuleDelete (table index : Word) (c : Caller) (half : Nat)
    (s : State) : (bodyRuleDelete table index c half s).st.filed = s.filed := by
  simp only [bodyRuleDelete, ↓filed_ite, ite_self, st_ite, st_ok, st_fail, ↓filed_closeRule]

theorem filed_execRuleDelete (h : Hdr) (table index : Word) (s : State) : KeepsFiled s (execRuleDelete h table index s) := by
  simp only [execRuleDelete, implies_true, keepsFiled_next, ↓filed_tableCommand, ↓filed_bodyRuleDelete]

theorem filed_refuseCommit (s : State) (half : Nat) : (s.refuseCommit half).filed = s.filed := by
  simp only [State.refuseCommit, ↓filed_latchFlag, ↓filed_count]

theorem filed_bodyRuleCommit (c : Caller) (half : Nat) (s : State) : (bodyRuleCommit c half s).st.filed = s.filed := by
  simp only [bodyRuleCommit, ↓filed_ite, ite_self, st_ite, st_ok, st_fail, ↓filed_bump, ↓filed_refuseCommit]

theorem filed_execRuleCommit (h : Hdr) (s : State) : KeepsFiled s (execRuleCommit h s) := by
  simp only [execRuleCommit, implies_true, keepsFiled_next, ↓filed_tableCommand, ↓filed_bodyRuleCommit]

theorem filed_bodyRuleAbort (c : Caller) (half : Nat) (s : State) : (bodyRuleAbort c half s).st.filed = s.filed := by
  simp only [bodyRuleAbort, ↓filed_ite, ite_self, st_ite, st_ok, st_fail, ↓filed_abort]

theorem filed_execRuleAbort (h : Hdr) (s : State) : KeepsFiled s (execRuleAbort h s) := by
  simp only [execRuleAbort, implies_true, keepsFiled_next, ↓filed_tableCommand, ↓filed_bodyRuleAbort]

theorem filed_execRuleRead (h : Hdr) (table index : Word) (s : State) : KeepsFiled s (execRuleRead h table index s) := by
  simp only [execRuleRead, ↓filed_ite, ite_self, implies_true, st_ite, st_ok, st_fail, keepsFiled_next, ↓filed_command, ↓filed_onHalves]

theorem filed_execRuleStatus (h : Hdr) (s : State) : KeepsFiled s (execRuleStatus h s) := by
  simp only [execRuleStatus, implies_true, st_ok, keepsFiled_next, ↓filed_command, ↓filed_onHalves]

theorem filed_execRuleParseSet (h : Hdr) (vxlan guess ptpUdp : Word) (s : State) :
    KeepsFiled s (execRuleParseSet h vxlan guess ptpUdp s) := by
  simp only [execRuleParseSet, implies_true, st_ok, keepsFiled_next, ↓filed_setFld, ↓filed_ruleCommand]

theorem filed_execRuleHeaderSet (h : Hdr) (typ w0 w1 w2 : Word) (s : State) : KeepsFiled s (execRuleHeaderSet h typ w0 w1 w2 s) := by
  simp only [execRuleHeaderSet, ↓filed_ite, ite_self, implies_true, st_ite, st_ok, st_fail, keepsFiled_next, ↓filed_setReg,
    ↓filed_ruleCommand]

theorem filed_execRuleEdgeSet (h : Hdr) (edge src value mask dst enable : Word)
    (s : State) : KeepsFiled s (execRuleEdgeSet h edge src value mask dst enable s) := by
  simp only [execRuleEdgeSet, implies_true, st_ok, keepsFiled_next, ↓filed_modFwd, ↓filed_ruleCommand]

theorem filed_execRuleFragSet (h : Hdr) (life orphan : Word) (s : State) : KeepsFiled s (execRuleFragSet h life orphan s) := by
  simp only [execRuleFragSet, implies_true, st_ok, keepsFiled_next, ↓filed_setFld, ↓filed_ruleCommand]

theorem filed_execRuleSpoofSet (h : Hdr) (port mode : Word) (s : State) : KeepsFiled s (execRuleSpoofSet h port mode s) := by
  simp only [execRuleSpoofSet, ↓filed_ite, ite_self, implies_true, st_ite, st_ok, st_fail, keepsFiled_next, ↓filed_command,
    ↓filed_unlessClaimed, ↓filed_modFwd]

theorem filed_entReject (s : State) (half : Nat) : (s.entReject half).filed = s.filed := by
  simp only [State.entReject, ↓filed_report]

theorem filed_rulEntNow (s : State) (p : APath) (half : Nat) (x : Nat × Nat × RuleEnt) : (s.rulEntNow p half x).filed = s.filed := by
  simp only [State.rulEntNow, ↓filed_ite, ite_self, ↓filed_putRule, ↓filed_closeRule, ↓filed_chargePort, ↓filed_entReject]

theorem filed_writeRulEnt (s : State) (p : APath) (half : Nat) (data : Word) : (s.writeRulEnt p half data).filed = s.filed := by
  simp only [State.writeRulEnt, ↓filed_ite, ↓filed_mk, ite_self, ↓filed_wantPort, ↓filed_rulEntNow]

theorem filed_execRulEntWr (p : APath) (half : BitVec 1) (data : Word) (s : State) : KeepsFiled s (execRulEntWr p half data s) := by
  simp only [execRulEntWr, keepsFiled_next, ↓filed_writeRulEnt]

theorem filed_rulCommitNow (s : State) (p : APath) (half : Nat) (data : Word) : (s.rulCommitNow p half data).filed = s.filed := by
  simp only [State.rulCommitNow, ↓filed_ite, ite_self, ↓filed_bump, ↓filed_abort, ↓filed_refuseCommit]

theorem filed_writeRulCommit (s : State) (p : APath) (half : Nat) (data : Word) : (s.writeRulCommit p half data).filed = s.filed := by
  simp only [State.writeRulCommit, ↓filed_ite, ↓filed_mk, ite_self, ↓filed_rulCommitNow]

theorem filed_execRulCommitWrite (p : APath) (half : BitVec 1) (data : Word) (s : State) :
    KeepsFiled s (execRulCommitWrite p half data s) := by
  simp only [execRulCommitWrite, keepsFiled_next, ↓filed_writeRulCommit]

theorem filed_execRulAbortWrite (p : APath) (half : BitVec 1) (data : Word) (s : State) :
    KeepsFiled s (execRulAbortWrite p half data s) := by
  simp only [execRulAbortWrite, keepsFiled_next, ↓filed_writeRulCommit]

/-! ### Tables -/

theorem filed_setBr (s : State) (half i : Nat) (e : Option BrEnt) : (s.setBr half i e).filed = s.filed := by
  simp only [State.setBr, ↓filed_modFwd]

theorem filed_brInsert (s : State) (half : Nat) (e : BrEnt) :
    ((s.brInsert half e).getD s).filed = s.filed := by
  unfold State.brInsert
  dsimp only
  split
  · exact filed_setBr ..
  · exact filed_getD_map (fun i => filed_setBr ..) _

theorem filed_ofOpt (s : State) (r : Option State) (ws : List Word) : (Res.ofOpt s r ws).st.filed = (r.getD s).filed := by
  cases r <;> rfl

theorem filed_svcPut (s : State) (half : Nat) (e : SvcEnt) :
    ((s.svcPut half e).getD s).filed = s.filed := by
  unfold State.svcPut
  exact filed_getD_ite (filed_setFwd ..)

theorem filed_svcDel (s : State) (half : Nat) (up : Bool) (source ovid ivid : Nat) :
    (s.svcDel half up source ovid ivid).filed = s.filed := by
  unfold State.svcDel
  split <;> simp only [↓filed_modFwd]

theorem filed_floodPut (s : State) (half g : Nat) (ds : List Nat) :
    ((s.floodPut half g ds).getD s).filed = s.filed := by
  unfold State.floodPut
  exact filed_getD_ite (filed_setFwd ..)

theorem filed_routePut (s : State) (half : Nat) (r : Route) :
    ((s.routePut half r).getD s).filed = s.filed := by
  unfold State.routePut
  exact filed_getD_ite (filed_setFwd ..)

theorem filed_bindPut (s : State) (half : Nat) (b : Binding) :
    ((s.bindPut half b).getD s).filed = s.filed := by
  unfold State.bindPut
  exact filed_getD_ite (filed_setFwd ..)

theorem filed_macPut (s : State) (half : Nat) (e : BrEnt) :
    ((s.macPut half e).getD s).filed = s.filed := by
  unfold State.macPut
  split
  · exact filed_setBr ..
  · exact filed_brInsert ..

theorem filed_bodyTableBdSet (w : BdWords) (x1 : Caller) (half : Nat) (s : State) : (bodyTableBdSet w x1 half s).st.filed = s.filed := by
  simp only [bodyTableBdSet, st_ok, ↓filed_modFwd]

theorem filed_execTableBdSet (h : Hdr) (w : BdWords) (s : State) : KeepsFiled s (execTableBdSet h w s) := by
  simp only [execTableBdSet, implies_true, keepsFiled_next, ↓filed_tableCommand, ↓filed_bodyTableBdSet]

theorem filed_bodyTableRmacSet (index : Word) (mac : BitVec 48) (x2 : Caller) (half : Nat)
    (s : State) : (bodyTableRmacSet index mac x2 half s).st.filed = s.filed := by
  simp only [bodyTableRmacSet, st_ok, ↓filed_modFwd]

theorem filed_execTableRmacSet (h : Hdr) (index : Word) (mac : BitVec 48) (s : State) :
    KeepsFiled s (execTableRmacSet h index mac s) := by
  simp only [execTableRmacSet, implies_true, keepsFiled_next, ↓filed_tableCommand, ↓filed_bodyTableRmacSet]

theorem filed_bodyTableFloodSet (group : Word) (dests : List Word) (x2 : Caller) (half : Nat)
    (s : State) : (bodyTableFloodSet group dests x2 half s).st.filed = s.filed := by
  simp only [bodyTableFloodSet, ↓filed_ofOpt, ↓filed_floodPut]

theorem filed_execTableFloodSet (h : Hdr) (group : Word) (dests : List Word)
    (s : State) : KeepsFiled s (execTableFloodSet h group dests s) := by
  simp only [execTableFloodSet, implies_true, keepsFiled_next, ↓filed_tableCommand, ↓filed_bodyTableFloodSet]

theorem filed_bodyTableSvcSet (w : SvcWords) (x1 : Caller) (half : Nat) (s : State) :
    (bodyTableSvcSet w x1 half s).st.filed = s.filed := by
  simp only [bodyTableSvcSet, ↓filed_ofOpt, ↓filed_svcPut]

theorem filed_execTableSvcSet (h : Hdr) (w : SvcWords) (s : State) : KeepsFiled s (execTableSvcSet h w s) := by
  simp only [execTableSvcSet, implies_true, keepsFiled_next, ↓filed_tableCommand, ↓filed_bodyTableSvcSet]

theorem filed_bodyTableSvcClear (dir source ovid ivid : Word) (x4 : Caller) (half : Nat)
    (s : State) : (bodyTableSvcClear dir source ovid ivid x4 half s).st.filed = s.filed := by
  simp only [bodyTableSvcClear, st_ok, ↓filed_svcDel]

theorem filed_execTableSvcClear (h : Hdr) (dir source ovid ivid : Word)
    (s : State) : KeepsFiled s (execTableSvcClear h dir source ovid ivid s) := by
  simp only [execTableSvcClear, implies_true, keepsFiled_next, ↓filed_tableCommand, ↓filed_bodyTableSvcClear]

theorem filed_bodyTableMacAdd (bd : Word) (mac : BitVec 48) (fixed kind dest : Word) (x5 : Caller) (half : Nat)
    (s : State) : (bodyTableMacAdd bd mac fixed kind dest x5 half s).st.filed = s.filed := by
  simp only [bodyTableMacAdd, ↓filed_ofOpt, ↓filed_macPut]

theorem filed_execTableMacAdd (h : Hdr) (bd : Word) (mac : BitVec 48) (fixed kind dest : Word)
    (s : State) : KeepsFiled s (execTableMacAdd h bd mac fixed kind dest s) := by
  simp only [execTableMacAdd, implies_true, keepsFiled_next, ↓filed_tableCommand, ↓filed_bodyTableMacAdd]

theorem filed_bodyTableMacDel (bd : Word) (mac : BitVec 48) (x2 : Caller) (half : Nat)
    (s : State) : (bodyTableMacDel bd mac x2 half s).st.filed = s.filed := by
  unfold bodyTableMacDel
  split <;> simp only [st_ok, ↓filed_setBr]

theorem filed_execTableMacDel (h : Hdr) (bd : Word) (mac : BitVec 48) (s : State) : KeepsFiled s (execTableMacDel h bd mac s) := by
  simp only [execTableMacDel, implies_true, keepsFiled_next, ↓filed_tableCommand, ↓filed_bodyTableMacDel]

theorem filed_execTableMacRead (h : Hdr) (bd : Word) (mac : BitVec 48) (s : State) :
    KeepsFiled s (execTableMacRead h bd mac s) := by
  refine keepsFiled_next.mpr (filed_command _ _ _ _ _ fun c t => ?_)
  rw [st_ite, filed_ite]
  split
  · rfl
  · refine filed_onHalves _ _ _ fun k u => ?_
    split <;> rfl

theorem filed_execTableMacFlush (h : Hdr) (bd dest : Word) (s : State) : KeepsFiled s (execTableMacFlush h bd dest s) := by
  simp only [execTableMacFlush, ↓filed_ite, ite_self, implies_true, st_ite, ↓filed_foldl, st_fail, st_accepted, keepsFiled_next,
    ↓filed_command, ↓filed_unlessClaimed, ↓filed_modFwd]

theorem filed_walkOn (s : State) (half : Nat) (w : FlushWalk) (n : Nat) : (s.walkOn half w n).1.filed = s.filed := by
  simp only [State.walkOn, ↓filed_setFwd]

theorem filed_endWalk (s : State) (half : Nat) (w : FlushWalk) : (s.endWalk half w).filed = s.filed := by
  unfold State.endWalk
  repeat' split
  all_goals simp only [↓filed_answer, ↓filed_modFwd]

theorem filed_execMacFlushDone (half : BitVec 1) (s : State) : KeepsFiled s (execMacFlushDone half s) := by
  unfold execMacFlushDone
  simp only
  split <;> simp only [↓filed_ite, ite_self, keepsFiled_next, keepsFiled_ite, ↓filed_modFwd, ↓filed_wantPort, ↓filed_chargePort,
    ↓filed_walkOn, ↓filed_endWalk]

theorem filed_bodyTableRouteSet (vrf : Word) (pre : List Word) (len nh : Word) (x4 : Caller) (half : Nat)
    (s : State) : (bodyTableRouteSet vrf pre len nh x4 half s).st.filed = s.filed := by
  simp only [bodyTableRouteSet, ↓filed_ofOpt, ↓filed_routePut]

theorem filed_execTableRouteSet (h : Hdr) (vrf : Word) (pre : List Word) (len nh : Word)
    (s : State) : KeepsFiled s (execTableRouteSet h vrf pre len nh s) := by
  simp only [execTableRouteSet, implies_true, keepsFiled_next, ↓filed_tableCommand, ↓filed_bodyTableRouteSet]

theorem filed_bodyTableRouteClear (vrf : Word) (pre : List Word) (len : Word) (x3 : Caller) (half : Nat)
    (s : State) : (bodyTableRouteClear vrf pre len x3 half s).st.filed = s.filed := by
  simp only [bodyTableRouteClear, st_ok, ↓filed_modFwd]

theorem filed_execTableRouteClear (h : Hdr) (vrf : Word) (pre : List Word) (len : Word)
    (s : State) : KeepsFiled s (execTableRouteClear h vrf pre len s) := by
  simp only [execTableRouteClear, implies_true, keepsFiled_next, ↓filed_tableCommand, ↓filed_bodyTableRouteClear]

theorem filed_bodyTableNhSet (index : Word) (w : NhWords) (x2 : Caller) (half : Nat)
    (s : State) : (bodyTableNhSet index w x2 half s).st.filed = s.filed := by
  simp only [bodyTableNhSet, st_ok, ↓filed_modFwd]

theorem filed_execTableNhSet (h : Hdr) (index : Word) (w : NhWords) (s : State) : KeepsFiled s (execTableNhSet h index w s) := by
  simp only [execTableNhSet, implies_true, keepsFiled_next, ↓filed_tableCommand, ↓filed_bodyTableNhSet]

theorem filed_bodyTableBindSet (onu port kind : Word) (addr : List Word) (x4 : Caller) (half : Nat)
    (s : State) : (bodyTableBindSet onu port kind addr x4 half s).st.filed = s.filed := by
  simp only [bodyTableBindSet, ↓filed_ofOpt, ↓filed_bindPut]

theorem filed_execTableBindSet (h : Hdr) (onu port kind : Word) (addr : List Word)
    (s : State) : KeepsFiled s (execTableBindSet h onu port kind addr s) := by
  simp only [execTableBindSet, implies_true, keepsFiled_next, ↓filed_tableCommand, ↓filed_bodyTableBindSet]

theorem filed_bodyTableBindClear (onu port kind : Word) (addr : List Word) (x4 : Caller) (half : Nat)
    (s : State) : (bodyTableBindClear onu port kind addr x4 half s).st.filed = s.filed := by
  simp only [bodyTableBindClear, st_ok, ↓filed_modFwd]

theorem filed_execTableBindClear (h : Hdr) (onu port kind : Word) (addr : List Word)
    (s : State) : KeepsFiled s (execTableBindClear h onu port kind addr s) := by
  simp only [execTableBindClear, implies_true, keepsFiled_next, ↓filed_tableCommand, ↓filed_bodyTableBindClear]

theorem filed_execTableLearnSet (h : Hdr) (lrn age : Word) (s : State) : KeepsFiled s (execTableLearnSet h lrn age s) := by
  simp only [execTableLearnSet, implies_true, st_ok, keepsFiled_next, ↓filed_setReg, ↓filed_ruleCommand]

theorem filed_execTableStatus (h : Hdr) (s : State) : KeepsFiled s (execTableStatus h s) := by
  simp only [execTableStatus, implies_true, st_ok, keepsFiled_next, ↓filed_command, ↓filed_onHalves]

theorem filed_setAccData (s : State) (i v : Nat) : (s.setAccData i v).filed = s.filed := by
  simp only [State.setAccData, implies_true, ↓filed_foldl, ↓filed_setReg]

theorem filed_accWrite (s : State) (half tbl : Nat) (v : Nat) (index : Option Nat) (del : Bool) :
    (s.accWrite half tbl v index del).st.filed = s.filed := by
  have hofOpt {o : Option State} (h : (o.getD s).filed = s.filed) : (Res.ofOpt s o).st.filed = s.filed := (filed_ofOpt ..).trans h
  unfold State.accWrite
  extract_lets f g key entry
  clear_value entry
  refine filed_st_of_ite ?mac (filed_st_of_ite ?svc (filed_st_of_ite ?route (filed_st_of_ite ?nh (filed_st_of_ite ?bind
    (filed_st_of_ite ?bd (filed_st_of_ite ?flood (filed_st_of_ite rfl (filed_setFwd ..))))))))
  case mac =>
    split
    · exact filed_st_of_ite rfl (filed_setBr ..)
    · refine filed_st_of_ite ?_ ?_
      · split
        · exact filed_setBr ..
        · rfl
      · split
        · exact hofOpt (filed_macPut ..)
        · rfl
  case svc =>
    split
    · exact filed_st_of_ite rfl (filed_setFwd ..)
    · exact filed_svcDel ..
    · exact hofOpt (filed_svcPut ..)
  case route =>
    refine filed_st_of_ite rfl ?_
    split
    · exact filed_st_of_ite rfl (filed_st_of_ite rfl (filed_setFwd ..))
    · exact filed_st_of_ite (filed_setFwd ..) (hofOpt (filed_routePut ..))
  case nh => exact filed_st_of_ite rfl (filed_setFwd ..)
  case bind =>
    refine filed_st_of_ite rfl ?_
    split
    · exact filed_st_of_ite rfl (filed_st_of_ite rfl (filed_setFwd ..))
    · exact filed_st_of_ite (filed_setFwd ..) (hofOpt (filed_bindPut ..))
  case bd => exact filed_st_of_ite rfl (filed_setFwd ..)
  case flood =>
    refine filed_st_of_ite rfl ?_
    split
    · exact hofOpt (filed_floodPut ..)
    · rfl

theorem filed_brReject (s : State) (half : Nat) : (s.brReject half).filed = s.filed := by
  simp only [State.brReject, ↓filed_report]

theorem filed_accRun (s : State) (p : APath) (half : Nat) (data : Word) : (s.accRun p half data).filed = s.filed := by
  unfold State.accRun
  simp only [↓filed_ite, ite_self, ↓filed_setFld, ↓filed_setFlag, ↓filed_chargePort, ↓filed_accWrite, ↓filed_brReject]
  repeat' split
  all_goals simp only [↓filed_setFld, ↓filed_setFlag, ↓filed_chargePort, ↓filed_setAccData]

theorem filed_accGo (s : State) (p : APath) (half : Nat) (w : Word) : (s.accGo p half w).filed = s.filed := by
  simp only [State.accGo, ↓filed_ite, ↓filed_mk, ite_self, ↓filed_setFlag, ↓filed_wantPort, ↓filed_accRun]

theorem filed_writeAccess (s : State) (p : APath) (half : Nat) (data : Word) : (s.writeAccess p half data).filed = s.filed := by
  simp only [State.writeAccess, ↓filed_ite, ite_self, ↓filed_setReg, ↓filed_meet, ↓filed_brReject, ↓filed_accGo]

theorem filed_execBrAccGo (p : APath) (half : BitVec 1) (data : Word) (s : State) : KeepsFiled s (execBrAccGo p half data s) := by
  simp only [execBrAccGo, keepsFiled_next, ↓filed_writeAccess]

theorem filed_writeSeed (s : State) (half : Nat) (data : Word) : (s.writeSeed half data).filed = s.filed := by
  simp only [State.writeSeed, ↓filed_ite, ite_self, ↓filed_setReg, ↓filed_brReject]

/-! ### Port -/

theorem filed_tableBody {i : Instr} {h : Hdr} {span : Nat} {body : Caller → Nat → State → Res} (hi : tableBody i = some (h, span, body))
    (c : Caller) (k : Nat) (s : State) : (body c k s).st.filed = s.filed := by
  cases i <;> simp only [tableBody, reduceCtorEq, Option.some.injEq, Prod.mk.injEq] at hi <;> obtain ⟨-, -, rfl⟩ := hi
  case ruleWrite => exact filed_bodyRuleWrite ..
  case ruleDelete => exact filed_bodyRuleDelete ..
  case ruleCommit => exact filed_bodyRuleCommit ..
  case ruleAbort => exact filed_bodyRuleAbort ..
  case tableBdSet => exact filed_bodyTableBdSet ..
  case tableRmacSet => exact filed_bodyTableRmacSet ..
  case tableFloodSet => exact filed_bodyTableFloodSet ..
  case tableSvcSet => exact filed_bodyTableSvcSet ..
  case tableSvcClear => exact filed_bodyTableSvcClear ..
  case tableMacAdd => exact filed_bodyTableMacAdd ..
  case tableMacDel => exact filed_bodyTableMacDel ..
  case tableRouteSet => exact filed_bodyTableRouteSet ..
  case tableRouteClear => exact filed_bodyTableRouteClear ..
  case tableNhSet => exact filed_bodyTableNhSet ..
  case tableBindSet => exact filed_bodyTableBindSet ..
  case tableBindClear => exact filed_bodyTableBindClear ..

theorem filed_landOne (s : State) (w : TableWait) :
    (s.landOne w).filed = s.filed := by
  unfold State.landOne
  split
  · next c h span body hc hb =>
    have hbody := filed_tableBody hb
    simp only [↓filed_answer, ↓filed_onPort, filed_onHalves _ _ _ (hbody c)]
  · split <;> simp only [↓filed_accRun, ↓filed_rulCommitNow, ↓filed_rulEntNow]

theorem filed_landWrites (s : State) : s.landWrites.filed = s.filed := by
  simp only [State.landWrites, ↓filed_ite, ↓filed_mk, ite_self, implies_true, ↓filed_foldl, ↓filed_wantPort, ↓filed_landOne]

theorem filed_execCommitBump (x0 : BitVec 1) (s : State) : KeepsFiled s (execCommitBump x0 s) := by
  simp only [execCommitBump, keepsFiled_next, ↓filed_landWrites]

theorem filed_newPeriod (s : State) : s.newPeriod.filed = s.filed := by
  simp only [State.newPeriod, implies_true, ↓filed_foldl, ↓filed_openPeriod, ↓filed_pmCommit, ↓filed_skewServe, ↓filed_landWrites]

theorem filed_execRationPeriodStart (s : State) : KeepsFiled s (execRationPeriodStart s) := by
  simp only [execRationPeriodStart, ↓filed_ite, ite_self, keepsFiled_next, ↓filed_newPeriod]

theorem filed_execRationPeriodForced (s : State) : KeepsFiled s (execRationPeriodForced s) := by
  simp only [execRationPeriodForced, ↓filed_ite, ite_self, keepsFiled_next, ↓filed_newPeriod]

/-! ### Learning -/

theorem filed_queueLearn (s : State) (half : Nat) (e : LrnEv) : (s.queueLearn half e).filed = s.filed := by
  simp only [State.queueLearn, ↓filed_ite, ite_self, ↓filed_count, ↓filed_report, ↓filed_setFwd]

theorem filed_queueRefresh (s : State) (half bd mac : Nat) : (s.queueRefresh half bd mac).filed = s.filed := by
  simp only [State.queueRefresh, ↓filed_ite, ite_self, ↓filed_count, ↓filed_setFwd]

theorem filed_learnFrom (s : State) (half : Nat) (e : LrnEv) : (s.learnFrom half e).filed = s.filed := by
  unfold State.learnFrom
  split <;> simp only [↓filed_ite, ite_self, ↓filed_queueLearn, ↓filed_queueRefresh]

theorem filed_learnArrival (s : State) (half : Nat) (e : LrnEv) : (s.learnArrival half e).filed = s.filed := by
  simp only [State.learnArrival, ↓filed_ite, ite_self, ↓filed_modFwd, ↓filed_learnFrom]

theorem filed_macLimited (s : State) (half : Nat) : (s.macLimited half).filed = s.filed := by
  simp only [State.macLimited, ↓filed_raiseOnce, ↓filed_count]

theorem filed_moveEntry (s : State) (half i : Nat) (x : BrEnt) (e : LrnEv) : (s.moveEntry half i x e).filed = s.filed := by
  simp only [State.moveEntry, ↓filed_ite, ite_self, ↓filed_count, ↓filed_report, ↓filed_setBr, ↓filed_macLimited]

theorem filed_learn (s : State) (half : Nat) (e : LrnEv) :
    (s.learn half e).filed = s.filed := by
  unfold State.learn
  split
  · rw [filed_ite]
    split
    · exact filed_macLimited ..
    · have hi := filed_brInsert s half ⟨false, false, e.dkind, s.tickNow half, 0, 0, e.dest, e.svc, e.bd, e.mac⟩
      split
      · next h => rw [h] at hi; exact (filed_count ..).trans hi
      · simp only [↓filed_raiseOnce, ↓filed_count]
  · simp only [↓filed_ite, ↓filed_raiseOnce, ↓filed_count, ↓filed_setBr, ↓filed_moveEntry, ite_self]

theorem filed_execLearnEvent (half : BitVec 1) (s : State) : KeepsFiled s (execLearnEvent half s) := by
  unfold execLearnEvent
  simp only
  split <;> simp only [implies_true, keepsFiled_next, ↓filed_rationed, ↓filed_setFwd, ↓filed_landWrites, ↓filed_learn]

theorem filed_execRefreshRequest (half : BitVec 1) (s : State) :
    KeepsFiled s (execRefreshRequest half s) := by
  unfold execRefreshRequest
  extract_lets h t f
  have ht : t.filed = s.filed := filed_landWrites s
  split
  · exact keepsFiled_next.mpr ht
  · rw [keepsFiled_ite]
    split
    · exact keepsFiled_next.mpr ht
    · refine keepsFiled_next.mpr ((filed_rationed _ _ _ _ _ fun u => ?_).trans ht)
      dsimp only
      split <;> simp only [↓filed_setBr, ↓filed_setFwd]

theorem filed_execAgeingTick (half : BitVec 1) (s : State) : KeepsFiled s (execAgeingTick half s) := by
  simp only [execAgeingTick, ite_self, keepsFiled_next, keepsFiled_ite, ↓filed_setFld, ↓filed_modFwd]

theorem filed_visit (s : State) (half i : Nat) : (s.visit half i).filed = s.filed := by
  unfold State.visit
  split <;> simp only [↓filed_ite, ite_self, ↓filed_count, ↓filed_setBr]

theorem filed_execAgeingScanVisit (half : BitVec 1) (s : State) : KeepsFiled s (execAgeingScanVisit half s) := by
  unfold execAgeingScanVisit
  simp only
  split <;> simp only [ite_self, implies_true, ↓filed_foldl, keepsFiled_next, keepsFiled_ite, ↓filed_rationed, ↓filed_modFwd,
    ↓filed_landWrites, ↓filed_visit]

theorem filed_execScanLate (half : BitVec 1) (s : State) : KeepsFiled s (execScanLate half s) := by
  simp only [execScanLate, ↓filed_ite, ite_self, keepsFiled_next, ↓filed_report, ↓filed_setFwd]

theorem filed_execReseatVisit (half : BitVec 1) (s : State) : KeepsFiled s (execReseatVisit half s) := by
  unfold execReseatVisit
  simp only
  repeat' split
  all_goals simp only [implies_true, keepsFiled_next, ↓filed_rationed, ↓filed_modFwd, ↓filed_setBr, ↓filed_landWrites]

/-! ### Editors -/

theorem filed_setProg (s : State) (half n : Nat) (ops : List Word) : (s.setProg half n ops).filed = s.filed := by
  simp only [State.setProg, ↓filed_setStore]

theorem filed_execTableEditSet (h : Hdr) (prog : Word) (ops : List Word) (s : State) : KeepsFiled s (execTableEditSet h prog ops s) := by
  simp only [execTableEditSet, implies_true, st_ok, keepsFiled_next, ↓filed_ruleCommand, ↓filed_setProg]

theorem filed_execTableRemarkSet (h : Hdr) (table : Word) (entries : List Word)
    (s : State) : KeepsFiled s (execTableRemarkSet h table entries s) := by
  simp only [execTableRemarkSet, implies_true, st_ok, keepsFiled_next, ↓filed_setStore, ↓filed_ruleCommand]

theorem filed_execTableEditRead (h : Hdr) (which : Word) (s : State) : KeepsFiled s (execTableEditRead h which s) := by
  simp only [execTableEditRead, ↓filed_ite, ite_self, implies_true, st_ite, st_ok, st_fail, keepsFiled_next, ↓filed_command,
    ↓filed_onHalves]

theorem filed_commitEdit (s : State) (p : APath) (half : Nat) (data : Word) : (s.commitEdit p half data).filed = s.filed := by
  simp only [State.commitEdit, ↓filed_ite, ite_self, ↓filed_setProg]

theorem filed_execEdtCommit (p : APath) (half : BitVec 1) (data : Word) (s : State) : KeepsFiled s (execEdtCommit p half data s) := by
  simp only [execEdtCommit, keepsFiled_next, ↓filed_commitEdit]

/-! ### GateLists -/

theorem filed_swapBuffers (s : State) (half g : Nat) : (s.swapBuffers half g).filed = s.filed := by
  simp only [State.swapBuffers, ↓filed_mk, ↓filed_setStore]

theorem filed_modStore (s : State) (half : Nat) (f : Store → Store) : (s.modStore half f).filed = s.filed := by
  simp only [State.modStore, ↓filed_setStore]

theorem filed_setStart (s : State) (half g t : Nat) : (s.setStart half g t).filed = s.filed := by
  simp only [State.setStart, ↓filed_setReg]

theorem filed_armAt (s : State) (half g start cycle count : Nat) : (s.armAt half g start cycle count).filed = s.filed := by
  simp only [State.armAt, ↓filed_setFld, ↓filed_setFlag, ↓filed_modStore, ↓filed_setStart]

theorem filed_noteAdvance (s : State) (half g : Nat) (adv : Bool) : (s.noteAdvance half g adv).filed = s.filed := by
  simp only [State.noteAdvance, ↓filed_ite, ite_self, ↓filed_latchFlag, ↓filed_report]

theorem filed_armList (s : State) (half g base cycle count : Nat) : (s.armList half g base cycle count).filed = s.filed := by
  simp only [State.armList, ↓filed_armAt, ↓filed_noteAdvance]

theorem filed_stageList (s : State) (half g base cycle : Nat) : (s.stageList half g base cycle).filed = s.filed := by
  simp only [State.stageList, ↓filed_setReg]

theorem filed_startList (s : State) (half g : Nat) : (s.startList half g).filed = s.filed := by
  unfold State.startList
  simp only
  split <;> simp only [↓filed_setFlag, ↓filed_setStore, ↓filed_swapBuffers]

theorem filed_disarm (s : State) (half g : Nat) : (s.disarm half g).filed = s.filed := by
  simp only [State.disarm, ↓filed_ite, ite_self, ↓filed_setFlag, ↓filed_modStore, ↓filed_startList]

theorem filed_gateCommand (h : Hdr) (op : Nat) (ctl : Word) (bad : Bool) (body : Nat → Nat → State → Res) (s : State)
    (hbody : ∀ k g t, (body k g t).st.filed = t.filed) :
    (gateCommand h op ctl bad body s).filed = s.filed := by
  refine filed_command _ _ _ _ _ fun c t => ?_
  split
  · rfl
  · simp only [st_ite, ↓filed_ite, ↓filed_unlessClaimed, hbody, st_fail, ite_self]

theorem filed_execGateGateSet (h : Hdr) (ctl gate gmax guard : Word) (s : State) :
    KeepsFiled s (execGateGateSet h ctl gate gmax guard s) := by
  simp only [execGateGateSet, implies_true, st_ok, keepsFiled_next, ↓filed_setReg, ↓filed_gateCommand]

theorem filed_execGateEntriesWrite (h : Hdr) (ctl first : Word) (entries : List (Word × Word))
    (s : State) : KeepsFiled s (execGateEntriesWrite h ctl first entries s) := by
  simp only [execGateEntriesWrite, ↓filed_ite, ite_self, implies_true, st_ite, ↓filed_foldl, st_ok, st_fail, keepsFiled_next,
    ↓filed_setReg, ↓filed_gateCommand]

theorem filed_execGateListStart (h : Hdr) (ctl : Word) (base : T3) (cycle count : Word)
    (s : State) : KeepsFiled s (execGateListStart h ctl base cycle count s) := by
  simp only [execGateListStart, ↓filed_ite, ite_self, implies_true, st_ite, st_fail, keepsFiled_next, ↓filed_armList, ↓filed_stageList,
    ↓filed_gateCommand]

theorem filed_execGateListCancel (h : Hdr) (ctl : Word) (s : State) : KeepsFiled s (execGateListCancel h ctl s) := by
  simp only [execGateListCancel, ite_self, implies_true, st_ite, st_ok, st_fail, keepsFiled_next, ↓filed_disarm, ↓filed_gateCommand]

theorem filed_execGateDisable (h : Hdr) (ctl : Word) (base : T3) (s : State) : KeepsFiled s (execGateDisable h ctl base s) := by
  simp only [execGateDisable, ↓filed_ite, ite_self, implies_true, st_ite, st_fail, keepsFiled_next, ↓filed_setReg, ↓filed_armList,
    ↓filed_stageList, ↓filed_gateCommand]

theorem filed_execGateStatus (h : Hdr) (ctl : Word) (s : State) : KeepsFiled s (execGateStatus h ctl s) := by
  unfold execGateStatus
  rw [keepsFiled_next]
  refine filed_command _ _ _ _ _ fun c t => ?_
  repeat' split
  all_goals simp only [st_ok, st_fail]

theorem filed_gtReject (s : State) (half g : Nat) : (s.gtReject half g).filed = s.filed := by
  simp only [State.gtReject, ↓filed_report]

theorem filed_writeListCtl (s : State) (p : APath) (half g : Nat) (data : Word) : (s.writeListCtl p half g data).filed = s.filed := by
  simp only [State.writeListCtl, ↓filed_ite, ite_self, ↓filed_setFld, ↓filed_setFlag, ↓filed_report, ↓filed_armList, ↓filed_disarm,
    ↓filed_gtReject]

theorem filed_execGtListArm (p : APath) (half : BitVec 1) (ctl : BitVec 7) (data : Word)
    (s : State) : KeepsFiled s (execGtListArm p half ctl data s) := by
  simp only [execGtListArm, ↓filed_ite, ite_self, keepsFiled_next, ↓filed_writeListCtl]

theorem filed_execGtListCancel (p : APath) (half : BitVec 1) (ctl : BitVec 7) (data : Word)
    (s : State) : KeepsFiled s (execGtListCancel p half ctl data s) := by
  simp only [execGtListCancel, ↓filed_ite, ite_self, keepsFiled_next, ↓filed_writeListCtl]

/-! ### Store -/

theorem filed_setQueue (s : State) (half q : Nat) (x : QueueSt) : (s.setQueue half q x).filed = s.filed := by
  simp only [State.setQueue, ↓filed_modStore]

theorem filed_enqueue (s : State) (half q : Nat) (m : Meta) : (s.enqueue half q m).filed = s.filed := by
  simp only [State.enqueue, ↓filed_ite, ite_self, ↓filed_count, ↓filed_setQueue]

theorem filed_notePool (s : State) (half : Nat) : (s.notePool half).filed = s.filed := by
  simp only [State.notePool, ↓filed_ite, ite_self, ↓filed_raiseOnce]

theorem filed_noteDecision (s : State) (half : Nat) : (s.noteDecision half).filed = s.filed := by
  simp only [State.noteDecision, ↓filed_modStore, ↓filed_notePool]

theorem filed_offerTo (s : State) (half q : Nat) (m : Meta) : (s.offerTo half q m).filed = s.filed := by
  simp only [State.offerTo, ↓filed_ite, ite_self, ↓filed_raiseOnce, ↓filed_count, ↓filed_setQueue, ↓filed_enqueue, ↓filed_noteDecision]

theorem filed_copyWait (s : State) (half q : Nat) (m : Meta) : (s.copyWait half q m).filed = s.filed := by
  simp only [State.copyWait, ↓filed_ite, ite_self, ↓filed_raiseOnce, ↓filed_count, ↓filed_setStore]

theorem filed_admitAll (s : State) (half : Nat) (qs : List Nat) (flood : Bool) (m : Meta) :
    (s.admitAll half qs flood m).filed = s.filed := by
  simp only [State.admitAll, ↓filed_ite, ite_self, implies_true, ↓filed_foldl, ↓filed_setStore, ↓filed_offerTo, ↓filed_copyWait]

theorem filed_admitOwn (s : State) (half pipe : Nat) (qs : List Nat) (flood : Bool)
    (m : Meta) : (s.admitOwn half pipe qs flood m).filed = s.filed := by
  simp only [State.admitOwn, ↓filed_ite, ite_self, implies_true, ↓filed_foldl, ↓filed_modStore, ↓filed_offerTo, ↓filed_admitAll]

theorem filed_admitWaiting (s : State) (half : Nat) : (s.admitWaiting half).filed = s.filed := by
  simp only [State.admitWaiting, implies_true, ↓filed_foldl, ↓filed_setStore, ↓filed_offerTo]

theorem filed_execBridgeHeadRx (half : BitVec 1) (s : State) : KeepsFiled s (execBridgeHeadRx half s) := by
  unfold execBridgeHeadRx
  simp only
  repeat' split
  all_goals simp only [keepsFiled_next, ↓filed_setStore, ↓filed_learnArrival, ↓filed_admitAll]

theorem filed_execReplicationCopy (half : BitVec 1) (s : State) : KeepsFiled s (execReplicationCopy half s) := by
  unfold execReplicationCopy
  simp only
  split <;> simp only [↓filed_ite, ite_self, keepsFiled_next, ↓filed_setStore, ↓filed_offerTo]

theorem filed_markHbm (s : State) (kind half unit : Nat) : (s.markHbm kind half unit).filed = s.filed := by
  simp only [State.markHbm, ↓filed_ite, ite_self, ↓filed_modPower, ↓filed_autoSpare]

theorem filed_unmarkHbm (s : State) (kind half unit : Nat) : (s.unmarkHbm kind half unit).filed = s.filed := by
  simp only [State.unmarkHbm, ↓filed_modPower]

theorem filed_retirePage (s : State) (half stack page : Nat) : (s.retirePage half stack page).filed = s.filed := by
  simp only [State.retirePage, ↓filed_ite, ite_self, ↓filed_setFld, ↓filed_count, ↓filed_modStore, ↓filed_markHbm]

theorem filed_execDeepPageWrite (half : BitVec 1) (queue : BitVec 26) (s : State) : KeepsFiled s (execDeepPageWrite half queue s) := by
  unfold execDeepPageWrite
  simp only [keepsFiled_next, keepsFiled_ite]
  repeat' split
  all_goals simp only [keepsFiled_next, ↓filed_raiseOnce, ↓filed_countBy, ↓filed_wantTime, ↓filed_charge, ↓filed_setQueue]

theorem filed_settle (s : State) (half q : Nat) : (s.settle half q).filed = s.filed := by
  simp only [State.settle, ↓filed_ite, ite_self, ↓filed_setQueue]

theorem filed_settleAll (s : State) (half : Nat) : (s.settleAll half).filed = s.filed := by
  simp only [State.settleAll, implies_true, ↓filed_foldl, ↓filed_settle]

theorem filed_noteStall (s : State) (half q : Nat) : (s.noteStall half q).filed = s.filed := by
  unfold State.noteStall
  simp only
  split <;> simp only [↓filed_ite, ite_self, ↓filed_count, ↓filed_setQueue]

theorem filed_execDeepPageRead (half : BitVec 1) (queue : BitVec 26) (ecc : BitVec 2)
    (s : State) : KeepsFiled s (execDeepPageRead half queue ecc s) := by
  unfold execDeepPageRead
  simp only
  split <;> simp only [↓filed_ite, ite_self, keepsFiled_next, keepsFiled_ite, ↓filed_raise, ↓filed_countBy, ↓filed_count,
    ↓filed_wantTime, ↓filed_charge, ↓filed_setQueue, ↓filed_retirePage, ↓filed_settle, ↓filed_noteStall]

theorem filed_queueRow (h : Hdr) (op : Nat) (queue : Word) (blk : Option Blk) (bad : Bool)
    (body : Caller → Nat → Nat → State → Res) (s : State) (hbody : ∀ c k q t, (body c k q t).st.filed = t.filed) :
    (queueCommand h op queue blk bad body s).filed = s.filed := by
  refine filed_command _ _ _ _ _ fun c t => ?_
  split
  · rfl
  · split
    · rfl
    · simp only [st_ite, ↓filed_ite, ↓filed_unlessClaimed, hbody, st_fail, ite_self]

theorem filed_halfCommand (h : Hdr) (op : Nat) (blk : Option Blk) (bad : State → Nat → Bool) (body : Nat → State → Res) (s : State)
    (hbody : ∀ a t, (body a t).st.filed = t.filed) : (halfCommand h op blk bad body s).filed = s.filed := by
  simp only [halfCommand, ↓filed_ite, ite_self, implies_true, st_ite, st_fail, ↓filed_command, ↓filed_unlessClaimed, hbody]

theorem filed_execQueueProfileSet (h : Hdr) (prf mn mx ag ay ar dpy dpr : Word)
    (s : State) : KeepsFiled s (execQueueProfileSet h prf mn mx ag ay ar dpy dpr s) := by
  simp only [execQueueProfileSet, implies_true, st_ok, keepsFiled_next, ↓filed_setReg, ↓filed_halfCommand]

theorem filed_execQueueAdmitSet (h : Hdr) (queue prf deepEn deepMax : Word)
    (s : State) : KeepsFiled s (execQueueAdmitSet h queue prf deepEn deepMax s) := by
  simp only [execQueueAdmitSet, implies_true, st_ok, keepsFiled_next, ↓filed_setReg, ↓filed_queueRow]

theorem filed_execQueuePoolSet (h : Hdr) (ing rsm host : Word) (s : State) : KeepsFiled s (execQueuePoolSet h ing rsm host s) := by
  simp only [execQueuePoolSet, implies_true, st_ok, keepsFiled_next, ↓filed_setReg, ↓filed_halfCommand]

theorem filed_execQueueDeepSet (h : Hdr) (spill ret : Word) (s : State) : KeepsFiled s (execQueueDeepSet h spill ret s) := by
  simp only [execQueueDeepSet, implies_true, st_ok, keepsFiled_next, ↓filed_setReg, ↓filed_settleAll, ↓filed_halfCommand]

theorem filed_execQueueDepth (h : Hdr) (queue : Word) (s : State) : KeepsFiled s (execQueueDepth h queue s) := by
  simp only [execQueueDepth, implies_true, st_ok, keepsFiled_next, ↓filed_queueRow]

theorem filed_execQueueStoreStatus (h : Hdr) (s : State) : KeepsFiled s (execQueueStoreStatus h s) := by
  simp only [execQueueStoreStatus, implies_true, st_ok, keepsFiled_next, ↓filed_halfCommand]

/-! ### Scheduler -/

theorem filed_setNode (s : State) (half n : Nat) (x : NodeSt) : (s.setNode half n x).filed = s.filed := by
  simp only [State.setNode, ↓filed_modStore]

theorem filed_rewrittenNode (s : State) (half n : Nat) : (s.rewrittenNode half n).filed = s.filed := by
  simp only [State.rewrittenNode, ↓filed_ite, ite_self, ↓filed_setNode]

theorem filed_chargeNode (s : State) (half n len : Nat) (committed : Bool) : (s.chargeNode half n len committed).filed = s.filed := by
  simp only [State.chargeNode, ↓filed_setNode]

theorem filed_refillNode (s : State) (half n : Nat) : (s.refillNode half n).filed = s.filed := by
  simp only [State.refillNode, ↓filed_ite, ite_self, ↓filed_setNode]

theorem filed_popHead (s : State) (half q : Nat) : (s.popHead half q).filed = s.filed := by
  unfold State.popHead
  simp only
  split <;> simp only [↓filed_setQueue, ↓filed_settle, ↓filed_noteStall]

theorem filed_purge (half g q n : Nat) (s : State) :
    (State.purge half g q n s).filed = s.filed := by
  induction n generalizing s with
  | zero => rfl
  | succ n ih =>
    unfold State.purge
    split
    · rfl
    · simp only [↓filed_ite, ih, ↓filed_count, ↓filed_popHead, ↓filed_raiseOnce, ite_self]

theorem filed_syncNode (half : Nat) (heads : List QHead) (s : State) (pn : Nat × Nat) :
    (State.syncNode half heads s pn).filed = s.filed := by
  simp only [State.syncNode, ↓filed_ite, ite_self, ↓filed_setNode]

theorem filed_syncEgress (s : State) (half g : Nat) : (s.syncEgress half g).filed = s.filed := by
  simp only [State.syncEgress, ↓filed_ite, ↓filed_mk, ite_self, implies_true, ↓filed_foldl, ↓filed_setNode, ↓filed_purge, ↓filed_syncNode]

theorem filed_syncHalf (s : State) (half : Nat) : (s.syncHalf half).filed = s.filed := by
  simp only [State.syncHalf, implies_true, ↓filed_foldl, ↓filed_syncEgress]

theorem filed_advanceTags (s : State) (half : Nat) (pairs : List (Nat × Nat)) : (s.advanceTags half pairs).filed = s.filed := by
  simp only [State.advanceTags, implies_true, ↓filed_foldl, ↓filed_setNode]

theorem filed_retag (s : State) (half g : Nat) (path : List Nat) : (s.retag half g path).filed = s.filed := by
  simp only [State.retag, ↓filed_ite, ite_self, implies_true, ↓filed_foldl, ↓filed_setNode]

theorem filed_noteOverrun (s : State) (half g gate at_ tx : Nat) : (s.noteOverrun half g gate at_ tx).filed = s.filed := by
  simp only [State.noteOverrun, ↓filed_ite, ite_self, ↓filed_raiseOnce, ↓filed_count]

theorem filed_depart (s : State) (port : Nat) (x : HeldFrame) (at_ : Nat) : (s.depart port x at_).filed = s.filed := by
  unfold State.depart
  split <;> simp only [↓filed_ite, ite_self, ↓filed_sendUplink, ↓filed_stampEgress, ↓filed_noteOverrun]

theorem filed_unhold (s : State) (port : Nat) : (s.unhold port).filed = s.filed := (rfl)

theorem filed_execDepartureInstant (port : Lane) (late : Bool) (s : State) : KeepsFiled s (execDepartureInstant port late s) := by
  unfold execDepartureInstant
  simp only
  split <;> simp only [↓filed_ite, ite_self, keepsFiled_next, keepsFiled_ite, ↓filed_count, ↓filed_report, ↓filed_depart, ↓filed_unhold]

theorem filed_toUplink (s : State) (half g : Nat) (m : Meta) (f : Frame)
    (len gate : Nat) : (s.toUplink half g m f len gate).filed = s.filed := by
  simp only [State.toUplink, ↓filed_ite, ↓filed_mk, ite_self, ↓filed_modStore, ↓filed_depart]

theorem filed_toChannel (s : State) (half g q : Nat) (f : Frame) (len gate : Nat)
    (host : Bool) : (s.toChannel half g q f len gate host).filed = s.filed := by
  unfold State.toChannel
  simp only [↓filed_mk]
  split <;> simp only [↓filed_mk]

theorem filed_emit (s : State) (half g q : Nat) (m : Meta) (len : Nat) : (s.emit half g q m len).filed = s.filed := by
  simp only [State.emit, ↓filed_ite, ite_self, ↓filed_raiseOnce, ↓filed_countBy, ↓filed_count, ↓filed_latency, ↓filed_toUplink,
    ↓filed_toChannel]

theorem filed_releaseTrib (s : State) (half : Nat) (h : QHead) : (s.releaseTrib half h).filed = s.filed := by
  unfold State.releaseTrib
  simp only
  split <;> simp only [↓filed_mk, ↓filed_popHead]

theorem filed_release1 (s : State) (half g : Nat) : (s.release1 half g).filed = s.filed := by
  unfold State.release1
  simp only
  repeat' split
  all_goals simp only [implies_true, ↓filed_foldl, ↓filed_modStore, ↓filed_chargeNode, ↓filed_popHead, ↓filed_syncEgress,
    ↓filed_advanceTags, ↓filed_retag, ↓filed_emit, ↓filed_releaseTrib]

theorem filed_execSchedulerRelease (half : BitVec 1) (ctl : BitVec 7) (idle : BitVec 32)
    (s : State) : KeepsFiled s (execSchedulerRelease half ctl idle s) := by
  simp only [execSchedulerRelease, ite_self, keepsFiled_next, keepsFiled_ite, ↓filed_countBy, ↓filed_release1]

theorem filed_execGateListStartAt (half : BitVec 1) (ctl : BitVec 7) (s : State) : KeepsFiled s (execGateListStartAt half ctl s) := by
  unfold execGateListStartAt
  simp only
  split <;> simp only [ite_self, keepsFiled_next, keepsFiled_ite, ↓filed_startList, ↓filed_syncEgress]

theorem filed_execGateEntry (half : BitVec 1) (ctl : BitVec 7) (s : State) : KeepsFiled s (execGateEntry half ctl s) := by
  simp only [execGateEntry, ↓filed_ite, ite_self, keepsFiled_next, ↓filed_syncEgress]

theorem filed_execQueueFlush (h : Hdr) (queue : Word) (s : State) : KeepsFiled s (execQueueFlush h queue s) := by
  simp only [execQueueFlush, ↓filed_ite, ite_self, implies_true, st_ite, st_fail, st_accepted, keepsFiled_next, ↓filed_modStore,
    ↓filed_queueRow]

theorem filed_execQueueFlushDone (half : BitVec 1) (s : State) : KeepsFiled s (execQueueFlushDone half s) := by
  unfold execQueueFlushDone
  simp only
  split <;> simp only [keepsFiled_next, ↓filed_count, ↓filed_answer, ↓filed_modStore, ↓filed_setQueue, ↓filed_syncHalf]

theorem filed_execQueueNodeSet (h : Hdr) (w : NodeWords) (s : State) : KeepsFiled s (execQueueNodeSet h w s) := by
  simp only [execQueueNodeSet, ↓filed_ite, ite_self, implies_true, st_ite, st_ok, st_fail, keepsFiled_next, ↓filed_setFld,
    ↓filed_halfCommand, ↓filed_setNode, ↓filed_rewrittenNode, ↓filed_refillNode, ↓filed_syncHalf]

theorem filed_execQueueNodeGet (h : Hdr) (dir level index : Word) (s : State) : KeepsFiled s (execQueueNodeGet h dir level index s) := by
  simp only [execQueueNodeGet, implies_true, st_ok, keepsFiled_next, ↓filed_halfCommand]

theorem filed_execQueueAttach (h : Hdr) (queue : Word) (w : AttachWords) (s : State) : KeepsFiled s (execQueueAttach h queue w s) := by
  simp only [execQueueAttach, ↓filed_ite, ite_self, implies_true, st_ite, st_ok, st_fail, keepsFiled_next, ↓filed_setReg, ↓filed_setFld,
    ↓filed_setQueue, ↓filed_queueRow, ↓filed_setNode, ↓filed_rewrittenNode, ↓filed_refillNode, ↓filed_syncHalf]

theorem filed_execQueueDetach (h : Hdr) (queue : Word) (s : State) : KeepsFiled s (execQueueDetach h queue s) := by
  simp only [execQueueDetach, ↓filed_ite, ite_self, implies_true, st_ite, st_ok, st_fail, keepsFiled_next, ↓filed_setFlag,
    ↓filed_setQueue, ↓filed_queueRow, ↓filed_setNode]

theorem filed_execQueueOvhSet (h : Hdr) (egress ovh : Word) (s : State) : KeepsFiled s (execQueueOvhSet h egress ovh s) := by
  unfold execQueueOvhSet
  rw [keepsFiled_next]
  refine filed_command _ _ _ _ _ fun c t => ?_
  repeat' split
  all_goals simp only [ite_self, st_ok, st_fail, ↓filed_setFld, ↓filed_unlessClaimed]

theorem filed_execQueueSchedStatus (h : Hdr) (s : State) : KeepsFiled s (execQueueSchedStatus h s) := by
  simp only [execQueueSchedStatus, implies_true, st_ok, keepsFiled_next, ↓filed_halfCommand]

/-! ### Policers -/

theorem filed_setPolicer (s : State) (half n : Nat) (x : PolSt) : (s.setPolicer half n x).filed = s.filed := by
  simp only [State.setPolicer, ↓filed_modStore]

theorem filed_rewrittenPolicer (s : State) (half n : Nat) : (s.rewrittenPolicer half n).filed = s.filed := by
  simp only [State.rewrittenPolicer, ↓filed_setPolicer]

theorem filed_police (s : State) (half n len : Nat) (ruled : Option Nat) (colour : Nat)
    (dei : Bool) : (s.police half n len ruled colour dei).1.filed = s.filed := by
  simp only [State.police, ↓filed_ite, ite_self, fst_ite, ↓filed_count, ↓filed_setPolicer]

theorem filed_execQueuePolicerSet (h : Hdr) (policer : Word) (w : PolicerWords)
    (s : State) : KeepsFiled s (execQueuePolicerSet h policer w s) := by
  simp only [execQueuePolicerSet, ↓filed_ite, ite_self, implies_true, st_ok, keepsFiled_next, ↓filed_setReg, ↓filed_setFld,
    ↓filed_halfCommand, ↓filed_rewrittenPolicer]

theorem filed_execQueuePolicerRead (h : Hdr) (policer : Word) (s : State) : KeepsFiled s (execQueuePolicerRead h policer s) := by
  simp only [execQueuePolicerRead, implies_true, st_ok, keepsFiled_next, ↓filed_halfCommand]

/-! ### Pipeline -/

theorem filed_setFrag (s : State) (half : Nat) (e : FragEnt) : (s.setFrag half e).filed = s.filed := by
  simp only [State.setFrag, ↓filed_modFwd]

theorem filed_firstFrag (s : State) (half : Nat) (key : List Nat) : (s.firstFrag half key).filed = s.filed := by
  unfold State.firstFrag
  split <;> simp only [↓filed_ite, ite_self, ↓filed_count, ↓filed_report, ↓filed_setFrag]

theorem filed_completeFrag (s : State) (half : Nat) (key : List Nat) (d : Decision) : (s.completeFrag half key d).filed = s.filed := by
  unfold State.completeFrag
  split <;> simp only [↓filed_setFrag]

theorem filed_execFragSweep (half : BitVec 1) (s : State) : KeepsFiled s (execFragSweep half s) := by
  simp only [execFragSweep, keepsFiled_next, ↓filed_modFwd]

theorem filed_isolated (s : State) (x : Head) (b : BdEnt) (l : Look) : (s.isolated x b l).1.filed = s.filed := by
  unfold State.isolated
  split <;> simp only [↓filed_ite, ite_self, fst_ite, ↓filed_count]

theorem filed_routed (s : State) (x : Head) (p : Parsed) (vrf : Nat) (l : Look) : (s.routed x p vrf l).1.filed = s.filed := by
  unfold State.routed
  simp only [↓filed_ite, fst_ite, ↓filed_count]
  repeat' split
  all_goals simp only [↓filed_raiseOnce, ↓filed_count]

theorem filed_inDomain (s : State) (x : Head) (p : Parsed) (bd : Nat) (l : Look) : (s.inDomain x p bd l).1.filed = s.filed := by
  unfold State.inDomain
  simp only
  repeat' split
  all_goals simp only [↓filed_isolated, ↓filed_routed]

theorem filed_lookups (s : State) (k : Pkt) (p : Parsed) (spoof : Bool) : (s.lookups k p spoof).1.filed = s.filed := by
  unfold State.lookups
  simp only
  repeat' split
  all_goals simp only [↓filed_raiseOnce, ↓filed_count, ↓filed_inDomain]

theorem filed_forced (s : State) (half : Nat)
    (conflict spoof ruledHost : Bool) : (s.forced half conflict spoof ruledHost).1.filed = s.filed := by
  simp only [State.forced, ↓filed_ite, ite_self, ↓filed_raiseOnce, ↓filed_count]

theorem filed_merge (s : State) (x : Head) (p : Parsed) (spoof : Bool) (r : RuleSet) (l : Look) :
    (s.merge x p spoof r l).1.filed = s.filed := by
  unfold State.merge
  dsimp only
  have hf := filed_forced s x.half p.conflict spoof (r.queue = some 0x3FFFE)
  split <;> rename_i h <;> rw [h] at hf
  · exact hf
  · split
    · exact hf
    · exact hf
    · simp only [fst_ite, ↓filed_ite, ↓filed_report, hf]
      split
      · rfl
      · split
        · rfl
        · split <;> simp only [↓filed_raiseOnce, ↓filed_count, hf]
    · split <;> simp only [↓filed_count, hf]

theorem filed_handOver (s : State) (pipe : Nat) (x : Head) (d : Decision)
    (learn : Option LrnEv) : (s.handOver pipe x d learn).filed = s.filed := by
  unfold State.handOver
  repeat' split
  all_goals simp only [↓filed_ite, ite_self, ↓filed_count, ↓filed_toHost, ↓filed_modStore, ↓filed_notePool, ↓filed_admitOwn]

theorem filed_policed (s : State) (x : Head) (p : Parsed) (ruled : Option Nat) (d : Decision) :
    (s.policed x p ruled d).1.filed = s.filed := by
  unfold State.policed
  split <;> simp only [↓filed_ite, ite_self, fst_ite, ↓filed_police]

theorem filed_loopDrop (s : State) (k : Pkt) : (s.loopDrop k).filed = s.filed := by
  simp only [State.loopDrop, ↓filed_raise, ↓filed_count, ↓filed_dropVersion]

theorem filed_recirculate (s : State) (pipe : Nat) (k : Pkt) : (s.recirculate pipe k).filed = s.filed := by
  simp only [State.recirculate, ↓filed_ite, ite_self, ↓filed_report, ↓filed_setFwd, ↓filed_dropVersion, ↓filed_loopDrop]

theorem filed_classify (s : State) (pipe : Nat) (k : Pkt) (p : Parsed) (orphan : Bool) :
    (s.classify pipe k p orphan).filed = s.filed := by
  unfold State.classify
  simp only
  repeat' split
  all_goals simp only [↓filed_dropVersion, ↓filed_searchRules, ↓filed_learnFrom, ↓filed_completeFrag, ↓filed_lookups, ↓filed_merge,
    ↓filed_handOver, ↓filed_policed, ↓filed_recirculate]

theorem filed_forcedLater (s : State) (k : Pkt) (p : Parsed) (d : Decision) :
    (s.forcedLater k p d).1.filed = s.filed := by
  unfold State.forcedLater
  have hf := filed_forced s k.head.half p.conflict k.spoof (d.host.any (· < 3))
  split <;> rename_i h <;> rw [h] at hf <;> exact hf

theorem filed_laterFrag (s : State) (pipe : Nat) (k : Pkt) (p : Parsed) (key : List Nat) :
    (s.laterFrag pipe k p key).filed = s.filed := by
  unfold State.laterFrag
  simp only
  repeat' split
  all_goals simp only [↓filed_raiseOnce, ↓filed_count, ↓filed_dropVersion, ↓filed_setFrag, ↓filed_handOver, ↓filed_policed,
    ↓filed_recirculate, ↓filed_classify, ↓filed_forcedLater]

theorem filed_pass (s : State) (pipe : Nat) (k : Pkt) : (s.pass pipe k).filed = s.filed := by
  unfold State.pass
  simp only
  split <;> simp only [↓filed_ite, ite_self, ↓filed_countBy, ↓filed_count, ↓filed_firstFrag, ↓filed_classify, ↓filed_laterFrag]

theorem filed_setTurns (s : State) (half pipe n : Nat) : (s.setTurns half pipe n).filed = s.filed := by
  simp only [State.setTurns, ↓filed_modFwd]

theorem filed_firstPass (s : State) (half pipe : Nat) (x : Head) : (s.firstPass half pipe x).filed = s.filed := by
  simp only [State.firstPass, ↓filed_carry, ↓filed_slotUsed, ↓filed_takeVersion, ↓filed_pass]

theorem filed_injectPass (s : State) (half pipe : Nat) : (s.injectPass half pipe).filed = s.filed := by
  unfold State.injectPass
  split <;> simp only [implies_true, ↓filed_rationed, ↓filed_modFwd, ↓filed_setTurns, ↓filed_firstPass]

theorem filed_execPipelinePass (half : BitVec 1) (up : Bool) (pipe : BitVec 4)
    (s : State) : KeepsFiled s (execPipelinePass half up pipe s) := by
  unfold execPipelinePass
  simp only [keepsFiled_next, keepsFiled_ite, ↓filed_injectPass]
  repeat' split
  all_goals simp only [keepsFiled_next, ↓filed_setFwd, ↓filed_setTurns, ↓filed_firstPass]

theorem filed_execRecircPass (half : BitVec 1) (pipe : BitVec 4) (s : State) : KeepsFiled s (execRecircPass half pipe s) := by
  unfold execRecircPass
  simp only
  split <;> simp only [↓filed_ite, ite_self, implies_true, keepsFiled_next, ↓filed_slotUsed, ↓filed_rationed, ↓filed_modFwd, ↓filed_pass,
    ↓filed_setTurns]

/-! ### Scratch -/

theorem filed_setBank (s : State) (die bank owner : Nat) (clear pending : Bool) :
    (s.setBank die bank owner clear pending).filed = s.filed := by
  simp only [State.setBank, ↓filed_setReg]

theorem filed_readPad (s : State) (die bank w : Nat) : (s.readPad die bank w).1.filed = s.filed := by
  simp only [State.readPad, ↓filed_ite, ite_self, ↓filed_report]

theorem filed_noteBroken (s : State) (die bank first n : Nat) : (s.noteBroken die bank first n).filed = s.filed := by
  simp only [State.noteBroken, ↓filed_ite, ite_self, implies_true, ↓filed_foldl, ↓filed_report]

theorem filed_noteBytes (s : State) (die bank a n : Nat) : (s.noteBytes die bank a n).filed = s.filed := by
  simp only [State.noteBytes, ↓filed_ite, ite_self, ↓filed_noteBroken]

theorem filed_readPads (s : State) (die bank first n : Nat) :
    (s.readPads die bank first n).1.filed = s.filed := by
  induction n generalizing s first with
  | zero => rfl
  | succ n ih => exact (ih ..).trans (filed_readPad ..)

theorem filed_writePad (s : State) (die bank w : Nat) (v : Word) : (s.writePad die bank w v).filed = s.filed := (rfl)

theorem filed_writePads (s : State) (die bank w : Nat) (vs : List Word) :
    (s.writePads die bank w vs).filed = s.filed := by
  induction vs generalizing s w with
  | nil => rfl
  | cons v vs ih => simp only [State.writePads, ih, ↓filed_writePad]

theorem filed_writeByte (s : State) (die bank a v : Nat) : (s.writeByte die bank a v).filed = s.filed := by
  simp only [State.writeByte, ↓filed_writePad]

theorem filed_writeBytes (s : State) (die bank a : Nat) (vs : List Nat) :
    (s.writeBytes die bank a vs).filed = s.filed := by
  induction vs generalizing s a with
  | nil => rfl
  | cons v vs ih => simp only [State.writeBytes, ih, ↓filed_writeByte]

theorem filed_clearBank (s : State) (die bank : Nat) : (s.clearBank die bank).filed = s.filed := (rfl)

theorem filed_nonOwner (s : State) (die : Nat) : (s.nonOwner die).filed = s.filed := by
  simp only [State.nonOwner, ↓filed_raiseOnce, ↓filed_count]

theorem filed_finishHandover (s : State) (x : Handover) : (s.finishHandover x).filed = s.filed := by
  unfold State.finishHandover
  simp only
  split <;> simp only [↓filed_ite, ↓filed_mk, ite_self, ↓filed_answer, ↓filed_setBank, ↓filed_clearBank]

theorem filed_settleBank (s : State) (die bank : Nat) : (s.settleBank die bank).filed = s.filed := by
  unfold State.settleBank
  split <;> simp only [↓filed_finishHandover]

theorem filed_startHandover (s : State) (die bank owner : Nat) (clear : Bool)
    (caller : Option Caller) : (s.startHandover die bank owner clear caller).filed = s.filed := by
  simp only [State.startHandover, ↓filed_mk, ↓filed_setBank]

theorem filed_execScratchOwnerSet (h : Hdr) (bank owner clear : Word)
    (s : State) : KeepsFiled s (execScratchOwnerSet h bank owner clear s) := by
  unfold execScratchOwnerSet
  rw [keepsFiled_next]
  refine filed_command _ _ _ _ _ fun c t => ?_
  simp only [↓filed_ite, st_ite, st_fail]
  repeat' split
  all_goals simp only [ite_self, st_fail, ↓filed_unlessClaimed, ↓filed_startHandover]

theorem filed_execBankHandoverDone (die : BitVec 3) (bank : Byte) (s : State) : KeepsFiled s (execBankHandoverDone die bank s) := by
  simp only [execBankHandoverDone, ↓filed_ite, ite_self, keepsFiled_next, ↓filed_chargeWith, ↓filed_settleBank]

theorem filed_writeOwner (s : State) (p : APath) (die bank : Nat) (data : Word) : (s.writeOwner p die bank data).filed = s.filed := by
  unfold State.writeOwner
  simp only [↓filed_ite, ↓filed_setReg, ↓filed_report]
  repeat' split
  all_goals simp only [↓filed_report, ↓filed_startHandover]

theorem filed_execSpBankOwnerWrite (p : APath) (die : BitVec 3) (bank : Byte) (data : Word)
    (s : State) : KeepsFiled s (execSpBankOwnerWrite p die bank data s) := by
  simp only [execSpBankOwnerWrite, keepsFiled_next, ↓filed_writeOwner]

theorem filed_onHostBank (s : State) (p : Path) (d b : Nat) (f : State → Res) (hf : ∀ t,
    (f t).st.filed = t.filed) : (s.onHostBank p d b f).st.filed = s.filed := by
  simp only [State.onHostBank, ↓filed_ite, ite_self, st_ite, st_fail, ↓filed_nonOwner, ↓filed_settleBank, hf]

theorem filed_execScratchRead (h : Hdr) (bank offset count : Word) (s : State) :
    KeepsFiled s (execScratchRead h bank offset count s) := by
  simp only [execScratchRead, ↓filed_ite, ite_self, implies_true, st_ite, st_ok, st_fail, keepsFiled_next, ↓filed_command,
    ↓filed_readPads, ↓filed_onHostBank]

theorem filed_execScratchWrite (h : Hdr) (bank offset : Word) (words : List Word)
    (s : State) : KeepsFiled s (execScratchWrite h bank offset words s) := by
  simp only [execScratchWrite, ↓filed_ite, ite_self, implies_true, st_ite, st_ok, st_fail, keepsFiled_next, ↓filed_command,
    ↓filed_unlessClaimed, ↓filed_writePads, ↓filed_onHostBank]

theorem filed_execScratchDma (h : Hdr) (dir bank offset hostHi hostLo len : Word)
    (s : State) : KeepsFiled s (execScratchDma h dir bank offset hostHi hostLo len s) := by
  simp only [execScratchDma, ↓filed_ite, ↓filed_mk, ite_self, implies_true, st_ite, st_fail, st_accepted, keepsFiled_next,
    ↓filed_command, ↓filed_unlessClaimed, ↓filed_nonOwner, ↓filed_settleBank]

theorem filed_moveDma (s : State) (x : DmaXfer) (n : Nat) (data : List Word) : (s.moveDma x n data).filed = s.filed := by
  simp only [State.moveDma, ↓filed_ite, ite_self, ↓filed_send, ↓filed_noteBroken, ↓filed_writePads]

theorem filed_endDma (s : State) (x : DmaXfer) (m : DmaMoved) (st : Status) : (s.endDma x m st).filed = s.filed := by
  simp only [State.endDma, ↓filed_mk, ↓filed_answer, ↓filed_moveDma]

theorem filed_serveDma (s : State) (x : DmaXfer) (bytes : Nat) : (s.serveDma x bytes).1.filed = s.filed := by
  simp only [State.serveDma, ↓filed_mk, ↓filed_wantTime, ↓filed_charge]

theorem filed_execDmaDone (die : BitVec 3) (n : BitVec 2) (stop : DmaEnd) (moved : DmaMoved)
    (s : State) : KeepsFiled s (execDmaDone die n stop moved s) := by
  unfold execDmaDone
  simp only
  repeat' split
  all_goals simp only [keepsFiled_next, ↓filed_report, ↓filed_retirePage, ↓filed_endDma, ↓filed_serveDma]

theorem filed_execHostLinkDmaTimeout (moved : List DmaMoved) (s : State) : KeepsFiled s (execHostLinkDmaTimeout moved s) := by
  simp only [execHostLinkDmaTimeout, ite_self, implies_true, ↓filed_foldl, keepsFiled_next, keepsFiled_ite, ↓filed_report, ↓filed_endDma]

/-! ### Vault -/

theorem filed_keyGate (s : State) (op : Nat) (r : Res) :
    (s.keyGate op r).st.filed =
      if s.errorState ∨ s.lifecycle = 0 ∨ (s.lifecycle = 3 ∧ op ≠ 0x0B0D) then s.filed else r.st.filed := by
  simp only [State.keyGate, st_ite, filed_ite, st_fail, ite_or]

theorem filed_officerOnly (s : State) (h : Hdr) (r : Res) :
    (s.officerOnly h r).st.filed = if s.isOfficer h.path then r.st.filed else s.filed := by
  simp only [State.officerOnly, st_ite, filed_ite, st_fail]

theorem filed_creates (s : State) (r : Res) : (s.creates r).st.filed = if s.tampered then s.filed else r.st.filed := by
  simp only [State.creates, st_ite, filed_ite, st_fail]

theorem filed_notApproved (s : State) : s.notApproved.filed = s.filed := by
  simp only [State.notApproved, ↓filed_setFlag, ↓filed_report]

theorem filed_keysBack (s : State) (k : VKey) : (s.keysBack k).filed = s.filed := by
  simp only [State.keysBack, implies_true, ↓filed_foldl, ↓filed_setFlag]

theorem filed_tellKey (s : State) (k : VKey) (switch : Option Nat) : (s.tellKey k switch).filed = s.filed := by
  unfold State.tellKey
  split <;> simp only [↓filed_ite, ite_self, ↓filed_sendRecord]

theorem filed_tellKeys (s : State) (t : Nat) : (s.tellKeys t).filed = s.filed := by
  simp only [State.tellKeys, ↓filed_ite, ite_self, implies_true, ↓filed_foldl, ↓filed_tellKey]

theorem filed_installKeys (s : State) (ks : Tbl VKey) :
    (s.installKeys ks).filed = s.filed := by
  unfold State.installKeys
  extract_lets clash t u
  refine (filed_foldl (fun v k => ?_) ks u).trans ((filed_modCipher ..).trans (filed_of rfl rfl))
  dsimp only
  split <;> simp only [↓filed_keysBack, ↓filed_tellKey]

theorem filed_execKeyDelivered (half : BitVec 1) (s : State) : KeepsFiled s (execKeyDelivered half s) := by
  unfold execKeyDelivered
  split <;> simp only [keepsFiled_next, ↓filed_answer, ↓filed_modCipher, ↓filed_installKeys]

theorem filed_execKeyAuth (h : Hdr) (phase : Word) (sig : List Word) (s : State) : KeepsFiled s (execKeyAuth h phase sig s) := by
  unfold execKeyAuth
  rw [keepsFiled_next]
  refine filed_command _ _ _ _ _ fun c t => ?_
  repeat' split
  all_goals simp only [↓filed_ite, ite_self, st_ite, st_ok, st_fail, ↓filed_drawn, ↓filed_modCipher, ↓filed_keyGate]

theorem filed_execKeyLogout (h : Hdr) (s : State) : KeepsFiled s (execKeyLogout h s) := by
  simp only [execKeyLogout, ite_self, implies_true, st_ok, keepsFiled_next, ↓filed_command, ↓filed_losePath, ↓filed_unlessClaimed,
    ↓filed_keyGate]

theorem filed_execKeyKlkAgree (h : Hdr) (pub : List Word) (s : State) : KeepsFiled s (execKeyKlkAgree h pub s) := by
  unfold execKeyKlkAgree
  rw [keepsFiled_next]
  refine filed_command _ _ _ _ _ fun c t => ?_
  repeat' split
  all_goals simp only [ite_self, st_ok, st_fail, ↓filed_drawn, ↓filed_modCipher, ↓filed_unlessClaimed, ↓filed_keyGate, ↓filed_creates]

theorem filed_deliverKeys (s : State) (caller : Caller) (half : Nat) (ks : Tbl VKey)
    (ws : List Word) : (s.deliverKeys caller half ks ws).st.filed = s.filed := by
  simp only [State.deliverKeys, ↓filed_modCipher]

theorem filed_execKeyLoad (h : Hdr) (kind target : Word) (key : List Word) (clear : Word)
    (s : State) : KeepsFiled s (execKeyLoad h kind target key clear s) := by
  unfold execKeyLoad
  rw [keepsFiled_next]
  refine filed_command _ _ _ _ _ fun c t => ?_
  repeat' split
  all_goals simp only [↓filed_ite, ite_self, st_ite, st_fail, ↓filed_report, ↓filed_unlessClaimed, ↓filed_keyGate, ↓filed_officerOnly,
    ↓filed_creates, ↓filed_notApproved, ↓filed_deliverKeys]

theorem filed_execKeyErase (h : Hdr) (handle : Word) (s : State) : KeepsFiled s (execKeyErase h handle s) := by
  unfold execKeyErase
  rw [keepsFiled_next]
  refine filed_command _ _ _ _ _ fun c t => ?_
  repeat' split
  all_goals simp only [↓filed_mk, ite_self, st_ok, st_fail, ↓filed_unlessClaimed, ↓filed_keyGate, ↓filed_officerOnly]

theorem filed_execKeyBcastNew (h : Hdr) (tree : Word) (onus : List Word) (s : State) : KeepsFiled s (execKeyBcastNew h tree onus s) := by
  unfold execKeyBcastNew
  rw [keepsFiled_next]
  refine filed_command _ _ _ _ _ fun c t => ?_
  simp only [↓filed_ite, st_ite, st_fail, ↓filed_unlessClaimed, ↓filed_keyGate, ↓filed_officerOnly, ↓filed_creates]
  repeat' split
  all_goals simp only [st_fail, ↓filed_drawn, ↓filed_deliverKeys]

theorem filed_execKeyBcastSwitch (h : Hdr) (tree cHi cLo : Word) (s : State) : KeepsFiled s (execKeyBcastSwitch h tree cHi cLo s) := by
  unfold execKeyBcastSwitch
  rw [keepsFiled_next]
  refine filed_command _ _ _ _ _ fun c t => ?_
  simp only [↓filed_ite, st_ite, st_fail, ↓filed_unlessClaimed, ↓filed_keyGate, ↓filed_officerOnly]
  repeat' split
  all_goals simp only [st_ok, st_fail, ↓filed_modCipher, ↓filed_tellKey]

theorem filed_execKeyMscSaSet (h : Hdr) (w : SaWords) (s : State) : KeepsFiled s (execKeyMscSaSet h w s) := by
  unfold execKeyMscSaSet
  rw [keepsFiled_next]
  refine filed_command _ _ _ _ _ fun c t => ?_
  repeat' split
  all_goals simp only [↓filed_ite, ite_self, st_ite, st_ok, st_fail, ↓filed_setFld, ↓filed_setFlag, ↓filed_setSecy, ↓filed_unlessClaimed,
    ↓filed_keyGate, ↓filed_officerOnly]

theorem filed_execKeyMscTxSwitch (h : Hdr) (port an : Word) (s : State) : KeepsFiled s (execKeyMscTxSwitch h port an s) := by
  simp only [execKeyMscTxSwitch, ↓filed_ite, ite_self, implies_true, st_ite, st_ok, st_fail, keepsFiled_next, ↓filed_setFld,
    ↓filed_setFlag, ↓filed_setSecy, ↓filed_command, ↓filed_unlessClaimed, ↓filed_keyGate, ↓filed_officerOnly]

theorem filed_execKeyMscStatus (h : Hdr) (port : Word) (s : State) : KeepsFiled s (execKeyMscStatus h port s) := by
  simp only [execKeyMscStatus, ite_self, implies_true, st_ite, st_ok, st_fail, keepsFiled_next, ↓filed_command, ↓filed_keyGate]

theorem filed_execKeyJob (h : Hdr) (w : JobWords) (s : State) : KeepsFiled s (execKeyJob h w s) := by
  unfold execKeyJob
  rw [keepsFiled_next]
  refine filed_command _ _ _ _ _ fun c t => ?_
  simp only [↓filed_ite, st_ite, st_fail, ↓filed_keyGate]
  repeat' split
  all_goals simp only [ite_self, st_fail, st_accepted, ↓filed_modCipher, ↓filed_unlessClaimed, ↓filed_nonOwner, ↓filed_settleBank]

theorem filed_jobIv (s : State) (j : Job) (k : VKey) : (s.jobIv j k).2.filed = s.filed := by
  simp only [State.jobIv, ↓filed_ite, ↓filed_mk, ite_self, snd_ite, ↓filed_drawn]

theorem filed_dropJob (s : State) (j : Job) : (s.dropJob j).filed = s.filed := by
  simp only [State.dropJob, ↓filed_modCipher]

theorem filed_execJobDone (half : BitVec 1) (s : State) : KeepsFiled s (execJobDone half s) := by
  unfold execJobDone
  repeat' split
  all_goals simp only [↓filed_ite, ite_self, keepsFiled_next, ↓filed_count, ↓filed_cipherItem, ↓filed_answer, ↓filed_noteBytes,
    ↓filed_writeBytes, ↓filed_jobIv, ↓filed_dropJob]

theorem filed_zeroSecys (s : State) (gone : Nat → Bool) : (s.zeroSecys gone).filed = s.filed := (rfl)

theorem filed_zeroOnus (s : State) (z : ZScope) :
    (s.zeroOnus z).filed = s.filed := by
  unfold State.zeroOnus
  refine filed_foldl (fun u p => (filed_modOnu ..).trans ?_) _ s
  split
  · exact filed_answer ..
  · rfl

theorem filed_zeroJobs (s : State) (gone : Nat → Bool) : (s.zeroJobs gone).filed = s.filed := by
  simp only [State.zeroJobs, implies_true, ↓filed_foldl, ↓filed_answer, ↓filed_writeBytes, ↓filed_dropJob]

theorem filed_zeroDeliveries (s : State) (z : ZScope) : (s.zeroDeliveries z).filed = s.filed := by
  simp only [State.zeroDeliveries, implies_true, ↓filed_foldl, ↓filed_answer, ↓filed_modCipher]

theorem filed_zeroBcast (s : State) (z : ZScope) : (s.zeroBcast z).filed = s.filed := by
  simp only [State.zeroBcast, ↓filed_modCipher]

theorem filed_keyAbsent (s : State) (c : Nat) : (s.keyAbsent c).filed = s.filed := by
  simp only [State.keyAbsent, ↓filed_raiseOnceIn, ↓filed_count]

theorem filed_dropKeyed (s : State) (c : Nat) : (s.dropKeyed c).filed = s.filed := by
  simp only [State.dropKeyed, implies_true, ↓filed_foldl, ↓filed_setChan, ↓filed_keyAbsent]

theorem filed_keysLost (s : State) (z : ZScope) : (s.keysLost z).filed = s.filed := by
  simp only [State.keysLost, ↓filed_ite, ite_self, implies_true, ↓filed_foldl, ↓filed_setFlag, ↓filed_dropKeyed]

theorem filed_eraseScope (s : State) (z : ZScope) : (s.eraseScope z).filed = s.filed := by
  simp only [State.eraseScope, ↓filed_ite, ↓filed_mk, ite_self, ↓filed_modCipher, ↓filed_setPaired, ↓filed_zeroSecys, ↓filed_zeroOnus,
    ↓filed_zeroJobs, ↓filed_zeroDeliveries, ↓filed_zeroBcast, ↓filed_keysLost]

theorem filed_giveUpHalter (s : State) : s.giveUpHalter.filed = s.filed := by
  simp only [State.giveUpHalter, ↓filed_ite, ↓filed_mk, ite_self, implies_true, ↓filed_foldl, ↓filed_setFld, ↓filed_darken]

theorem filed_selfCause (s : State) (z : ZScope) : (s.selfCause z).filed = s.filed := (rfl)

theorem filed_zeroize (s : State) (z : ZScope) : (s.zeroize z).filed = s.filed := by
  unfold State.zeroize
  split <;> simp only [↓filed_mk, ↓filed_latchBits, ↓filed_latchFlag, ↓filed_report, ↓filed_eraseScope, ↓filed_giveUpHalter,
    ↓filed_selfCause]

theorem filed_alarm (s : State) (row die : Nat) (z : ZScope) : (s.alarm row die z).filed = s.filed := by
  simp only [State.alarm, ↓filed_ite, ite_self, ↓filed_latchBits, ↓filed_report, ↓filed_zeroize]

theorem filed_tamperCount (s : State) : s.tamperCount.filed = s.filed := by
  simp only [State.tamperCount, ↓filed_setFld]

theorem filed_tamperAlarm (s : State) (row die : Nat) : (s.tamperAlarm row die).filed = s.filed := by
  simp only [State.tamperAlarm, ↓filed_ite, ite_self, ↓filed_alarm, ↓filed_tamperCount]

theorem filed_execTamperInput (s : State) : KeepsFiled s (execTamperInput s) := by
  simp only [execTamperInput, keepsFiled_next, ↓filed_drive, ↓filed_tamperAlarm]

theorem filed_execTamperNRelease (s : State) : KeepsFiled s (execTamperNRelease s) := by
  simp only [execTamperNRelease, ↓filed_mk, keepsFiled_next, ↓filed_drive]

theorem filed_execShieldBreak (s : State) : KeepsFiled s (execShieldBreak s) := by
  simp only [execShieldBreak, keepsFiled_next, ↓filed_tamperAlarm]

theorem filed_execLightDetect (die : BitVec 3) (s : State) : KeepsFiled s (execLightDetect die s) := by
  simp only [execLightDetect, keepsFiled_next, ↓filed_tamperAlarm]

theorem filed_execTemperatureAlarm (die : BitVec 3) (s : State) : KeepsFiled s (execTemperatureAlarm die s) := by
  simp only [execTemperatureAlarm, keepsFiled_next, ↓filed_alarm]

theorem filed_execVoltageGlitch (die : BitVec 3) (s : State) : KeepsFiled s (execVoltageGlitch die s) := by
  simp only [execVoltageGlitch, keepsFiled_next, ↓filed_alarm]

theorem filed_execClockGlitch (die : BitVec 3) (s : State) : KeepsFiled s (execClockGlitch die s) := by
  simp only [execClockGlitch, keepsFiled_next, ↓filed_alarm]

theorem filed_execDuplicateRoundMismatch (die : BitVec 3) (core : BitVec 7)
    (s : State) : KeepsFiled s (execDuplicateRoundMismatch die core s) := by
  simp only [execDuplicateRoundMismatch, ↓filed_ite, ite_self, keepsFiled_next, ↓filed_alarm]

theorem filed_execDrbgRepeat (die : BitVec 3) (core : BitVec 7) (s : State) : KeepsFiled s (execDrbgRepeat die core s) := by
  simp only [execDrbgRepeat, ↓filed_ite, ite_self, keepsFiled_next, ↓filed_alarm]

theorem filed_execEntropyHealthFail (die : BitVec 3) (s : State) : KeepsFiled s (execEntropyHealthFail die s) := by
  simp only [execEntropyHealthFail, keepsFiled_next, ↓filed_alarm]

theorem filed_execKeyZeroize (h : Hdr) (scope object : Word) (s : State) : KeepsFiled s (execKeyZeroize h scope object s) := by
  unfold execKeyZeroize
  repeat' split
  all_goals simp only [ite_self, implies_true, st_ok, st_fail, keepsFiled_next, ↓filed_command, ↓filed_unlessClaimed, ↓filed_keyGate,
    ↓filed_zeroize]

theorem filed_execKeySelftest (h : Hdr) (s : State) : KeepsFiled s (execKeySelftest h s) := by
  simp only [execKeySelftest, ↓filed_ite, ite_self, implies_true, st_ite, st_fail, st_accepted, keepsFiled_next, ↓filed_command,
    ↓filed_modCipher, ↓filed_unlessClaimed, ↓filed_keyGate]

theorem filed_checkCluster (s : State) (die k : Nat) : (s.checkCluster die k).filed = s.filed := by
  simp only [State.checkCluster, ↓filed_ite, ite_self, ↓filed_modCipher, ↓filed_eraseScope, ↓filed_selfCause]

theorem filed_testDie (s : State) (die : Nat) (failed : List Nat) (shared : Bool) : (s.testDie die failed shared).filed = s.filed := by
  simp only [State.testDie, ↓filed_ite, ite_self, implies_true, ↓filed_foldl, ↓filed_setFlag, ↓filed_setCore, ↓filed_autoSpare,
    ↓filed_checkCluster]

theorem filed_execSelftestDone (die : BitVec 3) (failed : List (BitVec 7)) (shared : Bool)
    (s : State) : KeepsFiled s (execSelftestDone die failed shared s) := by
  unfold execSelftestDone
  simp only
  split <;> simp only [keepsFiled_next, ↓filed_answer, ↓filed_modCipher, ↓filed_testDie]

theorem filed_execKeyStatus (h : Hdr) (s : State) : KeepsFiled s (execKeyStatus h s) := by
  simp only [execKeyStatus, ite_self, implies_true, st_ok, keepsFiled_next, ↓filed_command, ↓filed_keyGate]

/-! ### Trust -/

theorem filed_trustGate (s : State) (r : Res) : (s.trustGate r).st.filed = if s.errorState then s.filed else r.st.filed := by
  simp only [State.trustGate, st_ite, filed_ite, st_fail]

theorem filed_execTrustAttest (h : Hdr) (nonce : List Word) (s : State) : KeepsFiled s (execTrustAttest h nonce s) := by
  unfold execTrustAttest
  rw [keepsFiled_next]
  refine filed_command _ _ _ _ _ fun c t => ?_
  repeat' split
  all_goals simp only [ite_self, st_ok, st_fail, ↓filed_trustGate]

theorem filed_execTrustCertRead (h : Hdr) (s : State) : KeepsFiled s (execTrustCertRead h s) := by
  simp only [execTrustCertRead, ite_self, implies_true, st_ok, keepsFiled_next, ↓filed_command, ↓filed_trustGate]

theorem filed_execTrustDarnLoad (h : Hdr) (bank len : Word) (s : State) : KeepsFiled s (execTrustDarnLoad h bank len s) := by
  simp only [execTrustDarnLoad, ↓filed_ite, ↓filed_mk, ite_self, implies_true, st_ite, st_fail, keepsFiled_next, ↓filed_report,
    ↓filed_answer, ↓filed_command, ↓filed_unlessClaimed, ↓filed_noteBytes, ↓filed_nonOwner, ↓filed_settleBank, ↓filed_trustGate]

theorem filed_execTrustDarnStatus (h : Hdr) (s : State) : KeepsFiled s (execTrustDarnStatus h s) := by
  simp only [execTrustDarnStatus, ite_self, implies_true, st_ok, keepsFiled_next, ↓filed_command, ↓filed_trustGate]

theorem filed_execTrustLifecycle (h : Hdr) (target : Word) (authority : List Word)
    (s : State) : KeepsFiled s (execTrustLifecycle h target authority s) := by
  simp only [execTrustLifecycle, ↓filed_ite, ite_self, implies_true, st_ite, ↓filed_foldl, st_ok, st_fail, keepsFiled_next,
    ↓filed_setReg, ↓filed_setFld, ↓filed_count, ↓filed_command, ↓filed_modCipher, ↓filed_zeroize, ↓filed_trustGate]

/-! ### Seq -/

theorem filed_setSeq (s : State) (q : Nat) (x : SeqSt) : (s.setSeq q x).filed = s.filed := by
  simp only [State.setSeq, ↓filed_mk, ↓filed_setFld]

theorem filed_setSeqState (s : State) (q n : Nat) : (s.setSeqState q n).filed = s.filed := by
  simp only [State.setSeqState, ↓filed_setFld]

theorem filed_setCtx (s : State) (q : Nat) (x : SeqCtx) : (s.setCtx q x).filed = s.filed := by
  simp only [State.setCtx, ↓filed_setSeq]

theorem filed_stitch (s : State) (q : Nat) (f : SeqCtx → SeqCtx) : (s.stitch q f).filed = s.filed := by
  simp only [State.stitch, ↓filed_ite, ite_self, ↓filed_setCtx]

theorem filed_endCommand (s : State) (c : Caller) (st : Status) (ws : List Word) : (s.endCommand c st ws).filed = s.filed := by
  unfold State.endCommand
  split <;> simp only [↓filed_ite, ite_self, ↓filed_answer]

theorem filed_passWork (s : State) (q : Nat) : (s.passWork q).filed = s.filed := by
  unfold State.passWork
  simp only
  split <;> simp only [↓filed_ite, ite_self, implies_true, ↓filed_foldl, ↓filed_setSeq, ↓filed_endCommand]

theorem filed_mcheck (s : State) (q cause addr : Nat) : (s.mcheck q cause addr).filed = s.filed := by
  simp only [State.mcheck, ↓filed_ite, ite_self, implies_true, ↓filed_foldl, ↓filed_setFld, ↓filed_report, ↓filed_selfCause,
    ↓filed_setSeq, ↓filed_setSeqState, ↓filed_endCommand, ↓filed_passWork]

theorem filed_fetch (s : State) (q mask bits : Nat) (f : State → State) (hf : ∀ t,
    (f t).filed = t.filed) : (s.fetch q mask bits f).filed = s.filed := by
  unfold State.fetch
  simp only [↓filed_ite]
  repeat' split
  all_goals simp only [↓filed_mcheck, hf]

theorem filed_stitchRow (s : State) (q op : Nat) (fs : List (Nat × Nat × Nat)) (f : State → State) (hf : ∀ t,
    (f t).filed = t.filed) : (s.stitchRow q op fs f).filed = s.filed := by
  simp only [State.stitchRow, implies_true, ↓filed_fetch, hf]

theorem filed_execMachineCheck (q : BitVec 5) (cause : BitVec 3) (addr : BitVec 17)
    (s : State) : KeepsFiled s (execMachineCheck q cause addr s) := by
  simp only [execMachineCheck, ↓filed_ite, ite_self, keepsFiled_next, ↓filed_mcheck]

theorem filed_logical (s : State) (q d : Nat) (f : SeqCtx → Word) : (s.logical q d f).filed = s.filed := by
  simp only [State.logical, ↓filed_ite, ite_self, ↓filed_drawn, ↓filed_stitch]

theorem filed_execStMov (q : BitVec 5) (d a : BitVec 4) (s : State) : KeepsFiled s (execStMov q d a s) := by
  simp only [execStMov, implies_true, keepsFiled_next, ↓filed_stitchRow, ↓filed_logical]

theorem filed_execStAdd (q : BitVec 5) (d a b : BitVec 4) (s : State) : KeepsFiled s (execStAdd q d a b s) := by
  simp only [execStAdd, implies_true, keepsFiled_next, ↓filed_stitch, ↓filed_stitchRow]

theorem filed_execStSub (q : BitVec 5) (d a b : BitVec 4) (s : State) : KeepsFiled s (execStSub q d a b s) := by
  simp only [execStSub, implies_true, keepsFiled_next, ↓filed_stitch, ↓filed_stitchRow]

theorem filed_execStAnd (q : BitVec 5) (d a b : BitVec 4) (s : State) : KeepsFiled s (execStAnd q d a b s) := by
  simp only [execStAnd, implies_true, keepsFiled_next, ↓filed_stitchRow, ↓filed_logical]

theorem filed_execStOr (q : BitVec 5) (d a b : BitVec 4) (s : State) : KeepsFiled s (execStOr q d a b s) := by
  simp only [execStOr, implies_true, keepsFiled_next, ↓filed_stitchRow, ↓filed_logical]

theorem filed_execStXor (q : BitVec 5) (d a b : BitVec 4) (s : State) : KeepsFiled s (execStXor q d a b s) := by
  simp only [execStXor, implies_true, keepsFiled_next, ↓filed_stitchRow, ↓filed_logical]

theorem filed_execStShl (q : BitVec 5) (d a b : BitVec 4) (s : State) : KeepsFiled s (execStShl q d a b s) := by
  simp only [execStShl, implies_true, keepsFiled_next, ↓filed_stitchRow, ↓filed_logical]

theorem filed_execStShr (q : BitVec 5) (d a b : BitVec 4) (s : State) : KeepsFiled s (execStShr q d a b s) := by
  simp only [execStShr, implies_true, keepsFiled_next, ↓filed_stitchRow, ↓filed_logical]

theorem filed_execStCmp (q : BitVec 5) (a b : BitVec 4) (s : State) : KeepsFiled s (execStCmp q a b s) := by
  simp only [execStCmp, implies_true, keepsFiled_next, ↓filed_stitch, ↓filed_stitchRow]

theorem filed_execStTst (q : BitVec 5) (a b : BitVec 4) (s : State) : KeepsFiled s (execStTst q a b s) := by
  simp only [execStTst, implies_true, keepsFiled_next, ↓filed_stitchRow, ↓filed_logical]

theorem filed_execStLdi (q : BitVec 5) (d : BitVec 4) (imm : BitVec 16) (s : State) : KeepsFiled s (execStLdi q d imm s) := by
  simp only [execStLdi, implies_true, keepsFiled_next, ↓filed_stitch, ↓filed_stitchRow]

theorem filed_execStLdh (q : BitVec 5) (d : BitVec 4) (imm : BitVec 16) (s : State) : KeepsFiled s (execStLdh q d imm s) := by
  simp only [execStLdh, implies_true, keepsFiled_next, ↓filed_stitch, ↓filed_stitchRow]

theorem filed_execStAddi (q : BitVec 5) (d : BitVec 4) (imm : BitVec 16) (s : State) : KeepsFiled s (execStAddi q d imm s) := by
  simp only [execStAddi, implies_true, keepsFiled_next, ↓filed_stitch, ↓filed_stitchRow]

theorem filed_execStCmpi (q : BitVec 5) (d : BitVec 4) (imm : BitVec 16) (s : State) : KeepsFiled s (execStCmpi q d imm s) := by
  simp only [execStCmpi, implies_true, keepsFiled_next, ↓filed_stitch, ↓filed_stitchRow]

theorem filed_padsError (s : State) (q : BitVec 5) (addr : Nat) : (s.padsError q addr).filed = s.filed := by
  simp only [State.padsError, ↓filed_accError]

theorem filed_execStRdsp (q : BitVec 5) (d a : BitVec 4) (offset : BitVec 18) (s : State) :
    KeepsFiled s (execStRdsp q d a offset s) := by
  unfold execStRdsp
  refine keepsFiled_next.mpr (filed_stitchRow _ _ _ _ _ fun u => ?_)
  dsimp only
  split
  · simp only [↓filed_stitch, ↓filed_padsError]
  · split <;> simp only [↓filed_stitch, ↓filed_readPad, ↓filed_settleBank, ↓filed_nonOwner]

theorem filed_execStWrsp (q : BitVec 5) (d a : BitVec 4) (offset : BitVec 18) (s : State) :
    KeepsFiled s (execStWrsp q d a offset s) := by
  unfold execStWrsp
  refine keepsFiled_next.mpr (filed_stitchRow _ _ _ _ _ fun u => ?_)
  dsimp only
  split
  · simp only [↓filed_stitch, ↓filed_padsError]
  · split <;> simp only [↓filed_stitch, ↓filed_writePad, ↓filed_settleBank, ↓filed_nonOwner]

theorem filed_execStRdpar (q : BitVec 5) (d a : BitVec 4) (offset : BitVec 18) (s : State) :
    KeepsFiled s (execStRdpar q d a offset s) := by
  unfold execStRdpar
  refine keepsFiled_next.mpr (filed_stitchRow _ _ _ _ _ fun u => ?_)
  dsimp only
  split
  · split <;> simp only [↓filed_stitch, ↓filed_drawn]
  · simp only [↓filed_stitch, ↓filed_drawn]

theorem filed_execStWrpar (q : BitVec 5) (d a : BitVec 4) (offset : BitVec 18) (s : State) :
    KeepsFiled s (execStWrpar q d a offset s) := by
  simp only [execStWrpar, implies_true, keepsFiled_next, ↓filed_stitch, ↓filed_stitchRow]

theorem filed_execStBr (q : BitVec 5) (cond : BitVec 4) (target : BitVec 17) (s : State) :
    KeepsFiled s (execStBr q cond target s) := by
  unfold execStBr
  refine keepsFiled_next.mpr (filed_stitchRow _ _ _ _ _ fun u => ?_)
  dsimp only
  split <;> simp only [↓filed_mcheck, ↓filed_setCtx]

theorem filed_execStCall (q : BitVec 5) (target : BitVec 17) (s : State) : KeepsFiled s (execStCall q target s) := by
  simp only [execStCall, ↓filed_ite, ite_self, implies_true, keepsFiled_next, ↓filed_setCtx, ↓filed_mcheck, ↓filed_stitchRow]

theorem filed_execStRet (q : BitVec 5) (s : State) :
    KeepsFiled s (execStRet q s) := by
  unfold execStRet
  refine keepsFiled_next.mpr (filed_stitchRow _ _ _ _ _ fun u => ?_)
  dsimp only
  split <;> simp only [↓filed_mcheck, ↓filed_setCtx]

theorem filed_execStLoop (q : BitVec 5) (target : BitVec 17) (s : State) : KeepsFiled s (execStLoop q target s) := by
  simp only [execStLoop, implies_true, keepsFiled_next, ↓filed_setCtx, ↓filed_stitchRow]

theorem filed_seqRest (s : State) (q : Nat) : (s.seqRest q).filed = s.filed := by
  simp only [State.seqRest, ↓filed_setSeq, ↓filed_setSeqState]

theorem filed_execStEnd (q : BitVec 5) (s : State) : KeepsFiled s (execStEnd q s) := by
  simp only [execStEnd, implies_true, keepsFiled_next, ↓filed_stitchRow, ↓filed_seqRest]

theorem filed_notePast (s : State) (q : Nat) (w : SeqWait) : (s.notePast q w).filed = s.filed := by
  simp only [State.notePast, ↓filed_ite, ite_self, ↓filed_count]

theorem filed_enterWait (s : State) (q cond arg cls : Nat) (park : Bool) : (s.enterWait q cond arg cls park).filed = s.filed := by
  simp only [State.enterWait, ↓filed_ite, ite_self, ↓filed_setSeq, ↓filed_setSeqState, ↓filed_setCtx, ↓filed_mcheck, ↓filed_seqRest,
    ↓filed_notePast]

theorem filed_execStWait (q cond : BitVec 5) (arg cls : BitVec 4) (s : State) : KeepsFiled s (execStWait q cond arg cls s) := by
  simp only [execStWait, implies_true, keepsFiled_next, ↓filed_stitchRow, ↓filed_enterWait]

theorem filed_execStPark (q cond : BitVec 5) (arg cls : BitVec 4) (s : State) : KeepsFiled s (execStPark q cond arg cls s) := by
  simp only [execStPark, implies_true, keepsFiled_next, ↓filed_stitchRow, ↓filed_enterWait]

theorem filed_noteTimeout (s : State) (q : Nat) (late : Bool) : (s.noteTimeout q late).filed = s.filed := by
  simp only [State.noteTimeout, ↓filed_ite, ite_self, ↓filed_raiseOnce, ↓filed_count]

theorem filed_execWaitEnd (q : BitVec 5) (parked : Option (BitVec 6)) (event : Bool)
    (s : State) : KeepsFiled s (execWaitEnd q parked event s) := by
  unfold execWaitEnd
  simp only [keepsFiled_next]
  repeat' split
  all_goals simp only [↓filed_setSeq, ↓filed_setSeqState, ↓filed_noteTimeout]

theorem filed_execStReply (q : BitVec 5) (r : BitVec 4) (s : State) :
    KeepsFiled s (execStReply q r s) := by
  unfold execStReply
  refine keepsFiled_next.mpr (filed_stitchRow _ _ _ _ _ fun u => ?_)
  dsimp only
  split <;> simp only [↓filed_endCommand, ↓filed_stitch]

theorem filed_execStAccept (q : BitVec 5) (s : State) :
    KeepsFiled s (execStAccept q s) := by
  unfold execStAccept
  refine keepsFiled_next.mpr (filed_stitchRow _ _ _ _ _ fun u => ?_)
  dsimp only
  split <;> simp only [↓filed_ite, ↓filed_endCommand, ↓filed_stitch, ite_self]

theorem filed_execStRaise (q : BitVec 5) (src : BitVec 10) (s : State) : KeepsFiled s (execStRaise q src s) := by
  unfold execStRaise
  split <;> simp only [implies_true, keepsFiled_next, ↓filed_raise, ↓filed_stitch, ↓filed_stitchRow]

theorem filed_execStPloam (q : BitVec 5) (r : BitVec 4) (c : Chan) (kind : BitVec 5) (onuId : Option (BitVec 10)) (args : List Word)
    (s : State) : KeepsFiled s (execStPloam q r c kind onuId args s) := by
  unfold execStPloam
  split <;> simp only [implies_true, keepsFiled_next, ↓filed_offer, ↓filed_stitch, ↓filed_stitchRow]

theorem filed_execStMail (q : BitVec 5) (r : BitVec 4) (target : BitVec 5) (s : State) : KeepsFiled s (execStMail q r target s) := by
  simp only [execStMail, ↓filed_ite, ite_self, implies_true, keepsFiled_next, ↓filed_setSeq, ↓filed_stitch, ↓filed_stitchRow]

theorem filed_queueCommand (s : State) (c : Caller) (params : List Word) : (s.queueCommand c params).filed = s.filed := by
  unfold State.queueCommand
  simp only
  split <;> simp only [↓filed_mk, ↓filed_answer, ↓filed_setSeq]

/-! ### Tandem -/

theorem filed_unprotect (s : State) (t : Nat) : (s.unprotect t).filed = s.filed := by
  unfold State.unprotect
  simp only
  split <;> simp only [↓filed_mk, ↓filed_setReg, ↓filed_setFlag, ↓filed_answer, ↓filed_setTndTree]

theorem filed_sendTree (s : State) (t : Nat) : (s.sendTree t).filed = s.filed := by
  simp only [State.sendTree, ↓filed_ite, ite_self, ↓filed_modTndTree, ↓filed_tellItem, ↓filed_mirror, ↓filed_tellKeys]

theorem filed_protectIfBoth (s : State) (t : Nat) : (s.protectIfBoth t).filed = s.filed := by
  simp only [State.protectIfBoth, ↓filed_ite, ite_self, ↓filed_setFlag, ↓filed_unprotect, ↓filed_sendTree]

theorem filed_tellConfig (s : State) (t : Nat) : (s.tellConfig t).filed = s.filed := by
  simp only [State.tellConfig, ↓filed_ite, ite_self, ↓filed_modTndTree, ↓filed_sendRecord]

theorem filed_tellNamed (s : State) (t : Nat) : (s.tellNamed t).filed = s.filed := by
  simp only [State.tellNamed, ↓filed_sendRecord]

theorem filed_clearTree (s : State) (t : Nat) : (s.clearTree t).filed = s.filed := (rfl)

theorem filed_mirrorReg (s : State) (r : Reg) (i : Nat) (v : Word) : (s.mirrorReg r i v).filed = s.filed := by
  unfold State.mirrorReg
  split <;> simp only [↓filed_setReg, ↓filed_setEnable]

theorem filed_mirrorGrid (s : State) (t : Nat) (on : Bool) (n : Nat) : (s.mirrorGrid t on n).filed = s.filed := by
  simp only [State.mirrorGrid, ↓filed_ite, ite_self, ↓filed_setFlag, ↓filed_setTree]

theorem filed_passiveOffset (s : State) (o t eqd : Nat) : (s.passiveOffset o t eqd).filed = s.filed := by
  unfold State.passiveOffset
  split <;> simp only [↓filed_modTandem]

theorem filed_applyMirror (s : State) (t : Nat) (m : MirrorItem) : (s.applyMirror t m).filed = s.filed := by
  cases m <;> unfold State.applyMirror <;> dsimp only
  case regs l =>
    cases l
    · rfl
    · exact (filed_foldl (fun u p => filed_mirrorReg ..) _ _).trans (filed_setFld ..)
  case alloc =>
    rw [filed_ite]
    split <;> simp only [↓filed_setRec, ↓filed_setIdent]
  case hint =>
    split
    · simp only [↓filed_mk]
    · rfl
  case arm =>
    split
    · exact filed_setArms ..
    · rfl
  case trib => split <;> simp only [↓filed_setTrib, ↓filed_setReg]
  case engine =>
    split
    · simp only [↓filed_ite, ↓filed_setRec, ite_self]
    · rfl
  all_goals simp only [↓filed_modTndTree, ↓filed_protectIfBoth, ↓filed_clearTree, ↓filed_mirrorGrid, ↓filed_setIdent, ↓filed_setOnu,
    ↓filed_passiveOffset, ↓filed_mk, ↓filed_modOnu, ↓filed_setWindows]

theorem filed_seek (s : State) : s.seek.filed = s.filed := by
  simp only [State.seek, ↓filed_ite, ite_self, ↓filed_setFld]

theorem filed_autoSeek (s : State) : s.autoSeek.filed = s.filed := by
  simp only [State.autoSeek, ↓filed_ite, ite_self, ↓filed_seek]

theorem filed_execTandemPair (h : Hdr) (peer auto divThr lossThr : Word)
    (s : State) : KeepsFiled s (execTandemPair h peer auto divThr lossThr s) := by
  simp only [execTandemPair, ↓filed_ite, ite_self, implies_true, st_ite, st_ok, st_fail, keepsFiled_next, ↓filed_setFld, ↓filed_setFlag,
    ↓filed_command, ↓filed_modTandem, ↓filed_unlessClaimed, ↓filed_sendPair, ↓filed_autoSeek]

theorem filed_execTandemUnpair (h : Hdr) (s : State) : KeepsFiled s (execTandemUnpair h s) := by
  simp only [execTandemUnpair, ite_self, implies_true, ↓filed_foldl, st_ok, keepsFiled_next, ↓filed_setFlag, ↓filed_command,
    ↓filed_modTandem, ↓filed_setPaired, ↓filed_unlessClaimed, ↓filed_unprotect]

theorem filed_pairRx (s : State) (dev : Nat) (senior authOk : Bool) (pub : List Word) :
    (s.pairRx dev senior authOk pub).filed = s.filed := by
  unfold State.pairRx
  simp only [↓filed_ite, ↓filed_report]
  repeat' split
  all_goals simp only [implies_true, ↓filed_foldl, ↓filed_setPaired, ↓filed_modTndTree, ↓filed_sendPair, ↓filed_tellConfig]

theorem filed_execTandemTreeProtect (h : Hdr) (tree on dfeed : Word) (s : State) :
    KeepsFiled s (execTandemTreeProtect h tree on dfeed s) := by
  simp only [execTandemTreeProtect, ↓filed_ite, ite_self, implies_true, st_ite, st_ok, st_fail, keepsFiled_next, ↓filed_setFld,
    ↓filed_command, ↓filed_modTndTree, ↓filed_unlessClaimed, ↓filed_protectIfBoth, ↓filed_tellConfig, ↓filed_tellNamed]

theorem filed_execTandemResync (h : Hdr) (tree : Word) (s : State) : KeepsFiled s (execTandemResync h tree s) := by
  simp only [execTandemResync, ↓filed_ite, ite_self, implies_true, st_ite, st_fail, st_accepted, keepsFiled_next, ↓filed_setFlag,
    ↓filed_command, ↓filed_modTndTree, ↓filed_unlessClaimed, ↓filed_sendTree]

theorem filed_execTandemStatus (h : Hdr) (s : State) : KeepsFiled s (execTandemStatus h s) := by
  simp only [execTandemStatus, implies_true, st_ok, keepsFiled_next, ↓filed_command]

theorem filed_execTandemDlnSet (h : Hdr) (lane delta alpha : Word) (s : State) :
    KeepsFiled s (execTandemDlnSet h lane delta alpha s) := by
  simp only [execTandemDlnSet, ↓filed_ite, ite_self, implies_true, st_ite, st_ok, st_fail, keepsFiled_next, ↓filed_setFld,
    ↓filed_command, ↓filed_unlessClaimed]

theorem filed_execTandemTake (h : Hdr) (s : State) : KeepsFiled s (execTandemTake h s) := by
  simp only [execTandemTake, ↓filed_ite, ite_self, implies_true, st_ite, st_fail, st_accepted, keepsFiled_next, ↓filed_answer,
    ↓filed_command, ↓filed_modTandem, ↓filed_unlessClaimed, ↓filed_seek]

theorem filed_takeDone (s : State) (st : Status) : (s.takeDone st).filed = s.filed := by
  unfold State.takeDone
  split <;> simp only [↓filed_answer, ↓filed_modTandem]

theorem filed_execTandemRelease (h : Hdr) (s : State) : KeepsFiled s (execTandemRelease h s) := by
  simp only [execTandemRelease, ite_self, implies_true, st_ok, keepsFiled_next, ↓filed_command, ↓filed_unlessClaimed,
    ↓filed_giveUpHalter, ↓filed_takeDone]

theorem filed_contend (s : State) : s.contend.filed = s.filed := by
  simp only [State.contend, ↓filed_ite, ite_self, ↓filed_setFld, ↓filed_drive, ↓filed_report, ↓filed_takeDone]

theorem filed_newEqd (s : State) (o : Nat) : (s.newEqd o).filed = s.filed := by
  unfold State.newEqd
  split <;> simp only [↓filed_ite, ite_self, ↓filed_report, ↓filed_modTandem, ↓filed_modOnu, ↓filed_deactivate, ↓filed_assign,
    ↓filed_sendEqd]

theorem filed_takeover (s : State) : s.takeover.filed = s.filed := by
  simp only [State.takeover, implies_true, ↓filed_foldl, ↓filed_report, ↓filed_modTandem, ↓filed_modTndTree, ↓filed_sendTree,
    ↓filed_newEqd]

theorem filed_gainHalter (s : State) : s.gainHalter.filed = s.filed := by
  simp only [State.gainHalter, ↓filed_setFld, ↓filed_raise, ↓filed_takeDone, ↓filed_takeover]

theorem filed_execHalterOwn (s : State) : KeepsFiled s (execHalterOwn s) := by
  simp only [execHalterOwn, ↓filed_ite, ite_self, keepsFiled_next, keepsFiled_ite, ↓filed_contend, ↓filed_gainHalter]

theorem filed_execHalterSeekDrive (s : State) : KeepsFiled s (execHalterSeekDrive s) := by
  simp only [execHalterSeekDrive, ite_self, keepsFiled_next, keepsFiled_ite, ↓filed_setFld, ↓filed_drive, ↓filed_modTandem]

theorem filed_execHalterReleasePin (s : State) : KeepsFiled s (execHalterReleasePin s) := by
  simp only [execHalterReleasePin, ite_self, keepsFiled_next, keepsFiled_ite, ↓filed_drive]

theorem filed_closeGate (s : State) : s.closeGate.filed = s.filed := by
  simp only [State.closeGate, ↓filed_ite, ite_self, implies_true, ↓filed_foldl, ↓filed_darken]

theorem filed_takeBack (s : State) (d : Drill) : (s.takeBack d).filed = s.filed := by
  simp only [State.takeBack, ↓filed_modTandem, ↓filed_sendRecord, ↓filed_seek]

theorem filed_drillFailed (s : State) : s.drillFailed.filed = s.filed := by
  unfold State.drillFailed
  split <;> simp only [↓filed_ite, ite_self, ↓filed_report, ↓filed_takeBack]

theorem filed_execHalterPeerChange (high : Bool) (s : State) : KeepsFiled s (execHalterPeerChange high s) := by
  unfold execHalterPeerChange
  simp only [keepsFiled_next, keepsFiled_ite, ↓filed_setFld, ↓filed_drive, ↓filed_report, ↓filed_contend, ↓filed_closeGate]
  repeat' split
  all_goals simp only [keepsFiled_next, ↓filed_setFld, ↓filed_drive, ↓filed_modTandem, ↓filed_autoSeek, ↓filed_gainHalter,
    ↓filed_closeGate, ↓filed_drillFailed]

theorem filed_execTandemExercise (h : Hdr) (dwell : Word) (s : State) : KeepsFiled s (execTandemExercise h dwell s) := by
  simp only [execTandemExercise, ↓filed_ite, ite_self, implies_true, st_ite, st_fail, st_accepted, keepsFiled_next, ↓filed_command,
    ↓filed_modTandem, ↓filed_sendRecord, ↓filed_unlessClaimed, ↓filed_giveUpHalter]

theorem filed_execDrillDwellEnd (s : State) : KeepsFiled s (execDrillDwellEnd s) := by
  unfold execDrillDwellEnd
  split <;> simp only [ite_self, keepsFiled_next, keepsFiled_ite, ↓filed_takeBack]

theorem filed_drillReport (s : State) : s.drillReport.filed = s.filed := by
  unfold State.drillReport
  simp only [↓filed_ite]
  repeat' split
  all_goals simp only [↓filed_answer, ↓filed_modTandem, ↓filed_sendRecord]

theorem filed_execAcceptWindowEnd (onu : Onu) (s : State) : KeepsFiled s (execAcceptWindowEnd onu s) := by
  unfold execAcceptWindowEnd
  simp only
  split <;> simp only [↓filed_ite, ite_self, keepsFiled_next, ↓filed_modTandem]

theorem filed_treeVerdicts (s : State) (t : Nat) : (s.treeVerdicts t).filed = s.filed := by
  simp only [State.treeVerdicts, ↓filed_setFld, ↓filed_setFlag]

theorem filed_yieldHalter (s : State) : s.yieldHalter.filed = s.filed := by
  simp only [State.yieldHalter, ↓filed_sendRecord, ↓filed_giveUpHalter]

theorem filed_verdict (s : State) (c : Nat) : (s.verdict c).filed = s.filed := by
  simp only [State.verdict, ↓filed_ite, ite_self, ↓filed_setFlag, ↓filed_report, ↓filed_modTndTree, ↓filed_yieldHalter]

theorem filed_becomesReady (s : State) (t f : Nat) : (s.becomesReady t f).filed = s.filed := by
  unfold State.becomesReady
  simp only
  repeat' split
  all_goals simp only [↓filed_setFlag, ↓filed_answer, ↓filed_modTndTree]

theorem filed_judge (s : State) (c f : Nat) (equal selfBad peerBad : Bool) : (s.judge c f equal selfBad peerBad).filed = s.filed := by
  simp only [State.judge, ↓filed_ite, ite_self, ↓filed_modTndChan, ↓filed_treeVerdicts, ↓filed_verdict, ↓filed_becomesReady]

theorem filed_compareDigests (s : State) (c : Nat) : (s.compareDigests c).filed = s.filed := by
  unfold State.compareDigests
  simp only
  split <;> simp only [↓filed_ite, ite_self, ↓filed_judge]

theorem filed_formDigests (s : State) (t : Nat) : (s.formDigests t).filed = s.filed := by
  simp only [State.formDigests, ↓filed_ite, ite_self, implies_true, ↓filed_foldl, ↓filed_send, ↓filed_modTndChan, ↓filed_compareDigests]

theorem filed_execDigestTimeout (c : Chan) (s : State) : KeepsFiled s (execDigestTimeout c s) := by
  unfold execDigestTimeout
  simp only
  split <;> simp only [ite_self, keepsFiled_next, keepsFiled_ite, ↓filed_judge]

theorem filed_placeReport (s : State) (k bytes arrival : Nat) : (s.placeReport k bytes arrival).filed = s.filed := by
  unfold State.placeReport
  split <;> simp only [↓filed_ite, ite_self, ↓filed_reportRx]

theorem filed_tryCut (s : State) (t : Nat) : (s.tryCut t).filed = s.filed := by
  unfold State.tryCut
  simp only
  split <;> simp only [↓filed_ite, ite_self, implies_true, ↓filed_foldl, ↓filed_wake, ↓filed_setTndTree, ↓filed_cutoff,
    ↓filed_applyMirror, ↓filed_placeReport]

theorem filed_cutDeadline (s : State) (t : Nat) : (s.cutDeadline t).filed = s.filed := by
  simp only [State.cutDeadline, ↓filed_ite, ite_self, ↓filed_setFlag, ↓filed_report, ↓filed_modTndTree]

theorem filed_keyRx (s : State) (kind owner slot : Nat) (wrapped : List Word)
    (switch : Option Nat) : (s.keyRx kind owner slot wrapped switch).filed = s.filed := by
  unfold State.keyRx
  repeat' split
  all_goals simp only [↓filed_modCipher, ↓filed_modOnu, ↓filed_installKeys]

theorem filed_drillRx (s : State) (phase : Nat) (figures : List Word) : (s.drillRx phase figures).filed = s.filed := by
  simp only [State.drillRx, ↓filed_ite, ite_self, ↓filed_modTandem, ↓filed_giveUpHalter, ↓filed_seek, ↓filed_drillFailed]

theorem filed_heartbeatRx (s : State) (ready : Nat) :
    (s.heartbeatRx ready).filed = s.filed := by
  unfold State.heartbeatRx
  extract_lets t w u
  have ht : t.filed = s.filed := filed_modTandem ..
  have hu : u.filed = t.filed := by
    simp only [u, w, ↓filed_ite, ↓filed_foldl, ↓filed_sendTree, ↓filed_setFlag, implies_true, ite_self]
  rw [filed_ite]
  split
  · refine (filed_foldl (fun v k => ?_) _ u).trans (hu.trans ht)
    dsimp only
    split <;> simp only [↓filed_answer, ↓filed_modTndTree, ↓filed_setFlag]
  · exact hu.trans ht

theorem filed_consume (s : State) (r : TndRecord) : (s.consume r).filed = s.filed := by
  unfold State.consume
  repeat' split
  all_goals simp only [↓filed_ite, ite_self, ↓filed_modTandem, ↓filed_modTndTree, ↓filed_modTndChan, ↓filed_applyMirror, ↓filed_seek,
    ↓filed_pairRx, ↓filed_compareDigests, ↓filed_tryCut, ↓filed_keyRx, ↓filed_drillRx, ↓filed_heartbeatRx]

theorem filed_drainStream (stream n : Nat) (s : State) :
    (State.drainStream stream n s).filed = s.filed := by
  induction n generalizing s with
  | zero => rfl
  | succ n ih =>
    unfold State.drainStream
    dsimp only
    split
    · rfl
    · simp only [ih, ↓filed_consume, ↓filed_modTandem]

theorem filed_recordRx (s : State) (x : TndRx) : (s.recordRx x).filed = s.filed := by
  unfold State.recordRx
  split <;> simp only [↓filed_ite, ite_self, ↓filed_modTandem, ↓filed_sendTandem, ↓filed_consume, ↓filed_drainStream]

theorem filed_execTandemFrameRx (l : TLane) (fseq : Word) (crcOk : Bool) (heads : List XgemHead) (recs : List TndRx) (s : State) :
    KeepsFiled s (execTandemFrameRx l fseq crcOk heads recs s) := by
  unfold execTandemFrameRx
  extract_lets i d t o
  rw [keepsFiled_ite, keepsFiled_ite]
  split
  · exact keepsFiled_next.mpr rfl
  · split
    · exact keepsFiled_next.mpr ((filed_raiseOnce ..).trans (filed_count ..))
    · refine keepsFiled_next.mpr ((filed_foldl (fun u x => ?_) o t).trans (filed_modTandem ..))
      split
      · split
        · exact filed_toSequencer _ _ _ _ _ fun v => filed_recordRx ..
        · rfl
      · exact filed_count ..
      · exact filed_report ..
      · rfl
      · rfl

theorem filed_execRecordResend (stream : Byte) (seq : BitVec 28) (s : State) : KeepsFiled s (execRecordResend stream seq s) := by
  unfold execRecordResend
  split <;> simp only [ite_self, keepsFiled_next, keepsFiled_ite, ↓filed_count, ↓filed_modTandem, ↓filed_sendTandem, ↓filed_tandemDown]

theorem filed_execHeartbeatSend (s : State) : KeepsFiled s (execHeartbeatSend s) := by
  simp only [execHeartbeatSend, ite_self, implies_true, ↓filed_foldl, keepsFiled_next, keepsFiled_ite, ↓filed_send, ↓filed_modTandem,
    ↓filed_tellConfig]

theorem filed_execHeartbeatTimeout (s : State) : KeepsFiled s (execHeartbeatTimeout s) := by
  simp only [execHeartbeatTimeout, ite_self, keepsFiled_next, keepsFiled_ite, ↓filed_tandemDown]

/-! ### Frames -/

theorem filed_keyServed (s : State) (o : Nat) (wrapped : List Word) (fits : Bool) : (s.keyServed o wrapped fits).filed = s.filed := by
  unfold State.keyServed
  split <;> simp only [↓filed_ite, ite_self, ↓filed_modOnu, ↓filed_offer, ↓filed_keyFailed, ↓filed_tellKey, ↓filed_installKeys]

theorem filed_execKeyReply (onu : Onu) (wrapped : List Word) (fits : Bool) (s : State) :
    KeepsFiled s (execKeyReply onu wrapped fits s) := by
  unfold execKeyReply
  split <;> simp only [implies_true, keepsFiled_next, ↓filed_toActivation, ↓filed_keyServed]

theorem filed_execKeySwitch (t : Tree) (onu : Option Onu) (s : State) : KeepsFiled s (execKeySwitch t onu s) := by
  unfold execKeySwitch
  simp only
  repeat' split
  all_goals simp only [keepsFiled_next, ↓filed_answer, ↓filed_modCipher, ↓filed_modOnu]

theorem filed_fillPayload (s : State) (c n : Nat) :
    (s.fillPayload c n).filed = s.filed := by
  induction n generalizing s with
  | zero => rfl
  | succ n ih =>
    unfold State.fillPayload
    dsimp only
    split
    · rfl
    · split
      · simp only [ih, ↓filed_keyAbsent, ↓filed_setChan]
      · split
        · rfl
        · simp only [ih, ↓filed_send, ↓filed_ite, ↓filed_cipherItem, ↓filed_setChan, ite_self]

theorem filed_fill (s : State) (c : Nat) : (s.fill c).filed = s.filed := by
  simp only [State.fill, ↓filed_fillPayload]

theorem filed_execTcSduRx (c : Chan) (s : State) : KeepsFiled s (execTcSduRx c s) := by
  unfold execTcSduRx
  simp only
  split <;> simp only [↓filed_mk, ite_self, keepsFiled_next, keepsFiled_ite, ↓filed_carry, ↓filed_setChan, ↓filed_noteOverrun,
    ↓filed_keyAbsent, ↓filed_fill]

theorem filed_expectMap (s : State) (c n : Nat) (map : List AllocStruct) : (s.expectMap c n map).filed = s.filed := by
  simp only [State.expectMap, ↓filed_countBy, ↓filed_setExpects]

theorem filed_acceptFrom (s : State) (c n : Nat) (m : Ploam) : (s.acceptFrom c n m).filed = s.filed := by
  unfold State.acceptFrom
  repeat' split
  all_goals simp only [↓filed_modTandem]

theorem filed_takePloams (s : State) (c : Nat) : (s.takePloams c).1.filed = s.filed := by
  simp only [State.takePloams, ↓filed_ite, ite_self, implies_true, fst_ite, ↓filed_foldl, ↓filed_cipherItem, ↓filed_setChan,
    ↓filed_admitOffers, ↓filed_acceptFrom]

theorem filed_noteLaunchDiff (s : State) (t n : Nat) : (s.noteLaunchDiff t n).filed = s.filed := by
  simp only [State.noteLaunchDiff, ↓filed_ite, ite_self, ↓filed_report, ↓filed_setTree]

theorem filed_light (s : State) (c : Nat) : (s.light c).filed = s.filed := by
  simp only [State.light, ↓filed_ite, ↓filed_mk, ite_self, ↓filed_drive]

theorem filed_portChanges (s : State) (t : Nat) :
    (s.portChanges t).filed = s.filed := by
  unfold State.portChanges
  refine filed_foldl (fun u p => ?_) _ s
  split
  · simp only [↓filed_mk, ↓filed_flushPort]
  · rfl

theorem filed_containerFrames (s : State) (c port name len : Nat) (k : Nat × Nat) (sent n : Nat) :
    (s.containerFrames c port name len k sent n).filed = s.filed := by
  induction n generalizing s sent with
  | zero => rfl
  | succ n ih => simp only [State.containerFrames, ↓filed_ite, ih, ↓filed_send, ↓filed_cipherItem, ↓filed_setChan, ite_self]

theorem filed_containers (s : State) (c n : Nat) :
    (s.containers c n).filed = s.filed := by
  unfold State.containers
  refine filed_foldl (fun u p => ?_) _ s
  dsimp only
  split
  · exact filed_buildContainer ..
  · split <;> simp only [↓filed_containerFrames, ↓filed_send, ↓filed_keyAbsent, ↓filed_buildContainer]

theorem filed_frameInForce (s : State) (t n : Nat) : (s.frameInForce t n).filed = s.filed := by
  simp only [State.frameInForce, ↓filed_setTree]

theorem filed_startFrame (s : State) (c : Nat) : (s.startFrame c).filed = s.filed := by
  generalize hdef : @State.startFrame = start
  delta State.startFrame at hdef
  subst hdef
  beta_reduce
  extract_lets +onlyGivenNames t n closed told
  obtain ⟨u, hu, htold⟩ : ∃ u, told = u ∧ u.filed = s.filed :=
    ⟨told, rfl, (filed_portChanges ..).trans ((filed_noteLaunchDiff ..).trans ((filed_frameInForce ..).trans (filed_closeFrame ..)))⟩
  rw [hu]
  extract_lets lanes unlit lit
  obtain ⟨v, hv, hlit⟩ : ∃ v, lit = v ∧ v.filed = u.filed := ⟨lit, rfl, (filed_light ..).trans (filed_of rfl rfl)⟩
  rw [hv]
  split
  next map late _ =>
  extract_lets warned
  have hwarned : warned.filed = v.filed := by simp only [warned, ↓filed_ite, ↓filed_chanCause, ↓filed_report, ite_self]
  split
  next w ploams htaken =>
  have hw : w.filed = s.filed := by rw [← htold, ← hlit, ← hwarned, ← filed_takePloams warned c, htaken]
  extract_lets x formed sent
  rw [filed_fill, filed_containers, filed_expectMap, filed_send, filed_setChan, hw]

theorem filed_execFrameStart (c : Chan) (s : State) : KeepsFiled s (execFrameStart c s) := by
  simp only [execFrameStart, ite_self, keepsFiled_next, keepsFiled_ite, ↓filed_startFrame]

theorem filed_execGrantCutoff (t : Tree) (s : State) : KeepsFiled s (execGrantCutoff t s) := by
  simp only [execGrantCutoff, ite_self, keepsFiled_next, keepsFiled_ite, ↓filed_wake, ↓filed_cutoff, ↓filed_sendCut, ↓filed_skeinCutoff]

theorem filed_execMapDeadline (t : Tree) (s : State) : KeepsFiled s (execMapDeadline t s) := by
  simp only [execMapDeadline, ite_self, keepsFiled_next, keepsFiled_ite, ↓filed_deliverMaps, ↓filed_drillReport, ↓filed_formDigests,
    ↓filed_cutDeadline]

/-! ### Uplink -/

theorem filed_awaitEnd (s : State) (port : Nat) (v : Verdict) : (s.awaitEnd port v).filed = s.filed := by
  simp only [State.awaitEnd, ↓filed_setSecy]

theorem filed_uplinkRx (s : State) (port : Nat) (f : Frame) (fcsOk coming : Bool) (tag : Option SecTag)
    (icv : Option Nat) : (s.uplinkRx port f fcsOk coming tag icv).filed = s.filed := by
  unfold State.uplinkRx
  simp only [↓filed_ite, ↓filed_pmAdd, ↓filed_count, ↓filed_carry]
  repeat' split
  all_goals simp only [↓filed_raiseOnce, ↓filed_pmAdd, ↓filed_count, ↓filed_carry, ↓filed_cipherItem, ↓filed_pushHead, ↓filed_awaitEnd]

theorem filed_loopRx (s : State) (port : Nat) : (s.loopRx port).filed = s.filed := by
  unfold State.loopRx
  split <;> simp only [↓filed_mk, ↓filed_uplinkRx]

theorem filed_execUplinkFrameRx (l : Lane) (r : UplinkRx) (s : State) : KeepsFiled s (execUplinkFrameRx l r s) := by
  simp only [execUplinkFrameRx, ↓filed_ite, ite_self, keepsFiled_next, ↓filed_uplinkRx, ↓filed_loopRx]

theorem filed_bodyEnds (s : State) (name : Nat) (b : Body) : (s.bodyEnds name b).filed = s.filed := (rfl)

theorem filed_cutEnds (s : State) (half name : Nat) (ok : Bool) : (s.cutEnds half name ok).filed = s.filed := by
  unfold State.cutEnds
  simp only
  split <;> simp only [↓filed_ite, ↓filed_mk, ite_self, ↓filed_send, ↓filed_raiseOnce, ↓filed_count, ↓filed_setStore]

theorem filed_frameEnds (s : State) (name : Nat) (ok : Bool) : (s.frameEnds name ok).filed = s.filed := by
  simp only [State.frameEnds, ↓filed_bodyEnds, ↓filed_cutEnds]

theorem filed_icvEnds (s : State) (port : Nat) (f : Frame) (sa pn icv : Nat) : (s.icvEnds port f sa pn icv).filed = s.filed := by
  unfold State.icvEnds
  simp only
  split <;> simp only [↓filed_ite, ite_self, ↓filed_count, ↓filed_setSecy, ↓filed_frameEnds]

theorem filed_execIcvVerdict (port : Lane) (e : FrameEnd) (s : State) : KeepsFiled s (execIcvVerdict port e s) := by
  unfold execIcvVerdict
  simp only
  repeat' split
  all_goals simp only [keepsFiled_next, ↓filed_count, ↓filed_setSecy, ↓filed_frameEnds, ↓filed_icvEnds]

/-! ### Packets -/

theorem filed_noteRefusal (s : State) (x1 : Status) : (s.noteRefusal x1).filed = s.filed := by
  unfold State.noteRefusal
  split <;> simp only [↓filed_count, ↓filed_report]

theorem filed_refuseTo (s : State) (from_ : Nat × Nat × Option Nat) (r : Reply) : (s.refuseTo from_ r).filed = s.filed := by
  simp only [State.refuseTo, ↓filed_mk, ↓filed_post]

theorem filed_takePacket (s : State) (c : Caller) (ws : List Word)
    (from_ : Nat × Nat × Option Nat) : (s.takePacket c ws from_).filed = s.filed := by
  simp only [State.takePacket, ↓filed_ite, ↓filed_mk, ite_self, ↓filed_queueCommand]

theorem filed_accept (s : State) (p : Path) (b : List Byte) (cmacOk : Bool)
    (from_ : Nat × Nat × Option Nat) : (s.accept p b cmacOk from_).filed = s.filed := by
  unfold State.accept
  simp only [↓filed_ite, ↓filed_report]
  repeat' split
  all_goals simp only [↓filed_raiseOnceBy, ↓filed_count, ↓filed_noteRefusal, ↓filed_refuseTo, ↓filed_takePacket]

theorem filed_acknowledged (s : State) (r : Reply) : (s.acknowledged r).filed = s.filed := by
  unfold State.acknowledged
  simp only [↓filed_ite]
  repeat' split
  all_goals simp only [↓filed_mk]

theorem filed_execCommandRingRead (packet : List Byte) (s : State) : KeepsFiled s (execCommandRingRead packet s) := by
  simp only [execCommandRingRead, ite_self, keepsFiled_next, keepsFiled_ite, ↓filed_ringStep, ↓filed_accept]

theorem filed_execTrapPost (s : State) : KeepsFiled s (execTrapPost s) := by
  simp only [execTrapPost, keepsFiled_next, ↓filed_flushTraps]

theorem filed_ptrBad (s : State) : s.ptrBad.filed = s.filed := by
  simp only [State.ptrBad, ↓filed_report]

theorem filed_ringReject (s : State) : s.ringReject.filed = s.filed := by
  simp only [State.ringReject, ↓filed_report]

theorem filed_writeRingPtr (s : State) (r host : Nat) : (s.writeRingPtr r host).filed = s.filed := by
  simp only [State.writeRingPtr, ↓filed_ite, ↓filed_mk, ite_self, implies_true, ↓filed_foldl, ↓filed_setFld, ↓filed_flushReplies,
    ↓filed_flushTraps, ↓filed_acknowledged, ↓filed_ptrBad]

theorem filed_execLshRingPtrWrite (p : APath) (data : Word) (s : State) : KeepsFiled s (execLshRingPtrWrite p data s) := by
  simp only [execLshRingPtrWrite, keepsFiled_next, ↓filed_writeRingPtr]

theorem filed_enableRing (s : State) (r : Nat) : (s.enableRing r).filed = s.filed := by
  simp only [State.enableRing, ↓filed_ite, ↓filed_mk, ite_self, ↓filed_setFld, ↓filed_flushReplies, ↓filed_flushTraps]

theorem filed_writeRingCfg (s : State) (r : Nat) (data : Word) : (s.writeRingCfg r data).filed = s.filed := by
  simp only [State.writeRingCfg, ↓filed_ite, ite_self, ↓filed_setReg, ↓filed_report, ↓filed_ringReject, ↓filed_enableRing]

theorem filed_execLshRingCfgWrite (p : APath) (data : Word) (s : State) : KeepsFiled s (execLshRingCfgWrite p data s) := by
  simp only [execLshRingCfgWrite, keepsFiled_next, ↓filed_writeRingCfg]

theorem filed_injectHead (s : State) (pipe : Nat) (up : Bool) (ingress : Nat)
    (f : Frame) : (s.injectHead pipe up ingress f).filed = s.filed := by
  simp only [State.injectHead, ↓filed_ite, ite_self, ↓filed_drawn, ↓filed_modFwd]

theorem filed_injectQueue (s : State) (q : Nat) (f : Frame) : (s.injectQueue q f).filed = s.filed := by
  simp only [State.injectQueue, ↓filed_ite, ite_self, ↓filed_drawn, ↓filed_toHost, ↓filed_offerTo]

theorem filed_execInjectRingRead (w0 w1 w2 x3 : Word) (name : BitVec 32) (head : List Byte) (pipe : BitVec 4)
    (s : State) : KeepsFiled s (execInjectRingRead w0 w1 w2 x3 name head pipe s) := by
  simp only [execInjectRingRead, ↓filed_ite, ite_self, keepsFiled_next, ↓filed_report, ↓filed_ringStep, ↓filed_wantTime,
    ↓filed_injectHead, ↓filed_injectQueue]

theorem filed_execI3cMailboxWrite (bytes : List Byte) (s : State) : KeepsFiled s (execI3cMailboxWrite bytes s) := by
  simp only [execI3cMailboxWrite, ↓filed_ite, ite_self, keepsFiled_next, ↓filed_report, ↓filed_accept]

theorem filed_execI3cMailboxAck (tag : BitVec 16) (s : State) : KeepsFiled s (execI3cMailboxAck tag s) := by
  unfold execI3cMailboxAck
  repeat' split
  all_goals simp only [↓filed_ite, ↓filed_mk, ite_self, keepsFiled_next, ↓filed_send, ↓filed_acknowledged]

theorem filed_execI3cMailboxRead (whole : Bool) (s : State) : KeepsFiled s (execI3cMailboxRead whole s) := by
  unfold execI3cMailboxRead
  repeat' split
  all_goals simp only [↓filed_mk, keepsFiled_next, ↓filed_send]

theorem filed_execI3cDynamicAddress (addr : BitVec 7) (s : State) : KeepsFiled s (execI3cDynamicAddress addr s) := by
  simp only [execI3cDynamicAddress, ↓filed_mk, ite_self, keepsFiled_next, keepsFiled_ite, ↓filed_send]

theorem filed_execI3cEnecDisec (on : Bool) (s : State) : KeepsFiled s (execI3cEnecDisec on s) := by
  simp only [execI3cEnecDisec, ↓filed_mk, ite_self, keepsFiled_next, keepsFiled_ite]

theorem filed_execInbandFrameRx (l : Lane) (packet : List Byte) (cmac : BitVec 128) (src : BitVec 48) (vlan : Option (BitVec 16))
    (s : State) : KeepsFiled s (execInbandFrameRx l packet cmac src vlan s) := by
  simp only [execInbandFrameRx, ↓filed_ite, ite_self, keepsFiled_next, ↓filed_report, ↓filed_accept]

/-! ### Laosh -/

theorem filed_execSysNop (h : Hdr) (words : List Word) (s : State) : KeepsFiled s (execSysNop h words s) := by
  simp only [execSysNop, implies_true, st_ok, keepsFiled_next, ↓filed_command]

theorem filed_execSysInfo (h : Hdr) (s : State) : KeepsFiled s (execSysInfo h s) := by
  simp only [execSysInfo, implies_true, st_ok, keepsFiled_next, ↓filed_command]

theorem filed_dropClaims (s : State) (p : Path) : (s.dropClaims p).filed = s.filed := (rfl)

theorem filed_execSysSessionOpen (h : Hdr) (s : State) : KeepsFiled s (execSysSessionOpen h s) := by
  simp only [execSysSessionOpen, ↓filed_ite, ↓filed_mk, ite_self, implies_true, st_ite, st_ok, st_fail, keepsFiled_next, ↓filed_setFld,
    ↓filed_command, ↓filed_dropClaims]

theorem filed_ackTag (s : State) (tag : Word) : (s.ackTag tag).filed = s.filed := by
  unfold State.ackTag
  simp only
  split <;> simp only [↓filed_ite, ↓filed_mk, ite_self]

theorem filed_execSysAck (h : Hdr) (tags : List Word) (s : State) : KeepsFiled s (execSysAck h tags s) := by
  unfold execSysAck
  simp only [↓filed_ite, ite_self, implies_true, ↓filed_foldl, keepsFiled_next, ↓filed_count, ↓filed_refuse, ↓filed_ackTag]
  repeat' split
  all_goals simp only [↓filed_refuse, ↓filed_noteRefusal]

theorem filed_execSysInbandSet (h : Hdr) (ports : List Word) (mac : BitVec 48) (handle : Word)
    (s : State) : KeepsFiled s (execSysInbandSet h ports mac handle s) := by
  unfold execSysInbandSet
  rw [keepsFiled_next]
  refine filed_command _ _ _ _ _ fun c t => ?_
  repeat' split
  all_goals simp only [↓filed_ite, ↓filed_mk, ite_self, st_ite, st_ok, st_fail, ↓filed_setReg, ↓filed_unlessClaimed, ↓filed_officerOnly]

theorem filed_writeMask (s : State) (g : Nat) (data : Word) : (s.writeMask g data).filed = s.filed := by
  simp only [State.writeMask, ↓filed_ite, ite_self, ↓filed_setReg, ↓filed_deliver]

theorem filed_execEvtMaskWrite (g : BitVec 5) (data : Word) (s : State) : KeepsFiled s (execEvtMaskWrite g data s) := by
  simp only [execEvtMaskWrite, ↓filed_ite, ite_self, keepsFiled_next, ↓filed_writeMask]

theorem filed_clearStat (s : State) (g : Nat) (data : Word) : (s.clearStat g data).filed = s.filed := by
  simp only [State.clearStat, ↓filed_ite, ite_self, ↓filed_setReg, ↓filed_sendMsix]

theorem filed_execEvtStatClear (g : BitVec 5) (data : Word) (s : State) : KeepsFiled s (execEvtStatClear g data s) := by
  simp only [execEvtStatClear, ↓filed_ite, ite_self, keepsFiled_next, ↓filed_clearStat]

theorem filed_execSysEventRoute (h : Hdr) (group mask fw alert ibi msix vector : Word)
    (s : State) : KeepsFiled s (execSysEventRoute h group mask fw alert ibi msix vector s) := by
  simp only [execSysEventRoute, ↓filed_ite, ite_self, implies_true, st_ite, st_ok, st_fail, keepsFiled_next, ↓filed_setReg,
    ↓filed_command, ↓filed_writeMask]

theorem filed_execSysEventRead (h : Hdr) (count : Word) (s : State) : KeepsFiled s (execSysEventRead h count s) := by
  simp only [execSysEventRead, ↓filed_ite, ite_self, implies_true, st_ite, st_ok, st_fail, keepsFiled_next, ↓filed_setReg, ↓filed_command]

theorem filed_writeRingRd (s : State) (p : Nat) (data : Word) : (s.writeRingRd p data).filed = s.filed := by
  simp only [State.writeRingRd, ↓filed_setReg]

theorem filed_execEvtRingRdWrite (p : APath) (data : Word) (s : State) : KeepsFiled s (execEvtRingRdWrite p data s) := by
  simp only [execEvtRingRdWrite, keepsFiled_next, ↓filed_writeRingRd]

theorem filed_takeClaim (s : State) (die : Nat) (b : Blk) (p : Path) : (s.takeClaim die b p).filed = s.filed := by
  simp only [State.takeClaim, ↓filed_ite, ↓filed_mk, ite_self, ↓filed_notApproved]

theorem filed_execBlockClaim (h : Hdr) (block : Word) (s : State) : KeepsFiled s (execBlockClaim h block s) := by
  unfold execBlockClaim
  rw [keepsFiled_next]
  refine filed_command _ _ _ _ _ fun c t => ?_
  simp only
  repeat' split
  all_goals simp only [↓filed_mk, st_ok, st_fail, ↓filed_takeClaim]

theorem filed_dropWait (s : State) (w : ClaimWait) : (s.dropWait w).filed = s.filed := (rfl)

theorem filed_execClaimEffect (die : Die) (block : BitVec 6) (s : State) : KeepsFiled s (execClaimEffect die block s) := by
  unfold execClaimEffect
  simp only
  repeat' split
  all_goals simp only [keepsFiled_next, ↓filed_answer, ↓filed_takeClaim, ↓filed_dropWait]

theorem filed_execClaimTimeout (die : Die) (block : BitVec 6) (s : State) : KeepsFiled s (execClaimTimeout die block s) := by
  unfold execClaimTimeout
  split <;> simp only [↓filed_ite, ite_self, keepsFiled_next, ↓filed_answer, ↓filed_dropWait]

theorem filed_execBlockRelease (h : Hdr) (block : Word) (s : State) : KeepsFiled s (execBlockRelease h block s) := by
  simp only [execBlockRelease, ↓filed_ite, ↓filed_mk, ite_self, implies_true, st_ite, st_ok, st_fail, keepsFiled_next, ↓filed_command]

theorem filed_execBlockStatus (h : Hdr) (s : State) : KeepsFiled s (execBlockStatus h s) := by
  simp only [execBlockStatus, implies_true, st_ok, keepsFiled_next, ↓filed_command]

/-! ### Gauge -/

theorem filed_execPmEntitySet (h : Hdr) (kind index enable : Word) (s : State) :
    KeepsFiled s (execPmEntitySet h kind index enable s) := by
  simp only [execPmEntitySet, ↓filed_ite, ↓filed_mk, ite_self, implies_true, st_ite, st_ok, st_fail, keepsFiled_next, ↓filed_modPmEnt,
    ↓filed_command, ↓filed_unlessClaimed]

theorem filed_hbmError (s : State) (half page inst : Nat) : (s.hbmError half page inst).filed = s.filed := by
  simp only [State.hbmError, ↓filed_report, ↓filed_retirePage]

theorem filed_binLost (s : State) (key : Nat) (day : Bool) (n page : Nat) : (s.binLost key day n page).filed = s.filed := by
  unfold State.binLost
  repeat' split
  all_goals simp only [↓filed_mk, ↓filed_hbmError]

theorem filed_execPmRead (h : Hdr) (kind index bin : Word) (ecc : Option (BitVec 23))
    (s : State) : KeepsFiled s (execPmRead h kind index bin ecc s) := by
  unfold execPmRead
  rw [keepsFiled_next]
  refine filed_command _ _ _ _ _ fun c t => ?_
  simp only
  repeat' split
  all_goals simp only [st_ok, st_fail, ↓filed_binLost]

theorem filed_execPmTcaSet (h : Hdr) (kind param length threshold : Word)
    (s : State) : KeepsFiled s (execPmTcaSet h kind param length threshold s) := by
  simp only [execPmTcaSet, ↓filed_ite, ↓filed_mk, ite_self, implies_true, st_ite, st_ok, st_fail, keepsFiled_next, ↓filed_command,
    ↓filed_unlessClaimed]

theorem filed_execPmStatus (h : Hdr) (s : State) : KeepsFiled s (execPmStatus h s) := by
  simp only [execPmStatus, ↓filed_mk, ite_self, implies_true, st_ok, keepsFiled_next, ↓filed_command, ↓filed_unlessClaimed]

theorem filed_gaugeSet (s : State) (w : Nat) (f : Nat → Nat) : (s.gaugeSet w f).filed = s.filed := (rfl)

theorem filed_gaugeConfigure (s : State) (w : Nat) (write : State → State) (hwrite : ∀ t,
    (write t).filed = t.filed) : (s.gaugeConfigure w write).filed = s.filed := by
  simp only [State.gaugeConfigure, ↓filed_setReg, ↓filed_gaugeSet, hwrite]

theorem filed_cycleOver (s : State) : s.cycleOver.filed = s.filed := by
  simp only [State.cycleOver, ↓filed_mk, ↓filed_tick, ↓filed_admitWaiting]

theorem filed_clearOvf (s : State) (w : Nat) (data : Word) :
    (s.clearOvf w data).filed = s.filed := by
  exact (filed_setReg ..).trans (filed_gaugeConfigure _ _ _ fun _ => rfl)

theorem filed_execGaugeRead (h : Hdr) (block unit live : Word) (s : State) : KeepsFiled s (execGaugeRead h block unit live s) := by
  unfold execGaugeRead
  rw [keepsFiled_next]
  refine filed_command _ _ _ _ _ fun c t => ?_
  repeat' split
  all_goals simp only [↓filed_ite, ite_self, st_ite, st_ok, st_fail, ↓filed_prbsLook]

theorem filed_execGaugeSlots (h : Hdr) (pipeline : Word) (s : State) : KeepsFiled s (execGaugeSlots h pipeline s) := by
  simp only [execGaugeSlots, ite_self, implies_true, st_ite, st_ok, st_fail, keepsFiled_next, ↓filed_command]

theorem filed_execGaugeHistRead (h : Hdr) (port : Word) (s : State) : KeepsFiled s (execGaugeHistRead h port s) := by
  unfold execGaugeHistRead
  split <;> simp only [ite_self, implies_true, st_ite, st_ok, st_fail, keepsFiled_next, ↓filed_command]

theorem filed_markCleared (s : State) (ks : List Nat) (b : Blk) :
    (s.markCleared ks b).filed = s.filed := by
  unfold State.markCleared
  refine filed_foldl (fun u k => ?_) ks s
  split
  · exact filed_modPmEnt ..
  · rfl

theorem filed_clearUnit (s : State) (w : Nat) (b : Blk) : (s.clearUnit w b).filed = s.filed := by
  simp only [State.clearUnit, ↓filed_mk, ↓filed_gaugeSet, ↓filed_markCleared]

theorem filed_execGaugeClear (h : Hdr) (block unit : Word) (s : State) : KeepsFiled s (execGaugeClear h block unit s) := by
  unfold execGaugeClear
  simp only [keepsFiled_next]
  split <;> simp only [↓filed_ite, ite_self, implies_true, st_ite, st_ok, st_fail, ↓filed_command, ↓filed_unlessClaimed, ↓filed_clearUnit]

theorem filed_execGaugeSnap (h : Hdr) (instant : T3) (s : State) : KeepsFiled s (execGaugeSnap h instant s) := by
  simp only [execGaugeSnap, ↓filed_ite, ↓filed_mk, ite_self, implies_true, st_ite, st_fail, keepsFiled_next, ↓filed_command,
    ↓filed_unlessClaimed]

theorem filed_execGaugePeriodSet (h : Hdr) (period : Word) (first : T3) (s : State) :
    KeepsFiled s (execGaugePeriodSet h period first s) := by
  simp only [execGaugePeriodSet, ↓filed_ite, ↓filed_mk, ite_self, implies_true, st_ite, st_ok, st_fail, keepsFiled_next, ↓filed_command,
    ↓filed_unlessClaimed]

theorem filed_launchSnapshot (s : State) (caller : Option Caller) : (s.launchSnapshot caller).filed = s.filed := by
  unfold State.launchSnapshot
  split <;> simp only [↓filed_ite, ↓filed_mk, ite_self, ↓filed_setFlag, ↓filed_report, ↓filed_answer, ↓filed_prbsLook]

theorem filed_execSnapshotLaunch (s : State) : KeepsFiled s (execSnapshotLaunch s) := by
  unfold execSnapshotLaunch
  repeat' split
  all_goals simp only [↓filed_mk, keepsFiled_next, ↓filed_launchSnapshot]

theorem filed_putImage (s : State) (x : Snapshot) (die buf : Nat) : (s.putImage x die buf).filed = s.filed := by
  simp only [State.putImage, ↓filed_mk, implies_true, ↓filed_foldl, ↓filed_clearBank]

theorem filed_snapshotWritten (s : State) (x : Snapshot) (caller : Option Caller)
    (bufs : Tbl Nat) : (s.snapshotWritten x caller bufs).filed = s.filed := by
  unfold State.snapshotWritten
  split <;> simp only [↓filed_mk, implies_true, ↓filed_foldl, ↓filed_setReg, ↓filed_raise, ↓filed_answer, ↓filed_putImage]

theorem filed_serveSnap (s : State) (r : (Nat × Nat) × Nat) : (s.serveSnap r).1.filed = s.filed := by
  simp only [State.serveSnap, ↓filed_mk, ↓filed_wantTime, ↓filed_charge]

theorem filed_execSnapshotDone (s : State) :
    KeepsFiled s (execSnapshotDone s) := by
  unfold execSnapshotDone
  split
  · exact keepsFiled_next.mpr rfl
  · next x caller bufs h =>
    have hserved := filed_foldl_fst (f := fun (a : State × Bool) r => ((a.1.serveSnap r).1, a.2 && (a.1.serveSnap r).2))
      (fun a r => filed_serveSnap ..) s.snapRations (s, true)
    refine keepsFiled_next.mpr (Eq.trans ?_ hserved)
    simp only [↓filed_ite, ↓filed_snapshotWritten, ↓filed_mk, ite_self]

/-! ### Power -/

theorem filed_execPowerDomainSet (h : Hdr) (domain on : Word) (s : State) : KeepsFiled s (execPowerDomainSet h domain on s) := by
  unfold execPowerDomainSet
  simp only [keepsFiled_next]
  split <;> simp only [↓filed_ite, ite_self, implies_true, st_ite, st_fail, st_accepted, ↓filed_command, ↓filed_unlessClaimed,
    ↓filed_modPower]

theorem filed_clearDomain (s : State) (x1 : DomainKind) : (s.clearDomain x1).filed = s.filed := by
  unfold State.clearDomain
  split <;> simp only [implies_true, ↓filed_foldl, ↓filed_clearBank]

theorem filed_execDomainSwitchDone (domain : BitVec 9) (s : State) : KeepsFiled s (execDomainSwitchDone domain s) := by
  unfold execDomainSwitchDone
  simp only
  repeat' split
  all_goals simp only [keepsFiled_next, ↓filed_answer, ↓filed_modPower, ↓filed_setDomain, ↓filed_clearDomain]

theorem filed_execThermalSample (region : BitVec 7) (temp : BitVec 12) (mw : Option (BitVec 20))
    (s : State) : KeepsFiled s (execThermalSample region temp mw s) := by
  unfold execThermalSample
  split <;> simp only [↓filed_ite, ite_self, keepsFiled_next, ↓filed_setFld, ↓filed_report, ↓filed_modPower, ↓filed_alarm]

theorem filed_execPowerStatus (h : Hdr) (s : State) : KeepsFiled s (execPowerStatus h s) := by
  simp only [execPowerStatus, implies_true, st_ok, keepsFiled_next, ↓filed_command]

theorem filed_execPowerSensors (h : Hdr) (s : State) : KeepsFiled s (execPowerSensors h s) := by
  simp only [execPowerSensors, implies_true, st_ok, keepsFiled_next, ↓filed_command]

theorem filed_execPowerTensionSet (h : Hdr) (region thr rel longUs : Word)
    (s : State) : KeepsFiled s (execPowerTensionSet h region thr rel longUs s) := by
  simp only [execPowerTensionSet, ↓filed_ite, ite_self, implies_true, st_ite, st_ok, st_fail, keepsFiled_next, ↓filed_setFld,
    ↓filed_command, ↓filed_unlessClaimed]

theorem filed_setStretch (s : State) (r n : Nat) : (s.setStretch r n).filed = s.filed := by
  simp only [State.setStretch, ↓filed_setFld, ↓filed_modPower]

theorem filed_execDroopDetect (region : BitVec 7) (hard : Bool) (s : State) : KeepsFiled s (execDroopDetect region hard s) := by
  simp only [execDroopDetect, ↓filed_ite, ite_self, keepsFiled_next, ↓filed_setFlag, ↓filed_raiseOnce, ↓filed_count, ↓filed_modPower,
    ↓filed_setStretch]

theorem filed_execStretchStepUp (region : BitVec 7) (s : State) : KeepsFiled s (execStretchStepUp region s) := by
  simp only [execStretchStepUp, ↓filed_ite, ite_self, keepsFiled_next, ↓filed_setStretch]

theorem filed_execDroopRecovery (region : BitVec 7) (s : State) : KeepsFiled s (execDroopRecovery region s) := by
  simp only [execDroopRecovery, ↓filed_ite, ite_self, keepsFiled_next, ↓filed_setFlag, ↓filed_countBy, ↓filed_modPower]

theorem filed_execStretchReleaseStep (region : BitVec 7) (s : State) : KeepsFiled s (execStretchReleaseStep region s) := by
  unfold execStretchReleaseStep
  simp only
  split <;> simp only [↓filed_ite, ite_self, keepsFiled_next, ↓filed_countBy, ↓filed_modPower, ↓filed_setStretch]

theorem filed_execTensionEpisodeLong (region : BitVec 7) (s : State) : KeepsFiled s (execTensionEpisodeLong region s) := by
  unfold execTensionEpisodeLong
  simp only
  split <;> simp only [↓filed_ite, ite_self, keepsFiled_next, ↓filed_raise, ↓filed_modPower]

theorem filed_execWearSample (region : BitVec 7) (ppm : Word) (s : State) : KeepsFiled s (execWearSample region ppm s) := by
  unfold execWearSample
  simp only [↓filed_ite, keepsFiled_next, ↓filed_modPower]
  repeat' split
  all_goals simp only [↓filed_raise, ↓filed_count, ↓filed_modPower, ↓filed_autoSpare]

theorem filed_execRemudaWearRead (h : Hdr) (region : Word) (s : State) : KeepsFiled s (execRemudaWearRead h region s) := by
  simp only [execRemudaWearRead, ite_self, implies_true, st_ite, st_ok, st_fail, keepsFiled_next, ↓filed_command]

theorem filed_execRemudaStatus (h : Hdr) (s : State) : KeepsFiled s (execRemudaStatus h s) := by
  simp only [execRemudaStatus, implies_true, st_ok, keepsFiled_next, ↓filed_command]

theorem filed_execRemudaPolicySet (h : Hdr) (kind policy : Word) (s : State) : KeepsFiled s (execRemudaPolicySet h kind policy s) := by
  simp only [execRemudaPolicySet, ↓filed_ite, ite_self, implies_true, st_ite, st_ok, st_fail, keepsFiled_next, ↓filed_setFld,
    ↓filed_command, ↓filed_unlessClaimed, ↓filed_modPower]

theorem filed_execRemudaBringIn (h : Hdr) (kind unit : Word) (s : State) : KeepsFiled s (execRemudaBringIn h kind unit s) := by
  simp only [execRemudaBringIn, ↓filed_ite, ite_self, implies_true, st_ite, st_fail, st_accepted, keepsFiled_next, ↓filed_command,
    ↓filed_unlessClaimed, ↓filed_noSpare, ↓filed_beginBringIn, ↓filed_setSeq]

theorem filed_pipelineIn (s : State) (half n : Nat) : (s.pipelineIn half n).filed = s.filed := by
  simp only [State.pipelineIn, ↓filed_replaceUnit, ↓filed_modFwd]

theorem filed_testSpares (s : State) (die : Nat) (cs : List Nat) :
    (s.testSpares die cs).1.filed = s.filed := by
  induction cs generalizing s with
  | nil => rfl
  | cons c cs ih => simp only [State.testSpares, fst_ite, ↓filed_ite, ih, ↓filed_setFld, ↓filed_setCore, ↓filed_drawn, ite_self]

theorem filed_coreIn (s : State) (die core : Nat) :
    (s.coreIn die core).1.filed = s.filed := by
  unfold State.coreIn
  have ht := filed_testSpares s die (s.coresIn die (core / 64) 0)
  split <;> rename_i h <;> rw [h] at ht
  · simp only [↓filed_setCore, ↓filed_modPower, ↓filed_ite, ite_self, ht]
  · exact ht

theorem filed_pseudoChannelIn (s : State) (half pc : Nat) : (s.pseudoChannelIn half pc).filed = s.filed := by
  unfold State.pseudoChannelIn
  simp only
  split <;> simp only [↓filed_setFld, ↓filed_setFlag, ↓filed_failUnit, ↓filed_unmarkHbm]

theorem filed_rowIn (s : State) (half row : Nat) : (s.rowIn half row).filed = s.filed := by
  simp only [State.rowIn, implies_true, ↓filed_foldl, ↓filed_setFld, ↓filed_modPower, ↓filed_modStore, ↓filed_unmarkHbm]

theorem filed_pcsIn (s : State) (die n : Nat) : (s.pcsIn die n).filed = s.filed := by
  simp only [State.pcsIn, implies_true, ↓filed_foldl, ↓filed_replaceUnit, ↓filed_uplinkDown]

theorem filed_spareIn (s : State) (k d u : Nat) : (s.spareIn k d u).filed = s.filed := by
  unfold State.spareIn
  simp only [↓filed_ite, ite_self, ↓filed_spareUsed, ↓filed_noSpare, ↓filed_endBringIn]
  split <;> simp only [↓filed_ite, ite_self, ↓filed_modPower, ↓filed_replaceUnit, ↓filed_pipelineIn, ↓filed_coreIn,
    ↓filed_pseudoChannelIn, ↓filed_rowIn, ↓filed_pcsIn]

theorem filed_serveCopy (s : State) (k d u : Nat) : (s.serveCopy k d u).1.filed = s.filed := by
  simp only [State.serveCopy, ↓filed_wantTime, ↓filed_charge, ↓filed_modPower]

theorem filed_execSpareBringInDone (kind : BitVec 4) (die : BitVec 3) (unit : Word)
    (s : State) : KeepsFiled s (execSpareBringInDone kind die unit s) := by
  simp only [execSpareBringInDone, ↓filed_ite, ite_self, keepsFiled_next, ↓filed_spareIn, ↓filed_serveCopy]

theorem filed_execBringInHoldTimeout (die : BitVec 3) (index : BitVec 2) (s : State) :
    KeepsFiled s (execBringInHoldTimeout die index s) := by
  simp only [execBringInHoldTimeout, ↓filed_ite, ite_self, keepsFiled_next, ↓filed_endBringIn, ↓filed_setSeq, ↓filed_setSeqState]

theorem filed_parityError (s : State) (kind die n : Nat) : (s.parityError kind die n).filed = s.filed := by
  simp only [State.parityError, ↓filed_ite, ite_self, ↓filed_failUnit, ↓filed_autoSpare]

theorem filed_execUnitParityError (u : ParityUnit) (s : State) : KeepsFiled s (execUnitParityError u s) := by
  unfold execUnitParityError
  split <;> simp only [↓filed_ite, ite_self, implies_true, ↓filed_foldl, keepsFiled_next, ↓filed_count, ↓filed_darken, ↓filed_parityError]

theorem filed_execUcieLaneRepair (link : BitVec 3) (s : State) : KeepsFiled s (execUcieLaneRepair link s) := by
  simp only [execUcieLaneRepair, ↓filed_ite, ite_self, keepsFiled_next, ↓filed_spareUsed, ↓filed_noSpare]

theorem filed_execClockGeneratorLockLoss (die : BitVec 3) (s : State) : KeepsFiled s (execClockGeneratorLockLoss die s) := by
  simp only [execClockGeneratorLockLoss, ↓filed_ite, ite_self, keepsFiled_next, ↓filed_failUnit, ↓filed_replaceUnit, ↓filed_spareUsed,
    ↓filed_noSpare]

/-! ### Scrub -/

theorem filed_scrubCorrect (s : State) (site : ScrubSite) : (s.scrubCorrect site).filed = s.filed := by
  unfold State.scrubCorrect
  split <;> simp only [↓filed_ite, ite_self, ↓filed_count, ↓filed_modPower, ↓filed_markHbm]

theorem filed_allocBroken (s : State) (die rec_ : Nat) : (s.allocBroken die rec_).filed = s.filed := by
  unfold State.allocBroken
  simp only
  split <;> simp only [↓filed_mk, ↓filed_report, ↓filed_chanCause]

theorem filed_ruleBroken (s : State) (half t i : Nat) : (s.ruleBroken half t i).filed = s.filed := by
  unfold State.ruleBroken
  split <;> simp only [↓filed_report, ↓filed_setRule]

theorem filed_cellsBroken (s : State) (half q frame : Nat) : (s.cellsBroken half q frame).filed = s.filed := by
  simp only [State.cellsBroken, ↓filed_ite, ite_self, ↓filed_report, ↓filed_setQueue, ↓filed_settle]

theorem filed_dropWay (s : State) (half name : Nat) : (s.dropWay half name).filed = s.filed := by
  simp only [State.dropWay, implies_true, ↓filed_foldl, ↓filed_modFwd, ↓filed_dropVersion, ↓filed_modStore]

theorem filed_poolBroken (s : State) (half : Nat) (m : PoolMem) : (s.poolBroken half m).filed = s.filed := by
  unfold State.poolBroken
  repeat' split
  all_goals simp only [↓filed_ite, ↓filed_mk, ite_self, ↓filed_report, ↓filed_dropWay]

theorem filed_deepBroken (s : State) (half page : Nat) : (s.deepBroken half page).filed = s.filed := by
  unfold State.deepBroken
  simp only [↓filed_raise, ↓filed_retirePage]
  split <;> simp only [↓filed_countBy, ↓filed_setQueue, ↓filed_settle]

theorem filed_hbmBroken (s : State) (half page : Nat) (x3 : HbmUse) : (s.hbmBroken half page x3).filed = s.filed := by
  unfold State.hbmBroken
  repeat' split
  all_goals simp only [↓filed_mk, ↓filed_hbmError, ↓filed_binLost, ↓filed_deepBroken]

theorem filed_scrubLose (s : State) (site : ScrubSite) : (s.scrubLose site).filed = s.filed := by
  unfold State.scrubLose
  split <;> simp only [↓filed_ite, ↓filed_mk, ite_self, ↓filed_report, ↓filed_modFwd, ↓filed_modStore, ↓filed_setNode, ↓filed_setPolicer,
    ↓filed_alarm, ↓filed_scrubCorrect, ↓filed_allocBroken, ↓filed_ruleBroken, ↓filed_cellsBroken, ↓filed_poolBroken, ↓filed_hbmBroken]

theorem filed_execScrubPatrol (site : ScrubSite) (uncorrectable : Bool) (s : State) :
    KeepsFiled s (execScrubPatrol site uncorrectable s) := by
  simp only [execScrubPatrol, ↓filed_ite, ite_self, implies_true, keepsFiled_next, ↓filed_rationed, ↓filed_scrubCorrect, ↓filed_scrubLose]

/-! ### CastOn -/

theorem filed_packageReset (s : State) (last : Nat) : (s.packageReset last).filed = State.reset.filed := by
  unfold State.packageReset
  extract_lets inputs r
  exact (filed_setFld ..).trans ((filed_setFld ..).trans ((filed_setFlag ..).trans (filed_of rfl rfl)))

theorem filed_allDark (s : State) : s.allDark.filed = s.filed := by
  simp only [State.allDark, implies_true, ↓filed_foldl, ↓filed_darken]

theorem filed_execResetFall (short : Option (BitVec 11)) (s : State) : KeepsFiled s (execResetFall short s) := by
  unfold execResetFall
  split <;> simp only [↓filed_ite, ite_self, keepsFiled_next, ↓filed_drive, ↓filed_modPower, ↓filed_allDark]

theorem filed_bootFrom (s : State) (devnum : BitVec 10) (senior : Bool) : (s.bootFrom devnum senior).filed = s.filed := by
  simp only [State.bootFrom, ↓filed_setFld, ↓filed_drive]

theorem filed_execCastOnStart (devnum : BitVec 10) (senior : Bool) (s : State) : KeepsFiled s (execCastOnStart devnum senior s) := by
  simp only [execCastOnStart, ↓filed_ite, ↓filed_mk, ite_self, keepsFiled_next, ↓filed_drive, ↓filed_bootFrom]

theorem filed_castOnHalt (s : State) (cause : Nat) : (s.castOnHalt cause).filed = s.filed := by
  simp only [State.castOnHalt, ↓filed_setFld, ↓filed_setFlag]

theorem filed_castOnStage (s : State) (n : Nat) : (s.castOnStage n).filed = s.filed := by
  simp only [State.castOnStage, ↓filed_setFld]

theorem filed_domainsOn (s : State) : s.domainsOn.filed = s.filed := by
  simp only [State.domainsOn, ↓filed_ite, ite_self, implies_true, ↓filed_foldl, ↓filed_setDomain]

theorem filed_clockUp (s : State) (upl0 upl1 : Bool) (pon : BitVec 4)
    (tnd pcie : Bool) : (s.clockUp upl0 upl1 pon tnd pcie).filed = s.filed := by
  simp only [State.clockUp, ↓filed_ite, ↓filed_mk, ite_self, implies_true, ↓filed_foldl, ↓filed_setFld, ↓filed_drive, ↓filed_castOnHalt,
    ↓filed_castOnStage, ↓filed_domainsOn]

theorem filed_linksUp (s : State) (down spares : List (BitVec 3)) : (s.linksUp down spares).filed = s.filed := by
  simp only [State.linksUp, ↓filed_ite, ↓filed_mk, ite_self, implies_true, ↓filed_foldl, ↓filed_report, ↓filed_spareUsed,
    ↓filed_castOnStage]

theorem filed_pcUntrained (s : State) (half pc : Nat) : (s.pcUntrained half pc).filed = s.filed := by
  unfold State.pcUntrained
  simp only
  split <;> simp only [↓filed_setFld, ↓filed_setFlag, ↓filed_report, ↓filed_failUnit, ↓filed_spareUsed]

theorem filed_sramUnit (s : State) (u : ParityUnit) : (s.sramUnit u).filed = s.filed := by
  unfold State.sramUnit
  split <;> simp only [↓filed_ite, ite_self, ↓filed_report, ↓filed_failUnit]

theorem filed_selfTested (s : State) (failed : List (BitVec 3 × BitVec 7))
    (shared idOk : Bool) : (s.selfTested failed shared idOk).filed = s.filed := by
  simp only [State.selfTested, ↓filed_ite, ite_self, implies_true, ↓filed_foldl, ↓filed_setFlag, ↓filed_report, ↓filed_modCipher,
    ↓filed_testDie]

theorem filed_execCastOnStageDone (stage : StageEnd) (ms : BitVec 16) (s : State) : KeepsFiled s (execCastOnStageDone stage ms s) := by
  unfold execCastOnStageDone
  split <;> simp only [↓filed_ite, ite_self, implies_true, ↓filed_foldl, keepsFiled_next, ↓filed_setFld, ↓filed_modPower,
    ↓filed_castOnHalt, ↓filed_castOnStage, ↓filed_clockUp, ↓filed_linksUp, ↓filed_pcUntrained, ↓filed_sramUnit, ↓filed_selfTested]

theorem filed_execCastOnDone (ms : BitVec 16) (s : State) : KeepsFiled s (execCastOnDone ms s) := by
  simp only [execCastOnDone, ↓filed_ite, ite_self, implies_true, ↓filed_foldl, keepsFiled_next, ↓filed_setFld, ↓filed_setFlag,
    ↓filed_raise, ↓filed_castOnStage]

theorem filed_resetPath (s : State) (p : Path) : (s.resetPath p).filed = s.filed := by
  unfold State.resetPath
  split <;> simp only [↓filed_mk, implies_true, ↓filed_foldl, ↓filed_setFld, ↓filed_setFlag, ↓filed_losePath, ↓filed_clearCopies,
    ↓filed_dropClaims]

theorem filed_execFunctionLevelReset (s : State) : KeepsFiled s (execFunctionLevelReset s) := by
  simp only [execFunctionLevelReset, keepsFiled_next, ↓filed_resetPath]

theorem filed_execI3cTargetReset (s : State) : KeepsFiled s (execI3cTargetReset s) := by
  simp only [execI3cTargetReset, keepsFiled_next, ↓filed_resetPath]

theorem filed_execSysReset (h : Hdr) (kind : Word) (s : State) : KeepsFiled s (execSysReset h kind s) := by
  simp only [execSysReset, ↓filed_ite, ite_self, implies_true, st_ite, st_fail, st_accepted, keepsFiled_next, ↓filed_answer,
    ↓filed_command, ↓filed_modPower, ↓filed_resetPath]

/-! ### Dispatching -/

theorem filed_serveReport (s : State) (x1 : SeqReport) : (s.serveReport x1).filed = s.filed := by
  unfold State.serveReport
  split <;> simp only [↓filed_stageServed, ↓filed_snServed, ↓filed_rangingServed, ↓filed_registrationServed, ↓filed_recordRx,
    ↓filed_keyServed]

theorem filed_execSeqDispatch (q : BitVec 5) (entry : Option (BitVec 17)) (s : State) : KeepsFiled s (execSeqDispatch q entry s) := by
  unfold execSeqDispatch
  simp only [↓filed_ite, keepsFiled_next, ↓filed_setSeqState]
  repeat' split
  all_goals simp only [↓filed_mk, ↓filed_start, ↓filed_setSeq, ↓filed_setSeqState, ↓filed_setCtx, ↓filed_serveReport]

theorem filed_execSeqHandover (q : BitVec 5) (s : State) : KeepsFiled s (execSeqHandover q s) := by
  simp only [execSeqHandover, ↓filed_ite, ite_self, implies_true, ↓filed_foldl, keepsFiled_next, ↓filed_setFld, ↓filed_report,
    ↓filed_clearCopies, ↓filed_failUnit, ↓filed_spareUsed, ↓filed_noSpare, ↓filed_endBringIn, ↓filed_setSeq, ↓filed_setSeqState,
    ↓filed_passWork]

theorem filed_resumeSeqs (s : State) : s.resumeSeqs.filed = s.filed := by
  simp only [State.resumeSeqs, ↓filed_ite, ite_self, implies_true, ↓filed_foldl, ↓filed_setSeqState]

theorem filed_execDarnSwap (s : State) : KeepsFiled s (execDarnSwap s) := by
  unfold execDarnSwap
  split <;> simp only [↓filed_mk, ite_self, implies_true, ↓filed_foldl, keepsFiled_next, keepsFiled_ite, ↓filed_setReg, ↓filed_setFld,
    ↓filed_answer, ↓filed_resumeSeqs]

theorem filed_execDarnHoldTimeout (s : State) : KeepsFiled s (execDarnHoldTimeout s) := by
  unfold execDarnHoldTimeout
  split <;> simp only [↓filed_mk, ite_self, keepsFiled_next, keepsFiled_ite, ↓filed_report, ↓filed_answer, ↓filed_resumeSeqs]

/-! ### Jumps -/

theorem filed_fire (s : State) (x : OneShot) : (s.fire x).filed = s.filed := by
  unfold State.fire
  repeat' split
  all_goals simp only [↓filed_mk, ↓filed_pulsePin, ↓filed_launchTree, ↓filed_driveReset, ↓filed_driveRssi, ↓filed_startList,
    ↓filed_syncEgress, ↓filed_depart, ↓filed_unhold, ↓filed_launchSnapshot]

theorem filed_firePassed (s was : State) (moved : Nat → Bool) : (s.firePassed was moved).filed = s.filed := by
  simp only [State.firePassed, ↓filed_ite, ite_self, implies_true, ↓filed_foldl, ↓filed_syncEgress, ↓filed_fire]

theorem filed_jumped (s was : State) : (s.jumped was).filed = s.filed := by
  simp only [State.jumped, ↓filed_mk, ↓filed_periodJump, ↓filed_pmJump, ↓filed_pinsJump, ↓filed_landWrites, ↓filed_firePassed]

theorem filed_applyAction (s : State) (a : Action) : (s.applyAction a).filed = s.filed := by
  simp only [State.applyAction, ↓filed_ite, ↓filed_mk, ite_self, ↓filed_setFlag, ↓filed_latchFlag, ↓filed_report, ↓filed_moveTime,
    ↓filed_incrReject, ↓filed_writeIncr, ↓filed_jumped]

theorem filed_execActionApply (s : State) : KeepsFiled s (execActionApply s) := by
  unfold execActionApply
  split <;> simp only [↓filed_ite, ite_self, keepsFiled_next, ↓filed_applyAction]

theorem filed_replicaJumped (s was : State) (die : Nat) : (s.replicaJumped was die).filed = s.filed := by
  simp only [State.replicaJumped, ↓filed_mk, ↓filed_firePassed]

theorem filed_execReplicaSync (die : BitVec 3) (drift : BitVec 32) (s : State) : KeepsFiled s (execReplicaSync die drift s) := by
  simp only [execReplicaSync, ↓filed_ite, ↓filed_mk, ite_self, keepsFiled_next, keepsFiled_ite, ↓filed_latchFlag, ↓filed_report,
    ↓filed_replicaJumped]

/-! ### Registers -/

theorem filed_readAccess (s : State) (a : RegAccess) : (s.readAccess a).1.filed = s.filed := by
  unfold State.readAccess
  simp only [↓filed_ite, fst_ite]
  repeat' split
  all_goals simp only [↓filed_mk, ↓filed_accError]

theorem filed_keepsField (s : State) (die : Nat) : (s.keepsField die).filed = s.filed := by
  simp only [State.keepsField, ↓filed_report]

theorem filed_writeRation (s : State) (p : APath) (i : Nat) (data : Word) : (s.writeRation p i data).filed = s.filed := by
  simp only [State.writeRation, ↓filed_ite, ite_self, ↓filed_setReg, ↓filed_report, ↓filed_meet]

theorem filed_writePin (s : State) (p : APath) (r : Reg) (i : Nat) (data : Word) : (s.writePin p r i data).filed = s.filed := by
  simp only [State.writePin, ↓filed_ite, ite_self, ↓filed_setReg, ↓filed_meet, ↓filed_pinWritten]

theorem filed_writeLaneCtl (s : State) (p : APath) (die : Nat) (r : Reg) (i : Nat)
    (data : Word) : (s.writeLaneCtl p die r i data).filed = s.filed := by
  simp only [State.writeLaneCtl, ↓filed_ite, ↓filed_mk, ite_self, implies_true, ↓filed_foldl, ↓filed_setReg, ↓filed_meet,
    ↓filed_laneTurn, ↓filed_bringUp, ↓filed_writePrbs]

theorem filed_writeChannel (s : State) (p : APath) (die c : Nat) (data : Word) : (s.writeChannel p die c data).filed = s.filed := by
  simp only [State.writeChannel, ↓filed_ite, ite_self, ↓filed_setReg, ↓filed_meet, ↓filed_setEnable, ↓filed_keepsField]

theorem filed_writeGrid (s : State) (p : APath) (die t : Nat) (data : Word) : (s.writeGrid p die t data).filed = s.filed := by
  simp only [State.writeGrid, ↓filed_ite, ite_self, ↓filed_writeReg]

theorem filed_writePattern (s : State) (p : APath) (die : Nat) (r : Reg) (i : Nat)
    (data : Word) : (s.writePattern p die r i data).filed = s.filed := by
  simp only [State.writePattern, ↓filed_ite, ite_self, ↓filed_setReg, ↓filed_report, ↓filed_meet]

theorem filed_actReject (s : State) (die inst : Nat) : (s.actReject die inst).filed = s.filed := by
  simp only [State.actReject, ↓filed_report]

theorem filed_writeReach (s : State) (p : APath) (die t : Nat) (data : Word) : (s.writeReach p die t data).filed = s.filed := by
  simp only [State.writeReach, ↓filed_ite, ite_self, ↓filed_setReg, ↓filed_meet, ↓filed_keepsField, ↓filed_actReject]

theorem filed_writeOnuId (s : State) (p : APath) (die i : Nat) (data : Word) : (s.writeOnuId p die i data).filed = s.filed := by
  simp only [State.writeOnuId, ↓filed_ite, ite_self, ↓filed_setReg, ↓filed_meet, ↓filed_setIdent, ↓filed_protectedWrite, ↓filed_actReject]

theorem filed_writeSkein (s : State) (p : APath) (die k : Nat) (data : Word) : (s.writeSkein p die k data).filed = s.filed := by
  simp only [State.writeSkein, ↓filed_ite, ite_self, ↓filed_writeReg]

theorem filed_writeTableCfg (s : State) (p : APath) (half i : Nat) (data : Word) : (s.writeTableCfg p half i data).filed = s.filed := by
  simp only [State.writeTableCfg, ↓filed_ite, ite_self, ↓filed_meet, ↓filed_setTable, ↓filed_entReject]

theorem filed_writeKeyField (s : State) (p : APath) (half i : Nat) (data : Word) : (s.writeKeyField p half i data).filed = s.filed := by
  simp only [State.writeKeyField, ↓filed_ite, ite_self, ↓filed_setReg, ↓filed_meet, ↓filed_keepsField]

theorem filed_writeHeader (s : State) (p : APath) (half i : Nat) (data : Word) : (s.writeHeader p half i data).filed = s.filed := by
  simp only [State.writeHeader, ↓filed_ite, ite_self, ↓filed_writeReg]

theorem filed_writeSeedReg (s : State) (p : APath) (half : Nat) (data : Word) : (s.writeSeedReg p half data).filed = s.filed := by
  simp only [State.writeSeedReg, ↓filed_ite, ite_self, ↓filed_unclaimedWrite, ↓filed_writeSeed]

theorem filed_writePair (s : State) (p : APath) (half : Nat) (r : Reg) (i : Nat) (strict : Bool)
    (data : Word) : (s.writePair p half r i strict data).filed = s.filed := by
  simp only [State.writePair, ↓filed_ite, ite_self, ↓filed_setReg, ↓filed_meet, ↓filed_settleAll, ↓filed_keepsField]

theorem filed_schReject (s : State) (half n : Nat) : (s.schReject half n).filed = s.filed := by
  simp only [State.schReject, ↓filed_report]

theorem filed_nodeWord (s : State) (half n : Nat) (r : Reg) (i : Nat) (w : Word) : (s.nodeWord half n r i w).filed = s.filed := by
  simp only [State.nodeWord, ↓filed_ite, ite_self, ↓filed_setReg, ↓filed_setNode, ↓filed_rewrittenNode, ↓filed_refillNode,
    ↓filed_syncHalf]

theorem filed_writeNode (s : State) (p : APath) (half n : Nat) (r : Reg) (i : Nat)
    (data : Word) : (s.writeNode p half n r i data).filed = s.filed := by
  unfold State.writeNode
  simp only [↓filed_ite, ↓filed_meet]
  repeat' split
  all_goals simp only [↓filed_meet, ↓filed_setQueue, ↓filed_schReject, ↓filed_nodeWord]

theorem filed_writePolicer (s : State) (p : APath) (half : Nat) (r : Reg) (i : Nat)
    (data : Word) : (s.writePolicer p half r i data).filed = s.filed := by
  simp only [State.writePolicer, ↓filed_ite, ite_self, ↓filed_writeReg, ↓filed_rewrittenPolicer]

theorem filed_writeNdsel (s : State) (p : APath) (die i : Nat) (data : Word) : (s.writeNdsel p die i data).filed = s.filed := by
  simp only [State.writeNdsel, ↓filed_ite, ite_self, ↓filed_setReg, ↓filed_meet, ↓filed_keepsField]

theorem filed_writeGateTime (s : State) (p : APath) (half : Nat) (r : Reg) (i : Nat)
    (data : Word) : (s.writeGateTime p half r i data).filed = s.filed := by
  simp only [State.writeGateTime, ↓filed_ite, ite_self, ↓filed_writeReg, ↓filed_gtReject]

theorem filed_writeEntry (s : State) (p : APath) (half : Nat) (r : Reg) (i : Nat)
    (data : Word) : (s.writeEntry p half r i data).filed = s.filed := by
  simp only [State.writeEntry, ↓filed_ite, ite_self, ↓filed_writeReg, ↓filed_gtReject]

theorem filed_writeSecCfg (s : State) (p : APath) (data : Word) : (s.writeSecCfg p data).filed = s.filed := by
  simp only [State.writeSecCfg, ↓filed_ite, ite_self, ↓filed_setReg, ↓filed_meet, ↓filed_notApproved]

theorem filed_writePairCfg (s : State) (p : APath) (data : Word) : (s.writePairCfg p data).filed = s.filed := by
  simp only [State.writePairCfg, ↓filed_ite, ite_self, ↓filed_modTandem, ↓filed_writeReg, ↓filed_sendPair, ↓filed_autoSeek]

theorem filed_writePairTree (s : State) (p : APath) (t : Nat) (data : Word) : (s.writePairTree p t data).filed = s.filed := by
  simp only [State.writePairTree, ↓filed_ite, ite_self, ↓filed_writeReg]

theorem filed_writeRingBase (s : State) (p : APath) (r : Reg) (i : Nat) (data : Word) : (s.writeRingBase p r i data).filed = s.filed := by
  simp only [State.writeRingBase, ↓filed_ite, ite_self, ↓filed_writeReg, ↓filed_ringReject]

theorem filed_writeInst (s : State) (p : APath) (die : Nat) (r : Reg) (i idx : Nat)
    (data : Word) : (s.writeInst p die r i idx data).filed = s.filed := by
  unfold State.writeInst
  split <;> simp only [implies_true, ↓filed_writeReg, ↓filed_latchTime, ↓filed_writeTbIncr, ↓filed_writeTbActCtl, ↓filed_popCapture,
    ↓filed_writeTbWdog, ↓filed_writeLnuMode, ↓filed_stageReg, ↓filed_commitAlloc, ↓filed_writeProfile, ↓filed_commitTrib,
    ↓filed_writeRulEnt, ↓filed_writeRulCommit, ↓filed_writeAccess, ↓filed_commitEdit, ↓filed_writeListCtl, ↓filed_writeOwner,
    ↓filed_writeRingPtr, ↓filed_writeRingCfg, ↓filed_writeMask, ↓filed_clearStat, ↓filed_writeRingRd, ↓filed_gaugeConfigure,
    ↓filed_clearOvf, ↓filed_writeRation, ↓filed_writePin, ↓filed_writeLaneCtl, ↓filed_writeChannel, ↓filed_writeGrid,
    ↓filed_writePattern, ↓filed_writeReach, ↓filed_writeOnuId, ↓filed_writeSkein, ↓filed_writeTableCfg, ↓filed_writeKeyField,
    ↓filed_writeHeader, ↓filed_writeSeedReg, ↓filed_writePair, ↓filed_writeNode, ↓filed_writePolicer, ↓filed_writeNdsel,
    ↓filed_writeGateTime, ↓filed_writeEntry, ↓filed_writeSecCfg, ↓filed_writePairCfg, ↓filed_writePairTree, ↓filed_writeRingBase]

theorem filed_stageHi (s : State) (p : APath) (die : Nat) (r : Reg) (i idx : Nat)
    (data : Word) : (s.stageHi p die r i idx data).filed = s.filed := by
  simp only [State.stageHi, ↓filed_ite, ↓filed_mk, ite_self, ↓filed_meet]

theorem filed_commitHi (s : State) (p : APath) (die : Nat) (r : Reg) (i idx : Nat) : (s.commitHi p die r i idx).filed = s.filed := by
  unfold State.commitHi
  repeat' split
  all_goals simp only [↓filed_mk, ↓filed_writeInst]

theorem filed_noteBefore (s was : State) (p : APath) (die : Nat) (r : Reg)
    (i idx : Nat) : (s.noteBefore was p die r i idx).filed = s.filed := (rfl)

theorem filed_landWord (s : State) (p : APath) (die : Nat) (r : Reg) (i idx : Nat)
    (data : Word) : (s.landWord p die r i idx data).filed = s.filed := by
  simp only [State.landWord, ↓filed_ite, ite_self, ↓filed_writeInst, ↓filed_stageHi, ↓filed_commitHi, ↓filed_noteBefore]

theorem filed_writeAccessTo (s : State) (a : RegAccess) : (s.writeAccessTo a).filed = s.filed := by
  unfold State.writeAccessTo
  simp only [↓filed_ite]
  repeat' split
  all_goals simp only [↓filed_count, ↓filed_accError, ↓filed_protectedWrite, ↓filed_landWord]

theorem filed_execRegisterWrite (a : RegAccess) (s : State) : KeepsFiled s (execRegisterWrite a s) := by
  simp only [execRegisterWrite, keepsFiled_next, ↓filed_writeAccessTo]

theorem filed_execHiLoReadLatch (a : RegAccess) (s : State) : KeepsFiled s (execHiLoReadLatch a s) := by
  simp only [execHiLoReadLatch, keepsFiled_next, ↓filed_send, ↓filed_readAccess]

theorem filed_execHiLoWriteCommit (a : RegAccess) (s : State) : KeepsFiled s (execHiLoWriteCommit a s) := by
  simp only [execHiLoWriteCommit, keepsFiled_next, ↓filed_writeAccessTo]

theorem filed_execI3cRegisterWrite (bytes : List Byte) (reg : Option Reg) (idx : Nat)
    (s : State) : KeepsFiled s (execI3cRegisterWrite bytes reg idx s) := by
  unfold execI3cRegisterWrite
  repeat' split
  all_goals simp only [keepsFiled_next, ↓filed_accError, ↓filed_writeAccessTo]

theorem filed_execI3cRegisterReadArm (bytes : List Byte) (reg : Option Reg) (idx : Nat)
    (s : State) : KeepsFiled s (execI3cRegisterReadArm bytes reg idx s) := by
  unfold execI3cRegisterReadArm
  repeat' split
  all_goals simp only [↓filed_mk, keepsFiled_next, ↓filed_accError, ↓filed_readAccess]

theorem filed_execStRdreg (q : BitVec 5) (d a : BitVec 4) (offset : BitVec 18) (reg : Option Reg) (idx : Nat)
    (s : State) : KeepsFiled s (execStRdreg q d a offset reg idx s) := by
  simp only [execStRdreg, implies_true, keepsFiled_next, ↓filed_stitch, ↓filed_stitchRow, ↓filed_readAccess]

theorem filed_execStWrreg (q : BitVec 5) (d a : BitVec 4) (offset : BitVec 18) (reg : Option Reg) (idx : Nat)
    (s : State) : KeepsFiled s (execStWrreg q d a offset reg idx s) := by
  simp only [execStWrreg, implies_true, keepsFiled_next, ↓filed_stitch, ↓filed_stitchRow, ↓filed_writeAccessTo]

/-! ### Upstream -/

theorem filed_setRsm (s : State) (key : Nat) (x : Option RsmCtx) : (s.setRsm key x).filed = s.filed := (rfl)

theorem filed_raiseAt (s : State) (r : RxAt) (e : Ev) (inst : Nat) : (s.raiseAt r e inst).filed = s.filed := by
  simp only [State.raiseAt, ↓filed_raiseOnceIn]

theorem filed_onuLoss (s : State) (o : Nat) : (s.onuLoss o).filed = s.filed := by
  simp only [State.onuLoss, ↓filed_ite, ↓filed_mk, ite_self, ↓filed_modOnu]

theorem filed_sduGone (s : State) (c o : Nat) (k : Ctr) (e : Option Ev) : (s.sduGone c o k e).filed = s.filed := by
  unfold State.sduGone
  split <;> simp only [↓filed_raise, ↓filed_pmAdd, ↓filed_count]

theorem filed_sduDone (s : State) (c o port len taint : Nat) (lead : List Byte)
    (h : XgemHead) : (s.sduDone c o port len taint lead h).filed = s.filed := by
  unfold State.sduDone
  simp only [↓filed_ite, ↓filed_sduGone]
  repeat' split
  all_goals simp only [↓filed_cipherItem, ↓filed_deliverSdu, ↓filed_skeinRx, ↓filed_containerRx, ↓filed_sduGone]

theorem filed_clearLead (s : State) (r : RxAt) (h : XgemHead) : (s.clearLead r h).1.filed = s.filed := by
  simp only [State.clearLead, ↓filed_ite, ite_self, fst_ite, ↓filed_cipherItem]

theorem filed_fragment (s : State) (r : RxAt) (port : Nat) (h : XgemHead) : (s.fragment r port h).filed = s.filed := by
  unfold State.fragment
  simp only
  repeat' split
  all_goals simp only [↓filed_count, ↓filed_flushPort, ↓filed_setRsm, ↓filed_onuLoss, ↓filed_sduGone, ↓filed_sduDone, ↓filed_clearLead]

theorem filed_restingTraffic (s : State) (t : Nat) : (s.restingTraffic t).filed = s.filed := by
  simp only [State.restingTraffic, ↓filed_raiseOnceIn, ↓filed_count]

theorem filed_xgemRx (s : State) (r : RxAt) (h : XgemHead) : (s.xgemRx r h).filed = s.filed := by
  simp only [State.xgemRx, ↓filed_ite, ite_self, ↓filed_pmAdd, ↓filed_count, ↓filed_raiseAt, ↓filed_onuLoss, ↓filed_fragment,
    ↓filed_restingTraffic]

theorem filed_dlnEvent (s : State) (r : RxAt) (e : DlnEv) : (s.dlnEvent r e).filed = s.filed := by
  unfold State.dlnEvent
  split <;> simp only [↓filed_pmAdd, ↓filed_count, ↓filed_report, ↓filed_onuLoss, ↓filed_xgemRx]

theorem filed_codewordRx (s : State) (r : RxAt) (w : Option (BitVec 15)) : (s.codewordRx r w).filed = s.filed := by
  unfold State.codewordRx
  split <;> simp only [↓filed_ite, ite_self, ↓filed_pmAdd, ↓filed_countBy, ↓filed_count, ↓filed_raiseAt]

theorem filed_ploamuRx (s : State) (r : RxAt) (a : BurstAlloc) (lost : Bool) : (s.ploamuRx r a lost).filed = s.filed := by
  simp only [State.ploamuRx, ↓filed_ite, ite_self, ↓filed_report, ↓filed_cipherItem, ↓filed_wake, ↓filed_restingTraffic]

theorem filed_rptMiss (s : State) (c n : Nat) : (s.rptMiss c n).filed = s.filed := by
  simp only [State.rptMiss, ↓filed_countBy]

theorem filed_dbruRx (s : State) (r : RxAt) (key : Option Nat) (a : BurstAlloc) (lost : Bool) :
    (s.dbruRx r key a lost).filed = s.filed := by
  unfold State.dbruRx
  repeat' split
  all_goals simp only [↓filed_count, ↓filed_decoded, ↓filed_raiseAt, ↓filed_rptMiss]

theorem filed_cadContext (s : State) (r : RxAt) (m : AllocStruct) (len : Nat) (heads : List XgemHead)
    (lost : List (Nat × Nat)) : (s.cadContext r m len heads lost).1.filed = s.filed := by
  unfold State.cadContext
  split <;> simp only [↓filed_ite, ite_self, implies_true, fst_ite, ↓filed_foldl, ↓filed_countBy, ↓filed_report]

theorem filed_allocRx (s : State) (r : RxAt) (bpq pos : Nat) (last : Bool) (m : AllocStruct) (a : BurstAlloc) (rs : List (Nat × Nat)) :
    (s.allocRx r bpq pos last m a rs).filed = s.filed := by
  unfold State.allocRx
  extract_lets +onlyGivenNames c p d len at_ key mode lost out t u v
  clear_value key mode lost out
  have ht : t.filed = s.filed := by simp only [t, ↓filed_ite, ↓filed_ploamuRx, ite_self]
  have hu : u.filed = t.filed := by
    simp only [u]
    split
    · simp only [↓filed_ite, ↓filed_decoded, ite_self]
    · rfl
  have hv : v.filed = u.filed := by simp only [v, ↓filed_ite, ↓filed_dbruRx, ite_self]
  have hw := filed_cadContext v r m len a.heads lost
  split
  next w gone hcad =>
  rw [hcad] at hw
  refine (filed_foldl (fun x e => ?_) out _).trans (hw.trans (hv.trans (hu.trans ht)))
  split
  · simp only [↓filed_ite, ↓filed_onuLoss, ↓filed_dlnEvent, ite_self]
  · exact filed_dlnEvent ..

theorem filed_allocsRx (s : State) (r : RxAt) (bpq pos : Nat) (rs : List (Nat × Nat)) (ms : List AllocStruct) (as : List BurstAlloc) :
    (s.allocsRx r bpq pos rs ms as).filed = s.filed := by
  induction ms generalizing s pos as with
  | nil => rfl
  | cons m ms ih => simp only [State.allocsRx, ih, ↓filed_allocRx]

theorem filed_pmBurst (s : State) (c o : Nat) (bad : Bool) : (s.pmBurst c o bad).filed = s.filed := by
  simp only [State.pmBurst, ↓filed_pmBlocks]

theorem filed_burstLost (s : State) (r : RxAt) (e : Expect) (missed : Bool) : (s.burstLost r e missed).filed = s.filed := by
  unfold State.burstLost
  simp only [↓filed_ite, ite_self, ↓filed_pmAdd, ↓filed_pmBlocks, ↓filed_modTndTree, ↓filed_modTndChan, ↓filed_onuLoss, ↓filed_rptMiss,
    ↓filed_pmBurst]
  repeat' split
  all_goals simp only [↓filed_pmAdd, ↓filed_pmDefect, ↓filed_report, ↓filed_modTndTree, ↓filed_modTndChan, ↓filed_modOnu, ↓filed_onuLoss,
    ↓filed_rptMiss, ↓filed_pmBurst]

theorem filed_fenceLate (s : State) (r : RxAt) (e : Expect) : (s.fenceLate r e).filed = s.filed := by
  simp only [State.fenceLate, ↓filed_report, ↓filed_onuLoss, ↓filed_rptMiss]

theorem filed_memberDrift (s : State) (r : RxAt) (rate : Nat) (d : Int) (onuId : Nat) :
    (s.memberDrift r rate d onuId).filed = s.filed := by
  unfold State.memberDrift
  simp only
  repeat' split
  all_goals simp only [↓filed_mk, ↓filed_pmAdd, ↓filed_count, ↓filed_sendEqd]

theorem filed_driftFix (s : State) (r : RxAt) (rate : Nat) (d : Int) : (s.driftFix r rate d).filed = s.filed := by
  unfold State.driftFix
  split <;> simp only [↓filed_ite, ite_self, ↓filed_pmAdd, ↓filed_count, ↓filed_modOnu, ↓filed_sendEqd, ↓filed_memberDrift]

theorem filed_offsetRx (s : State) (r : RxAt) (rate win : Nat) (old : Option Int)
    (d : Int) : (s.offsetRx r rate win old d).filed = s.filed := by
  simp only [State.offsetRx, ↓filed_ite, ite_self, ↓filed_setFld, ↓filed_count, ↓filed_modTandem, ↓filed_modTndTree, ↓filed_modOnu,
    ↓filed_raiseAt, ↓filed_driftFix]

theorem filed_burstSeen (s : State) (c o : Nat) (d : Int) : (s.burstSeen c o d).filed = s.filed := by
  simp only [State.burstSeen, ↓filed_ite, ite_self, ↓filed_modOnu]

theorem filed_burstBody (s : State) (r : RxAt) (e : Expect) (b : BurstRx) (d : Int) : (s.burstBody r e b d).filed = s.filed := by
  simp only [State.burstBody, ↓filed_ite, ite_self, implies_true, ↓filed_foldl, ↓filed_raise, ↓filed_pmAdd, ↓filed_countBy, ↓filed_count,
    ↓filed_report, ↓filed_modOnu, ↓filed_restingTraffic, ↓filed_codewordRx, ↓filed_allocsRx, ↓filed_pmBurst, ↓filed_burstLost,
    ↓filed_burstSeen]

theorem filed_acquisition (s : State) (c : Nat) (locked : Bool) : (s.acquisition c locked).filed = s.filed := by
  simp only [State.acquisition, ↓filed_ite, ↓filed_mk, ite_self, ↓filed_raise, ↓filed_count]

theorem filed_burstRx (s : State) (r : RxAt) (e : Expect) (b : BurstRx) : (s.burstRx r e b).filed = s.filed := by
  unfold State.burstRx
  simp only [↓filed_ite, ↓filed_count, ↓filed_raiseAt, ↓filed_burstLost]
  repeat' split
  all_goals simp only [↓filed_countBy, ↓filed_count, ↓filed_report, ↓filed_raiseAt, ↓filed_burstLost, ↓filed_fenceLate, ↓filed_offsetRx,
    ↓filed_burstBody, ↓filed_acquisition]

theorem filed_execBurstRx (c : Chan) (index : BitVec 10) (b : BurstRx) (s : State) : KeepsFiled s (execBurstRx c index b s) := by
  unfold execBurstRx
  simp only [keepsFiled_next]
  repeat' split
  all_goals simp only [↓filed_dropExpect, ↓filed_burstRx]

/-! ### Every row, and the step -/

/-- A row leaves the event ring and the dies' queues of records within their bounds where they were. -/
def KeepsBounds (s : State) (o : Host.Outcome State Fault Refusal) : Prop :=
  ∀ t, o = .next t → (s.evRing.length ≤ 4096 → t.evRing.length ≤ 4096) ∧ (QueuesFit s.evQueue → QueuesFit t.evQueue)

theorem keepsBounds_of_filed {s t : State} (h : t.filed = s.filed) : KeepsBounds s (.next t) := by
  obtain ⟨hring, hqueue⟩ := Prod.mk.inj h
  rintro _ ⟨⟩
  exact ⟨fun hs => hring ▸ hs, fun hs => hqueue ▸ hs⟩

theorem KeepsFiled.keepsBounds {s : State} {o : Host.Outcome State Fault Refusal} (h : KeepsFiled s o) : KeepsBounds s o :=
  fun t ho => keepsBounds_of_filed (h t ho) t rfl

/-- A reset empties the ring and the queues. -/
theorem keepsBounds_of_reset {s t : State} (h : t.filed = State.reset.filed) : KeepsBounds s (.next t) := by
  have hreset : State.reset.evRing.length ≤ 4096 ∧ QueuesFit State.reset.evQueue := ⟨Nat.zero_le _, fun _ => Nat.zero_le _⟩
  rintro _ ⟨⟩
  obtain ⟨hring, hqueue⟩ := keepsBounds_of_filed h t rfl
  exact ⟨fun _ => hring hreset.1, fun _ => hqueue hreset.2⟩

theorem keepsBounds_packageReset (devnum : BitVec 10) (senior : Bool) (s : State) : KeepsBounds s (execPackageReset devnum senior s) := by
  unfold execPackageReset
  split
  · split
    · exact keepsBounds_of_reset ((filed_bootFrom ..).trans (filed_packageReset ..))
    · exact keepsBounds_of_filed rfl
  · exact keepsBounds_of_filed rfl

theorem keepsBounds_resetAsserted (s : State) : KeepsBounds s (execResetAsserted s) := by
  unfold execResetAsserted
  split
  · exact keepsBounds_of_filed rfl
  · exact keepsBounds_of_reset (filed_packageReset ..)

/-- R517, R519: a record that enters the ring takes the place of the oldest one there once the ring is full, and leaves its queue. -/
theorem keepsBounds_eventRecordEnter (die : Die) (s : State) : KeepsBounds s (execEventRecordEnter die s) := by
  unfold execEventRecordEnter
  split
  · exact keepsBounds_of_filed rfl
  next r rest hqueue =>
  rintro _ ⟨⟩
  refine ⟨fun hring => ?_, fun hfit d => ?_⟩
  · simp only [setReg_evRing, List.length_append, List.length_cons, List.length_nil]
    split
    · rw [List.length_drop]; omega
    · omega
  · simp only [setReg_evQueue]
    by_cases hd : die.toNat = d
    · subst hd
      have hlen := hfit die.toNat
      rw [hqueue, List.length_cons] at hlen
      rw [Tbl.getD_setD_same]
      omega
    · rw [Tbl.getD_setD_other _ _ _ _ hd]
      exact hfit d

/-- Every row keeps the bounds: all but a reset and the entry of a record keep what is filed. -/
theorem keepsBounds_exec (i : Instr) (s : State) : KeepsBounds s (exec i s) := by
  cases i with
  | eventRecordEnter die => exact keepsBounds_eventRecordEnter die s
  | packageReset devnum senior => exact keepsBounds_packageReset devnum senior s
  | resetAsserted => exact keepsBounds_resetAsserted s
  | railPowerFail => exact keepsBounds_of_reset (filed_packageReset ..)
  | registerWrite a => exact (filed_execRegisterWrite a s).keepsBounds
  | hiLoReadLatch a => exact (filed_execHiLoReadLatch a s).keepsBounds
  | hiLoWriteCommit a => exact (filed_execHiLoWriteCommit a s).keepsBounds
  | i3cRegisterWrite bytes reg idx => exact (filed_execI3cRegisterWrite bytes reg idx s).keepsBounds
  | i3cRegisterReadArm bytes reg idx => exact (filed_execI3cRegisterReadArm bytes reg idx s).keepsBounds
  | ucieLinkDown link => exact (filed_execUcieLinkDown link s).keepsBounds
  | rationPeriodStart => exact (filed_execRationPeriodStart s).keepsBounds
  | rationPeriodForced => exact (filed_execRationPeriodForced s).keepsBounds
  | rationSpent die index => exact (filed_execRationSpent die index s).keepsBounds
  | sysRationSet h index cfg => exact (filed_execSysRationSet h index cfg s).keepsBounds
  | sysRationGet h index => exact (filed_execSysRationGet h index s).keepsBounds
  | timeGet h => exact (filed_execTimeGet h s).keepsBounds
  | timeIncrSet h int frac => exact (filed_execTimeIncrSet h int frac s).keepsBounds
  | timeAction h w => exact (filed_execTimeAction h w s).keepsBounds
  | timeActionCancel h => exact (filed_execTimeActionCancel h s).keepsBounds
  | timeWdogSet h timeout => exact (filed_execTimeWdogSet h timeout s).keepsBounds
  | timePinSet h pin mode pol start period width => exact (filed_execTimePinSet h pin mode pol start period width s).keepsBounds
  | timeCaptureRead h pin count => exact (filed_execTimeCaptureRead h pin count s).keepsBounds
  | timePpsSet h width => exact (filed_execTimePpsSet h width s).keepsBounds
  | timeTodGet h tree sHi sLo => exact (filed_execTimeTodGet h tree sHi sLo s).keepsBounds
  | timeStatus h => exact (filed_execTimeStatus h s).keepsBounds
  | timePtpPortSet h port oneStep twoStep transparent ingAdj egrAdj =>
    exact (filed_execTimePtpPortSet h port oneStep twoStep transparent ingAdj egrAdj s).keepsBounds
  | timeEgressTsRead h port count => exact (filed_execTimeEgressTsRead h port count s).keepsBounds
  | actionApply => exact (filed_execActionApply s).keepsBounds
  | slewEnd => exact (filed_execSlewEnd s).keepsBounds
  | servoWdogExpire => exact (filed_execServoWdogExpire s).keepsBounds
  | replicaSync die drift => exact (filed_execReplicaSync die drift s).keepsBounds
  | tpinPulse pin => exact (filed_execTpinPulse pin s).keepsBounds
  | ppsOutEdge => exact (filed_execPpsOutEdge s).keepsBounds
  | tpinCapture pin before after fine => exact (filed_execTpinCapture pin before after fine s).keepsBounds
  | ppsInCapture rising fine => exact (filed_execPpsInCapture rising fine s).keepsBounds
  | tbLatch p data => exact (filed_execTbLatch p data s).keepsBounds
  | tbIncrCommit p data => exact (filed_execTbIncrCommit p data s).keepsBounds
  | tbActArm p data => exact (filed_execTbActArm p data s).keepsBounds
  | tbActCancel p data => exact (filed_execTbActCancel p data s).keepsBounds
  | tbCapPop p data => exact (filed_execTbCapPop p data s).keepsBounds
  | tbWdogWrite p data => exact (filed_execTbWdogWrite p data s).keepsBounds
  | departureInstant port late => exact (filed_execDepartureInstant port late s).keepsBounds
  | refHoldoverExit which => exact (filed_execRefHoldoverExit which s).keepsBounds
  | lanePower h family index on => exact (filed_execLanePower h family index on s).keepsBounds
  | laneStatus h family index => exact (filed_execLaneStatus h family index s).keepsBounds
  | laneModeSet h octet oct800 quad0 quad1 half50 => exact (filed_execLaneModeSet h octet oct800 quad0 quad1 half50 s).keepsBounds
  | laneIntfSet h port intf an => exact (filed_execLaneIntfSet h port intf an s).keepsBounds
  | laneEqSet h family index pre post gain => exact (filed_execLaneEqSet h family index pre post gain s).keepsBounds
  | laneRetrain h family index => exact (filed_execLaneRetrain h family index s).keepsBounds
  | laneEyeScan h family index dwell => exact (filed_execLaneEyeScan h family index dwell s).keepsBounds
  | eyeScanDone die margins => exact (filed_execEyeScanDone die margins s).keepsBounds
  | lanePrbsSet h family index pattern generator checker =>
    exact (filed_execLanePrbsSet h family index pattern generator checker s).keepsBounds
  | laneCounters h family index => exact (filed_execLaneCounters h family index s).keepsBounds
  | lanePllLock l => exact (filed_execLanePllLock l s).keepsBounds
  | lanePllTimeout l => exact (filed_execLanePllTimeout l s).keepsBounds
  | transmitterStop c => exact (filed_execTransmitterStop c s).keepsBounds
  | laneStageDone l peerIndex peerDev => exact (filed_execLaneStageDone l peerIndex peerDev s).keepsBounds
  | tndStageTimeout l => exact (filed_execTndStageTimeout l s).keepsBounds
  | laneRetryPauseEnd l => exact (filed_execLaneRetryPauseEnd l s).keepsBounds
  | lnuTrainFail l => exact (filed_execLnuTrainFail l s).keepsBounds
  | tndBlockRx l header => exact (filed_execTndBlockRx l header s).keepsBounds
  | tndRelockTimeout l => exact (filed_execTndRelockTimeout l s).keepsBounds
  | lnuLinkDown l => exact (filed_execLnuLinkDown l s).keepsBounds
  | lnuFecWindow l corr uncorr symbols codewords whole =>
    exact (filed_execLnuFecWindow l corr uncorr symbols codewords whole s).keepsBounds
  | hostLinkDown toDetect => exact (filed_execHostLinkDown toDetect s).keepsBounds
  | hostLinkUp width rate => exact (filed_execHostLinkUp width rate s).keepsBounds
  | refclkLoss ref => exact (filed_execRefclkLoss ref s).keepsBounds
  | refclkReturn ref => exact (filed_execRefclkReturn ref s).keepsBounds
  | lnuRetrain p l => exact (filed_execLnuRetrain p l s).keepsBounds
  | lanePowerBitWrite p family index on => exact (filed_execLanePowerBitWrite p family index on s).keepsBounds
  | lnuModeWrite p octet data => exact (filed_execLnuModeWrite p octet data s).keepsBounds
  | treeConfig h tree offset => exact (filed_execTreeConfig h tree offset s).keepsBounds
  | treeChannelSet h chan mode enable maxPli ploamMax => exact (filed_execTreeChannelSet h chan mode enable maxPli ploamMax s).keepsBounds
  | treeLaunch h tree earliest unaligned => exact (filed_execTreeLaunch h tree earliest unaligned s).keepsBounds
  | treeStop h tree => exact (filed_execTreeStop h tree s).keepsBounds
  | treeStatus h tree => exact (filed_execTreeStatus h tree s).keepsBounds
  | treeDlnSet h chan delta alpha => exact (filed_execTreeDlnSet h chan delta alpha s).keepsBounds
  | treeLaunchStart t => exact (filed_execTreeLaunchStart t s).keepsBounds
  | channelStart c => exact (filed_execChannelStart c s).keepsBounds
  | frameStart c => exact (filed_execFrameStart c s).keepsBounds
  | treeStopEffect t => exact (filed_execTreeStopEffect t s).keepsBounds
  | tcSduRx c => exact (filed_execTcSduRx c s).keepsBounds
  | keySwitch t onu => exact (filed_execKeySwitch t onu s).keepsBounds
  | grantChannelSet h chan enable guard admPct ploamIvl =>
    exact (filed_execGrantChannelSet h chan enable guard admPct ploamIvl s).keepsBounds
  | grantTreeSet h tree cutoff coopEn => exact (filed_execGrantTreeSet h tree cutoff coopEn s).keepsBounds
  | grantAllocSet h onu allocId p => exact (filed_execGrantAllocSet h onu allocId p s).keepsBounds
  | grantAllocClear h onu allocId => exact (filed_execGrantAllocClear h onu allocId s).keepsBounds
  | grantAllocGet h onu allocId => exact (filed_execGrantAllocGet h onu allocId s).keepsBounds
  | grantHint h record sHi sLo frames bytes pin => exact (filed_execGrantHint h record sHi sLo frames bytes pin s).keepsBounds
  | grantHintCancel h handle => exact (filed_execGrantHintCancel h handle s).keepsBounds
  | grantCtiSet h ports udp sources pairs => exact (filed_execGrantCtiSet h ports udp sources pairs s).keepsBounds
  | grantRssiArm h onu sHi sLo count => exact (filed_execGrantRssiArm h onu sHi sLo count s).keepsBounds
  | grantMapRead h chan => exact (filed_execGrantMapRead h chan s).keepsBounds
  | grantStatus h chan => exact (filed_execGrantStatus h chan s).keepsBounds
  | grantCutoff t => exact (filed_execGrantCutoff t s).keepsBounds
  | mapComputed t => exact (filed_execMapComputed t s).keepsBounds
  | mapDeadline t => exact (filed_execMapDeadline t s).keepsBounds
  | grantReportRx die index rep => exact (filed_execGrantReportRx die index rep s).keepsBounds
  | ctiReportRx port udp source entity flow start length bytes wellFormed =>
    exact (filed_execCtiReportRx port udp source entity flow start length bytes wellFormed s).keepsBounds
  | brxRstPulse c burst => exact (filed_execBrxRstPulse c burst s).keepsBounds
  | rssiTrigger c burst => exact (filed_execRssiTrigger c burst s).keepsBounds
  | rssiArmExpire c => exact (filed_execRssiArmExpire c s).keepsBounds
  | gntAlcCommit p die data => exact (filed_execGntAlcCommit p die data s).keepsBounds
  | treeProfileSet h chan index p => exact (filed_execTreeProfileSet h chan index p s).keepsBounds
  | treeProfileGet h chan index => exact (filed_execTreeProfileGet h chan index s).keepsBounds
  | treeBrxSet h words => exact (filed_execTreeBrxSet h words s).keepsBounds
  | treeBrxStatus h chan => exact (filed_execTreeBrxStatus h chan s).keepsBounds
  | brxPrfValidWrite p c n data => exact (filed_execBrxPrfValidWrite p c n data s).keepsBounds
  | burstRx c index b => exact (filed_execBurstRx c index b s).keepsBounds
  | rsmDeadlineCheck c => exact (filed_execRsmDeadlineCheck c s).keepsBounds
  | onuProvision h onu tree wl onuId serialHi serialLo regId auto =>
    exact (filed_execOnuProvision h onu tree wl onuId serialHi serialLo regId auto s).keepsBounds
  | onuActivate h onu => exact (filed_execOnuActivate h onu s).keepsBounds
  | onuDeactivate h onu => exact (filed_execOnuDeactivate h onu s).keepsBounds
  | onuRelease h onu => exact (filed_execOnuRelease h onu s).keepsBounds
  | onuDisable h onu tree serialHi serialLo => exact (filed_execOnuDisable h onu tree serialHi serialLo s).keepsBounds
  | onuEnable h onu tree serialHi serialLo => exact (filed_execOnuEnable h onu tree serialHi serialLo s).keepsBounds
  | onuMigrate h onu target sHi sLo => exact (filed_execOnuMigrate h onu target sHi sLo s).keepsBounds
  | onuPortSet h onu port kind dir => exact (filed_execOnuPortSet h onu port kind dir s).keepsBounds
  | onuPortClear h onu port => exact (filed_execOnuPortClear h onu port s).keepsBounds
  | onuRekey h onu => exact (filed_execOnuRekey h onu s).keepsBounds
  | onuStatus h onu => exact (filed_execOnuStatus h onu s).keepsBounds
  | onuIdQuery h tree kind value => exact (filed_execOnuIdQuery h tree kind value s).keepsBounds
  | onuRogueScan h chan onus => exact (filed_execOnuRogueScan h chan onus s).keepsBounds
  | rogueScanStep c => exact (filed_execRogueScanStep c s).keepsBounds
  | treeReachSet h tree minReach maxReach rdr lobThr regTo keyTo lostMs =>
    exact (filed_execTreeReachSet h tree minReach maxReach rdr lobThr regTo keyTo lostMs s).keepsBounds
  | treeSnSet h chan snEn snIvl profile rogueThr => exact (filed_execTreeSnSet h chan snEn snIvl profile rogueThr s).keepsBounds
  | treeDiscoveredRead h tree => exact (filed_execTreeDiscoveredRead h tree s).keepsBounds
  | snWindowBook c => exact (filed_execSnWindowBook c s).keepsBounds
  | snResponseRx c serial arrival good => exact (filed_execSnResponseRx c serial arrival good s).keepsBounds
  | rangingBurstRx onu arrival => exact (filed_execRangingBurstRx onu arrival s).keepsBounds
  | rangingWindowEnd onu => exact (filed_execRangingWindowEnd onu s).keepsBounds
  | registrationReply onu regId => exact (filed_execRegistrationReply onu regId s).keepsBounds
  | registrationTimeout onu => exact (filed_execRegistrationTimeout onu s).keepsBounds
  | keyReply onu wrapped fits => exact (filed_execKeyReply onu wrapped fits s).keepsBounds
  | keyTimeout onu => exact (filed_execKeyTimeout onu s).keepsBounds
  | lostTimeout onu => exact (filed_execLostTimeout onu s).keepsBounds
  | paddockRestEnd t kind value => exact (filed_execPaddockRestEnd t kind value s).keepsBounds
  | migrationFence onu => exact (filed_execMigrationFence onu s).keepsBounds
  | migrationComplete onu => exact (filed_execMigrationComplete onu s).keepsBounds
  | rogueFrameEval c lit => exact (filed_execRogueFrameEval c lit s).keepsBounds
  | skeinForm h tree k members skewMax holdKib => exact (filed_execSkeinForm h tree k members skewMax holdKib s).keepsBounds
  | skeinDissolve h skein => exact (filed_execSkeinDissolve h skein s).keepsBounds
  | skeinOnuJoin h onu skein => exact (filed_execSkeinOnuJoin h onu skein s).keepsBounds
  | skeinJoinDone onu arrivals => exact (filed_execSkeinJoinDone onu arrivals s).keepsBounds
  | skeinOnuLeave h onu => exact (filed_execSkeinOnuLeave h onu s).keepsBounds
  | skeinAllocMember h onu allocId member => exact (filed_execSkeinAllocMember h onu allocId member s).keepsBounds
  | skeinStatus h skein => exact (filed_execSkeinStatus h skein s).keepsBounds
  | skeinTribSet h trib onu port carrier allocIds w => exact (filed_execSkeinTribSet h trib onu port carrier allocIds w s).keepsBounds
  | skeinTribClear h trib => exact (filed_execSkeinTribClear h trib s).keepsBounds
  | skeinTribStatus h trib => exact (filed_execSkeinTribStatus h trib s).keepsBounds
  | skeinDlnSet h trib delta alpha => exact (filed_execSkeinDlnSet h trib delta alpha s).keepsBounds
  | skeinGapExpiry onu => exact (filed_execSkeinGapExpiry onu s).keepsBounds
  | containerLost trib mfi => exact (filed_execContainerLost trib mfi s).keepsBounds
  | pseudowireRx trib seq stamp bytes l => exact (filed_execPseudowireRx trib seq stamp bytes l s).keepsBounds
  | playout trib => exact (filed_execPlayout trib s).keepsBounds
  | cadTribCommit p trib data => exact (filed_execCadTribCommit p trib data s).keepsBounds
  | ruleTableSet h table dir mode blocks keys => exact (filed_execRuleTableSet h table dir mode blocks keys s).keepsBounds
  | ruleWrite h table index pri value mask act => exact (filed_execRuleWrite h table index pri value mask act s).keepsBounds
  | ruleDelete h table index => exact (filed_execRuleDelete h table index s).keepsBounds
  | ruleCommit h => exact (filed_execRuleCommit h s).keepsBounds
  | ruleAbort h => exact (filed_execRuleAbort h s).keepsBounds
  | ruleRead h table index => exact (filed_execRuleRead h table index s).keepsBounds
  | ruleStatus h => exact (filed_execRuleStatus h s).keepsBounds
  | ruleParseSet h vxlan guess ptpUdp => exact (filed_execRuleParseSet h vxlan guess ptpUdp s).keepsBounds
  | ruleHeaderSet h typ w0 w1 w2 => exact (filed_execRuleHeaderSet h typ w0 w1 w2 s).keepsBounds
  | ruleEdgeSet h edge src value mask dst enable => exact (filed_execRuleEdgeSet h edge src value mask dst enable s).keepsBounds
  | ruleFragSet h life orphan => exact (filed_execRuleFragSet h life orphan s).keepsBounds
  | ruleSpoofSet h port mode => exact (filed_execRuleSpoofSet h port mode s).keepsBounds
  | commitBump half => exact (filed_execCommitBump half s).keepsBounds
  | versionTidy half => exact (filed_execVersionTidy half s).keepsBounds
  | rulEntWr p half data => exact (filed_execRulEntWr p half data s).keepsBounds
  | rulCommitWrite p half data => exact (filed_execRulCommitWrite p half data s).keepsBounds
  | rulAbortWrite p half data => exact (filed_execRulAbortWrite p half data s).keepsBounds
  | pipelinePass half up pipe => exact (filed_execPipelinePass half up pipe s).keepsBounds
  | recircPass half pipe => exact (filed_execRecircPass half pipe s).keepsBounds
  | fragSweep half => exact (filed_execFragSweep half s).keepsBounds
  | tableBdSet h w => exact (filed_execTableBdSet h w s).keepsBounds
  | tableRmacSet h index mac => exact (filed_execTableRmacSet h index mac s).keepsBounds
  | tableFloodSet h group dests => exact (filed_execTableFloodSet h group dests s).keepsBounds
  | tableSvcSet h w => exact (filed_execTableSvcSet h w s).keepsBounds
  | tableSvcClear h dir source ovid ivid => exact (filed_execTableSvcClear h dir source ovid ivid s).keepsBounds
  | tableMacAdd h bd mac fixed kind dest => exact (filed_execTableMacAdd h bd mac fixed kind dest s).keepsBounds
  | tableMacDel h bd mac => exact (filed_execTableMacDel h bd mac s).keepsBounds
  | tableMacRead h bd mac => exact (filed_execTableMacRead h bd mac s).keepsBounds
  | tableMacFlush h bd dest => exact (filed_execTableMacFlush h bd dest s).keepsBounds
  | macFlushDone half => exact (filed_execMacFlushDone half s).keepsBounds
  | tableRouteSet h vrf pre len nh => exact (filed_execTableRouteSet h vrf pre len nh s).keepsBounds
  | tableRouteClear h vrf pre len => exact (filed_execTableRouteClear h vrf pre len s).keepsBounds
  | tableNhSet h index w => exact (filed_execTableNhSet h index w s).keepsBounds
  | tableBindSet h onu port kind addr => exact (filed_execTableBindSet h onu port kind addr s).keepsBounds
  | tableBindClear h onu port kind addr => exact (filed_execTableBindClear h onu port kind addr s).keepsBounds
  | tableLearnSet h lrn age => exact (filed_execTableLearnSet h lrn age s).keepsBounds
  | tableStatus h => exact (filed_execTableStatus h s).keepsBounds
  | tableEditSet h prog ops => exact (filed_execTableEditSet h prog ops s).keepsBounds
  | tableRemarkSet h table entries => exact (filed_execTableRemarkSet h table entries s).keepsBounds
  | tableEditRead h which => exact (filed_execTableEditRead h which s).keepsBounds
  | learnEvent half => exact (filed_execLearnEvent half s).keepsBounds
  | refreshRequest half => exact (filed_execRefreshRequest half s).keepsBounds
  | ageingTick half => exact (filed_execAgeingTick half s).keepsBounds
  | ageingScanVisit half => exact (filed_execAgeingScanVisit half s).keepsBounds
  | scanLate half => exact (filed_execScanLate half s).keepsBounds
  | reseatVisit half => exact (filed_execReseatVisit half s).keepsBounds
  | brAccGo p half data => exact (filed_execBrAccGo p half data s).keepsBounds
  | queueProfileSet h prf mn mx ag ay ar dpy dpr => exact (filed_execQueueProfileSet h prf mn mx ag ay ar dpy dpr s).keepsBounds
  | queueAdmitSet h queue prf deepEn deepMax => exact (filed_execQueueAdmitSet h queue prf deepEn deepMax s).keepsBounds
  | queuePoolSet h ing rsm host => exact (filed_execQueuePoolSet h ing rsm host s).keepsBounds
  | queueDeepSet h spill ret => exact (filed_execQueueDeepSet h spill ret s).keepsBounds
  | queueFlush h queue => exact (filed_execQueueFlush h queue s).keepsBounds
  | queueFlushDone half => exact (filed_execQueueFlushDone half s).keepsBounds
  | queueDepth h queue => exact (filed_execQueueDepth h queue s).keepsBounds
  | queueStoreStatus h => exact (filed_execQueueStoreStatus h s).keepsBounds
  | queueNodeSet h w => exact (filed_execQueueNodeSet h w s).keepsBounds
  | queueNodeGet h dir level index => exact (filed_execQueueNodeGet h dir level index s).keepsBounds
  | queueAttach h queue w => exact (filed_execQueueAttach h queue w s).keepsBounds
  | queueDetach h queue => exact (filed_execQueueDetach h queue s).keepsBounds
  | queueOvhSet h egress ovh => exact (filed_execQueueOvhSet h egress ovh s).keepsBounds
  | queuePolicerSet h policer w => exact (filed_execQueuePolicerSet h policer w s).keepsBounds
  | queuePolicerRead h policer => exact (filed_execQueuePolicerRead h policer s).keepsBounds
  | queueSchedStatus h => exact (filed_execQueueSchedStatus h s).keepsBounds
  | uplinkFrameRx l r => exact (filed_execUplinkFrameRx l r s).keepsBounds
  | icvVerdict port e => exact (filed_execIcvVerdict port e s).keepsBounds
  | bridgeHeadRx half => exact (filed_execBridgeHeadRx half s).keepsBounds
  | replicationCopy half => exact (filed_execReplicationCopy half s).keepsBounds
  | deepPageWrite half queue => exact (filed_execDeepPageWrite half queue s).keepsBounds
  | deepPageRead half queue ecc => exact (filed_execDeepPageRead half queue ecc s).keepsBounds
  | schedulerRelease half ctl idle => exact (filed_execSchedulerRelease half ctl idle s).keepsBounds
  | edtCommit p half data => exact (filed_execEdtCommit p half data s).keepsBounds
  | gateGateSet h ctl gate gmax guard => exact (filed_execGateGateSet h ctl gate gmax guard s).keepsBounds
  | gateEntriesWrite h ctl first entries => exact (filed_execGateEntriesWrite h ctl first entries s).keepsBounds
  | gateListStart h ctl base cycle count => exact (filed_execGateListStart h ctl base cycle count s).keepsBounds
  | gateListCancel h ctl => exact (filed_execGateListCancel h ctl s).keepsBounds
  | gateDisable h ctl base => exact (filed_execGateDisable h ctl base s).keepsBounds
  | gateStatus h ctl => exact (filed_execGateStatus h ctl s).keepsBounds
  | gateListStartAt half ctl => exact (filed_execGateListStartAt half ctl s).keepsBounds
  | gateEntry half ctl => exact (filed_execGateEntry half ctl s).keepsBounds
  | gtListArm p half ctl data => exact (filed_execGtListArm p half ctl data s).keepsBounds
  | gtListCancel p half ctl data => exact (filed_execGtListCancel p half ctl data s).keepsBounds
  | keyAuth h phase sig => exact (filed_execKeyAuth h phase sig s).keepsBounds
  | keyLogout h => exact (filed_execKeyLogout h s).keepsBounds
  | keyKlkAgree h pub => exact (filed_execKeyKlkAgree h pub s).keepsBounds
  | keyLoad h kind target key clear => exact (filed_execKeyLoad h kind target key clear s).keepsBounds
  | keyErase h handle => exact (filed_execKeyErase h handle s).keepsBounds
  | keyBcastNew h tree onus => exact (filed_execKeyBcastNew h tree onus s).keepsBounds
  | keyBcastSwitch h tree cHi cLo => exact (filed_execKeyBcastSwitch h tree cHi cLo s).keepsBounds
  | keyMscSaSet h w => exact (filed_execKeyMscSaSet h w s).keepsBounds
  | keyMscTxSwitch h port an => exact (filed_execKeyMscTxSwitch h port an s).keepsBounds
  | keyMscStatus h port => exact (filed_execKeyMscStatus h port s).keepsBounds
  | keyJob h w => exact (filed_execKeyJob h w s).keepsBounds
  | jobDone half => exact (filed_execJobDone half s).keepsBounds
  | keyZeroize h scope object => exact (filed_execKeyZeroize h scope object s).keepsBounds
  | keySelftest h => exact (filed_execKeySelftest h s).keepsBounds
  | selftestDone die failed shared => exact (filed_execSelftestDone die failed shared s).keepsBounds
  | keyStatus h => exact (filed_execKeyStatus h s).keepsBounds
  | keyDelivered half => exact (filed_execKeyDelivered half s).keepsBounds
  | tamperInput => exact (filed_execTamperInput s).keepsBounds
  | shieldBreak => exact (filed_execShieldBreak s).keepsBounds
  | lightDetect die => exact (filed_execLightDetect die s).keepsBounds
  | temperatureAlarm die => exact (filed_execTemperatureAlarm die s).keepsBounds
  | voltageGlitch die => exact (filed_execVoltageGlitch die s).keepsBounds
  | clockGlitch die => exact (filed_execClockGlitch die s).keepsBounds
  | duplicateRoundMismatch die core => exact (filed_execDuplicateRoundMismatch die core s).keepsBounds
  | drbgRepeat die core => exact (filed_execDrbgRepeat die core s).keepsBounds
  | entropyHealthFail die => exact (filed_execEntropyHealthFail die s).keepsBounds
  | tandemPair h peer auto divThr lossThr => exact (filed_execTandemPair h peer auto divThr lossThr s).keepsBounds
  | tandemUnpair h => exact (filed_execTandemUnpair h s).keepsBounds
  | tandemTreeProtect h tree on dfeed => exact (filed_execTandemTreeProtect h tree on dfeed s).keepsBounds
  | tandemTake h => exact (filed_execTandemTake h s).keepsBounds
  | tandemRelease h => exact (filed_execTandemRelease h s).keepsBounds
  | tandemResync h tree => exact (filed_execTandemResync h tree s).keepsBounds
  | tandemExercise h dwell => exact (filed_execTandemExercise h dwell s).keepsBounds
  | tandemStatus h => exact (filed_execTandemStatus h s).keepsBounds
  | tandemDlnSet h lane delta alpha => exact (filed_execTandemDlnSet h lane delta alpha s).keepsBounds
  | tandemFrameRx l fseq crcOk heads recs => exact (filed_execTandemFrameRx l fseq crcOk heads recs s).keepsBounds
  | recordResend stream seq => exact (filed_execRecordResend stream seq s).keepsBounds
  | heartbeatSend => exact (filed_execHeartbeatSend s).keepsBounds
  | heartbeatTimeout => exact (filed_execHeartbeatTimeout s).keepsBounds
  | digestTimeout c => exact (filed_execDigestTimeout c s).keepsBounds
  | halterPeerChange high => exact (filed_execHalterPeerChange high s).keepsBounds
  | halterSeekDrive => exact (filed_execHalterSeekDrive s).keepsBounds
  | halterOwn => exact (filed_execHalterOwn s).keepsBounds
  | halterReleasePin => exact (filed_execHalterReleasePin s).keepsBounds
  | acceptWindowEnd onu => exact (filed_execAcceptWindowEnd onu s).keepsBounds
  | drillDwellEnd => exact (filed_execDrillDwellEnd s).keepsBounds
  | sysNop h words => exact (filed_execSysNop h words s).keepsBounds
  | sysInfo h => exact (filed_execSysInfo h s).keepsBounds
  | sysSessionOpen h => exact (filed_execSysSessionOpen h s).keepsBounds
  | sysAck h tags => exact (filed_execSysAck h tags s).keepsBounds
  | sysInbandSet h ports mac handle => exact (filed_execSysInbandSet h ports mac handle s).keepsBounds
  | sysReset h kind => exact (filed_execSysReset h kind s).keepsBounds
  | sysEventRoute h group mask fw alert ibi msix vector =>
    exact (filed_execSysEventRoute h group mask fw alert ibi msix vector s).keepsBounds
  | sysEventRead h count => exact (filed_execSysEventRead h count s).keepsBounds
  | commandRingRead packet => exact (filed_execCommandRingRead packet s).keepsBounds
  | i3cMailboxWrite bytes => exact (filed_execI3cMailboxWrite bytes s).keepsBounds
  | i3cMailboxAck tag => exact (filed_execI3cMailboxAck tag s).keepsBounds
  | i3cMailboxRead whole => exact (filed_execI3cMailboxRead whole s).keepsBounds
  | inbandFrameRx l packet cmac src vlan => exact (filed_execInbandFrameRx l packet cmac src vlan s).keepsBounds
  | trapPost => exact (filed_execTrapPost s).keepsBounds
  | injectRingRead w0 w1 w2 w3 name head pipe => exact (filed_execInjectRingRead w0 w1 w2 w3 name head pipe s).keepsBounds
  | lshRingPtrWrite p data => exact (filed_execLshRingPtrWrite p data s).keepsBounds
  | lshRingCfgWrite p data => exact (filed_execLshRingCfgWrite p data s).keepsBounds
  | evtStatClear g data => exact (filed_execEvtStatClear g data s).keepsBounds
  | evtMaskWrite g data => exact (filed_execEvtMaskWrite g data s).keepsBounds
  | evtRingRdWrite p data => exact (filed_execEvtRingRdWrite p data s).keepsBounds
  | blockClaim h block => exact (filed_execBlockClaim h block s).keepsBounds
  | claimEffect die block => exact (filed_execClaimEffect die block s).keepsBounds
  | claimTimeout die block => exact (filed_execClaimTimeout die block s).keepsBounds
  | blockRelease h block => exact (filed_execBlockRelease h block s).keepsBounds
  | blockStatus h => exact (filed_execBlockStatus h s).keepsBounds
  | seqDispatch q entry => exact (filed_execSeqDispatch q entry s).keepsBounds
  | stMov q d a => exact (filed_execStMov q d a s).keepsBounds
  | stAdd q d a b => exact (filed_execStAdd q d a b s).keepsBounds
  | stSub q d a b => exact (filed_execStSub q d a b s).keepsBounds
  | stAnd q d a b => exact (filed_execStAnd q d a b s).keepsBounds
  | stOr q d a b => exact (filed_execStOr q d a b s).keepsBounds
  | stXor q d a b => exact (filed_execStXor q d a b s).keepsBounds
  | stShl q d a b => exact (filed_execStShl q d a b s).keepsBounds
  | stShr q d a b => exact (filed_execStShr q d a b s).keepsBounds
  | stCmp q a b => exact (filed_execStCmp q a b s).keepsBounds
  | stTst q a b => exact (filed_execStTst q a b s).keepsBounds
  | stLdi q d imm => exact (filed_execStLdi q d imm s).keepsBounds
  | stLdh q d imm => exact (filed_execStLdh q d imm s).keepsBounds
  | stAddi q d imm => exact (filed_execStAddi q d imm s).keepsBounds
  | stCmpi q d imm => exact (filed_execStCmpi q d imm s).keepsBounds
  | stRdreg q d a offset reg idx => exact (filed_execStRdreg q d a offset reg idx s).keepsBounds
  | stWrreg q d a offset reg idx => exact (filed_execStWrreg q d a offset reg idx s).keepsBounds
  | stRdsp q d a offset => exact (filed_execStRdsp q d a offset s).keepsBounds
  | stWrsp q d a offset => exact (filed_execStWrsp q d a offset s).keepsBounds
  | stRdpar q d a offset => exact (filed_execStRdpar q d a offset s).keepsBounds
  | stWrpar q d a offset => exact (filed_execStWrpar q d a offset s).keepsBounds
  | stBr q cond target => exact (filed_execStBr q cond target s).keepsBounds
  | stCall q target => exact (filed_execStCall q target s).keepsBounds
  | stRet q => exact (filed_execStRet q s).keepsBounds
  | stLoop q target => exact (filed_execStLoop q target s).keepsBounds
  | stEnd q => exact (filed_execStEnd q s).keepsBounds
  | stWait q cond arg cls => exact (filed_execStWait q cond arg cls s).keepsBounds
  | stPark q cond arg cls => exact (filed_execStPark q cond arg cls s).keepsBounds
  | stReply q r => exact (filed_execStReply q r s).keepsBounds
  | stAccept q => exact (filed_execStAccept q s).keepsBounds
  | stRaise q src => exact (filed_execStRaise q src s).keepsBounds
  | stPloam q r c kind onuId args => exact (filed_execStPloam q r c kind onuId args s).keepsBounds
  | stMail q r target => exact (filed_execStMail q r target s).keepsBounds
  | waitEnd q parked event => exact (filed_execWaitEnd q parked event s).keepsBounds
  | machineCheck q cause addr => exact (filed_execMachineCheck q cause addr s).keepsBounds
  | seqHandover q => exact (filed_execSeqHandover q s).keepsBounds
  | darnSwap => exact (filed_execDarnSwap s).keepsBounds
  | darnHoldTimeout => exact (filed_execDarnHoldTimeout s).keepsBounds
  | scratchOwnerSet h bank owner clear => exact (filed_execScratchOwnerSet h bank owner clear s).keepsBounds
  | scratchRead h bank offset count => exact (filed_execScratchRead h bank offset count s).keepsBounds
  | scratchWrite h bank offset words => exact (filed_execScratchWrite h bank offset words s).keepsBounds
  | scratchDma h dir bank offset hostHi hostLo len => exact (filed_execScratchDma h dir bank offset hostHi hostLo len s).keepsBounds
  | dmaDone die n stop moved => exact (filed_execDmaDone die n stop moved s).keepsBounds
  | spBankOwnerWrite p die bank data => exact (filed_execSpBankOwnerWrite p die bank data s).keepsBounds
  | bankHandoverDone die bank => exact (filed_execBankHandoverDone die bank s).keepsBounds
  | scrubPatrol site uncorrectable => exact (filed_execScrubPatrol site uncorrectable s).keepsBounds
  | trustAttest h nonce => exact (filed_execTrustAttest h nonce s).keepsBounds
  | trustCertRead h => exact (filed_execTrustCertRead h s).keepsBounds
  | trustDarnLoad h bank len => exact (filed_execTrustDarnLoad h bank len s).keepsBounds
  | trustDarnStatus h => exact (filed_execTrustDarnStatus h s).keepsBounds
  | trustLifecycle h target authority => exact (filed_execTrustLifecycle h target authority s).keepsBounds
  | resetFall short => exact (filed_execResetFall short s).keepsBounds
  | castOnStart devnum senior => exact (filed_execCastOnStart devnum senior s).keepsBounds
  | castOnStageDone stage ms => exact (filed_execCastOnStageDone stage ms s).keepsBounds
  | castOnDone ms => exact (filed_execCastOnDone ms s).keepsBounds
  | functionLevelReset => exact (filed_execFunctionLevelReset s).keepsBounds
  | i3cTargetReset => exact (filed_execI3cTargetReset s).keepsBounds
  | pmEntitySet h kind index enable => exact (filed_execPmEntitySet h kind index enable s).keepsBounds
  | pmRead h kind index bin ecc => exact (filed_execPmRead h kind index bin ecc s).keepsBounds
  | pmTcaSet h kind param length threshold => exact (filed_execPmTcaSet h kind param length threshold s).keepsBounds
  | pmStatus h => exact (filed_execPmStatus h s).keepsBounds
  | gaugeSnap h instant => exact (filed_execGaugeSnap h instant s).keepsBounds
  | gaugePeriodSet h period first => exact (filed_execGaugePeriodSet h period first s).keepsBounds
  | gaugeRead h block unit live => exact (filed_execGaugeRead h block unit live s).keepsBounds
  | gaugeSlots h pipeline => exact (filed_execGaugeSlots h pipeline s).keepsBounds
  | gaugeHistRead h port => exact (filed_execGaugeHistRead h port s).keepsBounds
  | gaugeClear h block unit => exact (filed_execGaugeClear h block unit s).keepsBounds
  | pmSecond die => exact (filed_execPmSecond die s).keepsBounds
  | pmBinBoundary die day => exact (filed_execPmBinBoundary die day s).keepsBounds
  | snapshotLaunch => exact (filed_execSnapshotLaunch s).keepsBounds
  | snapshotDone => exact (filed_execSnapshotDone s).keepsBounds
  | powerDomainSet h domain on => exact (filed_execPowerDomainSet h domain on s).keepsBounds
  | domainSwitchDone domain => exact (filed_execDomainSwitchDone domain s).keepsBounds
  | powerStatus h => exact (filed_execPowerStatus h s).keepsBounds
  | powerTensionSet h region thr rel longUs => exact (filed_execPowerTensionSet h region thr rel longUs s).keepsBounds
  | powerSensors h => exact (filed_execPowerSensors h s).keepsBounds
  | remudaStatus h => exact (filed_execRemudaStatus h s).keepsBounds
  | remudaBringIn h kind unit => exact (filed_execRemudaBringIn h kind unit s).keepsBounds
  | spareBringInDone kind die unit => exact (filed_execSpareBringInDone kind die unit s).keepsBounds
  | remudaPolicySet h kind policy => exact (filed_execRemudaPolicySet h kind policy s).keepsBounds
  | remudaWearRead h region => exact (filed_execRemudaWearRead h region s).keepsBounds
  | unitParityError u => exact (filed_execUnitParityError u s).keepsBounds
  | thermalSample region temp mw => exact (filed_execThermalSample region temp mw s).keepsBounds
  | droopDetect region hard => exact (filed_execDroopDetect region hard s).keepsBounds
  | stretchReleaseStep region => exact (filed_execStretchReleaseStep region s).keepsBounds
  | wearSample region ppm => exact (filed_execWearSample region ppm s).keepsBounds
  | ucieLaneRepair link => exact (filed_execUcieLaneRepair link s).keepsBounds
  | clockGeneratorLockLoss die => exact (filed_execClockGeneratorLockLoss die s).keepsBounds
  | stretchStepUp region => exact (filed_execStretchStepUp region s).keepsBounds
  | droopRecovery region => exact (filed_execDroopRecovery region s).keepsBounds
  | tensionEpisodeLong region => exact (filed_execTensionEpisodeLong region s).keepsBounds
  | pmSecondForced die => exact (filed_execPmSecondForced die s).keepsBounds
  | tamperNRelease => exact (filed_execTamperNRelease s).keepsBounds
  | i3cDynamicAddress addr => exact (filed_execI3cDynamicAddress addr s).keepsBounds
  | i3cEnecDisec on => exact (filed_execI3cEnecDisec on s).keepsBounds
  | hostLinkDmaTimeout moved => exact (filed_execHostLinkDmaTimeout moved s).keepsBounds
  | bringInHoldTimeout die index => exact (filed_execBringInHoldTimeout die index s).keepsBounds

theorem keepsBounds_step (s : State) : KeepsBounds s (step s) := by
  unfold step
  split
  · exact keepsBounds_of_filed (filed_cycleOver s)
  · exact keepsBounds_exec _ _

/-- Settles O41: the ring grows by the entry of a record alone, which makes room for it. -/
theorem eventRingStaysBounded : Obligations.EventRingStaysBounded :=
  fun s t hs hstep => (keepsBounds_step s t hstep).1 hs

/-- Settles O42: a queue grows by `State.raise` alone, which looks at its length first. -/
theorem eventQueuesStayBounded : Obligations.EventQueuesStayBounded :=
  fun s t hs hstep => (keepsBounds_step s t hstep).2 hs

/-- Settles O40: nothing is filed at reset. -/
theorem eventsBoundedAtReset : Obligations.EventsBoundedAtReset := ⟨Nat.zero_le _, fun _ => Nat.zero_le _⟩

end Sys2Proof

/-! A step (00_scope, log entry 4): the row at the front of the queue, or a cycle of the clock. -/

namespace Sys2Proof

open Machine

section
variable (s : State)

/-- One cycle moves the time in force, the elapsed time and the timebase. -/
theorem tick_frame : ∃ n e w, s.tick = { s with now := n, elapsed := e, tb := w } := by
  unfold State.tick
  split
  · exact ⟨_, _, _, rfl⟩
  · extract_lets t
    split
    · exact ⟨_, _, _, runTime_frame ..⟩
    · exact ⟨_, _, _, runTime_frame ..⟩

variable {s}

/-- Where no head waits, none is admitted; the half's store is written back as it was. -/
theorem admitWaiting_none {half : Nat} (h : (s.storeOf half).own = []) : s.admitWaiting half = s.setStore half (s.storeOf half) := by
  have hsame : { s.storeOf half with own := [] } = s.storeOf half := by rw [← h]
  simp only [State.admitWaiting, h, List.take_nil, List.drop_nil, List.foldl_nil, hsame]

theorem storeOf_setStore_self (half k : Nat) : (s.setStore half (s.storeOf half)).storeOf k = s.storeOf k := by
  by_cases h : half = k
  · subst h
    exact Tbl.getD_setD_same ..
  · exact Tbl.getD_setD_other _ _ _ _ h

/-- A cycle in which no head waits for an admission moves the clock; the gauges' marks go with it. -/
theorem cycleOver_idle (h0 : (s.storeOf 0).own = []) (h1 : (s.storeOf 1).own = []) :
    (∃ n e w g x, s.cycleOver = { s with now := n, elapsed := e, tb := w, gauge := g, store := x }) ∧
      ∀ k, s.cycleOver.storeOf k = s.storeOf k := by
  obtain ⟨n, e, w, htick⟩ := tick_frame s
  obtain ⟨u, hu⟩ : ∃ u, u = { s.tick with gauge := { s.tick.gauge with marks := s.markGauges, markAt := s.tick.elapsed } } := ⟨_, rfl⟩
  have hcycle : s.cycleOver = (u.admitWaiting 0).admitWaiting 1 := by rw [hu]; rfl
  have hstore : u.store = s.store := by rw [hu, htick]
  have hkeeps (k : Nat) : u.storeOf k = s.storeOf k := by simp only [State.storeOf, hstore]
  have hfirst : u.admitWaiting 0 = u.setStore 0 (u.storeOf 0) := admitWaiting_none (by rw [hkeeps, h0])
  have hsecond : s.cycleOver = (u.setStore 0 (u.storeOf 0)).setStore 1 ((u.setStore 0 (u.storeOf 0)).storeOf 1) := by
    rw [hcycle, hfirst]
    exact admitWaiting_none (by rw [storeOf_setStore_self, hkeeps, h1])
  refine ⟨⟨n, e, w, u.gauge, s.cycleOver.store, ?_⟩, fun k => ?_⟩
  · rw [hsecond, hu, htick]
    rfl
  · rw [hsecond, storeOf_setStore_self, storeOf_setStore_self, hkeeps]

end

/-- Settles O1: the step by the queue's first element, the idle cycle by `cycleOver_idle`. -/
theorem stepTakesTheFrontCommand : Obligations.StepTakesTheFrontCommand := by
  refine ⟨fun c rest s h => ?_, fun s h => ?_, fun s h0 h1 => ?_⟩
  · simp only [step, h]
  · simp only [step, h]
  · obtain ⟨hframe, hstores⟩ := cycleOver_idle h0 h1
    exact ⟨hframe, fun k _ => hstores k⟩

end Sys2Proof

/-! The test port (R629): where it is held, what a clock edge does, the balls, the IDCODE. -/

namespace Sys2Proof

open Machine

section
variable {s : State}

theorem tapHeld_iff : s.tapHeld = true ↔ ¬ (s.pin .testEn 0 = 1 ∧ s.pin .hostRstN 0 = 0) := by
  rw [not_and_or]
  simp [State.tapHeld]

theorem tapNow_held (h : s.tapHeld = true) : s.tapNow = Tap.reset := if_pos h

/-- A port held in Test-Logic-Reset runs no EXTEST. -/
theorem extest_held (h : s.tapHeld = true) : s.extest = false := by
  simp [State.extest, tapNow_held h, Tap.reset]

theorem tapClock_held (tms tdi : Bool) (h : s.tapHeld = true) : s.tapClock tms tdi = { s with tap := Tap.reset } := if_pos h

theorem tapClock_frame (tms tdi : Bool) : ∃ t, s.tapClock tms tdi = { s with tap := t } := by
  unfold State.tapClock
  split <;> exact ⟨_, rfl⟩

/-- Capture-DR loads what the instruction captures. -/
theorem tapClock_captureDr (tms tdi : Bool) (h : s.tapHeld = false) (hctrl : s.tap.ctrl = .captureDr) :
    (s.tapClock tms tdi).tap.dr = s.tapCapture s.tap.instr := by
  simp [State.tapClock, h, hctrl]

end

/-- Bits [27:12] of the IDCODE are the part's, and bit 0 is 1, whatever the version and the manufacturer are (log entry 24). -/
theorem idcode_fields (version part maker : Nat) :
    (version * 2 ^ 28 + part % 2 ^ 16 * 2 ^ 12 + maker % 2 ^ 11 * 2 + 1) / 2 ^ 12 % 2 ^ 16 = part % 2 ^ 16 ∧
      (version * 2 ^ 28 + part % 2 ^ 16 * 2 ^ 12 + maker % 2 ^ 11 * 2 + 1) % 2 = 1 := by
  omega

/-- Settles O57: by what a held port is, a clock edge's two branches, and the places of the IDCODE's fields. -/
theorem testPortHeld : Obligations.TestPortHeld := by
  refine ⟨fun _ => tapHeld_iff, fun _ => tapNow_held, fun s tms tdi h => ?_, fun _ => tapClock_frame, fun _ _ _ h => ?_, fun _ _ h => ?_,
    fun s tms tdi h hctrl hinstr => ?_, fun s => idcode_fields ..⟩
  · rw [tapClock_held tms tdi h]
  · exact ball_of_not_extest (extest_held h)
  · exact ⟨ball_optTxen_of_extest h, ball_hltOwnN_of_extest h⟩
  · rw [tapClock_captureDr tms tdi h hctrl, hinstr]
    rfl

end Sys2Proof

/-! Gate lists in time (R386): the entry in force is the last whose offset the position in the cycle has reached. -/

namespace Sys2Proof

open Machine

section
variable (cycle p : Nat)

/-- The entry that a position has reached so far. -/
def reachedEntry (best : Nat × Nat) (e : Nat × Nat × Nat) : Nat × Nat := if nsSpan e.2.1 ≤ p then (e.1, e.2.2) else best

theorem nsSpan_mono {a b : Nat} (h : a ≤ b) : nsSpan a ≤ nsSpan b := Nat.mul_le_mul_right _ h

variable {cycle p}

/-- Entries that begin after the position leave the one in force. -/
theorem reachedEntry_later {es : List (Nat × Nat)} {k off : Nat} (best : Nat × Nat) (h : p < nsSpan off) :
    (entryOffsets cycle es k off).foldl (reachedEntry p) best = best := by
  induction es generalizing k off with
  | nil => rfl
  | cons e es ih =>
    simp only [entryOffsets]
    split
    · rfl
    · rw [List.foldl_cons, reachedEntry, if_neg (Nat.not_le.2 h)]
      exact ih (Nat.lt_of_lt_of_le h (nsSpan_mono (Nat.le_add_right ..)))

/-- From a first entry that has begun, the last of the entries used that has begun is in force. -/
theorem reachedEntry_last {es : List (Nat × Nat)} {k off : Nat} (best : Nat × Nat) (hne : es ≠ []) (hoff : off < cycle) (hp : nsSpan off ≤ p) :
    let at_ := fun i => off + ((es.take i).map Prod.fst).sum
    ∃ i e, es[i]? = some e ∧ at_ i < cycle ∧ nsSpan (at_ i) ≤ p ∧
      (∀ j, i < j → j < es.length → at_ j < cycle → p < nsSpan (at_ j)) ∧
      ((entryOffsets cycle es k off).foldl (reachedEntry p) best).2 = e.2 := by
  intro at_
  induction es generalizing k off best with
  | nil => exact absurd rfl hne
  | cons e es ih =>
    have hstep (i : Nat) : off + (((e :: es).take (i + 1)).map Prod.fst).sum = off + e.1 + ((es.take i).map Prod.fst).sum := by
      simp [Nat.add_assoc]
    have hfirst : entryOffsets cycle (e :: es) k off = (k, off, e.2) :: entryOffsets cycle es (k + 1) (off + e.1) := by
      simp [entryOffsets, hoff]
    rw [hfirst, List.foldl_cons, reachedEntry, if_pos hp]
    by_cases hnext : es ≠ [] ∧ off + e.1 < cycle ∧ nsSpan (off + e.1) ≤ p
    · obtain ⟨hes, hlt, hreached⟩ := hnext
      obtain ⟨i, x, hx, hcyc, hpos, hlast, hmask⟩ := ih (k := k + 1) (k, e.2) hes hlt hreached
      refine ⟨i + 1, x, hx, ?_, ?_, fun j hij hj => ?_, hmask⟩
      · simpa only [at_, hstep] using hcyc
      · simpa only [at_, hstep] using hpos
      · obtain ⟨j, rfl⟩ : ∃ j', j = j' + 1 := ⟨j - 1, by omega⟩
        simp only [at_, hstep]
        exact hlast j (by omega) (by simpa using hj)
    · refine ⟨0, e, rfl, by simpa [at_] using hoff, by simpa [at_] using hp, fun j hij hj hcyc => ?_, ?_⟩
      · obtain ⟨j, rfl⟩ : ∃ j', j = j' + 1 := ⟨j - 1, by omega⟩
        have hes : es ≠ [] := by rintro rfl; simp at hj
        simp only [at_, hstep] at hcyc ⊢
        have hlate : p < nsSpan (off + e.1) := Nat.lt_of_not_le fun h => hnext ⟨hes, by omega, h⟩
        exact Nat.lt_of_lt_of_le hlate (nsSpan_mono (Nat.le_add_right ..))
      · by_cases hes : es = []
        · subst hes; rfl
        · by_cases hlt : off + e.1 < cycle
          · rw [reachedEntry_later _ (Nat.lt_of_not_le fun h => hnext ⟨hes, hlt, h⟩)]
          · cases es with
            | nil => rfl
            | cons x xs => simp [entryOffsets, Nat.not_lt.1 hlt]

end

theorem GateList.position_of_started {l : GateList} {t : Nat} (h : l.start ≤ t) : l.position t = (t - l.start) % nsSpan l.cycle := by
  unfold GateList.position
  rw [← Int.natCast_sub h, ← Int.natCast_mod, Int.toNat_natCast]

/-- Settles O44: by `reachedEntry_last`, from entry 0, which begins with the cycle. -/
theorem gateMaskInForce : Obligations.GateMaskInForce := by
  intro x g t l hlist hstart hne hcycle off pos
  obtain ⟨i, e, he, hcyc, hpos, hlast, hmask⟩ :=
    reachedEntry_last (p := pos) (k := 0) (0, 0xFF) hne hcycle (by simp [nsSpan] : nsSpan 0 ≤ pos)
  simp only [Nat.zero_add] at hcyc hpos hlast
  refine ⟨i, e, he, hcyc, hpos, hlast, ?_⟩
  rw [← hmask, Store.maskAt, hlist]
  simp only [Option.map_some, Option.getD_some, GateList.entryAt, GateList.position_of_started hstart]
  rfl

end Sys2Proof

/-! The alarms of R424 and R566. -/

namespace Sys2Proof

open Machine

section
variable {s : State} {row die : Nat} {z : ZScope}

/-- R424: the source's cause is latched, it is counted and raised, and its scope is zeroized. -/
theorem alarm_unmasked (hmask : (s.fld .secCfgAlarmMask 0).testBit row = false) (hdie : s.dieFused die = false) :
    s.alarm row die z = ((s.latchBits .secAlarm 0 (BitVec.ofNat 32 (2 ^ row))).report .secAlarm 0 .secAlarm die 0).zeroize z := by
  simp only [State.alarm, hmask, hdie, Bool.false_eq_true, or_self, if_false, alarmBit]

theorem alarm_masked (h : (s.fld .secCfgAlarmMask 0).testBit row = true) : s.alarm row die z = s := if_pos (.inl h)

theorem alarm_fused (h : s.dieFused die = true) : s.alarm row die z = s := if_pos (.inr h)

theorem tamperAlarm_masked (h : (s.fld .secCfgAlarmMask 0).testBit row = true) : s.tamperAlarm row die = s := if_pos (.inl h)

theorem tamperAlarm_fused (h : s.dieFused die = true) : s.tamperAlarm row die = s := if_pos (.inr h)

/-- R566: a tamper-class source erases the package and advances the fused count. -/
theorem tamperAlarm_unmasked (hmask : (s.fld .secCfgAlarmMask 0).testBit row = false) (hdie : s.dieFused die = false) :
    s.tamperAlarm row die = State.tamperCount
      (((s.latchBits .secAlarm 0 (BitVec.ofNat 32 (2 ^ row))).report .secAlarm 0 .secAlarm die 0).zeroize .package) := by
  rw [State.tamperAlarm, if_neg (by simp [hmask, hdie]), alarm_unmasked hmask hdie]

/-- Every part has the package. -/
theorem dieFused_package (s : State) : s.dieFused 15 = false := by simp [State.dieFused]

end

/-- Settles O37: by whether the source is masked, and for a die's source whether the part has the die. -/
theorem alarmsZeroize : Obligations.AlarmsZeroize := by
  refine ⟨fun s hm => ?tamper, fun s hm => ?shield, fun die s hd hm => ?light, fun die s hd hm => ?temperature, fun die s hd hm => ?voltage,
    fun die s hd hm => ?clock, fun die core s hd hc hm => ?round, fun die core s hd hc hm => ?drbg, fun die s hd hm => ?entropy,
    fun die core s hd => ?fused, fun die s => ?masked, fun _ => rfl⟩
  case tamper => exact congrArg _ (tamperAlarm_unmasked (s := s.drive .tamperN 0 0) hm (dieFused_package _))
  case shield => exact congrArg _ (tamperAlarm_unmasked hm (dieFused_package s))
  case light => exact congrArg _ (tamperAlarm_unmasked hm hd)
  case temperature | voltage | clock | entropy => exact congrArg _ (alarm_unmasked hm hd)
  case round | drbg => exact (next_ite_neg (Nat.not_lt.2 hc)).trans (congrArg _ (alarm_unmasked hm hd))
  case fused =>
    have hcore (row : Nat) : (if die.toNat < 2 then s else s.alarm row die.toNat (coreScope die.toNat core.toNat)) = s := by
      rw [alarm_fused hd, ite_self]
    exact ⟨congrArg _ (tamperAlarm_fused hd), congrArg _ (alarm_fused hd), congrArg _ (alarm_fused hd), congrArg _ (alarm_fused hd),
      congrArg _ (hcore 0), congrArg _ (hcore 1), congrArg _ (alarm_fused hd)⟩
  case masked =>
    exact ⟨fun h => congrArg _ (tamperAlarm_masked (s := s.drive .tamperN 0 0) h), fun h => congrArg _ (tamperAlarm_masked h),
      fun h => congrArg _ (tamperAlarm_masked h), fun h => congrArg _ (alarm_masked h), fun h => congrArg _ (alarm_masked h),
      fun h => congrArg _ (alarm_masked h), fun h => congrArg _ (alarm_masked h)⟩

end Sys2Proof

/-! The QUEUE commands of profiles, pools and queues (R329, R330, R335, R351-R353). -/

namespace Sys2Proof

open Machine

section
variable {h : Hdr} {op : Nat} {s : State} {f : State → State} {ws : List Word} {st : Status}

/-- A command on a half, its operands good and its block unclaimed, has its body's result. -/
theorem halfCommand_claimable {blk : Blk} {bad : State → Nat → Bool} {body : Nat → State → Res}
    (hready : s.ready h op (.oneOf [0, 1]) = true) (hgood : bad (s.start (callerOf h op)) h.die.toNat = false)
    (hfree : s.claimed h.die.toNat blk = false)
    (hbody : body h.die.toNat (s.start (callerOf h op)) = ⟨f (s.start (callerOf h op)), st, ws, false⟩) :
    Host.Outcome.next (halfCommand h op (some blk) bad body s) = (completed h op s f ws st : Host.Outcome State Fault Refusal) :=
  completed_of hready ((if_neg (Bool.eq_false_iff.1 hgood)).trans ((unlessClaimed_one (s := s.start _) hfree).trans hbody))

/-- A command on a queue that a half holds, its operands good and its blocks unclaimed, has its body's result. -/
theorem queueCommand_held {queue : Word} {q k : Nat} {blk : Option Blk} {bad : Bool} {body : Caller → Nat → Nat → State → Res}
    (hready : s.ready h op (match (queueOf s queue).bind s.queueHalf with | some half => .owner half | none => .oneOf [0, 1]) = true)
    (hqueue : queueOf s queue = some q) (hhalf : s.commandHalf h q = some k) (hgood : bad = false)
    (hfree : (blk.map (fun b => (k, b))).toList.any (fun b => s.claimed b.1 b.2) = false)
    (hbody : body (callerOf h op) k q (s.start (callerOf h op)) = ⟨f (s.start (callerOf h op)), st, ws, false⟩) :
    Host.Outcome.next (queueCommand h op queue blk bad body s) = (completed h op s f ws st : Host.Outcome State Fault Refusal) := by
  have hqueue' : queueOf (s.start (callerOf h op)) queue = some q := hqueue
  have hhalf' : (s.start (callerOf h op)).commandHalf h q = some k := hhalf
  refine completed_of hready ?_
  simp only [hqueue', hhalf', hgood, Bool.false_eq_true, if_false]
  exact (unlessClaimed_free (s := s.start _) hfree).trans hbody

theorem not_any_claimed {k : Nat} {blk : Blk} (hfree : s.claimed k blk = false) :
    ((some blk).map (fun b => (k, b))).toList.any (fun b => s.claimed b.1 b.2) = false := by
  simpa using hfree

end

/-- Settles O24: each command by `halfCommand_claimable` or `queueCommand_held`, a flush's end by the flush in front. -/
theorem queueCommandsComplete : Obligations.QueueCommandsComplete := by
  refine ⟨?profile, ?admission, ?pool, ?deep, ?flush, ?flushed, ?depth, ?status⟩
  case profile =>
    intro h prf mn mx ag ay ar dpy dpr s hready hok hfree
    exact halfCommand_claimable hready (congrArg not hok) hfree rfl
  case admission =>
    intro h queue prf deepEn deepMax k q s hready hqueue hhalf hprf hen hmax hfree
    have hgood : (63 < prf.toNat || 1 < deepEn.toNat || 4194303 < deepMax.toNat) = false := by simp; omega
    exact queueCommand_held hready hqueue hhalf hgood (not_any_claimed hfree) rfl
  case pool =>
    intro h ing rsm host s hready ha ha' hb hb' hc hc' hsum hfree
    have hgood : ([ing, rsm, host].any (fun w => w.toNat < 1 || 1023 < w.toNat)
        || 524288 < 64 * (ing.toNat + rsm.toNat + host.toNat) + s.minSum h.die.toNat) = false := by
      simp
      omega
    exact halfCommand_claimable hready hgood hfree rfl
  case deep =>
    intro h spill ret s hready hspill hspill' hret hret' hfree
    have hgood : (spill.toNat < 64 || 65535 < spill.toNat || ret.toNat < 1 || spill.toNat ≤ ret.toNat) = false := by simp; omega
    exact halfCommand_claimable hready hgood hfree rfl
  case flush =>
    intro h queue k q s hready hqueue hhalf hroom hfree
    exact queueCommand_held hready hqueue hhalf rfl (not_any_claimed hfree) (if_neg (Bool.eq_false_iff.1 hroom))
  case flushed =>
    intro half q c rest s hfront v
    show execQueueFlushDone half s = _
    simp only [execQueueFlushDone, hfront]
    rfl
  case depth =>
    intro h queue k q s hready hqueue hhalf
    exact queueCommand_held hready hqueue hhalf rfl rfl rfl
  case status =>
    intro h s hready
    exact completed_of hready rfl

end Sys2Proof

/-! Heads over the bridge, waiting copies, deep pages and the schedulers' events (R67, R318, R328, R333-R338, R364, R388, R395). -/

namespace Sys2Proof

open Machine

section
variable {half : BitVec 1} {queue : BitVec 26} {s : State}

/-- A full tail page goes to the queue's turn's stack, where that stack's ration is unspent and a page of it is free. -/
theorem deepPageWrite_stored {p : Nat} :
    let x := s.queue half.toNat queue.toNat
    let v := (s.wantTime half.toNat (deepRation 0)).wantTime half.toNat (deepRation 1)
    x.deep = true → 16 ≤ x.tail → v.rationWaits half.toNat (deepRation x.stack) = false → v.freePage half.toNat x.stack = some p →
    execDeepPageWrite half queue s = .next ((v.setQueue half.toNat queue.toNat
      { x with pages := x.pages ++ [(x.stack * 2 ^ 22 + p, 16)], tail := x.tail - 16, stack := 1 - x.stack,
               holding := x.holding && decide (16 ≤ x.tail - 16), heldPages := min x.heldPages ((x.tail - 16) / 16) }).charge
      half.toNat (deepRation x.stack) pageSpan) := by
  intro x v hdeep htail hration hpage
  have hfull : ¬ ((!x.deep) = true ∨ x.tail < 16) := not_or.2 ⟨bnot_ne_true hdeep, by omega⟩
  have hchoice : [x.stack, 1 - x.stack].findSome? (fun k => if v.rationWaits half.toNat (deepRation k) then none
      else (v.freePage half.toNat k).map (fun p => (k, p))) = some (x.stack, p) := by
    simp [hration, hpage]
  rw [execDeepPageWrite, if_neg hfull]
  simp only [v] at hchoice
  simp only [x] at hchoice
  simp only [hchoice]
  rfl

/-- A page whose ration serves it, its queue's head segment with room, is read: without its frames where the error stays. -/
theorem deepPageRead_served {ecc : BitVec 2} {p live : Nat} {rest : List (Nat × Nat)} :
    let x := s.queue half.toNat queue.toNat
    let v := (s.wantTime half.toNat (deepRation (p / 2 ^ 22))).charge half.toNat (deepRation (p / 2 ^ 22)) pageSpan
    let y := x.without (fun a b _ => decide (0 < overlap a b x.headCells (x.headCells + live)))
    x.pages = (p, live) :: rest → x.headCells < 32 → s.served half.toNat (deepRation (p / 2 ^ 22)) = true →
    execDeepPageRead half queue ecc s = if 2 ≤ ecc.toNat
      then .next (((((v.setQueue half.toNat queue.toNat { y.1 with stalled := false }).countBy .dstEccDrop half.toNat y.2).raise
        .dstEcc half.toNat (p / 2 ^ 22)).retirePage half.toNat (p / 2 ^ 22) (p % 2 ^ 22)).settle half.toNat queue.toNat)
      else .next (((if ecc = 1 then v.count .dstEccCorr half.toNat else v).setQueue half.toNat queue.toNat
        { x with pages := rest, headCells := x.headCells + live, stalled := false }).settle half.toNat queue.toNat) := by
  intro x v y hpages hroom hserved
  have hration : (s.wantTime half.toNat (deepRation (p / 2 ^ 22))).rationWaits half.toNat (deepRation (p / 2 ^ 22)) = false :=
    by simpa only [State.served, Bool.not_eq_true'] using hserved
  simp only [x] at hpages hroom
  simp only [execDeepPageRead, hpages, if_neg (Nat.not_le.2 hroom), hration, Bool.false_eq_true, if_false]
  rfl

/-- A held frame whose departure is reached leaves the port: late, its own are dropped. -/
theorem departureInstant_reached {port : Lane} {late : Bool} {x : HeldFrame} {rest : List HeldFrame}
    (hheld : Tbl.getD s.lanes.held port.toNat [] = x :: rest) (hdue : reached (s.nowOn (dieOfLane port.toNat)) x.departure = true) :
    execDepartureInstant port late s =
      if late = true ∧ (x.origin = true ∨ x.correct.isSome = true)
      then .next ((s.unhold port.toNat).report .tsiLateDrop port.toNat .tsiLate (dieOfLane port.toNat) port.toNat)
      else if late = true then
        .next ((if ((s.unhold port.toNat).storeOf (port.toNat / 32)).gates.has (port.toNat % 32)
          then (s.unhold port.toNat).count .gtHoldLate (port.toNat / 32 * 128 + port.toNat % 32) else s.unhold port.toNat).depart
          port.toNat x (max (s.nowOn (dieOfLane port.toNat)) x.departure))
      else .next ((s.unhold port.toNat).depart port.toNat x x.departure) := by
  simp only [execDepartureInstant, hheld, hdue, Bool.not_true, Bool.false_eq_true, if_false]

end

/-- Settles O27: a deep page by `deepPageWrite_stored` and `deepPageRead_served`, a departure by `departureInstant_reached`. -/
theorem storeEventsComplete : Obligations.StoreEventsComplete := by
  refine ⟨?bridge, ?copy, ?written, ?read, ?lost, ?start, ?entry, ?release, ?departs, ?late, ?unheld⟩
  case bridge =>
    intro half qs m rest e s hbridge hlearn hup hroom
    have hstillUp (x : Store) : (s.setStore half.toNat x).bridgeCut = false := hup
    show execBridgeHeadRx half s = _
    simp only [execBridgeHeadRx, hbridge, hup, hstillUp, hlearn, hroom, and_false, Bool.false_eq_true, if_false]
  case copy =>
    intro half q m rest s hcopy hroom
    show execReplicationCopy half s = _
    simp only [execReplicationCopy, hcopy, if_neg hroom]
  case written =>
    intro half queue p s
    exact deepPageWrite_stored
  case read =>
    intro half queue ecc p live rest s x v hpages hroom hserved hecc
    exact (deepPageRead_served hpages hroom hserved).trans (if_neg (Nat.not_le.2 hecc))
  case lost =>
    intro half queue ecc p live rest s x v y hpages hroom hserved hecc
    exact (deepPageRead_served hpages hroom hserved).trans (if_pos hecc)
  case start =>
    intro half ctl l s harmed hdue k g v
    show execGateListStartAt half ctl s = _
    simp only [execGateListStartAt, harmed, hdue, State.startList, if_true]
    rfl
  case entry =>
    intro half ctl s hctl
    exact congrArg Host.Outcome.next (if_pos hctl)
  case release =>
    intro half ctl idle s hctl
    exact if_neg (Nat.not_le.2 hctl)
  case departs =>
    intro port x rest s hheld hdue
    exact departureInstant_reached hheld hdue
  case late =>
    intro port x rest s hheld hdue horigin
    exact (departureInstant_reached hheld hdue).trans (if_pos ⟨rfl, .inl horigin⟩)
  case unheld =>
    intro port x rest s hheld
    simp only [State.unhold, hheld, List.drop_one, List.tail_cons]

end Sys2Proof

/-! What the scheduler reads is not changed by a command's start: the frame as edited, the heads of an egress, the pick, a node's parent. -/

namespace Sys2Proof

open Machine

section
variable (s : State) (c : Caller)

theorem start_walk (die : Nat) (f : Frame) (base n : Nat) :
    ∀ w p, (s.start c).walk die f base n w p = s.walk die f base n w p := by
  induction n with
  | zero => exact fun w p => rfl
  | succ n ih =>
    intro w p
    simp only [State.walk, ih]
    rfl

theorem start_parse (die : Nat) (f : Frame) (off typ : Nat) : (s.start c).parse die f off typ = s.parse die f off typ :=
  start_walk ..

theorem start_editOp (half : Nat) (m : Meta) (f : Frame) (w : Word) : (s.start c).editOp half m f w = s.editOp half m f w := by
  unfold State.editOp
  rw [start_parse]
  rfl

theorem start_runEdit (half : Nat) (m : Meta) (ws : List Word) :
    ∀ f n, (s.start c).runEdit half m ws f n = s.runEdit half m ws f n := by
  induction ws with
  | nil => exact fun f n => rfl
  | cons w ws ih =>
    intro f n
    simp only [State.runEdit, ih, start_editOp]

theorem start_edited (half : Nat) (m : Meta) : (s.start c).edited half m = s.edited half m := by
  unfold State.edited
  simp only [start_runEdit]
  rfl

theorem start_queueHead (half g : Nat) : (s.start c).queueHead half g = s.queueHead half g := by
  funext p
  unfold State.queueHead
  simp only [start_edited]
  rfl

theorem start_queueHeads (half g : Nat) : (s.start c).queueHeads half g = s.queueHeads half g := by
  unfold State.queueHeads
  rw [start_queueHead]
  rfl

theorem start_least (half : Nat) (cs : List Nat) : (s.start c).least half cs = s.least half cs := by
  induction cs with
  | nil => rfl
  | cons d ds ih =>
    unfold State.least
    rw [ih]
    rfl

theorem start_pick (half : Nat) (heads : List QHead) (k : Nat) : ∀ n, (s.start c).pick half heads k n = s.pick half heads k n := by
  induction k with
  | zero => exact fun n => rfl
  | succ k ih =>
    intro n
    unfold State.pick
    simp only [ih, start_least]
    rfl

theorem start_skeinChan (half n : Nat) : (s.start c).skeinChan half n = s.skeinChan half n := by
  unfold State.skeinChan
  simp only [start_queueHeads, start_pick]

theorem start_ndParent (half n : Nat) : (s.start c).ndParent half n = s.ndParent half n := by
  unfold State.ndParent
  rw [start_skeinChan]
  rfl

theorem start_ndRates (half n : Nat) : (s.start c).ndRates half n = s.ndRates half n := rfl

theorem start_ndBuckets (half n : Nat) : (s.start c).ndBuckets half n = s.ndBuckets half n := by
  unfold State.ndBuckets
  rw [start_ndRates]
  rfl

end

end Sys2Proof

/-! The QUEUE commands of the schedulers and policers (R365, R370-R372, R375, R383, R384). -/

namespace Sys2Proof

open Machine

/-- A root of a tree, level 1, holds no rate: the check of NODE_SET's rates against its level passes (R372). -/
theorem rootRates_ok {level cir pir : Word} (h : level = 1 → cir = 0 ∧ pir = 0) :
    (decide (level.toNat = 1) && (cir != 0 || pir != 0)) = false := by
  by_cases hroot : level = 1
  · obtain ⟨hcir, hpir⟩ := h hroot
    simp [hcir, hpir]
  · have hlevel : level.toNat ≠ 1 := fun hl => hroot (BitVec.eq_of_toNat_eq hl)
    simp [hlevel]

section
variable {s : State}

/-- The operands of NODE_SET that the statement asks for pass its checks. -/
theorem nodeSet_good {w : NodeWords} {half : Nat} (hnode : s.nodeOk half w.dir.toNat w.level.toNat w.index.toNat = true)
    (henable : w.enable.toNat < 2) (hband : w.band.toNat < 8) (hweight : 1 ≤ w.weight.toNat) (hweight' : w.weight.toNat ≤ 65535)
    (hrates : ratesOk w.cir w.pir w.cbs w.pbs = true)
    (hparent : hostParent w.dir.toNat w.level.toNat = true →
      s.parentFits half (ndNum w.dir.toNat w.level.toNat w.index.toNat) w.parent.toNat = true)
    (hroot : w.level = 1 → w.cir = 0 ∧ w.pir = 0) :
    (!s.nodeOk half w.dir.toNat w.level.toNat w.index.toNat || 1 < w.enable.toNat || 7 < w.band.toNat || w.weight.toNat < 1
      || 65535 < w.weight.toNat || !ratesOk w.cir w.pir w.cbs w.pbs
      || (hostParent w.dir.toNat w.level.toNat && !s.parentFits half (ndNum w.dir.toNat w.level.toNat w.index.toNat) w.parent.toNat)
      || (w.level.toNat = 1 && (w.cir != 0 || w.pir != 0))) = false := by
  have hfits : (hostParent w.dir.toNat w.level.toNat
      && !s.parentFits half (ndNum w.dir.toNat w.level.toNat w.index.toNat) w.parent.toNat) = false := by
    cases hhost : hostParent w.dir.toNat w.level.toNat with
    | false => rfl
    | true => simp [hparent hhost]
  have hnumbers : (decide (1 < w.enable.toNat) || decide (7 < w.band.toNat) || decide (w.weight.toNat < 1)
      || decide (65535 < w.weight.toNat)) = false := by
    simp
    omega
  simp only [Bool.or_eq_false_iff] at hnumbers ⊢
  obtain ⟨⟨⟨he, hb⟩, hw⟩, hw'⟩ := hnumbers
  exact ⟨⟨⟨⟨⟨⟨⟨congrArg not hnode, he⟩, hb⟩, hw⟩, hw'⟩, congrArg not hrates⟩, hfits⟩, rootRates_ok hroot⟩

end

/-- Settles O25: each command by `halfCommand_claimable` or `queueCommand_held`, its operands good. -/
theorem schedulerCommandsComplete : Obligations.SchedulerCommandsComplete := by
  refine ⟨?node, ?get, ?attach, ?detach, ?overhead, ?policer, ?read, ?status⟩
  case node =>
    intro h w s hready hnode henable hband hweight hweight' hrates hparent hroot hchildren hfree num i cfg par bursts rates fill
    have hidle : ¬ (w.enable = 0 ∧ s.hasChildren h.die.toNat num = true) :=
      fun ⟨hdisabled, hbusy⟩ => Bool.eq_false_iff.1 (hchildren hdisabled) hbusy
    exact halfCommand_claimable hready (nodeSet_good (s := s.start _) hnode henable hband hweight hweight' hrates hparent hroot) hfree
      (if_neg hidle)
  case get =>
    intro h dir level index s hready hnode
    refine completed_of hready ((if_neg (bnot_ne_true hnode)).trans ?_)
    simp only [start_ndBuckets, start_ndRates, start_ndParent]
    rfl
  case attach =>
    intro h queue w k q s hready hqueue hhalf hband hweight hweight' hgate hrates hfits hroom hfree i num cfg rates attached fill
    have hgood : (7 < w.band.toNat || w.weight.toNat < 1 || 65535 < w.weight.toNat || 7 < w.gate.toNat
        || !ratesOk w.cir w.pir w.cbs w.pbs) = false := by
      simp [hrates]
      omega
    have hroom' : ¬ ((!(s.queue k q).attached) = true ∧ (if qIsUp q then 65536 else 131072) ≤ s.attachedCount k (qIsUp q)) :=
      fun ⟨hnew, hfull⟩ => Nat.not_lt.2 hfull (hroom (by simpa using hnew))
    exact queueCommand_held hready hqueue hhalf hgood (not_any_claimed hfree) ((if_neg (bnot_ne_true hfits)).trans (if_neg hroom'))
  case detach =>
    intro h queue k q s hready hqueue hhalf hdepth hframes hfree detached
    have hempty : ¬ ((s.queue k q).depth ≠ 0 ∨ (!(s.queue k q).frames.isEmpty) = true) :=
      not_or.2 ⟨not_not.2 hdepth, bnot_ne_true hframes⟩
    exact queueCommand_held hready hqueue hhalf rfl (not_any_claimed hfree) (if_neg hempty)
  case overhead =>
    intro h egress ovh k g s hready hcontroller hlow hhigh hfree
    have hready' : s.ready h 0x090B (match s.controller egress with | some (half, _) => .owner half | none => .oneOf [0, 1, 15]) = true := by
      rw [hcontroller]
      exact hready
    have hcontroller' (c : Caller) : (s.start c).controller egress = some (k, g) := hcontroller
    refine completed_of hready' ?_
    simp only [hcontroller', if_neg (by omega : ¬ (signedOf 32 ovh.toNat < -64 ∨ 255 < signedOf 32 ovh.toNat))]
    exact unlessClaimed_one (s := s.start _) hfree
  case policer =>
    intro h policer w s hready hpolicer hvalid htyp haware hdei hcf hred hcir heir hcbs hebs hfree i written
    have hgood : (131071 < policer.toNat || 1 < w.valid.toNat || 2 < w.typ.toNat || 1 < w.aware.toNat || 1 < w.deiIn.toNat
        || 1 < w.cf.toNat || 1 < w.redAct.toNat || !rateOk w.cir || !rateOk w.eir || !burstOk w.cbs
        || !(burstOk w.ebs || w.ebs = 0)) = false := by
      simp [hcir, heir, hcbs]
      exact ⟨by omega, fun hburst => hebs.resolve_left (by simp [hburst])⟩
    exact halfCommand_claimable hready hgood hfree rfl
  case read =>
    intro h policer s hready hpolicer
    have hgood : (decide (131071 < policer.toNat)) = false := by simp; omega
    exact completed_of hready (if_neg (Bool.eq_false_iff.1 hgood))
  case status =>
    intro h s hready
    exact completed_of hready rfl

end Sys2Proof

/-! The GATE commands and the list control register (R387, R390, R394, R396, R397, R401, R405, R406). -/

namespace Sys2Proof

open Machine

section
variable {s : State} {h : Hdr} {op k g : Nat} {ctl : Word} {f : State → State} {st : Status} {ws : List Word}

/-- A gate command's header is that of the controller's half. -/
theorem gateRule_ready (hready : s.ready h op (.owner k) = true) (hctl : s.controller ctl = some (k, g)) :
    s.ready h op (match s.controller ctl with | some (half, _) => .owner half | none => .oneOf [0, 1, 15]) = true := by
  rw [hctl]
  exact hready

/-- A command on a gate controller, its operands good and its block unclaimed, has its body's result. -/
theorem gateCommand_free {bad : Bool} {body : Nat → Nat → State → Res} (hready : s.ready h op (.owner k) = true)
    (hctl : s.controller ctl = some (k, g)) (hgood : bad = false) (hfree : s.claimed k .gt = false)
    (hbody : body k g (s.start (callerOf h op)) = ⟨f (s.start (callerOf h op)), st, ws, false⟩) :
    Host.Outcome.next (gateCommand h op ctl bad body s) = (completed h op s f ws st : Host.Outcome State Fault Refusal) := by
  have hctl' (c : Caller) : (s.start c).controller ctl = some (k, g) := hctl
  refine completed_of (gateRule_ready hready hctl) ?_
  simp only [hctl', hgood, Bool.false_eq_true, if_false]
  exact (unlessClaimed_one (s := s.start _) hfree).trans hbody

theorem setReg_nowOn (r : Reg) (i : Nat) (v : Word) (die : Nat) : (s.setReg r i v).nowOn die = s.nowOn die := (rfl)

theorem stageList_nowOn (base cycle die : Nat) : (s.stageList k g base cycle).nowOn die = s.nowOn die := (rfl)

/-- R396: a staged list starts where the time before its staging says. -/
theorem armList_staged (base cycle cycle' count : Nat) :
    (s.stageList k g base cycle').armList k g base cycle count =
      ((s.stageList k g base cycle').armAt k g (startOf (s.nowOn k) base cycle).1 cycle count).noteAdvance k g
        (startOf (s.nowOn k) base cycle).2 := by
  rw [State.armList, stageList_nowOn]

theorem cancels_iff {l : GateList} (harmed : (s.storeOf k).armed.find g = some l) :
    s.cancels k g = !reached (s.nowOn k) l.start := by
  simp only [State.cancels, harmed]

/-- R397: a list that has not started is disarmed. -/
theorem disarm_waiting {l : GateList} (harmed : (s.storeOf k).armed.find g = some l) (hwaits : reached (s.nowOn k) l.start = false) :
    s.disarm k g = (s.modStore k (fun st => { st with armed := st.armed.del g })).setFlag .gtListCtlArm (k * 128 + g) false :=
  if_pos ((cancels_iff harmed).trans (congrArg not hwaits))

/-- R405: a claimed write of the list control with a count in range, its latch bit clear, arms or disarms. -/
theorem writeListCtl_claimed {p : APath} {data : Word} (hmay : s.mayRwc p k .gt = true) (hlatch : data.getLsbD 16 = false)
    (hlow : 1 ≤ fldOf .gtListCtlCount data) (hhigh : fldOf .gtListCtlCount data ≤ 1024) :
    s.writeListCtl p k g data =
      if data.getLsbD 31 then
        if (s.storeOf k).armed.has g then s.gtReject k g
        else s.armList k g (s.stagedBase k g) (s.reg .gtCycle (k * 128 + g)).toNat (fldOf .gtListCtlCount data)
      else (s.disarm k g).setFld .gtListCtlCount (k * 128 + g) (fldOf .gtListCtlCount data) := by
  have hcount : ¬ (fldOf .gtListCtlCount data < 1 ∨ 1024 < fldOf .gtListCtlCount data) := by omega
  simp only [State.writeListCtl, hlatch, hmay, if_neg hcount, Bool.false_eq_true, false_and, Bool.not_true, if_false]

/-- R396, R405: such a write arms the staged list where no list is armed. -/
theorem writeListCtl_arms {p : APath} {data : Word} (hmay : s.mayRwc p k .gt = true) (hlatch : data.getLsbD 16 = false)
    (harm : data.getLsbD 31 = true) (hlow : 1 ≤ fldOf .gtListCtlCount data) (hhigh : fldOf .gtListCtlCount data ≤ 1024)
    (hidle : (s.storeOf k).armed.has g = false) :
    s.writeListCtl p k g data =
      (s.armAt k g (startOf (s.nowOn k) (s.stagedBase k g) (s.reg .gtCycle (k * 128 + g)).toNat).1
        (s.reg .gtCycle (k * 128 + g)).toNat (fldOf .gtListCtlCount data)).noteAdvance k g
        (startOf (s.nowOn k) (s.stagedBase k g) (s.reg .gtCycle (k * 128 + g)).toNat).2 := by
  rw [writeListCtl_claimed hmay hlatch hlow hhigh, if_pos harm, if_neg (Bool.eq_false_iff.1 hidle), State.armList]

end

/-- Settles O26: each command by `gateCommand_free`; an expert write by `writeListCtl_claimed`. -/
theorem gateCommandsComplete : Obligations.GateCommandsComplete := by
  refine ⟨?gate, ?entries, ?start, ?cancel, ?disable, ?status, ?arm, ?disarm⟩
  case gate =>
    intro h ctl gate gmax guard k g s hready hctl hgate hlow hhigh hguard hfree
    have hgood : (7 < gate.toNat || gmax.toNat < 60 || 12288 < gmax.toNat || 262143 < guard.toNat) = false := by simp; omega
    exact gateCommand_free hready hctl hgood hfree rfl
  case entries =>
    intro h ctl first entries k g s hready hctl hlength hend hok hidle hfree stage
    have hgood : (508 < entries.length || 1024 < first.toNat + entries.length || !entries.all entryOk) = false := by
      rw [hok]
      simp
      omega
    exact gateCommand_free hready hctl hgood hfree (if_neg (Bool.eq_false_iff.1 hidle))
  case start =>
    intro h ctl base cycle count k g s hready hctl hbase hcycle hcycle' hcount hcount' hidle hfree
    have hgood : (!t3Ok base || cycle.toNat < 1000 || 1000000000 < cycle.toNat || count.toNat < 1 || 1024 < count.toNat) = false := by
      rw [hbase]
      simp
      omega
    refine gateCommand_free hready hctl hgood hfree ((if_neg (Bool.eq_false_iff.1 hidle)).trans ?_)
    simp only [armList_staged, start_nowOn]
    rfl
  case cancel =>
    intro h ctl l k g s hready hctl harmed hwaits hfree
    have hcancels (c : Caller) : (s.start c).cancels k g = true := (cancels_iff (s := s.start c) harmed).trans (congrArg not hwaits)
    refine gateCommand_free hready hctl rfl hfree ((if_pos (hcancels _)).trans ?_)
    rw [disarm_waiting (s := s.start _) harmed hwaits]
    rfl
  case disable =>
    intro h ctl base k g s hready hctl hbase hidle hfree
    refine gateCommand_free hready hctl (congrArg not hbase) hfree ((if_neg (Bool.eq_false_iff.1 hidle)).trans ?_)
    simp only [armList_staged, setReg_nowOn, start_nowOn]
    rfl
  case status =>
    intro h ctl k g s hready hctl i
    have hctl' (c : Caller) : (s.start c).controller ctl = some (k, g) := hctl
    refine completed_of (gateRule_ready hready hctl) ?_
    simp only [hctl']
    rfl
  case arm =>
    intro p half ctl data s hctl hgate hmay hlatch harm hlow hhigh hidle
    exact (congrArg Host.Outcome.next (if_pos ⟨hctl, congrArg not hgate⟩)).trans
      (congrArg _ (writeListCtl_arms hmay hlatch harm hlow hhigh hidle))
  case disarm =>
    intro p half ctl data l s hctl hgate hmay hlatch harm hlow hhigh harmed hwaits k g
    refine (congrArg Host.Outcome.next (if_pos ⟨hctl, congrArg not hgate⟩)).trans (congrArg _ ?_)
    rw [writeListCtl_claimed hmay hlatch hlow hhigh, if_neg (Bool.eq_false_iff.1 harm), disarm_waiting harmed hwaits]

end Sys2Proof

/-! Frames at the uplinks, packets of the paths and passes of the pipelines (R264, R281, R327, R340, R413, R414, R479-R486). -/

namespace Sys2Proof

open Machine

section
variable {s : State}

/-- A pipeline in service takes a line head, or an injected head where its slot is open and its ration unspent. -/
theorem pipelinePass_serving {half : BitVec 1} {up : Bool} {pipe : BitVec 4} (hserves : s.pipeServes half.toNat pipe.toNat = true)
    (hup : s.pipeUp half.toNat pipe.toNat = up) :
    execPipelinePass half up pipe s =
      if (!(Tbl.getD (s.fwdOf half.toNat).injected pipe.toNat []).isEmpty) = true ∧ s.slotOpen half.toNat pipe.toNat (9 + pipe.toNat) = true ∧
          (!s.rationWaits half.toNat (9 + pipe.toNat)) = true then .next (s.injectPass half.toNat pipe.toNat)
      else match s.lineHeads half.toNat pipe.toNat with
        | [] => .next s
        | x :: rest => .next (((s.setFwd half.toNat (if up then { s.fwdOf half.toNat with upHeads := rest }
            else { s.fwdOf half.toNat with downHeads := rest })).setTurns half.toNat pipe.toNat
              (Tbl.getD (s.fwdOf half.toNat).turns pipe.toNat 0 - 1)).firstPass half.toNat pipe.toNat x) := by
  have hpasses : ¬ (s.pipeUp half.toNat pipe.toNat ≠ up ∨ (!s.pipeServes half.toNat pipe.toNat) = true) :=
    not_or.2 ⟨not_not.2 hup, bnot_ne_true hserves⟩
  rw [execPipelinePass]
  exact if_neg hpasses

/-- An injected head whose ration serves it passes and is charged its slot. -/
theorem injectPass_served {half pipe : Nat} {x : Head} {rest : List Head} (hinjected : Tbl.getD (s.fwdOf half).injected pipe [] = x :: rest)
    (hserved : s.served half (9 + pipe) = true) :
    s.injectPass half pipe = (((((s.wantTime half (9 + pipe)).modFwd half (fun f =>
      { f with injected := f.injected.setD pipe [] rest })).setTurns half pipe 3).firstPass half pipe x).charge half (9 + pipe)
        (s.slotSpan half pipe)) := by
  simp only [State.injectPass, hinjected]
  exact rationed_served hserved

/-- A verdict ends the oldest frame that waits: counted where its FCS is bad, refused, judged by its ICV, or let through. -/
theorem icvVerdict_oldest {l : Lane} {e : FrameEnd} {v : Verdict} {rest : List Verdict}
    (hwaits : (s.secy (s.portOf l.toNat)).verdicts = v :: rest) :
    let p := s.portOf l.toNat
    let u := s.setSecy p { s.secy p with verdicts := rest }
    execIcvVerdict l e s =
      if (v.coming && !e.fcsOk) = true then
        .next (if v.refused then u.count .umacRxFcs p else (u.count .umacRxFcs p).frameEnds v.frame.name false)
      else if v.refused = true then .next u
      else match v.sa with
        | some (k, pn) => .next (u.icvEnds p v.frame k pn (v.icv.getD e.icv.toNat))
        | none => .next (u.frameEnds v.frame.name true) := by
  simp only [execIcvVerdict, hwaits] <;> rfl

/-- An inject descriptor of a frame of 60 to 12,288 bytes names no bad target but an ingress that is not there. -/
theorem injectLength_ok {len target : Nat} {p : Prop} (htarget : target < 2) (hlow : 60 ≤ len) (hhigh : len ≤ 12288) (hp : ¬ p) :
    ¬ (2 ≤ target ∨ len < 60 ∨ 12288 < len ∨ p) := by
  rintro (h | h | h | h)
  · omega
  · omega
  · omega
  · exact hp h

/-- R480: a good configuration that enables a ring which was off puts it in service. -/
theorem writeRingCfg_enables {r : Nat} {data : Word} (hgood : (writeWord .lshRingCfg (s.reg .lshRingCfg r) data true).2.1 = false)
    (hoff : fldOf .lshRingCfgEn (s.reg .lshRingCfg r) = 0)
    (hon : fldOf .lshRingCfgEn (writeWord .lshRingCfg (s.reg .lshRingCfg r) data true).1 = 1) :
    s.writeRingCfg r data = (s.setReg .lshRingCfg r (writeWord .lshRingCfg (s.reg .lshRingCfg r) data true).1).enableRing r := by
  have hnew : ¬ (fldOf .lshRingCfgEn (s.reg .lshRingCfg r) = 1 ∧
      fldOf .lshRingCfgSize data ≠ fldOf .lshRingCfgSize (s.reg .lshRingCfg r)) := by simp [hoff]
  have henables : (!decide (fldOf .lshRingCfgEn (s.reg .lshRingCfg r) = 1)) = true ∧
      fldOf .lshRingCfgEn (writeWord .lshRingCfg (s.reg .lshRingCfg r) data true).1 = 1 := by simp [hoff, hon]
  rw [State.writeRingCfg, if_neg hnew]
  simp only [hgood, Bool.false_eq_true, if_false, if_pos henables]

end

section
variable {s : State} {w0 w1 w2 w3 : Word} {name : BitVec 32} {head : List Byte} {pipe : BitVec 4}

/-- R264: a descriptor that names a queue of a half with room is injected there. -/
theorem injectRingRead_queue (hunread : s.unread 3 = true) (htarget : fieldOf 30 2 w0 = 1) (hlow : 60 ≤ fieldOf 0 14 w0)
    (hhigh : fieldOf 0 14 w0 ≤ 12288)
    (hroom : s.hostUsed ((s.queueHalf (fieldOf 0 19 w2)).getD 0) + cellsOf (fieldOf 0 14 w0) ≤
      s.hostPool ((s.queueHalf (fieldOf 0 19 w2)).getD 0))
    (hdecisions : s.decisionsLeft ((s.queueHalf (fieldOf 0 19 w2)).getD 0) ≠ 0) :
    execInjectRingRead w0 w1 w2 w3 name head pipe s =
      .next ((s.ringStep 3).injectQueue (fieldOf 0 19 w2) ⟨name.toNat, fieldOf 0 14 w0, head⟩) := by
  have hgood := injectLength_ok (target := 1) (p := False) (by omega) hlow hhigh id
  simp only [execInjectRingRead, htarget, hunread, if_neg hgood, hdecisions, Nat.not_lt.2 hroom, one_ne_zero, false_and, and_false,
    if_false, if_true, Bool.not_true, Bool.false_eq_true, or_self]

/-- R264: a descriptor that names an ingress is injected into a pipeline of its direction that serves and whose ration is unspent. -/
theorem injectRingRead_ingress {up : Bool} {i half : Nat} (hup : w1.getLsbD 31 = up) (hi : fieldOf 0 16 w1 = i)
    (hhalf : (if up then halfOfChan i else halfOfLane i) = half) (hunread : s.unread 3 = true) (htarget : fieldOf 30 2 w0 = 0)
    (hlow : 60 ≤ fieldOf 0 14 w0) (hhigh : fieldOf 0 14 w0 ≤ 12288) (hingress : i < s.ingresses up) :
    let v := s.wantTime half (9 + pipe.toNat)
    v.pipeUp half pipe.toNat = up → v.pipeServes half pipe.toNat = true → v.rationWaits half (9 + pipe.toNat) = false →
    v.hostUsed half + cellsOf (fieldOf 0 14 w0) ≤ v.hostPool half → v.unread 3 = true → i < v.ingresses up →
    execInjectRingRead w0 w1 w2 w3 name head pipe s =
      .next ((v.ringStep 3).injectHead pipe.toNat up i ⟨name.toNat, fieldOf 0 14 w0, head⟩) := by
  intro v hdir hserves hration hroom hunread' hingress'
  have hgood := injectLength_ok (target := 0) (p := v.ingresses up ≤ i) (by omega) hlow hhigh (Nat.not_le.2 hingress')
  simp only [v] at hgood hdir hserves hration hroom hunread'
  simp only [execInjectRingRead, htarget, hup, hi, hhalf, hunread, hingress, zero_ne_one, and_self, true_and, if_false, if_true,
    if_neg hgood, hunread', hdir, hserves, hration, Nat.not_lt.2 hroom, ne_eq, not_true_eq_false, Bool.not_true,
    Bool.false_eq_true, or_self, false_and]
  rfl

end

/-- Settles O31: the passes by `pipelinePass_serving`, the verdicts by `icvVerdict_oldest`, the inject ring by `injectRingRead_queue` and
`injectRingRead_ingress`, the other events by their checks. -/
theorem frontEventsComplete : Obligations.FrontEventsComplete := by
  refine ⟨?frame, ?verdict, ?line, ?injected, ?recirculated, ?ring, ?traps, ?queue, ?ingress, ?mailbox, ?ack, ?read, ?address, ?ibi, ?inband,
    ?pointer, ?config⟩
  case frame =>
    intro l r s hrx
    exact congrArg Host.Outcome.next (if_pos hrx)
  case verdict =>
    intro l e v rest s hwaits p u
    have hends := icvVerdict_oldest (e := e) hwaits
    refine ⟨fun hcoming hbad => hends.trans (if_pos (by simp [hcoming, hbad])), fun hgood => ?_⟩
    have hgood' : ¬ (v.coming && !e.fcsOk) = true := by
      rcases hgood with h | h <;> simp [h]
    have hends' := hends.trans (if_neg hgood')
    refine ⟨fun hrefused => hends'.trans (if_pos hrefused), fun k pn hlet hsa => ?_, fun hlet hsa => ?_⟩
    · rw [show exec (.icvVerdict l e) s = _ from hends', if_neg (Bool.eq_false_iff.1 hlet), hsa]
    · rw [show exec (.icvVerdict l e) s = _ from hends', if_neg (Bool.eq_false_iff.1 hlet), hsa]
  case line =>
    intro half up pipe x rest s hserves hup hnone hline k f
    refine (pipelinePass_serving hserves hup).trans ((if_neg ?_).trans ?_)
    · simp [hnone]
    · rw [hline]
  case injected =>
    intro half up pipe x rest s hserves hup hinjected hopen hration hserved k v
    refine (pipelinePass_serving hserves hup).trans ((if_pos ⟨?_, hopen, congrArg not hration⟩).trans ?_)
    · exact congrArg Host.Outcome.next (injectPass_served hinjected hserved)
    · rw [hinjected]
      rfl
  case recirculated =>
    intro half pipe x rest s hrecirc hopen hserved k p
    show execRecircPass half pipe s = _
    simp only [execRecircPass, hrecirc, hopen, if_true]
    exact congrArg Host.Outcome.next (rationed_served hserved)
  case ring =>
    intro packet s hunread hroom
    exact if_pos (by simp [hunread, hroom])
  case traps => exact fun s => rfl
  case queue =>
    intro w0 w1 w2 w3 name head pipe s hunread htarget hlow hhigh hroom hdecisions
    exact injectRingRead_queue (w3 := w3) hunread htarget hlow hhigh hroom hdecisions
  case ingress =>
    intro w0 w1 w2 w3 name head pipe s hunread htarget hlow hhigh up i half hingress v hdir hserves hration hroom hunread' hingress'
    exact injectRingRead_ingress (w3 := w3) rfl rfl rfl hunread htarget hlow hhigh hingress hdir hserves hration hroom hunread' hingress'
  case mailbox =>
    intro bytes s hup hempty hinflight
    refine (next_ite_neg (bnot_ne_true hup)).trans (next_ite_neg ?_)
    simp [hempty, hinflight]
  case ack =>
    intro tag r s hup hmail htag
    refine (next_ite_neg (bnot_ne_true hup)).trans ?_
    simp only [hmail, htag, if_true]
    rfl
  case read =>
    intro r rest s hup harmed hmail v
    refine (next_ite_neg (bnot_ne_true hup)).trans ?_
    simp only [harmed, hmail, if_true]
    rfl
  case address =>
    intro addr s hup
    exact if_pos hup
  case ibi =>
    intro on s hup
    exact if_pos hup
  case inband =>
    intro l packet cmac src vlan s hport hup hroom
    refine (next_ite_neg (not_or.2 ⟨bnot_ne_true hport, bnot_ne_true hup⟩)).trans (next_ite_neg (Nat.not_le.2 hroom))
  case pointer =>
    intro p data s hring hhost
    show Host.Outcome.next (s.writeRingPtr _ _) = _
    rw [hring]
    exact (next_ite_neg (Nat.not_le.2 hhost)).trans (next_ite_pos (.inl rfl))
  case config =>
    intro p data s hgood hoff hon
    exact congrArg Host.Outcome.next (writeRingCfg_enables hgood hoff hon)

end Sys2Proof

/-! The KEY commands of roles, keys and SAs (R413-R420, R431, R432, R434). -/

namespace Sys2Proof

open Machine

section
variable {s : State} {h : Hdr} {op : Nat} {rule : DieRule} {f : State → State} {st : Status} {ws : List Word} {r : Res}

/-- A body that has answered by itself leaves the command no reply to make. -/
theorem waiting_answered {body : Caller → State → Res} (hready : s.ready h op rule = true)
    (hbody : body (callerOf h op) (s.start (callerOf h op)) = ⟨f (s.start (callerOf h op)), st, ws, true⟩) :
    Host.Outcome.next (command h op rule body s) = (waiting h op s f : Host.Outcome State Fault Refusal) :=
  waiting_of hready (congrArg Res.held hbody) (congrArg Res.st hbody)

/-- A KEY command that its gate lets pass has its body's result. -/
theorem keyCommand_open {body : Caller → State → Res} (hready : s.ready h op rule = true) (herror : s.errorState = false)
    (hraw : s.lifecycle ≠ 0) (hretired : s.lifecycle ≠ 3)
    (hbody : body (callerOf h op) (s.start (callerOf h op)) = ⟨f (s.start (callerOf h op)), st, ws, false⟩) :
    Host.Outcome.next (command h op rule (fun c s => s.keyGate op (body c s)) s) =
      (completed h op s f ws st : Host.Outcome State Fault Refusal) :=
  completed_of hready ((keyGate_open (s := s.start _) herror hraw hretired).trans hbody)

/-- A KEY command that its gate lets pass, its reply to wait. -/
theorem keyCommand_waits {body : Caller → State → Res} (hready : s.ready h op rule = true) (herror : s.errorState = false)
    (hraw : s.lifecycle ≠ 0) (hretired : s.lifecycle ≠ 3)
    (hbody : body (callerOf h op) (s.start (callerOf h op)) = ⟨f (s.start (callerOf h op)), st, ws, true⟩) :
    Host.Outcome.next (command h op rule (fun c s => s.keyGate op (body c s)) s) =
      (waiting h op s f : Host.Outcome State Fault Refusal) :=
  waiting_answered hready ((keyGate_open (s := s.start _) herror hraw hretired).trans hbody)

theorem unlessClaimed_unclaimed {bs : List (Nat × Blk)} (hfree : s.unclaimed bs = true) : s.unlessClaimed bs r = r :=
  unlessClaimed_free (unclaimed_iff.1 hfree)

/-- What an officer's command does on blocks no other path claims. -/
theorem officer_unclaimed {bs : List (Nat × Blk)} (hfree : s.unclaimed bs = true) (hofficer : s.isOfficer h.path = true) :
    s.unlessClaimed bs (s.officerOnly h r) = r :=
  (unlessClaimed_unclaimed hfree).trans (officerOnly_officer hofficer)

theorem unclaimed_one {d : Nat} {b : Blk} (hfree : s.claimed d b = false) : s.unclaimed [(d, b)] = true := by
  simp [State.unclaimed, hfree]

theorem unclaimed_two {d e : Nat} {b b' : Blk} (hfree : s.claimed d b = false) (hfree' : s.claimed e b' = false) :
    s.unclaimed [(d, b), (e, b')] = true := by
  simp [State.unclaimed, hfree, hfree']

end

/-- The keys that a loaded value makes: an MSK its four, another key itself (R416, R418). -/
def loadedKeys (k : KeyKind) (target die v bits : Nat) : List VKey :=
  if k = .msk then mskKeys target die v bits else [⟨k, target, die, v, bits, 0, true⟩]

theorem loadedKeys_length (k : KeyKind) (target die v bits : Nat) : (loadedKeys k target die v bits).length = if k = .msk then 4 else 1 := by
  unfold loadedKeys
  split <;> rfl

section
variable {s : State} {h : Hdr} {kind target clear : Word} {key : List Word} {half die n : Nat} {k : KeyKind}

/-- LOAD's header is that of the place its key goes to. -/
theorem loadRule_ready (htarget : s.loadTarget kind.toNat target.toNat = some (half, die, k))
    (hready : s.ready h 0x0B03 (if kind = 2 then .owner half else .owner die) = true) :
    s.ready h 0x0B03 (match s.loadTarget kind.toNat target.toNat with
      | some (half, die, _) => if kind = 2 then .owner half else .owner die
      | none => .oneOf (List.range 16)) = true := by
  rw [htarget]
  exact hready

/-- What LOAD asks of its operands, its caller and the die before it looks at the key: a length of 4 or 8 words, an officer, no tamper, no
strict mode for a clear key, no erased KLK for a wrapped one, a cluster in service (R416, R417, R431). -/
structure LoadFits (s : State) (h : Hdr) (clear : Word) (key : List Word) (half die n : Nat) : Prop where
  isFlag : flagOk clear = true
  length : (if clear = 1 then key.length else key.length - 2) = n
  size : n = 4 ∨ n = 8
  wrapper : clear ≠ 1 → 2 ≤ key.length
  unclaimed : s.unclaimed [(half, .kv), clusterBlk die] = true
  officer : s.isOfficer h.path = true
  untampered : s.tampered = false
  strict : clear = 1 → s.flag .secCfgStrict 0 = false
  klk : clear ≠ 1 → s.cipher.klkErased.has (pathCode h.path) = false
  cluster : s.clusterOut die = false

theorem LoadFits.start (hfits : LoadFits s h clear key half die n) (c : Caller) : LoadFits (s.start c) h clear key half die n := by
  obtain ⟨hflag, hlength, hsize, hwrapper, hfree, hofficer, htamper, hstrict, hklk, hcluster⟩ := hfits
  exact ⟨hflag, hlength, hsize, hwrapper, hfree, hofficer, htamper, hstrict, hklk, hcluster⟩

theorem start_freeHandles (c : Caller) (half n : Nat) : (s.start c).freeHandles half n = s.freeHandles half n := by
  induction n with
  | zero => rfl
  | succ n ih =>
    simp only [State.freeHandles, ih]
    rfl

/-- A load that fits passes every check before that of the key. -/
theorem keyLoad_fits {u : State} {r : Res} (hfits : LoadFits u h clear key half die n) :
    (if (!flagOk clear) = true ∨ ¬ ((if clear = 1 then key.length else key.length - 2) = 4 ∨
        (if clear = 1 then key.length else key.length - 2) = 8) ∨ clear ≠ 1 ∧ key.length < 2 then .fail u .badParam
      else u.unlessClaimed [(half, .kv), clusterBlk die] (u.officerOnly h (u.creates (
        if clear = 1 ∧ u.flag .secCfgStrict 0 = true then .fail u .notApprovedMode
        else if clear ≠ 1 ∧ u.cipher.klkErased.has (pathCode h.path) = true then .fail u .zeroized
        else if u.clusterOut die = true then .fail u .zeroized
        else r)))) = r := by
  obtain ⟨hflag, hlength, hsize, hwrapper, hfree, hofficer, htamper, hstrict, hklk, hcluster⟩ := hfits
  have hgood : ¬ ((!flagOk clear) = true ∨ ¬ ((if clear = 1 then key.length else key.length - 2) = 4 ∨
      (if clear = 1 then key.length else key.length - 2) = 8) ∨ clear ≠ 1 ∧ key.length < 2) := by
    rw [hlength]
    exact not_or.2 ⟨bnot_ne_true hflag, not_or.2 ⟨not_not.2 hsize, fun ⟨hwrapped, hshort⟩ => Nat.not_lt.2 (hwrapper hwrapped) hshort⟩⟩
  have hallowed : ¬ (clear = 1 ∧ u.flag .secCfgStrict 0 = true) := fun ⟨hc, hs⟩ => Bool.eq_false_iff.1 (hstrict hc) hs
  have hstands : ¬ (clear ≠ 1 ∧ u.cipher.klkErased.has (pathCode h.path) = true) := fun ⟨hc, hs⟩ => Bool.eq_false_iff.1 (hklk hc) hs
  rw [if_neg hgood, officer_unclaimed hfree hofficer, creates_untampered htamper, if_neg hallowed, if_neg hstands,
    if_neg (Bool.eq_false_iff.1 hcluster)]

/-- The delivery that a load of a value queues, on the state that its key's kind leaves. -/
def loadDelivery (u : State) (c : Caller) (half : Nat) (ks : List VKey) : State :=
  u.modCipher (fun x => { x with deliveries := x.deliveries ++ [⟨c, half, (u.freeHandles half ks.length).zip ks,
    ((u.freeHandles half ks.length).take 1).map (BitVec.ofNat 32)⟩] })

/-- A delivery that a command's start precedes takes the handles that are free before it. -/
theorem loadDelivery_start {c : Caller} {ks : List VKey} :
    loadDelivery (s.start c) c half ks = (s.start c).modCipher (fun x => { x with deliveries := x.deliveries ++
      [⟨c, half, (s.freeHandles half ks.length).zip ks, ((s.freeHandles half ks.length).take 1).map (BitVec.ofNat 32)⟩] }) := by
  simp only [loadDelivery, start_freeHandles]

/-- R416, R418: a load whose key has a value, and whose half has room, is delivered. -/
theorem keyLoad_delivers {v : Nat} (hready : s.ready h 0x0B03 (if kind = 2 then .owner half else .owner die) = true)
    (htarget : s.loadTarget kind.toNat target.toNat = some (half, die, k)) (herror : s.errorState = false)
    (hraw : s.lifecycle ≠ 0) (hretired : s.lifecycle ≠ 3) (hfits : LoadFits s h clear key half die n)
    (hvalue : unwrap (s.cipher.klks.find (pathCode h.path)) (clear = 1) key = some v)
    (hroom : s.vaultRoom half (loadedKeys k target.toNat die v (32 * n)).length (decide (k = .job)) = true) :
    execKeyLoad h kind target key clear s = waiting h 0x0B03 s (fun u =>
      loadDelivery (if clear = 1 then u.notApproved else u) (callerOf h 0x0B03) half (loadedKeys k target.toNat die v (32 * n))) := by
  have htarget' (c : Caller) : (s.start c).loadTarget kind.toNat target.toNat = some (half, die, k) := htarget
  have hvalue' (c : Caller) : unwrap ((s.start c).cipher.klks.find (pathCode h.path)) (clear = 1) key = some v := hvalue
  refine keyCommand_waits (st := .ok) (ws := []) (loadRule_ready htarget hready) herror hraw hretired ?_
  simp only [htarget']
  refine (keyLoad_fits (hfits.start _)).trans ?_
  simp only [hvalue', hfits.length]
  exact if_neg (bnot_ne_true hroom)

/-- R416: a load whose key does not unwrap is counted, raised and refused. -/
theorem keyLoad_refused (hready : s.ready h 0x0B03 (if kind = 2 then .owner half else .owner die) = true)
    (htarget : s.loadTarget kind.toNat target.toNat = some (half, die, k)) (herror : s.errorState = false)
    (hraw : s.lifecycle ≠ 0) (hretired : s.lifecycle ≠ 3) (hfits : LoadFits s h clear key half die n)
    (hvalue : unwrap (s.cipher.klks.find (pathCode h.path)) (clear = 1) key = none) :
    execKeyLoad h kind target key clear s =
      completed h 0x0B03 s (fun u => u.report .kvUnwrapBad half .kvUnwrapBad half 0) [] .badParam := by
  have htarget' (c : Caller) : (s.start c).loadTarget kind.toNat target.toNat = some (half, die, k) := htarget
  have hvalue' (c : Caller) : unwrap ((s.start c).cipher.klks.find (pathCode h.path)) (clear = 1) key = none := hvalue
  refine keyCommand_open (loadRule_ready htarget hready) herror hraw hretired ?_
  simp only [htarget']
  refine (keyLoad_fits (hfits.start _)).trans ?_
  simp only [hvalue']
  rfl

end

/-- The operands of MSC_SA_SET that the statement asks for pass its checks (R415). -/
theorem saWords_good {s : State} {w : SaWords} (hport : w.port.toNat ≤ 63) (hown : s.portOf w.port.toNat = w.port.toNat)
    (hdir : w.dir.toNat ≤ 1) (han : w.an.toNat ≤ 3) (hsuite : w.suite.toNat ≤ 3) (hoffset : w.offset.toNat ≤ 2)
    (hvalidate : w.validate.toNat < 2) (hpn : w.pnHi.toNat * 2 ^ 32 + w.pnLo.toNat ≠ 0)
    (hpn32 : w.suite.toNat < 2 → w.pnHi.toNat * 2 ^ 32 + w.pnLo.toNat < 2 ^ 32) :
    ¬ (63 < w.port.toNat ∨ s.portOf w.port.toNat ≠ w.port.toNat ∨ 1 < w.dir.toNat ∨ 3 < w.an.toNat ∨ 3 < w.suite.toNat ∨
      2 < w.offset.toNat ∨ (!flagOk w.validate) = true ∨ w.pnHi.toNat * 2 ^ 32 + w.pnLo.toNat = 0 ∨
      (w.suite.toNat < 2 ∧ 2 ^ 32 ≤ w.pnHi.toNat * 2 ^ 32 + w.pnLo.toNat)) := by
  rintro (hbad | hbad | hbad | hbad | hbad | hbad | hbad | hbad | ⟨hshort, hbad⟩)
  · exact Nat.not_le.2 hbad hport
  · exact hbad hown
  · exact Nat.not_le.2 hbad hdir
  · exact Nat.not_le.2 hbad han
  · exact Nat.not_le.2 hbad hsuite
  · exact Nat.not_le.2 hbad hoffset
  · exact not_bnot_flagOk hvalidate hbad
  · exact hpn hbad
  · exact Nat.not_le.2 (hpn32 hshort) hbad

/-- Settles O35: each command by `keyCommand_open` or `keyCommand_waits`, its operands good, its blocks free, its caller an officer. -/
theorem keyCommandsComplete : Obligations.KeyCommandsComplete := by
  refine ⟨?nonce, ?login, ?logout, ?agree, ?clear, ?wrapped, ?delivered, ?erase, ?bcast, ?announce, ?receive, ?transmit, ?change, ?status⟩
  case nonce =>
    intro h phase s hready herror hraw hretired hphase howned
    subst hphase
    refine keyCommand_open hready herror hraw hretired ((if_neg ?_).trans ((if_neg (not_not.2 howned)).trans (if_pos rfl)))
    simp
  case login =>
    intro h sig m s hready herror hraw hretired howned hlength hnonce ok
    have hnonce' (c : Caller) : (s.start c).cipher.nonces.find (pathCode h.path) = some m := hnonce
    refine keyCommand_open hready herror hraw hretired ((if_neg ?_).trans ((if_neg (not_not.2 howned)).trans ((if_neg ?_).trans ?_)))
    · simp [hlength]
    · decide
    · simp only [hnonce']
      by_cases hok : ok
      · simp only [if_pos hok]
        exact if_pos hok
      · simp only [if_neg hok]
        exact if_neg hok
  case logout =>
    intro h s hready herror hraw hretired hfree
    refine keyCommand_open hready herror hraw hretired (unlessClaimed_unclaimed (s := s.start _) ?_)
    split
    · next hklk => exact hfree hklk
    · rfl
  case agree =>
    intro h pub id s hready herror hraw hretired hlength hfree hfree' htamper hid
    have hid' (c : Caller) : (s.start c).cipher.identity = some id := hid
    refine keyCommand_open hready herror hraw hretired ((if_neg (not_not.2 hlength)).trans
      ((unlessClaimed_unclaimed (s := s.start _) (unclaimed_two hfree hfree')).trans
      ((creates_untampered (s := s.start _) htamper).trans ?_)))
    simp only [hid']
    rfl
  case clear =>
    intro h kind target key half die k s hready htarget herror hraw hretired hlength hfree hofficer htamper hstrict hout hroom ks
    have hfits : LoadFits s h 1 key half die key.length :=
      ⟨rfl, rfl, hlength, fun h => absurd rfl h, hfree, hofficer, htamper, fun _ => hstrict, fun h => absurd rfl h, hout⟩
    exact keyLoad_delivers hready htarget herror hraw hretired hfits rfl hroom
  case wrapped =>
    intro h kind target key half die k s hready htarget herror hraw hretired hlength hfree hofficer htamper herased hout hroom ks
    have hfits : LoadFits s h 0 key half die (key.length - 2) :=
      ⟨rfl, rfl, by omega, by omega, hfree, hofficer, htamper, fun h => absurd h (by decide), fun _ => herased, hout⟩
    cases hvalue : unwrap (s.cipher.klks.find (pathCode h.path)) false key with
    | none => exact keyLoad_refused hready htarget herror hraw hretired hfits hvalue
    | some v =>
      have hroom' : s.vaultRoom half (loadedKeys k target.toNat die v (32 * (key.length - 2))).length (decide (k = .job)) = true := by
        rw [loadedKeys_length]
        exact hroom
      refine (keyLoad_delivers hready htarget herror hraw hretired hfits hvalue hroom').trans (congrArg Host.Outcome.next ?_)
      exact loadDelivery_start
  case delivered =>
    intro half d s hdelivery
    show execKeyDelivered half s = _
    simp only [execKeyDelivered, hdelivery]
  case erase =>
    intro h handle k s hready herror hraw hretired hkey hfree hofficer hstands hidle
    have hkey' (c : Caller) : (s.start c).vault.find handle.toNat = some k := hkey
    refine keyCommand_open hready herror hraw hretired ?_
    simp only [hkey']
    exact (officer_unclaimed (s := s.start _) hfree hofficer).trans ((if_neg (bnot_ne_true hstands)).trans
      (if_neg (Bool.eq_false_iff.1 hidle)))
  case bcast =>
    intro h tree onus slot s hready herror hraw hretired htree hcount honus hfree hofficer htamper hkeks hout hslot hheld hroom
    have hgood : ¬ (31 < tree.toNat ∨ 64 < onus.length ∨
        onus.any (fun o => ((s.onu o.toNat).map (fun x => x.tree)) ≠ some tree.toNat) = true) :=
      not_or.2 ⟨by omega, not_or.2 ⟨by omega, Bool.eq_false_iff.1 honus⟩⟩
    have hstand : ¬ (onus.any (fun o => s.cipher.kekErased.has o.toNat) = true ∨ s.clusterOut (dieOfTree tree.toNat) = true) :=
      not_or.2 ⟨Bool.eq_false_iff.1 hkeks, Bool.eq_false_iff.1 hout⟩
    have hslot' (c : Caller) : (s.start c).bcastFree tree.toNat = some slot := hslot
    refine keyCommand_waits (st := .ok) (ws := []) hready herror hraw hretired ((if_neg hgood).trans
      ((officer_unclaimed (s := s.start _) hfree hofficer).trans ((creates_untampered (s := s.start _) htamper).trans
      ((if_neg hstand).trans ?_))))
    simp only [hslot']
    exact (if_neg (Bool.eq_false_iff.1 hheld)).trans ((if_neg (bnot_ne_true hroom)).trans rfl)
  case announce =>
    intro h tree cHi cLo slot k s hready herror hraw hretired htree hcount hahead hfree hofficer hlaunched hslot hkey
    have hgood : ¬ (31 < tree.toNat ∨ 2 ^ 51 ≤ cHi.toNat * 2 ^ 32 + cLo.toNat ∨
        (s.launched tree.toNat = true ∧ s.framesTo tree.toNat (cHi.toNat * 2 ^ 32 + cLo.toNat) < 64)) :=
      not_or.2 ⟨by omega, not_or.2 ⟨by omega, fun ⟨_, hnear⟩ => by omega⟩⟩
    have hslot' (c : Caller) : (s.start c).bcastFree tree.toNat = some slot := hslot
    have hkey' (c : Caller) : (s.start c).keyOf (.broadcast slot) tree.toNat = some k := hkey
    refine keyCommand_open hready herror hraw hretired ((if_neg hgood).trans
      ((officer_unclaimed (s := s.start _) (unclaimed_one hfree) hofficer).trans ((if_neg (bnot_ne_true hlaunched)).trans ?_)))
    simp only [hslot', hkey']
    rfl
  case receive =>
    intro h w k s hready herror hraw hretired hport hown hdir han hsuite hoffset hvalidate hpn hpn32 hkey hkind howner hbits hfree hofficer
      hstands hsas hchannels
    have hgood := saWords_good hport hown (by rw [hdir]; decide) han hsuite hoffset hvalidate hpn hpn32
    have hsak : ¬ (k.kind ≠ .sak ∨ k.owner ≠ w.port.toNat ∨ k.bits ≠ (if w.suite.toNat % 2 = 0 then 128 else 256)) :=
      not_or.2 ⟨not_not.2 hkind, not_or.2 ⟨not_not.2 howner, not_not.2 hbits⟩⟩
    have hkey' (c : Caller) : (s.start c).vault.find w.handle.toNat = some k := hkey
    refine keyCommand_open hready herror hraw hretired ((if_neg hgood).trans ?_)
    simp only [hkey']
    refine (if_neg hsak).trans ((officer_unclaimed (s := s.start _) (unclaimed_one hfree) hofficer).trans
      ((if_neg (bnot_ne_true hstands)).trans ((if_neg (by rw [hdir]; decide)).trans (if_neg ?_))))
    exact not_or.2 ⟨fun ⟨_, hfull⟩ => Nat.not_le.2 hsas hfull, fun ⟨_, hfull⟩ => Nat.not_le.2 hchannels hfull⟩
  case transmit =>
    intro h w k s hready herror hraw hretired hport hown hdir han hsuite hoffset hvalidate hpn hpn32 hkey hkind howner hbits hfree hofficer
      hstands hunused
    have hgood := saWords_good hport hown (by rw [hdir]; decide) han hsuite hoffset hvalidate hpn hpn32
    have hsak : ¬ (k.kind ≠ .sak ∨ k.owner ≠ w.port.toNat ∨ k.bits ≠ (if w.suite.toNat % 2 = 0 then 128 else 256)) :=
      not_or.2 ⟨not_not.2 hkind, not_or.2 ⟨not_not.2 howner, not_not.2 hbits⟩⟩
    have hidle : ¬ (w.an.toNat = s.fld .mscPortCfgTxAn w.port.toNat ∧ (s.secy w.port.toNat).tx.has w.an.toNat = true) :=
      fun ⟨hused, hset⟩ => hunused.elim (fun h => h hused.symm) (fun h => Bool.eq_false_iff.1 h hset)
    have hkey' (c : Caller) : (s.start c).vault.find w.handle.toNat = some k := hkey
    refine keyCommand_open hready herror hraw hretired ((if_neg hgood).trans ?_)
    simp only [hkey']
    exact (if_neg hsak).trans ((officer_unclaimed (s := s.start _) (unclaimed_one hfree) hofficer).trans
      ((if_neg (bnot_ne_true hstands)).trans ((if_pos hdir).trans (if_neg hidle))))
  case change =>
    intro h port an s hready herror hraw hretired hport hown han hsa hfree hofficer
    have hgood : ¬ (63 < port.toNat ∨ s.portOf port.toNat ≠ port.toNat ∨ 3 < an.toNat ∨
        (!(s.secy port.toNat).tx.has an.toNat) = true) :=
      not_or.2 ⟨by omega, not_or.2 ⟨not_not.2 hown, not_or.2 ⟨by omega, bnot_ne_true hsa⟩⟩⟩
    exact keyCommand_open hready herror hraw hretired ((if_neg hgood).trans
      (officer_unclaimed (s := s.start _) (unclaimed_one hfree) hofficer))
  case status =>
    intro h port s hready herror hraw hretired hport hown p y
    exact keyCommand_open hready herror hraw hretired (if_neg (not_or.2 ⟨by omega, not_not.2 hown⟩))

end Sys2Proof

/-! The KEY commands of jobs, zeroization and self-tests (R421, R425, R429, R434). -/

namespace Sys2Proof

open Machine

/-- The state in which a job's output is made: the job dropped, its IV taken, its segments and operands read (R421). -/
def jobRun (s : State) (j : Job) (k : VKey) : State :=
  (((s.dropJob j).jobIv j k).2.cipherItem (6 + j.half) 0 jobEgress (j.inLen + j.aadLen) j.chained
    |>.noteBytes j.half j.bank j.inOff j.inLen |>.noteBytes j.half j.bank j.aadOff j.aadLen)

def jobIvOf (s : State) (j : Job) (k : VKey) : Nat := ((s.dropJob j).jobIv j k).1

/-- What a job's function is taken of: its mode, key, IV, data and additional data. -/
def jobInputs (s : State) (j : Job) (k : VKey) : List Nat :=
  [j.mode, j.back.toNat, k.bits, k.value, jobIvOf s j k, j.inLen, j.aadLen] ++ (jobRun s j k).padBytes j.half j.bank j.inOff j.inLen ++
    (jobRun s j k).padBytes j.half j.bank j.aadOff j.aadLen

def jobTag (s : State) (j : Job) (k : VKey) : Nat := Config.standard 21 (jobInputs s j k) % 2 ^ 128

def jobOut (s : State) (j : Job) (k : VKey) (pass : Bool) : List Nat :=
  (List.range j.outLen).map (fun i => if pass then Config.standard 20 (i :: jobInputs s j k) % 256 else 0)

def jobPacked (j : Job) (out : List Nat) : List Word :=
  (List.range (ceilDiv j.outLen 4)).map (fun i => BitVec.ofNat 32 ((List.range 4).foldl
    (fun a b => a * 256 + out.getD (4 * i + b) 0) 0))

/-- A job's verdict: of a deciphering under a tag that of the tag, of an unwrapping that of the wrap, else good. -/
def jobVerdict (s : State) (j : Job) (k : VKey) : Bool :=
  if !j.back then true
  else if j.mode = modeGcm ∨ j.mode = modeCmac then decide (jobTag s j k = wordsNat j.tag)
  else if j.mode = modeKw then Config.standard 22 (jobInputs s j k) = 1 else true

/-- The state that a job with a verdict leaves: its output written, a failed one counted. -/
def jobWritten (s : State) (j : Job) (k : VKey) (pass : Bool) : State :=
  let u := (jobRun s j k).writeBytes j.half j.bank j.outOff (jobOut s j k pass)
  if pass then u else u.count .mscJobAuthFail (6 + j.half)

section
variable {s : State} {half : BitVec 1} {j : Job} {k : VKey} {pass : Bool}

/-- R421: the end of a half's first job answers IV, tag, verdict and output. -/
theorem jobDone_ends (hjob : s.cipher.jobs.find? (fun j => j.half = half.toNat) = some j) (hkey : s.vault.find j.handle = some k)
    (hpass : jobVerdict s j k = pass) :
    execJobDone half s = .next ((jobWritten s j k pass).answer j.caller .ok (natWords (ivWords j.mode) (jobIvOf s j k) ++
      ((if j.back = true ∨ ¬ (j.mode = modeGcm ∨ j.mode = modeCmac) then [] else natWords 4 (jobTag s j k)) ++
        ([BitVec.ofNat 32 pass.toNat] ++ jobPacked j (jobOut s j k pass))))) := by
  subst hpass
  rw [← List.append_assoc, ← List.append_assoc]
  simp only [execJobDone, hjob, hkey]
  by_cases htag : j.mode = modeGcm ∨ j.mode = modeCmac
  · simp only [jobWritten, jobVerdict, if_pos htag]
    rfl
  · have hbare : j.back = true ∨ ¬ (j.mode = modeGcm ∨ j.mode = modeCmac) := .inr htag
    simp only [jobWritten, jobVerdict, if_neg htag, if_pos hbare]
    rfl

theorem jobVerdict_forward (hback : j.back = false) : jobVerdict s j k = true := by simp [jobVerdict, hback]

theorem jobVerdict_tag (hback : j.back = true) (htag : j.mode = modeGcm ∨ j.mode = modeCmac) :
    jobVerdict s j k = decide (jobTag s j k = wordsNat j.tag) := by
  simp [jobVerdict, hback, htag]

theorem jobVerdict_unwrap (hback : j.back = true) (hmode : j.mode = modeKw) :
    jobVerdict s j k = decide (Config.standard 22 (jobInputs s j k) = 1) := by
  simp [jobVerdict, hback, hmode, modeKw, modeGcm, modeCmac]

theorem jobVerdict_plain (hmode : j.mode < 4) : jobVerdict s j k = true := by
  have htag : ¬ (j.mode = modeGcm ∨ j.mode = modeCmac) := by
    simp only [modeGcm, modeCmac]
    omega
  have hkw : j.mode ≠ modeKw := by
    simp only [modeKw]
    omega
  simp [jobVerdict, htag, hkw]

/-- In an error-free part of a lifecycle past RAW, STATUS passes the gate, retired too (R434). -/
theorem keyGate_status {r : Res} (herror : s.errorState = false) (hraw : s.lifecycle ≠ 0) : s.keyGate 0x0B0D r = r := by
  simp [State.keyGate, herror, hraw]

/-- R425: ZEROIZE's header is that of the die it acts on. -/
theorem zeroize_scope {h : Hdr} {scope object : Word} {z : ZScope} {rule : DieRule} (hready : s.ready h 0x0B0B rule = true)
    (hrule : (match (some z : Option ZScope) with
      | some (.cluster d _) | some (.die d) => DieRule.owner d
      | some .package => .package
      | none => .oneOf (List.range 16)) = rule)
    (herror : s.errorState = false) (hraw : s.lifecycle ≠ 0) (hretired : s.lifecycle ≠ 3)
    (hscope : zScopeOf scope.toNat object.toNat = some z) (hfree : s.unclaimed z.blocks = true) :
    execKeyZeroize h scope object s = completed h 0x0B0B s (fun u => u.zeroize z) := by
  simp only [execKeyZeroize, hscope]
  rw [← hrule] at hready
  exact keyCommand_open hready herror hraw hretired (unlessClaimed_unclaimed (s := s.start _) hfree)

end

/-- Settles O36: each command by `keyCommand_open`, a job's end by `jobDone_ends` under its verdict, an erasure by `zeroize_scope`. -/
theorem keyServiceCommandsComplete : Obligations.KeyServiceCommandsComplete := by
  refine ⟨?job, ?jobDone, ?die, ?cluster, ?package, ?selftest, ?tested, ?status⟩
  case job =>
    intro h w k s hready herror hraw hretired hdir hok hkey hkind howner hfree hofficer hon hbank hroom hasync hout hstands hcount
    have hkey' (c : Caller) : (s.start c).vault.find w.handle.toNat = some k := hkey
    have hgood : ¬ (1 < w.dir.toNat ∨ (!(jobOf w (callerOf h 0x0B0A)).ok) = true) := not_or.2 ⟨Nat.not_lt.2 hdir, bnot_ne_true hok⟩
    refine keyCommand_open hready herror hraw hretired ((if_neg hgood).trans ?_)
    simp only [jobOf, hkey']
    refine (if_neg (not_or.2 ⟨not_not.2 hkind, not_not.2 howner⟩)).trans ((unlessClaimed_one (s := s.start _) hfree).trans
      ((if_neg ?_).trans ((if_neg (bnot_ne_true hon)).trans ((if_neg (not_not.2 hbank)).trans
      ((if_neg (not_or.2 ⟨Nat.not_le.2 hroom, Bool.eq_false_iff.1 hasync⟩)).trans
      ((if_neg (not_or.2 ⟨Bool.eq_false_iff.1 hout, bnot_ne_true hstands⟩)).trans (if_neg ?_)))))))
    · exact fun ⟨hmode, hnot⟩ => bnot_ne_true (hofficer hmode) hnot
    · rintro ⟨hforward, hmode, hfull⟩
      have hdir' : w.dir ≠ 1 := by simpa using hforward
      have hzero : w.dir = 0 := BitVec.eq_of_toNat_eq (by
        have hone : w.dir.toNat ≠ 1 := fun h => hdir' (BitVec.eq_of_toNat_eq h)
        show w.dir.toNat = 0
        omega)
      exact Nat.not_lt.2 hfull (hcount hzero hmode)
  case jobDone =>
    intro half j k s hjob hkey
    refine ⟨fun hback htag => ?_, fun hback hgcm hcmac => ?_, fun hback hpass => ?_, fun hback hfail => ?_⟩
    · refine (jobDone_ends hjob hkey (jobVerdict_forward hback)).trans ?_
      rw [if_neg (by simp [hback, htag])]
      rfl
    · refine (jobDone_ends hjob hkey (jobVerdict_forward hback)).trans ?_
      rw [if_pos (by simp [hgcm, hcmac])]
      rfl
    · have hverdict : jobVerdict s j k = true := by
        rcases hpass with ⟨htag, hgood⟩ | ⟨hmode, hgood⟩ | hmode
        · exact (jobVerdict_tag hback htag).trans (decide_eq_true hgood)
        · exact (jobVerdict_unwrap hback hmode).trans (decide_eq_true hgood)
        · exact jobVerdict_plain hmode
      refine (jobDone_ends hjob hkey hverdict).trans ?_
      rw [if_pos (.inl hback)]
      rfl
    · have hverdict : jobVerdict s j k = false := by
        rcases hfail with ⟨htag, hbad⟩ | ⟨hmode, hbad⟩
        · exact (jobVerdict_tag hback htag).trans (decide_eq_false hbad)
        · exact (jobVerdict_unwrap hback hmode).trans (decide_eq_false hbad)
      refine (jobDone_ends hjob hkey hverdict).trans ?_
      rw [if_pos (.inl hback)]
      rfl
  case die =>
    intro h scope object d s hready herror hraw hretired hscope hfree
    exact zeroize_scope hready rfl herror hraw hretired hscope hfree
  case cluster =>
    intro h scope object d k s hready herror hraw hretired hscope hfree
    exact zeroize_scope hready rfl herror hraw hretired hscope hfree
  case package =>
    intro h scope object s hready herror hraw hretired hscope hfree
    exact zeroize_scope hready rfl herror hraw hretired hscope hfree
  case selftest =>
    intro h s hready herror hraw hretired hfree hidle hasync
    exact keyCommand_open hready herror hraw hretired ((unlessClaimed_unclaimed (s := s.start _) hfree).trans
      (if_neg (not_or.2 ⟨Bool.eq_false_iff.1 hidle, Bool.eq_false_iff.1 hasync⟩)))
  case tested =>
    intro die failed shared t s htest
    show execSelftestDone die failed shared s = _
    simp only [execSelftestDone, htest]
  case status =>
    intro h s hready herror hraw
    exact completed_of hready (keyGate_status (s := s.start _) herror hraw)

end Sys2Proof

/-! The TANDEM commands (R440-R442, R446, R450, R452, R454, R461, R463). -/

namespace Sys2Proof

open Machine

section
variable {s : State}

/-- R450: seeking where auto says so asks for the halter only where it is not owned or sought. -/
theorem autoSeek_eq :
    s.autoSeek = if s.flag .tndPairCfgAuto 0 = true ∧ s.pin .hltPeerN 0 = 1 ∧ s.fld .tndPairStatHalter 0 = 0
      then s.setFld .tndPairStatHalter 0 1 else s := by
  by_cases hauto : s.flag .tndPairCfgAuto 0 = true ∧ s.pin .hltPeerN 0 = 1
  · obtain ⟨hset, hhigh⟩ := hauto
    simp [State.autoSeek, State.seek, hset, hhigh]
  · rw [State.autoSeek, if_neg hauto, if_neg (fun ⟨hset, hhigh, _⟩ => hauto ⟨hset, hhigh⟩)]

theorem protectedTrees_any {p : Nat → Bool} (h : ∀ t < 32, s.protected t = true → p t = false) :
    (protectedTrees s).any p = false := by
  simp only [protectedTrees, List.any_eq_false, List.mem_filter, List.mem_range, and_imp]
  exact fun t ht hprotected => Bool.eq_false_iff.1 (h t ht hprotected)

theorem not_isSome {α : Type} {o : Option α} (h : o = none) : ¬ o.isSome = true := by simp [h]

end

/-- Settles O46: each command by its operands' checks and `unlessClaimed_unclaimed`; PAIR's seeking by `autoSeek_eq`. -/
theorem tandemCommandsComplete : Obligations.TandemCommandsComplete := by
  refine ⟨?pair, ?unpair, ?protection, ?take, ?release, ?resync, ?exercise, ?status, ?thresholds⟩
  case pair =>
    intro h peer auto divThr lossThr s hready hpeer hself hauto hdiv hdiv' hloss hloss' hfree
    have hgood : ¬ (1023 < peer.toNat ∨ peer.toNat = s.fld .sysDevnumDevnum 0 ∨ (!flagOk auto) = true ∨ divThr.toNat < 1 ∨
        15 < divThr.toNat ∨ lossThr.toNat < 1 ∨ 255 < lossThr.toNat) :=
      not_or.2 ⟨by omega, not_or.2 ⟨hself, not_or.2 ⟨not_bnot_flagOk (by omega), by omega⟩⟩⟩
    refine completed_of hready ((if_neg hgood).trans ((unlessClaimed_unclaimed (s := s.start _) hfree).trans ?_))
    simp only [autoSeek_eq]
    rfl
  case unpair =>
    intro h s hready hfree
    exact completed_of hready (unlessClaimed_unclaimed (s := s.start _) hfree)
  case protection =>
    intro h tree on dfeed s hready htree hon hdfeed hpaired hfree t
    have hgood : ¬ (31 < tree.toNat ∨ (!flagOk on) = true ∨ (!dfeedOk dfeed) = true) :=
      not_or.2 ⟨by omega, not_or.2 ⟨not_bnot_flagOk (by omega), bnot_ne_true (decide_eq_true hdfeed)⟩⟩
    have hallowed : ¬ (on = 1 ∧ ((!s.flag .tndPairStatPaired 0) = true ∨ s.fld .gntTreeCfgCutoff tree.toNat < 20 ∨
        (s.tndTree tree.toNat).peerCfg ≠ some (s.pairConfig tree.toNat))) := by
      rintro ⟨hnamed, hbad⟩
      obtain ⟨hpair, hcutoff, hcfg⟩ := hpaired hnamed
      rcases hbad with hbad | hbad | hbad
      · exact bnot_ne_true hpair hbad
      · omega
      · exact hbad hcfg
    exact completed_of hready ((if_neg hgood).trans ((if_neg hallowed).trans (unlessClaimed_unclaimed (s := s.start _) hfree)))
  case take =>
    intro h s hready hfree htake hroom c
    have hidle : ¬ (s.tandem.take.isSome = true ∨ (s.start c).asyncFull = true) :=
      not_or.2 ⟨not_isSome htake, Bool.eq_false_iff.1 hroom⟩
    refine ⟨fun howns => ?_, fun hlost hlow => ?_, fun hlost hhigh => ?_⟩
    · exact waiting_answered hready ((unlessClaimed_unclaimed (s := s.start _) hfree).trans ((if_neg hidle).trans (if_pos howns)))
    · exact waiting_answered hready ((unlessClaimed_unclaimed (s := s.start _) hfree).trans ((if_neg hidle).trans
        ((if_neg (Bool.eq_false_iff.1 hlost)).trans (if_pos hlow))))
    · exact completed_of hready ((unlessClaimed_unclaimed (s := s.start _) hfree).trans ((if_neg hidle).trans
        ((if_neg (Bool.eq_false_iff.1 hlost)).trans (if_neg hhigh))))
  case release =>
    intro h s hready hfree
    exact completed_of hready (unlessClaimed_unclaimed (s := s.start _) hfree)
  case resync =>
    intro h tree s hready htree hprotected hfree hidle hroom
    have hgood : ¬ (31 < tree.toNat ∨ (!s.protected tree.toNat) = true) := not_or.2 ⟨by omega, bnot_ne_true hprotected⟩
    exact completed_of hready ((if_neg hgood).trans ((unlessClaimed_unclaimed (s := s.start _) hfree).trans
      (if_neg (not_or.2 ⟨not_isSome hidle, Bool.eq_false_iff.1 hroom⟩))))
  case exercise =>
    intro h dwell s hready hlow hhigh hfree howns hallReady hidle hroom
    have hready' : (protectedTrees s).any (fun t => !s.flag .tndTreeStatReady t) = false :=
      protectedTrees_any (fun t ht hprotected => congrArg not (hallReady t ht hprotected))
    exact completed_of hready ((if_neg (by omega : ¬ (dwell.toNat < 8 ∨ 65535 < dwell.toNat))).trans
      ((unlessClaimed_unclaimed (s := s.start _) hfree).trans (if_neg (not_or.2 ⟨bnot_ne_true howns,
        not_or.2 ⟨Bool.eq_false_iff.1 hready', not_or.2 ⟨not_isSome hidle, Bool.eq_false_iff.1 hroom⟩⟩⟩))))
  case status =>
    intro h s hready
    exact completed_of hready rfl
  case thresholds =>
    intro h lane delta alpha s hready hlane hdelta hdelta' halpha halpha' hfree
    have hgood : ¬ (7 < lane.toNat ∨ delta.toNat < 1 ∨ 7 < delta.toNat ∨ alpha.toNat < 1 ∨ 15 < alpha.toNat) := by omega
    exact completed_of hready ((if_neg hgood).trans (unlessClaimed_unclaimed (s := s.start _) hfree))

end Sys2Proof

/-! The events of the tandem link, of the halter and of a drill (R443, R445-R450, R452, R456, R459, R461, R462). -/

namespace Sys2Proof

open Machine

section
variable {s : State}

/-- R443, R445: a frame of a lane that hears, its CRC good, hands on what its delineation delivers. -/
theorem tandemFrameRx_good {l : TLane} {fseq : Word} {heads : List XgemHead} {recs : List TndRx} (hhears : s.tandemLaneHears l.toNat = true)
    {f : State → DlnEv → State} (hf : ∀ u x, f u x = match x with
      | .frame h => match recs[h.name.toNat]? with
        | some r => u.toSequencer (dieOfTLane l.toNat) 0 (.record r) (fun s => s.recordRx r)
        | none => u
      | .abandoned => u.count .tndDlnAbandon l.toNat
      | .loss => u.report .tndDlnLoss l.toNat .tndDlnLoss (dieOfTLane l.toNat) l.toNat
      | .dropped | .hole => u) :
    let v := s.modTandem (fun w => { w with frames := w.frames.put l.toNat fseq.toNat })
    execTandemFrameRx l fseq true heads recs s = .next ((Unit_.delineate ⟨2048, v.fld .tndDlnCfgDelta (dieOfTLane l.toNat),
      v.fld .tndDlnCfgAlpha (dieOfTLane l.toNat), heads, []⟩).foldl f v) := by
  intro v
  have hsame : f = _ := funext₂ hf
  rw [hsame]
  exact if_neg (bnot_ne_true hhears)

/-- What the pin's rise does first: it is noted, with its instant (R450). -/
def peerRisen (s : State) : State := (s.drive .hltPeerN 0 1).modTandem (fun w => { w with peerAt := s.elapsed })

/-- What the pin's fall does first: the gates it closes (R452). -/
def peerFallen (s : State) : State := (s.drive .hltPeerN 0 0).closeGate

/-- R450: the halter after the peer's pin rises. -/
def halterRisen (s : State) : State :=
  if s.fld .tndPairStatHalter 0 = 2 ∨ s.fld .tndPairStatHalter 0 = 4 then
    (if s.windowShut then (peerRisen s).gainHalter else (peerRisen s).setFld .tndPairStatHalter 0 2) else (peerRisen s).autoSeek

theorem halterRisen_other (hseeks : s.fld .tndPairStatHalter 0 ≠ 2) (hyields : s.fld .tndPairStatHalter 0 ≠ 4) :
    halterRisen s = (peerRisen s).autoSeek := if_neg (not_or.2 ⟨hseeks, hyields⟩)

theorem peerRises (hlow : s.pin .hltPeerN 0 ≠ 1) :
    execHalterPeerChange true s = match s.tandem.drill with
      | some d => .next (if d.phase = 1 then (halterRisen s).drillFailed else halterRisen s)
      | none => .next (halterRisen s) := by
  rw [execHalterPeerChange]
  exact if_neg (by simp [hlow])

theorem peerFalls (hhigh : s.pin .hltPeerN 0 = 1) :
    execHalterPeerChange false s =
      if s.fld .tndPairStatHalter 0 = 3 then
        .next (((peerFallen s).report .tndHalterLost 0 .tndHalterLost 6 0).setFld .tndPairStatHalter 0
          (if ((peerFallen s).report .tndHalterLost 0 .tndHalterLost 6 0).pin .hltSenior 0 = 1 then 4 else 2))
      else if s.fld .tndPairStatHalter 0 = 2 then .next (peerFallen s).contend
      else match s.tandem.drill with
        | some d => .next (if d.phase = 0 then (peerFallen s).modTandem (fun w =>
            { w with drill := some { d with phase := 1, since := (peerFallen s).elapsed } }) else peerFallen s)
        | none => .next (peerFallen s) := by
  rw [execHalterPeerChange]
  exact if_neg (by simp [hhigh])

end

/-- Settles O47: a frame by `tandemFrameRx_good`, the pin by `peerRises` and `peerFalls`, the other events by their conditions. -/
theorem tandemEventsComplete : Obligations.TandemEventsComplete := by
  refine ⟨?badFrame, ?frame, ?resend, ?beat, ?silence, ?digest, ?rises, ?drill, ?falls, ?seek, ?own, ?release, ?accept, ?dwell⟩
  case badFrame =>
    intro l fseq heads recs s hhears
    exact if_neg (bnot_ne_true hhears)
  case frame =>
    intro l fseq heads recs s hhears
    refine tandemFrameRx_good hhears (fun u x => ?_)
    cases x with
    | frame h =>
      show (recs[h.name.toNat]?).elim u _ = _
      cases hrec : recs[h.name.toNat]? with
      | none => simp only [hrec, Option.elim_none]
      | some r => simp only [hrec, toSequencer_served, Option.elim_some]
    | abandoned => rfl
    | loss => rfl
    | dropped => rfl
    | hole => rfl
  case resend =>
    intro stream seq u s hunacked hdue again
    have hsent : exec (.recordResend stream seq) s = if s.elapsed < u.sentAt + usSpan 50 then .next s
        else if 8 ≤ u.sendings then .next (again 0 (s.count .tndResendFail 0)).tandemDown
        else .next ((again (u.sendings + 1) s).sendTandem (.tandem u.stream u.seq u.body)) := by
      show execRecordResend stream seq s = _
      simp only [execRecordResend, hunacked]
      rfl
    have hdue' := hsent.trans (if_neg (Nat.not_lt.2 hdue))
    exact ⟨fun hfew => hdue'.trans (if_neg (Nat.not_le.2 hfew)), fun hmany => hdue'.trans (if_pos hmany)⟩
  case beat =>
    intro l s hl hsends hdue v
    exact if_pos ⟨List.any_eq_true.2 ⟨l, List.mem_range.2 hl, hsends⟩, hdue⟩
  case silence =>
    intro s hdue
    exact if_pos hdue
  case digest =>
    intro c f v a s hmine hlink hdue
    show execDigestTimeout c s = _
    simp only [execDigestTimeout, hmine]
    exact if_pos ⟨hlink, hdue⟩
  case rises =>
    intro s hlow hdrill v st
    have hrisen : exec (.halterPeerChange true) s = .next (halterRisen s) := by
      refine (peerRises hlow).trans ?_
      rw [hdrill]
    refine ⟨fun hst hshut => ?_, fun hst hshut => ?_, fun hst hst' => ?_⟩
    · rw [hrisen, halterRisen, if_pos hst, if_pos hshut]
      rfl
    · rw [hrisen, halterRisen, if_pos hst, if_neg (Bool.eq_false_iff.1 hshut)]
      rfl
    · rw [hrisen, halterRisen_other hst hst']
      rfl
  case drill =>
    intro d s hdrill st
    refine ⟨fun hlow hphase hst hst' => ?_, fun hhigh hphase hst hst' => ?_⟩
    · refine (peerRises hlow).trans ?_
      rw [hdrill]
      simp only [if_pos hphase, halterRisen_other hst hst']
      rfl
    · refine (peerFalls hhigh).trans ((if_neg hst').trans ((if_neg hst).trans ?_))
      rw [hdrill]
      simp only [if_pos hphase]
      rfl
  case falls =>
    intro s hhigh hdrill v st
    refine ⟨fun hst => (peerFalls hhigh).trans (if_pos hst), fun hst => ?_, fun hst hst' => ?_⟩
    · exact (peerFalls hhigh).trans ((if_neg (by omega)).trans (if_pos hst))
    · refine (peerFalls hhigh).trans ((if_neg hst').trans ((if_neg hst).trans ?_))
      rw [hdrill]
      rfl
  case seek =>
    intro s hst hhigh hdue
    exact if_pos ⟨hst, hhigh, hdue⟩
  case own =>
    intro s hst hdue
    have hends : exec .halterOwn s = .next (if s.pin .hltPeerN 0 = 1 then s.gainHalter else s.contend) :=
      if_pos ⟨hst, decide_eq_true hdue⟩
    refine ⟨fun hhigh => ?_, fun hlow hsenior => ?_, fun hlow hjunior => ?_⟩
    · rw [hends, if_pos hhigh]
      rfl
    · rw [hends, if_neg hlow, State.contend, if_pos hsenior]
    · rw [hends, if_neg hlow, State.contend, if_neg hjunior]
  case release =>
    intro s hst hdue
    exact if_pos ⟨hst, hdue⟩
  case accept =>
    intro onu x n d s honu haccept hover
    show execAcceptWindowEnd onu s = _
    simp only [execAcceptWindowEnd, honu, haccept, if_pos hover]
    rfl
  case dwell =>
    intro d s hdrill hphase hdue
    show execDrillDwellEnd s = _
    simp only [execDrillDwellEnd, hdrill]
    exact if_pos ⟨hphase, hdue⟩

end Sys2Proof

/-! The SYS commands (R477, R486-R488, R494, R516, R519, R524, R582). -/

namespace Sys2Proof

open Machine

/-- Settles O48: each command by its operands' checks; a session's generation by its path; SYS.ACK tag by tag. -/
theorem systemCommandsComplete : Obligations.SystemCommandsComplete := by
  refine ⟨?nop, ?info, ?session, ?inbandSession, ?ack, ?inband, ?reset, ?route, ?read⟩
  case nop =>
    intro h words s hready
    exact completed_of hready rfl
  case info =>
    intro h s hready
    exact completed_of hready rfl
  case session =>
    intro h s hready hpath hgen
    have hgood : ¬ ((h.path ≠ .inband ∧ h.gen = s.gen h.path) ∨ (h.path = .inband ∧ h.gen ≠ s.gen h.path + 1)) :=
      not_or.2 ⟨fun ⟨_, hsame⟩ => hgen hsame, fun ⟨hinband, _⟩ => hpath hinband⟩
    refine completed_of hready ((if_neg hgood).trans ((if_neg (fun ⟨hinband, _⟩ => hpath hinband)).trans ?_))
    simp only [if_neg hpath]
    rfl
  case inbandSession =>
    intro h s hready hpath hgen hroom
    have hgood : ¬ ((h.path ≠ .inband ∧ h.gen = s.gen h.path) ∨ (h.path = .inband ∧ h.gen ≠ s.gen h.path + 1)) :=
      not_or.2 ⟨fun ⟨hother, _⟩ => hother hpath, fun ⟨_, hskips⟩ => hskips (by rw [hgen, hpath])⟩
    refine completed_of hready ((if_neg hgood).trans ((if_neg (fun ⟨_, hfull⟩ => Nat.not_le.2 hroom hfull)).trans ?_))
    simp only [hpath]
    rfl
  case ack =>
    intro h tags s hpath hdie hcast
    refine (next_ite_pos hpath).trans ((next_ite_neg (bnot_ne_true hcast)).trans ((next_ite_neg (not_not.2 hdie)).trans ?_))
    rfl
  case inband =>
    intro h ports mac handle k s hready hcount hports hfree hofficer hkey hkind
    have hgood : ¬ (4 < (ports.map BitVec.toNat).length ∨
        (ports.map BitVec.toNat).any (fun p => 63 < p || s.portOf p ≠ p) = true) := by
      rw [List.length_map, List.any_map]
      exact not_or.2 ⟨Nat.not_lt.2 hcount, Bool.eq_false_iff.1 hports⟩
    have hkey' (c : Caller) : (s.start c).vault.find handle.toNat = some k := hkey
    refine completed_of hready ((if_neg hgood).trans ((officer_unclaimed (s := s.start _) hfree hofficer).trans ?_))
    simp only [hkey', if_pos hkind]
    rfl
  case reset =>
    intro h s hready hofficer
    have hallowed : ¬ (s.lifecycle = 2 ∧ (!s.isOfficer h.path) = true) := fun ⟨howned, hother⟩ => bnot_ne_true (hofficer howned) hother
    refine ⟨fun hroom => ?_, ?_⟩
    · exact completed_of hready ((if_neg (by decide)).trans ((if_neg hallowed).trans ((if_pos rfl).trans (if_neg (Bool.eq_false_iff.1 hroom)))))
    · exact waiting_answered (st := .ok) (ws := []) hready ((if_neg (by decide)).trans ((if_neg hallowed).trans (if_neg (by decide))))
  case route =>
    intro h group mask fw alert ibi msix vector s hready hgroup hfw halert hibi hmsix hvector
    have hgood : ¬ (26 < group.toNat ∨ (!flagOk fw) = true ∨ (!flagOk alert) = true ∨ (!flagOk ibi) = true ∨ (!flagOk msix) = true ∨
        63 < vector.toNat) :=
      not_or.2 ⟨by omega, not_or.2 ⟨not_bnot_flagOk (by omega), not_or.2 ⟨not_bnot_flagOk (by omega), not_or.2
        ⟨not_bnot_flagOk (by omega), not_or.2 ⟨not_bnot_flagOk (by omega), by omega⟩⟩⟩⟩⟩
    exact completed_of hready (if_neg hgood)
  case read =>
    intro h count s hready hlow hhigh p l
    have hgood : ¬ (count = 0 ∨ 64 < count.toNat) := by
      refine not_or.2 ⟨fun hzero => ?_, Nat.not_lt.2 hhigh⟩
      rw [hzero] at hlow
      exact absurd hlow (by decide)
    exact completed_of hready (if_neg hgood)

end Sys2Proof

/-! Reads and writes through the register windows and the I3C forms (R503, R504, R506, R507). -/

namespace Sys2Proof

open Machine

section
variable {s : State} {a : RegAccess} {r hi : Reg} {i die idx : Nat} {p : APath} {data : Word}

/-- R503: a register that is no half of a pair is written as it is. -/
theorem landWord_whole (hlow : isHi r = false) (hone : hiOf r = none) :
    s.landWord p die r i idx data = (s.writeInst p die r i idx data).noteBefore s p die r i idx := by
  simp only [State.landWord, hlow, State.commitHi, hone, Bool.false_eq_true, if_false]

/-- R503: a _LO with a staged _HI beside it commits both. -/
theorem landWord_commits {v : Word} (hlow : isHi r = false) (hpair : hiOf r = some hi)
    (hstaged : s.win.stagedHi.find (hiKey die p hi idx) = some v) :
    s.landWord p die r i idx data =
      ((State.writeInst { s with win := { s.win with stagedHi := s.win.stagedHi.del (hiKey die p hi idx) } } p die hi i idx v).writeInst
        p die r i idx data).noteBefore s p die r i idx := by
  simp only [State.landWord, hlow, State.commitHi, hpair, hstaged, Bool.false_eq_true, if_false]

/-- R503, R506: a _HI that may be written is staged. -/
theorem landWord_stages (hhi : isHi r = true) (hmay : r = .lshRingBaseHi ∨ s.mayRwc p die r.block = true) :
    s.landWord p die r i idx data = { (s.meet p die r i data).1 with win := { (s.meet p die r i data).1.win with
      stagedHi := (s.meet p die r i data).1.win.stagedHi.put (hiKey die p r idx) (s.meet p die r i data).2 } } := by
  rw [State.landWord, if_pos hhi, State.stageHi]
  exact if_pos hmay

/-- R503: a read of a _HI takes the half that its _LO latched. -/
theorem readAccess_latched {w : Word} (hreaches : s.reaches a false r i = true) (hhi : isHi r = true) (hone : hiOf r = none)
    (hlatched : s.win.shadow.find (hiKey (accDie a) a.path r a.idx) = some w) :
    s.readAccess a = ({ s with win := { s.win with shadow := s.win.shadow.del (hiKey (accDie a) a.path r a.idx) } }, w) := by
  simp only [State.reaches, Bool.and_eq_true, Bool.not_eq_true', decide_eq_true_eq] at hreaches
  obtain ⟨⟨⟨⟨hfused, hfault⟩, hreg⟩, hidle⟩, hinst⟩ := hreaches
  simp [State.readAccess, hfused, hfault, hreg, hidle, hinst, hone, hhi, hlatched]

/-- R504: a write that is an error is counted, latched and raised. -/
theorem writeAccessTo_fault {c : Nat} (hdie : s.dieFused (accDie a) = false) (hfault : s.accFault a true = some c) :
    s.writeAccessTo a = s.accError a c := by
  simp [State.writeAccessTo, hdie, hfault]

/-- R504: a read that is an error is counted, latched and raised, and returns zero. -/
theorem readAccess_fault {c : Nat} (hdie : s.dieFused (accDie a) = false) (hfault : s.accFault a false = some c) :
    s.readAccess a = (s.accError a c, 0) := by
  simp [State.readAccess, hdie, hfault]

end

/-- R507: an I3C write of 10 bytes that begins 57 52 is a register write. -/
theorem i3cAccess_write {b : List Byte} {r : Option Reg} {idx : Nat} (hlength : b.length = 10) (hform : b.take 2 = [0x57, 0x52])
    (haddr : beWord b 2 < 2 ^ 26) :
    i3cAccess true b r idx = some ⟨.i3c, BitVec.ofNat 26 (beWord b 2), r, idx, false, BitVec.ofNat 32 (beWord b 6)⟩ :=
  if_pos (by simpa [hlength, hform] using haddr)

/-- R507: an I3C write of 6 bytes that begins 52 44 arms a register read. -/
theorem i3cAccess_read {b : List Byte} {r : Option Reg} {idx : Nat} (hlength : b.length = 6) (hform : b.take 2 = [0x52, 0x44])
    (haddr : beWord b 2 < 2 ^ 26) :
    i3cAccess false b r idx = some ⟨.i3c, BitVec.ofNat 26 (beWord b 2), r, idx, false, 0⟩ :=
  if_pos (by simpa [hlength, hform] using haddr)

/-- Settles O45: a write by where it lands, a read by what it reaches, the I3C forms by the accesses they make. -/
theorem registerAccessesComplete : Obligations.RegisterAccessesComplete := by
  refine ⟨?write, ?stage, ?commit, ?latch, ?read, ?latched, ?writeFault, ?readFault, ?i3cWrite, ?i3cRead⟩
  case write =>
    intro a r i s hreaches hmay hlow hone
    exact congrArg Host.Outcome.next ((writeAccessTo_lands hreaches hmay).trans (landWord_whole hlow hone))
  case stage =>
    intro a r i s hreaches hmay hhi hclaim
    exact congrArg Host.Outcome.next ((writeAccessTo_lands hreaches hmay).trans (landWord_stages hhi hclaim))
  case commit =>
    intro a r hi i v s hreaches hmay hlow hpair hstaged
    exact congrArg Host.Outcome.next ((writeAccessTo_lands hreaches hmay).trans (landWord_commits hlow hpair hstaged))
  case latch =>
    intro a r hi i s hreaches hlow hpair
    show execHiLoReadLatch a s = _
    simp only [execHiLoReadLatch, readAccess_reaches hreaches hlow, hpair]
  case read =>
    intro a r i s hreaches hlow hone
    show execHiLoReadLatch a s = _
    simp only [execHiLoReadLatch, readAccess_reaches hreaches hlow, hone]
  case latched =>
    intro a r i w s hreaches hhi hone hlatched
    show execHiLoReadLatch a s = _
    simp only [execHiLoReadLatch, readAccess_latched hreaches hhi hone hlatched]
  case writeFault =>
    intro a c s hdie hfault
    exact ⟨congrArg _ (writeAccessTo_fault hdie hfault), congrArg _ (writeAccessTo_fault hdie hfault)⟩
  case readFault =>
    intro a c s hdie hfault
    show execHiLoReadLatch a s = _
    simp only [execHiLoReadLatch, readAccess_fault hdie hfault]
  case i3cWrite =>
    intro b r i idx s hup hlength hform haddr hlow hone a hreaches hmay
    refine (next_ite_neg (bnot_ne_true hup)).trans (congrArg Host.Outcome.next ?_)
    rw [i3cAccess_write hlength hform haddr]
    exact (writeAccessTo_lands hreaches hmay).trans (landWord_whole hlow hone)
  case i3cRead =>
    intro b r i idx s hup hlength hform haddr hlow hone a hreaches
    refine (next_ite_neg (bnot_ne_true hup)).trans (congrArg Host.Outcome.next ?_)
    rw [i3cAccess_read hlength hform haddr]
    have hread : s.readAccess a = (s, s.readWord .i3c (accDie a) r i idx) := by rw [readAccess_reaches hreaches hlow, hone]
    exact congrArg (fun x : State × Word => { x.1 with laosh := { x.1.laosh with armedRead := some x.2 } }) hread

end Sys2Proof

/-! The event registers, the ring's entry (R515-R519, R522, R523), and the claims (R510-R513, R524). -/

namespace Sys2Proof

open Machine

/-- Settles O49: the mask and the pointer by what they free or pass, a record's entry by the ring's room. -/
theorem eventRegistersComplete : Obligations.EventRegistersComplete := by
  refine ⟨?same, ?frees, ?clear, ?pointer, ?beyond, ?room, ?full⟩
  case same =>
    intro g data s hg hnone
    exact (next_ite_pos hg).trans (congrArg Host.Outcome.next (if_pos hnone))
  case frees =>
    intro g data s hg hsome
    exact (next_ite_pos hg).trans (congrArg Host.Outcome.next (if_neg hsome))
  case clear =>
    intro g data s hg old u v
    exact (next_ite_pos hg).trans (congrArg Host.Outcome.next (if_congr (Bool.and_eq_true_iff) rfl rfl))
  case pointer =>
    intro p data s hwithin
    exact congrArg (fun w => Host.Outcome.next (s.setReg .evtRingRd (evtCopy (apathCode p)) w)) (if_neg hwithin)
  case beyond =>
    intro p data s hbeyond
    exact congrArg (fun w => Host.Outcome.next (s.setReg .evtRingRd (evtCopy (apathCode p)) w)) (if_pos hbeyond)
  case room =>
    intro die r rest s hqueue hroom
    show execEventRecordEnter die s = _
    simp only [execEventRecordEnter, hqueue, if_neg (Nat.not_le.2 hroom)]
    rfl
  case full =>
    intro die r rest s hqueue hfull
    show execEventRecordEnter die s = _
    simp only [execEventRecordEnter, hqueue, if_pos hfull]
    rfl

/-- R432: outside strict mode every block may be claimed, in it all but those that would leave approved mode. -/
theorem not_strict {b : Blk} {set : Bool} (hstrict : set = true → b ≠ .kv ∧ b ≠ .cph ∧ b ≠ .msc) :
    ¬ (set = true ∧ (b = .kv ∨ b = .cph ∨ b = .msc)) := by
  rintro ⟨hset, hcrypto⟩
  obtain ⟨hkv, hcph, hmsc⟩ := hstrict hset
  exact hcrypto.elim hkv (fun h => h.elim hcph hmsc)

/-- Settles O50: a claim by who holds the block and whether a command acts on it, a waiting one by the same at its end. -/
theorem blockClaimsComplete : Obligations.BlockClaimsComplete := by
  refine ⟨?held, ?free, ?busy, ?waiting, ?release, ?status⟩
  case held =>
    intro h block b s hready hblock hpath hevents hheld
    have hheld' (c : Caller) : (s.start c).win.claims.find (claimKey h.die.toNat b) = some h.path := hheld
    refine completed_of hready ?_
    simp only [hblock, hheld', if_neg (not_or.2 ⟨hpath, hevents⟩), if_true]
    rfl
  case free =>
    intro h block b s hready hblock hpath hevents hfree hstrict hidle
    have hfree' (c : Caller) : (s.start c).win.claims.find (claimKey h.die.toNat b) = none := hfree
    refine completed_of hready ?_
    simp only [hblock, hfree', if_neg (not_or.2 ⟨hpath, hevents⟩)]
    exact (if_neg (not_strict hstrict)).trans (if_neg (Bool.eq_false_iff.1 hidle))
  case busy =>
    intro h block b s hready hblock hpath hevents hfree hstrict hacted
    have hfree' (c : Caller) : (s.start c).win.claims.find (claimKey h.die.toNat b) = none := hfree
    refine waiting_answered (st := .ok) (ws := []) hready ?_
    simp only [hblock, hfree', if_neg (not_or.2 ⟨hpath, hevents⟩)]
    exact (if_neg (not_strict hstrict)).trans (if_pos hacted)
  case waiting =>
    intro die block w s hwait v
    have hwait' : s.waitingClaim die.toNat block.toNat = some w := hwait
    refine ⟨fun hidle hfree => ?_, fun q hidle hheld => ?_, fun hdue => ?_⟩
    · have hfree' : (s.dropWait w).win.claims.find (claimKey w.die w.blk) = none := hfree
      show execClaimEffect die block s = _
      simp only [execClaimEffect, hwait', if_neg (Bool.eq_false_iff.1 hidle), hfree']
      rfl
    · have hheld' : (s.dropWait w).win.claims.find (claimKey w.die w.blk) = some q := hheld
      show execClaimEffect die block s = _
      simp only [execClaimEffect, hwait', if_neg (Bool.eq_false_iff.1 hidle), hheld']
      rfl
    · show execClaimTimeout die block s = _
      simp only [execClaimTimeout, hwait', if_pos hdue]
      rfl
  case release =>
    intro h block s hready hblock hheld
    exact completed_of hready (if_pos ⟨hblock, hheld⟩)
  case status =>
    intro h s hready
    exact completed_of hready rfl

end Sys2Proof

/-! The register and immediate stitches (R526, R528). -/

namespace Sys2Proof

open Machine

section
variable {s : State} {q op : Nat} {fs : List (Nat × Nat × Nat)}

theorem stitch_running {f : SeqCtx → SeqCtx} (hruns : s.seqRuns q = true) : s.stitch q f = s.setCtx q (f (s.seq q).ctx).step :=
  if_pos hruns

/-- A stitch that the fetch delivers, and that works on the context alone, leaves that context. -/
theorem stitchRow_context {f : SeqCtx → SeqCtx} (hdelivers : s.delivers q op fs = true) :
    (Host.Outcome.next (s.stitchRow q op fs (fun s => s.stitch q f)) : Host.Outcome State Fault Refusal) =
      .next (s.setCtx q (f (s.seq q).ctx).step) := by
  obtain ⟨hrow, hruns⟩ := stitchRow_delivered (f := fun s => s.stitch q f) hdelivers
  rw [hrow, stitch_running hruns]

/-- A logical stitch draws its C, which is free (log entry 77). -/
theorem stitchRow_logical {d : Nat} {f : SeqCtx → Word} (hdelivers : s.delivers q op fs = true) :
    (Host.Outcome.next (s.stitchRow q op fs (fun s => s.logical q d f)) : Host.Outcome State Fault Refusal) =
      .next (s.drawn.setCtx q ((((s.seq q).ctx.flags (f (s.seq q).ctx) (s.free % 2 = 1)).set d (f (s.seq q).ctx)).step)) := by
  obtain ⟨hrow, hruns⟩ := stitchRow_delivered (f := fun s => s.logical q d f) hdelivers
  rw [hrow]
  exact congrArg Host.Outcome.next ((if_pos hruns).trans (stitch_running (s := s.drawn) hruns))

end

/-- Settles O32: the logical stitches by `stitchRow_logical`, the others by `stitchRow_context`. -/
theorem stitchArithmeticCompletes : Obligations.StitchArithmeticCompletes := by
  refine ⟨?mov, ?add, ?sub, ?and, ?or, ?xor, ?shl, ?shr, ?cmp, ?tst, ?ldi, ?ldh, ?addi, ?cmpi⟩
  case mov => exact fun q d a s hdelivers => stitchRow_logical hdelivers
  case add => exact fun q d a b s hdelivers => stitchRow_context hdelivers
  case sub => exact fun q d a b s hdelivers => stitchRow_context hdelivers
  case and => exact fun q d a b s hdelivers => stitchRow_logical hdelivers
  case or => exact fun q d a b s hdelivers => stitchRow_logical hdelivers
  case xor => exact fun q d a b s hdelivers => stitchRow_logical hdelivers
  case shl => exact fun q d a b s hdelivers => stitchRow_logical hdelivers
  case shr => exact fun q d a b s hdelivers => stitchRow_logical hdelivers
  case cmp => exact fun q a b s hdelivers => stitchRow_context hdelivers
  case tst => exact fun q a b s hdelivers => stitchRow_logical hdelivers
  case ldi => exact fun q d imm s hdelivers => stitchRow_context hdelivers
  case ldh => exact fun q d imm s hdelivers => stitchRow_context hdelivers
  case addi => exact fun q d imm s hdelivers => stitchRow_context hdelivers
  case cmpi => exact fun q d imm s hdelivers => stitchRow_context hdelivers

end Sys2Proof

/-! The access, branch, wait and external stitches (R499, R528, R529, R531, R532, R544). -/

namespace Sys2Proof

open Machine

section
variable {s : State} {q op : Nat} {fs : List (Nat × Nat × Nat)}

/-- A stitch that the fetch delivers has its effect. -/
theorem stitchRow_effect {f : State → State} {u : State} (hdelivers : s.delivers q op fs = true) (heffect : f s = u) :
    (Host.Outcome.next (s.stitchRow q op fs f) : Host.Outcome State Fault Refusal) = .next u :=
  congrArg Host.Outcome.next ((stitchRow_delivered hdelivers).1.trans heffect)

theorem runs_of_delivers (hdelivers : s.delivers q op fs = true) : s.seqRuns q = true :=
  (stitchRow_delivered (f := id) hdelivers).2

/-- The effects of an external stitch come after the address steps on. -/
theorem stitch_id (hdelivers : s.delivers q op fs = true) : s.stitch q id = s.setCtx q (s.seq q).ctx.step :=
  stitch_running (runs_of_delivers hdelivers)

theorem setCtx_chan (y : SeqCtx) (c : Nat) : (s.setCtx q y).chan c = s.chan c := by
  simp only [State.chan, State.setCtx, State.setSeq, setFld_chans]

/-- R115: a message is queued where the channel holds fewer than 64 and none is on offer. -/
theorem offer_queued {c : Nat} {m : Ploam} (hroom : (s.chan c).ploams.length < 64) (hoffers : (s.chan c).offers = []) :
    s.offer c m = s.setChan c { s.chan c with ploams := (s.chan c).ploams ++ [m] } := by
  rw [State.offer, if_pos ⟨hroom, List.isEmpty_iff.2 hoffers⟩]

theorem itemCaller_command {item : Option SeqItem} {c : Caller} {ps : List Word} (hitem : item = some (.command c ps)) :
    itemCaller item = some c := by rw [hitem, itemCaller]

/-! ### WAIT and PARK (R529) -/

variable {cond arg cls : Nat} {park : Bool}

/-- R532: a time that has passed when it is waited for is counted. -/
theorem notePast_holds {w : SeqWait} (hholds : s.waitHolds q w = some true) :
    s.notePast q w = if w.cond = 0 then s.count .tbShortPast 0 else s := by
  by_cases htime : w.cond = 0
  · have hpast : shortReached (s.nowOn (seqDie q)) w.arg.toNat = true := by
      simpa [State.waitHolds, htime] using hholds
    rw [State.notePast, if_pos ⟨htime, hpast⟩, if_pos htime]
  · rw [State.notePast, if_neg (fun ⟨h, _⟩ => htime h), if_neg htime]

/-- A wait whose condition holds ends at once: T tells that it did not time out. -/
theorem enterWait_holds (hcond : cond < 12)
    (hholds : s.waitHolds q (s.newWait q cond ((s.seq q).ctx.get arg) cls) = some true) :
    s.enterWait q cond arg cls park =
      (if cond = 0 then s.count .tbShortPast 0 else s).setCtx q { (s.seq q).ctx.step with t := false } := by
  rw [State.enterWait, if_neg (Nat.not_le.2 hcond), if_pos hholds, notePast_holds hholds]
  rfl

/-- A wait that is not to be parked, or may not be, holds the sequencer. -/
theorem enterWait_waits (hcond : cond < 12)
    (hopen : s.waitHolds q (s.newWait q cond ((s.seq q).ctx.get arg) cls) ≠ some true)
    (hstays : ¬ (park = true ∧ (s.seq q).ctx.accepted = true ∧ (s.seq q).parked.length < (if seqDie q < 2 then 64 else 16))) :
    s.enterWait q cond arg cls park =
      (s.setSeq q { s.seq q with wait := some (s.newWait q cond ((s.seq q).ctx.get arg) cls) }).setSeqState q 3 :=
  (if_neg (Nat.not_le.2 hcond)).trans ((if_neg hopen).trans (if_neg hstays))

/-- An accepted command's context is parked where there is room, and the sequencer is free. -/
theorem enterWait_parks (hcond : cond < 12)
    (hopen : s.waitHolds q (s.newWait q cond ((s.seq q).ctx.get arg) cls) ≠ some true) (haccepted : (s.seq q).ctx.accepted = true)
    (hroom : (s.seq q).parked.length < (if seqDie q < 2 then 64 else 16)) :
    s.enterWait q cond arg cls true =
      (s.setSeq q { s.seq q with parked := (s.seq q).parked ++
        [⟨(s.seq q).ctx, s.newWait q cond ((s.seq q).ctx.get arg) cls, none⟩] }).seqRest q :=
  (if_neg (Nat.not_le.2 hcond)).trans ((if_neg hopen).trans (if_pos ⟨rfl, haccepted, hroom⟩))

end

/-- Settles O33: each stitch by `stitchRow_effect`, its condition deciding the branch. -/
theorem stitchControlCompletes : Obligations.StitchControlCompletes := by
  refine ⟨?rdsp, ?wrsp, ?rdspOther, ?wrspOther, ?rdspOff, ?wrspOff, ?rdreg, ?wrreg, ?rdpar, ?wrpar, ?br, ?call, ?ret, ?loop, ?ends, ?waitHeld,
    ?waits, ?parks, ?parkWaits, ?reply, ?accept, ?raises, ?ploam, ?mail⟩
  case rdsp =>
    intro q d a offset b w s hdelivers hon hword r
    refine stitchRow_effect hdelivers ((if_neg (bnot_ne_true hon)).trans ?_)
    simp only [hword]
    rfl
  case wrsp =>
    intro q d a offset b w s hdelivers hon hword x
    refine stitchRow_effect hdelivers ((if_neg (bnot_ne_true hon)).trans ?_)
    simp only [hword]
    rfl
  case rdspOther =>
    intro q d a offset s hdelivers hon hword
    refine stitchRow_effect hdelivers ((if_neg (bnot_ne_true hon)).trans ?_)
    simp only [hword]
  case wrspOther =>
    intro q d a offset s hdelivers hon hword
    refine stitchRow_effect hdelivers ((if_neg (bnot_ne_true hon)).trans ?_)
    simp only [hword]
  case rdspOff =>
    intro q d a offset s hdelivers hoff
    exact stitchRow_effect hdelivers (if_pos (congrArg not hoff))
  case wrspOff =>
    intro q d a offset s hdelivers hoff
    exact stitchRow_effect hdelivers (if_pos (congrArg not hoff))
  case rdreg =>
    intro q d a offset reg idx s hdelivers x r
    exact stitchRow_effect hdelivers rfl
  case wrreg =>
    intro q d a offset reg idx s hdelivers x
    exact stitchRow_effect hdelivers rfl
  case rdpar =>
    intro q d a offset c ps v s hdelivers hitem hparam x
    refine stitchRow_effect hdelivers ?_
    simp only [hitem, hparam]
    exact stitch_running (runs_of_delivers hdelivers)
  case wrpar =>
    intro q d a offset s hdelivers
    exact stitchRow_context hdelivers
  case br =>
    intro q cond target b s hdelivers hcond x
    refine stitchRow_effect hdelivers ?_
    simp only [hcond]
    cases b with
    | true => rfl
    | false => rfl
  case call =>
    intro q target s hdelivers hroom x
    exact stitchRow_effect hdelivers (if_neg (Nat.not_le.2 hroom))
  case ret =>
    intro q r rest s hdelivers hstack x
    refine stitchRow_effect hdelivers ?_
    simp only [hstack]
    rfl
  case loop =>
    intro q target s hdelivers x
    exact stitchRow_effect hdelivers rfl
  case ends =>
    intro q s hdelivers u
    exact stitchRow_effect hdelivers rfl
  case waitHeld =>
    intro q cond arg cls s hdelivers hcond hholds
    exact stitchRow_effect hdelivers (enterWait_holds hcond hholds)
  case waits =>
    intro q cond arg cls s hdelivers hcond hopen
    exact stitchRow_effect hdelivers (enterWait_waits hcond hopen (fun ⟨hpark, _⟩ => Bool.false_ne_true hpark))
  case parks =>
    intro q cond arg cls s hdelivers hcond hopen haccepted hroom
    exact stitchRow_effect hdelivers (enterWait_parks hcond hopen haccepted hroom)
  case parkWaits =>
    intro q cond arg cls s hdelivers hcond hopen hstays
    refine stitchRow_effect hdelivers (enterWait_waits hcond hopen ?_)
    rintro ⟨-, haccepted, hroom⟩
    exact hstays.elim (fun h => Bool.eq_false_iff.1 h haccepted) (fun h => Nat.not_le.2 hroom h)
  case reply =>
    intro q r c ps z s hdelivers hitem hcode x
    refine stitchRow_effect hdelivers ?_
    simp only [itemCaller_command hitem, hcode, stitch_id hdelivers]
    rfl
  case accept =>
    intro q c ps s hdelivers hitem haccepted x
    refine stitchRow_effect hdelivers ?_
    simp only [itemCaller_command hitem, haccepted, stitch_running (runs_of_delivers hdelivers), Bool.false_eq_true, if_false]
    rfl
  case raises =>
    intro q src e s hdelivers hsource x
    refine stitchRow_effect hdelivers ?_
    simp only [hsource, stitch_id hdelivers]
    rfl
  case ploam =>
    intro q r c kind onuId args k s hdelivers hkind hroom hoffers
    refine stitchRow_effect hdelivers ?_
    simp only [hkind, stitch_id hdelivers]
    rw [offer_queued (by rw [setCtx_chan]; exact hroom) (by rw [setCtx_chan]; exact hoffers), setCtx_chan]
  case mail =>
    intro q r target s hdelivers htarget x u
    refine stitchRow_effect hdelivers ?_
    simp only [stitch_id hdelivers]
    exact if_pos htarget

end Sys2Proof

/-! Dispatch, the end of a wait, machine checks, hand-over and darn swaps (R530, R531, R534-R536). -/

namespace Sys2Proof

open Machine

section
variable {s : State} {q : Nat}

/-- A sequencer without an order to hand over takes items while no darn is to be swapped in. -/
theorem stopsTaking_free (horder : (s.seq q).order = false) (hpending : s.trust.pending = none) : s.stopsTaking q = false := by
  simp [State.stopsTaking, horder, hpending]

/-- Only an idle sequencer that exists dispatches. -/
theorem seq_idle (hexists : seqExists q = true) (hidle : s.seqState q = 1) : ¬ ((!seqExists q) = true ∨ s.seqState q ≠ 1) :=
  not_or.2 ⟨bnot_ne_true hexists, not_not.2 hidle⟩

theorem events_none (hevents : s.fwEvents = []) : (if seqDie q = 0 then s.fwEvents else []) = [] := by
  rw [hevents, ite_self]

/-- R530: an idle sequencer that takes items goes past the checks of the dispatch. -/
theorem dispatch_takes {u : State} (hexists : seqExists q = true) (hidle : s.seqState q = 1) (horder : (s.seq q).order = false)
    (hpending : s.trust.pending = none) :
    (Host.Outcome.next (if (!seqExists q) = true ∨ s.seqState q ≠ 1 then s
      else if s.stopsTaking q = true then s.setSeqState q 4 else u) : Host.Outcome State Fault Refusal) = .next u :=
  (next_ite_neg (seq_idle hexists hidle)).trans (next_ite_neg (Bool.eq_false_iff.1 (stopsTaking_free horder hpending)))

/-- The end of a machine check on a die that serves no half and no tree: no command waits on it, and the sequencer stops (R535). -/
theorem mcheck_alone {cause addr : Nat} (hparked : (s.seq q).parked = []) (hitem : itemCaller (s.seq q).ctx.item = none)
    (hdie : 6 ≤ seqDie q) :
    s.mcheck q cause addr = ((((s.setSeq q
      { s.seq q with ctx := { SeqCtx.empty with addr := addr }, wait := none, parked := [], order := 1 ≤ s.policy 2 }).setSeqState
      q 5).setFld .sqStatCause (seqInst q) cause).report .sqMcheck (seqInst q) .sqMcheck (seqDie q) q) := by
  have htree : ¬ (2 ≤ seqDie q ∧ seqDie q < 6) := by omega
  have hhalf : ¬ seqDie q < 2 := by omega
  simp only [State.mcheck, hparked, hitem, Option.toList_none, List.filterMap_nil, List.append_nil, List.foldl_nil, if_neg htree,
    if_neg hhalf]

end

/-- Settles O34: dispatch by what waits for an idle sequencer, the others by their conditions. -/
theorem sequencerEventsComplete : Obligations.SequencerEventsComplete := by
  refine ⟨?item, ?command, ?parked, ?event, ?report, ?stops, ?waitEnds, ?parkEnds, ?check, ?alone, ?handover, ?swap, ?timeout⟩
  case item =>
    intro q a item rest s hexists hidle horder hpending hevents hparked hwork hitem
    cases item with
    | command c ps => exact absurd rfl (hitem c ps)
    | event src =>
      refine (dispatch_takes hexists hidle horder hpending).trans (congrArg Host.Outcome.next ?_)
      simp only [events_none hevents, hparked, hwork]
    | other =>
      refine (dispatch_takes hexists hidle horder hpending).trans (congrArg Host.Outcome.next ?_)
      simp only [events_none hevents, hparked, hwork]
  case command =>
    intro q a c ps rest s hexists hidle horder hpending hevents hparked hwork hmay
    refine (dispatch_takes hexists hidle horder hpending).trans (congrArg Host.Outcome.next ?_)
    simp only [events_none hevents, hparked, hwork]
    exact if_pos hmay
  case parked =>
    intro q entry p s hexists hidle horder hpending hevents hparked x
    refine (dispatch_takes hexists hidle horder hpending).trans (congrArg Host.Outcome.next ?_)
    simp only [events_none hevents, hparked]
    rfl
  case event =>
    intro q a src rest s hexists hidle horder hpending hdie hevents
    refine (dispatch_takes hexists hidle horder hpending).trans (congrArg Host.Outcome.next ?_)
    simp only [hdie, hevents, if_true]
  case report =>
    intro q entry r rest s hexists hidle horder hpending hevents hparked hwork hreports
    refine (dispatch_takes hexists hidle horder hpending).trans (congrArg Host.Outcome.next ?_)
    simp only [events_none hevents, hparked, hwork, hreports]
  case stops =>
    intro q entry s hexists hidle hstops
    exact (next_ite_neg (seq_idle hexists hidle)).trans (next_ite_pos hstops)
  case waitEnds =>
    intro q event late w s hwait hended
    show execWaitEnd q none event s = _
    simp only [execWaitEnd, hwait, hended]
  case parkEnds =>
    intro q k event late p s hparked hwoken hended x
    show execWaitEnd q (some k) event s = _
    simp only [execWaitEnd, hparked, hwoken, hended]
    rfl
  case check =>
    intro q cause addr s hruns haddr hfits
    exact next_ite_pos ⟨hruns, haddr, hfits⟩
  case alone =>
    intro q cause addr s hruns haddr hfits hparked hitem hdie
    exact (next_ite_pos ⟨hruns, haddr, hfits⟩).trans (congrArg Host.Outcome.next (mcheck_alone hparked hitem hdie))
  case handover =>
    intro q s hexists horder hholds hspare hother
    have hdue : ¬ ((!seqExists q.toNat) = true ∨ (!(s.seq q.toNat).order) = true ∨ (!s.seqHolds q.toNat) = true) :=
      not_or.2 ⟨bnot_ne_true hexists, not_or.2 ⟨bnot_ne_true horder, bnot_ne_true hholds⟩⟩
    exact (next_ite_neg hdue).trans (next_ite_neg (not_or.2 ⟨bnot_ne_true hspare, hother⟩))
  case swap =>
    intro d c x y s hpending hholds
    show execDarnSwap s = _
    simp only [execDarnSwap, hpending]
    exact if_neg (bnot_ne_true hholds)
  case timeout =>
    intro d c x y s hpending hdue
    show execDarnHoldTimeout s = _
    simp only [execDarnHoldTimeout, hpending]
    exact if_neg (Nat.not_lt.2 hdue)

end Sys2Proof

/-! The SCRATCH commands, owner writes, hand-over ends and DMA ends (R544-R546, R554-R556). -/

namespace Sys2Proof

open Machine

section
variable {s : State}

/-- R545: a HOST bank that is on, its command not in-band, is settled and then worked on. -/
theorem onHostBank_host {p : Path} {die bank : Nat} {f : State → Res} (hpath : p ≠ .inband) (hon : s.bankOn die bank = true)
    (howner : s.bankOwner die bank = 0) : s.onHostBank p die bank f = f (s.settleBank die bank) :=
  (if_neg (bnot_ne_true hon)).trans (if_neg (not_or.2 ⟨not_not.2 howner, hpath⟩))

theorem settleBank_pending {die bank : Nat} {x : Handover}
    (hpending : s.pads.handovers.find? (fun y => decide (y.die = die ∧ y.bank = bank)) = some x) :
    s.settleBank die bank = s.finishHandover x := by
  simp only [State.settleBank, hpending]

/-- R546: the end of a hand-over that is pending: on a pseudo-channel it is charged to the scrub's ration, which must be unspent. -/
theorem bankHandoverDone_pending {die : BitVec 3} {bank : Byte} {x : Handover}
    (hpending : s.pads.handovers.find? (fun y => decide (y.die = die.toNat ∧ y.bank = bank.toNat)) = some x) :
    execBankHandoverDone die bank s =
      if bank.toNat < 64 then .next (s.finishHandover x)
      else if s.flag .sysRtnStatSpent (die.toNat * 64 + scrubRation bank.toNat) = true ∧
          s.resourceWanted die.toNat (scrubRation bank.toNat) = true then .next s
      else .next ((s.finishHandover x).chargeWith die.toNat (scrubRation bank.toNat) (nsSpan 582500) true) := by
  have hany : s.pads.handovers.any (fun y => decide (y.die = die.toNat ∧ y.bank = bank.toNat)) = true :=
    by
    rw [List.any_eq_true]
    exact ⟨x, List.mem_of_find?_eq_some hpending,
      List.find?_some (p := fun y : Handover => decide (y.die = die.toNat ∧ y.bank = bank.toNat)) hpending⟩
  simp only [execBankHandoverDone, settleBank_pending hpending, hany, Bool.not_true, Bool.false_eq_true, or_false]
  split
  · rfl
  · split
    · rfl
    · rfl

/-- R546: a claimed write of another owner, whose hand-over is allowed, starts it. -/
theorem writeOwner_starts {p : APath} {die bank : Nat} {data : Word} (hexists : bankExists die bank = true) (hdie : s.dieFused die = false)
    (hnew : fieldOf 0 3 data ≠ fieldOf 0 3 (s.reg (bankReg bank) (bankInst die bank))) (hmay : s.mayRwc p die (bankBlk bank) = true)
    (hallowed : s.handoverRefused die bank (fieldOf 0 3 data) = none) :
    s.writeOwner p die bank data = s.startHandover die bank (fieldOf 0 3 data) (fieldOf 30 1 data = 1) none := by
  rw [State.writeOwner, if_neg (not_or.2 ⟨bnot_ne_true hexists, Bool.eq_false_iff.1 hdie⟩), if_neg (fun ⟨h, _⟩ => hnew h),
    if_neg (bnot_ne_true hmay), if_neg (fun ⟨h, _⟩ => hnew h), hallowed]

/-- R554, R35: a transfer whose ration serves all that is left of it is served whole. -/
theorem serveDma_whole {x : DmaXfer} {bytes : Nat} (hserved : s.served x.die x.ration = true)
    (hall : (s.wantTime x.die x.ration).rationSpan x.die x.ration (x.span bytes - x.served) = x.span bytes - x.served) :
    let w := (s.wantTime x.die x.ration).charge x.die x.ration (x.span bytes - x.served)
    s.serveDma x bytes = ({ w with pads := { w.pads with dmas := w.pads.dmas.map (fun y =>
      if y.caller = x.caller then { y with served := y.served + (x.span bytes - x.served) } else y) } }, true) := by
  have hration : (s.wantTime x.die x.ration).rationWaits x.die x.ration = false := by
    simpa only [State.served, Bool.not_eq_true'] using hserved
  simp only [State.serveDma, hall, hration, decide_true, Bool.not_false, Bool.and_self]

/-- R554: a transfer that is served whole ends, and answers the bytes moved. -/
theorem dmaDone_whole {die : BitVec 3} {m : BitVec 2} {moved : DmaMoved} {x : DmaXfer} {u : State}
    (hfound : (s.pads.dmas.filter (fun x => x.die = die.toNat))[m.toNat]? = some x) (hidle : s.bankPending x.die x.bank = false)
    (hserve : s.serveDma x x.len = (u, true)) : execDmaDone die m .whole moved s = .next (u.endDma x moved .ok) := by
  simp only [execDmaDone, hfound, hidle, decide_true, DmaXfer.moved, hserve, Bool.not_true, Bool.false_eq_true, if_true, if_false]

end

/-- Settles O30: the commands by their bank's owner, a hand-over's end by `bankHandoverDone_pending`, a transfer's by `serveDma_whole`. -/
theorem scratchCommandsComplete : Obligations.ScratchCommandsComplete := by
  refine ⟨?owner, ?read, ?write, ?dma, ?handover, ?ownerWrite, ?dmaDone, ?linkDown⟩
  case owner =>
    intro h bank owner clear s hready hexists hclear howner hnone hfree
    have hgood : ¬ ((!bankExists h.die.toNat bank.toNat) = true ∨ (!flagOk clear) = true ∨ 7 < owner.toNat) :=
      not_or.2 ⟨bnot_ne_true hexists, not_or.2 ⟨not_bnot_flagOk hclear, Nat.not_lt.2 howner⟩⟩
    have hnone' (c : Caller) : (s.start c).handoverRefused h.die.toNat bank.toNat owner.toNat = none := hnone
    refine waiting_answered (st := .ok) (ws := []) hready ((if_neg hgood).trans ?_)
    simp only [hnone']
    exact unlessClaimed_one (s := s.start _) hfree
  case read =>
    intro h bank offset count s hready hrange hpath hon howner
    exact completed_of hready ((if_neg (bnot_ne_true hrange)).trans (onHostBank_host (s := s.start _) hpath hon howner))
  case write =>
    intro h bank offset words s hready hrange hpath hfree hon howner
    exact completed_of hready ((if_neg (bnot_ne_true hrange)).trans ((unlessClaimed_one (s := s.start _) hfree).trans
      (onHostBank_host (s := s.start _) hpath hon howner)))
  case dma =>
    intro h dir bank offset hostHi hostLo len s hready hpath hdir hexists hhost hoffset hlen hlow hhigh hend hfree hon howner hroom hasync
    have hgood : ¬ (h.path ≠ .pcie ∨ 1 < dir.toNat ∨ (!bankExists h.die.toNat bank.toNat) = true ∨ hostAddress hostHi hostLo % 64 ≠ 0 ∨
        offset.toNat % 64 ≠ 0 ∨ len.toNat % 64 ≠ 0 ∨ len.toNat < 64 ∨ 2 ^ 24 < len.toNat ∨
        bankWords h.die.toNat bank.toNat * 4 < offset.toNat + len.toNat) :=
      not_or.2 ⟨not_not.2 hpath, not_or.2 ⟨Nat.not_lt.2 hdir, not_or.2 ⟨bnot_ne_true hexists, by omega⟩⟩⟩
    exact completed_of hready ((if_neg hgood).trans ((unlessClaimed_one (s := s.start _) hfree).trans ((if_neg (bnot_ne_true hon)).trans
      ((if_neg (not_not.2 howner)).trans (if_neg (not_or.2 ⟨Nat.not_le.2 hroom, Bool.eq_false_iff.1 hasync⟩))))))
  case handover =>
    intro die bank x s hpending v w done
    refine ⟨fun hsram => (bankHandoverDone_pending hpending).trans (if_pos hsram), fun hhbm hunspent => ?_⟩
    exact (bankHandoverDone_pending hpending).trans ((if_neg (Nat.not_lt.2 hhbm)).trans
      (if_neg (fun ⟨hspent, _⟩ => Bool.eq_false_iff.1 hunspent hspent)))
  case ownerWrite =>
    intro p die bank data s hexists hdie hnew hmay hallowed
    exact congrArg Host.Outcome.next (writeOwner_starts hexists hdie hnew hmay hallowed)
  case dmaDone =>
    intro die m moved x s hfound hidle hserved left hall w v
    exact dmaDone_whole hfound hidle (serveDma_whole hserved hall)
  case linkDown =>
    intro moved s hdown hdue stop
    exact if_neg (not_or.2 ⟨Bool.eq_false_iff.1 hdown, Nat.not_le.2 hdue⟩)

end Sys2Proof

/-! The TRUST commands (R561, R563, R565, R568, R569, R571). -/

namespace Sys2Proof

open Machine

section
variable {s : State} {h : Hdr} {op : Nat} {rule : DieRule} {f : State → State} {st : Status} {ws : List Word}

theorem trustGate_open {r : Res} (herror : s.errorState = false) : s.trustGate r = r := if_neg (Bool.eq_false_iff.1 herror)

/-- A TRUST command outside the error state has its body's result. -/
theorem trustCommand_open {body : Caller → State → Res} (hready : s.ready h op rule = true) (herror : s.errorState = false)
    (hbody : body (callerOf h op) (s.start (callerOf h op)) = ⟨f (s.start (callerOf h op)), st, ws, false⟩) :
    Host.Outcome.next (command h op rule (fun c s => s.trustGate (body c s)) s) =
      (completed h op s f ws st : Host.Outcome State Fault Refusal) :=
  completed_of hready ((trustGate_open (s := s.start _) herror).trans hbody)

/-- R561: what DARN_LOAD answers where its image stands, or fails a check. -/
def darnJudged (a : State) (c : Caller) (bank : Nat) (image : List Nat) : State :=
  if a.imageOk image then
    { a with trust := { a.trust with staged := some (imageDarn image), pending := some (imageDarn image, c, a.elapsed, bank) } }
  else (a.report .secDarnReject 0 .secDarnReject 15 0).answer c .badParam []

theorem darnJudged_res (a : State) (c : Caller) (bank : Nat) (image : List Nat) :
    (if (!a.imageOk image) = true then (⟨(a.report .secDarnReject 0 .secDarnReject 15 0).answer c .badParam [], .ok, [], true⟩ : Res)
      else ⟨{ a with trust := { a.trust with staged := some (imageDarn image), pending := some (imageDarn image, c, a.elapsed, bank) } },
        .ok, [], true⟩) = ⟨darnJudged a c bank image, .ok, [], true⟩ := by
  cases hok : a.imageOk image with
  | true => simp only [darnJudged, hok, Bool.not_true, Bool.false_eq_true, if_false, if_true]
  | false => simp only [darnJudged, hok, Bool.not_false, Bool.false_eq_true, if_false, if_true]

/-- What DARN_LOAD asks before it reads the bank: outside the error state, a bank and a length in range, SQ unclaimed, a lifecycle that loads,
no load pending, room and a bank that is on. -/
theorem darnLoad_checks {bank len : Word} {r : Res} {c : Caller} (herror : s.errorState = false) (hbank : bank.toNat ≤ 63)
    (hlen : len.toNat ≤ bankWords 0 bank.toNat * 4) (hfree : s.claimed 0 .sq = false) (hraw : s.lifecycle ≠ 0) (hretired : s.lifecycle ≠ 3)
    (hidle : s.trust.pending = none) (hasync : (s.start c).asyncFull = false) (hon : s.bankOn 0 bank.toNat = true) :
    (s.start c).trustGate (if 63 < bank.toNat ∨ bankWords 0 bank.toNat * 4 < len.toNat then .fail (s.start c) .badParam
      else (s.start c).unlessClaimed [(0, .sq)] (
        if (s.start c).lifecycle = 0 ∨ (s.start c).lifecycle = 3 then .fail (s.start c) .unauthorized
        else if (s.start c).trust.pending.isSome = true ∨ (s.start c).asyncFull = true ∨ (!(s.start c).bankOn 0 bank.toNat) = true then
          .fail (s.start c) .busy
        else r)) = r := by
  have hstands : ¬ ((s.start c).trust.pending.isSome = true ∨ (s.start c).asyncFull = true ∨ (!(s.start c).bankOn 0 bank.toNat) = true) :=
    not_or.2 ⟨not_isSome hidle, not_or.2 ⟨Bool.eq_false_iff.1 hasync, bnot_ne_true hon⟩⟩
  exact (trustGate_open (s := s.start c) herror).trans ((if_neg (by omega)).trans ((unlessClaimed_one (s := s.start c) hfree).trans
    ((if_neg (not_or.2 ⟨hraw, hretired⟩)).trans (if_neg hstands))))

end

/-- Settles O38: each command by `trustCommand_open`, a load by `darnLoad_checks` and the image's judgement. -/
theorem trustCommandsComplete : Obligations.TrustCommandsComplete := by
  refine ⟨?attest, ?certificates, ?load, ?loadOther, ?status, ?own, ?retire, ?reject⟩
  case attest =>
    intro h nonce key s hready herror hlength hraw hkey
    have hkey' (c : Caller) : (s.start c).cipher.identity = some key := hkey
    refine trustCommand_open hready herror ((if_neg (not_not.2 hlength)).trans ((if_neg hraw).trans ?_))
    simp only [hkey']
    rfl
  case certificates =>
    intro h s hready herror
    exact trustCommand_open hready herror rfl
  case load =>
    intro h bank len s hready herror hbank hlen hfree hraw hretired hidle hasync hon howner hpath
    exact waiting_answered hready ((darnLoad_checks herror hbank hlen hfree hraw hretired hidle hasync hon).trans
      ((if_neg (not_or.2 ⟨not_not.2 howner, hpath⟩)).trans (darnJudged_res ..)))
  case loadOther =>
    intro h bank len s hready herror hbank hlen hfree hraw hretired hidle hasync hon hother
    exact waiting_answered hready ((darnLoad_checks herror hbank hlen hfree hraw hretired hidle hasync hon).trans (if_pos hother))
  case status =>
    intro h s hready herror
    exact completed_of hready (trustGate_open (s := s.start _) herror)
  case own =>
    intro h authority s hready herror hidle hshipped
    refine trustCommand_open hready herror ((if_neg (not_isSome hidle)).trans ((if_pos ⟨rfl, hshipped⟩).trans ?_))
    cases hok : ownAuthority authority with
    | true => rfl
    | false => rfl
  case retire =>
    intro h authority s hready herror hidle howned
    refine trustCommand_open hready herror ((if_neg (not_isSome hidle)).trans ((if_neg (fun ⟨htarget, _⟩ => absurd htarget (by decide))).trans
      ((if_pos ⟨rfl, howned⟩).trans ?_)))
    have hstart (c : Caller) : (s.start c).retireAuthority authority = s.retireAuthority authority := rfl
    simp only [hstart]
    cases hok : s.retireAuthority authority with
    | true => rfl
    | false => rfl
  case reject =>
    intro h target authority s hready herror hidle hown hretire
    exact trustCommand_open hready herror ((if_neg (not_isSome hidle)).trans ((if_neg hown).trans (if_neg hretire)))

end Sys2Proof

/-! The PM and GAUGE commands (R585, R591, R594, R595, R597, R598, R600, R601, R603). -/

namespace Sys2Proof

open Machine

/-- Settles O52: each PM and GAUGE command passes its die and block checks and the claims, and its reply is the branch left. -/
theorem gaugeCommandsComplete : Obligations.GaugeCommandsComplete := by
  refine ⟨?enable, ?disable, ?bin, ?threshold, ?crossings, ?snap, ?period, ?counters, ?slots, ?hist, ?clear⟩
  case enable =>
    intro h kind index die s hhome hready hfree hsegment
    have hhome' (c : Caller) : (s.start c).pmHome kind.toNat index.toNat = some die := hhome
    have hgood : ¬ ((some die : Option Nat).isNone = true ∨ (!flagOk 1) = true) := not_or.2 ⟨by simp, by decide⟩
    show execPmEntitySet h kind index 1 s = _
    simp only [execPmEntitySet, hhome, Option.getD_some]
    refine completed_of hready ?_
    simp only [hhome']
    exact (if_neg hgood).trans ((unlessClaimed_unclaimed (s := s.start _) hfree).trans ((if_neg (by decide)).trans
      (if_neg (bnot_ne_true hsegment))))
  case disable =>
    intro h kind index die s hhome hready hfree
    have hhome' (c : Caller) : (s.start c).pmHome kind.toNat index.toNat = some die := hhome
    have hgood : ¬ ((some die : Option Nat).isNone = true ∨ (!flagOk 0) = true) := not_or.2 ⟨by simp, by decide⟩
    show execPmEntitySet h kind index 0 s = _
    simp only [execPmEntitySet, hhome, Option.getD_some]
    refine completed_of hready ?_
    simp only [hhome']
    exact (if_neg hgood).trans ((unlessClaimed_unclaimed (s := s.start _) hfree).trans (if_pos trivial))
  case bin =>
    intro h kind index bin die n day e b s hhome hready hbin hentity hstands hreadable
    have hhome' (c : Caller) : (s.start c).pmHome kind.toNat index.toNat = some die := hhome
    have hentity' (c : Caller) : (s.start c).pm.ents.find (pmKey kind.toNat index.toNat) = some e := hentity
    show execPmRead h kind index bin none s = _
    simp only [execPmRead, hhome, Option.getD_some]
    refine completed_of hready ?_
    simp only [hhome', hbin, hentity', Option.bind_some, hstands]
    refine if_neg ?_
    rintro ⟨hlater, hended, hopen⟩
    rcases hreadable with hcurrent | hrunning | hclosed
    · exact absurd hcurrent hlater.ne'
    · exact bnot_ne_true hended (hrunning ▸ rfl)
    · exact bnot_ne_true hclosed hopen
  case threshold =>
    intro h kind param length threshold s hready hparam hlength hfree
    exact completed_of hready ((if_neg (by omega)).trans (unlessClaimed_unclaimed (s := s.start _) hfree))
  case crossings =>
    intro h s hready hfree
    exact completed_of hready (unlessClaimed_unclaimed (s := s.start _) hfree)
  case snap =>
    intro h instant s hready hfree hidle hasync
    exact completed_of hready ((unlessClaimed_unclaimed (s := s.start _) hfree).trans
      (if_neg (not_or.2 ⟨not_isSome hidle, Bool.eq_false_iff.1 hasync⟩)))
  case period =>
    intro h period first s hready hperiod hfree
    exact completed_of hready ((if_neg (Nat.not_lt.2 hperiod)).trans (unlessClaimed_unclaimed (s := s.start _) hfree))
  case counters =>
    intro h block unit b s hready hblock hunit w hexists v
    have hgood (live : Word) (hflag : flagOk live = true) :
        ¬ (65535 < unit.toNat ∨ (!unitExists w) = true ∨ (!flagOk live) = true) :=
      not_or.2 ⟨Nat.not_lt.2 hunit, not_or.2 ⟨bnot_ne_true hexists, bnot_ne_true hflag⟩⟩
    refine ⟨?_, fun x hlast => ?_⟩
    · refine completed_of hready ?_
      simp only [hblock]
      exact (if_neg (hgood 1 rfl)).trans (if_pos trivial)
    · have hlast' (c : Caller) : (s.start c).gauge.last = some x := hlast
      refine completed_of hready ?_
      simp only [hblock, hlast']
      exact (if_neg (hgood 0 rfl)).trans (if_neg (by decide))
  case slots =>
    intro h pipeline s hready hhalf hpipeline
    exact completed_of hready (if_neg (by omega))
  case hist =>
    intro h port die half g s hhist hready hport
    show execGaugeHistRead h port s = _
    simp only [execGaugeHistRead, hhist, Option.map_some, Option.getD_some]
    exact completed_of hready (if_neg (fun ⟨hlow, hother⟩ => hother (hport hlow)))
  case clear =>
    intro h block unit b s hready hblock hunit w hexists hfree
    refine completed_of hready ?_
    simp only [hblock]
    exact (if_neg (not_or.2 ⟨Nat.not_lt.2 hunit, bnot_ne_true hexists⟩)).trans (unlessClaimed_unclaimed (s := s.start _) hfree)

end Sys2Proof

/-! The events of PM and of the snapshots (R586, R587, R590, R592, R593, R598, R599). -/

namespace Sys2Proof

open Machine

section Snapshots

/-- No buffer is missing where each die of the snapshot has its next one. -/
theorem not_any_buffer_missing {s : State} (hbufs : ∀ die ∈ s.snapDies, s.nextBuffer die ≠ none) :
    ¬ ((s.snapDies.map (fun d => (d, s.nextBuffer d))).any (fun b => b.2.isNone)) = true := by
  rw [List.any_map, List.any_eq_true]
  rintro ⟨die, hdie, hmissing⟩
  exact hbufs die hdie (Option.isNone_iff_eq_none.1 hmissing)

/-- A single request whose instant is not reached leaves the launch to the period. -/
theorem execSnapshotLaunch_periodic {p t : Nat} {s : State} (hsingle : s.gauge.single.all (fun x => !s.allReached x.2) = true)
    (hperiodic : s.gauge.periodic = some (p, t)) (hreached : s.allReached t = true) :
    execSnapshotLaunch s = .next (State.launchSnapshot { s with gauge := { s.gauge with
      periodic := some (p, nextPeriod t (msSpan p) (s.now + 1)) } } none) := by
  unfold execSnapshotLaunch
  cases hone : s.gauge.single with
  | none =>
    simp only [hperiodic]
    exact if_pos hreached
  | some x =>
    have hwaits : ¬ s.allReached x.2 = true := by simpa [hone] using hsingle
    simp only [hperiodic]
    exact (if_neg hwaits).trans (if_pos hreached)

end Snapshots

/-- Settles O53: a second or a snapshot whose instant is reached takes the branch its guard leaves; a launch finds every
buffer, so that it latches. -/
theorem gaugeEventsComplete : Obligations.GaugeEventsComplete := by
  refine ⟨?second, ?forced, ?boundary, ?single, ?periodic, ?done, ?launch⟩
  case second =>
    intro die b s hbegan hreached
    show execPmSecond die s = _
    simp only [execPmSecond, State.pmSecond, hbegan]
    exact if_pos hreached
  case forced =>
    intro die b s hbegan hstepped helapsed
    show execPmSecondForced die s = _
    simp only [execPmSecondForced, hbegan]
    exact if_pos ⟨hstepped, helapsed⟩
  case boundary => exact fun die day s => rfl
  case single =>
    intro c t s hsingle hreached
    show execSnapshotLaunch s = _
    simp only [execSnapshotLaunch, hsingle]
    exact if_pos hreached
  case periodic => exact fun p t s hsingle hperiodic hreached => execSnapshotLaunch_periodic hsingle hperiodic hreached
  case done =>
    intro x caller bufs s hlatched
    show execSnapshotDone s = _
    simp only [execSnapshotDone, hlatched]
  case launch =>
    intro s hbufs hlatched
    have hidle : ¬ (s.gauge.latched.isSome = true ∨ (s.snapDies.map (fun d => (d, s.nextBuffer d))).any (fun b => b.2.isNone) = true) :=
      not_or.2 ⟨not_isSome hlatched, not_any_buffer_missing hbufs⟩
    exact if_neg hidle

end Sys2Proof

/-! The POWER and REMUDA commands (R609, R611, R612, R614, R616-R619): the order to hand over, and the work a sequencer holds. -/

namespace Sys2Proof

open Machine

section HandOver

/-- A REMUDA.BRING_IN from the host link under tag 0, to die 0. -/
def bringInHdr : Hdr := ⟨.pcie, 0, 0, 0⟩

/-- A device after cast-on in which sequencer 0 still holds that command as a work item. -/
def deviceHoldingBringIn : State := { State.reset.setFlag .sysCastonDone 0 true with
  seqs := [(0, { SeqSt.empty with work := [.command (callerOf bringInHdr 0x1001) []] })] }

/-- The work of sequencer 0 after a step. -/
def workAfter : Host.Outcome State Fault Refusal → List SeqItem
  | .next u => (u.seq 0).work
  | _ => []

/-- Running the command takes its own item out of the work of every sequencer (`State.dequeue`). -/
theorem workAfter_remudaBringIn : workAfter (exec (.remudaBringIn bringInHdr 2 0) deviceHoldingBringIn) = [] := by decide

/-- The stated effect writes sequencer 0 as it stood before the command, the item included. -/
theorem workAfter_stated : workAfter (completed bringInHdr 0x1001 deviceHoldingBringIn (fun u =>
    (u.beginBringIn 2 0 0 (some (callerOf bringInHdr 0x1001))).setSeq 0 { deviceHoldingBringIn.seq 0 with order := true })
    [] .accepted) = [.command (callerOf bringInHdr 0x1001) []] := by decide

end HandOver

/-- Refutes O54: for a sequencer to be replaced the statement orders the hand-over on the sequencer's state before the
command (`s.seq q`), but a command that starts is first taken out of every sequencer's work. On a state whose sequencer 0
holds the very command as an item, BRING_IN leaves the work empty, the stated state keeps the item. -/
theorem not_powerCommandsComplete : ¬ Obligations.PowerCommandsComplete := by
  intro hall
  obtain ⟨-, -, -, -, -, -, -, hbringIn, -⟩ := hall
  obtain ⟨-, hsequencer, -⟩ := hbringIn bringInHdr 2 0 deviceHoldingBringIn (by decide) (by decide) (by decide) (by decide) (by decide)
  have hwork := congrArg workAfter (hsequencer (by decide) (by decide))
  exact absurd (workAfter_remudaBringIn.symm.trans (hwork.trans workAfter_stated)) (by decide)

end Sys2Proof
